-- ==== Sys2Proof/Word.lean ====
section
/-! DEFINITION. The word types of the TZ8220 model: 32-bit registers (R31), bytes, and the two fixed-size
identifiers that commands carry. -/

namespace Sys2Proof

/-- A field register word (R31). -/
abbrev Word := BitVec 32

/-- A byte of a ring entry, a scatter-list element or a memory cell. -/
abbrev Byte := BitVec 8

/-- A byte string, first byte first; every multi-byte field in one is little-endian (R28). -/
abbrev Bytes := List Byte

end Sys2Proof
end

