-- ==== Sys2Proof/Syntax.lean ====
section
/-! DEFINITION. The commands of the block: one constructor of `Instr` per row of spec/opcode_table.json, with the row's
operands, and the records those operands are made of. -/

namespace Sys2Proof

/-- Who sent a command: the host through its rings, or the field service port (R193, R203). -/
inductive Src where
  | host | fsp
  deriving DecidableEq, Repr

/-- One element of a scatter list (R168). -/
structure SgElem where
  addr : BitVec 64
  len : BitVec 32
  res : BitVec 32
  deriving DecidableEq, Repr

/-- What a command's bulk transfer supplies: the scatter list as read from host memory, the bytes that move towards the
field, and, where a host-memory access fails, how many bytes moved first (R168 to R170). -/
structure Bulk where
  sgl : List SgElem
  data : Bytes
  dmaFail : Option Nat
  deriving DecidableEq, Repr

/-- The header of a submission entry (R167) with its source, queue, slot index and bulk data. `tagRes` and `flagRes` are
the reserved bits [15:10] of TAG and [7:2] of FLAGS; `resOff` is the entry offset of the first reserved parameter byte
that is not 0, if any. -/
structure Call where
  src : Src
  q : Fin 4
  tag : BitVec 10
  index : BitVec 12
  fence : Bool
  sg : Bool
  tagRes : BitVec 6
  flagRes : BitVec 6
  plen : Byte
  sgCount : BitVec 16
  sglAddr : BitVec 64
  resOff : Option (Fin 64)
  bulk : Bulk
  deriving DecidableEq, Repr

/-- The contents of an identity memory: segments of bytes at addresses; a byte in none reads 0xFF. -/
abbrev IdMem := List (Nat × Bytes)

/-- An identity memory as it is read (R137, R148): its contents, and the reads of word pairs, by byte address in the order in
which they come, that fail first, with the answer of each failed attempt: a RESULT, or none within 10 ms. -/
structure IdRead where
  mem : IdMem
  fails : List (Nat × List (Option Byte))
  deriving DecidableEq, Repr

/-- What the discovery of a link's heads meets (R147, R148): the identity memories of the populated slots, the cause for which the
link drops meanwhile, less 1, and the SEQ of the last return message accepted by its end (R425). -/
structure Discovery where
  heads : List (Fin 8 × IdRead)
  lost : Option (Fin 6)
  seq : Byte
  deriving DecidableEq, Repr

/-- What a training attempt of a link meets (R428): lock, the HELLO message, the ECHO messages each with its RT in ns, the STATUS
message of slot 0, the identity memory of the head end, and what discovery meets. -/
structure TrainIn where
  lock : Bool
  hello : Option Bytes
  echoes : List (BitVec 32 × Bytes)
  status : Option Bytes
  headEnd : IdRead
  found : Discovery
  deriving DecidableEq, Repr

/-- What a start-up finds (R116, R119, R47): the self-test of each core, the ROM, SRAM and OTP checks, the ranks with no
working setting and how long training took, the image slots whose flash read fails (core, slot), the elytron lanes that
come up, the levels of the SAFE channels, what the training of each link whose HLn_PRSNT_N is low meets (R117), and the
ETIMEs in ms at which step 7 begins and at which READY comes where no link takes longer. -/
structure BootIn where
  coreA : Bool
  coreB : Bool
  chip : Bool
  badRanks : List (Fin 4 × Fin 3)
  trainMs : BitVec 16
  flashBad : List (Fin 2 × Fin 3)
  h2f : Fin 5
  f2h : Fin 5
  safeA : Bool
  safeB : Bool
  links : List (Fin 24 × TrainIn)
  linksMs : BitVec 16
  readyMs : BitVec 16
  deriving DecidableEq, Repr

/-- One sample of a sensor (R538): a raw value in 0.1 °C, an ADC at full scale or at zero, a reserved MR4 code, or an MR4
read that fails on every device of a rank. -/
inductive Reading where
  | temp (t : BitVec 16) | open_ | short | reserved | failed
  deriving DecidableEq, Repr

/-- What a chirp boundary finds (R210 to R221, R536, R553): whether each heartbeat path has carried the heartbeats of the chirp that
has ended, whether the imago does its work in this chirp, whether it fails while it writes this chirp's checkpoint, how many of
items 6 to 9 it finishes before the deadline, the length of the work in ns, whether the pupa-alive word advanced, the sensor samples
by index (DT's only where its reading fails), the upper bound in °C of the range that MR4 reports of each DRAM device (15 channel +
5 rank + device) that is read, the field current in 10 mA, words of tick-core local memory and of checkpoint SRAM found with bad
parity, and the core of each write that the ports of R217 have seen beside the imago's own work. -/
structure ChirpIn where
  wire : Bool
  word : Bool
  works : Bool
  torn : Bool
  items : Fin 5
  workNs : BitVec 20
  pupa : Bool
  sensors : List (Fin 25 × Reading)
  mr4 : List (Fin 60 × Byte)
  iin : BitVec 12
  coreParity : Option (BitVec 32)
  ckptParity : Option (BitVec 32)
  portWrites : List (Fin 2)
  deriving DecidableEq, Repr
/-- What a host-to-field or field-to-host flit carries (R42). A COMMAND, COMPLETION or EVENT is the next that its sender has
to send. -/
inductive FlitMsg where
  | command
  | hostHeartbeat
  | fieldHeartbeat
  | time
  | data (desc off : Nat) (bytes : Bytes)
  | completion
  | event
  deriving DecidableEq, Repr

/-- A host-memory access of the host side: it succeeds, or fails at an address (R166). -/
abbrev DmaFail := Option (BitVec 64)
/-- A channel fault of R348. -/
inductive PosFault where
  | los | hall | amp | ssi | rate | sup
  deriving DecidableEq, Repr
/-- A chirp whose deferrable work has met the deadline (R211): whether items 1 to 5 had run past it, and the length of the
chirp's work up to the end of the checkpoint, in ns. -/
structure Overrun where
  hard : Bool
  workNs : BitVec 20
  deriving DecidableEq, Repr

/-- How an edge of A or B comes (R341, R579): the ns for which its levels hold at least, and a slot of the compare pool found with
bad parity. -/
structure EdgeIn where
  held : Byte
  parity : Option (Fin 4096)
  deriving DecidableEq, Repr

/-- A sample of a sin/cos channel (R343, R348): the steps of its interpolated phase, the frequency of its signal in Hz, and its
amplitude in 1/1,024 of nominal. -/
structure SinCosIn where
  steps : BitVec 16
  hz : BitVec 20
  amp : BitVec 16
  deriving DecidableEq, Repr

/-- An edge of Z, of a reference mark or of a print mark of a channel (R354, R356). -/
structure IndexEdge where
  ch : Fin 8
  rising : Bool
  deriving DecidableEq, Repr

/-- What shows a channel fault (R348), besides what the channel itself holds: the A and B or sin and cos signals absent for a
time in µs, an illegal Hall state, amplitudes outside the window, a frequency above the valid range, a supply cut. -/
inductive PosSign where
  | absent (us : BitVec 16)
  | illegal | amplitude | frequency | supply
  deriving DecidableEq, Repr
/-- A packet header's ECC check (R460). -/
inductive Ecc where
  | good | fixed | bad
  deriving DecidableEq, Repr
/-- What a DRAM access finds (R520, R521, R577): wrong symbols of the word's codeword, each with what is wrong in it (symbols 0-63
are data, 64-79 check), or the poison pattern; or that a beat of it on the field fabric failed parity and passed when retried, or
failed again in a read or in a write. -/
inductive DramErr where
  | symbols (bad : List (Fin 80 × Byte))
  | poisoned | beatRetried | beatRead | beatWrite
  deriving DecidableEq, Repr

/-- The commands. -/
inductive Instr where
  -- power, start-up, flash and tick cores (spec/02 to spec/05)
  | fieldResetRelease (b : BootIn)
  | fieldBrownOut
  | watchdogBite
  | vinFUpdate (v : BitVec 12)
  | vinOver
  | pwrFail
  | pwrFailDone
  | pwrRestored
  | encSupOn
  | encSupFault (ch : Fin 8)
  | encSupRetry (ch : Fin 8) (holds : Bool)
  | fwStage (c : Call) (core slot : Byte)
  | fwStageWriteDone
  | flashOperationDone
  | molt (c : Call) (flags : Byte)
  | moltPupaBooted (selfTest : Bool) (flashBad : List (Fin 3))
  | swapDrill (c : Call)
  | drillConfirmed
  | chirp (inp : ChirpIn)
  | checkpointDeadline (work : Overrun)
  | pupaLost
  | imagoTakeover (lag : BitVec 16) (badBanks : List (Fin 2 × BitVec 32))
  | failedCoreRelease (selfTest : Bool) (flashBad : List (Fin 3))
  | pupaReady
  | plannedHandover (gap : BitVec 16)
  | handoverFailed
  -- system, AUTH and register commands (spec/04_command_protocol.md)
  | nop (c : Call)
  | identify (c : Call)
  | queueConfig (c : Call) (mode liveService : Byte)
  | fieldReset (c : Call)
  | fieldResetDelayExpiry
  | authChallenge (c : Call) (level : Byte)
  | authRespond (c : Call) (level : Byte) (mac : BitVec 256)
  | authDrop (c : Call) (level : Byte)
  | regRead (c : Call) (addr : Word)
  | regWrite (c : Call) (addr value : Word)
  | regRmw (c : Call) (addr mask value : Word)
  | regReadBlock (c : Call) (addr : Word) (count : BitVec 16)
  -- register writes and reads with behaviour of their own, as the register commands that make them
  | sysLockSet (c : Call) (value : Word)
  | toneDataAccess (c : Call) (head : Fin 192) (write : Option Word)
  | toneCtlCommit (c : Call) (head : Fin 192)
  | toneCtlCopy (c : Call) (head : Fin 192)
  | scrErrClr (c : Call) (bar : Fin 8)
  | scrMaskDataAccess (c : Call) (write : Option Word)
  | nozzleWindowWrite (c : Call) (bar : Fin 8) (k : Fin 131072) (high : Bool) (value : Word)
  | latchedPairRead (c : Call) (addr : Word)
  | posTypeChange (c : Call) (ch : Fin 8) (value : Word)
  | posWrapWrite (c : Call) (ch : Fin 8) (value : Word)
  | posIdxLoad (c : Call) (ch : Fin 8) (value : Word)
  | posWebReturn (c : Call) (value : Word)
  | spgLpcWrite (c : Call) (high : Bool) (value : Word)
  | hlkEnWrite (c : Call) (link : Fin 24) (value : Word)
  | hlkLvlMapWrite (c : Call) (link : Fin 24) (value : Word)
  | camExpWrite (c : Call) (vc : Fin 4) (value : Word)
  | ispTblDataAccess (c : Call) (vc : Fin 4) (write : Option Word)
  | memRetrainWrite (c : Call) (ch : Fin 4) (value : Word)
  | memRankClrWrite (c : Call) (value : Word)
  | thmExclWrite (c : Call) (value : Word)
  | chirpPeriodWrite (c : Call) (value : Word)
  | logViolClr (c : Call)
  | counterPeakClr (c : Call) (addr : Word) (value : Word)
  | fijLiveOkWrite (c : Call) (value : Word)
  | fieldRegisterWrite (c : Call) (addr value : Word)
  -- host side: BAR0, rings, FSP, elytron
  | sqTailDoorbell (q : Fin 4) (tail : Word)
  | cqHeadDoorbell (head : Word)
  | ringEnable (ring : Fin 5) (value : Word)
  | ringDisable (ring : Fin 5) (value : Word)
  | bar0RegisterWrite (off : BitVec 14) (value : Option Word)
  | sqEntryFetch (entry : Bytes) (bulk : Bulk) (fail : DmaFail)
  | completionEntryWrite (fail : DmaFail)
  | completionWriteRetry (fail : DmaFail)
  | fieldLostCompletions
  | fspFrame (frame : Bytes)
  | elyFlitReceive (toField : Bool) (seq : BitVec 12) (crcGood : Bool) (parityBad : Bool) (msg : FlitMsg)
  | elyReplayTimeout (toField : Bool)
  | elyLaneDown (toField : Bool)
  | elyRetrainDone (h2f f2h : Fin 5)
  | hostHeartbeatSend
  | elyHostLost
  | hostAlertAssert
  | dataDescriptorClose (desc : Nat)
  | hostSideReset
  | hostSupplyChange (on : Bool)
  -- jobs and ingest (spec/06_raster_ingest_and_coding.md, spec/12_jobs_and_changeover.md)
  | jobDefine (c : Call) (jobId : Word)
  | jobLoadData (c : Call) (jobId : Word) (bar : Byte) (offset : BitVec 64)
  | jobRingAppend (c : Call) (jobId : Word) (offset : BitVec 64)
  | jobStreamOpen (c : Call) (jobId : Word) (barMask : Byte) (ringBytes : Word)
  | jobArm (c : Call) (jobId : Word)
  | jobSwitchAt (c : Call) (fromId toId : Word) (position : BitVec 64)
  | jobAbort (c : Call) (jobId : Word) (mode : Byte)
  | jobStatus (c : Call) (jobId : Word)
  | skelreStreamHeader
  | skelreBlockDecode (histBad : Option (BitVec 32))
  -- press and nozzle path (spec/07_nozzle_path_and_screening.md)
  | pressLoad (c : Call)
  | geoSet (c : Call) (head : Byte) (offset step : Word) (skew : Byte)
  | nozzleMapLoad (c : Call) (bar : Byte) (firstK count : Word)
  | lineScreen (link : Fin 24) (parityMask : Option (Fin 65536)) (nsmBad : List (Fin 131072)) (toneBad : List (Fin 192 × Byte)) (levelBad : Option (Fin 7 × BitVec 32))
  -- position channels and compare pool (spec/08_position_channels.md)
  | cmpAppend (c : Call) (count : BitVec 16) (inline : Bytes)
  | cmpEntryInsert
  | cmpClear (c : Call) (coMask : Byte)
  | posArmIndex (c : Call) (ch mode : Byte) (preset : BitVec 64)
  | webSourceReturn
  | quadEdge (ch : Fin 8) (a b : Bool) (edge : EdgeIn)
  | hallStateChange (ch : Fin 8) (st : Fin 8)
  | sincosPhaseStep (ch : Fin 8) (sample : SinCosIn)
  | ssiFrame (ch : Fin 8) (startHigh errBit : Bool) (word : BitVec 48)
  | indexEvent (edge : IndexEdge)
  | coPulseEnd (co : Fin 8)
  | speedWindow (ch : Fin 8)
  | stillTimeout (ch : Fin 8)
  | posFaultDetect (first : Fin 8 × PosSign) (more : List (Fin 8 × PosSign))
  | posFaultClear (ch : Fin 8) (fault : PosFault) (phase : BitVec 16)
  | webRatioWindow
  -- firing (spec/09_firing_and_speed_governor.md)
  | fireEnable (c : Call) (barMask enable : Byte)
  | stopFire (c : Call) (barMask : Byte)
  | fireInhibitHead (c : Call) (head inhibit : Byte)
  | loopUpdate
  | safeInhibit (channelB : Bool)
  | safeEnergised (channelB : Bool)
  | safeDiscrepancy
  -- head links (spec/10_head_link.md, discovery of spec/03_startup_and_images.md)
  | linkReattach (c : Call) (link : Byte)
  | linkReattachTimeout (link : Fin 24)
  | hlPresent (link : Fin 24)
  | linkTraining (link : Fin 24) (lock : Bool) (hello : Option Bytes) (echoes : List (BitVec 32 × Bytes)) (status : Option Bytes)
    (headEnd : IdRead) (found : Discovery)
  | hlTrainFail (link : Fin 24) (reason : Fin 6)
  | hlTrainRestart (link : Fin 24)
  | sidebandReadTimeout (link : Fin 24)
  | lineFrameSend (link : Fin 24) (parityBad : Option (BitVec 32))
  | tokenSend (link : Fin 24)
  | timeBlockSend (link : Fin 24)
  | alignBlockSend (link : Fin 24)
  | sidebandRequest (link : Fin 24)
  | returnMessageReceive (link : Fin 24) (voided : Bool) (msg : Bytes) (mem : IdRead)
  | confirmReceive (link : Fin 24) (slot : Fin 8) (status : Fin 4) (reason : Fin 8) (line freed drops : BitVec 16) (dev : Byte)
  | statusReceive (link : Fin 24) (slot : Fin 8) (headOk inhibited : Bool) (freed : BitVec 16) (ohms : BitVec 24) (mem : IdRead)
  | sbRespReceive (link : Fin 24) (tid : Fin 8) (result : Byte) (data : Bytes)
  | hlFrameNak (link : Fin 24) (slot : Fin 8) (reason : Byte) (line freed : BitVec 16)
  | confTimeout (link : Fin 24)
  | retSilent (link : Fin 24)
  | retLockLost (link : Fin 24)
  | hlPresentLost (link : Fin 24)
  | usageRecordWrite (head : Fin 192)
  | usageWriteEnd (head : Fin 192)
  -- camera, image pipeline and servo (spec/11_inspection_and_colour_servo.md)
  | camStart (c : Call)
  | camStop (c : Call)
  | servoSet (c : Call) (barMask mode : Byte)
  | camReinit (c : Call)
  | camReinitTimeout
  | servoCommit (bar : Fin 8)
  | camLinkUp (mem : IdMem) (fails : List (Nat × List (Option Byte)))
  | camLinkDown
  | camTriggerUnmatchedTimeout
  | camLineTrigger
  | csiFrameStart (vc : Fin 4) (eccFixed : Bool) (num : BitVec 16)
  | csiLineStart (vc : Fin 4) (eccFixed : Bool) (num : BitVec 16)
  | csiLinePacket (vc : Fin 4) (ecc : Ecc) (dt : Byte) (wc : BitVec 16) (payload : Bytes) (crcGood : Bool)
  | csiFrameEnd (vc : Fin 4) (eccFixed : Bool) (num : BitVec 16)
  | ispLineProcess (parityBad : Option (BitVec 32))
  | camCtlResponse (frame : Bytes)
  | camCtlTimeout
  -- DRAM (spec/13_memory_subsystem.md)
  | rankRetire (c : Call) (channel rank : Byte)
  | dramReadError (word : BitVec 30) (rank : Fin 3) (kind : DramErr) (cls : Fin 4)
  | memCaErr (ch : Fin 4) (rank : Fin 3) (writeCrc failed : Bool)
  | dramRefresh (ch : Fin 4) (rank : Fin 3) (bank : Fin 32)
  | rowHammerWindow
  | rowIdleClose (ch : Fin 4) (rank : Fin 3) (bank : Fin 32)
  | scrubRead (err : Option DramErr)
  | migrationRowCopy (bad : List (Fin 64)) (targetBad : Bool)
  | channelRetrain (ch : Fin 4) (result : Fin 3) (ms : BitVec 16) (failed : List (Fin 3))
  | channelReform
  -- temperature and power (spec/14_thermal_and_power.md)
  | thermSet (c : Call) (sensor : Byte) (warn throttle trip : BitVec 16)
  | powerBudget (c : Call) (fieldW : BitVec 16)
  | throttleEngageForced
  | throttleRelax
  | hwGuardSample (raw : List (Fin 16 × BitVec 16))
  -- operator display (spec/15_operator_display.md)
  | dspConfig (c : Call) (panelId : BitVec 24) (width height mbps : BitVec 16) (answer : Option (BitVec 24))
  | dspCommit (c : Call) (regions : Byte)
  | dspTeEdge
  | dspPushEnd (repeated : BitVec 32) (parity : Option (BitVec 32))
  | dspTeLost
  -- integrity, crossings and fault injection (spec/16_integrity_crossings_faults.md)
  | fijSet (c : Call) (target inst action : Byte) (rate count : Word)
  | fijClear (c : Call)
  | fijDelayRelease
  | cdcTimeout (id : BitVec 16)
  deriving DecidableEq, Repr

end Sys2Proof
end

