-- ==== Sys2Proof/Decode.lean ====
section
/-! DEFINITION. Commands by word. No row of spec/opcode_table.json gives bits: commands come as register accesses, ring
entries, flits, messages and pin events, so no word spells one. -/

namespace Sys2Proof

/-- The command that a word spells by the table's bits: none, for no row has bits. -/
def decodeTableWord (_nbits _w : Nat) : Option Instr := none

end Sys2Proof
end

