-- ==== Sys2Proof/Config.lean ====
section
/-! DEFINITION. What one manufactured part fixes (its one-time-programmable memory, its ROM) and the values the spec
leaves open. Each is a constant without a body, so no proof can see a value of it. -/

namespace Sys2Proof

/-- SYS_ID.ORDER from OTP: 1 for TZ8220-M1C, 2 for TZ8220-M1X (R2, R126, R135). -/
opaque Config.order : Fin 4
/-- The module revision from OTP (R126, R135). -/
opaque Config.modRev : Byte
/-- The SoC stepping, as R129 encodes it. -/
opaque Config.stepping : Byte
/-- The module serial number from OTP (R126). -/
opaque Config.serial : BitVec 64
/-- The SHA-256 of the public key of each image-key slot (R126). -/
opaque Config.imageKeyHash : Fin 4 → BitVec 256
/-- The revocation bit of each image-key slot (R126). -/
opaque Config.imageKeyRevoked : Fin 4 → Bool
/-- The AUTH key of each privilege level (R126, R195). -/
opaque Config.authKey : Fin 4 → BitVec 256
/-- The usage master key (R126, R141). -/
opaque Config.usageKey : BitVec 256
/-- The built-in blue-noise mask, byte by byte (R327). -/
opaque Config.romMask : Nat → Byte
/-- Free value: the 16-byte nonce of an AUTH CHALLENGE (R194). -/
opaque Config.freeNonce : Nat → BitVec 128
/-- Free value: a DETAIL_VALUE whose content R182 does not state. -/
opaque Config.freeDetail : Nat → BitVec 32
/-- The PCIe identifiers in the host-side flash, which the spec does not list (R127). -/
opaque Config.pcieIds : BitVec 64
/-- One less than the receive buffers of a virtual channel of the elytron, host to field (0 to 2) and field to host (3 to 5);
the spec gives no number (R45). -/
opaque Config.elyBuffers : Nat → Nat
/-- Free value: how far above its least value, in ns, the round trip of a crossing's request raised at an ETIME lies (R583 gives
its bounds). -/
opaque Config.freeTrip : Nat → Nat
/-- Free value: what the attached panel answers to the ID read of a DSP_CONFIG that comes through a ring or over FSP; none where it
does not answer (R146). -/
opaque Config.panelAnswer : Nat → Option (BitVec 24)
/-- Free value: what the decoder makes of a DRAM word of which more than 10 symbols are wrong: none where it finds the word
uncorrectable, else the 64 bytes it takes for the right ones (R520). -/
opaque Config.miscorrected : Bytes → List (Fin 80 × Byte) → Option Bytes
/-- The golden image of each core, written at manufacture (R123, R125). -/
opaque Config.golden : Fin 2 → Bytes
/-- Free value: what a PC1 step adds to the web count where the measured ratio is 0 (R359 states no quotient). -/
opaque Config.freeWebStep : Nat → BitVec 64
/-- Free value: what a servo formula gives where its divisor is 0 (R474, R476 state no quotient). -/
opaque Config.freeServo : Nat → BitVec 12
/-- Free value: which pixel of a push the line buffer did not hold, or met in a word of bad parity (R573, R579). -/
opaque Config.freePixel : Nat → Nat
/-- Free value: a head temperature that R537 computes outside the 16-bit range or as no number. -/
opaque Config.freeTemp : Nat → BitVec 16

end Sys2Proof
end

