-- ==== Sys2Proof/Machine/Bits.lean ====
section
/-! DEFINITION. Bit-field, byte-order, sign and saturation helpers shared by every meaning. Multi-byte fields are
little-endian (R28). -/

namespace Sys2Proof.Machine

/-- Bits `[hi:lo]` of `x`. -/
def bits (x hi lo : Nat) : Nat := (x >>> lo) % 2 ^ (hi - lo + 1)
/-- Bit `i` of `x`. -/
def bit (x i : Nat) : Bool := x.testBit i
/-- 1 for true, 0 for false. -/
def b2n (b : Bool) : Nat := if b then 1 else 0
/-- `x` with bit `i` set to `b`. -/
def setBit (x i : Nat) (b : Bool) : Nat := if b then x ||| 2 ^ i else if x.testBit i then x - 2 ^ i else x

/-- The value of a little-endian byte string. -/
def leNat : Bytes → Nat
  | [] => 0
  | b :: bs => b.toNat + 256 * leNat bs
/-- The `n` low bytes of `x`, little-endian. -/
def toLE : Nat → Nat → Bytes
  | 0, _ => []
  | n + 1, x => BitVec.ofNat 8 x :: toLE n (x / 256)
/-- The value of a big-endian byte string. -/
def beNat (bs : Bytes) : Nat := bs.foldl (fun a b => 256 * a + b.toNat) 0
/-- The `n` low bytes of `x`, big-endian. -/
def toBE (n x : Nat) : Bytes := (toLE n x).reverse
/-- Bytes `[off, off + n)` of a string, as a little-endian value; bytes beyond its end read 0. -/
def leAt (bs : Bytes) (off n : Nat) : Nat := leNat ((bs.drop off).take n)
/-- Byte `off` of a string, 0 beyond its end. -/
def byteAt (bs : Bytes) (off : Nat) : Nat := (bs.getD off 0).toNat

/-- The signed value of the low `w` bits of `x`. -/
def sgn (w x : Nat) : Int :=
  let y := x % 2 ^ w
  if y < 2 ^ (w - 1) then (y : Int) else (y : Int) - 2 ^ w
/-- The `w`-bit two's-complement pattern of `i`, wrapping. -/
def twos (w : Nat) (i : Int) : Nat := (i % (2 ^ w : Int)).toNat
/-- `i` held between `lo` and `hi`. -/
def clampI (lo hi i : Int) : Int := if i < lo then lo else if hi < i then hi else i
/-- `n` held between `lo` and `hi`. -/
def clampN (lo hi n : Nat) : Nat := if n < lo then lo else if hi < n then hi else n
/-- `i` saturated to a signed `w`-bit value, as its pattern. -/
def satS (w : Nat) (i : Int) : Nat := twos w (clampI (-(2 ^ (w - 1))) (2 ^ (w - 1) - 1) i)
/-- `n` saturated to `w` bits. -/
def satU (w n : Nat) : Nat := min n (2 ^ w - 1)
/-- `ceil (a / b)`, 0 for `b = 0`. -/
def ceilDiv (a b : Nat) : Nat := if b = 0 then 0 else (a + b - 1) / b
/-- `n` rounded up to a multiple of `m`. -/
def alignUp (n m : Nat) : Nat := ceilDiv n m * m
/-- Arithmetic shift right of an integer (floor). -/
def sar (i : Int) (n : Nat) : Int := i / (2 ^ n : Int)
/-- The absolute value as a natural number. -/
def absN (i : Int) : Nat := i.natAbs
/-- A list with element `i` replaced. -/
def lset {α : Type} (l : List α) (i : Nat) (v : α) : List α := l.set i v
/-- The indices of the set bits of `m` below `n`. -/
def maskBits (n m : Nat) : List Nat := (List.range n).filter (fun i => m.testBit i)
/-- Does some element satisfy `p`? The first, with its place. -/
def findIdxFrom {α : Type} (p : α → Bool) : Nat → List α → Option (Nat × α)
  | _, [] => none
  | i, a :: as => if p a then some (i, a) else findIdxFrom p (i + 1) as
/-- The first element satisfying `p`, with its place. -/
def findIx {α : Type} (p : α → Bool) (l : List α) : Option (Nat × α) := findIdxFrom p 0 l
/-- Drop the first element satisfying `p`. -/
def dropFirst {α : Type} (p : α → Bool) : List α → List α
  | [] => []
  | a :: as => if p a then as else a :: dropFirst p as
/-- Apply `f` to the elements satisfying `p`. -/
def mapIf {α : Type} (p : α → Bool) (f : α → α) (l : List α) : List α := l.map fun a => if p a then f a else a

/-- The 16-byte event data or RESULT whose bytes from `off` hold `v`: fields are added up. -/
def at_ (off v : Nat) : Nat := v * 256 ^ off

end Sys2Proof.Machine
end

