-- ==== Sys2Proof/Machine/Crypto.lean ====
section
/-! DEFINITION. The checks and digests the spec names by their standards: CRC-32C (R43), CRC-16 (R414, R431),
SHA-256 and HMAC-SHA-256 (R143, R195) and the ECDSA P-256 verification of firmware images (R128). -/

namespace Sys2Proof.Machine

/-- One bit of a reflected CRC with polynomial `poly`. -/
def crcBit (poly : Nat) (c : Nat) : Nat := if c % 2 = 1 then (c / 2) ^^^ poly else c / 2
/-- One byte of a reflected CRC. -/
def crcByte (poly c : Nat) (b : Byte) : Nat := Nat.repeat (crcBit poly) 8 (c ^^^ b.toNat)
/-- CRC-32C: Castagnoli, reflected, initial value and final inversion all ones (R43). -/
def crc32c (bs : Bytes) : Nat := bs.foldl (crcByte 0x82F63B78) 0xFFFFFFFF ^^^ 0xFFFFFFFF
/-- One bit of an unreflected 16-bit CRC. -/
def crc16Bit (poly c : Nat) : Nat := if c ≥ 0x8000 then ((c * 2) % 0x10000) ^^^ poly else c * 2
/-- CRC-16 with polynomial 0x1021, unreflected, initial value all ones (CCITT). -/
def crc16 (bs : Bytes) : Nat :=
  bs.foldl (fun c b => Nat.repeat (crc16Bit 0x1021) 8 (c ^^^ (b.toNat * 256))) 0xFFFF

/-! SHA-256 (FIPS 180-4). A chaining value is the pair of its halves, `[a, b, c, d]` and `[e, f, g, h]`: each round puts one new
word in front of either. -/

/-- The first 64 primes, whose roots give the constants. -/
def shaPrimes : List Nat :=
  [2, 3, 5, 7, 11, 13, 17, 19, 23, 29, 31, 37, 41, 43, 47, 53,
   59, 61, 67, 71, 73, 79, 83, 89, 97, 101, 103, 107, 109, 113, 127, 131,
   137, 139, 149, 151, 157, 163, 167, 173, 179, 181, 191, 193, 197, 199, 211, 223,
   227, 229, 233, 239, 241, 251, 257, 263, 269, 271, 277, 281, 283, 293, 307, 311]
/-- The `e`-th root of `n`, built from its bit `k - 1` down on `r`. -/
def rootBits (e n : Nat) : Nat → Nat → Nat
  | 0, r => r
  | k + 1, r => rootBits e n k (if (r + 2 ^ k) ^ e ≤ n then r + 2 ^ k else r)
/-- The first 32 bits of the fraction of the `e`-th root of `p`. -/
def rootFraction (e p : Nat) : Nat := rootBits e (p * 2 ^ (32 * e)) 37 0 % 2 ^ 32
/-- A 32-bit word turned right. -/
def turn32 (x n : Nat) : Nat := x / 2 ^ n + x % 2 ^ n * 2 ^ (32 - n)
/-- The exclusive or of a word turned by each amount, and shifted by `sh` where that is not 0. -/
def mix32 (by_ : List Nat) (sh x : Nat) : Nat :=
  by_.foldl (fun acc n => acc ^^^ turn32 x n) (if sh = 0 then 0 else x / 2 ^ sh)
/-- The message schedule of `n` more words, newest first. -/
def shaSched (n : Nat) (w : List Nat) : List Nat :=
  Nat.repeat (fun w => (w.getD 15 0 + mix32 [7, 18] 3 (w.getD 14 0) + w.getD 6 0 + mix32 [17, 19] 10 (w.getD 1 0)) % 2 ^ 32 :: w) n w
/-- One round on the two halves, with the sum of its constant and its schedule word. -/
def shaRound (x y : List Nat) (kw : Nat) : List Nat × List Nat :=
  let p := x.getD 0 0; let q := x.getD 1 0; let r := x.getD 2 0
  let u := y.getD 0 0
  let t := y.getD 3 0 + mix32 [6, 11, 25] 0 u + (y.getD 2 0 ^^^ (u &&& (y.getD 1 0 ^^^ y.getD 2 0))) + kw
  (((t + mix32 [2, 13, 22] 0 p + ((p &&& (q ||| r)) ||| (q &&& r))) % 2 ^ 32) :: x.take 3,
    ((x.getD 3 0 + t) % 2 ^ 32) :: y.take 3)
/-- One 64-byte block on the eight words of the chaining value. -/
def shaBlock (h : List Nat) (blk : Bytes) : List Nat :=
  let w := shaSched 48 ((List.range 16).map fun i => beNat ((blk.drop (60 - 4 * i)).take 4))
  let z := (shaPrimes.zip w.reverse).foldl (fun z e => shaRound z.1 z.2 (rootFraction 3 e.1 + e.2)) (h.take 4, h.drop 4)
  List.zipWith (fun p q => (p + q) % 2 ^ 32) h (z.1 ++ z.2)
/-- `n` blocks. -/
def shaBlocks : Nat → List Nat → Bytes → List Nat
  | 0, h, _ => h
  | n + 1, h, bs => shaBlocks n (shaBlock h bs) (bs.drop 64)
/-- SHA-256 of a message, padded by a 1 bit, zeros and its length in bits. -/
def sha256 (m : Bytes) : Bytes :=
  let pad := 0x80#8 :: (List.replicate ((119 - m.length % 64) % 64) 0#8 ++ toBE 8 (8 * m.length))
  (shaBlocks ((m.length + pad.length) / 64) ((shaPrimes.take 8).map (rootFraction 2)) (m ++ pad)).flatMap (toBE 4)
/-- HMAC-SHA-256 (FIPS 198-1). -/
def hmac (key m : Bytes) : Bytes :=
  let k0 := if key.length > 64 then sha256 key else key
  let k := k0 ++ List.replicate (64 - k0.length) 0#8
  sha256 (k.map (· ^^^ 0x5c#8) ++ sha256 (k.map (· ^^^ 0x36#8) ++ m))

/-! ECDSA over P-256 (FIPS 186-4). -/

/-- The field prime. -/
def p256P : Nat := 0xFFFFFFFF00000001000000000000000000000000FFFFFFFFFFFFFFFFFFFFFFFF
/-- The group order. -/
def p256N : Nat := 0xFFFFFFFF00000000FFFFFFFFFFFFFFFFBCE6FAADA7179E84F3B9CAC2FC632551
/-- The base point. -/
def p256G : Nat × Nat :=
  (0x6B17D1F2E12C4247F8BCE6E563A440F277037D812DEB33A0F4A13945D898C296,
   0x4FE342E2FE1A7F9B8EE7EB4A7C0F9E162BCE33576B315ECECBB6406837BF51F5)
/-- The curve constant b. -/
def p256B : Nat := 0x5AC635D8AA3A93E7B3EBBD55769886BC651D06B0CC53B0F63BCE3C3E27D2604B
/-- `a ^ e` modulo `m`, over the low `k` bits of `e`. -/
def powMod (m : Nat) : Nat → Nat → Nat → Nat
  | 0, _, _ => 1 % m
  | k + 1, a, e => (if e % 2 = 1 then a else 1) * powMod m k (a * a % m) (e / 2) % m
/-- The inverse modulo a prime below 2^256. -/
def invMod (m a : Nat) : Nat := powMod m 256 (a % m) (m - 2)
/-- Point addition; `none` is the point at infinity. -/
def ecAdd (x y : Option (Nat × Nat)) : Option (Nat × Nat) :=
  match x, y with
  | none, q => q
  | p, none => p
  | some (x1, y1), some (x2, y2) =>
    let p := p256P
    if x1 = x2 ∧ (y1 + y2) % p = 0 then none
    else
      let l := if x1 = x2 then (3 * x1 * x1 + p - 3) * invMod p (2 * y1) % p
        else (y2 + p - y1) * invMod p (x2 + p - x1) % p
      let x3 := (l * l + 2 * p - x1 - x2) % p
      some (x3, (l * (x1 + p - x3) + p - y1) % p)
/-- Scalar multiple, over the low `k` bits of `e`. -/
def ecMul : Nat → Nat → Option (Nat × Nat) → Option (Nat × Nat)
  | 0, _, _ => none
  | k + 1, e, q => ecAdd (if e % 2 = 1 then q else none) (ecMul k (e / 2) (ecAdd q q))
/-- ECDSA P-256 verification of digest `z` by public key `(qx, qy)` and signature `(r, s)`. -/
def ecdsaVerify (qx qy r s z : Nat) : Bool :=
  let onCurve := qx < p256P && qy < p256P && (qy * qy) % p256P == (qx * qx * qx + (p256P - 3) * qx + p256B) % p256P
  if !onCurve || r == 0 || s == 0 || r ≥ p256N || s ≥ p256N then false
  else
    let w := invMod p256N s
    let u1 := z * w % p256N
    let u2 := r * w % p256N
    match ecAdd (ecMul 256 u1 (some p256G)) (ecMul 256 u2 (some (qx, qy))) with
    | none => false
    | some (x, _) => x % p256N == r

end Sys2Proof.Machine
end

