-- ==== Sys2Proof/Machine/Store.lean ====
section
/-! DEFINITION. Sparse stores: a list of key and value pairs with strictly rising keys and no entry equal to what an
unlisted key reads as, so that equal stores are equal data. Registers, memory and per-instance records are held so. -/

namespace Sys2Proof.Machine

/-- A sparse store with natural-number keys. -/
abbrev SMap (α : Type) := List (Nat × α)

/-- The value at key `k`; `d` where the store lists none. -/
def mget {α : Type} (d : α) : SMap α → Nat → α
  | [], _ => d
  | e :: m, k => if e.1 = k then e.2 else mget d m k

/-- Insert or replace the value at `k`, keeping the keys rising. -/
def mput {α : Type} (k : Nat) (v : α) : SMap α → SMap α
  | [] => [(k, v)]
  | e :: m => if k < e.1 then (k, v) :: e :: m else if k = e.1 then (k, v) :: m else e :: mput k v m

/-- Drop what is listed at `k`. -/
def mdel {α : Type} (k : Nat) : SMap α → SMap α
  | [] => []
  | e :: m => if e.1 = k then mdel k m else e :: mdel k m

/-- Write `v` at `k`; writing the value `d` that an unlisted key reads as drops the entry. -/
def mset {α : Type} [DecidableEq α] (d : α) (m : SMap α) (k : Nat) (v : α) : SMap α :=
  if v = d then mdel k m else mput k v m

/-- The canonical form: keys strictly rising, and no entry equal to what an unlisted key reads as. -/
abbrev mwf {α : Type} (d : Nat → α) (m : SMap α) : Prop :=
  m.Pairwise (fun a b => a.1 < b.1) ∧ ∀ e ∈ m, e.2 ≠ d e.1

end Sys2Proof.Machine
end

