-- ==== Sys2Proof/Machine/RegMap.lean ====
section
/-! DEFINITION. The register map: one field descriptor for every field of every register table of the spec (address,
stride of its instances, bits, access, reset), and the address decoder of R602 and R604 over them. -/

namespace Sys2Proof.Machine

/-- The access types of R32. -/
inductive Access where
  | rw | ro | w1c | w1s | wo | rwl
  deriving DecidableEq, Repr

/-- One field of a register map. Instance `n` lies at `base + stride * (n / sub) + stride2 * (n % sub)`. -/
structure Fld where
  base : Nat
  stride : Nat
  cnt : Nat
  sub : Nat
  stride2 : Nat
  hi : Nat
  lo : Nat
  acc : Access
  rst : Nat
  deriving DecidableEq, Repr

/-- A field of a register with one instance. -/
def f1 (base hi lo : Nat) (acc : Access) (rst : Nat) : Fld := ⟨base, 0, 1, 1, 0, hi, lo, acc, rst⟩
/-- A field of a register with `cnt` instances, `stride` bytes apart. -/
def fN (base stride cnt hi lo : Nat) (acc : Access) (rst : Nat) : Fld := ⟨base, stride, cnt, 1, 0, hi, lo, acc, rst⟩
/-- A field of a register with `sub` instances inside each instance of its block. -/
def fNN (base stride cnt sub stride2 hi lo : Nat) (acc : Access) (rst : Nat) : Fld :=
  ⟨base, stride, cnt, sub, stride2, hi, lo, acc, rst⟩

/-- The address of instance `n` (R30). -/
def Fld.addr (f : Fld) (n : Nat) : Nat := f.base + f.stride * (n / f.sub) + f.stride2 * (n % f.sub)
/-- The store key of instance `n`: its address and its low bit. -/
def Fld.key (f : Fld) (n : Nat) : Nat := 32 * f.addr n + f.lo
/-- The number of bits. -/
def Fld.width (f : Fld) : Nat := f.hi - f.lo + 1
/-- The instance that lies at `addr`, if any. -/
def Fld.at? (f : Fld) (addr : Nat) : Option Nat :=
  if addr < f.base then none
  else
    let d := addr - f.base
    let n := if f.cnt = 1 then 0
      else if f.sub = 1 then d / f.stride
      else f.sub * (d / f.stride) + (d % f.stride) / f.stride2
    if n < f.cnt ∧ f.addr n = addr then some n else none

/-! R52 -/
def ELY_STATUS.LINK_UP : Fld := f1 0x30000 0 0 .ro 0x0
def ELY_STATUS.H2F_WIDTH : Fld := f1 0x30000 3 1 .ro 0x0
def ELY_STATUS.F2H_WIDTH : Fld := f1 0x30000 5 4 .ro 0x0
def ELY_STATUS.HOST_ALIVE : Fld := f1 0x30000 6 6 .ro 0x0
def ELY_CFG.HOST_HB_MISS : Fld := f1 0x30004 3 0 .rwl 0xa
def ELY_CFG.HOST_LOSS_POLICY : Fld := f1 0x30004 5 4 .rwl 0x0
def ELY_REPLAY_CNT.COUNT : Fld := f1 0x30008 31 0 .ro 0x0
def ELY_CRC_ERR_CNT.COUNT : Fld := f1 0x3000c 31 0 .ro 0x0
def ELY_REJECT_CNT.COUNT : Fld := f1 0x30010 31 0 .ro 0x0

/-! R110 -/
def PWR_SUPPLY.VIN_F : Fld := f1 0x170000 11 0 .ro 0x0
def PWR_SUPPLY.PF : Fld := f1 0x170000 12 12 .ro 0x0
def PWR_SUPPLY.PF_DONE : Fld := f1 0x170000 13 13 .ro 0x0
def PWR_SUPPLY.VIN_OVER : Fld := f1 0x170000 14 14 .ro 0x0
def PWR_PF_CFG.PF_LEVEL : Fld := f1 0x170004 7 0 .rwl 0xaa
def PWR_ENC_SUP.EN : Fld := f1 0x170008 7 0 .rw 0xff
def PWR_ENC_SUP.FAULT : Fld := f1 0x170008 15 8 .ro 0x0
def PWR_PF_CNT.COUNT : Fld := f1 0x17000c 31 0 .ro 0x0
def PWR_VIN_MIN.MIN : Fld := f1 0x170010 11 0 .ro 0xfff
def PWR_VIN_MIN.CLR : Fld := f1 0x170010 31 31 .wo 0x0

/-! R135 -/
def SYS_ID.ORDER : Fld := f1 0x0 3 0 .ro 0x0
def SYS_ID.MOD_REV : Fld := f1 0x0 11 4 .ro 0x0
def SYS_ID.STEP : Fld := f1 0x0 19 12 .ro 0x0
def SYS_SERIAL_LO.SERIAL : Fld := f1 0x4 31 0 .ro 0x0
def SYS_SERIAL_HI.SERIAL : Fld := f1 0x8 31 0 .ro 0x0
def SYS_BOOT.STATE : Fld := f1 0xc 3 0 .ro 0x1
def SYS_BOOT.IMAGO : Fld := f1 0xc 4 4 .ro 0x0
def SYS_BOOT.TC_A_FAIL : Fld := f1 0xc 5 5 .ro 0x0
def SYS_BOOT.TC_B_FAIL : Fld := f1 0xc 6 6 .ro 0x0
def SYS_BOOT.CKPT_MATCH : Fld := f1 0xc 7 7 .ro 0x0
def SYS_BOOT.RESET_CAUSE : Fld := f1 0xc 11 8 .ro 0x1
def SYS_FW.SLOT : Fld := fN 0x10 0x8 2 1 0 .ro 0x3
def SYS_FW.FALLBACK : Fld := fN 0x10 0x8 2 2 2 .ro 0x0
def SYS_FW.REASON : Fld := fN 0x10 0x8 2 7 3 .ro 0x0
def SYS_FW.MAP_EPOCH : Fld := fN 0x10 0x8 2 31 16 .ro 0x0
def SYS_EPOCH.CKPT_EPOCH : Fld := fN 0x14 0x8 2 15 0 .ro 0x0
def SYS_EPOCH.CMD_EPOCH : Fld := fN 0x14 0x8 2 31 16 .ro 0x0
def SYS_VER.VERSION : Fld := fN 0x20 0x4 2 31 0 .ro 0x0
def SYS_READY_TIME.MS : Fld := f1 0x28 31 0 .ro 0x0
def SYS_ID_POLICY.USAGE_BAD : Fld := f1 0x2c 0 0 .rwl 0x0

/-! R153 -/
def HDC_ID_STATUS.STATE : Fld := fN 0xc0000 0x100 192 2 0 .ro 0x0
def HDC_ID_STATUS.USAGE_FRESH : Fld := fN 0xc0000 0x100 192 3 3 .ro 0x0
def HDC_ID_STATUS.CHANGED : Fld := fN 0xc0000 0x100 192 4 4 .w1c 0x0
def HDC_ID_STATUS.REASON : Fld := fN 0xc0000 0x100 192 15 8 .ro 0x0
def HDC_SERIAL_LO.SERIAL : Fld := fN 0xc0004 0x100 192 31 0 .ro 0x0
def HDC_SERIAL_HI.SERIAL : Fld := fN 0xc0008 0x100 192 31 0 .ro 0x0
def HDC_MIN_PERIOD.NS : Fld := fN 0xc000c 0x100 192 31 0 .ro 0x0

/-! R155: BAR0 -/
def BAR_ID.DEVICE : Fld := f1 0x0 15 0 .ro 0x8220
def BAR_ID.IF_VER : Fld := f1 0x0 31 16 .ro 0x1
def BAR_STATE.FIELD_STATE : Fld := f1 0x4 3 0 .ro 0x0
def BAR_STATE.LINK_UP : Fld := f1 0x4 4 4 .ro 0x0
def BAR_STATE.FIELD_ALIVE : Fld := f1 0x4 5 5 .ro 0x0
def BAR_CTL.IRQ_PIN_EN : Fld := f1 0x8 0 0 .rw 0x0
def BAR_ERR.TAIL_RANGE : Fld := f1 0xc 0 0 .w1c 0x0
def BAR_ERR.CQ_HEAD_RANGE : Fld := f1 0xc 1 1 .w1c 0x0
def BAR_ERR.CFG_WHILE_EN : Fld := f1 0xc 2 2 .w1c 0x0
def BAR_ERR.DMA_ERR : Fld := f1 0xc 3 3 .w1c 0x0
def BAR_ERR.BAD_OFFSET : Fld := f1 0xc 4 4 .w1c 0x0
def BAR_ERR_ADDR.ADDR : Fld := f1 0x10 31 0 .ro 0x0
def IRQ_STATUS.CQ : Fld := f1 0x14 0 0 .w1c 0x0
def IRQ_STATUS.ALERT : Fld := f1 0x14 1 1 .w1c 0x0
def IRQ_STATUS.ERR : Fld := f1 0x14 2 2 .w1c 0x0
def IRQ_MASK.MASK : Fld := f1 0x18 2 0 .rw 0x7
def SQ_BASE_LO.BASE : Fld := fN 0x20 0x20 4 31 0 .rw 0x0
def SQ_BASE_HI.BASE : Fld := fN 0x24 0x20 4 31 0 .rw 0x0
def SQ_SIZE.LOG2 : Fld := fN 0x28 0x20 4 3 0 .rw 0x0
def SQ_SIZE.EN : Fld := fN 0x28 0x20 4 31 31 .rw 0x0
def SQ_TAIL.TAIL : Fld := fN 0x2c 0x20 4 11 0 .rw 0x0
def SQ_HEAD.HEAD : Fld := fN 0x30 0x20 4 11 0 .ro 0x0
def CQ_BASE_LO.BASE : Fld := f1 0xa0 31 0 .rw 0x0
def CQ_BASE_HI.BASE : Fld := f1 0xa4 31 0 .rw 0x0
def CQ_SIZE.LOG2 : Fld := f1 0xa8 3 0 .rw 0x0
def CQ_SIZE.EN : Fld := f1 0xa8 31 31 .rw 0x0
def CQ_HEAD.HEAD : Fld := f1 0xac 13 0 .rw 0x0
def CQ_TAIL.TAIL : Fld := f1 0xb0 13 0 .ro 0x0

/-! R198 -/
def LOG_VIOL_CTL.NEXT : Fld := f1 0x1b0000 3 0 .ro 0x0
def LOG_VIOL_CTL.CLR : Fld := f1 0x1b0000 31 31 .wo 0x0
def LOG_VIOL_CNT.COUNT : Fld := f1 0x1b0004 31 0 .ro 0x0
def LOG_EVT_OVWR_CNT.COUNT : Fld := f1 0x1b0008 31 0 .ro 0x0
def LOG_VIOL_ADDR.ADDR : Fld := fN 0x1b0100 0x20 16 31 0 .ro 0x0
def LOG_VIOL_INFO.OPCODE : Fld := fN 0x1b0104 0x20 16 15 0 .ro 0x0
def LOG_VIOL_INFO.TAG : Fld := fN 0x1b0104 0x20 16 25 16 .ro 0x0
def LOG_VIOL_INFO.QUEUE : Fld := fN 0x1b0104 0x20 16 27 26 .ro 0x0
def LOG_VIOL_INFO.PRIV : Fld := fN 0x1b0104 0x20 16 29 28 .ro 0x0
def LOG_VIOL_INFO.SOURCE : Fld := fN 0x1b0104 0x20 16 30 30 .ro 0x0
def LOG_VIOL_ETIME_LO.ETIME : Fld := fN 0x1b0108 0x20 16 31 0 .ro 0x0
def LOG_VIOL_ETIME_HI.ETIME : Fld := fN 0x1b010c 0x20 16 31 0 .ro 0x0
def LOG_VIOL_REASON.REASON : Fld := fN 0x1b0110 0x20 16 1 0 .ro 0x0

/-! R206 -/
def CMDQ_CFG.MODE : Fld := f1 0x10000 0 0 .ro 0x0
def CMDQ_CFG.LIVE_SERVICE : Fld := f1 0x10000 1 1 .ro 0x0
def CMDQ_PRIV.HOST : Fld := f1 0x10004 1 0 .ro 0x0
def CMDQ_PRIV.FSP : Fld := f1 0x10004 3 2 .ro 0x0
def CMDQ_INFLIGHT.TOTAL : Fld := f1 0x10008 9 0 .ro 0x0
def CMDQ_INFLIGHT_Q.COUNT : Fld := fN 0x10010 0x4 4 9 0 .ro 0x0
def CMDQ_DONE_CNT.COUNT : Fld := f1 0x10020 31 0 .ro 0x0
def CMDQ_ERR_CNT.COUNT : Fld := f1 0x10024 31 0 .ro 0x0
def CMDQ_PROTO_CNT.COUNT : Fld := f1 0x10028 31 0 .ro 0x0
def CMDQ_AUTH_FAIL_CNT.COUNT : Fld := f1 0x1002c 31 0 .ro 0x0

/-! R244 -/
def TCK_CFG.CHIRP_US : Fld := f1 0x20000 8 0 .rw 0x64
def TCK_CFG.HB_MISS_LIMIT : Fld := f1 0x20000 15 12 .rwl 0x3
def TCK_CFG.REVERT_DISABLE : Fld := f1 0x20000 16 16 .rw 0x0
def TCK_STATUS.IMAGO_CORE : Fld := f1 0x20004 0 0 .ro 0x0
def TCK_STATUS.PUPA_STATE : Fld := f1 0x20004 2 1 .ro 0x0
def TCK_STATUS.LINE_HELD : Fld := f1 0x20004 3 3 .ro 0x0
def TCK_STATUS.SWITCHING : Fld := f1 0x20004 4 4 .ro 0x0
def TCK_STATUS.MISS_RUN : Fld := f1 0x20004 11 8 .ro 0x0
def TCK_STATUS.HB_WIRE_LOSS : Fld := f1 0x20004 12 12 .ro 0x0
def TCK_STATUS.HB_WORD_LOSS : Fld := f1 0x20004 13 13 .ro 0x0
def TCK_STATUS.MOLT_PENDING : Fld := f1 0x20004 14 14 .ro 0x0
def TCK_STATUS.DRILL_PENDING : Fld := f1 0x20004 15 15 .ro 0x0
def TCK_STATUS.REVERT_PENDING : Fld := f1 0x20004 16 16 .ro 0x0
def TCK_STATUS.A_FAIL_CNT : Fld := f1 0x20004 19 17 .ro 0x0
def TCK_STATUS.B_FAIL_CNT : Fld := f1 0x20004 22 20 .ro 0x0
def TCK_CHIRP_CNT.COUNT : Fld := f1 0x20008 31 0 .ro 0x0
def TCK_OVR_CNT.COUNT : Fld := f1 0x2000c 31 0 .ro 0x0
def TCK_HARD_OVR_CNT.COUNT : Fld := f1 0x20010 31 0 .ro 0x0
def TCK_CHIRP_MAX.NS : Fld := f1 0x20014 19 0 .ro 0x0
def TCK_CHIRP_MAX.CLR : Fld := f1 0x20014 31 31 .wo 0x0
def TCK_SWITCH_CNT.TAKEOVERS : Fld := f1 0x20018 15 0 .ro 0x0
def TCK_SWITCH_CNT.HANDOVERS : Fld := f1 0x20018 31 16 .ro 0x0
def TCK_LAST_SWITCH_LO.ETIME : Fld := f1 0x2001c 31 0 .ro 0x0
def TCK_LAST_SWITCH_HI.ETIME : Fld := f1 0x20020 31 0 .ro 0x0
def TCK_LAST_GAP.NS : Fld := f1 0x20024 23 0 .ro 0x0
def TCK_LAST_GAP.KIND : Fld := f1 0x20024 27 24 .ro 0x0
def TCK_HB_WIRE_MISS_CNT.COUNT : Fld := f1 0x20028 31 0 .ro 0x0
def TCK_HB_WORD_MISS_CNT.COUNT : Fld := f1 0x2002c 31 0 .ro 0x0
def TCK_LINE_DENY_CNT.COUNT : Fld := f1 0x20030 31 0 .ro 0x0

/-! R293 -/
def SKD_STATUS.BUSY : Fld := f1 0x50000 0 0 .ro 0x0
def SKD_STATUS.SOURCE : Fld := f1 0x50000 1 1 .ro 0x0
def SKD_STATUS.BAR : Fld := f1 0x50000 4 2 .ro 0x0
def SKD_STATUS.RING_OPEN : Fld := f1 0x50000 5 5 .ro 0x0
def SKD_STATUS.RING_DEAD : Fld := f1 0x50000 6 6 .ro 0x0
def SKD_STATUS.LAST_ERR : Fld := f1 0x50000 23 16 .ro 0x0
def SKD_BLOCK_CNT.COUNT : Fld := f1 0x50004 31 0 .ro 0x0
def SKD_BYTES_LO.BYTES : Fld := f1 0x50008 31 0 .ro 0x0
def SKD_BYTES_HI.BYTES : Fld := f1 0x5000c 31 0 .ro 0x0
def SKD_ERR_CNT.COUNT : Fld := f1 0x50010 31 0 .ro 0x0
def SKD_SWAP_CNT.COUNT : Fld := f1 0x50014 31 0 .ro 0x0
def SKD_POISON_CNT.COUNT : Fld := f1 0x50018 31 0 .ro 0x0
def SKD_RING_SIZE.BYTES : Fld := f1 0x5001c 31 0 .ro 0x0
def SKD_RING_FREE.BYTES : Fld := f1 0x50020 31 0 .ro 0x0
def SKD_AHEAD.LINES : Fld := fN 0x50040 0x4 8 23 0 .ro 0x0
def SKD_AHEAD.STALL : Fld := fN 0x50040 0x4 8 31 31 .ro 0x0

/-! R294 -/
def XBC_CNT_RES.COUNT : Fld := f1 0x60000 31 0 .ro 0x0
def XBC_CNT_PAL.COUNT : Fld := f1 0x60004 31 0 .ro 0x0
def XBC_CNT_TWO.COUNT : Fld := f1 0x60008 31 0 .ro 0x0
def XBC_CNT_QUAD.COUNT : Fld := f1 0x6000c 31 0 .ro 0x0
def XBC_MAXERR.ERR : Fld := f1 0x60010 7 0 .ro 0x0
def XBC_MAXERR.CLR : Fld := f1 0x60010 31 31 .wo 0x0
def XBC_RESERVED_CNT.COUNT : Fld := f1 0x60014 31 0 .ro 0x0

/-! R334 -/
def GEO_CFG.DROP_BITS : Fld := fN 0x80000 0x40 8 1 0 .ro 0x0
def GEO_CFG.INTERP : Fld := fN 0x80000 0x40 8 2 2 .ro 0x0
def GEO_CFG.COLORANT : Fld := fN 0x80000 0x40 8 15 8 .ro 0x0
def GEO_CFG.TWIN : Fld := fN 0x80000 0x40 8 19 16 .ro 0xf
def GEO_TWIN_DELTA.DELTA : Fld := fN 0x80004 0x40 8 31 0 .ro 0x0
def GEO_COLUMNS.COUNT : Fld := fN 0x80008 0x40 8 17 0 .ro 0x0
def GEO_PAIRS.COUNT : Fld := fN 0x8000c 0x40 8 15 0 .ro 0x0
def GEO_TWIN_RX.COUNT : Fld := fN 0x80010 0x40 8 8 0 .ro 0x0
def GEO_OUTSIDE.COUNT : Fld := fN 0x80014 0x40 8 17 0 .ro 0x0
def GEO_PRESS.LOADED : Fld := f1 0x80200 0 0 .ro 0x0
def GEO_PRESS.LPI : Fld := f1 0x80200 2 1 .ro 0x0
def GEO_PRESS.BAR_MASK : Fld := f1 0x80200 15 8 .ro 0x0
def GEO_PRESS_CRC.CRC : Fld := f1 0x80204 31 0 .ro 0x0

/-! R335 -/
def HDC_GEO_BASE.BASE : Fld := fN 0xc0010 0x100 192 16 0 .ro 0x0
def HDC_GEO_BASE.DIR : Fld := fN 0xc0010 0x100 192 17 17 .ro 0x0
def HDC_GEO_OFFSET.OFFSET : Fld := fN 0xc0014 0x100 192 31 0 .ro 0x0
def HDC_GEO_STEP.STEP : Fld := fN 0xc0018 0x100 192 31 0 .ro 0x10000
def HDC_GEO_SKEW.SKEW : Fld := fN 0xc001c 0x100 192 5 0 .ro 0x0
def HDC_TONE_IDX.IDX : Fld := fN 0xc0020 0x100 192 7 0 .rw 0x0
def HDC_TONE_IDX.BANK : Fld := fN 0xc0020 0x100 192 8 8 .rw 0x1
def HDC_TONE_DATA.VALUE : Fld := fN 0xc0024 0x100 192 11 0 .rw 0x0
def HDC_TONE_CTL.COMMIT : Fld := fN 0xc0028 0x100 192 0 0 .wo 0x0
def HDC_TONE_CTL.COPY : Fld := fN 0xc0028 0x100 192 1 1 .wo 0x0
def HDC_TONE_CTL.PENDING : Fld := fN 0xc0028 0x100 192 2 2 .ro 0x0
def HDC_TONE_GEN.GEN : Fld := fN 0xc002c 0x100 192 15 0 .ro 0x0

/-! R336 -/
def SCR_CFG.ERR_CLAMP : Fld := fN 0x90000 0x100 8 3 0 .rw 0xd
def SCR_CFG.LEAK : Fld := fN 0x90000 0x100 8 10 4 .rw 0x10
def SCR_CFG.SWITCH_CLR : Fld := fN 0x90000 0x100 8 12 12 .rw 0x0
def SCR_CFG.AMP : Fld := fN 0x90000 0x100 8 23 16 .rw 0x40
def SCR_MASK_OFF.XOFF : Fld := fN 0x90004 0x100 8 7 0 .rw 0x0
def SCR_MASK_OFF.YOFF : Fld := fN 0x90004 0x100 8 15 8 .rw 0x0
def SCR_REDIST.W1 : Fld := fN 0x90008 0x100 8 7 0 .rw 0x60
def SCR_REDIST.W2 : Fld := fN 0x90008 0x100 8 15 8 .rw 0x20
def SCR_REDIST.WEAK_KEEP : Fld := fN 0x90008 0x100 8 23 16 .rw 0x80
def SCR_CTL.ERR_CLR : Fld := fN 0x9000c 0x100 8 0 0 .wo 0x0
def SCR_LVL.VALUE : Fld := fNN 0x90010 0x100 56 7 0x4 11 0 .rw 0x0
def SCR_LVL.THRESH : Fld := fNN 0x90010 0x100 56 7 0x4 27 16 .rw 0x0
def SCR_REDIST_DROP.COUNT : Fld := fN 0x90030 0x100 8 31 0 .ro 0x0
def SCR_CLAMP_CNT.COUNT : Fld := fN 0x90034 0x100 8 31 0 .ro 0x0
def SCR_TWIN_FALLBACK_CNT.COUNT : Fld := fN 0x90038 0x100 8 31 0 .ro 0x0
def SCR_HOST_OVER_CNT.COUNT : Fld := fN 0x9003c 0x100 8 31 0 .ro 0x0
def SCR_MASK_IDX.WORD : Fld := f1 0x90800 13 0 .rw 0x0
def SCR_MASK_DATA.DATA : Fld := f1 0x90804 31 0 .rw 0x0
def SCR_PARITY_CNT.NSM : Fld := f1 0x90808 15 0 .ro 0x0
def SCR_PARITY_CNT.TONE : Fld := f1 0x90808 23 16 .ro 0x0
def SCR_PARITY_CNT.MASK : Fld := f1 0x90808 31 24 .ro 0x0

/-! R379 -/
def POS_CFG.TYPE : Fld := fN 0xe0000 0x800 8 2 0 .rw 0x0
def POS_CFG.REVERSE : Fld := fN 0xe0000 0x800 8 3 3 .rw 0x0
def POS_CFG.TERM : Fld := fN 0xe0000 0x800 8 4 4 .rw 0x1
def POS_CFG.FILT : Fld := fN 0xe0000 0x800 8 6 5 .rw 0x1
def POS_CFG.INTERP : Fld := fN 0xe0000 0x800 8 8 7 .rw 0x2
def POS_CFG.IDX_EDGE : Fld := fN 0xe0000 0x800 8 9 9 .rw 0x0
def POS_CFG.IDX_GATE : Fld := fN 0xe0000 0x800 8 10 10 .rw 0x0
def POS_STATUS.FAULT : Fld := fN 0xe0004 0x800 8 0 0 .ro 0x0
def POS_STATUS.LOS : Fld := fN 0xe0004 0x800 8 1 1 .ro 0x0
def POS_STATUS.HALL_BAD : Fld := fN 0xe0004 0x800 8 2 2 .ro 0x0
def POS_STATUS.AMP : Fld := fN 0xe0004 0x800 8 3 3 .ro 0x0
def POS_STATUS.SSI : Fld := fN 0xe0004 0x800 8 4 4 .ro 0x0
def POS_STATUS.RATE : Fld := fN 0xe0004 0x800 8 5 5 .ro 0x0
def POS_STATUS.SUP : Fld := fN 0xe0004 0x800 8 6 6 .ro 0x0
def POS_STATUS.SUSPECT : Fld := fN 0xe0004 0x800 8 7 7 .w1c 0x0
def POS_STATUS.DIR : Fld := fN 0xe0004 0x800 8 8 8 .ro 0x0
def POS_STATUS.STILL : Fld := fN 0xe0004 0x800 8 9 9 .ro 0x1
def POS_STATUS.INTERP8 : Fld := fN 0xe0004 0x800 8 10 10 .ro 0x0
def POS_STATUS.IDX_ARMED : Fld := fN 0xe0004 0x800 8 11 11 .ro 0x0
def POS_STATUS.IDX_REF : Fld := fN 0xe0004 0x800 8 12 12 .ro 0x0
def POS_STATUS.IDX_NEXT : Fld := fN 0xe0004 0x800 8 19 16 .ro 0x0
def POS_COUNT_LO.COUNT : Fld := fN 0xe0008 0x800 8 31 0 .ro 0x0
def POS_COUNT_HI.COUNT : Fld := fN 0xe000c 0x800 8 15 0 .ro 0x0
def POS_SPEED.SPEED : Fld := fN 0xe0010 0x800 8 31 0 .ro 0x0
def POS_PERIOD.NS : Fld := fN 0xe0014 0x800 8 31 0 .ro 0x0
def POS_SPD_CFG.WINDOW_US : Fld := fN 0xe0018 0x800 8 9 0 .rw 0x32
def POS_SPD_CFG.MIN_EDGES : Fld := fN 0xe0018 0x800 8 15 10 .rw 0x10
def POS_SPD_CFG.STILL_MS : Fld := fN 0xe0018 0x800 8 31 16 .rw 0x64
def POS_SIG_CFG.AMP_LO : Fld := fN 0xe001c 0x800 8 7 0 .rw 0x20
def POS_SIG_CFG.AMP_HI : Fld := fN 0xe001c 0x800 8 15 8 .rw 0x50
def POS_SIG_CFG.AMP_FILT : Fld := fN 0xe001c 0x800 8 19 16 .rw 0x8
def POS_SIG_CFG.LOS_US : Fld := fN 0xe001c 0x800 8 31 20 .rw 0xa
def POS_SSI_CFG.BITS : Fld := fN 0xe0020 0x800 8 5 0 .rw 0x18
def POS_SSI_CFG.GRAY : Fld := fN 0xe0020 0x800 8 6 6 .rw 0x0
def POS_SSI_CFG.ERRBIT : Fld := fN 0xe0020 0x800 8 7 7 .rw 0x0
def POS_SSI_CFG.CLK : Fld := fN 0xe0020 0x800 8 15 8 .rw 0xa
def POS_SSI_CFG.MONO_US : Fld := fN 0xe0020 0x800 8 21 16 .rw 0x14
def POS_SSI_CFG.RATE_US : Fld := fN 0xe0020 0x800 8 31 22 .rw 0x32
def POS_AMP.A : Fld := fN 0xe0024 0x800 8 15 0 .ro 0x0
def POS_ERR_CNT.QUAD : Fld := fN 0xe0028 0x800 8 7 0 .ro 0x0
def POS_ERR_CNT.HALL : Fld := fN 0xe0028 0x800 8 15 8 .ro 0x0
def POS_ERR_CNT.AMP : Fld := fN 0xe0028 0x800 8 23 16 .ro 0x0
def POS_ERR_CNT.SSI : Fld := fN 0xe0028 0x800 8 31 24 .ro 0x0
def POS_WRAP.WRAP : Fld := fN 0xe002c 0x800 8 31 0 .rw 0x0
def POS_IDX_CFG.MODE : Fld := fN 0xe0030 0x800 8 1 0 .rw 0x0
def POS_IDX_CFG.POLICY : Fld := fN 0xe0030 0x800 8 2 2 .rw 0x0
def POS_IDX_CFG.LOAD : Fld := fN 0xe0030 0x800 8 3 3 .wo 0x0
def POS_IDX_CFG.TOL : Fld := fN 0xe0030 0x800 8 31 16 .rw 0x4
def POS_IDX_PITCH.PITCH : Fld := fN 0xe0034 0x800 8 31 0 .rw 0x0
def POS_PRESET_LO.PRESET : Fld := fN 0xe0038 0x800 8 31 0 .rw 0x0
def POS_PRESET_HI.PRESET : Fld := fN 0xe003c 0x800 8 15 0 .rw 0x0
def POS_IDXLOG_CNT_LO.COUNT : Fld := fNN 0xe0100 0x800 128 16 0x10 31 0 .ro 0x0
def POS_IDXLOG_CNT_HI.COUNT : Fld := fNN 0xe0104 0x800 128 16 0x10 15 0 .ro 0x0
def POS_IDXLOG_CNT_HI.UNEXPECTED : Fld := fNN 0xe0104 0x800 128 16 0x10 16 16 .ro 0x0
def POS_IDXLOG_CNT_HI.ARMING : Fld := fNN 0xe0104 0x800 128 16 0x10 17 17 .ro 0x0
def POS_IDXLOG_CNT_HI.CORRECTED : Fld := fNN 0xe0104 0x800 128 16 0x10 18 18 .ro 0x0
def POS_IDXLOG_CNT_HI.REVERSE : Fld := fNN 0xe0104 0x800 128 16 0x10 19 19 .ro 0x0
def POS_IDXLOG_ETIME_LO.ETIME : Fld := fNN 0xe0108 0x800 128 16 0x10 31 0 .ro 0x0
def POS_IDXLOG_ETIME_HI.ETIME : Fld := fNN 0xe010c 0x800 128 16 0x10 31 0 .ro 0x0

/-! R380 -/
def POS_WEB_CFG.BACKUP_EN : Fld := f1 0xe4000 0 0 .rw 0x0
def POS_WEB_CFG.TOL_PPM : Fld := f1 0xe4000 23 8 .rw 0x7d0
def POS_WEB_CFG.TRACK : Fld := f1 0xe4000 28 24 .rw 0x10
def POS_WEB_STATUS.SRC : Fld := f1 0xe4004 0 0 .ro 0x0
def POS_WEB_STATUS.PC0_OK : Fld := f1 0xe4004 1 1 .ro 0x0
def POS_WEB_STATUS.PC1_OK : Fld := f1 0xe4004 2 2 .ro 0x0
def POS_WEB_STATUS.BACKUP_READY : Fld := f1 0xe4004 3 3 .ro 0x0
def POS_WEB_STATUS.LOST : Fld := f1 0xe4004 4 4 .ro 0x0
def POS_WEB_STATUS.RETURN_PENDING : Fld := f1 0xe4004 5 5 .ro 0x0
def POS_WEB_RATIO.R : Fld := f1 0xe4008 31 0 .ro 0x0
def POS_WEB_RATIO_NOM.NOM : Fld := f1 0xe400c 31 0 .rw 0x1000000
def POS_WEB_CTL.RETURN : Fld := f1 0xe4010 0 0 .wo 0x0
def POS_WEB_COUNT_LO.COUNT : Fld := f1 0xe4014 31 0 .ro 0x0
def POS_WEB_COUNT_HI.COUNT : Fld := f1 0xe4018 31 0 .ro 0x0
def POS_WEB_SWITCH_CNT.TAKEOVERS : Fld := f1 0xe401c 15 0 .ro 0x0
def POS_WEB_SWITCH_CNT.RETURNS : Fld := f1 0xe401c 31 16 .ro 0x0
def ER_CFG.MODE : Fld := fN 0xe4020 0x4 2 1 0 .rw 0x0
def ER_CFG.SRC : Fld := fN 0xe4020 0x4 2 3 2 .rw 0x0
def ER_CFG.DIV : Fld := fN 0xe4020 0x4 2 11 4 .rw 0x0
def ER_CFG.Z_EN : Fld := fN 0xe4020 0x4 2 12 12 .rw 0x1
def ER_OVR_CNT.ER0 : Fld := f1 0xe4028 15 0 .ro 0x0
def ER_OVR_CNT.ER1 : Fld := f1 0xe4028 31 16 .ro 0x0

/-! R381 -/
def CMP_CFG.LATEFIRE : Fld := f1 0xf0000 0 0 .rw 0x0
def CMP_STATUS.PENDING : Fld := f1 0xf0004 12 0 .ro 0x0
def CMP_STATUS.HOST_FREE : Fld := f1 0xf0004 28 16 .ro 0xfc0
def CMP_APPENDED_CNT.COUNT : Fld := f1 0xf0008 31 0 .ro 0x0
def CMP_FIRED_CNT.COUNT : Fld := f1 0xf000c 31 0 .ro 0x0
def CMP_MISSED_CNT.COUNT : Fld := f1 0xf0010 31 0 .ro 0x0
def CMP_CO_CFG.POL : Fld := f1 0xf0014 7 0 .rw 0x0
def CMP_CO_CFG.EN : Fld := f1 0xf0014 15 8 .rw 0x0
def CMP_CO_LEVEL.ACTIVE : Fld := f1 0xf0018 7 0 .ro 0x0
def CMP_LAST_MISS.TAG : Fld := f1 0xf001c 15 0 .ro 0x0
def CMP_LAST_MISS.SOURCE : Fld := f1 0xf001c 19 16 .ro 0x0
def CMP_LAST_MISS.CAUSE : Fld := f1 0xf001c 21 20 .ro 0x0

/-! R408 -/
def SPG_CFG.BW_HZ : Fld := f1 0x110000 8 0 .rw 0x64
def SPG_CFG.OVS_POLICY : Fld := f1 0x110000 9 9 .rw 0x0
def SPG_CFG.LEAD : Fld := f1 0x110000 16 10 .rw 0x14
def SPG_CFG.SLEW : Fld := f1 0x110000 20 17 .rw 0x2
def SPG_LPC_LO.LPC : Fld := f1 0x110004 31 0 .rw 0x0
def SPG_LPC_HI.LPC : Fld := f1 0x110008 15 0 .rw 0x1
def SPG_STATUS.LOCK : Fld := f1 0x11000c 0 0 .ro 0x0
def SPG_STATUS.MOVING : Fld := f1 0x11000c 1 1 .ro 0x0
def SPG_STATUS.REVERSE : Fld := f1 0x11000c 2 2 .ro 0x0
def SPG_STATUS.SLEWING : Fld := f1 0x11000c 3 3 .ro 0x0
def SPG_STATUS.STARVED : Fld := f1 0x11000c 4 4 .ro 0x0
def SPG_STATUS.SLOW : Fld := f1 0x11000c 5 5 .ro 0x0
def SPG_STATUS.SAFE_A : Fld := f1 0x11000c 6 6 .ro 0x0
def SPG_STATUS.SAFE_B : Fld := f1 0x11000c 7 7 .ro 0x0
def SPG_STATUS.SAFE_DISC : Fld := f1 0x11000c 8 8 .ro 0x0
def SPG_POS_LO.POS : Fld := f1 0x110010 31 0 .ro 0x0
def SPG_POS_HI.POS : Fld := f1 0x110014 5 0 .ro 0x0
def SPG_RATE.HZ : Fld := f1 0x110018 19 0 .ro 0x0
def SPG_ERR.ERR : Fld := f1 0x11001c 15 0 .ro 0x0
def SPG_ERR.PEAK : Fld := f1 0x11001c 30 16 .ro 0x0
def SPG_ERR.CLR : Fld := f1 0x11001c 31 31 .wo 0x0
def SPG_CEIL.HZ : Fld := f1 0x110020 19 0 .ro 0x0
def SPG_CEIL.BIND : Fld := f1 0x110020 23 20 .ro 0x0
def SPG_TERM_STATIC.HZ : Fld := f1 0x110024 19 0 .ro 0x0
def SPG_TERM_RUNWAY.HZ : Fld := f1 0x110028 19 0 .ro 0x0
def SPG_TERM_ELY.HZ : Fld := f1 0x11002c 19 0 .ro 0x0
def SPG_TERM_HEAD.HZ : Fld := f1 0x110030 19 0 .ro 0x0
def SPG_TERM_THERM.HZ : Fld := f1 0x110034 19 0 .ro 0x0
def SPG_TERM_POWER.HZ : Fld := f1 0x110038 19 0 .ro 0x0
def SPG_TERM_HOST.HZ : Fld := f1 0x11003c 19 0 .rw 0x27100
def SPG_RUNWAY.LINES : Fld := f1 0x110040 23 0 .ro 0x0
def SPG_RUNWAY.FULL : Fld := f1 0x110040 31 31 .ro 0x1
def SPG_RUNWAY_WARN.LINES : Fld := f1 0x110044 23 0 .rw 0x493e0
def SPG_RUNWAY_MIN.LINES : Fld := f1 0x110048 23 0 .rw 0x2710
def SPG_RAMP.DECEL_MAX : Fld := f1 0x11004c 15 0 .rw 0x64
def SPG_RAMP.ACCEL_MAX : Fld := f1 0x11004c 31 16 .rw 0x32
def SPG_HEAD_THERM.STEP : Fld := f1 0x110050 7 0 .rw 0x8
def SPG_HEAD_THERM.HYST : Fld := f1 0x110050 15 8 .rw 0x14
def SPG_SPD_CFG.SRC : Fld := fN 0x110054 0x8 2 1 0 .rw 0x3
def SPG_SPD_CFG.INVERT : Fld := fN 0x110054 0x8 2 2 2 .rw 0x0
def SPG_SPD_CFG.FULL_HZ : Fld := fN 0x110054 0x8 2 23 4 .rw 0x30d40
def SPG_SPD_CFG.PWM_KHZ : Fld := fN 0x110054 0x8 2 30 24 .rw 0x0
def SPG_SPD_VAL.CODE : Fld := fN 0x110058 0x8 2 15 0 .ro 0x0
def SPG_SPD_VAL.HOST : Fld := fN 0x110058 0x8 2 31 16 .rw 0x0
def SPG_PIO_CFG.FIRING_OUT : Fld := f1 0x110064 4 0 .rw 0x1f
def SPG_PIO_CFG.SLOW_OUT : Fld := f1 0x110064 12 8 .rw 0x1f
def SPG_PIO_CFG.STARVED_OUT : Fld := f1 0x110064 20 16 .rw 0x1f
def SPG_PIO_CFG.DEFECT_OUT : Fld := f1 0x110064 28 24 .rw 0x1f
def SPG_DEFECT_CFG.CO : Fld := f1 0x110068 2 0 .rw 0x0
def SPG_DEFECT_CFG.EN : Fld := f1 0x110068 3 3 .rw 0x0
def SPG_DEFECT_CFG.KINDS : Fld := f1 0x110068 8 4 .rw 0x1f
def SPG_DEFECT_CFG.WIDTH : Fld := f1 0x110068 31 16 .rw 0x3e8
def SPG_DEFECT_OFFSET.LINES : Fld := f1 0x11006c 31 0 .rw 0x0
def SPG_DEFECT_CNT.MARKERS : Fld := f1 0x110070 15 0 .ro 0x0
def SPG_DEFECT_CNT.MERGED : Fld := f1 0x110070 31 16 .ro 0x0

/-! R409 -/
def SPGB_FIRE.FIRING : Fld := fN 0x110100 0x20 8 0 0 .ro 0x0
def SPGB_FIRE.CAUSE : Fld := fN 0x110100 0x20 8 7 1 .ro 0x1
def SPGB_FIRE.ALT : Fld := fN 0x110100 0x20 8 8 8 .ro 0x0
def SPGB_DELAY_LO.DELAY : Fld := fN 0x110104 0x20 8 31 0 .ro 0x0
def SPGB_DELAY_HI.DELAY : Fld := fN 0x110108 0x20 8 5 0 .ro 0x0
def SPGB_TRIM.TRIM : Fld := fN 0x11010c 0x20 8 6 0 .rw 0x0
def SPGB_TRIM.APPLIED : Fld := fN 0x11010c 0x20 8 14 8 .ro 0x0
def SPGB_LINE.L : Fld := fN 0x110110 0x20 8 31 0 .ro 0x0
def SPGB_ALT.MAP : Fld := fN 0x110114 0x20 8 20 0 .rw 0x0

/-! R410 -/
def HDC_FIRE.FIRING : Fld := fN 0xc0030 0x100 192 0 0 .ro 0x0
def HDC_FIRE.HOST_INH : Fld := fN 0xc0030 0x100 192 1 1 .ro 0x0
def HDC_FIRE.TRIP : Fld := fN 0xc0030 0x100 192 2 2 .ro 0x0
def HDC_FIRE.ALT : Fld := fN 0xc0030 0x100 192 3 3 .ro 0x0
def HDC_FIRE.LIMIT : Fld := fN 0xc0030 0x100 192 4 4 .ro 0x0
def HDC_FIRE.PENDING : Fld := fN 0xc0030 0x100 192 12 8 .ro 0x0
def HDC_FIRE.TEMP : Fld := fN 0xc0030 0x100 192 31 16 .ro 0x0
def HDC_TEMP_LIM.LIMIT : Fld := fN 0xc0034 0x100 192 15 0 .rw 0x0
def HDC_TEMP_LIM.TRIP : Fld := fN 0xc0034 0x100 192 31 16 .rw 0x0
def HDC_ISSUED_LO.COUNT : Fld := fN 0xc0038 0x100 192 31 0 .ro 0x0
def HDC_ISSUED_HI.COUNT : Fld := fN 0xc003c 0x100 192 31 0 .ro 0x0
def HDC_STROBED_LO.COUNT : Fld := fN 0xc0040 0x100 192 31 0 .ro 0x0
def HDC_STROBED_HI.COUNT : Fld := fN 0xc0044 0x100 192 31 0 .ro 0x0
def HDC_DROPS_LO.COUNT : Fld := fN 0xc0048 0x100 192 31 0 .ro 0x0
def HDC_DROPS_HI.COUNT : Fld := fN 0xc004c 0x100 192 31 0 .ro 0x0
def HDC_LATE.COUNT : Fld := fN 0xc0050 0x100 192 31 0 .ro 0x0
def HDC_OVS.COUNT : Fld := fN 0xc0054 0x100 192 31 0 .ro 0x0
def HDC_INH.COUNT : Fld := fN 0xc0058 0x100 192 31 0 .ro 0x0
def HDC_UNCONF.COUNT : Fld := fN 0xc005c 0x100 192 31 0 .ro 0x0

/-! R446 -/
def HLK_CFG.EN : Fld := fN 0xa0000 0x400 24 0 0 .rw 0x1
def HLK_CFG.AUTO : Fld := fN 0xa0000 0x400 24 1 1 .rw 0x1
def HLK_CFG.TX_EQ : Fld := fN 0xa0000 0x400 24 3 2 .rw 0x1
def HLK_CFG.CONF_TO_US : Fld := fN 0xa0000 0x400 24 11 4 .rw 0x14
def HLK_LVL_MAP.W0 : Fld := fN 0xa0004 0x400 24 3 0 .ro 0x0
def HLK_LVL_MAP.W1 : Fld := fN 0xa0004 0x400 24 7 4 .rw 0x1
def HLK_LVL_MAP.W2 : Fld := fN 0xa0004 0x400 24 11 8 .rw 0x2
def HLK_LVL_MAP.W3 : Fld := fN 0xa0004 0x400 24 15 12 .rw 0x3
def HLK_LVL_MAP.W4 : Fld := fN 0xa0004 0x400 24 19 16 .rw 0x4
def HLK_LVL_MAP.W5 : Fld := fN 0xa0004 0x400 24 23 20 .rw 0x5
def HLK_LVL_MAP.W6 : Fld := fN 0xa0004 0x400 24 27 24 .rw 0x6
def HLK_LVL_MAP.W7 : Fld := fN 0xa0004 0x400 24 31 28 .rw 0x7
def HLK_STATUS.STATE : Fld := fN 0xa0008 0x400 24 2 0 .ro 0x0
def HLK_STATUS.PRSNT : Fld := fN 0xa0008 0x400 24 3 3 .ro 0x0
def HLK_STATUS.RET_LOCK : Fld := fN 0xa0008 0x400 24 4 4 .ro 0x0
def HLK_STATUS.LEAD_SHORT : Fld := fN 0xa0008 0x400 24 5 5 .ro 0x0
def HLK_STATUS.LOSS_CAUSE : Fld := fN 0xa0008 0x400 24 15 8 .ro 0x0
def HLK_STATUS.TRAIN_FAIL : Fld := fN 0xa0008 0x400 24 23 16 .ro 0x0
def HLK_STATUS.HE_REASON : Fld := fN 0xa0008 0x400 24 31 24 .ro 0x0
def HLK_LAT.LAT_NS : Fld := fN 0xa000c 0x400 24 15 0 .ro 0x0
def HLK_LAT.LEAD_MIN_NS : Fld := fN 0xa000c 0x400 24 31 16 .ro 0x0
def HLK_HELLO.SETUP_NS : Fld := fN 0xa0010 0x400 24 15 0 .ro 0x0
def HLK_HELLO.TOKENS : Fld := fN 0xa0010 0x400 24 23 16 .ro 0x0
def HLK_HELLO.VERSION : Fld := fN 0xa0010 0x400 24 31 24 .ro 0x0
def HLK_CREDIT.GRANT : Fld := fN 0xa0014 0x400 24 4 0 .ro 0x0
def HLK_FRAME_NAK_CNT.COUNT : Fld := fN 0xa0018 0x400 24 31 0 .ro 0x0
def HLK_RET_CRC_CNT.COUNT : Fld := fN 0xa001c 0x400 24 31 0 .ro 0x0
def HLK_REPLAY_CNT.COUNT : Fld := fN 0xa0020 0x400 24 31 0 .ro 0x0
def HLK_STRAY_CNT.COUNT : Fld := fN 0xa0024 0x400 24 31 0 .ro 0x0
def HLK_PROTO_CNT.COUNT : Fld := fN 0xa0028 0x400 24 31 0 .ro 0x0
def HLK_DROP_MISMATCH_CNT.COUNT : Fld := fN 0xa002c 0x400 24 31 0 .ro 0x0
def HLK_LOSS_CNT.LOSSES : Fld := fN 0xa0030 0x400 24 15 0 .ro 0x0
def HLK_LOSS_CNT.TRAIN_FAILS : Fld := fN 0xa0030 0x400 24 31 16 .ro 0x0
def HLK_UP_ETIME_LO.ETIME : Fld := fN 0xa0034 0x400 24 31 0 .ro 0x0
def HLK_UP_ETIME_HI.ETIME : Fld := fN 0xa0038 0x400 24 31 0 .ro 0x0
def HLK_UTIL.FWD : Fld := fN 0xa003c 0x400 24 9 0 .ro 0x0
def HLK_UTIL.RET : Fld := fN 0xa003c 0x400 24 25 16 .ro 0x0
def HLK_DEV.LAST : Fld := fN 0xa0040 0x400 24 7 0 .ro 0x0
def HLK_DEV.PEAK : Fld := fN 0xa0040 0x400 24 15 8 .ro 0x0
def HLK_DEV.CLR : Fld := fN 0xa0040 0x400 24 31 31 .wo 0x0
def HLK_SLOT_CRED.SENT : Fld := fNN 0xa0100 0x400 192 8 0x10 15 0 .ro 0x0
def HLK_SLOT_CRED.FREED : Fld := fNN 0xa0100 0x400 192 8 0x10 31 16 .ro 0x0
def HLK_SLOT_THERM.OHMS : Fld := fNN 0xa0104 0x400 192 8 0x10 23 0 .ro 0xffffff
def HLK_SLOT_THERM.AGE : Fld := fNN 0xa0104 0x400 192 8 0x10 30 24 .ro 0x7f
def HLK_SLOT_THERM.HEAD_OK : Fld := fNN 0xa0104 0x400 192 8 0x10 31 31 .ro 0x0
def HLK_SLOT_LAST.LINE : Fld := fNN 0xa0108 0x400 192 8 0x10 15 0 .ro 0x0
def HLK_SLOT_LAST.DEV : Fld := fNN 0xa0108 0x400 192 8 0x10 23 16 .ro 0x0
def HLK_SLOT_LAST.STATUS : Fld := fNN 0xa0108 0x400 192 8 0x10 25 24 .ro 0x0
def HLK_SLOT_LAST.REASON : Fld := fNN 0xa0108 0x400 192 8 0x10 28 26 .ro 0x0
def HLK_SLOT_USAGE.AGE_S : Fld := fNN 0xa010c 0x400 192 8 0x10 15 0 .ro 0x0
def HLK_SLOT_USAGE.DEFERRED : Fld := fNN 0xa010c 0x400 192 8 0x10 16 16 .ro 0x0
def HLK_SLOT_USAGE.FAILED : Fld := fNN 0xa010c 0x400 192 8 0x10 17 17 .ro 0x0

/-! R487 -/
def CAM_CFG.ER : Fld := f1 0x120000 0 0 .rw 0x0
def CAM_CFG.FRAME_LINES : Fld := f1 0x120000 25 16 .rw 0x100
def CAM_STATUS.STATE : Fld := f1 0x120004 2 0 .ro 0x0
def CAM_STATUS.STARTED : Fld := f1 0x120004 3 3 .ro 0x0
def CAM_STATUS.VC_MASK : Fld := f1 0x120004 7 4 .ro 0x0
def CAM_STATUS.REASON : Fld := f1 0x120004 15 8 .ro 0x0
def CAM_STATUS.LANES : Fld := f1 0x120004 18 16 .ro 0x0
def CAM_FS_POS_LO.POS : Fld := f1 0x120008 31 0 .ro 0x0
def CAM_FS_POS_HI.POS : Fld := f1 0x12000c 5 0 .ro 0x0
def CAM_FS_ETIME_LO.ETIME : Fld := f1 0x120010 31 0 .ro 0x0
def CAM_FS_ETIME_HI.ETIME : Fld := f1 0x120014 31 0 .ro 0x0
def CAM_FS_TAG.TAG : Fld := f1 0x120018 15 0 .ro 0x0
def CAM_TRIG_FIFO.LEVEL : Fld := f1 0x12001c 10 0 .ro 0x0
def CAM_TRIG_FIFO.OVR : Fld := f1 0x12001c 31 16 .ro 0x0
def CAM_ECC_CNT.CORR : Fld := f1 0x120020 15 0 .ro 0x0
def CAM_ECC_CNT.UNCORR : Fld := f1 0x120020 31 16 .ro 0x0
def CAM_LINE_BAD_CNT.CRC : Fld := f1 0x120024 15 0 .ro 0x0
def CAM_LINE_BAD_CNT.LENGTH : Fld := f1 0x120024 31 16 .ro 0x0
def CAM_PROTO_CNT.COUNT : Fld := f1 0x120028 31 0 .ro 0x0
def CAM_LINE_MISS_CNT.COUNT : Fld := f1 0x12002c 31 0 .ro 0x0
def CAM_CTL_CNT.DONE : Fld := f1 0x120030 15 0 .ro 0x0
def CAM_CTL_CNT.FAIL : Fld := f1 0x120030 31 16 .ro 0x0
def CAM_EXP.EXP : Fld := fN 0x120040 0x8 4 23 0 .rw 0x0
def CAM_EXP_GEN.SENT : Fld := fN 0x120044 0x8 4 7 0 .ro 0x0
def CAM_EXP_GEN.ACTIVE : Fld := fN 0x120044 0x8 4 15 8 .ro 0x0
def CAM_EXP_GEN.PENDING : Fld := fN 0x120044 0x8 4 16 16 .ro 0x0
def CAM_EXP_GEN.CLAMPED : Fld := fN 0x120044 0x8 4 17 17 .ro 0x0
def CAM_LINES.COUNT : Fld := fN 0x120060 0x4 4 31 0 .ro 0x0

/-! R488 -/
def ISP_CTX.PRIO : Fld := fN 0x130000 0x100 4 1 0 .rw 0x0
def ISP_CTX.ACTIVE : Fld := fN 0x130000 0x100 4 2 2 .ro 0x0
def ISP_BLACK_RG.RED : Fld := fN 0x130004 0x100 4 15 0 .rw 0x0
def ISP_BLACK_RG.GREEN : Fld := fN 0x130004 0x100 4 31 16 .rw 0x0
def ISP_BLACK_B.BLUE : Fld := fN 0x130008 0x100 4 15 0 .rw 0x0
def ISP_WB_RG.RED : Fld := fN 0x13000c 0x100 4 15 0 .rw 0x1000
def ISP_WB_RG.GREEN : Fld := fN 0x13000c 0x100 4 31 16 .rw 0x1000
def ISP_WB_B.BLUE : Fld := fN 0x130010 0x100 4 15 0 .rw 0x1000
def ISP_CCM.M : Fld := fNN 0x130014 0x100 36 9 0x4 15 0 .rw 0x0
def ISP_OFF.OFF : Fld := fNN 0x130038 0x100 12 3 0x4 15 0 .rw 0x0
def ISP_TBL_IDX.IDX : Fld := fN 0x130044 0x100 4 7 0 .rw 0x0
def ISP_TBL_IDX.TABLE : Fld := fN 0x130044 0x100 4 9 8 .rw 0x0
def ISP_TBL_DATA.DATA : Fld := fN 0x130048 0x100 4 15 0 .rw 0x0
def ISP_STAT_MEAN.MEAN : Fld := fN 0x13004c 0x100 4 15 0 .ro 0x0
def ISP_STAT_MEAN.GEN : Fld := fN 0x13004c 0x100 4 23 16 .ro 0x0
def ISP_STAT_MEAN.VALID : Fld := fN 0x13004c 0x100 4 24 24 .ro 0x0
def ISP_STAT_CLIP.CLIP : Fld := fN 0x130050 0x100 4 23 0 .ro 0x0
def ISP_STAT_FRAME.FRAME : Fld := fN 0x130054 0x100 4 15 0 .ro 0x0
def ISP_LINE_CNT.COUNT : Fld := fN 0x130058 0x100 4 31 0 .ro 0x0
def ISP_DROP_CNT.COUNT : Fld := fN 0x13005c 0x100 4 31 0 .ro 0x0
def ISP_LOAD.LOAD : Fld := f1 0x130800 9 0 .ro 0x0
def ISP_LOAD.PEAK : Fld := f1 0x130800 25 16 .ro 0x0
def ISP_LOAD.CLR : Fld := f1 0x130800 31 31 .wo 0x0

/-! R489 -/
def CSV_CFG.CYCLE : Fld := f1 0x140000 3 0 .rw 0x1
def CSV_CAM_DELAY_LO.DELAY : Fld := f1 0x140004 31 0 .rw 0x0
def CSV_CAM_DELAY_HI.DELAY : Fld := f1 0x140008 5 0 .rw 0x0
def CSVB_MODE.MODE : Fld := fN 0x140100 0x40 8 1 0 .ro 0x0
def CSVB_MODE.HOLD : Fld := fN 0x140100 0x40 8 2 2 .ro 0x0
def CSVB_MODE.PHASE : Fld := fN 0x140100 0x40 8 10 8 .rw 0x0
def CSVB_REPEAT.REPEAT : Fld := fN 0x140104 0x40 8 23 0 .rw 0x0
def CSVB_START.START : Fld := fN 0x140108 0x40 8 23 0 .rw 0x0
def CSVB_LAYOUT.WHITE : Fld := fN 0x14010c 0x40 8 7 0 .rw 0x20
def CSVB_LAYOUT.ROW : Fld := fN 0x14010c 0x40 8 15 8 .rw 0x20
def CSVB_LAYOUT.PATCH : Fld := fN 0x14010c 0x40 8 23 16 .rw 0x40
def CSVB_LAYOUT.GUARD : Fld := fN 0x14010c 0x40 8 31 24 .rw 0x8
def CSVB_SEQ.SEQ : Fld := fN 0x140110 0x40 8 15 0 .rw 0xaaaa
def CSVB_SEQ.LEVEL : Fld := fN 0x140110 0x40 8 18 16 .rw 0x0
def CSVB_SEQ.CHAN : Fld := fN 0x140110 0x40 8 21 20 .rw 0x0
def CSVB_PATCH.C1 : Fld := fN 0x140114 0x40 8 7 0 .rw 0x40
def CSVB_PATCH.C2 : Fld := fN 0x140114 0x40 8 15 8 .rw 0x80
def CSVB_PATCH.C3 : Fld := fN 0x140114 0x40 8 23 16 .rw 0xc0
def CSVB_PATCH.C4 : Fld := fN 0x140114 0x40 8 31 24 .rw 0xff
def CSVB_AIM_A.AIM1 : Fld := fN 0x140118 0x40 8 11 0 .rw 0x400
def CSVB_AIM_A.AIM2 : Fld := fN 0x140118 0x40 8 27 16 .rw 0x800
def CSVB_AIM_B.AIM3 : Fld := fN 0x14011c 0x40 8 11 0 .rw 0xc00
def CSVB_AIM_B.AIM4 : Fld := fN 0x14011c 0x40 8 27 16 .rw 0xf00
def CSVB_TONE_LAW.KT : Fld := fN 0x140120 0x40 8 7 0 .rw 0x80
def CSVB_TONE_LAW.TSTEP : Fld := fN 0x140120 0x40 8 15 8 .rw 0x20
def CSVB_TONE_LAW.TDB : Fld := fN 0x140120 0x40 8 23 16 .rw 0x18
def CSVB_NOZ_LAW.KN : Fld := fN 0x140124 0x40 8 7 0 .rw 0x40
def CSVB_NOZ_LAW.NSTEP : Fld := fN 0x140124 0x40 8 15 8 .rw 0x10
def CSVB_NOZ_LAW.DB : Fld := fN 0x140124 0x40 8 23 16 .rw 0x8
def CSVB_NOZ_LAW.AVG : Fld := fN 0x140124 0x40 8 27 24 .rw 0x4
def CSVB_DEAD.FRAC : Fld := fN 0x140128 0x40 8 7 0 .rw 0x40
def CSVB_DEAD.N : Fld := fN 0x140128 0x40 8 11 8 .rw 0x2
def CSVB_DEAD.MAX : Fld := fN 0x140128 0x40 8 23 16 .rw 0x8
def CSVB_GLIM.GMIN : Fld := fN 0x14012c 0x40 8 11 0 .rw 0x300
def CSVB_GLIM.GMAX : Fld := fN 0x14012c 0x40 8 27 16 .rw 0x600
def CSVB_XMAP.XCAL : Fld := fN 0x140130 0x40 8 15 0 .rw 0x0
def CSVB_XMAP.PITCH_NM : Fld := fN 0x140130 0x40 8 31 16 .rw 0x52af
def CSVB_CNT.COMMITS : Fld := fN 0x140134 0x40 8 15 0 .ro 0x0
def CSVB_CNT.DEAD_SET : Fld := fN 0x140134 0x40 8 31 16 .ro 0x0
def CSVB_SKIP.SKIPPED : Fld := fN 0x140138 0x40 8 15 0 .ro 0x0
def CSVB_SKIP.VOIDED : Fld := fN 0x140138 0x40 8 31 16 .ro 0x0
def CSVB_LAST.STRIP : Fld := fN 0x14013c 0x40 8 15 0 .ro 0x0
def CSVB_LAST.KIND : Fld := fN 0x14013c 0x40 8 16 16 .ro 0x0

/-! R510 -/
def JOB_CFG.MARGIN : Fld := f1 0x150000 15 0 .rw 0x40
def JOB_QUEUE.LIVE : Fld := f1 0x150004 3 0 .ro 0x0
def JOB_QUEUE.SWITCHES : Fld := f1 0x150004 5 4 .ro 0x0
def JOB_SCHED.DRAM_OK : Fld := f1 0x150008 0 0 .ro 0x0
def JOB_SCHED.THERM_OK : Fld := f1 0x150008 1 1 .ro 0x0
def JOB_SCHED.POWER_OK : Fld := f1 0x150008 2 2 .ro 0x0
def JOB_SCHED.DRAM_HEAD : Fld := f1 0x150008 31 16 .ro 0x0
def JOB_DEFER_CNT.COUNT : Fld := f1 0x15000c 31 0 .ro 0x0
def JOB_DEF_SEL.JOB_ID : Fld := f1 0x150010 31 0 .rw 0x0
def JOB_DEF_IDX.IDX : Fld := f1 0x150014 8 0 .rw 0x0
def JOB_DEF_IDX.COUNT : Fld := f1 0x150014 25 16 .ro 0x0
def JOB_DEF_IDX.OVERFLOW : Fld := f1 0x150014 26 26 .ro 0x0
def JOB_DEF_DATA0.UNIT : Fld := f1 0x150018 7 0 .ro 0x0
def JOB_DEF_DATA0.BAR : Fld := f1 0x150018 8 8 .ro 0x0
def JOB_DEF_DATA0.KIND : Fld := f1 0x150018 19 16 .ro 0x0
def JOB_DEF_DATA1.FIRST : Fld := f1 0x15001c 31 0 .ro 0x0
def JOB_DEF_DATA2.LAST : Fld := f1 0x150020 31 0 .ro 0x0
def JOB_DEF_DATA3.LINES : Fld := f1 0x150024 31 0 .ro 0x0
def JOBB_ACTIVE.JOB_ID : Fld := fN 0x150040 0x10 8 31 0 .ro 0x0
def JOBB_START_LO.START : Fld := fN 0x150044 0x10 8 31 0 .ro 0x0
def JOBB_START_HI.START : Fld := fN 0x150048 0x10 8 5 0 .ro 0x0
def JOBB_NEXT.JOB_ID : Fld := fN 0x15004c 0x10 8 31 0 .ro 0x0

/-! R532 -/
def MEM_CFG.CE_RETIRE : Fld := f1 0x40000 0 0 .rw 0x0
def MEM_CFG.RH_PM2 : Fld := f1 0x40000 1 1 .rw 0x0
def MEM_CFG.RANK_CLR : Fld := f1 0x40000 2 2 .wo 0x0
def MEM_CFG.MIG_RATE : Fld := f1 0x40000 15 8 .rw 0xa
def MEM_CFG.CE_LIMIT : Fld := f1 0x40000 31 16 .rw 0x100
def MEM_STATUS.IN_SERVICE : Fld := f1 0x40004 3 0 .ro 0x0
def MEM_STATUS.WAYS : Fld := f1 0x40004 6 4 .ro 0x0
def MEM_STATUS.MIG_QUEUE : Fld := f1 0x40004 10 8 .ro 0x0
def MEM_STATUS.GIB : Fld := f1 0x40004 22 16 .ro 0x0
def MEM_SCRUB_CFG.PERIOD_MIN : Fld := f1 0x40008 15 0 .rw 0x3c
def MEM_SCRUB_CFG.EN : Fld := f1 0x40008 16 16 .rw 0x1
def MEM_SCRUB_POS.PAGE : Fld := f1 0x4000c 23 0 .ro 0x0
def MEM_RH_CFG.THRESH : Fld := f1 0x40010 15 0 .rw 0x1000
def MEM_RH_CFG.WINDOW_MS : Fld := f1 0x40010 23 16 .rw 0x20
def MEM_MIG.FROM : Fld := f1 0x40014 1 0 .ro 0x0
def MEM_MIG.TO : Fld := f1 0x40014 3 2 .ro 0x0
def MEM_MIG.CH : Fld := f1 0x40014 5 4 .ro 0x0
def MEM_MIG.ACTIVE : Fld := f1 0x40014 6 6 .ro 0x0
def MEM_MIG.CAUSE_HOST : Fld := f1 0x40014 7 7 .ro 0x0
def MEM_MIG_CURSOR.ROW : Fld := f1 0x40018 20 0 .ro 0x0
def MEM_MIG_POISON_CNT.COUNT : Fld := f1 0x4001c 31 0 .ro 0x0
def MEM_POISON_CNT.MARKED : Fld := f1 0x40020 15 0 .ro 0x0
def MEM_POISON_CNT.READS : Fld := f1 0x40020 31 16 .ro 0x0
def MEM_LAST_UE.WORD : Fld := f1 0x40024 29 0 .ro 0x0

/-! R533 -/
def MEMC_STATUS.STATE : Fld := fN 0x40100 0x40 4 2 0 .ro 0x0
def MEMC_STATUS.RANK0 : Fld := fN 0x40100 0x40 4 10 8 .ro 0x0
def MEMC_STATUS.RANK1 : Fld := fN 0x40100 0x40 4 14 12 .ro 0x0
def MEMC_STATUS.RANK2 : Fld := fN 0x40100 0x40 4 18 16 .ro 0x0
def MEMC_STATUS.SLOT0 : Fld := fN 0x40100 0x40 4 21 20 .ro 0x0
def MEMC_STATUS.SLOT1 : Fld := fN 0x40100 0x40 4 23 22 .ro 0x1
def MEMC_CTL.RETRAIN : Fld := fN 0x40104 0x40 4 0 0 .wo 0x0
def MEMC_CE_01.RANK0 : Fld := fN 0x40108 0x40 4 15 0 .ro 0x0
def MEMC_CE_01.RANK1 : Fld := fN 0x40108 0x40 4 31 16 .ro 0x0
def MEMC_CE_2.RANK2 : Fld := fN 0x4010c 0x40 4 15 0 .ro 0x0
def MEMC_CE_2.UE : Fld := fN 0x4010c 0x40 4 31 16 .ro 0x0
def MEMC_CA_CNT.CA : Fld := fN 0x40110 0x40 4 15 0 .ro 0x0
def MEMC_CA_CNT.WCRC : Fld := fN 0x40110 0x40 4 31 16 .ro 0x0
def MEMC_RH_CNT.COUNT : Fld := fN 0x40114 0x40 4 31 0 .ro 0x0
def MEMC_UTIL.LOAD : Fld := fN 0x40118 0x40 4 9 0 .ro 0x0
def MEMC_UTIL.PEAK : Fld := fN 0x40118 0x40 4 25 16 .ro 0x0
def MEMC_UTIL.CLR : Fld := fN 0x40118 0x40 4 31 31 .wo 0x0
def MEMC_TRAIN.MS : Fld := fN 0x4011c 0x40 4 15 0 .ro 0x0
def MEMC_TRAIN.COUNT : Fld := fN 0x4011c 0x40 4 23 16 .ro 0x0

/-! R559 -/
def THM_CFG.GUARD : Fld := f1 0x160000 7 0 .rw 0x32
def THM_CFG.HYST : Fld := f1 0x160000 15 8 .rw 0x1e
def THM_CFG.STEP : Fld := f1 0x160000 23 16 .rw 0x8
def THM_CFG.HEAD_AGE : Fld := f1 0x160000 27 24 .rw 0x4
def THM_CFG.FLOOR : Fld := f1 0x160000 31 28 .rw 0x4
def THM_THR_CFG.ENGAGE_MS : Fld := f1 0x160004 15 0 .rw 0x1f4
def THM_THR_CFG.RELAX_MS : Fld := f1 0x160004 31 16 .rw 0x7d0
def THM_STATUS.LEVEL : Fld := f1 0x160008 2 0 .ro 0x0
def THM_STATUS.PENDING : Fld := f1 0x160008 3 3 .ro 0x0
def THM_STATUS.GUARD_HW : Fld := f1 0x160008 4 4 .ro 0x0
def THM_STATUS.TRIP : Fld := f1 0x160008 5 5 .ro 0x0
def THM_STATUS.COLD : Fld := f1 0x160008 6 6 .ro 0x0
def THM_STATUS.HOTTEST : Fld := f1 0x160008 12 8 .ro 0x0
def THM_STATUS.HOTTEST_T : Fld := f1 0x160008 31 16 .ro 0x0
def THM_EXCL.TS : Fld := f1 0x16000c 15 0 .rw 0x0
def THM_EXCL.MS : Fld := f1 0x16000c 23 16 .rw 0x0
def THM_EXCL.DT : Fld := f1 0x16000c 24 24 .rw 0x0
def THM_BROKEN.TS : Fld := f1 0x160010 15 0 .ro 0x0
def THM_BROKEN.MS : Fld := f1 0x160010 23 16 .ro 0x0
def THM_BROKEN.DT : Fld := f1 0x160010 24 24 .ro 0x0
def THM_THR_CNT.ENGAGES : Fld := f1 0x160014 15 0 .ro 0x0
def THM_THR_CNT.FORCED : Fld := f1 0x160014 31 16 .ro 0x0
def THM_HOLD_CFG.HOLD_MS : Fld := f1 0x160018 15 0 .rw 0x3e8
def THM_DEFER.QUEUED : Fld := f1 0x16001c 10 0 .ro 0x0
def THM_DEFER.FLASH_HOLD : Fld := f1 0x16001c 12 12 .ro 0x0
def THM_DEFER_CNT.FLASH : Fld := f1 0x160020 15 0 .ro 0x0
def THM_DEFER_CNT.LOG_FULL : Fld := f1 0x160020 31 16 .ro 0x0

/-! R560 -/
def THMS_READ.TEMP : Fld := fN 0x160100 0x10 25 15 0 .ro 0x0
def THMS_READ.BROKEN : Fld := fN 0x160100 0x10 25 16 16 .ro 0x0
def THMS_READ.WARN : Fld := fN 0x160100 0x10 25 17 17 .ro 0x0
def THMS_READ.THROTTLE : Fld := fN 0x160100 0x10 25 18 18 .ro 0x0
def THMS_READ.TRIP : Fld := fN 0x160100 0x10 25 19 19 .ro 0x0
def THMS_WT.WARN : Fld := fN 0x160104 0x10 25 15 0 .ro 0x0
def THMS_WT.THROTTLE : Fld := fN 0x160104 0x10 25 31 16 .ro 0x0
def THMS_TRIP.TRIP : Fld := fN 0x160108 0x10 25 15 0 .ro 0x0

/-! R561 -/
def HDC_TEMP_WARN.WARN : Fld := fN 0xc0060 0x100 192 15 0 .ro 0x0
def HDC_TEMP_WARN.BROKEN : Fld := fN 0xc0060 0x100 192 16 16 .ro 0x0
def HDC_TEMP_WARN.AT_WARN : Fld := fN 0xc0060 0x100 192 17 17 .ro 0x0

/-! R562 -/
def PWR_IIN.IIN : Fld := f1 0x170014 11 0 .ro 0x0
def PWR_IIN.P_MEAS : Fld := f1 0x170014 31 16 .ro 0x0
def PWR_BUDGET.BUDGET_W : Fld := f1 0x170018 7 0 .ro 0x78
def PWR_BUDGET.MARGIN_W : Fld := f1 0x170018 15 8 .rwl 0x4
def PWR_PRED.PRED : Fld := f1 0x17001c 15 0 .ro 0x0
def PWR_PRED.CORR : Fld := f1 0x17001c 31 16 .ro 0x0
def PWR_MODEL_A.P_IDLE : Fld := f1 0x170020 15 0 .rwl 0x208
def PWR_MODEL_A.K_DRAM : Fld := f1 0x170020 31 16 .rwl 0xfa
def PWR_MODEL_B.K_NOZ : Fld := f1 0x170024 15 0 .rwl 0x8c
def PWR_MODEL_B.K_COV : Fld := f1 0x170024 31 16 .rwl 0x46

/-! R575 -/
def DSP_STATUS.STATE : Fld := f1 0x180000 1 0 .ro 0x0
def DSP_STATUS.PUSHING : Fld := f1 0x180000 2 2 .ro 0x0
def DSP_STATUS.PENDING : Fld := f1 0x180000 4 3 .ro 0x0
def DSP_STATUS.TE_OK : Fld := f1 0x180000 6 6 .ro 0x0
def DSP_PANEL.WIDTH : Fld := f1 0x180004 10 0 .ro 0x0
def DSP_PANEL.HEIGHT : Fld := f1 0x180004 26 16 .ro 0x0
def DSP_LINK.LANE_MBPS : Fld := f1 0x180008 10 0 .ro 0x0
def DSP_PANEL_ID.ID : Fld := f1 0x18000c 23 0 .ro 0x0
def DSP_TIMING.WINDOW_US : Fld := f1 0x180010 15 0 .rw 0x7d0
def DSP_TIMING.PRIME_US : Fld := f1 0x180010 31 16 .rw 0xc8
def DSP_WM.LOW : Fld := f1 0x180014 15 0 .rw 0x4000
def DSP_TE.PERIOD_US : Fld := f1 0x180018 19 0 .ro 0x0
def DSP_COMMIT_CNT.DONE : Fld := f1 0x18001c 15 0 .ro 0x0
def DSP_COMMIT_CNT.LATE : Fld := f1 0x18001c 31 16 .ro 0x0
def DSP_UNDERRUN_CNT.COUNT : Fld := f1 0x180020 31 0 .ro 0x0
def DSP_LAST.COMMIT : Fld := f1 0x180024 15 0 .ro 0x0
def DSP_LAST.LATE : Fld := f1 0x180024 16 16 .ro 0x0
def DSP_LAST.UNDERRUN : Fld := f1 0x180024 17 17 .ro 0x0
def DSP_LAST.SPAN : Fld := f1 0x180024 18 18 .ro 0x0
def DSP_LAST.DISCARDED : Fld := f1 0x180024 19 19 .ro 0x0
def DSP_LAST.NO_TE : Fld := f1 0x180024 20 20 .ro 0x0
def DSP_LAST_TE_LO.ETIME : Fld := f1 0x180028 31 0 .ro 0x0
def DSP_LAST_TE_HI.ETIME : Fld := f1 0x18002c 31 0 .ro 0x0

/-! R598 -/
def CDC_CFG.TIMEOUT_US : Fld := f1 0x190000 9 0 .rwl 0xa
def CDC_STATUS.TIMED_OUT : Fld := f1 0x190004 7 0 .ro 0x0
def CDC_TO_CNT.COUNT : Fld := f1 0x190008 31 0 .ro 0x0
def CDC_ABORT_CNT.COUNT : Fld := f1 0x19000c 31 0 .ro 0x0
def CDC_ABORT_PULSES.COUNT : Fld := f1 0x190010 31 0 .ro 0x0
def CDC_SAT_CNT.COUNT : Fld := f1 0x190014 31 0 .ro 0x0
def CDC_LAST.ID : Fld := f1 0x190018 15 0 .ro 0x0
def CDC_LAST.KIND : Fld := f1 0x190018 17 16 .ro 0x0
def CDC_LAST_ETIME_LO.ETIME : Fld := f1 0x19001c 31 0 .ro 0x0
def CDC_LAST_ETIME_HI.ETIME : Fld := f1 0x190020 31 0 .ro 0x0

/-! R599 -/
def FIJ_CFG.LIVE_OK : Fld := f1 0x1a0000 0 0 .rw 0x0
def FIJ_ARG.ARG : Fld := f1 0x1a0004 15 0 .rw 0x0
def FIJ_STATUS.ARMED : Fld := f1 0x1a0008 7 0 .ro 0x0
def FIJ_HITS_TOTAL.COUNT : Fld := f1 0x1a000c 31 0 .ro 0x0
def FIJ_RULE.TARGET : Fld := fN 0x1a0040 0x10 8 3 0 .ro 0x0
def FIJ_RULE.ACTION : Fld := fN 0x1a0040 0x10 8 7 4 .ro 0x0
def FIJ_RULE.INSTANCE : Fld := fN 0x1a0040 0x10 8 15 8 .ro 0x0
def FIJ_RULE.ARG : Fld := fN 0x1a0040 0x10 8 31 16 .ro 0x0
def FIJ_RATE.RATE : Fld := fN 0x1a0044 0x10 8 31 0 .ro 0x0
def FIJ_LEFT.LEFT : Fld := fN 0x1a0048 0x10 8 31 0 .ro 0x0
def FIJ_HITS.COUNT : Fld := fN 0x1a004c 0x10 8 31 0 .ro 0x0

/-! R600 -/
def LOG_PAR_0.STAGE : Fld := f1 0x1b0400 7 0 .ro 0x0
def LOG_PAR_0.ISP : Fld := f1 0x1b0400 15 8 .ro 0x0
def LOG_PAR_0.CORE : Fld := f1 0x1b0400 23 16 .ro 0x0
def LOG_PAR_0.CKPT : Fld := f1 0x1b0400 31 24 .ro 0x0
def LOG_PAR_1.HIST : Fld := f1 0x1b0404 7 0 .ro 0x0
def LOG_PAR_1.POOL : Fld := f1 0x1b0404 15 8 .ro 0x0
def LOG_PAR_1.LEVEL : Fld := f1 0x1b0404 23 16 .ro 0x0
def LOG_PAR_1.DISP : Fld := f1 0x1b0404 31 24 .ro 0x0
def LOG_FABRIC_PAR.RETRIED : Fld := f1 0x1b0408 15 0 .ro 0x0
def LOG_FABRIC_PAR.FAILED : Fld := f1 0x1b0408 31 16 .ro 0x0
def LOG_ACCT_CNT.COUNT : Fld := f1 0x1b040c 31 0 .ro 0x0
def LOG_RECORD_BAD.COUNT : Fld := f1 0x1b0410 15 0 .ro 0x0

/-! R603 -/
def SYS_LOCK.CFG_LOCK : Fld := f1 0x30 0 0 .w1s 0x0

/-- The fields of the SYS block. -/
def fieldsSYS : List Fld :=
  [SYS_ID.ORDER, SYS_ID.MOD_REV, SYS_ID.STEP, SYS_SERIAL_LO.SERIAL, SYS_SERIAL_HI.SERIAL, SYS_BOOT.STATE,
   SYS_BOOT.IMAGO, SYS_BOOT.TC_A_FAIL, SYS_BOOT.TC_B_FAIL, SYS_BOOT.CKPT_MATCH, SYS_BOOT.RESET_CAUSE, SYS_FW.SLOT,
   SYS_FW.FALLBACK, SYS_FW.REASON, SYS_FW.MAP_EPOCH, SYS_EPOCH.CKPT_EPOCH, SYS_EPOCH.CMD_EPOCH, SYS_VER.VERSION,
   SYS_READY_TIME.MS, SYS_ID_POLICY.USAGE_BAD, SYS_LOCK.CFG_LOCK]

/-- The fields of the CMDQ block. -/
def fieldsCMDQ : List Fld :=
  [CMDQ_CFG.MODE, CMDQ_CFG.LIVE_SERVICE, CMDQ_PRIV.HOST, CMDQ_PRIV.FSP, CMDQ_INFLIGHT.TOTAL,
   CMDQ_INFLIGHT_Q.COUNT, CMDQ_DONE_CNT.COUNT, CMDQ_ERR_CNT.COUNT, CMDQ_PROTO_CNT.COUNT, CMDQ_AUTH_FAIL_CNT.COUNT]

/-- The fields of the TCK block. -/
def fieldsTCK : List Fld :=
  [TCK_CFG.CHIRP_US, TCK_CFG.HB_MISS_LIMIT, TCK_CFG.REVERT_DISABLE, TCK_STATUS.IMAGO_CORE, TCK_STATUS.PUPA_STATE,
   TCK_STATUS.LINE_HELD, TCK_STATUS.SWITCHING, TCK_STATUS.MISS_RUN, TCK_STATUS.HB_WIRE_LOSS,
   TCK_STATUS.HB_WORD_LOSS, TCK_STATUS.MOLT_PENDING, TCK_STATUS.DRILL_PENDING, TCK_STATUS.REVERT_PENDING,
   TCK_STATUS.A_FAIL_CNT, TCK_STATUS.B_FAIL_CNT, TCK_CHIRP_CNT.COUNT, TCK_OVR_CNT.COUNT, TCK_HARD_OVR_CNT.COUNT,
   TCK_CHIRP_MAX.NS, TCK_CHIRP_MAX.CLR, TCK_SWITCH_CNT.TAKEOVERS, TCK_SWITCH_CNT.HANDOVERS,
   TCK_LAST_SWITCH_LO.ETIME, TCK_LAST_SWITCH_HI.ETIME, TCK_LAST_GAP.NS, TCK_LAST_GAP.KIND,
   TCK_HB_WIRE_MISS_CNT.COUNT, TCK_HB_WORD_MISS_CNT.COUNT, TCK_LINE_DENY_CNT.COUNT]

/-- The fields of the ELY block. -/
def fieldsELY : List Fld :=
  [ELY_STATUS.LINK_UP, ELY_STATUS.H2F_WIDTH, ELY_STATUS.F2H_WIDTH, ELY_STATUS.HOST_ALIVE, ELY_CFG.HOST_HB_MISS,
   ELY_CFG.HOST_LOSS_POLICY, ELY_REPLAY_CNT.COUNT, ELY_CRC_ERR_CNT.COUNT, ELY_REJECT_CNT.COUNT]

/-- The fields of the MEM block. -/
def fieldsMEM : List Fld :=
  [MEM_CFG.CE_RETIRE, MEM_CFG.RH_PM2, MEM_CFG.RANK_CLR, MEM_CFG.MIG_RATE, MEM_CFG.CE_LIMIT, MEM_STATUS.IN_SERVICE,
   MEM_STATUS.WAYS, MEM_STATUS.MIG_QUEUE, MEM_STATUS.GIB, MEM_SCRUB_CFG.PERIOD_MIN, MEM_SCRUB_CFG.EN,
   MEM_SCRUB_POS.PAGE, MEM_RH_CFG.THRESH, MEM_RH_CFG.WINDOW_MS, MEM_MIG.FROM, MEM_MIG.TO, MEM_MIG.CH,
   MEM_MIG.ACTIVE, MEM_MIG.CAUSE_HOST, MEM_MIG_CURSOR.ROW, MEM_MIG_POISON_CNT.COUNT, MEM_POISON_CNT.MARKED,
   MEM_POISON_CNT.READS, MEM_LAST_UE.WORD, MEMC_STATUS.STATE, MEMC_STATUS.RANK0, MEMC_STATUS.RANK1,
   MEMC_STATUS.RANK2, MEMC_STATUS.SLOT0, MEMC_STATUS.SLOT1, MEMC_CTL.RETRAIN, MEMC_CE_01.RANK0, MEMC_CE_01.RANK1,
   MEMC_CE_2.RANK2, MEMC_CE_2.UE, MEMC_CA_CNT.CA, MEMC_CA_CNT.WCRC, MEMC_RH_CNT.COUNT, MEMC_UTIL.LOAD,
   MEMC_UTIL.PEAK] ++
  [MEMC_UTIL.CLR, MEMC_TRAIN.MS, MEMC_TRAIN.COUNT]

/-- The fields of the SKD block. -/
def fieldsSKD : List Fld :=
  [SKD_STATUS.BUSY, SKD_STATUS.SOURCE, SKD_STATUS.BAR, SKD_STATUS.RING_OPEN, SKD_STATUS.RING_DEAD,
   SKD_STATUS.LAST_ERR, SKD_BLOCK_CNT.COUNT, SKD_BYTES_LO.BYTES, SKD_BYTES_HI.BYTES, SKD_ERR_CNT.COUNT,
   SKD_SWAP_CNT.COUNT, SKD_POISON_CNT.COUNT, SKD_RING_SIZE.BYTES, SKD_RING_FREE.BYTES, SKD_AHEAD.LINES,
   SKD_AHEAD.STALL]

/-- The fields of the XBC block. -/
def fieldsXBC : List Fld :=
  [XBC_CNT_RES.COUNT, XBC_CNT_PAL.COUNT, XBC_CNT_TWO.COUNT, XBC_CNT_QUAD.COUNT, XBC_MAXERR.ERR, XBC_MAXERR.CLR,
   XBC_RESERVED_CNT.COUNT]

/-- The fields of the GEO block. -/
def fieldsGEO : List Fld :=
  [GEO_CFG.DROP_BITS, GEO_CFG.INTERP, GEO_CFG.COLORANT, GEO_CFG.TWIN, GEO_TWIN_DELTA.DELTA, GEO_COLUMNS.COUNT,
   GEO_PAIRS.COUNT, GEO_TWIN_RX.COUNT, GEO_OUTSIDE.COUNT, GEO_PRESS.LOADED, GEO_PRESS.LPI, GEO_PRESS.BAR_MASK,
   GEO_PRESS_CRC.CRC]

/-- The fields of the SCR block. -/
def fieldsSCR : List Fld :=
  [SCR_CFG.ERR_CLAMP, SCR_CFG.LEAK, SCR_CFG.SWITCH_CLR, SCR_CFG.AMP, SCR_MASK_OFF.XOFF, SCR_MASK_OFF.YOFF,
   SCR_REDIST.W1, SCR_REDIST.W2, SCR_REDIST.WEAK_KEEP, SCR_CTL.ERR_CLR, SCR_LVL.VALUE, SCR_LVL.THRESH,
   SCR_REDIST_DROP.COUNT, SCR_CLAMP_CNT.COUNT, SCR_TWIN_FALLBACK_CNT.COUNT, SCR_HOST_OVER_CNT.COUNT,
   SCR_MASK_IDX.WORD, SCR_MASK_DATA.DATA, SCR_PARITY_CNT.NSM, SCR_PARITY_CNT.TONE, SCR_PARITY_CNT.MASK]

/-- The fields of the HLK block. -/
def fieldsHLK : List Fld :=
  [HLK_CFG.EN, HLK_CFG.AUTO, HLK_CFG.TX_EQ, HLK_CFG.CONF_TO_US, HLK_LVL_MAP.W0, HLK_LVL_MAP.W1, HLK_LVL_MAP.W2,
   HLK_LVL_MAP.W3, HLK_LVL_MAP.W4, HLK_LVL_MAP.W5, HLK_LVL_MAP.W6, HLK_LVL_MAP.W7, HLK_STATUS.STATE,
   HLK_STATUS.PRSNT, HLK_STATUS.RET_LOCK, HLK_STATUS.LEAD_SHORT, HLK_STATUS.LOSS_CAUSE, HLK_STATUS.TRAIN_FAIL,
   HLK_STATUS.HE_REASON, HLK_LAT.LAT_NS, HLK_LAT.LEAD_MIN_NS, HLK_HELLO.SETUP_NS, HLK_HELLO.TOKENS,
   HLK_HELLO.VERSION, HLK_CREDIT.GRANT, HLK_FRAME_NAK_CNT.COUNT, HLK_RET_CRC_CNT.COUNT, HLK_REPLAY_CNT.COUNT,
   HLK_STRAY_CNT.COUNT, HLK_PROTO_CNT.COUNT, HLK_DROP_MISMATCH_CNT.COUNT, HLK_LOSS_CNT.LOSSES,
   HLK_LOSS_CNT.TRAIN_FAILS, HLK_UP_ETIME_LO.ETIME, HLK_UP_ETIME_HI.ETIME, HLK_UTIL.FWD, HLK_UTIL.RET,
   HLK_DEV.LAST, HLK_DEV.PEAK, HLK_DEV.CLR] ++
  [HLK_SLOT_CRED.SENT, HLK_SLOT_CRED.FREED, HLK_SLOT_THERM.OHMS, HLK_SLOT_THERM.AGE, HLK_SLOT_THERM.HEAD_OK,
   HLK_SLOT_LAST.LINE, HLK_SLOT_LAST.DEV, HLK_SLOT_LAST.STATUS, HLK_SLOT_LAST.REASON, HLK_SLOT_USAGE.AGE_S,
   HLK_SLOT_USAGE.DEFERRED, HLK_SLOT_USAGE.FAILED]

/-- The fields of the HDC block. -/
def fieldsHDC : List Fld :=
  [HDC_ID_STATUS.STATE, HDC_ID_STATUS.USAGE_FRESH, HDC_ID_STATUS.CHANGED, HDC_ID_STATUS.REASON,
   HDC_SERIAL_LO.SERIAL, HDC_SERIAL_HI.SERIAL, HDC_MIN_PERIOD.NS, HDC_GEO_BASE.BASE, HDC_GEO_BASE.DIR,
   HDC_GEO_OFFSET.OFFSET, HDC_GEO_STEP.STEP, HDC_GEO_SKEW.SKEW, HDC_TONE_IDX.IDX, HDC_TONE_IDX.BANK,
   HDC_TONE_DATA.VALUE, HDC_TONE_CTL.COMMIT, HDC_TONE_CTL.COPY, HDC_TONE_CTL.PENDING, HDC_TONE_GEN.GEN,
   HDC_FIRE.FIRING, HDC_FIRE.HOST_INH, HDC_FIRE.TRIP, HDC_FIRE.ALT, HDC_FIRE.LIMIT, HDC_FIRE.PENDING,
   HDC_FIRE.TEMP, HDC_TEMP_LIM.LIMIT, HDC_TEMP_LIM.TRIP, HDC_ISSUED_LO.COUNT, HDC_ISSUED_HI.COUNT,
   HDC_STROBED_LO.COUNT, HDC_STROBED_HI.COUNT, HDC_DROPS_LO.COUNT, HDC_DROPS_HI.COUNT, HDC_LATE.COUNT,
   HDC_OVS.COUNT, HDC_INH.COUNT, HDC_UNCONF.COUNT, HDC_TEMP_WARN.WARN, HDC_TEMP_WARN.BROKEN] ++
  [HDC_TEMP_WARN.AT_WARN]

/-- The fields of the POS block. -/
def fieldsPOS : List Fld :=
  [POS_CFG.TYPE, POS_CFG.REVERSE, POS_CFG.TERM, POS_CFG.FILT, POS_CFG.INTERP, POS_CFG.IDX_EDGE, POS_CFG.IDX_GATE,
   POS_STATUS.FAULT, POS_STATUS.LOS, POS_STATUS.HALL_BAD, POS_STATUS.AMP, POS_STATUS.SSI, POS_STATUS.RATE,
   POS_STATUS.SUP, POS_STATUS.SUSPECT, POS_STATUS.DIR, POS_STATUS.STILL, POS_STATUS.INTERP8, POS_STATUS.IDX_ARMED,
   POS_STATUS.IDX_REF, POS_STATUS.IDX_NEXT, POS_COUNT_LO.COUNT, POS_COUNT_HI.COUNT, POS_SPEED.SPEED,
   POS_PERIOD.NS, POS_SPD_CFG.WINDOW_US, POS_SPD_CFG.MIN_EDGES, POS_SPD_CFG.STILL_MS, POS_SIG_CFG.AMP_LO,
   POS_SIG_CFG.AMP_HI, POS_SIG_CFG.AMP_FILT, POS_SIG_CFG.LOS_US, POS_SSI_CFG.BITS, POS_SSI_CFG.GRAY,
   POS_SSI_CFG.ERRBIT, POS_SSI_CFG.CLK, POS_SSI_CFG.MONO_US, POS_SSI_CFG.RATE_US, POS_AMP.A, POS_ERR_CNT.QUAD] ++
  [POS_ERR_CNT.HALL, POS_ERR_CNT.AMP, POS_ERR_CNT.SSI, POS_WRAP.WRAP, POS_IDX_CFG.MODE, POS_IDX_CFG.POLICY,
   POS_IDX_CFG.LOAD, POS_IDX_CFG.TOL, POS_IDX_PITCH.PITCH, POS_PRESET_LO.PRESET, POS_PRESET_HI.PRESET,
   POS_IDXLOG_CNT_LO.COUNT, POS_IDXLOG_CNT_HI.COUNT, POS_IDXLOG_CNT_HI.UNEXPECTED, POS_IDXLOG_CNT_HI.ARMING,
   POS_IDXLOG_CNT_HI.CORRECTED, POS_IDXLOG_CNT_HI.REVERSE, POS_IDXLOG_ETIME_LO.ETIME, POS_IDXLOG_ETIME_HI.ETIME,
   POS_WEB_CFG.BACKUP_EN, POS_WEB_CFG.TOL_PPM, POS_WEB_CFG.TRACK, POS_WEB_STATUS.SRC, POS_WEB_STATUS.PC0_OK,
   POS_WEB_STATUS.PC1_OK, POS_WEB_STATUS.BACKUP_READY, POS_WEB_STATUS.LOST, POS_WEB_STATUS.RETURN_PENDING,
   POS_WEB_RATIO.R, POS_WEB_RATIO_NOM.NOM, POS_WEB_CTL.RETURN, POS_WEB_COUNT_LO.COUNT, POS_WEB_COUNT_HI.COUNT,
   POS_WEB_SWITCH_CNT.TAKEOVERS, POS_WEB_SWITCH_CNT.RETURNS, ER_CFG.MODE, ER_CFG.SRC, ER_CFG.DIV, ER_CFG.Z_EN,
   ER_OVR_CNT.ER0] ++
  [ER_OVR_CNT.ER1]

/-- The fields of the CMP block. -/
def fieldsCMP : List Fld :=
  [CMP_CFG.LATEFIRE, CMP_STATUS.PENDING, CMP_STATUS.HOST_FREE, CMP_APPENDED_CNT.COUNT, CMP_FIRED_CNT.COUNT,
   CMP_MISSED_CNT.COUNT, CMP_CO_CFG.POL, CMP_CO_CFG.EN, CMP_CO_LEVEL.ACTIVE, CMP_LAST_MISS.TAG,
   CMP_LAST_MISS.SOURCE, CMP_LAST_MISS.CAUSE]

/-- The fields of the SPG block. -/
def fieldsSPG : List Fld :=
  [SPG_CFG.BW_HZ, SPG_CFG.OVS_POLICY, SPG_CFG.LEAD, SPG_CFG.SLEW, SPG_LPC_LO.LPC, SPG_LPC_HI.LPC, SPG_STATUS.LOCK,
   SPG_STATUS.MOVING, SPG_STATUS.REVERSE, SPG_STATUS.SLEWING, SPG_STATUS.STARVED, SPG_STATUS.SLOW,
   SPG_STATUS.SAFE_A, SPG_STATUS.SAFE_B, SPG_STATUS.SAFE_DISC, SPG_POS_LO.POS, SPG_POS_HI.POS, SPG_RATE.HZ,
   SPG_ERR.ERR, SPG_ERR.PEAK, SPG_ERR.CLR, SPG_CEIL.HZ, SPG_CEIL.BIND, SPG_TERM_STATIC.HZ, SPG_TERM_RUNWAY.HZ,
   SPG_TERM_ELY.HZ, SPG_TERM_HEAD.HZ, SPG_TERM_THERM.HZ, SPG_TERM_POWER.HZ, SPG_TERM_HOST.HZ, SPG_RUNWAY.LINES,
   SPG_RUNWAY.FULL, SPG_RUNWAY_WARN.LINES, SPG_RUNWAY_MIN.LINES, SPG_RAMP.DECEL_MAX, SPG_RAMP.ACCEL_MAX,
   SPG_HEAD_THERM.STEP, SPG_HEAD_THERM.HYST, SPG_SPD_CFG.SRC, SPG_SPD_CFG.INVERT] ++
  [SPG_SPD_CFG.FULL_HZ, SPG_SPD_CFG.PWM_KHZ, SPG_SPD_VAL.CODE, SPG_SPD_VAL.HOST, SPG_PIO_CFG.FIRING_OUT,
   SPG_PIO_CFG.SLOW_OUT, SPG_PIO_CFG.STARVED_OUT, SPG_PIO_CFG.DEFECT_OUT, SPG_DEFECT_CFG.CO, SPG_DEFECT_CFG.EN,
   SPG_DEFECT_CFG.KINDS, SPG_DEFECT_CFG.WIDTH, SPG_DEFECT_OFFSET.LINES, SPG_DEFECT_CNT.MARKERS,
   SPG_DEFECT_CNT.MERGED, SPGB_FIRE.FIRING, SPGB_FIRE.CAUSE, SPGB_FIRE.ALT, SPGB_DELAY_LO.DELAY,
   SPGB_DELAY_HI.DELAY, SPGB_TRIM.TRIM, SPGB_TRIM.APPLIED, SPGB_LINE.L, SPGB_ALT.MAP]

/-- The fields of the CAM block. -/
def fieldsCAM : List Fld :=
  [CAM_CFG.ER, CAM_CFG.FRAME_LINES, CAM_STATUS.STATE, CAM_STATUS.STARTED, CAM_STATUS.VC_MASK, CAM_STATUS.REASON,
   CAM_STATUS.LANES, CAM_FS_POS_LO.POS, CAM_FS_POS_HI.POS, CAM_FS_ETIME_LO.ETIME, CAM_FS_ETIME_HI.ETIME,
   CAM_FS_TAG.TAG, CAM_TRIG_FIFO.LEVEL, CAM_TRIG_FIFO.OVR, CAM_ECC_CNT.CORR, CAM_ECC_CNT.UNCORR,
   CAM_LINE_BAD_CNT.CRC, CAM_LINE_BAD_CNT.LENGTH, CAM_PROTO_CNT.COUNT, CAM_LINE_MISS_CNT.COUNT, CAM_CTL_CNT.DONE,
   CAM_CTL_CNT.FAIL, CAM_EXP.EXP, CAM_EXP_GEN.SENT, CAM_EXP_GEN.ACTIVE, CAM_EXP_GEN.PENDING, CAM_EXP_GEN.CLAMPED,
   CAM_LINES.COUNT]

/-- The fields of the ISP block. -/
def fieldsISP : List Fld :=
  [ISP_CTX.PRIO, ISP_CTX.ACTIVE, ISP_BLACK_RG.RED, ISP_BLACK_RG.GREEN, ISP_BLACK_B.BLUE, ISP_WB_RG.RED,
   ISP_WB_RG.GREEN, ISP_WB_B.BLUE, ISP_CCM.M, ISP_OFF.OFF, ISP_TBL_IDX.IDX, ISP_TBL_IDX.TABLE, ISP_TBL_DATA.DATA,
   ISP_STAT_MEAN.MEAN, ISP_STAT_MEAN.GEN, ISP_STAT_MEAN.VALID, ISP_STAT_CLIP.CLIP, ISP_STAT_FRAME.FRAME,
   ISP_LINE_CNT.COUNT, ISP_DROP_CNT.COUNT, ISP_LOAD.LOAD, ISP_LOAD.PEAK, ISP_LOAD.CLR]

/-- The fields of the CSV block. -/
def fieldsCSV : List Fld :=
  [CSV_CFG.CYCLE, CSV_CAM_DELAY_LO.DELAY, CSV_CAM_DELAY_HI.DELAY, CSVB_MODE.MODE, CSVB_MODE.HOLD, CSVB_MODE.PHASE,
   CSVB_REPEAT.REPEAT, CSVB_START.START, CSVB_LAYOUT.WHITE, CSVB_LAYOUT.ROW, CSVB_LAYOUT.PATCH, CSVB_LAYOUT.GUARD,
   CSVB_SEQ.SEQ, CSVB_SEQ.LEVEL, CSVB_SEQ.CHAN, CSVB_PATCH.C1, CSVB_PATCH.C2, CSVB_PATCH.C3, CSVB_PATCH.C4,
   CSVB_AIM_A.AIM1, CSVB_AIM_A.AIM2, CSVB_AIM_B.AIM3, CSVB_AIM_B.AIM4, CSVB_TONE_LAW.KT, CSVB_TONE_LAW.TSTEP,
   CSVB_TONE_LAW.TDB, CSVB_NOZ_LAW.KN, CSVB_NOZ_LAW.NSTEP, CSVB_NOZ_LAW.DB, CSVB_NOZ_LAW.AVG, CSVB_DEAD.FRAC,
   CSVB_DEAD.N, CSVB_DEAD.MAX, CSVB_GLIM.GMIN, CSVB_GLIM.GMAX, CSVB_XMAP.XCAL, CSVB_XMAP.PITCH_NM,
   CSVB_CNT.COMMITS, CSVB_CNT.DEAD_SET, CSVB_SKIP.SKIPPED] ++
  [CSVB_SKIP.VOIDED, CSVB_LAST.STRIP, CSVB_LAST.KIND]

/-- The fields of the JOB block. -/
def fieldsJOB : List Fld :=
  [JOB_CFG.MARGIN, JOB_QUEUE.LIVE, JOB_QUEUE.SWITCHES, JOB_SCHED.DRAM_OK, JOB_SCHED.THERM_OK, JOB_SCHED.POWER_OK,
   JOB_SCHED.DRAM_HEAD, JOB_DEFER_CNT.COUNT, JOB_DEF_SEL.JOB_ID, JOB_DEF_IDX.IDX, JOB_DEF_IDX.COUNT,
   JOB_DEF_IDX.OVERFLOW, JOB_DEF_DATA0.UNIT, JOB_DEF_DATA0.BAR, JOB_DEF_DATA0.KIND, JOB_DEF_DATA1.FIRST,
   JOB_DEF_DATA2.LAST, JOB_DEF_DATA3.LINES, JOBB_ACTIVE.JOB_ID, JOBB_START_LO.START, JOBB_START_HI.START,
   JOBB_NEXT.JOB_ID]

/-- The fields of the THM block. -/
def fieldsTHM : List Fld :=
  [THM_CFG.GUARD, THM_CFG.HYST, THM_CFG.STEP, THM_CFG.HEAD_AGE, THM_CFG.FLOOR, THM_THR_CFG.ENGAGE_MS,
   THM_THR_CFG.RELAX_MS, THM_STATUS.LEVEL, THM_STATUS.PENDING, THM_STATUS.GUARD_HW, THM_STATUS.TRIP,
   THM_STATUS.COLD, THM_STATUS.HOTTEST, THM_STATUS.HOTTEST_T, THM_EXCL.TS, THM_EXCL.MS, THM_EXCL.DT,
   THM_BROKEN.TS, THM_BROKEN.MS, THM_BROKEN.DT, THM_THR_CNT.ENGAGES, THM_THR_CNT.FORCED, THM_HOLD_CFG.HOLD_MS,
   THM_DEFER.QUEUED, THM_DEFER.FLASH_HOLD, THM_DEFER_CNT.FLASH, THM_DEFER_CNT.LOG_FULL, THMS_READ.TEMP,
   THMS_READ.BROKEN, THMS_READ.WARN, THMS_READ.THROTTLE, THMS_READ.TRIP, THMS_WT.WARN, THMS_WT.THROTTLE,
   THMS_TRIP.TRIP]

/-- The fields of the PWR block. -/
def fieldsPWR : List Fld :=
  [PWR_SUPPLY.VIN_F, PWR_SUPPLY.PF, PWR_SUPPLY.PF_DONE, PWR_SUPPLY.VIN_OVER, PWR_PF_CFG.PF_LEVEL, PWR_ENC_SUP.EN,
   PWR_ENC_SUP.FAULT, PWR_PF_CNT.COUNT, PWR_VIN_MIN.MIN, PWR_VIN_MIN.CLR, PWR_IIN.IIN, PWR_IIN.P_MEAS,
   PWR_BUDGET.BUDGET_W, PWR_BUDGET.MARGIN_W, PWR_PRED.PRED, PWR_PRED.CORR, PWR_MODEL_A.P_IDLE, PWR_MODEL_A.K_DRAM,
   PWR_MODEL_B.K_NOZ, PWR_MODEL_B.K_COV]

/-- The fields of the DSP block. -/
def fieldsDSP : List Fld :=
  [DSP_STATUS.STATE, DSP_STATUS.PUSHING, DSP_STATUS.PENDING, DSP_STATUS.TE_OK, DSP_PANEL.WIDTH, DSP_PANEL.HEIGHT,
   DSP_LINK.LANE_MBPS, DSP_PANEL_ID.ID, DSP_TIMING.WINDOW_US, DSP_TIMING.PRIME_US, DSP_WM.LOW, DSP_TE.PERIOD_US,
   DSP_COMMIT_CNT.DONE, DSP_COMMIT_CNT.LATE, DSP_UNDERRUN_CNT.COUNT, DSP_LAST.COMMIT, DSP_LAST.LATE,
   DSP_LAST.UNDERRUN, DSP_LAST.SPAN, DSP_LAST.DISCARDED, DSP_LAST.NO_TE, DSP_LAST_TE_LO.ETIME,
   DSP_LAST_TE_HI.ETIME]

/-- The fields of the CDC block. -/
def fieldsCDC : List Fld :=
  [CDC_CFG.TIMEOUT_US, CDC_STATUS.TIMED_OUT, CDC_TO_CNT.COUNT, CDC_ABORT_CNT.COUNT, CDC_ABORT_PULSES.COUNT,
   CDC_SAT_CNT.COUNT, CDC_LAST.ID, CDC_LAST.KIND, CDC_LAST_ETIME_LO.ETIME, CDC_LAST_ETIME_HI.ETIME]

/-- The fields of the FIJ block. -/
def fieldsFIJ : List Fld :=
  [FIJ_CFG.LIVE_OK, FIJ_ARG.ARG, FIJ_STATUS.ARMED, FIJ_HITS_TOTAL.COUNT, FIJ_RULE.TARGET, FIJ_RULE.ACTION,
   FIJ_RULE.INSTANCE, FIJ_RULE.ARG, FIJ_RATE.RATE, FIJ_LEFT.LEFT, FIJ_HITS.COUNT]

/-- The fields of the LOG block. -/
def fieldsLOG : List Fld :=
  [LOG_VIOL_CTL.NEXT, LOG_VIOL_CTL.CLR, LOG_VIOL_CNT.COUNT, LOG_EVT_OVWR_CNT.COUNT, LOG_VIOL_ADDR.ADDR,
   LOG_VIOL_INFO.OPCODE, LOG_VIOL_INFO.TAG, LOG_VIOL_INFO.QUEUE, LOG_VIOL_INFO.PRIV, LOG_VIOL_INFO.SOURCE,
   LOG_VIOL_ETIME_LO.ETIME, LOG_VIOL_ETIME_HI.ETIME, LOG_VIOL_REASON.REASON, LOG_PAR_0.STAGE, LOG_PAR_0.ISP,
   LOG_PAR_0.CORE, LOG_PAR_0.CKPT, LOG_PAR_1.HIST, LOG_PAR_1.POOL, LOG_PAR_1.LEVEL, LOG_PAR_1.DISP,
   LOG_FABRIC_PAR.RETRIED, LOG_FABRIC_PAR.FAILED, LOG_ACCT_CNT.COUNT, LOG_RECORD_BAD.COUNT]

/-- The fields of BAR0 (R155). -/
def fieldsBAR0 : List Fld :=
  [BAR_ID.DEVICE, BAR_ID.IF_VER, BAR_STATE.FIELD_STATE, BAR_STATE.LINK_UP, BAR_STATE.FIELD_ALIVE,
   BAR_CTL.IRQ_PIN_EN, BAR_ERR.TAIL_RANGE, BAR_ERR.CQ_HEAD_RANGE, BAR_ERR.CFG_WHILE_EN, BAR_ERR.DMA_ERR,
   BAR_ERR.BAD_OFFSET, BAR_ERR_ADDR.ADDR, IRQ_STATUS.CQ, IRQ_STATUS.ALERT, IRQ_STATUS.ERR, IRQ_MASK.MASK,
   SQ_BASE_LO.BASE, SQ_BASE_HI.BASE, SQ_SIZE.LOG2, SQ_SIZE.EN, SQ_TAIL.TAIL, SQ_HEAD.HEAD, CQ_BASE_LO.BASE,
   CQ_BASE_HI.BASE, CQ_SIZE.LOG2, CQ_SIZE.EN, CQ_HEAD.HEAD, CQ_TAIL.TAIL]

/-- The block that decodes `addr` (R602): its fields, none outside every extent. -/
def blockFields (addr : Nat) : List Fld :=
  if 0x0 ≤ addr ∧ addr < 0x10000 then fieldsSYS
  else if 0x10000 ≤ addr ∧ addr < 0x20000 then fieldsCMDQ
  else if 0x20000 ≤ addr ∧ addr < 0x30000 then fieldsTCK
  else if 0x30000 ≤ addr ∧ addr < 0x40000 then fieldsELY
  else if 0x40000 ≤ addr ∧ addr < 0x50000 then fieldsMEM
  else if 0x50000 ≤ addr ∧ addr < 0x60000 then fieldsSKD
  else if 0x60000 ≤ addr ∧ addr < 0x70000 then fieldsXBC
  else if 0x80000 ≤ addr ∧ addr < 0x90000 then fieldsGEO
  else if 0x90000 ≤ addr ∧ addr < 0xa0000 then fieldsSCR
  else if 0xa0000 ≤ addr ∧ addr < 0xa6000 then fieldsHLK
  else if 0xc0000 ≤ addr ∧ addr < 0xcc000 then fieldsHDC
  else if 0xe0000 ≤ addr ∧ addr < 0xf0000 then fieldsPOS
  else if 0xf0000 ≤ addr ∧ addr < 0x100000 then fieldsCMP
  else if 0x110000 ≤ addr ∧ addr < 0x120000 then fieldsSPG
  else if 0x120000 ≤ addr ∧ addr < 0x130000 then fieldsCAM
  else if 0x130000 ≤ addr ∧ addr < 0x140000 then fieldsISP
  else if 0x140000 ≤ addr ∧ addr < 0x150000 then fieldsCSV
  else if 0x150000 ≤ addr ∧ addr < 0x160000 then fieldsJOB
  else if 0x160000 ≤ addr ∧ addr < 0x170000 then fieldsTHM
  else if 0x170000 ≤ addr ∧ addr < 0x180000 then fieldsPWR
  else if 0x180000 ≤ addr ∧ addr < 0x190000 then fieldsDSP
  else if 0x190000 ≤ addr ∧ addr < 0x1a0000 then fieldsCDC
  else if 0x1a0000 ≤ addr ∧ addr < 0x1b0000 then fieldsFIJ
  else if 0x1b0000 ≤ addr ∧ addr < 0x1c0000 then fieldsLOG
  else []

/-- The fields at `addr`, each with its instance number (R604). -/
def fieldsAt (addr : Nat) : List (Fld × Nat) :=
  (blockFields addr).filterMap fun f => (f.at? addr).map fun n => (f, n)

/-- The fields at BAR0 offset `off`, each with its instance number (R155). -/
def barFieldsAt (off : Nat) : List (Fld × Nat) :=
  fieldsBAR0.filterMap fun f => (f.at? off).map fun n => (f, n)

end Sys2Proof.Machine
end

