-- ==== Sys2Proof/Machine/State.lean ====
section
/-! DEFINITION. The state of the block: everything the spec gives the machine, as plain data. Register fields live in
sparse stores under their address and low bit; what no register shows lives in one record per block of R54. -/

namespace Sys2Proof.Machine

/-! ### Commands, completions and events (spec/04_command_protocol.md) -/

/-- A completion or event entry (R171): KIND 1 or 2; RESULT as one 16-byte little-endian number. -/
structure Compl where
  kind : Nat
  status : Nat
  tag : Nat
  q : Nat
  opcode : Nat
  index : Nat
  etime : Nat
  result : Nat
  deriving DecidableEq, Repr

/-- A command that has been sent and not yet executed: its source, queue, slot index, 64 entry bytes and bulk data, whether its tag
was in flight when it was fetched (R177), and the row to run where it came as a row of its own; its entry bytes are then the
header alone. -/
structure QCmd where
  src : Src
  q : Nat
  index : Nat
  entry : Bytes
  bulk : Bulk
  dup : Bool
  row : Option Instr
  deriving DecidableEq, Repr

/-- An ACCEPTED operation that has not ended (R178). -/
structure AsyncOp where
  opId : Nat
  opcode : Nat
  tag : Nat
  q : Nat
  deriving DecidableEq, Repr

/-- The AUTH state of one source: the valid nonce with its level and time of issue, the run of mismatches, and the end
of a lockout (R195, R196). -/
structure AuthSt where
  nonce : Option (Nat × Nat × Nat)
  misses : Nat
  lockUntil : Nat
  deriving DecidableEq, Repr

/-- A command that has started and whose completion comes later (R250, R314). -/
structure CmdRef where
  src : Src
  opcode : Nat
  tag : Nat
  q : Nat
  index : Nat
  fence : Bool
  deriving DecidableEq, Repr

/-- The field end of the queues (R54 CMDQ): waiting commands, started commands that have not completed, the completion and
event buffers of R50, the FIFO in which hardware events wait for the drain of R210 and R227, the numbering of events and
operations, the AUTH state of both sources, and the FSP session (R203, R204): its completions, the bytes of the last frame
sent, and the frames found bad. -/
structure CmdqSt where
  waiting : List QCmd
  open_ : List CmdRef
  done : List Compl
  events : List Compl
  fifo : List Compl
  evSeq : Nat
  opNext : Nat
  async : List AsyncOp
  authHost : AuthSt
  authFsp : AuthSt
  fspTx : List Compl
  fspBad : Nat
  fspOut : Bytes
  deriving DecidableEq, Repr

/-- A command the host side has forwarded and whose completion has not arrived (R200). -/
structure Track where
  q : Nat
  tag : Nat
  index : Nat
  opcode : Nat
  deriving DecidableEq, Repr

/-- The host-side flash (R127): the PCIe identifiers and its copy of the module identity: ordering code, revision, serial. -/
structure HostFlash where
  pcieIds : Nat
  order : Nat
  modRev : Nat
  serial : Nat
  deriving DecidableEq, Repr

/-- The host side: BAR0 fields, the MSI-X table words, the word that the host's last read of BAR0 returned, supply, completion
phase, queue turn, tracked commands, entries fetched and not yet sent as COMMAND, completions and events that have crossed or that
the host side made itself, its own answers that wait for earlier commands of their queue (R175) with the number of those, the entry
whose write failed, the host's completion ring as written (entry with its phase), host memory as DATA and completions have written
it, HOST_ALERT_N, the ETIMEs at which the last field HEARTBEAT came (R51) and the host side's own timer last sent one (R42), the
last field report (R184), the last TIME, the tracked commands that a field reset has lost (R200), and the host-side flash. -/
structure HostSide where
  bar : SMap Nat
  msix : SMap Nat
  barData : Nat
  powered : Bool
  phase : Bool
  turn : Nat
  tracked : List Track
  outbox : List QCmd
  arrived : List Compl
  answers : List (Nat × Compl)
  retry : Option Compl
  cqMem : SMap (Option (Compl × Bool))
  dataMem : SMap (Option Byte)
  alert : Bool
  hbAt : Nat
  hbSent : Nat
  report : Nat
  time : Nat
  lost : List Track
  flash : HostFlash
  deriving DecidableEq, Repr

/-! ### The elytron (spec/01_architecture.md) -/

/-- What a command body answers: OK with a 16-byte result, ACCEPTED with an operation number, or an error with its
detail, offset and value (`none`: a value R182 does not state). -/
inductive Reply where
  | ok (result : Nat)
  | accepted (opId : Nat)
  | err (status detail off : Nat) (val : Option Nat)
  /-- data for the elements of the scatter list (R169), and the answer once it is written -/
  | data (bs : Bytes) (last : Reply)
  /-- the command has started and completes later -/
  | later
  /-- the command waits for bytes of its data that have not landed (R169, R251) -/
  | wait
  deriving DecidableEq, Repr

/-- A DATA descriptor the field side has issued (R48, R251): its identity, its length, the bytes landed so far from the
first, flits landed further on, its command, the row to run once all has landed (none: the command has its bytes as they
land), where that command has ended before its last byte landed, the answer that its closing gives, and the staging region in
which the bytes land, if any. -/
structure DataDesc where
  id : Nat
  len : Nat
  got : Bytes
  ahead : List (Nat × Bytes)
  ref : CmdRef
  cmd : Option Instr
  ended : Option Reply
  region : Option Nat
  deriving DecidableEq, Repr

/-- Bulk data on its way to the host (R169): its identity, the command it belongs to with its answer, the elements it goes to,
all its bytes, how many have been sent, and, where host memory fails, how many move first. -/
structure HostData where
  id : Nat
  ref : CmdRef
  reply : Reply
  sgl : List SgElem
  bytes : Bytes
  sent : Nat
  fail : Option Nat
  deriving DecidableEq, Repr

/-- What a flit carries (R42): a submission entry, a HEARTBEAT of either side, the ETIME, bulk data, a completion or an
event. -/
inductive FlitBody where
  | command (e : QCmd)
  | hostHeartbeat
  | fieldHeartbeat (report : Nat)
  | time (etime : Nat)
  | data (desc off : Nat) (bytes : Bytes)
  | completion (c : Compl)
  | event (c : Compl)
  deriving DecidableEq, Repr

/-- A flit in a replay buffer: its sequence number and what it carries. -/
structure Flit where
  seq : Nat
  body : FlitBody
  deriving DecidableEq, Repr

/-- One direction of the elytron (R44 to R46): the number of the next flit sent, the number the receiver expects, the flits
sent and not acknowledged, a NAK owed, the ETIME since which nothing has been acknowledged, the transmitter's credits by
virtual channel, and the run of VC1 flits sent. -/
structure ElyDir where
  next : Nat
  want : Nat
  replay : List Flit
  nak : Option Nat
  quietAt : Nat
  credits : SMap Nat
  run : Nat
  deriving DecidableEq, Repr

/-- The elytron: lanes up each way, a retrain in progress, its two directions, the HEARTBEAT and TIME messages that wait to be
sent, the virtual channels of the field side's buffers freed whose credit has not crossed back (R589), the ETIME of the last
host HEARTBEAT, the host-lost declaration, whether a link-down has been reported, the open descriptors, and the bulk data
on its way to the host. -/
structure ElySt where
  h2f : Nat
  f2h : Nat
  retraining : Bool
  toF : ElyDir
  toH : ElyDir
  hostHb : Bool
  fieldHb : Bool
  fieldTime : Bool
  freed : List Nat
  hbAt : Nat
  hostLost : Bool
  wasDown : Bool
  descs : List DataDesc
  descNext : Nat
  toHost : List HostData
  deriving DecidableEq, Repr

/-! ### Start-up and flash (spec/03_startup_and_images.md) -/

/-- One boot-record copy (R124): sequence number and the active slot of each core (0 A, 1 B); CRC good or not. -/
structure BootRec where
  seq : Nat
  slotA : Nat
  slotB : Nat
  ok : Bool
  deriving DecidableEq, Repr

/-- A queued flash write (R556): what is written when its turn comes. -/
inductive FlashOp where
  /-- an image slot of a core, for the FW_STAGE operation `opId` -/
  | image (core slot opId : Nat) (data : Bytes)
  /-- the press description with its geometry, into the older bank -/
  | press (data : Bytes)
  /-- the record of retired and failed ranks: channel, rank, and state 6 RETIRED or 7 FAILED -/
  | ranks (l : List (Nat × Nat × Nat))
  /-- a boot record naming the active slots -/
  | boot (slotA slotB : Nat)
  /-- a page of the persistent log -/
  | page (n : Nat) (data : Bytes)
  deriving DecidableEq, Repr

/-- A configuration-store bank: its sequence number, the press description it holds (CRC good or not), and the calibration
backups, which no rule writes or reads. -/
structure CfgBank where
  seq : Nat
  data : Bytes
  ok : Bool
  calib : Bytes
  deriving DecidableEq, Repr

/-- What survives a field-side reset (R123): image slots keyed by 3 * core + slot (slot 2 golden; a slot not listed is as
manufactured: blank, or the golden image), the two boot-record copies, the two banks of the configuration store, the
retired ranks (R531), the 4 KiB pages of the persistent event and fault log by number, the queue of flash writes in arrival
order, and whether the first of them is being written. -/
structure FlashSt where
  images : SMap (Option Bytes)
  boot0 : Option BootRec
  boot1 : Option BootRec
  bank0 : Option CfgBank
  bank1 : Option CfgBank
  retired : List (Nat × Nat × Nat)
  log : SMap (Option Bytes)
  queue : List FlashOp
  busy : Bool
  deriving DecidableEq, Repr

/-! ### Temperature and power (spec/14_thermal_and_power.md) -/

/-- Temperature and power beside the registers, by sensor index (head h is 0x20 + h): median windows, the last raw code with the
readings it has stayed unchanged (for a head: the ETIME at which it last changed), the ETIME at which a condition of R538 last
held, MR4 failures in a row, the guard's runs of hot samples, the ETIME and sensor of the pending throttle request, the ETIME
from which a sensor has stayed at THROTTLE (restarted by an engagement), the ETIME from which all have stayed below THROTTLE
less HYST, the head and the die terms, the power filter in 0.1 mW, the run of chirps over budget, CORR in mW, the sensors
(heads from 0x20) whose THM_WARN has had no THM_CLEAR, and the THROTTLE or LIMIT that stays in force until the next chirp's item 3
where THERM_SET has written another (R540). -/
structure ThmSt where
  win : SMap (List Int)
  raw : SMap (Option (Int × Nat))
  cond : SMap Nat
  mr4 : Nat
  guard : SMap Nat
  pendAt : Nat
  pendBy : Nat
  hotFrom : Option Nat
  coolFrom : Option Nat
  fHd : Nat
  fTh : Nat
  pFilt : Int
  overRun : Nat
  corr : Int
  warned : List Nat
  late : SMap (Option Int)
  deriving DecidableEq, Repr

/-! ### Power (spec/02_module_hardware.md) -/

/-- The supplies: whether PCc_SUP has switched on and the ETIME at which each channel was last cut (R104); the ETIME of the last
VIN_F sample, and those from which VIN_F has stood below PF_LEVEL, at PF_LEVEL + 0.5 V or more, and above 32.5 V (R102). -/
structure PwrSt where
  on : Bool
  cutAt : SMap Nat
  sampledAt : Nat
  lowFrom : Option Nat
  backFrom : Option Nat
  overFrom : Option Nat
  deriving DecidableEq, Repr
/-! ### Press and nozzle path (spec/07_nozzle_path_and_screening.md) -/

/-- One head's entries of a NOZZLE_MAP_LOAD or a servo commit, waiting for its link's next line boundary (R315): the
link, the entries by key, whether the servo staged them, the command that completes with the last of them, and for the
servo whether the head's tone shadow commits with them, and the columns newly DEAD (R480). -/
structure NozStage where
  link : Nat
  head : Nat
  servo : Bool
  entries : List (Nat × Nat)
  ref : Option CmdRef
  curve : Bool
  dead : Nat
  deriving DecidableEq, Repr

/-- The press description in force (R296): its bytes, the bar of each used segment (0xFF unused), the nozzle count of
each present head (0 absent), the datum of each bar; and the nozzle path: nozzle-state entries by 131,072 b + k (R312),
entries with bad parity, tone curves by (2 head + bank) 256 + i with bank 0 active (R309), tone entries with bad parity,
heads whose COPY follows a pending COMMIT (R310), the blue-noise mask where the host replaced it (R327), mask bytes
with bad parity, links whose ERR_CLR waits for the next line (R326), window writes that wait for it (R313), staged
map loads, substitutions reported inactive (R321), and tone heads reported bad (R333). -/
structure PressSt where
  desc : Bytes
  segBar : SMap Nat
  nozzles : SMap Nat
  datum : SMap Nat
  nsm : SMap Nat
  nsmBad : List Nat
  tone : SMap Nat
  toneBad : List Nat
  toneSaid : List Nat
  copyAfter : List Nat
  mask : SMap Nat
  maskBad : List Nat
  errClr : List Nat
  window : List (Nat × Nat)
  stages : List NozStage
  fallbackSaid : List Nat
  deriving DecidableEq, Repr

/-! ### Jobs and ingest (spec/06_raster_ingest_and_coding.md, spec/12_jobs_and_changeover.md) -/

/-- The settings a bar prints a job with (R499): the screening set of R328 as the words of SCR_b_CFG, SCR_b_MASK_OFF,
SCR_b_REDIST, SCR_b_LVL_1-7 and SPG_b_ALT; the strip settings as the words of CSV_b_REPEAT, START, LAYOUT, SEQ and PATCH
with PHASE; CYCLE. -/
structure JobSet where
  scr : List Nat
  strip : List Nat
  phase : Nat
  cycle : Nat
  deriving DecidableEq, Repr

/-- The decoder state of one stream (R258, R267, R273): its header, the bytes decoded so far, the history (newest first),
whether its END block has come, the bytes of an unfinished tile, and
whether a block that wrote into the band in progress has failed (R247), and the bytes of the stream taken, header included. -/
structure SkStream where
  dpi : Nat
  width : Nat
  lines : Nat
  total : Nat
  hist : Bytes
  ended : Bool
  tile : Bytes
  bandBad : Bool
  off : Nat
  deriving DecidableEq, Repr

/-- One bar of a job: its record (R493), the base of its plane region, the state of each band by stream band number
(R247; the bytes of a partly decoded band wait in its stream), its stream in the ring, its loaded shadow set, the bands
each link has fetched, the web line index at which the bar stops (set by JOB_ABORT, R506), and whether the bar has left the
job (R496). -/
structure JobBar where
  dpi : Nat
  code : Nat
  width : Nat
  planeLines : Nat
  base : Nat
  bands : SMap Nat
  stream : Option SkStream
  set : Option JobSet
  fetched : SMap Nat
  endW : Option Nat
  left : Bool
  deriving DecidableEq, Repr

/-- A defect range (R507): the head or bar, per bar or not, the kind, first and last web line index, lines affected. -/
structure Defect where
  unit : Nat
  perBar : Bool
  kind : Nat
  first : Nat
  last : Nat
  lines : Nat
  deriving DecidableEq, Repr

/-- The variable-data ring of a job (R254 to R257): its region, its size, the unread bytes, the count of bytes taken,
dead or not, the appends that have not joined the unread bytes, oldest first, each with its length and its data once that has
landed, and of the block in front whether the decoder has begun it, the output bytes written and whether its input was found
spoilt. -/
structure Ring where
  base : Nat
  size : Nat
  hist : Nat
  bytes : Bytes
  taken : Nat
  dead : Bool
  barMask : Nat
  segs : List (CmdRef × Nat × Option Bytes)
  busy : Bool
  wrote : Nat
  spoilt : Bool
  deriving DecidableEq, Repr

/-- One load in progress (R249 to R253): its command, bar, plane line offset, staging region, DLEN, the data that has landed, how
much of it is decoded, its stream once the header is read, and its band range. -/
structure Load where
  ref : CmdRef
  job : Nat
  bar : Nat
  offset : Nat
  staging : Nat
  len : Nat
  data : Bytes
  pos : Nat
  stream : Option SkStream
  first : Nat
  count : Nat
  deriving DecidableEq, Repr

/-- A job record (R491 to R498). `lines` 0 means unbounded; `pos` is the position P at which it starts once switched; `cut` an abort
by CUT; `aborting` an abort of either mode; `struck` the last index struck on any bar; `open_` the issued lines that have not
closed; `extra` counts the defect ranges beyond 512; `endSeq` numbers the ended jobs in the order in which they ended; `desc` is the
descriptor; `reduced` marks an end reduced by an EDGE abort, `opened` a job whose ring has been opened. -/
structure Job where
  id : Nat
  state : Nat
  barMask : Nat
  streamMask : Nat
  flags : Nat
  lines : Nat
  cover : List Nat
  bars : List (Nat × JobBar)
  ceiling : Nat
  pos : Option Nat
  cut : Bool
  aborting : Bool
  struck : Option Nat
  open_ : Nat
  defects : List Defect
  extra : Nat
  overflow : Bool
  overSaid : Bool
  ring : Option Ring
  endSeq : Nat
  desc : Bytes
  reduced : Bool
  opened : Bool
  deriving DecidableEq, Repr

/-- A pending switch (R501): its operation, FROM and TO job, position, the bars whose entry has not fired, and the masks
of bars that have fired and fired late. -/
structure Switch where
  opId : Nat
  src : Nat
  dst : Nat
  pos : Nat
  waiting : List Nat
  fired : Nat
  late : Nat
  deriving DecidableEq, Repr

/-- A bar's chain of jobs by position (R502): job 0 means idle from there on. -/
abbrev Chain := List (Nat × Nat)

/-- Jobs: the eight records, pending switches oldest first, the chain of each bar, loads in the order their commands
started, regions of job memory in use (base, size), the count of ended jobs, the job and bar whose history the decoder
holds (R273), and the switches that fell due while no imago ran: bar, late or not, ETIME (R505). -/
structure JobSt where
  jobs : List Job
  switches : List Switch
  chains : SMap Chain
  loads : List Load
  regions : List (Nat × Nat)
  ended : Nat
  history : Option (Nat × Nat)
  due : List (Nat × Bool × Nat)
  deriving DecidableEq, Repr
/-! ### Position channels and compare pool (spec/08_position_channels.md) -/

/-- What a channel holds besides its registers: the live levels of A and B after the filter and of the index input, the
last legal Hall state and since when the state is illegal, the start of the last SSI frame, the last accepted SSI reading,
the run of discarded readings, the ETIME of the last sin/cos sample, its signal frequency in Hz and the run of samples outside
the amplitude window, by fault the ETIME at which its condition was last seen (R348), the unbounded count of steps in web
direction, the ETIME of the last step, the index reference, the speed window (its start, steps in it, a reversal in it, count
and ETIME of the last step of the window before), and the levels of A and B as received, before the filter. -/
structure PosCh where
  a : Bool
  b : Bool
  z : Bool
  hall : Nat
  hallBad : Option Nat
  ssiStart : Option Nat
  ssiLast : Option Nat
  ssiBad : Nat
  sampledAt : Nat
  hz : Nat
  ampOut : Nat
  seen : SMap Nat
  steps : Int
  lastStep : Option Nat
  ref : Nat
  winAt : Nat
  winN : Nat
  winRev : Bool
  base : Option (Nat × Nat)
  inA : Bool
  inB : Bool
  deriving DecidableEq, Repr

/-- The web source (R359 to R363): the PC1 step count latched at the last PC0 step and the reverse, whether PC0 has been
tracked for a full window since its recovery, the PC0 and PC1 step counts at the start of the ratio window, the carried
remainder of PC1 steps divided by R. -/
structure WebSt where
  latch1 : Int
  latch0 : Int
  tracked : Bool
  win0 : Int
  win1 : Int
  rem : Int
  deriving DecidableEq, Repr

/-- An encoder repeater (R364, R365): source counts not yet an output count, the runs of output counts in its buffer, oldest
first, the ETIME from which the next one may leave, and the levels of its outputs A, B and Z. -/
structure ErSt where
  acc : Int
  wait : List Int
  next : Nat
  a : Bool
  b : Bool
  z : Bool
  deriving DecidableEq, Repr

/-- A pending compare entry and its pool slot (R366). -/
structure CmpEntry where
  slot : Nat
  pos : Nat
  source : Nat
  action : Nat
  output : Nat
  flags : Nat
  width : Nat
  tag : Nat
  deriving DecidableEq, Repr

/-- A CMP_APPEND whose entries are being inserted (R369): its command, the entries left, those done and those late. -/
structure CmpAppend where
  ref : CmdRef
  rest : List CmpEntry
  done : Nat
  late : Nat
  deriving DecidableEq, Repr

/-- The compare pool: pending entries in insertion order, entries queued for insertion, the levels of the CO outputs
(bit c for CO c), the ETIME at which each pulse timer runs out, and that of the defect-marker pulse (R402). -/
structure CmpSt where
  pool : List CmpEntry
  queue : List CmpAppend
  levels : Nat
  timers : SMap Nat
  marker : Nat
  deriving DecidableEq, Repr

/-- Position channels: the eight channels, the web source, the two repeaters and the pool. -/
structure PosSt where
  ch : SMap PosCh
  web : WebSt
  er : SMap ErSt
  cmp : CmpSt
  deriving DecidableEq, Repr
/-! ### Firing and pacing (spec/09_firing_and_speed_governor.md) -/

/-- A screened line of one head in line staging (R331): job, web line index, job line, packed payload and its drops
(R400), its LINE number once its frame is sent, whether the frame was spoilt for a parity failure (R579), and the SKEW it was
screened with (R307). -/
structure StagedLine where
  job : Nat
  w : Nat
  l : Nat
  payload : Bytes
  drops : Nat
  seq : Option Nat
  spoilt : Bool
  skew : Nat
  deriving DecidableEq, Repr

/-- A band in the tile buffer of a stripe engine (R304): job, band number, whether it was VALID and free of reserved and
poisoned words when fetched, and its stored tiles. -/
structure BandBuf where
  job : Nat
  band : Nat
  good : Bool
  tiles : Bytes
  deriving DecidableEq, Repr

/-- A stripe engine: the next web line index it screens, and its tile buffer. -/
structure LinkScr where
  nextW : Option Nat
  buf : List BandBuf
  deriving DecidableEq, Repr

/-- An issued line that has not closed (R399): job, web line index, job line, strobe ETIME, drops, its LINE number. -/
structure IssuedLine where
  job : Nat
  w : Nat
  l : Nat
  strobe : Nat
  drops : Nat
  seq : Nat
  deriving DecidableEq, Repr

/-- An open defect range (R401): job, first and last affected index, lines affected, and lines issued since the last. -/
structure OpenRange where
  job : Nat
  first : Nat
  last : Nat
  lines : Nat
  since : Nat
  deriving DecidableEq, Repr

/-- Firing of one head: staged and issued lines, the next web line index to issue, the last strobe sent as a token, and
its open ranges by class (0 late, 1 overspeed, 2 inhibit, 3 unconfirmed; R401), whether the last line that alternate mode has not
left out was blanked as overspeed (R411). -/
structure HeadFire where
  staged : List StagedLine
  issued : List IssuedLine
  nextW : Option Nat
  lastTok : Option Nat
  ranges : List (Nat × OpenRange)
  ovs : Bool
  deriving DecidableEq, Repr

/-- Firing of one bar: the run of well-spaced lines in alternate mode, the last line with its strobe at the bar's first head
(R397), the lines between which alternate mode holds, the last line issued to the bar, the trims that the lines issued last took
(R389), the job whose web loss range is open with the held position (R401), the job of which a line has strobed (R401),
and the open range of kind DATA (R507). -/
structure BarFire where
  altGood : Nat
  lastStrobe : Option (Nat × Nat)
  altFrom : Option Nat
  altTo : Option Nat
  lastLine : Option Nat
  trims : List (Nat × Int)
  webLoss : Option (Nat × Nat)
  strobedJob : Nat
  data : Option OpenRange
  deriving DecidableEq, Repr

/-- Line pacing and the governor: the loop state in 2^-32 line (R384), the slew offset (R385), the last count step seen, updates
in lock (R386), the ETIME of the last update, the PIO outputs driven (R102), the ceiling in mHz (R403), the averaged elytron
rate, the hardware strobe state per head and bar, the stripe engines, pending defect markers by position (R402), the ETIME
from which one SAFE channel has been de-energised while the other was energised (R395), by SPD output the part of a code that the
ramp of R232 has not taken yet, and the frequency in kHz and the duty in 1/32,767 of its PWM (R406). -/
structure SpgSt where
  p : Int
  v : Int
  a : Int
  o : Int
  lockRun : Nat
  upd : Nat
  pio : Nat
  ceil : Nat
  elyBytes : Nat
  elyAvg : Nat
  heads : SMap HeadFire
  bars : SMap BarFire
  links : SMap LinkScr
  markers : List Nat
  safeAt : Option Nat
  ramp : SMap Nat
  pwm : SMap (Nat × Nat)
  deriving DecidableEq, Repr
/-! ### Head links (spec/10_head_link.md) -/

/-- A token of a link (R437): its slot and LINE, FIRE or DISCARD, strobe ETIME, the engine's drop count, and the ETIME at
which it was sent. -/
structure Tok where
  slot : Nat
  line : Nat
  fire : Bool
  strobe : Nat
  drops : Nat
  sentAt : Option Nat
  deriving DecidableEq, Repr

/-- A sideband request outstanding on a link (R443): its TID, target, write or read, word address, written word, the head it
serves, failures so far and the ETIME of sending. -/
structure SbReq where
  tid : Nat
  target : Nat
  write : Bool
  waddr : Nat
  word : Nat
  fails : Nat
  sentAt : Nat
  deriving DecidableEq, Repr

/-- One head link: forward transmitter on, the ETIME at which it turns on again after a loss (R439), the ETIME from which training
may restart, expected SEQ, the run of NAKs of one SEQ, failures not yet reported with the ETIME of the last report, tokens in issue
order, sideband requests, a LINK_REATTACH operations in progress with their bounds, the slots inhibited by the engine, the head
end's descriptor if accepted, the identity memories presented last by target, ETIME of the last return message and of the last TIME
block, runs of HEAD_OK 0 by slot, slots whose head is gone, forward blocks and return messages since the last chirp, the blocks sent
last, the slots whose RESUME waits for the tokens ahead of it (R420), the ETIMEs of the last RACK and of the last SB_REQ or
ECHO_REQ, a RACK that waits with its NAK, the position of the next block in the link's stream and that of the last ALIGN, the
scrambler of each lane, and the blocks sent last as they leave: lane, and the sync header with the scrambled bits (R412, R413). -/
structure LinkSt where
  tx : Bool
  txAt : Option Nat
  restartAt : Option Nat
  rxSeq : Nat
  nakRun : Nat
  failsUnsaid : Nat
  failSaidAt : Option Nat
  tokens : List Tok
  sb : List SbReq
  reattach : List (Nat × Nat)
  inhibited : Nat
  headEnd : Option Bytes
  mems : SMap IdMem
  lastMsg : Nat
  lastTime : Nat
  lowRun : SMap Nat
  gone : List Nat
  fwd : Nat
  ret : Nat
  out : List Bytes
  resume : Nat
  rackAt : Option Nat
  sbAt : Option Nat
  rack : Option Bool
  pos : Nat
  aligned : Nat
  scrA : Nat
  scrB : Nat
  wire : List (Nat × Nat)
  deriving DecidableEq, Repr

/-- A usage record as counts (R140): sequence number, drops, strobes, seconds, peak temperature. -/
structure Usage where
  seq : Nat
  drops : Nat
  strobes : Nat
  fireS : Nat
  tPeak : Int
  deriving DecidableEq, Repr

/-- A usage write under way (R444): the copy written, the record's 64 bytes, words answered, the words read back, whether
it is the power-fail write, and how it has ended (0 not yet, 1 success, 2 failure with the RESULT byte). -/
structure UsageWrite where
  copy : Nat
  bytes : Bytes
  done : Nat
  back : Bytes
  powerFail : Bool
  outcome : Nat
  result : Nat
  deriving DecidableEq, Repr

/-- What the engine keeps of a head beside its registers: the serial last attached, the identity memory read at that attach, the
descriptor that last passed R137 to R139, the usage record in force with its copy, the strobed lines and drops already in it,
when the head attached, the nanoseconds enabled since the record, the ETIME of the last count of them, the ETIME of the last
write, a write under way, the 60 s periods since attach that have begun their write, and whether the power-fail write is due. -/
structure HeadRec where
  serial : Option Nat
  cal : IdMem
  desc : Bytes
  usage : Usage
  copy : Nat
  baseStrobes : Nat
  baseDrops : Nat
  attachedAt : Nat
  fireNs : Nat
  countAt : Nat
  writtenAt : Nat
  write : Option UsageWrite
  periods : Nat
  pfDue : Bool
  deriving DecidableEq, Repr

/-- Head links and heads. -/
structure HlkSt where
  links : SMap LinkSt
  heads : SMap HeadRec
  deriving DecidableEq, Repr
/-! ### Camera, image pipeline and servo (spec/11_inspection_and_colour_servo.md) -/

/-- A line trigger in the FIFO (R452, R453): its number, position and ETIME, and the channels that have received no line
with that number or a later one. -/
structure CamTrig where
  num : Nat
  pos : Nat
  etime : Nat
  waits : Nat
  deriving DecidableEq, Repr

/-- The settings a frame of a channel is processed with (R463, R465): PRIO, black levels, white balance, matrix, offsets,
defect list, shading knots and tone curve. -/
structure IspSet where
  prio : Nat
  black : List Nat
  wb : List Nat
  ccm : List Nat
  off : List Nat
  defect : List Nat
  shade : List Nat
  tone : List Nat
  deriving DecidableEq, Repr

/-- A channel's frame: open or not, its number, its settings and generation, the ring frame it fills, lines in it, the
Line Start that waits for its line, the statistics so far, the last number seen, the trigger number of the last line, an
exposure write whose answer has come, and a restart or STOP that excuses a short frame. -/
structure CamFrame where
  open_ : Bool
  num : Nat
  set : IspSet
  gen : Nat
  ring : Nat
  lines : Nat
  lineStart : Option Nat
  valid : Bool
  green : Nat
  samples : Nat
  clips : Nat
  lastNum : Option Nat
  lastTrig : Option Nat
  answered : Bool
  excused : Bool
  deriving DecidableEq, Repr

/-- A line in a slot of the pipeline (R464), with what places it, where it goes in the camera region, and the ETIME at which it was
complete. -/
structure IspLine where
  vc : Nat
  raw : Bytes
  pos : Nat
  etime : Nat
  ring : Nat
  frame : Nat
  line : Nat
  gen : Nat
  bad : Bool
  addr : Nat
  pixels : Nat
  dt : Nat
  set : IspSet
  got : Nat
  deriving DecidableEq, Repr

/-- A line of the frame ring (R468): its record, and where its samples lie in the camera region. -/
structure RingLine where
  vc : Nat
  ring : Nat
  line : Nat
  frame : Nat
  pos : Nat
  etime : Nat
  gen : Nat
  bad : Bool
  addr : Nat
  deriving DecidableEq, Repr

/-- What a control request is for (R457): CONFIG of a start, STOP, or the exposure write of a channel. -/
inductive CamReqKind where
  | config | stop | exposure (vc : Nat)
  deriving DecidableEq, Repr

/-- The requests of the control channel (R457). -/
inductive CtlReq where
  | idRead (addr count : Nat)
  | sensorWrite (i2c reg : Nat) (data : Bytes)
  | sensorRead (i2c reg count : Nat)
  | config (lines vcs : Nat)
  | stop
  deriving DecidableEq, Repr

/-- A control request that waits for its answer: what it is for, the request, the attempts that have failed, and the ETIME of
sending. -/
structure CamReq where
  kind : CamReqKind
  req : CtlReq
  fails : Nat
  sentAt : Nat
  deriving DecidableEq, Repr

/-- The camera and the pipeline: trigger FIFO and next number, the channels' frames, table entries by 1,024 v + 256 table +
index, the identity memory of the aggregator in force, the serial last accepted, pipeline slots, the ring's lines and each
channel's next ring frame, the control requests in order, the CAM_STARTs that wait for CONFIG, whether the engine itself starts
the camera, CAM_REINIT operations with their bounds, the ETIME to which CAM_TRIG is driven, whether CAM_FS_POS waits for the
next trigger, the samples processed in this chirp, the ETIME at which the pipeline has finished its last line, the last request
frame sent on CAM_CTL, whether the D-PHY link is up, what the host has written of the contexts (register addresses, and table
entries by key), and φ when the camera last left RUNNING. -/
structure CamSt where
  fifo : List CamTrig
  trigNext : Nat
  frames : SMap CamFrame
  tables : SMap Nat
  mem : Bytes
  lastSerial : Option Nat
  slots : List IspLine
  ring : List RingLine
  ringNext : SMap Nat
  reqs : List CamReq
  start : List CmdRef
  auto : Bool
  reinit : List (Nat × Nat)
  trigEnd : Nat
  fsWait : Bool
  busySamples : Nat
  busyAt : Nat
  ctl : Bytes
  linked : Bool
  hostWrote : List Nat
  stopAt : Option Nat
  deriving DecidableEq, Repr

/-- A printed strip (R469 to R475): bar, job, number, ladder or tone, J_b, first job line, length, lines screened so far, the
set it was printed with, the skip causes met, the heads that a commit reached within it, and whether its update is postponed to
the bar's next strip (R509). -/
structure StripRec where
  bar : Nat
  job : Nat
  num : Nat
  ladder : Bool
  start : Nat
  first : Nat
  len : Nat
  upto : Nat
  set : JobSet
  data : Bool
  switched : Bool
  camera : Bool
  lost : Bool
  heads : List Nat
  postponed : Bool
  deriving DecidableEq, Repr

/-- A servo update of one head that waits for the commit boundary (R480): new entries by key with those newly DEAD, and whether
the head's tone shadow holds a new curve. -/
structure ServoStage where
  bar : Nat
  head : Nat
  entries : List (Nat × Nat)
  dead : Nat
  curve : Bool
  deriving DecidableEq, Repr

/-- The servo: strips not yet measured, staged updates, the last readings of each column (newest first), dead runs, the
runs of weak stitch-pair nozzles, and of each bar the strips skipped for cause 2 or 7 since its last measured one, none where one
was skipped for another cause (R482). -/
structure CsvSt where
  strips : List StripRec
  stages : List ServoStage
  meas : SMap (List Nat)
  deadRun : SMap Nat
  pairRun : SMap Nat
  skipRow : SMap (Option Nat)
  deriving DecidableEq, Repr
/-! ### DRAM controller (spec/13_memory_subsystem.md) -/

/-- A migration, queued or running (R526): channel, source rank, cause (1 UE, 2 CMD, 3 HOST, 4 CE), and the operation of a
RANK_RETIRE. -/
structure Mig where
  ch : Nat
  rank : Nat
  cause : Nat
  op : Option Nat
  deriving DecidableEq, Repr

/-- A bank of a rank (R517, R519): its open row, the last row accessed, its page counter, and its table of row counters. -/
structure Bank where
  row : Option Nat
  last : Option Nat
  page : Nat
  counts : List (Nat × Nat)
  used : Nat
  refAt : Nat
  deriving DecidableEq, Repr

/-- A request of one 64-byte word to a channel (R515): whether it writes, its class (R57), the rank, bank and row, the word
within the row, and the ETIME of its arrival. -/
structure DramReq where
  write : Bool
  cls : Nat
  rank : Nat
  bank : Nat
  row : Nat
  col : Nat
  etime : Nat
  deriving DecidableEq, Repr

/-- The queues of a channel (R515): the requests of its read and write queue in arrival order, those the fabric holds by class, and
whether it serves writes. -/
structure ChanQ where
  pend : List DramReq
  held : List (Nat × List DramReq)
  writes : Bool
  deriving DecidableEq, Repr

/-- The DRAM controller beside its registers: ETIMEs of correctable errors by rank (3 channel + rank) and of CA parity errors by
channel, queued migrations, the running one with its target, the channels of the address map in ascending order, a re-form that
waits for jobs to end, banks by 96 channel + 32 rank + bank, the queues of each channel, words corrected and poisoned in the
scrub pass, the scrub's word within its page, whether RANK_CLR was written, the last MR4 temperature of each device in °C
(15 channel + 5 rank + device), the start of the row-hammer window, the failed retries of the command (6 channel + 2 rank) or write
(one more) that each rank retries, the ETIMEs of the last scrub read and row copy, the writes held at the migration cursor, and the words
each channel has moved in this chirp. -/
structure MemSt where
  ce : SMap (List Nat)
  ca : SMap (List Nat)
  queue : List Mig
  cur : Option (Mig × Nat)
  layout : List Nat
  reform : Bool
  camWas : Bool
  banks : SMap Bank
  queues : SMap ChanQ
  fixed : Nat
  poisoned : Nat
  scrubWord : Nat
  rankClr : Bool
  mr4 : SMap Nat
  windowAt : Nat
  retries : SMap Nat
  scrubAt : Nat
  copiedAt : Nat
  cursorHeld : List DramReq
  words : SMap Nat
  deriving DecidableEq, Repr
/-! ### Operator display (spec/15_operator_display.md) -/

/-- A commit (R567 to R572): its number, staging region, data, regions as X, Y, W, H, the ETIME at which it became eligible,
the edge it targets once that edge has come, the edge its push uses, the start of its push, and its flags. -/
structure DspCommit where
  num : Nat
  base : Nat
  len : Nat
  regions : List (Nat × Nat × Nat × Nat)
  eligible : Nat
  edge : Option Nat
  start : Nat
  waited : Nat
  late : Bool
  span : Bool
  noTe : Bool
  deriving DecidableEq, Repr

/-- A DSP_CONFIG that waits or runs: its command, PANEL_ID, WIDTH, HEIGHT, LANE_MBPS and what the panel answers. -/
structure DspCfg where
  ref : CmdRef
  id : Nat
  width : Nat
  height : Nat
  mbps : Nat
  answer : Option Nat
  deriving DecidableEq, Repr

/-- A DSP_CONFIG whose steps run (R565): the ETIME of step 1, and the last step done. -/
structure DspStart where
  cfg : DspCfg
  at_ : Nat
  step : Nat
  deriving DecidableEq, Repr

/-- The display: commits not started in eligibility order, the push that runs, the next commit number, the last accepted TE
edge, whether pushes go without TE, the configurations that wait and the one that runs, the ETIME at which the port became READY,
whether DSP_RST_N is asserted, the line buffer of 64 KiB: the bytes fetched last (R58, R573), and the DCS packets that a step of
R565 or a push sent last. -/
structure DspSt where
  commits : List DspCommit
  push : Option DspCommit
  next : Nat
  lastEdge : Option Nat
  noTe : Bool
  cfg : List DspCfg
  run : Option DspStart
  readyAt : Nat
  rst : Bool
  lineBuf : Bytes
  out : List Bytes
  deriving DecidableEq, Repr
/-! ### Tick cores (spec/05_chirp_and_tick_cores.md) -/

/-- A pending MOLT: its operation, the core and slot it boots, JOB_BOUNDARY_RESTART, whether the pupa has booted the
staged image, and whether the handover has made it imago and only the boot record is left to be written (R236, R237). -/
structure Molt where
  opId : Nat
  core : Nat
  slot : Nat
  restart : Bool
  booted : Bool
  swapped : Bool
  deriving DecidableEq, Repr

/-- A SWAP_DRILL: its operation, whether the handover has happened, its gap, and the chirps confirmed, none before the first
boundary after the handover (R241). -/
structure Drill where
  opId : Nat
  swapped : Bool
  gap : Nat
  chirps : Option Nat
  deriving DecidableEq, Repr

/-- A command in a checkpoint's command table (R224): tag, queue, opcode, ring index, state (0 waiting, 1 executing, 2
asynchronous), group number (its place in the commit log, from 1; 0 not there), OP_ID, and for work of several chirps how far it
has come. -/
structure CkptCmd where
  tag : Nat
  q : Nat
  opcode : Nat
  index : Nat
  state : Nat
  group : Nat
  opId : Nat
  cursor : Nat
  deriving DecidableEq, Repr

/-- A job in a checkpoint (R224): its state, the bars of switches into it that have switched, and its defect ranges. -/
structure CkptJob where
  id : Nat
  state : Nat
  switched : Nat
  defects : List Defect
  deriving DecidableEq, Repr

/-- The content of a checkpoint bank (R224), part by part: the command table; the jobs; the ceiling terms, the current ceiling, the
SPD codes, the PWM duties and the runway filter; temperature and power; the servo's staged updates with the strips it awaits; scrub
cursor, migration cursor (channel, rank, row), deferred flash writes, and by head the ETIME of its last usage write; host privilege,
the AUTH state, the event number and the next OP_ID; molt, drill and revert. -/
structure CkptBody where
  commands : List CkptCmd
  jobs : List CkptJob
  terms : List Nat
  ceil : Nat
  spd : List Nat
  pwm : List Nat
  runway : Nat
  thermal : ThmSt
  staged : List ServoStage
  strips : List Nat
  scrub : Nat
  migration : Option (Nat × Nat × Nat)
  deferred : Nat
  usage : SMap Nat
  privilege : Nat
  auth : AuthSt
  evSeq : Nat
  opNext : Nat
  molt : Option Molt
  drill : Option Drill
  revert : Bool
  deriving DecidableEq, Repr

/-- A checkpoint bank (R224): the header (magic, CKPT_EPOCH, writer core, 64-bit chirp number, ETIME of writing, length,
HANDOVER), whether the header's CRC-32C matches, and the content. -/
structure Ckpt where
  magic : Nat
  epoch : Nat
  writer : Nat
  chirp : Nat
  etime : Nat
  length : Nat
  handover : Bool
  crcOk : Bool
  body : CkptBody
  deriving DecidableEq, Repr

/-- The tick cores: whether the chirp runs, the period and miss limit in force, the ETIME of the last boundary, the miss
runs of each path, the ETIME of the last heartbeat made and of the last watchdog kick, chirps without the pupa-alive word,
the length of this chirp's work in ns, the newest header of each checkpoint bank, the commit log (tag and queue), the
verified staged slot of each core, molt and drill, whether a job boundary has come due since the last chirp boundary, the
core being restarted, the items of this chirp not run, whether the last chirp boundary was a job boundary (R231), the
ETIME at which the core being restarted was put into reset, what each core's local memory was loaded with (R132), the level of
the HB wire and the heartbeat word with the word that the monitor last saw (R219), the ETIME of the last heartbeat that it found
good (R226), whether the imago is up, the 64-bit chirp number, and the bus errors returned to each core (R217). -/
structure TckSt where
  running : Bool
  period : Nat
  missLimit : Nat
  last : Nat
  wireRun : Nat
  wordRun : Nat
  hbAt : Nat
  kickAt : Nat
  pupaSilent : Nat
  workNs : Nat
  bank0 : Option Ckpt
  bank1 : Option Ckpt
  commitLog : List (Nat × Nat)
  stagedA : Option Nat
  stagedB : Option Nat
  molt : Option Molt
  drill : Option Drill
  boundary : Bool
  held : Option Nat
  dropped : Nat
  jobBoundary : Bool
  heldAt : Nat
  localA : Bytes
  localB : Bytes
  hbWire : Bool
  hbWord : Nat
  seenWord : Nat
  goodAt : Nat
  imagoUp : Bool
  chirpNo : Nat
  busErr : SMap Nat
  deriving DecidableEq, Repr

/-! ### Crossings and fault injection (spec/16_integrity_crossings_faults.md) -/

/-- A unit an injection rule holds (R592): its path (target and instance), its virtual channel or kind, the ETIME to which
it is held, none where it waits for the unit it changes places with, the step that receives it, and for a forward unit the
blocks that leave. -/
structure HeldUnit where
  target : Nat
  inst : Nat
  kind : Nat
  due : Option Nat
  unit : Option Instr
  blocks : List Bytes
  deriving DecidableEq, Repr

/-- Fault injection: eligible units each armed rule has seen, and the units held. -/
structure FijSt where
  seen : SMap Nat
  held : List HeldUnit
  deriving DecidableEq, Repr

/-- The clock crossings that are TIMED_OUT, by their identity (R582), the pulses each holds (R584, R586), and the request
outstanding on each pulse crossing: its count and the ETIME at which it was raised (R583). -/
structure CdcSt where
  out : List Nat
  held : SMap Nat
  req : SMap (Option (Nat × Nat))
  deriving DecidableEq, Repr

/-! ### The whole machine -/

/-- The field side but for its DRAM: registers (`regs`), the latched HI halves (R19) and held LO writes (R20), ETIME
(R22), the counter of free values, the last report of each limited event (R607), and one record per block. -/
structure Core where
  regs : SMap Nat
  latch : SMap Nat
  lo : SMap Nat
  etime : Nat
  free : Nat
  limits : List (Nat × Nat × Nat)
  resetPending : Bool
  cmdq : CmdqSt
  ely : ElySt
  flash : FlashSt
  tck : TckSt
  pwr : PwrSt
  press : PressSt
  jobs : JobSt
  pos : PosSt
  spg : SpgSt
  hlk : HlkSt
  cam : CamSt
  csv : CsvSt
  mem : MemSt
  thm : ThmSt
  dsp : DspSt
  fij : FijSt
  cdc : CdcSt
  deriving DecidableEq, Repr

/-- DRAM as software sees it: the bytes of the job, ring, frame and firmware spaces, and the poisoned 64-byte words (R521), by
word number, and the words whose next read comes back poisoned because a fabric beat failed parity twice (R577). -/
structure Dram where
  cells : List Host.Cell
  poison : List Nat
  once : List Nat
  deriving DecidableEq, Repr

/-- The field side. -/
structure Field where
  core : Core
  dram : Dram
  deriving DecidableEq, Repr

/-- The block. `pending` is the queue of commands waiting for a step, first in, first out. -/
structure State where
  pending : List Instr
  host : HostSide
  field : Field
  deriving DecidableEq, Repr

/-- The reasons a step could end in a fault. No command of this block does: every row has an effect the spec states, and
an unstated value is a free value; so this type has no constructor. -/
inductive Fault where
  deriving DecidableEq, Repr

/-- The reasons a step could refuse. -/
inductive Refusal where
  /-- raised by an arm of `exec` whose command has no meaning yet; safe: nothing can be proved of its effect. -/
  | notModelled (mnemonic : String)
  deriving DecidableEq, Repr

/-! ### Reset -/

/-- AUTH state at reset: no nonce, no mismatch, no lockout. -/
def AuthSt.reset : AuthSt := ⟨none, 0, 0⟩
/-- The queues at reset: empty. -/
def CmdqSt.reset : CmdqSt := ⟨[], [], [], [], [], 0, 1, [], AuthSt.reset, AuthSt.reset, [], 0, []⟩
/-- The host side at reset: powered, rings disabled, nothing reported. HOST_ALERT_N stands asserted: no field HEARTBEAT has
arrived (R51; DESIGN CHOICE: log entry 2). The copy of the module identity is that of the OTP. -/
def HostSide.reset : HostSide where
  bar := []
  msix := []
  barData := 0
  powered := true
  phase := true
  turn := 0
  tracked := []
  outbox := []
  arrived := []
  answers := []
  retry := .none
  cqMem := []
  dataMem := []
  alert := true
  hbAt := 0
  hbSent := 0
  report := 0
  time := 0
  lost := []
  flash := ⟨Config.pcieIds.toNat, Config.order.val, Config.modRev.toNat, Config.serial.toNat⟩
/-- A direction that has sent nothing and holds no credit. -/
def ElyDir.reset : ElyDir := ⟨0, 0, [], .none, 0, [], 0⟩
/-- The elytron at reset: no lane up. -/
def ElySt.reset : ElySt :=
  ⟨0, 0, false, ElyDir.reset, ElyDir.reset, false, false, false, [], 0, false, false, [], 0, []⟩
/-- Flash as manufactured: golden images, blank slots, no record. -/
def FlashSt.reset : FlashSt := ⟨[], none, none, none, none, [], [], [], false⟩
/-- The tick cores at reset: neither runs firmware. -/
def TckSt.reset : TckSt :=
  ⟨false, 100, 3, 0, 0, 0, 0, 0, 0, 0, none, none, [], none, none, none, none, false, none, 0, false, 0, [], [], false, 0, 0, 0, false, 0, []⟩
/-- A bar of a job with nothing in it. -/
def JobBar.none : JobBar := ⟨0, 0, 0, 0, 0, [], .none, .none, [], .none, false⟩
/-- The nozzle path at reset: no description, neutral entries and curves, ROM mask. -/
def PressSt.reset : PressSt := ⟨[], [], [], [], [], [], [], [], [], [], [], [], [], [], [], []⟩
/-- No job. -/
def JobSt.reset : JobSt := ⟨[], [], [], [], [], 0, none, []⟩
/-- A channel that has counted nothing. -/
def PosCh.reset : PosCh := ⟨false, false, false, 0, .none, .none, .none, 0, 0, 0, 0, [], 0, .none, 0, 0, 0, false, .none, false, false⟩
/-- A repeater with nothing to send. -/
def ErSt.reset : ErSt := ⟨0, [], 0, false, false, false⟩
/-- The position block at reset. -/
def PosSt.reset : PosSt := ⟨[], ⟨0, 0, false, 0, 0, 0⟩, [], ⟨[], [], 0, [], 0⟩⟩
/-- A head with nothing staged or issued. -/
def HeadFire.none : HeadFire := ⟨[], [], .none, .none, [], false⟩
/-- A stripe engine that has not started. -/
def LinkScr.none : LinkScr := ⟨.none, []⟩
/-- A bar that has not fired. -/
def BarFire.none : BarFire := ⟨0, .none, .none, .none, .none, [], .none, 0, .none⟩
/-- The loop at reset; the ceiling starts at 0. -/
def SpgSt.reset : SpgSt := ⟨0, 0, 0, 0, 0, 0, 0, 0, 0, 0, [], [], [], [], .none, [], []⟩
/-- A link that has never trained. -/
def LinkSt.reset : LinkSt :=
  ⟨false, .none, .none, 0, 0, 0, .none, [], [], [], 0, .none, [], 0, 0, [], [], 0, 0, [], 0, .none, .none, .none, 0, 0, 0, 0, []⟩
/-- A head never seen. -/
def HeadRec.reset : HeadRec := ⟨.none, [], [], ⟨0, 0, 0, 0, 0⟩, 0, 0, 0, 0, 0, 0, 0, .none, 0, false⟩
/-- Settings of no channel. -/
def IspSet.none : IspSet := ⟨0, [], [], [], [], [], [], []⟩
/-- A channel with no frame. -/
def CamFrame.none : CamFrame := ⟨false, 0, IspSet.none, 0, 0, 0, .none, false, 0, 0, 0, .none, .none, false, false⟩
/-- The camera at reset: no link. -/
def CamSt.reset : CamSt := ⟨[], 0, [], [], [], .none, [], [], [], [], [], false, [], 0, false, 0, 0, [], false, [], .none⟩
/-- The servo at reset. -/
def CsvSt.reset : CsvSt := ⟨[], [], [], [], [], []⟩
/-- Empty queues (R515). -/
def ChanQ.empty : ChanQ := ⟨[], [], false⟩
/-- A bank at reset: closed, page counter 2 (R517). -/
def Bank.reset : Bank := ⟨.none, .none, 2, [], 0, 0⟩

/-- The field side right after its reset is released at power-on, given the flash that outlives a reset. -/
def Core.reset (fl : FlashSt) : Core where
  regs := []
  latch := []
  lo := []
  etime := 0
  free := 0
  limits := []
  resetPending := false
  cmdq := CmdqSt.reset
  ely := ElySt.reset
  flash := fl
  tck := TckSt.reset
  pwr := ⟨false, [], 0, .none, .none, .none⟩
  press := PressSt.reset
  jobs := JobSt.reset
  pos := PosSt.reset
  spg := SpgSt.reset
  hlk := ⟨[], []⟩
  cam := CamSt.reset
  csv := CsvSt.reset
  mem := ⟨[], [], [], .none, [], false, false, [], [], 0, 0, 0, false, [], 0, [], 0, 0, [], []⟩
  thm := ⟨[], [], [], 0, [], 0, 0, .none, .none, 160000, 160000, 0, 0, 0, [], []⟩
  dsp := ⟨[], .none, 0, .none, false, [], .none, 0, false, [], []⟩
  fij := ⟨[], []⟩
  cdc := ⟨[], [], []⟩

/-- The machine right after reset: every register at its reset value, memory with nothing listed, no command waiting. -/
def State.reset : State where
  pending := []
  host := HostSide.reset
  field := ⟨Core.reset FlashSt.reset, ⟨[], [], []⟩⟩

end Sys2Proof.Machine
end

