-- ==== Sys2Proof/Machine/Ops.lean ====
section
/-! DEFINITION. The named operations over registers, events, completions and memory that every meaning is built from. -/

namespace Sys2Proof.Machine

/-! ### Registers -/

/-- The threshold row of R535 for temperature sensor `n` (THM_s of R560), as WARN, THROTTLE, TRIP in 0.1 °C: TS0-TS15
are die sensors, then MS0, MS1 to MS7 and DT; the cold-plate sensor's row depends on the ordering code (R2). -/
def thmDefault (n : Nat) : Nat × Nat × Nat :=
  if n < 16 then (950, 1050, 1150)
  else if n = 16 then (if Config.order.val = 2 then (690, 740, 840) else (590, 640, 740))
  else if n < 24 then (800, 900, 1000)
  else (850, 900, 950)

/-- The reset value of instance `n` of a field (R36). Identity fields of SYS come from OTP (R135); a few resets depend
on the instance (R327, R488, R535); the others are constants. -/
def resetOf (f : Fld) (n : Nat) : Nat :=
  if f.base < 0xC then
    if f.base = 0 then
      if f.lo = 0 then Config.order.val else if f.lo = 4 then Config.modRev.toNat else Config.stepping.toNat
    else if f.base = 4 then Config.serial.toNat % 2 ^ 32 else Config.serial.toNat / 2 ^ 32
  else if f.base = 0x90004 then (if f.lo = 0 then 37 * n % 256 else 101 * n % 256)
  else if f.base = 0x130014 then (if n % 9 % 4 = 0 then 0x1000 else 0)
  else if f.base = 0x160104 then (if f.lo = 0 then (thmDefault n).1 else (thmDefault n).2.1)
  else if f.base = 0x160108 then (thmDefault n).2.2
  else f.rst

/-- The value of a register field (instance 0 unless named), which its width bounds. -/
def Core.rd (s : Core) (f : Fld) (n : Nat := 0) : Nat := mget (resetOf f n) s.regs (f.key n) % 2 ^ f.width
/-- A register field as a truth value. -/
def Core.rdb (s : Core) (f : Fld) (n : Nat := 0) : Bool := s.rd f n != 0
/-- Set a register field, modulo its width. -/
def Core.wr (s : Core) (f : Fld) (v : Nat) (n : Nat := 0) : Core :=
  { s with regs := mset (resetOf f n) s.regs (f.key n) (v % 2 ^ f.width) }
/-- Add `k` to a counter field that saturates. -/
def Core.inc (s : Core) (f : Fld) (n : Nat := 0) (k : Nat := 1) : Core := s.wr f (satU f.width (s.rd f n + k)) n
/-- Add `k` to a counter field that wraps. -/
def Core.incW (s : Core) (f : Fld) (n : Nat := 0) (k : Nat := 1) : Core := s.wr f (s.rd f n + k) n
/-- The value of a register pair (R18): `lo` holds bits [31:0]. -/
def Core.rd2 (s : Core) (lo hi : Fld) (n : Nat := 0) : Nat := s.rd lo n + 2 ^ 32 * s.rd hi n
/-- Set a register pair. -/
def Core.wr2 (s : Core) (lo hi : Fld) (v : Nat) (n : Nat := 0) : Core := (s.wr lo (v % 2 ^ 32) n).wr hi (v / 2 ^ 32) n
/-- Set a list of single-instance fields of instance `n`. -/
def Core.wrs (s : Core) (l : List (Fld × Nat)) (n : Nat := 0) : Core := l.foldl (fun s p => s.wr p.1 p.2 n) s
/-- Put a list of fields of instance `n` back to their reset values. -/
def Core.clr (s : Core) (l : List Fld) (n : Nat := 0) : Core := l.foldl (fun s f => s.wr f (resetOf f n) n) s
/-- The signed value of a field. -/
def Core.rds (s : Core) (f : Fld) (n : Nat := 0) : Int := sgn f.width (s.rd f n)

/-! ### Time, free values and chirps -/

/-- The chirps since field-side reset (R244). -/
def Core.chirps (s : Core) : Nat := s.rd TCK_CHIRP_CNT.COUNT
/-- ETIME stands at `t` or later: an action of the clock does not happen before its time. -/
def Core.reach (s : Core) (t : Nat) : Core := { s with etime := max s.etime t }
/-- Has the imago stopped, with no takeover yet (R226, R227)? -/
def Core.imagoDead (s : Core) : Bool := s.tck.running && !s.tck.imagoUp
/-- When a condition of R102 holds, since when it has: `t` is what was kept. -/
def sinceIf (t : Option Nat) (now : Nat) (holds : Bool) : Option Nat := if holds then some (t.getD now) else none
/-- VIN_F is held against the thresholds of R102, each with the ETIME from which it has been met; PF_LEVEL is in 100 mV, VIN_F
in 10 mV. Brown-out acts at once, at no sample. -/
def Core.judgeVin (s : Core) : Core :=
  let v := s.rd PWR_SUPPLY.VIN_F; let level := 10 * s.rd PWR_PF_CFG.PF_LEVEL
  { s with pwr := { s.pwr with
      lowFrom := sinceIf s.pwr.lowFrom s.etime (v < level)
      backFrom := sinceIf s.pwr.backFrom s.etime (level + 50 ≤ v)
      overFrom := sinceIf s.pwr.overFrom s.etime (3250 < v) } }
/-- Advance the counter of free values. -/
def Core.tickFree (s : Core) : Core := { s with free := s.free + 1 }

/-! ### Events (R50, R171, R606, R607) -/

/-- Is it a hardware event (R210 item 6, R227)? The classes 0x01 command, 0x02 tick cores and start-up, 0x0B servo, 0x0C
jobs and 0x0D thermal are firmware's (DESIGN CHOICE, log entry 126). -/
def hwEvent (code : Nat) : Bool := !([0x01, 0x02, 0x0B, 0x0C, 0x0D].contains (code / 256))
/-- Does the event wait in the FIFO for the drain of R210? From the first chirp on, a hardware event does. -/
def Core.held (s : Core) (code : Nat) : Bool := s.tck.running && hwEvent code
/-- The field-side event buffer holds a list of events: the newest 256 of them, each one lost counted (R50). -/
def Core.holdEvents (s : Core) (l : List Compl) : Core :=
  let n := l.length - 256
  let s := if n = 0 then s else s.inc LOG_EVT_OVWR_CNT.COUNT 0 n
  { s with cmdq := { s.cmdq with events := l.drop n } }
/-- An event enters the field-side event buffer and takes its number (R606); a full buffer loses its oldest (R50). -/
def Core.enter (s : Core) (e : Compl) : Core :=
  let s := s.holdEvents (s.cmdq.events ++ [{ e with index := s.cmdq.evSeq % 2 ^ 16 }])
  { s with cmdq := { s.cmdq with evSeq := s.cmdq.evSeq + 1 } }
/-- A hardware event enters its FIFO of 1,024 entries; a full one loses its oldest under R50 (R227). -/
def Core.queue (s : Core) (e : Compl) : Core :=
  let n := s.cmdq.fifo.length - 1023
  let s := if n = 0 then s else s.inc LOG_EVT_OVWR_CNT.COUNT
  { s with cmdq := { s.cmdq with fifo := s.cmdq.fifo.drop n ++ [e] } }
/-- Raise an event: its code, data and tag, and the ETIME at which it occurs (R171, R606). -/
def Core.emit (s : Core) (code : Nat) (data : Nat := 0) (tag : Nat := 0) : Core :=
  let e : Compl := ⟨2, 0, tag, 0, code, 0, s.etime, data % 2 ^ 128⟩
  if s.held code then s.queue e else s.enter e
/-- Item 6: up to 32 hardware events move from the FIFO to the event buffer, oldest first (R210). -/
def Core.drainEvents (s : Core) : Core :=
  (s.cmdq.fifo.take 32).foldl (fun s e => s.enter e) { s with cmdq := { s.cmdq with fifo := s.cmdq.fifo.drop 32 } }

/-- A key for the limited events of R607: code and instance. -/
def limKey (code inst : Nat) : Nat := code * 4096 + inst

/-- A limited event with its own spacing in chirps. -/
def Core.emitEvery (s : Core) (gap code inst : Nat) (data : Nat → Nat) : Core :=
  let k := limKey code inst
  match s.limits.find? (fun e => e.1 == k) with
  | none => { s.emit code (data 0) with limits := (k, s.chirps, 0) :: s.limits }
  | some (_, last, sup) =>
    let rest := s.limits.filter (fun e => e.1 != k)
    if (s.chirps + 2 ^ 32 - last) % 2 ^ 32 ≥ gap then
      { s.emit code (data sup) with limits := (k, s.chirps, 0) :: rest }
    else { s with limits := (k, last, sup + 1) :: rest }

/-- A limited event: at most once per 1,000 chirps for its key, carrying the count suppressed since the last report
(R607). `data` builds the event data from that count. -/
def Core.emitLim (s : Core) (code inst : Nat) (data : Nat → Nat) : Core := s.emitEvery 1000 code inst data

/-- A limited event that carries an amount: `amt` is added to what was not yet reported, and the record carries the sum. -/
def Core.emitSum (s : Core) (code inst amt : Nat) (data : Nat → Nat) : Core :=
  let k := limKey code inst
  match s.limits.find? (fun e => e.1 == k) with
  | none => { s.emit code (data amt) with limits := (k, s.chirps, 0) :: s.limits }
  | some (_, last, sup) =>
    let rest := s.limits.filter (fun e => e.1 != k)
    if (s.chirps + 2 ^ 32 - last) % 2 ^ 32 ≥ 1000 then
      { s.emit code (data (sup + amt)) with limits := (k, s.chirps, 0) :: rest }
    else { s with limits := (k, last, sup + amt) :: rest }

/-! ### Head temperature (R536, R538) -/

/-- The median of a sensor's three most recent readings. -/
def median3 : List Int → Int
  | [a, b, c] => max (min a b) (min (max a b) c)
  | a :: _ => a
  | [] => 0
/-- The decision value of a head: 150.0 °C while its sensor is broken. -/
def Core.headDec (s : Core) (h : Nat) : Int :=
  if s.rdb HDC_TEMP_WARN.BROKEN h then 1500 else median3 (mget [] s.thm.win (0x20 + h))

/-! ### Status codes and details (R180, R182) -/

/-- BAD_PARAM, PARAM_RANGE at entry offset `off`. -/
def badRange (off : Nat) : Reply := .err 0x12 0x0007 off none
/-- BAD_PARAM, ABSENT_TARGET at entry offset `off` (R14). -/
def absent (off : Nat) : Reply := .err 0x12 0x000B off none
/-- BAD_PARAM, POSITION_BITS at entry offset `off` (R21). -/
def badPos (off : Nat) : Reply := .err 0x12 0x000C off none
/-- WRONG_STATE with a detail and no offending field. -/
def wrongState (detail : Nat) : Reply := .err 0x15 detail 0xFFFF none
/-- BUSY with a detail. -/
def busy (detail : Nat) : Reply := .err 0x14 detail 0xFFFF none
/-- RESOURCE, CAPACITY; `free` where the free bytes are stated (R199). -/
def noCapacity (free : Option Nat) : Reply := .err 0x21 0x001C 0xFFFF (free.map (satU 32))

/-- The RESULT bytes of an error (R181). -/
def detailResult (detail off val : Nat) : Nat := detail % 2 ^ 16 + at_ 2 (off % 2 ^ 16) + at_ 4 (val % 2 ^ 32)

/-! ### Completions -/

/-- The status code of a reply. -/
def Reply.status : Reply → Nat
  | .ok _ => 0x00
  | .accepted _ => 0x01
  | .err st _ _ _ => st
  | .data _ _ => 0x00
  | .later => 0x00
  | .wait => 0x00

/-- The RESULT of a reply; an unstated DETAIL_VALUE is a free value. -/
def Reply.result (free : Nat) : Reply → Nat
  | .ok r => r % 2 ^ 128
  | .accepted op => op
  | .err _ d off v => detailResult d off (v.getD (Config.freeDetail free).toNat)
  | .data _ _ => 0
  | .later => 0
  | .wait => 0

/-- The 32 bytes of a completion or event entry with its PHASE (R171). -/
def Compl.image (c : Compl) (phase : Bool) : Bytes :=
  toLE 1 c.kind ++ toLE 1 c.status ++ toLE 2 (c.tag % 1024 + 1024 * (c.q % 4) + if phase then 0x8000 else 0) ++
    toLE 2 c.opcode ++ toLE 2 c.index ++ toLE 8 c.etime ++ toLE 16 c.result
/-- Byte stuffing (R203): 0x7E and 0x7D are each sent as 0x7D and the byte XOR 0x20. -/
def stuff (bs : Bytes) : Bytes := bs.flatMap fun b => if b = 0x7E#8 ∨ b = 0x7D#8 then [0x7D#8, b ^^^ 0x20#8] else [b]
/-- The FSP frame of an entry: a flag, the entry and its CRC-32C stuffed, a flag (R203). -/
def fspFrame (bs : Bytes) : Bytes := 0x7E#8 :: stuff (bs ++ toLE 4 (crc32c bs)) ++ [0x7E#8]
/-- Put a completion where its source reads it: the completion buffer of R50 for the host, the port for FSP, which sends its
frame (R203); PHASE is 0 there, the port having no ring. -/
def Core.putCompl (s : Core) (src : Src) (c : Compl) : Core :=
  match src with
  | .host => { s with cmdq := { s.cmdq with done := s.cmdq.done ++ [c] } }
  | .fsp => { s with cmdq := { s.cmdq with fspTx := s.cmdq.fspTx ++ [c], fspOut := fspFrame (c.image false) } }

/-- Complete a command (R171, R178, R180): count it (R206), raise CMD_PROTOCOL_VIOLATION where R180 says so, and buffer
its one completion entry. CMDQ_DONE_CNT counts a completion as the field side writes it to the buffer of its source, FSP's too;
what the host side answers itself it does not count (DESIGN CHOICE: log entry 136). -/
def Core.complete (s : Core) (src : Src) (opcode tag q index : Nat) (r : Reply) : Core :=
  let st := r.status
  let s := s.inc CMDQ_DONE_CNT.COUNT
  let s := if st ≤ 1 then s else s.inc CMDQ_ERR_CNT.COUNT
  let res := r.result s.free
  let s := if st = 0xFE then (s.inc CMDQ_PROTO_CNT.COUNT).emit 0x0102 (res % 2 ^ 16 + at_ 2 opcode) tag else s
  (s.tickFree).putCompl src ⟨1, st, tag, q, opcode, index, s.etime, res⟩

/-- The reference of a command for its later completion. -/
def refOf (opcode : Nat) (c : Call) : CmdRef := ⟨c.src, opcode, c.tag.toNat, c.q.val, c.index.toNat, c.fence⟩
/-- Note that a command has started and completes later. -/
def Core.openCmd (s : Core) (r : CmdRef) : Core := { s with cmdq := { s.cmdq with open_ := s.cmdq.open_ ++ [r] } }
/-- Complete a command that started earlier. -/
def Core.closeCmd (s : Core) (r : CmdRef) (rep : Reply) : Core :=
  if s.cmdq.open_.contains r then
    ({ s with cmdq := { s.cmdq with open_ := dropFirst (· == r) s.cmdq.open_ } } : Core).complete
      r.src r.opcode r.tag r.q r.index rep
  else s

/-- A write group takes effect: its tag and queue enter the 64-entry commit log (R214). -/
def Core.logGroup (s : Core) (tag q : Nat) : Core :=
  { s with tck := { s.tck with commitLog := (s.tck.commitLog ++ [(tag, q)]).drop (s.tck.commitLog.length - 63) } }
/-- Open a DATA descriptor for a command that waits for its data (R48, R169). -/
def Core.openDesc (s : Core) (r : CmdRef) (len : Nat) (got : Bytes) (i : Option Instr) (region : Option Nat) : Core :=
  let s := s.openCmd r
  { s with ely := { s.ely with
      descs := s.ely.descs ++ [⟨s.ely.descNext, len, got, [], r, i, none, region⟩], descNext := s.ely.descNext + 1 } }
/-- Commands end while their descriptors are open: their bytes are discarded from now on, and each completes with `rep` once its
descriptor closes (R251). -/
def Core.endDescs (s : Core) (rep : Reply) (p : CmdRef → Bool) : Core :=
  { s with ely := { s.ely with
      descs := s.ely.descs.map fun d => if p d.ref then { d with ended := some (d.ended.getD rep) } else d } }

/-- DLEN: the sum of the scatter list's lengths (R168). -/
def dlenOf (c : Call) : Nat := if c.sg then c.bulk.sgl.foldl (fun a e => a + e.len.toNat) 0 else 0
/-- A body that needs its DLEN bytes: it waits while they have not landed, or never will since the host-memory access has failed
(R170), and otherwise goes on with them. -/
def withData {σ : Type} (c : Call) (s : σ) (k : Bytes → Reply × σ) : Reply × σ :=
  if c.bulk.dmaFail.isSome ∨ c.bulk.data.length < dlenOf c then (.wait, s) else k (c.bulk.data.take (dlenOf c))

/-- Start an ACCEPTED operation: its number and the state that remembers it (R178). OP_IDs count up from 1. -/
def Core.newOp (s : Core) (opcode : Nat) (c : Call) : Nat × Core :=
  let id := s.cmdq.opNext % 2 ^ 32
  (id, { s with cmdq := { s.cmdq with
    opNext := s.cmdq.opNext + 1
    async := s.cmdq.async ++ [⟨id, opcode, c.tag.toNat, c.q.val⟩] } })

/-- End an ACCEPTED operation with CMD_ASYNC_DONE: OP_ID, opcode, status and result or detail bytes 0-7 (R178, R207). -/
def Core.asyncDone (s : Core) (opId status res : Nat) : Core :=
  match s.cmdq.async.find? (fun a => a.opId == opId) with
  | none => s
  | some a =>
    let s := s.emit 0x0105 (opId + at_ 4 a.opcode + at_ 6 status + at_ 8 (res % 2 ^ 64)) a.tag
    { s with cmdq := { s.cmdq with async := s.cmdq.async.filter (fun b => b.opId != opId) } }

/-- End an ACCEPTED operation with an error and its detail (R181). -/
def Core.asyncErr (s : Core) (opId status detail : Nat) (val : Nat) : Core :=
  s.asyncDone opId status (detailResult detail 0xFFFF val)

/-! ### Privilege (R193) -/

/-- The privilege of a source. -/
def Core.priv (s : Core) : Src → Nat
  | .host => s.rd CMDQ_PRIV.HOST
  | .fsp => s.rd CMDQ_PRIV.FSP
/-- Set the privilege of a source. -/
def Core.setPriv (s : Core) (src : Src) (l : Nat) : Core :=
  match src with
  | .host => s.wr CMDQ_PRIV.HOST l
  | .fsp => s.wr CMDQ_PRIV.FSP l
/-- The host loses its privilege (R193). -/
def Core.dropHostPriv (s : Core) : Core := s.wr CMDQ_PRIV.HOST 0

/-! ### Field state and elytron -/

/-- SYS_BOOT.STATE (R122). -/
def Core.bootState (s : Core) : Nat := s.rd SYS_BOOT.STATE
/-- READY or SAFE_IDLE: firmware runs the chirp. -/
def Core.fwRuns (s : Core) : Bool := s.bootState == 7 || s.bootState == 8
/-- The elytron is up: at least one lane each way and no retrain in progress. -/
def Core.elyUp (s : Core) : Bool := s.ely.h2f != 0 && s.ely.f2h != 0

/-! ### Memory -/

/-- What a byte of DRAM that nothing has written reads as. -/
def memDefault : Byte := 0#8
/-- Read one byte of DRAM. -/
def Dram.get (m : Dram) (a : Nat) : Byte := mget memDefault m.cells a
/-- Read `n` bytes. -/
def Dram.read (m : Dram) (a n : Nat) : Bytes := (List.range n).map fun i => m.get (a + i)
/-- Write one byte. -/
def Dram.put (m : Dram) (a : Nat) (b : Byte) : Dram := { m with cells := mset memDefault m.cells a b }
/-- Write a byte string, byte by byte. -/
def Dram.puts (m : Dram) (a : Nat) : Bytes → Dram
  | [] => m
  | b :: bs => (m.put a b).puts (a + 1) bs
/-- Words that a write of `n` bytes at `a` reaches are good again (R521). -/
def Dram.heal (m : Dram) (a n : Nat) : Dram :=
  { m with poison := m.poison.filter fun w => ¬ (a < 64 * w + 64 ∧ 64 * w < a + n) }
/-- Write a byte string; a poisoned word that is written becomes good (R521). -/
def Dram.write (m : Dram) (a : Nat) (bs : Bytes) : Dram :=
  (m.puts a bs).heal a bs.length
/-- Does a read of `n` bytes at `a` meet a word that comes back poisoned (R522, R577)? -/
def Dram.bad (m : Dram) (a n : Nat) : Bool := (m.poison ++ m.once).any fun w => a < 64 * w + 64 ∧ 64 * w < a + n
/-- A unit has read: what a failed fabric beat had spoilt was that read's alone. -/
def Dram.spend (m : Dram) : Dram := { m with once := [] }
/-- Give a range back: it reads as never written. -/
def Dram.free (m : Dram) (a n : Nat) : Dram :=
  { m with
    cells := m.cells.filter (fun c => ¬ (a ≤ c.1 ∧ c.1 < a + n))
    poison := m.poison.filter (fun w => ¬ (a ≤ 64 * w ∧ 64 * w < a + n)) }
/-- The canonical form of memory: addresses strictly rising, no entry equal to the default. -/
abbrev Dram.wf (m : Dram) : Prop := mwf (fun _ => memDefault) m.cells

/-- Apply a function to the field side's registers and records. -/
def Field.onCore (f : Field) (g : Core → Core) : Field := { f with core := g f.core }
/-- A command body that touches no memory, as a body over the field side. -/
def liftBody (g : Core → Reply × Core) (f : Field) : Reply × Field :=
  let r := g f.core
  (r.1, { f with core := r.2 })

end Sys2Proof.Machine
end

