-- ==== Sys2Proof/Machine/Flash.lean ====
section
/-! DEFINITION. The field flash: its layout, image slots, boot record, configuration store, and the deferral of writes outside the
write temperature range (spec/03_startup_and_images.md R123 to R125; spec/14_thermal_and_power.md R556, R557). -/

namespace Sys2Proof.Machine

/-- The regions of the field flash in address order, each with its size (R123): boot record, the three image slots of each core,
the configuration store, the persistent log, and what is reserved. -/
inductive FlashRegion where
  | bootRecord | image (core slot : Nat) | config | log | reserved
  deriving DecidableEq, Repr
/-- The layout of R123. Slot 2 is the golden image. -/
def flashLayout : List (FlashRegion × Nat) :=
  [(.bootRecord, 0x100000), (.image 0 2, 0x1000000), (.image 0 0, 0x1000000), (.image 0 1, 0x1000000), (.image 1 2, 0x1000000),
   (.image 1 0, 0x1000000), (.image 1 1, 0x1000000), (.config, 0x2000000), (.log, 0x4000000), (.reserved, 0x3F00000)]
/-- The region at an address, and the offset within it. -/
def flashAt : List (FlashRegion × Nat) → Nat → Option (FlashRegion × Nat)
  | [], _ => none
  | (r, n) :: l, a => if a < n then some (r, a) else flashAt l (a - n)
/-- Change the flash. -/
def Core.setFlash (s : Core) (f : FlashSt) : Core := { s with flash := f }
/-- Are two writes of the same record (R557)? Images are never replaced. -/
def sameRecord : FlashOp → FlashOp → Bool
  | .press _, .press _ => true
  | .ranks _, .ranks _ => true
  | .boot _ _, .boot _ _ => true
  | .page m _, .page n _ => m == n
  | _, _ => false
/-- May an operation start: MS3 whole and between -20.0 and +85.0 °C, and no power fail (R556, R105)? -/
def Core.flashWarm (s : Core) : Bool :=
  let t := sgn 16 (s.rd THMS_READ.TEMP 0x13)
  decide (-200 ≤ t ∧ t ≤ 850) && !s.rdb THMS_READ.BROKEN 0x13
/-- Writes that wait: the queue less the one being written. -/
def Core.flashWaiting (s : Core) : Nat := s.flash.queue.length - b2n s.flash.busy
/-- THM_DEFER.QUEUED follows the queue. -/
def Core.showQueue (s : Core) : Core := s.wr THM_DEFER.QUEUED s.flashWaiting
/-- Start the next write if one waits, nothing runs and it may start; outside the range the writes are held. -/
def Core.flashNext (s : Core) : Core :=
  if s.flash.busy ∨ s.flash.queue = [] ∨ s.rdb PWR_SUPPLY.PF then s.showQueue
  else if s.flashWarm then (s.setFlash { s.flash with busy := true }).showQueue
  else if s.rdb THM_DEFER.FLASH_HOLD then s.showQueue
  else
    ((s.wr THM_DEFER.FLASH_HOLD 1).emit 0x0D09 (at_ 2 (s.rd THMS_READ.TEMP 0x13) + at_ 4 s.flashWaiting)).showQueue
/-- The waiting part of the queue. -/
def FlashSt.waiting (f : FlashSt) : List FlashOp := if f.busy then f.queue.drop 1 else f.queue
/-- Does the queue take this write (R557)? -/
def Core.flashRoom (s : Core) (op : FlashOp) : Bool :=
  s.flash.waiting.any (sameRecord op) || decide (s.flash.waiting.length < 1024)
/-- Queue a write: it replaces a waiting write of the same record (R557). -/
def Core.queueFlash (s : Core) (op : FlashOp) : Core :=
  let f := s.flash
  let run := if f.busy then f.queue.take 1 else []
  let rest := f.waiting
  let rest := if rest.any (sameRecord op) then mapIf (sameRecord op) (fun _ => op) rest else rest ++ [op]
  let s := s.setFlash { f with queue := run ++ rest }
  let s := if s.flashWarm then s else s.inc THM_DEFER_CNT.FLASH
  s.flashNext

/-- The sequence number of a boot-record copy, -1 where it is not valid. -/
def bootSeq (b : Option BootRec) : Int := match b with | some r => if r.ok then r.seq else -1 | none => -1
/-- The valid boot record with the higher sequence number (R124). -/
def FlashSt.bootRec (f : FlashSt) : Option BootRec :=
  if bootSeq f.boot0 < 0 ∧ bootSeq f.boot1 < 0 then none
  else if bootSeq f.boot1 > bootSeq f.boot0 then f.boot1 else f.boot0
/-- The active slot of a core (R124): slot A where no record is valid. -/
def FlashSt.activeSlot (f : FlashSt) (core : Nat) : Nat :=
  match f.bootRec with
  | some r => if core = 0 then r.slotA else r.slotB
  | none => 0
/-- The sequence number of a bank, -1 where it is not valid. -/
def bankSeq (b : Option CfgBank) : Int := match b with | some r => if r.ok then r.seq else -1 | none => -1
/-- Write a boot record into the older copy. -/
def FlashSt.writeBoot (f : FlashSt) (a b : Nat) (ok : Bool) : FlashSt :=
  let n := (max (max (bootSeq f.boot0) (bootSeq f.boot1)) 0).toNat + 1
  if bootSeq f.boot1 < bootSeq f.boot0 then { f with boot1 := some ⟨n, a, b, ok⟩ } else { f with boot0 := some ⟨n, a, b, ok⟩ }
/-- The calibration backups of a bank. -/
def calibOf (b : Option CfgBank) : Bytes := match b with | some r => r.calib | none => []
/-- Write the press description into the older bank. -/
def FlashSt.writePress (f : FlashSt) (d : Bytes) (ok : Bool) : FlashSt :=
  let n := (max (max (bankSeq f.bank0) (bankSeq f.bank1)) 0).toNat + 1
  if bankSeq f.bank1 < bankSeq f.bank0 then { f with bank1 := some ⟨n, d, ok, calibOf f.bank1⟩ } else { f with bank0 := some ⟨n, d, ok, calibOf f.bank0⟩ }
/-- The effect of a finished write; `ok` is false for one cut short by a loss of power. -/
def FlashSt.commit (f : FlashSt) (op : FlashOp) (ok : Bool) : FlashSt :=
  match op with
  | .image core slot _ d => { f with images := mput (3 * core + slot) (some (if ok then d else [])) f.images }
  | .press d => f.writePress d ok
  | .ranks l => if ok then { f with retired := l } else f
  | .boot a b => f.writeBoot a b ok
  | .page n d => { f with log := mput n (some (if ok then d else [])) f.log }
/-- The bytes of an image slot (R123): blank slots read 0xFF; a golden slot holds what the factory wrote. -/
def FlashSt.image (f : FlashSt) (core slot : Nat) : Option Bytes :=
  match mget none f.images (3 * core + slot) with
  | some d => some d
  | none => if slot = 2 then some (Config.golden (if core = 0 then 0 else 1)) else none
/-- The byte of the flash at an address where its contents are laid out: an image (R123); `none` in the records, whose encoding the
spec does not give, and in the reserved parts. -/
def FlashSt.byte (f : FlashSt) (a : Nat) : Option Byte :=
  match flashAt flashLayout a with
  | some (.image core slot, o) => some (((f.image core slot).getD []).getD o 0xFF#8)
  | _ => none
/-- Queue a page of the persistent log: with the queue full it is not persisted, and LOG_FULL counts it (R557). -/
def Core.queuePage (s : Core) (n : Nat) (d : Bytes) : Core :=
  if s.flashRoom (.page n d) then s.queueFlash (.page n d) else s.inc THM_DEFER_CNT.LOG_FULL
/-- FLASH_OPERATION_DONE: the write of a configuration-store or boot record ends, and the next may start. The end of an
image write is FW_STAGE_WRITE_DONE. -/
def doFlashOperationDone (s : Core) : Core :=
  match s.flash.busy, s.flash.queue with
  | true, .image _ _ _ _ :: _ => s
  | true, op :: rest => (s.setFlash { s.flash.commit op true with queue := rest, busy := false }).flashNext
  | _, _ => s

end Sys2Proof.Machine
end

