-- ==== Sys2Proof/Machine/Integrity.lean ====
section
/-! DEFINITION. On-die parity, clock crossings and fault injection
(spec/16_integrity_crossings_faults.md R579 to R599). -/

namespace Sys2Proof.Machine

/-! ### On-die parity (R579) -/

/-- The parity counter of a store code. -/
def parityFld (code : Nat) : Fld :=
  if code = 1 then LOG_PAR_0.STAGE else if code = 2 then LOG_PAR_0.ISP else if code = 3 then LOG_PAR_0.CORE
  else if code = 4 then LOG_PAR_0.CKPT else if code = 5 then LOG_PAR_1.HIST else if code = 6 then LOG_PAR_1.POOL
  else if code = 7 then LOG_PAR_1.LEVEL else LOG_PAR_1.DISP
/-- Count and report a parity failure of an on-die store; `loc` is the word. -/
def Core.sramParity (s : Core) (code loc : Nat) : Core :=
  (s.inc (parityFld code)).emit 0x0F04 (code + at_ 4 loc)

/-! ### Clock crossings (R582 to R588) -/

/-- The identity of a crossing (R582). -/
def cdcId (requester receiver inst : Nat) : Nat := receiver + 16 * requester + 256 * inst
/-- Is the crossing TIMED_OUT? -/
def Core.timedOut (s : Core) (id : Nat) : Bool := s.cdc.out.contains id
/-- Note a crossing event in CDC_LAST (R598). -/
def Core.cdcNote (s : Core) (id kind : Nat) : Core :=
  (s.wrs [(CDC_LAST.ID, id), (CDC_LAST.KIND, kind)]).wr2 CDC_LAST_ETIME_LO.ETIME CDC_LAST_ETIME_HI.ETIME s.etime
/-- Put the TIMED_OUT crossings in force. -/
def Core.setOut (s : Core) (l : List Nat) : Core :=
  ({ s with cdc := { s.cdc with out := l } } : Core).wrs [(CDC_STATUS.TIMED_OUT, satU 8 l.length)]
/-- When the time-out of a crossing's request falls: TIMEOUT_US after it was raised, and now where the machine holds none. -/
def Core.timeoutAt (s : Core) (id : Nat) : Nat :=
  match mget none s.cdc.req id with
  | some (_, t) => t + 1000 * s.rd CDC_CFG.TIMEOUT_US
  | none => s.etime
/-- CDC_TIMEOUT: a request on a crossing goes unacknowledged (R586). One already TIMED_OUT fails at once and nothing
more happens. -/
def doCdcTimeout (id : Nat) (s : Core) : Core :=
  if s.timedOut id ∨ id ≥ 8192 then s
  else
    let s := s.reach (s.timeoutAt id)
    (((s.setOut (s.cdc.out ++ [id])).inc CDC_TO_CNT.COUNT).cdcNote id 1).emit 0x0F01 id
/-- The period of a clock domain in ps, by its code (R59, R582): domains of a stated bound at their highest frequency, FCK with
its division (R545). -/
def Core.domainPs (s : Core) (d : Nat) : Nat :=
  let l := s.rd THM_STATUS.LEVEL
  [4000, 4000, 2560, 2560, if l = 4 then 4000 else if l = 3 then 2000 else 1000, 1667, 1250, 313, 2560, 10240, 5000, 1778, 5334,
    40000].getD d 0
/-- The ETIME at which the requester of a crossing sees the acknowledge of a request raised at `t`: the round trip lies between
2 (Ts + Tr) and 4 (Ts + Tr) (R583), and where it lies is a free value. -/
def Core.ackAt (s : Core) (id t : Nat) : Nat :=
  let p := s.domainPs (id / 16 % 16) + s.domainPs (id % 16)
  let lo := ceilDiv (2 * p) 1000
  t + lo + Config.freeTrip t % (4 * p / 1000 - lo + 1)
/-- Set the request outstanding on a pulse crossing and the pulses held behind it. -/
def Core.setReq (s : Core) (id : Nat) (r : Option (Nat × Nat)) (held : Nat) : Core :=
  { s with cdc := { s.cdc with req := mset none s.cdc.req id r, held := mset 0 s.cdc.held id held } }
/-- What has been acknowledged on a pulse crossing by now: the pulses the receiving half has added, an acknowledge of this very
cycle among them (R588). The pulses held leave as the next request (R583, R584). -/
def Core.cdcSettle (s : Core) (id : Nat) : Nat × Core :=
  match mget none s.cdc.req id with
  | none => (0, s)
  | some (n, t) =>
    let t' := s.ackAt id t
    let held := mget 0 s.cdc.held id
    if s.timedOut id ∨ s.etime < t' then (0, s)
    else if held = 0 then (n, s.setReq id none 0)
    else if s.etime < s.ackAt id t' then (n, s.setReq id (some (held, t')) 0)
    else (n + held, s.setReq id none 0)
/-- A pulse is raised on a crossing: it leaves as a request, or while one is outstanding or the crossing is TIMED_OUT it
accumulates in a count of 8 bits; a pulse lost to saturation is counted and reported (R584, R586). -/
def Core.cdcPulse (s : Core) (id : Nat) : Core :=
  let s := (s.cdcSettle id).2
  let n := mget 0 s.cdc.held id
  let req := mget none s.cdc.req id
  if !s.timedOut id ∧ req.isNone then s.setReq id (some (1, s.etime)) n
  else if n ≥ 255 then ((s.inc CDC_SAT_CNT.COUNT).cdcNote id 3).emit 0x0F03 id
  else s.setReq id req (n + 1)
/-- One crossing is reset in its pair: an acknowledge of this cycle still counts, and a request that stays outstanding, one
raised in this cycle among them, completes with CDC_ABORT, its count and the held pulses counted (R587, R588). -/
def Core.cdcAbort (s : Core) (id : Nat) : Core :=
  let s := (s.cdcSettle id).2
  let n := mget 0 s.cdc.held id + ((mget none s.cdc.req id).map (·.1)).getD 0
  if n = 0 ∧ !s.timedOut id then s
  else
    let s := (((s.inc CDC_ABORT_CNT.COUNT).inc CDC_ABORT_PULSES.COUNT 0 n).cdcNote id 2).setReq id none 0
    s.emitLim 0x0F02 0 fun sup => id + at_ 2 (satU 8 n) + at_ 4 sup
/-- A paired reset of the crossings that satisfy `p` (R587, R588). -/
def Core.cdcReset (s : Core) (p : Nat → Bool) : Core :=
  let hit := ((s.cdc.out ++ s.cdc.req.map (·.1)).eraseDups).filter p
  let s := hit.foldl Core.cdcAbort s
  if s.cdc.out.any p then s.setOut (s.cdc.out.filter fun id => !p id) else s
/-- Does a crossing touch a domain of an instance? -/
def crossesDomain (dom inst id : Nat) : Bool := (id % 16 == dom || id / 16 % 16 == dom) && id / 256 == inst

/-! ### Fault injection (R590 to R594) -/

/-- The armed rules. -/
def Core.fijArmed (s : Core) : List Nat := maskBits 8 (s.rd FIJ_STATUS.ARMED)
/-- Disarm one rule. -/
def Core.fijDisarm (s : Core) (r cause : Nat) : Core :=
  let s := s.wr FIJ_STATUS.ARMED (setBit (s.rd FIJ_STATUS.ARMED) r false)
  s.emit 0x0F08 (r + at_ 1 cause + at_ 4 (s.rd FIJ_HITS.COUNT r))
/-- Disarm every rule: one event for all of them; none where no rule is armed (R594). -/
def Core.fijDisarmAll (s : Core) (cause : Nat) : Core :=
  if s.rd FIJ_STATUS.ARMED = 0 then s
  else
    let acts := s.fijArmed.foldl (fun a r => a + s.rd FIJ_HITS.COUNT r) 0
    (s.wr FIJ_STATUS.ARMED 0).emit 0x0F08 (0xFF + at_ 1 cause + at_ 4 (satU 32 acts))
/-- A job enters PRINTING: every rule disarms unless LIVE_OK is 1 (R594). -/
def Core.fijOnPrint (s : Core) : Core := if s.rdb FIJ_CFG.LIVE_OK then s else s.fijDisarmAll 3
/-- Does rule `r` cover a unit of target and instance? -/
def Core.fijCovers (s : Core) (r target inst : Nat) : Bool :=
  s.rd FIJ_RULE.TARGET r == target && (s.rd FIJ_RULE.INSTANCE r == inst || (target == 5 && s.rd FIJ_RULE.INSTANCE r == 0xFF))
/-- An eligible unit passes: every armed rule that covers it counts it, and the lowest-numbered rule whose RATE it fills
acts, giving its action and argument. DEDUCED: log entry 16. -/
def Core.fijUnit (s : Core) (target inst : Nat) : Option (Nat × Nat) × Core :=
  s.fijArmed.foldl (fun (acc : Option (Nat × Nat) × Core) r =>
    let s := acc.2
    if !s.fijCovers r target inst then acc
    else
      let n := mget 0 s.fij.seen r + 1
      let s := { s with fij := { s.fij with seen := mset 0 s.fij.seen r n } }
      if acc.1.isSome ∨ n % max 1 (s.rd FIJ_RATE.RATE r) ≠ 0 then (acc.1, s)
      else
        let s := (s.inc FIJ_HITS.COUNT r).inc FIJ_HITS_TOTAL.COUNT
        let left := s.rd FIJ_LEFT.LEFT r
        let s := if left = 0 then s
          else if left = 1 then (s.wr FIJ_LEFT.LEFT 0 r).fijDisarm r 1
          else s.wr FIJ_LEFT.LEFT (left - 1) r
        (some (s.rd FIJ_RULE.ACTION r, s.rd FIJ_RULE.ARG r), s)) (none, s)
/-- Hold a unit. -/
def Core.fijHold (s : Core) (u : HeldUnit) : Core := { s with fij := { s.fij with held := s.fij.held ++ [u] } }

/-- FIJ_SET (R591). Its own checks come in the order of that rule. -/
def fijSet (target inst action rate count : Nat) (s : Core) : Reply × Core :=
  let instOk : Bool := if target ≤ 2 then inst == 0 else if target ≤ 4 then decide (inst < 24) else decide (inst ≤ 3) || inst == 0xFF
  let printing := s.jobs.jobs.any fun j => j.state == 4 || j.state == 5
  if printing ∧ !s.rdb FIJ_CFG.LIVE_OK then (wrongState 0x0014, s)
  else if target = 0 ∨ target > 5 then (badRange 0x10, s)
  else if !instOk then (badRange 0x11, s)
  else if action = 0 ∨ action > 4 then (badRange 0x12, s)
  else if rate = 0 then (badRange 0x14, s)
  else if action = 4 ∧ s.rd FIJ_ARG.ARG = 0 then (badRange 0xFFFF, s)
  else
    match (List.range 8).find? fun r => !(s.rd FIJ_STATUS.ARMED).testBit r with
    | none => (noCapacity none, s)
    | some r =>
      let s := s.wrs [(FIJ_RULE.TARGET, target), (FIJ_RULE.ACTION, action), (FIJ_RULE.INSTANCE, inst),
        (FIJ_RULE.ARG, s.rd FIJ_ARG.ARG), (FIJ_RATE.RATE, rate), (FIJ_LEFT.LEFT, count), (FIJ_HITS.COUNT, 0)] r
      let s := s.wr FIJ_STATUS.ARMED (setBit (s.rd FIJ_STATUS.ARMED) r true)
      let s := { s with fij := { s.fij with seen := mset 0 s.fij.seen r 0 } }
      (.ok r, s.emit 0x0F07 (r + at_ 1 target + at_ 2 inst + at_ 3 action))
/-- FIJ_CLEAR (R594). -/
def fijClear (s : Core) : Reply × Core := (.ok 0, s.fijDisarmAll 2)

end Sys2Proof.Machine
end

