-- ==== Sys2Proof/Machine/Banks.lean ====
section
/-! DEFINITION. The address map of the DRAM, its banks, page counters and activate counting
(spec/13_memory_subsystem.md R513, R515 to R519). -/

namespace Sys2Proof.Machine

/-! ### The address map (R513) -/

/-- Channels in the interleave. -/
def Core.ways (s : Core) : Nat := s.mem.layout.length
/-- Channel and channel page of an engine page of 4 KiB. -/
def Core.pageAt (s : Core) (pg : Nat) : Nat × Nat :=
  (s.mem.layout.getD (pg % s.ways) 0, pg / s.ways)
/-- The engine page of a channel page. -/
def Core.pageOf (s : Core) (ch cp : Nat) : Nat := cp * s.ways + s.mem.layout.idxOf ch
/-- Rank slot of a channel page. -/
def slotOfPage (cp : Nat) : Nat := cp / 2 ^ 21
/-- Bank of a channel page. -/
def bankOfPage (cp : Nat) : Nat := cp % 32
/-- Row of a channel page. -/
def rowOfPage (cp : Nat) : Nat := cp / 32 % 65536
/-- Does the engine address space hold this 64-byte word? -/
def Core.wordExists (s : Core) (w : Nat) : Bool := decide (w < 2 ^ 28 * s.ways)
/-- The rank that serves a slot of a channel. -/
def Core.rankAt (s : Core) (ch slot : Nat) : Nat :=
  if slot = 0 then s.rd MEMC_STATUS.SLOT0 ch else s.rd MEMC_STATUS.SLOT1 ch

/-! ### Banks (R517, R519) -/

/-- The key of a bank. -/
def bankKey (ch rank bank : Nat) : Nat := 96 * ch + 32 * rank + bank
/-- A bank of a rank. -/
def Core.bank (s : Core) (ch rank bank : Nat) : Bank := mget Bank.reset s.mem.banks (bankKey ch rank bank)
/-- Set it. -/
def Core.setBank (s : Core) (ch rank bank : Nat) (x : Bank) : Core :=
  { s with mem := { s.mem with banks := mset Bank.reset s.mem.banks (bankKey ch rank bank) x } }
/-- The entry with the lowest count, the first of several. -/
def lowestEntry : List (Nat × Nat) → Nat × Nat
  | [] => (0, 0)
  | e :: es => es.foldl (fun m x => if x.2 < m.2 then x else m) e
/-- Count one activate of a row: the table and the row's new count. -/
def countRow (t : List (Nat × Nat)) (r : Nat) : List (Nat × Nat) × Nat :=
  match t.find? (·.1 == r) with
  | some e => (mapIf (·.1 == r) (fun e => (e.1, e.2 + 1)) t, e.2 + 1)
  | none =>
    if t.length < 16 then (t ++ [(r, 1)], 1)
    else
      let low := lowestEntry t
      (dropFirst (· == low) t ++ [(r, low.2 + 1)], low.2 + 1)
/-- The rows a full count refreshes. -/
def neighbours (pm2 : Bool) (r : Nat) : List Nat :=
  let d := fun (k : Nat) => (if k ≤ r then [r - k] else []) ++ (if r + k ≤ 65535 then [r + k] else [])
  d 1 ++ if pm2 then d 2 else []
/-- Activate rows in turn; `(true, r)` sets the count of row `r` to 0. A row whose count reaches the threshold has its neighbours
activated before anything else, and then its count set to 0. The table, and how many neighbours were refreshed. -/
def activateRows (pm2 : Bool) (thresh : Nat) : Nat → List (Bool × Nat) → List (Nat × Nat) → Nat → List (Nat × Nat) × Nat
  | 0, _, t, n => (t, n)
  | _ + 1, [], t, n => (t, n)
  | fuel + 1, (true, r) :: rs, t, n => activateRows pm2 thresh fuel rs (mapIf (·.1 == r) (fun e => (e.1, 0)) t) n
  | fuel + 1, (false, r) :: rs, t, n =>
    let (t, c) := countRow t r
    if c ≥ thresh ∧ !rs.contains (true, r) then
      let nb := neighbours pm2 r
      activateRows pm2 thresh fuel (nb.map (fun x => (false, x)) ++ (true, r) :: rs) t (n + nb.length)
    else activateRows pm2 thresh fuel rs t n
/-- tREFI of a rank in ns: halved while a device of it reports above 85 °C (R518). -/
def Core.tRefi (s : Core) (ch rank : Nat) : Nat :=
  if (List.range 5).any fun d => mget 0 s.mem.mr4 (15 * ch + 5 * rank + d) > 85 then 1950 else 3900
/-- A bank as it stands: never more than four of its refreshes are postponed, and a refresh closes its row, as does 1 µs without a
request (R517, R518). -/
def Core.bankNow (s : Core) (ch rank bank : Nat) : Bank :=
  let b := s.bank ch rank bank
  let owed := (s.etime - b.refAt) / s.tRefi ch rank
  let b := if owed > 4 then { b with row := none, refAt := b.refAt + (owed - 4) * s.tRefi ch rank } else b
  if s.etime ≥ b.used + 1000 then { b with row := none } else b
/-- A request reaches row `row` of a bank (R517). `more`: another request to the row waits, so that the row stays open. -/
def Core.bankAccess (s : Core) (ch rank bank row : Nat) (more : Bool) : Core :=
  let b := s.bankNow ch rank bank
  let page := if b.last = some row then min 3 (b.page + 1) else b.page - 1
  let (t, k) := if b.row = some row then (b.counts, 0)
    else activateRows (s.rdb MEM_CFG.RH_PM2) (s.rd MEM_RH_CFG.THRESH) 1024 [(false, row)] b.counts 0
  let s := s.setBank ch rank bank { b with
    row := if page < 2 && !more then none else some row, last := some row, page := page, counts := t, used := s.etime }
  if k = 0 then s else s.inc MEMC_RH_CNT.COUNT ch k
/-- Every WINDOW_MS all row counts are set to 0 (R519). -/
def Core.rowWindow (s : Core) : Core :=
  let w := 1000000 * s.rd MEM_RH_CFG.WINDOW_MS
  if s.etime < s.mem.windowAt + w then s
  else
    { s with mem := { s.mem with
        windowAt := s.etime - (s.etime - s.mem.windowAt) % w
        banks := s.mem.banks.map fun e => (e.1, { e.2 with counts := e.2.counts.map fun c => (c.1, 0) }) } }

/-! ### Queues (R515, R516) -/

/-- Two requests to one bank. -/
def DramReq.sameBank (a b : DramReq) : Bool := a.rank == b.rank && a.bank == b.bank
/-- Two requests to one row of one bank. -/
def DramReq.sameRow (a b : DramReq) : Bool := a.sameBank b && a.row == b.row
/-- A read that has waited more than 2 µs. -/
def DramReq.aged (now : Nat) (r : DramReq) : Bool := !r.write && decide (now > r.etime + 2000)
/-- Is the bank of a request in in-order mode: does a read wait that came after a write to its row (R516)? -/
def inOrder (pend : List DramReq) (q : DramReq) : Bool :=
  (List.range pend.length).any fun i =>
    match pend[i]? with
    | some r => !r.write && r.sameBank q && (pend.take i).any fun w => w.write && w.sameRow r
    | none => false
/-- May a request be served before the `earlier` ones? In in-order mode none passes another of its bank; a write never passes an
earlier read of its word (R516). -/
def mayPass (pend earlier : List DramReq) (q : DramReq) : Bool :=
  if inOrder pend q then !earlier.any (·.sameBank q)
  else !(q.write && earlier.any fun r => !r.write && r.sameRow q && r.col == q.col)
/-- The requests of a channel that may be served, in arrival order. A bank is taken as ready for every command (log entry 104). -/
def servable (pend : List DramReq) : List DramReq :=
  (List.range pend.length).filterMap fun i =>
    match pend[i]? with
    | some q => if mayPass pend (pend.take i) q then some q else none
    | none => none
/-- The request that is served: an aged read, else a row hit, else the oldest; of the kind whose turn it is, if one waits. -/
def chooseReq (now : Nat) (hit : DramReq → Bool) (writes : Bool) (ok : List DramReq) : Option DramReq :=
  let turn := ok.filter (·.write == writes)
  let l := if turn = [] then ok else turn
  (l.find? (·.aged now)) <|> (l.find? hit) <|> l.head?
/-- Whose turn it is: writes from 48 of them, or from no read, on, until 16 are left or a read has aged (R515). -/
def ChanQ.turn (q : ChanQ) (now : Nat) : Bool :=
  let w := (q.pend.filter (·.write)).length
  (if q.writes then decide (w > 16) else decide (w ≥ 48)) && !q.pend.any (·.aged now) || q.pend.all (·.write)
/-- Requests of one class enter their queues while these have room; the rest is held. -/
def enterQueue (pend : List DramReq) : List DramReq → List DramReq × List DramReq
  | [] => (pend, [])
  | r :: rest =>
    if (pend.filter (·.write == r.write)).length < 64 then enterQueue (pend ++ [r]) rest else (pend, r :: rest)
/-- The fabric forwards what it holds, class by class (R57). -/
def ChanQ.fill (q : ChanQ) : ChanQ :=
  let (pend, held) := q.held.foldl (fun (pend, held) (e : Nat × List DramReq) =>
    let (pend, rest) := enterQueue pend e.2
    (pend, if rest = [] then held else held ++ [(e.1, rest)])) (q.pend, [])
  { q with pend := pend, held := held }
/-- Serve one request of a channel. -/
def Core.serveOne (s : Core) (ch : Nat) (q : ChanQ) : Core × ChanQ :=
  let q := q.fill
  let q := { q with writes := q.turn s.etime }
  match chooseReq s.etime (fun r => (s.bankNow ch r.rank r.bank).row == some r.row) q.writes (servable q.pend) with
  | none => (s, q)
  | some r =>
    let pend := q.pend.erase r
    let s := s.bankAccess ch r.rank r.bank r.row (pend.any (·.sameRow r))
    ({ s with mem := { s.mem with words := mset 0 s.mem.words ch (mget 0 s.mem.words ch + 1) } }, { q with pend := pend })
/-- Serve requests of a channel until none waits. -/
def Core.serve (ch : Nat) : Nat → Core → ChanQ → Core × ChanQ
  | 0, s, q => (s, q)
  | n + 1, s, q => let (s, q) := s.serveOne ch q; Core.serve ch n s q
/-- The migration that runs on a channel: its source and its target (R527). -/
def Core.migOn (s : Core) (ch : Nat) : Option (Nat × Nat) := (s.mem.cur.filter (·.1.ch == ch)).map fun m => (m.1.rank, m.2)
/-- Serve what waits on a channel, unless it retrains (R530). -/
def Core.drain (s : Core) (ch : Nat) (q : ChanQ) : Core :=
  let (s, q) := if s.rd MEMC_STATUS.STATE ch = 3 then (s, q.fill) else
    let (s, q) := Core.serve ch (q.pend.length + (q.held.map (·.2.length)).sum) s q
    (s, if q.pend = [] then { q with writes := false } else q)
  { s with mem := { s.mem with queues := mset ChanQ.empty s.mem.queues ch q } }
/-- Is a request a write to the source's row at the migration cursor, which is held until the row is copied (R527)? -/
def Core.atCursor (s : Core) (ch : Nat) (r : DramReq) : Bool :=
  r.write && (s.migOn ch).any (·.1 == r.rank) && 32 * r.row + r.bank == s.rd MEM_MIG_CURSOR.ROW
/-- Requests reach a channel, which serves them before the next command, unless it retrains. An offline channel takes none. -/
def Core.request (s : Core) (ch : Nat) (rs : List DramReq) : Core :=
  let s := s.rowWindow
  let (hold, rs) := rs.partition (s.atCursor ch)
  let s := { s with mem := { s.mem with cursorHeld := s.mem.cursorHeld ++ hold } }
  if rs = [] ∨ s.rd MEMC_STATUS.STATE ch = 4 then s
  else
    let q := mget ChanQ.empty s.mem.queues ch
    let held := [0, 1, 2, 3].map fun c => (c, mget [] q.held c ++ rs.filter (·.cls == c))
    s.drain ch { q with held := held.filter (·.2 != []) }
/-- The ranks that a request to a channel page goes to: below the cursor of a migration of its slot, reads go to the target and
writes to both (R527). -/
def Core.ranksOf (s : Core) (write : Bool) (ch cp : Nat) : List Nat :=
  let r := s.rankAt ch (slotOfPage cp)
  match s.migOn ch with
  | some (src, tgt) => if src = r ∧ cp % 2 ^ 21 < s.rd MEM_MIG_CURSOR.ROW then (if write then [src, tgt] else [tgt]) else [r]
  | none => [r]
/-- The rank that a read of a word is served from. -/
def Core.readRank (s : Core) (w : Nat) : Nat :=
  let (ch, cp) := s.pageAt (w / 64)
  (s.ranksOf false ch cp).headD 0
/-- The requests for `n` words from word `col` of a channel page on. -/
def Core.pageReqs (s : Core) (write : Bool) (cls ch cp col n : Nat) : List DramReq :=
  (s.ranksOf write ch cp).flatMap fun r => (List.range n).map fun i =>
    ⟨write, cls, r, bankOfPage cp, rowOfPage cp, col + i, s.etime⟩
/-- The requests that an access of the bytes `[a, a + n)` makes, by channel: one for each word, in ascending order. -/
def Core.reqs (s : Core) (write : Bool) (cls a n : Nat) : List (Nat × List DramReq) :=
  if n = 0 ∨ s.ways = 0 then []
  else
    (List.range ((a + n - 1) / 4096 - a / 4096 + 1)).map fun i =>
      let g := a / 4096 + i
      let lo := max a (4096 * g); let hi := min (a + n) (4096 * (g + 1))
      let (ch, cp) := s.pageAt g
      (ch, s.pageReqs write cls ch cp (lo / 64 % 64) ((hi - 1) / 64 - lo / 64 + 1))
/-- Requests that reach the DRAM together. -/
def Core.requests (s : Core) (rs : List (Nat × List DramReq)) : Core :=
  (List.range 4).foldl (fun s ch => s.request ch ((rs.filter (·.1 == ch)).flatMap (·.2))) s
/-- A requester of class `cls` reads the bytes `[a, a + n)`. -/
def Core.fetches (s : Core) (cls a n : Nat) : Core := s.requests (s.reqs false cls a n)
/-- A requester of class `cls` writes them. -/
def Core.stores (s : Core) (cls a n : Nat) : Core := s.requests (s.reqs true cls a n)
/-- The channels that hold the bytes `[a, a + n)`. -/
def Core.channelsOf (s : Core) (a n : Nat) : List Nat :=
  if n = 0 ∨ s.ways = 0 then []
  else ((List.range (min s.ways ((a + n - 1) / 4096 - a / 4096 + 1))).map fun i => (s.pageAt (a / 4096 + i)).1)
/-- Does an access of the bytes `[a, a + n)` wait, since a channel that holds some of them retrains (R530)? -/
def Core.stalls (s : Core) (a n : Nat) : Bool := (s.channelsOf a n).any fun ch => s.rd MEMC_STATUS.STATE ch == 3
/-- Does a read of `n` bytes at `a` meet a word that comes back poisoned: one so marked, one that a fabric beat spoilt, or one of an
offline channel (R522, R531, R577)? -/
def Core.bad (s : Core) (m : Dram) (a n : Nat) : Bool :=
  m.bad a n || (s.channelsOf a n).any fun ch => s.rd MEMC_STATUS.STATE ch == 4
/-- A read that finds the poison pattern (R521). -/
def Core.poisonRead (s : Core) (ch word : Nat) : Core :=
  (s.inc MEM_POISON_CNT.READS).emitLim 0x0403 ch fun n => ch + at_ 4 n + at_ 8 word
/-- The marked words among the bytes `[a, a + n)`. -/
def Dram.marked (m : Dram) (a n : Nat) : List Nat := m.poison.filter fun w => a < 64 * w + 64 ∧ 64 * w < a + n
/-- A read of the bytes `[a, a + n)` finds the poison pattern in the words that are marked (R521). -/
def Core.meets (s : Core) (m : Dram) (a n : Nat) : Core :=
  (m.marked a n).foldl (fun s w =>
    let ch := (s.pageAt (w / 64)).1
    if s.rd MEMC_STATUS.STATE ch = 4 then s else s.poisonRead ch w) s
/-- A unit of class `cls` reads the bytes `[a, a + n)`. -/
def Core.reads (s : Core) (m : Dram) (cls a n : Nat) : Core := (s.fetches cls a n).meets m a n
/-- Close the open row of a bank. -/
def Core.closeRow (s : Core) (ch rank bank : Nat) : Core := s.setBank ch rank bank { s.bankNow ch rank bank with row := none }
/-- DRAM_REFRESH: the bank's next same-bank refresh, which closes its row: when it is due, or at once where it was postponed
(R517, R518). -/
def doDramRefresh (ch rank bank : Nat) (s : Core) : Core :=
  let t := s.tRefi ch rank
  let s := s.reach ((s.bank ch rank bank).refAt + t)
  let b := s.bankNow ch rank bank
  s.setBank ch rank bank { b with row := none, refAt := b.refAt + t }
/-- ROW_IDLE_CLOSE: an open row is closed once 1 µs has gone by without a request to its bank (R517). -/
def doRowIdleClose (ch rank bank : Nat) (s : Core) : Core :=
  let b := s.bank ch rank bank
  if b.row.isNone then s else (s.reach (b.used + 1000)).closeRow ch rank bank
/-- ROW_HAMMER_WINDOW: the window ends, and every row counter is set to 0 (R519). -/
def doRowHammerWindow (s : Core) : Core :=
  (s.reach (s.mem.windowAt + 1000000 * s.rd MEM_RH_CFG.WINDOW_MS)).rowWindow

end Sys2Proof.Machine
end

