-- ==== Sys2Proof/Machine/Press.lean ====
section
/-! DEFINITION. The press description, head geometry, tone curves, nozzle-state entries and the twin table
(spec/07_nozzle_path_and_screening.md, R296 to R322). -/

namespace Sys2Proof.Machine

/-! ### Who is present (R14) -/

/-- The bar of a segment; 0xFF when the link is unused (R296). -/
def Core.segBar (s : Core) (link : Nat) : Nat := mget 0xFF s.press.segBar link
/-- The nozzle count the description gives a head; 0 when it is absent. -/
def Core.nozzles (s : Core) (h : Nat) : Nat := mget 0 s.press.nozzles h
/-- Does the description in force include the head? -/
def Core.headPresent (s : Core) (h : Nat) : Bool := s.nozzles h != 0
/-- Does the description in force include the bar? -/
def Core.barPresent (s : Core) (b : Nat) : Bool := (s.rd GEO_PRESS.BAR_MASK).testBit b
/-- The bar of a head. -/
def Core.barOf (s : Core) (h : Nat) : Nat := s.segBar (h / 8)
/-- The links that serve a bar, ascending. -/
def Core.linksOf (s : Core) (b : Nat) : List Nat := (List.range 24).filter fun l => s.segBar l == b
/-- The present heads of a link, ascending. -/
def Core.headsOn (s : Core) (l : Nat) : List Nat := ((List.range 8).map (8 * l + ·)).filter s.headPresent
/-- The present heads of a bar, ascending. -/
def Core.headsOfBar (s : Core) (b : Nat) : List Nat := (s.linksOf b).flatMap s.headsOn
/-- All present heads. -/
def Core.allHeads (s : Core) : List Nat := (List.range 192).filter s.headPresent
/-- The present bars. -/
def Core.bars (s : Core) : List Nat := (List.range 8).filter s.barPresent
/-- Lines per inch of LPI (R296). -/
def lpiOf (c : Nat) : Nat := if c = 0 then 600 else if c = 1 then 1200 else 2400
/-- The addressability in force. -/
def Core.lpi (s : Core) : Nat := lpiOf (s.rd GEO_PRESS.LPI)
/-- The highest drop level of a bar (R322). -/
def Core.lmax (s : Core) (b : Nat) : Nat := 2 ^ s.rd GEO_CFG.DROP_BITS b - 1
/-- The identity state of a head (R153). -/
def Core.headState (s : Core) (h : Nat) : Nat := s.rd HDC_ID_STATUS.STATE h
/-- Attached (R153). -/
def Core.attached (s : Core) (h : Nat) : Bool := s.headState h == 3

/-! ### Nozzle-state entries (R312) -/

/-- The key of entry k of bar b (R13). -/
def nozKey (b k : Nat) : Nat := 131072 * b + k
/-- The neutral entry. -/
def nozNeutral : Nat := 0x00000FF000000400
/-- Read an entry. -/
def Core.noz (s : Core) (b k : Nat) : Nat := mget nozNeutral s.press.nsm (nozKey b k)
/-- Write an entry whole. -/
def Core.setNoz (s : Core) (key v : Nat) : Core :=
  { s with press := { s.press with nsm := mset nozNeutral s.press.nsm key (v % 2 ^ 64)
                                   nsmBad := s.press.nsmBad.filter (· != key) } }
/-- GAIN. -/
def nozGain (e : Nat) : Nat := bits e 11 0
/-- OFFSET, signed. -/
def nozOff (e : Nat) : Int := sgn 8 (bits e 19 12)
/-- ERR, signed. -/
def nozErr (e : Nat) : Int := sgn 16 (bits e 35 20)
/-- SHARE. -/
def nozShare (e : Nat) : Nat := bits e 43 36
/-- MASKED. -/
def nozMasked (e : Nat) : Bool := bit e 46
/-- DEAD, outranked by MASKED. -/
def nozDead (e : Nat) : Bool := bit e 44 && !bit e 46
/-- WEAK, outranked by DEAD and MASKED. -/
def nozWeak (e : Nat) : Bool := bit e 45 && !bit e 44 && !bit e 46
/-- Never fires: DEAD or MASKED. -/
def nozOffline (e : Nat) : Bool := bit e 44 || bit e 46
/-- TWIN counts only with DEAD (R312). -/
def nozTwin (e : Nat) : Bool := nozDead e && bit e 47
/-- TARGET, signed. -/
def nozTarget (e : Nat) : Int := sgn 8 (bits e 55 48)
/-- An entry with ERR replaced. -/
def nozWithErr (e : Nat) (err : Int) : Nat := e % 2 ^ 20 + twos 16 err * 2 ^ 20 + e / 2 ^ 36 * 2 ^ 36
/-- An entry with GAIN replaced. -/
def nozWithGain (e g : Nat) : Nat := e / 2 ^ 12 * 2 ^ 12 + g % 2 ^ 12
/-- A write of an entry keeps the hardware's ERR, but an entry newly made DEAD or MASKED takes ERR 0 (R313). -/
def nozApply (old new : Nat) : Nat :=
  let e := nozWithErr new (nozErr old)
  if nozOffline new && !nozOffline old then nozWithErr e 0 else e

/-! ### Tone curves (R309, R310) -/

/-- The neutral curve (R311). -/
def toneNeutral (i : Nat) : Nat := (4095 * i + 127) / 255
/-- The key of entry i of a head's bank: 0 active, 1 shadow. -/
def toneKey (h bank i : Nat) : Nat := (2 * h + bank) * 256 + i
/-- Read a curve entry. -/
def Core.tone (s : Core) (h bank i : Nat) : Nat := mget (toneNeutral i) s.press.tone (toneKey h bank i)
/-- Write a curve entry. -/
def Core.setTone (s : Core) (h bank i v : Nat) : Core :=
  { s with press := { s.press with tone := mset (toneNeutral i) s.press.tone (toneKey h bank i) (v % 4096) } }
/-- A whole curve. -/
def Core.curve (s : Core) (h bank : Nat) : List Nat := (List.range 256).map (s.tone h bank)
/-- Set a whole curve. -/
def Core.setCurve (s : Core) (h bank : Nat) (c : List Nat) : Core :=
  (List.range 256).foldl (fun s i => s.setTone h bank i (c.getD i 0)) s
/-- Commit a head's shadow: the banks change places, GEN counts, bad entries are forgotten, and a waiting COPY follows
(R310, R333). -/
def Core.toneCommit (s : Core) (h : Nat) : Core :=
  let act := s.curve h 0; let sh := s.curve h 1
  let s := (s.setCurve h 0 sh).setCurve h 1 act
  let s := (s.incW HDC_TONE_GEN.GEN h).wr HDC_TONE_CTL.PENDING 0 h
  let s := { s with press := { s.press with toneBad := s.press.toneBad.filter (· / 256 != h)
                                            toneSaid := s.press.toneSaid.filter (· != h) } }
  if s.press.copyAfter.contains h then
    { (s.setCurve h 1 sh) with press := { (s.setCurve h 1 sh).press with
        copyAfter := s.press.copyAfter.filter (· != h) } }
  else s

/-! ### Columns (R302, R306) -/

/-- Nozzle n of head h sits at this column (R11). -/
def Core.colOfNozzle (s : Core) (h n : Nat) : Nat :=
  if s.rd HDC_GEO_BASE.DIR h = 0 then s.rd HDC_GEO_BASE.BASE h + n
  else s.rd HDC_GEO_BASE.BASE h + s.nozzles h - 1 - n
/-- The heads of a link that use column k, in slot order, each with its nozzle number. -/
def Core.headsAt (s : Core) (l k : Nat) : List (Nat × Nat) :=
  (s.headsOn l).filterMap fun h =>
    let base := s.rd HDC_GEO_BASE.BASE h; let n := s.nozzles h
    if base ≤ k ∧ k < base + n then
      some (h, if s.rd HDC_GEO_BASE.DIR h = 0 then k - base else base + n - 1 - k)
    else none
/-- The least and greatest column any head of the link could use. -/
def Core.kRange (s : Core) (l : Nat) : Nat × Nat :=
  (s.headsOn l).foldl (fun r h =>
    let b := s.rd HDC_GEO_BASE.BASE h
    (min r.1 b, max r.2 (b + s.nozzles h))) (131072, 0)
/-- A column of a segment: its index, head A with its nozzle, and head B of a stitch pair. -/
structure Col where
  k : Nat
  hA : Nat
  nA : Nat
  hB : Option (Nat × Nat)
  deriving DecidableEq, Repr
/-- The columns of a segment, ascending. -/
def Core.columns (s : Core) (l : Nat) : List Col :=
  let (lo, hi) := s.kRange l
  (List.range (hi - lo)).filterMap fun i =>
    match s.headsAt l (lo + i) with
    | [] => none
    | (h, n) :: rest => some ⟨lo + i, h, n, rest.head?⟩
/-- Does a segment of the bar have column k? -/
def Core.isColumn (s : Core) (b k : Nat) : Bool := (s.linksOf b).any fun l => !(s.headsAt l k).isEmpty
/-- The raster position of nozzle n of a head, signed 18.16 pixels (R306). -/
def rasterX (off : Nat) (step : Int) (n : Nat) : Int := 4 * (off : Int) + n * step
/-- The raster position of a column, from head A (R302). -/
def Core.colX (s : Core) (c : Col) : Int :=
  rasterX (s.rd HDC_GEO_OFFSET.OFFSET c.hA) (s.rds HDC_GEO_STEP.STEP c.hA) c.nA
/-- The geometry of a head as a span sees it: base, nozzles, DIR, OFFSET, STEP. -/
structure HeadGeo where
  base : Nat
  n : Nat
  dir : Nat
  off : Nat
  step : Int
  deriving DecidableEq, Repr
/-- Does the head use column k? -/
def HeadGeo.uses (g : HeadGeo) (k : Nat) : Bool := decide (g.base ≤ k ∧ k < g.base + g.n)
/-- The raster positions among which lie the extremes of a head's own columns: those that no head of `lower` uses, since a pair
takes its position from the head in the lower slot (R302). They lie at an end of the head's run or beside a lower head's. -/
def HeadGeo.ends (lower : List HeadGeo) (g : HeadGeo) : List Int :=
  let ks := g.base :: (g.base + g.n - 1) :: lower.flatMap fun x => [x.base - 1, x.base + x.n]
  (ks.filter fun k => g.uses k && !lower.any (·.uses k)).map fun k =>
    rasterX g.off g.step (if g.dir = 0 then k - g.base else g.base + g.n - 1 - k)
/-- The same over the heads of a segment in slot order. -/
def segEnds : List HeadGeo → List HeadGeo → List Int
  | _, [] => []
  | lower, g :: gs => g.ends lower ++ segEnds (lower ++ [g]) gs
/-- The tiles of a span from the extreme raster positions of its columns (R303). -/
def spanTiles (xs : List Int) : Int × Int :=
  match xs with
  | [] => (0, -1)
  | x :: rest =>
    let lo := rest.foldl min x; let hi := rest.foldl max x
    (lo / 65536 / 4, (hi / 65536 + 1) / 4)

/-! ### Twin substitutions (R320, R321) -/

/-- The twin bar of a bar, if any. -/
def Core.twinOf (s : Core) (b : Nat) : Option Nat :=
  let t := s.rd GEO_CFG.TWIN b
  if t < 8 then some t else none
/-- One dead column with TWIN: source bar and column, twin bar, receiver column. -/
structure Sub where
  b : Nat
  k : Nat
  tb : Nat
  r : Int
  deriving DecidableEq, Repr
/-- Every dead column with TWIN of a present bar, in ranking order; an entry at an index that no head uses takes no part
(R314). -/
def Core.twinCands (s : Core) : List Sub :=
  s.press.nsm.filterMap fun e =>
    let b := e.1 / 131072; let k := e.1 % 131072
    if nozTwin e.2 && s.barPresent b && s.isColumn b k then
      (s.twinOf b).map fun tb => ⟨b, k, tb, (k : Int) + s.rds GEO_TWIN_DELTA.DELTA b + nozTarget e.2⟩
    else none
/-- May a substitution be active beside those ranked ahead of it? -/
def Core.subOk (s : Core) (ahead : List Sub) (u : Sub) : Bool :=
  decide (0 ≤ u.r ∧ u.r ≤ 131071) && s.isColumn u.tb u.r.toNat && !nozOffline (s.noz u.tb u.r.toNat) &&
    !(ahead.any fun v => v.tb == u.tb && v.r == u.r) && (ahead.filter fun v => v.tb == u.tb).length < 256
/-- The active substitutions, in ranking order. -/
def Core.activeSubs (s : Core) : List Sub :=
  s.twinCands.foldl (fun acc u => if s.subOk acc u then acc ++ [u] else acc) []
/-- Rebuild the receive tables (R320): the receiver counts, and DP_TWIN_FALLBACK for each substitution found inactive for
the first time (R321). -/
def Core.rebuildTwins (s : Core) : Core :=
  let act := s.activeSubs
  let inactive := s.twinCands.filter fun u => !act.contains u
  let s := (List.range 8).foldl (fun s b => s.wr GEO_TWIN_RX.COUNT (act.filter fun u => u.tb == b).length b) s
  let fresh := inactive.filter fun u => !s.press.fallbackSaid.contains (nozKey u.b u.k)
  let s := fresh.foldl (fun s u => (s.inc SCR_TWIN_FALLBACK_CNT.COUNT u.b).emit 0x0602 (u.b + at_ 4 u.k)) s
  { s with press := { s.press with fallbackSaid := inactive.map fun u => nozKey u.b u.k } }
/-- Apply entry writes in order, then rebuild the tables where a TWIN, DEAD or MASKED flag, or a TARGET, changed: a commit that
leaves a substitution inactive reports it (R321). -/
def Core.applyEntries (s : Core) (es : List (Nat × Nat)) : Core :=
  let flags (e : Nat) := bits e 55 44
  let changed := es.any fun e => flags e.2 != flags (mget nozNeutral s.press.nsm e.1)
  let s := es.foldl (fun s e => s.setNoz e.1 (nozApply (mget nozNeutral s.press.nsm e.1) e.2)) s
  if changed then s.rebuildTwins else s

/-! ### The press description (R296 to R301) -/

/-- A signed field of `w` bits at a byte offset. -/
def sAt (d : Bytes) (off n : Nat) : Int := sgn (8 * n) (leAt d off n)
/-- The offset of bar record b. -/
def barRec (b : Nat) : Nat := 0x20 + 0x20 * b
/-- The offset of head record h. -/
def headRec (h : Nat) : Nat := 0x140 + 0x20 * h
/-- The CRC of a description over the bytes R296 names. -/
def pressCrc (d : Bytes) : Nat := crc32c (d.take 0x1C ++ d.drop 0x20)
/-- The offset of the first byte of `[off, off + n)` that is not 0. -/
def firstNonZero (d : Bytes) (off n : Nat) : Option Nat :=
  ((List.range n).find? fun i => byteAt d (off + i) != 0).map (off + ·)
/-- The present bars of a description. -/
def dBars (d : Bytes) : List Nat := maskBits 8 (byteAt d 7)
/-- The present heads of a description. -/
def dHeads (d : Bytes) : List Nat := (List.range 192).filter fun h => byteAt d (headRec h) != 0
/-- The segments of a bar of a description. -/
def dSegs (d : Bytes) (b : Nat) : List Nat := (List.range 24).filter fun m => byteAt d (0x120 + m) == b
/-- The first of a list of range checks to fail: offset and whether it holds. -/
def firstBad (l : List (Nat × Bool)) : Option Nat := (l.find? fun p => !p.2).map (·.1)
/-- Check 4 of R299: every field of a present record within its range. -/
def pressRanges (d : Bytes) : Option Nat :=
  let bar (b : Nat) : List (Nat × Bool) := let o := barRec b
    [(o, 1 ≤ byteAt d o && byteAt d o ≤ 3),
     (o + 2, byteAt d (o + 2) ≤ 7 || byteAt d (o + 2) == 0xFF),
     (o + 3, byteAt d (o + 3) ≤ 1),
     (o + 4, decide (-131071 ≤ sAt d (o + 4) 4 ∧ sAt d (o + 4) 4 ≤ 131071)),
     (o + 8, leAt d (o + 8) 8 < 2 ^ 38)]
  let head (h : Nat) : List (Nat × Bool) := let o := headRec h
    [(o, byteAt d o ≤ 1), (o + 1, byteAt d (o + 1) ≤ 1), (o + 2, byteAt d (o + 2) ≤ 63),
     (o + 4, 1 ≤ leAt d (o + 4) 2 && leAt d (o + 4) 2 ≤ 8192),
     (o + 0x10, 0x4000 ≤ (sAt d (o + 0x10) 4).natAbs && (sAt d (o + 0x10) 4).natAbs ≤ 0x20000)]
  firstBad ([(6, decide (byteAt d 6 ≤ 2))] ++ (dBars d).flatMap bar ++
    ((List.range 24).map fun m => (0x120 + m, decide (byteAt d (0x120 + m) ≤ 7) || byteAt d (0x120 + m) == 0xFF)) ++
    (dHeads d).flatMap head)
/-- Check 5 of R299: bars, segments and heads fit together. -/
def pressShape (d : Bytes) : Option Nat :=
  let bars := dBars d
  let bar (b : Nat) : List (Nat × Bool) :=
    let segs := dSegs d b
    let tw := byteAt d (barRec b + 2)
    [(barRec b, segs.length ≥ 1), (0x120 + segs.getD 3 0, segs.length ≤ 3),
     (barRec b, tw == 0xFF || (tw != b && bars.contains tw && byteAt d (barRec tw + 1) == byteAt d (barRec b + 1)))]
  firstBad (bars.flatMap bar ++
    ((List.range 24).map fun m => (0x120 + m, byteAt d (0x120 + m) == 0xFF || bars.contains (byteAt d (0x120 + m)))) ++
    (dHeads d).map fun h => ((headRec h, byteAt d (0x120 + h / 8) != 0xFF) : Nat × Bool))
/-- The bar, base and count of a described head. -/
def dHeadSpan (d : Bytes) (h : Nat) : Nat × Nat × Nat :=
  (byteAt d (0x120 + h / 8), leAt d (headRec h + 8) 4, leAt d (headRec h + 4) 2)
/-- Check 7 of R299: the first bar and index used too often or across segments. -/
def pressDup (d : Bytes) : Option (Nat × Nat) :=
  let hs := dHeads d
  let users (b k : Nat) := hs.filter fun h =>
    let (hb, base, n) := dHeadSpan d h
    hb == b && base ≤ k && k < base + n
  let bad (b k : Nat) : Bool :=
    let u := users b k
    u.length > 2 || (match u with | [x, y] => x / 8 != y / 8 | _ => false)
  -- a duplicate can only begin at some head's base
  (hs.filterMap fun h =>
    let (b, base, _) := dHeadSpan d h
    if bad b base then some (b, base) else none).foldl
      (fun best e => match best with
        | none => some e
        | some m => if e.1 < m.1 || (e.1 == m.1 && e.2 < m.2) then some e else some m) none
/-- How many tiles a segment's heads span (R303). -/
def spanCount (gs : List HeadGeo) : Nat :=
  let (a, b) := spanTiles (segEnds [] gs)
  (b - a + 1).toNat
/-- The span of a described segment, in tiles (R303). -/
def dSpan (d : Bytes) (m : Nat) : Nat :=
  spanCount (((dHeads d).filter fun h => h / 8 == m).map fun h =>
    let o := headRec h
    ⟨leAt d (o + 8) 4, leAt d (o + 4) 2, byteAt d (o + 1), leAt d (o + 0xC) 4, sAt d (o + 0x10) 4⟩)
/-- The checks 2 to 8 of R299 on a landed description: the reply of the first that fails. -/
def pressCheck (d : Bytes) : Option Reply :=
  if leAt d 0 4 ≠ 0x53445250 then some (.err 0x12 0x0007 0xFFFF (some 0))
  else if leAt d 4 2 ≠ 1 then some (.err 0x12 0x0007 0xFFFF (some 4))
  else if leAt d 0x1C 4 ≠ pressCrc d then some (.err 0x12 0x0007 0xFFFF (some 0x1C))
  else
    let res := [(0x008, 20), (0x138, 8)] ++ (dBars d).map (fun b => (barRec b + 0x14, 12)) ++
      (dHeads d).flatMap fun h => [(headRec h + 3, 1), (headRec h + 6, 2), (headRec h + 0x14, 12)]
    match res.findSome? (fun p => firstNonZero d p.1 p.2) with
    | some o => some (.err 0x12 0x0008 0xFFFF (some o))
    | none =>
      match pressRanges d with
      | some o => some (.err 0x12 0x0007 0xFFFF (some o))
      | none =>
        match pressShape d with
        | some o => some (.err 0x12 0x0007 0xFFFF (some o))
        | none =>
          match (dHeads d).find? (fun h => let (_, b, n) := dHeadSpan d h; b + n - 1 > 131071) with
          | some h => some (.err 0x12 0x000D 0xFFFF (some (dHeadSpan d h).1))
          | none =>
            match pressDup d with
            | some (b, k) => some (.err 0x12 0x000E 0xFFFF (some (b + 256 * k)))
            | none =>
              match (List.range 24).find? (fun m => dSpan d m > 16384) with
              | some m => some (.err 0x12 0x0007 0xFFFF
                  (some (headRec (((dHeads d).find? fun h => h / 8 == m).getD 0))))
              | none => none

/-- The default level table of a bar: V[l] and TH[l] (R322). -/
def lvlDefault (lm l : Nat) : Nat × Nat :=
  let v (l : Nat) := if l = 0 then 0 else (4095 * l + lm / 2) / lm
  (v l, (v (l - 1) + v l + 1) / 2)
/-- SPG_b_ALT at PRESS_LOAD: min(l_max, 2 l) (R397). -/
def altDefault (lm : Nat) : Nat := (List.range 7).foldl (fun a i => a + min lm (2 * (i + 1)) * 2 ^ (3 * i)) 0
/-- Clear the error accumulator of every listed entry (R326). -/
def Core.clearErr (s : Core) (p : Nat → Bool) : Core :=
  (s.press.nsm.filter fun e => p e.1 && nozErr e.2 != 0).foldl (fun s e => s.setNoz e.1 (nozWithErr e.2 0)) s

/-- The register fields that belong to one bar, but for SCR_b_LVL. -/
def barFields : List Fld :=
  (fieldsGEO ++ fieldsSCR ++ fieldsSPG ++ fieldsCSV ++ fieldsJOB).filter fun f => f.cnt == 8
/-- The registers of an absent bar hold their reset values (R14); SPG_b_FIRE follows with `Core.refreshBars`. -/
def Core.dropBar (s : Core) (b : Nat) : Core :=
  (List.range 7).foldl (fun s i => s.clr [SCR_LVL.VALUE, SCR_LVL.THRESH] (7 * b + i))
    (s.clr (barFields.filter fun f => f.base != SPGB_FIRE.CAUSE.base) b)

/-- Put a description in force: registers, segments, head geometry and the counts of R334, without the corrections. -/
def Core.pressGeometry (s : Core) (d : Bytes) : Core :=
  let s := { s with press := { s.press with
    desc := d
    segBar := (List.range 24).foldl (fun m l => mset 0xFF m l (byteAt d (0x120 + l))) []
    nozzles := (dHeads d).foldl (fun m h => mset 0 m h (leAt d (headRec h + 4) 2)) []
    datum := (dBars d).foldl (fun m b => mset 0 m b (leAt d (barRec b + 0x10) 4)) [] } }
  let s := s.wrs [(GEO_PRESS.LOADED, 1), (GEO_PRESS.LPI, byteAt d 6), (GEO_PRESS.BAR_MASK, byteAt d 7),
    (GEO_PRESS_CRC.CRC, leAt d 0x1C 4)]
  let s := (List.range 192).foldl (fun s h =>
    let o := headRec h
    if byteAt d o = 0 then
      s.clr [HDC_GEO_BASE.BASE, HDC_GEO_BASE.DIR, HDC_GEO_OFFSET.OFFSET, HDC_GEO_STEP.STEP, HDC_GEO_SKEW.SKEW] h
    else
      s.wrs [(HDC_GEO_BASE.BASE, leAt d (o + 8) 4), (HDC_GEO_BASE.DIR, byteAt d (o + 1)),
        (HDC_GEO_OFFSET.OFFSET, leAt d (o + 0xC) 4), (HDC_GEO_STEP.STEP, leAt d (o + 0x10) 4),
        (HDC_GEO_SKEW.SKEW, byteAt d (o + 2))] h) s
  let cols (b : Nat) := (s.linksOf b).flatMap s.columns
  (List.range 8).foldl (fun s b =>
    let o := barRec b
    if (byteAt d 7).testBit b then
      let cs := cols b
      s.wrs [(GEO_CFG.DROP_BITS, byteAt d o), (GEO_CFG.INTERP, byteAt d (o + 3)), (GEO_CFG.COLORANT, byteAt d (o + 1)),
        (GEO_CFG.TWIN, byteAt d (o + 2)), (GEO_TWIN_DELTA.DELTA, leAt d (o + 4) 4), (GEO_COLUMNS.COUNT, cs.length),
        (GEO_PAIRS.COUNT, (cs.filter fun c => c.hB.isSome).length),
        (SPGB_DELAY_LO.DELAY, leAt d (o + 8) 4), (SPGB_DELAY_HI.DELAY, leAt d (o + 12) 4)] b
    else s.dropBar b) s

/-- The level tables and alternate maps of the present bars take their defaults (R300 step 3, R322, R397). -/
def Core.levelDefaults (s : Core) : Core :=
  s.bars.foldl (fun s b =>
    let lm := s.lmax b
    let s := s.wr SPGB_ALT.MAP (altDefault lm) b
    (List.range lm).foldl (fun s i =>
      let (v, th) := lvlDefault lm (i + 1)
      (s.wr SCR_LVL.VALUE v (7 * b + i)).wr SCR_LVL.THRESH th (7 * b + i)) s) s

/-- The head serial and nozzle number behind entry k of bar b, where one head or head A uses it (R301). -/
def Core.ownerOf (s : Core) (b k : Nat) : Option (Nat × Nat × Nat) :=
  (s.linksOf b).findSome? fun l => (s.headsAt l k).head?.map fun p =>
    (s.rd HDC_SERIAL_LO.SERIAL p.1, s.rd HDC_SERIAL_HI.SERIAL p.1, p.2)

/-- After an accepted description: entries that no longer map to the same head serial and nozzle become neutral (R301).
`old` is the state before. The heads whose entries must be loaded from GAIN again are those that differ. -/
def Core.keepCorrections (s old : Core) : Core :=
  let keep := s.press.nsm.filter fun e =>
    let b := e.1 / 131072; let k := e.1 % 131072
    !s.barPresent b || (old.ownerOf b k == s.ownerOf b k && (s.ownerOf b k).isSome)
  { s with press := { s.press with nsm := keep } }

/-- The span of a head's segment after a change of its OFFSET and STEP, in tiles (R303). -/
def Core.spanWith (s : Core) (h off : Nat) (step : Int) : Nat :=
  spanCount ((s.headsOn (h / 8)).map fun g =>
    ⟨s.rd HDC_GEO_BASE.BASE g, s.nozzles g, s.rd HDC_GEO_BASE.DIR g,
      if g = h then off else s.rd HDC_GEO_OFFSET.OFFSET g, if g = h then step else s.rds HDC_GEO_STEP.STEP g⟩)

/-- Replace bytes of a description from an offset. -/
def patch (d : Bytes) (off : Nat) (bs : Bytes) : Bytes := d.take off ++ bs ++ d.drop (off + bs.length)

/-- The effect of an accepted GEO_SET: one write group on the registers, the description and its CRC (R307). The flash
update is queued by the caller. -/
def Core.geoCommit (s : Core) (h off step skew : Nat) : Core :=
  let s := s.wrs [(HDC_GEO_OFFSET.OFFSET, off), (HDC_GEO_STEP.STEP, step), (HDC_GEO_SKEW.SKEW, skew)] h
  let o := headRec h
  let d := patch (patch (patch s.press.desc (o + 0xC) (toLE 4 off)) (o + 0x10) (toLE 4 step)) (o + 2) (toLE 1 skew)
  let d := patch d 0x1C (toLE 4 (pressCrc d))
  ({ s with press := { s.press with desc := d } } : Core).wr GEO_PRESS_CRC.CRC (pressCrc d)

/-! ### The mask (R327) -/

/-- A mask byte. -/
def Core.maskByte (s : Core) (i : Nat) : Nat := mget (Config.romMask i).toNat s.press.mask i
/-- Write a mask byte. -/
def Core.setMaskByte (s : Core) (i v : Nat) : Core :=
  { s with press := { s.press with mask := mset (Config.romMask i).toNat s.press.mask i (v % 256)
                                   maskBad := s.press.maskBad.filter (· != i) } }

end Sys2Proof.Machine
end

