-- ==== Sys2Proof/Machine/Fire.lean ====
section
/-! DEFINITION. Job records and states, firing causes, defect ranges and the closing of lines
(spec/12_jobs_and_changeover.md R496, R507; spec/09_firing_and_speed_governor.md R391, R399 to R402). -/

namespace Sys2Proof.Machine

/-! ### Positions (R16, R17) -/

/-- A position modulo 2^32 lines, in 1/64 line. -/
def posMod (x : Int) : Nat := twos 38 x
/-- How far `a` is ahead of `b`, signed, in 1/64 line (R17). -/
def posDiff (a b : Nat) : Int := sgn 38 (posMod ((a : Int) - b))
/-- The whole line of a position. -/
def posLine (p : Nat) : Nat := p / 64
/-- How far web line index `a` is ahead of `b`, signed (R17). -/
def lineDiff (a b : Nat) : Int := sgn 32 (twos 32 ((a : Int) - b))
/-- A web line index moved by `n`. -/
def lineAdd (w : Nat) (n : Int) : Nat := twos 32 ((w : Int) + n)
/-- DELAY of a bar (R297). -/
def Core.delay (s : Core) (b : Nat) : Nat := s.rd2 SPGB_DELAY_LO.DELAY SPGB_DELAY_HI.DELAY b
/-- The web count, 48.16 (R359). -/
def Core.webCount (s : Core) : Nat := s.rd2 POS_WEB_COUNT_LO.COUNT POS_WEB_COUNT_HI.COUNT
/-- Lines per PC0 count, 16.32 (R383). -/
def Core.lpc (s : Core) : Nat := s.rd2 SPG_LPC_LO.LPC SPG_LPC_HI.LPC
/-- m of R384: web count times LPC plus the slew offset, in 2^-32 line. -/
def mOf (web lpc : Nat) (o : Int) : Int := sgn 64 web * lpc / 65536 + o
/-- The same as a position: φ truncated to 1/64 line (R383, R370). -/
def phiOf (web lpc : Nat) (o : Int) : Nat := posMod (sar (mOf web lpc o) 26)
/-- The web line position φ, in 1/64 line (R383). -/
def Core.phi (s : Core) : Nat := phiOf s.webCount s.lpc s.spg.o

/-! ### Job records (R496, R497) -/

/-- The record of a job. -/
def Core.job? (s : Core) (id : Nat) : Option Job := s.jobs.jobs.find? (·.id == id)
/-- Live: neither DONE nor ABORTED (R491). -/
def Job.live (j : Job) : Bool := j.state ≤ 5
/-- The record of a live job. -/
def Core.liveJob? (s : Core) (id : Nat) : Option Job := (s.job? id).filter (·.live)
/-- Change the record of a job. -/
def Core.modJob (s : Core) (id : Nat) (g : Job → Job) : Core :=
  { s with jobs := { s.jobs with jobs := mapIf (·.id == id) g s.jobs.jobs } }
/-- Is some job in one of these states? -/
def Core.anyJob (s : Core) (states : List Nat) : Bool := s.jobs.jobs.any fun j => states.contains j.state
/-- PRINTING or DRAINING somewhere. -/
def Core.printing (s : Core) : Bool := s.anyJob [4, 5]
/-- ARMED, PRINTING or DRAINING somewhere. -/
def Core.armedOrPrinting (s : Core) : Bool := s.anyJob [3, 4, 5]
/-- The bar of a job. -/
def Job.bar? (j : Job) (b : Nat) : Option JobBar := (j.bars.find? (·.1 == b)).map (·.2)
/-- Change the bar of a job. -/
def Job.modBar (j : Job) (b : Nat) (g : JobBar → JobBar) : Job :=
  { j with bars := j.bars.map fun e => if e.1 == b then (e.1, g e.2) else e }
/-- The chain of a bar (R502). -/
def Core.chain (s : Core) (b : Nat) : Chain := mget [] s.jobs.chains b
/-- Set the chain of a bar. -/
def Core.setChain (s : Core) (b : Nat) (c : Chain) : Core :=
  { s with jobs := { s.jobs with chains := mset [] s.jobs.chains b c } }

/-- Give back regions of job memory. -/
def Core.freeRegions (s : Core) (bases : List Nat) : Core :=
  { s with jobs := { s.jobs with regions := s.jobs.regions.filter fun r => !bases.contains r.1 } }
/-- The regions a job holds: planes and ring (R495). -/
def Job.regions (j : Job) : List Nat :=
  (j.bars.map fun b => b.2.base) ++ (match j.ring with | some r => [r.base, r.hist] | none => [])

/-- Tiles of a band (R247). -/
def tilesOf (width : Nat) : Nat := ceilDiv width 4
/-- Decoded bytes of a band (R261). -/
def bandBytes (width : Nat) : Nat := 16 * tilesOf width
/-- The fetch line of a bar as a plane line of a job: the bands every link of the bar has fetched (R257). -/
def Core.fetchLine (s : Core) (j : Job) (b : Nat) : Nat :=
  match j.bar? b with
  | none => 0
  | some jb =>
    match (s.linksOf b).map fun l => mget 0 jb.fetched l with
    | [] => 0
    | n :: rest => 4 * rest.foldl min n
/-- Plane lines of a bar that a job's ring has decoded: those that the block in progress has written too (R257). -/
def Job.decoded (j : Job) (b : Nat) : Nat :=
  match (j.bar? b).bind (·.stream), j.ring with
  | some st, some r =>
    let n := if r.busy && byteAt r.bytes 1 == b then max st.total (st.total / 16 * 16 + r.wrote) else st.total
    n / bandBytes st.width * 4
  | _, _ => 0
/-- SKD_AHEAD_b.LINES: decoded plane lines ahead of the bar's fetch line (R257), of the first job that streams the bar in the order
of R272 (DESIGN CHOICE: log entry 169). -/
def Core.refreshAhead (s : Core) (b : Nat) : Core :=
  let on (st : Nat) : List Job := s.jobs.jobs.filter fun j => j.state == st && j.ring.isSome && ((j.bar? b).bind (·.stream)).isSome
  s.wr SKD_AHEAD.LINES (match (on 4 ++ on 5 ++ on 3).head? with
    | some j => satU 24 (j.decoded b - s.fetchLine j b)
    | none => 0) b
/-- Space of a ring that is neither unread nor promised to an append (R255). -/
def Ring.free (r : Ring) : Nat := r.size - r.bytes.length - (r.segs.map (·.2.1)).sum
/-- The ring of an ended job is gone: appends on their way end (R251, R255), RING_DEAD clears unless another ring is dead, a block
of it in progress ends, and its bars have nothing of it ahead (R293). -/
def Core.endRing (s : Core) (j : Job) : Core :=
  match j.ring with
  | none => s
  | some r =>
    let s := s.endDescs (wrongState 0x0014) fun c => r.segs.any (·.1 == c)
    let s := s.wr SKD_STATUS.RING_DEAD (b2n (s.jobs.jobs.any fun j => j.ring.any (·.dead)))
    let s := if r.busy then (s.wr SKD_STATUS.BUSY 0).wr SKD_AHEAD.STALL 0 (byteAt r.bytes 1) else s
    (maskBits 8 r.barMask).foldl (fun s b => s.refreshAhead b) s
/-- The firing record of a head. -/
def Core.hf (s : Core) (h : Nat) : HeadFire := mget HeadFire.none s.spg.heads h
/-- Change it; HDC_n_FIRE.PENDING follows. -/
def Core.setHf (s : Core) (h : Nat) (x : HeadFire) : Core :=
  ({ s with spg := { s.spg with heads := mset HeadFire.none s.spg.heads h x } } : Core).wr
    HDC_FIRE.PENDING (satU 5 x.issued.length) h
/-- The firing record of a bar. -/
def Core.bf (s : Core) (b : Nat) : BarFire := mget BarFire.none s.spg.bars b
/-- Change it. -/
def Core.setBf (s : Core) (b : Nat) (x : BarFire) : Core :=
  { s with spg := { s.spg with bars := mset BarFire.none s.spg.bars b x } }

/-- The record of a link. -/
def Core.ln (s : Core) (l : Nat) : LinkSt := mget LinkSt.reset s.hlk.links l
/-- Change it. -/
def Core.setLn (s : Core) (l : Nat) (x : LinkSt) : Core :=
  { s with hlk := { s.hlk with links := mset LinkSt.reset s.hlk.links l x } }
/-- The record of a head. -/
def Core.hr (s : Core) (h : Nat) : HeadRec := mget HeadRec.reset s.hlk.heads h
/-- Change it. -/
def Core.setHr (s : Core) (h : Nat) (x : HeadRec) : Core :=
  { s with hlk := { s.hlk with heads := mset HeadRec.reset s.hlk.heads h x } }
/-- The state of a link (R446). -/
def Core.linkState (s : Core) (l : Nat) : Nat := s.rd HLK_STATUS.STATE l
/-- Is the link UP? -/
def Core.linkUp (s : Core) (l : Nat) : Bool := s.linkState l == 4
/-- Queue a token. -/
def Core.queueToken (s : Core) (l : Nat) (t : Tok) : Core :=
  let x := s.ln l
  s.setLn l { x with tokens := x.tokens ++ [t] }
/-- Staged lines of an ended job are never issued: a frame already sent is discarded at the head end (R418, R437). -/
def Core.dropStaged (s : Core) (id : Nat) : Core :=
  (s.allHeads.filter fun h => (s.hf h).staged.any (·.job == id)).foldl (fun s h =>
    let gone := (s.hf h).staged.filter (·.job == id)
    let s := s.setHf h { s.hf h with staged := (s.hf h).staged.filter (·.job != id) }
    (gone.filterMap StagedLine.seq).foldl (fun s q =>
      if s.linkUp (h / 8) then s.queueToken (h / 8) ⟨h % 8, q, false, 0, 0, none⟩ else s) s) s
/-- A state move of a job (R496): JOB_STATE_CHANGED; on DONE or ABORTED its memory is freed and the order of ending
noted (R495, R497), its decode state ends, its places in the chains of the bars are idle from now on (R502), and a job boundary is
due where no job prints on (R231). -/
def Core.setJobState (s : Core) (id st : Nat) : Core :=
  match s.job? id with
  | none => s
  | some j =>
    if j.state = st then s
    else
      let s := (s.modJob id fun j => { j with state := st }).emit 0x0C01 (id + at_ 4 j.state + at_ 5 st)
      if st < 6 then s
      else
        let s := s.freeRegions j.regions
        let s := s.modJob id fun j => { j with ring := none, endSeq := s.jobs.ended + 1 }
        let s := { s with jobs := { s.jobs with
          ended := s.jobs.ended + 1
          chains := s.jobs.chains.map fun (c : Nat × Chain) => (c.1, c.2.map fun (e : Nat × Nat) => if e.2 = id then (e.1, 0) else e) } }
        let s := (s.endRing j).dropStaged id
        if s.printing then s else { s with tck := { s.tck with boundary := true } }

/-- A job's rings open for decoding, SKD_STATUS.RING_OPEN and the ring registers of the PRINTING job (R293). -/
def Core.refreshRing (s : Core) : Core :=
  let open_ := s.jobs.jobs.any fun j => (j.state == 4 || j.state == 3) && j.ring.isSome
  let pr := (s.jobs.jobs.find? (·.state == 4)).bind (·.ring)
  s.wrs [(SKD_STATUS.RING_OPEN, b2n open_), (SKD_RING_SIZE.BYTES, (pr.map (·.size)).getD 0),
    (SKD_RING_FREE.BYTES, (pr.map (·.free)).getD 0)]

/-! ### Defect records (R507) -/

/-- Record a defect range in a job: up to 512 are kept, further ones are counted, set the overflow flag and raise
JOB_DEFECT_OVERFLOW once; kinds 6 to 8 raise JOB_DEFECT. -/
def Core.addDefect (s : Core) (id : Nat) (d : Defect) : Core :=
  match s.job? id with
  | none => s
  | some j =>
    let s :=
      if j.defects.length < 512 then s.modJob id fun j => { j with defects := j.defects ++ [d] }
      else
        let s := s.modJob id fun j => { j with overflow := true, overSaid := true, extra := j.extra + 1 }
        if j.overSaid then s else s.emit 0x0C06 id
    if 6 ≤ d.kind then s.emit 0x0C05 (id + at_ 4 d.unit + at_ 5 d.kind + at_ 8 d.first + at_ 12 d.last) else s

/-! ### CO pulses and PIO outputs (R373, R407) -/

/-- Change the pool record. -/
def Core.setCmp (s : Core) (c : CmpSt) : Core := { s with pos := { s.pos with cmp := c } }
/-- CMP_CO_LEVEL: each output is active while enabled and its level is active or its timer runs. -/
def Core.refreshCo (s : Core) : Core :=
  let c := s.pos.cmp
  s.wr CMP_CO_LEVEL.ACTIVE ((List.range 8).foldl (fun m i =>
    if (s.rd CMP_CO_CFG.EN).testBit i && (c.levels.testBit i || mget 0 c.timers i != 0) then m + 2 ^ i else m) 0)
/-- A pulse of `ns` on output `co`: its timer takes the larger of its remaining time and the width. -/
def Core.coPulse (s : Core) (co ns : Nat) : Core :=
  let c := s.pos.cmp
  (s.setCmp { c with timers := mset 0 c.timers co (max (mget 0 c.timers co) (s.etime + ns)) }).refreshCo
/-- Drive a PIO output by a signal; 0x10 to 0x1F name none. Two signals on one output drive it while either is active. -/
def setPio (pio out : Nat) (on : Bool) : Nat := if out < 16 && on then setBit pio out true else pio
/-- The PIO outputs follow the governor's signals, and hold while no imago runs (R227); an output that no signal is routed to is
off (R407). -/
def Core.drivePio (s : Core) : Core :=
  if s.imagoDead then s else
  let firing := s.anyJob [4] && s.bars.any fun b => s.rdb SPGB_FIRE.FIRING b
  let p := setPio 0 (s.rd SPG_PIO_CFG.FIRING_OUT) firing
  let p := setPio p (s.rd SPG_PIO_CFG.SLOW_OUT) (s.rdb SPG_STATUS.SLOW)
  let p := setPio p (s.rd SPG_PIO_CFG.STARVED_OUT) (s.rdb SPG_STATUS.STARVED)
  let p := setPio p (s.rd SPG_PIO_CFG.DEFECT_OUT) (decide (s.etime < s.pos.cmp.marker))
  { s with spg := { s.spg with pio := p } }

/-! ### Defect ranges and markers (R401, R402) -/

/-- Markers that φ has reached, or has passed already, pulse their output; the DEFECT signal of R407 runs with the pulse. -/
def Core.fireMarkers (s : Core) : Core :=
  let due := s.spg.markers.filter fun m => decide (posDiff m s.phi ≤ 0)
  if due = [] then s
  else
    let s := { s with spg := { s.spg with markers := s.spg.markers.filter fun m => !decide (posDiff m s.phi ≤ 0) } }
    due.foldl (fun s _ =>
      let ns := 10 * s.rd SPG_DEFECT_CFG.WIDTH
      let s := (s.inc SPG_DEFECT_CNT.MARKERS).coPulse (s.rd SPG_DEFECT_CFG.CO) ns
      (s.setCmp { s.pos.cmp with marker := max s.pos.cmp.marker (s.etime + ns) }).drivePio) s

/-- Schedule a defect marker for a range of class bit `cls` that opens at position `pos`; one already passed fires at once (R402).
-/
def Core.schedMarker (s : Core) (cls pos : Nat) : Core :=
  if s.rd SPG_DEFECT_CFG.EN = 1 ∧ (s.rd SPG_DEFECT_CFG.KINDS).testBit cls then
    let at' := posMod (pos + 64 * s.rd SPG_DEFECT_OFFSET.LINES)
    if s.spg.markers.length ≥ 16 ∨ s.spg.markers.any (fun m => (posDiff at' m).natAbs ≤ 256 * 64) then
      s.inc SPG_DEFECT_CNT.MERGED
    else ({ s with spg := { s.spg with markers := s.spg.markers ++ [at'] } } : Core).fireMarkers
  else s

/-- The fraction of the position at which a job starts, in 1/64 line (R501). -/
def Core.jobFrac (s : Core) (id : Nat) : Nat := ((s.job? id).bind (·.pos)).getD 0 % 64
/-- The web line position at which index `w` of a job strikes on a bar but for SKEW and TRIM: J_b + L + D_b (R388). -/
def Core.strikeAt (s : Core) (b id w : Nat) : Nat := posMod (64 * (w : Int) + s.jobFrac id + s.delay b)

/-- An affected line of a range: the first and the last by index, whatever the order in which lines close (R401). -/
def OpenRange.touch (r : OpenRange) (w : Nat) : OpenRange :=
  { r with first := if lineDiff w r.first < 0 then w else r.first, last := if lineDiff w r.last > 0 then w else r.last
           lines := r.lines + 1, since := 0 }
/-- Close an open range: FIRE_DEFECT, and the range goes to its job's record (R401, R507). -/
def Core.closeRange (s : Core) (h cls : Nat) (r : OpenRange) : Core :=
  let b := s.barOf h
  let s := s.emit 0x080A (h + at_ 1 (2 ^ cls) + at_ 4 (posLine (s.strikeAt b r.job r.first)) +
    at_ 8 (posLine (s.strikeAt b r.job r.last)) + at_ 12 r.lines)
  s.addDefect r.job ⟨h, false, cls + 1, r.first, r.last, r.lines⟩

/-- Close every open range of a head that belongs to job `id`, or all of them. -/
def Core.closeRanges (s : Core) (h : Nat) (p : OpenRange → Bool) : Core :=
  let x := s.hf h
  let s := s.setHf h { x with ranges := x.ranges.filter fun r => !p r.2 }
  (x.ranges.filter fun r => p r.2).foldl (fun s r => s.closeRange h r.1 r.2) s

/-! ### DATA ranges (R248, R507) -/

/-- Close the open DATA range of a bar: it goes to its job's record (R507). -/
def Core.closeData (s : Core) (b : Nat) : Core :=
  match (s.bf b).data with
  | none => s
  | some r => (s.setBf b { s.bf b with data := none }).addDefect r.job ⟨b, true, 6, r.first, r.last, r.lines⟩
/-- Account a screened line of a bar to its DATA range: `bad` lines open or extend it under the 256-line rule of R401. A
line that another link of the bar has already accounted changes nothing. -/
def Core.accountData (s : Core) (b job w : Nat) (bad : Bool) : Core :=
  let keep : Bool := match (s.bf b).data with
    | none => true
    | some r => r.job == job && lineDiff w r.last < 256 + b2n bad
  let s := if keep then s else s.closeData b
  if bad then
    match (s.bf b).data with
    | none => s.setBf b { s.bf b with data := some ⟨job, w, w, 1, 0⟩ }
    | some r =>
      if lineDiff w r.last ≤ 0 then s
      else s.setBf b { s.bf b with data := some { r with last := w, lines := r.lines + 1 } }
  else s

/-! ### Leaving and ending a job (R496) -/

/-- A job that has switched out of, or passed the end of, every bar and whose issued lines have all closed is DONE, or
ABORTED where a JOB_ABORT ended it (R496, R506). Its open ranges close first (R401), and a CUT is recorded as a range from
the first cut index to the last index struck. -/
def Core.settleJob (s : Core) (id : Nat) : Core :=
  match s.job? id with
  | none => s
  | some j =>
    if (j.state = 4 ∨ j.state = 5) ∧ j.open_ = 0 ∧ j.bars.all (·.2.left) then
      let s := (j.bars.flatMap fun e => s.headsOfBar e.1).foldl (fun s h => s.closeRanges h fun r => r.job == id) s
      let s := if j.cut then
          match j.bars.filterMap (·.2.endW), j.struck with
          | e :: es, some hi =>
            let lo := es.foldl (fun m x => if lineDiff x m < 0 then x else m) e
            if lineDiff lo hi > 0 then s
            else s.addDefect id ⟨(j.bars.headD (0, JobBar.none)).1, true, 8, lo, hi, (lineDiff hi lo).toNat + 1⟩
          | _, _ => s
        else s
      (s.setJobState id (if j.aborting then 7 else 6)).refreshRing
    else s

/-- A bar leaves a job (R496): PRINTING becomes DRAINING while another bar still prints it; the shadow is freed. With `on` the bar
goes on to another job, which may become PRINTING now: as at most one job is PRINTING, its last bar moves the job to DRAINING too
(DEDUCED: log entry 158). -/
def Core.leaveBar (s : Core) (id b : Nat) (on : Bool := false) : Core :=
  match s.job? id with
  | none => s
  | some j =>
    match j.bar? b with
    | none => s
    | some jb =>
      if jb.left then s
      else
        let s := (s.headsOfBar b).foldl (fun s h => s.closeRanges h fun r => r.job == id) s
        let s := if ((s.bf b).data.map (·.job)) == some id then s.closeData b else s
        let s := s.modJob id fun j => j.modBar b fun x => { x with left := true, set := none }
        let s := if j.state = 4 ∧ (on ∨ j.bars.any fun e => e.1 != b && !e.2.left) then (s.setJobState id 5).refreshRing else s
        s.settleJob id

/-! ### Firing causes (R391) -/

/-- The cause bits 7:1 of a bar, as a number with bit i for cause i. -/
def Core.causes (s : Core) (b : Nat) : Nat := 2 * s.rd SPGB_FIRE.CAUSE b
/-- The time a head has been ATTACHED while its bar had no cause runs up to now (R444). -/
def Core.countFire (s : Core) (h : Nat) : Core :=
  if !s.attached h then s
  else
    let r := s.hr h
    s.setHr h { r with fireNs := if s.causes (s.barOf h) = 0 then r.fireNs + (s.etime - r.countAt) else r.fireNs, countAt := s.etime }
/-- Set the cause bits; FIRING follows. -/
def Core.setCauses (s : Core) (b c : Nat) : Core :=
  let s := (s.headsOfBar b).foldl (fun s h => s.countFire h) s
  (s.wr SPGB_FIRE.CAUSE (c / 2) b).wr SPGB_FIRE.FIRING (b2n (c / 2 % 128 == 0)) b
/-- Set cause `i` on bars: FIRE_STOPPED names those on which it was clear (R391, R411). -/
def Core.setCause (s : Core) (bs : List Nat) (i : Nat) : Core :=
  let new := bs.filter fun b => !(s.causes b).testBit i
  let s := new.foldl (fun s b => s.setCauses b (s.causes b ||| 2 ^ i)) s
  if new = [] then s else s.emit 0x0801 ((new.foldl (fun m b => m + 2 ^ b) 0) + at_ 1 i)
/-- All eight bars. -/
def allBars : List Nat := List.range 8

/-! ### Which job a line belongs to (R502) -/

/-- The exclusive end of a job on a bar, as a web line index: its length, or where JOB_ABORT stops it. -/
def Job.endOf (j : Job) (jb : JobBar) : Option Nat :=
  let byLen := if j.lines = 0 then none else j.pos.map fun p => lineAdd (posLine p) j.lines
  match byLen, jb.endW with
  | some a, some b => some (if lineDiff b a < 0 then b else a)
  | some a, none => some a
  | none, e => e
/-- The latest chain entry of a bar whose first index is at or before `w`. -/
def chainAt (c : Chain) (w : Nat) : Option (Nat × Nat) := (c.filter fun e => lineDiff w (posLine e.1) ≥ 0).getLast?
/-- The job, its bar and the job line of web line index `w` on bar `b`; none where the bar has no job there. Lines that are
being issued may still belong to a job that the bar has left, and belong to an ARMED job just ahead of its first bar's switch (R399,
R502; DEDUCED: log entry 75). -/
def Core.ownerAt (s : Core) (b w : Nat) (issuing : Bool := false) : Option (Job × JobBar × Nat) :=
  match chainAt (s.chain b) w with
  | none => none
  | some (p, id) =>
    match s.job? id with
    | none => none
    | some j =>
      match j.bar? b with
      | none => none
      | some jb =>
        let past : Bool := match j.endOf jb with
          | some e => lineDiff w e ≥ 0
          | none => false
        let gone : Bool := if issuing then decide (j.state < 3) || !j.live else !j.live || jb.left
        if past || gone then none else some (j, jb, (lineDiff w (posLine p)).toNat)
/-- The next web line index of a bar that belongs to a job, from `start` on (R502). -/
def Core.nextLine (s : Core) (b : Nat) (start : Option Nat) (issuing : Bool := false) :
    Option (Nat × Job × JobBar × Nat) :=
  let here := start.bind fun w => (s.ownerAt b w issuing).map fun o => (w, o)
  match here with
  | some (w, j, jb, l) => some (w, j, jb, l)
  | none =>
    (s.chain b).findSome? fun e =>
      let w := posLine e.1
      let ahead : Bool := match start with
        | some x => lineDiff w x > 0
        | none => true
      if ahead && e.2 != 0 then ((s.ownerAt b w issuing).filter fun o => o.1.live).map fun o => (w, o) else none
/-- The stripe engine of a link. -/
def Core.scr (s : Core) (l : Nat) : LinkScr := mget LinkScr.none s.spg.links l
/-- Change it. -/
def Core.setScr (s : Core) (l : Nat) (x : LinkScr) : Core :=
  { s with spg := { s.spg with links := mset LinkScr.none s.spg.links l x } }
/-- W_b (R501): the next web line index the bar's engines will screen; for an idle bar, whose engines have not begun the job that is
to start on it, floor(φ) - floor(D_b) + 16. -/
def Core.nextW (s : Core) (b : Nat) : Nat :=
  let idle := s.rd JOBB_ACTIVE.JOB_ID b = 0
  let ws := (s.linksOf b).filterMap fun l =>
    if idle ∧ ((s.scr l).nextW.bind (s.ownerAt b ·)).isNone then none else (s.nextLine b (s.scr l).nextW).map (·.1)
  match ws with
  | w :: rest => rest.foldl (fun m x => if lineDiff x m > 0 then x else m) w
  | [] => lineAdd (posLine s.phi) (16 - (posLine (s.delay b) : Int))

/-! ### Accounting to ranges (R401) -/

/-- Account one closed line of head `h` to the ranges: `cls` is its class bit (none for strobed), `opens` whether it may
open or extend a range (R401). A range with 256 later lines unaffected closes; a range of another job closes. -/
def Core.accountRange (s : Core) (h job w : Nat) (cls : Option Nat) (opens : Bool) : Core :=
  let x := s.hf h
  let touch (r : Nat × OpenRange) : Bool := opens && cls == some r.1 && r.2.job == job
  let aged := x.ranges.map fun r =>
    if touch r then (r.1, r.2.touch w)
    else (r.1, { r.2 with since := r.2.since + 1 })
  let hit := x.ranges.any touch
  let s := s.setHf h { x with ranges := aged }
  let s := s.closeRanges h fun r => r.since ≥ 256 || r.job != job
  match cls with
  | none => s
  | some c =>
    if hit || !opens then s
    else
      let x := s.hf h
      let s := s.setHf h { x with ranges := x.ranges ++ [(c, ⟨job, w, w, 1, 0⟩)] }
      s.schedMarker c (s.strikeAt (s.barOf h) job w)

/-! ### Closing lines (R399, R400) -/

/-- The class of a closed line. -/
inductive LineClass where
  | strobed | late | ovs | inh | unconf
  deriving DecidableEq, Repr

/-- The range class bit of a line class (KINDS of R402). -/
def LineClass.bit : LineClass → Option Nat
  | .strobed => none
  | .late => some 0
  | .ovs => some 1
  | .inh => some 2
  | .unconf => some 3

/-- Add to a 64-bit counter pair. -/
def Core.add64 (s : Core) (lo hi : Fld) (n k : Nat) : Core := s.wr2 lo hi ((s.rd2 lo hi n + k) % 2 ^ 64) n

/-- Close one issued line of head `h` in a class: the head's counters (R400), the job's open lines (R496) and the defect
ranges (R401). `opens` is false for the lines R401 lets open no range. -/
def Core.closeLine (s : Core) (h : Nat) (job w drops : Nat) (c : LineClass) (opens : Bool) : Core :=
  let s := match c with
    | .strobed => (s.add64 HDC_STROBED_LO.COUNT HDC_STROBED_HI.COUNT h 1).add64 HDC_DROPS_LO.COUNT HDC_DROPS_HI.COUNT h drops
    | .late => s.incW HDC_LATE.COUNT h
    | .ovs => s.incW HDC_OVS.COUNT h
    | .inh => s.incW HDC_INH.COUNT h
    | .unconf => s.incW HDC_UNCONF.COUNT h
  let s := s.modJob job fun j => { j with open_ := j.open_ - 1 }
  let s := s.accountRange h job w c.bit opens
  let s := if c = .strobed then
      let b := s.barOf h
      let s := s.setBf b { s.bf b with strobedJob := job }
      s.modJob job fun j => { j with struck := match j.struck with
        | some x => if lineDiff w x > 0 then some w else some x
        | none => some w }
    else s
  s.settleJob job

/-- May a blanked-inhibit line open a range (R401)? Not while the bar's only cause is DISABLED and it has not strobed a
line of the job. -/
def Core.inhOpens (s : Core) (b job : Nat) : Bool := !(s.causes b == 2 && (s.bf b).strobedJob != job)

/-- Close issued lines of a head that satisfy `p`, in a class. -/
def Core.closeIssued (s : Core) (h : Nat) (p : IssuedLine → Bool) (c : LineClass) : Core :=
  let x := s.hf h
  let s := s.setHf h { x with issued := x.issued.filter fun l => !p l }
  (x.issued.filter p).foldl (fun s l => s.closeLine h l.job l.w l.drops c true) s

end Sys2Proof.Machine
end

