-- ==== Sys2Proof/Machine/Skelre.lean ====
section
/-! DEFINITION. The Skelre stream format (spec/06_raster_ingest_and_coding.md, R258 to R270): headers, prefix codes,
symbols, and the decoding of one block's payload. -/

namespace Sys2Proof.Machine

/-! ### Bits (R262) -/

/-- The bits of a byte, bit 0 first. -/
def byteBits (b : Byte) : List Bool := (List.range 8).map fun i => b.toNat.testBit i
/-- The bits of a payload in order. -/
def payloadBits (bs : Bytes) : List Bool := bs.flatMap byteBits
/-- Read an unsigned integer of `n` bits, least significant first; `none` when the bits run out. -/
def readInt : Nat → List Bool → Option (Nat × List Bool)
  | 0, bs => some (0, bs)
  | _ + 1, [] => none
  | n + 1, b :: bs => (readInt n bs).map fun p => (b2n b + 2 * p.1, p.2)

/-! ### Canonical prefix codes (R263) -/

/-- How many symbols have code length `b`. -/
def lenCount (lens : List Nat) (b : Nat) : Nat := if b = 0 then 0 else lens.countP (· == b)
/-- The first code of length `b`. -/
def firstCode (lens : List Nat) : Nat → Nat
  | 0 => 0
  | b + 1 => (firstCode lens b + lenCount lens b) * 2
/-- The symbols of length `b`, in order. -/
def symsOf (lens : List Nat) (b : Nat) : List Nat := (List.range lens.length).filter fun s => lens.getD s 0 == b
/-- A prefix-code table: for each length 1 to 15 its first code and its symbols; and whether it has one symbol only. -/
structure PCode where
  rows : List (Nat × List Nat)
  single : Bool
  empty : Bool
  deriving DecidableEq, Repr
/-- The table of a list of code lengths. -/
def mkPCode (lens : List Nat) : PCode :=
  { rows := (List.range 15).map fun i => (firstCode lens (i + 1), symsOf lens (i + 1))
    single := lens.countP (· != 0) == 1
    empty := lens.all (· == 0) }
/-- The completeness sum over symbols of 2^(15 - len). -/
def kraft (lens : List Nat) : Nat := (lens.filter (· != 0)).foldl (fun a l => a + 2 ^ (15 - l)) 0
/-- Does a table obey R263? -/
def tableOk (allowEmpty : Bool) (lens : List Nat) : Bool :=
  if lens.all (· == 0) then allowEmpty
  else if lens.countP (· != 0) == 1 then lens.any (· == 1)
  else kraft lens == 2 ^ 15

/-- Why a read failed: an unassigned code, or bits beyond the payload. -/
inductive BitErr where
  | illegal | truncated
  deriving DecidableEq, Repr

/-- Read one symbol, most significant code bit first. -/
def readSymFrom : List (Nat × List Nat) → Nat → List Bool → Except BitErr (Nat × List Bool)
  | [], _, _ => .error .illegal
  | _ :: _, _, [] => .error .truncated
  | (first, syms) :: rows, code, b :: bs =>
    let c := 2 * code + b2n b
    if first ≤ c ∧ c < first + syms.length then .ok (syms.getD (c - first) 0, bs) else readSymFrom rows c bs
/-- Read one symbol of a table. -/
def readSym (t : PCode) (bs : List Bool) : Except BitErr (Nat × List Bool) :=
  if t.single then
    match bs with
    | [] => .error .truncated
    | true :: _ => .error .illegal
    | false :: rest => .ok (((t.rows.getD 0 (0, [])).2).getD 0 0, rest)
  else readSymFrom t.rows 0 bs

/-! ### Lengths and distances (R265, R266) -/

/-- The extra bits and base length of length symbol `s`, 257 to 285. -/
def lengthOf (s : Nat) : Nat × Nat :=
  let i := s - 257
  if i < 8 then (0, 3 + i)
  else
    let g := (i - 8) / 2
    (g + 1, 7 + 2 ^ (g + 2) + (i - 8) % 2 * 2 ^ (g + 1))
/-- The extra bits and base distance of distance code `j`. -/
def distanceOf (j : Nat) : Nat × Nat :=
  if j < 4 then (0, 1 + j) else (j / 2 - 1, 1 + (2 + j % 2) * 2 ^ (j / 2 - 1))

/-- The STATIC literal/length code lengths (R268). -/
def staticLit : List Nat :=
  [5] ++ List.replicate 47 8 ++ List.replicate 160 9 ++ List.replicate 47 8 ++ [5, 5] ++ List.replicate 29 7
/-- The STATIC distance code lengths (R268). -/
def staticDist : List Nat := List.replicate 28 5 ++ List.replicate 8 6

/-! ### Dynamic tables (R269, R270) -/

/-- The order in which code-length lengths are sent. -/
def clOrder : List Nat := [16, 17, 18, 0, 8, 4, 12, 2, 14, 6, 10, 1, 15, 3, 13, 5, 11, 7, 9]
/-- Read `n` 3-bit lengths. -/
def readLens3 : Nat → List Bool → Option (List Nat × List Bool)
  | 0, bs => some ([], bs)
  | n + 1, bs =>
    match readInt 3 bs with
    | none => none
    | some (v, bs) => (readLens3 n bs).map fun p => (v :: p.1, p.2)
/-- Read the sequence of code lengths: `need` in all, `acc` newest first. -/
def readLenSeq (t : PCode) (need : Nat) : Nat → List Nat → List Bool → Except Nat (List Nat × List Bool)
  | 0, acc, bs => if acc.length = need then .ok (acc.reverse, bs) else .error 0x0504
  | fuel + 1, acc, bs =>
    if acc.length = need then .ok (acc.reverse, bs)
    else
      match readSym t bs with
      | .error .illegal => .error 0x0501
      | .error .truncated => .error 0x0506
      | .ok (s, bs) =>
        if s < 16 then readLenSeq t need fuel (s :: acc) bs
        else if s = 16 ∧ acc = [] then .error 0x0504
        else
          let (n, base) := if s = 16 then (2, 3) else if s = 17 then (3, 3) else (7, 11)
          match readInt n bs with
          | none => .error 0x0506
          | some (x, bs) =>
            if acc.length + base + x > need then .error 0x0504
            else
              let v := if s = 16 then acc.headD 0 else 0
              readLenSeq t need fuel (List.replicate (base + x) v ++ acc) bs
/-- Read the tables at the start of a DYNAMIC payload: the literal/length and the distance table. -/
def readDynamic (bs : List Bool) : Except Nat (PCode × PCode × List Bool) :=
  match readInt 5 bs with
  | none => .error 0x0506
  | some (nlit, bs) =>
    if nlit > 29 then .error 0x0504
    else
    match readInt 6 bs with
    | none => .error 0x0506
    | some (ndist, bs) =>
      if ndist > 35 then .error 0x0504
      else
      match readInt 4 bs with
      | none => .error 0x0506
      | some (ncl, bs) =>
          match readLens3 (ncl + 4) bs with
          | none => .error 0x0506
          | some (l3, bs) =>
            let cl := (List.range 19).map fun s =>
              match findIx (· == s) (clOrder.take (ncl + 4)) with
              | some (i, _) => l3.getD i 0
              | none => 0
            if ¬ tableOk false cl then .error 0x0504
            else
              match readLenSeq (mkPCode cl) (258 + nlit + ndist) (258 + nlit + ndist) [] bs with
              | .error e => .error e
              | .ok (ls, bs) =>
                let lit := ls.take (257 + nlit) ++ List.replicate (29 - nlit) 0
                let dist := ls.drop (257 + nlit) ++ List.replicate (35 - ndist) 0
                if tableOk false lit ∧ tableOk true dist then .ok (mkPCode lit, mkPCode dist, bs) else .error 0x0504

/-! ### Blocks -/

/-- What the decoding of a block's payload gives: the stream history (newest byte first), the bytes of this block it
produced, and the Skelre error that ended it, if any. -/
structure SkOut where
  hist : Bytes
  produced : Nat
  err : Option Nat
  deriving DecidableEq, Repr

/-- Copy `n` bytes from distance `d`, one at a time (R267). -/
def copyBack : Nat → Nat → Bytes → Bytes
  | 0, _, h => h
  | n + 1, d, h => copyBack n d (h.getD (d - 1) 0 :: h)

/-- The history window of R266. -/
def histMax : Nat := 262144

/-- A copy of `len` bytes from distance `d`, checked against the history and OUT_LEN (R274); `total` counts the bytes the
stream has decoded so far. -/
def skCopy (outLen len d total : Nat) (o : SkOut) : SkOut :=
  if d > histMax ∨ d > total then { o with err := some 0x0502 }
  else if o.produced + len > outLen then
    { hist := copyBack (outLen - o.produced) d o.hist, produced := outLen, err := some 0x0503 }
  else { o with hist := copyBack len d o.hist, produced := o.produced + len }

/-- The error code of a failed read. -/
def bitErrCode : BitErr → Nat
  | .illegal => 0x0501
  | .truncated => 0x0506

/-- Read a length symbol's extra bits: the length. -/
def readLength (s : Nat) (bs : List Bool) : Option (Nat × List Bool) :=
  let (e, base) := lengthOf s
  (readInt e bs).map fun p => (base + p.1, p.2)

/-- Decode symbols until OUT_LEN bytes are out (R264 to R267, R274). `start` counts the bytes of the stream before this
block; `band` is BAND_BYTES. -/
def skSymbols (lit dist : PCode) (outLen band start : Nat) : Nat → List Bool → SkOut → SkOut
  | 0, _, o => o
  | fuel + 1, bs, o =>
    if o.produced ≥ outLen ∨ o.err.isSome then o
    else
      match readSym lit bs with
      | .error e => { o with err := some (bitErrCode e) }
      | .ok (s, bs) =>
        if s < 256 then
          skSymbols lit dist outLen band start fuel bs
            { o with hist := BitVec.ofNat 8 s :: o.hist, produced := o.produced + 1 }
        else if s = 256 then
          match readSym lit bs with
          | .error e => { o with err := some (bitErrCode e) }
          | .ok (l, bs) =>
            if l < 257 then { o with err := some 0x0501 }
            else
              match readLength l bs with
              | none => { o with err := some 0x0506 }
              | some (n, bs) =>
                skSymbols lit dist outLen band start fuel bs (skCopy outLen n band (start + o.produced) o)
        else
          if dist.empty then { o with err := some 0x0501 }
          else
            match readLength s bs with
            | none => { o with err := some 0x0506 }
            | some (n, bs) =>
              match readSym dist bs with
              | .error e => { o with err := some (bitErrCode e) }
              | .ok (j, bs) =>
                let (e, base) := distanceOf j
                match readInt e bs with
                | none => { o with err := some 0x0506 }
                | some (x, bs) =>
                  skSymbols lit dist outLen band start fuel bs
                    (skCopy outLen n (base + x) (start + o.produced) o)

/-- Decode a block's payload: BTYPE 0 STORED, 1 STATIC, 2 DYNAMIC (R259). -/
def skPayload (btype outLen band start : Nat) (payload : Bytes) (hist : Bytes) : SkOut :=
  if btype = 0 then ⟨payload.reverse ++ hist, payload.length, none⟩
  else if btype = 1 then
    skSymbols (mkPCode staticLit) (mkPCode staticDist) outLen band start outLen (payloadBits payload) ⟨hist, 0, none⟩
  else
    match readDynamic (payloadBits payload) with
    | .error e => ⟨hist, 0, some e⟩
    | .ok (lit, dist, bs) => skSymbols lit dist outLen band start outLen bs ⟨hist, 0, none⟩

/-- A stream header (R258). -/
structure SkHeader where
  dpi : Nat
  bar : Nat
  width : Nat
  lines : Nat
  deriving DecidableEq, Repr

/-- Read a stream header; `none` where it breaks a rule of R258 that needs no job. -/
def skHeader (bs : Bytes) (inRing : Bool) : Option SkHeader :=
  let dpi := byteAt bs 5; let bar := byteAt bs 6; let width := leAt bs 8 4; let lines := leAt bs 12 4
  let wmax := if dpi = 0 then 51969 else 103937
  if leAt bs 0 4 = 0x4C454B53 ∧ byteAt bs 4 = 1 ∧ dpi ≤ 1 ∧ bar ≤ 7 ∧ byteAt bs 7 = 0 ∧ 1 ≤ width ∧ width ≤ wmax ∧
      lines % 4 = 0 ∧ (lines ≠ 0 ∨ inRing) then
    some ⟨dpi, bar, width, lines⟩
  else none

/-- A block header (R259): BTYPE, BAR, the reserved bytes, OUT_LEN, IN_LEN. -/
structure SkBlock where
  btype : Nat
  bar : Nat
  res : Nat
  outLen : Nat
  inLen : Nat
  deriving DecidableEq, Repr
/-- Read the 12-byte block header. -/
def skBlock (bs : Bytes) : SkBlock := ⟨byteAt bs 0, byteAt bs 1, leAt bs 2 2, leAt bs 4 4, leAt bs 8 4⟩
/-- The header errors of R274 for a block of stream bar `bar`: BTYPE, reserved bytes, BAR; then the lengths. -/
def skBlockErr (b : SkBlock) (bar : Nat) : Option Nat :=
  if ¬ (b.btype ≤ 2 ∨ b.btype = 0xFF) ∨ b.res ≠ 0 ∨ b.bar ≠ bar then some 0x0507
  else if b.btype = 0xFF then (if b.outLen = 0 ∧ b.inLen = 0 then none else some 0x0503)
  else if b.outLen = 0 ∨ b.outLen > 4194304 then some 0x0503
  else if b.btype = 0 ∧ b.inLen ≠ b.outLen then some 0x0503
  else if b.btype ≠ 0 ∧ (b.inLen = 0 ∨ b.inLen > 4980736) then some 0x0503
  else none
/-- The bytes a whole block takes: header, payload and CRC (an END block has neither). -/
def skBlockSize (b : SkBlock) : Nat := if b.btype = 0xFF then 12 else 16 + b.inLen

end Sys2Proof.Machine
end

