-- ==== Sys2Proof/Machine/Xbc.lean ====
section
/-! DEFINITION. The Xanem block code (spec/06_raster_ingest_and_coding.md, R282 to R290): tile encoders and decoders.
A tile is its 16 pixels in the order 4 r + c. -/

namespace Sys2Proof.Machine

/-- The distance of two levels. -/
def absDiff (a b : Nat) : Nat := if a < b then b - a else a - b
/-- The largest element. -/
def maxOf (l : List Nat) : Nat := l.foldl max 0
/-- The smallest element. -/
def minOf (l : List Nat) : Nat := l.foldl min (l.headD 0)
/-- The element of `l` with the least `f`, the first on ties; `d` for an empty list. -/
def argMin (f : Nat → Nat) (d : Nat) (l : List Nat) : Nat :=
  match l with
  | [] => d
  | a :: as => as.foldl (fun best x => if f x < f best then x else best) a
/-- The largest absolute error of a decoded tile. -/
def tileErr (v w : List Nat) : Nat := maxOf ((v.zip w).map fun p => absDiff p.1 p.2)
/-- A list of values as consecutive `n`-bit fields, the first lowest. -/
def packBits (n : Nat) (l : List Nat) : Nat := l.foldr (fun x acc => x + 2 ^ n * acc) 0

/-! ### XBC-2 -/

/-- The decoded pixel of a residual tile (R284). -/
def resPix (base s q : Nat) : Nat := min 255 (base + q * 2 ^ s + (if s = 0 then 0 else 2 ^ (s - 1) - 1))
/-- The four palette levels (R284). -/
def palLevels (p0 p1 p2 : Nat) : List Nat := [p0, p1, p2, (p0 + p1 + 1) / 2]
/-- Decode an XBC-2 word; `none` where R290 poisons the band. -/
def xbc2Dec (w : Nat) : Option (List Nat) :=
  if bits w 1 0 = 0 then
    if bits w 12 10 > 5 ∨ bits w 15 13 ≠ 0 then none
    else some ((List.range 16).map fun i => resPix (bits w 9 2) (bits w 12 10) (bits w (18 + 3 * i) (16 + 3 * i)))
  else if bits w 1 0 = 1 then
    if bits w 31 26 ≠ 0 then none
    else
      let p := palLevels (bits w 9 2) (bits w 17 10) (bits w 25 18)
      some ((List.range 16).map fun i => p.getD (bits w (33 + 2 * i) (32 + 2 * i)) 0)
  else none
/-- The residual candidate of R285: SHIFT and the word. -/
def xbc2Res (v : List Nat) : Nat :=
  let mn := minOf v; let mx := maxOf v
  let s := ((List.range 6).find? fun s => (mx - mn) / 2 ^ s ≤ 7).getD 5
  mn * 2 ^ 2 + s * 2 ^ 10 + packBits 3 (v.map fun x => (x - mn) / 2 ^ s) * 2 ^ 16
/-- The palette index nearest to `x`, the lowest on ties. -/
def nearest (p : List Nat) (x : Nat) : Nat := argMin (fun i => absDiff (p.getD i 0) x) 0 (List.range p.length)
/-- The largest error of a tile under a palette. -/
def palErr (p v : List Nat) : Nat := maxOf (v.map fun x => absDiff (p.getD (nearest p x) 0) x)
/-- Insert into a rising list without repeats. -/
def insUniq (x : Nat) : List Nat → List Nat
  | [] => [x]
  | y :: ys => if x < y then x :: y :: ys else if x = y then y :: ys else y :: insUniq x ys
/-- The palette candidate of R285. -/
def xbc2Pal (v : List Nat) : Nat :=
  let mn := minOf v; let mx := maxOf v
  let others := (v.filter fun x => x ≠ mn ∧ x ≠ mx).foldl (fun l x => insUniq x l) []
  let p2 := argMin (fun c => palErr (palLevels mn mx c) v) mn others
  let p := palLevels mn mx p2
  1 + mn * 2 ^ 2 + mx * 2 ^ 10 + p2 * 2 ^ 18 + packBits 2 (v.map (nearest p)) * 2 ^ 32
/-- The XBC-2 encoder (R285): the word, whether it is a palette tile, and its largest error. -/
def xbc2Enc (v : List Nat) : Nat × Bool × Nat :=
  let r := xbc2Res v; let p := xbc2Pal v
  let er := tileErr v ((xbc2Dec r).getD []); let ep := tileErr v ((xbc2Dec p).getD [])
  if ep ≤ er then (p, true, ep) else (r, false, er)

/-! ### XBC-4 -/

/-- The 8-bit level of a 7-bit value (R287). -/
def expand7 (u : Nat) : Nat := (u * 2) ||| (u / 64)
/-- The quadrant of pixel `i`. -/
def quadOf (i : Nat) : Nat := 2 * (i / 8) + i % 4 / 2
/-- Decode an XBC-4 word; `none` where R290 poisons the band. -/
def xbc4Dec (w : Nat) : Option (List Nat) :=
  if w % 2 = 0 then
    some ((List.range 16).map fun i => if bit w (16 + i) then bits w 15 8 else expand7 (bits w 7 1))
  else if bits w 31 29 ≠ 0 then none
  else some ((List.range 16).map fun i => expand7 (bits w (7 * quadOf i + 7) (7 * quadOf i + 1)))
/-- The two-level candidate of R288. -/
def xbc4Two (v : List Nat) : Nat :=
  let l7 := minOf v / 2; let h := maxOf v
  l7 * 2 + h * 2 ^ 8 + packBits 1 (v.map fun x => if absDiff h x < absDiff (expand7 l7) x then 1 else 0) * 2 ^ 16
/-- The mean of quadrant `q` (R288). -/
def quadMean (v : List Nat) (q : Nat) : Nat :=
  min 127 ((((List.range 16).filter fun i => quadOf i = q).foldl (fun a i => a + v.getD i 0) 0 + 4) / 8)
/-- The quad-mean candidate of R288. -/
def xbc4Quad (v : List Nat) : Nat := 1 + packBits 7 ((List.range 4).map (quadMean v)) * 2
/-- The XBC-4 encoder (R288): the word, whether it is a two-level tile, and its largest error. -/
def xbc4Enc (v : List Nat) : Nat × Bool × Nat :=
  let t := xbc4Two v; let q := xbc4Quad v
  let et := tileErr v ((xbc4Dec t).getD []); let eq := tileErr v ((xbc4Dec q).getD [])
  if et ≤ eq then (t, true, et) else (q, false, eq)

/-- The bytes of a tile in code 1, 2 or 4 (R279, R281). -/
def tileSize (code : Nat) : Nat := 16 / code
/-- Encode a tile's 16 bytes in a code: the stored bytes, the counter the tile belongs to (0 none, 1 residual,
2 palette, 3 two-level, 4 quad-mean; R294) and its largest error. -/
def tileEnc (code : Nat) (t : Bytes) : Bytes × Nat × Nat :=
  let v := t.map (·.toNat)
  if code = 2 then
    let (w, pal, e) := xbc2Enc v
    (toLE 8 w, if pal then 2 else 1, e)
  else if code = 4 then
    let (w, two, e) := xbc4Enc v
    (toLE 4 w, if two then 3 else 4, e)
  else (t, 0, 0)
/-- Decode a stored tile; `none` where R290 poisons the band. -/
def tileDec (code : Nat) (t : Bytes) : Option (List Nat) :=
  if code = 2 then xbc2Dec (leNat t)
  else if code = 4 then xbc4Dec (leNat t)
  else some (t.map (·.toNat))

end Sys2Proof.Machine
end

