-- ==== Sys2Proof/Machine/Ingest.lean ====
section
/-! DEFINITION. Job memory, loads, the variable-data ring, and the decoding of Skelre blocks into XBC planes
(spec/06_raster_ingest_and_coding.md, R246 to R278). -/

namespace Sys2Proof.Machine

/-! ### Job memory (R495, R513, R514, R468) -/

/-- One GiB. -/
def gib : Nat := 2 ^ 30
/-- One MiB. -/
def mib : Nat := 2 ^ 20
/-- The ranges of the engine address space that job memory may use, with WAYS channels: the space without the reserved
areas at the top of each rank slot (R514) and without the 1 GiB camera region (R468), which the model places at the top
of slot 1. DESIGN CHOICE: the place of the camera region (log entry 12). -/
def jobRanges (ways : Nat) : List (Nat × Nat) :=
  [(0, ways * 8 * gib - ways * 65 * mib), (ways * 8 * gib, ways * 16 * gib - ways * mib - gib)]
/-- The base of the camera region (R468). -/
def camBase (ways : Nat) : Nat := ways * 16 * gib - ways * mib - gib
/-- Job memory not allocated. -/
def Core.jobFree (s : Core) : Nat :=
  ((jobRanges (s.rd MEM_STATUS.WAYS)).foldl (fun a r => a + (r.2 - r.1)) 0) -
    s.jobs.regions.foldl (fun a r => a + r.2) 0
/-- Does `[a, a + n)` lie in job memory, clear of every region? -/
def Core.fits (s : Core) (a n : Nat) : Bool :=
  (jobRanges (s.rd MEM_STATUS.WAYS)).any (fun r => r.1 ≤ a && a + n ≤ r.2) &&
    s.jobs.regions.all (fun r => a + n ≤ r.1 || r.1 + r.2 ≤ a)
/-- Take `n` bytes of job memory, 4 KiB aligned, at the lowest place they fit (DESIGN CHOICE: log entry 12). -/
def Core.allocJob (s : Core) (n : Nat) : Option (Nat × Core) :=
  let size := alignUp n 4096
  let starts := (jobRanges (s.rd MEM_STATUS.WAYS)).map (·.1) ++ s.jobs.regions.map (fun r => alignUp (r.1 + r.2) 4096)
  let ok := starts.filter fun a => s.fits a size
  match ok with
  | [] => none
  | a :: as =>
    let base := as.foldl min a
    some (base, { s with jobs := { s.jobs with regions := s.jobs.regions ++ [(base, size)] } })

/-! ### Planes (R246, R247, R261, R279) -/

/-- Bands of a plane. -/
def JobBar.nBands (b : JobBar) : Nat := b.planeLines / 4
/-- Stored bytes of a band. -/
def JobBar.bandXbc (b : JobBar) : Nat := tilesOf b.width * tileSize b.code
/-- The state of a band by its number in the stream (R247). -/
def JobBar.band (b : JobBar) (n : Nat) : Nat := mget 0 b.bands n
/-- Set the state of a band. -/
def JobBar.setBand (b : JobBar) (n st : Nat) : JobBar := { b with bands := mset 0 b.bands n st }
/-- Set the state of a run of bands. -/
def JobBar.setBands (b : JobBar) (n cnt st : Nat) : JobBar := (List.range cnt).foldl (fun b i => b.setBand (n + i) st) b
/-- The place of tile `t` of band `n`; a streamed plane is circular (R257). -/
def JobBar.tileAddr (b : JobBar) (n t : Nat) : Nat :=
  b.base + n % max 1 b.nBands * b.bandXbc + t * tileSize b.code
/-- Decoded bytes of `lines` plane lines in tile order (R261, R274). -/
def streamBytes (width lines : Nat) : Nat := lines / 4 * bandBytes width

/-! ### Storing tiles (R261, R282 to R289, R294) -/

/-- The XBC counter of a tile kind. -/
def xbcCounter (k : Nat) : Fld :=
  if k = 1 then XBC_CNT_RES.COUNT else if k = 2 then XBC_CNT_PAL.COUNT
  else if k = 3 then XBC_CNT_TWO.COUNT else XBC_CNT_QUAD.COUNT
/-- Count an encoded tile (R294). -/
def Core.countTile (s : Core) (kind err : Nat) : Core :=
  let s := if kind = 0 then s else s.inc (xbcCounter kind)
  if err > s.rd XBC_MAXERR.ERR then s.wr XBC_MAXERR.ERR err else s

/-- Store whole tiles from the front of `bs`, the first being tile number `i` of the stream; the leftover bytes. -/
def storeTiles (jb : JobBar) : Nat → Nat → Bytes → Field → Bytes × Field
  | 0, _, bs, f => (bs, f)
  | fuel + 1, i, bs, f =>
    if bs.length < 16 then (bs, f)
    else
      let (tb, kind, err) := tileEnc jb.code (bs.take 16)
      let t := tilesOf jb.width
      let f := { core := f.core.countTile kind err, dram := f.dram.write (jb.tileAddr (i / t) (i % t)) tb }
      storeTiles jb fuel (i + 1) (bs.drop 16) f

/-- The DRAM requests of storing `n` tiles from tile number `i` of the stream on, band by band. -/
def Core.tileReqs (s : Core) (jb : JobBar) (i n : Nat) : List (Nat × List DramReq) :=
  let t := tilesOf jb.width
  (List.range (if n = 0 then 0 else (i + n - 1) / t - i / t + 1)).flatMap fun k =>
    let band := i / t + k
    let lo := if k = 0 then i % t else 0
    let hi := min t (i + n - band * t)
    s.reqs true 2 (jb.tileAddr band lo) ((hi - lo) * tileSize jb.code)

/-- The bands that bytes `[a, a + n)` of a stream touch: first and count. -/
def bandSpan (width a n : Nat) : Nat × Nat :=
  if n = 0 then (0, 0) else (a / bandBytes width, (a + n - 1) / bandBytes width - a / bandBytes width + 1)

/-! ### Errors (R274 to R278) -/

/-- Raise a Skelre error: its event and counters (R274, R293). -/
def Core.skError (s : Core) (code job bar src off : Nat) : Core :=
  let s := (s.inc SKD_ERR_CNT.COUNT).wr SKD_STATUS.LAST_ERR (code % 256)
  s.emit code (job + at_ 4 bar + at_ 5 src + at_ 8 off)

/-- The job becomes READY by itself once every band of every loaded bar is VALID and its ring, if it has streamed bars,
is open (R496). -/
def Core.readyIfLoaded (s : Core) (id : Nat) : Core :=
  match s.job? id with
  | none => s
  | some j =>
    let full (e : Nat × JobBar) : Bool :=
      j.streamMask.testBit e.1 || (List.range e.2.nBands).all fun n => e.2.band n == 2
    if j.state = 1 ∧ j.bars.all full ∧ (j.streamMask = 0 ∨ j.ring.isSome) then s.setJobState id 2 else s

/-- The staging of an ended load is freed and its command completes: at once where its descriptor has all its bytes, else when
that closes, its remaining bytes being discarded (R251). -/
def Core.closeLoad (s : Core) (ld : Load) (rep : Reply) : Core :=
  if s.ely.descs.any fun d => d.ref == ld.ref && d.region == some ld.staging && decide (d.got.length < d.len) then
    s.endDescs rep (· == ld.ref)
  else
    let s := { s with ely := { s.ely with descs := s.ely.descs.filter fun d => d.region != some ld.staging } }
    (s.freeRegions [ld.staging]).closeCmd ld.ref rep
/-- End a load: bands it held go back to NOT_LOADED unless it succeeded, when its write group has taken effect, and its command
ends (R251, R253). -/
def Core.endLoad (s : Core) (ld : Load) (rep : Reply) : Core :=
  let s := { s with jobs := { s.jobs with loads := dropFirst (· == ld) s.jobs.loads } }
  let s := match rep with
    | .ok _ => s.logGroup ld.ref.tag ld.ref.q
    | _ => s.modJob ld.job fun j => j.modBar ld.bar fun b =>
        (List.range ld.count).foldl (fun b i =>
          if b.band (ld.first + i) == 0 then b else b.setBand (ld.first + i) 0) b
  (s.closeLoad ld rep).readyIfLoaded ld.job
/-- Bytes of a load have landed in its staging area (R250). -/
def Core.loadGot (s : Core) (ref : CmdRef) (got : Bytes) : Core :=
  { s with jobs := { s.jobs with loads := mapIf (·.ref == ref) (fun ld => { ld with data := got }) s.jobs.loads } }

/-- A load fails with a Skelre error (R253, R275). -/
def Core.failLoad (s : Core) (ld : Load) (code : Nat) : Core :=
  (s.skError code ld.job ld.bar 0 ld.pos).endLoad ld (.err 0x12 0x0007 0xFFFF (some code))

/-- Replace a load in the list. -/
def Core.setLoad (s : Core) (old new : Load) : Core :=
  { s with jobs := { s.jobs with loads := mapIf (· == old) (fun _ => new) s.jobs.loads } }

/-! ### Which work the decoder takes (R272) -/

/-- The jobs whose rings the decoder serves, in its order. -/
def Core.ringJobs (s : Core) : List Job :=
  let st (n : Nat) := s.jobs.jobs.filter fun j => j.state == n && (match j.ring with | some r => !r.dead | none => false)
  st 4 ++ st 5 ++ st 3
/-- Is the next unit of a ring a stream header? -/
def ringHeaderNext (r : Ring) : Bool := byteAt r.bytes 0 == 0x53
/-- Is the ring's next unit whole in the ring (R256)? A block whose header fails R274 is taken with the header alone (DESIGN
CHOICE: log entry 141). -/
def ringUnitReady (r : Ring) : Bool :=
  if r.bytes = [] then false
  else if ringHeaderNext r then r.bytes.length ≥ 16
  else r.bytes.length ≥ 12 && (r.bytes.length ≥ skBlockSize (skBlock r.bytes) ||
    (skBlockErr (skBlock r.bytes) (skBlock r.bytes).bar).isSome)

/-- Take bytes from a ring. -/
def Ring.take (r : Ring) (n : Nat) : Ring := { r with bytes := r.bytes.drop n, taken := r.taken + n }

/-- The parts of the ring that hold the `n` bytes at its front: address and length. -/
def Ring.parts (r : Ring) (n : Nat) : List (Nat × Nat) :=
  let a := r.taken % r.size
  [(r.base + a, min n (r.size - a)), (r.base, a + n - r.size)]
/-- The decoder reads the `n` bytes at the front of a ring (R292). -/
def Core.ringRead (s : Core) (m : Dram) (r : Ring) (n : Nat) : Core :=
  (r.parts n).foldl (fun s p => s.reads m 2 p.1 p.2) s
/-- Does such a read wait for a channel that retrains (R530)? -/
def Core.ringStalls (s : Core) (r : Ring) (n : Nat) : Bool := (r.parts n).any fun p => s.stalls p.1 p.2
/-- Do requests go to a channel that retrains? -/
def Core.anyStalls (s : Core) (rs : List (Nat × List DramReq)) : Bool :=
  rs.any fun p => p.2 != [] && s.rd MEMC_STATUS.STATE p.1 == 3

/-- A ring dies (R277). The ring offset of the failing point counts the bytes taken since the ring opened (DESIGN CHOICE: log entry
172). -/
def Core.killRing (s : Core) (id : Nat) : Core :=
  match s.job? id |>.bind (·.ring) with
  | none => s
  | some r =>
    let s := s.modJob id fun j => { j with ring := some { r with dead := true, bytes := [] } }
    (s.refreshRing.wr SKD_STATUS.RING_DEAD 1).emit 0x0508 (id + at_ 8 r.taken)

/-- Set a ring. -/
def Core.setRing (s : Core) (id : Nat) (r : Ring) : Core := s.modJob id fun j => { j with ring := some r }

/-! ### Stream headers (R252, R258) -/

/-- A fresh decoder state for a stream. -/
def skStart (h : SkHeader) : SkStream := ⟨h.dpi, h.width, h.lines, 0, [], false, [], false, 16⟩

/-- The header of the load in front, once it has landed. -/
def Core.loadHeader (s : Core) (m : Dram) (ld : Load) : Core :=
  match s.job? ld.job |>.bind (·.bar? ld.bar) with
  | none => s
  | some jb =>
    if ld.data.length < 16 then if ld.data.length < ld.len then s else s.failLoad ld 0x0506
    else
      let s := s.reads m 2 ld.staging 16
      match skHeader ld.data false with
      | none => s.failLoad ld 0x0507
      | some h =>
        if h.bar ≠ ld.bar ∨ h.dpi ≠ jb.dpi ∨ h.width ≠ jb.width then s.failLoad ld 0x0507
        else
          let first := ld.offset / 4; let cnt := h.lines / 4
          if (List.range cnt).any fun i => jb.band (first + i) != 0 then
            s.endLoad ld (wrongState 0x0014)
          else if ld.offset + h.lines > jb.planeLines then s.failLoad ld 0x0503
          else
            let s := s.modJob ld.job fun j => j.modBar ld.bar fun b => b.setBands first cnt 1
            s.setLoad ld { ld with pos := 16, stream := some (skStart h), first := first, count := cnt }

/-- The header at the front of a ring (R256, R258, R276). A second one for a bar begins its stream anew (DESIGN CHOICE: log entry
141). -/
def Core.ringHeader (s : Core) (m : Dram) (j : Job) (r : Ring) : Core :=
  let s := s.ringRead m r 16
  let bad := (s.skError 0x0507 j.id (byteAt r.bytes 6) 1 0).killRing j.id
  match skHeader r.bytes true with
  | none => bad
  | some h =>
    match j.bar? h.bar with
    | none => bad
    | some jb =>
      if !r.barMask.testBit h.bar ∨ h.dpi ≠ jb.dpi ∨ h.width ≠ jb.width then bad
      else
        let s := s.setRing j.id (r.take 16)
        (s.modJob j.id fun j => j.modBar h.bar fun b => { b with stream := some (skStart h) }).refreshRing

/-! ### Blocks (R256 to R278) -/

/-- Decode the next block of the load in front. -/
def loadBlock (f : Field) (ld : Load) (histBad : Bool) : Field :=
  let s := f.core
  match ld.stream, s.job? ld.job |>.bind (·.bar? ld.bar) with
  | some st, some jb =>
    let rest := ld.data.drop ld.pos
    let fail (code : Nat) : Field := { f with core := s.failLoad ld code }
    let more : Bool := decide (ld.data.length < ld.len)
    if rest.length < 12 then if more then f else fail 0x0506
    else
      let b := skBlock rest
      match skBlockErr b ld.bar with
      | some e => fail e
      | none =>
        let size := skBlockSize b
        let i := ld.first * tilesOf st.width + st.total / 16
        let stores := s.tileReqs jb i ((st.tile.length + b.outLen) / 16)
        if b.btype = 0xFF then
          if st.total ≠ streamBytes st.width st.lines then fail 0x0506
          else if rest.length > 12 || more then fail 0x0503
          else { f with core := (s.reads f.dram 2 (ld.staging + ld.pos) 12).endLoad ld (.ok 0) }
        else if st.total + b.outLen > streamBytes st.width st.lines then fail 0x0503
        else if rest.length < size then if more then f else fail 0x0506
        else if s.stalls (ld.staging + ld.pos) size || s.anyStalls stores then f
        else
          let o := skPayload b.btype b.outLen (bandBytes st.width) st.total ((rest.drop 12).take b.inLen) st.hist
          let err := if s.bad f.dram (ld.staging + ld.pos) size || histBad then some 0x0505 else o.err
          let s := s.reads f.dram 2 (ld.staging + ld.pos) size
          let fail (code : Nat) : Field := { f with core := s.failLoad ld code }
          match err with
          | some e => fail e
          | none =>
            let out := (o.hist.take b.outLen).reverse
            if crc32c out ≠ leAt rest (12 + b.inLen) 4 then fail 0x0505
            else
              let s := (s.inc SKD_BLOCK_CNT.COUNT).add64 SKD_BYTES_LO.BYTES SKD_BYTES_HI.BYTES 0 b.outLen
              let s := s.wrs [(SKD_STATUS.SOURCE, 0), (SKD_STATUS.BAR, ld.bar)]
              let s := s.requests stores
              let (left, f) := storeTiles jb (b.outLen / 16 + 1) i (st.tile ++ out) { f with core := s }
              let total := st.total + b.outLen
              let done := total / bandBytes st.width - st.total / bandBytes st.width
              let n0 := ld.first + st.total / bandBytes st.width
              let st' := { st with total := total, hist := o.hist.take histMax, tile := left }
              let s := f.core.modJob ld.job fun j => j.modBar ld.bar fun x => x.setBands n0 done 2
              { f with core := s.setLoad ld { ld with pos := ld.pos + size, stream := some st' } }
  | _, _ => f

/-- Finish the bands a ring block wrote: each completed band is VALID, or POISONED where a block that wrote into it
failed (R247, R276). -/
def Core.ringBands (s : Core) (id b a n : Nat) (bad : Bool) : Core :=
  match s.job? id |>.bind (·.bar? b) with
  | none => s
  | some jb =>
    match jb.stream with
    | none => s
    | some st =>
      let w := bandBytes st.width
      let (first, cnt) := bandSpan st.width a n
      (List.range cnt).foldl (fun s i =>
        let band := first + i
        let whole : Bool := (band + 1) * w ≤ a + n
        let poison : Bool := bad || (i == 0 && st.bandBad)
        let nb := jb.nBands
        let s := s.modJob id fun j => j.modBar b fun x =>
          let x := if band ≥ nb then x.setBand (band - nb) 0 else x
          x.setBand band (if !whole then 1 else if poison then 3 else 2)
        if whole && poison then s.inc SKD_POISON_CNT.COUNT else s) s

/-- The history slot of a bar in a ring (R254): slots in bar order. -/
def slotOf (r : Ring) (b : Nat) : Nat := ((maskBits 8 r.barMask).filter (· < b)).length
/-- The history of a stream swapped in from its slot: bytes of poisoned words read 0 (R522). The byte at stream offset o
lies at o mod 262,144 of the slot. DEDUCED: log entry 14. -/
def swapIn (s : Core) (m : Dram) (slot : Nat) (st : SkStream) : Bytes :=
  if !s.bad m slot 262144 then st.hist
  else (List.range st.hist.length).map fun i =>
    if s.bad m (slot + (st.total - 1 - i) % 262144) 1 then 0#8 else st.hist.getD i 0#8
/-- The history of a stream saved to its slot (R273). -/
def saveHist (m : Dram) (slot : Nat) (st : SkStream) : Dram :=
  let bs := st.hist.reverse
  let a := (st.total - bs.length) % histMax
  let n := min bs.length (histMax - a)
  (m.write (slot + a) (bs.take n)).write slot (bs.drop n)
/-- Does a block of `n` bytes at the front of a ring meet a poisoned word (R522)? -/
def Core.ringPoison (s : Core) (m : Dram) (r : Ring) (n : Nat) : Bool := (r.parts n).any fun p => s.bad m p.1 p.2
/-- The decoder turns to the history of a bar of a ring: the outgoing one is saved to its slot and the incoming one loaded, 256
KiB each (R273); so it does between blocks of two jobs' rings that name one bar, whose histories are two (DESIGN CHOICE: log entry
170). -/
def swapHistory (f : Field) (id : Nat) (r : Ring) (b : Nat) : Field :=
  let s := f.core
  let set := fun (s : Core) => { s with jobs := { s.jobs with history := some (id, b) } }
  match s.jobs.history with
  | none => { f with core := set s }
  | some (id0, b0) =>
    if id0 = id ∧ b0 = b then f
    else
      let slot := r.hist + 262144 * slotOf r b
      let (s, m) : Core × Dram := match (s.job? id0).bind (·.ring), ((s.job? id0).bind (·.bar? b0)).bind (·.stream) with
        | some r0, some st0 =>
          let slot0 := r0.hist + 262144 * slotOf r0 b0
          (s.stores 2 slot0 262144, saveHist f.dram slot0 st0)
        | _, _ => (s, f.dram)
      let s := s.modJob id fun j => j.modBar b fun x => { x with stream := x.stream.map fun st => { st with hist := swapIn s m slot st } }
      { core := (set (s.reads m 2 slot 262144)).inc SKD_SWAP_CNT.COUNT, dram := m }
/-- Output bytes of the block in front of a ring, beginning with tile `i`, that may be written: those of bands up to the first
whose predecessor in the circular buffer has not been fetched (R257). -/
def Core.ringRoom (s : Core) (j : Job) (b : Nat) (jb : JobBar) (i n : Nat) : Nat :=
  let w := bandBytes jb.width
  let (first, cnt) := bandSpan jb.width (16 * i) n
  match (List.range cnt).find? fun k =>
      decide (first + k ≥ jb.nBands ∧ s.fetchLine j b < 4 * (first + k - jb.nBands) + 4) with
  | some k => (first + k) * w - 16 * i
  | none => n
/-- Bands that a block in progress has written into are LOADING, and those which they replace are gone. -/
def Core.ringLoading (s : Core) (id b a n : Nat) (jb : JobBar) : Core :=
  let (first, cnt) := bandSpan jb.width a n
  (List.range cnt).foldl (fun s k => s.modJob id fun j => j.modBar b fun x =>
    let x := if first + k ≥ jb.nBands then x.setBand (first + k - jb.nBands) 0 else x
    x.setBand (first + k) 1) s
/-- The END block of a stream in a ring (R274, R278). -/
def ringEnd (s : Core) (m : Dram) (j : Job) (r : Ring) (st : SkStream) (b : SkBlock) : Core :=
  let s := s.ringRead m r 12
  let s := s.setRing j.id (r.take 12)
  let s := s.modJob j.id fun j => j.modBar b.bar fun x => { x with stream := some { st with ended := true, off := st.off + 12 } }
  let short : Bool := st.lines != 0 && st.total < streamBytes st.width st.lines
  let s := if short then s.skError 0x0506 j.id b.bar 1 st.off else s
  (s.emit 0x0509 (j.id + at_ 4 b.bar + at_ 8 (st.total / bandBytes st.width * 4))).refreshRing
/-- Decode the block in front of a ring into its bar's plane. A band is written only once the band it replaces has been fetched;
until then the block stays in front, its bar stalled, and the rest of its output is written later (R257). While it does, the one
decoder does no other work (DESIGN CHOICE: log entry 141). -/
def ringWrite (f : Field) (j : Job) (r : Ring) (jb : JobBar) (st : SkStream) (b : SkBlock) (spoilt : Bool) : Field :=
  let s := f.core
  let size := skBlockSize b
  let o := skPayload b.btype b.outLen (bandBytes st.width) st.total ((r.bytes.drop 12).take b.inLen) st.hist
  let hist := List.replicate (b.outLen - o.produced) 0#8 ++ o.hist
  let out := (hist.take b.outLen).reverse
  let i := st.total / 16
  let all := st.tile ++ out
  let room := s.ringRoom j b.bar jb i all.length
  let k := i + r.wrote / 16
  let part := (all.take room).drop r.wrote
  let s := if r.busy then s else s.ringRead f.dram r size
  let s := s.requests (s.tileReqs jb k (part.length / 16))
  let (left, f) := storeTiles jb (b.outLen / 16 + 1) k part { f with core := s }
  if room < all.length then
    let s := f.core.ringLoading j.id b.bar (16 * k) part.length jb
    let s := s.setRing j.id { r with busy := true, wrote := max r.wrote room, spoilt := spoilt }
    { f with core := ((s.wr SKD_AHEAD.STALL 1 b.bar).wr SKD_STATUS.BUSY 1).refreshAhead b.bar }
  else
    let s := (f.core.wr SKD_AHEAD.STALL 0 b.bar).wr SKD_STATUS.BUSY 0
    let crcBad : Bool := o.err.isNone && (crc32c out != leAt r.bytes (12 + b.inLen) 4 || spoilt)
    let err := if crcBad then some 0x0505 else o.err
    let s := match err with
      | some e => s.skError e j.id b.bar 1 st.off
      | none => (s.inc SKD_BLOCK_CNT.COUNT).add64 SKD_BYTES_LO.BYTES SKD_BYTES_HI.BYTES 0 b.outLen
    let s := s.ringBands j.id b.bar st.total b.outLen err.isSome
    let total := st.total + b.outLen
    let carry : Bool := err.isSome || (st.bandBad && total / bandBytes st.width == st.total / bandBytes st.width)
    let st' := { st with total := total, hist := hist.take histMax, tile := left, off := st.off + size,
                         bandBad := carry && total % bandBytes st.width != 0 }
    let s := s.modJob j.id fun j => j.modBar b.bar fun x => { x with stream := some st' }
    let s := s.setRing j.id { r.take size with busy := false, wrote := 0, spoilt := false }
    { f with core := (s.refreshRing).refreshAhead b.bar }
/-- Decode the next block of a ring. A block of a bar whose END block has come is SK_BLOCK_TYPE, and the stream offset is 0 for a
bar that has no stream header (DESIGN CHOICE: log entry 171). The block waits while a channel that it reads or writes retrains. -/
def ringBlock (f : Field) (j : Job) (r : Ring) (histBad : Bool) : Field :=
  let b := skBlock r.bytes
  let fatal (code off : Nat) (s : Core) : Core := (s.skError code j.id b.bar 1 off).killRing j.id
  match j.bar? b.bar, (j.bar? b.bar).bind (·.stream) with
  | some jb, some st =>
    if !r.barMask.testBit b.bar ∨ st.ended then f.onCore (fatal 0x0507 st.off)
    else
      match skBlockErr b b.bar with
      | some e => f.onCore (fatal e st.off)
      | none =>
        if f.core.ringStalls r (skBlockSize b) || f.core.anyStalls (f.core.tileReqs jb (st.total / 16) ((st.tile.length + b.outLen) / 16)) then f
        else
        let f := (swapHistory f j.id r b.bar).onCore fun s => s.wrs [(SKD_STATUS.SOURCE, 1), (SKD_STATUS.BAR, b.bar)]
        let st := ((f.core.job? j.id).bind fun j => (j.bar? b.bar).bind (·.stream)).getD st
        if b.btype = 0xFF then f.onCore fun s => ringEnd s f.dram j r st b
        else if st.lines ≠ 0 ∧ st.total + b.outLen > streamBytes st.width st.lines then f.onCore (fatal 0x0503 st.off)
        else ringWrite f j r jb st b (r.spoilt || f.core.ringPoison f.dram r (skBlockSize b) || histBad)
  | _, _ => f.onCore (fatal 0x0507 0)

/-- The ring unit in front of the decoder: the block in progress, else the first whole unit in the order of R272. -/
def Core.nextUnit (s : Core) : Option (Job × Ring) :=
  let rings := s.ringJobs.filterMap fun j => j.ring.map fun r => (j, r)
  (rings.find? (·.2.busy)) <|> (rings.find? fun p => ringUnitReady p.2)
/-- SKELRE_STREAM_HEADER: the header in front of the decoder is read (R252, R258, R272). Where the next unit is no
header, nothing happens. -/
def doSkelreStreamHeader (f : Field) : Field :=
  f.onCore fun s =>
    match s.nextUnit with
    | some (j, r) => if !r.busy && ringHeaderNext r && !s.ringStalls r 16 then s.ringHeader f.dram j r else s
    | none =>
      match s.jobs.loads with
      | [] => s
      | ld :: _ => if ld.stream.isNone && !s.stalls ld.staging 16 then s.loadHeader f.dram ld else s

/-- SKELRE_BLOCK_DECODE: the block in front of the decoder is decoded, checked and encoded (R256 to R278). Where the next
unit is a header, nothing happens. `histBad` is a word of the history window that it reads with bad parity (R579). -/
def doSkelreBlockDecode (histBad : Option Nat) (f : Field) : Field :=
  let bad := fun (f : Field) => match histBad with | some w => f.onCore fun s => s.sramParity 5 w | none => f
  match f.core.nextUnit with
  | some (j, r) => if !r.busy && ringHeaderNext r then f else ringBlock (bad f) j r histBad.isSome
  | none =>
    match f.core.jobs.loads with
    | [] => f
    | ld :: _ => if ld.stream.isNone then f else loadBlock (bad f) ld histBad.isSome

/-! ### JOB_LOAD_DATA and JOB_STREAM_OPEN (R249 to R255) -/

/-- The data of an append has landed: appends join the unread bytes in the order in which they started, each once those before it
have. -/
def Ring.settle (r : Ring) : List (CmdRef × Nat × Option Bytes) → Ring
  | (_, _, some d) :: l => { r with bytes := r.bytes ++ d }.settle l
  | l => { r with segs := l }
/-- JOB_LOAD_DATA with BAR 0xFF: append to the job's ring (R255). Its space is the ring's from the start of the command on. -/
def ringAppend (c : Call) (id offset : Nat) (f : Field) : Reply × Field :=
  let s := f.core
  match s.job? id with
  | none => (absent 0x10, f)
  | some j =>
    if !j.opened then (badRange 0x14, f)
    else if offset ≠ 0 then (badRange 0x18, f)
    else
      match j.ring with
      | none => (wrongState 0x0014, f)
      | some r =>
        let ref := refOf 0x0201 c
        let mine := r.segs.any (·.1 == ref)
        if !r.dead ∧ !mine ∧ dlenOf c > r.free then (noCapacity (some r.free), f)
        else
          let r := if mine then r else { r with segs := r.segs ++ [(ref, dlenOf c, none)] }
          let (rep, ld) : Reply × Option Bytes := withData c none fun d => (.ok 0, some d)
          match rep, ld with
          | .wait, _ => (.wait, if c.bulk.dmaFail.isSome then f else f.onCore fun s => (s.setRing id r).refreshRing)
          | .ok _, some d =>
            if r.dead then (.ok 0, f.onCore fun s => (s.setRing id { r with segs := r.segs.filter (·.1 != ref) }).refreshRing)
            else
              let before := ((r.segs.takeWhile (·.1 != ref)).map (·.2.1)).sum
              let a := (r.taken + r.bytes.length + before) % r.size
              let n := min d.length (r.size - a)
              let s := s.requests (s.reqs true 2 (r.base + a) n ++ s.reqs true 2 r.base (d.length - n))
              let r := r.settle (mapIf (·.1 == ref) (fun e => (e.1, e.2.1, some d)) r.segs)
              (.ok 0, ⟨(s.setRing id r).refreshRing, (f.dram.heal (r.base + a) n).heal r.base (d.length - n)⟩)
          | rep, _ => (rep, f.onCore fun s => (s.setRing id { r with segs := r.segs.filter (·.1 != ref) }).refreshRing)

/-- JOB_LOAD_DATA with BAR 0-7: one complete stream into a plane (R249, R250). The staging area is taken as the command starts,
and its data is decoded as it lands. -/
def loadData (c : Call) (id bar offset : Nat) (f : Field) : Reply × Field :=
  let s := f.core
  match s.job? id with
  | none => (absent 0x10, f)
  | some j =>
    match j.bar? bar with
    | none => (badRange 0x14, f)
    | some jb =>
      if offset % 4 ≠ 0 ∨ offset ≥ jb.planeLines then (badRange 0x18, f)
      else
        match s.allocJob (dlenOf c) with
        | none => (noCapacity (some s.jobFree), f)
        | some (base, s') =>
          if s.jobFree < dlenOf c then (noCapacity (some s.jobFree), f)
          else if j.state ≠ 1 then (wrongState 0x0014, f)
          else
            let ref := refOf 0x0201 c
            let d := c.bulk.data.take (dlenOf c)
            let ld : Load := ⟨ref, id, bar, offset, base, dlenOf c, d, 0, none, 0, 0⟩
            let s' := { s' with jobs := { s'.jobs with loads := s'.jobs.loads ++ [ld] } }
            let s' := s'.stores 2 base d.length
            match c.bulk.dmaFail with
            | some _ => (.wait, f)
            | none =>
              (.later, ⟨if d.length < dlenOf c then s'.openDesc ref (dlenOf c) d none (some base) else s'.openCmd ref,
                f.dram.heal base (dlenOf c)⟩)

/-- JOB_STREAM_OPEN (R254). STREAM_MASK of the descriptor says which bars are fetched as streamed, BAR_MASK for which of them the
ring takes blocks (DESIGN CHOICE: log entry 173). -/
def streamOpen (id mask ringBytes : Nat) (s : Core) : Reply × Core :=
  match s.job? id with
  | none => (absent 0x10, s)
  | some j =>
    if mask = 0 ∨ (maskBits 8 mask).any (fun b => !j.barMask.testBit b) then (badRange 0x14, s)
    else if ringBytes % 4096 ≠ 0 ∨ ringBytes < 8388608 ∨ ringBytes > 1073741824 then (badRange 0x18, s)
    else
      let need := ringBytes + 262144 * (maskBits 8 mask).length
      if s.jobFree < need then (noCapacity (some s.jobFree), s)
      else
        match s.allocJob ringBytes with
        | none => (noCapacity (some s.jobFree), s)
        | some (base, s1) =>
          match s1.allocJob (262144 * (maskBits 8 mask).length) with
          | none => (noCapacity (some s.jobFree), s)
          | some (hist, s2) =>
            if j.state ≠ 1 ∨ j.ring.isSome then (wrongState 0x0014, s)
            else
              let s := (s2.setRing id ⟨base, ringBytes, hist, [], 0, false, mask, [], false, 0, false⟩).modJob id fun j =>
                { j with opened := true }
              (.ok 0, (s.readyIfLoaded id).refreshRing)

end Sys2Proof.Machine
end

