-- ==== Sys2Proof/Machine/Screen.lean ====
section
/-! DEFINITION. The stripe engines: band fetch, geometry, tone, redistribution, column-diffusion screening, packing and
staging (spec/07_nozzle_path_and_screening.md R302 to R333; measuring strips of R469 to R471). -/

namespace Sys2Proof.Machine

/-! ### Settings of a bar (R328, R336, R472) -/

/-- The screening settings a line uses: ERR_CLAMP, LEAK, AMP, XOFF, YOFF, W1, W2, WEAK_KEEP, the level tables V and TH,
and the alternate map. -/
structure ScrSet where
  clamp : Nat
  leak : Nat
  amp : Nat
  xoff : Nat
  yoff : Nat
  w1 : Nat
  w2 : Nat
  keep : Nat
  v : List Nat
  th : List Nat
  alt : Nat
  deriving DecidableEq, Repr

/-- The screening settings from the eleven words of R492. -/
def scrOf (w : List Nat) : ScrSet :=
  let g (i : Nat) := w.getD i 0
  { clamp := bits (g 0) 3 0, leak := bits (g 0) 10 4, amp := bits (g 0) 23 16, xoff := bits (g 1) 7 0,
    yoff := bits (g 1) 15 8, w1 := bits (g 2) 7 0, w2 := bits (g 2) 15 8, keep := bits (g 2) 23 16,
    v := 0 :: (List.range 7).map fun i => bits (g (3 + i)) 11 0,
    th := 0 :: (List.range 7).map fun i => bits (g (3 + i)) 27 16, alt := bits (g 10) 20 0 }
/-- SWITCH_CLR of a set (R326). -/
def JobSet.switchClr (s : JobSet) : Bool := bit (s.scr.getD 0 0) 12

/-- What a measuring strip puts on a job line (R470): nothing, white or a patch (its contone), or ladder row `r` of a
strip with even or odd number, at a level. -/
inductive Strip where
  | none | patch (c : Nat) | row (r : Nat) (even : Bool) (level : Nat)
  deriving DecidableEq, Repr

/-- Where a job line lies in the strips of a set (R469, R470): strip number, line within the strip, ladder or tone, strip
length; none outside every strip. -/
def stripPlace (set : JobSet) (l : Nat) : Option (Nat × Nat × Bool × Nat) :=
  let g (i : Nat) := set.strip.getD i 0
  let rep := bits (g 0) 23 0; let start := bits (g 1) 23 0
  if rep = 0 ∨ l < start ∨ set.cycle = 0 then none
  else
    let i := (l - start) / rep; let rel := (l - start) % rep
    if i % set.cycle ≠ set.phase then none
    else
      let n := i / set.cycle
      let lad := bit (g 3) (n % 16)
      let len := bits (g 2) 7 0 + if lad then 16 * bits (g 2) 15 8 else 4 * bits (g 2) 23 16
      if rel < len then some (n, rel, lad, len) else none
/-- What a strip puts on a job line that lies in it (R470). -/
def stripAt (set : JobSet) (n rel : Nat) (lad : Bool) : Strip :=
  let g (i : Nat) := set.strip.getD i 0
  let white := bits (g 2) 7 0; let row := bits (g 2) 15 8; let pat := bits (g 2) 23 16
  if rel < white then .patch 0
  else if lad then .row ((rel - white) / row) (n % 2 == 0) (bits (g 3) 18 16)
  else .patch (bits (g 4) (8 * ((rel - white) / pat) + 7) (8 * ((rel - white) / pat)))

/-! ### One column (R306, R309, R317 to R323, R329) -/

/-- The contone value of a position (R306). -/
def contone (interp : Bool) (pix : Int → Nat) (x : Int) : Nat :=
  let xi := sar x 16; let f := (sar x 8 % 256).toNat
  if interp then pix xi * (256 - f) + pix (xi + 1) * f else pix xi * 256
/-- The tone value of a contone value on a curve (R309). -/
def toneValue (t : Nat → Nat) (c : Nat) : Nat :=
  let ti := c / 256; let tf := c % 256
  let hi := t (if ti < 255 then ti + 1 else 255)
  ((t ti : Int) + sar (((hi : Int) - t ti) * tf + 128) 8).toNat
/-- SHARE as a weight of 256 (R317). -/
def shareW (share : Nat) : Nat := share + share / 128
/-- What a column gives away of its tone value (R317). -/
def giveOf (keep : Nat) (dead weak : Bool) (t : Nat) : Nat := if dead then t else if weak then t - t * keep / 256 else 0
/-- The demand of a firing column (R319). -/
def demandOf (a gain : Nat) (off : Int) : Nat :=
  (clampI 0 4095 (((a * gain + 512) / 1024 : Nat) + 4 * off)).toNat
/-- The level a value reaches (R323). -/
def levelOf (th : List Nat) (lmax : Nat) (v t : Int) : Nat :=
  (List.range lmax).foldl (fun lev i => if v ≥ (th.getD (i + 1) 0 : Int) + t then i + 1 else lev) 0
/-- The threshold modulation of a mask value (R323). -/
def maskTh (m amp : Nat) : Int := sar (((m : Int) - 128) * amp) 5
/-- The error a column takes from itself and its neighbours; `none` for a neighbour that is not available (R323). -/
def leakErr (leak : Nat) (el : Option Int) (e : Int) (er : Option Int) : Int :=
  let part (x : Option Int) : Int := match x with | some y => leak * y | none => 0
  let w (x : Option Int) : Int := match x with | some _ => leak | none => 0
  sar (e * (256 - w el - w er) + part el + part er + 128) 8
/-- Screen one column: level, the error to store and whether it was clamped (R323). -/
def screenCol (set : ScrSet) (lmax d : Nat) (u th : Int) : Nat × Int × Bool :=
  let v := (d : Int) + u
  let lev := levelOf set.th lmax v th
  let e := v - set.v.getD lev 0
  let lim : Int := 2 ^ set.clamp - 1
  (lev, clampI (-lim) lim e, decide (e > lim ∨ e < -lim))
/-- The weights one side of a give sends to the columns one and two away, and the weight dropped (R318). -/
def sideWeights (w1 w2 : Nat) (near far : Bool) : Nat × Nat × Nat :=
  let moved := if near then 0 else w1
  (if near then w1 else 0, if far then w2 + moved else 0, if far then 0 else w2 + moved)
/-- The mask index of job line `l` and column `k`, `r` rows on (R323, R329). -/
def maskIx (set : ScrSet) (l k r : Nat) : Nat := (l + set.yoff + r) % 256 * 256 + (k + set.xoff) % 256
/-- A level under the alternate map (R397). -/
def altLevel (alt lmax lev : Nat) : Nat := if lev = 0 then 0 else min lmax (bits alt (3 * lev - 1) (3 * lev - 3))

/-! ### Between two lines (R310, R313, R315, R316, R326) -/

/-- The link whose segment uses column k of bar b. -/
def Core.linkOfKey (s : Core) (key : Nat) : Option Nat :=
  (s.linksOf (key / 131072)).find? fun l => !(s.headsAt l (key % 131072)).isEmpty
/-- Clear the accumulators of a link's columns. -/
def Core.clearLinkErr (s : Core) (l : Nat) : Core :=
  s.clearErr fun key => s.linkOfKey key == some l
/-- Complete a NOZZLE_MAP_LOAD whose last head has committed (R315). -/
def Core.stageDone (s : Core) (ref : Option CmdRef) : Core :=
  match ref with
  | none => s
  | some r => if s.press.stages.any fun g => g.ref == some r then s else s.closeCmd r (.ok 0)
/-- The counters and the event of a servo commit (R478, R480). -/
def Core.noteServoCommit (s : Core) (g : NozStage) : Core :=
  let b := s.barOf g.head
  let s := (s.incW CSVB_CNT.COMMITS b).inc CSVB_CNT.DEAD_SET b g.dead
  if g.dead = 0 then s else s.emit 0x0B03 (b + at_ 1 g.head + at_ 2 g.dead)
/-- What a link's shadow bank takes over is read from DRAM at class 1 (R57). Where maps and curves are staged is not stated: the
lowest place of job memory that has room serves (DESIGN CHOICE: log entry 164). -/
def Core.shadowLoad (s : Core) (n : Nat) : Core :=
  match s.allocJob n with
  | some (a, _) => s.fetches 1 a n
  | none => s
/-- Apply the next staged head of a link, a servo curve on the same line, then what the host has written to the same entries since
the link's last line (R315, R316, R480). -/
def Core.applyStage (s : Core) (l : Nat) : Core :=
  let mine (w : Nat × Nat) : Bool := s.linkOfKey w.1 == some l
  let host := s.press.window.filter mine
  let s := { s with press := { s.press with window := s.press.window.filter fun w => !mine w } }
  match s.press.stages.find? (·.link == l) with
  | none => s
  | some g =>
    let s := s.shadowLoad (8 * g.entries.length + if g.curve then 384 else 0)
    let s := { s with press := { s.press with stages := dropFirst (· == g) s.press.stages } }
    let s := s.applyEntries g.entries
    let s := if g.curve then s.toneCommit g.head else s
    let now := host.filter fun w => g.entries.any fun e => e.1 == w.1
    let s := s.applyEntries now
    let s := if g.servo then
        (now.foldl (fun s w => s.inc SCR_HOST_OVER_CNT.COUNT (w.1 / 131072)) s).noteServoCommit g
      else s
    s.stageDone g.ref
/-- The heads of a link that a commit reaches at its next line boundary. -/
def Core.headsDue (s : Core) (l : Nat) : List Nat :=
  (s.headsOn l).filter (fun h => s.rdb HDC_TONE_CTL.PENDING h) ++
    (match s.press.stages.find? (·.link == l) with
    | some g => [g.head]
    | none => [])
/-- Everything that takes effect between two lines of a link; an engine that has no line to screen lets it take effect as well
(DESIGN CHOICE: log entry 165). -/
def Core.lineBoundary (s : Core) (l : Nat) : Core :=
  let s := if s.press.errClr.contains l then
      { s.clearLinkErr l with press := { (s.clearLinkErr l).press with errClr := s.press.errClr.filter (· != l) } }
    else s
  let s := (s.headsOn l).foldl (fun s h => if s.rdb HDC_TONE_CTL.PENDING h then s.toneCommit h else s) s
  s.applyStage l

/-! ### The band (R303, R304, R305) -/

/-- The tiles of a segment's span in the geometry in force (R303). -/
def Core.segSpan (s : Core) (l : Nat) : Int × Int := spanTiles ((s.columns l).map s.colX)
/-- Tile `t` of a band whose stored tiles are `tiles`. -/
def bandTile (code : Nat) (tiles : Bytes) (t : Nat) : Option (List Nat) :=
  tileDec code ((tiles.drop (t * tileSize code)).take (tileSize code))
/-- Fetch a band for a link: its contents, and the words that R290 refuses in its span. A band of a dead ring is marked
POISONED first (R277), one that was decoded before the failing point too (DESIGN CHOICE: log entry 166). -/
def Core.fetchBand (s : Core) (m : Dram) (l b : Nat) (j : Job) (jb : JobBar) (n : Nat) : BandBuf × Core :=
  let dead : Bool := j.streamMask.testBit b && (match j.ring with | some r => r.dead | none => false)
  let s := if dead && jb.band n != 3 then
      (s.modJob j.id fun j => j.modBar b fun x => x.setBand n 3).inc SKD_POISON_CNT.COUNT
    else s
  let tiles := m.read (jb.tileAddr n 0) jb.bandXbc
  let (t0, t1) := s.segSpan l
  let lo := t0.toNat; let hi := min (tilesOf jb.width) (t1 + 1).toNat
  let size := tileSize jb.code
  let valid : Bool := jb.band n == 2 && !dead
  let poison : Bool := s.bad m (jb.tileAddr n lo) ((hi - lo) * size)
  let res := (List.range (hi - lo)).filter fun i => (bandTile jb.code tiles (lo + i)).isNone
  let s := if valid then
      (res.filter fun i => !s.bad m (jb.tileAddr n (lo + i)) size).foldl (fun s i => (s.inc XBC_RESERVED_CNT.COUNT).emit 0x0541
        (b + at_ 4 n + at_ 8 (jb.tileAddr n (lo + i) % 2 ^ 36))) s
    else s
  let s := if valid then s.reads m 0 (jb.tileAddr n lo) ((hi - lo) * size) else s
  let s := s.modJob j.id fun j => j.modBar b fun x => { x with fetched := mset 0 x.fetched l (n + 1) }
  (⟨j.id, n, valid && !poison && res.isEmpty, tiles⟩, s)
/-- Does the fetch of a band wait for a channel that retrains (R530)? -/
def Core.fetchWaits (s : Core) (l b : Nat) (j : Job) (jb : JobBar) (n : Nat) : Bool :=
  !((s.scr l).buf.any fun x => x.job == j.id && x.band == n) && jb.band n == 2 && s.segBar l == b &&
    s.stalls (jb.tileAddr n 0) jb.bandXbc
/-- Have band `n` in the tile buffer of a link, and the next band behind it from the first line of the present one. -/
def Core.loadBands (s : Core) (m : Dram) (l b : Nat) (j : Job) (jb : JobBar) (n : Nat) : BandBuf × Core :=
  let held := (s.scr l).buf.filter fun x => x.job == j.id && (x.band == n || x.band == n + 1)
  let (now, s) := match held.find? (·.band == n) with
    | some x => (x, s)
    | none => s.fetchBand m l b j jb n
  let (more, s) : List BandBuf × Core := match held.find? (·.band == n + 1) with
    | some x => ([x], s)
    | none =>
      if (j.streamMask.testBit b ∨ n + 1 < jb.nBands) ∧ !s.fetchWaits l b j jb (n + 1) then
        let (x, s) := s.fetchBand m l b j jb (n + 1)
        ([x], s)
      else ([], s)
  (now, s.setScr l { s.scr l with buf := now :: more })

/-! ### A line (R323 to R331) -/

/-- What the pipeline knows of a column before screening. -/
structure ColIn where
  col : Col
  key : Nat
  e : Nat
  t : Nat
  masked : Bool
  dead : Bool
  offline : Bool
  give : Nat
  /-- its give goes to an active twin receiver -/
  twin : Bool
  /-- it is a twin receiver -/
  recv : Bool
  deriving DecidableEq, Repr

/-- The active or substituted value of a curve entry (R333). -/
def Core.toneRead (s : Core) (h i : Nat) : Nat :=
  if s.press.toneBad.contains (256 * h + i) then toneNeutral i else s.tone h 0 i
/-- A mask byte as the pipeline reads it (R333). -/
def Core.maskRead (s : Core) (i : Nat) : Nat := if s.press.maskBad.contains i then 128 else s.maskByte i

/-- The columns of a link with tone values and gives (R306, R309, R317). `c` gives the contone value of a column. -/
def Core.colIns (s : Core) (l b : Nat) (set : ScrSet) (c : Col → Nat) : List ColIn :=
  let subs := s.activeSubs
  (s.columns l).map fun col =>
    let key := nozKey b col.k
    let e := mget nozNeutral s.press.nsm key
    let masked := nozMasked e; let dead := nozDead e
    let v := c col
    let ws := shareW (nozShare e)
    let t := match col.hB with
      | none => toneValue (s.toneRead col.hA) v * ws / 256
      | some (hB, _) => (toneValue (s.toneRead col.hA) v * ws + toneValue (s.toneRead hB) v * (256 - ws)) / 256
    { col := col, key := key, e := e, t := t, masked := masked, dead := dead, offline := nozOffline e
      give := giveOf set.keep dead (nozWeak e) t
      twin := dead && subs.any fun u => u.b == b && u.k == col.k
      recv := subs.any fun u => u.tb == b && u.r == col.k }

/-- The gives that reach each column, by column index, and the sides whose dropped weight is not 0 (R318). -/
def redistribute (set : ScrSet) (cols : List ColIn) : SMap Nat × Nat :=
  let ok (k : Int) : Bool := cols.any fun x => (x.col.k : Int) == k && !x.offline && !x.recv
  cols.foldl (fun acc x =>
    if x.give = 0 ∨ x.twin then acc
    else [(-1 : Int), 1].foldl (fun (acc : SMap Nat × Nat) dir =>
      let k1 := (x.col.k : Int) + dir; let k2 := (x.col.k : Int) + 2 * dir
      let (a, b, dropped) := sideWeights set.w1 set.w2 (ok k1) (ok k2)
      let add (m : SMap Nat) (k : Int) (w : Nat) : SMap Nat :=
        if w = 0 then m else mset 0 m k.toNat (mget 0 m k.toNat + x.give * w / 256)
      (add (add acc.1 k1 a) k2 b, acc.2 + b2n (dropped != 0))) acc) ([], 0)

/-- What a column carries after redistribution (R317, R318, R320). -/
def carried (recv : SMap Nat) (x : ColIn) : Nat :=
  let a := (if x.masked then 0 else x.t - x.give) + mget 0 recv x.col.k + (if x.recv then x.t else 0)
  satU 15 a

/-- The result of a column: its two nozzles' levels, its new error and whether that was clamped. -/
structure ColOut where
  col : Col
  key : Nat
  lev : Nat
  toA : Bool
  err : Int
  clamped : Bool
  deriving DecidableEq, Repr

/-- Screen the columns of a link (R319, R323, R324, R329). -/
def Core.screenCols (s : Core) (set : ScrSet) (lmax line : Nat) (cols : List ColIn) : List ColOut × Nat :=
  let (recv, dropped) := redistribute set cols
  let err (k : Int) : Option Int := (cols.find? fun x => (x.col.k : Int) == k && !x.offline).map fun x => nozErr x.e
  (cols.map fun x =>
    if x.offline then ⟨x.col, x.key, 0, true, 0, false⟩
    else
      let d := demandOf (carried recv x) (nozGain x.e) (nozOff x.e)
      let u := leakErr set.leak (err ((x.col.k : Int) - 1)) (nozErr x.e) (err ((x.col.k : Int) + 1))
      let th := maskTh (s.maskRead (maskIx set line x.col.k 0)) set.amp
      let (lev, e, cl) := screenCol set lmax d u th
      let share := nozShare x.e
      let toA := share == 255 || decide (s.maskRead (maskIx set line x.col.k 128) < share)
      ⟨x.col, x.key, lev, toA, e, cl⟩, dropped)

/-- Replace the levels on a ladder row (R471). -/
def ladder (strip : Strip) (lmax : Nat) (offline : Nat → Bool) (o : ColOut) : ColOut :=
  match strip with
  | .row r even level =>
    if o.col.k % 16 = r ∧ !offline o.col.k then { o with lev := if level = 0 then lmax else level, toA := even }
    else { o with lev := 0 }
  | _ => o

/-- The levels of a head's nozzles, as nozzle number and level. -/
def headLevels (h : Nat) (outs : List ColOut) : List (Nat × Nat) :=
  outs.filterMap fun o =>
    if o.col.hA = h then
      match o.col.hB with
      | none => some (o.col.nA, o.lev)
      | some _ => some (o.col.nA, if o.toA then o.lev else 0)
    else
      match o.col.hB with
      | some (g, n) => if g = h then some (n, if o.toA then 0 else o.lev) else none
      | none => none
/-- A head's payload (R330) and its drops (R400). -/
def packHead (nozzles bitsPer : Nat) (levels : List (Nat × Nat)) : Bytes × Nat :=
  (toLE (8 * ceilDiv (nozzles * bitsPer) 64) (levels.foldl (fun a p => a + p.2 * 2 ^ (bitsPer * p.1)) 0),
    (levels.filter fun p => p.2 != 0).length)

/-- Note words found with bad parity while the line is read (R333). -/
def Core.noteParity (s : Core) (b : Nat) (mask : Option Nat) (nsm : List Nat) (tone : List (Nat × Nat)) : Core :=
  let s := nsm.foldl (fun s k =>
    let e := nozWithErr (s.noz b k) 0
    let s := s.setNoz (nozKey b k) (if bit e 46 then e else e + 2 ^ 46)
    (s.inc SCR_PARITY_CNT.NSM).emit 0x0604 (b + at_ 4 k)) s
  let s := if nsm = [] then s else s.rebuildTwins
  let s := tone.foldl (fun s p =>
    let s := if s.press.toneBad.contains (256 * p.1 + p.2) then s
      else { s.inc SCR_PARITY_CNT.TONE with press := { s.press with toneBad := (256 * p.1 + p.2) :: s.press.toneBad } }
    if s.press.toneSaid.contains p.1 then s
    else { s.emit 0x0605 (p.1 + at_ 1 p.2) with press := { s.press with toneSaid := p.1 :: s.press.toneSaid } }) s
  match mask with
  | none => s
  | some i =>
    if s.press.maskBad.contains i then s
    else { (s.inc SCR_PARITY_CNT.MASK).emit 0x0606 i with press := { s.press with maskBad := i :: s.press.maskBad } }

/-- Stage a line on the heads of a link: on those that wait too, where they have a free line (R439). -/
def Core.stageLine (s : Core) (l b : Nat) (job w line : Nat) (pay : Nat → Bytes × Nat) : Core :=
  (s.headsOn l).foldl (fun s h =>
    let x := s.hf h
    let gone : Bool := match x.nextW with
      | some nw => decide (lineDiff w nw < 0)
      | none => false
    if (s.attached h || decide (x.staged.length < 16)) && !gone && s.barOf h == b then
      let (p, n) := pay h
      s.setHf h { x with staged := x.staged ++ [⟨job, w, line, p, n, none, false, s.rd HDC_GEO_SKEW.SKEW h⟩] }
    else s) s

/-- May a strip begin? Only while the job is PRINTING, or about to be, and the bar's servo is not OFF (R469). -/
def Core.stripsOn (s : Core) (j : Job) (b : Nat) : Bool := (j.state == 4 || j.state == 3) && s.rd CSVB_MODE.MODE b != 0
/-- Is this the record of strip `n` of a job on a bar? -/
def stripIs (b id n : Nat) (r : StripRec) : Bool := r.bar == b && r.job == id && r.num == n
/-- A line of a job is screened on a bar: what its strip puts on it, and the strips' records. A strip begins with its first
line and goes on as it began (R486) while its job prints (R469). It is cut where the bar has switched to another job before its end
(R475), and so where its job no longer prints (DEDUCED: log entry 167). -/
def Core.stripFor (s : Core) (b : Nat) (j : Job) (js : JobSet) (w line : Nat) (bad : Bool) (heads : List Nat) : Strip × Core :=
  let ended : Bool := j.state != 4 && j.state != 3
  let cut := fun (l : List StripRec) =>
    mapIf (fun r : StripRec => r.bar == b && (ended || r.job != j.id) && decide (r.upto < r.len)) (fun r => { r with switched := true }) l
  let s := { s with csv := { s.csv with strips := cut s.csv.strips } }
  match stripPlace js line with
  | none => (.none, s)
  | some (n, rel, lad, len) =>
    let have_ := s.csv.strips.any (stripIs b j.id n)
    if ended ∨ (!have_ ∧ (rel ≠ 0 ∨ !s.stripsOn j b)) then (.none, s)
    else
      let s := if have_ then s
        else { s with csv := { s.csv with strips := s.csv.strips ++
          [⟨b, j.id, n, lad, posMod (64 * ((w : Int) - line) + s.jobFrac j.id), line, len, 0, js, false, false, false, false, [], false⟩] } }
      let g (r : StripRec) : StripRec :=
        { r with upto := max r.upto (rel + 1), data := r.data || bad, heads := if rel = 0 then r.heads else r.heads ++ heads }
      (stripAt js n rel lad, { s with csv := { s.csv with strips := mapIf (stripIs b j.id n) g s.csv.strips } })

/-- A level-table entry of the set in use fails parity: it is read as its default until it is rewritten (R579). -/
def Core.lvlParity (s : Core) (b id : Nat) (js : JobSet) : Option (Nat × Nat) → JobSet × Core
  | none => (js, s)
  | some (i, w) =>
    let d := lvlDefault (s.lmax b) (i + 1)
    let js := { js with scr := js.scr.set (3 + i) (d.1 + at_ 2 d.2) }
    (js, (s.sramParity 7 w).modJob id fun j => j.modBar b fun x => { x with set := some js })
/-- LINE_SCREEN: the stripe engine of a link screens its next line, if every attached head of its segment has a free line of staging
(R331) and the line's band does not wait for a channel that retrains (R530). `mask`, `nsm`, `tone` and `lvl` are words it reads with
bad parity. -/
def doLineScreen (l : Nat) (mask : Option Nat) (nsm : List Nat) (tone : List (Nat × Nat)) (lvl : Option (Nat × Nat))
    (m : Dram) (s : Core) : Core :=
  let b := s.segBar l
  if b > 7 then s
  else
    match s.nextLine b (s.scr l).nextW with
    | none => s.lineBoundary l
    | some (w, j, jb, line) =>
      match jb.set with
      | none => s.lineBoundary l
      | some js =>
        let y := line * (if jb.dpi = 0 then 600 else 1200) / s.lpi
        if ((s.headsOn l).any fun h => s.attached h && (s.hf h).staged.length ≥ 16) || s.fetchWaits l b j jb (y / 4) then s
        else
          let due := s.headsDue l
          let (js, s) := s.lvlParity b j.id js lvl
          let s := (s.lineBoundary l).noteParity b mask (nsm.filter fun k => !(s.headsAt l k).isEmpty)
            (tone.filter fun p => p.1 / 8 == l)
          let (buf, s) := s.loadBands m l b j jb (y / 4)
          let s := s.accountData b j.id w (!buf.good)
          let set := scrOf js.scr; let lmax := s.lmax b
          let (strip, s) := s.stripFor b j js w line (!buf.good) due
          let s :=
            if buf.good then
              let pix (x : Int) : Nat :=
                if x < 0 ∨ x ≥ jb.width then 0
                else ((bandTile jb.code buf.tiles (x.toNat / 4)).getD []).getD (4 * (y % 4) + x.toNat % 4) 0
              let interp := s.rdb GEO_CFG.INTERP b
              let c (col : Col) : Nat := match strip with
                | .patch p => 256 * p
                | _ => contone interp pix (s.colX col)
              let cols := s.colIns l b set c
              let (outs, dropped) := s.screenCols set lmax line cols
              let clamps := (outs.filter (·.clamped)).length
              let s := outs.foldl (fun s o => s.setNoz o.key (nozWithErr (mget nozNeutral s.press.nsm o.key) o.err)) s
              let s := if dropped = 0 then s
                else (s.inc SCR_REDIST_DROP.COUNT b dropped).emitSum 0x0601 b dropped fun n => b + at_ 4 n
              let s := if clamps = 0 then s
                else (s.inc SCR_CLAMP_CNT.COUNT b clamps).emitSum 0x0603 b clamps fun n => b + at_ 4 n
              let off (k : Nat) : Bool := nozOffline (s.noz b k)
              let outs := outs.map (ladder strip lmax off)
              let outs := if s.rdb SPGB_FIRE.ALT b && line % 2 == 0 then
                  outs.map fun o => { o with lev := altLevel set.alt lmax o.lev }
                else outs
              s.stageLine l b j.id w line fun h => packHead (s.nozzles h) (s.rd GEO_CFG.DROP_BITS b) (headLevels h outs)
            else
              s.stageLine l b j.id w line fun h => packHead (s.nozzles h) (s.rd GEO_CFG.DROP_BITS b) []
          let s := s.setScr l { s.scr l with nextW := some (lineAdd w 1) }
          if j.streamMask.testBit b then s.refreshAhead b else s

end Sys2Proof.Machine
end

