-- ==== Sys2Proof/Machine/Job.lean ====
section
/-! DEFINITION. Job descriptors, arming, the static speed ceiling and the record of a bar's switch
(spec/12_jobs_and_changeover.md R491 to R500, R503, R504; spec/01_architecture.md R66 to R72). -/

namespace Sys2Proof.Machine

/-! ### The descriptor (R492 to R494) -/

/-- The offset of bar record b. -/
def jdBar (b : Nat) : Nat := 0x40 + 0x20 * b
/-- The offset of screening set b. -/
def jdScr (b : Nat) : Nat := 0x140 + 0x40 * b
/-- The offset of strip set b. -/
def jdCsv (b : Nat) : Nat := 0x340 + 0x20 * b
/-- The CRC of a descriptor over the bytes R492 names. -/
def jobCrc (d : Bytes) : Nat := crc32c (d.take 0x3C ++ (d.take 0x440).drop 0x40)
/-- The bars of a descriptor. -/
def jdBars (d : Bytes) : List Nat := maskBits 8 (byteAt d 8)
/-- The least number of plane lines that job lines 0 to LINES - 1 read (R303, R493); 1 where no description gives an LPI. -/
def planeNeed (lpi dpi lines : Nat) : Nat := (lines - 1) * dpi / lpi + 1
/-- Dots per inch of a DPI code. -/
def dpiOf (c : Nat) : Nat := if c = 0 then 600 else 1200
/-- Check 4 of R494: the first field out of its range. Values a register write would clamp are refused. -/
def jobRanges4 (lpi : Nat) (d : Bytes) : Option Nat :=
  let fl := leAt d 6 2; let lines := leAt d 0xC 4
  let bm := byteAt d 8; let sm := byteAt d 9
  let bar (b : Nat) : List (Nat × Bool) :=
    let o := jdBar b
    let dpi := byteAt d o; let w := leAt d (o + 4) 4; let pl := leAt d (o + 8) 4
    [(o, decide (dpi ≤ 1)), (o + 1, [1, 2, 4].contains (byteAt d (o + 1))),
     (o + 4, decide (1 ≤ w) && decide (w ≤ if dpi = 0 then 51969 else 103937)),
     (o + 8, pl % 4 == 0 && (if sm.testBit b then decide (64 ≤ pl) && decide (pl ≤ 1048576)
       else decide (planeNeed lpi (dpiOf dpi) lines ≤ pl)))]
  let scr (b : Nat) : List (Nat × Bool) :=
    let c := leAt d (jdScr b) 4
    if bit fl 1 then [(jdScr b, decide (10 ≤ bits c 3 0) && decide (bits c 10 4 ≤ 64))] else []
  let csv (b : Nat) : List (Nat × Bool) :=
    if bit fl 2 then [(jdCsv b + 0xC, decide (bits (leAt d (jdCsv b + 0xC) 4) 21 20 ≠ 3)),
      (jdCsv b + 0x14, decide (byteAt d (jdCsv b + 0x14) ≤ 7))] else []
  firstBad ([(8, bm != 0), (9, (maskBits 8 sm).all fun b => bm.testBit b),
    (0xA, !bit fl 2 || (decide (1 ≤ byteAt d 0xA) && decide (byteAt d 0xA ≤ 8))),
    (0xC, lines != 0 || sm == bm)] ++ (jdBars d).flatMap bar ++ (jdBars d).flatMap scr ++ (jdBars d).flatMap csv)
/-- Check 3 of R494: the first reserved bit or byte that is not 0. -/
def jobReserved (d : Bytes) : Option Nat :=
  let fl := leAt d 6 2
  if fl / 8 ≠ 0 then some 6
  else
    let res := [(0xB, 1), (0x18, 36)] ++ (jdBars d).flatMap (fun b => [(jdBar b + 2, 2), (jdBar b + 0xC, 20)]) ++
      (if bit fl 1 then (jdBars d).map fun b => (jdScr b + 44, 20) else []) ++
      (if bit fl 2 then (jdBars d).map fun b => (jdCsv b + 0x15, 11) else [])
    res.findSome? fun p => firstNonZero d p.1 p.2
/-- The checks 2 to 5 of R494 on a landed descriptor. -/
def Core.jobCheck (s : Core) (d : Bytes) : Option Reply :=
  let bad (detail o : Nat) := some (Reply.err 0x12 detail 0xFFFF (some o))
  if leAt d 0 4 ≠ 0x424F4A54 then bad 7 0
  else if leAt d 4 2 ≠ 1 then bad 7 4
  else if leAt d 0x3C 4 ≠ jobCrc d then bad 7 0x3C
  else
    match jobReserved d with
    | some o => bad 8 o
    | none =>
      match jobRanges4 (if s.rdb GEO_PRESS.LOADED then s.lpi else 0) d with
      | some o => bad 7 o
      | none => if (jdBars d).all s.barPresent then none else bad 7 8

/-! ### JOB_DEFINE (R491, R495, R497) -/

/-- Allocate the plane regions of the bars, in bar order (R495). -/
def Core.allocBars (s : Core) (d : Bytes) : List Nat → Option (List (Nat × JobBar) × Core)
  | [] => some ([], s)
  | b :: bs =>
    let o := jdBar b
    let jb : JobBar := { JobBar.none with
      dpi := byteAt d o, code := byteAt d (o + 1), width := leAt d (o + 4) 4, planeLines := leAt d (o + 8) 4 }
    match s.allocJob (jb.nBands * jb.bandXbc) with
    | none => none
    | some (base, s) =>
      match s.allocBars d bs with
      | none => none
      | some (l, s) => some ((b, { jb with base := base }) :: l, s)
/-- Make room for a ninth record: the record of the job that ended first is reused (R497). -/
def Core.dropOldest (s : Core) : Core :=
  if s.jobs.jobs.length < 8 then s
  else
    match s.jobs.jobs.filter (!·.live) with
    | [] => s
    | j :: js =>
      let old := js.foldl (fun m x => if x.endSeq < m.endSeq then x else m) j
      { s with jobs := { s.jobs with jobs := dropFirst (·.id == old.id) s.jobs.jobs } }
/-- No bar has strobed a line of a job that is newly defined, whatever an earlier job of its ID has printed (R401). -/
def Core.unstrobe (s : Core) (id : Nat) : Core :=
  allBars.foldl (fun s b =>
    if (s.bf b).strobedJob = id then s.setBf b { s.bf b with strobedJob := 0 } else s) s
/-- JOB_DEFINE. -/
def jobDefine (c : Call) (id : Nat) (s : Core) : Reply × Core :=
  if id = 0 ∨ id = 0xFFFFFFFF then (badRange 0x10, s)
  else if dlenOf c ≠ 1088 then (.err 0x12 0x0007 0xFFFF (some 1088), s)
  else if s.mem.reform then (busy 0, s)
  else if (s.jobs.jobs.filter (·.live)).length ≥ 8 then (noCapacity none, s)
  else if (s.liveJob? id).isSome then (wrongState 0x0014, s)
  else withData c s fun d =>
    match s.jobCheck d with
    | some r => (r, s)
    | none =>
      match s.allocBars d (jdBars d) with
      | none => (noCapacity (some s.jobFree), s)
      | some (bars, s') =>
        let s' := { s' with jobs := { s'.jobs with jobs := s'.jobs.jobs.filter (·.id != id) } }
        let s' := s'.dropOldest.unstrobe id
        let j : Job := {
          id := id, state := 0, barMask := byteAt d 8, streamMask := byteAt d 9, flags := byteAt d 6
          lines := leAt d 0xC 4, cover := (List.range 8).map fun b => byteAt d (0x10 + b), bars := bars, ceiling := 0
          pos := none, cut := false, aborting := false, struck := none, open_ := 0, defects := [], extra := 0, overflow := false
          overSaid := false, ring := none, endSeq := 0, desc := d, reduced := false, opened := false }
        (.ok 0, ({ s' with jobs := { s'.jobs with jobs := s'.jobs.jobs ++ [j] } } : Core).setJobState id 1)

/-! ### Sets (R499, R500, R328, R472) -/

/-- A register word from its fields. -/
def Core.word (s : Core) (l : List Fld) (n : Nat) : Nat := l.foldl (fun a f => a + s.rd f n * 2 ^ f.lo) 0
/-- The screening set of a bar in the registers, in the order of R492. -/
def Core.scrWords (s : Core) (b : Nat) : List Nat :=
  [s.word [SCR_CFG.ERR_CLAMP, SCR_CFG.LEAK, SCR_CFG.SWITCH_CLR, SCR_CFG.AMP] b,
   s.word [SCR_MASK_OFF.XOFF, SCR_MASK_OFF.YOFF] b, s.word [SCR_REDIST.W1, SCR_REDIST.W2, SCR_REDIST.WEAK_KEEP] b] ++
  ((List.range 7).map fun i => s.word [SCR_LVL.VALUE, SCR_LVL.THRESH] (7 * b + i)) ++ [s.rd SPGB_ALT.MAP b]
/-- The strip set of a bar in the registers, in the order of R492. -/
def Core.csvWords (s : Core) (b : Nat) : List Nat :=
  [s.rd CSVB_REPEAT.REPEAT b, s.rd CSVB_START.START b,
   s.word [CSVB_LAYOUT.WHITE, CSVB_LAYOUT.ROW, CSVB_LAYOUT.PATCH, CSVB_LAYOUT.GUARD] b,
   s.word [CSVB_SEQ.SEQ, CSVB_SEQ.LEVEL, CSVB_SEQ.CHAN] b,
   s.word [CSVB_PATCH.C1, CSVB_PATCH.C2, CSVB_PATCH.C3, CSVB_PATCH.C4] b]
/-- The set a bar of a job would be armed with. -/
def Core.jobSet (s : Core) (j : Job) (b : Nat) : JobSet :=
  let own := bit j.flags 2
  { scr := if bit j.flags 1 then (List.range 11).map fun i => leAt j.desc (jdScr b + 4 * i) 4 else s.scrWords b
    strip := if own then (List.range 5).map fun i => leAt j.desc (jdCsv b + 4 * i) 4 else s.csvWords b
    phase := if own then byteAt j.desc (jdCsv b + 0x14) else s.rd CSVB_MODE.PHASE b
    cycle := if own then byteAt j.desc 0xA else s.rd CSV_CFG.CYCLE }
/-- Is the level table of a set valid up to l_max (R322)? -/
def lvlOk (set : ScrSet) (lmax : Nat) : Bool :=
  (List.range lmax).all fun i =>
    let v := set.v.getD (i + 1) 0; let v0 := if i = 0 then 0 else set.v.getD i 0; let th := set.th.getD (i + 1) 0
    decide (v0 < v) && decide (v0 < th) && decide (th ≤ v)
/-- The length of a tone and of a ladder strip (R470). -/
def stripLens (set : JobSet) : Nat × Nat :=
  let lay := set.strip.getD 2 0
  (bits lay 7 0 + 4 * bits lay 23 16, bits lay 7 0 + 16 * bits lay 15 8)
/-- Does SEQ use tone strips; does it use ladder strips? -/
def seqUses (set : JobSet) : Bool × Bool :=
  let seq := bits (set.strip.getD 3 0) 15 0
  (decide (seq ≠ 0xFFFF), decide (seq ≠ 0))
/-- Are the strip settings of a set valid (R472)? -/
def stripOk (set : JobSet) (lmax : Nat) : Bool :=
  let g (i : Nat) := set.strip.getD i 0
  let rep := bits (g 0) 23 0
  let lay := g 2; let row := bits lay 15 8; let pat := bits lay 23 16; let guard := bits lay 31 24
  let (slT, slL) := stripLens set; let (useT, useL) := seqUses set
  let c (q : Nat) := bits (g 4) (8 * q + 7) (8 * q)
  rep == 0 || (decide (bits (g 1) 23 0 < rep) && (!useT || decide (slT ≤ rep)) && (!useL || decide (slL ≤ rep)) &&
    decide (2 * guard < row) && decide (2 * guard < pat) && decide (4 ≤ row) &&
    decide (0 < c 0 ∧ c 0 < c 1 ∧ c 1 < c 2 ∧ c 2 < c 3) && decide (bits (g 3) 18 16 ≤ lmax) &&
    decide (set.phase < set.cycle))

/-! ### The static ceiling (R66 to R72, R291, R545, R546) -/

/-- The throttle level in force, or requested while a request is pending (R545). -/
def Core.planLevel (s : Core) : Nat := s.rd THM_STATUS.LEVEL + s.rd THM_STATUS.PENDING
/-- Dot capacity of a stripe engine at a level, in Gdot/s (R545). -/
def dotCap (level : Nat) : Nat := if level = 0 then 8 else if level = 1 then 7 else if level = 2 then 6
  else if level = 3 then 4 else 2
/-- The divisor of FCK at a level (R545). -/
def fckDiv (level : Nat) : Nat := if level ≤ 2 then 1 else if level = 3 then 2 else 4
/-- Channels in service. -/
def Core.channels (s : Core) : Nat := (maskBits 4 (s.rd MEM_STATUS.IN_SERVICE)).length
/-- The DRAM limit in bytes per second: 70 % of 25.6 GB/s for each channel in service (R67), and of what the fabric
carries at levels 3 and 4 (R546). -/
def Core.dramLimit (s : Core) (level : Nat) : Nat :=
  let l := 17920000000 * s.channels
  if level = 3 then min l 56000000000 else if level ≥ 4 then min l 28000000000 else l
/-- The admitted class 1 to 3 streams: those of the design case of R67 and of the worked example of R72. DEDUCED: log
entry 15. -/
def admitted : Nat := 24900000000
/-- Stored bytes of a plane line times its dots per inch, over the bars of a job (R66). -/
def Job.readDpi (j : Job) : Nat :=
  j.bars.foldl (fun a e => a + tilesOf e.2.width * tileSize e.2.code / 4 * dpiOf e.2.dpi) 0
/-- The print read of a job at a line rate, in bytes per second (R66). -/
def Core.printRead (s : Core) (j : Job) (hz : Nat) : Nat := j.readDpi * hz / s.lpi
/-- The head and link terms of R71: minimum firing period, stripe and payload, in whole Hz. The throttle level scales the dot
capacity of the stripe engines, and a divided FCK their payload too (R72, R545). -/
def Core.pressTerms (s : Core) (level : Nat) : List Nat :=
  (s.allHeads.filterMap fun h =>
    let p := s.rd HDC_MIN_PERIOD.NS h
    if p = 0 then none else some (10 ^ 9 / p)) ++
  (List.range 24).flatMap fun l =>
    let hs := s.headsOn l
    let n := hs.foldl (fun a h => a + s.nozzles h) 0
    let bitsN := hs.foldl (fun a h => a + s.nozzles h * s.rd GEO_CFG.DROP_BITS (s.barOf h)) 0
    (if n = 0 then [] else [dotCap level * 10 ^ 9 / n]) ++
    (if bitsN = 0 then [] else [23 * 10 ^ 9 / fckDiv level / bitsN])
/-- The DRAM term of a job (R71, R291). -/
def Core.dramTerm (s : Core) (level : Nat) (j : Job) : List Nat :=
  if j.readDpi = 0 then [] else [(s.dramLimit level - admitted) * s.lpi / j.readDpi]
/-- The static ceiling of a job at a throttle level (R71). -/
def Core.ceilingOf (s : Core) (level : Nat) (j : Job) : Nat :=
  (s.pressTerms level ++ s.dramTerm level j).foldl min 160000
/-- The ceiling with no job (R508). -/
def Core.idleCeiling (s : Core) (level : Nat) : Nat :=
  if s.rdb GEO_PRESS.LOADED then (s.pressTerms level).foldl min 160000 else 160000

/-! ### JOB_ARM (R500) -/

/-- Columns of a bar that lie wholly or partly outside the plane at y = 0 (R308). -/
def Core.outside (s : Core) (b : Nat) (jb : JobBar) : Nat :=
  let interp := s.rdb GEO_CFG.INTERP b
  (((s.linksOf b).flatMap s.columns).filter fun col =>
    let x := s.colX col; let xi := sar x 16
    let next : Bool := interp && sar x 8 % 256 != 0
    decide (xi < 0) || decide (xi + b2n next ≥ jb.width)).length
/-- Shadows of a bar in use: jobs that are armed with a set the bar has not switched to (R499, R500). -/
def Core.shadows (s : Core) (b : Nat) : Nat :=
  (s.jobs.jobs.filter fun j => j.live && (match j.bar? b with
    | some jb => jb.set.isSome && s.rd JOBB_ACTIVE.JOB_ID b != j.id
    | none => false)).length
/-- JOB_ARM. -/
def jobArm (id : Nat) (s : Core) : Reply × Core :=
  match s.job? id with
  | none => (absent 0x10, s)
  | some j =>
    let bad (p : Nat → JobSet → Bool) : Option Nat := (j.bars.map (·.1)).find? fun b => !p b (s.jobSet j b)
    if j.state ≠ 2 then (wrongState 0x0014, s)
    else
      match (j.bars.map (·.1)).find? fun b => !s.barPresent b with
      | some b => (.err 0x12 0x000B 0xFFFF (some b), s)
      | none =>
        match bad fun b set => lvlOk (scrOf set.scr) (s.lmax b) with
        | some b => (.err 0x12 0x0007 0xFFFF (some b), s)
        | none =>
          match bad fun b set => stripOk set (s.lmax b) with
          | some b => (.err 0x12 0x0007 0xFFFF (some b), s)
          | none =>
            if j.bars.any fun e => s.shadows e.1 ≥ 3 then (noCapacity none, s)
            else
              let ceil := s.ceilingOf s.planLevel j
              let s' := s.modJob id fun j => { j with
                ceiling := ceil, bars := j.bars.map fun e => (e.1, { e.2 with set := some (s.jobSet j e.1) }) }
              let s' := j.bars.foldl (fun s' e =>
                let n := s.outside e.1 e.2
                let s' := s'.wr GEO_OUTSIDE.COUNT (satU 32 n) e.1
                if n = 0 then s' else s'.emit 0x0607 (id + at_ 4 e.1 + at_ 8 n)) s'
              (.ok ceil, (s'.setJobState id 3).refreshRing)

/-! ### JOB_STATUS (R498) -/

/-- JOB_STATUS. -/
def jobStatus (id : Nat) (s : Core) : Reply × Core :=
  match s.job? id with
  | none => (absent 0x10, s)
  | some j =>
    let mask (p : Nat → Bool) : Nat := (List.range 8).foldl (fun m b => if p b then m + 2 ^ b else m) 0
    (.ok (id + at_ 4 j.state + at_ 5 (mask fun b => s.rd JOBB_ACTIVE.JOB_ID b == id) +
      at_ 6 (mask fun b => match j.bar? b with | some jb => jb.left | none => false) +
      at_ 7 (b2n j.reduced + 2 * b2n j.overflow) + at_ 8 j.defects.length + at_ 12 j.ceiling), s)

/-! ### A bar switches (R503, R504) -/

/-- JOBB_NEXT of every bar: the TO job of its next pending switch (R510). -/
def Core.refreshNext (s : Core) : Core :=
  allBars.foldl (fun s b =>
    s.wr JOBB_NEXT.JOB_ID (((s.jobs.switches.find? fun w => w.waiting.contains b).map (·.dst)).getD 0) b) s
/-- A strip being printed on a bar is cut by a job switch (R475, cause 0x5): `lo` is the first strike of the new job. -/
def Core.cutStrips (s : Core) (b id : Nat) : Core :=
  { s with csv := { s.csv with strips := s.csv.strips.map fun r =>
      let (slT, slL) := stripLens r.set
      let endW := lineAdd (posLine r.start) (r.first + (if r.ladder then slL else slT))
      let cut : Bool := match (s.job? id).bind (·.pos) with
        | some p => decide (lineDiff endW (posLine p) > 0) && decide (lineDiff (posLine p) (lineAdd (posLine r.start) r.first) > 0)
        | none => false
      if r.bar == b && r.job != id && cut then { r with switched := true } else r } }
/-- The switch of bar `b`, fired at ETIME `at'`, is recorded; after the last bar the switch is done (R503, R504). -/
def Core.recordSwitch (s : Core) (b : Nat) (late : Bool) (at' : Nat) : Core :=
  match s.jobs.switches.find? fun w => w.waiting.contains b with
  | none => s
  | some w =>
    let waiting := w.waiting.filter (· != b)
    let w' := { w with waiting := waiting, fired := w.fired ||| 2 ^ b, late := w.late + (if late then 2 ^ b else 0) }
    let s := { s with jobs := { s.jobs with switches := mapIf (·.opId == w.opId) (fun _ => w') s.jobs.switches } }
    let toBar := (s.job? w.dst).bind (·.bar? b)
    let act := if toBar.isSome then w.dst else 0
    let s := (s.wr JOBB_ACTIVE.JOB_ID act b).wr2 JOBB_START_LO.START JOBB_START_HI.START w.pos b
    let set := toBar.bind (·.set) <|> ((s.job? w.src).bind (·.bar? b)).bind (·.set)
    let clr : Bool := match set with | some set => set.switchClr | none => s.rdb SCR_CFG.SWITCH_CLR b
    let s := if clr then s.clearErr fun k => k / 131072 == b else s
    let s := s.cutStrips b w.dst
    let s := (s.headsOfBar b).foldl (fun s h => s.closeRanges h fun r => r.job != w.dst) s
    let s := s.leaveBar w.src b toBar.isSome
    let s := match s.job? w.dst with
      | some j => if toBar.isSome ∧ j.state = 3 then (s.setJobState w.dst 4).fijOnPrint else s
      | none => s
    let s := match s.job? w.dst with
      | some j =>
        if toBar.isSome && s.activeSubs.any (fun u => u.b == b && !j.barMask.testBit u.tb) then
          s.addDefect w.dst ⟨b, true, 7, posLine w.pos, lineAdd (posLine w.pos) ((j.lines : Int) - 1), j.lines⟩
        else s
      | none => s
    let s := s.emit 0x0C02 (w.dst + at_ 4 b + at_ 5 (b2n late) + at_ 8 at')
    let s := if waiting = [] then
        let s := { s with jobs := { s.jobs with switches := s.jobs.switches.filter (·.opId != w.opId) } }
        let s := s.emit 0x0C03 (w.src + at_ 4 w.dst + at_ 8 at')
        let s := s.asyncDone w.opId 0 (w'.late + at_ 4 (at' % 2 ^ 32))
        { s with tck := { s.tck with boundary := true } }
      else s
    (s.refreshNext).refreshRing
/-- A JOB_SWITCH entry of bar `b` fires: its switch is under way, and recorded now, or at the resume where no imago runs (R505). -/
def Core.switchBar (s : Core) (b : Nat) (late : Bool) : Core :=
  if s.imagoDead then
    match s.jobs.switches.find? fun w => w.waiting.contains b && !w.fired.testBit b with
    | none => s
    | some w =>
      let w' := { w with fired := w.fired + 2 ^ b }
      { s with jobs := { s.jobs with
          switches := mapIf (·.opId == w.opId) (fun _ => w') s.jobs.switches, due := s.jobs.due ++ [(b, late, s.etime)] } }
  else s.recordSwitch b late s.etime
/-- The records of the switches that fell due while no imago ran are made at the resume (R505). -/
def Core.recordDue (s : Core) : Core :=
  s.jobs.due.foldl (fun s e => s.recordSwitch e.1 e.2.1 e.2.2) { s with jobs := { s.jobs with due := [] } }

end Sys2Proof.Machine
end

