-- ==== Sys2Proof/Machine/Compare.lean ====
section
/-! DEFINITION. The compare pool, the CO outputs and CAM_TRIG (spec/08_position_channels.md R366 to R378; R456). -/

namespace Sys2Proof.Machine

/-! ### CO outputs and CAM_TRIG (R373, R456) -/

/-- Set the level of output `co`. -/
def Core.coLevel (s : Core) (co : Nat) (on : Bool) : Core :=
  let c := s.pos.cmp
  (s.setCmp { c with levels := setBit c.levels co on }).refreshCo
/-- CO_PULSE_END: the pulse timer of an output runs out (R373), and with it a marker pulse (R402, R407). -/
def doCoPulseEnd (co : Nat) (s : Core) : Core :=
  let t := mget 0 s.pos.cmp.timers co
  if t = 0 then s
  else
    let s := s.reach t
    let c := s.pos.cmp
    (s.setCmp { c with
      timers := mset 0 c.timers co 0
      marker := if co = s.rd SPG_DEFECT_CFG.CO ∧ c.marker ≤ s.etime then 0 else c.marker }).refreshCo.drivePio
/-- Drive CAM_TRIG for `ns`. A rising edge while the camera is RUNNING records the frame start (R456). An edge excuses the
open frames from a short end (R460). -/
def Core.camTrig (s : Core) (ns tag : Nat) : Core :=
  let rising := s.cam.trigEnd ≤ s.etime
  let s := { s with cam := { s.cam with trigEnd := max s.cam.trigEnd (s.etime + ns) } }
  if rising then
    let s := { s with cam := { s.cam with frames := s.cam.frames.map fun e => (e.1, { e.2 with excused := true }) } }
    if s.rd CAM_STATUS.STATE = 5 then
      let s := (s.wr2 CAM_FS_ETIME_LO.ETIME CAM_FS_ETIME_HI.ETIME s.etime).wr CAM_FS_TAG.TAG tag
      { s.emit 0x0A03 (tag + at_ 8 s.etime) with cam := { s.cam with fsWait := true } }
    else s
  else s

/-! ### The pool -/

/-- A host entry: any action but JOB_SWITCH. -/
def CmpEntry.host (e : CmpEntry) : Bool := e.action != 0x11
/-- REVERSE of an entry. -/
def CmpEntry.rev (e : CmpEntry) : Bool := bit e.flags 0
/-- Put a pool in force: PENDING and HOST_FREE follow (R377, R381). -/
def Core.setPool (s : Core) (p : List CmpEntry) : Core :=
  (s.setCmp { s.pos.cmp with pool := p }).wrs
    [(CMP_STATUS.PENDING, p.length), (CMP_STATUS.HOST_FREE, 4032 - (p.filter (·.host)).length)]
/-- Free host entries, less those queued for insertion (R368) and those of commands whose data is on its way (R199). -/
def Core.cmpFree (s : Core) : Nat :=
  4032 - (s.pos.cmp.pool.filter (·.host)).length - s.pos.cmp.queue.foldl (fun a q => a + q.rest.length) 0 -
    s.ely.descs.foldl (fun a d => a + match d.ended, d.cmd with
      | none, some (.cmpAppend _ n _) => n.toNat
      | _, _ => 0) 0
/-- The lowest free slot. -/
def freeSlot (p : List CmpEntry) : Nat := ((List.range 4097).find? fun i => p.all (·.slot != i)).getD 0
/-- An entry leaves the pool as missed (R372, R375, R376). -/
def Core.missEntry (s : Core) (e : CmpEntry) (cause : Nat) : Core :=
  let s := s.setPool (s.pos.cmp.pool.filter (·.slot != e.slot))
  let s := (s.incW CMP_MISSED_CNT.COUNT).wrs
    [(CMP_LAST_MISS.TAG, e.tag), (CMP_LAST_MISS.SOURCE, e.source), (CMP_LAST_MISS.CAUSE, cause)]
  s.emit 0x070E (e.tag + at_ 2 e.source + at_ 3 cause + at_ 8 e.pos)
/-- An entry fires (R367, R370, R377). -/
def Core.fireEntry (s : Core) (e : CmpEntry) (late : Bool) : Core :=
  let s := s.setPool (s.pos.cmp.pool.filter (·.slot != e.slot))
  let s := s.incW CMP_FIRED_CNT.COUNT
  let s := if bit e.flags 1 then s.emit 0x070F (e.tag + at_ 2 e.source + at_ 3 (b2n late) + at_ 8 s.etime) else s
  if e.action = 1 then s.coPulse e.output (10 * e.width)
  else if e.action = 2 then s.coLevel e.output true
  else if e.action = 3 then s.coLevel e.output false
  else if e.action = 4 then s.coLevel e.output (!s.pos.cmp.levels.testBit e.output)
  else if e.action = 0x10 then s.camTrig (10 * e.width) e.tag
  else s.switchBar e.output late
/-- Put an element into a list ordered by a key, behind its equals. -/
def insKey {α : Type} (k : Nat) (a : α) : List (Nat × α) → List (Nat × α)
  | [] => [(k, a)]
  | e :: l => if k < e.1 then (k, a) :: e :: l else e :: insKey k a l
/-- The entries of a source that a move by `d` from `prev` crosses, nearest first, then in insertion order (R370, R371). -/
def crossed (pool : List CmpEntry) (src m prev : Nat) (d : Int) : List CmpEntry :=
  let dist (e : CmpEntry) : Nat :=
    if d > 0 then (((e.pos : Int) - prev) % m).toNat else (((prev : Int) - e.pos) % m).toNat
  let hits := pool.filter fun e => e.source == src && e.rev == decide (d < 0) && dist e != 0 && decide (dist e ≤ d.natAbs)
  (hits.foldl (fun l e => insKey (dist e) e l) []).map (·.2)
/-- Entries fire 8 in a QCK cycle of 5 ns, each at its own ETIME (R371). -/
def Core.fireAll (s : Core) (late : Bool) (es : List CmpEntry) : Core :=
  let t := s.etime
  es.zipIdx.foldl (fun s e =>
    if s.pos.cmp.pool.contains e.1 then (s.reach (t + 5 * (e.2 / 8))).fireEntry e.1 late else s) s
/-- A move of a source by steps: the entries it crosses fire (R370). -/
def Core.crossFire (s : Core) (src m prev : Nat) (d : Int) : Core :=
  s.fireAll false (crossed s.pos.cmp.pool src m prev d)
/-- A forward step by index or load: the entries it crosses fire late, or are missed with cause STEP (R372). -/
def Core.crossStep (s : Core) (src m prev : Nat) (d : Int) : Core :=
  let es := crossed s.pos.cmp.pool src m prev d
  if d ≤ 0 then s
  else if s.rdb CMP_CFG.LATEFIRE then s.fireAll true es
  else es.foldl (fun s e => s.missEntry e 2) s

/-! ### Sources (R346, R366, R369) -/

/-- The modulus of a source: 2^38 for the web line position, WRAP or 2^48 for a channel. -/
def Core.srcMod (s : Core) (src : Nat) : Nat :=
  if src = 8 then 2 ^ 38 else
    let w := if src < 2 then 0 else s.rd POS_WRAP.WRAP src
    if w = 0 then 2 ^ 48 else w
/-- The count of a channel. -/
def Core.posCount (s : Core) (ch : Nat) : Nat := s.rd2 POS_COUNT_LO.COUNT POS_COUNT_HI.COUNT ch
/-- The present position of a source. -/
def Core.srcPos (s : Core) (src : Nat) : Nat := if src = 8 then s.phi else s.posCount src
/-- The channel that moves a source. -/
def Core.srcChan (s : Core) (src : Nat) : Nat := if src = 8 then s.rd POS_WEB_STATUS.SRC else src
/-- Is a source moving (R353)? A faulted channel counts as moving (R349). -/
def Core.srcMoving (s : Core) (src : Nat) : Bool :=
  let ch := s.srcChan src
  !s.rdb POS_STATUS.STILL ch || s.rdb POS_STATUS.FAULT ch
/-- The signed difference of `a` less `b` modulo `m`. -/
def smodM (m : Nat) (a b : Int) : Int :=
  let r := (a - b) % m
  if 2 * r < m then r else r - m

/-- Insert an entry and judge it (R369, R376); true where it lay behind. -/
def Core.insertEntry (s : Core) (e : CmpEntry) : Core × Bool :=
  let e := { e with slot := freeSlot s.pos.cmp.pool }
  let s := (s.setPool (s.pos.cmp.pool ++ [e])).incW CMP_APPENDED_CNT.COUNT
  let d := smodM (s.srcMod e.source) (s.srcPos e.source) e.pos
  if d = 0 then (s.fireEntry e false, false)
  else if decide (d > 0) == e.rev then (s, false)
  else if e.action = 0x11 ∨ s.rdb CMP_CFG.LATEFIRE ∨ !s.srcMoving e.source then (s.fireEntry e true, true)
  else (s.missEntry e 1, true)

/-! ### CMP_APPEND, CMP_ENTRY_INSERT, CMP_CLEAR (R368, R369, R375) -/

/-- The entry at a byte offset (R366). -/
def cmpEntryAt (d : Bytes) (o : Nat) : CmpEntry :=
  ⟨0, leAt d o 8, byteAt d (o + 8), byteAt d (o + 9), byteAt d (o + 10), byteAt d (o + 11), leAt d (o + 12) 2, leAt d (o + 14) 2⟩
/-- The first check of R368 an entry fails: its detail. -/
def Core.cmpBad (s : Core) (e : CmpEntry) : Option Nat :=
  if e.flags / 4 ≠ 0 ∨ (e.source < 8 ∧ e.pos ≥ 2 ^ 48 ∧ s.srcMod e.source = 2 ^ 48) ∨
      (e.action = 0x10 ∧ 0 < e.output ∧ e.output ≤ 7) then some 8
  else if e.source > 8 ∨ !([1, 2, 3, 4, 0x10].contains e.action) ∨ e.output > 7 then some 7
  else if (e.action = 1 ∨ e.action = 0x10) ∧ e.width = 0 then some 7
  else if e.action ≠ 1 ∧ e.action ≠ 0x10 ∧ e.width ≠ 0 then some 7
  else if e.source < 8 ∧ e.pos ≥ s.srcMod e.source then some 7
  else if e.source = 8 ∧ e.pos ≥ 2 ^ 38 then some 12
  else none
/-- CMP_APPEND. Of a list, COUNT is compared with the free pool before any data moves (R199). -/
def cmpAppend (c : Call) (count : Nat) (inline : Bytes) (s : Core) : Reply × Core :=
  let body (d : Bytes) : Reply × Core :=
    let es := (List.range count).map fun i => cmpEntryAt d (16 * i)
    match findIx (fun e => (s.cmpBad e).isSome) es with
    | some (i, e) => (.err 0x12 ((s.cmpBad e).getD 0) (if c.sg then 0xFFFF else 0x20 + 16 * i) (some i), s)
    | none =>
      if s.cmpFree < count then (noCapacity none, s)
      else
        let ref := refOf 0x0500 c
        (.later, (s.openCmd ref).setCmp { s.pos.cmp with queue := s.pos.cmp.queue ++ [⟨ref, es, 0, 0⟩] })
  if !c.sg then body inline else if s.cmpFree < count then (noCapacity none, s) else withData c s body
/-- CMP_ENTRY_INSERT: the next queued entry is inserted; the last one of a command completes it (R368, R369). -/
def doCmpEntryInsert (s : Core) : Core :=
  match s.pos.cmp.queue with
  | [] => s
  | q :: qs =>
    match q.rest with
    | [] => (s.setCmp { s.pos.cmp with queue := qs }).closeCmd q.ref (.ok (q.done + at_ 2 q.late))
    | e :: es =>
      let (s, late) := s.insertEntry e
      let q := { q with rest := es, done := q.done + 1, late := q.late + b2n late }
      if es = [] then (s.setCmp { s.pos.cmp with queue := qs }).closeCmd q.ref (.ok (q.done + at_ 2 q.late))
      else s.setCmp { s.pos.cmp with queue := q :: qs }
/-- CMP_CLEAR. -/
def cmpClear (mask : Nat) (s : Core) : Reply × Core :=
  let hit (e : CmpEntry) : Bool :=
    if mask = 0 then e.action == 0x10 else e.action ≤ 4 && mask.testBit e.output
  (.ok 0, (s.pos.cmp.pool.filter hit).foldl (fun s e => s.missEntry e 3) s)

end Sys2Proof.Machine
end

