-- ==== Sys2Proof/Machine/Switch.lean ====
section
/-! DEFINITION. Switching and aborting jobs (spec/12_jobs_and_changeover.md R501, R505, R506). -/

namespace Sys2Proof.Machine

/-! ### JOB_SWITCH_AT (R501) -/

/-- The tail of the chain of switches (R501). -/
def Core.tailJob (s : Core) : Nat :=
  match s.jobs.switches.getLast? with
  | some w => w.dst
  | none =>
    match s.jobs.jobs.find? (·.state == 4) with
    | some j => j.id
    | none =>
      match s.jobs.jobs.filter (·.state == 5) with
      | [] => 0
      | j :: js => (js.foldl (fun m x => if posDiff (x.pos.getD 0) (m.pos.getD 0) > 0 then x else m) j).id
/-- The bars of a job; none for job 0. -/
def Core.jobBars (s : Core) (id : Nat) : List Nat := match s.job? id with | some j => j.bars.map (·.1) | none => []
/-- The bars of either of two jobs, ascending. -/
def Core.eitherBars (s : Core) (a b : Nat) : List Nat :=
  allBars.filter fun x => (s.jobBars a).contains x || (s.jobBars b).contains x
/-- The earliest whole-line position R501 accepts for these bars behind the pending switches. -/
def Core.earliest (s : Core) (bars : List Nat) : Nat :=
  let ws := bars.map fun b => lineAdd (s.nextW b) (s.rd JOB_CFG.MARGIN)
  let ws := match s.jobs.switches.getLast? with
    | some w => lineAdd (posLine w.pos) 1 :: ws
    | none => ws
  match ws with
  | [] => posLine s.phi
  | w :: rest => rest.foldl (fun m x => if lineDiff x m > 0 then x else m) w
/-- Is P far enough ahead of every bar and of the last pending switch? -/
def Core.switchAhead (s : Core) (bars : List Nat) (p : Nat) : Bool :=
  (match s.jobs.switches.getLast? with | some w => decide (posDiff p w.pos > 0) | none => true) &&
    bars.all fun b => decide (posDiff p (64 * s.nextW b) ≥ 64 * (s.rd JOB_CFG.MARGIN : Int))
/-- The compare entry of a bar's switch (R376, R501). -/
def switchEntry (pos b : Nat) : CmpEntry := ⟨0, pos, 8, 0x11, b, 0, 0, 0⟩
/-- A bar that is idle, and whose heads and engines have no line left, starts afresh with the job that begins at line `w`, wherever
φ has gone meanwhile (R389, R390, R397, R502). -/
def Core.restartIdle (s : Core) (w b : Nat) : Core :=
  if s.rd JOBB_ACTIVE.JOB_ID b ≠ 0 then s
  else
    let idle (s : Core) (h : Nat) : Bool := (s.nextLine b (s.hf h).nextW true).isNone
    let s := if (s.headsOfBar b).all (idle s) then
        s.setBf b { s.bf b with lastLine := none, lastStrobe := none, altTo := none
                                altFrom := if s.rdb SPGB_FIRE.ALT b then some w else none }
      else s
    let s := (s.headsOfBar b).foldl (fun s h => if idle s h then s.setHf h { s.hf h with nextW := none } else s) s
    (s.linksOf b).foldl (fun s l =>
      if (s.nextLine b (s.scr l).nextW).isNone then s.setScr l { s.scr l with nextW := none } else s) s
/-- JOB_SWITCH_AT. -/
def jobSwitchAt (c : Call) (src dst pos : Nat) (s : Core) : Reply × Core :=
  match s.liveJob? dst with
  | none => (absent 0x14, s)
  | some j =>
    if src ≠ 0 ∧ (s.liveJob? src).isNone then (absent 0x10, s)
    else if j.state ≠ 3 ∨ s.jobs.switches.any (·.dst == dst) then (wrongState 0x0014, s)
    else if src ≠ s.tailJob then (.err 0x15 0x0014 0xFFFF (some s.tailJob), s)
    else if s.jobs.switches.length ≥ 3 then (busy 0, s)
    else if pos ≥ 2 ^ 38 then (badPos 0x18, s)
    else
      let bars := s.eitherBars src dst
      if !s.switchAhead bars pos then (.err 0x12 0x0007 0x18 (some (s.earliest bars)), s)
      else
        let (op, s) := s.newOp 0x0204 c
        let s := s.modJob dst fun j => { j with pos := some pos }
        let s := { s with jobs := { s.jobs with switches := s.jobs.switches ++ [Switch.mk op src dst pos bars 0 0] } }
        let dstBars := s.jobBars dst
        let s := bars.foldl (fun s b => s.restartIdle (posLine pos) b) s
        let s := bars.foldl (fun s b =>
          let old := s.chain b
          s.setChain b (old.drop (old.length - 6) ++ [(pos, if dstBars.contains b then dst else 0)])) s
        let s := bars.foldl (fun s b => (s.insertEntry (switchEntry (posMod ((pos : Int) + s.delay b)) b)).1) s
        (.accepted op, s.refreshNext)

/-! ### Withdrawal (R376, R505, R506) -/

/-- Withdraw a pending switch of which no bar has switched: its entries are CLEARED, its operation ends WRONG_STATE, and
its job stays ARMED. -/
def Core.withdraw (s : Core) (w : Switch) : Core :=
  let s := { s with jobs := { s.jobs with switches := s.jobs.switches.filter (·.opId != w.opId) } }
  let mine (e : CmpEntry) : Bool :=
    e.action == 0x11 && w.waiting.contains e.output && e.pos == posMod ((w.pos : Int) + s.delay e.output)
  let s := (s.pos.cmp.pool.filter mine).foldl (fun s e => s.missEntry e 3) s
  let s := w.waiting.foldl (fun s b => s.setChain b ((s.chain b).filter fun e => e.1 != w.pos)) s
  let s := s.modJob w.dst fun j => { j with pos := none }
  let s := s.emit 0x0C04 (w.src + at_ 4 w.dst)
  (s.asyncErr w.opId 0x15 0x0014 0).refreshNext
/-- Withdraw a list of switches. -/
def Core.withdrawAll (s : Core) (ws : List Switch) : Core := ws.foldl (fun s w => s.withdraw w) s
/-- HOST_LOSS_POLICY DRAIN: every pending switch whose first bar has not switched is withdrawn (R505). -/
def Core.drainSwitches (s : Core) : Core := s.withdrawAll (s.jobs.switches.filter (·.fired == 0))
/-- The pending switch into a job, with every later one; none where it is under way (R506). -/
def Core.switchesFrom (s : Core) (id : Nat) : List Switch :=
  match s.jobs.switches.dropWhile fun w => w.dst != id with
  | [] => []
  | w :: ws => if w.fired = 0 then w :: ws else []

/-! ### The end of a job on a bar (R496, R506) -/

/-- Has every head of the bar issued the job's lines up to its end? For a bar without heads, has φ passed the end? -/
def Core.barEnded (s : Core) (b : Nat) (j : Job) (jb : JobBar) : Bool :=
  match j.endOf jb with
  | none => false
  | some e =>
    let hs := s.headsOfBar b
    if hs = [] then decide (posDiff s.phi (s.strikeAt b j.id e) ≥ 0)
    else hs.all fun h => match (s.hf h).nextW with
      | some w => decide (lineDiff w e ≥ 0)
      | none => match j.pos with
        | some p => decide (lineDiff e (posLine p) ≤ 0)
        | none => false
/-- Bars that have passed the end of a job in force leave it (R496). -/
def Core.endBars (s : Core) : Core :=
  (s.jobs.jobs.filter fun j => j.state == 4 || j.state == 5).foldl (fun s j =>
    j.bars.foldl (fun s e =>
      if !e.2.left && s.rd JOBB_ACTIVE.JOB_ID e.1 == j.id && s.barEnded e.1 j e.2 then
        (s.leaveBar j.id e.1).wr JOBB_ACTIVE.JOB_ID 0 e.1
      else s) s) s

/-! ### JOB_ABORT (R506) -/

/-- Abort a job that has not begun to print: loads end, memory and shadows are freed, ABORTED at once. -/
def Core.abortIdle (s : Core) (id : Nat) : Core :=
  let s := (s.jobs.loads.filter (·.job == id)).foldl (fun s ld => s.endLoad ld (wrongState 0x0014)) s
  let s := s.modJob id fun j => { j with bars := j.bars.map fun e => (e.1, { e.2 with set := none }) }
  (s.setJobState id 7).refreshRing
/-- Stop a printing job: each bar at its next unscreened index (CUT), or every bar at one later line (EDGE). -/
def Core.abortPrinting (s : Core) (j : Job) (cut : Bool) : Core :=
  let bars := (j.bars.filter fun e => !e.2.left).map (·.1)
  let edge := s.earliest bars
  let endFor (b : Nat) : Nat :=
    if !cut then edge
    else if s.rd JOBB_ACTIVE.JOB_ID b = j.id then s.nextW b else posLine (j.pos.getD 0)
  let sooner (b : Nat) (jb : JobBar) : Bool := match j.endOf jb with
    | some e => decide (lineDiff (endFor b) e < 0)
    | none => true
  let reduced := !cut && j.bars.any fun e => !e.2.left && sooner e.1 e.2
  let s := s.modJob j.id fun j => { j with
    aborting := true, cut := j.cut || cut, reduced := j.reduced || reduced
    bars := j.bars.map fun e => if !e.2.left && sooner e.1 e.2 then (e.1, { e.2 with endW := some (endFor e.1) }) else e }
  (s.endBars).settleJob j.id
/-- JOB_ABORT. -/
def jobAbort (id mode : Nat) (s : Core) : Reply × Core :=
  match s.job? id with
  | none => (absent 0x10, s)
  | some j =>
    if mode > 1 then (badRange 0x14, s)
    else if j.state ≥ 6 then (wrongState 0x0014, s)
    else
      let s := s.withdrawAll (s.switchesFrom id)
      if j.state ≤ 3 ∧ !s.jobs.switches.any (·.dst == id) then (.ok 0, s.abortIdle id)
      else (.ok 0, s.abortPrinting j (mode == 0))
/-- Every job that is not DONE becomes ABORTED at once (R232), as do jobs not yet printing where `idle` (R239). -/
def Core.abortAll (s : Core) (idle : Bool) : Core :=
  let s := s.withdrawAll (s.jobs.switches.filter (·.fired == 0))
  let s := if idle then s else { s with jobs := { s.jobs with switches := [], chains := [] } }
  (s.jobs.jobs.filter fun j => j.live && (!idle || decide (j.state ≤ 3))).foldl (fun s j => s.abortIdle j.id) s

end Sys2Proof.Machine
end

