-- ==== Sys2Proof/Machine/Position.lean ====
section
/-! DEFINITION. Position channels, the web count, its backup, the encoder repeaters and index marks
(spec/08_position_channels.md R338 to R365). -/

namespace Sys2Proof.Machine

/-! ### Channel records -/

/-- The record of a channel. -/
def Core.pc (s : Core) (ch : Nat) : PosCh := mget PosCh.reset s.pos.ch ch
/-- Change it. -/
def Core.setPc (s : Core) (ch : Nat) (x : PosCh) : Core :=
  { s with pos := { s.pos with ch := mset PosCh.reset s.pos.ch ch x } }
/-- Set a count, modulo the channel's modulus (R346). -/
def Core.setCount (s : Core) (ch : Nat) (v : Int) : Core :=
  s.wr2 POS_COUNT_LO.COUNT POS_COUNT_HI.COUNT (v % (s.srcMod ch : Int)).toNat ch
/-- Is the channel faulted (R348)? -/
def Core.faulted (s : Core) (ch : Nat) : Bool := s.rdb POS_STATUS.FAULT ch
/-- The fault bits of a channel as POS_c_STATUS holds them, bits 0 to 6. -/
def Core.faultBits (s : Core) (ch : Nat) : Nat :=
  s.word [POS_STATUS.FAULT, POS_STATUS.LOS, POS_STATUS.HALL_BAD, POS_STATUS.AMP, POS_STATUS.SSI, POS_STATUS.RATE,
    POS_STATUS.SUP] ch
/-- FAULT, PC0_OK and PC1_OK follow the fault bits: a lone SSI fault leaves FAULT 0 (R348, R380). -/
def Core.refreshFault (s : Core) (ch : Nat) : Core :=
  let any := s.rdb POS_STATUS.LOS ch || s.rdb POS_STATUS.HALL_BAD ch || s.rdb POS_STATUS.AMP ch ||
    s.rdb POS_STATUS.RATE ch || s.rdb POS_STATUS.SUP ch
  let s := s.wr POS_STATUS.FAULT (b2n any) ch
  let ok := b2n (!any)
  if ch = 0 then s.wr POS_WEB_STATUS.PC0_OK ok else if ch = 1 then s.wr POS_WEB_STATUS.PC1_OK ok else s

/-! ### Repeaters (R364, R365) -/

/-- The record of a repeater. -/
def Core.er (s : Core) (e : Nat) : ErSt := mget ErSt.reset s.pos.er e
/-- Change it. -/
def Core.setEr (s : Core) (e : Nat) (x : ErSt) : Core := { s with pos := { s.pos with er := mset ErSt.reset s.pos.er e x } }
/-- Does a repeater act as PASS (R364)? -/
def Core.erPass (s : Core) (e : Nat) : Bool :=
  s.rd ER_CFG.MODE e == 1 && decide (s.rd ER_CFG.SRC e ≤ 1) && s.rd POS_CFG.TYPE (s.rd ER_CFG.SRC e) == 1 && s.rd ER_CFG.DIV e == 0
/-- Does a repeater generate its counts, as SYNTH does? -/
def Core.erSynth (s : Core) (e : Nat) : Bool := s.rd ER_CFG.MODE e != 0 && !s.erPass e
/-- Does a repeater hold its outputs, its source being faulted or lost (R365)? -/
def Core.erHeld (s : Core) (e : Nat) : Bool :=
  if s.rd ER_CFG.SRC e < 2 then s.faulted (s.rd ER_CFG.SRC e) else s.rdb POS_WEB_STATUS.LOST
/-- Take up to `n` counts from the front of a buffer: their sum, and what stays. -/
def takeCounts : List Int → Nat → Int × List Int
  | [], _ => (0, [])
  | k :: l, n =>
    if k.natAbs ≤ n then ((takeCounts l (n - k.natAbs)).1 + k, (takeCounts l (n - k.natAbs)).2)
    else if k < 0 then (-(n : Int), (k + n) :: l)
    else (n, (k - n) :: l)
/-- Counts in a buffer. -/
def waiting (l : List Int) : Nat := (l.map Int.natAbs).sum
/-- The place of the levels of A and B in the forward sequence: A leads B (R341). -/
def quadPlace (a b : Bool) : Nat := if a then (if b then 2 else 1) else if b then 3 else 0
/-- Outputs A and B move by `k` counts. -/
def ErSt.move (x : ErSt) (k : Int) : ErSt :=
  let p := ((quadPlace x.a x.b + k) % 4).toNat
  { x with a := p == 1 || p == 2, b := decide (p ≥ 2) }
/-- A repeater brought up to the present: its buffer drains at one count per 20 ns (R365), each of which ends a Z pulse;
nothing leaves it while the outputs hold. -/
def Core.erDrain (s : Core) (e : Nat) : Core :=
  let x := s.er e
  if s.erHeld e then s.setEr e { x with next := max x.next s.etime }
  else if !s.erSynth e ∨ waiting x.wait = 0 ∨ s.etime < x.next then s
  else
    let (k, rest) := takeCounts x.wait ((s.etime - x.next) / 20 + 1)
    s.setEr e { x.move k with wait := rest, next := x.next + 20 * (waiting x.wait - waiting rest), z := false }
/-- Both repeaters brought up to the present. -/
def Core.erSettle (s : Core) : Core := (s.erDrain 0).erDrain 1
/-- The levels which a mode gives the outputs at once: low in OFF, the source's own in PASS, Z low where Z_EN is 0 (R364,
R380). -/
def Core.erLevel (s : Core) (e : Nat) : Core :=
  let x := s.er e
  if s.rd ER_CFG.MODE e = 0 then s.setEr e { x with a := false, b := false, z := false, wait := [] }
  else
    let c := s.pc (s.rd ER_CFG.SRC e)
    let x := if s.erPass e && !s.erHeld e then { x with a := c.inA, b := c.inB, z := c.z, wait := [] } else x
    s.setEr e { x with z := x.z && s.rdb ER_CFG.Z_EN e }
/-- The same for both. -/
def Core.erLevels (s : Core) : Core := (s.erLevel 0).erLevel 1
/-- Source counts reach one repeater: output counts enter its buffer of 4,096; those that overflow are dropped. -/
def Core.erCounts (s : Core) (e : Nat) (d : Int) : Core :=
  if !s.erSynth e then s
  else
    let s := s.erDrain e
    let x := s.er e
    let div : Int := s.rd ER_CFG.DIV e + 1
    let k := (x.acc + d) / div
    let acc := x.acc + d - k * div
    let full := waiting x.wait
    let n := min k.natAbs (4096 - full + b2n (full == 0 && decide (x.next ≤ s.etime)))
    let drop := k.natAbs - n
    let s := (s.setEr e { x with
      acc := acc, wait := if n = 0 then x.wait else x.wait ++ [if k < 0 then -(n : Int) else n],
      next := if full = 0 then max x.next s.etime else x.next }).erDrain e
    if drop = 0 then s
    else (s.inc (if e = 0 then ER_OVR_CNT.ER0 else ER_OVR_CNT.ER1)).emit 0x070D (e + at_ 4 drop)
/-- Counts of a source (0 PC0, 1 PC1, 2 WEB) reach the repeaters it drives. -/
def Core.erFeed (s : Core) (src : Nat) (d : Int) : Core :=
  if d = 0 then s
  else [0, 1].foldl (fun s e => if s.rd ER_CFG.SRC e = src then s.erCounts e d else s) s
/-- An index of a source raises Z of a SYNTH repeater for one output count. -/
def Core.erIndex (s : Core) (ch : Nat) : Core :=
  [0, 1].foldl (fun s e =>
    let src := s.rd ER_CFG.SRC e
    let mine : Bool := src == ch || (decide (src ≥ 2) && s.rd POS_WEB_STATUS.SRC == ch)
    if mine && s.rdb ER_CFG.Z_EN e && s.erSynth e && !s.erHeld e then
      let s := s.erDrain e
      s.setEr e { s.er e with z := true }
    else s) s

/-! ### The web count (R359, R361) -/

/-- Set the web count; the web repeaters take the whole counts it moved by. -/
def Core.writeWeb (s : Core) (v : Int) : Core :=
  let old := s.webCount
  let new := twos 64 v
  let s := s.wr2 POS_WEB_COUNT_LO.COUNT POS_WEB_COUNT_HI.COUNT new
  s.erFeed 2 (sgn 48 (twos 48 ((new / 65536 : Nat) - (old / 65536 : Nat) : Int)))
/-- Compare entries and markers that φ has crossed since it stood at `prev`. -/
def Core.crossWeb (s : Core) (prev : Nat) : Core :=
  (s.crossFire 8 (2 ^ 38) prev (posDiff s.phi prev)).fireMarkers
/-- Steps of PC1 as web counts, 48.16, divided by the ratio with the remainder carried (R359); with a ratio of 0 the quotient
is a free value. -/
def Core.pc1Web (s : Core) (d : Int) : Int × Core :=
  let r : Int := s.rd POS_WEB_RATIO.R
  if r = 0 then ((Config.freeWebStep s.free).toInt, s.tickFree)
  else
    let t := s.pos.web.rem + d * 2 ^ 40
    (t / r, { s with pos := { s.pos with web := { s.pos.web with rem := t % r } } })
/-- Steps of a channel move the web count where it is the source; PC1 is latched at PC0's steps and the reverse. -/
def Core.webSteps (s : Core) (ch : Nat) (d : Int) : Core :=
  if ch > 1 then s
  else
    let w := s.pos.web
    let w := if ch = 0 then { w with latch1 := (s.pc 1).steps } else { w with latch0 := (s.pc 0).steps }
    let s := { s with pos := { s.pos with web := w } }
    if s.rd POS_WEB_STATUS.SRC ≠ ch ∨ s.rdb POS_WEB_STATUS.LOST then s
    else if ch = 0 then s.writeWeb (s.webCount + d * 65536)
    else
      let (q, s) := s.pc1Web d
      s.writeWeb (s.webCount + q)

/-! ### Steps (R346, R351, R352, R353, R371) -/

/-- The number of a fault, as POS_c_STATUS orders them. -/
def faultIx : PosFault → Nat
  | .los => 1
  | .hall => 2
  | .amp => 3
  | .ssi => 4
  | .rate => 5
  | .sup => 6

/-- The ratio window starts afresh; `lose` forgets that PC0 has been tracked. -/
def Core.restartWindow (s : Core) (lose : Bool) : Core :=
  let w := s.pos.web
  { s with pos := { s.pos with web := { w with
    win0 := (s.pc 0).steps, win1 := (s.pc 1).steps, tracked := w.tracked && !lose } } }
/-- A step ends STILL; the ratio window of R360 runs only while PC0 and PC1 both move. -/
def Core.endStill (s : Core) (ch : Nat) : Core :=
  if !s.rdb POS_STATUS.STILL ch then s
  else
    let s := s.wr POS_STATUS.STILL 0 ch
    if ch < 2 then s.restartWindow false else s
/-- Direction and interval of a step made at `t` (R352). -/
def Core.stepTiming (s : Core) (ch : Nat) (d : Int) (t : Nat) : Core :=
  let s := s.endStill ch
  let x := s.pc ch
  let back := if d = 0 then s.rd POS_STATUS.DIR ch else b2n (decide (d < 0))
  if s.rd POS_STATUS.DIR ch ≠ back then
    ((s.wr POS_STATUS.DIR back ch).wr POS_PERIOD.NS 0 ch).setPc ch
      { x with lastStep := some t, winN := x.winN + 1, winRev := true, steps := x.steps + d }
  else
    let s := match x.lastStep with
      | some last => s.wr POS_PERIOD.NS (satU 32 (t - last)) ch
      | none => s
    s.setPc ch { x with lastStep := some t, winN := x.winN + 1, steps := x.steps + d }
/-- A channel counts `d` (before REVERSE) by a step made at `t`: counts and web position move, then the entries crossed fire,
channel first (R371). A faulted channel holds its count. -/
def Core.posStepAt (s : Core) (ch : Nat) (d : Int) (t : Nat) : Core :=
  if d = 0 ∨ s.faulted ch then s
  else
    let d := if s.rdb POS_CFG.REVERSE ch then -d else d
    let prev := s.posCount ch
    let phi := s.phi
    let s := s.setCount ch (prev + d)
    let s := s.stepTiming ch d t
    let s := if ch < 2 then s.erFeed ch d else s
    let s := s.webSteps ch d
    let s := s.wr SPG_STATUS.MOVING (b2n (!s.rdb POS_STATUS.STILL (s.rd POS_WEB_STATUS.SRC)))
    let pool := s.pos.cmp.pool
    (s.fireAll false (crossed pool ch (s.srcMod ch) prev d ++ crossed pool 8 (2 ^ 38) phi (posDiff s.phi phi))).fireMarkers
/-- A step made now. -/
def Core.posStep (s : Core) (ch : Nat) (d : Int) : Core := s.posStepAt ch d s.etime
/-- Movement that is not counted or is guessed: QUAD counts and SUSPECT is set (R341, R342). -/
def Core.quadErr (s : Core) (ch : Nat) : Core := (s.inc POS_ERR_CNT.QUAD ch).wr POS_STATUS.SUSPECT 1 ch
/-- The filter width of FILT in ns (R341). -/
def filtNs (filt : Nat) : Nat := if filt = 0 then 0 else if filt = 1 then 10 else if filt = 2 then 40 else 160
/-- QUAD_EDGE: A and B take new levels, which they hold for `held` ns at least; an edge shorter than the filter is not seen
(R341), but at a repeater in PASS, whose outputs are as received (R364). `parity` is a pool slot found with bad parity (R579). -/
def doQuadEdge (ch : Nat) (a b : Bool) (held : Nat) (parity : Option Nat) (s : Core) : Core :=
  let s := match parity with
    | none => s
    | some i =>
      let s := s.sramParity 6 i
      match s.pos.cmp.pool.find? fun (e : CmpEntry) => e.slot == i with
      | some e => s.missEntry e 3
      | none => s
  let x := s.pc ch
  let seen : Bool := decide (filtNs (s.rd POS_CFG.FILT ch) ≤ held)
  let s := (s.setPc ch { x with a := if seen then a else x.a, b := if seen then b else x.b, inA := a, inB := b }).erLevels
  if !seen then s
  else if s.rd POS_CFG.TYPE ch ≠ 1 then s
  else if x.a ≠ a ∧ x.b ≠ b then s.quadErr ch
  else if x.a ≠ a then s.posStep ch (if a != b then 1 else -1)
  else if x.b ≠ b then s.posStep ch (if a == b then 1 else -1)
  else s
/-- The place of a Hall state in the forward sequence 1, 3, 2, 6, 4, 5 (R342). -/
def hallPlace (st : Nat) : Nat :=
  if st = 1 then 0 else if st = 3 then 1 else if st = 2 then 2 else if st = 6 then 3 else if st = 4 then 4 else 5
/-- HALL_STATE_CHANGE (R342). A faulted channel follows the state and counts its errors, and holds its count (R348, R350). -/
def doHallStateChange (ch st : Nat) (s : Core) : Core :=
  if s.rd POS_CFG.TYPE ch ≠ 2 then s
  else
    let x := s.pc ch
    if st = 0 ∨ st = 7 then
      ((s.setPc ch { x with hall := 0, hallBad := some (x.hallBad.getD s.etime) }).inc POS_ERR_CNT.HALL ch).wr
        POS_STATUS.SUSPECT 1 ch
    else
      let s := s.setPc ch { x with
        hall := st, hallBad := none, seen := if x.hallBad.isSome then mput (faultIx .hall) s.etime x.seen else x.seen }
      if x.hall = 0 then s
      else
        let k := (hallPlace st + 6 - hallPlace x.hall) % 6
        if k = 1 then s.posStep ch 1
        else if k = 5 then s.posStep ch (-1)
        else if k = 2 then (s.quadErr ch).posStep ch 2
        else if k = 4 then (s.quadErr ch).posStep ch (-2)
        else if k = 3 then s.quadErr ch
        else s
/-- The highest valid signal frequency of a sin/cos channel, in Hz (R343). -/
def Core.hzLimit (s : Core) (ch : Nat) : Nat := if s.rd POS_CFG.INTERP ch = 0 then 100000 else 400000
/-- The resolution in force: that of INTERP, in AUTO by the frequency (R343). -/
def Core.judgeInterp (s : Core) (ch : Nat) : Core :=
  let cfg := s.rd POS_CFG.INTERP ch; let hz := (s.pc ch).hz
  let auto : Bool := if s.rdb POS_STATUS.INTERP8 ch then decide (hz ≥ 90000) else decide (hz > 100000)
  s.wr POS_STATUS.INTERP8 (b2n (s.rd POS_CFG.TYPE ch == 3 && (cfg == 1 || (cfg == 2 && auto)))) ch
/-- Is `a`, in 1/1,024 of nominal, outside the amplitude window (R348)? -/
def Core.ampOutside (s : Core) (ch a : Nat) : Bool :=
  decide (a < 16 * s.rd POS_SIG_CFG.AMP_LO ch ∨ 16 * s.rd POS_SIG_CFG.AMP_HI ch < a)
/-- SINCOS_PHASE_STEP: one sample of a sin/cos channel, 100 ns after the one before: the interpolated phase advances by a
signed number of resolution steps; `hz` is the signal's frequency and `amp` the amplitude a (R343, R348). -/
def doSincosPhaseStep (ch : Nat) (n : Int) (hz amp : Nat) (s : Core) : Core :=
  if s.rd POS_CFG.TYPE ch ≠ 3 then s
  else
    let x := s.pc ch
    let s := s.reach (x.sampledAt + 100)
    let out := s.ampOutside ch amp
    let seen := if out then mput (faultIx .amp) s.etime x.seen else x.seen
    let seen := if hz > s.hzLimit ch then mput (faultIx .rate) s.etime seen else seen
    let d := if s.rdb POS_STATUS.INTERP8 ch then 16 * n else n
    let s := (s.setPc ch { x with
      sampledAt := s.etime, hz := hz, ampOut := if out then min 15 (x.ampOut + 1) else 0, seen := seen }).wr POS_AMP.A amp ch
    (s.judgeInterp ch).posStep ch d

/-! ### Losing and restoring the web source (R361 to R363, R387, R401) -/

/-- The web source is lost: the loop stops, every bar takes WEB_LOST, and a range of class WEB opens on each bar whose job
prints (R362, R387, R401). -/
def Core.webLost (s : Core) : Core :=
  if s.rdb POS_WEB_STATUS.LOST then s
  else
    let s := (s.erSettle.wr POS_WEB_STATUS.LOST 1).emit 0x070B (s.faultBits 0 + at_ 1 (s.faultBits 1))
    let s := { s with spg := { s.spg with v := 0, a := 0 } }
    let held := s.phi
    let s := allBars.foldl (fun s b =>
      match s.job? (s.rd JOBB_ACTIVE.JOB_ID b) with
      | some j =>
        if (j.state = 4 ∨ j.state = 5) ∧ (s.bf b).webLoss.isNone then
          (s.setBf b { s.bf b with webLoss := some (j.id, held) }).schedMarker 4 held
        else s
      | none => s) s
    s.setCause allBars 5
/-- The source becomes PC1 (R361). -/
def Core.webTakeover (s : Core) : Core :=
  let phi := s.phi
  let d := (s.pc 1).steps - s.pos.web.latch1
  let (q, s) := s.pc1Web d
  let s := ((s.wr POS_WEB_STATUS.SRC 1).inc POS_WEB_SWITCH_CNT.TAKEOVERS).writeWeb (s.webCount + q)
  (s.emit 0x0709 (at_ 8 (s.webCount / 65536))).crossWeb phi
/-- The source returns to PC0 (R363): from a lost source the count goes on where it stopped. -/
def Core.webBack (s : Core) : Core :=
  let phi := s.phi
  let lost := s.rdb POS_WEB_STATUS.LOST
  let d := (s.pc 0).steps - s.pos.web.latch0
  let s := (s.erSettle.wrs [(POS_WEB_STATUS.SRC, 0), (POS_WEB_STATUS.LOST, 0), (POS_WEB_STATUS.RETURN_PENDING, 0)]).inc
    POS_WEB_SWITCH_CNT.RETURNS
  let s := if lost then s else s.writeWeb (s.webCount + d * 65536)
  (s.emit 0x070C (at_ 8 (s.webCount / 65536))).crossWeb phi
/-- Is the measured ratio within tolerance (R360)? -/
def Core.ratioOk (s : Core) : Bool :=
  let r : Int := s.rd POS_WEB_RATIO.R; let nom : Int := s.rd POS_WEB_RATIO_NOM.NOM
  decide ((r - nom).natAbs * 1000000 ≤ s.rd POS_WEB_RATIO_NOM.NOM * s.rd POS_WEB_CFG.TOL_PPM)
/-- WEB_SOURCE_RETURN: a pending return takes place at a job boundary at which PC0 is fit, or at once while the source is
lost and PC0 is free of faults (R363). While PC0 is the source there is nothing to switch, and the pending bit clears at that
boundary (DEDUCED: log entry 132). -/
def doWebSourceReturn (s : Core) : Core :=
  if !s.rdb POS_WEB_STATUS.RETURN_PENDING ∨ s.faulted 0 then s
  else if s.rdb POS_WEB_STATUS.LOST then s.webBack
  else if s.tck.jobBoundary ∧ s.pos.web.tracked ∧ s.ratioOk then
    if s.rd POS_WEB_STATUS.SRC = 0 then s.wr POS_WEB_STATUS.RETURN_PENDING 0 else s.webBack
  else s
/-- WEB_RATIO_WINDOW: at the end of 2^TRACK PC0 counts the ratio is measured (R360). -/
def doWebRatioWindow (s : Core) : Core :=
  let w := s.pos.web
  let d0 := (s.pc 0).steps - w.win0; let d1 := (s.pc 1).steps - w.win1
  if s.faulted 0 ∨ s.faulted 1 ∨ s.rdb POS_STATUS.STILL 0 ∨ s.rdb POS_STATUS.STILL 1 ∨
      d0.natAbs < 2 ^ s.rd POS_WEB_CFG.TRACK then s
  else
    let r := satU 32 (d1 * 2 ^ 24 / d0).toNat
    let s := s.wr POS_WEB_RATIO.R r
    let s := { s with pos := { s.pos with web := { s.pos.web with tracked := true, rem := 0 } } }
    let s := s.restartWindow false
    let s := s.wr POS_WEB_STATUS.BACKUP_READY (b2n (s.rdb POS_WEB_CFG.BACKUP_EN && s.ratioOk))
    if s.ratioOk then s else s.emit 0x070A (at_ 4 r)

/-! ### Faults (R348 to R350) -/

/-- The status bit of a fault. -/
def faultFld : PosFault → Fld
  | .los => POS_STATUS.LOS
  | .hall => POS_STATUS.HALL_BAD
  | .amp => POS_STATUS.AMP
  | .ssi => POS_STATUS.SSI
  | .rate => POS_STATUS.RATE
  | .sup => POS_STATUS.SUP
/-- A fault is detected: bit, counters and event (R348, R350). -/
def Core.raiseFault (s : Core) (ch : Nat) (f : PosFault) : Core :=
  if s.rdb (faultFld f) ch then s
  else
    let s := s.erSettle
    let s := s.setPc ch { s.pc ch with seen := mput (faultIx f) s.etime (s.pc ch).seen }
    let s := ((s.wr (faultFld f) 1 ch).refreshFault ch).wr POS_SPEED.SPEED (if f = .ssi then s.rd POS_SPEED.SPEED ch else 0) ch
    let s := if ch < 2 then s.restartWindow (ch == 0) else s
    let s := if ch = 1 ∧ f ≠ .ssi then s.wr POS_WEB_STATUS.BACKUP_READY 0 else s
    match f with
    | .los => s.emitLim 0x0701 ch fun n => ch + at_ 4 n
    | .hall => s.emitLim 0x0702 ch fun n => ch + at_ 4 n
    | .amp => (s.inc POS_ERR_CNT.AMP ch).emitLim 0x0703 ch fun n => ch + at_ 2 (s.rd POS_AMP.A ch) + at_ 4 n
    | .rate => s.emitLim 0x0705 ch fun n => ch + at_ 4 n
    | .ssi => s
    | .sup => s
/-- What faults detected in one cycle do to the web source: `ready` is BACKUP_READY before them (R361, R362). -/
def Core.webFaults (s : Core) (ready : Bool) : Core :=
  if s.rdb POS_WEB_STATUS.LOST then s
  else if s.rd POS_WEB_STATUS.SRC = 0 then
    if !s.faulted 0 then s
    else if ready && !s.faulted 1 then s.webTakeover
    else s.webLost
  else if s.faulted 1 then s.webLost
  else s
/-- The fault a sign shows. -/
def signFault : PosSign → PosFault
  | .absent _ => .los
  | .illegal => .hall
  | .amplitude => .amp
  | .frequency => .rate
  | .supply => .sup
/-- Is the fault's condition met (R348)? LOS of an SSI channel comes with its frames. -/
def Core.signMet (s : Core) (ch : Nat) : PosSign → Bool
  | .absent us => (s.rd POS_CFG.TYPE ch == 1 || s.rd POS_CFG.TYPE ch == 3) && decide (s.rd POS_SIG_CFG.LOS_US ch ≤ us.toNat)
  | .illegal => s.rd POS_CFG.TYPE ch == 2 && (s.pc ch).hallBad.isSome
  | .amplitude => s.rd POS_CFG.TYPE ch == 3 && decide (s.rd POS_SIG_CFG.AMP_FILT ch ≤ (s.pc ch).ampOut)
  | .frequency => s.rd POS_CFG.TYPE ch == 3 && decide (s.hzLimit ch < (s.pc ch).hz)
  | .supply => (s.rd PWR_ENC_SUP.FAULT).testBit ch
/-- An illegal Hall state is a fault once it has lasted 1 ms. -/
def Core.awaitHall (s : Core) (ch : Nat) (g : PosSign) : Core :=
  match g, (s.pc ch).hallBad with
  | .illegal, some t => s.reach (t + 1000000)
  | _, _ => s
/-- POS_FAULT_DETECT: the faults detected in one QCK cycle. -/
def doPosFaultDetect (gs : List (Nat × PosSign)) (s : Core) : Core :=
  let ready := s.rdb POS_WEB_STATUS.BACKUP_READY
  let s := gs.foldl (fun s e => s.awaitHall e.1 e.2) s
  (gs.foldl (fun s e => if s.signMet e.1 e.2 then s.raiseFault e.1 (signFault e.2) else s) s).webFaults ready
/-- A sensor supply is cut: its channel's signal fault SUP follows at once (R104, R348). -/
def Core.supLost (s : Core) (ch : Nat) : Core :=
  let ready := s.rdb POS_WEB_STATUS.BACKUP_READY
  (s.raiseFault ch .sup).webFaults ready
/-- A fault clears: the bit, SUSPECT where periods may be lost, POS_CHANNEL_OK when none is left, and a lost source whose
return is pending comes back with PC0 (R349, R350, R363). -/
def Core.clearFault (s : Core) (ch : Nat) (f : PosFault) : Core :=
  if !s.rdb (faultFld f) ch then s
  else
    let s := ((s.erSettle.wr (faultFld f) 0 ch).refreshFault ch).erLevels
    let s := if ch < 2 then s.restartWindow false else s
    let s := if f = .los ∨ f = .hall ∨ f = .amp ∨ f = .rate then s.wr POS_STATUS.SUSPECT 1 ch else s
    let s := if f = .los ∧ s.rd POS_CFG.TYPE ch = 4 then s.setPc ch { s.pc ch with ssiLast := none, ssiBad := 0 } else s
    let s := if s.faultBits ch = 0 then s.emit 0x0706 ch else s
    if ch = 0 ∧ s.rdb POS_WEB_STATUS.LOST then doWebSourceReturn s else s
/-- Is the signal good again, as far as the channel holds it? -/
def Core.signalGood (s : Core) (ch : Nat) : PosFault → Bool
  | .los => true
  | .hall => (s.pc ch).hallBad.isNone
  | .amp => (s.pc ch).ampOut == 0
  | .rate => decide ((s.pc ch).hz ≤ s.hzLimit ch)
  | .ssi => false
  | .sup => false
/-- POS_FAULT_CLEAR: the signal has been good for 1 ms. The count resumes, with the phase change within one period of a
sin/cos channel or one state of a Hall channel (R349). SSI clears with an accepted reading, SUP with its supply. -/
def doPosFaultClear (ch : Nat) (f : PosFault) (phase : Int) (s : Core) : Core :=
  if !s.rdb (faultFld f) ch ∨ !s.signalGood ch f then s
  else
    let s := (s.reach (mget 0 (s.pc ch).seen (faultIx f) + 1000000)).clearFault ch f
    let ty := s.rd POS_CFG.TYPE ch
    if ty = 3 then s.posStep ch (clampI (-4095) 4095 phase)
    else if ty = 2 then s.posStep ch (clampI (-1) 1 phase)
    else s

/-! ### SSI (R344, R345) -/

/-- Gray code to binary, from the top bit of `n`. -/
def grayBin (n g : Nat) : Nat := (List.range n).foldl (fun b i => b ^^^ (g >>> i)) 0 % 2 ^ n
/-- Does the module drive pair IN2 of a channel, as the SSI clock (R94)? It is an input at every other type. -/
def Core.in2Driven (s : Core) (ch : Nat) : Bool := s.rd POS_CFG.TYPE ch == 4
/-- The length of a frame in ns, from the first falling clock edge to the last rising edge that samples (R344). -/
def Core.ssiNs (s : Core) (ch : Nat) : Nat :=
  (2 * (s.rd POS_SSI_CFG.BITS ch + s.rd POS_SSI_CFG.ERRBIT ch) - 1) * 5000 / s.rd POS_SSI_CFG.CLK ch
/-- When the frame after one that started at `t` starts: every RATE_US, or back to back (R344). -/
def Core.ssiNext (s : Core) (ch t : Nat) : Nat :=
  t + max (1000 * s.rd POS_SSI_CFG.RATE_US ch) (s.ssiNs ch + 1000 * s.rd POS_SSI_CFG.MONO_US ch)
/-- SSI_FRAME: a frame is clocked out and read: data line at its start, error bit, reading (R344, R345). The first falling
clock edge stamps the reading. -/
def doSsiFrame (ch : Nat) (startHigh errBit : Bool) (word : Nat) (s : Core) : Core :=
  if !s.in2Driven ch then s
  else
    let start := match (s.pc ch).ssiStart with
      | some t => s.ssiNext ch t
      | none => s.etime
    let s := (s.setPc ch { s.pc ch with ssiStart := some start }).reach (start + s.ssiNs ch)
    let n := s.rd POS_SSI_CFG.BITS ch
    let r := if s.rdb POS_SSI_CFG.GRAY ch then grayBin n (word % 2 ^ n) else word % 2 ^ n
    let x := s.pc ch
    let diff : Int := match x.ssiLast with
      | some l => smodM (2 ^ n) r l
      | none => 0
    let cause := if s.rdb POS_SSI_CFG.ERRBIT ch && errBit then 1 else if !startHigh then 2
      else if diff.natAbs > 2 ^ (n - 2) then 3 else 0
    if cause ≠ 0 then
      let ready := s.rdb POS_WEB_STATUS.BACKUP_READY
      let s := (s.inc POS_ERR_CNT.SSI ch).setPc ch { x with ssiBad := x.ssiBad + 1 }
      let s := (s.raiseFault ch .ssi).emitLim 0x0704 ch fun sup => ch + at_ 1 cause + at_ 4 sup
      if x.ssiBad + 1 = 3 then (s.raiseFault ch .los).webFaults ready else s
    else
      let first : Bool := x.ssiLast.isNone || s.rdb POS_STATUS.SSI ch
      let s := s.setPc ch { x with ssiLast := some r, ssiBad := 0 }
      let s := s.clearFault ch .ssi
      if s.faulted ch then s
      else if first then (s.setCount ch r).stepTiming ch 0 start
      else s.posStepAt ch diff start

/-! ### Speed (R351 to R353) -/

/-- C division, toward zero. -/
def cdiv (a b : Int) : Int := Int.tdiv a b
/-- SPEED_WINDOW: at the end of a window of WINDOW_US SPEED is computed (R351). -/
def doSpeedWindow (ch : Nat) (s : Core) : Core :=
  if s.rd POS_CFG.TYPE ch = 0 then s
  else
    let x := s.pc ch
    let s := s.reach (x.winAt + 1000 * s.rd POS_SPD_CFG.WINDOW_US ch)
    let period := s.rd POS_PERIOD.NS ch
    let dir : Int := if s.rdb POS_STATUS.DIR ch then -1 else 1
    let t1 := x.lastStep.getD 0
    let byPeriod : Int := if period ≠ 0 then dir * (10 ^ 9 / period : Nat) else 0
    let speed : Int := match x.base with
      | some (c0, t0) =>
        if x.winN ≥ s.rd POS_SPD_CFG.MIN_EDGES ch ∧ !x.winRev ∧ t1 > t0 then
          cdiv (smodM (s.srcMod ch) (s.posCount ch) c0 * 10 ^ 9) (t1 - t0 : Nat)
        else byPeriod
      | none => byPeriod
    let since := s.etime - t1
    let speed := if period ≠ 0 ∧ since > period then dir * (min speed.natAbs (10 ^ 9 / since) : Nat) else speed
    let speed := if s.faulted ch ∨ s.rdb POS_STATUS.STILL ch then 0 else clampI (-(2 ^ 31 - 1)) (2 ^ 31 - 1) speed
    let base := if x.winN > 0 then some (s.posCount ch, t1) else x.base
    (s.setPc ch { x with winAt := s.etime, winN := 0, winRev := false, base := base }).wr POS_SPEED.SPEED (twos 32 speed) ch
/-- STILL_TIMEOUT: no step for STILL_MS (R353). -/
def doStillTimeout (ch : Nat) (s : Core) : Core :=
  if s.rdb POS_STATUS.STILL ch then s
  else
    let s := s.reach (((s.pc ch).lastStep.getD 0) + 1000000 * s.rd POS_SPD_CFG.STILL_MS ch)
    let s := (s.wr POS_STATUS.STILL 1 ch).wr POS_SPEED.SPEED 0 ch
    s.wr SPG_STATUS.MOVING (b2n (!s.rdb POS_STATUS.STILL (s.rd POS_WEB_STATUS.SRC)))

/-! ### Index marks (R354 to R358) -/

/-- Record an index in the log (R357): the count before any adjustment, ETIME and the flags UNEXPECTED, ARMING,
CORRECTED and REVERSE as bits 0 to 3. -/
def Core.logIndex (s : Core) (ch cap flags : Nat) : Core :=
  let i := s.rd POS_STATUS.IDX_NEXT ch
  let n := 16 * ch + i
  let s := (s.wr2 POS_IDXLOG_CNT_LO.COUNT POS_IDXLOG_CNT_HI.COUNT cap n).wr2
    POS_IDXLOG_ETIME_LO.ETIME POS_IDXLOG_ETIME_HI.ETIME s.etime n
  (s.wrs [(POS_IDXLOG_CNT_HI.UNEXPECTED, flags % 2), (POS_IDXLOG_CNT_HI.ARMING, flags / 2 % 2),
    (POS_IDXLOG_CNT_HI.CORRECTED, flags / 4 % 2), (POS_IDXLOG_CNT_HI.REVERSE, flags / 8 % 2)] n).wr
      POS_STATUS.IDX_NEXT ((i + 1) % 16) ch
/-- The count takes a step by adjustment or load: entries crossed forward are late (R371, R372). -/
def Core.adjust (s : Core) (ch : Nat) (target : Int) : Core :=
  let prev := s.posCount ch
  let d := smodM (s.srcMod ch) target prev
  let x := s.pc ch
  let s := s.setPc ch { x with base := x.base.map fun e => (((e.1 + d) % (s.srcMod ch : Int)).toNat, e.2) }
  (s.setCount ch target).crossStep ch (s.srcMod ch) prev d
/-- The web count takes the correction -dev; the slew offset takes it negated, so that φ does not move (R358, R385). -/
def Core.webCorrect (s : Core) (ch : Nat) (dev : Int) : Core :=
  if ch > 1 ∨ s.rd POS_WEB_STATUS.SRC ≠ ch ∨ s.rdb POS_WEB_STATUS.LOST ∨ dev = 0 then s
  else
    let m := mOf s.webCount s.lpc s.spg.o
    let (q, s) := if ch = 0 then ((-dev) * 65536, s) else s.pc1Web (-dev)
    let s := s.writeWeb (s.webCount + q)
    let o := sgn 64 (twos 64 (m - mOf s.webCount s.lpc 0))
    ({ s with spg := { s.spg with o := o } } : Core).wr SPG_STATUS.SLEWING (b2n (o != 0))
/-- INDEX_EVENT: an edge of Z, of the reference mark or of a print mark on IN2; the chosen edge is an index (R354, R356). -/
def doIndexEvent (ch : Nat) (rising : Bool) (s : Core) : Core :=
  let ty := s.rd POS_CFG.TYPE ch
  let x := { s.pc ch with z := rising }
  if s.in2Driven ch then s
  else
  let s := (s.setPc ch x).erLevels
  if (ty ≠ 1 ∧ ty ≠ 3) ∨ rising == s.rdb POS_CFG.IDX_EDGE ch ∨ (ty = 1 ∧ s.rdb POS_CFG.IDX_GATE ch ∧ !(x.a && x.b)) then s
  else
    let cap := s.posCount ch
    if s.rdb POS_STATUS.DIR ch then s.logIndex ch cap 8
    else
      let s := s.erIndex ch
      let mode := s.rd POS_IDX_CFG.MODE ch
      let preset := s.rd2 POS_PRESET_LO.PRESET POS_PRESET_HI.PRESET ch
      let m := s.srcMod ch
      let ref (s : Core) (v : Nat) : Core := (s.setPc ch { s.pc ch with ref := v }).wr POS_STATUS.IDX_REF 1 ch
      if s.rdb POS_STATUS.IDX_ARMED ch then
        let s := (ref (s.logIndex ch cap 2) preset).wrs [(POS_STATUS.IDX_ARMED, 0), (POS_STATUS.SUSPECT, 0)] ch
        (s.adjust ch preset).emit 0x0708 (ch + at_ 8 cap)
      else if mode = 0 then s.logIndex ch cap 0
      else if !s.rdb POS_STATUS.IDX_REF ch then
        let target := if mode = 2 then preset else cap
        let s := ref (s.logIndex ch cap (if target = cap then 0 else 4)) target
        let s := if mode ≠ 2 then s else s.wr POS_STATUS.SUSPECT 0 ch
        s.adjust ch target
      else
        let pitch := s.rd POS_IDX_PITCH.PITCH ch
        let expect := (x.ref + pitch) % m
        let dev : Int := if pitch = 0 then 0 else smodM m cap expect
        let far := decide (dev.natAbs > s.rd POS_IDX_CFG.TOL ch)
        let correct := s.rd POS_IDX_CFG.POLICY ch = 1
        let say (s : Core) : Core :=
          if far then s.emit 0x0707 (ch + at_ 1 (s.rd POS_IDX_CFG.POLICY ch) + at_ 4 (twos 32 dev) + at_ 8 cap) else s
        if !far ∨ correct then
          let target := if mode = 2 then preset else expect
          let s := ref (s.logIndex ch cap (b2n far + 4 * b2n (dev != 0))) target
          let s := if mode = 2 ∨ target ≠ cap then s.wr POS_STATUS.SUSPECT 0 ch else s
          say ((s.webCorrect ch dev).adjust ch target)
        else say (ref (s.logIndex ch cap 1) cap)
/-- POS_ARM_INDEX (R355). -/
def posArmIndex (ch mode preset : Nat) (s : Core) : Reply × Core :=
  if ch > 7 then (badRange 0x10, s)
  else
    let ty := s.rd POS_CFG.TYPE ch
    let wrap := if ch < 2 then 0 else s.rd POS_WRAP.WRAP ch
    if mode > 2 ∨ (mode ≠ 0 ∧ (ty = 2 ∨ ty = 4)) then (badRange 0x11, s)
    else if preset ≥ 2 ^ 48 ∨ (wrap ≠ 0 ∧ preset ≥ wrap) then (badRange 0x14, s)
    else
      let s := (s.wr POS_IDX_CFG.MODE mode ch).wr2 POS_PRESET_LO.PRESET POS_PRESET_HI.PRESET preset ch
      (.ok 0, s.wrs [(POS_STATUS.IDX_REF, 0), (POS_STATUS.IDX_ARMED, b2n (mode != 0))] ch)

/-! ### Register writes with an effect on a channel (R339, R346, R347, R363) -/

/-- TYPE has changed (R339). -/
def Core.typeChanged (s : Core) (ch : Nat) : Core :=
  let x := s.pc ch
  let had := s.faultBits ch ≠ 0
  let s := s.erSettle.setPc ch { PosCh.reset with
    a := x.a, b := x.b, z := x.z, inA := x.inA, inB := x.inB, sampledAt := x.sampledAt, steps := x.steps, winAt := x.winAt }
  let s := (s.setCount ch 0).clr [POS_SPEED.SPEED, POS_PERIOD.NS, POS_STATUS.IDX_REF, POS_STATUS.LOS,
    POS_STATUS.HALL_BAD, POS_STATUS.AMP, POS_STATUS.SSI, POS_STATUS.RATE, POS_STATUS.SUP] ch
  let s := (s.wr POS_STATUS.INTERP8 0 ch).judgeInterp ch
  let s := (s.refreshFault ch).erLevels
  let s := if ch < 2 then s.restartWindow false else s
  let s := if had then s.emit 0x0706 ch else s
  if ch = 0 ∧ s.rdb POS_WEB_STATUS.LOST then doWebSourceReturn s else s
/-- WRAP has changed: the count is reduced (R346). -/
def Core.wrapChanged (s : Core) (ch : Nat) : Core := s.setCount ch (s.posCount ch)
/-- IDX_CFG.LOAD of PC2 to PC7 (R347). -/
def Core.idxLoad (s : Core) (ch : Nat) : Core :=
  if ch < 2 then s else s.adjust ch (s.rd2 POS_PRESET_LO.PRESET POS_PRESET_HI.PRESET ch)
/-- A write of 1 to POS_WEB_CTL.RETURN (R363). -/
def Core.webReturn (s : Core) : Core :=
  let s := s.wr POS_WEB_STATUS.RETURN_PENDING 1
  if s.rdb POS_WEB_STATUS.LOST then doWebSourceReturn s else s

end Sys2Proof.Machine
end

