-- ==== Sys2Proof/Machine/Pacing.lean ====
section
/-! DEFINITION. Line pacing, strobe placement and firing permission
(spec/09_firing_and_speed_governor.md R383 to R402), with the INHIBIT and RESUME blocks of
spec/10_head_link.md R420 and R440. -/

namespace Sys2Proof.Machine

/-! ### Forward blocks -/

/-- A block of 64b/66b: its sync header, 0b01 for data and 0b10 for control, in a byte of its own, and its 8 bytes (R412). -/
def ctlBlock (n : Nat) : Bytes := 2#8 :: toLE 8 n
/-- A data block. -/
def dataBlock (bs : Bytes) : Bytes := 1#8 :: bs
/-- An ALIGN block (R413, R416). -/
def alignBlock : Bytes := ctlBlock 0x4B
/-- An IDLE block. -/
def idleBlock : Bytes := ctlBlock 0x1E
/-- The first `n` bits of `w` through a scrambler 1 + x^39 + x^58 in state `st`, and its state after them (R412). -/
def scrambled (w : Nat) : Nat → Nat → Nat × Nat
  | 0, st => (0, st)
  | n + 1, st =>
    let r := scrambled w n st
    let b := (w / 2 ^ n + r.2 / 2 ^ 38 + r.2 / 2 ^ 57) % 2
    (r.1 + b * 2 ^ n, (2 * r.2 + b) % 2 ^ 58)
/-- A block leaves on a lane, scrambled. -/
def LinkSt.onLane (x : LinkSt) (lane : Nat) (b : Bytes) : LinkSt :=
  let r := scrambled (leNat (b.drop 1)) 64 (if lane = 0 then x.scrA else x.scrB)
  let x := { x with out := x.out ++ [b], wire := x.wire ++ [(lane, byteAt b 0 + 4 * r.1)], fwd := x.fwd + 1 }
  if lane = 0 then { x with scrA := r.2 } else { x with scrB := r.2 }
/-- Each lane carries an ALIGN block at the present position of the stream (R413). -/
def LinkSt.align (x : LinkSt) : LinkSt := ({ x with aligned := x.pos } : LinkSt).onLane 0 alignBlock |>.onLane 1 alignBlock
/-- The next block of the stream leaves on lane i mod 2; ALIGN blocks stand 16,384 blocks apart (R412, R413). -/
def LinkSt.next (x : LinkSt) (b : Bytes) : LinkSt :=
  let x := if x.pos - x.aligned < 16384 then x else x.align
  ({ x with pos := x.pos + 1 } : LinkSt).onLane (x.pos % 2) b
/-- Blocks leave a link behind those of the same step. IDLE blocks between two steps are not counted among them (DESIGN CHOICE: log
entry 160). -/
def LinkSt.send (x : LinkSt) (bs : List Bytes) : LinkSt := bs.foldl LinkSt.next x
/-- A step begins: nothing has left in it yet. -/
def LinkSt.fresh (x : LinkSt) : LinkSt := { x with out := [], wire := [] }
/-- Further forward blocks leave a link in the same step. -/
def Core.sendMore (s : Core) (l : Nat) (bs : List Bytes) : Core := s.setLn l ((s.ln l).send bs)
/-- A step in which forward blocks of a link may leave. -/
def Core.openLink (s : Core) (l : Nat) : Core := s.setLn l (s.ln l).fresh
/-- A forward block leaves a link. -/
def Core.sendBlock (s : Core) (l : Nat) (b : Bytes) : Core := (s.openLink l).sendMore l [b]

/-! ### INHIBIT and RESUME (R416, R440) -/

/-- An INHIBIT block. -/
def inhibitBlock (slots source : Nat) : Bytes := ctlBlock (0x55 + at_ 1 slots + at_ 2 source)
/-- A RESUME block. -/
def resumeBlock (slots : Nat) : Bytes := ctlBlock (0x5A + at_ 1 slots)
/-- The slots of a link that a source of R440 covers: 1 STOP, 2 SAFE, 3 HEAD. -/
def Core.covered (s : Core) (l source : Nat) : Nat :=
  (s.headsOn l).foldl (fun m h =>
    let c := s.causes (s.barOf h)
    let hit : Bool := if source = 1 then c.testBit 2 || c.testBit 6 || c.testBit 7
      else if source = 2 then c.testBit 3 else s.rdb HDC_FIRE.HOST_INH h
    if hit then m + 2 ^ (h % 8) else m) 0
/-- The slots of a link that any source covers. -/
def Core.coveredAny (s : Core) (l : Nat) : Nat := s.covered l 1 ||| s.covered l 2 ||| s.covered l 3
/-- Does the link's forward side carry blocks for heads (R428 steps 5 and 6)? -/
def Core.linkRuns (s : Core) (l : Nat) : Bool := s.linkState l ≥ 3
/-- A RESUME goes out once no token waits (R420). -/
def Core.flushResume (s : Core) (l : Nat) : Core :=
  let x := s.ln l
  if x.resume = 0 ∨ x.tokens.any (·.sentAt.isNone) then s
  else (s.setLn l { x with resume := 0 }).sendMore l [resumeBlock x.resume]
/-- After a change of causes, `old` being the state before it: one INHIBIT per source that newly covers slots, and a
RESUME for the slots that the last source has left. -/
def Core.syncInhibit (s old : Core) : Core :=
  (List.range 24).foldl (fun s l =>
    if !s.linkRuns l then s
    else
      let blocks := [2, 1, 3].filterMap fun src =>
        let new := s.covered l src &&& (255 ^^^ old.covered l src)
        if new = 0 then none else some (inhibitBlock new src)
      let now := s.coveredAny l
      let freed := old.coveredAny l &&& (255 ^^^ now)
      if blocks = [] ∧ freed = 0 then s
      else
        let x := s.ln l
        let s := s.setLn l { x.fresh with inhibited := now, resume := (x.resume ||| freed) &&& (255 ^^^ now) }
        (s.sendMore l blocks).flushResume l) s
/-- A group of cause changes with the INHIBIT and RESUME blocks it causes. -/
def Core.withInhibit (s : Core) (g : Core → Core) : Core := (g s).syncInhibit s

/-! ### Firing commands (R392 to R394) -/

/-- The bars a BAR_MASK names: 0 names every present bar; none where it names an absent one. -/
def Core.namedBars (s : Core) (mask : Nat) : Option (List Nat) :=
  if mask = 0 then some s.bars
  else if (maskBits 8 mask).all s.barPresent then some (maskBits 8 mask) else none
/-- Are both SAFE channels energised with no discrepancy (R391, R395)? -/
def Core.safeOk (s : Core) : Bool :=
  s.rdb SPG_STATUS.SAFE_A && s.rdb SPG_STATUS.SAFE_B && !s.rdb SPG_STATUS.SAFE_DISC
/-- The causes that FIRE_ENABLE 1 cannot clear now, of those in `c` (R391). -/
def Core.stuckCauses (s : Core) (c : Nat) : Nat :=
  (if !s.safeOk then c &&& 8 else 0) + (if s.rdb THM_STATUS.TRIP then c &&& 16 else 0) +
    (if s.rdb POS_WEB_STATUS.LOST then c &&& 32 else 0) + (c &&& 128)
/-- The causes of R391 whose condition holds now, whatever the bar: SAFE, SENSOR_TRIP, WEB_LOST, SAFE_IDLE. -/
def Core.liveCauses (s : Core) : Nat := s.stuckCauses 0x38 + (if s.bootState = 8 then 128 else 0)
/-- FIRE_ENABLE. -/
def fireEnable (mask enable : Nat) (s : Core) : Reply × Core :=
  match s.namedBars mask with
  | none => (absent 0x10, s)
  | some bs =>
    if enable > 1 then (badRange 0x11, s)
    else if enable = 0 then (.ok 0, s.setCause bs 1)
    else
      let kept := bs.foldl (fun m b => m ||| s.stuckCauses (s.causes b)) 0
      if kept ≠ 0 ∨ !s.rdb SPG_STATUS.LOCK then
        (.err 0x15 0 0xFFFF (some (kept + if s.rdb SPG_STATUS.LOCK then 0 else 2 ^ 31)), s)
      else
        let was := bs.filter fun b => s.causes b != 0
        let s := s.withInhibit fun s => bs.foldl (fun s b => s.setCauses b 0) s
        (.ok 0, if was = [] then s else s.emit 0x0802 (was.foldl (fun m b => m + 2 ^ b) 0))
/-- Set a cause on bars and send an INHIBIT on every link that serves one of them, whether or not the cause was set
before (R393). -/
def stopBars (bs : List Nat) (cause : Nat) (s : Core) : Core :=
  let s := s.setCause bs cause
  (List.range 24).foldl (fun s l =>
      let slots := (s.headsOn l).foldl (fun m h => if bs.contains (s.barOf h) then m + 2 ^ (h % 8) else m) 0
      if slots = 0 ∨ !s.linkRuns l then s
      else
        let x := s.ln l
        (s.setLn l { x with inhibited := s.coveredAny l, resume := x.resume &&& (255 ^^^ s.coveredAny l) }).sendBlock l
          (inhibitBlock slots 1)) s
/-- STOP_FIRE. -/
def stopFire (mask : Nat) (s : Core) : Reply × Core :=
  match s.namedBars mask with
  | none => (absent 0x10, s)
  | some bs => (.ok 0, stopBars bs 2 s)
/-- The answer to a command that addresses a head's firing where the head is not attached (R14, R150). -/
def Core.headRefusal (s : Core) (h off : Nat) : Option Reply :=
  if h ≥ 192 then some (badRange off)
  else if !s.headPresent h then some (absent off)
  else if s.headState h = 2 then some (busy 0x0013)
  else if s.headState h ≠ 3 then some (wrongState 0x0013)
  else none
/-- The THROTTLE of a sensor, or the LIMIT of a head by 0x20 + h, that is in force: one that THERM_SET has written since the last
chirp's item 3 is not yet (R540). -/
def Core.limitOf (s : Core) (n : Nat) : Int :=
  (mget none s.thm.late n).getD (if n < 32 then s.rds THMS_WT.THROTTLE n else s.rds HDC_TEMP_LIM.LIMIT (n - 32))
/-- FIRE_INHIBIT_HEAD. -/
def fireInhibitHead (h inh : Nat) (s : Core) : Reply × Core :=
  if h ≥ 192 then (badRange 0x10, s)
  else if !s.headPresent h then (absent 0x10, s)
  else if inh > 1 then (badRange 0x11, s)
  else
    match s.headRefusal h 0x10 with
    | some r => (r, s)
    | none =>
      if inh = 1 then
        let s := s.wr HDC_FIRE.HOST_INH 1 h
        let l := h / 8; let x := s.ln l; let c := s.coveredAny l
        (.ok 0, if s.linkRuns l then
            (s.setLn l { x with inhibited := c, resume := x.resume &&& (255 ^^^ c) }).sendBlock l (inhibitBlock (2 ^ (h % 8)) 3)
          else s)
      else
        let trip := s.rdb HDC_FIRE.TRIP h
        if trip ∧ s.headDec h ≥ s.limitOf (32 + h) then (wrongState 0x0013, s)
        else
          let s := s.withInhibit fun s => (s.wr HDC_FIRE.HOST_INH 0 h).wr HDC_FIRE.TRIP 0 h
          (.ok 0, if trip then s.emit 0x0807 h else s)

/-! ### SAFE (R88 to R90, R395) -/

/-- The channels as bits: 0 A, 1 B. -/
def Core.safeBits (s : Core) : Nat := s.rd SPG_STATUS.SAFE_A + 2 * s.rd SPG_STATUS.SAFE_B
/-- Set a channel. -/
def Core.setSafe (s : Core) (chB on : Bool) : Core :=
  let t := s.wr (if chB then SPG_STATUS.SAFE_B else SPG_STATUS.SAFE_A) (b2n on)
  let split := t.safeBits = 1 ∨ t.safeBits = 2
  { t with spg := { t.spg with safeAt :=
      if t.safeBits = s.safeBits then s.spg.safeAt else if split then some t.etime else none } }
/-- Is contact SAFE_FB_A (or _B) closed? It is while its channel holds firing inhibited (R89). -/
def Core.safeFbClosed (s : Core) (chB : Bool) : Bool :=
  !s.rdb (if chB then SPG_STATUS.SAFE_B else SPG_STATUS.SAFE_A)
/-- SAFE_INHIBIT: a channel has been de-energised for more than 1 µs. SAFE_DISC clears when both are de-energised together. -/
def doSafeInhibit (chB : Bool) (s : Core) : Core :=
  let s := s.setSafe chB false
  let s := if s.safeBits = 0 then s.wr SPG_STATUS.SAFE_DISC 0 else s
  (s.withInhibit fun s => s.setCause allBars 3).emit 0x0803 s.safeBits
/-- SAFE_ENERGISED: SAFE_DISC clears where both channels were de-energised together; the causes stay latched. -/
def doSafeEnergised (chB : Bool) (s : Core) : Core :=
  (if s.safeBits = 0 then s.wr SPG_STATUS.SAFE_DISC 0 else s).setSafe chB true
/-- SAFE_DISCREPANCY: one channel has stayed de-energised for more than 100 ms while the other was energised. -/
def doSafeDiscrepancy (s : Core) : Core :=
  match s.spg.safeAt with
  | none => s
  | some t =>
    if s.rdb SPG_STATUS.SAFE_DISC then s
    else ((s.reach (t + 100000000)).wr SPG_STATUS.SAFE_DISC 1).emit 0x0804 (b2n (s.safeBits == 1))

/-! ### Where a line strikes (R388, R389) -/

/-- TRIM as a signed number: a stored -64 cannot occur (R389). -/
def Core.trimWanted (s : Core) (b : Nat) : Int := s.rds SPGB_TRIM.TRIM b
/-- The trim a line of a bar takes: what the line took at its first issue, or the value applied now. -/
def Core.trimOf (s : Core) (b w : Nat) : Int :=
  match (s.bf b).trims.find? (·.1 == w) with
  | some e => e.2
  | none => s.rds SPGB_TRIM.APPLIED b
/-- The SKEW of a line of a head: that in force when it was screened (R307). -/
def Core.skewOf (s : Core) (h id w : Nat) : Nat :=
  match (s.hf h).staged.find? fun y => y.w == w && y.job == id with
  | some y => y.skew
  | none => s.rd HDC_GEO_SKEW.SKEW h
/-- S of R388 for web line index `w` of a job on head `h`. -/
def Core.strikePos (s : Core) (h id w : Nat) : Nat :=
  let b := s.barOf h
  posMod ((s.strikeAt b id w : Int) + s.skewOf h id w + s.trimOf b w)
/-- The effective lead of a link in ns (R390). -/
def Core.lead (s : Core) (l : Nat) : Nat := max (100 * s.rd SPG_CFG.LEAD) (s.rd HLK_LAT.LEAD_MIN_NS l)
/-- `a / b` rounded, half up. -/
def roundHalfUp (a b : Int) : Int := (2 * a + b) / (2 * b)
/-- The predicted strobe of a position (R390), none while v is not positive. -/
def Core.predict (s : Core) (S : Nat) : Option Int :=
  if s.spg.v ≤ 0 then none
  else some ((s.etime : Int) + roundHalfUp (sgn 64 (twos 64 ((S : Int) * 2 ^ 26 - s.spg.p)) * 10 ^ 9) s.spg.v)

/-! ### Alternate mode (R397) -/

/-- Does alternate mode hold for line `w` of a bar? -/
def Core.inAlt (s : Core) (b w : Nat) : Bool :=
  let x := s.bf b
  (match x.altFrom with
    | some a => decide (lineDiff w a ≥ 0)
    | none => false) &&
  (match x.altTo with
    | some a => decide (lineDiff w a < 0)
    | none => true)
/-- Show a bar's mode in SPG_b_FIRE and in its heads. -/
def Core.showAlt (s : Core) (b : Nat) (on : Bool) : Core :=
  (s.headsOfBar b).foldl (fun s h => s.wr HDC_FIRE.ALT (b2n on) h) (s.wr SPGB_FIRE.ALT (b2n on) b)
/-- The line boundary of a bar behind line `w`: no head has been issued a line beyond it (R397). -/
def Core.altBoundary (s : Core) (b w : Nat) : Nat :=
  match (s.bf b).lastLine with
  | some x => if lineDiff x w > 0 then lineAdd x 1 else lineAdd w 1
  | none => lineAdd w 1
/-- The bar enters alternate mode from line `w` on. -/
def Core.enterAlt (s : Core) (b w : Nat) : Core :=
  (s.setBf b { s.bf b with altFrom := some w, altTo := none, altGood := 0 }).showAlt b true
/-- The largest MIN_PERIOD of a bar's heads. -/
def Core.maxMinPeriod (s : Core) (b : Nat) : Nat := (s.headsOfBar b).foldl (fun m h => max m (s.rd HDC_MIN_PERIOD.NS h)) 0
/-- Account the spacing of line `w`, predicted at `t` on the bar's reference head: 256 lines in a row at 1.05 times the
largest MIN_PERIOD end alternate mode at the next line boundary. -/
def Core.noteSpacing (s : Core) (b w : Nat) (t : Int) : Core :=
  let x := s.bf b
  let good : Bool := match x.lastStrobe with
    | some (w0, t0) => lineDiff w w0 == 1 && decide (100 * (t - t0) ≥ 105 * (s.maxMinPeriod b : Int))
    | none => false
  let n := if good then x.altGood + 1 else 0
  let s := s.setBf b { x with altGood := n, lastStrobe := some (w, t.toNat) }
  if s.rdb SPGB_FIRE.ALT b ∧ n ≥ 256 then
    (s.setBf b { s.bf b with altTo := some (s.altBoundary b w), altGood := 0 }).showAlt b false
  else s

/-! ### Issuing a line (R390, R396, R399, R437) -/

/-- The class of a line at issue, if one of tests 1 to 3 of R399 applies, with whether a tolerant job's bar enters
alternate mode: once, for all its heads, however many lines come too close ahead of the boundary (R397). -/
def Core.issueTest (s : Core) (h w : Nat) (j : Job) (line : Nat) (t : Int) (st : Option StagedLine) :
    Option LineClass × Bool :=
  let b := s.barOf h; let x := s.hf h
  let limit := max (s.rd HDC_MIN_PERIOD.NS h) 6250
  let close : Bool := match x.lastTok with
    | some t0 => decide (t - (t0 : Int) < limit)
    | none => false
  let alt := s.inAlt b w
  if s.causes b ≠ 0 ∨ s.rdb HDC_FIRE.HOST_INH h ∨ s.rdb HDC_FIRE.TRIP h ∨ !s.attached h ∨ !s.linkUp (h / 8) then
    (some .inh, false)
  else if close ∨ (alt ∧ line % 2 = 1) then
    (some .ovs, close && !alt && !s.rdb SPGB_FIRE.ALT b && s.rd SPG_CFG.OVS_POLICY == 1 && bit j.flags 0)
  else
    match st with
    | some l => if l.seq.isSome && !l.spoilt then (none, false) else (some .late, false)
    | none => (some .late, false)
/-- The first issue of a line to a bar: the line register, the trim, and the end of a web-loss range (R389, R401). -/
def Core.barIssues (s : Core) (b w line : Nat) : Core :=
  let x := s.bf b
  let old : Bool := match x.lastLine with
    | some w0 => decide (lineDiff w w0 ≤ 0)
    | none => false
  if old then s
  else
    let ap := s.rds SPGB_TRIM.APPLIED b; let want := s.trimWanted b
    let ap' := if ap < want then ap + 1 else if want < ap then ap - 1 else ap
    let s := s.setBf b { x with lastLine := some w, trims := (w, ap) :: x.trims.take 7, webLoss := none }
    let s := (s.wr SPGB_TRIM.APPLIED (twos 7 ap') b).wr SPGB_LINE.L line b
    match x.webLoss with
    | none => s
    | some (id, held) =>
      let s := s.emit 0x080A (b + at_ 1 0x10 + at_ 2 1 + at_ 4 (posLine held) + at_ 8 (posLine held))
      s.addDefect id ⟨b, true, 5, w, w, 0⟩
/-- A line of an attached head that is due and not screened stays so: the stripe engine goes on behind it (R304). -/
def Core.passLine (s : Core) (l w : Nat) : Core :=
  let x := s.scr l
  let old : Bool := match x.nextW with
    | some n => decide (lineDiff n w > 0)
    | none => false
  if old then s else s.setScr l { x with nextW := some (lineAdd w 1) }
/-- Issue line `w` of head `h` with predicted strobe `t`. FIRE_OVERSPEED comes with the first line of a run that is blanked as
overspeed, and with a bar's entry into alternate mode (R411; DEDUCED: log entry 159). -/
def Core.issueLine (s : Core) (h w : Nat) (j : Job) (line : Nat) (t : Int) : Core :=
  let b := s.barOf h; let l := h / 8
  let x := s.hf h
  let st := x.staged.find? fun y => y.w == w && y.job == j.id
  let (cls, enter) := s.issueTest h w j line t st
  let odd := s.inAlt b w && line % 2 == 1
  let ref := (s.headsOfBar b).head? == some h
  let s := s.barIssues b w line
  let s := if ref then s.noteSpacing b w t else s
  let s := s.add64 HDC_ISSUED_LO.COUNT HDC_ISSUED_HI.COUNT h 1
  let s := s.modJob j.id fun j => { j with open_ := j.open_ + 1 }
  let rest := x.staged.filter fun y => !(y.w == w && y.job == j.id)
  let first := cls == some .ovs && !odd && !x.ovs
  let x := { s.hf h with staged := rest, nextW := some (lineAdd w 1), ovs := if odd then x.ovs else cls == some .ovs }
  let s := s.cdcPulse (cdcId 4 8 l)
  let s := if st.isNone && s.attached h then s.passLine l w else s
  match cls, st with
  | none, some y =>
    let seq := y.seq.getD 0
    let s := s.setHf h { x with lastTok := some t.toNat, issued := x.issued ++ [⟨j.id, w, line, t.toNat, y.drops, seq⟩] }
    (s.wr HDC_FIRE.FIRING 1 h).queueToken l ⟨h % 8, seq, true, t.toNat, y.drops, none⟩
  | cls, st =>
    let c := cls.getD .late
    let s := (s.setHf h x).wr HDC_FIRE.FIRING 0 h
    let s := match st.bind StagedLine.seq with
      | some q => if s.linkUp l then s.queueToken l ⟨h % 8, q, false, 0, 0, none⟩ else s
      | none => s
    let s := if enter then s.emitLim 0x0808 (192 + b) fun n => h + at_ 1 1 + at_ 4 n
      else if first then s.emitLim 0x0808 h fun n => h + at_ 4 n
      else if c = .late then s.emitLim 0x0809 h fun n => h + at_ 4 n
      else s
    let s := if enter then s.enterAlt b (s.altBoundary b w) else s
    s.closeLine h j.id w ((st.map StagedLine.drops).getD 0) c
      (match c with
        | .ovs => !odd
        | .inh => s.inhOpens b j.id
        | _ => true)
/-- Issue every line of a head whose predicted strobe lies within the link's lead. -/
def Core.issueHead (h : Nat) : Nat → Core → Core
  | 0, s => s
  | fuel + 1, s =>
    match s.nextLine (s.barOf h) (s.hf h).nextW true with
    | none => s
    | some (w, j, _, line) =>
      match s.predict (s.strikePos h j.id w) with
      | none => s
      | some t =>
        if t - s.etime ≤ s.lead (h / 8) then (s.issueLine h w j line t).issueHead h fuel else s
/-- Issue lines to every present head (R399). -/
def Core.issueAll (s : Core) : Core := s.allHeads.foldl (fun s h => s.issueHead h 4096) s

/-! ### The loop (R384 to R387) -/

/-- floor (2 π 2^32). -/
def twoPi32 : Int := 26986075409
/-- The slew offset moves toward 0 by at most SLEW % of the line rate (R385). -/
def Core.slew (s : Core) : Core :=
  let step : Int := (s.rd SPG_CFG.SLEW : Int) * s.spg.v.natAbs / 100000000
  let o := s.spg.o
  let o' := if o > 0 then max 0 (o - step) else min 0 (o + step)
  ({ s with spg := { s.spg with o := o' } } : Core).wr SPG_STATUS.SLEWING (b2n (o' != 0))
/-- One update of p, v and a from e, each with 96-bit products scaled to Ts = 1 µs and floored (R384). -/
def loopStep (bw : Nat) (p v a e : Int) : Int × Int × Int :=
  let w := twoPi32 * bw
  (sgn 64 (twos 64 (p + (v * 2 ^ 32 + 3 * w * e) / (2 ^ 32 * 1000000))),
   sgn 64 (twos 64 (v + (a * 2 ^ 64 + 3 * w * w * e) / (2 ^ 64 * 1000000))),
   sgn 64 (twos 64 (a + w * w * w * e / (2 ^ 96 * 1000000))))
/-- Lock and the error registers (R386, R408). -/
def Core.noteLock (s : Core) (e : Int) : Core :=
  let err := sar e 20
  let s := s.wr SPG_ERR.ERR (satS 16 err)
  let pk := satU 15 (absN e / 2 ^ 20)
  let s := if pk > s.rd SPG_ERR.PEAK then s.wr SPG_ERR.PEAK pk else s
  let run := if absN e ≤ 2 ^ 28 then min 1000 (s.spg.lockRun + 1) else 0
  let s := { s with spg := { s.spg with lockRun := run } }
  if run ≥ 1000 then s.wr SPG_STATUS.LOCK 1
  else if absN e > 2 ^ 30 ∧ s.rdb SPG_STATUS.LOCK then
    (s.wr SPG_STATUS.LOCK 0).emit 0x080B (at_ 2 (satS 16 err))
  else s
/-- HDC_n_FIRE.FIRING clears where no lines of a head are being sent: the web stands or is lost, or no line follows (R410). -/
def Core.restFiring (s : Core) : Core :=
  s.allHeads.foldl (fun s h =>
    if s.rdb HDC_FIRE.FIRING h && (s.rdb POS_WEB_STATUS.LOST || decide (s.spg.v ≤ 0) ||
        (s.nextLine (s.barOf h) (s.hf h).nextW true).isNone) then s.wr HDC_FIRE.FIRING 0 h else s) s
/-- The pitch multiplier moves by one update. -/
def Core.track (s : Core) : Core :=
  let phi := s.phi
  let s := s.slew
  let e := sgn 64 (twos 64 (mOf s.webCount s.lpc s.spg.o - s.spg.p))
  let (p, v, a) := loopStep (s.rd SPG_CFG.BW_HZ) s.spg.p s.spg.v s.spg.a e
  let s := { s with spg := { s.spg with p := p, v := v, a := a } }
  (s.noteLock e).crossWeb phi
/-- LOOP_UPDATE: every 1,000 ns of ETIME the loop moves and lines within each link's lead are issued; while the web source
is lost the loop holds p (R384, R387, R399). -/
def doLoopUpdate (s : Core) : Core :=
  let s := s.reach (max (s.spg.upd + 1000) (alignUp s.etime 1000))
  let s := { s with spg := { s.spg with upd := s.etime } }
  let s := if s.rdb POS_WEB_STATUS.LOST then { s with spg := { s.spg with v := 0, a := 0 } } else s.track.issueAll
  let s := s.wr2 SPG_POS_LO.POS SPG_POS_HI.POS s.phi
  let s := s.wrs [(SPG_RATE.HZ, satU 20 (absN s.spg.v / 2 ^ 32)), (SPG_STATUS.REVERSE, b2n (decide (s.spg.v < 0))),
    (SPG_STATUS.MOVING, b2n (!s.rdb POS_STATUS.STILL (s.rd POS_WEB_STATUS.SRC)))]
  s.restFiring.endBars

/-- An accepted write of SPG_LPC sets the loop state to p = m, v = 0, a = 0 (R383). Compare entries are not crossed by it:
a change of the scale is no movement. DEDUCED: log entry 17. -/
def Core.lpcWritten (s : Core) : Core :=
  { s with spg := { s.spg with p := mOf s.webCount s.lpc s.spg.o, v := 0, a := 0 } }

end Sys2Proof.Machine
end

