-- ==== Sys2Proof/Machine/Discovery.lean ====
section
/-! DEFINITION. Identity memories, discovery and attaching of heads, and PRESS_LOAD
(spec/03_startup_and_images.md R137 to R150, R609; spec/07_nozzle_path_and_screening.md R300, R301). -/

namespace Sys2Proof.Machine

/-! ### Identity memories (R137 to R145) -/

/-- A byte of an identity memory; a byte in no segment reads 0xFF. -/
def memByte (m : IdMem) (a : Nat) : Byte :=
  match m.find? fun e => e.1 ≤ a && a < e.1 + e.2.length with
  | some (o, bs) => bs.getD (a - o) 0xFF#8
  | none => 0xFF#8
/-- Bytes `[a, a + n)` of an identity memory. -/
def memRead (m : IdMem) (a n : Nat) : Bytes := (List.range n).map fun i => memByte m (a + i)
/-- A little-endian field. -/
def memLE (m : IdMem) (a n : Nat) : Nat := leNat (memRead m a n)
/-- A signed 16-bit field. -/
def memS (m : IdMem) (a : Nat) : Int := sgn 16 (memLE m a 2)
/-- The reads of a memory that fail, up to the one whose third failure ends them (R148). -/
def readsUntil : List (Nat × List (Option Byte)) → List (Nat × List (Option Byte))
  | [] => []
  | f :: l => if f.2.length ≥ 3 then [f] else f :: readsUntil l
/-- A memory as it is read: none where a read has failed three times (R148). -/
def idGot (r : IdRead) : Option IdMem := if r.fails.any fun f => decide (3 ≤ f.2.length) then none else some r.mem
/-- The time its unanswered reads take, at `ns` each. -/
def idWaitsBy (ns : Nat) (r : IdRead) : Nat :=
  (readsUntil r.fails).foldl (fun n f => n + ns * (f.2.take 3).countP (·.isNone)) 0
/-- The time the unanswered reads of a head or head end take: 10 ms each (R148). -/
def idWaits (r : IdRead) : Nat := idWaitsBy 10000000 r
/-- Read a memory. -/
def Core.readId (s : Core) (r : IdRead) : Option IdMem × Core := (idGot r, s.reach (s.etime + idWaits r))
/-- The SERIAL of a memory. -/
def memSerial (m : IdMem) : Nat := memLE m 0x10 8
/-- Checks 2 to 7 of R609 on a header and the descriptor's CRC: the reason of the first that fails, 0 for none. `ranges`
judges the descriptor fields. -/
def identCheck (m : IdMem) (kind lmin lmax : Nat) (ranges : Bool) : Nat :=
  let len := memLE m 8 4
  if memLE m 0 4 ≠ 0x4D444954 then 2
  else if memLE m 5 1 ≠ 1 then 4
  else if memLE m 4 1 ≠ kind then 5
  else if len < lmin ∨ len > lmax then 4
  else if memLE m 0x1C 4 ≠ crc32c (memRead m 0 0x1C ++ memRead m 0x20 len) then 3
  else if memSerial m = 0 ∨ memSerial m = 2 ^ 64 - 1 ∨ !ranges then 6
  else 0
/-- The ranges of a head descriptor (R138, R139). -/
def headRanges (m : IdMem) : Bool :=
  let n := memLE m 0x20 2; let db := memLE m 0x22 1; let mp := memLE m 0x24 4
  decide (1 ≤ n ∧ n ≤ 8192) && decide (1 ≤ db ∧ db ≤ 3) && decide (2500 ≤ mp ∧ mp ≤ 1000000) &&
    decide (memS m 0x2C < memS m 0x2E) && decide (memS m 0x30 < memS m 0x32) &&
    decide (memS m 0x34 < memS m 0x36) && decide (memS m 0x36 ≤ memS m 0x2E)
/-- The reason a head end is refused (R144, R152, R609), 0 for none; `top` is one more than the highest slot the press uses.
SLOTS below `top` is CAPABILITY. SLOTS above 8, or 0 where the press uses no slot, is RANGE: the rules state 1 to 8 and name no
reason for these (DESIGN CHOICE: log entry 139). -/
def headEndCheck (m : IdMem) (top : Nat) : Nat :=
  let slots := memLE m 0x20 1
  let r := identCheck m 2 32 4064 (decide (slots ≤ 8 ∧ (1 ≤ slots ∨ 1 ≤ top)))
  if r ≠ 0 then r else if memLE m 0x22 1 < 16 ∨ slots < top then 9 else 0

/-! ### Usage records (R140 to R143) -/

/-- A 256-bit key as bytes, most significant first. -/
def keyBytes (k : BitVec 256) : Bytes := toBE 32 k.toNat
/-- The tag key of a head (R141). -/
def usageKey (serial : Nat) : Bytes := hmac (keyBytes Config.usageKey) (toLE 8 serial ++ [1#8])
/-- A usage record as 64 bytes (R140). -/
def usageBytes (serial : Nat) (u : Usage) : Bytes :=
  let b := toLE 4 u.seq ++ toLE 4 0 ++ toLE 8 u.drops ++ toLE 8 u.strobes ++ toLE 4 u.fireS ++ toLE 4 (twos 16 u.tPeak)
  b ++ hmac (usageKey serial) b
/-- Does a 64-byte copy's tag verify? -/
def usageOk (serial : Nat) (b : Bytes) : Bool := hmac (usageKey serial) (b.take 0x20) == (b.drop 0x20).take 0x20
/-- The record in a copy. -/
def usageOf (b : Bytes) : Usage := ⟨leAt b 0 4, leAt b 8 8, leAt b 0x10 8, leAt b 0x18 4, sgn 16 (leAt b 0x1C 2)⟩
/-- The record in force, with its copy (R142); none where neither verifies. -/
def usageInForce (m : IdMem) : Option (Usage × Nat) :=
  let c0 := memRead m 0x400 64; let c1 := memRead m 0x440 64; let sn := memSerial m
  match usageOk sn c0, usageOk sn c1 with
  | true, true => if (usageOf c0).seq < (usageOf c1).seq then some (usageOf c1, 1) else some (usageOf c0, 0)
  | true, false => some (usageOf c0, 0)
  | false, true => some (usageOf c1, 1)
  | false, false => none
/-- Are both copies all 0xFF? -/
def usageBlank (m : IdMem) : Bool := (memRead m 0x400 128).all (· == 0xFF#8)

/-! ### Corrections of a head (R147 step 4, R301, R311) -/

/-- The memory a head presented last. -/
def Core.headMem (s : Core) (h : Nat) : Option IdMem := ((s.ln (h / 8)).mems.find? (·.1 == h % 8)).map (·.2)
/-- The gain table entry of a nozzle: neutral where CAL_FLAGS marks no table. -/
def gainOf (m : IdMem) (n : Nat) : Nat := if bit (memLE m 0x23 1) 0 then memLE m (0x1000 + 2 * n) 2 % 4096 else 0x400
/-- The tone table, or the neutral curve. -/
def toneOf (m : IdMem) : List Nat :=
  if bit (memLE m 0x23 1) 1 then (List.range 256).map fun i => memLE m (0x5000 + 2 * i) 2 % 4096
  else (List.range 256).map toneNeutral
/-- Does CAL_CRC match (R138, R139)? -/
def calOk (m : IdMem) : Bool :=
  let f := memLE m 0x23 1
  let g := if bit f 0 then memRead m 0x1000 (2 * memLE m 0x20 2) else []
  let t := if bit f 1 then memRead m 0x5000 512 else []
  (!bit f 0 && !bit f 1) || crc32c (g ++ t) == memLE m 0x40 4
/-- Set the entries of the columns whose head A is `h` neutral with the head's gains (R147, R302). -/
def Core.loadGains (s : Core) (h : Nat) (m : IdMem) : Core :=
  let b := s.barOf h
  ((s.columns (h / 8)).filter (·.hA == h)).foldl
    (fun s c => s.setNoz (nozKey b c.k) (nozWithGain nozNeutral (gainOf m c.nA))) s
/-- Clear the error accumulators of a head's columns (R326). -/
def Core.clearHeadErr (s : Core) (h : Nat) : Core :=
  let b := s.barOf h
  let base := s.rd HDC_GEO_BASE.BASE h
  s.clearErr fun key => decide (key / 131072 = b ∧ base ≤ key % 131072 ∧ key % 131072 < base + s.nozzles h)
/-- A head's median window starts afresh (R536). -/
def Core.restartHeadTemp (s : Core) (h : Nat) : Core :=
  let t := s.thm
  ({ s with thm := { t with win := mdel (0x20 + h) t.win, raw := mdel (0x20 + h) t.raw
                            cond := mdel (0x20 + h) t.cond } } : Core).wrs
    [(HDC_TEMP_WARN.BROKEN, 0), (HDC_TEMP_WARN.AT_WARN, 0)] h

/-! ### Heads (R147 to R150) -/

/-- A head is refused: its state where the description names it, and HEAD_REFUSED. -/
def Core.refuseHead (s : Core) (h reason : Nat) : Core :=
  let s := s.countFire h
  let s := if s.headPresent h then
      s.wrs [(HDC_ID_STATUS.STATE, 4), (HDC_ID_STATUS.REASON, reason), (HDC_ID_STATUS.USAGE_FRESH, 0)] h
    else s
  s.emit 0x0942 (h + at_ 1 reason)
/-- A head waits (R147 step 1, R439). -/
def Core.waitHead (s : Core) (h : Nat) : Core :=
  (s.countFire h).wrs [(HDC_ID_STATUS.STATE, 1), (HDC_ID_STATUS.REASON, 0), (HDC_ID_STATUS.USAGE_FRESH, 0)] h
/-- The checks of R147 step 3 against the description and the head end. -/
def Core.headFits (s : Core) (h : Nat) (m : IdMem) (end_ : Bytes) : Bool :=
  let n := memLE m 0x20 2; let db := s.rd GEO_CFG.DROP_BITS (s.barOf h)
  n == s.nozzles h && decide (n ≤ leAt end_ 0x24 4) && decide (db ≤ memLE m 0x22 1) && bit (byteAt end_ 0x23) (db - 1)
/-- Strobed lines and drops of a head not yet in a usage record (R444). -/
def Core.unwritten (s : Core) (h : Nat) : Nat × Nat :=
  let r := s.hr h
  ((s.rd2 HDC_STROBED_LO.COUNT HDC_STROBED_HI.COUNT h + 2 ^ 64 - r.baseStrobes) % 2 ^ 64,
   (s.rd2 HDC_DROPS_LO.COUNT HDC_DROPS_HI.COUNT h + 2 ^ 64 - r.baseDrops) % 2 ^ 64)
/-- The usage record of a head that attaches. A new head discards its predecessor's unwritten counts (R445); one that was attached
before keeps its highest reading, written or not (R444). Of a head attached
with counts 0, T_PEAK starts at the least value, below every reading (R143; DESIGN CHOICE: log entry 139). -/
def Core.attachUsage (s : Core) (h : Nat) (m : IdMem) (isNew : Bool) : Core :=
  let r := s.hr h
  let (u, copy) := (usageInForce m).getD (⟨0, 0, 0, 0, 0⟩, 1)
  let (lines, drops) := s.unwritten h
  let s := if isNew && r.serial.isSome && (lines != 0 || drops != 0) then s.emit 0x090C (h + at_ 8 drops) else s
  let u := if usageInForce m = none then { u with tPeak := -32768 } else u
  if isNew then
    s.setHr h { s.hr h with
      serial := some (memSerial m), cal := m, usage := u, copy := copy, attachedAt := s.etime, countAt := s.etime, fireNs := 0, write := none
      periods := 0, pfDue := false
      baseStrobes := s.rd2 HDC_STROBED_LO.COUNT HDC_STROBED_HI.COUNT h
      baseDrops := s.rd2 HDC_DROPS_LO.COUNT HDC_DROPS_HI.COUNT h }
  else
    s.setHr h { s.hr h with cal := m, usage := { u with tPeak := max u.tPeak r.usage.tPeak }, copy := copy, attachedAt := s.etime
                            countAt := s.etime, periods := 0, write := none, pfDue := false }
/-- Steps 4 and 5 of R147 for a head that has passed the others; `fresh` is the cause of USAGE_FRESH, 0 for none. CHANGED and
HEAD_CHANGED come once the checks of CAL_CRC and of a twin have passed, and HDC_n_SERIAL takes the SERIAL of a head that attaches
(DESIGN CHOICE: log entry 139). -/
def Core.attachHead (s : Core) (h fresh : Nat) (m : IdMem) : Core :=
  let sn := memSerial m
  let isNew := (s.hr h).serial != some sn
  let twin := s.allHeads.any fun g => g != h && s.attached g && (s.hr g).serial == some sn
  if isNew ∧ !calOk m then s.refuseHead h 3
  else if twin then s.refuseHead h 10
  else
    let s := if isNew && (s.hr h).serial.isSome then
        (s.wr HDC_ID_STATUS.CHANGED 1 h).emit 0x0943 (h + at_ 8 sn)
      else s
    let s := if isNew then
        let lim := memS m 0x34
        ((s.wrs [(HDC_TEMP_LIM.LIMIT, twos 16 lim), (HDC_TEMP_LIM.TRIP, memLE m 0x36 2),
          (HDC_TEMP_WARN.WARN, twos 16 (lim - 50))] h).setCurve h 0 (toneOf m)).setCurve h 1 (toneOf m) |>.loadGains h m
      else s
    let s := s.attachUsage h m isNew
    let s := ((s.clearHeadErr h).restartHeadTemp h).rebuildTwins
    let s := s.wrs [(HDC_SERIAL_LO.SERIAL, sn % 2 ^ 32), (HDC_SERIAL_HI.SERIAL, sn / 2 ^ 32),
      (HDC_MIN_PERIOD.NS, memLE m 0x24 4), (HDC_TONE_GEN.GEN, 0), (HDC_ID_STATUS.STATE, 3), (HDC_ID_STATUS.REASON, 0),
      (HDC_ID_STATUS.USAGE_FRESH, b2n (fresh != 0))] h
    let s := s.setLn (h / 8) { s.ln (h / 8) with gone := (s.ln (h / 8)).gone.filter (· != h % 8)
                                                 lowRun := mdel (h % 8) (s.ln (h / 8)).lowRun }
    let s := s.emit 0x0941 (h + at_ 8 sn)
    if fresh = 0 then s else s.emit 0x0945 (h + at_ 1 fresh)
/-- The checks of R609 on a head whose slot is POPULATED, then its attach where the description names it. `mem` is none
where a read has failed three times (R148). -/
def Core.checkHead (s : Core) (h : Nat) (mem : Option IdMem) (end_ : Bytes) : Core :=
  match mem with
  | none => s.refuseHead h 1
  | some m =>
    let r := identCheck m 1 36 992 (headRanges m)
    if r ≠ 0 then s.refuseHead h r
    else
      let s := s.setHr h { s.hr h with desc := memRead m 0 0x44 }
      let s := if s.headPresent h then s.wr HDC_MIN_PERIOD.NS (memLE m 0x24 4) h else s
      let fresh := if (usageInForce m).isSome then 0 else if usageBlank m then 1 else 2
      if fresh = 2 ∧ !s.rdb SYS_ID_POLICY.USAGE_BAD then s.refuseHead h 8
      else if !s.headPresent h then s
      else if !s.headFits h m end_ then s.refuseHead h 7
      else s.attachHead h fresh m
/-- Read one slot afresh and check it (R147 steps 2 to 5): a slot that is used and not POPULATED is a MISMATCH. -/
def Core.checkSlot (s : Core) (h : Nat) (mem : Option IdMem) (end_ : Bytes) : Core :=
  if (byteAt end_ 0x21).testBit (h % 8) then s.checkHead h mem end_
  else if s.headPresent h then s.refuseHead h 7
  else s
/-- Read the head of a slot (R147 step 2); a slot that presents nothing answers no read. -/
def Core.readSlot (s : Core) (l : Nat) (heads : List (Nat × IdRead)) (slot : Nat) : Core :=
  match heads.find? (·.1 == slot) with
  | none => s
  | some (_, r) =>
    let (m, s) := s.readId r
    match m with
    | none => s
    | some m => s.setLn l { s.ln l with mems := mput slot m (s.ln l).mems }
/-- Discovery on a link (R147): the head end, then every slot in order. -/
def Core.discover (s : Core) (l : Nat) (headEnd : IdRead) (heads : List (Nat × IdRead)) : Core :=
  let top := (s.headsOn l).foldl (fun m h => max m (h % 8 + 1)) 0
  let (headEnd, s) := s.readId headEnd
  let reason := match headEnd with
    | none => 1
    | some m => headEndCheck m top
  let s := s.setLn l { s.ln l with mems := [], gone := [], lowRun := [] }
  let s := s.wr HLK_STATUS.HE_REASON reason l
  match headEnd with
  | none => (((s.headsOn l).foldl (fun s h => s.waitHead h) s).setLn l { s.ln l with headEnd := none }).emit 0x0944 (l + at_ 1 1)
  | some m =>
    if reason ≠ 0 then
      ((s.headsOn l).foldl (fun s h => s.waitHead h) (s.setLn l { s.ln l with headEnd := none })).emit 0x0944 (l + at_ 1 reason)
    else
      let e := memRead m 0 0x2C
      let s := s.setLn l { s.ln l with headEnd := some e }
      let s := s.wr HLK_CREDIT.GRANT (min (byteAt e 0x22) 16) l
      let s := (maskBits 8 (byteAt e 0x21)).foldl (fun s slot => s.readSlot l heads slot) s
      ((List.range 8).map (8 * l + ·)).foldl (fun s h => s.checkSlot h (s.headMem h) e) s

/-! ### PRESS_LOAD (R300, R301) -/

/-- What a head's registers and firing record hold where the description does not name it (R14). The thresholds that a reattach of
the same serial keeps (R147, R398) and its unwritten usage stay in force beneath, for the head's return. -/
def Core.dropHead (s : Core) (h : Nat) : Core :=
  let (lines, drops) := s.unwritten h
  let kept := [HDC_TEMP_LIM.LIMIT, HDC_TEMP_LIM.TRIP, HDC_TEMP_WARN.WARN]
  let slot := [HLK_SLOT_THERM.OHMS, HLK_SLOT_THERM.AGE, HLK_SLOT_THERM.HEAD_OK, HLK_SLOT_LAST.LINE, HLK_SLOT_LAST.DEV,
    HLK_SLOT_LAST.STATUS, HLK_SLOT_LAST.REASON, HLK_SLOT_USAGE.AGE_S, HLK_SLOT_USAGE.DEFERRED, HLK_SLOT_USAGE.FAILED]
  let s := (slot ++ fieldsHDC.filter fun f => f.cnt == 192 && !kept.contains f).foldl (fun s f => s.wr f (resetOf f h) h) s
  let s := s.setHr h { s.hr h with baseStrobes := (2 ^ 64 - lines) % 2 ^ 64, baseDrops := (2 ^ 64 - drops) % 2 ^ 64 }
  { s with spg := { s.spg with heads := mdel h s.spg.heads } }
/-- SPG_b_FIRE of a bar that the description did not or does not name: its reset value (R14), with the causes whose condition holds
(R391, R395). -/
def Core.refreshBars (s old : Core) : Core :=
  (allBars.filter fun b => !(old.barPresent b && s.barPresent b)).foldl (fun s b =>
    ((s.setBf b BarFire.none).wr SPGB_FIRE.ALT 0 b).setCauses b (2 * resetOf SPGB_FIRE.CAUSE b ||| s.liveCauses)) s
/-- The registers of a link that the description did not or does not name take their reset values (R14). What shows the link itself,
its state, training and credit, goes on beneath, for its return; a link held DISABLED may train again. -/
def Core.dropLink (s : Core) (l : Nat) : Core :=
  let s := if s.linkState l = 1 then
      (s.wr HLK_STATUS.STATE 0 l).setLn l { s.ln l with restartAt := some s.etime }
    else s
  s.clr [HLK_CFG.EN, HLK_CFG.AUTO, HLK_CFG.TX_EQ, HLK_CFG.CONF_TO_US, HLK_LVL_MAP.W1, HLK_LVL_MAP.W2, HLK_LVL_MAP.W3,
    HLK_LVL_MAP.W4, HLK_LVL_MAP.W5, HLK_LVL_MAP.W6, HLK_LVL_MAP.W7, HLK_STATUS.LOSS_CAUSE, HLK_STATUS.TRAIN_FAIL,
    HLK_FRAME_NAK_CNT.COUNT, HLK_RET_CRC_CNT.COUNT, HLK_REPLAY_CNT.COUNT, HLK_STRAY_CNT.COUNT, HLK_PROTO_CNT.COUNT,
    HLK_DROP_MISMATCH_CNT.COUNT, HLK_LOSS_CNT.LOSSES, HLK_LOSS_CNT.TRAIN_FAILS, HLK_DEV.LAST, HLK_DEV.PEAK] l
/-- Links that the description did not or does not name. -/
def Core.refreshLinks (s old : Core) : Core :=
  ((List.range 24).filter fun l => decide (old.segBar l ≥ 8 ∨ s.segBar l ≥ 8)).foldl (fun s l => s.dropLink l) s
/-- The entries of present bars that did not keep their owner take the gains of the head last attached in their slot (R301); those
of a head that has never attached follow at its attach. -/
def Core.reloadGains (s old : Core) : Core :=
  s.bars.foldl (fun s b =>
    ((s.linksOf b).flatMap fun l => s.columns l).foldl (fun s c =>
      if old.ownerOf b c.k == s.ownerOf b c.k then s
      else
        if (s.hr c.hA).serial.isNone then s
        else s.setNoz (nozKey b c.k) (nozWithGain nozNeutral (gainOf (s.hr c.hA).cal c.nA))) s) s
/-- Step 5 of R300, each head with the MIN_PERIOD last read (R71): attached heads are checked again, heads read and not assigned are
taken up, and others wait. -/
def Core.recheckHeads (s : Core) : Core :=
  s.allHeads.foldl (fun s h =>
    let d := (s.hr h).desc
    let s := if d = [] then s else s.wr HDC_MIN_PERIOD.NS (leAt d 0x24 4) h
    let x := s.ln (h / 8)
    match x.headEnd with
    | none => if s.headState h = 0 then s.waitHead h else s
    | some e =>
      if s.linkState (h / 8) < 3 then (if s.headState h = 0 then s.waitHead h else s)
      else if s.attached h then
        match s.headMem h with
        | some m => if s.headFits h m e then s else s.refuseHead h 7
        | none => s
      else if s.headState h = 0 then s.checkSlot h (s.headMem h) e
      else s) s
/-- What waits for the next line of a link that the new description leaves unused takes effect at once, and its load completes
(DESIGN CHOICE: log entry 168). -/
def Core.flushStages (s : Core) : Core :=
  let lost (g : NozStage) : Bool := s.segBar g.link > 7
  let gone := s.press.stages.filter lost
  let s := { s with press := { s.press with
    stages := s.press.stages.filter fun g => !lost g
    window := s.press.window.filter fun w => (s.linkOfKey w.1).isSome } }
  gone.foldl (fun s g => (s.applyEntries g.entries).stageDone g.ref) s
/-- Put an accepted description in force (R300 steps 2 to 5, R301, R326). -/
def Core.applyPress (s : Core) (d : Bytes) : Core :=
  let old := s
  let s := s.pressGeometry d
  let s := ((List.range 192).filter fun h => !s.headPresent h).foldl (fun s h => s.dropHead h) s
  let s := (s.refreshBars old).refreshLinks old
  let s := (s.keepCorrections old).reloadGains old
  let s := (s.levelDefaults).clearErr fun _ => true
  (s.recheckHeads).rebuildTwins.flushStages
/-- PRESS_LOAD. The description is stored in flash as well; its own checks come after those of R179 (R299). -/
def pressLoad (c : Call) (s : Core) : Reply × Core :=
  if !s.flashRoom (.press []) then (busy 0, s)
  else if s.armedOrPrinting then (wrongState 0x0014, s)
  else if dlenOf c ≠ 6464 then (.err 0x12 0x0007 0xFFFF (some 6464), s)
  else withData c s fun d =>
    match pressCheck d with
    | some r => (r, s)
    | none => (.ok 0, (s.applyPress d).queueFlash (.press d))

end Sys2Proof.Machine
end

