-- ==== Sys2Proof/Machine/Camera.lean ====
section
/-! DEFINITION. The inspection camera: identification, control channel, start and stop, triggers, CSI-2 packets and the
image pipeline (spec/11_inspection_and_colour_servo.md R448 to R468, R483 to R485). -/

namespace Sys2Proof.Machine

/-- Change the camera's record. -/
def Core.setCam (s : Core) (x : CamSt) : Core := { s with cam := x }
/-- CAM_STATUS.STATE (R462). -/
def Core.camState (s : Core) : Nat := s.rd CAM_STATUS.STATE
/-- The frame of a channel. -/
def Core.frame (s : Core) (v : Nat) : CamFrame := mget CamFrame.none s.cam.frames v
/-- Change it. -/
def Core.setFrame (s : Core) (v : Nat) (x : CamFrame) : Core :=
  s.setCam { s.cam with frames := mset CamFrame.none s.cam.frames v x }

/-! ### The servo while the camera is not RUNNING (R475, R482) -/

/-- L_b of a position for a job that begins at `start`, in 1/64 line (R473). -/
def Core.camLine (s : Core) (start pos : Nat) : Int :=
  posDiff pos (posMod ((start : Int) + s.rd2 CSV_CAM_DELAY_LO.DELAY CSV_CAM_DELAY_HI.DELAY))
/-- Change the servo's record. -/
def Core.setCsv (s : Core) (x : CsvSt) : Core := { s with csv := x }
/-- The servo's updates of a bar that have not committed are discarded. -/
def Core.dropServo (s : Core) (b : Nat) : Core :=
  let s := s.setCsv { s.csv with stages := s.csv.stages.filter (·.bar != b) }
  { s with press := { s.press with stages := s.press.stages.filter (fun g => !(g.servo && s.barOf g.head == b)) } }
/-- Enter hold. -/
def Core.enterHold (s : Core) (b : Nat) : Core :=
  if s.rdb CSVB_MODE.HOLD b then s else ((s.wr CSVB_MODE.HOLD 1 b).dropServo b).emit 0x0B01 b
/-- Strips of which a part has passed the camera since it left RUNNING are marked. -/
def Core.markCamera (s : Core) : Core :=
  if s.camState = 5 then s
  else
    let passing := fun (r : StripRec) =>
      let at_ (p : Nat) : Int := s.camLine r.start p - 64 * (r.first : Int)
      decide (0 ≤ at_ s.phi) && (match s.cam.stopAt with
        | some p => decide (at_ p < 64 * (r.len : Int))
        | none => true)
    s.setCsv { s.csv with strips := mapIf passing (fun r => { r with camera := true }) s.csv.strips }
/-- CAM_STATUS.STATE changes. While it is not RUNNING, the servo of every bar whose MODE is not OFF holds. -/
def Core.setCamState (s : Core) (v : Nat) : Core :=
  if s.camState ≠ 5 ∧ v = 5 then (s.markCamera.setCam { s.markCamera.cam with stopAt := none }).wr CAM_STATUS.STATE 5
  else if s.camState = 5 ∧ v ≠ 5 then
    let s := (s.wr CAM_STATUS.STATE v).setCam { s.cam with stopAt := some s.phi }
    (List.range 8).foldl (fun s b => if s.rd CSVB_MODE.MODE b = 0 then s else s.enterHold b) s
  else s.wr CAM_STATUS.STATE v

/-! ### The aggregator's descriptor (R145, R450, R451) -/

/-- A field of the identity memory in force. -/
def Core.camField (s : Core) (a n : Nat) : Nat := leAt s.cam.mem a n
/-- SENSORS. -/
def Core.sensors (s : Core) : Nat := if s.cam.mem = [] then 0 else s.camField 0x20 1
/-- The sensor on a virtual channel. -/
def Core.sensorOf (s : Core) (v : Nat) : Option Nat :=
  (List.range s.sensors).find? fun i => s.camField (0x40 + 16 * i) 1 == v
/-- PIXELS of a sensor. -/
def Core.pixels (s : Core) (i : Nat) : Nat := s.camField (0x42 + 16 * i) 2
/-- The calibration block of a sensor. -/
def calBlock (i : Nat) : Nat := 0x100 + 0x180 * i
/-- The ranges of an aggregator descriptor and its calibration blocks. -/
def camRanges (m : IdMem) : Bool :=
  let n := memLE m 0x20 1; let mbps := memLE m 0x22 2
  decide (1 ≤ n ∧ n ≤ 4) && decide (1 ≤ memLE m 0x21 1 ∧ memLE m 0x21 1 ≤ 4) && decide (80 ≤ mbps ∧ mbps ≤ 4500) &&
    decide (0x20 + memLE m 8 4 ≥ calBlock n) &&
    (List.range n).all fun i =>
      let r := 0x40 + 16 * i; let c := calBlock i
      let dt := memLE m (r + 1) 1; let px := memLE m (r + 2) 2
      let w := memLE m (c + 1) 1; let lo := memLE m (c + 8) 4; let hi := memLE m (c + 0xC) 4; let nd := memLE m (c + 0x16) 1
      decide (memLE m r 1 ≤ 3) && (List.range i).all (fun j => memLE m (0x40 + 16 * j) 1 != memLE m r 1) &&
        (dt == 0x2B || dt == 0x2C) && decide (1 ≤ px ∧ px ≤ 8192) &&
        decide (1 ≤ w ∧ w ≤ 4) && memLE m (c + 4) 2 != 0 && decide (lo ≤ hi ∧ hi < 256 ^ w) && decide (nd ≤ 32) &&
        (List.range nd).all (fun j => decide (memLE m (c + 0x18 + 2 * j) 2 < px)) &&
        (List.range 99).all fun j => memLE m (c + 0x58 + 2 * j) 2 != 0
/-- VC_MASK of the aggregator. -/
def vcMask (m : Bytes) : Nat := (List.range (leAt m 0x20 1)).foldl (fun a i => a ||| 2 ^ (leAt m (0x40 + 16 * i) 1)) 0

/-! ### Pipeline settings (R463, R465, R467) -/

/-- The key of a table entry of a channel. -/
def tblKey (v table i : Nat) : Nat := 1024 * v + 256 * table + i
/-- What an entry of a table holds until it is loaded or written: the tone curve is T[i] = i. -/
def tblDefault (table i : Nat) : Nat := if table = 2 then i else 0
/-- Entries of a table. -/
def tblSize (table : Nat) : Nat := if table = 0 then 32 else if table = 1 then 99 else 256
/-- A table entry. -/
def Core.tbl (s : Core) (v table i : Nat) : Nat := mget (tblDefault table i) s.cam.tables (tblKey v table i)
/-- Write it, in the width of its table. -/
def Core.setTbl (s : Core) (v table i x : Nat) : Core :=
  let x := if table = 0 then x &&& 0x9FFF else if table = 1 then x % 65536 else x % 256
  s.setCam { s.cam with tables := mset (tblDefault table i) s.cam.tables (tblKey v table i) x }
/-- The settings a frame that opens now is processed with. -/
def Core.ispSet (s : Core) (v : Nat) : IspSet where
  prio := s.rd ISP_CTX.PRIO v
  black := [s.rd ISP_BLACK_RG.RED v, s.rd ISP_BLACK_RG.GREEN v, s.rd ISP_BLACK_B.BLUE v]
  wb := [s.rd ISP_WB_RG.RED v, s.rd ISP_WB_RG.GREEN v, s.rd ISP_WB_B.BLUE v]
  ccm := (List.range 9).map fun i => s.rd ISP_CCM.M (9 * v + i)
  off := (List.range 3).map fun i => s.rd ISP_OFF.OFF (3 * v + i)
  defect := (List.range 32).map (s.tbl v 0)
  shade := (List.range 99).map (s.tbl v 1)
  tone := (List.range 256).map (s.tbl v 2)
/-- The index an access of TBL_DATA uses. -/
def Core.tblAt (s : Core) (v : Nat) : Nat × Nat :=
  let t := s.rd ISP_TBL_IDX.TABLE v
  (t, s.rd ISP_TBL_IDX.IDX v % tblSize t)
/-- IDX advances after each access. -/
def Core.nextTbl (s : Core) (v : Nat) : Core :=
  let (t, i) := s.tblAt v
  s.wr ISP_TBL_IDX.IDX ((i + 1) % tblSize t) v
/-- A read of ISP_v_TBL_DATA. -/
def tblRead (v : Nat) (s : Core) : Nat × Core := let (t, i) := s.tblAt v; (s.tbl v t i, s.nextTbl v)
/-- The host has written a context register or a table entry (R467). -/
def Core.hostWrites (s : Core) (key : Nat) : Core :=
  if s.cam.hostWrote.contains key then s else s.setCam { s.cam with hostWrote := key :: s.cam.hostWrote }
/-- A write of ISP_v_TBL_DATA. -/
def tblWrite (v x : Nat) (s : Core) : Core :=
  let (t, i) := s.tblAt v
  ((s.setTbl v t i x).hostWrites (tblKey v t i)).nextTbl v
/-- Every value of a context takes its reset value, and counts as not written by the host. -/
def Core.resetContext (s : Core) (v : Nat) : Core :=
  let s := s.clr [ISP_CTX.PRIO, ISP_BLACK_RG.RED, ISP_BLACK_RG.GREEN, ISP_BLACK_B.BLUE, ISP_WB_RG.RED, ISP_WB_RG.GREEN,
    ISP_WB_B.BLUE] v
  let s := (List.range 9).foldl (fun s i => s.clr [ISP_CCM.M] (9 * v + i)) s
  let s := (List.range 3).foldl (fun s i => s.clr [ISP_OFF.OFF] (3 * v + i)) s
  s.setCam { s.cam with
    tables := s.cam.tables.filter fun e => e.1 / 1024 != v
    hostWrote := s.cam.hostWrote.filter fun k => k / 1024 != v && k / 256 != 0x1300 + v }
/-- Load the context of a channel from its sensor's block: black levels, defect list and shading table, but for what the host has
written. Without `keep` nothing of it is kept, and the other values take their reset values (R467). -/
def Core.loadContext (s : Core) (v : Nat) (m : Bytes) (sensor : Option Nat) (keep : Bool) : Core :=
  let s := if keep then s else s.resetContext v
  match sensor with
  | none => s
  | some i =>
    let c := calBlock i
    let host (k : Nat) : Bool := s.cam.hostWrote.contains k
    let s := if host (0x130004 + 256 * v) then s
      else s.wrs [(ISP_BLACK_RG.RED, leAt m (c + 0x10) 2), (ISP_BLACK_RG.GREEN, leAt m (c + 0x12) 2)] v
    let s := if host (0x130008 + 256 * v) then s else s.wr ISP_BLACK_B.BLUE (leAt m (c + 0x14) 2) v
    let load (t j x : Nat) (s : Core) : Core := if host (tblKey v t j) then s else s.setTbl v t j x
    let s := (List.range 32).foldl (fun s j =>
      load 0 j (if j < byteAt m (c + 0x16) then leAt m (c + 0x18 + 2 * j) 2 % 8192 + 32768 else 0) s) s
    (List.range 99).foldl (fun s j => load 1 j (leAt m (c + 0x58 + 2 * j) 2) s) s

/-! ### The control channel (R457, R458) -/

/-- CMD of a request. -/
def CtlReq.cmd : CtlReq → Nat
  | .idRead _ _ => 1
  | .sensorWrite _ _ _ => 2
  | .sensorRead _ _ _ => 3
  | .config _ _ => 4
  | .stop => 5
/-- Its body. -/
def CtlReq.body : CtlReq → Bytes
  | .idRead a n => toLE 2 a ++ toLE 1 n
  | .sensorWrite i r d => toLE 1 i ++ toLE 2 r ++ toLE 1 d.length ++ d
  | .sensorRead i r n => toLE 1 i ++ toLE 2 r ++ toLE 1 n
  | .config n v => toLE 2 n ++ toLE 1 v
  | .stop => []
/-- The data bytes of its response. -/
def CtlReq.answer : CtlReq → Nat
  | .idRead _ n => n
  | .sensorRead _ _ n => n
  | .sensorWrite _ _ _ | .config _ _ | .stop => 0
/-- The frame of a request: 0xA5, LEN, CMD, body, CRC-16. -/
def CtlReq.frame (r : CtlReq) : Bytes :=
  let d := toLE 1 (r.body.length + 1) ++ toLE 1 r.cmd ++ r.body
  0xA5#8 :: d ++ toLE 2 (crc16 d)
/-- Send a request. -/
def Core.ctlSend (s : Core) (r : CtlReq) : Core := s.setCam { s.cam with ctl := r.frame }
/-- Queue a control request; the channel carries one at a time. -/
def Core.camRequest (s : Core) (kind : CamReqKind) (r : CtlReq) : Core :=
  let s := if s.cam.reqs = [] then s.ctlSend r else s
  s.setCam { s.cam with reqs := s.cam.reqs ++ [⟨kind, r, 0, s.etime⟩] }
/-- The CAM_STARTs that wait end. -/
def Core.endStarts (s : Core) (r : Reply) : Core :=
  s.cam.start.foldl (fun s c => s.closeCmd c r) (s.setCam { s.cam with start := [], auto := false })
/-- The CAM_REINIT operations end. -/
def Core.endReinit (s : Core) (g : Nat → Core → Core) : Core :=
  s.cam.reinit.foldl (fun s r => g r.1 s) (s.setCam { s.cam with reinit := [] })
/-- Bytes of a frame slot (R468). -/
def frameSlot (lines px : Nat) : Nat := lines * (3 * px + 32)
/-- Frames in the ring share of a channel. -/
def Core.ringFrames (s : Core) (v : Nat) : Nat :=
  match s.sensorOf v with
  | none => 0
  | some i => 2 ^ 30 / max 1 s.sensors / frameSlot (s.rd CAM_CFG.FRAME_LINES) (s.pixels i)
/-- The place of a line slot in the camera region: the channels' shares in sensor order. -/
def Core.ringAddr (s : Core) (v ring line : Nat) : Nat :=
  match s.sensorOf v with
  | none => camBase (s.rd MEM_STATUS.WAYS)
  | some i =>
    let n := s.rd CAM_CFG.FRAME_LINES; let px := s.pixels i
    camBase (s.rd MEM_STATUS.WAYS) + i * (2 ^ 30 / max 1 s.sensors) + ring * frameSlot n px + line * (3 * px + 32)
/-- CONFIG has been answered: the ring is set up, CAM_TRIG driven, and the camera waits for a trigger (R483). An exposure write
that has been answered still awaits its channel's Frame Start (R459). -/
def Core.camStarted (s : Core) : Core :=
  let kept := (s.cam.frames.filter (·.2.answered)).map fun e => (e.1, { CamFrame.none with answered := true })
  let s := s.setCam { s.cam with fifo := [], trigNext := 0, frames := kept, ring := [], ringNext := [] }
  let s := ((s.setCamState 4).wr CAM_STATUS.STARTED 1).camTrig 1000 0
  (s.endStarts (.ok 0)).endReinit fun op s => s.asyncDone op 0 0
/-- The head request is done with; the next is sent. -/
def Core.popReq (s : Core) : Core :=
  match s.cam.reqs.drop 1 with
  | r :: rs => (s.ctlSend r.req).setCam { (s.ctlSend r.req).cam with reqs := { r with sentAt := s.etime } :: rs }
  | [] => s.setCam { s.cam with reqs := [] }
/-- A transaction has failed three times (R458). -/
def Core.ctlFailed (s : Core) (r : CtlReq) (status : Nat) : Core :=
  (s.inc CAM_CTL_CNT.FAIL).emit 0x0A07 (r.cmd + at_ 1 status)
/-- An attempt of the head request has failed: it is sent again twice, then the transaction fails. -/
def Core.reqFailed (s : Core) (r : CamReq) (status : Nat) : Core :=
  if r.fails < 2 then
    let s := s.ctlSend r.req
    s.setCam { s.cam with reqs := { r with fails := r.fails + 1, sentAt := s.etime } :: s.cam.reqs.drop 1 }
  else
    let s := s.popReq.ctlFailed r.req status
    match r.kind with
    | .exposure v => s.wr CAM_EXP_GEN.PENDING 1 v
    | .stop => s
    | .config =>
      (s.endStarts (.err 0x40 0 0xFFFF (some 0x0A07))).endReinit fun op s => s.asyncErr op 0x40 0 0x0A07
/-- Is a response whole, and what STATUS does it carry? -/
def ctlStatus (f : Bytes) : Option Nat :=
  let n := byteAt f 1
  if byteAt f 0 = 0x5A ∧ 1 ≤ n ∧ n ≤ 40 ∧ f.length = n + 4 ∧ crc16 ((f.drop 1).take (n + 1)) = leAt f (n + 2) 2 then
    some (byteAt f 2)
  else none
/-- CAM_CTL_RESPONSE: bytes arrive on the control channel. LEN is that of the request's data and STATUS. -/
def doCamCtlResponse (f : Bytes) (s : Core) : Core :=
  match s.cam.reqs with
  | [] => s.inc CAM_PROTO_CNT.COUNT 0 f.length
  | r :: _ =>
    if ctlStatus f = some 0 ∧ byteAt f 1 = r.req.answer + 1 then
      let s := s.popReq.inc CAM_CTL_CNT.DONE
      match r.kind with
      | .exposure v => s.setFrame v { s.frame v with answered := true }
      | .stop => s
      | .config => if s.camState = 3 then s.camStarted else s
    else s.reqFailed r ((ctlStatus f).getD 0xFF)
/-- CAM_CTL_TIMEOUT: the request has gone unanswered for 1 ms. -/
def doCamCtlTimeout (s : Core) : Core :=
  match s.cam.reqs with
  | [] => s
  | r :: _ => (s.reach (r.sentAt + 1000000)).reqFailed r 0xFF

/-! ### Start and stop (R483, R484) -/

/-- CAM_START's work, for a command or for the engine itself: CONFIG is sent. -/
def Core.camConfig (s : Core) : Core :=
  s.camRequest .config (.config (s.rd CAM_CFG.FRAME_LINES) (vcMask s.cam.mem))
/-- CAM_START, its conditions in the order of R179 (DEDUCED: log entry 144). In REINIT the aggregator is being identified anew, and
the command ends as in IDENT (DEDUCED: log entry 162). -/
def camStart (c : Call) (s : Core) : Reply × Core :=
  let st := s.camState
  if st = 4 ∨ st = 5 then (.ok 0, s)
  else if (List.range 4).any fun v => (s.sensorOf v).isSome && decide (s.ringFrames v < 4) then (noCapacity none, s)
  else if st ≠ 3 then (wrongState 0, s)
  else
    let ref := refOf 0x0600 c
    let first := s.cam.start = [] ∧ !s.cam.auto
    let s := (s.openCmd ref).setCam { s.cam with start := s.cam.start ++ [ref] }
    (.later, if first then s.camConfig else s)
/-- CAM_STOP. Open frames end there with no statistics: their Frame End is discarded. -/
def camStop (s : Core) : Reply × Core :=
  let st := s.camState
  if 3 ≤ st then
    let s := ((s.camRequest .stop .stop).setCamState 3).wr CAM_STATUS.STARTED 0
    (.ok 0, s.setCam { s.cam with frames := s.cam.frames.map fun e => (e.1, { e.2 with open_ := false }) })
  else (.ok 0, s.wr CAM_STATUS.STARTED 0)

/-! ### Pipeline arithmetic (R449, R463) -/

/-- Samples of a RAW10 payload. -/
def raw10 : Bytes → List Nat
  | a :: b :: c :: d :: e :: r =>
    let l := e.toNat
    (4 * a.toNat + l % 4) :: (4 * b.toNat + l / 4 % 4) :: (4 * c.toNat + l / 16 % 4) :: (4 * d.toNat + l / 64) :: raw10 r
  | _ => []
/-- Samples of a RAW12 payload. -/
def raw12 : Bytes → List Nat
  | a :: b :: c :: r => (16 * a.toNat + c.toNat % 16) :: (16 * b.toNat + c.toNat / 16) :: raw12 r
  | _ => []
/-- Samples of a payload, as pixels of three. -/
def rawSamples (dt : Nat) (p : Bytes) : List Nat := if dt = 0x2B then raw10 p else raw12 p
/-- The word count a line must have. -/
def wordCount (dt px : Nat) : Nat := if dt = 0x2B then 5 * ceilDiv (3 * px) 4 else 3 * ceilDiv (3 * px) 2
/-- Group samples into pixels. -/
def triples : List Nat → List (Nat × Nat × Nat)
  | r :: g :: b :: l => (r, g, b) :: triples l
  | _ => []
/-- The pixels that enabled entries of a defect list name. -/
def defectPixels (l : List Nat) : List Nat := (l.filter (· ≥ 32768)).map (· % 8192)
/-- Replace the defective pixels of one colour by the mean of the nearest good neighbours within 8 pixels. -/
def repair (bad : List Nat) (xs : List Nat) : List Nat :=
  bad.foldl (fun ys p =>
    let good := fun (q : Nat) => !bad.contains q && decide (q < xs.length)
    let l := ((List.range 8).map (fun d => p - (d + 1))).find? fun q => decide (q < p) && good q && decide (p - q ≤ 8)
    let l := if p = 0 then none else l
    let r := ((List.range 8).map (fun d => p + (d + 1))).find? good
    let v := fun (q : Nat) => xs.getD q 0
    lset ys p (match l, r with
      | some a, some b => (v a + v b + 1) / 2
      | some a, none => v a
      | none, some b => v b
      | none, none => 0)) xs
/-- The shading gain of a pixel from 33 knots. -/
def shadeAt (knots : List Nat) (px p : Nat) : Nat :=
  let u := p * 2 ^ 21 / max (px - 1) 1
  let i := u / 65536; let f := u / 256 % 256
  let (i, f) := if i = 32 then (31, 256) else (i, f)
  (knots.getD i 0 * (256 - f) + knots.getD (i + 1) 0 * f + 128) / 256
/-- Stages 1 to 3 of one colour. -/
def ispEarly (set : IspSet) (ch bits px : Nat) (raw : List Nat) : List Nat :=
  let black := set.black.getD ch 0
  let x := raw.map fun r => r * 2 ^ (16 - bits) - black
  let x := repair ((defectPixels set.defect).filter (· < x.length)).eraseDups x
  let knots := (set.shade.drop (33 * ch)).take 33
  x.mapIdx fun p v => min 65535 ((v * shadeAt knots px p + 2048) / 4096)
/-- Stages 4 to 6 of one pixel. -/
def ispLate (set : IspSet) (x : List Nat) : List Nat :=
  let x := x.mapIdx fun ch v => min 65535 ((v * set.wb.getD ch 0 + 2048) / 4096)
  (List.range 3).map fun i =>
    let sum : Int := (List.range 3).foldl (fun a j => a + sgn 16 (set.ccm.getD (3 * i + j) 0) * (x.getD j 0 : Int)) 0
    let y := (clampI 0 65535 (sar (sum + 2048) 12 + sgn 16 (set.off.getD i 0))).toNat
    let ti := y / 256; let tf := y % 256
    (set.tone.getD ti 0 * (256 - tf) + set.tone.getD (if ti < 255 then ti + 1 else 255) 0 * tf + 128) / 256
/-- The three colours of a line after stage 3. -/
def ispStage3 (l : IspLine) : List Nat × List Nat × List Nat :=
  let px := (triples (rawSamples l.dt l.raw)).take l.pixels
  let bits := if l.dt = 0x2B then 10 else 12
  (ispEarly l.set 0 bits l.pixels (px.map (·.1)), ispEarly l.set 1 bits l.pixels (px.map (·.2.1)),
    ispEarly l.set 2 bits l.pixels (px.map (·.2.2)))
/-- The output bytes of a line: red, green and blue of each pixel. -/
def ispOut (l : IspLine) : Bytes :=
  let (r, g, b) := ispStage3 l
  (r.zip (g.zip b)).flatMap fun p => (ispLate l.set [p.1, p.2.1, p.2.2]).map (BitVec.ofNat 8 ·)
/-- What a line adds to its frame's statistics: the sum and number of green values, and clipped raw samples (R466). -/
def ispStats (l : IspLine) : Nat × Nat × Nat :=
  let g := (ispStage3 l).2.1
  let top := if l.dt = 0x2B then 1023 else 4095
  (g.foldl (· + ·) 0, g.length, (((rawSamples l.dt l.raw).take (3 * l.pixels)).filter (· == top)).length)

/-! ### Frames (R466, R461) -/

/-- Add a line to the statistics of its frame, where that frame is open. -/
def Core.addStats (s : Core) (l : IspLine) : Core :=
  let x := s.frame l.vc
  if x.open_ && x.num == l.frame then
    let (g, n, c) := ispStats l
    s.setFrame l.vc { x with green := x.green + g, samples := x.samples + n, clips := x.clips + c }
  else s
/-- Has an ending frame lost lines at its end (R466)? It is shorter than FRAME_LINES; or, where a restart ended it, a line
triggered before the CAM_TRIG edge has not come. -/
def Core.endMissing (s : Core) (v : Nat) (x : CamFrame) : Bool :=
  if x.excused then
    s.cam.fifo.any fun t => t.waits.testBit v && decide (t.etime ≤ s.rd2 CAM_FS_ETIME_LO.ETIME CAM_FS_ETIME_HI.ETIME)
  else decide (x.lines < s.rd CAM_CFG.FRAME_LINES)
/-- A frame ends: the lines still in the pipeline count in its statistics, and the three registers change together. -/
def Core.endFrame (s : Core) (v : Nat) (valid : Bool) : Core :=
  let s := (s.cam.slots.filter (·.vc == v)).foldl (fun s l => s.addStats l) s
  let x := s.frame v
  let s := s.wrs [(ISP_STAT_MEAN.MEAN, if x.samples = 0 then 0 else x.green / x.samples), (ISP_STAT_MEAN.GEN, x.gen),
    (ISP_STAT_MEAN.VALID, b2n (valid && x.valid && !s.endMissing v x)), (ISP_STAT_CLIP.CLIP, satU 24 x.clips), (ISP_STAT_FRAME.FRAME, x.num)] v
  s.setFrame v { x with open_ := false, lineStart := none }
/-- The camera link ends (R461); the cause byte of an end by CAM_REINIT is not stated. -/
def Core.camEnd (s : Core) (state cause : Nat) : Core :=
  let s := (s.setCamState state).emit 0x0A02 cause
  let s := (List.range 4).foldl (fun s v => if (s.frame v).open_ then s.endFrame v false else s) s
  let s := s.setCam { s.cam with
    fifo := [], fsWait := false, linked := false, reqs := s.cam.reqs.filter fun r => r.kind != .config }
  let s := { s with fij := { s.fij with held := s.fij.held.filter fun u => u.target != 5 } }
  (s.endStarts (.err 0x40 0 0xFFFF (some 0x0A02))).cdcReset fun id => id % 16 == 0xB || id / 16 % 16 == 0xB
/-- CAM_LINK_DOWN: the clock lane is lost. -/
def doCamLinkDown (s : Core) : Core := if !s.cam.linked then s else s.camEnd 0 1
/-- CAM_TRIGGER_UNMATCHED_TIMEOUT: the oldest trigger is unmatched on an active channel for 10 ms. -/
def doCamTriggerUnmatched (s : Core) : Core :=
  match s.cam.fifo with
  | [] => s
  | t :: _ => if s.camState = 4 ∨ s.camState = 5 then (s.reach (t.etime + 10000000)).camEnd 0 2 else s

/-- The engine itself starts the camera as CAM_START does (R461, R485, R531). -/
def Core.camAuto (s : Core) : Core :=
  if (List.range 4).any fun v => (s.sensorOf v).isSome && decide (s.ringFrames v < 4) then
    s.endReinit fun op s => s.asyncErr op 0x21 0x001C 0
  else (s.setCam { s.cam with auto := true }).camConfig

/-! ### Identification and CAM_REINIT (R151, R461, R467, R485) -/

/-- The aggregator is accepted. -/
def Core.camAccept (s : Core) (m : Bytes) (serial : Nat) : Core :=
  let keep := s.cam.lastSerial == some serial
  let mask := vcMask m
  let s := s.setCam { s.cam with mem := m, lastSerial := some serial }
  let s := (s.setCamState 3).wrs [(CAM_STATUS.REASON, 0), (CAM_STATUS.VC_MASK, mask), (CAM_STATUS.LANES, byteAt m 0x21)]
  let s := (List.range 4).foldl (fun s v =>
    let s := s.wr ISP_CTX.ACTIVE (b2n (mask.testBit v)) v
    s.loadContext v m (s.sensorOf v) keep) s
  let s := s.emit 0x0A01 (byteAt m 0x21 + at_ 2 (leAt m 0x22 2) + at_ 4 mask)
  if s.rdb CAM_STATUS.STARTED then s.camAuto
  else if s.cam.reinit = [] then s
  else (s.camTrig 1000 0).endReinit fun op s => s.asyncDone op 0 0
/-- The aggregator is refused. -/
def Core.camRefuse (s : Core) (reason : Nat) : Core :=
  let s := ((s.setCam { s.cam with mem := [] }).setCamState 2).wrs [(CAM_STATUS.REASON, reason), (CAM_STATUS.VC_MASK, 0), (CAM_STATUS.LANES, 0)]
  let s := (List.range 4).foldl (fun s v => s.wr ISP_CTX.ACTIVE 0 v) s
  (s.emit 0x0A41 reason).endReinit fun op s => s.asyncErr op 0x40 0 0x0A41
/-- The ID_READs of an identification: 32 bytes each, from address 0 through the descriptor where LENGTH is in its range, else of
the header alone (DESIGN CHOICE: log entry 163). -/
def camReads (m : IdMem) : Nat :=
  let len := memLE m 8 4
  if 32 ≤ len ∧ len ≤ 4064 then ceilDiv (0x20 + len) 32 else 1
/-- Read the aggregator's memory: the ID_READ of the address `32 i` is the last that is sent, the third attempt of the one that
fails ends the reads, and an attempt not answered within 1 ms takes that long (R458). -/
def Core.readAggregator (s : Core) (r : IdRead) : Option IdMem × Core :=
  let s := s.reach (s.etime + idWaitsBy 1000000 r)
  match r.fails.find? fun f => decide (3 ≤ f.2.length) with
  | some f =>
    let q := CtlReq.idRead f.1 32
    (none, ((s.ctlSend q).inc CAM_CTL_CNT.DONE 0 (f.1 / 32)).ctlFailed q ((f.2.getD 2 none).elim 0xFF (·.toNat)))
  | none => (some r.mem, (s.ctlSend (.idRead (32 * (camReads r.mem - 1)) 32)).inc CAM_CTL_CNT.DONE 0 (camReads r.mem))
/-- CAM_LINK_UP: clock lane and lane 0 have shown LP-11 for 1 ms; the aggregator is identified. -/
def doCamLinkUp (r : IdRead) (s : Core) : Core :=
  if !s.fwRuns ∨ s.cam.linked then s
  else
    let s := (s.setCam { s.cam with linked := true }).setCamState 1
    let (got, s) := s.readAggregator r
    match got with
    | none => s.camRefuse 1
    | some m =>
      let reason := identCheck m 3 32 4064 (camRanges m)
      if reason ≠ 0 then s.camRefuse reason else s.camAccept (memRead m 0 0x700) (memSerial m)
/-- CAM_REINIT. -/
def camReinit (c : Call) (s : Core) : Reply × Core :=
  if s.printing ∧ !s.rdb CMDQ_CFG.LIVE_SERVICE then (wrongState 0x0012, s)
  else
    let (op, s) := s.newOp 0x0603 c
    let s := (s.camEnd 6 ((Config.freeDetail s.free).toNat % 256)).tickFree
    (.accepted op, s.setCam { s.cam with reinit := s.cam.reinit ++ [(op, s.etime + 2000000000)] })
/-- CAM_REINIT_TIMEOUT: no link-up within 2 s. -/
def doCamReinitTimeout (s : Core) : Core :=
  match s.cam.reinit with
  | [] => s
  | (_, due) :: _ =>
    if s.cam.linked then s
    else ((s.reach due).setCamState 0).endReinit fun op s => s.asyncErr op 0x40 0 0x0A02

/-! ### Triggers and packets (R452, R453, R459, R460, R464) -/

/-- CAM_LINE_TRIGGER: a rising edge of the repeater's A output. -/
def doCamLineTrigger (s : Core) : Core :=
  if s.camState ≠ 4 ∧ s.camState ≠ 5 then s
  else
    let x := s.cam
    let s := if x.fsWait then s.wr2 CAM_FS_POS_LO.POS CAM_FS_POS_HI.POS s.phi else s
    let full := x.fifo.length ≥ 1024
    let s := if full then s.inc CAM_TRIG_FIFO.OVR else s
    s.setCam { x with
      fsWait := false, trigNext := (x.trigNext + 1) % 65536
      fifo := if full then x.fifo else x.fifo ++ [⟨x.trigNext, s.phi, s.etime, s.rd CAM_STATUS.VC_MASK⟩] }
/-- A protocol violation with its event. -/
def Core.camProto (s : Core) (v dt : Nat) : Core :=
  (s.inc CAM_PROTO_CNT.COUNT).emitLim 0x0A04 0 fun n => v + at_ 1 dt + at_ 4 n
/-- Count a corrected header. -/
def Core.eccFixed (s : Core) (b : Bool) : Core := if b then s.inc CAM_ECC_CNT.CORR else s
/-- Is the channel in the descriptor? -/
def Core.vcActive (s : Core) (v : Nat) : Bool := (s.rd CAM_STATUS.VC_MASK).testBit v
/-- round (EXP × 10 ÷ UNIT), half up, within EXP_MIN to EXP_MAX. -/
def expUnits (e unit lo hi : Nat) : Nat × Bool :=
  let u := (20 * e + unit) / (2 * max 1 unit)
  (clampN lo hi u, decide (u < lo ∨ u > hi))
/-- The exposure step of a Frame Start: ACTIVE follows an answered write, then a pending value is sent. -/
def Core.frameExposure (s : Core) (v : Nat) : Core :=
  let x := s.frame v
  let s := if x.answered then
      (s.wr CAM_EXP_GEN.ACTIVE (s.rd CAM_EXP_GEN.SENT v) v).setFrame v { x with answered := false }
    else s
  if !s.rdb CAM_EXP_GEN.PENDING v then s
  else
    let e := s.rd CAM_EXP.EXP v
    let s := s.wr CAM_EXP_GEN.PENDING 0 v
    match s.sensorOf v with
    | none => s
    | some i =>
      if e = 0 then s
      else
        let c := calBlock i
        let (u, cl) := expUnits e (s.camField (c + 4) 2) (s.camField (c + 8) 4) (s.camField (c + 0xC) 4)
        let w := s.camField (c + 1) 1
        let s := (s.wr CAM_EXP_GEN.CLAMPED (b2n cl) v).wr CAM_EXP_GEN.SENT (s.rd CAM_EXP_GEN.SENT v + 1) v
        s.camRequest (.exposure v) (.sensorWrite (s.camField c 1) (s.camField (c + 2) 2) (toLE w u))
/-- The frame number after `n`: 1 to 65,535, skipping 0. -/
def frameAfter (n : Nat) : Nat := if n ≥ 65535 then 1 else n + 1
/-- A frame of the ring is overwritten: strips whose lines it holds are lost to the servo (R475). -/
def Core.overwrite (s : Core) (v ring : Nat) : Core :=
  let old := s.cam.ring.filter fun l => l.vc == v && l.ring == ring
  let delay := s.rd2 CSV_CAM_DELAY_LO.DELAY CSV_CAM_DELAY_HI.DELAY
  let inStrip := fun (r : StripRec) => old.any fun l =>
    let d := posDiff l.pos (posMod ((r.start : Int) + delay))
    decide (64 * (r.first : Int) ≤ d ∧ d < 64 * ((r.first + r.len : Nat) : Int))
  let s := s.setCam { s.cam with ring := s.cam.ring.filter fun l => !(l.vc == v && l.ring == ring) }
  { s with csv := { s.csv with strips := mapIf inStrip (fun r => { r with lost := true }) s.csv.strips } }
/-- A frame shorter than FRAME_LINES that no restart has ended counts. -/
def Core.shortFrame (s : Core) (v : Nat) : Core :=
  let x := s.frame v
  if x.lines < s.rd CAM_CFG.FRAME_LINES ∧ !x.excused then s.inc CAM_PROTO_CNT.COUNT else s
/-- A Frame Start. -/
def Core.csiFrameStart (s : Core) (v : Nat) (fixed : Bool) (num : Nat) : Core :=
  let s := s.eccFixed fixed
  if !s.vcActive v then s.camProto v 0
  else
    let s := if (s.frame v).open_ then ((s.shortFrame v).endFrame v true).inc CAM_PROTO_CNT.COUNT else s
    let s := match (s.frame v).lastNum with
      | some n => if num = frameAfter n then s else s.inc CAM_PROTO_CNT.COUNT
      | none => s
    let s := s.frameExposure v
    let ring := mget 0 s.cam.ringNext v
    let s := s.overwrite v ring
    let s := s.setCam { s.cam with ringNext := mset 0 s.cam.ringNext v ((ring + 1) % max 1 (s.ringFrames v)) }
    let x := s.frame v
    s.setFrame v { x with
      open_ := true, num := num, set := s.ispSet v, gen := s.rd CAM_EXP_GEN.ACTIVE v, ring := ring, lines := 0
      lineStart := none, valid := true, green := 0, samples := 0, clips := 0, lastNum := some num, excused := false }
/-- A Line Start. -/
def Core.csiLineStart (s : Core) (v : Nat) (fixed : Bool) (num : Nat) : Core :=
  let s := s.eccFixed fixed
  if !s.vcActive v then s.camProto v 2 else s.setFrame v { s.frame v with lineStart := some num }
/-- A Frame End. -/
def Core.csiFrameEnd (s : Core) (v : Nat) (fixed : Bool) (_num : Nat) : Core :=
  let s := s.eccFixed fixed
  let x := s.frame v
  if !s.vcActive v then s.camProto v 1
  else if !x.open_ then s.inc CAM_PROTO_CNT.COUNT
  else
    (s.shortFrame v).endFrame v true
/-- A channel has received the line of trigger `num`: earlier triggers no longer wait for it, and a trigger it waits for
no more is freed (R453). -/
def Core.matchTrigger (s : Core) (v num : Nat) : Core :=
  let upto := fun (t : CamTrig) => decide ((num + 65536 - t.num) % 65536 < 32768)
  let fifo := s.cam.fifo.map fun t => if upto t then { t with waits := setBit t.waits v false } else t
  s.setCam { s.cam with fifo := fifo.filter (·.waits != 0) }
/-- Triggers a channel has skipped before `num` are missing lines, each reported; a line of an earlier trigger than the last
skips none. -/
def Core.missLines (s : Core) (v num : Nat) : Core :=
  let x := s.frame v
  let next := match x.lastTrig with | some t => (t + 1) % 65536 | none => 0
  let gap := (num + 65536 - next) % 65536
  if gap ≥ 32768 then s
  else
    let s := s.setFrame v { x with valid := x.valid && gap == 0, lastTrig := some num }
    (List.range gap).foldl (fun s i =>
      (s.inc CAM_LINE_MISS_CNT.COUNT).emitLim 0x0A06 0 fun n => v + at_ 2 ((next + i) % 65536) + at_ 4 n) s
/-- Put a line into a slot of the pipeline; with 16 unfinished lines one is dropped (R464). -/
def Core.slotLine (s : Core) (l : IspLine) : Core :=
  let x := s.cam
  if x.slots.length < 16 then s.setCam { x with slots := x.slots ++ [l] }
  else
    let cand := x.slots.drop 1 ++ [l]
    let low := cand.foldl (fun m c => min m c.set.prio) 3
    let (i, d) := (cand.mapIdx fun i c => (i, c)).foldl (fun best e => if e.2.set.prio = low then e else best) (0, l)
    let s := (s.inc ISP_DROP_CNT.COUNT d.vc).emitLim 0x0A08 d.vc fun n => d.vc + at_ 4 n
    s.setCam { x with slots := x.slots.take 1 ++ cand.eraseIdx i }
/-- A line packet whose header is good. A line of the wrong length is a line of its frame that is not stored. -/
def Core.placeLine (s : Core) (v dt wc : Nat) (payload : Bytes) (crcGood : Bool) : Core :=
  match s.sensorOf v with
  | none => s.camProto v dt
  | some i =>
    let x := s.frame v
    if s.camField (0x41 + 16 * i) 1 ≠ dt then s.camProto v dt
    else
      match x.lineStart with
      | none => s.camProto v dt
      | some num =>
        let s := s.setFrame v { x with lineStart := none }
        if !x.open_ then s.camProto v dt
        else
          match s.cam.fifo.find? (·.num == num) with
          | none => s.camProto v dt
          | some t =>
            let s := (s.missLines v num).matchTrigger v num
            let x := s.frame v
            if x.lines ≥ s.rd CAM_CFG.FRAME_LINES then s.inc CAM_PROTO_CNT.COUNT
            else if wc ≠ wordCount dt (s.pixels i) then
              ((s.setFrame v { x with valid := false, lines := x.lines + 1 }).inc CAM_LINE_BAD_CNT.LENGTH).emitLim 0x0A05 0
                fun n => v + at_ 1 2 + at_ 4 n
            else
              let s := if crcGood then s
                else ((s.setFrame v { x with valid := false }).inc CAM_LINE_BAD_CNT.CRC).emitLim 0x0A05 0
                  fun n => v + at_ 1 1 + at_ 4 n
              let s := (s.inc CAM_LINES.COUNT v).setCamState 5
              let x := s.frame v
              let s := s.setFrame v { x with lines := x.lines + 1 }
              s.slotLine ⟨v, payload, t.pos, t.etime, x.ring, x.num, x.lines, x.gen, !crcGood, s.ringAddr v x.ring x.lines,
                s.pixels i, dt, x.set, s.etime⟩
/-- A line packet; one whose header cannot be corrected is discarded. -/
def Core.csiLine (s : Core) (v : Nat) (ecc : Ecc) (dt wc : Nat) (payload : Bytes) (crcGood : Bool) : Core :=
  match ecc with
  | .bad => s.inc CAM_ECC_CNT.UNCORR
  | e =>
    let s := s.eccFixed (e == .fixed)
    if !s.vcActive v then s.camProto v dt else s.placeLine v dt wc payload crcGood
/-- A packet past the injection rules. -/
def Core.camRecv (s : Core) : Instr → Core
  | .csiFrameStart v f n => s.csiFrameStart v f n.toNat
  | .csiLineStart v f n => s.csiLineStart v f n.toNat
  | .csiLinePacket v e dt wc p ok => s.csiLine v e dt.toNat wc.toNat p ok
  | .csiFrameEnd v f n => s.csiFrameEnd v f n.toNat
  | _ => s
/-- CORRUPT flips one bit: of a header, which the ECC corrects, or of a line's payload or CRC, which its CRC shows. -/
def camCorrupt (bit : Nat) : Instr → Instr
  | .csiFrameStart v _ n => .csiFrameStart v true n
  | .csiLineStart v _ n => .csiLineStart v true n
  | .csiFrameEnd v _ n => .csiFrameEnd v true n
  | .csiLinePacket v e dt wc p ok =>
    let i := bit % (8 * (p.length + 6))
    if i < 32 then .csiLinePacket v (match e with | .good => .fixed | _ => .bad) dt wc p ok
    else .csiLinePacket v e dt wc (if i - 32 < 8 * p.length then p.mapIdx (fun j b =>
        if j = (i - 32) / 8 then b ^^^ BitVec.ofNat 8 (2 ^ (i % 8)) else b) else p) false
  | i => i
/-- A packet arrives on virtual channel `v`; `line` where it is a line packet. Injection rules act while the camera is
RUNNING (R593); while it is not started packets are discarded (R484). -/
def Core.camUnit (s : Core) (v : Nat) (line : Bool) (i : Instr) : Core :=
  if s.camState ≠ 4 ∧ s.camState ≠ 5 then s
  else if s.camState = 4 then s.camRecv i
  else
    let (act, s) := s.fijUnit 5 v
    let i := match act with
      | some (2, arg) => camCorrupt arg i
      | _ => i
    match act, s.fij.held.find? fun u => u.target == 5 && u.due.isSome with
    | some (1, _), _ => s
    | _, some u => s.fijHold ⟨5, v, b2n line, u.due, some i, []⟩
    | some (4, arg), none => s.fijHold ⟨5, v, b2n line, some (s.etime + arg), some i, []⟩
    | act, none =>
      match (if line then s.fij.held.find? fun u => u.target == 5 && u.inst == v else none) with
      | some u =>
        let s := ({ s with fij := { s.fij with held := dropFirst (· == u) s.fij.held } } : Core).camRecv i
        match u.unit with
        | some j => s.camRecv j
        | none => s
      | none =>
        match act with
        | some (3, _) => s.fijHold ⟨5, v, b2n line, none, some i, []⟩
        | _ => s.camRecv i

/-- The capacity of the pipeline in samples per µs: a divided FCK halves or quarters it (R463, R546). -/
def Core.ispRate (s : Core) : Nat := 1600 / fckDiv (s.rd THM_STATUS.LEVEL)
/-- ISP_LINE_PROCESS: the first line of the pipeline is processed and written into the ring, when the lines before it and its own
samples have had their time; `parityBad` is a word of the line buffer with bad parity (R579). The write waits for a channel that
retrains (R530). -/
def doIspLineProcess (parityBad : Option Nat) (f : Field) : Field :=
  let s := f.core
  match s.cam.slots with
  | [] => f
  | l :: rest =>
    if s.stalls l.addr (3 * l.pixels + 32) then f
    else
      let done := max s.cam.busyAt l.got + 3000 * l.pixels / s.ispRate
      let s := s.reach done
      let s := match parityBad with | some w => s.sramParity 2 w | none => s
      let s := (s.addStats l).inc ISP_LINE_CNT.COUNT l.vc
      let x := s.frame l.vc
      let s := if parityBad.isSome ∧ x.open_ ∧ x.num = l.frame then s.setFrame l.vc { x with valid := false } else s
      let s := s.setCam { s.cam with
        slots := rest, busySamples := s.cam.busySamples + 3 * l.pixels, busyAt := done
        ring := s.cam.ring ++ [⟨l.vc, l.ring, l.line, l.frame, l.pos, l.etime, l.gen, l.bad || parityBad.isSome, l.addr⟩] }
      ⟨s.stores 1 l.addr (3 * l.pixels + 32), f.dram.write l.addr (ispOut l)⟩

end Sys2Proof.Machine
end

