-- ==== Sys2Proof/Machine/Elytron.lean ====
section
/-! DEFINITION. The field end of the elytron: lanes, loss of the link and of the host, and what the field side reports to
the host side (spec/01_architecture.md R40 to R53, R193). -/

namespace Sys2Proof.Machine

/-- The word of the register at an address, by its fields. -/
def Core.regWord (s : Core) (addr : Nat) : Nat :=
  (fieldsAt addr).foldl (fun a p => a + s.rd p.1 p.2 * 2 ^ p.1.lo) 0
/-- Change the elytron record. -/
def Core.setEly (s : Core) (x : ElySt) : Core := { s with ely := x }
/-- The host-to-field direction runs on 4, 2 or 1 lanes, the other on 2 or 1 (R47). -/
def h2fLanes (n : Nat) : Nat := if n ≥ 4 then 4 else if n ≥ 2 then 2 else n
/-- The field-to-host direction runs on 2 or 1 lanes. -/
def f2hLanes (n : Nat) : Nat := min n 2
/-- ELY_STATUS follows the lanes. -/
def Core.showEly (s : Core) : Core :=
  s.wrs [(ELY_STATUS.LINK_UP, b2n s.elyUp), (ELY_STATUS.H2F_WIDTH, s.ely.h2f), (ELY_STATUS.F2H_WIDTH, s.ely.f2h)]
/-- Set the lanes in use. -/
def Core.setLanes (s : Core) (h f : Nat) : Core :=
  (s.setEly { s.ely with h2f := h2fLanes h, f2h := f2hLanes f }).showEly
/-- Do flits cross? -/
def Core.flitsCross (s : Core) : Bool := s.elyUp && !s.ely.retraining

/-! ### Credits and replay (R44 to R46, R583, R589) -/

/-- One direction: host to field, or field to host. -/
def ElySt.dir (e : ElySt) (toField : Bool) : ElyDir := if toField then e.toF else e.toH
/-- Set it. -/
def Core.setDir (s : Core) (toField : Bool) (d : ElyDir) : Core :=
  s.setEly (if toField then { s.ely with toF := d } else { s.ely with toH := d })
/-- The virtual channel of what a flit carries (R42). -/
def FlitBody.vc : FlitBody → Nat
  | .command e => if e.q = 0 then 0 else 1
  | .hostHeartbeat | .fieldHeartbeat _ | .time _ => 0
  | .completion _ | .event _ => 1
  | .data _ _ _ => 2
/-- The credits a transmitter holds for a virtual channel. -/
def ElyDir.credit (d : ElyDir) (vc : Nat) : Nat := mget 0 d.credits vc
/-- Change them. -/
def ElyDir.setCredit (d : ElyDir) (vc n : Nat) : ElyDir := { d with credits := mset 0 d.credits vc n }
/-- The receive buffers of a virtual channel: at least one (R45; their number is the block's own). -/
def buffersOf (toField : Bool) (vc : Nat) : Nat := Config.elyBuffers (if toField then vc else vc + 3) + 1
/-- A receiver advertises its free buffers (R589): all but those that flits in flight will fill, those occupied (`busy`, by
virtual channel) and those whose credit is on its way back. -/
def ElyDir.advertise (d : ElyDir) (toField : Bool) (busy : List Nat) : ElyDir :=
  [0, 1, 2].foldl (fun d vc =>
    d.setCredit vc (buffersOf toField vc - d.replay.countP (·.body.vc == vc) - busy.countP (· == vc))) d
/-- A buffer of the field side's receiver is free again: its credit crosses back as a pulse of crossing 0x0043 (R589). -/
def Core.freeBuffer (s : Core) (vc : Nat) : Core :=
  (s.setEly { s.ely with freed := s.ely.freed ++ [vc] }).cdcPulse 0x43
/-- The credits whose pulses have crossed by now are the transmitter's again. -/
def Core.creditBack (s : Core) : Core :=
  let (n, s) := s.cdcSettle 0x43
  let e := s.ely
  s.setEly { e with
    toF := (e.freed.take n).foldl (fun d vc => d.setCredit vc (d.credit vc + 1)) e.toF
    freed := e.freed.drop n }
/-- Numbers start again in a direction: what was sent and not acknowledged is no longer in flight. -/
def ElyDir.restart (d : ElyDir) : ElyDir := { d with next := 0, want := 0, replay := [], nak := none, run := 0 }

/-- The host is declared lost and HOST_LOSS_POLICY acts (R49, R193, R505). -/
def Core.declareLost (s : Core) : Core :=
  if s.ely.hostLost then s
  else
    let s := ((s.setEly { s.ely with hostLost := true }).wr ELY_STATUS.HOST_ALIVE 0).emit 0x0303
    let s := s.dropHostPriv
    match s.rd ELY_CFG.HOST_LOSS_POLICY with
    | 0 => s
    | 1 => s.drainSwitches
    | _ => stopBars s.bars 6 s
/-- A host HEARTBEAT has arrived: the host is back where it had been lost. -/
def Core.heardHost (s : Core) : Core :=
  let was := s.ely.hostLost
  let s := (s.setEly { s.ely with hbAt := s.etime, hostLost := false }).wr ELY_STATUS.HOST_ALIVE 1
  if was then s.emit 0x0305 else s
/-- No lane is up in one direction: ELY_LINK_DOWN, the host privilege falls to NONE and the EFK crossings reset (R53,
R193, R587). -/
def Core.elyDown (s : Core) : Core :=
  let s := ((s.setEly { s.ely with wasDown := true, retraining := false }).emit 0x0302).dropHostPriv
  let s := { s with fij := { s.fij with held := s.fij.held.filter fun u => u.target > 2 } }
  let s := s.cdcReset (crossesDomain 3 0)
  s.setEly { s.ely with freed := [] }
/-- New lanes take effect: a link that was up may go down, and with no host-to-field lane the host is lost. -/
def Core.changeLanes (s : Core) (h f : Nat) : Core :=
  let was := s.elyUp
  let s := s.setLanes h f
  let s := if was ∧ !s.elyUp then s.elyDown else s
  if s.ely.h2f = 0 then s.declareLost else s
/-- The receivers of both directions advertise their buffers. The host side moves what it receives on at once, so none of its
buffers stays occupied. -/
def Core.advertise (s : Core) : Core :=
  s.setEly { s.ely with toF := s.ely.toF.advertise true s.ely.freed, toH := s.ely.toH.advertise false [] }
/-- The elytron comes up at start-up: the host counts as present, as though a HEARTBEAT had just come (DESIGN CHOICE: log
entry 137); with no host-to-field lane it is lost (R49, R100). -/
def Core.startEly (s : Core) (h f : Nat) : Core :=
  let s := (s.setLanes h f).advertise
  if s.ely.h2f = 0 then s.declareLost
  else (s.setEly { s.ely with hbAt := s.etime }).wr ELY_STATUS.HOST_ALIVE 1
/-- A lane loses lock (R47). -/
def laneDown (toField : Bool) (s : Core) : Core :=
  let n := if toField then s.ely.h2f else s.ely.f2h
  if n = 0 then s
  else
    let s := (s.setEly { s.ely with retraining := true }).emit 0x0301
    if toField then s.changeLanes (n / 2) s.ely.f2h else s.changeLanes s.ely.h2f (n / 2)
/-- A retrain ends: buffers are advertised afresh and unacknowledged flits are replayed (R46, R47, R589). The count of missed
host HEARTBEATs starts afresh, for none could cross (R49; DESIGN CHOICE: log entry 137). -/
def retrainDone (h f : Nat) (s : Core) : Core :=
  let back := s.ely.wasDown
  let e := s.ely
  let s := (s.setEly { e with retraining := false, toF := { e.toF with nak := none, quietAt := s.etime }
                              toH := { e.toH with nak := none, quietAt := s.etime } }).changeLanes h f
  if !s.elyUp then s
  else
    let s := s.inc ELY_REPLAY_CNT.COUNT 0 (s.ely.toF.replay.length + s.ely.toH.replay.length)
    let s := s.advertise
    let s := if s.ely.hostLost then s else s.setEly { s.ely with hbAt := s.etime }
    if back then (s.setEly { s.ely with wasDown := false }).emit 0x0305 else s
/-- ELY_HOST_LOST: HOST_HB_MISS consecutive host HEARTBEATs have failed to arrive; 0 counts as 1 (R49). -/
def hostSilent (s : Core) : Core :=
  if s.ely.hostLost then s
  else (s.reach (s.ely.hbAt + 100000 * max 1 (s.rd ELY_CFG.HOST_HB_MISS))).declareLost

/-- What IDENTIFY returns in bytes 0 to 13 (R184): SYS_ID, SYS_BOOT, and the epochs of the imago. -/
def Core.fieldReport (s : Core) : Nat :=
  let i := s.rd SYS_BOOT.IMAGO
  s.regWord 0x0 + at_ 4 (s.regWord 0xC) + at_ 8 (s.rd SYS_EPOCH.CKPT_EPOCH i) + at_ 10 (s.rd SYS_EPOCH.CMD_EPOCH i) +
    at_ 12 (s.rd SYS_FW.MAP_EPOCH i)

/-! ### The host side's registers (R155) -/

/-- A BAR0 field. -/
def HostSide.rd (h : HostSide) (f : Fld) (n : Nat := 0) : Nat := mget f.rst h.bar (f.key n) % 2 ^ f.width
/-- Is a one-bit BAR0 field 1? -/
def HostSide.rdb (h : HostSide) (f : Fld) (n : Nat := 0) : Bool := h.rd f n != 0
/-- Set a BAR0 field. -/
def HostSide.wr (h : HostSide) (f : Fld) (v : Nat) (n : Nat := 0) : HostSide :=
  { h with bar := mset f.rst h.bar (f.key n) (v % 2 ^ f.width) }
/-- A cause of BAR_ERR at an offset or host address: its bit, BAR_ERR_ADDR and IRQ_STATUS.ERR. -/
def HostSide.barErr (h : HostSide) (f : Fld) (addr : Nat) : HostSide :=
  ((h.wr f 1).wr BAR_ERR_ADDR.ADDR addr).wr IRQ_STATUS.ERR 1
/-- A host-memory access fails at an address (R166). -/
def HostSide.dmaErr (h : HostSide) (addr : Nat) : HostSide := h.barErr BAR_ERR.DMA_ERR addr
/-- Apply a function to the field side's registers and records. -/
def State.onCore (s : State) (g : Core → Core) : State := { s with field := s.field.onCore g }
/-- Apply a function to the host side. -/
def State.onHost (s : State) (g : HostSide → HostSide) : State := { s with host := g s.host }
/-- BAR_STATE follows the elytron and the last field report: no state is shown while there is no elytron. -/
def State.syncHost (s : State) : State :=
  let up := s.field.core.elyUp && s.host.powered
  s.onHost fun h => (h.wr BAR_STATE.LINK_UP (b2n up)).wr BAR_STATE.FIELD_STATE (if up then bits h.report 35 32 else 0)

end Sys2Proof.Machine
end

