-- ==== Sys2Proof/Machine/HeadLink.lean ====
section
/-! DEFINITION. The head links: training, frames, tokens, return messages, credit, the closing of lines, sideband and usage
records, link loss and reattach (spec/10_head_link.md R412 to R447). -/

namespace Sys2Proof.Machine

/-! ### Forward units (R416, R420, R592) -/

/-- A forward unit leaves the link, or an injection rule acts on it: DROP removes it, CORRUPT flips a payload bit of a
line frame, REORDER lets the next unit of its kind pass first, DELAY holds it and every unit behind it. `kind` is the
block type. -/
def Core.fwdUnit (s : Core) (l kind : Nat) (blocks : List Bytes) : Core :=
  let put := fun (s : Core) (bs : List Bytes) => s.sendMore l bs
  if !s.linkUp l then put s blocks
  else
    let (act, s) := s.fijUnit 3 l
    let mine := fun (u : HeldUnit) => u.target == 3 && u.inst == l
    let blocks := match act with
      | some (2, arg) =>
        if kind = 0x78 then
          let bit := arg % max 1 (64 * (blocks.length - 3))
          blocks.mapIdx fun i b => if i = 2 + bit / 64 then
            b.mapIdx (fun j v => if j = 1 + bit % 64 / 8 then v ^^^ BitVec.ofNat 8 (2 ^ (bit % 8)) else v) else b
        else blocks
      | _ => blocks
    match act, s.fij.held.find? fun u => mine u && u.due.isSome with
    | some (1, _), _ => s
    | _, some u => s.fijHold ⟨3, l, kind, u.due, none, blocks⟩
    | some (4, arg), none => s.fijHold ⟨3, l, kind, some (s.etime + arg), none, blocks⟩
    | act, none =>
      match s.fij.held.find? fun u => mine u && u.kind == kind with
      | some u =>
        let s := put (put s blocks) u.blocks
        { s with fij := { s.fij with held := dropFirst (· == u) s.fij.held } }
      | none =>
        match act with
        | some (3, _) => s.fijHold ⟨3, l, kind, none, none, blocks⟩
        | _ => put s blocks

/-! ### Link loss (R439, R445) -/

/-- Close every line issued on a link as unconfirmed, counting them. -/
def Core.closeUnconfirmed (s : Core) (l : Nat) : Core × Nat :=
  (s.headsOn l).foldl (fun (acc : Core × Nat) h =>
    (acc.1.closeIssued h (fun _ => true) .unconf, acc.2 + (acc.1.hf h).issued.length)) (s, 0)
/-- A frame sent before the loss is never sent again: its line closes at issue. -/
def spoilSent (y : StagedLine) : StagedLine := if y.seq.isSome then { y with seq := none, spoilt := true } else y
/-- A link is lost (R439). Only a running transmitter sends the INHIBIT of step 3; it is off for 1 ms after that. -/
def Core.linkLoss (s : Core) (l cause : Nat) : Core :=
  let block := if s.linkState l < 2 then [] else [inhibitBlock 255 4]
  let s := s.wrs [(HLK_STATUS.STATE, if s.rdb HLK_CFG.EN l then 0 else 1), (HLK_STATUS.LOSS_CAUSE, cause),
    (HLK_STATUS.RET_LOCK, 0)] l
  let s := s.inc HLK_LOSS_CNT.LOSSES l
  let (s, n) := s.closeUnconfirmed l
  let s := s.emit 0x0902 (l + at_ 1 cause + at_ 4 n)
  let again := s.rdb HLK_CFG.AUTO l && s.rdb HLK_CFG.EN l
  let x := s.ln l
  let s := s.setLn l (({ x with
    tx := false, txAt := if s.rdb HLK_CFG.EN l then some (s.etime + 1000000) else none
    restartAt := if again then some (s.etime + 10000000) else none, tokens := [], sb := [], inhibited := 0
    resume := 0, nakRun := 0, rack := none, lowRun := [], gone := [] } : LinkSt).fresh.send block)
  let s := (s.headsOn l).foldl (fun s h =>
    let s := (s.waitHead h).wr HDC_FIRE.FIRING 0 h
    s.setHf h { s.hf h with staged := (s.hf h).staged.map spoilSent }) s
  let s := ((List.range 8).map (8 * l + ·)).foldl (fun s h =>
    if (s.hr h).write.isNone && !(s.hr h).pfDue then s else s.setHr h { s.hr h with write := none, pfDue := false }) s
  let s := { s with fij := { s.fij with held := s.fij.held.filter fun u => !((u.target == 3 || u.target == 4) && u.inst == l) } }
  s.cdcReset (crossesDomain 9 l)
/-- HL_PRESENT_LOST: HLn_PRSNT_N goes high. -/
def doHlPresentLost (l : Nat) (s : Core) : Core :=
  if !s.rdb HLK_STATUS.PRSNT l then s
  else
    let s := (s.wr HLK_STATUS.PRSNT 0 l).linkLoss l 1
    s.setLn l { s.ln l with tx := false, txAt := none, restartAt := none }
/-- RET_LOCK_LOST: return-lane lock is lost. -/
def doRetLockLost (l : Nat) (s : Core) : Core := if s.linkState l < 2 then s else s.linkLoss l 2
/-- RET_SILENT: no return message for 50 µs. -/
def doRetSilent (l : Nat) (s : Core) : Core :=
  if s.linkUp l then (s.reach ((s.ln l).lastMsg + 50000)).linkLoss l 3 else s
/-- The ETIME at which a token times out (R437): CONF_TO_US after its strobe, or after it was sent. -/
def Tok.due (t : Tok) (to_ : Nat) : Option Nat :=
  if t.fire then some (t.strobe + 1000 * to_) else t.sentAt.map (· + 1000 * to_)
/-- CONF_TIMEOUT: a token has found no CONFIRM in time. -/
def doConfTimeout (l : Nat) (s : Core) : Core :=
  if !s.linkUp l then s
  else
    match ((s.ln l).tokens.filterMap fun t => t.due (s.rd HLK_CFG.CONF_TO_US l)) with
    | [] => s
    | d :: ds => (s.reach (ds.foldl min d)).linkLoss l 5

/-! ### Training (R426 to R429) -/

/-- Does the forward transmitter run: on, or on again 1 ms after a loss (R439)? -/
def Core.txOn (s : Core) (l : Nat) : Bool :=
  (s.ln l).tx || (match (s.ln l).txAt with
    | some t => decide (t ≤ s.etime)
    | none => false)
/-- Step 1 of R428: the stream begins, each lane with an ALIGN and an IDLE block. -/
def Core.trainStart (s : Core) (l : Nat) : Core :=
  (s.wr HLK_STATUS.STATE 2 l).setLn l
    ((({ s.ln l with tx := true, txAt := none, restartAt := none, pos := 0 } : LinkSt).fresh.align).send [idleBlock, idleBlock])
/-- HL_PRESENT: HLn_PRSNT_N has been low for 10 ms. Training waits for firmware and for EN. -/
def doHlPresent (l : Nat) (s : Core) : Core :=
  if s.rdb HLK_STATUS.PRSNT l then s
  else
    let s := s.wr HLK_STATUS.PRSNT 1 l
    if s.fwRuns && s.rdb HLK_CFG.EN l then s.trainStart l else s
/-- HL_TRAIN_RESTART: the off time after a failed attempt or a loss is over. -/
def doHlTrainRestart (l : Nat) (s : Core) : Core :=
  match (s.ln l).restartAt with
  | none => s
  | some t =>
    if s.linkState l = 0 ∧ s.rdb HLK_CFG.EN l ∧ s.rdb HLK_STATUS.PRSNT l then (s.reach t).trainStart l else s
/-- An attempt ends (R429): HL_TRAIN_FAIL at most once per 10 s per link, with the failures since the last report. -/
def Core.trainFail (s : Core) (l reason : Nat) : Core :=
  let s := (s.wrs [(HLK_STATUS.STATE, 0), (HLK_STATUS.TRAIN_FAIL, reason), (HLK_STATUS.RET_LOCK, 0)] l).inc
    HLK_LOSS_CNT.TRAIN_FAILS l
  let x := s.ln l
  let say : Bool := match x.failSaidAt with
    | some t => decide (t + 10000000000 ≤ s.etime)
    | none => true
  let x := { x with tx := false, txAt := none, restartAt := some (s.etime + 100000000) }
  if say then
    (s.setLn l { x with failsUnsaid := 0, failSaidAt := some s.etime }).emit 0x0903
      (l + at_ 1 reason + at_ 4 (satU 32 (x.failsUnsaid + 1)))
  else s.setLn l { x with failsUnsaid := x.failsUnsaid + 1 }
/-- HL_TRAIN_FAIL: a step misses its bound; reason 0 is no failure. -/
def doHlTrainFail (l reason : Nat) (s : Core) : Core :=
  if s.linkState l = 2 ∧ reason ≠ 0 then s.trainFail l reason else s
/-- LAT_NS from RT and TURN of the echoes (R426): the least one-way time, rounded half up. -/
def echoLat (es : List (Nat × Nat)) : Nat :=
  match es.map fun e => e.1 - e.2 with
  | [] => 0
  | d :: ds => (ds.foldl min d + 1) / 2
/-- A return message that is whole: 14 bytes with a good CRC-16 (R423). -/
def msgOk (m : Bytes) : Bool := m.length == 14 && crc16 (m.take 12) == leAt m 12 2
/-- Are the bytes `[a, b)` of a message 0? -/
def zeroAt (m : Bytes) (a b : Nat) : Bool := ((m.drop a).take (b - a)).all (· == 0#8)
/-- A HELLO (R423): VERSION, TOKENS and SETUP_NS. -/
def helloOf (m : Bytes) : Option (Nat × Nat × Nat) :=
  if msgOk m && byteAt m 0 == 6 && zeroAt m 6 12 then some (byteAt m 2, byteAt m 3, leAt m 4 2) else none
/-- TURN of an ECHO (R423). -/
def turnOf (m : Bytes) : Option Nat :=
  if msgOk m && byteAt m 0 == 5 && zeroAt m 3 4 && zeroAt m 8 12 then some (leAt m 4 4) else none
/-- A STATUS of slot 0 as HEAD_OK, FREED and OHMS (R423). -/
def status0Of (m : Bytes) : Option (Bool × Nat × Nat) :=
  if msgOk m && byteAt m 0 == 2 && byteAt m 2 % 8 == 0 && decide (byteAt m 2 < 32) && zeroAt m 3 4 && zeroAt m 9 12 then
    some (bit (byteAt m 2) 3, leAt m 4 2, leAt m 6 3)
  else none
/-- An ECHO_REQ block. -/
def echoReq (id : Nat) : Bytes := ctlBlock (0xCC + at_ 1 id)
/-- LEAD_MIN_NS (R426). -/
def leastLead (lat setup : Nat) : Nat := alignUp (600 + lat + setup) 100
/-- Compare the effective lead of a link with its least lead (R427). -/
def Core.leadCheck (s : Core) (l : Nat) : Core :=
  let least := s.rd HLK_LAT.LEAD_MIN_NS l
  if s.lead l < least + 1000 then
    (s.wr HLK_STATUS.LEAD_SHORT 1 l).emit 0x0909 (l + at_ 4 (s.lead l / 100) + at_ 6 least)
  else s.wr HLK_STATUS.LEAD_SHORT 0 l
/-- A TIME block (R421). -/
def timeBlock (t : Nat) : Bytes := 2#8 :: 0x33#8 :: toLE 7 t
/-- End the reattach operations of a link. -/
def Core.endReattach (s : Core) (l : Nat) (g : Nat → Core → Core) : Core :=
  let x := s.ln l
  x.reattach.foldl (fun s r => g r.1 s) (s.setLn l { x with reattach := [] })
/-- The slots of a link whose heads are in a state. -/
def Core.slotsIn (s : Core) (l st : Nat) : Nat :=
  (s.headsOn l).foldl (fun m h => if s.headState h = st then m + 2 ^ (h % 8) else m) 0
/-- A RACK block. -/
def rackBlock (seq : Nat) (nak : Bool) : Bytes := ctlBlock (0x66 + at_ 1 seq + at_ 2 (b2n nak))
/-- TIME blocks that have come due go out; of several only the last is formed (R421). -/
def Core.sendTimes (s : Core) (l : Nat) : Core :=
  let x := s.ln l
  let n := (s.etime - x.lastTime) / 10000
  if n = 0 then s
  else
    (s.setLn l { x with lastTime := x.lastTime + 10000 * n, fwd := x.fwd + (n - 1) }).fwdUnit l 0x33
      [timeBlock (s.etime + s.rd HLK_LAT.LAT_NS l)]
/-- Steps 5 and 6 of R428: the first TIME goes out at the next ETIME that is a multiple of 10,000 ns (R421); SEQ starts at 0, and
the STATUS of slot 0 is message 0. A link that drops during discovery discards what it has read (R148). -/
def Core.bringUp (s : Core) (l : Nat) (st : Bool × Nat × Nat) (inp : TrainIn) : Core :=
  let lat := s.rd HLK_LAT.LAT_NS l
  let s := (s.reach (alignUp s.etime 10000)).wr HLK_STATUS.STATE 3 l
  let s := ((List.range 8).map (8 * l + ·)).foldl
    (fun s h => s.wrs [(HLK_SLOT_CRED.SENT, 0), (HLK_SLOT_CRED.FREED, 0)] h) s
  let s := s.wrs [(HLK_SLOT_THERM.OHMS, st.2.2), (HLK_SLOT_THERM.AGE, 0), (HLK_SLOT_THERM.HEAD_OK, b2n st.1)] (8 * l)
  let blocks := [2, 1, 3].filterMap fun src =>
    if s.covered l src = 0 then none else some (inhibitBlock (s.covered l src) src)
  let s := s.setLn l (({ s.ln l with
    rxSeq := 1, nakRun := 0, tokens := [], sb := [], lastMsg := s.etime, lastTime := s.etime, resume := 0
    inhibited := s.coveredAny l, rackAt := some s.etime, rack := none } : LinkSt).fresh.send
      (timeBlock (s.etime + lat) :: blocks ++ [rackBlock 0 false]))
  match inp.found.lost with
  | some c => let s := s.linkLoss l (c.val + 1)
              s.setLn l { s.ln l with mems := [], headEnd := none }
  | none =>
  let s := (s.discover l inp.headEnd (inp.found.heads.map fun p => (p.1.val, p.2))).sendTimes l
  let last := inp.found.seq.toNat
  let s := (s.setLn l { s.ln l with rxSeq := (last + 1) % 256, rackAt := some s.etime, lastMsg := s.etime }).sendMore l
    [rackBlock last false]
  let s := (s.wr HLK_STATUS.STATE 4 l).wr2 HLK_UP_ETIME_LO.ETIME HLK_UP_ETIME_HI.ETIME s.etime l
  let s := s.leadCheck l
  let att := s.slotsIn l 3
  let s := s.emit 0x0901 (l + at_ 1 att + at_ 2 lat + at_ 4 (s.rd HLK_LAT.LEAD_MIN_NS l))
  s.endReattach l fun op s => s.asyncDone op 0 (att + at_ 1 (s.slotsIn l 4))
/-- LINK_TRAINING: one attempt, with what it meets (R428, R429). A message that is not whole has not come. -/
def doLinkTraining (l : Nat) (inp : TrainIn) (s : Core) : Core :=
  if s.linkState l ≠ 2 then s
  else if !inp.lock then s.trainFail l 1
  else
    let s := s.wr HLK_STATUS.RET_LOCK 1 l
    match inp.hello.bind helloOf with
    | none => s.trainFail l 2
    | some (version, tokens, setup) =>
      let s := s.wrs [(HLK_HELLO.SETUP_NS, setup), (HLK_HELLO.TOKENS, tokens), (HLK_HELLO.VERSION, version)] l
      if version ≠ 1 ∨ tokens < 4 ∨ setup < 100 ∨ setup > 5000 then s.trainFail l 3
      else
        let s := (s.openLink l).sendMore l ((List.range 16).map echoReq)
        let echoes := (inp.echoes.take 16).filterMap fun p => (turnOf p.2).map fun n => (p.1.toNat, n)
        let lat := echoLat echoes
        if echoes.length < 16 ∨ lat > 50 then s.trainFail l 4
        else
          let s := s.wrs [(HLK_LAT.LAT_NS, lat), (HLK_LAT.LEAD_MIN_NS, leastLead lat setup)] l
          match inp.status.bind status0Of with
          | none => s.trainFail l 5
          | some st => s.bringUp l st inp

/-! ### Reattach (R441, R442) -/

/-- LINK_REATTACH, its conditions in the order of R179 (DEDUCED: log entry 144). -/
def linkReattach (c : Call) (l : Nat) (s : Core) : Reply × Core :=
  if l ≥ 24 then (badRange 0x10, s)
  else if s.segBar l = 0xFF then (absent 0x10, s)
  else if s.rdb PWR_SUPPLY.PF then (busy 0, s)
  else if !s.rdb HLK_STATUS.PRSNT l then (wrongState 0, s)
  else if s.printing ∧ !s.rdb CMDQ_CFG.LIVE_SERVICE then (wrongState 0x0012, s)
  else
    let (op, s) := s.newOp 0x0902 c
    let x := s.ln l
    let s := (s.setLn l { x with reattach := x.reattach ++ [(op, s.etime + 5000000000)] }).linkLoss l 7
    (.accepted op, s.setLn l { s.ln l with restartAt := if s.rdb HLK_CFG.EN l then some (s.etime + 10000000) else none })
/-- LINK_REATTACH_TIMEOUT: the link is not UP within 5 s. -/
def doLinkReattachTimeout (l : Nat) (s : Core) : Core :=
  match (s.ln l).reattach with
  | [] => s
  | (op, due) :: rest =>
    let s := s.reach due
    (s.setLn l { s.ln l with reattach := rest }).asyncErr op 0x40 0 0x0903
/-- A write of HLK_n_CFG.EN (R439, R442): 0 drops the link and holds it DISABLED; 1 lets it train again. -/
def Core.setLinkEn (s : Core) (l : Nat) (on : Bool) : Core :=
  let was := s.rdb HLK_CFG.EN l
  let s := s.wr HLK_CFG.EN (b2n on) l
  if was = on then s
  else if !on then
    let s := (s.linkLoss l 7).wr HLK_STATUS.STATE 1 l
    s.setLn l { s.ln l with tx := false, txAt := none, restartAt := none }
  else
    let s := s.wr HLK_STATUS.STATE 0 l
    if s.fwRuns && s.rdb HLK_STATUS.PRSNT l then s.trainStart l else s

/-! ### Frames and tokens (R417 to R420, R430, R433, R437) -/

/-- The waveform word of a link: W[l] in bits [4l + 3 : 4l] (R417, R419). -/
def Core.levelMap (s : Core) (l : Nat) : Nat :=
  [HLK_LVL_MAP.W7, HLK_LVL_MAP.W6, HLK_LVL_MAP.W5, HLK_LVL_MAP.W4, HLK_LVL_MAP.W3, HLK_LVL_MAP.W2, HLK_LVL_MAP.W1].foldl
    (fun a f => 16 * a + s.rd f l) 0 * 16
/-- The blocks of a line frame. `spoil` sends the bitwise inverse of the correct CRC-16 (R579). -/
def frameBlocks (slot bits line map nozzles : Nat) (payload : Bytes) (spoil : Bool) : List Bytes :=
  let start := ctlBlock (0x78 + at_ 1 (slot + 8 * bits) + at_ 2 line + at_ 4 (payload.length / 8))
  let lm := toLE 8 (map + at_ 4 nozzles)
  let crc := crc16 (start.drop 2 ++ lm ++ payload)
  let crc := if spoil then 65535 - crc else crc
  start :: dataBlock lm :: (List.range (payload.length / 8)).map (fun i => dataBlock ((payload.drop (8 * i)).take 8)) ++
    [ctlBlock (0x87 + at_ 1 slot + at_ 2 line + at_ 4 crc)]
/-- The staged line whose frame a slot sends next, if it has credit. -/
def Core.frameWaits (s : Core) (h : Nat) : Option StagedLine :=
  if s.attached h ∧ (s.rd HLK_SLOT_CRED.SENT h + 65536 - s.rd HLK_SLOT_CRED.FREED h) % 65536 < s.rd HLK_CREDIT.GRANT (h / 8)
  then (s.hf h).staged.find? fun y => y.seq.isNone && !y.spoilt
  else none
/-- The frame a link sends next: the earliest predicted strobe across slots with credit. -/
def Core.nextFrame (s : Core) (l : Nat) : Option (Nat × StagedLine) :=
  (s.headsOn l).foldl (fun best h =>
    match s.frameWaits h with
    | none => best
    | some y =>
      match best with
      | none => some (h, y)
      | some (g, z) => if posDiff (s.strikePos h y.job y.w) (s.strikePos g z.job z.w) < 0 then some (h, y) else best) none
/-- A TOKEN block. -/
def tokenBlock (t : Tok) : Bytes :=
  ctlBlock (0x2D + at_ 1 (t.slot + if t.fire then 0 else 8) + at_ 2 t.line + at_ 4 (if t.fire then t.strobe % 2 ^ 32 else 0))
/-- The first token not yet sent leaves; a RESUME that waited for the last of them follows. -/
def Core.sendToken (s : Core) (l : Nat) : Core :=
  let x := s.ln l
  match findIx (fun t : Tok => t.sentAt.isNone) x.tokens with
  | none => s
  | some (i, t) =>
    let s := s.setLn l { x with tokens := lset x.tokens i { t with sentAt := some s.etime } }
    (s.fwdUnit l 0x2D [tokenBlock t]).flushResume l
/-- A RACK goes out, naming the last message in order, or the one expected next with NAK; the fourth NAK of one SEQ loses the link
(R425, R438). -/
def Core.sendRack (s : Core) (l : Nat) (nak : Bool) : Core :=
  let x := s.ln l
  let s := s.setLn l { x with rack := none, rackAt := some s.etime, nakRun := if nak then x.nakRun + 1 else x.nakRun }
  let s := s.fwdUnit l 0x66 [rackBlock (if nak then x.rxSeq else (x.rxSeq + 255) % 256) nak]
  if !nak then s
  else
    let s := s.inc HLK_REPLAY_CNT.COUNT l
    if x.nakRun + 1 ≥ 4 then s.linkLoss l 4 else s
/-- May a RACK leave: 1 µs after the last one (R420)? -/
def Core.rackDue (s : Core) (l : Nat) : Bool :=
  match (s.ln l).rackAt with
  | some t => decide (t + 1000 ≤ s.etime)
  | none => true
/-- A RACK that waits goes out once it may. -/
def Core.flushRack (s : Core) (l : Nat) : Core :=
  match (s.ln l).rack with
  | some nak => if s.rackDue l then s.sendRack l nak else s
  | none => s
/-- At a block boundary the blocks ahead in the list of R420 leave first: TIME where it is due, every token, RESUME, RACK. -/
def Core.sendAhead (s : Core) (l : Nat) : Core :=
  let s := (s.openLink l).sendTimes l
  let n := (s.ln l).tokens.length
  ((List.range n).foldl (fun s _ => s.sendToken l) s).flushRack l
/-- LINE_FRAME_SEND: `parityBad` is a word of line staging found with bad parity as the frame is read. -/
def doLineFrameSend (l : Nat) (parityBad : Option Nat) (s : Core) : Core :=
  if !s.linkUp l then s
  else
    match s.nextFrame l with
    | none => s
    | some (h, y) =>
      let s := s.sendAhead l
      if !s.linkUp l then s
      else
        let seq := s.rd HLK_SLOT_CRED.SENT h
        let s := match parityBad with | some w => s.sramParity 1 w | none => s
        let spoilt := parityBad.isSome
        let s := s.wr HLK_SLOT_CRED.SENT (seq + 1) h
        let x := s.hf h
        let s := s.setHf h { x with staged := mapIf (· == y) (fun y => { y with seq := some seq, spoilt := spoilt }) x.staged }
        s.fwdUnit l 0x78 (frameBlocks (h % 8) (s.rd GEO_CFG.DROP_BITS (s.barOf h)) seq (s.levelMap l) (s.nozzles h) y.payload
          spoilt)
/-- TOKEN_SEND: the first token not yet sent leaves, behind a TIME block that is due. -/
def doTokenSend (l : Nat) (s : Core) : Core :=
  if !s.linkUp l ∨ (s.ln l).tokens.all (·.sentAt.isSome) then s else ((s.openLink l).sendTimes l).sendToken l
/-- TIME_BLOCK_SEND: the next multiple of 10,000 ns is reached. -/
def doTimeBlockSend (l : Nat) (s : Core) : Core :=
  if !s.linkRuns l then s else (((s.reach ((s.ln l).lastTime + 10000)).openLink l).sendTimes l).flushRack l
/-- ALIGN_BLOCK_SEND: 16,384 blocks after the last one, IDLE blocks filling up to there, each lane carries an ALIGN block. -/
def doAlignBlockSend (l : Nat) (s : Core) : Core :=
  if !s.txOn l then s
  else
    let x := s.ln l
    (s.setLn l ({ x with pos := max x.pos (x.aligned + 16384) } : LinkSt).fresh.align).flushRack l

/-! ### Usage records and sideband (R443 to R445, R148, R558) -/

/-- May a head's identity memory be written: a whole sensor and a value within WR_T_MIN to WR_T_MAX (R558)? -/
def Core.writeTempOk (s : Core) (h : Nat) : Bool :=
  let d := (s.hr h).desc; let t := s.headDec h
  !s.rdb HDC_TEMP_WARN.BROKEN h && decide (sgn 16 (leAt d 0x30 2) ≤ t ∧ t ≤ sgn 16 (leAt d 0x32 2))
/-- The record a head's write carries now (R444). -/
def Core.usageNow (s : Core) (h : Nat) : Usage :=
  let r := s.hr h; let (lines, drops) := s.unwritten h
  ⟨r.usage.seq + 1, r.usage.drops + drops, r.usage.strobes + lines, r.usage.fireS + r.fireNs / 1000000000, r.usage.tPeak⟩
/-- Begin a usage write into the copy not in force. -/
def Core.beginUsage (s : Core) (h : Nat) (pf : Bool) : Core :=
  let s := (s.countFire h).wr HLK_SLOT_USAGE.DEFERRED 0 h
  let r := s.hr h
  s.setHr h { r with
    write := some ⟨1 - r.copy, usageBytes (r.serial.getD 0) (s.usageNow h), 0, [], pf, 0, 0⟩
    pfDue := false }
/-- USAGE_RECORD_WRITE: the next 60 s since attach are over, or the head's temperature is back in range for a write that
was deferred. -/
def doUsageRecordWrite (h : Nat) (s : Core) : Core :=
  let r := s.hr h
  if !s.attached h ∨ !s.linkUp (h / 8) ∨ s.rdb PWR_SUPPLY.PF ∨ r.write.isSome then s
  else if s.rdb HLK_SLOT_USAGE.DEFERRED h then
    if s.writeTempOk h then s.beginUsage h false else s
  else
    let s := s.reach (r.attachedAt + 60000000000 * (r.periods + 1))
    let s := s.setHr h { s.hr h with periods := (s.etime - r.attachedAt) / 60000000000 }
    if s.writeTempOk h then s.beginUsage h false else s.wr HLK_SLOT_USAGE.DEFERRED 1 h
/-- Is a write of the head going on? One that has words left and may not write them is skipped in the power-fail sequence: it
waits and holds up no other head (R106). -/
def Core.pfWrites (s : Core) (h : Nat) : Bool :=
  match (s.hr h).write with
  | none => false
  | some w => w.outcome != 0 || decide (16 ≤ w.done) || s.writeTempOk h || (s.ln (h / 8)).sb.any (·.target == h % 8)
/-- During the power-fail sequence the next head of a link begins its write, in slot order; one outside its range is
skipped (R105, R106). -/
def Core.nextPowerFail (s : Core) (l : Nat) : Core :=
  if (s.headsOn l).any s.pfWrites then s
  else
    (s.headsOn l).foldl (fun s h =>
      if !(s.hr h).pfDue ∨ (s.headsOn l).any s.pfWrites then s
      else if s.writeTempOk h then s.beginUsage h true
      else s.setHr h { s.hr h with pfDue := false }) s
/-- The request a usage write makes next: a word to write, or a pair of words to read back. -/
def UsageWrite.next (w : UsageWrite) : Option (Bool × Nat × Nat) :=
  if w.outcome ≠ 0 then none
  else if w.done < 16 then some (true, 0x100 + 16 * w.copy + w.done, leAt w.bytes (4 * w.done) 4)
  else if w.powerFail ∨ w.back.length ≥ 64 then none
  else some (false, 0x100 + 16 * w.copy + w.back.length / 4, 0)
/-- An SB_REQ block. -/
def sbBlock (q : SbReq) : Bytes :=
  ctlBlock (0x99 + at_ 1 (q.target + (if q.write then 16 else 0) + 32 * q.tid) + at_ 2 q.waddr + at_ 4 q.word)
/-- Send a request, behind what goes ahead of it, no sooner than 1 µs after the last one (R420). -/
def Core.sendSb (s : Core) (l : Nat) (q : SbReq) : Core :=
  let s := (s.reach ((s.ln l).sbAt.elim 0 (· + 1000))).sendAhead l
  if !s.linkUp l then s
  else
    let q := { q with sentAt := s.etime }
    (s.setLn l { s.ln l with sb := (s.ln l).sb ++ [q], sbAt := some s.etime }).fwdUnit l 0x99 [sbBlock q]
/-- SIDEBAND_REQUEST: the lowest slot whose usage write waits to make a request makes it. Outside the write range no
further word is written (R558). -/
def doSidebandRequest (l : Nat) (s : Core) : Core :=
  if !s.linkUp l then s
  else
    let s := if s.rdb PWR_SUPPLY.PF then s.nextPowerFail l else s
    let x := s.ln l
    let ready := (s.headsOn l).filterMap fun h =>
      if x.sb.any (·.target == h % 8) then none else ((s.hr h).write.bind UsageWrite.next).map (fun r => (h, r))
    let held := (ready.filter fun p => p.2.1 && !s.writeTempOk p.1).map (·.1)
    let s := held.foldl (fun s h => s.wr HLK_SLOT_USAGE.DEFERRED 1 h) s
    match ready.find? fun p => !held.contains p.1, (List.range 8).find? fun t => !x.sb.any (·.tid == t) with
    | some (h, wr, waddr, word), some tid =>
      (s.wr HLK_SLOT_USAGE.DEFERRED 0 h).sendSb l ⟨tid, h % 8, wr, waddr, word, 0, 0⟩
    | _, _ => s
/-- Change the write of a head. -/
def Core.modWrite (s : Core) (h : Nat) (g : UsageWrite → UsageWrite) : Core :=
  s.setHr h { s.hr h with write := (s.hr h).write.map g }
/-- A sideband read has failed: it is tried again twice; after the third failure the head is refused NO_RESPONSE and its
write fails (R148, R445). The read-back of a write that counts as its power-fail write is skipped, so none is tried again. -/
def Core.sbReadFailed (s : Core) (l : Nat) (q : SbReq) (result : Nat) : Core :=
  if (s.hr (8 * l + q.target)).write.any (·.outcome != 0) then s
  else if q.fails < 2 then s.sendSb l { q with fails := q.fails + 1 }
  else
    let h := 8 * l + q.target
    ((s.modWrite h fun w => { w with outcome := 2, result := result }).refuseHead h 1)
/-- SIDEBAND_READ_TIMEOUT: the oldest read has waited 10 ms. -/
def doSidebandReadTimeout (l : Nat) (s : Core) : Core :=
  let x := s.ln l
  if !s.linkUp l then s
  else
    match x.sb.find? (!·.write) with
    | none => s
    | some q =>
      let s := (s.reach (q.sentAt + 10000000)).setLn l { x with sb := dropFirst (· == q) x.sb }
      s.sbReadFailed l q 0xFF
/-- A message dropped for its content. -/
def Core.protoDrop (s : Core) (l type : Nat) : Core :=
  (s.inc HLK_PROTO_CNT.COUNT l).emitLim 0x0907 l fun n => l + at_ 1 type + at_ 4 n
/-- A sideband answer: a written word is done, or the words read back are taken; the last of them ends the write. Bytes 8-11 of a
write's answer are 0, or the message is dropped (R423, R438). -/
def Core.onSbResp (s : Core) (l tid result : Nat) (data : Bytes) : Core :=
  let x := s.ln l
  match x.sb.find? (·.tid == tid) with
  | none => s.inc HLK_STRAY_CNT.COUNT l
  | some q =>
    let h := 8 * l + q.target
    if q.write && !zeroAt data 4 8 then s.protoDrop l 3
    else
    let s := s.setLn l { x with sb := dropFirst (· == q) x.sb }
    if result ≠ 0 then
      if q.write then s.modWrite h fun w => { w with outcome := 2, result := result } else s.sbReadFailed l q result
    else if q.write then
      s.modWrite h fun w =>
        let n := w.done + 1
        { w with done := n, outcome := if n ≥ 16 ∧ w.powerFail then 1 else w.outcome }
    else
      s.modWrite h fun w =>
        let back := w.back ++ (data.take 8 ++ List.replicate 8 0#8).take 8
        let ok := usageOk ((s.hr h).serial.getD 0) back
        if w.outcome ≠ 0 then w else { w with back := back, outcome := if back.length < 64 then 0 else if ok then 1 else 2, result := 0xFF }
/-- USAGE_WRITE_END: a write has ended. A success puts its record in force. -/
def doUsageWriteEnd (h : Nat) (s : Core) : Core :=
  let r := s.hr h
  match r.write with
  | none => s
  | some w =>
    if w.outcome = 0 then s
    else
      let s := s.wr HLK_SLOT_USAGE.DEFERRED 0 h
      if w.outcome = 1 then
        let u := usageOf w.bytes
        (s.setHr h { r with
          write := none, usage := { u with tPeak := max u.tPeak r.usage.tPeak }, copy := w.copy
          baseStrobes := (r.baseStrobes + u.strobes - r.usage.strobes) % 2 ^ 64
          baseDrops := (r.baseDrops + u.drops - r.usage.drops) % 2 ^ 64
          fireNs := r.fireNs - 1000000000 * (u.fireS - r.usage.fireS), writtenAt := s.etime }).wrs
          [(HLK_SLOT_USAGE.AGE_S, 0), (HLK_SLOT_USAGE.FAILED, 0)] h
      else
        ((s.setHr h { r with write := none }).wr HLK_SLOT_USAGE.FAILED 1 h).emit 0x090B (h + at_ 1 w.result)

/-! ### Return messages (R423 to R425, R431, R432, R438) -/

/-- A message has come. -/
def Core.heard (s : Core) (l : Nat) : Core :=
  let x := s.ln l
  s.setLn l { x with lastMsg := s.etime, ret := x.ret + 1 }
/-- SLOTS of the head end; a head end that was refused may use every slot. -/
def Core.slotsOf (s : Core) (l : Nat) : Nat :=
  match (s.ln l).headEnd with
  | some e => byteAt e 0x20
  | none => 8
/-- Take FREED of a slot; none where it moved backwards or passed SENT (R432). -/
def Core.takeFreed (s : Core) (h freed : Nat) : Option Core :=
  let old := s.rd HLK_SLOT_CRED.FREED h
  if (freed + 65536 - old) % 65536 ≤ (s.rd HLK_SLOT_CRED.SENT h + 65536 - old) % 65536 then
    some (s.wr HLK_SLOT_CRED.FREED freed h)
  else none
/-- Note a CONFIRM in the slot's and the link's registers. -/
def Core.noteConfirm (s : Core) (l h line dev status reason : Nat) : Core :=
  let s := s.wrs [(HLK_SLOT_LAST.LINE, line), (HLK_SLOT_LAST.DEV, dev), (HLK_SLOT_LAST.STATUS, status),
    (HLK_SLOT_LAST.REASON, reason)] h
  if dev = 0x80 then s
  else
    let d := absN (sgn 8 dev)
    let s := s.wr HLK_DEV.LAST dev l
    if d > s.rd HLK_DEV.PEAK l then s.wr HLK_DEV.PEAK d l else s
/-- Close the line of a FIRE token. -/
def Core.closeToken (s : Core) (l h : Nat) (t : Tok) (status reason drops : Nat) : Core :=
  let s := if status = 0 ∧ drops ≠ t.drops then
      (s.inc HLK_DROP_MISMATCH_CNT.COUNT l).emit 0x0908 (h + at_ 2 t.line + at_ 4 (t.drops % 65536) + at_ 6 drops)
    else s
  let s := if status = 1 then s.emitLim 0x0904 l fun n => h + at_ 1 reason + at_ 4 n else s
  let x := s.hf h
  match x.issued.find? (·.seq == t.line) with
  | none => s
  | some y =>
    let s := s.setHf h { x with issued := dropFirst (· == y) x.issued }
    match status with
    | 0 => s.closeLine h y.job y.w y.drops .strobed true
    | 1 => s.closeLine h y.job y.w y.drops .late true
    | _ => s.closeLine h y.job y.w y.drops .inh (s.inhOpens (s.barOf h) y.job)
/-- A CONFIRM (R424, R437, R438). -/
def Core.onConfirm (s : Core) (l slot status reason line freed drops dev : Nat) : Core :=
  let h := 8 * l + slot
  if slot ≥ s.slotsOf l then s.protoDrop l 1
  else
    match s.takeFreed h freed with
    | none => s.linkLoss l 6
    | some s =>
      let s := s.noteConfirm l h line dev status reason
      let x := s.ln l
      match x.tokens.find? fun t => t.slot == slot && t.line == line && t.sentAt.isSome with
      | none => (s.inc HLK_STRAY_CNT.COUNT l).emitLim 0x0906 l fun n => l + at_ 1 slot + at_ 2 line + at_ 4 n
      | some t =>
        if t.fire = decide (status = 3) then s.linkLoss l 6
        else
          let s := s.setLn l { x with tokens := dropFirst (· == t) x.tokens }
          if t.fire then s.closeToken l h t status reason drops else s
/-- A STATUS (R434, R438). `mem` is what the slot's identity memory holds when a head that had gone is there again. -/
def Core.onStatus (s : Core) (l slot : Nat) (headOk : Bool) (freed ohms : Nat) (mem : IdRead) : Core :=
  let h := 8 * l + slot
  if slot ≥ s.slotsOf l then s.protoDrop l 2
  else
    match s.takeFreed h freed with
    | none => s.linkLoss l 6
    | some s =>
      let s := s.wrs [(HLK_SLOT_THERM.OHMS, ohms), (HLK_SLOT_THERM.AGE, 0), (HLK_SLOT_THERM.HEAD_OK, b2n headOk)] h
      let x := s.ln l
      if headOk then
        let s := s.setLn l { x with lowRun := mdel slot x.lowRun, gone := x.gone.filter (· != slot) }
        if x.gone.contains slot then
          let (got, s) := s.readId mem
          let s := s.setLn l { s.ln l with mems := match got with
            | some m => mput slot m x.mems
            | none => mdel slot x.mems }
          s.checkSlot h got (x.headEnd.getD [])
        else s
      else if !s.attached h then s
      else
        let n := mget 0 x.lowRun slot + 1
        if n < 3 then s.setLn l { x with lowRun := mset 0 x.lowRun slot n }
        else
          let s := s.setLn l { x with lowRun := mdel slot x.lowRun, gone := x.gone ++ [slot] }
          ((s.waitHead h).wr HDC_FIRE.FIRING 0 h).emit 0x090A h
/-- A FRAME_NAK (R436). -/
def Core.onFrameNak (s : Core) (l slot reason freed : Nat) : Core :=
  let h := 8 * l + slot
  if slot ≥ s.slotsOf l then s.protoDrop l 4
  else
    match s.takeFreed h freed with
    | none => s.linkLoss l 6
    | some s => (s.inc HLK_FRAME_NAK_CNT.COUNT l).emitLim 0x0905 l fun n => h + at_ 1 reason + at_ 4 n
/-- Are the reserved bits of a message's body 0 (R423)? -/
def bodyClean (m : Bytes) : Bool :=
  match byteAt m 0 with
  | 1 => byteAt m 2 &&& 0xC8 == 0 && decide (byteAt m 3 < 8) && zeroAt m 11 12
  | 2 => decide (byteAt m 2 < 32) && zeroAt m 3 4 && zeroAt m 9 12
  | 3 => decide (byteAt m 2 < 8)
  | 4 => decide (byteAt m 2 < 8) && zeroAt m 8 12
  | _ => false
/-- Act on a message accepted in order. -/
def Core.dispatchMsg (s : Core) (l : Nat) (m : Bytes) (mem : IdRead) : Core :=
  let b2 := byteAt m 2
  if !bodyClean m then s.protoDrop l (byteAt m 0)
  else
    match byteAt m 0 with
    | 1 => s.onConfirm l (b2 % 8) (b2 / 16 % 4) (byteAt m 3) (leAt m 4 2) (leAt m 6 2) (leAt m 8 2) (byteAt m 10)
    | 2 => s.onStatus l (b2 % 8) (bit b2 3) (leAt m 4 2) (leAt m 6 3) mem
    | 3 => s.onSbResp l b2 (byteAt m 3) ((m.drop 4).take 8)
    | _ => s.onFrameNak l b2 (byteAt m 3) (leAt m 6 2)
/-- A RACK is owed: it goes out now, or, less than 1 µs after the last one, as soon as it may; a NAK stays one (R420, R425). -/
def Core.oweRack (s : Core) (l : Nat) (nak : Bool) : Core :=
  if s.rackDue l then s.sendRack l (nak || (s.ln l).rack == some true)
  else s.setLn l { s.ln l with rack := some (nak || (s.ln l).rack == some true) }
/-- A message reaches the receiver's checks. While a replay is awaited, messages out of order are discarded. -/
def Core.takeMsg (s : Core) (l : Nat) (voided : Bool) (m : Bytes) (mem : IdRead) : Core :=
  let s := s.heard l
  let x := s.ln l
  let seq := byteAt m 1
  if voided ∨ !msgOk m then (s.inc HLK_RET_CRC_CNT.COUNT l).oweRack l true
  else if seq = x.rxSeq then
    let s := s.setLn l { x with rxSeq := (seq + 1) % 256, nakRun := 0, rack := none }
    (s.oweRack l false).dispatchMsg l m mem
  else if (x.rxSeq + 256 - seq) % 256 ≤ 64 ∨ x.nakRun > 0 ∨ x.rack == some true then s
  else (s.inc HLK_RET_CRC_CNT.COUNT l).oweRack l true
/-- Flip a bit of a byte string. -/
def flipBit (b : Bytes) (i : Nat) : Bytes :=
  let i := i % max 1 (8 * b.length)
  b.mapIdx fun j v => if j = i / 8 then v ^^^ BitVec.ofNat 8 (2 ^ (i % 8)) else v
/-- RETURN_MESSAGE_RECEIVE: a message arrives while the link is up; injection rules act first. -/
def doReturnMessage (l : Nat) (voided : Bool) (m : Bytes) (mem : IdRead) (s : Core) : Core :=
  let s := if s.linkUp l then (s.openLink l).flushRack l else s
  if !s.linkUp l then s
  else
    let (act, s) := s.fijUnit 4 l
    let m := match act with
      | some (2, arg) => flipBit m arg
      | _ => m
    let mine := fun (u : HeldUnit) => u.target == 4 && u.inst == l
    let hold := fun (d : Option Nat) => s.fijHold ⟨4, l, 0, d, some (.returnMessageReceive (Fin.ofNat 24 l) voided m mem), []⟩
    match act, s.fij.held.find? fun u => mine u && u.due.isSome with
    | some (1, _), _ => s
    | _, some u => hold u.due
    | some (4, arg), none => hold (some (s.etime + arg))
    | act, none =>
      match s.fij.held.find? mine with
      | some u =>
        let s := { s with fij := { s.fij with held := dropFirst (· == u) s.fij.held } }
        let s := s.takeMsg l voided m mem
        match u.unit with
        | some (.returnMessageReceive _ v m' mem') => if s.linkUp l then s.takeMsg l v m' mem' else s
        | _ => s
      | none =>
        match act with
        | some (3, _) => hold none
        | _ => s.takeMsg l voided m mem
/-- CONFIRM_RECEIVE: a CONFIRM accepted in order. -/
def doConfirmReceive (l slot status reason line freed drops dev : Nat) (s : Core) : Core :=
  if s.linkUp l then (s.heard l).onConfirm l slot status reason line freed drops dev else s
/-- STATUS_RECEIVE: a STATUS accepted in order. Its INHIBITED bit changes nothing in the engine. -/
def doStatusReceive (l slot : Nat) (headOk : Bool) (freed ohms : Nat) (mem : IdRead) (s : Core) : Core :=
  if s.linkUp l then (s.heard l).onStatus l slot headOk freed ohms mem else s
/-- SB_RESP_RECEIVE: a sideband answer accepted in order. -/
def doSbRespReceive (l tid result : Nat) (data : Bytes) (s : Core) : Core :=
  if s.linkUp l then (s.heard l).onSbResp l tid result data else s
/-- HL_FRAME_NAK: a FRAME_NAK accepted in order. -/
def doHlFrameNak (l slot reason freed : Nat) (s : Core) : Core :=
  if s.linkUp l then (s.heard l).onFrameNak l slot reason freed else s

end Sys2Proof.Machine
end

