-- ==== Sys2Proof/Machine/Memory.lean ====
section
/-! DEFINITION. Errors, scrubbing, rank sparing, migration, retraining and offline channels of the DRAM, and the headroom
that admits background work (spec/13_memory_subsystem.md R520 to R534; spec/12_jobs_and_changeover.md R509). -/

namespace Sys2Proof.Machine

/-- Change the controller's record. -/
def Core.setMem (s : Core) (x : MemSt) : Core := { s with mem := x }

/-! ### Headroom (R509) -/

/-- The print read at the present ceiling, in bytes per second (R66). -/
def Core.readNow (s : Core) : Nat :=
  allBars.foldl (fun a b =>
    match (s.job? (s.rd JOBB_ACTIVE.JOB_ID b)).bind (·.bar? b) with
    | some jb => a + tilesOf jb.width * tileSize jb.code / 4 * dpiOf jb.dpi * s.rd SPG_CEIL.HZ / s.lpi
    | none => a) 0
/-- DRAM headroom in bytes per second. -/
def Core.dramHead (s : Core) : Int := (s.dramLimit s.planLevel : Int) - s.readNow - admitted
/-- Is sensor `n` excluded (R539)? -/
def Core.excluded (s : Core) (n : Nat) : Bool :=
  if n < 16 then (s.rd THM_EXCL.TS).testBit n else if n < 24 then (s.rd THM_EXCL.MS).testBit (n - 16)
  else s.rdb THM_EXCL.DT
/-- Is a die sensor at THROTTLE? -/
def Core.dieThrottled (s : Core) : Bool := (List.range 16).any fun n => s.rdb THMS_READ.THROTTLE n && !s.excluded n
/-- Background work is deferred: 1 scrub, 2 migration, 3 identity write, 4 servo. -/
def Core.deferWork (s : Core) (work : Nat) : Core :=
  (s.inc JOB_DEFER_CNT.COUNT).emitLim 0x0C07 0 fun n => work + at_ 4 n

/-! ### Ranks (R525, R526) -/

/-- The state field of a rank. -/
def rankFld (r : Nat) : Fld :=
  if r = 0 then MEMC_STATUS.RANK0 else if r = 1 then MEMC_STATUS.RANK1 else MEMC_STATUS.RANK2
/-- The state of a rank. -/
def Core.rank (s : Core) (ch r : Nat) : Nat := s.rd (rankFld r) ch
/-- A channel with a spare, or with a copy under way into it, is SPARED; without one it is DEGRADED (R527). -/
def Core.showChan (s : Core) (ch : Nat) : Core :=
  let st := s.rd MEMC_STATUS.STATE ch
  if st = 1 ∨ st = 2 then
    s.wr MEMC_STATUS.STATE (if (List.range 3).any fun r => s.rank ch r == 2 || s.rank ch r == 4 then 1 else 2) ch
  else s
/-- Set the state of a rank. -/
def Core.setRank (s : Core) (ch r st : Nat) : Core := (s.wr (rankFld r) st ch).showChan ch
/-- The spare rank of a channel. -/
def Core.spareOf (s : Core) (ch : Nat) : Option Nat := (List.range 3).find? fun r => s.rank ch r == 2
/-- What the record says of a rank: RETIRED, FAILED, or nothing. The source of a copy counts as RETIRED, since it stays so
over a loss of power (R528). -/
def Core.recorded (s : Core) (ch r : Nat) : Option Nat :=
  let st := s.rank ch r
  if st = 3 then some 6 else if st = 6 ∨ st = 7 then some st else none
/-- Record retired and failed ranks in the configuration store (R529). -/
def Core.recordRanks (s : Core) : Core :=
  let l := (List.range 4).flatMap fun ch => (List.range 3).filterMap fun r => (s.recorded ch r).map fun st => (ch, r, st)
  if s.flashRoom (.ranks l) then s.queueFlash (.ranks l) else s
/-- A rank becomes DEGRADED. -/
def Core.degrade (s : Core) (ch r : Nat) : Core := (s.setRank ch r 5).emit 0x0407 (ch + at_ 1 r)
/-- Put a queue of migrations in force. -/
def Core.setMigs (s : Core) (q : List Mig) : Core :=
  (s.setMem { s.mem with queue := q }).wr MEM_STATUS.MIG_QUEUE (satU 3 q.length)

/-! ### Migration (R526 to R528) -/

/-- The writes held at the cursor go to the given ranks (R527). -/
def Core.releaseHeld (s : Core) (ch : Nat) (ranks : List Nat) : Core :=
  let held := s.mem.cursorHeld
  (s.setMem { s.mem with cursorHeld := [] }).request ch (ranks.flatMap fun r => held.map fun q => { q with rank := r })
/-- The running migration ends; MEM_MIG shows it no longer active. -/
def Core.endMig (s : Core) : Core := (s.setMem { s.mem with cur := none }).wr MEM_MIG.ACTIVE 0
/-- The target has failed: the slot stays with the source, which is DEGRADED. -/
def Core.failMig (s : Core) (m : Mig) (tgt : Nat) : Core :=
  let s := ((s.endMig.releaseHeld m.ch [m.rank]).setRank m.ch tgt 7).degrade m.ch m.rank
  let s := s.emit 0x0406 (m.ch + at_ 1 tgt + at_ 4 (s.rd MEM_MIG_CURSOR.ROW))
  (match m.op with | some op => s.asyncErr op 0x40 0 0x0406 | none => s).recordRanks
/-- The last row is copied: the slot maps to the target. -/
def Core.finishMig (s : Core) (m : Mig) (tgt : Nat) : Core :=
  let n := s.rd MEM_MIG_POISON_CNT.COUNT
  let s := if s.rd MEMC_STATUS.SLOT0 m.ch = m.rank then s.wr MEMC_STATUS.SLOT0 tgt m.ch else s.wr MEMC_STATUS.SLOT1 tgt m.ch
  let s := (((s.endMig.releaseHeld m.ch [tgt]).setRank m.ch tgt 1).setRank m.ch m.rank 6).emit 0x0405 (m.ch + at_ 1 m.rank + at_ 4 n)
  (match m.op with | some op => s.asyncDone op 0 n | none => s).recordRanks
/-- Queue a rank for migration to its channel's spare (R526). A spare that fails is FAILED, a target ends its migration. -/
def Core.queueMig (s : Core) (ch r cause : Nat) (op : Option Nat) : Core :=
  let st := s.rank ch r
  if s.mem.queue.any (fun m => m.ch == ch && m.rank == r) then s
  else if st = 1 then
    if (s.spareOf ch).isNone then s.degrade ch r else s.setMigs (s.mem.queue ++ [⟨ch, r, cause, op⟩])
  else if st = 2 then (s.setRank ch r 7).recordRanks
  else
    match s.mem.cur with
    | some (m, tgt) => if m.ch = ch ∧ tgt = r then s.failMig m tgt else s
    | none => s
/-- Start a migration. -/
def Core.beginMig (s : Core) (m : Mig) : Core :=
  let s := s.setMigs (dropFirst (· == m) s.mem.queue)
  match s.spareOf m.ch with
  | none =>
    let s := s.degrade m.ch m.rank
    match m.op with | some op => s.asyncErr op 0x40 0 0x0406 | none => s
  | some tgt =>
    let s := ((s.setMem { s.mem with cur := some (m, tgt) }).setRank m.ch m.rank 3).setRank m.ch tgt 4
    let s := s.wrs [(MEM_MIG.FROM, m.rank), (MEM_MIG.TO, tgt), (MEM_MIG.CH, m.ch), (MEM_MIG.ACTIVE, 1),
      (MEM_MIG.CAUSE_HOST, b2n (decide (3 ≤ m.cause))), (MEM_MIG_CURSOR.ROW, 0), (MEM_MIG_POISON_CNT.COUNT, 0)]
    let s := s.setMem { s.mem with copiedAt := s.etime }
    (s.emit 0x0404 (m.ch + at_ 1 m.rank + at_ 2 tgt + at_ 3 m.cause)).recordRanks
/-- Chirp item 9: the next migration starts, UE and CMD causes first; the others only with headroom (R509, R526). -/
def Core.startMig (s : Core) : Core :=
  if s.mem.cur.isSome then s
  else
    match (s.mem.queue.find? (·.cause ≤ 2)) <|> s.mem.queue.head? with
    | none => s
    | some m =>
      if m.cause ≤ 2 ∨ (s.dramHead ≥ 2000000000 ∧ !s.dieThrottled) then s.beginMig m else s.deferWork 2
/-- RANK_RETIRE (R529). Its conditions are taken in the order of R179 (DEDUCED: log entry 144). -/
def rankRetire (c : Call) (ch r : Nat) (s : Core) : Reply × Core :=
  if ch > 3 then (badRange 0x10, s)
  else if r > 2 then (badRange 0x11, s)
  else if (s.spareOf ch).isNone ∧ !(s.mem.cur.any fun m => m.1.ch == ch) then (noCapacity none, s)
  else if s.mem.queue.any (·.ch == ch) ∨ (s.mem.cur.any fun m => m.1.ch == ch) then (busy 0, s)
  else if s.rd MEMC_STATUS.STATE ch = 4 ∨ s.rank ch r ≠ 1 then (wrongState 0, s)
  else if s.printing ∧ !s.rdb CMDQ_CFG.LIVE_SERVICE then (wrongState 0x0012, s)
  else
    let (op, s) := s.newOp 0x0803 c
    (.accepted op, s.queueMig ch r 3 (some op))

/-! ### Read errors (R521 to R526) -/

/-- The correctable-error counter of a rank. -/
def ceFld (r : Nat) : Fld := if r = 0 then MEMC_CE_01.RANK0 else if r = 1 then MEMC_CE_01.RANK1 else MEMC_CE_2.RANK2
/-- A corrected error of a rank, with the hourly limit of R526. -/
def Core.corrected (s : Core) (ch r : Nat) : Core :=
  let key := 3 * ch + r
  let l := s.etime :: (mget [] s.mem.ce key).filter fun t => s.etime - t < 3600000000000
  let s := s.setMem { s.mem with ce := mset [] s.mem.ce key (l.take 65536) }
  let s := (s.inc (ceFld r) ch).emitLim 0x0401 ch fun n => ch + at_ 1 r + at_ 4 n
  if s.rdb MEM_CFG.CE_RETIRE ∧ l.length ≥ s.rd MEM_CFG.CE_LIMIT then s.queueMig ch r 4 none else s
/-- An uncorrectable read of a rank. -/
def Core.uncorrectable (s : Core) (ch r cls word : Nat) : Core :=
  let s := ((s.inc MEM_POISON_CNT.MARKED).inc MEMC_CE_2.UE ch).wr MEM_LAST_UE.WORD word
  (s.emit 0x0402 (ch + at_ 1 r + at_ 2 cls + at_ 4 word)).queueMig ch r 1 none
/-- A fabric beat has failed parity twice: the access ends poisoned (R577). -/
def Core.beatFailed (s : Core) (cls word : Nat) : Core :=
  ((s.inc LOG_FABRIC_PAR.RETRIED).inc LOG_FABRIC_PAR.FAILED).emit 0x0F05 (cls + at_ 8 (64 * word))
/-- Mark a word as poisoned. -/
def Dram.mark (m : Dram) (w : Nat) : Dram := if m.poison.contains w then m else { m with poison := w :: m.poison }
/-- What the decoder makes of a word with wrong symbols (R520): up to 6 are corrected, up to 10 are detected, and more are detected
or, rarely, miscorrected: the bytes returned, none where the word is uncorrectable. -/
def decodeWord (data : Bytes) (bad : List (Fin 80 × Byte)) : Option Bytes :=
  if bad.length ≤ 6 then some data else if bad.length ≤ 10 then none else (Config.miscorrected data bad).map (·.take 64)
/-- The bytes of a word. -/
def Dram.word (m : Dram) (w : Nat) : Bytes := m.read (64 * w) 64
/-- A read of `word` from rank `r` of its channel meets an error. A miscorrected word reads as the decoder made it until it is
written (DESIGN CHOICE: log entry 143). What a migration target returns is not kept as poison:
the source holds the word (R528). -/
def readError (f : Field) (word r : Nat) (kind : DramErr) (cls : Nat) : Field :=
  let s := f.core
  let ch := (s.pageAt (word / 64)).1
  let s := s.fetches cls (64 * word) 64
  if f.dram.poison.contains word then ⟨s.poisonRead ch word, f.dram⟩
  else
    match kind with
    | .symbols bad =>
      if bad = [] then ⟨s, f.dram⟩
      else
        match decodeWord (f.dram.word word) bad with
        | some d => ⟨s.corrected ch r, if d = f.dram.word word then f.dram else f.dram.puts (64 * word) d⟩
        | none =>
          if s.rank ch r = 4 then ⟨s.uncorrectable ch r cls word, f.dram⟩
          else ⟨(s.stores cls (64 * word) 64).uncorrectable ch r cls word, f.dram.mark word⟩
    | .poisoned => ⟨s, f.dram⟩
    | .beatRetried => ⟨s.inc LOG_FABRIC_PAR.RETRIED, f.dram⟩
    | .beatRead => ⟨s.beatFailed cls word, { f.dram with once := word :: f.dram.once }⟩
    | .beatWrite => ⟨s.beatFailed cls word, f.dram.mark word⟩
/-- Does a channel page hold a copy of the tick cores' firmware (R514)? -/
def firmwarePage (cp : Nat) : Bool := decide (2 ^ 21 - 16640 ≤ cp ∧ cp < 2 ^ 21 - 256)
/-- A bad word of firmware is fetched from the copies of the given channels in turn, and the bad copies are rewritten (R514). -/
def refetch (cls cp off : Nat) : List Nat → List Nat → Field → Field
  | [], _, f => f
  | ch :: chs, bad, f =>
    let w := 64 * f.core.pageOf ch cp + off
    let s := f.core.reads f.dram cls (64 * w) 64
    if s.bad f.dram (64 * w) 64 then refetch cls cp off chs (w :: bad) ⟨s, f.dram⟩
    else bad.foldl (fun f b => ⟨f.core.stores cls (64 * b) 64,
      { f.dram.write (64 * b) (f.dram.word w) with once := f.dram.once.filter (· != b) }⟩) ⟨s, f.dram⟩
/-- DRAM_READ_ERROR: a requester's read meets an error in the rank that serves the word, on a channel that is in service. A core
whose fetch of firmware so fails goes on with the next copy. -/
def doDramReadError (word r : Nat) (kind : DramErr) (cls : Nat) (f : Field) : Field :=
  let s := f.core
  let (ch, cp) := s.pageAt (word / 64)
  if !s.wordExists word ∨ s.rd MEMC_STATUS.STATE ch ≥ 3 ∨ s.readRank word ≠ r then f
  else
    let f := readError f word r kind cls
    if firmwarePage cp ∧ f.dram.bad (64 * word) 64 then
      let i := s.mem.layout.idxOf ch
      refetch cls cp (word % 64) (s.mem.layout.drop (i + 1) ++ s.mem.layout.take i) [word] f
    else f

/-! ### Retraining (R523, R530) -/

/-- A channel begins to retrain. -/
def Core.startRetrain (s : Core) (ch : Nat) : Core :=
  let st := s.rd MEMC_STATUS.STATE ch
  if st = 1 ∨ st = 2 then s.wr MEMC_STATUS.STATE 3 ch else s
/-- CA parity errors of a channel; sixteen of them within 1 ms start a retrain (R523). -/
def Core.caErrors (s : Core) (ch n : Nat) : Core :=
  let l := List.replicate n s.etime ++ (mget [] s.mem.ca ch).filter fun t => s.etime - t < 1000000
  if l.length ≥ 16 then (s.setMem { s.mem with ca := mset [] s.mem.ca ch [] }).startRetrain ch
  else s.setMem { s.mem with ca := mset [] s.mem.ca ch l }
/-- MEM_CA_ERR: one retry of a command or write that a device of the rank has flagged; `failed`: it is flagged again. The third
that fails is an uncorrectable command error, and no retry takes up its parity error (R523). -/
def doMemCaErr (ch r : Nat) (wcrc failed : Bool) (s : Core) : Core :=
  if (s.rd MEM_STATUS.IN_SERVICE).testBit ch = false then s
  else
    let key := 6 * ch + 2 * r + b2n wcrc
    let n := mget 0 s.mem.retries key + 1
    let third : Bool := failed && decide (n ≥ 3)
    let s := s.setMem { s.mem with retries := mset 0 s.mem.retries key (if failed && !third then n else 0) }
    let s := (s.inc (if wcrc then MEMC_CA_CNT.WCRC else MEMC_CA_CNT.CA) ch).emitLim 0x040A ch fun n =>
      ch + at_ 1 r + at_ 2 (b2n wcrc) + at_ 4 n
    let s := if wcrc then s else s.caErrors ch (1 + b2n third)
    if third then s.queueMig ch r 2 none else s
/-- A write of MEM_ch_CTL. -/
def memCtl (ch v : Nat) (s : Core) : Reply × Core :=
  if bit v 0 then if s.printing then (wrongState 0x0014, s) else (.ok 0, s.startRetrain ch) else (.ok 0, s)
/-- A channel goes offline: jobs are aborted, the camera stops, migrations of the channel are abandoned (R531). -/
def Core.goOffline (s : Core) (ch : Nat) : Core :=
  let live := (s.jobs.jobs.filter (·.live)).map (·.id)
  let inS := setBit (s.rd MEM_STATUS.IN_SERVICE) ch false
  let s := (s.wr MEMC_STATUS.STATE 4 ch).wr MEM_STATUS.IN_SERVICE inS
  let s := s.setMem { s.mem with queues := mset ChanQ.empty s.mem.queues ch ChanQ.empty }
  let gone := s.mem.queue.filter (·.ch == ch)
  let s := s.setMigs (s.mem.queue.filter (·.ch != ch))
  let s := gone.foldl (fun s m => match m.op with | some op => s.asyncErr op 0x40 0 0x0406 | none => s) s
  let s := match s.mem.cur with
    | some (m, _) =>
      if m.ch = ch then
        let s := s.endMig.setMem { s.endMig.mem with cursorHeld := [] }
        match m.op with | some op => s.asyncErr op 0x40 0 0x0406 | none => s
      else s
    | none => s
  let s := s.emit 0x0409 (ch + at_ 1 (maskBits 4 inS).length + at_ 4 live.length)
  let s := live.foldl (fun s id => (jobAbort id 0 s).2) s
  let was := s.mem.camWas || s.rdb CAM_STATUS.STARTED
  (camStop (s.setMem { s.mem with camWas := was, reform := true })).2
/-- CHANNEL_RETRAIN: a retrain ends. `failed`: the ranks with no working setting where the result is 2. -/
def doChannelRetrain (ch result ms : Nat) (failed : List Nat) (f : Field) : Field :=
  let s := f.core
  if s.rd MEMC_STATUS.STATE ch ≠ 3 then f
  else
    let bad := if result = 2 then failed else []
    let s := ((s.wr MEMC_TRAIN.MS ms ch).inc MEMC_TRAIN.COUNT ch).emit 0x0408 (ch + at_ 1 result + at_ 2 ms)
    let s := (s.wr MEMC_STATUS.STATE 1 ch).showChan ch
    let s := s.drain ch (mget ChanQ.empty s.mem.queues ch)
    let working := (List.range 3).filter fun r => decide (1 ≤ s.rank ch r ∧ s.rank ch r ≤ 5) && !bad.contains r
    if working.length < 2 then
      ⟨s.goOffline ch, (s.dsp.commits ++ s.dsp.push.toList).foldl (fun m c => m.free c.base c.len) f.dram⟩
    else ⟨bad.foldl (fun s r => s.queueMig ch r 2 none) s, f.dram⟩
/-- Form the engine address space over the channels in service (R513). -/
def Core.formSpace (s : Core) : Core :=
  let l := maskBits 4 (s.rd MEM_STATUS.IN_SERVICE)
  (s.setMem { s.mem with layout := l, reform := false, scrubWord := 0 }).wrs
    [(MEM_STATUS.WAYS, l.length), (MEM_STATUS.GIB, 16 * l.length), (MEM_SCRUB_POS.PAGE, 0)]
/-- What the new address space keeps of the old one: the copies of the firmware on the channels that stay (R514). -/
def keepCopies (old new : Core) (m : Dram) : Dram :=
  let place (a size : Nat) : Option Nat :=
    let (ch, cp) := old.pageAt (a / size)
    if firmwarePage cp ∧ new.mem.layout.contains ch then some (size * new.pageOf ch cp + a % size) else none
  let cells := m.cells.foldl (fun (m : Dram) c => match place c.1 4096 with | some a => m.put a c.2 | none => m) ⟨[], [], []⟩
  { cells with poison := m.poison.filterMap fun w => place w 64 }
/-- CHANNEL_REFORM: once every job has ended the space is formed anew; what jobs and camera held is lost (R531). -/
def doChannelReform (f : Field) : Field :=
  let s := f.core
  if !s.mem.reform ∨ s.jobs.jobs.any (·.live) then f
  else
    let was := s.mem.camWas
    let dram := keepCopies s s.formSpace f.dram
    let s := s.formSpace
    let s := (s.setMem { s.mem with camWas := false }).setCam { s.cam with ring := [], slots := [] }
    let s := if !was then s else if s.camState = 3 then s.camAuto else s.wr CAM_STATUS.STARTED 1
    ⟨s, dram⟩

/-! ### Scrubbing (R524) -/

/-- The time between two words of a pass that takes PERIOD_MIN minutes, in ns. -/
def Core.scrubStep (s : Core) : Nat := 60000000000 * s.rd MEM_SCRUB_CFG.PERIOD_MIN / (2 ^ 28 * s.ways)
/-- SCRUB_READ: the next word of the pass is read when its time has come, and written back corrected. -/
def doScrubRead (err : Option DramErr) (f : Field) : Field :=
  let s := f.core
  let word := 64 * s.rd MEM_SCRUB_POS.PAGE + s.mem.scrubWord
  let (ch, _) := s.pageAt (word / 64)
  let st := s.rd MEMC_STATUS.STATE ch
  if !s.rdb MEM_SCRUB_CFG.EN ∨ !s.wordExists word ∨ st = 3 then f
  else
    let s := s.reach (s.mem.scrubAt + s.scrubStep)
    let s := s.setMem { s.mem with scrubAt := s.etime }
    if s.dramHead < 100000000 then ⟨s.deferWork 1, f.dram⟩
    else
      let clean : Bool := !f.dram.poison.contains word
      let good : Option Bool := match err with
        | some (.symbols bad) => if bad = [] then none else some (decodeWord (f.dram.word word) bad).isSome
        | _ => none
      let f : Field := ⟨s, f.dram⟩
      let f := match err with
        | some k => if st = 4 then f else readError f word (s.readRank word) k 3
        | none => if st = 4 then f else if clean then ⟨s.fetches 3 (64 * word) 64, f.dram⟩ else readError f word 0 .poisoned 3
      let s := if st ≠ 4 ∧ clean ∧ good = some true then f.core.stores 3 (64 * word) 64 else f.core
      let fix := b2n (clean && good == some true); let poi := b2n (clean && good == some false)
      let s := s.setMem { s.mem with fixed := s.mem.fixed + fix, poisoned := s.mem.poisoned + poi }
      let last : Bool := !s.wordExists (word + 1)
      let s := if last then s.emit 0x040B (at_ 4 (satU 32 s.mem.fixed) + at_ 8 (satU 32 s.mem.poisoned)) else s
      let next := if last then 0 else word + 1
      let s := (s.setMem { s.mem with scrubWord := next % 64 }).wr MEM_SCRUB_POS.PAGE (next / 64)
      let s := if last then s.setMem { s.mem with fixed := 0, poisoned := 0 } else s
      ⟨s, f.dram⟩

/-! ### Copying a row (R527) -/

/-- MIGRATION_ROW_COPY: the row at the cursor is copied at MIG_RATE, and the writes held at it follow. `bad`: words of it that
read uncorrectable; `targetBad`: an uncorrectable error in the target. -/
def doMigrationRowCopy (bad : List Nat) (targetBad : Bool) (f : Field) : Field :=
  match f.core.mem.cur with
  | none => f
  | some (m, tgt) =>
    let s := f.core
    let row := s.rd MEM_MIG_CURSOR.ROW
    let slot := if s.rd MEMC_STATUS.SLOT0 m.ch = m.rank then 0 else 1
    let cp := 2 ^ 21 * slot + row
    let base := 64 * s.pageOf m.ch cp
    if s.rd MEMC_STATUS.STATE m.ch = 3 then f
    else
      let s := s.reach (s.mem.copiedAt + 40960 / s.rd MEM_CFG.MIG_RATE)
      let s := s.setMem { s.mem with copiedAt := s.etime }
      if targetBad then ⟨s.failMig m tgt, f.dram⟩
      else
        let rd := s.pageReqs false 2 m.ch cp 0 64
        let s := s.request m.ch (rd ++ rd.map fun r => { r with write := true, rank := tgt })
        let f := (List.range 64).foldl (fun (f : Field) i =>
          let w := base + i
          let old := f.dram.poison.contains w
          if old then ⟨(f.core.poisonRead m.ch w).inc MEM_MIG_POISON_CNT.COUNT, f.dram⟩
          else if bad.contains i then
            ⟨(f.core.uncorrectable m.ch m.rank 2 w).inc MEM_MIG_POISON_CNT.COUNT, f.dram.mark w⟩
          else f) ⟨s, f.dram⟩
        let s := f.core
        ⟨if row + 1 = 2 ^ 21 then s.finishMig m tgt
          else (s.wr MEM_MIG_CURSOR.ROW (row + 1)).releaseHeld m.ch [m.rank, tgt], f.dram⟩

end Sys2Proof.Machine
end

