-- ==== Sys2Proof/Machine/Boot.lean ====
section
/-! DEFINITION. Field-side reset and start-up: self-test, DRAM training, image verification, the stored press description,
and READY (spec/03_startup_and_images.md R116 to R136; spec/04_command_protocol.md R187). -/

namespace Sys2Proof.Machine

/-! ### Images (R128 to R132) -/

/-- `n` bytes of a slot from offset `off`: what an image does not fill is blank flash. -/
def slotBytes (d : Bytes) (off n : Nat) : Bytes :=
  let x := (d.drop off).take n
  x ++ List.replicate (n - x.length) 0xFF#8
/-- The reason for which the boot ROM refuses an image (R130); 0 where it passes every check. The key's x and y and the signature's
r and s are little-endian like every field of the header (R28, R128), a digest is a number as FIPS 186-4 reads it (DEDUCED: log
entry 155). -/
def imageReason (img : Option Bytes) (readBad : Bool) : Nat :=
  match img with
  | none => if readBad then 1 else 2
  | some d =>
    let h := slotBytes d 0 256
    let zero := fun (a n : Nat) => ((h.drop a).take n).all (· == 0#8)
    let len := leAt h 0x08 4
    let key := byteAt h 0x22
    let pub := (h.drop 0x80).take 64
    let step := Config.stepping.toNat
    if readBad then 1
    else if d.all (· == 0xFF#8) then 2
    else if ¬ (leAt h 0 4 = 0x56544654 ∧ leAt h 4 2 = 1 ∧ leAt h 6 2 = 1) ∨ !zero 0x1A 2 ∨ !zero 0x23 29 ∨ !zero 0x60 32 then 3
    else if len = 0 ∨ len > 16776960 ∨ leAt h 0x0C 4 > 524288 then 4
    else if key > 3 ∨ beNat (sha256 pub) ≠ (Config.imageKeyHash (Fin.ofNat 4 key)).toNat ∨
        Config.imageKeyRevoked (Fin.ofNat 4 key) then 5
    else if !ecdsaVerify (leNat (pub.take 32)) (leNat (pub.drop 32)) (leNat ((h.drop 0xC0).take 32))
        (leNat ((h.drop 0xE0).take 32)) (beNat (sha256 (h.take 0xC0))) then 6
    else if (h.drop 0x40).take 32 ≠ sha256 (slotBytes d 256 len) then 7
    else if ¬ (byteAt h 0x18 ≤ step ∧ step ≤ byteAt h 0x19) then 8
    else 0
/-- The fail bit of a core. -/
def failFld (core : Nat) : Fld := if core = 0 then SYS_BOOT.TC_A_FAIL else SYS_BOOT.TC_B_FAIL
/-- An image is refused. -/
def Core.imageRefused (s : Core) (core slot reason : Nat) : Core := s.emit 0x0242 (core + at_ 1 slot + at_ 2 reason)
/-- A core runs an image: its identity shows, and the first LOCAL_LEN bytes of the payload lie in its local memory (R132). -/
def Core.showImage (s : Core) (core slot reason : Nat) (d : Bytes) : Core :=
  let mem := slotBytes d 256 (min (leAt d 8 4) (leAt d 0x0C 4))
  let t := s.tck
  ({ s with tck := if core = 0 then { t with localA := mem } else { t with localB := mem } } : Core).wrs [(SYS_FW.SLOT, slot), (SYS_FW.FALLBACK, b2n (reason != 0)), (SYS_FW.REASON, reason),
    (SYS_FW.MAP_EPOCH, leAt d 0x20 2), (SYS_EPOCH.CKPT_EPOCH, leAt d 0x1C 2), (SYS_EPOCH.CMD_EPOCH, leAt d 0x1E 2),
    (SYS_VER.VERSION, leAt d 0x10 4)] core
/-- A core without an image. -/
def Core.showNoImage (s : Core) (core reason : Nat) : Core :=
  s.wrs [(SYS_FW.SLOT, 3), (SYS_FW.FALLBACK, 1), (SYS_FW.REASON, reason), (SYS_FW.MAP_EPOCH, 0),
    (SYS_EPOCH.CKPT_EPOCH, 0), (SYS_EPOCH.CMD_EPOCH, 0), (SYS_VER.VERSION, 0)] core
/-- The rest of an image's payload lies in the core's firmware region, with a copy on every channel in service (R132,
R514). -/
def loadRegion (s : Core) (core : Nat) (d : Bytes) (m : Dram) : Dram :=
  let rest := (slotBytes d 256 (leAt d 8 4)).drop (leAt d 0x0C 4)
  s.mem.layout.foldl (fun m ch =>
    (List.range (ceilDiv rest.length 4096)).foldl (fun m i =>
      m.write (4096 * s.pageOf ch (2 ^ 21 - 16640 + 8192 * core + i)) ((rest.drop (4096 * i)).take 4096)) m) m
/-- A core loads its image from `slot`, or else its golden image (R131). The answer says whether it runs. -/
def loadCore (f : Field) (core slot : Nat) (bad : Nat → Bool) : Bool × Field :=
  let s := f.core
  let run := fun (s : Core) (slot reason : Nat) (d : Bytes) =>
    (true, (⟨s.showImage core slot reason d, loadRegion s core d f.dram⟩ : Field))
  let r := imageReason (s.flash.image core slot) (bad slot)
  if r = 0 then run s slot 0 ((s.flash.image core slot).getD [])
  else
    let s := s.imageRefused core slot r
    let g := imageReason (s.flash.image core 2) (bad 2)
    if g = 0 then run (s.emit 0x0241 (core + at_ 1 r)) 2 r ((s.flash.image core 2).getD [])
    else (false, ⟨((s.imageRefused core 2 g).showNoImage core r).wr (failFld core) 1, f.dram⟩)

/-! ### DRAM (R119, R513, R529) -/

/-- What the record of retired and failed ranks says of a rank. -/
def FlashSt.rankRecord (fl : FlashSt) (ch r : Nat) : Option Nat :=
  (fl.retired.find? fun e => e.1 == ch && e.2.1 == r).map (·.2.2)
/-- One channel trains: recorded ranks stay out of use; a rank with no working setting is FAILED. -/
def Core.trainChannel (s : Core) (bad : List (Nat × Nat)) (ch : Nat) : Core :=
  let out := fun r => (s.flash.rankRecord ch r).orElse fun _ => if bad.contains (ch, r) then some 7 else none
  let ok := (List.range 3).filter fun r => (out r).isNone
  let s0 := if ok.contains 0 then 0 else 2
  let s1 := if ok.contains 1 then 1 else 2
  let s := (List.range 3).foldl (fun s r =>
    s.wr (rankFld r) ((out r).getD (if ok.length ≥ 2 ∧ (r = s0 ∨ r = s1) then 1 else 2)) ch) s
  if ok.length < 2 then s.wr MEMC_STATUS.STATE 4 ch
  else
    (s.wrs [(MEMC_STATUS.STATE, if ok.length = 3 then 1 else 2), (MEMC_STATUS.SLOT0, s0), (MEMC_STATUS.SLOT1, s1)] ch).wr
      MEM_STATUS.IN_SERVICE (setBit (s.rd MEM_STATUS.IN_SERVICE) ch true)
/-- All channels train in parallel, and the address space is formed over those in service. -/
def Core.trainDram (s : Core) (bad : List (Nat × Nat)) (ms : Nat) : Core :=
  let s := (List.range 4).foldl (fun s ch => (s.trainChannel bad ch).wr MEMC_TRAIN.MS ms ch) s
  let s := s.formSpace
  if bad.any fun p => (s.flash.rankRecord p.1 p.2).isNone then s.recordRanks else s

/-! ### Records in flash (R118, R124, R578) -/

/-- A record copy or bank is bad. -/
def Core.recordBad (s : Core) (rec outcome : Nat) : Core := (s.inc LOG_RECORD_BAD.COUNT).emit 0x0F06 (rec + at_ 1 outcome)
/-- Report a record of which copies are bad: 0 where another is good, 1 where none is. -/
def Core.checkCopies (s : Core) (rec : Nat) (bad : Nat) : Core :=
  if bad = 0 then s else s.recordBad rec (if bad = 1 then 0 else 1)
/-- The boot record is read: BOOT_RECORD_LOST where no copy is valid. -/
def Core.readBootRecord (s : Core) : Core :=
  let bad := [s.flash.boot0, s.flash.boot1].countP fun b => match b with | some r => !r.ok | none => false
  let s := s.checkCopies 1 bad
  if s.flash.bootRec.isNone then s.emit 0x0245 else s
/-- The stored press description with the higher sequence number, if a bank is valid. -/
def FlashSt.storedPress (f : FlashSt) : Option Bytes :=
  if bankSeq f.bank0 < 0 ∧ bankSeq f.bank1 < 0 then none
  else ((if bankSeq f.bank1 > bankSeq f.bank0 then f.bank1 else f.bank0).map (·.data))
/-- The stored description is checked and applied (R118). -/
def Core.restorePress (s : Core) : Core :=
  let bad := [s.flash.bank0, s.flash.bank1].countP fun b => match b with | some r => !r.ok | none => false
  let s := s.checkCopies 2 bad
  match s.flash.storedPress with
  | none => s
  | some d => if (pressCheck d).isSome then s.recordBad 2 2 else s.applyPress d

/-! ### Start-up (R116, R119) -/

/-- The SAFE channels as they stand; bars hold SAFE while one is de-energised (R391). -/
def Core.readSafe (s : Core) (a b : Bool) : Core :=
  let s := (s.setSafe false a).setSafe true b
  if a && b then s else allBars.foldl (fun s i => s.setCauses i (s.causes i ||| 8)) s
/-- The cores' roles (R116 step 5, R119, R133). -/
def Core.startCores (s : Core) (a b : Bool) : Core :=
  let same := s.rd SYS_EPOCH.CKPT_EPOCH 0 = s.rd SYS_EPOCH.CKPT_EPOCH 1
  let s := s.wrs [(SYS_BOOT.IMAGO, b2n (!a)), (TCK_STATUS.IMAGO_CORE, b2n (!a)), (TCK_STATUS.LINE_HELD, 1),
    (TCK_STATUS.PUPA_STATE, if a && b then (if same then 2 else 3) else 0), (SYS_BOOT.CKPT_MATCH, b2n (a && b && same))]
  if a && b && !same then
    s.emit 0x0243 (s.rd SYS_EPOCH.CKPT_EPOCH 0 + at_ 2 (s.rd SYS_EPOCH.CKPT_EPOCH 1))
  else s
/-- The chirp begins. -/
def Core.startChirp (s : Core) : Core :=
  { s with tck := { s.tck with
    running := true, period := s.rd TCK_CFG.CHIRP_US, missLimit := s.rd TCK_CFG.HB_MISS_LIMIT
    last := s.etime, hbAt := s.etime, goodAt := s.etime, kickAt := s.etime, imagoUp := true
    hbWire := !s.tck.hbWire, hbWord := s.tck.hbWord + 1 } }
/-- The bound of step 7 (R116). -/
def linksBound : Nat := 5450000000
/-- Step 7 of one link, from the ETIME at which the step begins: it trains and reads its identities. One that has not finished by
the bound is down, and is tried again in the background (R117), its transmitter off as after an attempt (DESIGN CHOICE: log
entry 157). -/
def Core.trainFirst (s : Core) (l : Nat) (x : TrainIn) : Core :=
  let begun := (s.wr HLK_STATUS.PRSNT 1 l).trainStart l
  let done := doLinkTraining l x begun
  if done.etime ≤ linksBound then done
  else
    let s := (begun.reach linksBound).wr HLK_STATUS.STATE 0 l
    s.setLn l { s.ln l with tx := false, restartAt := some (s.etime + 100000000) }
/-- Step 7: every link whose HLn_PRSNT_N is low, all in parallel (R116, R117); one that fails is tried again in the background
(R429). -/
def Core.trainLinks (s : Core) (links : List (Fin 24 × TrainIn)) : Core :=
  links.foldl (fun (u : Core) p =>
    let v := ({ u with etime := s.etime } : Core).trainFirst p.1.val p.2
    { v with etime := max u.etime v.etime }) s
/-- READY, at an ETIME in ms where no link takes longer. -/
def Core.becomeReady (s : Core) (at_ : Nat) : Core :=
  let s := s.reach (at_ * 1000000)
  let ms := s.etime / 1000000
  ((s.wrs [(SYS_BOOT.STATE, 7), (SYS_READY_TIME.MS, ms)]).emit 0x0246 ms).startChirp
/-- FIELD_RESET_RELEASE on the field side, with SYS_BOOT.STATE at each step's value (R122). The events of steps 1 to 6 carry the
ETIME at which step 7 begins; PC0 and PC1, still of no type, are free of faults (R380). -/
def startUp (b : BootIn) (lanes : Nat × Nat) (f : Field) : Field :=
  let s := f.core.reach (b.linksMs.toNat * 1000000)
  let fail := fun (f : Field) => f.onCore fun s => (s.wr SYS_BOOT.STATE 0xF).startEly lanes.1 lanes.2
  let s := (s.readSafe b.safeA b.safeB).wrs [(POS_WEB_STATUS.PC0_OK, 1), (POS_WEB_STATUS.PC1_OK, 1)]
  let s := if b.coreA then s else (s.wr SYS_BOOT.TC_A_FAIL 1).emit 0x0244 0
  let s := if b.coreB then s else (s.wr SYS_BOOT.TC_B_FAIL 1).emit 0x0244 1
  if !b.chip ∨ (!b.coreA ∧ !b.coreB) then fail ⟨s, f.dram⟩
  else
    let s := (s.wr SYS_BOOT.STATE 2).trainDram (b.badRanks.map fun p => (p.1.val, p.2.val)) b.trainMs.toNat
    if s.rd MEM_STATUS.IN_SERVICE = 0 then fail ⟨s, f.dram⟩
    else
      let s := (s.wr SYS_BOOT.STATE 3).readBootRecord
      let flashBad := fun core slot => b.flashBad.any fun p => p.1.val == core && p.2.val == slot
      let f : Field := ⟨s, f.dram⟩
      let (a, f) := if b.coreA then loadCore f 0 (s.flash.activeSlot 0) (flashBad 0) else (false, f)
      let (bb, f) := if b.coreB then loadCore f 1 (s.flash.activeSlot 1) (flashBad 1) else (false, f)
      if !a ∧ !bb then fail f
      else
        f.onCore fun s =>
          let s := (s.wr SYS_BOOT.STATE 4).startCores a bb
          let s := (s.wr SYS_BOOT.STATE 5).startEly lanes.1 lanes.2
          ((s.wr SYS_BOOT.STATE 6).restorePress.trainLinks b.links).becomeReady b.readyMs.toNat
/-- FIELD_RESET_RELEASE. A field side already out of reset has none to release. -/
def doFieldResetRelease (b : BootIn) (s : State) : State :=
  if s.field.core.bootState ≠ 1 then s
  else
    let lanes := if s.host.powered then (b.h2f.val, b.f2h.val) else (0, 0)
    ({ s with field := startUp b lanes s.field } : State).syncHost

/-! ### Field-side reset (R36, R102, R187, R222) -/

/-- A reset cuts a flash write short; the writes that wait are lost. -/
def FlashSt.cut (f : FlashSt) : FlashSt :=
  let f := match f.busy, f.queue with
    | true, op :: _ => f.commit op false
    | _, _ => f
  { f with queue := [], busy := false }
/-- The field side is reset for a cause: flash survives, DRAM and every register do not, the elytron goes down, and the
host's tracked commands wait for FIELD_LOST (R200). -/
def fieldReset (cause : Nat) (s : State) : State :=
  let c := s.field.core
  let fl := c.flash.cut
  let fl := if cause = 4 ∧ c.mem.rankClr then { fl with retired := [] } else fl
  let s : State := { s with field := ⟨(Core.reset fl).wr SYS_BOOT.RESET_CAUSE cause, ⟨[], [], []⟩⟩ }
  (s.onHost fun h => { h with outbox := [], tracked := [], lost := h.lost ++ h.tracked, hbAt := 0, hbSent := 0 }).syncHost
/-- FIELD_BROWN_OUT: VIN_F has fallen below 13.5 V. -/
def doFieldBrownOut (s : State) : State := fieldReset 2 s
/-- The ETIME at which the watchdog bites: (HB_MISS_LIMIT + 1) x T + 2 ms after its last kick (R222). -/
def Core.biteAt (s : Core) : Nat := s.tck.kickAt + (s.tck.missLimit + 1) * s.tck.period * 1000 + 2000000
/-- WATCHDOG_BITE: the holder of the imago line has not kicked the watchdog in time (R222). -/
def doWatchdogBite (s : State) : State :=
  if s.field.core.tck.running then fieldReset 3 (s.onCore fun c => c.reach c.biteAt) else s
/-- FIELD_RESET_DELAY_EXPIRY: 10 ms after an accepted FIELD_RESET. -/
def doFieldResetDelayExpiry (s : State) : State := if s.field.core.resetPending then fieldReset 4 s else s

/-- FIELD_RESET_RELEASE (R116). -/
def execFieldResetRelease (b : BootIn) (s : State) : Host.Outcome State Fault Refusal := .next (doFieldResetRelease b s)
/-- FIELD_BROWN_OUT (R102). -/
def execFieldBrownOut (s : State) : Host.Outcome State Fault Refusal := .next (doFieldBrownOut s)
/-- WATCHDOG_BITE (R222). -/
def execWatchdogBite (s : State) : Host.Outcome State Fault Refusal := .next (doWatchdogBite s)
/-- FIELD_RESET_DELAY_EXPIRY (R187). -/
def execFieldResetDelayExpiry (s : State) : Host.Outcome State Fault Refusal := .next (doFieldResetDelayExpiry s)

end Sys2Proof.Machine
end

