-- ==== Sys2Proof/Machine/Molt.lean ====
section
/-! DEFINITION. Staging an image, molting the pupa and drilling it: the commands and what ends them
(spec/05_chirp_and_tick_cores.md R235 to R241). -/

namespace Sys2Proof.Machine

/-- Change the tick-core record. -/
def Core.setTck (s : Core) (x : TckSt) : Core := { s with tck := x }
/-- The imago core. -/
def Core.imago (s : Core) : Nat := s.rd SYS_BOOT.IMAGO
/-- The other core: the pupa where there is one. -/
def Core.pupa (s : Core) : Nat := 1 - s.imago
/-- The verified staged slot of a core. -/
def Core.staged (s : Core) (core : Nat) : Option Nat := if core = 0 then s.tck.stagedA else s.tck.stagedB
/-- Set it. -/
def Core.setStaged (s : Core) (core : Nat) (x : Option Nat) : Core :=
  if core = 0 then s.setTck { s.tck with stagedA := x } else s.setTck { s.tck with stagedB := x }
/-- The CKPT_EPOCH of an image. -/
def ckptEpoch (d : Bytes) : Nat := leAt d 0x1C 2
/-- What the boot record says with the active slot of one core changed. -/
def Core.activate (s : Core) (core slot : Nat) : Core :=
  let a := if core = 0 then slot else s.flash.activeSlot 0
  let b := if core = 0 then s.flash.activeSlot 1 else slot
  s.queueFlash (.boot a b)
/-- A pupa that has booted shows whether it could resume (R133, R244). -/
def Core.pupaUp (s : Core) : Core :=
  let e := s.rd SYS_EPOCH.CKPT_EPOCH 0; let g := s.rd SYS_EPOCH.CKPT_EPOCH 1
  let s := s.wrs [(TCK_STATUS.PUPA_STATE, if e = g then 2 else 3), (SYS_BOOT.CKPT_MATCH, b2n (e == g))]
  if e = g then s else s.emit 0x0243 (e + at_ 2 g)
/-- The pupa is gone: CKPT_MATCH needs both cores. -/
def Core.pupaDown (s : Core) (st : Nat) : Core := s.wrs [(TCK_STATUS.PUPA_STATE, st), (SYS_BOOT.CKPT_MATCH, 0)]
/-- A core is reset on its own: its crossings are reset in pairs (R587). -/
def Core.resetCore (s : Core) (core : Nat) : Core := s.cdcReset (crossesDomain 5 core)

/-! ### FW_STAGE (R235) -/

/-- FW_STAGE. DLEN below 257 has been refused before (R179 check 6). -/
def fwStage (c : Call) (core slot : Nat) (s : Core) : Reply × Core :=
  if core > 1 then (badRange 0x10, s)
  else if slot = 2 then (.err 0x12 0x000F 0x11 none, s)
  else if slot > 2 ∨ slot = s.flash.activeSlot core then (badRange 0x11, s)
  else withData c s fun d =>
    let op := s.newOp 0x0800 c
    let w : FlashOp := .image core slot op.1 d
    if !s.flashRoom w then (busy 0, s)
    else
      let t := if s.staged core = some slot then op.2.setStaged core none else op.2
      (.accepted op.1, t.queueFlash w)
/-- FW_STAGE_WRITE_DONE: the slot write ends, the image is checked, and CMD_ASYNC_DONE reports. -/
def doFwStageWriteDone (s : Core) : Core :=
  match s.flash.busy, s.flash.queue with
  | true, .image core slot op d :: rest =>
    let s := s.setFlash { s.flash.commit (.image core slot op d) true with queue := rest, busy := false }
    let r := imageReason (some d) false
    let s :=
      if r = 0 then
        let s := (s.setStaged core (some slot)).asyncDone op 0 (ckptEpoch d + at_ 4 (leAt d 0x10 4))
        if s.bootState = 0xF ∨ s.rdb (failFld core) then s.activate core slot else s
      else (s.imageRefused core slot r).asyncErr op 0x12 0x0007 r
    s.flashNext
  | _, _ => s

/-! ### MOLT (R236 to R238) -/

/-- MOLT, its conditions in the order of R179: what it needs before the state of its target. -/
def molt (c : Call) (flags : Nat) (s : Core) : Reply × Core :=
  let core := s.pupa
  if flags ≥ 2 then (.err 0x12 0x0008 0x10 none, s)
  else if s.rd TCK_STATUS.PUPA_STATE ≠ 2 then (noCapacity none, s)
  else if s.tck.molt.isSome ∨ s.tck.drill.isSome then (busy 0, s)
  else
    match s.staged core with
    | none => (wrongState 0, s)
    | some slot =>
      let epoch := ckptEpoch ((s.flash.image core slot).getD [])
      if s.printing ∧ !s.rdb CMDQ_CFG.LIVE_SERVICE then (wrongState 0x0012, s)
      else if epoch ≠ s.rd SYS_EPOCH.CKPT_EPOCH s.imago ∧ flags = 0 then (wrongState 0x0015, s)
      else
        let (op, s) := s.newOp 0x0801 c
        let s := ((s.pupaDown 1).wr TCK_STATUS.MOLT_PENDING 1).resetCore core
        (.accepted op, s.setTck { s.tck with molt := some ⟨op, core, slot, flags = 1, false, false⟩ })
/-- A MOLT ends. -/
def Core.endMolt (s : Core) (g : Nat → Core → Core) : Core :=
  match s.tck.molt with
  | none => s
  | some m => g m.opId ((s.setTck { s.tck with molt := none }).wr TCK_STATUS.MOLT_PENDING 0)
/-- A core is held in reset for good: its fail bit is set and PUPA_LOST raised (R229). -/
def Core.holdCore (s : Core) (core cause : Nat) : Core :=
  ((s.pupaDown 0).wr (failFld core) 1).emit 0x0209 (core + at_ 1 cause)
/-- MOLT_PUPA_BOOTED: the pupa has been reset and boots the staged image; a refused image leaves it on its previous
active slot and ends the MOLT. `flashBad` names the slots that flash cannot read. -/
def doMoltPupaBooted (selfTest : Bool) (flashBad : List Nat) (f : Field) : Field :=
  let s := f.core
  match s.tck.molt with
  | none => f
  | some m =>
    if m.booted ∨ s.tck.held.isSome then f
    else if !selfTest then
      f.onCore fun s => ((s.setStaged m.core none).holdCore m.core 2).endMolt fun op s => s.asyncErr op 0x40 0 0x0209
    else
      let s := s.setStaged m.core none
      let r := imageReason (s.flash.image m.core m.slot) (flashBad.contains m.slot)
      let d := (s.flash.image m.core m.slot).getD []
      if r = 0 then
        let t := ((s.showImage m.core m.slot 0 d).pupaUp)
        ⟨t.setTck { t.tck with molt := some { m with booted := true } }, loadRegion s m.core d f.dram⟩
      else
        let (runs, f) := loadCore ⟨s.imageRefused m.core m.slot r, f.dram⟩ m.core (s.flash.activeSlot m.core) flashBad.contains
        f.onCore fun s =>
          (if runs then s.pupaUp else s.holdCore m.core 3).endMolt fun op s => s.asyncErr op 0x40 0 0x0242

/-- FLASH_OPERATION_DONE: with the boot record written, a MOLT whose core is imago is over (R237 steps 3 and 4). -/
def Core.flashDone (s : Core) : Core :=
  let recorded : Bool := match s.flash.busy, s.flash.queue with
    | true, .boot _ _ :: _ => true
    | _, _ => false
  let s := doFlashOperationDone s
  match s.tck.molt with
  | none => s
  | some m =>
    if recorded && m.swapped then s.endMolt fun op s => s.asyncDone op 0 (m.core + at_ 4 (s.rd SYS_VER.VERSION m.core)) else s

/-! ### SWAP_DRILL (R240, R241) -/

/-- SWAP_DRILL: the checks of R236, but for printing jobs (R241); a pupa whose CKPT_EPOCH differs gives EPOCH_DIFFERS, as R240
has it. -/
def swapDrill (c : Call) (s : Core) : Reply × Core :=
  if s.rd TCK_STATUS.PUPA_STATE < 2 then (noCapacity none, s)
  else if s.tck.molt.isSome ∨ s.tck.drill.isSome then (busy 0, s)
  else if (s.staged s.pupa).isNone then (wrongState 0, s)
  else if s.rd TCK_STATUS.PUPA_STATE = 3 then (wrongState 0x0015, s)
  else
    let (op, s) := s.newOp 0x0802 c
    (.accepted op, (s.setTck { s.tck with drill := some ⟨op, false, 0, none⟩ }).wr TCK_STATUS.DRILL_PENDING 1)
/-- A drill ends. -/
def Core.endDrill (s : Core) (g : Drill → Core → Core) : Core :=
  match s.tck.drill with
  | none => s
  | some d => g d ((s.setTck { s.tck with drill := none }).wr TCK_STATUS.DRILL_PENDING 0)

end Sys2Proof.Machine
end

