-- ==== Sys2Proof/Machine/Display.lean ====
section
/-! DEFINITION. The operator display: configuration, commits, TE-timed pushes and their flags
(spec/15_operator_display.md R564 to R576; R146). -/

namespace Sys2Proof.Machine

/-- Change the display record; DSP_STATUS.PENDING and PUSHING follow. -/
def Core.setDsp (s : Core) (x : DspSt) : Core :=
  ({ s with dsp := x } : Core).wrs [(DSP_STATUS.PENDING, x.commits.length), (DSP_STATUS.PUSHING, b2n x.push.isSome)]
/-- DSP_STATUS.STATE. -/
def Core.dspState (s : Core) : Nat := s.rd DSP_STATUS.STATE
/-- The flags of DSP_LAST [20:16]. -/
def dspFlags (late under span disc noTe : Bool) : Nat :=
  b2n late + 2 * b2n under + 4 * b2n span + 8 * b2n disc + 16 * b2n noTe
/-- Report a commit that is done or discarded: DSP_LAST and DSP_COMMIT_DONE, which carries the edge used, if any. -/
def Core.commitDone (s : Core) (c : DspCommit) (under disc : Bool) : Core :=
  let s := s.wrs [(DSP_LAST.COMMIT, c.num), (DSP_LAST.LATE, b2n c.late), (DSP_LAST.UNDERRUN, b2n under),
    (DSP_LAST.SPAN, b2n c.span), (DSP_LAST.DISCARDED, b2n disc), (DSP_LAST.NO_TE, b2n c.noTe)]
  s.emit 0x0E01 (c.num + at_ 2 (dspFlags c.late under c.span disc c.noTe) + at_ 8 (c.edge.getD 0))
/-- The staging area of a commit is given back. -/
def freeCommit (c : DspCommit) (f : Field) : Field :=
  ⟨f.core.freeRegions [c.base], f.dram.free c.base (alignUp c.len 4096)⟩

/-! ### Starting a push (R569, R570, R572) -/

/-- The window of a commit whose edge has come has passed: it is late, and waits for a further edge. -/
def Core.missWindow (s : Core) (c : DspCommit) : DspCommit × Core :=
  match c.edge with
  | some e =>
    if s.etime > e + 1000 * s.rd DSP_TIMING.WINDOW_US then
      let c := { c with edge := none, waited := c.waited + 1, late := true }
      (c, (s.inc DSP_COMMIT_CNT.LATE).emit 0x0E02 (c.num + at_ 2 c.waited))
    else (c, s)
  | none => (c, s)
/-- Judge every waiting commit. -/
def Core.missWindows (s : Core) : Core :=
  let (cs, s) := s.dsp.commits.foldl (fun (acc : List DspCommit × Core) c =>
    let (c, s) := acc.2.missWindow c
    (acc.1 ++ [c], s)) ([], s)
  s.setDsp { s.dsp with commits := cs }
/-- Start the first commit in eligibility order that may start now, if no push runs. -/
def Core.dspStart (s : Core) : Core :=
  match s.dsp.push, s.dsp.commits with
  | none, c :: rest =>
    if s.dspState ≠ 2 then s
    else if c.edge.isSome then s.setDsp { s.dsp with commits := rest, push := some { c with start := s.etime } }
    else if s.dsp.noTe then
      s.setDsp { s.dsp with commits := rest, push := some { c with start := s.etime, noTe := true } }
    else s
  | _, _ => s
/-- DSP_TE_EDGE: an accepted rising edge measures the period and is the target of every commit that became eligible at
least PRIME_US before it. -/
def doDspTeEdge (s : Core) : Core :=
  let soon : Bool := match s.dsp.lastEdge with | some t => decide (s.etime < t + 8000000) | none => false
  if s.dspState ≠ 2 ∨ soon = true then s
  else
    let s := match s.dsp.lastEdge with
      | some t => s.wr DSP_TE.PERIOD_US (satU 20 ((s.etime - t) / 1000))
      | none => s
    let s := s.wr2 DSP_LAST_TE_LO.ETIME DSP_LAST_TE_HI.ETIME s.etime
    let s := if s.rdb DSP_STATUS.TE_OK then s
      else (s.wr DSP_STATUS.TE_OK 1).emit 0x0E05 (at_ 4 (s.rd DSP_TE.PERIOD_US))
    let s := s.missWindows
    let now := s.etime
    let prime := 1000 * s.rd DSP_TIMING.PRIME_US
    let s := s.setDsp { s.dsp with
      lastEdge := some now, noTe := false
      push := s.dsp.push.map fun c => if c.start < now then { c with span := true } else c
      commits := s.dsp.commits.map fun c =>
        if c.edge.isNone ∧ (c.late ∨ c.eligible + prime ≤ now) then { c with edge := some now } else c }
    s.dspStart
/-- DSP_TE_LOST: no edge for 100 ms while READY. -/
def doDspTeLost (s : Core) : Core :=
  if s.dspState ≠ 2 ∨ s.dsp.noTe then s
  else
    let s := s.reach (s.dsp.lastEdge.getD s.dsp.readyAt + 100000000)
    let s := (s.wr DSP_STATUS.TE_OK 0).emit 0x0E04 (at_ 4 (s.rd DSP_TE.PERIOD_US))
    (s.setDsp { s.dsp with noTe := true }).dspStart

/-! ### DSP_CONFIG (R565, R146) -/

/-- Step 1: commits not started are discarded, the port is STARTING and DSP_RST_N asserted. -/
def dspBegin (g : DspCfg) (f : Field) : Field :=
  let f := f.core.dsp.commits.foldl (fun f c => freeCommit c (f.onCore fun s => s.commitDone c false true)) f
  f.onCore fun s => (s.setDsp { s.dsp with commits := [], lastEdge := none, rst := true, run := some ⟨g, s.etime, 1⟩ }).wrs
    [(DSP_PANEL.WIDTH, g.width), (DSP_PANEL.HEIGHT, g.height), (DSP_PANEL_ID.ID, g.id), (DSP_STATUS.STATE, 1)]
/-- A configuration that waited begins when no push runs and no other one does. -/
def dspWaiting (f : Field) : Field :=
  match f.core.dsp.push, f.core.dsp.run, f.core.dsp.cfg with
  | none, none, g :: rest => dspBegin g (f.onCore fun s => s.setDsp { s.dsp with cfg := rest })
  | _, _, _ => f
/-- The configuration that runs ends: READY, or REFUSED with the panel held in reset; its command completes. -/
def Core.dspEnd (s : Core) (g : DspCfg) (good : Bool) : Core :=
  if good then
    ((s.setDsp { s.dsp with run := none, readyAt := s.etime }).wr DSP_STATUS.STATE 2 |>.emit 0x0E06 g.id).closeCmd g.ref (.ok 0)
  else
    let s := (s.setDsp { s.dsp with run := none, rst := true }).wr DSP_STATUS.STATE 3
    let s := s.emit 0x0E41 (g.answer.getD 0 + at_ 3 (if g.answer.isSome then 2 else 1))
    s.closeCmd g.ref (.err 0x40 0 0xFFFF (some 0x0E41))
/-- The ETIME after step 1 at which the step behind `step` is due; a panel that gives no answer is refused 10 ms after it is asked
(R146). -/
def DspStart.due (x : DspStart) : Nat :=
  x.at_ + 1000000 * (match x.step with
    | 1 => 10
    | 2 => if x.cfg.answer.isNone then 140 else 130
    | 3 => 131
    | _ => 251)
/-- The next of steps 2 to 5, if it is due: the reset is released and the link restarted; read_ID1 to read_ID3; exit_sleep_mode;
set_pixel_format, set_tear_on and display_on. The opcodes the rule does not give are DCS's (PRESUMED: log entry 179). -/
def Core.dspStep (s : Core) : Core :=
  match s.dsp.run with
  | none => s
  | some x =>
    if s.etime < x.due then s
    else
      let s := s.setDsp { s.dsp with run := some { x with step := x.step + 1 } }
      let send := fun (l : List Bytes) => s.setDsp { s.dsp with out := l }
      match x.step with
      | 1 => (s.setDsp { s.dsp with rst := false }).wr DSP_LINK.LANE_MBPS x.cfg.mbps
      | 2 =>
        let s := send [[0xDA], [0xDB], [0xDC]]
        if x.cfg.answer = some x.cfg.id then s else s.dspEnd x.cfg false
      | 3 => send [[0x11]]
      | _ => (send [[0x3A, 0x77], [0x35, 0x00], [0x29]]).dspEnd x.cfg true
/-- The steps due by now, each in its turn; the next configuration begins behind the last. DESIGN CHOICE: the port moves at chirp
boundaries (log entry 9). -/
def dspSteps (f : Field) : Field := dspWaiting (f.onCore fun s => s.dspStep.dspStep.dspStep.dspStep)
/-- DSP_CONFIG: it completes when its steps have run. -/
def dspConfig (c : Call) (id width height mbps : Nat) (answer : Option Nat) (f : Field) : Reply × Field :=
  if width = 0 ∨ width > 1920 then (badRange 0x14, f)
  else if height = 0 ∨ height > 1200 then (badRange 0x16, f)
  else if mbps < 80 ∨ mbps > 1500 then (badRange 0x18, f)
  else
    let ref := refOf 0x0A00 c
    (.later, dspWaiting (f.onCore fun s =>
      (s.openCmd ref).setDsp { s.dsp with cfg := s.dsp.cfg ++ [⟨ref, id, width, height, mbps, answer⟩] }))

/-! ### DSP_COMMIT (R566, R567) -/

/-- The regions of a table. -/
def dspRegions (n : Nat) (d : Bytes) : List (Nat × Nat × Nat × Nat) :=
  (List.range n).map fun i => (leAt d (16 * i) 2, leAt d (16 * i + 2) 2, leAt d (16 * i + 4) 2, leAt d (16 * i + 6) 2)
/-- Does an entry obey R566? -/
def dspRegionOk (width height : Nat) (d : Bytes) (i : Nat) : Bool :=
  let x := leAt d (16 * i) 2; let y := leAt d (16 * i + 2) 2
  let w := leAt d (16 * i + 4) 2; let h := leAt d (16 * i + 6) 2
  decide (x < width ∧ y < height ∧ 1 ≤ w ∧ w ≤ width - x ∧ 1 ≤ h ∧ h ≤ height - y) && leAt d (16 * i + 8) 8 == 0
/-- The answer to a region table that breaks the last two conditions of R567; `len` is DLEN. -/
def Core.dspTable (s : Core) (regions len : Nat) (d : Bytes) : Option Reply :=
  let width := s.rd DSP_PANEL.WIDTH; let height := s.rd DSP_PANEL.HEIGHT
  let area := (dspRegions regions d).foldl (fun a r => a + r.2.2.1 * r.2.2.2) 0
  match (List.range regions).find? fun i => !dspRegionOk width height d i with
  | some i => some (.err 0x12 0x0007 0xFFFF (some i))
  | none =>
    if len ≠ 16 * regions + 3 * area ∨ area > width * height then some (.err 0x12 0x0007 0xFFFF (some (16 * regions + 3 * area)))
    else none
/-- The region table of a DSP_COMMIT is checked once it has landed: on a failure the command ends, the rest of its data is
discarded as it lands, and its staging area is free (R567). -/
def Core.tableLanded (s : Core) (d : DataDesc) : Core :=
  match d.cmd with
  | some (.dspCommit _ regions) =>
    if d.got.length < 16 * regions.toNat then s
    else
      match s.dspTable regions.toNat d.len d.got with
      | none => s
      | some rep =>
        let s := s.freeRegions d.region.toList
        { s with ely := { s.ely with
            descs := mapIf (·.id == d.id) (fun d => { d with ended := some rep, region := none }) s.ely.descs } }
  | _ => s
/-- DSP_COMMIT, its conditions in the order of R179 (DEDUCED: log entry 144). Its staging is taken from the start, while its data is
on its way (R199, R567). -/
def dspCommit (c : Call) (regions : Nat) (f : Field) : Reply × Field :=
  let s := f.core
  if regions = 0 ∨ regions > 16 then (badRange 0x10, f)
  else if s.dsp.commits.length ≥ 2 then (busy 0, f)
  else
    match s.allocJob (dlenOf c) with
    | none => (noCapacity (some s.jobFree), f)
    | some (base, s') =>
      if s.jobFree < dlenOf c then (noCapacity (some s.jobFree), f)
      else if s.dspState ≠ 2 then (wrongState 0, f)
      else if c.bulk.dmaFail.isSome then (.wait, f)
      else if c.bulk.data.length < dlenOf c then
        let s := s'.openDesc (refOf 0x0A01 c) (dlenOf c) c.bulk.data (some (.dspCommit c (BitVec.ofNat 8 regions))) (some base)
        (.later, ⟨s.ely.descs.getLast?.elim s s.tableLanded, f.dram⟩)
      else
        let d := c.bulk.data.take (dlenOf c)
        match s.dspTable regions d.length d with
        | some rep => (rep, f)
        | none =>
          let s := s'.stores 2 base d.length
          let x : DspCommit := ⟨s.dsp.next, base, d.length, dspRegions regions d, s.etime, none, 0, 0, false, false, false⟩
          let s := s.setDsp { s.dsp with next := (s.dsp.next + 1) % 65536, commits := s.dsp.commits ++ [x] }
          (.ok x.num, ⟨s.dspStart, f.dram.write base d⟩)

/-! ### The end of a push (R568, R573) -/

/-- The pixels of a commit, its staging region behind the table; one that meets a poisoned word is 0 (R522). -/
def dspPixels (s : Core) (m : Dram) (c : DspCommit) : Bytes :=
  let a := c.base + 16 * c.regions.length
  (List.range ((c.len - 16 * c.regions.length) / 3)).flatMap fun k =>
    if s.bad m (a + 3 * k) 3 then [0#8, 0#8, 0#8] else m.read (a + 3 * k) 3
/-- A push fetches its pixels into the line buffer: at class 1 while that holds fewer than DSP_WM.LOW bytes, then at class 3. -/
def dspFetch (c : DspCommit) (f : Field) : Field :=
  let s := f.core
  let a := c.base + 16 * c.regions.length
  let n := c.len - 16 * c.regions.length
  let low := min (s.rd DSP_WM.LOW) n
  let px := dspPixels s f.dram c
  let s := (s.requests (s.reqs false 1 a low ++ s.reqs false 3 (a + low) (n - low))).meets f.dram a n
  ⟨s.setDsp { s.dsp with lineBuf := (s.dsp.lineBuf ++ px).drop (s.dsp.lineBuf.length + px.length - 65536) }, f.dram.spend⟩
/-- Two bytes of a DCS parameter, the high byte first. -/
def dcs16 (n : Nat) : Bytes := [BitVec.ofNat 8 (n / 256), BitVec.ofNat 8 n]
/-- The DCS packets of a push (R568): for each region its columns, its pages, and one long packet a row. The layout of the
addresses is DCS's (PRESUMED: log entry 179). -/
def dspPackets : List (Nat × Nat × Nat × Nat) → Bytes → List Bytes
  | [], _ => []
  | (x, y, w, h) :: rs, px =>
    (0x2A#8 :: (dcs16 x ++ dcs16 (x + w - 1))) :: (0x2B#8 :: (dcs16 y ++ dcs16 (y + h - 1))) ::
      ((List.range h).map fun r => (if r = 0 then 0x2C#8 else 0x3C#8) :: (px.drop (3 * w * r)).take (3 * w)) ++
      dspPackets rs (px.drop (3 * w * h))
/-- The pixels as sent: `repeated` of them behind a first one repeat it, and one pixel is sent as 0 where `parity` names a bad word.
Which ones they are is a free value (R573, R579; DESIGN CHOICE: log entry 179). -/
def dspSent (s : Core) (repeated : Nat) (parity : Bool) (px : Bytes) : Bytes :=
  if repeated = 0 ∧ !parity then px
  else
    let n := px.length / 3
    let p := Config.freePixel s.free % (n - repeated)
    let z := Config.freePixel (s.free + 1) % n
    (List.range n).flatMap fun k =>
      if parity ∧ k = z then [0#8, 0#8, 0#8]
      else (px.drop (3 * if p < k ∧ k ≤ p + repeated then p else k)).take 3
/-- DSP_PUSH_END: `repeated` pixels stood in for pixels the line buffer did not hold; `parity` is a word of the buffer found
with bad parity, whose pixel was sent as 0 (R579). -/
def doDspPushEnd (repeated : Nat) (parity : Option Nat) (f : Field) : Field :=
  match f.core.dsp.push with
  | none => f
  | some c =>
    let px := dspPixels f.core f.dram c
    let f := dspFetch c f
    let s := f.core
    let s := match parity with | some w => s.sramParity 0x08 w | none => s
    let s := if repeated = 0 then s
      else (s.inc DSP_UNDERRUN_CNT.COUNT 0 repeated).emitLim 0x0E03 0 fun n => c.num + at_ 4 n
    let sent := dspSent s repeated parity.isSome px
    let s := if repeated = 0 ∧ parity.isNone then s else s.tickFree.tickFree
    let s := (s.setDsp { s.dsp with push := none, out := dspPackets c.regions sent }).inc DSP_COMMIT_CNT.DONE
    let f := freeCommit c ⟨s.commitDone c (repeated != 0) false, f.dram⟩
    let f := dspWaiting f
    f.onCore fun s => s.missWindows.dspStart

end Sys2Proof.Machine
end

