-- ==== Sys2Proof/Machine/Govern.lean ====
section
/-! DEFINITION. The scheduler's static term, the power budget and the speed governor
(spec/12_jobs_and_changeover.md R508; spec/14_thermal_and_power.md R551 to R555; spec/09_firing_and_speed_governor.md
R403 to R407). -/

namespace Sys2Proof.Machine

/-! ### Power (R551 to R555) -/

/-- What a bar adds to the energy of a print line in pJ with a job: its nozzles by cover, and its print read. -/
def Core.barEnergy (s : Core) (b : Nat) (j : Job) : Nat × Nat :=
  match j.bar? b with
  | none => (0, 0)
  | some jb =>
    let n := (s.headsOfBar b).foldl (fun a h => a + s.nozzles h) 0
    (n * (s.rd PWR_MODEL_B.K_NOZ + s.rd PWR_MODEL_B.K_COV * j.cover.getD b 0 / 255),
      tilesOf jb.width * tileSize jb.code / 4 * dpiOf jb.dpi / s.lpi)
/-- e_line of R552 in pJ, with the job that prints each bar. -/
def Core.eLine (s : Core) (owner : Nat → Option Job) : Nat :=
  let (e, r) := allBars.foldl (fun (a : Nat × Nat) b =>
    match owner b with
    | some j => let (x, y) := s.barEnergy b j; (a.1 + x, a.2 + y)
    | none => a) (0, 0)
  e + s.rd PWR_MODEL_A.K_DRAM * r
/-- The job in force on a bar. -/
def Core.inForce (s : Core) (b : Nat) : Option Job := s.job? (s.rd JOBB_ACTIVE.JOB_ID b)
/-- P_fix of R552 in mW, without CORR. -/
def Core.pBase (s : Core) : Nat := s.rd PWR_MODEL_A.P_IDLE * 100 + s.rd PWR_MODEL_A.K_DRAM * (admitted / 100000000) / 10
/-- P_fix of R552 in mW. -/
def Core.pFix (s : Core) : Int := (s.pBase : Int) + s.rds PWR_PRED.CORR * 100
/-- P at a line rate, in mW. -/
def Core.powerAt (s : Core) (f : Nat) : Int := s.pFix + ((f * s.eLine s.inForce / 1000000000 : Nat) : Int)
/-- f_pw of R554 for an energy per line. -/
def Core.powerTerm (s : Core) (stat e : Nat) : Nat :=
  let avail := (s.rd PWR_BUDGET.BUDGET_W : Int) * 1000 - s.rd PWR_BUDGET.MARGIN_W * 1000 - s.pFix
  if avail ≤ 0 then 0 else if e = 0 then stat else min stat (avail.toNat * 1000000000 / e)
/-- The power term in force: the static term with no job in force. -/
def Core.fPower (s : Core) (stat : Nat) : Nat :=
  if allBars.any fun b => (s.inForce b).isSome then s.powerTerm stat (s.eLine s.inForce) else stat
/-- POWER_BUDGET (R551). -/
def powerBudget (w : Nat) (s : Core) : Reply × Core :=
  if w < 40 ∨ w > 120 then (badRange 0x10, s) else (.ok 0, s.wr PWR_BUDGET.BUDGET_W w)
/-- Measured power, CORR and the prediction, once per chirp (R553, R554). `iin`: the field current in 10 mA. CORR is taken
against the model without CORR. DEDUCED: log entry 18. -/
def Core.measurePower (s : Core) (iin : Nat) : Core :=
  let t := s.thm
  let p : Int := (s.rd PWR_SUPPLY.VIN_F * iin : Nat)
  let f := t.pFilt + (p - t.pFilt) / 1000
  let base : Int := ((s.pBase + s.rd SPG_CEIL.HZ * s.eLine s.inForce / 1000000000 : Nat) : Int)
  let corr := if s.anyJob [4] then clampI (-10000) 10000 (f / 10 - base) else t.corr
  let above := f > (s.rd PWR_BUDGET.BUDGET_W : Int) * 10000
  let run := if above then t.overRun + 1 else 0
  let s := { s with thm := { t with pFilt := f, corr := corr, overRun := run } }
  let s := s.wrs [(PWR_IIN.IIN, iin), (PWR_IIN.P_MEAS, satU 16 (f / 1000).toNat), (PWR_PRED.CORR, twos 16 (corr / 100))]
  let s := s.wr PWR_PRED.PRED (satU 16 (s.powerAt (s.rd SPG_CEIL.HZ) / 100).toNat)
  if run = 100 then s.emit 0x0D21 (satU 16 (f / 1000).toNat + at_ 2 (s.rd PWR_BUDGET.BUDGET_W)) else s

/-! ### The static term (R508, R555) -/

/-- The approach distance in lines from the present ceiling `c` to a job's ceiling `f`. -/
def approach (c f decel chirpUs : Nat) : Nat :=
  if f ≥ c then 0 else (c * c - f * f) / (2000 * decel) + 2 * c * chirpUs / 1000000
/-- DELAY of the first bar of a job to strike. -/
def Core.firstDelay (s : Core) (j : Job) : Option Nat := (j.bars.map fun e => s.delay e.1).min?
/-- Has a pending switch come within its approach distance? -/
def Core.approaching (s : Core) (w : Switch) (j : Job) : Bool :=
  j.state == 3 && (match s.firstDelay j with
    | none => false
    | some d =>
      let a := approach (s.rd SPG_CEIL.HZ) (s.ceilingOf s.planLevel j) (s.rd SPG_RAMP.DECEL_MAX) s.tck.period
      decide (posDiff s.phi (posMod ((w.pos : Int) + d - 64 * a)) ≥ 0))
/-- The ARMED jobs that enter the static term ahead of their switch. -/
def Core.entering (s : Core) : List Job :=
  s.jobs.switches.filterMap fun w => (s.job? w.dst).filter fun j => s.approaching w j
/-- The jobs in force on some bar. -/
def Core.forceJobs (s : Core) : List Job :=
  s.jobs.jobs.filter fun j => allBars.any fun b => s.rd JOBB_ACTIVE.JOB_ID b == j.id
/-- The static term of R403, with the power of an entering job substituted on its bars. -/
def Core.staticTerm (s : Core) : Nat :=
  let js := s.forceJobs; let es := s.entering
  if js = [] ∧ es = [] then s.idleCeiling s.planLevel
  else
    let st := (js ++ es).foldl (fun m j => min m (s.ceilingOf s.planLevel j)) 160000
    es.foldl (fun m j =>
      min m (s.powerTerm st (s.eLine fun b => if (j.bar? b).isSome then some j else s.inForce b))) st
/-- Chirp item 4: the scheduler sets the static term and shows the headroom (R508 to R510). -/
def Core.setStatic (s : Core) : Core := s.wr SPG_TERM_STATIC.HZ s.staticTerm
/-- JOB_SCHED (R510). -/
def Core.showSched (s : Core) : Core :=
  let h := s.dramHead
  s.wrs [(JOB_SCHED.DRAM_OK, b2n (decide (h ≥ 2000000000))), (JOB_SCHED.THERM_OK, b2n (!s.dieThrottled)),
    (JOB_SCHED.POWER_OK, b2n (decide ((s.rd PWR_BUDGET.BUDGET_W : Int) * 1000 - s.powerAt (s.rd SPG_CEIL.HZ) ≥ 6000))),
    (JOB_SCHED.DRAM_HEAD, satU 16 (h / 100000000).toNat)]
/-- May servo recomputation run (R509)? -/
def Core.servoAdmitted (s : Core) : Bool :=
  decide (s.dramHead ≥ 1600000000) && !s.dieThrottled && s.rdb JOB_SCHED.POWER_OK

/-! ### The terms (R403, R404) -/

/-- The streamed bars of the PRINTING job whose ring lives. -/
def Core.streamedBars (s : Core) : List Nat :=
  match s.jobs.jobs.find? (·.state == 4) with
  | none => []
  | some j => match j.ring with
    | none => []
    | some r => if r.dead then [] else (j.bars.filter fun e => j.streamMask.testBit e.1 && !e.2.left).map (·.1)
/-- The dots per inch of the PRINTING job's plane on a bar. -/
def Core.printDpi (s : Core) (b : Nat) : Nat :=
  match (s.jobs.jobs.find? (·.state == 4)).bind (·.bar? b) with
  | some jb => dpiOf jb.dpi
  | none => 600
/-- The runway in lines; none where no bar is streamed. -/
def Core.runway (s : Core) : Option Nat :=
  match s.streamedBars.map fun b => s.rd SKD_AHEAD.LINES b * s.lpi / s.printDpi b with
  | [] => none
  | r :: rs => some (rs.foldl min r)
/-- The runway term. -/
def runwayTerm (stat warn lo r : Nat) : Nat :=
  if r ≥ warn then stat else if r ≤ lo then 0 else stat * (r - lo) / (warn - lo)
/-- DATA bandwidth in bytes per second at the elytron's width (R68). -/
def Core.elyRate (s : Core) : Nat :=
  if s.ely.h2f ≥ 4 then 5600000000 else if s.ely.h2f ≥ 2 then 2700000000 else if s.ely.h2f = 1 then 1250000000 else 0
/-- Average the ring bytes per print line over 100 chirps, in 2^-16 byte (R403). -/
def Core.averageRing (s : Core) : Core :=
  let taken := (((s.jobs.jobs.find? (·.state == 4)).bind (·.ring)).map (·.taken)).getD 0
  let lines := s.rd SPG_RATE.HZ * s.tck.period
  let x := if lines = 0 then s.spg.elyAvg else (taken - s.spg.elyBytes) * 65536 * 1000000 / lines
  let avg := if s.spg.elyAvg = 0 then x else (s.spg.elyAvg * 99 + x) / 100
  { s with spg := { s.spg with elyBytes := taken, elyAvg := avg } }
/-- The elytron term. -/
def Core.elyTerm (s : Core) (stat : Nat) : Nat :=
  if s.streamedBars = [] ∨ s.spg.elyAvg = 0 then stat else min 0xFFFFF (s.elyRate * 65536 / s.spg.elyAvg)
/-- The head thermal law (R404). -/
def Core.headLaw (s : Core) (stat : Nat) : Nat :=
  let hs := s.allHeads.filter s.attached
  let f := s.thm.fHd; let step := s.rd SPG_HEAD_THERM.STEP
  if hs.any fun h => s.headDec h ≥ s.limitOf (32 + h) then f - f * step / 1024
  else if hs.all fun h => s.headDec h < s.limitOf (32 + h) - s.rd SPG_HEAD_THERM.HYST then
    min stat (f + stat * step / 1024)
  else f
/-- The non-excluded sensor nearest to its THROTTLE, with its decision value less THROTTLE (R547, R559). -/
def Core.hottest (s : Core) : Option (Nat × Int) :=
  ((List.range 25).filter fun n => !s.excluded n).foldl (fun m n =>
    let d := s.rds THMS_READ.TEMP n - s.limitOf n
    match m with
    | some (_, x) => if d > x then some (n, d) else m
    | none => some (n, d)) none
/-- The die and module thermal law (R547). -/
def Core.dieLaw (s : Core) (stat : Nat) : Nat :=
  let f := s.thm.fTh; let step := s.rd THM_CFG.STEP; let g := s.rd THM_CFG.GUARD
  let f := match s.hottest with
    | some (_, d) =>
      if d ≥ -(g : Int) then f - f * step / 1024
      else if d < -((g : Int) + s.rd THM_CFG.HYST) then min stat (f + stat * step / 1024) else f
    | none => f
  max f (stat * (16 * s.rd THM_CFG.FLOOR) / 256)

/-! ### The governor (R403, R406, R407) -/

/-- The code of the least of the terms, the lowest of several. -/
def bindOf (terms : List Nat) : Nat :=
  let m := terms.foldl min (terms.headD 0)
  terms.idxOf m
/-- The code an SPD output drives (R406). -/
def Core.spdCode (s : Core) (c : Nat) : Nat :=
  let scaled (v : Nat) : Nat :=
    let full := max 1 (s.rd SPG_SPD_CFG.FULL_HZ c)
    let m := min 32767 ((2 * 32767 * v + full) / (2 * full))
    if s.rdb SPG_SPD_CFG.INVERT c then twos 16 (-(m : Int)) else m
  let src := s.rd SPG_SPD_CFG.SRC c
  if src = 0 then scaled (s.rd SPG_CEIL.HZ) else if src = 1 then scaled (s.rd SPG_RATE.HZ)
  else if src = 2 then s.rd SPG_SPD_VAL.HOST c else 0
/-- Each SPD output's PWM runs at PWM_KHZ with the duty of its code, and is low while PWM_KHZ is 0 (R406). -/
def Core.drivePwm (s : Core) : Core :=
  [0, 1].foldl (fun s c =>
    let khz := s.rd SPG_SPD_CFG.PWM_KHZ c
    let duty := if khz = 0 then 0 else min 32767 (absN (s.rds SPG_SPD_VAL.CODE c))
    { s with spg := { s.spg with pwm := mset (0, 0) s.spg.pwm c (khz, duty) } }) s
/-- In SAFE_IDLE the SPD outputs come down to 0 V within the deceleration limit (R232): by whole codes, the rest of a step kept. -/
def Core.rampDown (s : Core) : Core :=
  ([0, 1].foldl (fun s c =>
    let v := s.rds SPG_SPD_VAL.CODE c
    let full := 1000 * max 1 (s.rd SPG_SPD_CFG.FULL_HZ c)
    let x := mget 0 s.spg.ramp c + 32767 * s.rd SPG_RAMP.DECEL_MAX * s.tck.period
    let step : Int := (x / full : Nat)
    let v := if v > 0 then max 0 (v - step) else min 0 (v + step)
    let s := { s with spg := { s.spg with ramp := mset 0 s.spg.ramp c (if v = 0 then 0 else x % full) } }
    s.wr SPG_SPD_VAL.CODE (twos 16 v) c) s).drivePwm
/-- Chirp item 2: the governor sets the terms, moves the ceiling, and drives SPD and PIO outputs. -/
def Core.govern (s : Core) : Core :=
  let stat := s.rd SPG_TERM_STATIC.HZ
  let s := s.averageRing
  let rw := s.runway
  let frw := match rw with
    | some r => runwayTerm stat (s.rd SPG_RUNWAY_WARN.LINES) (s.rd SPG_RUNWAY_MIN.LINES) r
    | none => stat
  let starved : Bool := frw == 0
  let hd := s.headLaw stat; let th := s.dieLaw stat
  let s := { s with thm := { s.thm with fHd := hd, fTh := th } }
  let terms := [stat, frw, s.elyTerm stat, hd, th, s.fPower stat, s.rd SPG_TERM_HOST.HZ]
  let tgt := 1000 * terms.foldl min stat
  let old := s.spg.ceil
  let down := s.rd SPG_RAMP.DECEL_MAX * s.tck.period; let up := s.rd SPG_RAMP.ACCEL_MAX * s.tck.period
  let ceil := if tgt < old then max tgt (old - down) else min tgt (old + up)
  let bnd := if ceil = tgt then bindOf terms else 7
  let was := s.rd SPG_CEIL.BIND; let fell := s.rdb SPG_STATUS.STARVED
  let s := { s with spg := { s.spg with ceil := ceil } }
  let s := s.wrs [(SPG_TERM_RUNWAY.HZ, frw), (SPG_TERM_ELY.HZ, terms.getD 2 0), (SPG_TERM_HEAD.HZ, hd),
    (SPG_TERM_THERM.HZ, th), (SPG_TERM_POWER.HZ, terms.getD 5 0), (SPG_CEIL.HZ, ceil / 1000), (SPG_CEIL.BIND, bnd),
    (SPG_STATUS.SLOW, b2n (decide (ceil / 1000 < stat))), (SPG_STATUS.STARVED, b2n starved),
    (SPG_RUNWAY.LINES, satU 24 (rw.getD 0)), (SPG_RUNWAY.FULL, b2n rw.isNone)]
  let s := if starved && !fell then s.emit 0x080C (ceil / 1000) else s
  let s := if bnd ≠ was then s.emitEvery 100 0x080D 0 fun _ => was + at_ 1 bnd + at_ 4 (ceil / 1000) else s
  let s := [0, 1].foldl (fun s c => s.wr SPG_SPD_VAL.CODE (s.spdCode c) c) s
  s.drivePwm.drivePio
/-- The speed outputs of a chirp, or of a resume: the governor's step, in SAFE_IDLE the ramp (R210, R226, R232). -/
def Core.speedStep (s : Core) : Core := if s.bootState = 8 then s.rampDown else s.govern

end Sys2Proof.Machine
end

