-- ==== Sys2Proof/Machine/PressCmd.lean ====
section
/-! DEFINITION. GEO_SET, NOZZLE_MAP_LOAD, and the register accesses of the nozzle path that act beside storing a value
(spec/07_nozzle_path_and_screening.md R307, R310 to R316, R326, R327). -/

namespace Sys2Proof.Machine

/-! ### GEO_SET (R303, R307) -/

/-- GEO_SET. -/
def geoSet (h off stepWord skew : Nat) (s : Core) : Reply × Core :=
  let step := sgn 32 stepWord
  if h ≥ 192 ∨ !s.headPresent h then (absent 0x10, s)
  else if step.natAbs < 0x4000 ∨ step.natAbs > 0x20000 then (badRange 0x18, s)
  else if skew > 63 then (badRange 0x1C, s)
  else if s.spanWith h off step > 16384 then (badRange 0xFFFF, s)
  else
    let s' := s.geoCommit h off stepWord skew
    if s.flashRoom (.press s'.press.desc) then (.ok 0, s'.queueFlash (.press s'.press.desc)) else (busy 0, s)

/-! ### The servo's staged updates (R481) -/

/-- The staged head that commits at the next line boundary of its link. -/
def Core.stageNext (s : Core) (g : NozStage) : Bool := s.press.stages.find? (·.link == g.link) == some g
/-- A host write touches a head's entries: a servo update staged for it is void, unless it commits at the next line boundary, where
R316 applies. -/
def Core.voidStaged (s : Core) (h : Nat) : Core :=
  let waits := fun (g : NozStage) => g.servo && g.head == h && !s.stageNext g
  if s.csv.stages.any (·.head == h) || s.press.stages.any waits then
    ({ s with csv := { s.csv with stages := s.csv.stages.filter (·.head != h) }
              press := { s.press with stages := s.press.stages.filter fun g => !waits g } } : Core).inc CSVB_SKIP.VOIDED (s.barOf h)
  else s

/-! ### NOZZLE_MAP_LOAD (R314, R315) -/

/-- The head that column k of bar b changes with: its head A; none where no head uses the index. -/
def Core.headOfKey (s : Core) (b k : Nat) : Option Nat :=
  match s.linkOfKey (nozKey b k) with
  | none => none
  | some l => ((s.columns l).find? (·.k == k)).map (·.hA)
/-- Every head that uses one of these entries. -/
def Core.headsTouched (s : Core) (b : Nat) (ks : List Nat) : List Nat :=
  (s.headsOfBar b).filter fun h =>
    let base := s.rd HDC_GEO_BASE.BASE h
    ks.any fun k => decide (base ≤ k ∧ k < base + s.nozzles h)
/-- Does some bar have more than 256 receivers that substitutions could be active on (R314)? -/
def Core.twinOverflow (s : Core) : Bool :=
  let us := s.twinCands.filter fun u =>
    decide (0 ≤ u.r ∧ u.r ≤ 131071) && s.isColumn u.tb u.r.toNat && !nozOffline (s.noz u.tb u.r.toNat)
  (List.range 8).any fun b => ((us.filter (·.tb == b)).map (·.r)).eraseDups.length > 256
/-- The entries of a load. -/
def mapEntries (firstK count : Nat) (d : Bytes) : List (Nat × Nat) :=
  (List.range count).map fun i => (firstK + i, leAt d (8 * i) 8)
/-- Change the staged commits. -/
def Core.setStages (s : Core) (l : List NozStage) : Core := { s with press := { s.press with stages := l } }
/-- Change the window writes since the links' last lines. -/
def Core.setWindow (s : Core) (l : List (Nat × Nat)) : Core := { s with press := { s.press with window := l } }
/-- Stage an accepted load head by head, in ascending head number; entries that no head uses are stored at once. -/
def Core.stageMap (s : Core) (b : Nat) (es : List (Nat × Nat)) (ref : CmdRef) : Reply × Core :=
  let owned := es.map fun e => (s.headOfKey b e.1, (nozKey b e.1, e.2))
  let s := s.applyEntries ((owned.filter fun e => e.1.isNone).map (·.2))
  let s := (s.headsTouched b (es.map (·.1))).foldl (fun s h => s.voidStaged h) s
  let s := s.setWindow (s.press.window.filter fun w => !es.any fun e => nozKey b e.1 == w.1)
  let stages := (s.headsOfBar b).filterMap fun h =>
    match (owned.filter fun e => e.1 == some h).map (·.2) with
    | [] => none
    | l => some (⟨h / 8, h, false, l, some ref, false, 0⟩ : NozStage)
  if stages = [] then (.ok 0, s)
  else (.later, (s.openCmd ref).setStages (s.press.stages ++ stages))
/-- NOZZLE_MAP_LOAD. Its DLEN has been compared with 8 × COUNT before (R179 check 6). -/
def nozzleMapLoad (c : Call) (b firstK count : Nat) (s : Core) : Reply × Core :=
  if b > 7 ∨ !s.barPresent b then (absent 0x10, s)
  else if count = 0 ∨ count > 131072 - firstK then (badRange 0x18, s)
  else withData c s fun d =>
    let es := mapEntries firstK count d
    match es.find? fun e => e.2 ≥ 2 ^ 56 with
    | some e => (.err 0x12 0x0008 0xFFFF (some e.1), s)
    | none =>
      match es.find? fun e => bit e.2 47 && (s.twinOf b).isNone with
      | some e => (.err 0x12 0x0007 0xFFFF (some e.1), s)
      | none =>
        let trial := es.foldl (fun s e => s.setNoz (nozKey b e.1) (nozApply (s.noz b e.1) e.2)) s
        if trial.twinOverflow then (noCapacity none, s) else s.stageMap b es (refOf 0x0402 c)

/-! ### Tone curve registers (R310, R311) -/

/-- Does the servo own the shadows of a head's bar (R311, R486)? -/
def Core.servoOwns (s : Core) (h : Nat) : Bool := s.rd CSVB_MODE.MODE (s.barOf h) ≥ 2
/-- TONE_IDX.IDX advances after each TONE_DATA access. -/
def Core.nextTone (s : Core) (h : Nat) : Core := s.wr HDC_TONE_IDX.IDX (s.rd HDC_TONE_IDX.IDX h + 1) h
/-- A read of TONE_DATA. -/
def toneRead (h : Nat) (s : Core) : Nat × Core :=
  (s.tone h (s.rd HDC_TONE_IDX.BANK h) (s.rd HDC_TONE_IDX.IDX h), s.nextTone h)
/-- A write of TONE_DATA. -/
def toneWrite (h v : Nat) (s : Core) : Reply × Core :=
  if !s.rdb HDC_TONE_IDX.BANK h ∨ s.servoOwns h then (wrongState 0, s)
  else (.ok 0, (s.setTone h 1 (s.rd HDC_TONE_IDX.IDX h) (v % 4096)).nextTone h)
/-- COPY: the active curve goes into the shadow, now or right after a pending commit. -/
def Core.toneCopy (s : Core) (h : Nat) : Core :=
  if s.rdb HDC_TONE_CTL.PENDING h then
    if s.press.copyAfter.contains h then s else { s with press := { s.press with copyAfter := s.press.copyAfter ++ [h] } }
  else s.setCurve h 1 (s.curve h 0)
/-- A write of TONE_CTL. -/
def toneCtl (h v : Nat) (s : Core) : Reply × Core :=
  if s.servoOwns h then (wrongState 0, s)
  else
    let s := if bit v 0 then s.wr HDC_TONE_CTL.PENDING 1 h else s
    (.ok 0, if bit v 1 then s.toneCopy h else s)

/-! ### Screening registers (R326, R327) -/

/-- A write of SCR_b_CTL: ERR_CLR clears each link's accumulators at its next line. -/
def scrCtl (b v : Nat) (s : Core) : Core :=
  if bit v 0 then { s with press := { s.press with errClr := (s.press.errClr ++ s.linksOf b).eraseDups } } else s
/-- SCR_MASK_IDX.WORD advances after each SCR_MASK_DATA access. -/
def Core.nextMask (s : Core) : Core := s.wr SCR_MASK_IDX.WORD (s.rd SCR_MASK_IDX.WORD + 1)
/-- A read of SCR_MASK_DATA. -/
def maskDataRead (s : Core) : Nat × Core :=
  let w := 4 * s.rd SCR_MASK_IDX.WORD
  ((List.range 4).foldl (fun a j => a + s.maskByte (w + j) * 256 ^ j) 0, s.nextMask)
/-- A write of SCR_MASK_DATA. -/
def maskDataWrite (v : Nat) (s : Core) : Reply × Core :=
  if s.printing then (wrongState 0x0014, s)
  else
    let w := 4 * s.rd SCR_MASK_IDX.WORD
    (.ok 0, ((List.range 4).foldl (fun s j => s.setMaskByte (w + j) (v / 256 ^ j % 256)) s).nextMask)

/-! ### The nozzle-state window (R313, R316, R481) -/

/-- An entry written through the window: in force from the link's next line, and again after a staged commit that reaches the same
entry before that line (R313, R316). -/
def windowWrite (b k entry : Nat) (s : Core) : Reply × Core :=
  if entry ≥ 2 ^ 56 then (.err 0x12 0x0008 0x14 none, s)
  else
    let key := nozKey b k
    let s := ((s.headsTouched b [k]).foldl (fun s h => s.voidStaged h) s).applyEntries [(key, entry)]
    let w := s.press.window.filter (·.1 != key)
    (.ok 0, s.setWindow (if (s.linkOfKey key).isSome then w ++ [(key, entry)] else w))

end Sys2Proof.Machine
end

