-- ==== Sys2Proof/Machine/Float32.lean ====
section
/-! DEFINITION. The single-precision arithmetic of the head temperature (spec/14_thermal_and_power.md R537): values are
exact fractions that round to 24-bit mantissas, nearest even, after each operation; the logarithm is taken as correctly
rounded (DEDUCED: log entry 19). -/

namespace Sys2Proof.Machine

/-- A value as a numerator over a positive denominator. -/
abbrev Frac := Int × Nat

/-- `a / d` rounded to the nearest integer, ties to even. -/
def nearestEven (a d : Nat) : Nat :=
  let q := a / d; let r := a % d
  if 2 * r > d ∨ (2 * r = d ∧ q % 2 = 1) then q + 1 else q
/-- A magnitude `a / d` rounded to a mantissa times 2^e. -/
def roundAt (a d : Nat) (e : Int) : Frac :=
  if e ≥ 0 then ((nearestEven a (d * 2 ^ e.toNat) * 2 ^ e.toNat : Nat), 1)
  else ((nearestEven (a * 2 ^ (-e).toNat) d : Nat), 2 ^ (-e).toNat)
/-- Round to single precision. The values met here lie far inside its exponent range. -/
def toF32 (x : Frac) : Frac :=
  let a := x.1.natAbs
  if a = 0 then (0, 1)
  else
    let e : Int := (Nat.log2 a : Int) - Nat.log2 x.2 - 24
    let q := if e ≥ 0 then a / (x.2 * 2 ^ e.toNat) else a * 2 ^ (-e).toNat / x.2
    let y := roundAt a x.2 (if q ≥ 2 ^ 24 then e + 1 else e)
    if x.1 < 0 then (-y.1, y.2) else y
/-- A quotient; the divisor is not 0. -/
def fdiv (x y : Frac) : Frac :=
  let n := x.1 * y.2; let d := y.1.natAbs * x.2
  toF32 (if y.1 < 0 then -n else n, d)
/-- A sum. -/
def fadd (x y : Frac) : Frac := toF32 (x.1 * y.2 + y.1 * x.2, x.2 * y.2)
/-- A product. -/
def fmul (x y : Frac) : Frac := toF32 (x.1 * y.1, x.2 * y.2)

/-- 2 artanh (n / d) in 2^-160, for a fraction of magnitude at most 1/3: `k` terms from exponent 2 i + 1 on. -/
def artanhSum (n d : Nat) : Nat → Nat → Nat → Nat
  | 0, _, _ => 0
  | k + 1, p, i => 2 * p / (2 * i + 1) + artanhSum n d k (p * n * n / (d * d)) (i + 1)
/-- The natural logarithm of a fraction between 1/2 and 2, in 2^-160. -/
def lnNear (a d : Nat) : Int :=
  let m (n : Nat) : Nat := artanhSum n (a + d) 56 (2 ^ 160 * n / (a + d)) 0
  if a ≥ d then (m (a - d) : Int) else -(m (d - a) : Int)
/-- logf of a positive fraction. -/
def flog (x : Frac) : Frac :=
  let a := x.1.natAbs
  let k : Int := (Nat.log2 a : Int) - Nat.log2 x.2
  let y : Nat × Nat := if k ≥ 0 then (a, x.2 * 2 ^ k.toNat) else (a * 2 ^ (-k).toNat, x.2)
  toF32 (lnNear y.1 y.2 + k * lnNear 2 1, 2 ^ 160)

/-- Round to an integer, halves away from zero. -/
def roundAway (x : Frac) : Int :=
  let q : Int := ((2 * x.1.natAbs + x.2) / (2 * x.2) : Nat)
  if x.1 < 0 then -q else q

/-- The last two lines of R537, from 1 / t: none where the result leaves the 16-bit range or is no number. -/
def tenthsOf (sum : Frac) : Option Int :=
  if sum.1 = 0 then none
  else
    let t := fadd (fdiv (1, 1) sum) (let c := toF32 (27315, 100); (-c.1, c.2))
    let r := roundAway (fmul t (10, 1))
    if -32768 ≤ r ∧ r ≤ 32767 then some r else none
/-- The head temperature of R537 in 0.1 °C; none where it is no number or leaves the 16-bit range. A zero among the operands
gives what IEEE 754 gives: an infinite logarithm or quotient, whose reciprocal is 0, or no number for 0 / 0. -/
def headTempOf (ohms nom beta : Nat) : Option Int :=
  let cold := roundAway (fmul (let c := toF32 (27315, 100); (-c.1, c.2)) (10, 1))
  if ohms = 0 ∨ nom = 0 then if ohms = nom then none else some cold
  else
    let l := flog (fdiv (toF32 (ohms, 1)) (toF32 (nom, 1)))
    if beta = 0 then if l.1 = 0 then none else some cold
    else tenthsOf (fadd (fdiv (1, 1) (toF32 (29815, 100))) (fdiv l (toF32 (beta, 1))))

end Sys2Proof.Machine
end

