-- ==== Sys2Proof/Machine/Thermal.lean ====
section
/-! DEFINITION. Sensors, thresholds, trips, the hardware guard and throttling (spec/14_thermal_and_power.md R535 to R550,
R556; spec/09_firing_and_speed_governor.md R398). -/

namespace Sys2Proof.Machine

/-- Change the thermal record. -/
def Core.setThm (s : Core) (x : ThmSt) : Core := { s with thm := x }

/-! ### THERM_SET (R540) -/

/-- The upper and lower ends of the cold-plate range of the ordering code, in 0.1 °C (R2). -/
def coldPlate : Int × Int := if Config.order.val = 2 then (-200, 650) else (50, 550)
/-- The highest TRIP a sensor accepts (R535). -/
def tripMax (n : Nat) : Int :=
  if n < 16 then 1200 else if n = 16 then coldPlate.2 + 250 else if n < 24 then 1050 else 950
/-- The checks of R398 on LIMIT and TRIP of a head: what a write that fails them answers; `lo` and `hi` are the entry
offsets of the two. -/
def Core.limRefusal (s : Core) (h : Nat) (lim trip : Int) (lo hi : Nat) : Option Reply :=
  let d := (s.hr h).desc
  if lim ≥ trip then some (badRange hi)
  else if d = [] then some (wrongState 0x0013)
  else if trip > sgn 16 (leAt d 0x2E 2) then some (badRange (max lo hi))
  else none
/-- THERM_SET writes a sensor's thresholds: until item 3 of the next chirp the one in force goes on. -/
def Core.holdLimit (s : Core) (n : Nat) : Core := s.setThm { s.thm with late := mput n (some (s.limitOf n)) s.thm.late }
/-- THERM_SET. -/
def thermSet (n warn thr trip : Nat) (s : Core) : Reply × Core :=
  let w := sgn 16 warn; let t := sgn 16 thr; let p := sgn 16 trip
  if (25 ≤ n ∧ n < 32) ∨ 224 ≤ n then (badRange 0x10, s)
  else if 32 ≤ n ∧ !s.headPresent (n - 32) then (absent 0x10, s)
  else if w ≥ t then (badRange 0x14, s)
  else if t ≥ p then (badRange 0x16, s)
  else if n < 25 then
    if p > tripMax n then (badRange 0x16, s)
    else (.ok 0, (s.holdLimit n).wrs [(THMS_WT.WARN, warn), (THMS_WT.THROTTLE, thr), (THMS_TRIP.TRIP, trip)] n)
  else
    match s.limRefusal (n - 32) t p 0x14 0x16 with
    | some r => (r, s)
    | none =>
      (.ok 0, (s.holdLimit n).wrs [(HDC_TEMP_LIM.LIMIT, thr), (HDC_TEMP_LIM.TRIP, trip), (HDC_TEMP_WARN.WARN, warn)] (n - 32))

/-! ### Readings (R536 to R538) -/

/-- Push a reading into a median window; an empty window is filled with it. -/
def pushWin (w : List Int) (t : Int) : List Int := if w = [] then [t, t, t] else (t :: w).take 3
/-- Is sensor `n` broken? -/
def Core.broken (s : Core) (n : Nat) : Bool := s.rdb THMS_READ.BROKEN n
/-- Show BROKEN of a sensor. -/
def Core.showBroken (s : Core) (n : Nat) (on : Bool) : Core :=
  let s := s.wr THMS_READ.BROKEN (b2n on) n
  if n < 16 then s.wr THM_BROKEN.TS (setBit (s.rd THM_BROKEN.TS) n on)
  else if n < 24 then s.wr THM_BROKEN.MS (setBit (s.rd THM_BROKEN.MS) (n - 16) on)
  else s.wr THM_BROKEN.DT (b2n on)
/-- Follow the raw code of a sensor: how many consecutive readings it has stayed unchanged. -/
def Core.noteRaw (s : Core) (n : Nat) (t : Int) : Nat × Core :=
  let k := match mget none s.thm.raw n with
    | some (x, k) => if x = t then k + 1 else 1
    | none => 1
  (k, s.setThm { s.thm with raw := mset none s.thm.raw n (some (t, k)) })
/-- An ADC at full scale or at zero: no temperature, and a raw code that breaks a run of unchanged ones. -/
def Core.railed (s : Core) (n : Nat) (code : Int) (cause : Nat) : Nat × Option Int × Core :=
  if 16 ≤ n ∧ n < 24 then (cause, none, (s.noteRaw n code).2) else (0, none, s)
/-- The condition of R538 a sample shows, 0 for none, and the reading it gives. -/
def Core.judge (s : Core) (n : Nat) (r : Reading) : Nat × Option Int × Core :=
  match r with
  | .temp t =>
    let t := sgn 16 t.toNat
    let s := if n = 24 then s.setThm { s.thm with mr4 := 0 } else s
    let (k, s) := s.noteRaw n t
    let hi : Int := if n < 16 then 1750 else 1500
    if n < 24 ∧ (t < -550 ∨ t > hi) then (3, none, s)
    else if n < 24 ∧ k ≥ 1024 then (4, none, s)
    else (0, some t, s)
  | .open_ => s.railed n (2 ^ 15) 1
  | .short => s.railed n (-2 ^ 15 - 1) 2
  | .reserved => if n = 24 then (3, none, s.setThm { s.thm with mr4 := 0 }) else (0, none, s)
  | .failed =>
    if n = 24 then
      let s := s.setThm { s.thm with mr4 := s.thm.mr4 + 1 }
      (if s.thm.mr4 ≥ 3 then 4 else 0, none, s)
    else (0, none, s)
/-- Take one sample of a sensor: its window, and BROKEN set or cleared. -/
def Core.sample (s : Core) (n : Nat) (r : Reading) : Core :=
  let (cause, t, s) := s.judge n r
  let s := if cause ≠ 0 then s.setThm { s.thm with cond := mset 0 s.thm.cond n s.etime } else s
  let s :=
    if cause ≠ 0 then
      if s.broken n then s else (s.showBroken n true).emit 0x0D04 (n + at_ 1 cause)
    else
      match t with
      | none => s
      | some t =>
        if !s.broken n then s.setThm { s.thm with win := mput n (pushWin (mget [] s.thm.win n) t) s.thm.win }
        else if s.etime - mget 0 s.thm.cond n < 1000000000 then s
        else
          ((s.setThm { s.thm with win := mput n [t, t, t] s.thm.win, cond := mset 0 s.thm.cond n 0 }).showBroken n false).emit
            0x0D05 n
  s.wr THMS_READ.TEMP (if s.broken n then 1500 else twos 16 (median3 (mget [] s.thm.win n))) n

/-! ### WARN and TRIP of die, module and DT sensors (R541 to R543) -/

/-- THM_WARN on entry, THM_CLEAR below WARN - HYST. `ix` is the sensor index. -/
def Core.warnEvents (s : Core) (ix : Nat) (v warn : Int) (was : Bool) : Core :=
  let ev (code : Nat) (s : Core) : Core := s.emitLim code ix fun n => ix + at_ 2 (twos 16 v) + at_ 4 n
  if v ≥ warn then
    if was then s
    else ev 0x0D01 (s.setThm { s.thm with warned := if s.thm.warned.contains ix then s.thm.warned else ix :: s.thm.warned })
  else if v < warn - s.rd THM_CFG.HYST ∧ s.thm.warned.contains ix then
    ev 0x0D03 (s.setThm { s.thm with warned := s.thm.warned.filter (· != ix) })
  else s
/-- The thresholds of one sensor; its TRIP bit holds until the value is below TRIP - HYST. -/
def Core.thresholds (s : Core) (n : Nat) : Core :=
  let v := s.rds THMS_READ.TEMP n
  let trip := s.rds THMS_TRIP.TRIP n; let was := s.rdb THMS_READ.TRIP n
  let s := s.warnEvents n v (s.rds THMS_WT.WARN n) (s.rdb THMS_READ.WARN n)
  let now : Bool := decide (v ≥ trip) || (was && decide (v ≥ trip - s.rd THM_CFG.HYST))
  let s := s.wrs [(THMS_READ.WARN, b2n (decide (v ≥ s.rds THMS_WT.WARN n))),
    (THMS_READ.THROTTLE, b2n (decide (v ≥ s.rds THMS_WT.THROTTLE n))), (THMS_READ.TRIP, b2n now)] n
  if now && !was && !s.excluded n then
    (s.withInhibit fun s => s.setCause allBars 4).emit 0x0D02 (n + at_ 2 (twos 16 v))
  else s
/-- THM_STATUS.TRIP: a sensor that is not excluded stands at TRIP. -/
def Core.showTrip (s : Core) : Core :=
  s.wr THM_STATUS.TRIP (b2n ((List.range 25).any fun n => s.rdb THMS_READ.TRIP n && !s.excluded n))
/-- THM_STATUS.TRIP and HOTTEST follow the sensors; COLD follows MS0. -/
def Core.showThermal (s : Core) : Core :=
  let s := s.showTrip
  let s := match s.hottest with
    | some (n, _) => s.wrs [(THM_STATUS.HOTTEST, n), (THM_STATUS.HOTTEST_T, s.rd THMS_READ.TEMP n)]
    | none => s
  let v := s.rds THMS_READ.TEMP 16
  if mget [] s.thm.win 16 = [] ∨ s.excluded 16 then s
  else if v < coldPlate.1 then
    if s.rdb THM_STATUS.COLD then s else (s.wr THM_STATUS.COLD 1).emit 0x0D08 (at_ 2 (twos 16 v))
  else if v ≥ coldPlate.1 + 20 ∧ s.rdb THM_STATUS.COLD then
    (s.wr THM_STATUS.COLD 0).emitLim 0x0D03 16 fun n => 16 + at_ 2 (twos 16 v) + at_ 4 n
  else s

/-! ### Heads (R398, R536 to R538) -/

/-- The condition of R538 a head's sensor shows, 0 for none, its reading, and the record of its OHMS. -/
def Core.judgeHead (s : Core) (h : Nat) : Nat × Int × Core :=
  let ohms := s.rd HLK_SLOT_THERM.OHMS h
  let d := (s.hr h).desc
  let fires := s.rdb SPGB_FIRE.FIRING (s.barOf h)
  let from_ := match mget none s.thm.raw (0x20 + h) with
    | some (x, t) => if x = (ohms : Int) && fires then t else s.etime
    | none => s.etime
  let s := s.setThm { s.thm with raw := mput (0x20 + h) (some ((ohms : Int), from_)) s.thm.raw }
  let t := headTempOf ohms (leAt d 0x38 4) (leAt d 0x3C 2)
  let cause :=
    if ohms = 0xFFFFFF then 1 else if ohms < 10 then 2
    else if (t.all fun x => decide (x < -400 ∨ x > 1500)) then 3
    else if s.etime - from_ ≥ 60000000000 then 4
    else if s.rd HLK_SLOT_THERM.AGE h ≥ s.rd THM_CFG.HEAD_AGE then 5 else 0
  (cause, t.getD (sgn 16 (Config.freeTemp s.free).toNat), s)
/-- The next line not yet issued to a head, as a job line; free where no job follows. -/
def Core.firstBlanked (s : Core) (h : Nat) : Nat :=
  match s.nextLine (s.barOf h) (s.hf h).nextW true with
  | some (_, _, _, l) => l
  | none => (Config.freeDetail s.free).toNat
/-- Read one attached head and act on its thresholds. -/
def Core.readHead (s : Core) (h : Nat) : Core :=
  let ix := 0x20 + h
  let was := s.headDec h
  let (cause, t, s) := s.judgeHead h
  let open_ : Bool := cause == 1 || cause == 2
  let s := (s.tickFree).wr HDC_FIRE.TEMP (twos 16 t) h
  let r := s.hr h
  let s := if open_ then s else s.setHr h { r with usage := { r.usage with tPeak := max r.usage.tPeak t } }
  let broken := s.rdb HDC_TEMP_WARN.BROKEN h
  let s := if cause ≠ 0 then s.setThm { s.thm with cond := mset 0 s.thm.cond ix s.etime } else s
  let s :=
    if cause ≠ 0 then if broken then s else (s.wr HDC_TEMP_WARN.BROKEN 1 h).emit 0x0D04 (ix + at_ 1 cause)
    else if !broken then s.setThm { s.thm with win := mput ix (pushWin (mget [] s.thm.win ix) t) s.thm.win }
    else if s.etime - mget 0 s.thm.cond ix < 1000000000 then s
    else ((s.setThm { s.thm with win := mput ix [t, t, t] s.thm.win }).wr HDC_TEMP_WARN.BROKEN 0 h).emit 0x0D05 ix
  let v := s.headDec h
  let warn := s.rds HDC_TEMP_WARN.WARN h; let lim := s.rds HDC_TEMP_LIM.LIMIT h; let trip := s.rds HDC_TEMP_LIM.TRIP h
  let s := (s.warnEvents ix v warn (s.rdb HDC_TEMP_WARN.AT_WARN h)).wr HDC_TEMP_WARN.AT_WARN (b2n (decide (v ≥ warn))) h
  let s := if v ≥ lim ∧ !s.rdb HDC_FIRE.LIMIT h then s.emit 0x0805 (h + at_ 2 (twos 16 v)) else s
  let s := s.wr HDC_FIRE.LIMIT (b2n (decide (v ≥ lim))) h
  let s := if v ≥ trip ∧ !s.rdb HDC_FIRE.TRIP h then
      ((s.wr HDC_FIRE.TRIP 1 h).emit 0x0806 (h + at_ 2 (twos 16 v) + at_ 4 (s.firstBlanked h))).tickFree
    else s
  if was ≠ v ∧ s.rdb HLK_SLOT_USAGE.DEFERRED h then doUsageRecordWrite h s else s

/-! ### Throttling (R545 to R550) -/

/-- Engage the next level, or a level given by the guard. -/
def Core.engage (s : Core) (forced : Bool) : Core :=
  let old := s.rd THM_STATUS.LEVEL
  let s := s.wrs [(THM_STATUS.LEVEL, min 4 (old + 1)), (THM_STATUS.PENDING, 0)]
  let s := (s.inc THM_THR_CNT.ENGAGES).inc THM_THR_CNT.FORCED 0 (b2n forced)
  (s.setThm { s.thm with hotFrom := some s.etime }).emit 0x0D06
    (old + at_ 1 (min 4 (old + 1)) + at_ 2 (b2n forced) + at_ 3 s.thm.pendBy)
/-- Step 2 of R548: the ceiling and the measured rate have come down to the static term. -/
def Core.tryEngage (s : Core) : Core :=
  let st := s.rd SPG_TERM_STATIC.HZ
  if s.rdb THM_STATUS.PENDING ∧ s.rd SPG_CEIL.HZ ≤ st ∧ 100 * s.rd SPG_RATE.HZ ≤ 101 * st then s.engage false else s
/-- The throttle steps of a chirp. -/
def Core.throttle (s : Core) : Core :=
  let live := (List.range 25).filter fun n => !s.excluded n
  let hot := live.filter fun n => s.rdb THMS_READ.THROTTLE n
  let below (n : Nat) : Bool := decide (s.rds THMS_READ.TEMP n < s.rds THMS_WT.THROTTLE n - s.rd THM_CFG.HYST)
  let s := s.setThm { s.thm with
    hotFrom := if hot = [] then none else some (s.thm.hotFrom.getD s.etime)
    coolFrom := if live.all below then some (s.thm.coolFrom.getD s.etime) else none }
  let s := if s.rdb THM_STATUS.PENDING && below s.thm.pendBy then (s.wr THM_STATUS.PENDING 0).setStatic else s
  let level := s.rd THM_STATUS.LEVEL
  let ready : Bool := level == 0 || (match s.thm.hotFrom with
    | some t => decide (s.etime - t ≥ 1000000 * s.rd THM_HOLD_CFG.HOLD_MS)
    | none => false)
  let s := match hot with
    | [] => s
    | n :: rest =>
      if level < 4 ∧ !s.rdb THM_STATUS.PENDING ∧ ready then
        let d (k : Nat) : Int := s.rds THMS_READ.TEMP k - s.rds THMS_WT.THROTTLE k
        let by_ := rest.foldl (fun m k => if d k > d m then k else m) n
        ((s.setThm { s.thm with pendAt := s.etime, pendBy := by_ }).wr THM_STATUS.PENDING 1).setStatic
      else s
  s.tryEngage
/-- When a pending request engages by force (R548). -/
def Core.forcedAt (s : Core) : Nat := s.thm.pendAt + 1000000 * s.rd THM_THR_CFG.ENGAGE_MS
/-- THROTTLE_ENGAGE_FORCED: ENGAGE_MS has passed since the request; the level stays while no imago runs (R550). -/
def doThrottleEngageForced (s : Core) : Core :=
  if s.rdb THM_STATUS.PENDING && !s.imagoDead then ((s.reach s.forcedAt).engage true).setStatic else s
/-- A request still pending at a resume engages: by force where ENGAGE_MS has passed, else where step 2 of R548 lets it (R550;
DEDUCED: log entry 178). -/
def Core.resumeThrottle (s : Core) : Core :=
  if s.rdb THM_STATUS.PENDING && decide (s.forcedAt ≤ s.etime) then (s.engage true).setStatic else s.tryEngage
/-- THROTTLE_RELAX: every sensor has stayed below THROTTLE - HYST for RELAX_MS; the level stays while no imago runs (R550). -/
def doThrottleRelax (s : Core) : Core :=
  match s.thm.coolFrom with
  | none => s
  | some t =>
    let level := s.rd THM_STATUS.LEVEL
    if level = 0 ∨ s.rdb THM_STATUS.GUARD_HW ∨ s.imagoDead then s
    else
      let s := s.reach (t + 1000000 * s.rd THM_THR_CFG.RELAX_MS)
      let s := (s.setThm { s.thm with coolFrom := some s.etime }).wr THM_STATUS.LEVEL (level - 1)
      (s.emit 0x0D06 (level + at_ 1 (level - 1) + at_ 3 (s.rd THM_STATUS.HOTTEST))).setStatic
/-- HW_GUARD_SAMPLE: the AOK guard samples the die sensors (R544). -/
def doHwGuardSample (raw : List (Nat × Nat)) (s : Core) : Core :=
  let seen := raw.filter fun p => !s.excluded p.1 && decide (-550 ≤ sgn 16 p.2 ∧ sgn 16 p.2 ≤ 1750)
  let s := seen.foldl (fun s p =>
    let n := if sgn 16 p.2 ≥ 1250 then mget 0 s.thm.guard p.1 + 1 else 0
    s.setThm { s.thm with guard := mset 0 s.thm.guard p.1 n }) s
  match seen.find? fun p => mget 0 s.thm.guard p.1 ≥ 3 with
  | some p =>
    let was := s.rdb THM_STATUS.GUARD_HW
    let s := if s.rd THM_STATUS.LEVEL < 4 then s.inc THM_THR_CNT.ENGAGES else s
    let s := s.wrs [(THM_STATUS.LEVEL, 4), (THM_STATUS.PENDING, 0), (THM_STATUS.GUARD_HW, 1)]
    let s := s.withInhibit fun s => s.setCause allBars 4
    (if was then s else s.emit 0x0D07 (p.1 + at_ 2 p.2)).setStatic
  | none =>
    if seen ≠ [] ∧ seen.all (fun p => sgn 16 p.2 < 1150) then s.wr THM_STATUS.GUARD_HW 0 else s
/-- Sensors that stand at TRIP when their exclusion ends act as on reaching it (R391, R541). -/
def Core.tripNow (s : Core) (was : Nat → Bool) : Core :=
  (List.range 25).foldl (fun s n =>
    if was n && !s.excluded n && s.rdb THMS_READ.TRIP n then
      (s.withInhibit fun s => s.setCause allBars 4).emit 0x0D02 (n + at_ 2 (s.rd THMS_READ.TEMP n))
    else s) s
/-- A write of THM_EXCL (R539). -/
def thmExcl (v : Nat) (s : Core) : Reply × Core :=
  let ts := bits v 15 0; let ms := bits v 23 16
  if (maskBits 16 ts).length > 4 ∨ (maskBits 8 ms).length > 2 ∨ bit ms 0 ∨ bit ms 3 then (badRange 0x14, s)
  else (.ok 0, ((s.wrs [(THM_EXCL.TS, ts), (THM_EXCL.MS, ms), (THM_EXCL.DT, b2n (bit v 24))]).showTrip).tripNow s.excluded)

/-! ### The flash hold (R556) -/

/-- Held writes go on once MS3 is back in the range. -/
def Core.flashResume (s : Core) : Core :=
  if s.rdb THM_DEFER.FLASH_HOLD && s.flashWarm then
    ((s.wr THM_DEFER.FLASH_HOLD 0).emit 0x0D0A (at_ 4 s.flashWaiting)).flashNext
  else s.flashNext

/-- Chirp item 3: every sensor is sampled and every threshold acts. -/
def Core.thermal (s : Core) (samples : List (Nat × Reading)) : Core :=
  let s := s.setThm { s.thm with late := [] }
  let s := samples.foldl (fun s p => s.sample p.1 p.2) s
  let s := (List.range 25).foldl (fun s n => s.thresholds n) s
  let s := s.showThermal
  let s := (s.allHeads.filter s.attached).foldl (fun s h => s.readHead h) s
  s.throttle.flashResume

end Sys2Proof.Machine
end

