-- ==== Sys2Proof/Machine/RegAccess.lean ====
section
/-! DEFINITION. Reads and writes of the field register space (spec/00_scope.md R19, R20, R30 to R36,
spec/04_command_protocol.md R189 to R192, R198, spec/17_register_and_code_index.md R602 to R604). -/

namespace Sys2Proof.Machine

/-! ### Which addresses exist, and who may use them (R189, R198, R602) -/

/-- The nozzle-state window. -/
def inNozWindow (a : Nat) : Bool := 0x1000000 ≤ a && a < 0x1800000
/-- The compare pool window. -/
def inPoolWindow (a : Nat) : Bool := 0x100000 ≤ a && a < 0x110000
/-- A register, or a word of a window, lies at `a`. -/
def regDefined (a : Nat) : Bool := inNozWindow a || inPoolWindow a || !(fieldsAt a).isEmpty
/-- Does register field `f` lie at `a`, and which instance is it? -/
def isAt (f : Fld) (a : Nat) : Bool := (f.at? a).isSome
/-- The privilege a read needs. -/
def readPriv (a : Nat) : Nat :=
  if 0x1A0000 ≤ a ∧ a < 0x1B0000 then 3 else if 0x1B0000 ≤ a ∧ a < 0x1C0000 then 2 else 1
/-- Index configuration, pitch and preset of PC0 and PC1 are written at SERVICE (R340). -/
def privilegedIndex (a : Nat) : Bool :=
  [POS_IDX_CFG.MODE, POS_IDX_PITCH.PITCH, POS_PRESET_LO.PRESET, POS_PRESET_HI.PRESET].any fun f =>
    match f.at? a with
    | some n => decide (n < 2)
    | none => false
/-- The privilege a write needs. -/
def writePriv (a : Nat) : Nat :=
  if 0x1A0000 ≤ a ∧ a < 0x1C0000 then 3
  else if isAt THM_EXCL.TS a || privilegedIndex a then 3 else 2
/-- The REASON of R198 for an access that is not made, 0 where it is made. -/
def addrReason (priv need a : Nat) : Nat :=
  if a % 4 ≠ 0 then 3 else if a ≥ 2 ^ 32 ∨ !regDefined a then 1 else if priv < need then 2 else 0
/-- An ADDR_VIOLATION: its log entry, its event and its completion (R189, R198). -/
def Core.violate (s : Core) (c : Call) (opcode a reason : Nat) : Reply × Core :=
  let n := s.rd LOG_VIOL_CTL.NEXT
  let a := a % 2 ^ 32
  let s := s.wrs [(LOG_VIOL_ADDR.ADDR, a), (LOG_VIOL_INFO.OPCODE, opcode), (LOG_VIOL_INFO.TAG, c.tag.toNat),
    (LOG_VIOL_INFO.QUEUE, if c.src = .host then c.q.val else 0), (LOG_VIOL_INFO.PRIV, s.priv c.src),
    (LOG_VIOL_INFO.SOURCE, if c.src = .host then 0 else 1), (LOG_VIOL_REASON.REASON, reason)] n
  let s := s.wr2 LOG_VIOL_ETIME_LO.ETIME LOG_VIOL_ETIME_HI.ETIME s.etime n
  let s := ((s.wr LOG_VIOL_CTL.NEXT ((n + 1) % 16)).inc LOG_VIOL_CNT.COUNT).emit 0x0101 (a + at_ 4 n) c.tag.toNat
  (.err 0x20 (if reason = 2 then 0x001A else 0x0019) 0x10 (some a), s)
/-- The crossing that an access to a block passes: from the fabric's domain into the block's own (R59, R582, R585).
DEDUCED from the table of R59: log entry 20. -/
def regCrossing (a : Nat) : Option Nat :=
  if 0x20000 ≤ a ∧ a < 0x30000 then some (cdcId 4 5 0)
  else if 0x40000 ≤ a ∧ a < 0x50000 then some (cdcId 4 6 (if a < 0x40100 then 0 else (a - 0x40100) / 0x40))
  else if 0xE0000 ≤ a ∧ a < 0x110000 then some (cdcId 4 10 0)
  else if 0x160000 ≤ a ∧ a < 0x180000 then some (cdcId 4 13 0)
  else if 0x180000 ≤ a ∧ a < 0x190000 then some (cdcId 4 12 0)
  else none
/-- The access cannot cross (R192). -/
def Core.regTimedOut (s : Core) (a : Nat) : Bool := match regCrossing a with | some id => s.timedOut id | none => false

/-! ### Absent bars and heads (R14) -/

/-- `a` lies among the instances of a bar register whose bar is absent. -/
def Core.barAbsentAt (s : Core) (base stride a : Nat) : Bool :=
  base ≤ a && a < base + 8 * stride && !s.barPresent ((a - base) / stride)
/-- `a` is a register of a link that the description in force does not include, or of an absent slot of a link. -/
def Core.linkAbsentAt (s : Core) (a : Nat) : Bool :=
  0xA0000 ≤ a && a < 0xA6000 &&
    (let l := (a - 0xA0000) / 0x400
     s.segBar l ≥ 8 || (0x100 ≤ a % 0x400 && a % 0x400 < 0x180 && !s.headPresent (8 * l + (a % 0x400 - 0x100) / 16)))
/-- `a` is a register of an absent bar, link, slot or head. -/
def Core.absentAt (s : Core) (a : Nat) : Bool :=
  (0xC0000 ≤ a && a < 0xCC000 && !s.headPresent ((a - 0xC0000) / 256)) || s.linkAbsentAt a
  || s.barAbsentAt 0x50040 4 a
  || s.barAbsentAt 0x80000 0x40 a || s.barAbsentAt 0x90000 0x100 a || s.barAbsentAt 0x110100 0x20 a
  || s.barAbsentAt 0x140100 0x40 a || s.barAbsentAt 0x150040 0x10 a
/-- The word of reset values at `a`. -/
def resetWord (a : Nat) : Nat :=
  (fieldsAt a).foldl (fun w p => w + (if p.1.acc = .wo then 0 else resetOf p.1 p.2 * 2 ^ p.1.lo)) 0

/-! ### Reads (R19, R32, R35) -/

/-- Register pairs: the low halves (R18, R19). Each high half lies 4 bytes above. -/
def pairLows : List Fld :=
  [SYS_SERIAL_LO.SERIAL, HDC_SERIAL_LO.SERIAL, LOG_VIOL_ETIME_LO.ETIME, TCK_LAST_SWITCH_LO.ETIME, SKD_BYTES_LO.BYTES,
   POS_COUNT_LO.COUNT, POS_PRESET_LO.PRESET, POS_IDXLOG_CNT_LO.COUNT, POS_IDXLOG_ETIME_LO.ETIME, POS_WEB_COUNT_LO.COUNT,
   SPG_LPC_LO.LPC, SPG_POS_LO.POS, SPGB_DELAY_LO.DELAY, HDC_ISSUED_LO.COUNT, HDC_STROBED_LO.COUNT, HDC_DROPS_LO.COUNT,
   HLK_UP_ETIME_LO.ETIME, CAM_FS_POS_LO.POS, CAM_FS_ETIME_LO.ETIME, CSV_CAM_DELAY_LO.DELAY, JOBB_START_LO.START,
   DSP_LAST_TE_LO.ETIME, CDC_LAST_ETIME_LO.ETIME]
/-- The addresses a read of `a` latches: a pair's high half; STAT_CLIP and STAT_FRAME by STAT_MEAN (R466). -/
def latchesOf (a : Nat) : List Nat :=
  if inNozWindow a then (if a % 8 = 0 then [a + 4] else [])
  else if pairLows.any (isAt · a) then [a + 4]
  else if isAt ISP_STAT_MEAN.MEAN a then [a + 4, a + 8] else []
/-- A read of `a` returns a latched word. -/
def isLatched (a : Nat) : Bool :=
  if inNozWindow a then a % 8 == 4
  else pairLows.any (fun f => 4 ≤ a && isAt f (a - 4)) || isAt ISP_STAT_CLIP.CLIP a || isAt ISP_STAT_FRAME.FRAME a
/-- The pool window (R378): the word of a slot's entry, in the layout of R366. -/
def Core.poolWord (s : Core) (a : Nat) : Nat :=
  match s.pos.cmp.pool.find? (·.slot == (a - 0x100000) / 16) with
  | none => 0
  | some e =>
    let w := a % 16 / 4
    if w = 0 then e.pos % 2 ^ 32
    else if w = 1 then e.pos / 2 ^ 32 % 2 ^ 32
    else if w = 2 then e.source + at_ 1 e.action + at_ 2 e.output + at_ 3 (e.flags % 64 + 64)
    else e.width + at_ 2 e.tag
/-- The window onto a job's defect ranges (R507, R510): word `i` of the range, or COUNT and OVERFLOW. -/
def Core.defectWord (s : Core) (i : Nat) : Nat :=
  match s.job? (s.rd JOB_DEF_SEL.JOB_ID) with
  | none => 0
  | some j =>
    if i = 0 then j.defects.length * 2 ^ 16 + b2n j.overflow * 2 ^ 26
    else match j.defects[s.rd JOB_DEF_IDX.IDX]? with
      | none => 0
      | some d =>
        if i = 1 then d.unit + b2n d.perBar * 2 ^ 8 + d.kind * 2 ^ 16
        else if i = 2 then d.first % 2 ^ 32 else if i = 3 then d.last % 2 ^ 32 else satU 32 d.lines
/-- The live word at `a`. -/
def Core.liveWord (s : Core) (a : Nat) : Nat :=
  if inNozWindow a then
    let e := mget nozNeutral s.press.nsm ((a - 0x1000000) / 8)
    if a % 8 = 0 then e % 2 ^ 32 else e / 2 ^ 32
  else if inPoolWindow a then s.poolWord a
  else if s.absentAt a then resetWord a
  else if isAt JOB_QUEUE.LIVE a then (s.jobs.jobs.filter (·.live)).length + 16 * s.jobs.switches.length
  else if isAt JOB_DEF_IDX.IDX a then s.rd JOB_DEF_IDX.IDX + s.defectWord 0
  else if isAt JOB_DEF_DATA0.UNIT a then s.defectWord 1
  else if isAt JOB_DEF_DATA1.FIRST a then s.defectWord 2
  else if isAt JOB_DEF_DATA2.LAST a then s.defectWord 3
  else if isAt JOB_DEF_DATA3.LINES a then s.defectWord 4
  else if isAt CAM_TRIG_FIFO.LEVEL a then s.cam.fifo.length + s.rd CAM_TRIG_FIFO.OVR * 2 ^ 16
  else s.regWord a
/-- Hold the halves that a read of `a` latches. -/
def Core.latch_ (s : Core) (a : Nat) : Core :=
  (latchesOf a).foldl (fun s h => { s with latch := mset 0 s.latch h (s.liveWord h) }) s
/-- Read the register at `a`, with what the read itself does: latching, and the step of an index. A register of an absent item
reads its reset value, the high half of a pair too (R14, R19). -/
def regRead (a : Nat) (s : Core) : Nat × Core :=
  if s.regTimedOut a then (0, s)
  else if s.absentAt a then (resetWord a, s.latch_ a)
  else if isLatched a then (mget 0 s.latch a, s)
  else match HDC_TONE_DATA.VALUE.at? a with
  | some h => toneRead h s
  | none =>
    match ISP_TBL_DATA.DATA.at? a with
    | some v => tblRead v s
    | none => if isAt SCR_MASK_DATA.DATA a then maskDataRead s else (s.liveWord a, s.latch_ a)

/-! ### What a field stores (the register maps' own limits) -/

/-- Fields that clamp what is written: least and greatest value stored. -/
def clamps : List (Fld × Nat × Nat) :=
  [(PWR_PF_CFG.PF_LEVEL, 0x91, 0xDC), (TCK_CFG.CHIRP_US, 50, 400), (TCK_CFG.HB_MISS_LIMIT, 2, 15),
   (SCR_CFG.ERR_CLAMP, 10, 15), (SCR_CFG.LEAK, 0, 64), (POS_SPD_CFG.WINDOW_US, 10, 1000),
   (POS_SPD_CFG.MIN_EDGES, 1, 63), (POS_SPD_CFG.STILL_MS, 1, 65535), (POS_SIG_CFG.AMP_FILT, 1, 15),
   (POS_SIG_CFG.LOS_US, 1, 4095), (POS_SSI_CFG.BITS, 8, 48), (POS_SSI_CFG.CLK, 1, 100), (POS_SSI_CFG.MONO_US, 1, 63),
   (POS_SSI_CFG.RATE_US, 10, 1023), (POS_WEB_CFG.TRACK, 10, 30), (ER_CFG.SRC, 0, 2), (POS_CFG.INTERP, 0, 2),
   (SPG_CFG.BW_HZ, 20, 500), (SPG_CFG.LEAD, 10, 80), (SPG_CFG.SLEW, 1, 15), (SPG_TERM_HOST.HZ, 0, 160000),
   (SPG_RAMP.DECEL_MAX, 1, 65535), (SPG_RAMP.ACCEL_MAX, 1, 65535), (SPG_SPD_CFG.FULL_HZ, 1, 1048575),
   (SPG_SPD_CFG.PWM_KHZ, 0, 100), (SPG_DEFECT_CFG.WIDTH, 1, 65535), (HLK_CFG.CONF_TO_US, 5, 255),
   (CAM_CFG.FRAME_LINES, 16, 1023), (ISP_TBL_IDX.TABLE, 0, 2), (CSV_CFG.CYCLE, 1, 8), (CSVB_NOZ_LAW.AVG, 1, 8),
   (CSVB_DEAD.N, 1, 15), (JOB_CFG.MARGIN, 0x20, 0xFFFF), (MEM_CFG.MIG_RATE, 1, 20), (MEM_CFG.CE_LIMIT, 1, 65535),
   (MEM_SCRUB_CFG.PERIOD_MIN, 12, 65535), (MEM_RH_CFG.THRESH, 0x100, 0xFFFF), (MEM_RH_CFG.WINDOW_MS, 8, 64),
   (THM_CFG.HEAD_AGE, 1, 15), (THM_THR_CFG.ENGAGE_MS, 1, 65535), (THM_THR_CFG.RELAX_MS, 1, 65535),
   (THM_HOLD_CFG.HOLD_MS, 1, 65535), (DSP_TIMING.WINDOW_US, 100, 8000), (DSP_TIMING.PRIME_US, 20, 2000),
   (DSP_WM.LOW, 1024, 61440), (CDC_CFG.TIMEOUT_US, 1, 1000)]
/-- Fields with values that store another: from which value on (up to which), and what is stored. -/
def remaps : List (Fld × Nat × Nat × Nat) :=
  [(POS_CFG.TYPE, 5, 7, 0), (POS_IDX_CFG.MODE, 3, 3, 0), (ER_CFG.MODE, 3, 3, 0), (CSVB_SEQ.CHAN, 3, 3, 1),
   (SPGB_TRIM.TRIM, 0x40, 0x40, 0x41)]
/-- What a write of `v` to a field stores. -/
def storedAs (f : Fld) (v : Nat) : Nat :=
  match clamps.find? (·.1 == f) with
  | some c => clampN c.2.1 c.2.2 v
  | none =>
    match remaps.find? (fun r => r.1 == f && r.2.1 ≤ v && v ≤ r.2.2.1) with
    | some r => r.2.2.2
    | none => v
/-- The part of a written word that goes to a field, as the field stores it. -/
def fieldPart (f : Fld) (v : Nat) : Nat := storedAs f (bits v f.hi f.lo)

/-! ### Writes (R20, R32 to R36, R190) -/

/-- Write one field by its access type. -/
def Core.writeField (s : Core) (v : Nat) (p : Fld × Nat) : Core :=
  let x := fieldPart p.1 v
  match p.1.acc with
  | .rw => s.wr p.1 x p.2
  | .rwl => s.wr p.1 x p.2
  | .w1c => if x ≠ 0 then s.wr p.1 0 p.2 else s
  | .w1s => if x ≠ 0 then s.wr p.1 1 p.2 else s
  | .ro => s
  | .wo => s
/-- Write every field of the register at `a`. -/
def Core.plainWrite (s : Core) (a v : Nat) : Core := (fieldsAt a).foldl (fun s p => s.writeField v p) s
/-- Would the write change an RWL field while CFG_LOCK is set (R34)? -/
def Core.locked (s : Core) (a v : Nat) : Bool :=
  s.rdb SYS_LOCK.CFG_LOCK && (fieldsAt a).any fun p => p.1.acc == .rwl && fieldPart p.1 v != s.rd p.1 p.2
/-- Would the write change any field? -/
def Core.changes (s : Core) (a v : Nat) : Bool :=
  (fieldsAt a).any fun p => (p.1.acc == .rw || p.1.acc == .rwl) && fieldPart p.1 v != s.rd p.1 p.2
/-- Hold a low half until its high half is written (R20). -/
def Core.holdLow (s : Core) (a v : Nat) : Core := { s with lo := mset 0 s.lo a (v + 1) }
/-- The low half that takes effect with the high half at `a`: the held one, else the current one. -/
def Core.lowFor (s : Core) (a : Nat) : Nat :=
  match mget 0 s.lo (a - 4) with
  | 0 => s.liveWord (a - 4)
  | n + 1 => n
/-- Write a pair as one value. -/
def Core.writePair (s : Core) (a v : Nat) : Core :=
  let lo := s.lowFor a
  ({ s with lo := mdel (a - 4) s.lo } : Core).plainWrite (a - 4) lo |>.plainWrite a v
/-- A job is ARMED, PRINTING or DRAINING: a write that such a state bars. -/
def Core.idleOnly (s : Core) (k : Core → Core) : Reply × Core :=
  if s.armedOrPrinting then (wrongState 0x0014, s) else (.ok 0, k s)

/-- POS_c_CFG (R338 to R340, R343). -/
def posCfgWrite (ch a v : Nat) (s : Core) : Reply × Core :=
  if ch < 2 ∧ s.changes a v ∧ s.armedOrPrinting then (wrongState 0x0014, s)
  else
    let t := s.rd POS_CFG.TYPE ch
    let s := s.erSettle.plainWrite a v
    (.ok 0, if s.rd POS_CFG.TYPE ch ≠ t then s.typeChanged ch else s.judgeInterp ch)
/-- ER_e_CFG: the outputs follow the new mode at once (R364). -/
def erCfgWrite (a v : Nat) (s : Core) : Core := (s.erSettle.plainWrite a v).erLevels
/-- POS_c_WRAP (R346); reserved for PC0 and PC1 (R340). -/
def posWrapWrite (ch a v : Nat) (s : Core) : Reply × Core :=
  if ch < 2 ∨ !s.changes a v then (.ok 0, s)
  else if s.pos.cmp.pool.any (·.source == ch) then (wrongState 0, s)
  else (.ok 0, (s.plainWrite a v).wrapChanged ch)
/-- HLK_n_CFG (R439, R442). -/
def hlkCfgWrite (l a v : Nat) (s : Core) : Reply × Core :=
  if !bit v 0 ∧ s.printing ∧ !s.rdb CMDQ_CFG.LIVE_SERVICE then (wrongState 0x0012, s)
  else (.ok 0, ((s.plainWrite a v).wr HLK_CFG.EN (s.rd HLK_CFG.EN l) l).setLinkEn l (bit v 0))
/-- SPG_CFG: a changed LEAD is compared with every trained link's least lead (R427). -/
def spgCfgWrite (a v : Nat) (s : Core) : Core :=
  let old := s.rd SPG_CFG.LEAD
  let s := s.plainWrite a v
  if s.rd SPG_CFG.LEAD = old then s else ((List.range 24).filter s.linkUp).foldl (fun s l => s.leadCheck l) s
/-- SPG_RUNWAY_WARN and SPG_RUNWAY_MIN keep WARN above MIN (R404). -/
def runwayWrite (a v : Nat) (s : Core) : Reply × Core :=
  let t := s.plainWrite a v
  if t.rd SPG_RUNWAY_WARN.LINES ≤ t.rd SPG_RUNWAY_MIN.LINES then (badRange 0x14, s) else (.ok 0, t)
/-- HDC_n_TEMP_LIM (R398). -/
def tempLimWrite (h a v : Nat) (s : Core) : Reply × Core :=
  match s.limRefusal h (sgn 16 (bits v 15 0)) (sgn 16 (bits v 31 16)) 0x14 0x14 with
  | some r => (r, s)
  | none => (.ok 0, s.plainWrite a v)
/-- CSV_b_GLIM: GMIN stays below GMAX (R489). -/
def glimWrite (a v : Nat) (s : Core) : Reply × Core :=
  if bits v 11 0 ≥ bits v 27 16 then (badRange 0x14, s) else (.ok 0, s.plainWrite a v)
/-- CAM_CFG: written only while the camera is not started (R487). -/
def camCfgWrite (a v : Nat) (s : Core) : Reply × Core :=
  if s.camState = 4 ∨ s.camState = 5 then (wrongState 0, s) else (.ok 0, s.plainWrite a v)
/-- FIJ_CFG: LIVE_OK written 0 while a job prints disarms every rule (R591, R594). -/
def fijCfgWrite (a v : Nat) (s : Core) : Core :=
  let s := s.plainWrite a v
  if !bit v 0 && s.printing then s.fijDisarmAll 3 else s
/-- MEM_CFG with RANK_CLR (R531). -/
def memCfgWrite (a v : Nat) (s : Core) : Core :=
  let s := s.plainWrite a v
  if bit v 2 then s.setMem { s.mem with rankClr := true } else s
/-- LOG_VIOL_CTL.CLR (R198). -/
def violClr (v : Nat) (s : Core) : Core :=
  if bit v 31 then
    (List.range 16).foldl (fun s n => s.clr [LOG_VIOL_ADDR.ADDR, LOG_VIOL_INFO.OPCODE, LOG_VIOL_INFO.TAG,
      LOG_VIOL_INFO.QUEUE, LOG_VIOL_INFO.PRIV, LOG_VIOL_INFO.SOURCE, LOG_VIOL_ETIME_LO.ETIME, LOG_VIOL_ETIME_HI.ETIME,
      LOG_VIOL_REASON.REASON] n) (s.clr [LOG_VIOL_CNT.COUNT, LOG_VIOL_CTL.NEXT])
  else s
/-- The CLR bits of counters and peaks: the register field that holds the bit, what it sets to 0, and the instance. -/
def clrActs : List (Fld × List Fld) :=
  [(TCK_CHIRP_MAX.CLR, [TCK_CHIRP_MAX.NS]),
   (XBC_MAXERR.CLR, [XBC_MAXERR.ERR, XBC_CNT_RES.COUNT, XBC_CNT_PAL.COUNT, XBC_CNT_TWO.COUNT, XBC_CNT_QUAD.COUNT]),
   (SPG_ERR.CLR, [SPG_ERR.PEAK]), (HLK_DEV.CLR, [HLK_DEV.PEAK]), (ISP_LOAD.CLR, [ISP_LOAD.PEAK]),
   (MEMC_UTIL.CLR, [MEMC_UTIL.PEAK])]
/-- A write of bit 31 of such a register. -/
def peakClr (a v : Nat) (s : Core) : Core :=
  if !bit v 31 then s
  else if isAt PWR_VIN_MIN.CLR a then s.wr PWR_VIN_MIN.MIN 0xFFF
  else clrActs.foldl (fun s e => match e.1.at? a with
    | some n => e.2.foldl (fun s f => s.wr f 0 n) s
    | none => s) s

/-- Registers whose write can be refused by the state of the machine, or does more than store. -/
def regWriteSpecial (a v : Nat) (s : Core) : Option (Reply × Core) :=
  if isAt POS_CFG.TYPE a then some (posCfgWrite ((a - 0xE0000) / 0x800) a v s)
  else if isAt POS_WRAP.WRAP a then some (posWrapWrite ((a - 0xE0000) / 0x800) a v s)
  else if isAt POS_IDX_CFG.MODE a then
    let s := s.plainWrite a v
    some (.ok 0, if bit v 3 then s.idxLoad ((a - 0xE0000) / 0x800) else s)
  else if isAt POS_PRESET_LO.PRESET a then some (.ok 0, s.holdLow a v)
  else if isAt POS_PRESET_HI.PRESET a then some (.ok 0, s.writePair a v)
  else if isAt POS_WEB_CTL.RETURN a then some (.ok 0, if bit v 0 then s.webReturn else s)
  else if isAt ER_CFG.MODE a then some (.ok 0, erCfgWrite a v s)
  else if isAt PWR_PF_CFG.PF_LEVEL a then
    some (.ok 0, if s.pwr.sampledAt = 0 then s.plainWrite a v else (s.plainWrite a v).judgeVin)
  else if isAt CMP_CO_CFG.POL a then some (.ok 0, (s.plainWrite a v).refreshCo)
  else if isAt SPG_LPC_LO.LPC a then some (s.idleOnly fun s => s.holdLow a v)
  else if isAt SPG_LPC_HI.LPC a then some (s.idleOnly fun s => (s.writePair a v).lpcWritten)
  else if isAt SPG_CFG.LEAD a then some (.ok 0, spgCfgWrite a v s)
  else if isAt SPG_RUNWAY_WARN.LINES a || isAt SPG_RUNWAY_MIN.LINES a then some (runwayWrite a v s)
  else if isAt HLK_CFG.EN a then some (hlkCfgWrite ((a - 0xA0000) / 0x400) a v s)
  else if isAt HLK_LVL_MAP.W1 a then some (s.idleOnly fun s => s.plainWrite a v)
  else if isAt CSV_CAM_DELAY_LO.DELAY a then some (s.idleOnly fun s => s.holdLow a v)
  else if isAt CSV_CAM_DELAY_HI.DELAY a then some (s.idleOnly fun s => s.writePair a v)
  else if isAt CSVB_GLIM.GMIN a then some (glimWrite a v s)
  else if isAt CAM_CFG.ER a then some (camCfgWrite a v s)
  else if isAt ISP_BLACK_RG.RED a || isAt ISP_BLACK_B.BLUE a then some (.ok 0, (s.plainWrite a v).hostWrites a)
  else if isAt CAM_EXP.EXP a then some (.ok 0, (s.plainWrite a v).wr CAM_EXP_GEN.PENDING 1 ((a - 0x120040) / 8))
  else if isAt MEM_CFG.RANK_CLR a then some (.ok 0, memCfgWrite a v s)
  else if isAt THM_EXCL.TS a then some (thmExcl v s)
  else if isAt FIJ_CFG.LIVE_OK a then some (.ok 0, fijCfgWrite a v s)
  else if isAt LOG_VIOL_CTL.CLR a then some (.ok 0, violClr v s)
  else if isAt SCR_MASK_DATA.DATA a then some (maskDataWrite v s)
  else
    match HDC_TONE_DATA.VALUE.at? a, HDC_TONE_CTL.COMMIT.at? a, HDC_TEMP_LIM.LIMIT.at? a with
    | some h, _, _ => some (toneWrite h v s)
    | _, some h, _ => some (toneCtl h v s)
    | _, _, some h => some (tempLimWrite h a v s)
    | _, _, _ =>
      match SCR_CTL.ERR_CLR.at? a, ISP_TBL_DATA.DATA.at? a, MEMC_CTL.RETRAIN.at? a with
      | some b, _, _ => some (.ok 0, scrCtl b v s)
      | _, some w, _ => some (.ok 0, tblWrite w (v % 65536) s)
      | _, _, some ch => some (memCtl ch v s)
      | _, _, _ => none

/-- Write `v` to the register at `a`, which exists and may be written. -/
def regWrite (a v : Nat) (s : Core) : Reply × Core :=
  if s.regTimedOut a then (.err 0x31 0 0xFFFF (some 0), s)
  else if inNozWindow a then
    if a % 8 = 0 then (.ok 0, s.holdLow a v)
    else
      let r := windowWrite ((a - 0x1000000) / 0x100000) ((a - 0x1000000) % 0x100000 / 8) (s.lowFor a + v * 2 ^ 32) s
      if r.1 = .ok 0 then (r.1, { r.2 with lo := mdel (a - 4) r.2.lo }) else r
  else if inPoolWindow a || s.absentAt a then (.ok 0, s)
  else if s.locked a v then (wrongState 0x0010, s)
  else match regWriteSpecial a v s with
  | some r => r
  | none => (.ok 0, peakClr a v (s.plainWrite a v))

/-! ### The register commands (R189 to R192) -/

/-- REG_READ. -/
def regReadCmd (c : Call) (opcode a : Nat) (s : Core) : Reply × Core :=
  match addrReason (s.priv c.src) (readPriv a) a with
  | 0 => let r := regRead a s
         if s.regTimedOut a then (.err 0x31 0 0xFFFF (some 0), s) else (.ok r.1, r.2)
  | why => s.violate c opcode a why
/-- REG_WRITE. -/
def regWriteCmd (c : Call) (opcode a v : Nat) (s : Core) : Reply × Core :=
  match addrReason (s.priv c.src) (writePriv a) a with
  | 0 => regWrite a v s
  | why => s.violate c opcode a why
/-- A detail that names VALUE names it where the command has it. -/
def Reply.valueAt (off : Nat) : Reply → Reply
  | .err st d 0x14 v => .err st d off v
  | r => r
/-- REG_RMW: a read and a write with nothing between them; RESULT holds the old and the new value. Where the write is refused,
the read has had no effect either (R179). -/
def regRmwCmd (c : Call) (opcode a mask v : Nat) (s : Core) : Reply × Core :=
  match addrReason (s.priv c.src) (max (readPriv a) (writePriv a)) a with
  | 0 =>
    let r := regRead a s
    let new := (r.1 &&& (mask ^^^ 0xFFFFFFFF)) ||| (v &&& mask)
    let w := regWrite a new r.2
    match w.1 with
    | .ok _ => (.ok (r.1 + at_ 4 new), w.2)
    | e => (e.valueAt 0x18, s)
  | why => s.violate c opcode a why
/-- Read `n` words from `a` upward, in ascending order. -/
def regReads (a : Nat) : Nat → Core → List Nat × Core
  | 0, s => ([], s)
  | n + 1, s =>
    let r := regRead a s
    let t := regReads (a + 4) n r.2
    (r.1 :: t.1, t.2)
/-- REG_READ_BLOCK: every address is checked before any is read. With one access that times out the block completes with
TIMEOUT, and every word of its data reads 0 (R192). -/
def regBlockCmd (c : Call) (opcode a count : Nat) (s : Core) : Reply × Core :=
  let addrs := (List.range count).map (a + 4 * ·)
  match addrs.find? fun x => addrReason (s.priv c.src) (readPriv x) x ≠ 0 with
  | some x => s.violate c opcode x (addrReason (s.priv c.src) (readPriv x) x)
  | none =>
    if addrs.any s.regTimedOut then
      (if c.sg then .data (List.replicate (4 * count) 0#8) (.err 0x31 0 0xFFFF (some 0)) else .err 0x31 0 0xFFFF (some 0), s)
    else
      let r := regReads a count s
      let bs := r.1.flatMap (toLE 4)
      if c.sg then (.data bs (.ok 0), r.2) else (.ok (leNat bs), r.2)

end Sys2Proof.Machine
end

