-- ==== Sys2Proof/Machine/Servo.lean ====
section
/-! DEFINITION. The colour servo: measuring strips, the update laws, commits, hold, and SERVO_SET
(spec/11_inspection_and_colour_servo.md R469 to R482, R486). -/

namespace Sys2Proof.Machine

/-! ### Where strips and columns lie in the picture (R473, R474) -/

/-- A column that a sensor measures: the column, its sensor, the pixel under its centre, and the half-window. -/
structure SeenCol where
  col : Col
  sensor : Nat
  pc : Nat
  h : Nat
  deriving DecidableEq, Repr
/-- The centre pixel and half-window of column k of bar b on a sensor, where the whole window exists. -/
def Core.onSensor (s : Core) (b k i : Nat) : Option (Nat × Nat) :=
  let pitch := s.rd CSVB_XMAP.PITCH_NM b; let sp := s.camField (0x44 + 16 * i) 4
  let x : Int := (mget 0 s.press.datum b : Nat) + s.rds CSVB_XMAP.XCAL b + (k * pitch / 1000 : Nat)
  let pc := (x - s.camField (0x48 + 16 * i) 4) * 1000 / sp
  let h : Nat := 7 * pitch / sp
  if sp ≠ 0 ∧ pc - h ≥ 0 ∧ pc + h < s.pixels i then some (pc.toNat, h) else none
/-- The measured columns of a bar: each on the lowest-numbered sensor that covers it. -/
def Core.seenCols (s : Core) (b : Nat) : List SeenCol :=
  ((s.linksOf b).flatMap fun l => s.columns l).filterMap fun c =>
    (List.range s.sensors).findSome? fun i => (s.onSensor b c.k i).map fun p => ⟨c, i, p.1, p.2⟩
/-- The camera lines of a sensor that lie on job lines [lo, hi) of a strip and are not BAD. -/
def Core.stripCands (s : Core) (r : StripRec) (i lo hi : Nat) : List RingLine :=
  let v := s.camField (0x40 + 16 * i) 1
  s.cam.ring.filter fun l =>
    let d := s.camLine r.start l.pos - 64 * (r.first : Int)
    l.vc == v && !l.bad && decide (64 * (lo : Int) ≤ d ∧ d < 64 * (hi : Int))
/-- Those with no word that comes back poisoned (R522). -/
def Core.stripLines (s : Core) (m : Dram) (r : StripRec) (i lo hi : Nat) : List RingLine :=
  (s.stripCands r i lo hi).filter fun l => !s.bad m l.addr (3 * s.pixels i)
/-- The layout of a strip's set: WHITE, ROW, PATCH, GUARD. -/
def JobSet.layout (s : JobSet) : Nat × Nat × Nat × Nat :=
  let w := s.strip.getD 2 0
  (bits w 7 0, bits w 15 8, bits w 23 16, bits w 31 24)
/-- The camera channel of a strip's set (CSV_b_SEQ.CHAN). -/
def JobSet.chan (s : JobSet) : Nat := bits (s.strip.getD 3 0) 21 20
/-- The 8-bit value of a pixel of a stored line. -/
def camPixel (m : Dram) (ch : Nat) (l : RingLine) (p : Nat) : Nat := (m.get (l.addr + 3 * p + ch)).toNat
/-- The mean of a pixel over lines. -/
def meanAt (m : Dram) (ch : Nat) (ls : List RingLine) (p : Nat) : Nat :=
  ls.foldl (fun a l => a + camPixel m ch l p) 0 / max 1 ls.length
/-- The interior bands of a strip: the white band, then each patch or row. -/
def StripRec.bands (r : StripRec) : List (Nat × Nat) :=
  let (white, row, pat, g) := r.set.layout
  (g, white - g) :: if r.ladder then (List.range 16).map fun q => (white + q * row + g, white + (q + 1) * row - g)
    else (List.range 4).map fun q => (white + q * pat + g, white + (q + 1) * pat - g)

/-! ### Skips and hold (R475, R482) -/

/-- A skipped measurement. -/
def Core.noteSkip (s : Core) (b cause num : Nat) : Core :=
  (s.inc CSVB_SKIP.SKIPPED b).emitLim 0x0B08 b fun n => b + at_ 1 cause + at_ 2 (num % 65536) + at_ 4 n
/-- The cause for which a whole strip is skipped, apart from its camera lines: 0 for none. -/
def StripRec.cause (r : StripRec) : Nat :=
  if r.camera then 7 else if r.lost then 2 else if r.switched then 5 else if r.data then 6 else 0
/-- Cause 0x1: a patch, a row or the white band has no usable interior line. -/
def Core.noLines (s : Core) (m : Dram) (r : StripRec) (sensors : List Nat) : Bool :=
  sensors == [] || sensors.any fun i => r.bands.any fun p => s.stripLines m r i p.1 p.2 == []
/-- A whole strip is skipped. A bar that has skipped every strip since its last measured one for cause 2 or 7, 8 in a row, holds. -/
def Core.skipStrip (s : Core) (r : StripRec) (cause : Nat) : Core :=
  let s := s.noteSkip r.bar cause r.num
  let n := if cause = 2 ∨ cause = 7 then (mget (some 0) s.csv.skipRow r.bar).map (· + 1) else none
  let s := s.setCsv { s.csv with skipRow := mset (some 0) s.csv.skipRow r.bar n }
  if n.getD 0 ≥ 8 then s.enterHold r.bar else s
/-- The cause for which a head's measurement is skipped, 0 for none: a defect range over the strip's lines, or a commit
within them. -/
def Core.headCause (s : Core) (r : StripRec) (h : Nat) : Nat :=
  let w0 := posLine r.start + r.first
  let meets := fun (a b : Nat) => decide (lineDiff a (lineAdd w0 (r.len - 1 : Nat)) ≤ 0 ∧ lineDiff b (lineAdd w0 0) ≥ 0)
  let rec_ : Bool := match s.job? r.job with
    | some j => j.defects.any fun d => !d.perBar && d.unit == h && meets d.first d.last
    | none => false
  if rec_ || ((s.hf h).ranges.any fun e => e.2.job == r.job && meets e.2.first e.2.last) then 3
  else if r.heads.contains h then 4 else 0
/-- The heads of a bar that a strip measures, each skip noted. -/
def Core.goodHeads (s : Core) (r : StripRec) (hs : List Nat) : List Nat × Core :=
  hs.foldl (fun (acc : List Nat × Core) h =>
    let c := acc.2.headCause r h
    if c = 0 then (acc.1 ++ [h], acc.2) else (acc.1, acc.2.noteSkip r.bar c r.num)) ([], s)

/-! ### Staging (R480) -/

/-- Stage a head's update beside what is staged for it; in MEASURE an update is computed and not staged (R486). -/
def Core.stageServo (s : Core) (b h : Nat) (g : ServoStage → ServoStage) : Core :=
  if s.rd CSVB_MODE.MODE b < 2 then s
  else
    let old := (s.csv.stages.find? (·.head == h)).getD ⟨b, h, [], 0, false⟩
    s.setCsv { s.csv with stages := s.csv.stages.filter (·.head != h) ++ [g old] }
/-- Stage a head's new curve in its tone shadow, where it takes the place of one that has not committed. -/
def Core.stageCurve (s : Core) (b h : Nat) (curve : List Nat) : Core :=
  if s.rd CSVB_MODE.MODE b < 2 then s
  else
    let mine := fun (g : NozStage) => g.servo && g.head == h
    ((s.setCurve h 1 curve).setStages (mapIf mine (fun g => { g with curve := false }) s.press.stages)).stageServo b h
      fun g => { g with curve := true }

/-! ### The ladder law (R474, R476 to R478) -/

/-- m of a column on its row. -/
def Core.ladderM (s : Core) (m : Dram) (r : StripRec) (c : SeenCol) : Nat :=
  let (white, row, _, g) := r.set.layout
  let q := c.col.k % 16; let ch := r.set.chan
  let ws := s.stripLines m r c.sensor g (white - g)
  let ls := s.stripLines m r c.sensor (white + q * row + g) (white + (q + 1) * row - g)
  let sum := (List.range (2 * c.h + 1)).foldl (fun a i =>
    let p := c.pc - c.h + i
    let w := meanAt m ch ws p
    ls.foldl (fun a l => a + (w - camPixel m ch l p) * 256) a) 0
  sum / max 1 ls.length
/-- The median of readings: of an even number, the mean of the middle two. -/
def medianN (l : List Nat) : Nat :=
  let l := l.mergeSort
  let n := l.length
  if n % 2 = 1 then l.getD (n / 2) 0 else (l.getD (n / 2 - 1) 0 + l.getD (n / 2) 0) / 2
/-- The key of a column's readings; a stitch pair's head B nozzle has one of its own. -/
def measKey (b k : Nat) (onB : Bool) : Nat := nozKey b k + if onB then 2 ^ 20 else 0
/-- Take a reading, keeping the last eight. -/
def Core.takeReading (s : Core) (key m : Nat) : Core :=
  s.setCsv { s.csv with meas := mput key (m :: (mget [] s.csv.meas key).take 7) s.csv.meas }
/-- mv of a column: its last AVG readings. -/
def Core.meanReading (s : Core) (b key : Nat) : Nat :=
  let l := (mget [] s.csv.meas key).take (s.rd CSVB_NOZ_LAW.AVG b)
  l.foldl (· + ·) 0 / max 1 l.length
/-- The gain step of one column toward its target: the new gain, and whether it is held at a limit short of the target. -/
def gainStep (s : Core) (b gain ref mv : Nat) : Nat × Bool :=
  let gs : Int := if mv = 0 then ((Config.freeServo s.free).toNat : Int) else ((1024 * ref + mv / 2) / mv : Nat)
  let n : Int := s.rd CSVB_NOZ_LAW.NSTEP b
  let d := clampI (-n) n (sar ((gs - gain) * (s.rd CSVB_NOZ_LAW.KN b : Int)) 8)
  let lo : Int := s.rd CSVB_GLIM.GMIN b; let hi : Int := s.rd CSVB_GLIM.GMAX b
  let g := clampI lo hi ((gain : Int) + d)
  (g.toNat, decide ((g = lo ∧ gs < lo) ∨ (g = hi ∧ gs > hi)))
/-- One column of a head under the ladder law: its changed entry if any, whether it qualifies as dead, and the state. -/
def Core.ladderCol (s : Core) (b h ref : Nat) (k mv : Nat) : Option (Nat × Nat) × Bool × Core :=
  let key := nozKey b k
  if mv < ref * s.rd CSVB_DEAD.FRAC b / 256 then
    let n := mget 0 s.csv.deadRun key + 1
    (none, decide (n ≥ s.rd CSVB_DEAD.N b), s.setCsv { s.csv with deadRun := mset 0 s.csv.deadRun key n })
  else
    let s := s.setCsv { s.csv with deadRun := mset 0 s.csv.deadRun key 0 }
    if absN ((mv : Int) - ref) > ref * s.rd CSVB_NOZ_LAW.DB b / 256 then
      let e := s.noz b k
      let (g, limit) := gainStep s b (nozGain e) ref mv
      let s := if mv = 0 then s.tickFree else s
      let s := if limit then s.emitLim 0x0B05 h fun _ => h + at_ 4 k else s
      (if g = nozGain e then none else some (key, nozWithGain e g), false, s)
    else (none, false, s)
/-- The ladder law on one head, whose measured single columns are `cols`. -/
def Core.ladderHead (s : Core) (b h ref : Nat) (cols : List SeenCol) : Core :=
  let (es, dead, s) := cols.foldl (fun (acc : List (Nat × Nat) × List Nat × Core) c =>
    let (e, d, s) := acc.2.2.ladderCol b h ref c.col.k (acc.2.2.meanReading b (measKey b c.col.k false))
    (acc.1 ++ e.toList, (if d then acc.2.1 ++ [c.col.k] else acc.2.1), s)) ([], [], s)
  let storm := dead.length > s.rd CSVB_DEAD.MAX b
  let s := if storm then
      (s.setCsv { s.csv with deadRun := dead.foldl (fun m k => mset 0 m (nozKey b k) 0) s.csv.deadRun }).emit 0x0B04
        (b + at_ 1 h + at_ 2 dead.length)
    else s
  let dead := if storm then [] else dead
  let es := es ++ dead.map fun k => (nozKey b k, s.noz b k ||| 2 ^ 44)
  if es = [] then s else s.stageServo b h fun g => { g with entries := es, dead := dead.length }
/-- A stitch pair's nozzle against its head's reference (R477). -/
def Core.pairCheck (s : Core) (b h ref k m : Nat) (onB : Bool) : Core :=
  let key := measKey b k onB
  if m < s.rd CSVB_DEAD.FRAC b * ref / 256 then
    let n := mget 0 s.csv.pairRun key + 1
    let s := s.setCsv { s.csv with pairRun := mset 0 s.csv.pairRun key n }
    if n = s.rd CSVB_DEAD.N b then s.emit 0x0B07 (h + at_ 4 k) else s
  else s.setCsv { s.csv with pairRun := mset 0 s.csv.pairRun key 0 }
/-- Measure a ladder strip on the heads that are not skipped. -/
def Core.measureLadder (s : Core) (m : Dram) (r : StripRec) (heads : List Nat) (cols : List SeenCol) : Core :=
  let b := r.bar
  let onB := r.num % 2 == 1
  let headOf := fun (c : SeenCol) => match c.col.hB with
    | some (g, _) => if onB then g else c.col.hA
    | none => c.col.hA
  let fires := cols.filter fun c => !nozOffline (s.noz b c.col.k) && heads.contains (headOf c)
  let reads := fires.map fun c => (c, s.ladderM m r c)
  let s := reads.foldl (fun s p => s.takeReading (measKey b p.1.col.k (p.1.col.hB.isSome && onB)) p.2) s
  heads.foldl (fun s h =>
    let mine := reads.filter fun p => headOf p.1 == h
    let singles := mine.filter fun p => p.1.col.hB.isNone
    let ref := medianN (singles.map (·.2))
    let s := if singles = [] then s
      else (mine.filter fun p => p.1.col.hB.isSome).foldl (fun s p => s.pairCheck b h ref p.1.col.k p.2 onB) s
    if s.rd CSVB_MODE.MODE b ≠ 2 ∧ singles.length ≥ 64 then s.ladderHead b h ref (singles.map (·.1)) else s) s

/-! ### The tone law (R474, R479) -/

/-- The mean over pixels and lines. -/
def meanOver (m : Dram) (ch : Nat) (pl : List (Nat × List RingLine)) : Nat :=
  let n := pl.foldl (fun a p => a + p.2.length) 0
  pl.foldl (fun a p => p.2.foldl (fun a l => a + camPixel m ch l p.1) a) 0 / max 1 n
/-- a of one patch of a head (R474): it is negative where the patch is lighter than the white band, and the division is C's as in
R479 (DEDUCED: log entry 174). -/
def absorptance (free wm vm : Nat) : Int :=
  if wm = 0 then (Config.freeServo free).toNat else min 4095 ((((wm : Int) - vm) * 4096).tdiv wm)
/-- The interior pixels of a head: those of its single columns apart from 64 at each end, by sensor. -/
def Core.toneCols (s : Core) (h : Nat) (cols : List SeenCol) : List SeenCol :=
  let base := s.rd HDC_GEO_BASE.BASE h
  cols.filter fun c => c.col.hA == h && c.col.hB.isNone &&
    decide (base + 64 ≤ c.col.k ∧ c.col.k + 64 < base + s.nozzles h)
/-- The change of curve entry i from the knots (R479). -/
def knotStep (knots : List (Nat × Int)) (i : Nat) : Int :=
  match (knots.zip (knots.drop 1)).find? fun p => decide (p.1.1 ≤ i ∧ i ≤ p.2.1 ∧ p.1.1 < p.2.1) with
  | some ((xa, da), (xb, db)) => da + ((db - da) * ((i : Int) - xa)).tdiv ((xb : Int) - xa)
  | none => 0
/-- The tone law on one head, from its four absorptances. -/
def Core.toneHead (s : Core) (b h : Nat) (set : JobSet) (a : List Int) : Core :=
  let aim := [s.rd CSVB_AIM_A.AIM1 b, s.rd CSVB_AIM_A.AIM2 b, s.rd CSVB_AIM_B.AIM3 b, s.rd CSVB_AIM_B.AIM4 b]
  let kt : Int := s.rd CSVB_TONE_LAW.KT b; let step : Int := s.rd CSVB_TONE_LAW.TSTEP b; let db := s.rd CSVB_TONE_LAW.TDB b
  let raw := (List.range 4).map fun q =>
    let e : Int := (aim.getD q 0 : Int) - a.getD q 0
    if absN e ≤ db then 0 else sar (e * kt) 8
  let d := raw.map (clampI (-step) step)
  let cut := (List.range 4).filter fun q => raw.getD q 0 != d.getD q 0
  let s := cut.foldl (fun s q => s.emitLim 0x0B06 h fun _ => h + at_ 1 q) s
  let c := fun (q : Nat) => bits (set.strip.getD 4 0) (8 * q + 7) (8 * q)
  let knots := (0, 0) :: (List.range 4).map (fun q => (c q, d.getD q 0)) ++ [(255, d.getD 3 0)]
  let curve := (List.range 256).map fun i => (clampI 0 4095 ((s.tone h 0 i : Int) + knotStep knots i)).toNat
  s.stageCurve b h curve
/-- Measure a tone strip. -/
def Core.measureTone (s : Core) (m : Dram) (r : StripRec) (heads : List Nat) (cols : List SeenCol) : Core :=
  let b := r.bar; let ch := r.set.chan
  heads.foldl (fun s h =>
    let mine := s.toneCols h cols
    if mine = [] then s
    else
      let px := (mine.map fun c => (c.sensor, c.pc)).eraseDups
      let band := fun (p : Nat × Nat) => px.map fun c => (c.2, s.stripLines m r c.1 p.1 p.2)
      let wm := meanOver m ch (band (r.bands.headD (0, 0)))
      let a := (r.bands.drop 1).map fun p => absorptance s.free wm (meanOver m ch (band p))
      (s.toneHead b h r.set a).tickFree) s

/-! ### The servo's work in a chirp (R475, R476, R482, R509) -/

/-- The camera lines that a strip's measurement reads, each with its length. -/
def Core.servoReads (s : Core) (r : StripRec) (sensors : List Nat) : List (RingLine × Nat) :=
  sensors.flatMap fun i => r.bands.flatMap fun p => (s.stripCands r i p.1 p.2).map fun l => (l, 3 * s.pixels i)
/-- The sensors that cover a bar's columns. -/
def Core.servoSensors (s : Core) (b : Nat) : List Nat := ((s.seenCols b).map (·.sensor)).eraseDups
/-- Does a strip's measurement wait for a channel that retrains (R530)? -/
def Core.stripWaits (s : Core) (r : StripRec) : Bool :=
  (s.servoReads r (s.servoSensors r.bar)).any fun p => s.stalls p.1.addr p.2
/-- Measure one strip that has passed the camera; its lines are read at class 3 (R57). -/
def Core.measureStrip (s : Core) (m : Dram) (r : StripRec) : Core :=
  let b := r.bar
  let sensors := s.servoSensors b
  let s := (s.servoReads r sensors).foldl (fun s p => s.reads m 3 p.1.addr p.2) s
  if s.noLines m r sensors then s.skipStrip r 1
  else
    let s := s.wrs [(CSVB_LAST.STRIP, r.num), (CSVB_LAST.KIND, b2n r.ladder)] b
    let s := s.setCsv { s.csv with skipRow := mset (some 0) s.csv.skipRow b (some 0) }
    let s := if s.rdb CSVB_MODE.HOLD b then (s.wr CSVB_MODE.HOLD 0 b).emit 0x0B02 b else s
    let (heads, s) := s.goodHeads r (s.headsOfBar b)
    if r.ladder then s.measureLadder m r heads (s.seenCols b) else s.measureTone m r heads (s.seenCols b)
/-- Has a strip passed the camera, with no line of it still on its way? -/
def Core.stripPassed (s : Core) (r : StripRec) : Bool :=
  let end_ : Int := 64 * ((r.first + r.len : Nat) : Int)
  decide (s.camLine r.start s.phi ≥ end_) &&
    s.cam.fifo.all (fun t => decide (s.camLine r.start t.pos ≥ end_)) &&
    s.cam.slots.all (fun l => decide (s.camLine r.start l.pos ≥ end_))
/-- A strip that has passed the camera: it is skipped, it is measured, or it waits: for the camera to run again (DEDUCED: log entry
176), for a channel that retrains, or, where no headroom admits the update, for the bar's next strip (R509). `fresh` are the bars
that have a strip which no update has been postponed for. -/
def Core.passStrip (m : Dram) (admitted : Bool) (fresh : List Nat) (s : Core) (r : StripRec) : Core :=
  let keep := fun (s : Core) (r : StripRec) => s.setCsv { s.csv with strips := s.csv.strips ++ [r] }
  if s.rd CSVB_MODE.MODE r.bar = 0 then s
  else if r.cause ≠ 0 then s.skipStrip r r.cause
  else if s.camState ≠ 5 ∨ !fresh.contains r.bar ∨ s.stripWaits r then keep s r
  else if admitted then s.measureStrip m r
  else keep (if r.postponed then s else s.deferWork 4) { r with postponed := true }
/-- The servo step. -/
def Core.servoStep (s : Core) (m : Dram) (admitted : Bool) : Core :=
  let s := s.markCamera
  let ready := s.csv.strips.filter s.stripPassed
  let fresh := (ready.filter fun r => !r.postponed && r.cause == 0).map (·.bar)
  let s := s.setCsv { s.csv with strips := s.csv.strips.filter fun r => !s.stripPassed r }
  ready.foldl (Core.passStrip m admitted fresh) s

/-! ### Commit and SERVO_SET (R480, R486) -/

/-- Is the next line a link screens its bar's commit boundary? For a job with REPEAT 0 any line is. -/
def Core.atCommit (s : Core) (b l : Nat) : Bool :=
  match s.nextLine b (s.scr l).nextW with
  | none => false
  | some (_, _, jb, line) =>
    match jb.set with
    | none => false
    | some js =>
      let rep := bits (js.strip.getD 0 0) 23 0; let start := bits (js.strip.getD 1 0) 23 0
      let (slT, slL) := stripLens js
      let (tones, ladders) := seqUses js
      let first := start + max (if tones then slT else 0) (if ladders then slL else 0)
      rep == 0 || decide (first ≤ line ∧ (line - first) % rep = 0)
/-- SERVO_COMMIT: the links of a bar that stand at its commit boundary take over its staged heads, in ascending order; on each link
they commit one at a line (R315). -/
def doServoCommit (b : Nat) (s : Core) : Core :=
  if s.rd CSVB_MODE.MODE b < 2 ∨ s.rdb CSVB_MODE.HOLD b then s
  else
    let due := fun (g : ServoStage) => g.bar == b && s.atCommit b (g.head / 8)
    let mine := (s.headsOfBar b).filterMap fun h => s.csv.stages.find? fun g => due g && g.head == h
    let s' := s.setCsv { s.csv with stages := s.csv.stages.filter (!due ·) }
    s'.setStages (s.press.stages ++ mine.map fun g => (⟨g.head / 8, g.head, true, g.entries, none, g.curve, g.dead⟩ : NozStage))
/-- A bar's servo mode changes; while the camera is not RUNNING a bar that has a servo holds (R482). -/
def Core.setServo (s : Core) (b mode : Nat) : Core :=
  let old := s.rd CSVB_MODE.MODE b
  let s := s.wr CSVB_MODE.MODE mode b
  let s := if mode = 0 then s.wr CSVB_MODE.HOLD 0 b else s
  if mode = old then s
  else
    let s := if old ≥ 2 then s.dropServo b else s
    let s := if mode ≥ 2 then (s.headsOfBar b).foldl (fun s h => s.toneCopy h) s else s
    if mode ≠ 0 ∧ s.camState ≠ 5 then s.enterHold b else s
/-- SERVO_SET. -/
def servoSet (mask mode : Nat) (s : Core) : Reply × Core :=
  match s.namedBars mask with
  | none => (absent 0x10, s)
  | some bs => if mode > 3 then (badRange 0x11, s) else (.ok 0, bs.foldl (fun s b => s.setServo b mode) s)

end Sys2Proof.Machine
end

