-- ==== Sys2Proof/Machine/Command.lean ====
section
/-! DEFINITION. Commands: the checks every entry passes, the row of R183 of each opcode, and what is done with a command's
answer (spec/04_command_protocol.md R167 to R207). -/

namespace Sys2Proof.Machine

/-- A command: its row of R183 (opcode, privilege, the figures of PLEN, the largest DLEN where it names bulk data), its
header, an answer of check 6 of its own, whether its body checks reserved bytes itself, and its body. -/
structure Cmd where
  op : Nat
  call : Call
  body : Field → Reply × Field
  priv : Nat := 0
  plens : List Nat := [0]
  bulk : Option Nat := none
  lenBad : Option Reply := none
  ownRes : Bool := false
  known : Bool := true

/-! ### The checks of R179 -/

/-- BAD_LENGTH with a detail at an offset. -/
def badLength (detail off : Nat) (val : Option Nat) : Reply := .err 0x11 detail off (val.map (satU 32))
/-- Check 1: the header. -/
def headerCheck (c : Call) : Option Reply :=
  if c.tagRes ≠ 0 then some (badLength 1 0x02 none)
  else if c.flagRes ≠ 0 then some (badLength 1 0x04 none)
  else if c.plen.toNat > 48 then some (badLength 2 0x05 none)
  else if c.sg ≠ (c.sgCount ≠ 0) then some (badLength 3 0x06 none)
  else if !c.sg ∧ c.sglAddr ≠ 0 then some (badLength 1 0x08 none)
  else none
/-- Does a queue accept an opcode (R174)? FSP has no queues. -/
def queueTakes (c : Call) (op : Nat) : Bool :=
  if c.src = .fsp then true
  else if c.q = 0 then op == 0 || (0x300 ≤ op && op ≤ 0x302)
  else if c.q = 1 then true
  else !(0x300 ≤ op && op ≤ 0x3FF)
/-- Check 4: does the field state permit the opcode (R120, R121, R188, R232)? -/
def stateTakes (st op : Nat) : Bool :=
  if st = 7 then true
  else if st = 8 then op ≤ 3 || op == 0xF0 || (0x100 ≤ op && op ≤ 0x103) || op == 0x800 || op == 0x206
  else if st = 0xF then op ≤ 3 || op == 0xF0 || op == 0x800
  else op ≤ 3
/-- The privilege an opcode needs: its own; over FSP SERVICE for all but NOP, IDENTIFY and AUTH (R205); in BOOT_FAIL SERVICE
for FW_STAGE (R120). -/
def Cmd.need (k : Cmd) (st : Nat) : Nat :=
  if k.call.src = .fsp ∧ k.op ≠ 0 ∧ k.op ≠ 1 ∧ k.op ≠ 0xF0 then 3
  else if st = 0xF ∧ k.op = 0x800 then 3 else k.priv
/-- Check 6: PLEN, SG_COUNT and DLEN. -/
def Cmd.lengthCheck (k : Cmd) : Option Reply :=
  let c := k.call
  if !k.plens.contains c.plen.toNat then some (badLength 2 0x05 none)
  else match k.lenBad with
  | some r => some r
  | none =>
    match k.bulk with
    | none => if c.sg then some (badLength 3 0x06 none) else none
    | some limit =>
      if !c.sg then some (badLength 3 0x06 none)
      else if c.sgCount.toNat > 4096 then some (badLength 3 0x06 none)
      else if dlenOf c > limit then some (badLength 4 0xFFFF (some limit)) else none
/-- Check 7 as far as it is common: the scatter list's elements and the reserved parameter bytes. -/
def Cmd.paramCheck (k : Cmd) : Option Reply :=
  let c := k.call
  if c.sg && (c.sglAddr.toNat % 16 != 0 || c.bulk.sgl.any fun e => e.len == 0 || e.res != 0) then
    some (.err 0x12 0x0009 0x08 none)
  else match c.resOff with
  | some off => if k.ownRes then none else some (.err 0x12 0x0008 off.val none)
  | none => none
/-- Checks 1 to 7 but for what the opcode checks itself; the first that fails answers. `dup`: the tag is in flight. -/
def Cmd.check (k : Cmd) (dup : Bool) (s : Core) : Option Reply :=
  (headerCheck k.call).orElse fun _ =>
  if dup then some (.err 0xFE 0x0006 0x02 none)
  else if !k.known then some (.err 0x10 0 0x00 none)
  else if !queueTakes k.call k.op then some (.err 0x10 0x0005 0x00 none)
  else if !stateTakes s.bootState k.op then some (wrongState 0x0011)
  else if s.priv k.call.src < k.need s.bootState then some (.err 0x13 0 0xFFFF none)
  else if k.call.src = .fsp ∧ k.call.sg then some (badRange 0x04)
  else k.lengthCheck.orElse fun _ => k.paramCheck

/-! ### System commands and AUTH (R184 to R188, R194 to R197) -/

/-- IDENTIFY. -/
def identifyBody (src : Src) (s : Core) : Reply × Core :=
  (.ok (s.fieldReport + at_ 14 (s.priv src) + at_ 15 (s.regWord CMDQ_CFG.MODE.base % 256)), s)
/-- QUEUE_CONFIG. CMDQ_INFLIGHT.TOTAL counts the command itself where it came by a ring (R175, R185). -/
def queueConfigBody (c : Call) (mode live : Nat) (s : Core) : Reply × Core :=
  let own := if c.src = .host then 1 else 0
  if mode > 1 then (badRange 0x10, s)
  else if live > 1 then (badRange 0x11, s)
  else if s.rd CMDQ_INFLIGHT.TOTAL > own ∨ (c.src = .host ∧ s.cmdq.open_.any (·.src == .fsp)) then (busy 0x001D, s)
  else (.ok 0, s.wrs [(CMDQ_CFG.MODE, mode), (CMDQ_CFG.LIVE_SERVICE, live)])
/-- FIELD_RESET: the reset comes 10 ms later. -/
def fieldResetBody (s : Core) : Reply × Core := (.ok 0, { s with resetPending := true })
/-- The AUTH state of a source. -/
def Core.auth (s : Core) (src : Src) : AuthSt := if src = .host then s.cmdq.authHost else s.cmdq.authFsp
/-- Set it. -/
def Core.setAuth (s : Core) (src : Src) (a : AuthSt) : Core :=
  { s with cmdq := if src = .host then { s.cmdq with authHost := a } else { s.cmdq with authFsp := a } }
/-- The source byte of R195. -/
def srcByte : Src → Nat
  | .host => 0
  | .fsp => 1
/-- A privilege changes by AUTH: PRIV_CHANGED. -/
def Core.grant (s : Core) (src : Src) (level : Nat) : Core := (s.setPriv src level).emit 0x0104 (srcByte src + at_ 1 level)
/-- The levels a CHALLENGE or RESPOND may name (R194, R197). -/
def levelOk (src : Src) (level : Nat) : Bool := if src = .fsp then level == 3 else 1 ≤ level && level ≤ 3
/-- CHALLENGE. -/
def challengeBody (src : Src) (level : Nat) (s : Core) : Reply × Core :=
  if !levelOk src level then (badRange 0x11, s)
  else if s.etime < (s.auth src).lockUntil then (busy 0x0018, s)
  else
    let n := (Config.freeNonce s.free).toNat
    (.ok n, (s.tickFree).setAuth src { s.auth src with nonce := some (n, level, s.etime) })
/-- The MAC of R195. -/
def authMac (src : Src) (level nonce : Nat) : Bytes :=
  hmac (keyBytes (Config.authKey (Fin.ofNat 4 level)))
    (toLE 16 nonce ++ toLE 1 level ++ toLE 8 Config.serial.toNat ++ toLE 1 (srcByte src))
/-- RESPOND. -/
def respondBody (src : Src) (tag level : Nat) (mac : Bytes) (s : Core) : Reply × Core :=
  if !levelOk src level then (badRange 0x11, s)
  else
    let a := s.auth src
    match a.nonce with
    | none => (.err 0x13 0x0016 0xFFFF none, s)
    | some (n, l, t) =>
      if l ≠ level ∨ s.etime > t + 10000000000 then (.err 0x13 0x0016 0xFFFF none, s)
      else if mac = authMac src level n then
        (.ok 0, (s.setAuth src { a with nonce := none, misses := 0 }).grant src level)
      else
        let lock := a.misses + 1 ≥ 5
        let s := s.setAuth src { nonce := none, misses := if lock then 0 else a.misses + 1,
                                 lockUntil := if lock then s.etime + 60000000000 else a.lockUntil }
        (.err 0x13 0x0017 0xFFFF none,
          (s.inc CMDQ_AUTH_FAIL_CNT.COUNT).emit 0x0103 (srcByte src + at_ 1 level) tag)
/-- DROP. FSP holds NONE or SERVICE (R193): a DROP to a level between leaves it at NONE. -/
def dropBody (src : Src) (level : Nat) (s : Core) : Reply × Core :=
  if level > s.priv src then (badRange 0x11, s)
  else (.ok 0, s.grant src (if src = .fsp ∧ level < 3 then 0 else level))

/-! ### The rows of R183 -/

/-- NOP. -/
def cmdNop (c : Call) : Cmd := { op := 0x0000, call := c, body := liftBody fun s => (.ok 0, s) }
/-- IDENTIFY. -/
def cmdIdentify (c : Call) : Cmd := { op := 0x0001, call := c, body := liftBody (identifyBody c.src) }
/-- QUEUE_CONFIG. -/
def cmdQueueConfig (c : Call) (mode live : Nat) : Cmd :=
  { op := 0x0002, call := c, priv := 2, plens := [4], body := liftBody (queueConfigBody c mode live) }
/-- FIELD_RESET. -/
def cmdFieldReset (c : Call) : Cmd := { op := 0x0003, call := c, priv := 3, body := liftBody fieldResetBody }
/-- AUTH CHALLENGE. -/
def cmdChallenge (c : Call) (level : Nat) : Cmd :=
  { op := 0x00F0, call := c, plens := [4], body := liftBody (challengeBody c.src level) }
/-- AUTH RESPOND. -/
def cmdRespond (c : Call) (level : Nat) (mac : Bytes) : Cmd :=
  { op := 0x00F0, call := c, plens := [36], body := liftBody (respondBody c.src c.tag.toNat level mac) }
/-- AUTH DROP. -/
def cmdDrop (c : Call) (level : Nat) : Cmd :=
  { op := 0x00F0, call := c, plens := [4], body := liftBody (dropBody c.src level) }
/-- AUTH with another SUBOP. -/
def cmdAuthOther (c : Call) : Cmd :=
  { op := 0x00F0, call := c, plens := [c.plen.toNat], ownRes := true, body := fun f => (badRange 0x10, f) }
/-- REG_READ. -/
def cmdRegRead (c : Call) (a : Nat) : Cmd :=
  { op := 0x0100, call := c, plens := [4], body := liftBody (regReadCmd c 0x0100 a) }
/-- REG_WRITE. -/
def cmdRegWrite (c : Call) (a v : Nat) : Cmd :=
  { op := 0x0101, call := c, plens := [8], body := liftBody (regWriteCmd c 0x0101 a v) }
/-- REG_RMW. -/
def cmdRegRmw (c : Call) (a mask v : Nat) : Cmd :=
  { op := 0x0102, call := c, plens := [12], body := liftBody (regRmwCmd c 0x0102 a mask v) }
/-- REG_READ_BLOCK (R191). -/
def cmdRegReadBlock (c : Call) (a count : Nat) : Cmd :=
  { op := 0x0103, call := c, plens := [8], bulk := if c.sg then some 16384 else none
    lenBad :=
      if c.sg then
        if c.sgCount.toNat ≤ 4096 ∧ (count = 0 ∨ count > 4096 ∨ dlenOf c ≠ 4 * count) then some (badLength 4 0xFFFF (some 16384)) else none
      else if count = 0 ∨ count > 4 then some (badLength 0 0x14 none) else none
    body := liftBody (regBlockCmd c 0x0103 a count) }
/-- JOB_DEFINE. -/
def cmdJobDefine (c : Call) (id : Nat) : Cmd :=
  { op := 0x0200, call := c, priv := 1, plens := [4], bulk := some 65536, body := liftBody (jobDefine c id) }
/-- JOB_LOAD_DATA; BAR 0xFF names the ring (R255). -/
def cmdJobLoadData (c : Call) (id bar offset : Nat) : Cmd :=
  { op := 0x0201, call := c, priv := 1, plens := [16], bulk := some 268435456
    body := if bar = 0xFF then ringAppend c id offset else loadData c id bar offset }
/-- JOB_STREAM_OPEN. -/
def cmdJobStreamOpen (c : Call) (id mask ringBytes : Nat) : Cmd :=
  { op := 0x0202, call := c, priv := 1, plens := [12], body := liftBody (streamOpen id mask ringBytes) }
/-- JOB_ARM. -/
def cmdJobArm (c : Call) (id : Nat) : Cmd := { op := 0x0203, call := c, priv := 1, plens := [4], body := liftBody (jobArm id) }
/-- JOB_SWITCH_AT. -/
def cmdJobSwitchAt (c : Call) (src dst pos : Nat) : Cmd :=
  { op := 0x0204, call := c, priv := 1, plens := [16], body := liftBody (jobSwitchAt c src dst pos) }
/-- JOB_ABORT. -/
def cmdJobAbort (c : Call) (id mode : Nat) : Cmd :=
  { op := 0x0205, call := c, priv := 1, plens := [8], body := liftBody (jobAbort id mode) }
/-- JOB_STATUS. -/
def cmdJobStatus (c : Call) (id : Nat) : Cmd :=
  { op := 0x0206, call := c, priv := 1, plens := [4], body := liftBody (jobStatus id) }
/-- FIRE_ENABLE. -/
def cmdFireEnable (c : Call) (mask enable : Nat) : Cmd :=
  { op := 0x0300, call := c, priv := 1, plens := [4], body := liftBody (fireEnable mask enable) }
/-- STOP_FIRE. -/
def cmdStopFire (c : Call) (mask : Nat) : Cmd :=
  { op := 0x0301, call := c, priv := 1, plens := [4], body := liftBody (stopFire mask) }
/-- FIRE_INHIBIT_HEAD. -/
def cmdFireInhibitHead (c : Call) (h inh : Nat) : Cmd :=
  { op := 0x0302, call := c, priv := 1, plens := [4], body := liftBody (fireInhibitHead h inh) }
/-- PRESS_LOAD. -/
def cmdPressLoad (c : Call) : Cmd :=
  { op := 0x0400, call := c, priv := 2, bulk := some 1048576, body := liftBody (pressLoad c) }
/-- GEO_SET. -/
def cmdGeoSet (c : Call) (h off step skew : Nat) : Cmd :=
  { op := 0x0401, call := c, priv := 2, plens := [16], body := liftBody (geoSet h off step skew) }
/-- NOZZLE_MAP_LOAD: DLEN is 8 × COUNT. A COUNT out of range fails check 7, as R199 has it. -/
def cmdNozzleMapLoad (c : Call) (b firstK count : Nat) : Cmd :=
  { op := 0x0402, call := c, priv := 2, plens := [12], bulk := some (8 * count)
    lenBad := if c.sg && c.sgCount.toNat ≤ 4096 && dlenOf c != 8 * count then some (badLength 4 0xFFFF (some (8 * count))) else none
    body := liftBody (nozzleMapLoad c b firstK count) }
/-- CMP_APPEND: COUNT agrees with PLEN and the data (R368). -/
def cmdCmpAppend (c : Call) (count : Nat) (inline : Bytes) : Cmd :=
  { op := 0x0500, call := c, priv := 1, plens := [16, 32, 48], bulk := if c.plen = 16 then some 65536 else none
    lenBad :=
      if c.plen = 16 then
        if c.sg && c.sgCount.toNat ≤ 4096 && (count == 0 || decide (count > 4096) || dlenOf c != 16 * count) then
          some (badLength 4 0xFFFF (some 65536)) else none
      else if 16 * count + 16 ≠ c.plen.toNat then some (badLength 0 0x10 none) else none
    body := liftBody (cmpAppend c count inline) }
/-- CMP_CLEAR. -/
def cmdCmpClear (c : Call) (mask : Nat) : Cmd :=
  { op := 0x0501, call := c, priv := 1, plens := [4], body := liftBody (cmpClear mask) }
/-- POS_ARM_INDEX. -/
def cmdPosArmIndex (c : Call) (ch mode preset : Nat) : Cmd :=
  { op := 0x0502, call := c, priv := 2, plens := [12], body := liftBody (posArmIndex ch mode preset) }
/-- CAM_START. -/
def cmdCamStart (c : Call) : Cmd := { op := 0x0600, call := c, priv := 2, body := liftBody (camStart c) }
/-- CAM_STOP. -/
def cmdCamStop (c : Call) : Cmd := { op := 0x0601, call := c, priv := 2, body := liftBody camStop }
/-- SERVO_SET. -/
def cmdServoSet (c : Call) (mask mode : Nat) : Cmd :=
  { op := 0x0602, call := c, priv := 1, plens := [4], body := liftBody (servoSet mask mode) }
/-- CAM_REINIT. -/
def cmdCamReinit (c : Call) : Cmd := { op := 0x0603, call := c, priv := 2, body := liftBody (camReinit c) }
/-- THERM_SET. -/
def cmdThermSet (c : Call) (n warn thr trip : Nat) : Cmd :=
  { op := 0x0700, call := c, priv := 2, plens := [8], body := liftBody (thermSet n warn thr trip) }
/-- POWER_BUDGET. -/
def cmdPowerBudget (c : Call) (w : Nat) : Cmd :=
  { op := 0x0701, call := c, priv := 2, plens := [4], body := liftBody (powerBudget w) }
/-- FW_STAGE: at least 257 bytes (R235). -/
def cmdFwStage (c : Call) (core slot : Nat) : Cmd :=
  { op := 0x0800, call := c, priv := 2, plens := [4], bulk := some 16777216
    lenBad := if c.sg && c.sgCount.toNat ≤ 4096 && decide (dlenOf c < 257) then some (badLength 4 0xFFFF (some 16777216)) else none
    body := liftBody (fwStage c core slot) }
/-- MOLT. -/
def cmdMolt (c : Call) (flags : Nat) : Cmd :=
  { op := 0x0801, call := c, priv := 2, plens := [4], body := liftBody (molt c flags) }
/-- SWAP_DRILL. -/
def cmdSwapDrill (c : Call) : Cmd := { op := 0x0802, call := c, priv := 2, body := liftBody (swapDrill c) }
/-- RANK_RETIRE. -/
def cmdRankRetire (c : Call) (ch r : Nat) : Cmd :=
  { op := 0x0803, call := c, priv := 2, plens := [4], body := liftBody (rankRetire c ch r) }
/-- FIJ_SET: a reserved byte is refused after the ranges and before the capacity (R591). -/
def fijSetBody (c : Call) (target inst action rate count : Nat) (s : Core) : Reply × Core :=
  let r := fijSet target inst action rate count s
  match c.resOff, r.1 with
  | some off, .ok _ => (.err 0x12 0x0008 off.val none, s)
  | some off, .err 0x21 _ _ _ => (.err 0x12 0x0008 off.val none, s)
  | _, _ => r
/-- FIJ_SET. -/
def cmdFijSet (c : Call) (target inst action rate count : Nat) : Cmd :=
  { op := 0x0900, call := c, priv := 3, plens := [12], ownRes := true
    body := liftBody (fijSetBody c target inst action rate count) }
/-- FIJ_CLEAR. -/
def cmdFijClear (c : Call) : Cmd := { op := 0x0901, call := c, priv := 3, body := liftBody fijClear }
/-- LINK_REATTACH. -/
def cmdLinkReattach (c : Call) (l : Nat) : Cmd :=
  { op := 0x0902, call := c, priv := 2, plens := [4], body := liftBody (linkReattach c l) }
/-- DSP_CONFIG. -/
def cmdDspConfig (c : Call) (id width height mbps : Nat) (answer : Option Nat) : Cmd :=
  { op := 0x0A00, call := c, priv := 2, plens := [12], body := dspConfig c id width height mbps answer }
/-- DSP_COMMIT. -/
def cmdDspCommit (c : Call) (regions : Nat) : Cmd :=
  { op := 0x0A01, call := c, priv := 1, plens := [4], bulk := some 6912256, body := dspCommit c regions }
/-- An entry whose opcode is not defined. -/
def cmdUnknown (op : Nat) (c : Call) : Cmd := { op := op, call := c, known := false, body := fun f => (.ok 0, f) }

/-- The register at instance `n` of a field, as an access of a register command. -/
def cmdAccess (c : Call) (f : Fld) (n : Nat) (write : Option Word) : Cmd :=
  match write with
  | some v => cmdRegWrite c (f.addr n) v.toNat
  | none => cmdRegRead c (f.addr n)

/-- The command that a row is, its call changed by `g`: none for a row that is no command. -/
def cmdOf (g : Call → Call) : Instr → Option Cmd
  | .nop c => some (cmdNop (g c))
  | .identify c => some (cmdIdentify (g c))
  | .queueConfig c m l => some (cmdQueueConfig (g c) m.toNat l.toNat)
  | .fieldReset c => some (cmdFieldReset (g c))
  | .authChallenge c l => some (cmdChallenge (g c) l.toNat)
  | .authRespond c l m => some (cmdRespond (g c) l.toNat (toBE 32 m.toNat))
  | .authDrop c l => some (cmdDrop (g c) l.toNat)
  | .regRead c a => some (cmdRegRead (g c) a.toNat)
  | .regWrite c a v => some (cmdRegWrite (g c) a.toNat v.toNat)
  | .regRmw c a m v => some (cmdRegRmw (g c) a.toNat m.toNat v.toNat)
  | .regReadBlock c a n => some (cmdRegReadBlock (g c) a.toNat n.toNat)
  | .jobDefine c i => some (cmdJobDefine (g c) i.toNat)
  | .jobLoadData c i b o => some (cmdJobLoadData (g c) i.toNat b.toNat o.toNat)
  | .jobRingAppend c i o => some (cmdJobLoadData (g c) i.toNat 0xFF o.toNat)
  | .jobStreamOpen c i m r => some (cmdJobStreamOpen (g c) i.toNat m.toNat r.toNat)
  | .jobArm c i => some (cmdJobArm (g c) i.toNat)
  | .jobSwitchAt c a b p => some (cmdJobSwitchAt (g c) a.toNat b.toNat p.toNat)
  | .jobAbort c i m => some (cmdJobAbort (g c) i.toNat m.toNat)
  | .jobStatus c i => some (cmdJobStatus (g c) i.toNat)
  | .fireEnable c m e => some (cmdFireEnable (g c) m.toNat e.toNat)
  | .stopFire c m => some (cmdStopFire (g c) m.toNat)
  | .fireInhibitHead c h i => some (cmdFireInhibitHead (g c) h.toNat i.toNat)
  | .pressLoad c => some (cmdPressLoad (g c))
  | .geoSet c h o st sk => some (cmdGeoSet (g c) h.toNat o.toNat st.toNat sk.toNat)
  | .nozzleMapLoad c b k n => some (cmdNozzleMapLoad (g c) b.toNat k.toNat n.toNat)
  | .cmpAppend c n d => some (cmdCmpAppend (g c) n.toNat d)
  | .cmpClear c m => some (cmdCmpClear (g c) m.toNat)
  | .posArmIndex c ch m p => some (cmdPosArmIndex (g c) ch.toNat m.toNat p.toNat)
  | .camStart c => some (cmdCamStart (g c))
  | .camStop c => some (cmdCamStop (g c))
  | .servoSet c b m => some (cmdServoSet (g c) b.toNat m.toNat)
  | .camReinit c => some (cmdCamReinit (g c))
  | .thermSet c n w t p => some (cmdThermSet (g c) n.toNat w.toNat t.toNat p.toNat)
  | .powerBudget c w => some (cmdPowerBudget (g c) w.toNat)
  | .fwStage c k sl => some (cmdFwStage (g c) k.toNat sl.toNat)
  | .molt c f => some (cmdMolt (g c) f.toNat)
  | .swapDrill c => some (cmdSwapDrill (g c))
  | .rankRetire c ch r => some (cmdRankRetire (g c) ch.toNat r.toNat)
  | .fijSet c t i a r n => some (cmdFijSet (g c) t.toNat i.toNat a.toNat r.toNat n.toNat)
  | .fijClear c => some (cmdFijClear (g c))
  | .linkReattach c l => some (cmdLinkReattach (g c) l.toNat)
  | .dspConfig c p w h m a => some (cmdDspConfig (g c) p.toNat w.toNat h.toNat m.toNat (a.map BitVec.toNat))
  | .dspCommit c r => some (cmdDspCommit (g c) r.toNat)
  | .sysLockSet c v => some (cmdAccess (g c) SYS_LOCK.CFG_LOCK 0 (some v))
  | .toneDataAccess c h w => some (cmdAccess (g c) HDC_TONE_DATA.VALUE h.val w)
  | .toneCtlCommit c h => some (cmdAccess (g c) HDC_TONE_CTL.COMMIT h.val (some 1))
  | .toneCtlCopy c h => some (cmdAccess (g c) HDC_TONE_CTL.COPY h.val (some 2))
  | .scrErrClr c b => some (cmdAccess (g c) SCR_CTL.ERR_CLR b.val (some 1))
  | .scrMaskDataAccess c w => some (cmdAccess (g c) SCR_MASK_DATA.DATA 0 w)
  | .nozzleWindowWrite c b k hi v =>
    some (cmdRegWrite (g c) (0x1000000 + 0x100000 * b.val + 8 * k.val + if hi then 4 else 0) v.toNat)
  | .latchedPairRead c a => some (cmdRegRead (g c) a.toNat)
  | .posTypeChange c ch v => some (cmdAccess (g c) POS_CFG.TYPE ch.val (some v))
  | .posWrapWrite c ch v => some (cmdAccess (g c) POS_WRAP.WRAP ch.val (some v))
  | .posIdxLoad c ch v => some (cmdAccess (g c) POS_IDX_CFG.LOAD ch.val (some v))
  | .posWebReturn c v => some (cmdAccess (g c) POS_WEB_CTL.RETURN 0 (some v))
  | .spgLpcWrite c hi v => some (cmdAccess (g c) (if hi then SPG_LPC_HI.LPC else SPG_LPC_LO.LPC) 0 (some v))
  | .hlkEnWrite c l v => some (cmdAccess (g c) HLK_CFG.EN l.val (some v))
  | .hlkLvlMapWrite c l v => some (cmdAccess (g c) HLK_LVL_MAP.W1 l.val (some v))
  | .camExpWrite c vc v => some (cmdAccess (g c) CAM_EXP.EXP vc.val (some v))
  | .ispTblDataAccess c vc w => some (cmdAccess (g c) ISP_TBL_DATA.DATA vc.val w)
  | .memRetrainWrite c ch v => some (cmdAccess (g c) MEMC_CTL.RETRAIN ch.val (some v))
  | .memRankClrWrite c v => some (cmdAccess (g c) MEM_CFG.RANK_CLR 0 (some v))
  | .thmExclWrite c v => some (cmdAccess (g c) THM_EXCL.TS 0 (some v))
  | .chirpPeriodWrite c v => some (cmdAccess (g c) TCK_CFG.CHIRP_US 0 (some v))
  | .logViolClr c => some (cmdAccess (g c) LOG_VIOL_CTL.CLR 0 (some 0x80000000))
  | .counterPeakClr c a v => some (cmdRegWrite (g c) a.toNat v.toNat)
  | .fijLiveOkWrite c v => some (cmdAccess (g c) FIJ_CFG.LIVE_OK 0 (some v))
  | .fieldRegisterWrite c a v => some (cmdRegWrite (g c) a.toNat v.toNat)
  | _ => none

/-! ### Entries (R167, R183) -/

/-- The reserved parameter bytes of an opcode, as entry offsets. -/
def reservedAt (op : Nat) : List Nat :=
  if op = 0x0002 ∨ op = 0x00F0 ∨ op = 0x0300 ∨ op = 0x0302 ∨ op = 0x0502 ∨ op = 0x0602 ∨ op = 0x0701 ∨ op = 0x0800 ∨ op = 0x0803
  then [0x12, 0x13]
  else if op = 0x0103 then [0x16, 0x17]
  else if op = 0x0201 ∨ op = 0x0202 ∨ op = 0x0205 then [0x15, 0x16, 0x17]
  else if op = 0x0301 ∨ op = 0x0402 ∨ op = 0x0501 ∨ op = 0x0801 ∨ op = 0x0902 ∨ op = 0x0A01 then [0x11, 0x12, 0x13]
  else if op = 0x0401 then [0x11, 0x12, 0x13, 0x1D, 0x1E, 0x1F]
  else if op = 0x0500 then (List.range 14).map (0x12 + ·)
  else if op = 0x0700 then [0x11]
  else if op = 0x0900 then [0x13]
  else if op = 0x0A00 then [0x13, 0x1A, 0x1B]
  else []
/-- The header of an entry. -/
def entryCall (src : Src) (q : Fin 4) (index : Nat) (e : Bytes) (bulk : Bulk) : Call where
  src := src
  q := q
  tag := BitVec.ofNat 10 (leAt e 2 2)
  index := BitVec.ofNat 12 index
  fence := bit (byteAt e 4) 0
  sg := bit (byteAt e 4) 1
  tagRes := BitVec.ofNat 6 (leAt e 2 2 / 1024)
  flagRes := BitVec.ofNat 6 (byteAt e 4 / 4)
  plen := BitVec.ofNat 8 (byteAt e 5)
  sgCount := BitVec.ofNat 16 (leAt e 6 2)
  sglAddr := BitVec.ofNat 64 (leAt e 8 8)
  resOff := ((reservedAt (leAt e 0 2)).find? fun o => byteAt e o != 0).map (Fin.ofNat 64 ·)
  bulk := bulk
/-- The row that an entry is, by its opcode and parameters; none where R183 defines no such opcode. `panel` is what a panel will
answer to its ID read. -/
def entryInstr (panel : Option (BitVec 24)) (c : Call) (e : Bytes) : Option Instr :=
  let op := leAt e 0 2
  let b := fun (o : Nat) => BitVec.ofNat 8 (byteAt e o)
  let w2 := fun (o : Nat) => BitVec.ofNat 16 (leAt e o 2)
  let w4 := fun (o : Nat) => BitVec.ofNat 32 (leAt e o 4)
  let w8 := fun (o : Nat) => BitVec.ofNat 64 (leAt e o 8)
  match op with
  | 0x0000 => some (.nop c)
  | 0x0001 => some (.identify c)
  | 0x0002 => some (.queueConfig c (b 0x10) (b 0x11))
  | 0x0003 => some (.fieldReset c)
  | 0x00F0 =>
    if byteAt e 0x10 = 0 then some (.authChallenge c (b 0x11))
    else if byteAt e 0x10 = 1 then some (.authRespond c (b 0x11) (BitVec.ofNat 256 (beNat ((e.drop 0x14).take 32))))
    else if byteAt e 0x10 = 2 then some (.authDrop c (b 0x11)) else none
  | 0x0100 => some (.regRead c (w4 0x10))
  | 0x0101 => some (.regWrite c (w4 0x10) (w4 0x14))
  | 0x0102 => some (.regRmw c (w4 0x10) (w4 0x14) (w4 0x18))
  | 0x0103 => some (.regReadBlock c (w4 0x10) (w2 0x14))
  | 0x0200 => some (.jobDefine c (w4 0x10))
  | 0x0201 => if byteAt e 0x14 = 0xFF then some (.jobRingAppend c (w4 0x10) (w8 0x18))
              else some (.jobLoadData c (w4 0x10) (b 0x14) (w8 0x18))
  | 0x0202 => some (.jobStreamOpen c (w4 0x10) (b 0x14) (w4 0x18))
  | 0x0203 => some (.jobArm c (w4 0x10))
  | 0x0204 => some (.jobSwitchAt c (w4 0x10) (w4 0x14) (w8 0x18))
  | 0x0205 => some (.jobAbort c (w4 0x10) (b 0x14))
  | 0x0206 => some (.jobStatus c (w4 0x10))
  | 0x0300 => some (.fireEnable c (b 0x10) (b 0x11))
  | 0x0301 => some (.stopFire c (b 0x10))
  | 0x0302 => some (.fireInhibitHead c (b 0x10) (b 0x11))
  | 0x0400 => some (.pressLoad c)
  | 0x0401 => some (.geoSet c (b 0x10) (w4 0x14) (w4 0x18) (b 0x1C))
  | 0x0402 => some (.nozzleMapLoad c (b 0x10) (w4 0x14) (w4 0x18))
  | 0x0500 => some (.cmpAppend c (w2 0x10) ((e.drop 0x20).take (16 * (byteAt e 5 / 16 - 1))))
  | 0x0501 => some (.cmpClear c (b 0x10))
  | 0x0502 => some (.posArmIndex c (b 0x10) (b 0x11) (w8 0x14))
  | 0x0600 => some (.camStart c)
  | 0x0601 => some (.camStop c)
  | 0x0602 => some (.servoSet c (b 0x10) (b 0x11))
  | 0x0603 => some (.camReinit c)
  | 0x0700 => some (.thermSet c (b 0x10) (w2 0x12) (w2 0x14) (w2 0x16))
  | 0x0701 => some (.powerBudget c (w2 0x10))
  | 0x0800 => some (.fwStage c (b 0x10) (b 0x11))
  | 0x0801 => some (.molt c (b 0x10))
  | 0x0802 => some (.swapDrill c)
  | 0x0803 => some (.rankRetire c (b 0x10) (b 0x11))
  | 0x0900 => some (.fijSet c (b 0x10) (b 0x11) (b 0x12) (w4 0x14) (w4 0x18))
  | 0x0901 => some (.fijClear c)
  | 0x0902 => some (.linkReattach c (b 0x10))
  | 0x0A00 => some (.dspConfig c (BitVec.ofNat 24 (leAt e 0x10 3)) (w2 0x14) (w2 0x16) (w2 0x18) panel)
  | 0x0A01 => some (.dspCommit c (b 0x10))
  | _ => none

/-! ### Running a command (R169, R175, R177, R178) -/

/-- A completion that the host has not received: it still counts as in flight (R175). -/
def Compl.asTrack (c : Compl) : List Track := if c.kind = 1 then [⟨c.q, c.tag, c.index, c.opcode⟩] else []
/-- The commands in flight. -/
def State.inFlight (s : State) : List Track :=
  s.host.lost ++ s.host.tracked ++ s.host.arrived.flatMap Compl.asTrack ++ s.host.answers.flatMap (·.2.asTrack) ++
    (s.host.retry.map Compl.asTrack).getD []
/-- CMDQ_INFLIGHT and CMDQ_INFLIGHT_q show what is in flight. -/
def State.syncInFlight (s : State) : State :=
  let l := s.inFlight
  s.onCore fun c =>
    (List.range 4).foldl (fun c q => c.wr CMDQ_INFLIGHT_Q.COUNT (l.countP (·.q == q)) q) (c.wr CMDQ_INFLIGHT.TOTAL l.length)
/-- The host address of byte `i` of a scatter list's data (R168). -/
def sgAddr : List SgElem → Nat → Nat
  | [], _ => 0
  | e :: es, i => if i < e.len.toNat then (e.addr.toNat + i) % 2 ^ 64 else sgAddr es (i - e.len.toNat)
/-- Bytes of bulk data from offset `off` on reach the host memory that a scatter list names (R169). -/
def HostSide.putData (h : HostSide) (sgl : List SgElem) (off : Nat) (bs : Bytes) : HostSide :=
  { h with dataMem := (bs.foldl (fun (p : Nat × SMap (Option Byte)) b => (p.1 + 1, mput (sgAddr sgl p.1) (some b) p.2))
      (off, h.dataMem)).2 }
/-- A command's data starts on its way to the host; the command completes once the last byte is written (R169). -/
def Core.sendData (s : Core) (r : CmdRef) (sgl : List SgElem) (bs : Bytes) (fail : Option Nat) (last : Reply) : Core :=
  let s := s.openCmd r
  s.setEly { s.ely with toHost := s.ely.toHost ++ [⟨s.ely.descNext, r, last, sgl, bs, 0, fail⟩], descNext := s.ely.descNext + 1 }
/-- What is done with a command's answer. `again` is the row to run once its data has landed. A host-memory access that failed
in the command's data transfer shows in BAR_ERR with its address, and ends the command with DMA_ABORT once its descriptor has closed
(R166, R170, R251). -/
def Cmd.finish (k : Cmd) (again : Option Instr) (r : Reply) (s : State) : State :=
  let c := k.call
  let done := fun (r : Reply) (s : State) => s.onCore fun s => s.complete c.src k.op c.tag.toNat c.q.val c.index.toNat r
  match r with
  | .wait =>
    let s := s.onCore fun s => s.openDesc (refOf k.op c) (dlenOf c) c.bulk.data again none
    match c.bulk.dmaFail with
    | some n => (s.onHost fun h => h.dmaErr (sgAddr c.bulk.sgl n % 2 ^ 32)).onCore fun s =>
        s.endDescs (.err 0x12 0x000A 0xFFFF (some n)) (· == refOf k.op c)
    | none => s
  | .later => s
  | .data bs last => s.onCore fun s => s.sendData (refOf k.op c) c.bulk.sgl bs c.bulk.dmaFail last
  | r => done r s
/-- A command's write group takes effect: its tag and queue enter the 64-entry commit log (R214). -/
def Core.commitGroup (s : Core) (c : Call) : Core := s.logGroup c.tag.toNat c.q.val
/-- A body's answer, its write group noted where it has one: that of a load takes effect as the load ends (R228, R253). -/
def Cmd.noted (k : Cmd) (r : Reply × Field) : Reply × Field :=
  match r.1 with
  | .err _ _ _ _ => r
  | .wait => r
  | .later => if k.op = 0x0201 ∨ k.op = 0x0A01 then r else (r.1, r.2.onCore fun s => s.commitGroup k.call)
  | _ => (r.1, r.2.onCore fun s => s.commitGroup k.call)
/-- Run a command on the field side. -/
def Cmd.run (k : Cmd) (again : Option Instr) (dup : Bool) (s : State) : State :=
  let s := s.syncInFlight
  match k.check dup s.field.core with
  | some r => k.finish again r s
  | none =>
    let r := k.noted (k.body s.field)
    k.finish again r.1 { s with field := r.2 }
/-- The host side's own answer while the elytron is down (R184, R188). -/
def hostAnswer (op : Nat) (s : State) : Reply :=
  if op = 0 then .ok 0
  else if op = 1 then
    let r := s.host.report
    .ok (r - bits r 35 32 * 2 ^ 32 + at_ 15 ((Config.freeDetail s.field.core.free).toNat % 256))
  else wrongState 0x0011
/-- The commands of a queue that the host side has forwarded and whose completion it still waits for. -/
def HostSide.owes (h : HostSide) (q : Nat) : Nat := (h.lost ++ h.tracked).countP (·.q == q)
/-- An answer of the host side's own joins the completions, in ORDERED mode behind those of the earlier commands of its queue
(R175). -/
def HostSide.answer (h : HostSide) (ordered : Bool) (c : Compl) : HostSide :=
  if ordered && h.owes c.q != 0 then { h with answers := h.answers ++ [(h.owes c.q, c)] } else { h with arrived := h.arrived ++ [c] }
/-- A completion that a queue waited for has come: own answers that waited for it alone follow it. -/
def HostSide.settled (h : HostSide) (q : Nat) : HostSide :=
  let l := h.answers.map fun p => if p.2.q = q then (p.1 - 1, p.2) else p
  { h with answers := l.filter (·.1 != 0), arrived := h.arrived ++ (l.filter (·.1 == 0)).map (·.2) }
/-- The entry of a completion that the host side makes itself; an unstated DETAIL_VALUE is a free value. -/
def State.ownEntry (s : State) (q tag index op : Nat) (r : Reply) : Compl :=
  ⟨1, r.status, tag, q, op, index, s.host.time, r.result s.field.core.free⟩
/-- The host side answers a command itself. -/
def State.hostComplete (s : State) (q tag index op : Nat) (r : Reply) : State :=
  (s.onHost fun h => h.answer (!s.field.core.rdb CMDQ_CFG.MODE) (s.ownEntry q tag index op r)).onCore Core.tickFree
/-- The host side has fetched and forwarded a command. -/
def State.track (s : State) (q tag index op : Nat) : State :=
  s.onHost fun h => { h with tracked := h.tracked ++ [⟨q, tag, index, op⟩] }
/-- Does the limit of R175 allow one command more in flight on a queue? -/
def State.mayTake (s : State) (q : Nat) : Bool :=
  if s.field.core.rdb CMDQ_CFG.MODE then decide (s.inFlight.length < 512)
  else decide (s.inFlight.countP (·.q == q) < 64)
/-- Is a tag in flight where tags are checked (R177)? -/
def State.dupTag (s : State) (tag : Nat) : Bool :=
  s.field.core.rdb CMDQ_CFG.MODE && s.inFlight.any (·.tag == tag)
/-- A fetched entry, or a row that has waited, runs on the field side. What a panel answers to an entry is a free value. -/
def runEntry (e : QCmd) (s : State) : State :=
  let c := entryCall e.src (Fin.ofNat 4 e.q) e.index e.entry e.bulk
  let i := e.row.orElse fun _ => entryInstr (Config.panelAnswer s.field.core.free) c e.entry
  let op := leAt e.entry 0 2
  let k := match i.bind (cmdOf id) with
    | some k => k
    | none => if op = 0x00F0 then cmdAuthOther c else cmdUnknown op c
  k.run i e.dup s
/-- A command joins those that wait for their start. -/
def Core.await (s : Core) (e : QCmd) : Core := { s with cmdq := { s.cmdq with waiting := s.cmdq.waiting ++ [e] } }
/-- Has FSP a command that has not completed (R204)? -/
def Core.fspBusy (s : Core) : Bool := s.cmdq.open_.any (·.src == .fsp) || s.cmdq.waiting.any (·.src == .fsp)
/-- FSP's last answer has been sent. -/
def Core.clearFsp (s : Core) : Core := { s with cmdq := { s.cmdq with fspTx := [] } }
/-- All data of a waiting command has landed, or its transfer has failed: it runs (R169, R170). -/
def runWaiting (d : DataDesc) (s : State) : State :=
  match d.cmd with
  | none => s
  | some i =>
    match cmdOf (fun c => { c with bulk := { c.bulk with data := d.got } }) i with
    | none => s
    | some k =>
      let ref := refOf k.op k.call
      let s := s.onCore fun s => { s with cmdq := { s.cmdq with open_ := dropFirst (· == ref) s.cmdq.open_ } }
      let r := k.noted (k.body s.syncInFlight.field)
      k.finish none r.1 { s.syncInFlight with field := r.2 }

/-! ### The order of starting (R174 to R176) -/

/-- May a waiting entry start, given the entries of its queue ahead of it and the commands that have started? -/
def Core.mayStart (s : Core) (ahead : List QCmd) (e : QCmd) : Bool :=
  let mine := ahead.filter fun x => x.src == e.src && x.q == e.q
  let started := s.cmdq.open_.filter fun r => r.src == e.src && r.q == e.q
  if !s.rdb CMDQ_CFG.MODE then mine.isEmpty && started.isEmpty
  else
    let fenced := fun (e : QCmd) => bit (byteAt e.entry 4) 0
    !(mine.any fenced) && !(started.any (·.fence)) && (!fenced e || (mine.isEmpty && started.isEmpty))
/-- The oldest waiting entry that satisfies `p` and may start, with its place in the list. -/
def Core.nextEntry (s : Core) (p : QCmd → Bool) : List QCmd → List QCmd → Option QCmd
  | _, [] => none
  | ahead, e :: es => if p e && s.mayStart ahead e then some e else s.nextEntry p (ahead ++ [e]) es
/-- Start the next waiting entry that satisfies `p`, if any may start and the imago lives (R227). -/
def startNext (p : QCmd → Bool) (s : State) : State :=
  if s.field.core.imagoDead then s
  else
  match s.field.core.nextEntry p [] s.field.core.cmdq.waiting with
  | none => s
  | some e =>
    runEntry e (s.onCore fun s =>
      let s : Core := { s with cmdq := { s.cmdq with waiting := dropFirst (· == e) s.cmdq.waiting } }
      if e.src = .fsp then s.clearFsp else s)
/-- A command that takes no slot of a chirp: from Q0 (R215), or over FSP. -/
def QCmd.urgent (e : QCmd) : Bool := e.src == .fsp || e.q == 0
/-- Start waiting urgent commands, one after another, up to `n` (R216). -/
def startUrgent : Nat → State → State
  | 0, s => s
  | n + 1, s => startUrgent n (startNext QCmd.urgent s)

/-! ### Rows that are commands (R175, R176, R188, R201, R204) -/

/-- A command that comes as a row of its own, as an entry that waits: its header bytes stand for the entry. -/
def Cmd.asEntry (k : Cmd) (row : Instr) (dup : Bool) : QCmd :=
  let c := k.call
  ⟨c.src, c.q.val, c.index.toNat, toLE 2 k.op ++ toLE 2 c.tag.toNat ++ toLE 1 (b2n c.fence), c.bulk, dup, some row⟩
/-- Have earlier entries of a queue been fetched that have not reached the field side? -/
def State.onTheWay (s : State) (q : Nat) : Bool :=
  s.host.outbox.any (·.q == q) || s.field.core.ely.toF.replay.any fun f => match f.body with
    | .command e => e.q == q
    | _ => false
/-- A command as its source sends it: by a ring through the elytron, or over FSP, one at a time (R188, R204). A host side
without supply, or with as many commands in flight as R175 allows, sends nothing, and a field side held in reset takes nothing
over FSP. Behind entries of its queue on their way it goes after them; a command that may not start yet, or that comes while the
imago is dead, waits with the others (R175, R176, R201). -/
def Cmd.submit (k : Cmd) (again : Instr) (s : State) : State :=
  let c := k.call
  let tag := c.tag.toNat
  if c.src = .host then
    if !s.host.powered ∨ !s.mayTake c.q.val then s
    else if !s.field.core.elyUp then s.hostComplete c.q.val tag c.index.toNat k.op (hostAnswer k.op s)
    else
      let dup := s.dupTag tag
      let e := k.asEntry again dup
      let s := s.track c.q.val tag c.index.toNat k.op
      if s.onTheWay c.q.val then s.onHost fun h => { h with outbox := h.outbox ++ [e] }
      else if s.field.core.imagoDead ∨ !s.field.core.mayStart s.field.core.cmdq.waiting e then s.onCore fun c => c.await e
      else k.run (some again) dup s
  else if s.field.core.bootState = 1 then s
  else if s.field.core.fspBusy then s.onCore fun s => s.complete .fsp k.op tag 0 0 (busy 0)
  else if s.field.core.imagoDead then s.onCore fun c => c.await (k.asEntry again false)
  else k.run (some again) false (s.onCore Core.clearFsp)

end Sys2Proof.Machine
end

