-- ==== Sys2Proof/Machine/CommandExec.lean ====
section
/-! DEFINITION. The command rows: each is its row of R183, or a register command at the register it names, submitted by its
source. What each does stands beside the block that does it; Command.lean holds the rows. -/

namespace Sys2Proof.Machine

/-- NOP (R183). -/
def execNop (c : Call) (s : State) : Host.Outcome State Fault Refusal :=
  .next ((cmdNop c).submit (.nop c) s)
/-- IDENTIFY (R184). -/
def execIdentify (c : Call) (s : State) : Host.Outcome State Fault Refusal :=
  .next ((cmdIdentify c).submit (.identify c) s)
/-- QUEUE_CONFIG (R185). -/
def execQueueConfig (c : Call) (m : Byte) (l : Byte) (s : State) : Host.Outcome State Fault Refusal :=
  .next ((cmdQueueConfig c m.toNat l.toNat).submit (.queueConfig c m l) s)
/-- FIELD_RESET (R187). -/
def execFieldReset (c : Call) (s : State) : Host.Outcome State Fault Refusal :=
  .next ((cmdFieldReset c).submit (.fieldReset c) s)
/-- AUTH_CHALLENGE (R194). -/
def execAuthChallenge (c : Call) (l : Byte) (s : State) : Host.Outcome State Fault Refusal :=
  .next ((cmdChallenge c l.toNat).submit (.authChallenge c l) s)
/-- AUTH_RESPOND (R195). -/
def execAuthRespond (c : Call) (l : Byte) (m : BitVec 256) (s : State) : Host.Outcome State Fault Refusal :=
  .next ((cmdRespond c l.toNat (toBE 32 m.toNat)).submit (.authRespond c l m) s)
/-- AUTH_DROP (R194). -/
def execAuthDrop (c : Call) (l : Byte) (s : State) : Host.Outcome State Fault Refusal :=
  .next ((cmdDrop c l.toNat).submit (.authDrop c l) s)
/-- REG_READ (R189). -/
def execRegRead (c : Call) (a : Word) (s : State) : Host.Outcome State Fault Refusal :=
  .next ((cmdRegRead c a.toNat).submit (.regRead c a) s)
/-- REG_WRITE (R189). -/
def execRegWrite (c : Call) (a : Word) (v : Word) (s : State) : Host.Outcome State Fault Refusal :=
  .next ((cmdRegWrite c a.toNat v.toNat).submit (.regWrite c a v) s)
/-- REG_RMW (R190). -/
def execRegRmw (c : Call) (a : Word) (m : Word) (v : Word) (s : State) : Host.Outcome State Fault Refusal :=
  .next ((cmdRegRmw c a.toNat m.toNat v.toNat).submit (.regRmw c a m v) s)
/-- REG_READ_BLOCK (R191). -/
def execRegReadBlock (c : Call) (a : Word) (n : BitVec 16) (s : State) : Host.Outcome State Fault Refusal :=
  .next ((cmdRegReadBlock c a.toNat n.toNat).submit (.regReadBlock c a n) s)
/-- JOB_DEFINE (R491). -/
def execJobDefine (c : Call) (i : Word) (s : State) : Host.Outcome State Fault Refusal :=
  .next ((cmdJobDefine c i.toNat).submit (.jobDefine c i) s)
/-- JOB_LOAD_DATA (R249). -/
def execJobLoadData (c : Call) (i : Word) (b : Byte) (o : BitVec 64) (s : State) : Host.Outcome State Fault Refusal :=
  .next ((cmdJobLoadData c i.toNat b.toNat o.toNat).submit (.jobLoadData c i b o) s)
/-- JOB_RING_APPEND (R255). -/
def execJobRingAppend (c : Call) (i : Word) (o : BitVec 64) (s : State) : Host.Outcome State Fault Refusal :=
  .next ((cmdJobLoadData c i.toNat 0xFF o.toNat).submit (.jobRingAppend c i o) s)
/-- JOB_STREAM_OPEN (R254). -/
def execJobStreamOpen (c : Call) (i : Word) (m : Byte) (r : Word) (s : State) : Host.Outcome State Fault Refusal :=
  .next ((cmdJobStreamOpen c i.toNat m.toNat r.toNat).submit (.jobStreamOpen c i m r) s)
/-- JOB_ARM (R500). -/
def execJobArm (c : Call) (i : Word) (s : State) : Host.Outcome State Fault Refusal :=
  .next ((cmdJobArm c i.toNat).submit (.jobArm c i) s)
/-- JOB_SWITCH_AT (R501). -/
def execJobSwitchAt (c : Call) (a : Word) (b : Word) (p : BitVec 64) (s : State) : Host.Outcome State Fault Refusal :=
  .next ((cmdJobSwitchAt c a.toNat b.toNat p.toNat).submit (.jobSwitchAt c a b p) s)
/-- JOB_ABORT (R506). -/
def execJobAbort (c : Call) (i : Word) (m : Byte) (s : State) : Host.Outcome State Fault Refusal :=
  .next ((cmdJobAbort c i.toNat m.toNat).submit (.jobAbort c i m) s)
/-- JOB_STATUS (R498). -/
def execJobStatus (c : Call) (i : Word) (s : State) : Host.Outcome State Fault Refusal :=
  .next ((cmdJobStatus c i.toNat).submit (.jobStatus c i) s)
/-- FIRE_ENABLE (R392). -/
def execFireEnable (c : Call) (m : Byte) (e : Byte) (s : State) : Host.Outcome State Fault Refusal :=
  .next ((cmdFireEnable c m.toNat e.toNat).submit (.fireEnable c m e) s)
/-- STOP_FIRE (R393). -/
def execStopFire (c : Call) (m : Byte) (s : State) : Host.Outcome State Fault Refusal :=
  .next ((cmdStopFire c m.toNat).submit (.stopFire c m) s)
/-- FIRE_INHIBIT_HEAD (R394). -/
def execFireInhibitHead (c : Call) (h : Byte) (i : Byte) (s : State) : Host.Outcome State Fault Refusal :=
  .next ((cmdFireInhibitHead c h.toNat i.toNat).submit (.fireInhibitHead c h i) s)
/-- PRESS_LOAD (R300). -/
def execPressLoad (c : Call) (s : State) : Host.Outcome State Fault Refusal :=
  .next ((cmdPressLoad c).submit (.pressLoad c) s)
/-- GEO_SET (R307). -/
def execGeoSet (c : Call) (h : Byte) (o : Word) (st : Word) (sk : Byte) (s : State) : Host.Outcome State Fault Refusal :=
  .next ((cmdGeoSet c h.toNat o.toNat st.toNat sk.toNat).submit (.geoSet c h o st sk) s)
/-- NOZZLE_MAP_LOAD (R314). -/
def execNozzleMapLoad (c : Call) (b : Byte) (k : Word) (n : Word) (s : State) : Host.Outcome State Fault Refusal :=
  .next ((cmdNozzleMapLoad c b.toNat k.toNat n.toNat).submit (.nozzleMapLoad c b k n) s)
/-- CMP_APPEND (R368). -/
def execCmpAppend (c : Call) (n : BitVec 16) (d : Bytes) (s : State) : Host.Outcome State Fault Refusal :=
  .next ((cmdCmpAppend c n.toNat d).submit (.cmpAppend c n d) s)
/-- CMP_CLEAR (R375). -/
def execCmpClear (c : Call) (m : Byte) (s : State) : Host.Outcome State Fault Refusal :=
  .next ((cmdCmpClear c m.toNat).submit (.cmpClear c m) s)
/-- POS_ARM_INDEX (R355). -/
def execPosArmIndex (c : Call) (ch : Byte) (m : Byte) (p : BitVec 64) (s : State) : Host.Outcome State Fault Refusal :=
  .next ((cmdPosArmIndex c ch.toNat m.toNat p.toNat).submit (.posArmIndex c ch m p) s)
/-- CAM_START (R483). -/
def execCamStart (c : Call) (s : State) : Host.Outcome State Fault Refusal :=
  .next ((cmdCamStart c).submit (.camStart c) s)
/-- CAM_STOP (R484). -/
def execCamStop (c : Call) (s : State) : Host.Outcome State Fault Refusal :=
  .next ((cmdCamStop c).submit (.camStop c) s)
/-- SERVO_SET (R486). -/
def execServoSet (c : Call) (b : Byte) (m : Byte) (s : State) : Host.Outcome State Fault Refusal :=
  .next ((cmdServoSet c b.toNat m.toNat).submit (.servoSet c b m) s)
/-- CAM_REINIT (R485). -/
def execCamReinit (c : Call) (s : State) : Host.Outcome State Fault Refusal :=
  .next ((cmdCamReinit c).submit (.camReinit c) s)
/-- THERM_SET (R540). -/
def execThermSet (c : Call) (n : Byte) (w : BitVec 16) (t : BitVec 16) (p : BitVec 16) (s : State) : Host.Outcome State Fault Refusal :=
  .next ((cmdThermSet c n.toNat w.toNat t.toNat p.toNat).submit (.thermSet c n w t p) s)
/-- POWER_BUDGET (R551). -/
def execPowerBudget (c : Call) (w : BitVec 16) (s : State) : Host.Outcome State Fault Refusal :=
  .next ((cmdPowerBudget c w.toNat).submit (.powerBudget c w) s)
/-- FW_STAGE (R235). -/
def execFwStage (c : Call) (k : Byte) (sl : Byte) (s : State) : Host.Outcome State Fault Refusal :=
  .next ((cmdFwStage c k.toNat sl.toNat).submit (.fwStage c k sl) s)
/-- MOLT (R236). -/
def execMolt (c : Call) (f : Byte) (s : State) : Host.Outcome State Fault Refusal :=
  .next ((cmdMolt c f.toNat).submit (.molt c f) s)
/-- SWAP_DRILL (R241). -/
def execSwapDrill (c : Call) (s : State) : Host.Outcome State Fault Refusal :=
  .next ((cmdSwapDrill c).submit (.swapDrill c) s)
/-- RANK_RETIRE (R529). -/
def execRankRetire (c : Call) (ch : Byte) (r : Byte) (s : State) : Host.Outcome State Fault Refusal :=
  .next ((cmdRankRetire c ch.toNat r.toNat).submit (.rankRetire c ch r) s)
/-- FIJ_SET (R591). -/
def execFijSet (c : Call) (t : Byte) (i : Byte) (a : Byte) (r : Word) (n : Word) (s : State) : Host.Outcome State Fault Refusal :=
  .next ((cmdFijSet c t.toNat i.toNat a.toNat r.toNat n.toNat).submit (.fijSet c t i a r n) s)
/-- FIJ_CLEAR (R594). -/
def execFijClear (c : Call) (s : State) : Host.Outcome State Fault Refusal :=
  .next ((cmdFijClear c).submit (.fijClear c) s)
/-- LINK_REATTACH (R441). -/
def execLinkReattach (c : Call) (l : Byte) (s : State) : Host.Outcome State Fault Refusal :=
  .next ((cmdLinkReattach c l.toNat).submit (.linkReattach c l) s)
/-- DSP_CONFIG (R565). -/
def execDspConfig (c : Call) (p : BitVec 24) (w : BitVec 16) (h : BitVec 16) (m : BitVec 16) (a : Option (BitVec 24)) (s : State) : Host.Outcome State Fault Refusal :=
  .next ((cmdDspConfig c p.toNat w.toNat h.toNat m.toNat (a.map BitVec.toNat)).submit (.dspConfig c p w h m a) s)
/-- DSP_COMMIT (R567). -/
def execDspCommit (c : Call) (r : Byte) (s : State) : Host.Outcome State Fault Refusal :=
  .next ((cmdDspCommit c r.toNat).submit (.dspCommit c r) s)
/-- SYS_LOCK_SET (R33). -/
def execSysLockSet (c : Call) (v : Word) (s : State) : Host.Outcome State Fault Refusal :=
  .next ((cmdAccess c SYS_LOCK.CFG_LOCK 0 (some v)).submit (.sysLockSet c v) s)
/-- TONE_DATA_ACCESS (R310). -/
def execToneDataAccess (c : Call) (h : Fin 192) (w : Option Word) (s : State) : Host.Outcome State Fault Refusal :=
  .next ((cmdAccess c HDC_TONE_DATA.VALUE h.val w).submit (.toneDataAccess c h w) s)
/-- TONE_CTL_COMMIT (R310). -/
def execToneCtlCommit (c : Call) (h : Fin 192) (s : State) : Host.Outcome State Fault Refusal :=
  .next ((cmdAccess c HDC_TONE_CTL.COMMIT h.val (some 1)).submit (.toneCtlCommit c h) s)
/-- TONE_CTL_COPY (R310). -/
def execToneCtlCopy (c : Call) (h : Fin 192) (s : State) : Host.Outcome State Fault Refusal :=
  .next ((cmdAccess c HDC_TONE_CTL.COPY h.val (some 2)).submit (.toneCtlCopy c h) s)
/-- SCR_ERR_CLR (R326). -/
def execScrErrClr (c : Call) (b : Fin 8) (s : State) : Host.Outcome State Fault Refusal :=
  .next ((cmdAccess c SCR_CTL.ERR_CLR b.val (some 1)).submit (.scrErrClr c b) s)
/-- SCR_MASK_DATA_ACCESS (R327). -/
def execScrMaskDataAccess (c : Call) (w : Option Word) (s : State) : Host.Outcome State Fault Refusal :=
  .next ((cmdAccess c SCR_MASK_DATA.DATA 0 w).submit (.scrMaskDataAccess c w) s)
/-- NOZZLE_WINDOW_WRITE (R313). -/
def execNozzleWindowWrite (c : Call) (b : Fin 8) (k : Fin 131072) (hi : Bool) (v : Word) (s : State) : Host.Outcome State Fault Refusal :=
  .next ((cmdRegWrite c (0x1000000 + 0x100000 * b.val + 8 * k.val + if hi then 4 else 0) v.toNat).submit (.nozzleWindowWrite c b k hi v) s)
/-- LATCHED_PAIR_READ (R19). -/
def execLatchedPairRead (c : Call) (a : Word) (s : State) : Host.Outcome State Fault Refusal :=
  .next ((cmdRegRead c a.toNat).submit (.latchedPairRead c a) s)
/-- POS_TYPE_CHANGE (R339). -/
def execPosTypeChange (c : Call) (ch : Fin 8) (v : Word) (s : State) : Host.Outcome State Fault Refusal :=
  .next ((cmdAccess c POS_CFG.TYPE ch.val (some v)).submit (.posTypeChange c ch v) s)
/-- POS_WRAP_WRITE (R346). -/
def execPosWrapWrite (c : Call) (ch : Fin 8) (v : Word) (s : State) : Host.Outcome State Fault Refusal :=
  .next ((cmdAccess c POS_WRAP.WRAP ch.val (some v)).submit (.posWrapWrite c ch v) s)
/-- POS_IDX_LOAD (R347). -/
def execPosIdxLoad (c : Call) (ch : Fin 8) (v : Word) (s : State) : Host.Outcome State Fault Refusal :=
  .next ((cmdAccess c POS_IDX_CFG.LOAD ch.val (some v)).submit (.posIdxLoad c ch v) s)
/-- POS_WEB_RETURN (R363). -/
def execPosWebReturn (c : Call) (v : Word) (s : State) : Host.Outcome State Fault Refusal :=
  .next ((cmdAccess c POS_WEB_CTL.RETURN 0 (some v)).submit (.posWebReturn c v) s)
/-- SPG_LPC_WRITE (R383). -/
def execSpgLpcWrite (c : Call) (hi : Bool) (v : Word) (s : State) : Host.Outcome State Fault Refusal :=
  .next ((cmdAccess c (if hi then SPG_LPC_HI.LPC else SPG_LPC_LO.LPC) 0 (some v)).submit (.spgLpcWrite c hi v) s)
/-- HLK_EN_WRITE (R442). -/
def execHlkEnWrite (c : Call) (l : Fin 24) (v : Word) (s : State) : Host.Outcome State Fault Refusal :=
  .next ((cmdAccess c HLK_CFG.EN l.val (some v)).submit (.hlkEnWrite c l v) s)
/-- HLK_LVL_MAP_WRITE (R419). -/
def execHlkLvlMapWrite (c : Call) (l : Fin 24) (v : Word) (s : State) : Host.Outcome State Fault Refusal :=
  .next ((cmdAccess c HLK_LVL_MAP.W1 l.val (some v)).submit (.hlkLvlMapWrite c l v) s)
/-- CAM_EXP_WRITE (R459). -/
def execCamExpWrite (c : Call) (vc : Fin 4) (v : Word) (s : State) : Host.Outcome State Fault Refusal :=
  .next ((cmdAccess c CAM_EXP.EXP vc.val (some v)).submit (.camExpWrite c vc v) s)
/-- ISP_TBL_DATA_ACCESS (R465). -/
def execIspTblDataAccess (c : Call) (vc : Fin 4) (w : Option Word) (s : State) : Host.Outcome State Fault Refusal :=
  .next ((cmdAccess c ISP_TBL_DATA.DATA vc.val w).submit (.ispTblDataAccess c vc w) s)
/-- MEM_RETRAIN_WRITE (R530). -/
def execMemRetrainWrite (c : Call) (ch : Fin 4) (v : Word) (s : State) : Host.Outcome State Fault Refusal :=
  .next ((cmdAccess c MEMC_CTL.RETRAIN ch.val (some v)).submit (.memRetrainWrite c ch v) s)
/-- MEM_RANK_CLR_WRITE (R531). -/
def execMemRankClrWrite (c : Call) (v : Word) (s : State) : Host.Outcome State Fault Refusal :=
  .next ((cmdAccess c MEM_CFG.RANK_CLR 0 (some v)).submit (.memRankClrWrite c v) s)
/-- THM_EXCL_WRITE (R539). -/
def execThmExclWrite (c : Call) (v : Word) (s : State) : Host.Outcome State Fault Refusal :=
  .next ((cmdAccess c THM_EXCL.TS 0 (some v)).submit (.thmExclWrite c v) s)
/-- CHIRP_PERIOD_WRITE (R209). -/
def execChirpPeriodWrite (c : Call) (v : Word) (s : State) : Host.Outcome State Fault Refusal :=
  .next ((cmdAccess c TCK_CFG.CHIRP_US 0 (some v)).submit (.chirpPeriodWrite c v) s)
/-- LOG_VIOL_CLR (R198). -/
def execLogViolClr (c : Call) (s : State) : Host.Outcome State Fault Refusal :=
  .next ((cmdAccess c LOG_VIOL_CTL.CLR 0 (some 0x80000000)).submit (.logViolClr c) s)
/-- COUNTER_PEAK_CLR (R294). -/
def execCounterPeakClr (c : Call) (a : Word) (v : Word) (s : State) : Host.Outcome State Fault Refusal :=
  .next ((cmdRegWrite c a.toNat v.toNat).submit (.counterPeakClr c a v) s)
/-- FIJ_LIVE_OK_WRITE (R594). -/
def execFijLiveOkWrite (c : Call) (v : Word) (s : State) : Host.Outcome State Fault Refusal :=
  .next ((cmdAccess c FIJ_CFG.LIVE_OK 0 (some v)).submit (.fijLiveOkWrite c v) s)
/-- FIELD_REGISTER_WRITE (R34). -/
def execFieldRegisterWrite (c : Call) (a : Word) (v : Word) (s : State) : Host.Outcome State Fault Refusal :=
  .next ((cmdRegWrite c a.toNat v.toNat).submit (.fieldRegisterWrite c a v) s)

end Sys2Proof.Machine
end

