-- ==== Sys2Proof/Machine/Power.lean ====
section
/-! DEFINITION. The field supply, the power-fail sequence and the sensor supplies (spec/02_module_hardware.md R102 to
R111). -/

namespace Sys2Proof.Machine

/-- VIN_F_UPDATE: every 100 µs VIN_F is sampled (R110) and held against the thresholds. -/
def doVinFUpdate (v : Nat) (s : Core) : Core :=
  let s := s.reach (s.pwr.sampledAt + 100000)
  let s := ({ s with pwr := { s.pwr with sampledAt := s.etime } } : Core).wr PWR_SUPPLY.VIN_F v
  let s := if v < s.rd PWR_VIN_MIN.MIN then s.wr PWR_VIN_MIN.MIN v else s
  (if v ≤ 3250 then s.wr PWR_SUPPLY.VIN_OVER 0 else s).judgeVin
/-- VIN_OVER: VIN_F has stood above 32.5 V for 1 ms (R102); operation continues. -/
def doVinOver (s : Core) : Core :=
  match s.pwr.overFrom with
  | none => s
  | some t =>
    if s.rdb PWR_SUPPLY.VIN_OVER then s else ((s.reach (t + 1000000)).wr PWR_SUPPLY.VIN_OVER 1).emit 0x0D35

/-- The links that are up. -/
def Core.upLinks (s : Core) : List Nat := (List.range 24).filter s.linkUp
/-- A write under way becomes the head's power-fail write; every other attached head owes one (R105, R106). -/
def Core.owePowerFail (s : Core) (h : Nat) : Core :=
  match (s.hr h).write with
  | some w =>
    let w := { w with powerFail := true, outcome := if w.outcome = 0 ∧ w.done ≥ 16 then 1 else w.outcome }
    s.setHr h { s.hr h with write := some w }
  | none => s.setHr h { s.hr h with pfDue := s.attached h }
/-- PWR_FAIL: VIN_F has stood below PF_LEVEL for 200 µs (R102, R105). No flash write starts from here on, and every link that
is up writes the usage records of its heads in slot order. -/
def doPwrFail (s : Core) : Core :=
  match s.pwr.lowFrom with
  | none => s
  | some t =>
    if s.rdb PWR_SUPPLY.PF then s
    else
      let s := (((s.reach (t + 200000)).wr PWR_SUPPLY.PF 1).inc PWR_PF_CNT.COUNT).emit 0x0D31
      s.upLinks.foldl (fun s l => ((s.headsOn l).foldl Core.owePowerFail s).nextPowerFail l) s
/-- Does a head of an up link still write or owe a write of the power-fail sequence? One that is skipped does not (R106). -/
def Core.pfBusy (s : Core) : Bool :=
  s.upLinks.any fun l => (s.headsOn l).any fun h => (s.hr h).pfDue || s.pfWrites h
/-- PWR_FAIL_DONE: the writes of the sequence have ended (R105 step 4). -/
def doPwrFailDone (s : Core) : Core :=
  let s := if s.rdb PWR_SUPPLY.PF then s.upLinks.foldl Core.nextPowerFail s else s
  if !s.rdb PWR_SUPPLY.PF ∨ s.rdb PWR_SUPPLY.PF_DONE ∨ s.pfBusy then s
  else (s.wr PWR_SUPPLY.PF_DONE 1).emit 0x0D32
/-- A head's usage period restarts (R107). -/
def Core.restartPeriod (s : Core) (h : Nat) : Core :=
  if s.attached h then s.setHr h { s.hr h with attachedAt := s.etime, periods := 0, pfDue := false } else s
/-- PWR_RESTORED: VIN_F has stood at PF_LEVEL + 0.5 V for 100 ms (R102, R107). -/
def doPwrRestored (s : Core) : Core :=
  match s.pwr.backFrom with
  | none => s
  | some t =>
    if !s.rdb PWR_SUPPLY.PF then s
    else
      let s := ((s.reach (t + 100000000)).wrs [(PWR_SUPPLY.PF, 0), (PWR_SUPPLY.PF_DONE, 0)]).emit 0x0D33
      ((List.range 192).foldl Core.restartPeriod s).flashNext

/-- ENC_SUP_ON: 10 ms after field-side reset is released the sensor supplies switch on (R104). -/
def doEncSupOn (s : Core) : Core :=
  if s.pwr.on then s
  else
    let s := s.reach 10000000
    { s with pwr := { s.pwr with on := true } }
/-- Is channel `c`'s supply on? -/
def Core.supOn (s : Core) (c : Nat) : Bool :=
  s.pwr.on && bit (s.rd PWR_ENC_SUP.EN) c && !bit (s.rd PWR_ENC_SUP.FAULT) c
/-- Cut a supply and say so. -/
def Core.cutSup (s : Core) (c : Nat) : Core :=
  let s := (s.wr PWR_ENC_SUP.FAULT (setBit (s.rd PWR_ENC_SUP.FAULT) c true)).emit 0x0D34
  ({ s with pwr := { s.pwr with cutAt := mput c s.etime s.pwr.cutAt } } : Core).supLost c
/-- ENC_SUP_FAULT: a channel has drawn more than 300 mA for 1 ms (R104). -/
def doEncSupFault (c : Nat) (s : Core) : Core := if s.supOn c then s.cutSup c else s
/-- ENC_SUP_RETRY: a cut supply is tried again 1 s later; it is cut again, or FAULT clears once it has held for 100 ms
(R104). While EN of a cut channel is 0, FAULT stays and no retry is made (DESIGN CHOICE: log entry 177). -/
def doEncSupRetry (c : Nat) (holds : Bool) (s : Core) : Core :=
  if !bit (s.rd PWR_ENC_SUP.FAULT) c ∨ !bit (s.rd PWR_ENC_SUP.EN) c then s
  else
    let s := s.reach (mget 0 s.pwr.cutAt c + 1000000000)
    if holds then
      let s := (s.reach (s.etime + 100000000)).wr PWR_ENC_SUP.FAULT (setBit (s.rd PWR_ENC_SUP.FAULT) c false)
      ({ s with pwr := { s.pwr with cutAt := mdel c s.pwr.cutAt } } : Core).clearFault c .sup
    else s.cutSup c

end Sys2Proof.Machine
end

