-- ==== Sys2Proof/Machine/HostRings.lean ====
section
/-! DEFINITION. The host side's registers and rings, the flits of the elytron, and the field service port
(spec/04_command_protocol.md R155 to R166, R171 to R173, R200 to R205; spec/01_architecture.md R42 to R53). -/

namespace Sys2Proof.Machine

/-! ### BAR0 (R155 to R160) -/

/-- Is vector `v` raised: its IRQ_STATUS bit set and not masked (R157)? -/
def HostSide.vector (h : HostSide) (v : Nat) : Bool :=
  (if v = 0 then h.rdb IRQ_STATUS.CQ else if v = 1 then h.rdb IRQ_STATUS.ALERT else h.rdb IRQ_STATUS.ERR) &&
    !bit (h.rd IRQ_MASK.MASK) v
/-- Is HOST_IRQ_N asserted (R157)? -/
def HostSide.irqPin (h : HostSide) : Bool := h.rdb BAR_CTL.IRQ_PIN_EN && (h.vector 0 || h.vector 1 || h.vector 2)
/-- Is a submission ring, or with 4 the completion ring, enabled? -/
def HostSide.enabled (h : HostSide) (ring : Nat) : Bool :=
  if ring = 4 then h.rdb CQ_SIZE.EN else h.rdb SQ_SIZE.EN ring
/-- LOG2 of a ring. -/
def HostSide.log2 (h : HostSide) (ring : Nat) : Nat := if ring = 4 then h.rd CQ_SIZE.LOG2 else h.rd SQ_SIZE.LOG2 ring
/-- The offset of a ring's size register. -/
def sizeOff (ring : Nat) : Nat := if ring = 4 then 0xA8 else 0x28 + 0x20 * ring
/-- A write of SQ_q_TAIL. -/
def HostSide.tailWrite (h : HostSide) (q v : Nat) : HostSide :=
  if bits v 11 0 ≥ 2 ^ h.log2 q then h.barErr BAR_ERR.TAIL_RANGE (0x2C + 0x20 * q) else h.wr SQ_TAIL.TAIL (bits v 11 0) q
/-- A write of CQ_HEAD (R164). -/
def HostSide.cqHeadWrite (h : HostSide) (v : Nat) : HostSide :=
  let n := 2 ^ h.log2 4; let head := h.rd CQ_HEAD.HEAD; let x := bits v 13 0
  if x < n ∧ (x + n - head) % n ≤ (h.rd CQ_TAIL.TAIL + n - head) % n then h.wr CQ_HEAD.HEAD x
  else h.barErr BAR_ERR.CQ_HEAD_RANGE 0xAC
/-- May a ring be enabled as it stands with a size (R155, R158)? -/
def HostSide.sizeOk (h : HostSide) (ring log2 : Nat) : Bool :=
  if ring = 4 then 10 ≤ log2 && log2 ≤ 14 && h.rd CQ_BASE_LO.BASE % 4096 == 0
  else 4 ≤ log2 && log2 ≤ 12 && h.rd SQ_BASE_LO.BASE ring % 4096 == 0
/-- Set LOG2 and EN of a ring. -/
def HostSide.setSize (h : HostSide) (ring log2 en : Nat) : HostSide :=
  if ring = 4 then (h.wr CQ_SIZE.LOG2 log2).wr CQ_SIZE.EN en else (h.wr SQ_SIZE.LOG2 log2 ring).wr SQ_SIZE.EN en ring
/-- A write of a ring's size register (R158, R159). Clearing EN takes effect whatever LOG2 is written with it (R163); any other
write of an enabled ring's size changes nothing and sets CFG_WHILE_EN, and so does a LOG2 that differs. DEDUCED: log
entry 21. -/
def HostSide.sizeWrite (h : HostSide) (ring v : Nat) : HostSide :=
  let l := bits v 3 0; let en := bit v 31
  let bad := fun (h : HostSide) => h.barErr BAR_ERR.CFG_WHILE_EN (sizeOff ring)
  if h.enabled ring then
    if en then bad h
    else if l = h.log2 ring then h.setSize ring l 0 else bad (h.setSize ring (h.log2 ring) 0)
  else if !en then h.setSize ring l 0
  else if !h.sizeOk ring l then bad (h.setSize ring l 0)
  else
    let h := h.setSize ring l 1
    if ring = 4 then { ((h.wr CQ_HEAD.HEAD 0).wr CQ_TAIL.TAIL 0) with phase := true }
    else (h.wr SQ_HEAD.HEAD 0 ring).wr SQ_TAIL.TAIL 0 ring
/-- A write of a base register. -/
def HostSide.baseWrite (h : HostSide) (ring off v : Nat) (f : Fld) (n : Nat) : HostSide :=
  if h.enabled ring then h.barErr BAR_ERR.CFG_WHILE_EN off else h.wr f v n
/-- Clear the BAR0 bits of a list that a word names. -/
def HostSide.w1c (h : HostSide) (l : List Fld) (v : Nat) : HostSide :=
  l.foldl (fun h f => if bit v f.lo then h.wr f 0 else h) h
/-- A host write of a BAR0 offset. -/
def HostSide.write (h : HostSide) (off v : Nat) : HostSide :=
  let q := (off - 0x20) / 0x20
  if 0x20 ≤ off ∧ off < 0xA0 ∧ off % 0x20 ≤ 0x10 ∧ off % 4 = 0 then
    if off % 0x20 = 0 then h.baseWrite q off v SQ_BASE_LO.BASE q
    else if off % 0x20 = 4 then h.baseWrite q off v SQ_BASE_HI.BASE q
    else if off % 0x20 = 8 then h.sizeWrite q v
    else if off % 0x20 = 0xC then h.tailWrite q v
    else h
  else if off = 0 ∨ off = 4 ∨ off = 0x10 ∨ off = 0xB0 then h
  else if off = 0x08 then h.wr BAR_CTL.IRQ_PIN_EN (bits v 0 0)
  else if off = 0x0C then
    h.w1c [BAR_ERR.TAIL_RANGE, BAR_ERR.CQ_HEAD_RANGE, BAR_ERR.CFG_WHILE_EN, BAR_ERR.DMA_ERR, BAR_ERR.BAD_OFFSET] v
  else if off = 0x14 then h.w1c [IRQ_STATUS.CQ, IRQ_STATUS.ALERT, IRQ_STATUS.ERR] v
  else if off = 0x18 then h.wr IRQ_MASK.MASK (bits v 2 0)
  else if off = 0xA0 then h.baseWrite 4 off v CQ_BASE_LO.BASE 0
  else if off = 0xA4 then h.baseWrite 4 off v CQ_BASE_HI.BASE 0
  else if off = 0xA8 then h.sizeWrite 4 v
  else if off = 0xAC then h.cqHeadWrite v
  else if 0x2000 ≤ off ∧ off < 0x2030 ∧ off % 4 = 0 then
    { h with msix := mset 0 h.msix ((off - 0x2000) / 4) (v % 2 ^ 32) }
  else if off = 0x3000 ∨ off = 0x3004 then h
  else h.barErr BAR_ERR.BAD_OFFSET off
/-- The MSI-X pending bits: a vector raised while its table entry masks it waits (R155, the layout of the PCIe standard, in which
bit 0 of an entry's fourth word masks it). PRESUMED: log entry 138. -/
def HostSide.pba (h : HostSide) : Nat :=
  (List.range 3).foldl (fun a v => a + if h.vector v && bit (mget 0 h.msix (4 * v + 3)) 0 then 2 ^ v else 0) 0
/-- What a BAR0 offset reads (R155, R156): an offset that R155 does not list reads 0. -/
def HostSide.word (h : HostSide) (off : Nat) : Nat :=
  if 0x2000 ≤ off ∧ off < 0x2030 ∧ off % 4 = 0 then mget 0 h.msix ((off - 0x2000) / 4)
  else if off = 0x3000 then h.pba
  else (barFieldsAt off).foldl (fun a p => a + h.rd p.1 p.2 * 2 ^ p.1.lo) 0
/-- Does R155 list an offset? -/
def barListed (off : Nat) : Bool :=
  (0x2000 ≤ off && off < 0x2030 && off % 4 == 0) || off == 0x3000 || off == 0x3004 || barFieldsAt off != []
/-- A host read of a BAR0 offset: the word goes to the host, and one that R155 does not list sets BAD_OFFSET (R156). -/
def HostSide.read (h : HostSide) (off : Nat) : HostSide :=
  let h := if barListed off then h else h.barErr BAR_ERR.BAD_OFFSET off
  { h with barData := if barListed off then h.word off else 0 }
/-- Something the host does on a host side that has its supply. -/
def State.onPowered (s : State) (g : HostSide → HostSide) : State := if s.host.powered then s.onHost g else s

/-- SQ_TAIL_DOORBELL (R160). -/
def execSqTailDoorbell (q : Fin 4) (tail : Word) (s : State) : Host.Outcome State Fault Refusal :=
  .next (s.onPowered fun h => h.tailWrite q.val tail.toNat)
/-- CQ_HEAD_DOORBELL (R164). -/
def execCqHeadDoorbell (head : Word) (s : State) : Host.Outcome State Fault Refusal :=
  .next (s.onPowered fun h => h.cqHeadWrite head.toNat)
/-- RING_ENABLE: the size register is written with EN 1 (R159). -/
def execRingEnable (ring : Fin 5) (value : Word) (s : State) : Host.Outcome State Fault Refusal :=
  .next (s.onPowered fun h => h.sizeWrite ring.val (value.toNat % 2 ^ 31 + 2 ^ 31))
/-- RING_DISABLE: the size register is written with EN 0 (R163). -/
def execRingDisable (ring : Fin 5) (value : Word) (s : State) : Host.Outcome State Fault Refusal :=
  .next (s.onPowered fun h => h.sizeWrite ring.val (value.toNat % 2 ^ 31))
/-- BAR0_REGISTER_WRITE: an access to a BAR0 offset, a write of a word or, with none, a read (R155, R156). -/
def execBar0RegisterWrite (off : BitVec 14) (value : Option Word) (s : State) : Host.Outcome State Fault Refusal :=
  .next (s.onPowered fun h => match value with
    | some v => h.write off.toNat v.toNat
    | none => h.read off.toNat)

/-! ### Fetching (R161, R162, R174 to R178) -/

/-- May the host side fetch from a queue now (R162, R175)? -/
def State.mayFetch (s : State) (q : Nat) : Bool :=
  s.host.enabled q && s.host.rd SQ_HEAD.HEAD q != s.host.rd SQ_TAIL.TAIL q && s.mayTake q
/-- The queue that is fetched from next: Q0, else Q1 to Q3 in turn. -/
def State.fetchQueue (s : State) : Option Nat :=
  (0 :: ((List.range 3).map fun i => (s.host.turn + i) % 3 + 1)).find? fun q => s.mayFetch q
/-- SQ_ENTRY_FETCH. -/
def doSqEntryFetch (entry : Bytes) (bulk : Bulk) (fail : DmaFail) (s : State) : State :=
  if !s.host.powered then s
  else
    match s.fetchQueue with
    | none => s
    | some q =>
      match fail with
      | some a => s.onHost fun h => (h.dmaErr (a.toNat % 2 ^ 32)).wr SQ_SIZE.EN 0 q
      | none =>
        let e := (entry ++ List.replicate 64 0#8).take 64
        let i := s.host.rd SQ_HEAD.HEAD q
        let tag := leAt e 2 2 % 1024; let op := leAt e 0 2
        let dup := s.dupTag tag
        let s := s.onHost fun h =>
          { (h.wr SQ_HEAD.HEAD ((i + 1) % 2 ^ h.log2 q) q) with turn := if q = 0 then h.turn else q % 3 }
        if s.field.core.elyUp then
          (s.track q tag i op).onHost fun h => { h with outbox := h.outbox ++ [⟨.host, q, i, e, bulk, dup, none⟩] }
        else s.hostComplete q tag i op (hostAnswer op s)
/-- SQ_ENTRY_FETCH (R162). -/
def execSqEntryFetch (entry : Bytes) (bulk : Bulk) (fail : DmaFail) (s : State) : Host.Outcome State Fault Refusal :=
  .next (doSqEntryFetch entry bulk fail s)

/-! ### The completion ring (R164 to R166, R171 to R173) -/

/-- Free entries of the completion ring. -/
def HostSide.cqFree (h : HostSide) : Nat :=
  let n := 2 ^ h.log2 4
  (h.rd CQ_HEAD.HEAD + 2 * n - h.rd CQ_TAIL.TAIL - 1) % n
/-- Bytes reach host memory from an address on. -/
def HostSide.putHost (h : HostSide) (a : Nat) (bs : Bytes) : HostSide :=
  { h with dataMem := (bs.foldl (fun (p : Nat × SMap (Option Byte)) b => (p.1 + 1, mput (p.1 % 2 ^ 64) (some b) p.2))
      (a, h.dataMem)).2 }
/-- Write one entry as 32 bytes at its slot of the ring, or hold it for a retry where the write fails (R166, R171). -/
def HostSide.putEntry (h : HostSide) (c : Compl) (fail : DmaFail) : HostSide :=
  match fail with
  | some a => { h.dmaErr (a.toNat % 2 ^ 32) with retry := some c }
  | none =>
    let t := h.rd CQ_TAIL.TAIL; let n := 2 ^ h.log2 4
    let h := h.putHost (h.rd CQ_BASE_LO.BASE + 2 ^ 32 * h.rd CQ_BASE_HI.BASE + 32 * t) (c.image h.phase)
    let h := { h with cqMem := mset none h.cqMem t (some (c, h.phase)), retry := none }
    let h := (h.wr CQ_TAIL.TAIL ((t + 1) % n)).wr IRQ_STATUS.CQ 1
    if t + 1 ≥ n then { h with phase := !h.phase } else h
/-- COMPLETION_ENTRY_WRITE: the oldest completion is written, else the oldest event: no completion waits behind an event, one
whose own write has failed among them (R173). -/
def HostSide.writeNext (h : HostSide) (fail : DmaFail) : HostSide :=
  if !h.enabled 4 ∨ h.cqFree = 0 then h
  else
    let drop := fun (c : Compl) => { h with arrived := dropFirst (· == c) h.arrived }
    match h.retry, h.arrived.find? (·.kind == 1) with
    | some e, some c =>
      if e.kind = 1 then h
      else
        let h := (drop c).putEntry c fail
        if h.retry.isNone then { h with retry := some e } else { h with arrived := e :: h.arrived }
    | some _, none => h
    | none, some c => (drop c).putEntry c fail
    | none, none =>
      match h.arrived with
      | [] => h
      | c :: _ => (drop c).putEntry c fail
/-- COMPLETION_WRITE_RETRY. -/
def HostSide.retryWrite (h : HostSide) (fail : DmaFail) : HostSide :=
  match h.retry with
  | none => h
  | some c => if !h.enabled 4 ∨ h.cqFree = 0 then h else h.putEntry c fail
/-- COMPLETION_ENTRY_WRITE (R171). -/
def execCompletionEntryWrite (fail : DmaFail) (s : State) : Host.Outcome State Fault Refusal :=
  .next (s.onPowered fun h => h.writeNext fail)
/-- COMPLETION_WRITE_RETRY (R166). -/
def execCompletionWriteRetry (fail : DmaFail) (s : State) : Host.Outcome State Fault Refusal :=
  .next (s.onPowered fun h => h.retryWrite fail)
/-- FIELD_LOST_COMPLETIONS: the host side completes what a field-side reset has lost. -/
def doFieldLostCompletions (s : State) : State :=
  let l := s.host.lost
  if !s.host.powered then s
  else l.foldl (fun s t =>
      let c := s.ownEntry t.q t.tag t.index t.opcode (.err 0x40 0x001B 0xFFFF none)
      (s.onHost fun h => ({ h with arrived := h.arrived ++ [c] } : HostSide).settled t.q).onCore Core.tickFree)
    (s.onHost fun h => { h with lost := [] })
/-- FIELD_LOST_COMPLETIONS (R200). -/
def execFieldLostCompletions (s : State) : Host.Outcome State Fault Refusal := .next (doFieldLostCompletions s)

/-! ### The field service port (R203 to R205) -/

/-- Undo byte stuffing; none where a flag stands inside or an escape ends the frame. -/
def unstuff : Bytes → Option Bytes
  | [] => some []
  | b :: bs =>
    if b = 0x7E#8 then none
    else if b = 0x7D#8 then
      match bs with
      | [] => none
      | c :: cs => if c = 0x7E#8 then none else (unstuff cs).map fun x => (c ^^^ 0x20#8) :: x
    else (unstuff bs).map (b :: ·)
/-- The entry of a frame; none where the frame is discarded. -/
def fspEntry (frame : Bytes) : Option Bytes :=
  match frame, frame.getLast? with
  | 0x7E#8 :: rest, some 0x7E#8 =>
    match unstuff rest.dropLast with
    | some b => if b.length = 68 ∧ crc32c (b.take 64) = leAt b 64 4 then some (b.take 64) else none
    | none => none
  | _, _ => none
/-- FSP_FRAME: one command at a time (R204); while the imago is dead a command waits (R201, R227). FSP has no ring: its completions
carry INDEX 0 (DESIGN CHOICE: log entry 175). -/
def doFspFrame (frame : Bytes) (s : State) : State :=
  if s.field.core.bootState = 1 then s
  else
    match fspEntry frame with
    | none => s.onCore fun c =>
      let n := c.cmdq.fspBad + 1
      ({ c with cmdq := { c.cmdq with fspBad := n } } : Core).emit 0x0106 (satU 32 n)
    | some e =>
      if s.field.core.fspBusy then
        s.onCore fun c => c.complete .fsp (leAt e 0 2) (leAt e 2 2 % 1024) 0 0 (busy 0)
      else
        let e : QCmd := ⟨.fsp, 0, 0, e, ⟨[], [], none⟩, false, none⟩
        if s.field.core.imagoDead then s.onCore fun c => c.await e else runEntry e (s.onCore Core.clearFsp)
/-- FSP_FRAME (R203, R204). -/
def execFspFrame (frame : Bytes) (s : State) : Host.Outcome State Fault Refusal := .next (doFspFrame frame s)

/-! ### Flits (R42 to R50, R251, R592) -/

/-- In BOOT_FAIL no chirp gives command slots: what waits starts at once (R120). -/
def bootFailStart : Nat → State → State
  | 0, s => s
  | n + 1, s => if s.field.core.bootState = 0xF then bootFailStart n (startNext (fun _ => true) s) else s
/-- Q0 commands start at once (R174, R216). -/
def startArrived (s : State) : State :=
  let n := s.field.core.cmdq.waiting.length
  bootFailStart n (startUrgent n s)
/-- A DATA flit that no open descriptor takes is discarded (R48). -/
def Core.rejectData (s : Core) : Core := (s.inc ELY_REJECT_CNT.COUNT).emit 0x0304
/-- Bytes that landed ahead of the first missing one join the rest once nothing is missing before them. -/
def DataDesc.absorb (d : DataDesc) : DataDesc :=
  d.ahead.foldl (fun d _ =>
    match d.ahead.find? fun p => p.1 ≤ d.got.length with
    | none => d
    | some p => { d with got := d.got.take p.1 ++ p.2 ++ d.got.drop (p.1 + p.2.length), ahead := d.ahead.erase p }) d
/-- A DATA flit lands in an open descriptor within its length; any other is rejected. Bytes for a command that has ended are
discarded (R48, R251). -/
def Core.landData (s : Core) (id off : Nat) (b : Bytes) : Core :=
  match s.ely.descs.find? (·.id == id) with
  | none => s.rejectData
  | some d =>
    if off + b.length > d.len then s.rejectData
    else if d.ended.isSome then s
    else
      let d' := ({ d with ahead := d.ahead ++ [(off, b)] } : DataDesc).absorb
      let s := s.setEly { s.ely with descs := mapIf (·.id == id) (fun _ => d') s.ely.descs }
      match d.region, d.cmd with
      | some a, none => (s.stores 2 (a + off) b.length).loadGot d.ref d'.got
      | _, _ => s.tableLanded d'
/-- Bulk data reaches the host's memory (R169, R170): after its last byte the command completes; an access that fails stops the
transfer there, shows in BAR_ERR, and the command completes with DMA_ABORT. -/
def State.landHost (s : State) (id off : Nat) (b : Bytes) : State :=
  match s.field.core.ely.toHost.find? (·.id == id) with
  | none => s
  | some d =>
    let put := fun (n : Nat) => s.onHost fun h => h.putData d.sgl off (b.take n)
    let close := fun (r : Reply) (s : State) => s.onCore fun c =>
      (c.setEly { c.ely with toHost := c.ely.toHost.filter (·.id != id) }).closeCmd d.ref r
    match d.fail with
    | some n =>
      if n < off + b.length then
        close (.err 0x12 0x000A 0xFFFF (some n)) ((put (n - off)).onHost fun h => h.dmaErr (sgAddr d.sgl n % 2 ^ 32))
      else put b.length
    | none => if off + b.length ≥ d.bytes.length then close d.reply (put b.length) else put b.length
/-- May the host side take a completion, or an event: the ring is enabled and has space for what has crossed (R165)? Events that
have crossed keep no completion out, for none waits behind an event (R173). -/
def HostSide.cqRoom (h : HostSide) (completion : Bool) : Bool :=
  let held := h.retry.toList ++ h.arrived
  h.enabled 4 && decide ((if completion then held.countP (·.kind == 1) else held.length) < h.cqFree)
/-- HOST_ALERT_N changes level (R51, R155). -/
def HostSide.setAlert (h : HostSide) (b : Bool) : HostSide :=
  if h.alert = b then h else { ((h.wr BAR_STATE.FIELD_ALIVE (b2n !b)).wr IRQ_STATUS.ALERT 1) with alert := b }

/-- The flits of bulk data not yet sent to the host: at most 512 bytes each (R43). -/
def HostData.chunk (d : HostData) : Option FlitBody :=
  if d.sent < d.bytes.length then some (.data d.id d.sent ((d.bytes.drop d.sent).take 512)) else none
/-- Does a flit carry what a row names? -/
def FlitBody.is : FlitBody → FlitMsg → Bool
  | .command _, .command | .hostHeartbeat, .hostHeartbeat | .fieldHeartbeat _, .fieldHeartbeat | .time _, .time => true
  | .completion _, .completion | .event _, .event => true
  | .data d o b, .data d' o' b' => d == d' && o == o' && b == b'
  | _, _ => false
/-- The message that waits on a virtual channel of a transmitter (R42), and, on VC2 towards the field, the bulk data that the host
side has read and `m` names. Of a command that has ended it reads no more (R251). Within VC0 the HEARTBEAT goes first, within VC1
towards the host completions go before events (R173); while the host is lost, and while its ring has no room, both wait (R50, R165).
-/
def State.waits (s : State) (toField : Bool) (m : FlitMsg) (vc : Nat) : Option FlitBody :=
  let e := s.field.core.ely
  if toField then
    match vc with
    | 0 => if e.hostHb then some .hostHeartbeat else (s.host.outbox.find? (·.q == 0)).map .command
    | 1 => (s.host.outbox.find? (·.q != 0)).map .command
    | _ => match m with
      | .data id off b =>
        if b ≠ [] ∧ b.length ≤ 512 ∧ !(e.descs.any fun d => d.id == id && d.ended.isSome) then some (.data id off b) else none
      | _ => none
  else
    match vc with
    | 0 => if e.fieldHb then some (.fieldHeartbeat s.field.core.fieldReport)
           else if e.fieldTime then some (.time s.field.core.etime) else none
    | 1 => if e.hostLost then none
           else match s.field.core.cmdq.done with
             | c :: _ => if s.host.cqRoom true then some (.completion c) else none
             | [] => if s.host.cqRoom false then s.field.core.cmdq.events.head?.map .event else none
    | _ => e.toHost.findSome? HostData.chunk
/-- Has VC2 a flit waiting? Towards the field: while a descriptor has bytes to come. -/
def State.bulkWaits (s : State) (toField : Bool) (m : FlitMsg) : Bool :=
  (s.waits toField m 2).isSome ||
    (toField && s.field.core.ely.descs.any fun d => d.ended.isNone && decide (d.got.length < d.len))
/-- What a transmitter sends next (R44, R45): VC0, then VC1, then VC2, each only with a credit, and one VC2 flit after 8 VC1
flits while VC2 has one waiting. -/
def State.choose (s : State) (toField : Bool) (m : FlitMsg) : Option FlitBody :=
  let d := s.field.core.ely.dir toField
  let ready := fun (vc : Nat) => if 0 < d.credit vc then s.waits toField m vc else none
  (ready 0).orElse fun _ =>
    if 8 ≤ d.run ∧ s.bulkWaits toField m ∧ 0 < d.credit 2 then ready 2 else (ready 1).orElse fun _ => ready 2
/-- A message leaves what it waited in. -/
def State.unqueue (s : State) (toField : Bool) (b : FlitBody) : State :=
  match b with
  | .command e => s.onHost fun h => { h with outbox := dropFirst (· == e) h.outbox }
  | .hostHeartbeat => s.onCore fun c => c.setEly { c.ely with hostHb := false }
  | .fieldHeartbeat _ => s.onCore fun c => c.setEly { c.ely with fieldHb := false }
  | .time _ => s.onCore fun c => c.setEly { c.ely with fieldTime := false }
  | .completion _ => s.onCore fun c => { c with cmdq := { c.cmdq with done := c.cmdq.done.drop 1 } }
  | .event _ => s.onCore fun c => { c with cmdq := { c.cmdq with events := c.cmdq.events.drop 1 } }
  | .data id _ b =>
    if toField then s
    else s.onCore fun c =>
      c.setEly { c.ely with toHost := mapIf (·.id == id) (fun d => { d with sent := d.sent + b.length }) c.ely.toHost }
/-- A transmitter sends a flit: it takes the next number, spends a credit and stays in the replay buffer (R45, R46). -/
def State.transmit (s : State) (toField : Bool) (b : FlitBody) : State :=
  (s.unqueue toField b).onCore fun c =>
    let d := c.ely.dir toField
    c.setDir toField { d.setCredit b.vc (d.credit b.vc - 1) with
      next := (d.next + 1) % 4096
      replay := d.replay ++ [⟨d.next, b⟩]
      run := if b.vc = 1 then d.run + 1 else 0
      quietAt := if d.replay = [] then c.etime else d.quietAt }
/-- The flit that a row names, by its number and what it carries: one that its transmitter has sent and that is not yet
acknowledged, or the one it sends next, with the state after sending it. A replay buffer holds 64 flits (R46). -/
def State.flitAt (s : State) (toField : Bool) (seq : Nat) (m : FlitMsg) : Option (Flit × State) :=
  let d := s.field.core.ely.dir toField
  match d.replay.find? (·.seq == seq) with
  | some f => if f.body.is m then some (f, s) else none
  | none =>
    if seq ≠ d.next ∨ d.replay.length ≥ 64 then none
    else match s.choose toField m with
      | some b => if b.is m then some (⟨seq, b⟩, s.transmit toField b) else none
      | none => none

/-- The receiver delivers what a flit carries. -/
def State.deliver (s : State) (toField : Bool) (b : FlitBody) : State :=
  match b with
  | .command e => startArrived (s.onCore fun c => c.await e)
  | .hostHeartbeat => (s.onCore Core.heardHost).syncHost
  | .fieldHeartbeat r => (s.onHost fun h => { h with report := r, hbAt := s.field.core.etime }.setAlert false).syncHost
  | .time t => s.onHost fun h => { h with time := t }
  | .data id off b => if toField then s.onCore fun c => c.landData id off b else s.landHost id off b
  | .completion c => s.onHost fun h =>
    let own := fun (t : Track) => t == ⟨c.q, c.tag, c.index, c.opcode⟩
    let h' := { h with arrived := h.arrived ++ [c], tracked := dropFirst own h.tracked }
    if h.tracked.any own then h'.settled c.q else h'
  | .event c => s.onHost fun h => { h with arrived := h.arrived ++ [c] }
/-- The receiver of a direction asks for replay from the flit it expects: the sender sends again all it has not seen
acknowledged (R46). -/
def Core.nak (s : Core) (toField : Bool) : Core :=
  let d := s.ely.dir toField
  (s.inc ELY_REPLAY_CNT.COUNT 0 d.replay.length).setDir toField { d with nak := some d.want }
/-- A flit is taken: the next is expected, it is acknowledged, and its buffer is free again, host to field through the crossing
of R589, field to host at once. -/
def Core.takeFlit (s : Core) (toField : Bool) (f : Flit) : Core :=
  let d := s.ely.dir toField
  let d := { d with want := (f.seq + 1) % 4096, nak := none, quietAt := s.etime, replay := d.replay.filter (·.seq != f.seq) }
  if toField then (s.setDir true d).freeBuffer f.body.vc
  else s.setDir false (d.setCredit f.body.vc (d.credit f.body.vc + 1))
/-- A flit at its receiver, past any injection rule: CRC, sequence, delivery. A flit taken before is dropped in silence. -/
def recvFlit (toField : Bool) (f : Flit) (crcGood parityBad : Bool) (s : State) : State :=
  let d := s.field.core.ely.dir toField
  if !crcGood ∨ (parityBad ∧ !toField) then
    s.onCore fun c => (if toField then c.inc ELY_CRC_ERR_CNT.COUNT else c).nak toField
  else if f.seq ≠ d.want then
    if (d.want + 4096 - f.seq) % 4096 ≤ 64 ∨ d.nak.isSome then s else s.onCore fun c => c.nak toField
  else (s.onCore fun c => c.takeFlit toField f).deliver toField f.body
/-- Receive a held flit. -/
def recvHeld (u : HeldUnit) (s : State) : State :=
  match u.unit with
  | some (.elyFlitReceive t seq ok par m) =>
    match s.flitAt t seq.toNat m with
    | some (f, s) => recvFlit t f ok par s
    | none => s
  | _ => s
/-- ELY_FLIT_RECEIVE: flits cross while the link is up and not retraining; injection rules act first, on VC1 and VC2. The row
names the flit: its number, what it carries, and whether its CRC-32C agrees at the receiver (the spec gives the 16-byte header of
R43 no layout: log entry 34). -/
def doElyFlitReceive (t : Bool) (seq : BitVec 12) (ok par : Bool) (m : FlitMsg) (s : State) : State :=
  if !s.field.core.flitsCross ∨ !s.host.powered then s
  else
    match (s.onCore Core.creditBack).flitAt t seq.toNat m with
    | none => s
    | some (f, s) =>
      let vc := f.body.vc
      if vc = 0 then recvFlit t f ok par s
      else
        let path := if t then 1 else 2
        let (act, c) := s.field.core.fijUnit path 0
        let s := s.onCore fun _ => c
        let ok := match act with
          | some (2, _) => false
          | _ => ok
        let hold := fun (d : Option Nat) => s.onCore fun c => c.fijHold ⟨path, 0, vc, d, some (.elyFlitReceive t seq ok par m), []⟩
        let mine := fun (u : HeldUnit) => u.target == path
        match act, c.fij.held.find? fun u => mine u && u.due.isSome with
        | some (1, _), _ => s
        | _, some u => hold u.due
        | some (4, arg), none => hold (some (c.etime + arg))
        | act, none =>
          match c.fij.held.find? fun u => mine u && u.kind == vc with
          | some u =>
            let s := s.onCore fun c => { c with fij := { c.fij with held := dropFirst (· == u) c.fij.held } }
            recvHeld u (recvFlit t f ok par s)
          | none =>
            match act with
            | some (3, _) => hold none
            | _ => recvFlit t f ok par s
/-- ELY_FLIT_RECEIVE (R46). -/
def execElyFlitReceive (toField : Bool) (seq : BitVec 12) (crcGood parityBad : Bool) (msg : FlitMsg) (s : State) :
    Host.Outcome State Fault Refusal := .next (doElyFlitReceive toField seq crcGood parityBad msg s)

/-- Has the host side sent bytes for a descriptor that have not arrived: are they among the flits not acknowledged (R251)? -/
def Core.onItsWay (s : Core) (id : Nat) : Bool :=
  (s.ely.dir true).replay.any fun f => match f.body with
    | .data d _ _ => d == id
    | _ => false
/-- DATA_DESCRIPTOR_CLOSE: a descriptor whose last byte has landed closes, and its command goes on; one whose command had ended
closes once every byte sent has arrived, and its command completes (R251). The staging of a command that checks its data as it goes
on is taken anew then (R567). While the imago is dead no command goes on (R228). -/
def doDataDescriptorClose (id : Nat) (s : State) : State :=
  match s.field.core.ely.descs.find? (·.id == id) with
  | none => s
  | some d =>
    let t := s.onCore fun c => c.setEly { c.ely with descs := c.ely.descs.filter (·.id != id) }
    match d.ended with
    | some r =>
      if s.field.core.onItsWay id then s else t.onCore fun c => (c.freeRegions d.region.toList).closeCmd d.ref r
    | none =>
      if d.got.length ≥ d.len ∧ !s.field.core.imagoDead then
        let t := if d.cmd.isSome then t.onCore fun c => c.freeRegions d.region.toList else t
        startArrived (runWaiting d t)
      else s
/-- DATA_DESCRIPTOR_CLOSE (R251). -/
def execDataDescriptorClose (desc : Nat) (s : State) : Host.Outcome State Fault Refusal := .next (doDataDescriptorClose desc s)

/-! ### The link and the host side as a whole (R47, R49, R51, R86, R100, R202) -/

/-- Apply a function to the field side's records unless it is held in reset. -/
def State.onRunning (s : State) (g : Core → Core) : State := if s.field.core.bootState = 1 then s else s.onCore g
/-- With no command waiting, one nanosecond passes: ETIME counts while the field side is out of reset (R22). DESIGN CHOICE:
log entry 1. -/
def State.idle (s : State) : State := s.onRunning fun c => { c with etime := c.etime + 1 }
/-- ELY_REPLAY_TIMEOUT: 10 µs pass without an acknowledgement, and every unacknowledged flit is replayed; with none, or while no
flit crosses, nothing happens. -/
def doElyReplayTimeout (toField : Bool) (s : State) : State :=
  s.onRunning fun c =>
    let d := c.ely.dir toField
    if d.replay = [] ∨ !c.flitsCross then c
    else
      let c := (c.reach (d.quietAt + 10000)).inc ELY_REPLAY_CNT.COUNT 0 d.replay.length
      c.setDir toField { d with quietAt := c.etime }
/-- ELY_REPLAY_TIMEOUT (R46). -/
def execElyReplayTimeout (toField : Bool) (s : State) : Host.Outcome State Fault Refusal := .next (doElyReplayTimeout toField s)
/-- ELY_LANE_DOWN (R47). -/
def execElyLaneDown (toField : Bool) (s : State) : Host.Outcome State Fault Refusal :=
  .next ((s.onRunning (laneDown toField)).syncHost)
/-- ELY_RETRAIN_DONE: both ends have their supply and are out of reset (R47). -/
def execElyRetrainDone (h2f f2h : Fin 5) (s : State) : Host.Outcome State Fault Refusal :=
  .next (if s.host.powered then (s.onRunning (retrainDone h2f.val f2h.val)).syncHost else s)
/-- HOST_HEARTBEAT_SEND: 100 µs after the last by the host side's own timer; while the elytron is up the HEARTBEAT waits on VC0
for its flit (R42). ETIME measures the time while the field side runs. -/
def doHostHeartbeatSend (s : State) : State :=
  if !s.host.powered then s
  else
    let s := s.onRunning fun c => c.reach (s.host.hbSent + 100000)
    let s := s.onHost fun h => { h with hbSent := s.field.core.etime }
    if s.field.core.elyUp then s.onCore fun c => c.setEly { c.ely with hostHb := true } else s
/-- HOST_HEARTBEAT_SEND (R42). -/
def execHostHeartbeatSend (s : State) : Host.Outcome State Fault Refusal := .next (doHostHeartbeatSend s)
/-- ELY_HOST_LOST (R49). -/
def execElyHostLost (s : State) : Host.Outcome State Fault Refusal := .next (s.onRunning hostSilent)
/-- HOST_ALERT_ASSERT: 1 ms has passed since the last field HEARTBEAT (R51). ETIME measures it while the field side runs. -/
def doHostAlertAssert (s : State) : State :=
  if !s.host.powered then s
  else (s.onRunning fun c => c.reach (s.host.hbAt + 1000000)).onHost fun h => h.setAlert true
/-- HOST_ALERT_ASSERT (R51). -/
def execHostAlertAssert (s : State) : Host.Outcome State Fault Refusal := .next (doHostAlertAssert s)

/-- The host side's registers and volatile state go back to reset. Commands already forwarded stay tracked, what has been
fetched is still sent (R178), and what has crossed to the host side stays held for its ring (R202). -/
def HostSide.restart (h : HostSide) (on : Bool) (etime : Nat) : HostSide :=
  { HostSide.reset with
    powered := on, hbAt := etime, hbSent := etime
    tracked := h.tracked, outbox := h.outbox, answers := h.answers
    arrived := (match h.retry with | some c => [c] | none => []) ++ h.arrived
    lost := h.lost, cqMem := h.cqMem, dataMem := h.dataMem, flash := h.flash }
/-- Numbering starts again in both directions: what was sent and not acknowledged waits to be sent again. -/
def State.restartFlits (s : State) : State :=
  let e := s.field.core.ely
  let up := e.toF.replay.map (·.body); let down := e.toH.replay.map (·.body)
  let entries := up.filterMap fun b => match b with | .command x => some x | _ => none
  let done := down.filterMap fun b => match b with | .completion x => some x | _ => none
  let events := down.filterMap fun b => match b with | .event x => some x | _ => none
  let back := fun (d : HostData) =>
    { d with sent := down.foldl (fun n b => match b with | .data id off _ => if id = d.id then min n off else n | _ => n) d.sent }
  (s.onHost fun h => { h with outbox := entries ++ h.outbox }).onCore fun c =>
    let c := c.setEly { c.ely with toF := e.toF.restart, toH := e.toH.restart, toHost := e.toHost.map back }
    ({ c with cmdq := { c.cmdq with done := done ++ c.cmdq.done } } : Core).holdEvents (events ++ c.cmdq.events)
/-- The host side restarts: with its end gone, no lane of the elytron stays up, and sequence numbers start again. The lanes go
down together, and ELY_LINK_DOWN alone reports it (DESIGN CHOICE: log entry 137). -/
def hostRestart (on : Bool) (s : State) : State :=
  ((s.onHost fun h => h.restart on s.field.core.etime).restartFlits.onRunning fun c => c.changeLanes 0 0).syncHost
/-- HOST_SIDE_RESET (R86). -/
def execHostSideReset (s : State) : Host.Outcome State Fault Refusal :=
  .next (if s.host.powered then hostRestart true s else s)
/-- HOST_SUPPLY_CHANGE (R100). -/
def execHostSupplyChange (on : Bool) (s : State) : Host.Outcome State Fault Refusal :=
  .next (if s.host.powered = on then s else hostRestart on s)

/-! ### Held units (R592) -/

/-- A held unit of any path goes on. -/
def releaseUnit (s : State) (u : HeldUnit) : State :=
  if u.target = 3 then
    s.onCore fun c => if c.linkRuns u.inst then c.sendMore u.inst u.blocks else c
  else
    match u.unit with
    | some (.returnMessageReceive l v m mem) => s.onCore fun c => if c.linkUp l.val then c.takeMsg l.val v m mem else c
    | some (.elyFlitReceive _ _ _ _ _) => if s.field.core.flitsCross && s.host.powered then recvHeld u s else s
    | some i => s.onCore fun c => c.camRecv i
    | none => s
/-- FIJ_DELAY_RELEASE: the earliest hold time expires; its unit and every unit held behind it on its path go on in order. -/
def doFijDelayRelease (s : State) : State :=
  match (s.field.core.fij.held.filterMap (·.due)).min? with
  | none => s
  | some t =>
    let s := s.onCore fun c => c.reach t
    let out := s.field.core.fij.held.filter fun u => match u.due with | some d => d ≤ s.field.core.etime | none => false
    let s := s.onCore fun c => { c with fij := { c.fij with held := c.fij.held.filter fun u => !out.contains u } }
    out.foldl releaseUnit s
/-- FIJ_DELAY_RELEASE (R592). -/
def execFijDelayRelease (s : State) : Host.Outcome State Fault Refusal := .next (doFijDelayRelease s)

end Sys2Proof.Machine
end

