-- ==== Sys2Proof/Machine/Tick.lean ====
section
/-! DEFINITION. The chirp and the tick cores: the chirp's work, heartbeats, checkpoints, takeover, restart and planned
handover (spec/05_chirp_and_tick_cores.md R208 to R245). -/

namespace Sys2Proof.Machine

/-! ### What the hardware measures at a chirp boundary -/

/-- A share of `whole` in 0.1 %, at most 1,023. -/
def permille (part whole : Nat) : Nat := satU 10 (1000 * part / max 1 whole)
/-- A load register pair with its peak. -/
def Core.showLoad (s : Core) (f peak : Fld) (v : Nat) (n : Nat := 0) : Core :=
  (s.wr f v n).wr peak (max (s.rd peak n) v) n
/-- The links' figures of the last chirp: forward blocks of 64 bits against 24.242 Gb/s, 16 characters of 3.2 ns for each
return message, and one chirp more since each slot's last STATUS (R414, R422, R447). -/
def Core.linkFigures (s : Core) (us : Nat) : Core :=
  (List.range 24).foldl (fun s l =>
    let x := s.ln l
    let s := if x.fwd = 0 ∧ x.ret = 0 then s else s.setLn l { x with fwd := 0, ret := 0 }
    let s := (s.wr HLK_UTIL.FWD (permille (64 * x.fwd) (24242 * us)) l).wr HLK_UTIL.RET (permille (512 * x.ret) (10000 * us)) l
    (List.range 8).foldl (fun s k => s.inc HLK_SLOT_THERM.AGE (8 * l + k)) s) s
/-- The pipeline's load against its capacity at the throttle level in force (R463, R546), and each channel's DRAM load: the words
of 64 bytes it has moved in the chirp, against 25.6 GB/s (R533). -/
def Core.loadFigures (s : Core) (us : Nat) : Core :=
  let s := s.showLoad ISP_LOAD.LOAD ISP_LOAD.PEAK (permille s.cam.busySamples (s.ispRate * us))
  let s := { s with cam := { s.cam with busySamples := 0 } }
  let words := s.mem.words
  (maskBits 4 (s.rd MEM_STATUS.IN_SERVICE)).foldl (fun s ch =>
    s.showLoad MEMC_UTIL.LOAD MEMC_UTIL.PEAK (permille (64 * mget 0 words ch) (25600 * us)) ch)
    (s.setMem { s.mem with words := [] })
/-- The time heads have been enabled, and the seconds since their last usage write (R444, R447); before the first, AGE_S counts from
the field reset (DESIGN CHOICE: log entry 161). -/
def Core.headTimes (s : Core) : Core :=
  (s.allHeads.filter fun h => (s.hr h).serial.isSome).foldl (fun s h =>
    (s.countFire h).wr HLK_SLOT_USAGE.AGE_S (satU 16 ((s.etime - (s.hr h).writtenAt) / 1000000000)) h) s

/-! ### Heartbeats (R219 to R221, R223) -/

/-- One heartbeat path has advanced or missed: its miss count and its run of misses while the other path advances. -/
def Core.hbPath (s : Core) (adv other : Bool) (run : Nat) (path : Nat) (cnt loss : Fld) : Nat × Core :=
  let n := if adv then 0 else if other then run + 1 else 0
  let s := if adv then s else s.inc cnt
  let s := if adv && s.rdb loss then (s.wr loss 0).emit 0x0204 path
    else if decide (n ≥ s.tck.missLimit) && !s.rdb loss then (s.wr loss 1).emit 0x0203 path else s
  (n, s)
/-- The imago signals liveness at an ETIME: it toggles the HB wire and increments the heartbeat word (R219). -/
def Core.beat (s : Core) (t : Nat) : Core :=
  s.setTck { s.tck with hbWire := !s.tck.hbWire, hbWord := s.tck.hbWord + 1, hbAt := t }
/-- The heartbeats made by an ETIME: the last one may come after it (R213). -/
def Core.beatsBy (s : Core) (t : Nat) : Nat := if s.tck.hbAt ≤ t then s.tck.hbWord else s.tck.hbWord - 1
/-- The monitor at the boundary of an ETIME, for the chirp that has ended: a path has advanced where it has carried a heartbeat
made within it. -/
def Core.monitor (s : Core) (t : Nat) (wireOk wordOk pupa : Bool) : Core :=
  let made := s.beatsBy t != s.tck.seenWord
  let wire := wireOk && made; let word := wordOk && made
  let s := s.setTck { s.tck with
    seenWord := s.beatsBy t, goodAt := if (wire || word) && decide (s.tck.hbAt ≤ t) then s.tck.hbAt else s.tck.goodAt }
  let (nw, s) := s.hbPath wire word s.tck.wireRun 0 TCK_HB_WIRE_MISS_CNT.COUNT TCK_STATUS.HB_WIRE_LOSS
  let (nd, s) := s.hbPath word wire s.tck.wordRun 1 TCK_HB_WORD_MISS_CNT.COUNT TCK_STATUS.HB_WORD_LOSS
  let s := s.wr TCK_STATUS.MISS_RUN (if wire || word then 0 else satU 4 (s.rd TCK_STATUS.MISS_RUN + 1))
  let live := s.rd TCK_STATUS.PUPA_STATE ≥ 2
  let drill := s.tck.drill.map fun d =>
    if d.swapped then { d with chirps := some (d.chirps.elim 0 fun n => if wire && word then n + 1 else 0) } else d
  s.setTck { s.tck with
    wireRun := nw, wordRun := nd, drill := drill, pupaSilent := if live && !pupa then s.tck.pupaSilent + 1 else 0 }

/-! ### The work of a chirp (R210 to R213) -/

/-- The accounting identities of R595 that an independent figure checks: the lines of a head, and the compare entries. The
drop sum of a head is its counter itself. -/
def Core.acctOk (s : Core) (h : Nat) : Bool :=
  s.rd HDC_ISSUED_LO.COUNT h == (s.rd HDC_STROBED_LO.COUNT h + s.rd HDC_LATE.COUNT h + s.rd HDC_OVS.COUNT h +
    s.rd HDC_INH.COUNT h + s.rd HDC_UNCONF.COUNT h + (s.hf h).issued.length) % 2 ^ 32
/-- The compare identity. -/
def Core.cmpAcctOk (s : Core) : Bool :=
  s.rd CMP_APPENDED_CNT.COUNT == (s.rd CMP_FIRED_CNT.COUNT + s.rd CMP_MISSED_CNT.COUNT + s.rd CMP_STATUS.PENDING) % 2 ^ 32
/-- The accounting check of item 9 (R597). -/
def Core.acctCheck (s : Core) : Core :=
  let bad := fun (s : Core) (id head : Nat) => (s.inc LOG_ACCT_CNT.COUNT).emit 0x0F09 (id + at_ 1 head)
  let s := (s.allHeads.filter fun h => !s.acctOk h).foldl (fun s h => bad s 1 h) s
  if s.cmpAcctOk then s else bad s 3 0xFF
/-- Item 8: the servo step; strips are measured where that is admitted (R476, R509). -/
def servoItem (f : Field) : Field := ⟨f.core.servoStep f.dram f.core.servoAdmitted, f.dram.spend⟩
/-- Items 6 to 9 in order: event drain; command slots 2 to 4; the servo; background control. -/
def chirpItem (i : Nat) (s : State) : State :=
  if i = 0 then s.onCore Core.drainEvents
  else if i = 1 then startNext (!·.urgent) (startNext (!·.urgent) (startNext (!·.urgent) s))
  else if i = 2 then { s with field := servoItem s.field }
  else if i = 3 then s.onCore fun c => c.startMig.flashNext.acctCheck
  else s
/-- A checkpoint is valid when its header's CRC-32C matches (R224). -/
def Ckpt.valid (k : Ckpt) : Bool := k.magic == 0x544B5043 && k.crcOk
/-- A started command's place in the command table of a checkpoint: its group is its place in the commit log. -/
def Core.ckptCmd (s : Core) (state tag q opcode index opId cursor : Nat) : CkptCmd :=
  ⟨tag, q, opcode, index, state, ((s.tck.commitLog.idxOf? (tag, q)).map (· + 1)).getD 0, opId, cursor⟩
/-- How far a command of several chirps has come: the bytes of a load that are decoded. -/
def Core.cursorOf (s : Core) (r : CmdRef) : Nat := ((s.jobs.loads.find? (·.ref == r)).map (·.pos)).getD 0
/-- What a checkpoint taken now holds (R224). -/
def Core.ckptBody (s : Core) : CkptBody where
  commands :=
    (s.cmdq.waiting.map fun e => s.ckptCmd 0 (leAt e.entry 2 2 % 1024) e.q (leAt e.entry 0 2) e.index 0 0) ++
    (s.cmdq.open_.map fun r => s.ckptCmd 1 r.tag r.q r.opcode r.index 0 (s.cursorOf r)) ++
    s.cmdq.async.map fun a => s.ckptCmd 2 a.tag a.q a.opcode 0 a.opId 0
  jobs := s.jobs.jobs.map fun j =>
    ⟨j.id, j.state, ((s.jobs.switches.filter (·.dst == j.id)).map (·.fired)).foldl (· ||| ·) 0, j.defects⟩
  terms := [SPG_TERM_STATIC.HZ, SPG_TERM_RUNWAY.HZ, SPG_TERM_ELY.HZ, SPG_TERM_HEAD.HZ, SPG_TERM_THERM.HZ, SPG_TERM_POWER.HZ,
    SPG_TERM_HOST.HZ].map fun f => s.rd f
  ceil := s.spg.ceil
  spd := [0, 1].map fun c => s.rd SPG_SPD_VAL.CODE c
  pwm := [0, 1].map fun c => (mget (0, 0) s.spg.pwm c).2
  runway := s.spg.elyAvg
  thermal := s.thm
  staged := s.csv.stages
  strips := s.csv.strips.map (·.num)
  scrub := s.rd MEM_SCRUB_POS.PAGE
  migration := s.mem.cur.map fun m => (m.1.ch, m.1.rank, s.rd MEM_MIG_CURSOR.ROW)
  deferred := s.flash.queue.length
  usage := s.hlk.heads.map fun h => (h.1, h.2.writtenAt)
  privilege := s.rd CMDQ_PRIV.HOST
  auth := s.cmdq.authHost
  evSeq := s.cmdq.evSeq
  opNext := s.cmdq.opNext
  molt := s.tck.molt
  drill := s.tck.drill
  revert := s.rdb TCK_STATUS.REVERT_PENDING
/-- Is bank `b` the newer: valid, and of a higher chirp number than `a` if that is valid? Of two with one chirp number, which a
handover leaves, the one written later is (DESIGN CHOICE: log entry 156). -/
def newerCkpt (a b : Option Ckpt) : Bool :=
  match b.filter Ckpt.valid, a.filter Ckpt.valid with
  | none, _ => false
  | some _, none => true
  | some y, some x => decide (x.chirp < y.chirp) || (x.chirp == y.chirp && decide (x.etime < y.etime))
/-- Item 10: the checkpoint goes into the bank that does not hold the newest valid one, its header last: cut short, it has no good
CRC-32C. Its length is that of the parts which R224 lists. -/
def Core.checkpoint (s : Core) (handover : Bool) (whole : Bool := true) : Core :=
  let t := s.tck
  let i := s.imago
  let k : Ckpt := ⟨0x544B5043, s.rd SYS_EPOCH.CKPT_EPOCH i, i, t.chirpNo, s.etime, 23168, handover, whole, s.ckptBody⟩
  if newerCkpt t.bank1 t.bank0 then s.setTck { t with bank1 := some k } else s.setTck { t with bank0 := some k }
/-- The ETIME at which the chirp's work ends. -/
def Core.workEnd (s : Core) : Nat := max s.etime (s.tck.last + s.tck.workNs)
/-- The chirp's work ends with item 10: checkpoint, heartbeats and the watchdog kick. -/
def Core.endChirp (s : Core) : Core :=
  let s := s.wr TCK_CHIRP_MAX.NS (max (s.rd TCK_CHIRP_MAX.NS) (satU 20 s.tck.workNs))
  let s := (s.checkpoint false).beat s.workEnd
  s.setTck { s.tck with dropped := 0, kickAt := s.workEnd }
/-- The imago fails while it writes the checkpoint: the bank stays spoilt, and neither heartbeat nor kick follows (R224). -/
def Core.tearChirp (s : Core) : Core :=
  let s := s.checkpoint false (whole := false)
  s.setTck { s.tck with dropped := 0, imagoUp := false }
/-- A write of a port that only the holder of the imago line writes (R217): another core's is not executed, returns a bus error
to it, and counts. -/
def Core.portWrite (s : Core) (core : Nat) : Core :=
  if s.rdb TCK_STATUS.LINE_HELD && s.imago == core then s
  else
    let s := s.inc TCK_LINE_DENY_CNT.COUNT
    s.setTck { s.tck with busErr := mset 0 s.tck.busErr core (mget 0 s.tck.busErr core + 1) }
/-- A chirp boundary for the timer and the hardware beside the cores: period and limit in force, the count, the monitor,
job boundaries, figures, and the HEARTBEAT and TIME flits. -/
def Core.boundary (s : Core) (i : ChirpIn) : Core :=
  let us := s.tck.period
  let s := s.reach (s.tck.last + 1000 * us)
  let s := s.setTck { s.tck with
    last := s.tck.last + 1000 * us, period := s.rd TCK_CFG.CHIRP_US, missLimit := s.rd TCK_CFG.HB_MISS_LIMIT
    jobBoundary := s.tck.boundary || !s.printing, boundary := false, dropped := 0, chirpNo := s.tck.chirpNo + 1
    imagoUp := s.tck.imagoUp && i.works && i.coreParity.isNone }
  let s := i.portWrites.foldl (fun s core => s.portWrite core.val) s
  let s := (s.incW TCK_CHIRP_CNT.COUNT).monitor s.tck.last i.wire i.word i.pupa
  let s := ((s.linkFigures us).loadFigures us).headTimes
  let s := match i.coreParity with | some w => s.sramParity 3 w.toNat | none => s
  let s := match i.ckptParity with | some w => s.sramParity 4 w.toNat | none => s
  if s.elyUp then s.setEly { s.ely with fieldHb := true, fieldTime := true } else s
/-- The samples of a chirp: DT is the hottest of what the devices last reported, unless the reading fails (R518, R535). -/
def Core.samples (s : Core) (i : ChirpIn) : List (Nat × Reading) :=
  let l := i.sensors.map fun p => (p.1.val, p.2)
  if i.mr4 = [] ∨ l.any (·.1 == 24) then l
  else l ++ [(24, .temp (BitVec.ofNat 16 (10 * (s.mem.mr4.map (·.2)).foldl max 0)))]
/-- Items 2 to 4. -/
def Core.chirpControl (s : Core) (i : ChirpIn) : Core :=
  let s := s.speedStep
  let s := s.setMem { s.mem with mr4 := i.mr4.foldl (fun m p => mset 0 m p.1.val p.2.toNat) s.mem.mr4 }
  let s := (s.thermal (s.samples i)).measurePower i.iin.toNat
  (s.setStatic).showSched
/-- CHIRP. An imago that does not do its chirp's work has failed, as has one that stops in its checkpoint, or finds bad parity in
its local memory: it has stopped for good (R226, R579). -/
def doChirp (i : ChirpIn) (s : State) : State :=
  if !s.field.core.tck.running then s
  else
    let s := s.onCore fun c => c.boundary i
    if !s.field.core.tck.imagoUp then s
    else
      let s := s.onCore fun c => (c.setTck { c.tck with workNs := i.workNs.toNat }).chirpControl i
      let s := { s with field := dspSteps s.field }
      let s := startNext (!·.urgent) s
      let n := i.items.val
      let s := (List.range n).foldl (fun s k => chirpItem k s) s
      s.onCore fun c =>
        if i.torn then c.tearChirp else if n = 4 then c.endChirp else c.setTck { c.tck with dropped := 4 - n }
/-- CHECKPOINT_DEADLINE: the items that have not run are dropped for this chirp, and item 10 runs; `hard`: items 1 to 5 had
run past the deadline. `workNs` is the length of the chirp's work up to the end of the checkpoint. -/
def doCheckpointDeadline (hard : Bool) (workNs : Nat) (s : Core) : Core :=
  if s.tck.dropped = 0 then s
  else
    let due := 1000 * s.tck.period - 8000
    let s := s.reach (s.tck.last + due)
    let s := s.setTck { s.tck with workNs := max due workNs }
    let s := if hard then (s.inc TCK_HARD_OVR_CNT.COUNT).emit 0x0202 s.chirps else s
    let s := (s.inc TCK_OVR_CNT.COUNT).emitSum 0x0201 0 1 fun n => n
    s.endChirp

/-! ### Takeover (R226 to R232) -/

/-- The failure count of a core as imago. -/
def failCnt (core : Nat) : Fld := if core = 0 then TCK_STATUS.A_FAIL_CNT else TCK_STATUS.B_FAIL_CNT
/-- Put a core into reset, to be released later (R229). -/
def Core.hold (s : Core) (core : Nat) : Core :=
  ((s.resetCore core).pupaDown 0).setTck { s.tck with held := some core, heldAt := s.etime, pupaSilent := 0 }
/-- A core becomes imago: it kicks the watchdog at the resume, its heartbeats come with its first chirp (R219, R226), and the
switch is recorded. -/
def Core.seize (s : Core) (core kind gap : Nat) (cnt : Fld) : Core :=
  let s := s.wrs [(SYS_BOOT.IMAGO, core), (TCK_STATUS.IMAGO_CORE, core), (TCK_STATUS.LINE_HELD, 1),
    (TCK_LAST_GAP.NS, satU 24 gap), (TCK_LAST_GAP.KIND, kind)]
  let s := (s.wr2 TCK_LAST_SWITCH_LO.ETIME TCK_LAST_SWITCH_HI.ETIME s.etime).inc cnt
  s.setTck { s.tck with kickAt := s.etime, wireRun := 0, wordRun := 0, dropped := 0, imagoUp := true }
/-- The event of a finished switch. -/
def Core.switchEvent (s : Core) (code core b1 gap : Nat) : Core :=
  s.emit code (core + at_ 1 b1 + at_ 2 (s.rd SYS_EPOCH.CMD_EPOCH core) + at_ 4 (satU 32 gap) + at_ 8 (s.rd SYS_FW.MAP_EPOCH core))
/-- The references of commands that wait for their data: their write group has not been committed. -/
def Core.waitingRefs (s : Core) : List CmdRef :=
  s.ely.descs.map (·.ref)
/-- Commands in the middle of execution complete with HELD_SWITCHOVER, bit 0 of DETAIL_VALUE telling whether the commit log
holds their group (R201, R228): at once, or, where they wait for data and so have no group yet, when their descriptor has
closed (R251). Loads end, their bands NOT_LOADED again, and appends not yet landed leave their rings. -/
def Core.holdCommands (s : Core) : Core :=
  let held := fun (n : Nat) => Reply.err 0x30 0 0xFFFF (some n)
  let s := s.jobs.loads.foldl (fun s ld => s.endLoad ld (held 0)) s
  let w := s.waitingRefs
  let logged := fun (r : CmdRef) => b2n (s.tck.commitLog.contains (r.tag, r.q))
  let s := (s.cmdq.open_.filter fun r => !w.contains r).foldl
    (fun s r => s.closeCmd r (held (logged r))) s
  let js := s.jobs.jobs.map fun j => { j with ring := j.ring.map fun r => r.settle (r.segs.filter fun e => e.2.2.isSome) }
  let s := ({ s with jobs := { s.jobs with jobs := js } } : Core).refreshRing
  s.endDescs (held 0) fun _ => true
/-- Operations still running report HELD_SWITCHOVER; their commands' groups were committed. A drill that had swapped the
cores fails. Switches that fell due meanwhile are recorded after that (R201, R241, R505). -/
def Core.holdOps (s : Core) : Core :=
  let s := match s.tck.drill with
    | some d => if d.swapped then s.asyncErr d.opId 0x40 0 0x0205 else s
    | none => s
  let s := s.cmdq.async.foldl (fun s a => s.asyncErr a.opId 0x30 0 1) s
  let s := (s.setTck { s.tck with drill := none, molt := none }).wrs [(TCK_STATUS.DRILL_PENDING, 0), (TCK_STATUS.MOLT_PENDING, 0)]
  s.recordDue
/-- The newest valid bank, less those found with bad parity (R224). -/
def Core.newestCkpt (s : Core) (bad : Nat → Bool) : Option Ckpt :=
  let b0 := if bad 0 then none else s.tck.bank0
  let b1 := if bad 1 then none else s.tck.bank1
  if newerCkpt b0 b1 then b1 else b0.filter Ckpt.valid
/-- The resuming core takes over from a checkpoint what neither hardware nor the table of commands in flight holds: the current
ceiling, the runway filter, and the state of temperature and power, but for the run counts of the hardware guard and a pending
throttle request, which hardware holds (R224 to R226, R550).
DEDUCED: log entry 46. -/
def Core.restore (s : Core) (k : Ckpt) : Core :=
  { s with spg := { s.spg with ceil := k.body.ceil, elyAvg := k.body.runway }
           thm := { k.body.thermal with guard := s.thm.guard, pendAt := s.thm.pendAt, pendBy := s.thm.pendBy } }
/-- SAFE_IDLE (R232): firing stops on all bars, commands in flight complete, every job that is not DONE is ABORTED, and waiting
commands complete with NOT_READY. -/
def Core.safeIdle (s : Core) (reason old new : Nat) : Core :=
  let s := (((stopBars allBars 7 s).wr SYS_BOOT.STATE 8).holdCommands.holdOps).abortAll false
  let s := s.emit 0x0207 (reason + at_ 2 (s.rd SYS_EPOCH.CKPT_EPOCH new) + at_ 4 (s.rd SYS_EPOCH.CKPT_EPOCH old))
  let w := s.cmdq.waiting
  w.foldl (fun s e => s.complete e.src (leAt e.entry 0 2) (leAt e.entry 2 2 % 1024) e.q e.index (wrongState 0x0011))
    { s with cmdq := { s.cmdq with waiting := [] } }
/-- IMAGO_TAKEOVER: the pupa seizes the line; `lag` runs from the boundary to the resume, at most 40 µs. Where the epochs differ
and no bank is valid either, the reason reported is the epoch (DESIGN CHOICE: log entry 140). -/
def Core.takeover (s : Core) (lag : Nat) (bad : List (Nat × Nat)) : Core :=
  let old := s.imago; let new := s.pupa; let t0 := s.tck.goodAt
  let s := s.emit 0x0205 (old + at_ 8 t0)
  let s := s.inc (failCnt old)
  let s := bad.foldl (fun s p => s.sramParity 4 p.2) s
  let isBad := fun (b : Nat) => bad.any fun p => p.1 == b
  let ckpt := s.newestCkpt isBad
  let same := s.rd SYS_EPOCH.CKPT_EPOCH old == s.rd SYS_EPOCH.CKPT_EPOCH new
  let s := (s.hold old).wr TCK_STATUS.SWITCHING 1
  let s := s.reach (s.tck.last + min lag 40000)
  let gap := s.etime - t0
  let held := s.cmdq.open_.length
  let s := s.seize new (if same && ckpt.isSome then 1 else 5) gap TCK_SWITCH_CNT.TAKEOVERS
  let s := if new = 0 then s.wr TCK_STATUS.REVERT_PENDING 0 else s
  match ckpt, same with
  | some k, true =>
    let s := ((s.restore k).holdCommands.holdOps.govern.resumeThrottle).wr TCK_STATUS.SWITCHING 0
    s.switchEvent 0x0206 new (satU 8 held) gap
  | _, _ => (s.safeIdle (if same then 2 else 1) old new).wr TCK_STATUS.SWITCHING 0
/-- IMAGO_TAKEOVER. Q0 commands that waited in the gap start at the resume (R227). -/
def doImagoTakeover (lag : Nat) (bad : List (Nat × Nat)) (s : State) : State :=
  let c := s.field.core
  if !c.tck.running ∨ c.rd TCK_STATUS.MISS_RUN < c.tck.missLimit ∨ c.rd TCK_STATUS.PUPA_STATE < 2 then s
  else startArrived (s.onCore fun c => c.takeover lag bad)

/-! ### The other core (R221, R229, R230) -/

/-- PUPA_LOST: the pupa-alive word has stopped for 16 chirps; the pupa is restarted, and a pending MOLT boots the staged image
anew after that (DESIGN CHOICE: log entry 142). -/
def doPupaLost (s : Core) : Core :=
  if s.rd TCK_STATUS.PUPA_STATE < 2 ∨ s.tck.pupaSilent < 16 then s
  else
    let core := s.pupa
    let s := (s.emit 0x0209 (core + at_ 1 1)).hold core
    s.setTck { s.tck with molt := s.tck.molt.map fun m => if m.swapped then m else { m with booted := false } }
/-- FAILED_CORE_RELEASE: 10 ms later the core leaves reset and reruns its self-test and image load. It has then booted since any
image was staged (R236); `flashBad` names the slots that flash cannot read. A core that stays in reset ends its MOLT (DESIGN CHOICE:
log entry 142). -/
def doFailedCoreRelease (selfTest : Bool) (flashBad : List Nat) (f : Field) : Field :=
  match f.core.tck.held with
  | none => f
  | some core =>
    let s := f.core.reach (f.core.tck.heldAt + 10000000)
    let drop := fun (s : Core) (cause : Nat) =>
      let s := (s.setTck { s.tck with held := none }).holdCore core cause
      if s.tck.molt.any fun m => m.core == core then s.endMolt fun op s => s.asyncErr op 0x40 0 0x0209 else s
    let s := s.setStaged core none
    if s.rd (failCnt core) ≥ 3 then ⟨drop s 4, f.dram⟩
    else if !selfTest then ⟨drop s 2, f.dram⟩
    else
      let (runs, f) := loadCore ⟨s, f.dram⟩ core (s.flash.activeSlot core) flashBad.contains
      f.onCore fun s => if runs then s.wr TCK_STATUS.PUPA_STATE 1 else drop s 3
/-- PUPA_READY: a restarted core becomes pupa; TC-A is then due to revert after a takeover by TC-B. -/
def doPupaReady (s : Core) : Core :=
  match s.tck.held with
  | none => s
  | some core =>
    if s.rd TCK_STATUS.PUPA_STATE ≠ 1 then s
    else
      let s := s.pupaUp
      let s := (s.setTck { s.tck with held := none, pupaSilent := 0 }).emit 0x0208 core
      if core = 0 ∧ s.imago = 1 ∧ (s.rd TCK_LAST_GAP.KIND = 1 ∨ s.rd TCK_LAST_GAP.KIND = 5) then s.wr TCK_STATUS.REVERT_PENDING 1 else s

/-! ### Planned handover (R233, R234, R237 to R241) -/

/-- The handover due at this boundary, from an imago that works: 3 a molt, 4 a drill, 2 a revert. A molt without resume waits until
the engine is idle and no command executes (R233, R239). -/
def Core.handoverDue (s : Core) : Option Nat :=
  let p := s.rd TCK_STATUS.PUPA_STATE
  let molt := match s.tck.molt with
    | some m => m.booted && !m.swapped && (p == 2 || (p == 3 && m.restart && !s.printing && s.cmdq.open_.isEmpty))
    | none => false
  let drill := match s.tck.drill with | some d => !d.swapped && p == 2 | none => false
  if !s.tck.running ∨ !s.tck.imagoUp ∨ !s.tck.jobBoundary ∨ !s.fwRuns then none
  else if molt then some 3
  else if drill then some 4
  else if s.rdb TCK_STATUS.REVERT_PENDING && !s.rdb TCK_CFG.REVERT_DISABLE && p == 2 && s.imago == 1 then some 2
  else none
/-- What a molt or a drill does once its handover is done: a molt has the boot record written, and reports when it is. -/
def Core.afterHandover (s : Core) (core gap : Nat) (resumed : Bool) : Core :=
  let s := match s.tck.molt with
    | none => s
    | some m =>
      let s := if resumed then s else s.abortAll true
      (s.setTck { s.tck with molt := some { m with core := core, swapped := true } }).activate m.core m.slot
  match s.tck.drill with
  | none => s
  | some d => s.setTck { s.tck with drill := some { d with swapped := true, gap := gap, chirps := none } }
/-- PLANNED_HANDOVER: the imago line passes to the other core, `gap` ns from release to resume, at most 40 µs. Between release
and seize the line is free and SWITCHING set (R233). -/
def Core.handover (s : Core) (kind gap : Nat) : Core :=
  let old := s.imago; let new := s.pupa
  let resumed := s.rd SYS_EPOCH.CKPT_EPOCH old == s.rd SYS_EPOCH.CKPT_EPOCH new
  let gap := min gap 40000
  let s := (s.checkpoint true).wrs [(TCK_STATUS.LINE_HELD, 0), (TCK_STATUS.SWITCHING, 1)]
  let s := s.reach (s.etime + gap)
  let s := s.seize new kind gap TCK_SWITCH_CNT.HANDOVERS
  let s := s.wr TCK_STATUS.PUPA_STATE (if resumed then 2 else 3)
  let s := s.setTck { s.tck with jobBoundary := false, pupaSilent := 0 }
  let s := if new = 0 then s.wr TCK_STATUS.REVERT_PENDING 0 else s
  ((s.speedStep.wr TCK_STATUS.SWITCHING 0).switchEvent 0x020A new kind gap).afterHandover new gap resumed
/-- PLANNED_HANDOVER. -/
def doPlannedHandover (gap : Nat) (s : Core) : Core :=
  match s.handoverDue with
  | none => s
  | some k => s.handover k gap
/-- HANDOVER_FAILED: the receiver has not seized the line within 100 µs; the releasing core goes on and the receiver
restarts, with one failure more. -/
def doHandoverFailed (s : Core) : Core :=
  match s.handoverDue with
  | none => s
  | some k =>
    let core := s.pupa
    let s := (s.checkpoint true).wrs [(TCK_STATUS.LINE_HELD, 0), (TCK_STATUS.SWITCHING, 1)]
    let s := (s.reach (s.etime + 100000)).wrs [(TCK_STATUS.LINE_HELD, 1), (TCK_STATUS.SWITCHING, 0)]
    let s := s.emit 0x020B (core + at_ 1 k)
    let s := (s.inc (failCnt core)).hold core
    let s := s.setTck { s.tck with jobBoundary := false, kickAt := s.etime }
    if k = 3 then s.endMolt fun op s => s.asyncErr op 0x40 0 0x020B
    else if k = 4 then s.endDrill fun d s => s.asyncErr d.opId 0x40 0 0x020B
    else s
/-- DRILL_CONFIRMED: 16 consecutive chirps with heartbeats on both paths after the swap. -/
def doDrillConfirmed (s : Core) : Core :=
  match s.tck.drill with
  | none => s
  | some d =>
    if d.swapped ∧ d.chirps.getD 0 ≥ 16 then s.endDrill fun d s => s.asyncDone d.opId 0 (s.imago + at_ 4 d.gap) else s

end Sys2Proof.Machine
end

