-- ==== Sys2Proof/Machine/Events.lean ====
section
/-! DEFINITION. The rows of the field side's own events: each is its operation on the field side, which does nothing while
the field side is held in reset. What each does stands beside the block that does it. -/

namespace Sys2Proof.Machine

/-- Apply a function to the field side unless it is held in reset. -/
def State.onRunningField (s : State) (g : Field → Field) : State :=
  if s.field.core.bootState = 1 then s else { s with field := g s.field }
/-- A unit has read DRAM: what failed fabric beats had spoilt was that read's alone (R577). -/
def Field.spent (f : Field) : Field := { f with dram := f.dram.spend }

/-- VIN_F_UPDATE (R110). -/
def execVinFUpdate (v : BitVec 12) (s : State) : Host.Outcome State Fault Refusal :=
  .next (s.onRunning (doVinFUpdate v.toNat))
/-- VIN_OVER (R102). -/
def execVinOver (s : State) : Host.Outcome State Fault Refusal :=
  .next (s.onRunning doVinOver)
/-- PWR_FAIL (R105). -/
def execPwrFail (s : State) : Host.Outcome State Fault Refusal :=
  .next (s.onRunning doPwrFail)
/-- PWR_FAIL_DONE (R105). -/
def execPwrFailDone (s : State) : Host.Outcome State Fault Refusal :=
  .next (s.onRunning doPwrFailDone)
/-- PWR_RESTORED (R102). -/
def execPwrRestored (s : State) : Host.Outcome State Fault Refusal :=
  .next (s.onRunning doPwrRestored)
/-- ENC_SUP_ON (R104). -/
def execEncSupOn (s : State) : Host.Outcome State Fault Refusal :=
  .next (s.onRunning doEncSupOn)
/-- ENC_SUP_FAULT (R104). -/
def execEncSupFault (ch : Fin 8) (s : State) : Host.Outcome State Fault Refusal :=
  .next (s.onRunning (doEncSupFault ch.val))
/-- ENC_SUP_RETRY (R104). -/
def execEncSupRetry (ch : Fin 8) (holds : Bool) (s : State) : Host.Outcome State Fault Refusal :=
  .next (s.onRunning (doEncSupRetry ch.val holds))
/-- FW_STAGE_WRITE_DONE (R235). -/
def execFwStageWriteDone (s : State) : Host.Outcome State Fault Refusal :=
  .next (s.onRunning doFwStageWriteDone)
/-- FLASH_OPERATION_DONE (R556). -/
def execFlashOperationDone (s : State) : Host.Outcome State Fault Refusal :=
  .next (s.onRunning Core.flashDone)
/-- MOLT_PUPA_BOOTED (R237). -/
def execMoltPupaBooted (selfTest : Bool) (flashBad : List (Fin 3)) (s : State) : Host.Outcome State Fault Refusal :=
  .next (s.onRunningField (doMoltPupaBooted selfTest (flashBad.map Fin.val)))
/-- DRILL_CONFIRMED (R241). -/
def execDrillConfirmed (s : State) : Host.Outcome State Fault Refusal :=
  .next (s.onRunning doDrillConfirmed)
/-- CHIRP (R210). -/
def execChirp (inp : ChirpIn) (s : State) : Host.Outcome State Fault Refusal :=
  .next (doChirp inp s)
/-- CHECKPOINT_DEADLINE (R211). -/
def execCheckpointDeadline (work : Overrun) (s : State) : Host.Outcome State Fault Refusal :=
  .next (s.onRunning (doCheckpointDeadline work.hard work.workNs.toNat))
/-- PUPA_LOST (R221). -/
def execPupaLost (s : State) : Host.Outcome State Fault Refusal :=
  .next (s.onRunning doPupaLost)
/-- IMAGO_TAKEOVER (R226). -/
def execImagoTakeover (lag : BitVec 16) (badBanks : List (Fin 2 × BitVec 32)) (s : State) : Host.Outcome State Fault Refusal :=
  .next (doImagoTakeover lag.toNat (badBanks.map fun p => (p.1.val, p.2.toNat)) s)
/-- FAILED_CORE_RELEASE (R229). -/
def execFailedCoreRelease (selfTest : Bool) (flashBad : List (Fin 3)) (s : State) : Host.Outcome State Fault Refusal :=
  .next (s.onRunningField (doFailedCoreRelease selfTest (flashBad.map Fin.val)))
/-- PUPA_READY (R229). -/
def execPupaReady (s : State) : Host.Outcome State Fault Refusal :=
  .next (s.onRunning doPupaReady)
/-- PLANNED_HANDOVER (R233). -/
def execPlannedHandover (gap : BitVec 16) (s : State) : Host.Outcome State Fault Refusal :=
  .next (s.onRunning (doPlannedHandover gap.toNat))
/-- HANDOVER_FAILED (R234). -/
def execHandoverFailed (s : State) : Host.Outcome State Fault Refusal :=
  .next (s.onRunning doHandoverFailed)
/-- SKELRE_STREAM_HEADER (R252). -/
def execSkelreStreamHeader (s : State) : Host.Outcome State Fault Refusal :=
  .next (s.onRunningField doSkelreStreamHeader)
/-- SKELRE_BLOCK_DECODE (R256). -/
def execSkelreBlockDecode (histBad : Option (BitVec 32)) (s : State) : Host.Outcome State Fault Refusal :=
  .next (s.onRunningField (fun f => (doSkelreBlockDecode (histBad.map BitVec.toNat) f).spent))
/-- LINE_SCREEN (R323). -/
def execLineScreen (link : Fin 24) (parityMask : Option (Fin 65536)) (nsmBad : List (Fin 131072)) (toneBad : List (Fin 192 × Byte)) (levelBad : Option (Fin 7 × BitVec 32)) (s : State) : Host.Outcome State Fault Refusal :=
  .next (s.onRunningField (fun f => (⟨doLineScreen link.val (parityMask.map Fin.val) (nsmBad.map Fin.val) (toneBad.map fun p => (p.1.val, p.2.toNat)) (levelBad.map fun p => (p.1.val, p.2.toNat)) f.dram f.core, f.dram⟩ : Field).spent))
/-- CMP_ENTRY_INSERT (R369). -/
def execCmpEntryInsert (s : State) : Host.Outcome State Fault Refusal :=
  .next (s.onRunning doCmpEntryInsert)
/-- WEB_SOURCE_RETURN (R363). -/
def execWebSourceReturn (s : State) : Host.Outcome State Fault Refusal :=
  .next (s.onRunning doWebSourceReturn)
/-- QUAD_EDGE (R341). -/
def execQuadEdge (ch : Fin 8) (a b : Bool) (edge : EdgeIn) (s : State) : Host.Outcome State Fault Refusal :=
  .next (s.onRunning (doQuadEdge ch.val a b edge.held.toNat (edge.parity.map Fin.val)))
/-- HALL_STATE_CHANGE (R342). -/
def execHallStateChange (ch : Fin 8) (st : Fin 8) (s : State) : Host.Outcome State Fault Refusal :=
  .next (s.onRunning (doHallStateChange ch.val st.val))
/-- SINCOS_PHASE_STEP (R343). -/
def execSincosPhaseStep (ch : Fin 8) (sample : SinCosIn) (s : State) : Host.Outcome State Fault Refusal :=
  .next (s.onRunning (doSincosPhaseStep ch.val sample.steps.toInt sample.hz.toNat sample.amp.toNat))
/-- SSI_FRAME (R344). -/
def execSsiFrame (ch : Fin 8) (startHigh errBit : Bool) (word : BitVec 48) (s : State) : Host.Outcome State Fault Refusal :=
  .next (s.onRunning (doSsiFrame ch.val startHigh errBit word.toNat))
/-- INDEX_EVENT (R356). -/
def execIndexEvent (edge : IndexEdge) (s : State) : Host.Outcome State Fault Refusal :=
  .next (s.onRunning (doIndexEvent edge.ch.val edge.rising))
/-- CO_PULSE_END (R373). -/
def execCoPulseEnd (co : Fin 8) (s : State) : Host.Outcome State Fault Refusal :=
  .next (s.onRunning (doCoPulseEnd co.val))
/-- SPEED_WINDOW (R351). -/
def execSpeedWindow (ch : Fin 8) (s : State) : Host.Outcome State Fault Refusal :=
  .next (s.onRunning (doSpeedWindow ch.val))
/-- STILL_TIMEOUT (R353). -/
def execStillTimeout (ch : Fin 8) (s : State) : Host.Outcome State Fault Refusal :=
  .next (s.onRunning (doStillTimeout ch.val))
/-- POS_FAULT_DETECT (R348). -/
def execPosFaultDetect (first : Fin 8 × PosSign) (more : List (Fin 8 × PosSign)) (s : State) : Host.Outcome State Fault Refusal :=
  .next (s.onRunning (doPosFaultDetect ((first :: more).map fun p => (p.1.val, p.2))))
/-- POS_FAULT_CLEAR (R349). -/
def execPosFaultClear (ch : Fin 8) (fault : PosFault) (phase : BitVec 16) (s : State) : Host.Outcome State Fault Refusal :=
  .next (s.onRunning (doPosFaultClear ch.val fault phase.toInt))
/-- WEB_RATIO_WINDOW (R360). -/
def execWebRatioWindow (s : State) : Host.Outcome State Fault Refusal :=
  .next (s.onRunning doWebRatioWindow)
/-- LOOP_UPDATE (R384). -/
def execLoopUpdate (s : State) : Host.Outcome State Fault Refusal :=
  .next (s.onRunning doLoopUpdate)
/-- SAFE_INHIBIT (R395). -/
def execSafeInhibit (channelB : Bool) (s : State) : Host.Outcome State Fault Refusal :=
  .next (s.onRunning (doSafeInhibit channelB))
/-- SAFE_ENERGISED (R395). -/
def execSafeEnergised (channelB : Bool) (s : State) : Host.Outcome State Fault Refusal :=
  .next (s.onRunning (doSafeEnergised channelB))
/-- SAFE_DISCREPANCY (R395). -/
def execSafeDiscrepancy (s : State) : Host.Outcome State Fault Refusal :=
  .next (s.onRunning doSafeDiscrepancy)
/-- LINK_REATTACH_TIMEOUT (R441). -/
def execLinkReattachTimeout (link : Fin 24) (s : State) : Host.Outcome State Fault Refusal :=
  .next (s.onRunning (doLinkReattachTimeout link.val))
/-- HL_PRESENT (R97). -/
def execHlPresent (link : Fin 24) (s : State) : Host.Outcome State Fault Refusal :=
  .next (s.onRunning (doHlPresent link.val))
/-- LINK_TRAINING (R428). -/
def execLinkTraining (link : Fin 24) (lock : Bool) (hello : Option Bytes) (echoes : List (BitVec 32 × Bytes)) (status : Option Bytes)
    (headEnd : IdRead) (found : Discovery) (s : State) : Host.Outcome State Fault Refusal :=
  .next (s.onRunning (doLinkTraining link.val ⟨lock, hello, echoes, status, headEnd, found⟩))
/-- HL_TRAIN_FAIL (R429). -/
def execHlTrainFail (link : Fin 24) (reason : Fin 6) (s : State) : Host.Outcome State Fault Refusal :=
  .next (s.onRunning (doHlTrainFail link.val reason.val))
/-- HL_TRAIN_RESTART (R429). -/
def execHlTrainRestart (link : Fin 24) (s : State) : Host.Outcome State Fault Refusal :=
  .next (s.onRunning (doHlTrainRestart link.val))
/-- SIDEBAND_READ_TIMEOUT (R148). -/
def execSidebandReadTimeout (link : Fin 24) (s : State) : Host.Outcome State Fault Refusal :=
  .next (s.onRunning (doSidebandReadTimeout link.val))
/-- LINE_FRAME_SEND (R417). -/
def execLineFrameSend (link : Fin 24) (parityBad : Option (BitVec 32)) (s : State) : Host.Outcome State Fault Refusal :=
  .next (s.onRunning (doLineFrameSend link.val (parityBad.map BitVec.toNat)))
/-- TOKEN_SEND (R437). -/
def execTokenSend (link : Fin 24) (s : State) : Host.Outcome State Fault Refusal :=
  .next (s.onRunning (doTokenSend link.val))
/-- TIME_BLOCK_SEND (R421). -/
def execTimeBlockSend (link : Fin 24) (s : State) : Host.Outcome State Fault Refusal :=
  .next (s.onRunning (doTimeBlockSend link.val))
/-- ALIGN_BLOCK_SEND (R413). -/
def execAlignBlockSend (link : Fin 24) (s : State) : Host.Outcome State Fault Refusal :=
  .next (s.onRunning (doAlignBlockSend link.val))
/-- SIDEBAND_REQUEST (R443). -/
def execSidebandRequest (link : Fin 24) (s : State) : Host.Outcome State Fault Refusal :=
  .next (s.onRunning (doSidebandRequest link.val))
/-- RETURN_MESSAGE_RECEIVE (R425). -/
def execReturnMessageReceive (link : Fin 24) (voided : Bool) (msg : Bytes) (mem : IdRead) (s : State) : Host.Outcome State Fault Refusal :=
  .next (s.onRunning (doReturnMessage link.val voided msg mem))
/-- CONFIRM_RECEIVE (R437). -/
def execConfirmReceive (link : Fin 24) (slot : Fin 8) (status : Fin 4) (reason : Fin 8) (line freed drops : BitVec 16) (dev : Byte) (s : State) : Host.Outcome State Fault Refusal :=
  .next (s.onRunning (doConfirmReceive link.val slot.val status.val reason.val line.toNat freed.toNat drops.toNat dev.toNat))
/-- STATUS_RECEIVE (R434). -/
def execStatusReceive (link : Fin 24) (slot : Fin 8) (headOk _inhibited : Bool) (freed : BitVec 16) (ohms : BitVec 24) (mem : IdRead) (s : State) : Host.Outcome State Fault Refusal :=
  .next (s.onRunning (doStatusReceive link.val slot.val headOk freed.toNat ohms.toNat mem))
/-- SB_RESP_RECEIVE (R423). -/
def execSbRespReceive (link : Fin 24) (tid : Fin 8) (result : Byte) (data : Bytes) (s : State) : Host.Outcome State Fault Refusal :=
  .next (s.onRunning (doSbRespReceive link.val tid.val result.toNat data))
/-- HL_FRAME_NAK (R436). -/
def execHlFrameNak (link : Fin 24) (slot : Fin 8) (reason : Byte) (_line freed : BitVec 16) (s : State) : Host.Outcome State Fault Refusal :=
  .next (s.onRunning (doHlFrameNak link.val slot.val reason.toNat freed.toNat))
/-- CONF_TIMEOUT (R437). -/
def execConfTimeout (link : Fin 24) (s : State) : Host.Outcome State Fault Refusal :=
  .next (s.onRunning (doConfTimeout link.val))
/-- RET_SILENT (R438). -/
def execRetSilent (link : Fin 24) (s : State) : Host.Outcome State Fault Refusal :=
  .next (s.onRunning (doRetSilent link.val))
/-- RET_LOCK_LOST (R439). -/
def execRetLockLost (link : Fin 24) (s : State) : Host.Outcome State Fault Refusal :=
  .next (s.onRunning (doRetLockLost link.val))
/-- HL_PRESENT_LOST (R439). -/
def execHlPresentLost (link : Fin 24) (s : State) : Host.Outcome State Fault Refusal :=
  .next (s.onRunning (doHlPresentLost link.val))
/-- USAGE_RECORD_WRITE (R444). -/
def execUsageRecordWrite (head : Fin 192) (s : State) : Host.Outcome State Fault Refusal :=
  .next (s.onRunning (doUsageRecordWrite head.val))
/-- USAGE_WRITE_END (R445). -/
def execUsageWriteEnd (head : Fin 192) (s : State) : Host.Outcome State Fault Refusal :=
  .next (s.onRunning (doUsageWriteEnd head.val))
/-- CAM_REINIT_TIMEOUT (R485). -/
def execCamReinitTimeout (s : State) : Host.Outcome State Fault Refusal :=
  .next (s.onRunning doCamReinitTimeout)
/-- SERVO_COMMIT (R480). -/
def execServoCommit (bar : Fin 8) (s : State) : Host.Outcome State Fault Refusal :=
  .next (s.onRunning (doServoCommit bar.val))
/-- CAM_LINK_UP (R461). -/
def execCamLinkUp (mem : IdMem) (fails : List (Nat × List (Option Byte))) (s : State) : Host.Outcome State Fault Refusal :=
  .next (s.onRunning (doCamLinkUp ⟨mem, fails⟩))
/-- CAM_LINK_DOWN (R461). -/
def execCamLinkDown (s : State) : Host.Outcome State Fault Refusal :=
  .next (s.onRunning doCamLinkDown)
/-- CAM_TRIGGER_UNMATCHED_TIMEOUT (R460). -/
def execCamTriggerUnmatchedTimeout (s : State) : Host.Outcome State Fault Refusal :=
  .next (s.onRunning doCamTriggerUnmatched)
/-- CAM_LINE_TRIGGER (R452). -/
def execCamLineTrigger (s : State) : Host.Outcome State Fault Refusal :=
  .next (s.onRunning doCamLineTrigger)
/-- CSI_FRAME_START (R459). -/
def execCsiFrameStart (vc : Fin 4) (eccFixed : Bool) (num : BitVec 16) (s : State) : Host.Outcome State Fault Refusal :=
  .next (s.onRunning (fun c => c.camUnit vc.val false (.csiFrameStart vc eccFixed num)))
/-- CSI_LINE_START (R453). -/
def execCsiLineStart (vc : Fin 4) (eccFixed : Bool) (num : BitVec 16) (s : State) : Host.Outcome State Fault Refusal :=
  .next (s.onRunning (fun c => c.camUnit vc.val false (.csiLineStart vc eccFixed num)))
/-- CSI_LINE_PACKET (R453). -/
def execCsiLinePacket (vc : Fin 4) (ecc : Ecc) (dt : Byte) (wc : BitVec 16) (payload : Bytes) (crcGood : Bool) (s : State) : Host.Outcome State Fault Refusal :=
  .next (s.onRunning (fun c => c.camUnit vc.val true (.csiLinePacket vc ecc dt wc payload crcGood)))
/-- CSI_FRAME_END (R466). -/
def execCsiFrameEnd (vc : Fin 4) (eccFixed : Bool) (num : BitVec 16) (s : State) : Host.Outcome State Fault Refusal :=
  .next (s.onRunning (fun c => c.camUnit vc.val false (.csiFrameEnd vc eccFixed num)))
/-- ISP_LINE_PROCESS (R463). -/
def execIspLineProcess (parityBad : Option (BitVec 32)) (s : State) : Host.Outcome State Fault Refusal :=
  .next (s.onRunningField (doIspLineProcess (parityBad.map BitVec.toNat)))
/-- CAM_CTL_RESPONSE (R458). -/
def execCamCtlResponse (frame : Bytes) (s : State) : Host.Outcome State Fault Refusal :=
  .next (s.onRunning (doCamCtlResponse frame))
/-- CAM_CTL_TIMEOUT (R458). -/
def execCamCtlTimeout (s : State) : Host.Outcome State Fault Refusal :=
  .next (s.onRunning doCamCtlTimeout)
/-- DRAM_READ_ERROR (R521). -/
def execDramReadError (word : BitVec 30) (rank : Fin 3) (kind : DramErr) (cls : Fin 4) (s : State) : Host.Outcome State Fault Refusal :=
  .next (s.onRunningField (doDramReadError word.toNat rank.val kind cls.val))
/-- MEM_CA_ERR (R523). -/
def execMemCaErr (ch : Fin 4) (rank : Fin 3) (writeCrc failed : Bool) (s : State) : Host.Outcome State Fault Refusal :=
  .next (s.onRunning (doMemCaErr ch.val rank.val writeCrc failed))
/-- DRAM_REFRESH (R518). -/
def execDramRefresh (ch : Fin 4) (rank : Fin 3) (bank : Fin 32) (s : State) : Host.Outcome State Fault Refusal :=
  .next (s.onRunning (doDramRefresh ch.val rank.val bank.val))
/-- ROW_HAMMER_WINDOW (R519). -/
def execRowHammerWindow (s : State) : Host.Outcome State Fault Refusal :=
  .next (s.onRunning doRowHammerWindow)
/-- ROW_IDLE_CLOSE (R517). -/
def execRowIdleClose (ch : Fin 4) (rank : Fin 3) (bank : Fin 32) (s : State) : Host.Outcome State Fault Refusal :=
  .next (s.onRunning (doRowIdleClose ch.val rank.val bank.val))
/-- SCRUB_READ (R524). -/
def execScrubRead (err : Option DramErr) (s : State) : Host.Outcome State Fault Refusal :=
  .next (s.onRunningField (doScrubRead err))
/-- MIGRATION_ROW_COPY (R527). -/
def execMigrationRowCopy (bad : List (Fin 64)) (targetBad : Bool) (s : State) : Host.Outcome State Fault Refusal :=
  .next (s.onRunningField (doMigrationRowCopy (bad.map Fin.val) targetBad))
/-- CHANNEL_RETRAIN (R530). -/
def execChannelRetrain (ch : Fin 4) (result : Fin 3) (ms : BitVec 16) (failed : List (Fin 3)) (s : State) : Host.Outcome State Fault Refusal :=
  .next (s.onRunningField (doChannelRetrain ch.val result.val ms.toNat (failed.map Fin.val)))
/-- CHANNEL_REFORM (R531). -/
def execChannelReform (s : State) : Host.Outcome State Fault Refusal :=
  .next (s.onRunningField doChannelReform)
/-- THROTTLE_ENGAGE_FORCED (R548). -/
def execThrottleEngageForced (s : State) : Host.Outcome State Fault Refusal :=
  .next (s.onRunning doThrottleEngageForced)
/-- THROTTLE_RELAX (R549). -/
def execThrottleRelax (s : State) : Host.Outcome State Fault Refusal :=
  .next (s.onRunning doThrottleRelax)
/-- HW_GUARD_SAMPLE (R544). -/
def execHwGuardSample (raw : List (Fin 16 × BitVec 16)) (s : State) : Host.Outcome State Fault Refusal :=
  .next (s.onRunning (doHwGuardSample (raw.map fun p => (p.1.val, p.2.toNat))))
/-- DSP_TE_EDGE (R569). -/
def execDspTeEdge (s : State) : Host.Outcome State Fault Refusal :=
  .next (s.onRunning doDspTeEdge)
/-- DSP_PUSH_END (R568). -/
def execDspPushEnd (repeated : BitVec 32) (parity : Option (BitVec 32)) (s : State) : Host.Outcome State Fault Refusal :=
  .next (s.onRunningField (doDspPushEnd repeated.toNat (parity.map BitVec.toNat)))
/-- DSP_TE_LOST (R572). -/
def execDspTeLost (s : State) : Host.Outcome State Fault Refusal :=
  .next (s.onRunning doDspTeLost)
/-- CDC_TIMEOUT (R586). -/
def execCdcTimeout (id : BitVec 16) (s : State) : Host.Outcome State Fault Refusal :=
  .next (s.onRunning (doCdcTimeout id.toNat))

end Sys2Proof.Machine
end

