-- ==== Sys2Proof/Machine/Dispatch.lean ====
section
/-! DEFINITION. The dispatch of a command to its meaning: one arm per constructor of `Instr`. -/

namespace Sys2Proof.Machine

def exec (i : Instr) (s : State) : Host.Outcome State Fault Refusal :=
  match i with
  | .fieldResetRelease b => Sys2Proof.Machine.execFieldResetRelease b s
  | .fieldBrownOut => Sys2Proof.Machine.execFieldBrownOut s
  | .watchdogBite => Sys2Proof.Machine.execWatchdogBite s
  | .vinFUpdate v => Sys2Proof.Machine.execVinFUpdate v s
  | .vinOver => Sys2Proof.Machine.execVinOver s
  | .pwrFail => Sys2Proof.Machine.execPwrFail s
  | .pwrFailDone => Sys2Proof.Machine.execPwrFailDone s
  | .pwrRestored => Sys2Proof.Machine.execPwrRestored s
  | .encSupOn => Sys2Proof.Machine.execEncSupOn s
  | .encSupFault ch => Sys2Proof.Machine.execEncSupFault ch s
  | .encSupRetry ch holds => Sys2Proof.Machine.execEncSupRetry ch holds s
  | .fwStage c core slot => Sys2Proof.Machine.execFwStage c core slot s
  | .fwStageWriteDone => Sys2Proof.Machine.execFwStageWriteDone s
  | .flashOperationDone => Sys2Proof.Machine.execFlashOperationDone s
  | .molt c flags => Sys2Proof.Machine.execMolt c flags s
  | .moltPupaBooted selfTest flashOk => Sys2Proof.Machine.execMoltPupaBooted selfTest flashOk s
  | .swapDrill c => Sys2Proof.Machine.execSwapDrill c s
  | .drillConfirmed => Sys2Proof.Machine.execDrillConfirmed s
  | .chirp inp => Sys2Proof.Machine.execChirp inp s
  | .checkpointDeadline work => Sys2Proof.Machine.execCheckpointDeadline work s
  | .pupaLost => Sys2Proof.Machine.execPupaLost s
  | .imagoTakeover lag badBanks => Sys2Proof.Machine.execImagoTakeover lag badBanks s
  | .failedCoreRelease selfTest flashOk => Sys2Proof.Machine.execFailedCoreRelease selfTest flashOk s
  | .pupaReady => Sys2Proof.Machine.execPupaReady s
  | .plannedHandover gap => Sys2Proof.Machine.execPlannedHandover gap s
  | .handoverFailed => Sys2Proof.Machine.execHandoverFailed s
  | .nop c => Sys2Proof.Machine.execNop c s
  | .identify c => Sys2Proof.Machine.execIdentify c s
  | .queueConfig c mode liveService => Sys2Proof.Machine.execQueueConfig c mode liveService s
  | .fieldReset c => Sys2Proof.Machine.execFieldReset c s
  | .fieldResetDelayExpiry => Sys2Proof.Machine.execFieldResetDelayExpiry s
  | .authChallenge c level => Sys2Proof.Machine.execAuthChallenge c level s
  | .authRespond c level mac => Sys2Proof.Machine.execAuthRespond c level mac s
  | .authDrop c level => Sys2Proof.Machine.execAuthDrop c level s
  | .regRead c addr => Sys2Proof.Machine.execRegRead c addr s
  | .regWrite c addr value => Sys2Proof.Machine.execRegWrite c addr value s
  | .regRmw c addr mask value => Sys2Proof.Machine.execRegRmw c addr mask value s
  | .regReadBlock c addr count => Sys2Proof.Machine.execRegReadBlock c addr count s
  | .sysLockSet c value => Sys2Proof.Machine.execSysLockSet c value s
  | .toneDataAccess c head write => Sys2Proof.Machine.execToneDataAccess c head write s
  | .toneCtlCommit c head => Sys2Proof.Machine.execToneCtlCommit c head s
  | .toneCtlCopy c head => Sys2Proof.Machine.execToneCtlCopy c head s
  | .scrErrClr c bar => Sys2Proof.Machine.execScrErrClr c bar s
  | .scrMaskDataAccess c write => Sys2Proof.Machine.execScrMaskDataAccess c write s
  | .nozzleWindowWrite c bar k high value => Sys2Proof.Machine.execNozzleWindowWrite c bar k high value s
  | .latchedPairRead c addr => Sys2Proof.Machine.execLatchedPairRead c addr s
  | .posTypeChange c ch value => Sys2Proof.Machine.execPosTypeChange c ch value s
  | .posWrapWrite c ch value => Sys2Proof.Machine.execPosWrapWrite c ch value s
  | .posIdxLoad c ch value => Sys2Proof.Machine.execPosIdxLoad c ch value s
  | .posWebReturn c value => Sys2Proof.Machine.execPosWebReturn c value s
  | .spgLpcWrite c high value => Sys2Proof.Machine.execSpgLpcWrite c high value s
  | .hlkEnWrite c link value => Sys2Proof.Machine.execHlkEnWrite c link value s
  | .hlkLvlMapWrite c link value => Sys2Proof.Machine.execHlkLvlMapWrite c link value s
  | .camExpWrite c vc value => Sys2Proof.Machine.execCamExpWrite c vc value s
  | .ispTblDataAccess c vc write => Sys2Proof.Machine.execIspTblDataAccess c vc write s
  | .memRetrainWrite c ch value => Sys2Proof.Machine.execMemRetrainWrite c ch value s
  | .memRankClrWrite c value => Sys2Proof.Machine.execMemRankClrWrite c value s
  | .thmExclWrite c value => Sys2Proof.Machine.execThmExclWrite c value s
  | .chirpPeriodWrite c value => Sys2Proof.Machine.execChirpPeriodWrite c value s
  | .logViolClr c => Sys2Proof.Machine.execLogViolClr c s
  | .counterPeakClr c addr value => Sys2Proof.Machine.execCounterPeakClr c addr value s
  | .fijLiveOkWrite c value => Sys2Proof.Machine.execFijLiveOkWrite c value s
  | .fieldRegisterWrite c addr value => Sys2Proof.Machine.execFieldRegisterWrite c addr value s
  | .sqTailDoorbell q tail => Sys2Proof.Machine.execSqTailDoorbell q tail s
  | .cqHeadDoorbell head => Sys2Proof.Machine.execCqHeadDoorbell head s
  | .ringEnable ring value => Sys2Proof.Machine.execRingEnable ring value s
  | .ringDisable ring value => Sys2Proof.Machine.execRingDisable ring value s
  | .bar0RegisterWrite off value => Sys2Proof.Machine.execBar0RegisterWrite off value s
  | .sqEntryFetch entry bulk fail => Sys2Proof.Machine.execSqEntryFetch entry bulk fail s
  | .completionEntryWrite fail => Sys2Proof.Machine.execCompletionEntryWrite fail s
  | .completionWriteRetry fail => Sys2Proof.Machine.execCompletionWriteRetry fail s
  | .fieldLostCompletions => Sys2Proof.Machine.execFieldLostCompletions s
  | .fspFrame frame => Sys2Proof.Machine.execFspFrame frame s
  | .elyFlitReceive toField seq crcGood parityBad msg => Sys2Proof.Machine.execElyFlitReceive toField seq crcGood parityBad msg s
  | .elyReplayTimeout toField => Sys2Proof.Machine.execElyReplayTimeout toField s
  | .elyLaneDown toField => Sys2Proof.Machine.execElyLaneDown toField s
  | .elyRetrainDone h2f f2h => Sys2Proof.Machine.execElyRetrainDone h2f f2h s
  | .hostHeartbeatSend => Sys2Proof.Machine.execHostHeartbeatSend s
  | .elyHostLost => Sys2Proof.Machine.execElyHostLost s
  | .hostAlertAssert => Sys2Proof.Machine.execHostAlertAssert s
  | .dataDescriptorClose desc => Sys2Proof.Machine.execDataDescriptorClose desc s
  | .hostSideReset => Sys2Proof.Machine.execHostSideReset s
  | .hostSupplyChange on => Sys2Proof.Machine.execHostSupplyChange on s
  | .jobDefine c jobId => Sys2Proof.Machine.execJobDefine c jobId s
  | .jobLoadData c jobId bar offset => Sys2Proof.Machine.execJobLoadData c jobId bar offset s
  | .jobRingAppend c jobId offset => Sys2Proof.Machine.execJobRingAppend c jobId offset s
  | .jobStreamOpen c jobId barMask ringBytes => Sys2Proof.Machine.execJobStreamOpen c jobId barMask ringBytes s
  | .jobArm c jobId => Sys2Proof.Machine.execJobArm c jobId s
  | .jobSwitchAt c fromId toId position => Sys2Proof.Machine.execJobSwitchAt c fromId toId position s
  | .jobAbort c jobId mode => Sys2Proof.Machine.execJobAbort c jobId mode s
  | .jobStatus c jobId => Sys2Proof.Machine.execJobStatus c jobId s
  | .skelreStreamHeader => Sys2Proof.Machine.execSkelreStreamHeader s
  | .skelreBlockDecode histBad => Sys2Proof.Machine.execSkelreBlockDecode histBad s
  | .pressLoad c => Sys2Proof.Machine.execPressLoad c s
  | .geoSet c head offset step skew => Sys2Proof.Machine.execGeoSet c head offset step skew s
  | .nozzleMapLoad c bar firstK count => Sys2Proof.Machine.execNozzleMapLoad c bar firstK count s
  | .lineScreen link parityMask nsmBad toneBad levelBad => Sys2Proof.Machine.execLineScreen link parityMask nsmBad toneBad levelBad s
  | .cmpAppend c count inline => Sys2Proof.Machine.execCmpAppend c count inline s
  | .cmpEntryInsert => Sys2Proof.Machine.execCmpEntryInsert s
  | .cmpClear c coMask => Sys2Proof.Machine.execCmpClear c coMask s
  | .posArmIndex c ch mode preset => Sys2Proof.Machine.execPosArmIndex c ch mode preset s
  | .webSourceReturn => Sys2Proof.Machine.execWebSourceReturn s
  | .quadEdge ch a b edge => Sys2Proof.Machine.execQuadEdge ch a b edge s
  | .hallStateChange ch st => Sys2Proof.Machine.execHallStateChange ch st s
  | .sincosPhaseStep ch sample => Sys2Proof.Machine.execSincosPhaseStep ch sample s
  | .ssiFrame ch startHigh errBit word => Sys2Proof.Machine.execSsiFrame ch startHigh errBit word s
  | .indexEvent edge => Sys2Proof.Machine.execIndexEvent edge s
  | .coPulseEnd co => Sys2Proof.Machine.execCoPulseEnd co s
  | .speedWindow ch => Sys2Proof.Machine.execSpeedWindow ch s
  | .stillTimeout ch => Sys2Proof.Machine.execStillTimeout ch s
  | .posFaultDetect first more => Sys2Proof.Machine.execPosFaultDetect first more s
  | .posFaultClear ch fault phase => Sys2Proof.Machine.execPosFaultClear ch fault phase s
  | .webRatioWindow => Sys2Proof.Machine.execWebRatioWindow s
  | .fireEnable c barMask enable => Sys2Proof.Machine.execFireEnable c barMask enable s
  | .stopFire c barMask => Sys2Proof.Machine.execStopFire c barMask s
  | .fireInhibitHead c head inhibit => Sys2Proof.Machine.execFireInhibitHead c head inhibit s
  | .loopUpdate => Sys2Proof.Machine.execLoopUpdate s
  | .safeInhibit channelB => Sys2Proof.Machine.execSafeInhibit channelB s
  | .safeEnergised channelB => Sys2Proof.Machine.execSafeEnergised channelB s
  | .safeDiscrepancy => Sys2Proof.Machine.execSafeDiscrepancy s
  | .linkReattach c link => Sys2Proof.Machine.execLinkReattach c link s
  | .linkReattachTimeout link => Sys2Proof.Machine.execLinkReattachTimeout link s
  | .hlPresent link => Sys2Proof.Machine.execHlPresent link s
  | .linkTraining link lock hello echoes status headEnd found => Sys2Proof.Machine.execLinkTraining link lock hello echoes status headEnd found s
  | .hlTrainFail link reason => Sys2Proof.Machine.execHlTrainFail link reason s
  | .hlTrainRestart link => Sys2Proof.Machine.execHlTrainRestart link s
  | .sidebandReadTimeout link => Sys2Proof.Machine.execSidebandReadTimeout link s
  | .lineFrameSend link parityBad => Sys2Proof.Machine.execLineFrameSend link parityBad s
  | .tokenSend link => Sys2Proof.Machine.execTokenSend link s
  | .timeBlockSend link => Sys2Proof.Machine.execTimeBlockSend link s
  | .alignBlockSend link => Sys2Proof.Machine.execAlignBlockSend link s
  | .sidebandRequest link => Sys2Proof.Machine.execSidebandRequest link s
  | .returnMessageReceive link voided msg mem => Sys2Proof.Machine.execReturnMessageReceive link voided msg mem s
  | .confirmReceive link slot status reason line freed drops dev => Sys2Proof.Machine.execConfirmReceive link slot status reason line freed drops dev s
  | .statusReceive link slot headOk inhibited freed ohms mem => Sys2Proof.Machine.execStatusReceive link slot headOk inhibited freed ohms mem s
  | .sbRespReceive link tid result data => Sys2Proof.Machine.execSbRespReceive link tid result data s
  | .hlFrameNak link slot reason line freed => Sys2Proof.Machine.execHlFrameNak link slot reason line freed s
  | .confTimeout link => Sys2Proof.Machine.execConfTimeout link s
  | .retSilent link => Sys2Proof.Machine.execRetSilent link s
  | .retLockLost link => Sys2Proof.Machine.execRetLockLost link s
  | .hlPresentLost link => Sys2Proof.Machine.execHlPresentLost link s
  | .usageRecordWrite head => Sys2Proof.Machine.execUsageRecordWrite head s
  | .usageWriteEnd head => Sys2Proof.Machine.execUsageWriteEnd head s
  | .camStart c => Sys2Proof.Machine.execCamStart c s
  | .camStop c => Sys2Proof.Machine.execCamStop c s
  | .servoSet c barMask mode => Sys2Proof.Machine.execServoSet c barMask mode s
  | .camReinit c => Sys2Proof.Machine.execCamReinit c s
  | .camReinitTimeout => Sys2Proof.Machine.execCamReinitTimeout s
  | .servoCommit bar => Sys2Proof.Machine.execServoCommit bar s
  | .camLinkUp mem fails => Sys2Proof.Machine.execCamLinkUp mem fails s
  | .camLinkDown => Sys2Proof.Machine.execCamLinkDown s
  | .camTriggerUnmatchedTimeout => Sys2Proof.Machine.execCamTriggerUnmatchedTimeout s
  | .camLineTrigger => Sys2Proof.Machine.execCamLineTrigger s
  | .csiFrameStart vc eccFixed num => Sys2Proof.Machine.execCsiFrameStart vc eccFixed num s
  | .csiLineStart vc eccFixed num => Sys2Proof.Machine.execCsiLineStart vc eccFixed num s
  | .csiLinePacket vc ecc dt wc payload crcGood => Sys2Proof.Machine.execCsiLinePacket vc ecc dt wc payload crcGood s
  | .csiFrameEnd vc eccFixed num => Sys2Proof.Machine.execCsiFrameEnd vc eccFixed num s
  | .ispLineProcess parityBad => Sys2Proof.Machine.execIspLineProcess parityBad s
  | .camCtlResponse frame => Sys2Proof.Machine.execCamCtlResponse frame s
  | .camCtlTimeout => Sys2Proof.Machine.execCamCtlTimeout s
  | .rankRetire c channel rank => Sys2Proof.Machine.execRankRetire c channel rank s
  | .dramReadError word rank kind cls => Sys2Proof.Machine.execDramReadError word rank kind cls s
  | .memCaErr ch rank writeCrc failed => Sys2Proof.Machine.execMemCaErr ch rank writeCrc failed s
  | .dramRefresh ch rank bank => Sys2Proof.Machine.execDramRefresh ch rank bank s
  | .rowHammerWindow => Sys2Proof.Machine.execRowHammerWindow s
  | .rowIdleClose ch rank bank => Sys2Proof.Machine.execRowIdleClose ch rank bank s
  | .scrubRead err => Sys2Proof.Machine.execScrubRead err s
  | .migrationRowCopy bad targetBad => Sys2Proof.Machine.execMigrationRowCopy bad targetBad s
  | .channelRetrain ch result ms failed => Sys2Proof.Machine.execChannelRetrain ch result ms failed s
  | .channelReform => Sys2Proof.Machine.execChannelReform s
  | .thermSet c sensor warn throttle trip => Sys2Proof.Machine.execThermSet c sensor warn throttle trip s
  | .powerBudget c fieldW => Sys2Proof.Machine.execPowerBudget c fieldW s
  | .throttleEngageForced => Sys2Proof.Machine.execThrottleEngageForced s
  | .throttleRelax => Sys2Proof.Machine.execThrottleRelax s
  | .hwGuardSample raw => Sys2Proof.Machine.execHwGuardSample raw s
  | .dspConfig c panelId width height mbps answer => Sys2Proof.Machine.execDspConfig c panelId width height mbps answer s
  | .dspCommit c regions => Sys2Proof.Machine.execDspCommit c regions s
  | .dspTeEdge => Sys2Proof.Machine.execDspTeEdge s
  | .dspPushEnd repeated parity => Sys2Proof.Machine.execDspPushEnd repeated parity s
  | .dspTeLost => Sys2Proof.Machine.execDspTeLost s
  | .fijSet c target inst action rate count => Sys2Proof.Machine.execFijSet c target inst action rate count s
  | .fijClear c => Sys2Proof.Machine.execFijClear c s
  | .fijDelayRelease => Sys2Proof.Machine.execFijDelayRelease s
  | .cdcTimeout id => Sys2Proof.Machine.execCdcTimeout id s

end Sys2Proof.Machine
end

