-- ==== Sys2Proof/Safety.lean ====
section
/-! DEFINITION. The terms in which claims about the block are stated: what a row answers, what it leaves as it was, when a
command reaches its body, what completes it, and which event is the newest. -/

namespace Sys2Proof.Machine

/-- The row answers a next state, and `P` holds of it. -/
def Answers (i : Instr) (s : State) (P : State → Prop) : Prop := ∃ t, exec i s = .next t ∧ P t

/-! ### Frames -/

/-- Every register field whose store key is not among `ks` reads as before. -/
def SameRegs (ks : List Nat) (a b : Core) : Prop := ∀ (f : Fld) (n : Nat), f.key n ∉ ks → b.rd f n = a.rd f n
/-- Beside registers, queues and events, the tick cores' records, and the counter of free values, nothing changes. -/
def Quiet (a b : Core) : Prop :=
  b = { a with regs := b.regs, cmdq := b.cmdq, tck := b.tck, free := b.free, limits := b.limits }
/-- The block a register field lies in: the upper half of its address (spec/17_register_and_code_index.md R602). -/
def Fld.block (f : Fld) (n : Nat) : Nat := f.key n / 2 ^ 21
/-- Every register outside the blocks `ps` reads as before. -/
def SameOutside (ps : List Nat) (a b : Core) : Prop := ∀ (f : Fld) (n : Nat), f.block n ∉ ps → b.rd f n = a.rd f n
/-- Only registers, the event buffer, the event FIFO and the limits of events change. -/
def QuietEvents (a b : Core) : Prop :=
  b = { a with regs := b.regs, limits := b.limits,
               cmdq := { a.cmdq with events := b.cmdq.events, fifo := b.cmdq.fifo, evSeq := b.cmdq.evSeq } }
/-- Only registers change. -/
def OnlyRegs (a b : Core) : Prop := b = { a with regs := b.regs }
/-- The row acts on the field side's registers and records: the queue, the host side and DRAM stay as they are. -/
def CoreOnly (s t : State) : Prop := t.pending = s.pending ∧ t.host = s.host ∧ t.field.dram = s.field.dram
/-- The row acts on the host side: the queue and the field side stay as they are. -/
def HostOnly (s t : State) : Prop := t.pending = s.pending ∧ t.field = s.field
/-- Every BAR0 field whose store key is not among `ks` reads as before. -/
def SameBar (ks : List Nat) (a b : HostSide) : Prop := ∀ (f : Fld) (n : Nat), f.key n ∉ ks → b.rd f n = a.rd f n
/-- Only BAR0 fields change on the host side. -/
def BarOnly (a b : HostSide) : Prop := b = { a with bar := b.bar }
/-- Every byte of DRAM outside `[a, a + n)` reads as before. -/
def SameBytes (a n : Nat) (m m' : Dram) : Prop := ∀ x, x < a ∨ a + n ≤ x → m'.get x = m.get x

/-! ### Events -/

/-- Code and data of the newest event where events of that code go first: the FIFO of hardware events while the core
holds them (R210, R227), else the field-side event buffer. -/
def Core.newest (s : Core) (code : Nat) : Option (Nat × Nat) :=
  (if s.held code then s.cmdq.fifo else s.cmdq.events).getLast?.map fun e => (e.opcode, e.result)
/-- From `a` to `b` one event of that code and data has been raised: into the FIFO, which has lost its oldest if it was full
(R227), or into the buffer with the next number (R50, R606). -/
def Core.Raised (a b : Core) (code data : Nat) : Prop :=
  b.newest code = some (code, data) ∧ b.held code = a.held code ∧
  if a.held code then
    b.cmdq.evSeq = a.cmdq.evSeq ∧ b.cmdq.fifo.dropLast = a.cmdq.fifo.drop (a.cmdq.fifo.length - 1023)
  else b.cmdq.evSeq = a.cmdq.evSeq + 1

/-- Nothing waits on a position: no compare entry pending and no defect marker scheduled. -/
def NothingDue (s : Core) : Prop := s.pos.cmp.pool = [] ∧ s.spg.markers = []

/-! ### Commands -/

/-- A header that passes checks 1 and 6 for a command without bulk data and with `plen` parameter bytes, none of its
reserved bytes set (R167, R179). -/
structure CleanHeader (c : Call) (plen : Nat) : Prop where
  tag : c.tagRes = 0
  flags : c.flagRes = 0
  len : c.plen.toNat = plen
  sg : c.sg = false
  count : c.sgCount = 0
  addr : c.sglAddr = 0
  reserved : c.resOff = none
/-- A header with a scatter list of well-formed elements whose data has all landed (R168 to R170); the host sends it, for FSP has no
bulk data (R205). -/
structure BulkHeader (c : Call) (plen : Nat) (data : Bytes) : Prop where
  host : c.src = .host
  tag : c.tagRes = 0
  flags : c.flagRes = 0
  len : c.plen.toNat = plen
  sg : c.sg = true
  count : 0 < c.sgCount.toNat ∧ c.sgCount.toNat ≤ 4096
  addr : c.sglAddr.toNat % 16 = 0
  elems : ∀ e ∈ c.bulk.sgl, e.len ≠ 0 ∧ e.res = 0
  reserved : c.resOff = none
  moved : c.bulk.dmaFail = none
  landed : c.bulk.data = data
  size : dlenOf c = data.length
/-- A header of a command that returns `n` bytes through a scatter list of the host's (R168, R169). -/
structure ReturnHeader (c : Call) (plen n : Nat) : Prop where
  host : c.src = .host
  tag : c.tagRes = 0
  flags : c.flagRes = 0
  len : c.plen.toNat = plen
  sg : c.sg = true
  count : 0 < c.sgCount.toNat ∧ c.sgCount.toNat ≤ 4096
  addr : c.sglAddr.toNat % 16 = 0
  elems : ∀ e ∈ c.bulk.sgl, e.len ≠ 0 ∧ e.res = 0
  reserved : c.resOff = none
  moved : c.bulk.dmaFail = none
  size : dlenOf c = n
/-- A register whose read has no effect and returns what it stores: no window, pair, data register or live figure lies there. -/
def plainWord (a : Nat) : Bool :=
  !inNozWindow a && !inPoolWindow a && !isLatched a && latchesOf a == [] && (HDC_TONE_DATA.VALUE.at? a).isNone &&
  (ISP_TBL_DATA.DATA.at? a).isNone && !isAt SCR_MASK_DATA.DATA a && !isAt JOB_QUEUE.LIVE a && !isAt JOB_DEF_IDX.IDX a &&
  !isAt JOB_DEF_DATA0.UNIT a && !isAt JOB_DEF_DATA1.FIRST a && !isAt JOB_DEF_DATA2.LAST a && !isAt JOB_DEF_DATA3.LINES a &&
  !isAt CAM_TRIG_FIFO.LEVEL a
/-- A source of privilege `priv` may read a plain word at `a`, which is present, answers its crossing, and counts nothing that the
command itself changes (R14, R189, R192). -/
def Readable (priv a : Nat) (s : Core) : Prop :=
  plainWord a = true ∧ addrReason priv (readPriv a) a = 0 ∧ s.regTimedOut a = false ∧ s.absentAt a = false ∧
  ¬ (0x10000 ≤ a ∧ a < 0x20000)
/-- The privilege a command needs by its source (R183, R205). -/
def needBy (c : Call) (op need : Nat) : Nat :=
  if c.src = .fsp ∧ op ≠ 0 ∧ op ≠ 1 ∧ op ≠ 0xF0 then 3 else need
/-- A command among those that wait: all that its start depends on is its queue and its FENCE (R175, R176). -/
def inLine (c : Call) : QCmd := ⟨c.src, c.q.val, 0, toLE 4 0 ++ toLE 1 (b2n c.fence), ⟨[], [], none⟩, false, none⟩
/-- The source delivers the command to the field side, whose imago is alive (R227), and it may start there: the host through its
supplied side and the elytron, within the limits of R175, with a tag that R177 does not refuse, with no entry of its queue on the
way ahead of it and with none that keeps it waiting (R175, R176), or FSP with no command of its own open or waiting (R204). -/
def Delivered (c : Call) (s : State) : Prop :=
  s.field.core.imagoDead = false ∧
  match c.src with
  | .host => s.host.powered = true ∧ s.mayTake c.q.val = true ∧ s.field.core.elyUp = true ∧ s.dupTag c.tag.toNat = false ∧
    s.onTheWay c.q.val = false ∧ s.field.core.mayStart s.field.core.cmdq.waiting (inLine c) = true
  | .fsp => s.field.core.fspBusy = false
/-- Queue, field state and privilege let the command run in READY (R174, R188, R193). -/
structure Runs (c : Call) (op need : Nat) (s : State) : Prop where
  ready : s.field.core.bootState = 7
  delivered : Delivered c s
  queue : queueTakes c op = true
  privilege : needBy c op need ≤ s.field.core.priv c.src
/-- The completion entry of a command (R171). -/
def entryOf (c : Call) (op status result etime : Nat) : Compl :=
  ⟨1, status, c.tag.toNat, c.q.val, op, c.index.toNat, etime, result⟩
/-- The command's one completion has joined those that its source reads. -/
def Completed (c : Call) (op status result : Nat) (s t : State) : Prop :=
  match c.src with
  | .host => t.field.core.cmdq.done = s.field.core.cmdq.done ++ [entryOf c op status result s.field.core.etime]
  | .fsp => t.field.core.cmdq.fspTx = [entryOf c op status result s.field.core.etime]
/-- The command has started and completes later: no completion yet, and it is among the started commands. -/
def Started (c : Call) (op : Nat) (t : State) : Prop := refOf op c ∈ t.field.core.cmdq.open_
/-- The registers that running any command may change: what is in flight, and the counters of R206. -/
def commandKeys : List Nat :=
  [CMDQ_INFLIGHT.TOTAL.key 0, CMDQ_INFLIGHT_Q.COUNT.key 0, CMDQ_INFLIGHT_Q.COUNT.key 1, CMDQ_INFLIGHT_Q.COUNT.key 2,
   CMDQ_INFLIGHT_Q.COUNT.key 3, CMDQ_DONE_CNT.COUNT.key 0, CMDQ_ERR_CNT.COUNT.key 0, CMDQ_PROTO_CNT.COUNT.key 0,
   LOG_EVT_OVWR_CNT.COUNT.key 0]
/-- What running a command leaves as it was: the queue, DRAM, the host side but for the command it tracks, and every
register outside `ks` and the command counters. -/
structure CommandFrame (c : Call) (op : Nat) (ks : List Nat) (s t : State) : Prop where
  pending : t.pending = s.pending
  dram : t.field.dram = s.field.dram
  host : t.host = if c.src = .host then
      { s.host with tracked := s.host.tracked ++ [⟨c.q.val, c.tag.toNat, c.index.toNat, op⟩] } else s.host
  regs : SameRegs (commandKeys ++ ks) s.field.core t.field.core

/-- The same frame by blocks, for a command whose effect spreads over several registers of the blocks `ps`: registers outside
them, the CMDQ block and the LOG block read as before. -/
structure CommandWithin (c : Call) (op : Nat) (ps : List Nat) (s t : State) : Prop where
  pending : t.pending = s.pending
  dram : t.field.dram = s.field.dram
  host : t.host = if c.src = .host then
      { s.host with tracked := s.host.tracked ++ [⟨c.q.val, c.tag.toNat, c.index.toNat, op⟩] } else s.host
  regs : SameOutside (0x01 :: 0x1B :: ps) s.field.core t.field.core

/-- LINK_TRAINING of a link, meeting what `x` says. -/
def trainRow (l : Fin 24) (x : TrainIn) : Instr := .linkTraining l x.lock x.hello x.echoes x.status x.headEnd x.found

/-! ### DRAM -/

/-- Every channel answers, with no word poisoned: none retrains (R530), none is offline (R531). -/
structure DramSound (s : State) : Prop where
  poison : s.field.dram.poison = []
  once : s.field.dram.once = []
  layout : ∀ ch ∈ s.field.core.mem.layout, ch < 4
  channels : ∀ ch, ch < 4 → s.field.core.rd MEMC_STATUS.STATE ch < 3
/-- The registers that a request to DRAM may change by itself: the counts of neighbour refreshes (R519). -/
def activateKeys : List Nat := (List.range 4).map fun ch => MEMC_RH_CNT.COUNT.key ch

/-- DRAM is in its canonical form. -/
def State.Inv (s : State) : Prop := s.field.dram.wf

end Sys2Proof.Machine
end

