-- ==== Sys2Proof/Certificates/Slice0/Obligations.lean ====
section
/-! DEFINITION. The statements about the block, from the numbered rules of the spec. `Answers i s P` says that the row `i` at
`s` answers a next state of which `P` holds; the other terms are those of Safety.lean. -/

open Sys2Proof Sys2Proof.Machine

/-! ### The queue and the whole machine -/

/-- Step takes the command at the front of the queue and runs it with the queue's rest (the block's step). -/
def Obligations.StepRunsFrontCommand : Prop :=
  ∀ (i : Instr) (rest : List Instr) (s : State), s.pending = i :: rest → step s = exec i { s with pending := rest }

/-- With no command waiting one nanosecond passes: ETIME counts while the field side is out of reset (R22), and nothing
else changes. That a step on an empty queue is one nanosecond is the model's choice (log entry 1). -/
def Obligations.EmptyQueuePassesOneNanosecond : Prop :=
  ∀ s : State, s.pending = [] →
    (s.field.core.bootState = 1 → step s = .next s) ∧
    (s.field.core.bootState ≠ 1 →
      step s = .next { s with field := { s.field with core := { s.field.core with etime := s.field.core.etime + 1 } } })

/-- Every row answers a next state in every state, and no row touches the queue. -/
def Obligations.EveryRowAnswersAndKeepsQueue : Prop :=
  ∀ (i : Instr) (s : State), Answers i s fun t => t.pending = s.pending

/-- Every step keeps DRAM in its canonical form: addresses strictly rising, no entry equal to what an unlisted byte reads. -/
def Obligations.StepKeepsMemoryCanonical : Prop :=
  ∀ s t : State, s.Inv → step s = .next t → t.Inv

/-- DRAM has its canonical form at reset. -/
def Obligations.ResetMemoryCanonical : Prop := State.reset.Inv

/-- A row of the field side's own events, and the clock's (all rows but commands, host-side rows, resets and the chirp). -/
def ofFieldSide : Instr → Bool
  | .vinFUpdate _ | .vinOver | .pwrFail | .pwrFailDone | .pwrRestored | .encSupOn | .encSupFault _ | .encSupRetry _ _ => true
  | .fwStageWriteDone | .flashOperationDone | .moltPupaBooted _ _ | .drillConfirmed | .checkpointDeadline _ | .pupaLost => true
  | .failedCoreRelease _ _ | .pupaReady | .plannedHandover _ | .handoverFailed => true
  | .skelreStreamHeader | .skelreBlockDecode _ | .lineScreen _ _ _ _ _ | .cmpEntryInsert | .webSourceReturn => true
  | .quadEdge _ _ _ _ | .hallStateChange _ _ | .sincosPhaseStep _ _ | .ssiFrame _ _ _ _ | .indexEvent _ => true
  | .coPulseEnd _ | .speedWindow _ | .stillTimeout _ | .posFaultDetect _ _ | .posFaultClear _ _ _ | .webRatioWindow | .loopUpdate => true
  | .safeInhibit _ | .safeEnergised _ | .safeDiscrepancy => true
  | .linkReattachTimeout _ | .hlPresent _ | .linkTraining _ _ _ _ _ _ _ | .hlTrainFail _ _ | .hlTrainRestart _ => true
  | .sidebandReadTimeout _ | .lineFrameSend _ _ | .tokenSend _ | .timeBlockSend _ | .alignBlockSend _ | .sidebandRequest _ => true
  | .returnMessageReceive _ _ _ _ | .confirmReceive _ _ _ _ _ _ _ _ | .statusReceive _ _ _ _ _ _ _ => true
  | .sbRespReceive _ _ _ _ | .hlFrameNak _ _ _ _ _ | .confTimeout _ | .retSilent _ | .retLockLost _ | .hlPresentLost _ => true
  | .usageRecordWrite _ | .usageWriteEnd _ | .camReinitTimeout | .servoCommit _ | .camLinkUp _ _ | .camLinkDown => true
  | .camTriggerUnmatchedTimeout | .camLineTrigger | .csiFrameStart _ _ _ | .csiLineStart _ _ _ => true
  | .csiLinePacket _ _ _ _ _ _ | .csiFrameEnd _ _ _ | .ispLineProcess _ | .camCtlResponse _ | .camCtlTimeout => true
  | .dramReadError _ _ _ _ | .memCaErr _ _ _ _ | .dramRefresh _ _ _ | .rowHammerWindow | .rowIdleClose _ _ _ => true
  | .scrubRead _ | .migrationRowCopy _ _ | .channelRetrain _ _ _ _ | .channelReform | .throttleEngageForced => true
  | .throttleRelax | .hwGuardSample _ | .dspTeEdge | .dspPushEnd _ _ | .dspTeLost | .cdcTimeout _ => true
  | _ => false

/-- Among them the rows that move or spoil bytes of DRAM: image loads, decoding and screening, the image pipeline, reads that
find errors, the scrubber, row copies, channels that leave or re-form, and a display push. -/
def ofDram : Instr → Bool
  | .moltPupaBooted _ _ | .failedCoreRelease _ _ | .skelreBlockDecode _ | .lineScreen _ _ _ _ _ | .ispLineProcess _ => true
  | .dramReadError _ _ _ _ | .scrubRead _ | .migrationRowCopy _ _ | .channelRetrain _ _ _ _ | .channelReform => true
  | .dspPushEnd _ _ => true
  | _ => false

/-- The field side's own events do nothing while it is held in reset (R122), and never reach the host side: what they
report crosses the elytron later. All but those of `ofDram` leave every byte of DRAM as it was. -/
def Obligations.FieldEventsStayOnTheFieldSide : Prop :=
  ∀ (i : Instr) (s : State), ofFieldSide i = true → Answers i s fun t =>
    t.host = s.host ∧ t.pending = s.pending ∧ (s.field.core.bootState = 1 → t = s) ∧
    (ofDram i = false → t.field.dram = s.field.dram)

/-! ### Reset, start-up, supply and flash (spec/02 and spec/03) -/

/-- A field-side reset of a cause: every register but RESET_CAUSE at its reset value, time 0, queues and DRAM empty, the
elytron down, flash kept but for a write it cuts, and the host side keeps what was tracked as lost (R22, R36, R187, R200,
R222). -/
def fieldResetTo (cause : Nat) (s t : State) : Prop :=
  (∀ (f : Fld) (n : Nat), f.key n ≠ SYS_BOOT.RESET_CAUSE.key 0 → t.field.core.rd f n = resetOf f n % 2 ^ f.width) ∧
  t.field.core.rd SYS_BOOT.RESET_CAUSE = cause ∧ t.field.core.etime = 0 ∧ t.field.core.elyUp = false ∧
  t.field.core.cmdq = CmdqSt.reset ∧ t.field.core.jobs = JobSt.reset ∧
  t.field.core.flash.images = s.field.core.flash.cut.images ∧ t.field.core.flash.queue = [] ∧
  (∀ a, t.field.dram.get a = memDefault) ∧
  t.host.lost = s.host.lost ++ s.host.tracked ∧ t.host.tracked = [] ∧ t.pending = s.pending

/-- FIELD_BROWN_OUT resets the field side with cause 2 (R102), WATCHDOG_BITE with cause 3 while the chirp runs (R222), and
FIELD_RESET_DELAY_EXPIRY with cause 4 after a FIELD_RESET (R187); without one it changes nothing. -/
def Obligations.FieldResetsRestoreResetValues : Prop :=
  ∀ s : State,
    Answers .fieldBrownOut s (fieldResetTo 2 s) ∧
    (s.field.core.tck.running = true → Answers .watchdogBite s (fieldResetTo 3 s)) ∧
    (s.field.core.resetPending = true → Answers .fieldResetDelayExpiry s (fieldResetTo 4 s)) ∧
    (s.field.core.resetPending = false → Answers .fieldResetDelayExpiry s fun t => t = s)

/-- Does a core run after start-up: its self-test passes, and its active image or its golden image passes every check of
R130? -/
def coreStarts (b : BootIn) (s : Core) (core : Nat) : Bool :=
  (if core = 0 then b.coreA else b.coreB) &&
  (imageReason (s.flash.image core (s.flash.activeSlot core))
      (b.flashBad.any fun p => p.1.val == core && p.2.val == s.flash.activeSlot core) == 0 ||
   imageReason (s.flash.image core 2) (b.flashBad.any fun p => p.1.val == core && p.2.val == 2) == 0)
/-- A channel enters service with at least two ranks that train and that no record keeps out (R513, R529). -/
def channelStarts (b : BootIn) (s : Core) (ch : Nat) : Bool :=
  decide (2 ≤ (List.range 3).countP fun r =>
    (s.flash.rankRecord ch r).isNone && !(b.badRanks.any fun p => p.1.val == ch && p.2.val == r))

/-- FIELD_RESET_RELEASE runs start-up: the field side ends in READY where the chip's own checks pass, a channel of DRAM
trains and a core starts, else in BOOT_FAIL (R116, R119, R120). -/
def Obligations.StartUpEndsReadyOrBootFail : Prop :=
  ∀ (b : BootIn) (s : State), s.field.core.bootState = 1 → s.field.core.rd MEM_STATUS.IN_SERVICE = 0 →
    Answers (.fieldResetRelease b) s fun t =>
      t.pending = s.pending ∧
      t.field.core.bootState =
        (if b.chip && (List.range 4).any (channelStarts b s.field.core) && (List.range 2).any (coreStarts b s.field.core)
         then 7 else 15)


/-- VIN_F_UPDATE shows the sample at its time, keeps the least one, ends VIN_OVER at 32.5 V and below, and holds the sample against
the thresholds of R102 (R102, R110); VIN_OVER sets its bit once, 1 ms after VIN_F rose above 32.5 V, and reports it. -/
def Obligations.SupplySamplesAreShown : Prop :=
  ∀ (v : BitVec 12) (s : State), s.field.core.bootState ≠ 1 →
    (Answers (.vinFUpdate v) s fun t =>
      t.field.core.rd PWR_SUPPLY.VIN_F = v.toNat ∧
      t.field.core.rd PWR_VIN_MIN.MIN =
        (if v.toNat < s.field.core.rd PWR_VIN_MIN.MIN then v.toNat else s.field.core.rd PWR_VIN_MIN.MIN) ∧
      t.field.core.rd PWR_SUPPLY.VIN_OVER = (if v.toNat ≤ 3250 then 0 else s.field.core.rd PWR_SUPPLY.VIN_OVER) ∧
      t.field.core.etime = max s.field.core.etime (s.field.core.pwr.sampledAt + 100000) ∧
      t.field.core.pwr = { s.field.core.pwr with
        sampledAt := t.field.core.etime
        lowFrom := if v.toNat < 10 * s.field.core.rd PWR_PF_CFG.PF_LEVEL
          then some (s.field.core.pwr.lowFrom.getD t.field.core.etime) else none
        backFrom := if 10 * s.field.core.rd PWR_PF_CFG.PF_LEVEL + 50 ≤ v.toNat
          then some (s.field.core.pwr.backFrom.getD t.field.core.etime) else none
        overFrom := if 3250 < v.toNat then some (s.field.core.pwr.overFrom.getD t.field.core.etime) else none } ∧
      SameRegs [PWR_SUPPLY.VIN_F.key 0, PWR_VIN_MIN.MIN.key 0, PWR_SUPPLY.VIN_OVER.key 0] s.field.core t.field.core ∧
      CoreOnly s t) ∧
    (∀ t0 : Nat, s.field.core.pwr.overFrom = some t0 → s.field.core.rd PWR_SUPPLY.VIN_OVER = 0 → Answers .vinOver s fun t =>
      t.field.core.rd PWR_SUPPLY.VIN_OVER = 1 ∧ s.field.core.Raised t.field.core 0x0D35 0 ∧
      t.field.core.etime = max s.field.core.etime (t0 + 1000000) ∧
      SameRegs [PWR_SUPPLY.VIN_OVER.key 0, LOG_EVT_OVWR_CNT.COUNT.key 0] s.field.core t.field.core ∧
      CoreOnly s t) ∧
    (s.field.core.rd PWR_SUPPLY.VIN_OVER ≠ 0 ∨ s.field.core.pwr.overFrom = none → Answers .vinOver s fun t => t = s)

/-- The power-fail sequence (R102, R105): PWR_FAIL, 200 µs after VIN_F fell below PF_LEVEL, sets PF, counts, and reports; where no
head link is up nothing else changes. PWR_FAIL_DONE ends a sequence that has no write left. PWR_RESTORED, 100 ms after VIN_F came
back, clears both bits and may let a flash write start. -/
def Obligations.PowerFailSequence : Prop :=
  ∀ s : State, s.field.core.bootState ≠ 1 →
    (∀ t0 : Nat, s.field.core.pwr.lowFrom = some t0 → s.field.core.rd PWR_SUPPLY.PF = 0 → s.field.core.upLinks = [] →
      Answers .pwrFail s fun t =>
      t.field.core.rd PWR_SUPPLY.PF = 1 ∧ t.field.core.etime = max s.field.core.etime (t0 + 200000) ∧
      t.field.core.rd PWR_PF_CNT.COUNT = satU PWR_PF_CNT.COUNT.width (s.field.core.rd PWR_PF_CNT.COUNT + 1) ∧
      s.field.core.Raised t.field.core 0x0D31 0 ∧
      SameRegs [PWR_SUPPLY.PF.key 0, PWR_PF_CNT.COUNT.key 0, LOG_EVT_OVWR_CNT.COUNT.key 0] s.field.core t.field.core ∧
      CoreOnly s t) ∧
    (s.field.core.rd PWR_SUPPLY.PF ≠ 0 ∨ s.field.core.pwr.lowFrom = none → Answers .pwrFail s fun t => t = s) ∧
    (s.field.core.rd PWR_SUPPLY.PF = 1 → s.field.core.rd PWR_SUPPLY.PF_DONE = 0 → s.field.core.upLinks = [] →
      Answers .pwrFailDone s fun t =>
        t.field.core.rd PWR_SUPPLY.PF_DONE = 1 ∧ s.field.core.Raised t.field.core 0x0D32 0 ∧
        SameRegs [PWR_SUPPLY.PF_DONE.key 0, LOG_EVT_OVWR_CNT.COUNT.key 0] s.field.core t.field.core ∧
        QuietEvents s.field.core t.field.core ∧ CoreOnly s t) ∧
    (∀ t0 : Nat, s.field.core.pwr.backFrom = some t0 → s.field.core.rd PWR_SUPPLY.PF ≠ 0 → Answers .pwrRestored s fun t =>
      t.field.core.rd PWR_SUPPLY.PF = 0 ∧ t.field.core.rd PWR_SUPPLY.PF_DONE = 0 ∧
      t.field.core.etime = max s.field.core.etime (t0 + 100000000) ∧
      SameRegs [PWR_SUPPLY.PF.key 0, PWR_SUPPLY.PF_DONE.key 0, THM_DEFER.FLASH_HOLD.key 0, THM_DEFER.QUEUED.key 0,
        LOG_EVT_OVWR_CNT.COUNT.key 0] s.field.core t.field.core ∧ CoreOnly s t)

/-- The sensor supplies (R104, R348): they switch on 10 ms after reset is released, on every channel that EN enables; an overloaded
channel is switched off, its FAULT bit set, and reported, and its position channel shows SUP; 1 s later it is tried again, and FAULT
and SUP clear once it has held for 100 ms, or it is cut again. With nothing due at a position. -/
def Obligations.SensorSuppliesSwitchAndRetry : Prop :=
  ∀ (ch : Fin 8) (s : State), s.field.core.bootState ≠ 1 → NothingDue s.field.core →
    (s.field.core.pwr.on = false → Answers .encSupOn s fun t =>
      t = { s with field := { s.field with core := { s.field.core with
              etime := max s.field.core.etime 10000000, pwr := { s.field.core.pwr with on := true } } } } ∧
      (s.field.core.rd PWR_ENC_SUP.FAULT = 0 → t.field.core.supOn ch.val = (s.field.core.rd PWR_ENC_SUP.EN).testBit ch.val)) ∧
    (s.field.core.pwr.on = true → (s.field.core.rd PWR_ENC_SUP.EN).testBit ch.val = true →
      (s.field.core.rd PWR_ENC_SUP.FAULT).testBit ch.val = false → Answers (.encSupFault ch) s fun t =>
      (∀ k : Fin 8, (t.field.core.rd PWR_ENC_SUP.FAULT).testBit k.val =
        ((s.field.core.rd PWR_ENC_SUP.FAULT).testBit k.val || k == ch)) ∧
      t.field.core.supOn ch.val = false ∧
      mget 0 t.field.core.pwr.cutAt ch.val = s.field.core.etime ∧
      t.field.core.rd POS_STATUS.SUP ch.val = 1 ∧
      (s.field.core.rd POS_STATUS.SUP ch.val = 0 → t.field.core.rd POS_STATUS.FAULT ch.val = 1) ∧
      (2 ≤ ch.val → s.field.core.rd POS_STATUS.FAULT 0 = 0 → s.field.core.rd POS_STATUS.FAULT 1 = 0 →
        s.field.core.Raised t.field.core 0x0D34 0) ∧
      SameOutside [0x0E, 0x11, 0x12, 0x17, 0x1B] s.field.core t.field.core ∧ CoreOnly s t) ∧
    ((s.field.core.rd PWR_ENC_SUP.EN).testBit ch.val = true → (s.field.core.rd PWR_ENC_SUP.FAULT).testBit ch.val = true →
      (Answers (.encSupRetry ch true) s fun t =>
        (∀ k : Fin 8, (t.field.core.rd PWR_ENC_SUP.FAULT).testBit k.val =
          ((s.field.core.rd PWR_ENC_SUP.FAULT).testBit k.val && k != ch)) ∧
        t.field.core.etime = max s.field.core.etime (mget 0 s.field.core.pwr.cutAt ch.val + 1000000000) + 100000000 ∧
        t.field.core.supOn ch.val = s.field.core.pwr.on ∧ t.field.core.rd POS_STATUS.SUP ch.val = 0 ∧
        SameOutside [0x0E, 0x11, 0x12, 0x17, 0x1B] s.field.core t.field.core ∧ CoreOnly s t) ∧
      (Answers (.encSupRetry ch false) s fun t =>
        (∀ k : Fin 8, (t.field.core.rd PWR_ENC_SUP.FAULT).testBit k.val =
          (s.field.core.rd PWR_ENC_SUP.FAULT).testBit k.val) ∧
        mget 0 t.field.core.pwr.cutAt ch.val = t.field.core.etime ∧
        t.field.core.etime = max s.field.core.etime (mget 0 s.field.core.pwr.cutAt ch.val + 1000000000) ∧
        t.field.core.rd POS_STATUS.SUP ch.val = 1 ∧ (2 ≤ ch.val → s.field.core.rd POS_STATUS.FAULT 0 = 0 → s.field.core.rd POS_STATUS.FAULT 1 = 0 →
        s.field.core.Raised t.field.core 0x0D34 0) ∧
        SameOutside [0x0E, 0x11, 0x12, 0x17, 0x1B] s.field.core t.field.core ∧ CoreOnly s t))

/-- Flash writes end in order (R556): FLASH_OPERATION_DONE commits the write under way and takes it off the queue, and the boot
record of a MOLT whose core has become imago ends that MOLT (R237);
FW_STAGE_WRITE_DONE does so for an image slot, checks the image under R130, and the staged slot becomes verified exactly
when it passes. -/
def Obligations.FlashWritesEndInOrder : Prop :=
  ∀ (s : State) (rest : List FlashOp), s.field.core.bootState ≠ 1 → s.field.core.flash.busy = true →
    (∀ op : FlashOp, (∀ core slot o d, op ≠ .image core slot o d) →
      (∀ m, s.field.core.tck.molt = some m → m.swapped = false) → s.field.core.flash.queue = op :: rest →
      Answers .flashOperationDone s fun t =>
        t.field.core.flash.queue = rest ∧
        t.field.core.flash.bank0 = (s.field.core.flash.commit op true).bank0 ∧
        t.field.core.flash.bank1 = (s.field.core.flash.commit op true).bank1 ∧
        t.field.core.flash.boot0 = (s.field.core.flash.commit op true).boot0 ∧
        t.field.core.flash.boot1 = (s.field.core.flash.commit op true).boot1 ∧
        t.field.core.flash.retired = (s.field.core.flash.commit op true).retired ∧
        t.field.core.flash.images = s.field.core.flash.images ∧
        SameRegs [THM_DEFER.FLASH_HOLD.key 0, THM_DEFER.QUEUED.key 0, LOG_EVT_OVWR_CNT.COUNT.key 0]
          s.field.core t.field.core ∧ CoreOnly s t) ∧
    (∀ (m : Molt) (a b : Nat), s.field.core.tck.molt = some m → m.swapped = true → s.field.core.flash.queue = .boot a b :: rest →
      Answers .flashOperationDone s fun t =>
        t.field.core.tck.molt = none ∧ t.field.core.rd TCK_STATUS.MOLT_PENDING = 0 ∧ t.field.core.flash.queue = rest ∧
        (∀ x ∈ t.field.core.cmdq.async, x.opId ≠ m.opId) ∧
        SameRegs [THM_DEFER.FLASH_HOLD.key 0, THM_DEFER.QUEUED.key 0, TCK_STATUS.MOLT_PENDING.key 0, LOG_EVT_OVWR_CNT.COUNT.key 0]
          s.field.core t.field.core ∧ CoreOnly s t) ∧
    (∀ (core slot : Fin 2) (o : Nat) (d : Bytes), s.field.core.flash.queue = .image core.val slot.val o d :: rest →
      s.field.core.bootState = 7 → s.field.core.rd (failFld core.val) = 0 →
      Answers .fwStageWriteDone s fun t =>
        t.field.core.flash.queue = rest ∧
        t.field.core.flash.image core.val slot.val = some d ∧
        t.field.core.staged core.val =
          (if imageReason (some d) false = 0 then some slot.val else s.field.core.staged core.val) ∧
        SameRegs [THM_DEFER.FLASH_HOLD.key 0, THM_DEFER.QUEUED.key 0, LOG_EVT_OVWR_CNT.COUNT.key 0]
          s.field.core t.field.core ∧ CoreOnly s t)

/-- MOLT_PUPA_BOOTED (R237): where the pupa fails its self-test, or the staged image is refused, the MOLT ends; where the staged
image passes, the molt goes on and the core shows the staged slot. -/
def Obligations.MoltGoesOnWithAGoodImage : Prop :=
  ∀ (s : State) (m : Molt) (core slot : Fin 2), s.field.core.bootState ≠ 1 → s.field.core.tck.molt = some m →
    s.field.core.tck.held = none → m.booted = false → m.core = core.val → m.slot = slot.val →
    (∀ bad, Answers (.moltPupaBooted false bad) s fun t =>
      t.field.core.tck.molt = none ∧ t.field.core.rd TCK_STATUS.MOLT_PENDING = 0 ∧
      t.field.core.rd (failFld core.val) = 1 ∧ t.field.core.rd TCK_STATUS.PUPA_STATE = 0 ∧
      t.field.core.staged core.val = none ∧
      SameRegs [TCK_STATUS.MOLT_PENDING.key 0, (failFld core.val).key 0, TCK_STATUS.PUPA_STATE.key 0, SYS_BOOT.CKPT_MATCH.key 0,
        LOG_EVT_OVWR_CNT.COUNT.key 0] s.field.core t.field.core ∧ CoreOnly s t) ∧
    (∀ bad : List (Fin 3), Answers (.moltPupaBooted true bad) s fun t =>
      t.field.core.tck.molt =
        (if imageReason (s.field.core.flash.image core.val slot.val) ((bad.map Fin.val).contains slot.val) = 0 then some { m with booted := true } else none) ∧
      (t.field.core.tck.molt.isSome → t.field.core.rd SYS_FW.SLOT core.val = slot.val) ∧
      t.pending = s.pending ∧ t.host = s.host)

/-- CHIRP at a boundary at which the imago does no work (R210, R219, R226): one chirp more is counted, time stands at the boundary,
the period and miss limit of the registers take effect, the imago has failed, and a boundary at which neither path has carried a
heartbeat made in the chirp that ends adds one to the run of misses, a boundary with one ends it. A write that a core made to a port
without holding the imago line is counted (R217). -/
def Obligations.ChirpBoundaryCountsAndMonitors : Prop :=
  ∀ (b : ChirpIn) (s : State), s.field.core.tck.running = true →
    (b.works = false → Answers (.chirp b) s fun t =>
      t.field.core.rd TCK_CHIRP_CNT.COUNT = (s.field.core.rd TCK_CHIRP_CNT.COUNT + 1) % 2 ^ 32 ∧
      t.field.core.etime = max s.field.core.etime (s.field.core.tck.last + 1000 * s.field.core.tck.period) ∧
      t.field.core.tck.last = s.field.core.tck.last + 1000 * s.field.core.tck.period ∧
      t.field.core.tck.period = s.field.core.rd TCK_CFG.CHIRP_US ∧
      t.field.core.tck.missLimit = s.field.core.rd TCK_CFG.HB_MISS_LIMIT ∧
      t.field.core.rd TCK_STATUS.MISS_RUN =
        (if (b.wire || b.word) && s.field.core.beatsBy t.field.core.tck.last != s.field.core.tck.seenWord then 0
         else min 15 (s.field.core.rd TCK_STATUS.MISS_RUN + 1)) ∧
      t.field.core.tck.seenWord = s.field.core.beatsBy t.field.core.tck.last ∧
      t.field.core.tck.imagoUp = false ∧
      t.field.core.rd TCK_LINE_DENY_CNT.COUNT = satU TCK_LINE_DENY_CNT.COUNT.width (s.field.core.rd TCK_LINE_DENY_CNT.COUNT +
        (b.portWrites.filter fun core =>
          !(s.field.core.rdb TCK_STATUS.LINE_HELD && s.field.core.rd SYS_BOOT.IMAGO == core.val)).length) ∧ CoreOnly s t)

/-- CHECKPOINT_DEADLINE (R211, R219, R224): where items were left, they are dropped, counted as an overrun (and a hard overrun
where items 1 to 5 ran past the deadline), and item 10 writes a valid checkpoint of the imago's epoch and the chirp number into the
bank that does not hold the newest valid one, makes both heartbeats, kicks the watchdog and ends the chirp, whose length counts. -/
def Obligations.CheckpointDeadlineDropsAndCheckpoints : Prop :=
  ∀ (hard : Bool) (work : BitVec 20) (s : State), s.field.core.bootState ≠ 1 → s.field.core.tck.dropped ≠ 0 →
    Answers (.checkpointDeadline ⟨hard, work⟩) s fun t =>
      t.field.core.tck.dropped = 0 ∧ t.field.core.tck.hbAt = t.field.core.tck.kickAt ∧
      t.field.core.tck.kickAt = max t.field.core.etime
        (s.field.core.tck.last + max (1000 * s.field.core.tck.period - 8000) work.toNat) ∧
      t.field.core.tck.hbWire = !s.field.core.tck.hbWire ∧ t.field.core.tck.hbWord = s.field.core.tck.hbWord + 1 ∧
      t.field.core.rd TCK_CHIRP_MAX.NS = max (s.field.core.rd TCK_CHIRP_MAX.NS)
        (satU 20 (max (1000 * s.field.core.tck.period - 8000) work.toNat)) ∧
      t.field.core.etime = max s.field.core.etime (s.field.core.tck.last + 1000 * s.field.core.tck.period - 8000) ∧
      t.field.core.rd TCK_OVR_CNT.COUNT = satU TCK_OVR_CNT.COUNT.width (s.field.core.rd TCK_OVR_CNT.COUNT + 1) ∧
      t.field.core.rd TCK_HARD_OVR_CNT.COUNT =
        (if hard then satU TCK_HARD_OVR_CNT.COUNT.width (s.field.core.rd TCK_HARD_OVR_CNT.COUNT + 1)
         else s.field.core.rd TCK_HARD_OVR_CNT.COUNT) ∧
      (∃ k : Ckpt,
        (if newerCkpt s.field.core.tck.bank1 s.field.core.tck.bank0 then
          t.field.core.tck.bank1 = some k ∧ t.field.core.tck.bank0 = s.field.core.tck.bank0
         else t.field.core.tck.bank0 = some k ∧ t.field.core.tck.bank1 = s.field.core.tck.bank1) ∧
        k.valid = true ∧ k.handover = false ∧ k.writer = s.field.core.imago ∧ k.chirp = s.field.core.tck.chirpNo ∧
        k.epoch = s.field.core.rd SYS_EPOCH.CKPT_EPOCH s.field.core.imago ∧ k.etime = t.field.core.etime) ∧
      SameRegs [TCK_OVR_CNT.COUNT.key 0, TCK_HARD_OVR_CNT.COUNT.key 0, TCK_CHIRP_MAX.NS.key 0, LOG_EVT_OVWR_CNT.COUNT.key 0]
        s.field.core t.field.core ∧ CoreOnly s t

/-- IMAGO_TAKEOVER (R226 to R232): once the misses reach the limit and a pupa lives, the imago line passes to it, no more than 40 µs
after the boundary, and the old core is held in reset. With equal checkpoint epochs and a valid bank the field side keeps its state
and takes the state of temperature and power, but for the runs of the hardware guard and a pending throttle request, from the newest
valid checkpoint (DEDUCED: log entry 46), and such a request older than ENGAGE_MS engages; with epochs that differ, and no job
defined, the field side ends in SAFE_IDLE. -/
def Obligations.TakeoverPassesTheLine : Prop :=
  ∀ (lag : BitVec 16) (s : State),
    s.field.core.tck.running = true → s.field.core.tck.missLimit ≤ s.field.core.rd TCK_STATUS.MISS_RUN →
    2 ≤ s.field.core.rd TCK_STATUS.PUPA_STATE → s.field.core.rd SYS_BOOT.IMAGO ≤ 1 →
    s.field.core.cmdq.waiting = [] → s.field.core.jobs = JobSt.reset →
    Answers (.imagoTakeover lag []) s fun t =>
      t.field.core.rd SYS_BOOT.IMAGO = 1 - s.field.core.rd SYS_BOOT.IMAGO ∧
      t.field.core.tck.held = some (s.field.core.rd SYS_BOOT.IMAGO) ∧ t.field.core.imagoDead = false ∧
      t.field.core.rd TCK_STATUS.SWITCHING = 0 ∧
      t.field.core.etime = max s.field.core.etime (s.field.core.tck.last + min lag.toNat 40000) ∧
      (s.field.core.rd SYS_EPOCH.CKPT_EPOCH 0 = s.field.core.rd SYS_EPOCH.CKPT_EPOCH 1 →
        ∀ k : Ckpt, s.field.core.newestCkpt (fun _ => false) = some k →
          t.field.core.bootState = s.field.core.bootState ∧ t.field.core.rd TCK_LAST_GAP.KIND = 1 ∧
          t.field.core.thm =
            { k.body.thermal with fHd := t.field.core.thm.fHd, fTh := t.field.core.thm.fTh, guard := s.field.core.thm.guard,
                                  hotFrom := if s.field.core.rd THM_STATUS.PENDING = 0 then k.body.thermal.hotFrom
                                             else t.field.core.thm.hotFrom,
                                  pendAt := s.field.core.thm.pendAt,
                                  pendBy := s.field.core.thm.pendBy } ∧
          (s.field.core.rd THM_STATUS.PENDING = 1 → s.field.core.forcedAt ≤ t.field.core.etime →
            t.field.core.rd THM_STATUS.PENDING = 0 ∧
            t.field.core.rd THM_STATUS.LEVEL = min 4 (s.field.core.rd THM_STATUS.LEVEL + 1))) ∧
      (s.field.core.rd SYS_EPOCH.CKPT_EPOCH 0 ≠ s.field.core.rd SYS_EPOCH.CKPT_EPOCH 1 → t.field.core.bootState = 8) ∧
      SameOutside ((if s.field.core.rd THM_STATUS.PENDING = 0 then [] else [0x16]) ++
        [0x00, 0x01, 0x02, 0x05, 0x11, 0x15, 0x17, 0x19, 0x1B]) s.field.core t.field.core

/-- The pupa (R221, R229, R230, R133). PUPA_LOST: 16 chirps without the pupa-alive word put a live pupa into reset; a pending MOLT
boots its staged image anew. FAILED_CORE_RELEASE: 10 ms after its reset the core reruns its self-test and image load; with three
failures as imago, or a failed self-test, it is held in reset for good, else a core whose image loads waits to become pupa; no image
staged for it before counts any longer. PUPA_READY: a restarted core becomes pupa, able to resume where the checkpoint epochs agree,
and TC-A is then due to revert where TC-B has taken over. -/
def Obligations.HeldCoresRestartAsPupa : Prop :=
  (∀ s : State, s.field.core.bootState ≠ 1 → 2 ≤ s.field.core.rd TCK_STATUS.PUPA_STATE → 16 ≤ s.field.core.tck.pupaSilent →
      Answers .pupaLost s fun t =>
        t.field.core.tck.molt = s.field.core.tck.molt.map (fun m => if m.swapped then m else { m with booted := false }) ∧
        t.field.core.tck.held = some s.field.core.pupa ∧ t.field.core.rd TCK_STATUS.PUPA_STATE = 0 ∧
        t.field.core.rd SYS_BOOT.CKPT_MATCH = 0 ∧ t.field.core.tck.pupaSilent = 0 ∧ SameOutside [0x00, 0x02, 0x19, 0x1B] s.field.core t.field.core ∧
        CoreOnly s t) ∧
  (∀ (core : Fin 2) (s : State), s.field.core.bootState ≠ 1 → s.field.core.tck.held = some core.val →
      (∀ m, s.field.core.tck.molt = some m → m.core ≠ core.val) →
      (∀ st fl, 3 ≤ s.field.core.rd (failCnt core.val) → Answers (.failedCoreRelease st fl) s fun t =>
        t.field.core.tck.held = none ∧ t.field.core.rd (failFld core.val) = 1 ∧ t.field.core.rd TCK_STATUS.PUPA_STATE = 0 ∧
        s.field.core.Raised t.field.core 0x0209 (core.val + 256 * 4) ∧
        t.field.core.etime = max s.field.core.etime (s.field.core.tck.heldAt + 10000000) ∧
        SameRegs [(failFld core.val).key 0, TCK_STATUS.PUPA_STATE.key 0, SYS_BOOT.CKPT_MATCH.key 0,
          LOG_EVT_OVWR_CNT.COUNT.key 0] s.field.core t.field.core ∧ CoreOnly s t) ∧
      (∀ fl, s.field.core.rd (failCnt core.val) < 3 → Answers (.failedCoreRelease false fl) s fun t =>
        t.field.core.tck.held = none ∧ t.field.core.rd (failFld core.val) = 1 ∧ t.field.core.rd TCK_STATUS.PUPA_STATE = 0 ∧
        s.field.core.Raised t.field.core 0x0209 (core.val + 256 * 2) ∧
        t.field.core.etime = max s.field.core.etime (s.field.core.tck.heldAt + 10000000) ∧
        SameRegs [(failFld core.val).key 0, TCK_STATUS.PUPA_STATE.key 0, SYS_BOOT.CKPT_MATCH.key 0,
          LOG_EVT_OVWR_CNT.COUNT.key 0] s.field.core t.field.core ∧ CoreOnly s t) ∧
      (∀ fl, s.field.core.rd (failCnt core.val) < 3 → Answers (.failedCoreRelease true fl) s fun t =>
        t.field.core.staged core.val = none ∧ t.field.core.etime = max s.field.core.etime (s.field.core.tck.heldAt + 10000000) ∧
        (t.field.core.tck.held = some core.val ∧ t.field.core.rd TCK_STATUS.PUPA_STATE = 1 ∨
         t.field.core.tck.held = none ∧ t.field.core.rd (failFld core.val) = 1 ∧ t.field.core.rd TCK_STATUS.PUPA_STATE = 0) ∧
        t.pending = s.pending ∧ t.host = s.host)) ∧
  (∀ (core : Fin 2) (s : State), s.field.core.bootState ≠ 1 → s.field.core.tck.held = some core.val →
      s.field.core.rd TCK_STATUS.PUPA_STATE = 1 → Answers .pupaReady s fun t =>
        t.field.core.tck.held = none ∧
        t.field.core.rd TCK_STATUS.PUPA_STATE =
          (if s.field.core.rd SYS_EPOCH.CKPT_EPOCH 0 = s.field.core.rd SYS_EPOCH.CKPT_EPOCH 1 then 2 else 3) ∧
        t.field.core.rd SYS_BOOT.CKPT_MATCH =
          (if s.field.core.rd SYS_EPOCH.CKPT_EPOCH 0 = s.field.core.rd SYS_EPOCH.CKPT_EPOCH 1 then 1 else 0) ∧
        t.field.core.newest 0x0208 = some (0x0208, core.val) ∧
        t.field.core.rd TCK_STATUS.REVERT_PENDING =
          (if core.val = 0 ∧ s.field.core.rd SYS_BOOT.IMAGO = 1 ∧
              (s.field.core.rd TCK_LAST_GAP.KIND = 1 ∨ s.field.core.rd TCK_LAST_GAP.KIND = 5) then 1
           else s.field.core.rd TCK_STATUS.REVERT_PENDING) ∧
        SameRegs [TCK_STATUS.PUPA_STATE.key 0, SYS_BOOT.CKPT_MATCH.key 0, TCK_STATUS.REVERT_PENDING.key 0,
          LOG_EVT_OVWR_CNT.COUNT.key 0] s.field.core t.field.core ∧ CoreOnly s t)

/-- PLANNED_HANDOVER and HANDOVER_FAILED at a boundary at which a revert is due (R233, R234): the line passes to TC-A, which
counts as a handover and takes the gap; or the releasing core goes on, the receiver restarts, and its failures count one
more. A drill that has seen 16 chirps from its new imago ends, and its operation with it (R241). -/
def Obligations.HandoverPassesOrFails : Prop :=
  ∀ (gap : BitVec 16) (s : State), s.field.core.bootState ≠ 1 →
    (s.field.core.handoverDue = some 2 → s.field.core.rd TCK_STATUS.PUPA_STATE = 2 → s.field.core.rd SYS_BOOT.IMAGO = 1 →
      s.field.core.tck.molt = none → s.field.core.tck.drill = none →
      (Answers (.plannedHandover gap) s fun t =>
        t.field.core.rd SYS_BOOT.IMAGO = 0 ∧ t.field.core.rd TCK_STATUS.REVERT_PENDING = 0 ∧
        t.field.core.etime = s.field.core.etime + min gap.toNat 40000 ∧
        t.field.core.rd TCK_LAST_GAP.NS = min gap.toNat 40000 ∧ t.field.core.rd TCK_STATUS.SWITCHING = 0 ∧
        t.field.core.rd TCK_STATUS.LINE_HELD = 1 ∧
        t.field.core.rd TCK_LAST_GAP.KIND = 2 ∧
        t.field.core.rd TCK_SWITCH_CNT.HANDOVERS =
          satU TCK_SWITCH_CNT.HANDOVERS.width (s.field.core.rd TCK_SWITCH_CNT.HANDOVERS + 1) ∧
        SameOutside [0x00, 0x02, 0x11, 0x1B] s.field.core t.field.core ∧ CoreOnly s t) ∧
      (Answers .handoverFailed s fun t =>
        t.field.core.rd SYS_BOOT.IMAGO = 1 ∧ t.field.core.tck.held = some 0 ∧
        t.field.core.rd TCK_STATUS.A_FAIL_CNT =
          satU TCK_STATUS.A_FAIL_CNT.width (s.field.core.rd TCK_STATUS.A_FAIL_CNT + 1) ∧
        t.field.core.etime = s.field.core.etime + 100000 ∧
        SameOutside [0x00, 0x02, 0x19, 0x1B] s.field.core t.field.core ∧ CoreOnly s t)) ∧
    (∀ d : Drill, s.field.core.tck.drill = some d → d.swapped = true → 16 ≤ d.chirps.getD 0 →
      Answers .drillConfirmed s fun t =>
        t.field.core.tck.drill = none ∧ t.field.core.rd TCK_STATUS.DRILL_PENDING = 0 ∧
        (∀ a ∈ t.field.core.cmdq.async, a.opId ≠ d.opId) ∧
        SameRegs [TCK_STATUS.DRILL_PENDING.key 0, LOG_EVT_OVWR_CNT.COUNT.key 0] s.field.core t.field.core ∧ CoreOnly s t)

/-! ### Commands: the checks, system commands, AUTH (spec/04) -/

/-- A delivered command that fails a check completes once, with the answer of the first check that fails, and its body does
nothing (R178, R179): only command counters and the queues' records change. For every row that is a command. -/
def Obligations.FailedCheckAnswersAndDoesNothing : Prop :=
  ∀ (i : Instr) (k : Cmd) (s : State) (r : Reply), cmdOf id i = some k → Delivered k.call s →
    s.field.core.bootState ≠ 1 → k.check false s.field.core = some r →
    Answers i s fun t =>
      (∃ result, Completed k.call k.op r.status result s t) ∧ CommandFrame k.call k.op [] s t ∧ Quiet s.field.core t.field.core

/-- While the elytron is down the host side answers the host's commands itself: NOP with OK, others but IDENTIFY with
WRONG_STATE; the field side takes no part (R184, R188). In ORDERED mode the answer waits for the queue's earlier commands (R175). -/
def Obligations.HostSideAnswersWithoutElytron : Prop :=
  ∀ (i : Instr) (k : Cmd) (s : State), cmdOf id i = some k → k.call.src = .host → s.host.powered = true →
    s.field.core.elyUp = false → k.op ≠ 1 → s.mayTake k.call.q.val = true →
    Answers i s fun t =>
      (∃ result, let e := entryOf k.call k.op (if k.op = 0 then 0 else 0x15) result s.host.time
        if s.field.core.rd CMDQ_CFG.MODE = 0 ∧ s.host.owes k.call.q.val ≠ 0 then
          t.host = { s.host with answers := s.host.answers ++ [(s.host.owes k.call.q.val, e)] }
        else t.host = { s.host with arrived := s.host.arrived ++ [e] }) ∧
      t.field.dram = s.field.dram ∧ t.field.core = { s.field.core with free := s.field.core.free + 1 } ∧ t.pending = s.pending

/-- NOP completes OK and does nothing more (R183); IDENTIFY returns the identity, the imago's epochs, the caller's privilege
and the queue configuration (R184); FIELD_RESET completes OK and a reset becomes due (R187); QUEUE_CONFIG as the only
command in flight sets MODE and LIVE_SERVICE, beside another it ends with BUSY and NOT_ONLY, and a field-side reset of any cause
puts both fields back to 0 (R185). -/
def Obligations.SystemCommandsAct : Prop :=
  (∀ (c : Call) (s : State), CleanHeader c 0 →
     (Runs c 0x0000 0 s → Answers (.nop c) s fun t =>
       Completed c 0x0000 0 0 s t ∧ CommandFrame c 0x0000 [] s t ∧ Quiet s.field.core t.field.core) ∧
     (Runs c 0x0001 0 s → Answers (.identify c) s fun t =>
       Completed c 0x0001 0 ((s.field.core.fieldReport + at_ 14 (s.field.core.priv c.src) +
         at_ 15 (s.field.core.regWord CMDQ_CFG.MODE.base % 256)) % 2 ^ 128) s t ∧
       CommandFrame c 0x0001 [] s t ∧ Quiet s.field.core t.field.core) ∧
     (Runs c 0x0003 3 s → Answers (.fieldReset c) s fun t =>
       Completed c 0x0003 0 0 s t ∧ CommandFrame c 0x0003 [] s t ∧ t.field.core.resetPending = true ∧
       Quiet { s.field.core with resetPending := true } t.field.core)) ∧
  (∀ (c : Call) (mode live : Byte) (s : State), CleanHeader c 4 → Runs c 0x0002 2 s → mode.toNat ≤ 1 → live.toNat ≤ 1 →
     s.inFlight = [] → s.field.core.cmdq.open_ = [] →
     Answers (.queueConfig c mode live) s fun t =>
       Completed c 0x0002 0 0 s t ∧ t.field.core.rd CMDQ_CFG.MODE = mode.toNat ∧
       t.field.core.rd CMDQ_CFG.LIVE_SERVICE = live.toNat ∧
       CommandFrame c 0x0002 [CMDQ_CFG.MODE.key 0, CMDQ_CFG.LIVE_SERVICE.key 0] s t ∧ Quiet s.field.core t.field.core) ∧
  (∀ (c : Call) (mode live : Byte) (s : State), CleanHeader c 4 → Runs c 0x0002 2 s → mode.toNat ≤ 1 → live.toNat ≤ 1 →
     s.inFlight ≠ [] → s.inFlight.length + 1 < 1024 →
     Answers (.queueConfig c mode live) s fun t =>
       (∃ result, Completed c 0x0002 0x14 result s t ∧ result % 2 ^ 16 = 0x001D) ∧ CommandFrame c 0x0002 [] s t ∧
       Quiet s.field.core t.field.core) ∧
  (∀ (cause : Nat) (s : State), (fieldReset cause s).field.core.rd CMDQ_CFG.MODE = 0 ∧
     (fieldReset cause s).field.core.rd CMDQ_CFG.LIVE_SERVICE = 0)

/-- AUTH (R193 to R197): CHALLENGE returns a fresh nonce, which is a free value, and remembers it for the level; RESPOND
within 10 s consumes the nonce and raises the privilege exactly when the MAC is right; DROP lowers the privilege and reports
it. -/
def Obligations.AuthRaisesOnlyWithTheRightMac : Prop :=
  ∀ (c : Call) (level : Byte) (s : State), levelOk c.src level.toNat = true →
    (CleanHeader c 4 → Runs c 0x00F0 0 s → (s.field.core.auth c.src).lockUntil ≤ s.field.core.etime →
      Answers (.authChallenge c level) s fun t =>
        Completed c 0x00F0 0 (Config.freeNonce s.field.core.free).toNat s t ∧
        (t.field.core.auth c.src).nonce = some ((Config.freeNonce s.field.core.free).toNat, level.toNat, s.field.core.etime) ∧
        CommandFrame c 0x00F0 [] s t ∧ Quiet s.field.core t.field.core) ∧
    (∀ (mac : BitVec 256) (n t0 : Nat), CleanHeader c 36 → Runs c 0x00F0 0 s →
      (s.field.core.auth c.src).nonce = some (n, level.toNat, t0) → s.field.core.etime ≤ t0 + 10000000000 →
      Answers (.authRespond c level mac) s fun t =>
        (t.field.core.auth c.src).nonce = none ∧
        t.field.core.priv c.src =
          (if toBE 32 mac.toNat = authMac c.src level.toNat n then level.toNat else s.field.core.priv c.src) ∧
        (∃ st result, Completed c 0x00F0 st result s t ∧ (st = 0 ↔ toBE 32 mac.toNat = authMac c.src level.toNat n)) ∧
        CommandFrame c 0x00F0 [CMDQ_PRIV.HOST.key 0, CMDQ_PRIV.FSP.key 0, CMDQ_AUTH_FAIL_CNT.COUNT.key 0] s t) ∧
    (CleanHeader c 4 → Runs c 0x00F0 0 s → c.src = .host → level.toNat ≤ s.field.core.priv .host →
      Answers (.authDrop c level) s fun t =>
        Completed c 0x00F0 0 0 s t ∧ t.field.core.priv .host = level.toNat ∧
        s.field.core.Raised t.field.core 0x0104 (256 * level.toNat) ∧
        CommandFrame c 0x00F0 [CMDQ_PRIV.HOST.key 0] s t ∧ Quiet s.field.core t.field.core)

/-! ### Register commands (spec/00 R18 to R20, R30 to R36; spec/04 R189 to R192) -/

/-- REG_READ returns the register's word; REG_READ_BLOCK returns consecutive words in ascending order, up to four in its RESULT,
more through its scatter list; REG_RMW returns the old and the new word, and merges under MASK (R189 to R191). The reads are those
of plain words: pairs, windows and data registers have statements of their own. -/
def Obligations.RegisterReadsReturnWords : Prop :=
  ∀ (c : Call) (s : State),
    (∀ a : Word, Readable (s.field.core.priv c.src) a.toNat s.field.core → CleanHeader c 4 → Runs c 0x0100 1 s →
      Answers (.regRead c a) s fun t =>
        Completed c 0x0100 0 (s.field.core.regWord a.toNat % 2 ^ 128) s t ∧ CommandFrame c 0x0100 [] s t ∧
        Quiet s.field.core t.field.core) ∧
    (∀ (a : Word) (n : BitVec 16), (∀ i, i < n.toNat → Readable (s.field.core.priv c.src) (a.toNat + 4 * i) s.field.core) →
      1 ≤ n.toNat → Runs c 0x0103 1 s →
      (CleanHeader c 8 → n.toNat ≤ 4 → Answers (.regReadBlock c a n) s fun t =>
        Completed c 0x0103 0
          (leNat ((List.range n.toNat).flatMap fun i => toLE 4 (s.field.core.regWord (a.toNat + 4 * i))) % 2 ^ 128) s t ∧
        CommandFrame c 0x0103 [] s t ∧ Quiet s.field.core t.field.core) ∧
      (ReturnHeader c 8 (4 * n.toNat) → n.toNat ≤ 4096 → Answers (.regReadBlock c a n) s fun t =>
        Started c 0x0103 t ∧ t.field.core.ely.toHost = s.field.core.ely.toHost ++
          [⟨s.field.core.ely.descNext, refOf 0x0103 c, .ok 0, c.bulk.sgl,
            (List.range n.toNat).flatMap fun i => toLE 4 (s.field.core.regWord (a.toNat + 4 * i)), 0, none⟩] ∧
        CommandFrame c 0x0103 [] s t)) ∧
    (∀ mask v : Word, CleanHeader c 12 → Runs c 0x0102 2 s → s.field.core.rd SYS_LOCK.CFG_LOCK = 0 →
      Answers (.regRmw c 0x30004 mask v) s fun t =>
        let old := s.field.core.regWord 0x30004
        let new := (old &&& (mask.toNat ^^^ 0xFFFFFFFF)) ||| (v.toNat &&& mask.toNat)
        Completed c 0x0102 0 ((old + at_ 4 new) % 2 ^ 128) s t ∧
        t.field.core.rd ELY_CFG.HOST_HB_MISS = bits new 3 0 ∧ t.field.core.rd ELY_CFG.HOST_LOSS_POLICY = bits new 5 4 ∧
        CommandFrame c 0x0102 [ELY_CFG.HOST_HB_MISS.key 0, ELY_CFG.HOST_LOSS_POLICY.key 0] s t)

/-- REG_WRITE of a lockable register (ELY_CFG) stores it while CFG_LOCK is 0, and is refused with WRONG_STATE, nothing
changed, where it would change it while CFG_LOCK is 1 (R33, R34). SYS_LOCK_SET sets CFG_LOCK by writing 1, and writing 0 leaves it.
FIELD_REGISTER_WRITE of SPG_TERM_HOST clamps at 160,000 Hz. LOG_VIOL_CLR empties the violation log (R198). -/
def Obligations.RegisterWritesStoreAndLock : Prop :=
  ∀ (c : Call) (v : Word) (s : State), CleanHeader c 8 → Runs c 0x0101 2 s →
    (s.field.core.rd SYS_LOCK.CFG_LOCK = 0 → Answers (.regWrite c 0x30004 v) s fun t =>
      Completed c 0x0101 0 0 s t ∧ t.field.core.rd ELY_CFG.HOST_HB_MISS = bits v.toNat 3 0 ∧
      t.field.core.rd ELY_CFG.HOST_LOSS_POLICY = bits v.toNat 5 4 ∧
      CommandFrame c 0x0101 [ELY_CFG.HOST_HB_MISS.key 0, ELY_CFG.HOST_LOSS_POLICY.key 0] s t ∧
      Quiet s.field.core t.field.core) ∧
    (s.field.core.rd SYS_LOCK.CFG_LOCK = 1 → bits v.toNat 3 0 ≠ s.field.core.rd ELY_CFG.HOST_HB_MISS →
      Answers (.regWrite c 0x30004 v) s fun t =>
        (∃ result, Completed c 0x0101 0x15 result s t) ∧ CommandFrame c 0x0101 [] s t ∧ Quiet s.field.core t.field.core) ∧
    (Answers (.sysLockSet c v) s fun t =>
      Completed c 0x0101 0 0 s t ∧
      t.field.core.rd SYS_LOCK.CFG_LOCK = (if v.toNat.testBit 0 then 1 else s.field.core.rd SYS_LOCK.CFG_LOCK) ∧
      CommandFrame c 0x0101 [SYS_LOCK.CFG_LOCK.key 0] s t ∧ Quiet s.field.core t.field.core) ∧
    (s.field.core.rd SYS_LOCK.CFG_LOCK = 0 →
      Answers (.fieldRegisterWrite c (BitVec.ofNat 32 (SPG_TERM_HOST.HZ.addr 0)) v) s fun t =>
        Completed c 0x0101 0 0 s t ∧ t.field.core.rd SPG_TERM_HOST.HZ = min (bits v.toNat 19 0) 160000 ∧
        CommandFrame c 0x0101 [SPG_TERM_HOST.HZ.key 0] s t ∧ Quiet s.field.core t.field.core) ∧
    (3 ≤ s.field.core.priv c.src → Answers (.logViolClr c) s fun t =>
      Completed c 0x0101 0 0 s t ∧ t.field.core.rd LOG_VIOL_CNT.COUNT = 0 ∧ t.field.core.rd LOG_VIOL_CTL.NEXT = 0 ∧
      (∀ n : Fin 16, t.field.core.rd LOG_VIOL_ADDR.ADDR n.val = 0 ∧ t.field.core.rd LOG_VIOL_REASON.REASON n.val = 0) ∧
      CommandWithin c 0x0101 [] s t ∧ Quiet s.field.core t.field.core)

/-- A register command whose address violates R189 reads and writes nothing: it completes with ADDR_VIOLATION, the log takes
an entry with the address and the reason, and an event names it (R189, R198). For an address of no register, and for a
misaligned one. -/
def Obligations.AddressViolationIsLogged : Prop :=
  ∀ (c : Call) (a v : Word) (s : State), CleanHeader c 8 → Runs c 0x0101 0 s →
    (a.toNat % 4 ≠ 0 ∨ regDefined a.toNat = false) → s.field.core.rd LOG_VIOL_CTL.NEXT < 16 →
    Answers (.regWrite c a v) s fun t =>
      (∃ result, Completed c 0x0101 0x20 result s t) ∧
      t.field.core.rd LOG_VIOL_ADDR.ADDR (s.field.core.rd LOG_VIOL_CTL.NEXT) = a.toNat ∧
      t.field.core.rd LOG_VIOL_REASON.REASON (s.field.core.rd LOG_VIOL_CTL.NEXT) = (if a.toNat % 4 ≠ 0 then 3 else 1) ∧
      t.field.core.rd LOG_VIOL_CTL.NEXT = (s.field.core.rd LOG_VIOL_CTL.NEXT + 1) % 16 ∧
      t.field.core.newest 0x0101 = some (0x0101, a.toNat + at_ 4 (s.field.core.rd LOG_VIOL_CTL.NEXT)) ∧
      Quiet s.field.core t.field.core

/-! ### Registers that act (tone, mask, window, latched pairs, peaks, fault injection, camera and memory) -/

/-- TONE_DATA reads the selected entry, or writes the shadow bank, and advances TONE_IDX; TONE_CTL.COMMIT makes a commit
pending; COPY, with none pending, puts the active curve into the shadow (R310). For a head that is present and whose bar the
servo does not own. -/
def Obligations.ToneRegistersReachTheShadow : Prop :=
  ∀ (c : Call) (h : Fin 192) (s : State), Runs c 0x0101 2 s → Runs c 0x0100 1 s →
    s.field.core.headPresent h.val = true → s.field.core.servoOwns h.val = false → s.field.core.rd SYS_LOCK.CFG_LOCK = 0 →
    (CleanHeader c 4 → Answers (.toneDataAccess c h none) s fun t =>
      Completed c 0x0100 0 (s.field.core.tone h.val (s.field.core.rd HDC_TONE_IDX.BANK h.val)
        (s.field.core.rd HDC_TONE_IDX.IDX h.val) % 2 ^ 128) s t ∧
      t.field.core.rd HDC_TONE_IDX.IDX h.val = (s.field.core.rd HDC_TONE_IDX.IDX h.val + 1) % 256 ∧
      CommandFrame c 0x0100 [HDC_TONE_IDX.IDX.key h.val] s t ∧ Quiet s.field.core t.field.core) ∧
    (∀ v : Word, CleanHeader c 8 → s.field.core.rd HDC_TONE_IDX.BANK h.val = 1 →
      Answers (.toneDataAccess c h (some v)) s fun t =>
        Completed c 0x0101 0 0 s t ∧
        t.field.core.tone h.val 1 (s.field.core.rd HDC_TONE_IDX.IDX h.val) = v.toNat % 4096 ∧
        (∀ i, i ≠ s.field.core.rd HDC_TONE_IDX.IDX h.val → i < 256 → t.field.core.tone h.val 1 i = s.field.core.tone h.val 1 i ∨
          256 ≤ s.field.core.rd HDC_TONE_IDX.IDX h.val) ∧
        t.field.core.rd HDC_TONE_IDX.IDX h.val = (s.field.core.rd HDC_TONE_IDX.IDX h.val + 1) % 256 ∧
        CommandFrame c 0x0101 [HDC_TONE_IDX.IDX.key h.val] s t) ∧
    (CleanHeader c 8 → Answers (.toneCtlCommit c h) s fun t =>
      Completed c 0x0101 0 0 s t ∧ t.field.core.rd HDC_TONE_CTL.PENDING h.val = 1 ∧
      CommandFrame c 0x0101 [HDC_TONE_CTL.PENDING.key h.val] s t ∧ Quiet s.field.core t.field.core) ∧
    (CleanHeader c 8 → s.field.core.rd HDC_TONE_CTL.PENDING h.val = 0 → Answers (.toneCtlCopy c h) s fun t =>
      Completed c 0x0101 0 0 s t ∧
      (∀ i, i < 256 → t.field.core.tone h.val 1 i = s.field.core.tone h.val 0 i % 4096) ∧
      CommandFrame c 0x0101 [] s t)

/-- SCR_b_CTL.ERR_CLR marks the bar's links for clearing (R326); SCR_MASK_DATA reads or, with nothing printing, writes four
mask bytes and advances its index (R327); the high word of a nozzle window write applies the held entry, keeping the ERR the
hardware holds (R313). -/
def Obligations.ScreeningRegistersAct : Prop :=
  ∀ (c : Call) (s : State), Runs c 0x0101 2 s → Runs c 0x0100 1 s → s.field.core.rd SYS_LOCK.CFG_LOCK = 0 →
    (∀ b : Fin 8, CleanHeader c 8 → s.field.core.barPresent b.val = true → Answers (.scrErrClr c b) s fun t =>
      Completed c 0x0101 0 0 s t ∧ (∀ l ∈ s.field.core.linksOf b.val, l ∈ t.field.core.press.errClr) ∧
      CommandFrame c 0x0101 [] s t) ∧
    (CleanHeader c 4 → Answers (.scrMaskDataAccess c none) s fun t =>
      Completed c 0x0100 0 (let w := 4 * s.field.core.rd SCR_MASK_IDX.WORD
        (s.field.core.maskByte w + s.field.core.maskByte (w + 1) * 256 + s.field.core.maskByte (w + 2) * 256 ^ 2 +
          s.field.core.maskByte (w + 3) * 256 ^ 3) % 2 ^ 128) s t ∧
      CommandFrame c 0x0100 [SCR_MASK_IDX.WORD.key 0] s t ∧ Quiet s.field.core t.field.core) ∧
    (∀ v : Word, CleanHeader c 8 → s.field.core.printing = false → Answers (.scrMaskDataAccess c (some v)) s fun t =>
      Completed c 0x0101 0 0 s t ∧
      (∀ j, j < 4 → t.field.core.maskByte (4 * s.field.core.rd SCR_MASK_IDX.WORD + j) = v.toNat / 256 ^ j % 256) ∧
      t.field.core.rd SCR_MASK_IDX.WORD = (s.field.core.rd SCR_MASK_IDX.WORD + 1) % 2 ^ SCR_MASK_IDX.WORD.width ∧
      CommandFrame c 0x0101 [SCR_MASK_IDX.WORD.key 0] s t) ∧
    (∀ (b : Fin 8) (k : Fin 131072) (low : Nat) (v : Word), CleanHeader c 8 → s.field.core.press.stages = [] →
      s.field.core.csv.stages = [] → v.toNat < 2 ^ 24 → low < 2 ^ 32 →
      mget 0 s.field.core.lo (0x1000000 + 0x100000 * b.val + 8 * k.val) = low + 1 →
      Answers (.nozzleWindowWrite c b k true v) s fun t =>
        Completed c 0x0101 0 0 s t ∧
        t.field.core.noz b.val k.val = nozApply (s.field.core.noz b.val k.val) (low + v.toNat * 2 ^ 32) % 2 ^ 64 ∧
        (∀ b' k', nozKey b' k' ≠ nozKey b.val k.val → t.field.core.noz b' k' = s.field.core.noz b' k') ∧
        CommandWithin c 0x0101 [] s t)

/-- LATCHED_PAIR_READ of POS_c_COUNT_LO returns the low half and latches the high half of the same instant, and the read of
the high half returns what was latched (R19). -/
def Obligations.PairReadsAreConsistent : Prop :=
  ∀ (c : Call) (ch : Fin 8) (s : State), CleanHeader c 4 → Runs c 0x0100 1 s → s.field.core.timedOut (cdcId 4 10 0) = false →
    (Answers (.latchedPairRead c (BitVec.ofNat 32 (POS_COUNT_LO.COUNT.addr ch.val))) s fun t =>
      Completed c 0x0100 0 (s.field.core.rd POS_COUNT_LO.COUNT ch.val % 2 ^ 128) s t ∧
      mget 0 t.field.core.latch (POS_COUNT_HI.COUNT.addr ch.val) = s.field.core.rd POS_COUNT_HI.COUNT ch.val ∧
      CommandFrame c 0x0100 [] s t) ∧
    (Answers (.latchedPairRead c (BitVec.ofNat 32 (POS_COUNT_HI.COUNT.addr ch.val))) s fun t =>
      Completed c 0x0100 0 (mget 0 s.field.core.latch (POS_COUNT_HI.COUNT.addr ch.val) % 2 ^ 128) s t ∧
      CommandFrame c 0x0100 [] s t ∧ Quiet s.field.core t.field.core)

/-- Registers whose write acts: COUNTER_PEAK_CLR sets a peak to 0 (here the longest chirp's, R294); CHIRP_PERIOD_WRITE clamps the
period to 50 to 400 µs, leaves the period in force, and takes effect at the next chirp boundary (R209); FIJ_LIVE_OK_WRITE stores the
bit while no job prints (R594); MEM_RANK_CLR_WRITE notes the request (R531). -/
def Obligations.ControlRegisterWritesAct : Prop :=
  ∀ (c : Call) (v : Word) (s : State), CleanHeader c 8 → Runs c 0x0101 3 s → s.field.core.rd SYS_LOCK.CFG_LOCK = 0 →
    s.field.core.cdc.out = [] →
    (v.toNat.testBit 31 = true →
      Answers (.counterPeakClr c (BitVec.ofNat 32 (TCK_CHIRP_MAX.NS.addr 0)) v) s fun t =>
        Completed c 0x0101 0 0 s t ∧ t.field.core.rd TCK_CHIRP_MAX.NS = 0 ∧
        CommandFrame c 0x0101 [TCK_CHIRP_MAX.NS.key 0] s t ∧ Quiet s.field.core t.field.core) ∧
    (Answers (.chirpPeriodWrite c v) s fun t =>
      Completed c 0x0101 0 0 s t ∧
      t.field.core.rd TCK_CFG.CHIRP_US =
        clampN 50 400 (bits v.toNat TCK_CFG.CHIRP_US.hi TCK_CFG.CHIRP_US.lo) ∧
      t.field.core.tck.period = s.field.core.tck.period ∧
      CommandFrame c 0x0101 [TCK_CFG.CHIRP_US.key 0, TCK_CFG.HB_MISS_LIMIT.key 0, TCK_CFG.REVERT_DISABLE.key 0] s t) ∧
    (∀ i : ChirpIn, s.field.core.tck.running = true → i.works = false → Answers (.chirp i) s fun t =>
      t.field.core.tck.period = s.field.core.rd TCK_CFG.CHIRP_US ∧ t.field.core.rd TCK_CFG.CHIRP_US =
        s.field.core.rd TCK_CFG.CHIRP_US ∧ CoreOnly s t) ∧
    (s.field.core.printing = false → Answers (.fijLiveOkWrite c v) s fun t =>
      Completed c 0x0101 0 0 s t ∧ t.field.core.rd FIJ_CFG.LIVE_OK = v.toNat % 2 ∧
      CommandFrame c 0x0101 [FIJ_CFG.LIVE_OK.key 0] s t ∧ Quiet s.field.core t.field.core) ∧
    (v.toNat.testBit 2 = true → Answers (.memRankClrWrite c v) s fun t =>
      Completed c 0x0101 0 0 s t ∧ t.field.core.mem.rankClr = true ∧ CommandWithin c 0x0101 [0x04] s t)

/-! ### Position channels (spec/08) -/

/-- A healthy quadrature channel with nothing due: one level changing moves the count by one step in the sense of R341,
reversed by REVERSE and modulo the channel's modulus (R346); both changing count as a QUAD error and set SUSPECT; neither
changing leaves the count. Levels that hold for less than the filter's width move no count and no register, but a repeater that
passes the channel through shows them as received (R364). -/
def Obligations.QuadratureEdgesCount : Prop :=
  ∀ (ch : Fin 8) (a b : Bool) (held : Byte) (s : State), s.field.core.bootState ≠ 1 → NothingDue s.field.core →
    s.field.core.rd POS_CFG.TYPE ch.val = 1 → s.field.core.rd POS_STATUS.FAULT ch.val = 0 →
    (held.toNat < filtNs (s.field.core.rd POS_CFG.FILT ch.val) → Answers (.quadEdge ch a b ⟨held, none⟩) s fun t =>
      t.field.core.regs = s.field.core.regs ∧ (t.field.core.pc ch.val).a = (s.field.core.pc ch.val).a ∧
      (t.field.core.pc ch.val).b = (s.field.core.pc ch.val).b ∧ (t.field.core.pc ch.val).steps = (s.field.core.pc ch.val).steps ∧
      (∀ e : Fin 2, s.field.core.erPass e.val = true → s.field.core.erHeld e.val = false →
        s.field.core.rd ER_CFG.SRC e.val = ch.val → (t.field.core.er e.val).a = a ∧ (t.field.core.er e.val).b = b) ∧
      CoreOnly s t) ∧
    (filtNs (s.field.core.rd POS_CFG.FILT ch.val) ≤ held.toNat → Answers (.quadEdge ch a b ⟨held, none⟩) s fun t =>
      let x := s.field.core.pc ch.val
      let turn : Int := if s.field.core.rd POS_CFG.REVERSE ch.val = 0 then 1 else -1
      (t.field.core.pc ch.val).a = a ∧ (t.field.core.pc ch.val).b = b ∧
      (x.a ≠ a → x.b = b → t.field.core.posCount ch.val =
        (((s.field.core.posCount ch.val : Int) + turn * (if a != b then 1 else -1)) % (s.field.core.srcMod ch.val : Int)).toNat) ∧
      (x.a = a → x.b ≠ b → t.field.core.posCount ch.val =
        (((s.field.core.posCount ch.val : Int) + turn * (if a == b then 1 else -1)) % (s.field.core.srcMod ch.val : Int)).toNat) ∧
      (x.a ≠ a → x.b ≠ b → t.field.core.posCount ch.val = s.field.core.posCount ch.val ∧
        t.field.core.rd POS_STATUS.SUSPECT ch.val = 1 ∧
        t.field.core.rd POS_ERR_CNT.QUAD ch.val =
          satU POS_ERR_CNT.QUAD.width (s.field.core.rd POS_ERR_CNT.QUAD ch.val + 1)) ∧
      (x.a = a → x.b = b → t.field.core.posCount ch.val = s.field.core.posCount ch.val) ∧
      SameOutside [0x0E, 0x11, 0x12, 0x1B] s.field.core t.field.core ∧ CoreOnly s t)

/-- Hall, sin/cos and SSI channels (R342 to R345): the next Hall state counts one step; n phase steps count n, sixteen times
as many while 8-bit interpolation is in force, and the sample's amplitude is shown; the first good SSI frame sets the count to its
reading. -/
def Obligations.OtherChannelsCount : Prop :=
  ∀ (ch : Fin 8) (s : State), s.field.core.bootState ≠ 1 → NothingDue s.field.core →
    s.field.core.rd POS_STATUS.FAULT ch.val = 0 → s.field.core.rd POS_CFG.REVERSE ch.val = 0 →
    (s.field.core.rd POS_CFG.TYPE ch.val = 2 → (s.field.core.pc ch.val).hall = 1 →
      (Answers (.hallStateChange ch 3) s fun t =>
        (t.field.core.pc ch.val).hall = 3 ∧ t.field.core.posCount ch.val =
          (((s.field.core.posCount ch.val : Int) + 1) % (s.field.core.srcMod ch.val : Int)).toNat ∧
        SameOutside [0x0E, 0x11, 0x12, 0x1B] s.field.core t.field.core ∧ CoreOnly s t) ∧
      (Answers (.hallStateChange ch 5) s fun t =>
        (t.field.core.pc ch.val).hall = 5 ∧ t.field.core.posCount ch.val =
          (((s.field.core.posCount ch.val : Int) - 1) % (s.field.core.srcMod ch.val : Int)).toNat ∧
        SameOutside [0x0E, 0x11, 0x12, 0x1B] s.field.core t.field.core ∧ CoreOnly s t)) ∧
    (∀ (n : BitVec 16) (hz : BitVec 20) (amp : BitVec 16), s.field.core.rd POS_CFG.TYPE ch.val = 3 →
      Answers (.sincosPhaseStep ch ⟨n, hz, amp⟩) s fun t =>
        t.field.core.rd POS_AMP.A ch.val = amp.toNat ∧ (t.field.core.pc ch.val).hz = hz.toNat ∧
        t.field.core.etime = max s.field.core.etime ((s.field.core.pc ch.val).sampledAt + 100) ∧
        (s.field.core.rd POS_CFG.INTERP ch.val = 0 → t.field.core.rd POS_STATUS.INTERP8 ch.val = 0) ∧
        (s.field.core.rd POS_CFG.INTERP ch.val = 1 → t.field.core.rd POS_STATUS.INTERP8 ch.val = 1) ∧
        t.field.core.posCount ch.val =
          (((s.field.core.posCount ch.val : Int) +
            (if s.field.core.rd POS_STATUS.INTERP8 ch.val = 0 then n.toInt else 16 * n.toInt)) %
              (s.field.core.srcMod ch.val : Int)).toNat ∧
        SameOutside [0x0E, 0x11, 0x12, 0x1B] s.field.core t.field.core ∧ CoreOnly s t) ∧
    (∀ (e : Bool) (w : BitVec 48), s.field.core.rd POS_CFG.TYPE ch.val = 4 → (s.field.core.pc ch.val).ssiLast = none →
      s.field.core.rd POS_SSI_CFG.GRAY ch.val = 0 → s.field.core.rd POS_SSI_CFG.ERRBIT ch.val = 0 →
      s.field.core.rd POS_STATUS.SSI ch.val = 0 →
      Answers (.ssiFrame ch true e w) s fun t =>
        t.field.core.posCount ch.val =
          (w.toNat % 2 ^ s.field.core.rd POS_SSI_CFG.BITS ch.val) % s.field.core.srcMod ch.val ∧
        (t.field.core.pc ch.val).ssiBad = 0 ∧
        (t.field.core.pc ch.val).ssiLast = some (w.toNat % 2 ^ s.field.core.rd POS_SSI_CFG.BITS ch.val) ∧
        SameOutside [0x0E, 0x11, 0x12, 0x1B] s.field.core t.field.core ∧ CoreOnly s t)

/-- Index marks (R354 to R357): one in reverse is logged with its count, time and the REVERSE flag and moves nothing; an armed
one in web direction is logged, sets the reference, disarms, and puts the count at PRESET. The other edge of
the mark does neither. For a quadrature channel without gating and with nothing due. -/
def Obligations.IndexMarksAreLoggedAndPreset : Prop :=
  ∀ (ch : Fin 8) (s : State), s.field.core.bootState ≠ 1 → NothingDue s.field.core →
    s.field.core.rd POS_CFG.TYPE ch.val = 1 → s.field.core.rd POS_CFG.IDX_GATE ch.val = 0 →
    s.field.core.rd POS_STATUS.IDX_NEXT ch.val < 16 →
    (Answers (.indexEvent ⟨ch, s.field.core.rd POS_CFG.IDX_EDGE ch.val ≠ 0⟩) s fun t =>
      t.field.core.regs = s.field.core.regs ∧ CoreOnly s t) ∧
    (s.field.core.rd POS_STATUS.DIR ch.val = 1 → Answers (.indexEvent ⟨ch, s.field.core.rd POS_CFG.IDX_EDGE ch.val = 0⟩) s fun t =>
      let n := 16 * ch.val + s.field.core.rd POS_STATUS.IDX_NEXT ch.val
      t.field.core.posCount ch.val = s.field.core.posCount ch.val ∧
      t.field.core.rd POS_IDXLOG_CNT_LO.COUNT n = s.field.core.posCount ch.val % 2 ^ 32 ∧
      t.field.core.rd POS_IDXLOG_ETIME_LO.ETIME n = s.field.core.etime % 2 ^ 32 ∧
      t.field.core.rd POS_IDXLOG_CNT_HI.REVERSE n = 1 ∧
      t.field.core.rd POS_STATUS.IDX_NEXT ch.val = (s.field.core.rd POS_STATUS.IDX_NEXT ch.val + 1) % 16 ∧
      SameOutside [0x0E, 0x11, 0x12, 0x1B] s.field.core t.field.core ∧ CoreOnly s t) ∧
    (s.field.core.rd POS_STATUS.DIR ch.val = 0 → s.field.core.rd POS_STATUS.IDX_ARMED ch.val = 1 →
      Answers (.indexEvent ⟨ch, s.field.core.rd POS_CFG.IDX_EDGE ch.val = 0⟩) s fun t =>
        t.field.core.posCount ch.val =
          s.field.core.rd2 POS_PRESET_LO.PRESET POS_PRESET_HI.PRESET ch.val % s.field.core.srcMod ch.val ∧
        t.field.core.rd POS_STATUS.IDX_REF ch.val = 1 ∧ t.field.core.rd POS_STATUS.IDX_ARMED ch.val = 0 ∧
        t.field.core.newest 0x0708 = some (0x0708, (ch.val + at_ 8 (s.field.core.posCount ch.val)) % 2 ^ 128) ∧
        SameOutside [0x0E, 0x11, 0x12, 0x1B] s.field.core t.field.core ∧ CoreOnly s t)

/-- SPEED_WINDOW, WINDOW_US after the last one, of a channel that stands still shows speed 0, and of one timed by its last period
shows one step per period in its direction (R351); STILL_TIMEOUT sets STILL and speed 0, STILL_MS after the last step, and the next
step clears STILL; a sound channel moves for the compare pool while STILL is 0 (R353). -/
def Obligations.SpeedFollowsPeriodAndStill : Prop :=
  ∀ (ch : Fin 8) (s : State), s.field.core.bootState ≠ 1 → s.field.core.rd POS_CFG.TYPE ch.val = 1 →
    (s.field.core.rd POS_STATUS.STILL ch.val = 1 → Answers (.speedWindow ch) s fun t =>
      t.field.core.rd POS_SPEED.SPEED ch.val = 0 ∧ (t.field.core.pc ch.val).winN = 0 ∧
      t.field.core.etime =
        max s.field.core.etime ((s.field.core.pc ch.val).winAt + 1000 * s.field.core.rd POS_SPD_CFG.WINDOW_US ch.val) ∧
      SameRegs [POS_SPEED.SPEED.key ch.val] s.field.core t.field.core ∧ CoreOnly s t) ∧
    (∀ last : Nat, s.field.core.rd POS_STATUS.STILL ch.val = 0 → s.field.core.rd POS_STATUS.FAULT ch.val = 0 →
      (s.field.core.pc ch.val).base = none → (s.field.core.pc ch.val).lastStep = some last →
      0 < s.field.core.rd POS_PERIOD.NS ch.val →
      max s.field.core.etime ((s.field.core.pc ch.val).winAt + 1000 * s.field.core.rd POS_SPD_CFG.WINDOW_US ch.val) ≤
        last + s.field.core.rd POS_PERIOD.NS ch.val →
      Answers (.speedWindow ch) s fun t =>
        t.field.core.rds POS_SPEED.SPEED ch.val =
          (if s.field.core.rd POS_STATUS.DIR ch.val = 0 then 1 else -1) *
            ((10 ^ 9 / s.field.core.rd POS_PERIOD.NS ch.val : Nat) : Int) ∧
        SameRegs [POS_SPEED.SPEED.key ch.val] s.field.core t.field.core ∧ CoreOnly s t) ∧
    (s.field.core.rd POS_STATUS.STILL ch.val = 0 → Answers (.stillTimeout ch) s fun t =>
      t.field.core.rd POS_STATUS.STILL ch.val = 1 ∧ t.field.core.rd POS_SPEED.SPEED ch.val = 0 ∧
      t.field.core.etime = max s.field.core.etime
        (((s.field.core.pc ch.val).lastStep.getD 0) + 1000000 * s.field.core.rd POS_SPD_CFG.STILL_MS ch.val) ∧
      SameRegs [POS_STATUS.STILL.key ch.val, POS_SPEED.SPEED.key ch.val, SPG_STATUS.MOVING.key 0]
        s.field.core t.field.core ∧ CoreOnly s t) ∧
    (∀ (a b : Bool) (held : Byte), NothingDue s.field.core → s.field.core.rd POS_STATUS.FAULT ch.val = 0 →
      filtNs (s.field.core.rd POS_CFG.FILT ch.val) ≤ held.toNat →
      (s.field.core.pc ch.val).a ≠ a → (s.field.core.pc ch.val).b = b → Answers (.quadEdge ch a b ⟨held, none⟩) s fun t =>
        t.field.core.rd POS_STATUS.STILL ch.val = 0) ∧
    (s.field.core.rd POS_STATUS.FAULT ch.val = 0 →
      s.field.core.srcMoving ch.val = decide (s.field.core.rd POS_STATUS.STILL ch.val = 0))

/-- Channel faults (R348 to R350): loss of signal for LOS_US on a quadrature channel, and on a sin/cos channel a frequency above the
valid range or AMP_FILT samples outside the amplitude window, set their bit and FAULT and speed 0; without its condition nothing
happens. A fault clears its bit, SUSPECT stays set, and POS_CHANNEL_OK is raised where no other fault is left. Nothing is due at a
position, and but for the fault of PC0 or PC1 that clears both are sound; the frames are those of a channel that is not the web's.
-/
def Obligations.ChannelFaultsRaiseAndClear : Prop :=
  ∀ (ch : Fin 8) (s : State), s.field.core.bootState ≠ 1 → NothingDue s.field.core →
    (s.field.core.rd POS_STATUS.FAULT 0 = 0 → s.field.core.rd POS_STATUS.FAULT 1 = 0 →
    (∀ g : PosSign, s.field.core.signMet ch.val g = false → g ≠ .illegal → Answers (.posFaultDetect (ch, g) []) s fun t => t = s) ∧
    (∀ us : BitVec 16, s.field.core.rd POS_CFG.TYPE ch.val = 1 → s.field.core.rd POS_SIG_CFG.LOS_US ch.val ≤ us.toNat →
      s.field.core.rd POS_STATUS.LOS ch.val = 0 → Answers (.posFaultDetect (ch, .absent us) []) s fun t =>
        t.field.core.rd POS_STATUS.LOS ch.val = 1 ∧ t.field.core.rd POS_STATUS.FAULT ch.val = 1 ∧
        t.field.core.rd POS_SPEED.SPEED ch.val = 0 ∧ CoreOnly s t ∧
        (2 ≤ ch.val → SameRegs [POS_STATUS.LOS.key ch.val, POS_STATUS.FAULT.key ch.val, POS_SPEED.SPEED.key ch.val,
          LOG_EVT_OVWR_CNT.COUNT.key 0] s.field.core t.field.core)) ∧
    (s.field.core.rd POS_CFG.TYPE ch.val = 3 →
      (s.field.core.hzLimit ch.val < (s.field.core.pc ch.val).hz → s.field.core.rd POS_STATUS.RATE ch.val = 0 →
        Answers (.posFaultDetect (ch, .frequency) []) s fun t =>
          t.field.core.rd POS_STATUS.RATE ch.val = 1 ∧ t.field.core.rd POS_STATUS.FAULT ch.val = 1 ∧
          t.field.core.rd POS_SPEED.SPEED ch.val = 0 ∧ CoreOnly s t) ∧
      (s.field.core.rd POS_SIG_CFG.AMP_FILT ch.val ≤ (s.field.core.pc ch.val).ampOut → s.field.core.rd POS_STATUS.AMP ch.val = 0 →
        Answers (.posFaultDetect (ch, .amplitude) []) s fun t =>
          t.field.core.rd POS_STATUS.AMP ch.val = 1 ∧ t.field.core.rd POS_STATUS.FAULT ch.val = 1 ∧
          t.field.core.rd POS_ERR_CNT.AMP ch.val =
            satU POS_ERR_CNT.AMP.width (s.field.core.rd POS_ERR_CNT.AMP ch.val + 1) ∧
          t.field.core.rd POS_SPEED.SPEED ch.val = 0 ∧ CoreOnly s t)) ∧
    (∀ phase : BitVec 16, 2 ≤ ch.val → s.field.core.rd POS_CFG.TYPE ch.val = 1 →
      s.field.core.rd POS_STATUS.LOS ch.val = 1 → s.field.core.rd POS_STATUS.HALL_BAD ch.val = 0 →
      s.field.core.rd POS_STATUS.AMP ch.val = 0 → s.field.core.rd POS_STATUS.SSI ch.val = 0 →
      s.field.core.rd POS_STATUS.RATE ch.val = 0 → s.field.core.rd POS_STATUS.SUP ch.val = 0 →
      Answers (.posFaultClear ch .los phase) s fun t =>
        t.field.core.rd POS_STATUS.LOS ch.val = 0 ∧ t.field.core.rd POS_STATUS.FAULT ch.val = 0 ∧
        t.field.core.rd POS_STATUS.SUSPECT ch.val = 1 ∧ s.field.core.Raised t.field.core 0x0706 ch.val ∧
        t.field.core.etime = max s.field.core.etime (mget 0 (s.field.core.pc ch.val).seen (faultIx .los) + 1000000) ∧
        SameRegs [POS_STATUS.LOS.key ch.val, POS_STATUS.FAULT.key ch.val, POS_STATUS.SUSPECT.key ch.val,
          LOG_EVT_OVWR_CNT.COUNT.key 0] s.field.core t.field.core ∧ CoreOnly s t)) ∧
    (∀ phase : BitVec 16, ch.val < 2 → s.field.core.rd POS_CFG.TYPE ch.val = 1 → s.field.core.rd POS_STATUS.LOS ch.val = 1 →
      Answers (.posFaultClear ch .los phase) s fun t =>
        t.field.core.rd POS_STATUS.LOS ch.val = 0 ∧ t.field.core.rd POS_STATUS.SUSPECT ch.val = 1 ∧ CoreOnly s t)

/-- The web's source and its backup (R360 to R363): a ratio window measures R = d1 × 2^24 / d0; a written return is pending while
the source is not lost; from a lost source it takes place once PC0 is free of faults, and LOST clears. -/
def Obligations.WebSourceMeasuresAndReturns : Prop :=
  ∀ (s : State), s.field.core.bootState ≠ 1 →
    (s.field.core.rd POS_STATUS.FAULT 0 = 0 → s.field.core.rd POS_STATUS.FAULT 1 = 0 → s.field.core.rd POS_STATUS.STILL 0 = 0 →
      s.field.core.rd POS_STATUS.STILL 1 = 0 →
      2 ^ s.field.core.rd POS_WEB_CFG.TRACK ≤ ((s.field.core.pc 0).steps - s.field.core.pos.web.win0).natAbs →
      Answers .webRatioWindow s fun t =>
        t.field.core.rd POS_WEB_RATIO.R =
          satU 32 (((s.field.core.pc 1).steps - s.field.core.pos.web.win1) * 2 ^ 24 /
            ((s.field.core.pc 0).steps - s.field.core.pos.web.win0)).toNat ∧
        t.field.core.pos.web.tracked = true ∧ t.field.core.pos.web.win0 = (s.field.core.pc 0).steps ∧
        SameRegs [POS_WEB_RATIO.R.key 0, POS_WEB_STATUS.BACKUP_READY.key 0, LOG_EVT_OVWR_CNT.COUNT.key 0]
          s.field.core t.field.core ∧ CoreOnly s t) ∧
    (s.field.core.rd POS_WEB_STATUS.RETURN_PENDING = 1 → s.field.core.rd POS_WEB_STATUS.LOST = 1 →
      s.field.core.rd POS_STATUS.FAULT 0 = 0 → NothingDue s.field.core →
      Answers .webSourceReturn s fun t =>
        t.field.core.rd POS_WEB_STATUS.SRC = 0 ∧ t.field.core.rd POS_WEB_STATUS.LOST = 0 ∧
        t.field.core.rd POS_WEB_STATUS.RETURN_PENDING = 0 ∧
        t.field.core.rd POS_WEB_SWITCH_CNT.RETURNS =
          satU POS_WEB_SWITCH_CNT.RETURNS.width (s.field.core.rd POS_WEB_SWITCH_CNT.RETURNS + 1) ∧
        t.field.core.webCount = s.field.core.webCount ∧
        SameOutside [0x0E, 0x11, 0x12, 0x1B] s.field.core t.field.core ∧ CoreOnly s t) ∧
    (∀ (c : Call) (v : Word), CleanHeader c 8 → Runs c 0x0101 2 s → s.field.core.cdc.out = [] →
      s.field.core.rd SYS_LOCK.CFG_LOCK = 0 →
      s.field.core.rd POS_WEB_STATUS.LOST = 0 → v.toNat.testBit 0 = true →
      Answers (.posWebReturn c v) s fun t =>
        Completed c 0x0101 0 0 s t ∧ t.field.core.rd POS_WEB_STATUS.RETURN_PENDING = 1 ∧
        CommandFrame c 0x0101 [POS_WEB_STATUS.RETURN_PENDING.key 0] s t ∧ Quiet s.field.core t.field.core)

/-- Channel registers whose write acts, for PC2 to PC7 (R339, R346, R347): a changed TYPE zeroes count and speed and clears
the faults; a changed WRAP reduces the count; LOAD puts the count at PRESET. POS_ARM_INDEX, on any channel, writes MODE and
PRESET, drops the reference, and arms (R355). -/
def Obligations.ChannelRegistersAndArmingAct : Prop :=
  (∀ (c : Call) (ch : Fin 8) (v : Word) (s : State), 2 ≤ ch.val → s.field.core.cdc.out = [] →
     s.field.core.rd SYS_LOCK.CFG_LOCK = 0 → NothingDue s.field.core → Runs c 0x0101 3 s → CleanHeader c 8 →
     (∀ ty : Nat, ty = fieldPart POS_CFG.TYPE v.toNat → ty ≠ s.field.core.rd POS_CFG.TYPE ch.val →
       Answers (.posTypeChange c ch v) s fun t =>
         Completed c 0x0101 0 0 s t ∧ t.field.core.rd POS_CFG.TYPE ch.val = ty ∧ t.field.core.posCount ch.val = 0 ∧
         t.field.core.rd POS_SPEED.SPEED ch.val = 0 ∧ t.field.core.rd POS_STATUS.IDX_REF ch.val = 0 ∧
         t.field.core.rd POS_STATUS.FAULT ch.val = 0 ∧ t.field.core.rd POS_STATUS.LOS ch.val = 0 ∧
         CommandWithin c 0x0101 [0x0E, 0x11, 0x12] s t) ∧
     (v.toNat ≠ s.field.core.rd POS_WRAP.WRAP ch.val → Answers (.posWrapWrite c ch v) s fun t =>
       Completed c 0x0101 0 0 s t ∧ t.field.core.rd POS_WRAP.WRAP ch.val = v.toNat ∧
       t.field.core.posCount ch.val = s.field.core.posCount ch.val % (if v = 0 then 2 ^ 48 else v.toNat) ∧
       CommandWithin c 0x0101 [0x0E, 0x11, 0x12] s t) ∧
     (v.toNat.testBit 3 = true → Answers (.posIdxLoad c ch v) s fun t =>
       Completed c 0x0101 0 0 s t ∧ t.field.core.posCount ch.val =
         s.field.core.rd2 POS_PRESET_LO.PRESET POS_PRESET_HI.PRESET ch.val % s.field.core.srcMod ch.val ∧
       CommandWithin c 0x0101 [0x0E, 0x11, 0x12] s t)) ∧
  (∀ (c : Call) (ch : Fin 8) (mode : Byte) (preset : BitVec 64) (s : State), CleanHeader c 12 → Runs c 0x0502 2 s →
     mode.toNat ≤ 2 → s.field.core.rd POS_CFG.TYPE ch.val = 1 → preset.toNat < 2 ^ 48 →
     (2 ≤ ch.val → s.field.core.rd POS_WRAP.WRAP ch.val = 0) →
     Answers (.posArmIndex c (BitVec.ofNat 8 ch.val) mode preset) s fun t =>
       Completed c 0x0502 0 0 s t ∧ t.field.core.rd POS_IDX_CFG.MODE ch.val = mode.toNat ∧
       t.field.core.rd2 POS_PRESET_LO.PRESET POS_PRESET_HI.PRESET ch.val = preset.toNat ∧
       t.field.core.rd POS_STATUS.IDX_REF ch.val = 0 ∧
       t.field.core.rd POS_STATUS.IDX_ARMED ch.val = (if mode = 0 then 0 else 1) ∧
       CommandFrame c 0x0502 [POS_IDX_CFG.MODE.key ch.val, POS_PRESET_LO.PRESET.key ch.val, POS_PRESET_HI.PRESET.key ch.val,
         POS_STATUS.IDX_REF.key ch.val, POS_STATUS.IDX_ARMED.key ch.val] s t ∧ Quiet s.field.core t.field.core)

/-! ### The compare pool (spec/08 R366 to R377) -/

/-- CMP_APPEND of inline entries that pass every check, with room for them, starts and queues them in order (R368);
CMP_ENTRY_INSERT puts the next one into the pool: one that lies ahead in its sense of travel stays pending and counts as
appended (R369, R376). -/
def Obligations.CompareEntriesQueueAndInsert : Prop :=
  (∀ (c : Call) (count : BitVec 16) (inline : Bytes) (s : State), (count = 1 ∨ count = 2) →
    CleanHeader c (16 * count.toNat + 16) → Runs c 0x0500 1 s →
    (∀ i, i < count.toNat → s.field.core.cmpBad (cmpEntryAt inline (16 * i)) = none) → count.toNat ≤ s.field.core.cmpFree →
    Answers (.cmpAppend c count inline) s fun t =>
      Started c 0x0500 t ∧
      t.field.core.pos.cmp.queue = s.field.core.pos.cmp.queue ++
        [⟨refOf 0x0500 c, (List.range count.toNat).map fun i => cmpEntryAt inline (16 * i), 0, 0⟩] ∧
      t.field.core.pos.cmp.pool = s.field.core.pos.cmp.pool ∧
      CommandFrame c 0x0500 [] s t ∧ t.field.core.cmdq.done = s.field.core.cmdq.done) ∧
  (∀ (s : State) (q : CmpAppend) (qs : List CmpAppend) (e e' : CmpEntry) (es : List CmpEntry),
    s.field.core.bootState ≠ 1 → s.field.core.pos.cmp.queue = q :: qs → q.rest = e :: e' :: es →
    s.field.core.pos.cmp.pool.length < 4096 → e.source ≤ 8 →
    smodM (s.field.core.srcMod e.source) (s.field.core.srcPos e.source) e.pos ≠ 0 →
    decide (smodM (s.field.core.srcMod e.source) (s.field.core.srcPos e.source) e.pos > 0) = e.rev →
    Answers .cmpEntryInsert s fun t =>
      t.field.core.pos.cmp.pool = s.field.core.pos.cmp.pool ++ [{ e with slot := freeSlot s.field.core.pos.cmp.pool }] ∧
      t.field.core.pos.cmp.queue = { q with rest := e' :: es, done := q.done + 1 } :: qs ∧
      t.field.core.rd CMP_STATUS.PENDING = (s.field.core.pos.cmp.pool.length + 1) % 2 ^ CMP_STATUS.PENDING.width ∧
      t.field.core.rd CMP_APPENDED_CNT.COUNT = (s.field.core.rd CMP_APPENDED_CNT.COUNT + 1) % 2 ^ 32 ∧
      SameRegs [CMP_STATUS.PENDING.key 0, CMP_STATUS.HOST_FREE.key 0, CMP_APPENDED_CNT.COUNT.key 0]
        s.field.core t.field.core ∧ CoreOnly s t)

/-- CMP_CLEAR removes every pending host entry that targets a named CO output, or with an empty mask every CAM_FRAME entry, each
MISSED with cause CLEARED, and no entry in another slot; pulses and levels stay as they are (R375). CO_PULSE_END ends an output's
pulse at its time, and the output then follows its level (R373). -/
def Obligations.ClearAndPulseEndFreeOutputs : Prop :=
  (∀ (c : Call) (mask : Byte) (s : State), CleanHeader c 4 → Runs c 0x0501 1 s →
    Answers (.cmpClear c mask) s fun t =>
      let hit := fun (e : CmpEntry) => if mask = 0 then e.action == 0x10 else decide (e.action ≤ 4) && mask.toNat.testBit e.output
      Completed c 0x0501 0 0 s t ∧ (∀ e ∈ t.field.core.pos.cmp.pool, hit e = false ∧ e ∈ s.field.core.pos.cmp.pool) ∧
      (∀ e ∈ s.field.core.pos.cmp.pool, (∀ x ∈ s.field.core.pos.cmp.pool, hit x = true → x.slot ≠ e.slot) →
        e ∈ t.field.core.pos.cmp.pool) ∧
      t.field.core.rd CMP_MISSED_CNT.COUNT =
        (s.field.core.rd CMP_MISSED_CNT.COUNT + s.field.core.pos.cmp.pool.countP hit) % 2 ^ 32 ∧
      ((s.field.core.pos.cmp.pool.any hit) = true → t.field.core.rd CMP_LAST_MISS.CAUSE = 3) ∧
      t.field.core.pos.cmp.levels = s.field.core.pos.cmp.levels ∧ t.field.core.pos.cmp.timers = s.field.core.pos.cmp.timers ∧
      CommandWithin c 0x0501 [0x0F] s t) ∧
  (∀ (co : Fin 8) (s : State), s.field.core.bootState ≠ 1 → mget 0 s.field.core.pos.cmp.timers co.val ≠ 0 →
    Answers (.coPulseEnd co) s fun t =>
      mget 0 t.field.core.pos.cmp.timers co.val = 0 ∧
      t.field.core.etime = max s.field.core.etime (mget 0 s.field.core.pos.cmp.timers co.val) ∧
      (t.field.core.rd CMP_CO_LEVEL.ACTIVE).testBit co.val =
        ((s.field.core.rd CMP_CO_CFG.EN).testBit co.val && s.field.core.pos.cmp.levels.testBit co.val) ∧
      SameRegs [CMP_CO_LEVEL.ACTIVE.key 0] s.field.core t.field.core ∧ CoreOnly s t)

/-! ### The host side, its rings and the elytron (spec/01, spec/04) -/

/-- Ring registers (R155 to R164). A tail inside the ring is taken, one outside it sets TAIL_RANGE; a completion head no
further than the completion tail is taken; a ring whose size and base are in order is enabled with its pointers at 0, and a
disabled one keeps them; a 1 written to IRQ_STATUS clears its bit; an access outside the registers sets BAD_OFFSET, and a
read there returns 0 (R156). -/
def Obligations.RingRegistersFollowTheHost : Prop :=
  ∀ s : State, s.host.powered = true →
    (∀ (q : Fin 4) (tail : Word), Answers (.sqTailDoorbell q tail) s fun t =>
      HostOnly s t ∧ BarOnly s.host t.host ∧
      (tail.toNat % 4096 < 2 ^ s.host.log2 q.val →
        t.host.rd SQ_TAIL.TAIL q.val = tail.toNat % 4096 ∧ SameBar [SQ_TAIL.TAIL.key q.val] s.host t.host) ∧
      (2 ^ s.host.log2 q.val ≤ tail.toNat % 4096 →
        t.host.rd BAR_ERR.TAIL_RANGE = 1 ∧ t.host.rd BAR_ERR_ADDR.ADDR = 0x2C + 0x20 * q.val ∧ t.host.rd IRQ_STATUS.ERR = 1 ∧
        SameBar [BAR_ERR.TAIL_RANGE.key 0, BAR_ERR_ADDR.ADDR.key 0, IRQ_STATUS.ERR.key 0] s.host t.host)) ∧
    (∀ (x d : Nat), s.host.rd CQ_HEAD.HEAD < 2 ^ s.host.log2 4 → s.host.log2 4 ≤ 14 →
      s.host.rd CQ_TAIL.TAIL = (s.host.rd CQ_HEAD.HEAD + x) % 2 ^ s.host.log2 4 → x < 2 ^ s.host.log2 4 → d ≤ x →
      Answers (.cqHeadDoorbell (BitVec.ofNat 32 ((s.host.rd CQ_HEAD.HEAD + d) % 2 ^ s.host.log2 4))) s fun t =>
        t.host.rd CQ_HEAD.HEAD = (s.host.rd CQ_HEAD.HEAD + d) % 2 ^ s.host.log2 4 ∧ HostOnly s t ∧ BarOnly s.host t.host ∧
        SameBar [CQ_HEAD.HEAD.key 0] s.host t.host) ∧
    (∀ (q : Fin 4) (value : Word), s.host.rd SQ_SIZE.EN q.val = 0 → 4 ≤ value.toNat % 16 → value.toNat % 16 ≤ 12 →
      s.host.rd SQ_BASE_LO.BASE q.val % 4096 = 0 →
      Answers (.ringEnable (q.castLE (by omega)) value) s fun t =>
        t.host.rd SQ_SIZE.EN q.val = 1 ∧ t.host.rd SQ_SIZE.LOG2 q.val = value.toNat % 16 ∧
        t.host.rd SQ_HEAD.HEAD q.val = 0 ∧ t.host.rd SQ_TAIL.TAIL q.val = 0 ∧ HostOnly s t ∧ BarOnly s.host t.host ∧
        SameBar [SQ_SIZE.EN.key q.val, SQ_SIZE.LOG2.key q.val, SQ_HEAD.HEAD.key q.val, SQ_TAIL.TAIL.key q.val] s.host t.host) ∧
    (∀ value : Word, s.host.rd CQ_SIZE.EN = 0 → 10 ≤ value.toNat % 16 → value.toNat % 16 ≤ 14 →
      s.host.rd CQ_BASE_LO.BASE % 4096 = 0 →
      Answers (.ringEnable 4 value) s fun t =>
        t.host.rd CQ_SIZE.EN = 1 ∧ t.host.rd CQ_SIZE.LOG2 = value.toNat % 16 ∧ t.host.rd CQ_HEAD.HEAD = 0 ∧
        t.host.rd CQ_TAIL.TAIL = 0 ∧ t.host.phase = true ∧ HostOnly s t ∧
        SameBar [CQ_SIZE.EN.key 0, CQ_SIZE.LOG2.key 0, CQ_HEAD.HEAD.key 0, CQ_TAIL.TAIL.key 0] s.host t.host) ∧
    (∀ (q : Fin 4) (value : Word), value.toNat % 16 = s.host.rd SQ_SIZE.LOG2 q.val →
      Answers (.ringDisable (q.castLE (by omega)) value) s fun t =>
        t.host.rd SQ_SIZE.EN q.val = 0 ∧ HostOnly s t ∧ BarOnly s.host t.host ∧
        SameBar [SQ_SIZE.EN.key q.val, SQ_SIZE.LOG2.key q.val] s.host t.host) ∧
    (∀ value : Word, Answers (.bar0RegisterWrite 0x14 (some value)) s fun t =>
      t.host.rd IRQ_STATUS.CQ = (if value.toNat.testBit 0 then 0 else s.host.rd IRQ_STATUS.CQ) ∧
      t.host.rd IRQ_STATUS.ALERT = (if value.toNat.testBit 1 then 0 else s.host.rd IRQ_STATUS.ALERT) ∧
      t.host.rd IRQ_STATUS.ERR = (if value.toNat.testBit 2 then 0 else s.host.rd IRQ_STATUS.ERR) ∧
      HostOnly s t ∧ BarOnly s.host t.host ∧
      SameBar [IRQ_STATUS.CQ.key 0, IRQ_STATUS.ALERT.key 0, IRQ_STATUS.ERR.key 0] s.host t.host) ∧
    (∀ (off : BitVec 14) (value : Word), 0x100 ≤ off.toNat → off.toNat < 0x2000 →
      Answers (.bar0RegisterWrite off (some value)) s fun t =>
        t.host.rd BAR_ERR.BAD_OFFSET = 1 ∧ t.host.rd BAR_ERR_ADDR.ADDR = off.toNat ∧ t.host.rd IRQ_STATUS.ERR = 1 ∧
        HostOnly s t ∧ BarOnly s.host t.host ∧
        SameBar [BAR_ERR.BAD_OFFSET.key 0, BAR_ERR_ADDR.ADDR.key 0, IRQ_STATUS.ERR.key 0] s.host t.host) ∧
    (∀ off : BitVec 14, Answers (.bar0RegisterWrite off none) s fun t =>
      HostOnly s t ∧
      (barListed off.toNat = true → t.host = { s.host with barData := s.host.word off.toNat }) ∧
      (barListed off.toNat = false → t.host = { s.host with bar := t.host.bar, barData := 0 } ∧
        t.host.rd BAR_ERR.BAD_OFFSET = 1 ∧ t.host.rd BAR_ERR_ADDR.ADDR = off.toNat ∧ t.host.rd IRQ_STATUS.ERR = 1 ∧
        SameBar [BAR_ERR.BAD_OFFSET.key 0, BAR_ERR_ADDR.ADDR.key 0, IRQ_STATUS.ERR.key 0] s.host t.host))

/-- Ring traffic (R162 to R166, R171, R177, R200). While Q0 has an entry and may have one more in flight, the fetch takes
Q0's: the entry leaves for the field side, tracked until it completes, and SQ_0_HEAD moves on in the ring; a read that fails
takes nothing, sets DMA_ERR with the address and disables the ring. With room, the oldest completion is written at CQ_TAIL
as 32 bytes of host memory with the phase in force, the tail moves on, and wrapping flips the phase; a write that fails holds
it, and the retry writes it in its place; what a field reset has lost completes with status 0x40 and detail 0x001B, one entry
for each, in order where no answer of the host side's own waits among them (R175). -/
def Obligations.EntriesAreFetchedAndCompletionsWritten : Prop :=
  (∀ (entry : Bytes) (bulk : Bulk) (s : State), s.host.powered = true → s.host.rd SQ_SIZE.EN 0 = 1 → s.host.rd SQ_SIZE.LOG2 0 ≤ 12 →
     s.host.rd SQ_HEAD.HEAD 0 ≠ s.host.rd SQ_TAIL.TAIL 0 →
     (s.field.core.rd CMDQ_CFG.MODE = 0 → s.inFlight.countP (·.q == 0) < 64) →
     (s.field.core.rd CMDQ_CFG.MODE ≠ 0 → s.inFlight.length < 512) →
     (entry.length = 64 → s.field.core.elyUp = true → Answers (.sqEntryFetch entry bulk none) s fun t =>
       t.host.rd SQ_HEAD.HEAD 0 = (s.host.rd SQ_HEAD.HEAD 0 + 1) % 2 ^ s.host.rd SQ_SIZE.LOG2 0 ∧
       t.host.outbox = s.host.outbox ++
         [⟨.host, 0, s.host.rd SQ_HEAD.HEAD 0, entry, bulk, s.dupTag (leAt entry 2 2 % 1024), none⟩] ∧
       t.host.tracked = s.host.tracked ++ [⟨0, leAt entry 2 2 % 1024, s.host.rd SQ_HEAD.HEAD 0, leAt entry 0 2⟩] ∧
       t.host = { s.host with bar := t.host.bar, outbox := t.host.outbox, tracked := t.host.tracked } ∧
       SameBar [SQ_HEAD.HEAD.key 0] s.host t.host ∧ HostOnly s t) ∧
     (∀ a : BitVec 64, Answers (.sqEntryFetch entry bulk (some a)) s fun t =>
       t.host.rd BAR_ERR.DMA_ERR = 1 ∧ t.host.rd BAR_ERR_ADDR.ADDR = a.toNat % 2 ^ 32 ∧ t.host.rd IRQ_STATUS.ERR = 1 ∧
       t.host.rd SQ_SIZE.EN 0 = 0 ∧ t.host.rd SQ_HEAD.HEAD 0 = s.host.rd SQ_HEAD.HEAD 0 ∧ HostOnly s t ∧ BarOnly s.host t.host ∧
       SameBar [BAR_ERR.DMA_ERR.key 0, BAR_ERR_ADDR.ADDR.key 0, IRQ_STATUS.ERR.key 0, SQ_SIZE.EN.key 0] s.host t.host)) ∧
  (∀ s : State, s.host.powered = true →
     let image := fun (c : Compl) (m : SMap (Option Byte)) => ∀ i, i < 32 →
       mget none m ((s.host.rd CQ_BASE_LO.BASE + 2 ^ 32 * s.host.rd CQ_BASE_HI.BASE + 32 * s.host.rd CQ_TAIL.TAIL + i) % 2 ^ 64) =
         (c.image s.host.phase)[i]?
     (s.host.rd CQ_SIZE.EN = 1 → s.host.rd CQ_SIZE.LOG2 ≤ 14 → s.host.rd CQ_TAIL.TAIL < 2 ^ s.host.rd CQ_SIZE.LOG2 →
       s.host.rd CQ_HEAD.HEAD < 2 ^ s.host.rd CQ_SIZE.LOG2 →
       (s.host.rd CQ_TAIL.TAIL + 1) % 2 ^ s.host.rd CQ_SIZE.LOG2 ≠ s.host.rd CQ_HEAD.HEAD →
       (∀ (c : Compl) (cs : List Compl), s.host.retry = none → s.host.arrived = c :: cs → c.kind = 1 →
         (Answers (.completionEntryWrite none) s fun t =>
           mget none t.host.cqMem (s.host.rd CQ_TAIL.TAIL) = some (c, s.host.phase) ∧ image c t.host.dataMem ∧
           t.host.arrived = cs ∧
           t.host.rd CQ_TAIL.TAIL = (s.host.rd CQ_TAIL.TAIL + 1) % 2 ^ s.host.rd CQ_SIZE.LOG2 ∧
           t.host.rd IRQ_STATUS.CQ = 1 ∧
           t.host.phase = (s.host.phase != (s.host.rd CQ_TAIL.TAIL + 1 == 2 ^ s.host.rd CQ_SIZE.LOG2)) ∧
           SameBar [CQ_TAIL.TAIL.key 0, IRQ_STATUS.CQ.key 0] s.host t.host ∧ HostOnly s t) ∧
         (∀ a : BitVec 64, Answers (.completionEntryWrite (some a)) s fun t =>
           t.host.retry = some c ∧ t.host.arrived = cs ∧ t.host.cqMem = s.host.cqMem ∧ t.host.rd BAR_ERR.DMA_ERR = 1 ∧
           t.host.rd CQ_TAIL.TAIL = s.host.rd CQ_TAIL.TAIL ∧ HostOnly s t ∧
           SameBar [BAR_ERR.DMA_ERR.key 0, BAR_ERR_ADDR.ADDR.key 0, IRQ_STATUS.ERR.key 0] s.host t.host)) ∧
       (∀ c : Compl, s.host.retry = some c → Answers (.completionWriteRetry none) s fun t =>
         mget none t.host.cqMem (s.host.rd CQ_TAIL.TAIL) = some (c, s.host.phase) ∧ image c t.host.dataMem ∧
         t.host.retry = none ∧
         t.host.arrived = s.host.arrived ∧
         t.host.rd CQ_TAIL.TAIL = (s.host.rd CQ_TAIL.TAIL + 1) % 2 ^ s.host.rd CQ_SIZE.LOG2 ∧ t.host.rd IRQ_STATUS.CQ = 1 ∧
         SameBar [CQ_TAIL.TAIL.key 0, IRQ_STATUS.CQ.key 0] s.host t.host ∧ HostOnly s t)) ∧
     (Answers .fieldLostCompletions s fun t =>
       let head := fun (c : Compl) => (c.kind, c.status, c.tag, c.q, c.opcode, c.index, c.etime, c.result % 2 ^ 16)
       let own := fun (x : Track) => (1, 0x40, x.tag, x.q, x.opcode, x.index, s.host.time, 0x001B)
       t.host.lost = [] ∧ (∀ x ∈ s.host.lost, own x ∈ t.host.arrived.map head) ∧
       (s.host.answers = [] → t.host.arrived.map head = s.host.arrived.map head ++ s.host.lost.map own) ∧
       t.host.bar = s.host.bar ∧ t.pending = s.pending ∧ t.field.core.regs = s.field.core.regs ∧ t.field.dram = s.field.dram))

/-- Flits (R42 to R48, R51, R173, R589), where no injection rule acts and nothing else is on its way in the direction. A flit that
waits, with a credit on its virtual channel and a good CRC, crosses: both ends go on to the next number, the transmitter has spent a
credit, and the receiver delivers it. VC0 goes first, a HEARTBEAT before it; completions go before events. A host HEARTBEAT shows
the host alive; a field HEARTBEAT releases HOST_ALERT_N; TIME brings the host the time; a COMMAND joins the waiting commands; DATA
that no open descriptor takes is rejected and reported. A bad CRC leaves the flit in the replay buffer, counts, and asks for it
again; the replayed flit is then taken. 100 µs after its last one the host side has a HEARTBEAT to send, which waits for its flit.
10 µs without an acknowledgement replay every unacknowledged flit. -/
def Obligations.FlitsCrossInSequence : Prop :=
  ∀ s : State, s.host.powered = true →
    (s.field.core.flitsCross = true → s.field.core.cdc.out = [] → s.field.core.cdc.req = [] →
      s.field.core.rd FIJ_STATUS.ARMED = 0 → s.field.core.fij.held = [] →
      (∀ seq : BitVec 12, let d := s.field.core.ely.toF
        d.replay = [] → d.next = seq.toNat → d.want = seq.toNat →
        let crossed := fun (vc : Nat) (t : State) =>
          let d' := t.field.core.ely.toF
          d'.next = (seq.toNat + 1) % 4096 ∧ d'.want = (seq.toNat + 1) % 4096 ∧ d'.replay = [] ∧
          d'.credit vc = d.credit vc - 1 ∧ t.field.core.ely.freed = s.field.core.ely.freed ++ [vc] ∧
          t.pending = s.pending ∧ t.field.dram = s.field.dram
        (s.field.core.ely.hostHb = true → 0 < d.credit 0 →
          (Answers (.elyFlitReceive true seq true false .hostHeartbeat) s fun t => crossed 0 t ∧
            t.field.core.ely.hostHb = false ∧ t.field.core.ely.hbAt = s.field.core.etime ∧
            t.field.core.ely.hostLost = false ∧ t.field.core.rd ELY_STATUS.HOST_ALIVE = 1 ∧
            (s.field.core.ely.hostLost = true → s.field.core.Raised t.field.core 0x0305 0) ∧
            SameRegs [ELY_STATUS.HOST_ALIVE.key 0, LOG_EVT_OVWR_CNT.COUNT.key 0] s.field.core t.field.core ∧
            BarOnly s.host t.host ∧ SameBar [BAR_STATE.LINK_UP.key 0, BAR_STATE.FIELD_STATE.key 0] s.host t.host) ∧
          (Answers (.elyFlitReceive true seq false false .hostHeartbeat) s fun t =>
            t.field.core.ely.toF.next = (seq.toNat + 1) % 4096 ∧ t.field.core.ely.toF.want = seq.toNat ∧
            t.field.core.ely.toF.nak = some seq.toNat ∧ t.field.core.ely.toF.replay = [⟨seq.toNat, .hostHeartbeat⟩] ∧
            t.field.core.ely.hbAt = s.field.core.ely.hbAt ∧
            t.field.core.rd ELY_CRC_ERR_CNT.COUNT = satU 32 (s.field.core.rd ELY_CRC_ERR_CNT.COUNT + 1) ∧
            t.field.core.rd ELY_REPLAY_CNT.COUNT = satU 32 (s.field.core.rd ELY_REPLAY_CNT.COUNT + 1) ∧
            SameRegs [ELY_CRC_ERR_CNT.COUNT.key 0, ELY_REPLAY_CNT.COUNT.key 0] s.field.core t.field.core ∧ CoreOnly s t)) ∧
        (∀ (e : QCmd) (es : List QCmd), s.host.outbox = e :: es → s.field.core.ely.hostHb = false →
          (∀ x ∈ es, x.q ≠ 0) → (∀ x ∈ e :: s.field.core.cmdq.waiting, x.urgent = false) → 0 < d.credit 1 → d.run < 8 → s.field.core.bootState ≠ 0xF →
          Answers (.elyFlitReceive true seq true false .command) s fun t => crossed 1 t ∧
            t.field.core.cmdq = { s.field.core.cmdq with waiting := s.field.core.cmdq.waiting ++ [e] } ∧
            t.host = { s.host with outbox := es } ∧ t.field.core.regs = s.field.core.regs) ∧
        (∀ (id off : Nat) (b : Bytes), s.host.outbox = [] → s.field.core.ely.hostHb = false → 0 < d.credit 2 → b ≠ [] →
          b.length ≤ 512 → (∀ x ∈ s.field.core.ely.descs, x.id = id → x.ended = none ∧ x.len < off + b.length) →
          Answers (.elyFlitReceive true seq true false (.data id off b)) s fun t => crossed 2 t ∧
            t.field.core.rd ELY_REJECT_CNT.COUNT = satU 32 (s.field.core.rd ELY_REJECT_CNT.COUNT + 1) ∧
            s.field.core.Raised t.field.core 0x0304 0 ∧ t.field.core.ely.descs = s.field.core.ely.descs ∧
            SameRegs [ELY_REJECT_CNT.COUNT.key 0, LOG_EVT_OVWR_CNT.COUNT.key 0] s.field.core t.field.core ∧ t.host = s.host)) ∧
      (∀ seq : BitVec 12, s.field.core.ely.toF.want = seq.toNat →
        s.field.core.ely.toF.replay = [⟨seq.toNat, .hostHeartbeat⟩] →
        Answers (.elyFlitReceive true seq true false .hostHeartbeat) s fun t =>
          t.field.core.ely.toF.replay = [] ∧ t.field.core.ely.toF.want = (seq.toNat + 1) % 4096 ∧
          t.field.core.ely.toF.nak = none ∧ t.field.core.ely.toF.next = s.field.core.ely.toF.next ∧
          t.field.core.ely.hbAt = s.field.core.etime ∧ t.field.core.rd ELY_STATUS.HOST_ALIVE = 1 ∧ t.field.dram = s.field.dram) ∧
      (∀ seq : BitVec 12, let d := s.field.core.ely.toH
        d.replay = [] → d.next = seq.toNat → d.want = seq.toNat →
        let crossed := fun (t : State) =>
          let d' := t.field.core.ely.toH
          d'.next = (seq.toNat + 1) % 4096 ∧ d'.want = (seq.toNat + 1) % 4096 ∧ d'.replay = [] ∧
          (∀ vc, d'.credit vc = d.credit vc) ∧ t.field.core.regs = s.field.core.regs ∧ t.pending = s.pending ∧
          t.field.dram = s.field.dram
        (s.field.core.ely.fieldHb = true → 0 < d.credit 0 →
          Answers (.elyFlitReceive false seq true false .fieldHeartbeat) s fun t => crossed t ∧
            t.field.core.ely.fieldHb = false ∧ t.host.report = s.field.core.fieldReport ∧ t.host.hbAt = s.field.core.etime ∧
            t.host.alert = false ∧
            (s.host.alert = true → t.host.rd BAR_STATE.FIELD_ALIVE = 1 ∧ t.host.rd IRQ_STATUS.ALERT = 1) ∧
            t.host = { s.host with bar := t.host.bar, report := t.host.report, hbAt := t.host.hbAt, alert := false }) ∧
        (s.field.core.ely.fieldHb = false → s.field.core.ely.fieldTime = true → 0 < d.credit 0 →
          Answers (.elyFlitReceive false seq true false .time) s fun t => crossed t ∧
            t.host = { s.host with time := s.field.core.etime } ∧ t.field.core.ely.fieldTime = false) ∧
        (s.field.core.ely.fieldHb = false → s.field.core.ely.fieldTime = false → s.field.core.ely.hostLost = false →
          0 < d.credit 1 → d.run < 8 →
          (∀ (c : Compl) (cs : List Compl), s.host.cqRoom true = true → s.field.core.cmdq.done = c :: cs → s.host.answers = [] →
            Answers (.elyFlitReceive false seq true false .completion) s fun t => crossed t ∧
              t.field.core.cmdq = { s.field.core.cmdq with done := cs } ∧ t.host.arrived = s.host.arrived ++ [c] ∧
              t.host.tracked = s.host.tracked.erase ⟨c.q, c.tag, c.index, c.opcode⟩ ∧
              t.host = { s.host with arrived := t.host.arrived, tracked := t.host.tracked }) ∧
          (∀ (c : Compl) (cs : List Compl), s.host.cqRoom false = true → s.field.core.cmdq.done = [] → s.field.core.cmdq.events = c :: cs →
            Answers (.elyFlitReceive false seq true false .event) s fun t => crossed t ∧
              t.field.core.cmdq = { s.field.core.cmdq with events := cs } ∧
              t.host = { s.host with arrived := s.host.arrived ++ [c] })))) ∧
    (∀ toField : Bool, let d := s.field.core.ely.dir toField
      (s.field.core.bootState ≠ 1 → d.replay ≠ [] → s.field.core.flitsCross = true →
        Answers (.elyReplayTimeout toField) s fun t =>
          t.field.core.rd ELY_REPLAY_CNT.COUNT = satU 32 (s.field.core.rd ELY_REPLAY_CNT.COUNT + d.replay.length) ∧
          t.field.core.etime = max s.field.core.etime (d.quietAt + 10000) ∧
          t.field.core.ely.dir toField = { d with quietAt := t.field.core.etime } ∧
          t.field.core.ely.dir (!toField) = s.field.core.ely.dir (!toField) ∧
          SameRegs [ELY_REPLAY_CNT.COUNT.key 0] s.field.core t.field.core ∧ CoreOnly s t) ∧
      (d.replay = [] ∨ s.field.core.flitsCross = false → Answers (.elyReplayTimeout toField) s fun t => t = s)) ∧
    (s.field.core.bootState ≠ 1 → s.field.core.elyUp = true → Answers .hostHeartbeatSend s fun t =>
      t.field.core.etime = max s.field.core.etime (s.host.hbSent + 100000) ∧ t.host = { s.host with hbSent := t.field.core.etime } ∧
      t.field.core = { s.field.core with etime := t.field.core.etime, ely := { s.field.core.ely with hostHb := true } } ∧
      t.field.dram = s.field.dram ∧ t.pending = s.pending)

/-- Lanes and the two ends (R47, R49, R51, R53, R86, R100, R193). Losing lock of the host-to-field lanes halves them and
raises ELY_RETRAIN; losing the last field-to-host lane is a link-down, and the host's privilege ends; a retrain puts the new
lanes in use and replays what was not acknowledged; a silent host is lost at its time; HOST_ALERT_N is asserted 1 ms after the
last field HEARTBEAT and shows at the host; a host-side reset or a change of its supply puts BAR0 at its reset values and leaves
no lane, and what was fetched is still sent. Stated for HOST_LOSS_POLICY 0. -/
def Obligations.LanesAndHostSideFollowTheirSupply : Prop :=
  ∀ s : State, s.field.core.bootState ≠ 1 → s.field.core.rd ELY_CFG.HOST_LOSS_POLICY = 0 → s.field.core.ely.h2f ≤ 4 →
    s.field.core.ely.f2h ≤ 2 →
    (2 ≤ s.field.core.ely.h2f → Answers (.elyLaneDown true) s fun t =>
      t.field.core.ely.h2f = (if s.field.core.ely.h2f = 4 then 2 else 1) ∧
      t.field.core.rd ELY_STATUS.H2F_WIDTH = (if s.field.core.ely.h2f = 4 then 2 else 1) ∧
      t.field.core.ely.retraining = true ∧ s.field.core.Raised t.field.core 0x0301 0 ∧
      SameOutside [0x03, 0x1B] s.field.core t.field.core ∧ t.pending = s.pending ∧ t.field.dram = s.field.dram) ∧
    (s.field.core.ely.h2f ≠ 0 → s.field.core.ely.f2h = 1 → Answers (.elyLaneDown false) s fun t =>
      t.field.core.ely.f2h = 0 ∧ t.field.core.rd ELY_STATUS.LINK_UP = 0 ∧ t.field.core.rd CMDQ_PRIV.HOST = 0 ∧
      t.host.rd BAR_STATE.LINK_UP = 0 ∧ SameOutside [0x01, 0x03, 0x19, 0x1B] s.field.core t.field.core ∧
      t.pending = s.pending ∧ t.field.dram = s.field.dram) ∧
    (∀ h2f f2h : Fin 5, s.host.powered = true → h2f ≠ 0 → f2h ≠ 0 → Answers (.elyRetrainDone h2f f2h) s fun t =>
      t.field.core.ely.h2f = (if h2f = 3 then 2 else h2f.val) ∧ t.field.core.ely.f2h = min f2h.val 2 ∧
      t.field.core.ely.retraining = false ∧ t.field.core.rd ELY_STATUS.LINK_UP = 1 ∧ t.host.rd BAR_STATE.LINK_UP = 1 ∧
      t.field.core.rd ELY_REPLAY_CNT.COUNT = satU 32 (s.field.core.rd ELY_REPLAY_CNT.COUNT +
        (s.field.core.ely.toF.replay.length + s.field.core.ely.toH.replay.length)) ∧
      (s.field.core.ely.wasDown = true → s.field.core.Raised t.field.core 0x0305 0) ∧
      SameOutside [0x03, 0x1B] s.field.core t.field.core ∧
      t.pending = s.pending ∧ t.field.dram = s.field.dram) ∧
    (s.field.core.ely.hostLost = false → Answers .elyHostLost s fun t =>
      t.field.core.ely = { s.field.core.ely with hostLost := true } ∧ t.field.core.rd ELY_STATUS.HOST_ALIVE = 0 ∧
      t.field.core.rd CMDQ_PRIV.HOST = 0 ∧ s.field.core.Raised t.field.core 0x0303 0 ∧
      t.field.core.etime = max s.field.core.etime
        (s.field.core.ely.hbAt + 100000 * max 1 (s.field.core.rd ELY_CFG.HOST_HB_MISS)) ∧
      SameRegs [ELY_STATUS.HOST_ALIVE.key 0, CMDQ_PRIV.HOST.key 0, LOG_EVT_OVWR_CNT.COUNT.key 0]
        s.field.core t.field.core ∧ CoreOnly s t) ∧
    (s.host.powered = true → s.host.alert = false → Answers .hostAlertAssert s fun t =>
      t.host.alert = true ∧ t.host.rd BAR_STATE.FIELD_ALIVE = 0 ∧ t.host.rd IRQ_STATUS.ALERT = 1 ∧
      SameBar [BAR_STATE.FIELD_ALIVE.key 0, IRQ_STATUS.ALERT.key 0] s.host t.host ∧
      t.host = { s.host with bar := t.host.bar, alert := true } ∧ t.pending = s.pending ∧
      t.field = { s.field with core := { s.field.core with etime := max s.field.core.etime (s.host.hbAt + 1000000) } }) ∧
    (∀ (i : Instr) (on : Bool), (i = .hostSideReset ∧ s.host.powered = true ∧ on = true) ∨
        (i = .hostSupplyChange on ∧ s.host.powered ≠ on) → Answers i s fun t =>
      t.host.powered = on ∧ t.host.tracked = s.host.tracked ∧
      t.host.outbox = (s.field.core.ely.toF.replay.filterMap fun f => match f.body with | .command e => some e | _ => none) ++
        s.host.outbox ∧ t.field.core.ely.toF.replay = [] ∧ t.host.phase = true ∧ t.host.msix = [] ∧
      (∀ (f : Fld) (n : Nat), f.key n ∉ [BAR_STATE.LINK_UP.key 0, BAR_STATE.FIELD_STATE.key 0] → t.host.rd f n = f.rst % 2 ^ f.width) ∧
      t.host.rd BAR_STATE.LINK_UP = 0 ∧ t.host.rd BAR_STATE.FIELD_STATE = 0 ∧ t.field.core.ely.h2f = 0 ∧
      t.field.core.ely.f2h = 0 ∧ SameOutside [0x01, 0x03, 0x19, 0x1B] s.field.core t.field.core ∧
      t.pending = s.pending ∧ t.field.dram = s.field.dram)

/-- The field service port and bulk data (R203, R204, R251, R368). A frame that is not well formed is discarded, counted
and reported; a well-formed one with a NOP is answered. A descriptor all of whose bytes have landed closes and its command
goes on: a CMP_APPEND queues its entries; one whose command had ended closes once nothing sent for it is on its way, and the command
completes. -/
def Obligations.FramesAndDescriptorsRunCommands : Prop :=
  ∀ s : State, s.field.core.bootState ≠ 1 →
    (∀ frame : Bytes, fspEntry frame = none → Answers (.fspFrame frame) s fun t =>
      t.field.core.cmdq.fspBad = s.field.core.cmdq.fspBad + 1 ∧
      s.field.core.Raised t.field.core 0x0106 (satU 32 (s.field.core.cmdq.fspBad + 1)) ∧
      SameRegs [LOG_EVT_OVWR_CNT.COUNT.key 0] s.field.core t.field.core ∧ CoreOnly s t) ∧
    (∀ (frame : Bytes) (tag : Nat), tag < 1024 → fspEntry frame = some (toLE 2 0 ++ toLE 2 tag ++ List.replicate 60 0#8) →
      s.field.core.fspBusy = false → s.field.core.imagoDead = false →
      Answers (.fspFrame frame) s fun t =>
        t.field.core.cmdq.fspTx = [⟨1, 0, tag, 0, 0, 0, s.field.core.etime, 0⟩] ∧ SameOutside [0x01, 0x1B] s.field.core t.field.core ∧ CoreOnly s t) ∧
    (∀ (id : Nat) (d : DataDesc) (c : Call) (n : BitVec 16), s.field.core.ely.descs.find? (·.id == id) = some d →
      s.field.core.cmdq.waiting = [] → s.field.core.imagoDead = false → d.region = none → d.ended = none → d.len ≤ d.got.length → d.cmd = some (.cmpAppend c n []) →
      c.sg = true → c.bulk.dmaFail = none → dlenOf c = d.len → d.len = 16 * n.toNat →
      (∀ i, i < n.toNat → s.field.core.cmpBad (cmpEntryAt d.got (16 * i)) = none) → n.toNat ≤ s.field.core.cmpFree →
      d.got.length = d.len → Answers (.dataDescriptorClose id) s fun t =>
        t.field.core.pos.cmp.queue = s.field.core.pos.cmp.queue ++
          [⟨refOf 0x0500 c, (List.range n.toNat).map fun i => cmpEntryAt d.got (16 * i), 0, 0⟩] ∧
        t.field.core.ely.descs = s.field.core.ely.descs.filter (·.id != id) ∧ Started c 0x0500 t ∧
        t.field.core.cmdq.done = s.field.core.cmdq.done ∧ t.host = s.host ∧ t.field.dram = s.field.dram) ∧
    (∀ (id : Nat) (d : DataDesc) (c : Call) (r : Reply),
      s.field.core.ely.descs.find? (·.id == id) = some d → d.ended = some r → d.ref = refOf 0x0201 c → d.region = none →
      (∀ f ∈ s.field.core.ely.toF.replay, ∀ o b, f.body ≠ .data id o b) →
      c.src = .host → refOf 0x0201 c ∈ s.field.core.cmdq.open_ → Answers (.dataDescriptorClose id) s fun t =>
        t.field.core.cmdq.done = s.field.core.cmdq.done ++
          [entryOf c 0x0201 r.status (r.result s.field.core.free) s.field.core.etime] ∧
        t.field.core.ely.descs = s.field.core.ely.descs.filter (·.id != id) ∧ SameOutside [0x01, 0x1B] s.field.core t.field.core ∧ CoreOnly s t)

/-! ### Images, molting and drills (spec/05 R235 to R241) -/

/-- FW_STAGE of an inactive slot queues the write of the image and answers ACCEPTED (R235); MOLT of a staged image that matches
takes the pupa down and waits for it to boot (R236); SWAP_DRILL of a ready pupa with an image staged waits for its handover (R240,
R241). -/
def Obligations.StagingMoltAndDrillAreAccepted : Prop :=
  ∀ (c : Call) (s : State),
    (∀ (core slot : Byte) (d : Bytes), BulkHeader c 4 d → Runs c 0x0800 2 s → 257 ≤ d.length → d.length ≤ 16777216 →
      core.toNat ≤ 1 → slot.toNat ≤ 1 → slot.toNat ≠ s.field.core.flash.activeSlot core.toNat →
      s.field.core.flash.waiting.length < 1024 → s.field.core.cmdq.opNext < 2 ^ 32 →
      Answers (.fwStage c core slot) s fun t =>
        Completed c 0x0800 1 s.field.core.cmdq.opNext s t ∧
        t.field.core.cmdq.async = s.field.core.cmdq.async ++ [⟨s.field.core.cmdq.opNext, 0x0800, c.tag.toNat, c.q.val⟩] ∧
        t.field.core.flash.queue =
          s.field.core.flash.queue ++ [.image core.toNat slot.toNat s.field.core.cmdq.opNext d] ∧
        t.field.core.flash.images = s.field.core.flash.images ∧
        CommandFrame c 0x0800 [THM_DEFER.QUEUED.key 0, THM_DEFER.FLASH_HOLD.key 0, THM_DEFER_CNT.FLASH.key 0] s t) ∧
    (∀ (flags : Byte) (slot : Nat), CleanHeader c 4 → Runs c 0x0801 2 s → flags.toNat ≤ 1 →
      s.field.core.rd TCK_STATUS.PUPA_STATE = 2 → s.field.core.staged s.field.core.pupa = some slot →
      s.field.core.tck.molt = none → s.field.core.tck.drill = none → s.field.core.printing = false →
      (flags = 1 ∨ ckptEpoch ((s.field.core.flash.image s.field.core.pupa slot).getD []) =
        s.field.core.rd SYS_EPOCH.CKPT_EPOCH s.field.core.imago) →
      (∀ x ∈ s.field.core.cdc.out ++ s.field.core.cdc.req.map (·.1), crossesDomain 5 s.field.core.pupa x = false) →
      s.field.core.cmdq.opNext < 2 ^ 32 →
      Answers (.molt c flags) s fun t =>
        Completed c 0x0801 1 s.field.core.cmdq.opNext s t ∧
        t.field.core.cmdq.async = s.field.core.cmdq.async ++ [⟨s.field.core.cmdq.opNext, 0x0801, c.tag.toNat, c.q.val⟩] ∧
        t.field.core.tck.molt = some ⟨s.field.core.cmdq.opNext, s.field.core.pupa, slot, decide (flags = 1), false, false⟩ ∧
        t.field.core.rd TCK_STATUS.PUPA_STATE = 1 ∧ t.field.core.rd TCK_STATUS.MOLT_PENDING = 1 ∧
        t.field.core.rd SYS_BOOT.CKPT_MATCH = 0 ∧
        CommandFrame c 0x0801 [TCK_STATUS.PUPA_STATE.key 0, TCK_STATUS.MOLT_PENDING.key 0, SYS_BOOT.CKPT_MATCH.key 0] s t) ∧
    (CleanHeader c 0 → Runs c 0x0802 2 s → s.field.core.rd TCK_STATUS.PUPA_STATE = 2 →
      (s.field.core.staged s.field.core.pupa).isSome = true → s.field.core.tck.molt = none →
      s.field.core.tck.drill = none → s.field.core.cmdq.opNext < 2 ^ 32 → Answers (.swapDrill c) s fun t =>
        Completed c 0x0802 1 s.field.core.cmdq.opNext s t ∧
        t.field.core.cmdq.async = s.field.core.cmdq.async ++ [⟨s.field.core.cmdq.opNext, 0x0802, c.tag.toNat, c.q.val⟩] ∧
        t.field.core.tck.drill = some ⟨s.field.core.cmdq.opNext, false, 0, none⟩ ∧
        t.field.core.rd TCK_STATUS.DRILL_PENDING = 1 ∧ CommandFrame c 0x0802 [TCK_STATUS.DRILL_PENDING.key 0] s t)

/-! ### Jobs and their data (spec/06, spec/12) -/

/-- JOB_DEFINE of a descriptor that passes R494, with memory for its planes, makes a LOADING record (R491, R495); JOB_ARM of
a READY job whose settings hold arms it and answers its ceiling (R500); JOB_STATUS answers the record (R498); JOB_SWITCH_AT
far enough ahead is accepted and pends (R501); JOB_ABORT of a job that does not print ends it at once and frees its memory
(R506). -/
def Obligations.JobCommandsKeepTheRecord : Prop :=
  ∀ (c : Call) (id : Word) (s : State),
    (∀ (d : Bytes) (bars : List (Nat × JobBar)) (x : Core), BulkHeader c 4 d → Runs c 0x0200 1 s → d.length = 1088 → id ≠ 0 →
      id ≠ 0xFFFFFFFF → s.field.core.mem.reform = false → s.field.core.jobs.jobs.length < 8 →
      s.field.core.job? id.toNat = none → s.field.core.jobCheck d = none →
      s.field.core.allocBars d (jdBars d) = some (bars, x) → Answers (.jobDefine c id) s fun t =>
        Completed c 0x0200 0 0 s t ∧ (∃ j, t.field.core.job? id.toNat = some j ∧ j.state = 1 ∧ j.desc = d ∧ j.bars = bars ∧
          j.lines = leAt d 0xC 4 ∧ j.barMask = byteAt d 8) ∧ t.field.core.jobs.regions = x.jobs.regions ∧
        CommandFrame c 0x0200 [] s t) ∧
    (∀ j : Job, CleanHeader c 4 → Runs c 0x0203 1 s → s.field.core.job? id.toNat = some j → j.state = 2 →
      (∀ e ∈ j.bars, s.field.core.barPresent e.1 = true ∧
        lvlOk (scrOf (s.field.core.jobSet j e.1).scr) (s.field.core.lmax e.1) = true ∧
        stripOk (s.field.core.jobSet j e.1) (s.field.core.lmax e.1) = true ∧ s.field.core.shadows e.1 < 3) →
      Answers (.jobArm c id) s fun t => ∃ j', t.field.core.job? id.toNat = some j' ∧ j'.state = 3 ∧ j'.ceiling ≤ 160000 ∧
        j'.bars.map (·.1) = j.bars.map (·.1) ∧ (∀ e ∈ j'.bars, e.2.set = some (s.field.core.jobSet j e.1)) ∧
        Completed c 0x0203 0 j'.ceiling s t) ∧
    (∀ j : Job, CleanHeader c 4 → Runs c 0x0206 1 s → s.field.core.job? id.toNat = some j →
      Answers (.jobStatus c id) s fun t => ∃ result, Completed c 0x0206 0 result s t ∧ CommandFrame c 0x0206 [] s t ∧
        Quiet s.field.core t.field.core ∧ result % 2 ^ 32 = id.toNat ∧
        (j.state < 256 → result / 2 ^ 32 % 256 = j.state ∧
          ∀ b : Fin 8, (result / 2 ^ 40).testBit b.val = decide (s.field.core.rd JOBB_ACTIVE.JOB_ID b.val = id.toNat))) ∧
    (∀ (src : Word) (pos : BitVec 64) (j : Job), CleanHeader c 16 → Runs c 0x0204 1 s →
      s.field.core.liveJob? id.toNat = some j → j.state = 3 → src.toNat = s.field.core.tailJob →
      (src = 0 ∨ (s.field.core.liveJob? src.toNat).isSome = true) → s.field.core.jobs.switches.length < 3 →
      (s.field.core.jobs.switches.any fun w => w.dst == id.toNat) = false → pos.toNat < 2 ^ 38 →
      s.field.core.switchAhead (s.field.core.eitherBars src.toNat id.toNat) pos.toNat = true →
      (∀ b ∈ s.field.core.eitherBars src.toNat id.toNat,
        smodM (2 ^ 38) s.field.core.phi (posMod ((pos.toNat : Int) + s.field.core.delay b)) < 0) →
      s.field.core.cmdq.opNext < 2 ^ 32 →
      Answers (.jobSwitchAt c src id pos) s fun t =>
        Completed c 0x0204 1 s.field.core.cmdq.opNext s t ∧
        t.field.core.jobs.switches = s.field.core.jobs.switches ++ [⟨s.field.core.cmdq.opNext, src.toNat, id.toNat, pos.toNat,
          s.field.core.eitherBars src.toNat id.toNat, 0, 0⟩] ∧
        (t.field.core.job? id.toNat).map (·.pos) = some (some pos.toNat)) ∧
    (∀ (mode : Byte) (j : Job), CleanHeader c 8 → Runs c 0x0205 1 s → mode.toNat ≤ 1 → s.field.core.job? id.toNat = some j →
      1 ≤ j.state → j.state ≤ 3 → s.field.core.jobs.switches = [] → (∀ ld ∈ s.field.core.jobs.loads, ld.job ≠ id.toNat) →
      Answers (.jobAbort c id mode) s fun t =>
        Completed c 0x0205 0 0 s t ∧ (t.field.core.job? id.toNat).map (·.state) = some 7 ∧
        (∀ r ∈ t.field.core.jobs.regions, r.1 ∉ j.regions ∧ r ∈ s.field.core.jobs.regions) ∧
        s.field.core.Raised t.field.core 0x0C01 (id.toNat + at_ 4 j.state + at_ 5 7) ∧
        SameOutside [0x01, 0x05, 0x0F, 0x15, 0x1B] s.field.core t.field.core)

/-- Job data (R249 to R262, R267): JOB_LOAD_DATA of a whole stream starts a load with its data staged, and completes later;
JOB_STREAM_OPEN opens an empty ring; JOB_RING_APPEND adds its bytes behind those unread. With no ring to serve, the header
of the load in front starts its stream and takes its bands LOADING; its next block, here a STORED one whose CRC is right,
goes into the history and counts. -/
def Obligations.JobDataIsStagedAndDecoded : Prop :=
  (∀ (c : Call) (id : Word) (j : Job) (s : State), s.field.core.job? id.toNat = some j →
     (∀ (bar : Byte) (offset : BitVec 64) (jb : JobBar) (d : Bytes) (base : Nat) (x : Core), BulkHeader c 16 d →
       Runs c 0x0201 1 s → bar ≠ 0xFF → j.bar? bar.toNat = some jb → j.state = 1 → offset.toNat % 4 = 0 →
       offset.toNat < jb.planeLines → d.length ≤ 268435456 → s.field.core.allocJob d.length = some (base, x) →
       d.length ≤ s.field.core.jobFree → Answers (.jobLoadData c id bar offset) s fun t =>
         Started c 0x0201 t ∧ t.field.core.cmdq.done = s.field.core.cmdq.done ∧
         t.field.core.jobs.loads = s.field.core.jobs.loads ++
           [⟨refOf 0x0201 c, id.toNat, bar.toNat, offset.toNat, base, d.length, d, 0, none, 0, 0⟩] ∧
         t.field.core.jobs.regions = x.jobs.regions ∧ t.field.dram.cells = s.field.dram.cells) ∧
     (∀ (mask : Byte) (size : Word) (base hist : Nat) (x y : Core), CleanHeader c 12 → Runs c 0x0202 1 s → mask ≠ 0 →
       (∀ b : Fin 8, mask.toNat.testBit b.val = true → j.barMask.testBit b.val = true) → size.toNat % 4096 = 0 →
       8388608 ≤ size.toNat → size.toNat ≤ 1073741824 →
       size.toNat + 262144 * (maskBits 8 mask.toNat).length ≤ s.field.core.jobFree → j.state = 1 → j.ring = none →
       s.field.core.allocJob size.toNat = some (base, x) →
       x.allocJob (262144 * (maskBits 8 mask.toNat).length) = some (hist, y) →
       Answers (.jobStreamOpen c id mask size) s fun t =>
         Completed c 0x0202 0 0 s t ∧ (t.field.core.job? id.toNat).bind (·.ring) =
           some ⟨base, size.toNat, hist, [], 0, false, mask.toNat, [], false, 0, false⟩ ∧
         t.field.core.jobs.regions = y.jobs.regions ∧ CommandWithin c 0x0202 [0x05] s t) ∧
     (∀ (r : Ring) (d : Bytes), BulkHeader c 16 d → Runs c 0x0201 1 s → j.ring = some r → j.opened = true → r.dead = false →
       r.segs = [] → d.length ≤ r.size - r.bytes.length → d.length ≤ 268435456 → Answers (.jobRingAppend c id 0) s fun t =>
         Completed c 0x0201 0 0 s t ∧
         (t.field.core.job? id.toNat).bind (·.ring) = some { r with bytes := r.bytes ++ d } ∧
         t.field.core.jobs.jobs.length = s.field.core.jobs.jobs.length ∧ t.field.dram.cells = s.field.dram.cells ∧
         SameOutside [0x01, 0x04, 0x05, 0x1B] s.field.core t.field.core)) ∧
  (∀ (s : State) (ld : Load) (rest : List Load) (j : Job) (jb : JobBar), s.field.core.bootState ≠ 1 → DramSound s →
     (∀ j' ∈ s.field.core.jobs.jobs, j'.ring = none) → s.field.core.jobs.loads = ld :: rest →
     s.field.core.job? ld.job = some j → j.bar? ld.bar = some jb →
     (∀ h : SkHeader, ld.stream = none → ld.data.length ≥ 16 → skHeader ld.data false = some h → h.bar = ld.bar →
       h.dpi = jb.dpi → h.width = jb.width → ld.offset + h.lines ≤ jb.planeLines →
       (∀ i, i < h.lines / 4 → jb.band (ld.offset / 4 + i) = 0) → Answers .skelreStreamHeader s fun t =>
         t.field.core.jobs.loads.head? = some { ld with pos := 16, stream := some (skStart h),
                                                        first := ld.offset / 4, count := h.lines / 4 } ∧
         (∀ i, i < h.lines / 4 → ((t.field.core.job? ld.job).bind (·.bar? ld.bar)).map (·.band (ld.offset / 4 + i)) = some 1) ∧
         SameRegs activateKeys s.field.core t.field.core ∧ t.field.core.cmdq = s.field.core.cmdq ∧ CoreOnly s t) ∧
     (∀ (st : SkStream) (n : Nat), ld.stream = some st → skBlock (ld.data.drop ld.pos) = ⟨0, ld.bar, 0, n, n⟩ → 0 < n →
       n ≤ 4194304 → 16 + n ≤ (ld.data.drop ld.pos).length → st.total + n ≤ streamBytes st.width st.lines →
       crc32c (((ld.data.drop ld.pos).drop 12).take n) = leAt (ld.data.drop ld.pos) (12 + n) 4 →
       Answers (.skelreBlockDecode none) s fun t =>
         (∃ ld' st', t.field.core.jobs.loads.head? = some ld' ∧ ld'.pos = ld.pos + 16 + n ∧ ld'.stream = some st' ∧
           st'.total = st.total + n ∧
           st'.hist = ((((ld.data.drop ld.pos).drop 12).take n).reverse ++ st.hist).take 262144) ∧
         t.field.core.rd SKD_BLOCK_CNT.COUNT = satU SKD_BLOCK_CNT.COUNT.width (s.field.core.rd SKD_BLOCK_CNT.COUNT + 1) ∧
         t.field.core.cmdq = s.field.core.cmdq ∧ t.host = s.host))


/-! ### The press description and the nozzle path (spec/07) -/

/-- PRESS_LOAD of a description that passes R299 puts it in force whole and queues it for flash (R300); GEO_SET of a present
head within its ranges sets its offset, step and skew (R307); NOZZLE_MAP_LOAD of entries of no head takes effect at once,
keeping each entry's ERR, and of entries of heads waits for their line boundary (R313 to R315). -/
def Obligations.PressSettingsTakeForce : Prop :=
  ∀ (c : Call) (s : State),
    (∀ d : Bytes, BulkHeader c 0 d → Runs c 0x0400 2 s → d.length = 6464 → s.field.core.armedOrPrinting = false →
      pressCheck d = none → (∀ l, (s.field.core.ln l).headEnd = none) → s.field.core.flash.waiting.length < 1024 →
      Answers (.pressLoad c) s fun t =>
        Completed c 0x0400 0 0 s t ∧ t.field.core.press.desc = d ∧ t.field.core.rd GEO_PRESS.LOADED = 1 ∧
        t.field.core.rd GEO_PRESS.LPI = byteAt d 6 ∧ t.field.core.rd GEO_PRESS.BAR_MASK = byteAt d 7 ∧
        t.field.core.rd GEO_PRESS_CRC.CRC = leAt d 0x1C 4 ∧
        (∀ m : Fin 24, t.field.core.segBar m.val = byteAt d (0x120 + m.val)) ∧
        (∀ h : Fin 192, t.field.core.nozzles h.val =
          if byteAt d (headRec h.val) = 0 then 0 else leAt d (headRec h.val + 4) 2) ∧
        FlashOp.press d ∈ t.field.core.flash.queue ∧
        CommandWithin c 0x0400 [0x08, 0x09, 0x0A, 0x0C, 0x11, 0x14, 0x15, 0x16] s t) ∧
    (∀ (h skew : Byte) (off step : Word), CleanHeader c 16 → Runs c 0x0401 2 s → h.toNat < 192 →
      s.field.core.headPresent h.toNat = true → 0x4000 ≤ (sgn 32 step.toNat).natAbs → (sgn 32 step.toNat).natAbs ≤ 0x20000 →
      skew.toNat ≤ 63 → s.field.core.spanWith h.toNat off.toNat (sgn 32 step.toNat) ≤ 16384 →
      s.field.core.flash.waiting.length < 1024 →
      Answers (.geoSet c h off step skew) s fun t =>
        Completed c 0x0401 0 0 s t ∧ t.field.core.rd HDC_GEO_OFFSET.OFFSET h.toNat = off.toNat ∧
        t.field.core.rd HDC_GEO_STEP.STEP h.toNat = step.toNat ∧ t.field.core.rd HDC_GEO_SKEW.SKEW h.toNat = skew.toNat ∧
        FlashOp.press t.field.core.press.desc ∈ t.field.core.flash.queue ∧
        CommandFrame c 0x0401 [HDC_GEO_OFFSET.OFFSET.key h.toNat, HDC_GEO_STEP.STEP.key h.toNat,
          HDC_GEO_SKEW.SKEW.key h.toNat, GEO_PRESS_CRC.CRC.key 0, THM_DEFER.QUEUED.key 0, THM_DEFER.FLASH_HOLD.key 0,
          THM_DEFER_CNT.FLASH.key 0] s t) ∧
    (∀ (b : Fin 8) (firstK count : Word) (d : Bytes), BulkHeader c 12 d → Runs c 0x0402 2 s →
      s.field.core.barPresent b.val = true → 1 ≤ count.toNat → firstK.toNat + count.toNat ≤ 131072 →
      d.length = 8 * count.toNat → (∀ i, i < count.toNat → leAt d (8 * i) 8 < 2 ^ 47) →
      (∀ e ∈ s.field.core.press.nsm, nozTwin e.2 = false) → s.field.core.csv.stages = [] →
      ((∀ i, i < count.toNat → s.field.core.headOfKey b.val (firstK.toNat + i) = none) →
        Answers (.nozzleMapLoad c (BitVec.ofNat 8 b.val) firstK count) s fun t =>
          Completed c 0x0402 0 0 s t ∧ (∀ i, i < count.toNat → t.field.core.noz b.val (firstK.toNat + i) =
            nozApply (s.field.core.noz b.val (firstK.toNat + i)) (leAt d (8 * i) 8) % 2 ^ 64) ∧
          t.field.core.press.stages = s.field.core.press.stages ∧ CommandWithin c 0x0402 [] s t) ∧
      (∀ h : Nat, (∀ i, i < count.toNat → s.field.core.headOfKey b.val (firstK.toNat + i) = some h) →
        Answers (.nozzleMapLoad c (BitVec.ofNat 8 b.val) firstK count) s fun t =>
          Started c 0x0402 t ∧ t.field.core.cmdq.done = s.field.core.cmdq.done ∧
          (∃ g ∈ t.field.core.press.stages, g.head = h ∧ g.servo = false ∧ g.ref = some (refOf 0x0402 c) ∧
            g.entries = (List.range count.toNat).map fun i => (nozKey b.val (firstK.toNat + i), leAt d (8 * i) 8)) ∧
          t.field.core.press.nsm = s.field.core.press.nsm ∧ CommandWithin c 0x0402 [] s t))

/-- LINE_SCREEN (R305, R323, R331, R439): a link whose engine has a next line of an armed job, and room for it on every attached
head, screens it unless a DRAM channel retrains: each head of the link that is attached, or has room, and has not issued it takes
one line more in staging, and the engine goes on to the next web line index. -/
def Obligations.ScreenedLinesAreStaged : Prop :=
  ∀ (l : Fin 24) (s : State) (w line : Nat) (j : Job) (jb : JobBar) (js : JobSet), s.field.core.bootState ≠ 1 →
    s.field.core.segBar l.val ≤ 7 →
    s.field.core.nextLine (s.field.core.segBar l.val) (s.field.core.scr l.val).nextW = some (w, j, jb, line) →
    jb.set = some js → (∀ ch ∈ s.field.core.mem.layout, ch < 4) →
    (∀ ch, ch < 4 → s.field.core.rd MEMC_STATUS.STATE ch ≠ 3) →
    (∀ h ∈ s.field.core.headsOn l.val, s.field.core.attached h = true → (s.field.core.hf h).staged.length < 16) →
    Answers (.lineScreen l none [] [] none) s fun t =>
      (t.field.core.scr l.val).nextW = some (lineAdd w 1) ∧
      (∀ h ∈ s.field.core.headsOn l.val, (s.field.core.attached h = true ∨ (s.field.core.hf h).staged.length < 16) →
        (s.field.core.hf h).nextW = none →
        ∃ x, (t.field.core.hf h).staged = (s.field.core.hf h).staged ++ [x] ∧ x.job = j.id ∧ x.w = w ∧ x.l = line ∧
          x.seq = none) ∧
      t.host = s.host ∧ t.pending = s.pending ∧ t.field.dram.cells = s.field.dram.cells

/-! ### Firing and pacing (spec/09) -/

/-- The keys of every bar's SPG_b_FIRE. -/
def fireKeys : List Nat := (List.range 8).map (SPGB_FIRE.CAUSE.key ·) ++ (List.range 8).map (SPGB_FIRE.FIRING.key ·)
/-- Does BAR_MASK name the bar? 0 names every present bar (R392). -/
def named (mask : Byte) (b : Nat) (s : Core) : Bool := if mask = 0 then s.barPresent b else mask.toNat.testBit b

/-- Firing (R391 to R395): FIRE_ENABLE 0 sets the DISABLED cause on the bars it names, FIRE_ENABLE 1 with nothing standing
against it clears every cause of them, STOP_FIRE sets STOP; the other bars keep theirs. FIRE_INHIBIT_HEAD sets and clears an
attached head's inhibit. A SAFE channel that goes sets SAFE on every bar and closes its feedback contact, and one that comes back
opens it and leaves SAFE set; a difference of the two that lasts 100 ms is a discrepancy, which ends once both are
de-energised. -/
def Obligations.FiringFollowsCausesAndSafe : Prop :=
  (∀ (c : Call) (mask : Byte) (s : State), CleanHeader c 4 →
    (∀ b : Fin 8, mask.toNat.testBit b.val = true → s.field.core.barPresent b.val = true) →
    (Runs c 0x0300 1 s → Answers (.fireEnable c mask 0) s fun t =>
      Completed c 0x0300 0 0 s t ∧ CommandFrame c 0x0300 fireKeys s t ∧
      ∀ b : Fin 8, if named mask b.val s.field.core then (t.field.core.causes b.val).testBit 1 = true
        else t.field.core.causes b.val = s.field.core.causes b.val) ∧
    (Runs c 0x0300 1 s → s.field.core.rd SPG_STATUS.SAFE_A = 1 → s.field.core.rd SPG_STATUS.SAFE_B = 1 →
      s.field.core.rd SPG_STATUS.SAFE_DISC = 0 → s.field.core.rd THM_STATUS.TRIP = 0 →
      s.field.core.rd POS_WEB_STATUS.LOST = 0 → s.field.core.rd SPG_STATUS.LOCK = 1 →
      (∀ b : Fin 8, named mask b.val s.field.core = true → (s.field.core.causes b.val).testBit 7 = false) →
      Answers (.fireEnable c mask 1) s fun t =>
        Completed c 0x0300 0 0 s t ∧ CommandFrame c 0x0300 fireKeys s t ∧
        ∀ b : Fin 8, if named mask b.val s.field.core then
            t.field.core.causes b.val = 0 ∧ t.field.core.rd SPGB_FIRE.FIRING b.val = 1
          else t.field.core.causes b.val = s.field.core.causes b.val) ∧
    (Runs c 0x0301 1 s → Answers (.stopFire c mask) s fun t =>
      Completed c 0x0301 0 0 s t ∧ CommandFrame c 0x0301 fireKeys s t ∧
      ∀ b : Fin 8, if named mask b.val s.field.core then (t.field.core.causes b.val).testBit 2 = true
        else t.field.core.causes b.val = s.field.core.causes b.val)) ∧
  (∀ (c : Call) (h : Byte) (s : State), CleanHeader c 4 → Runs c 0x0302 1 s → h.toNat < 192 →
    s.field.core.headPresent h.toNat = true → s.field.core.attached h.toNat = true →
    (Answers (.fireInhibitHead c h 1) s fun t =>
      Completed c 0x0302 0 0 s t ∧ t.field.core.rd HDC_FIRE.HOST_INH h.toNat = 1 ∧
      CommandFrame c 0x0302 [HDC_FIRE.HOST_INH.key h.toNat] s t) ∧
    (s.field.core.rd HDC_FIRE.TRIP h.toNat = 0 → Answers (.fireInhibitHead c h 0) s fun t =>
      Completed c 0x0302 0 0 s t ∧ t.field.core.rd HDC_FIRE.HOST_INH h.toNat = 0 ∧
      CommandFrame c 0x0302 [HDC_FIRE.HOST_INH.key h.toNat, HDC_FIRE.TRIP.key h.toNat] s t)) ∧
  (∀ (chB : Bool) (s : State), s.field.core.bootState ≠ 1 →
    let chan := if chB then SPG_STATUS.SAFE_B else SPG_STATUS.SAFE_A
    let other := s.field.core.rd (if chB then SPG_STATUS.SAFE_A else SPG_STATUS.SAFE_B)
    (Answers (.safeInhibit chB) s fun t =>
      t.field.core.rd chan = 0 ∧ t.field.core.safeFbClosed chB = true ∧
      t.field.core.rd SPG_STATUS.SAFE_DISC = (if other = 0 then 0 else s.field.core.rd SPG_STATUS.SAFE_DISC) ∧
      t.field.core.spg.safeAt = (if s.field.core.rd chan = 0 then s.field.core.spg.safeAt
        else if other = 1 then some s.field.core.etime else none) ∧
      (∀ b : Fin 8, (t.field.core.causes b.val).testBit 3 = true) ∧
      t.field.core.newest 0x0803 = some (0x0803, t.field.core.safeBits % 2 ^ 128) ∧
      SameRegs (chan.key 0 :: SPG_STATUS.SAFE_DISC.key 0 :: LOG_EVT_OVWR_CNT.COUNT.key 0 :: fireKeys)
        s.field.core t.field.core ∧ CoreOnly s t) ∧
    (Answers (.safeEnergised chB) s fun t =>
      t.field.core.rd chan = 1 ∧ t.field.core.safeFbClosed chB = false ∧
      t.field.core.spg.safeAt = (if s.field.core.rd chan = 1 then s.field.core.spg.safeAt
        else if other = 0 then some s.field.core.etime else none) ∧
      t.field.core.rd SPG_STATUS.SAFE_DISC =
        (if s.field.core.safeBits = 0 then 0 else s.field.core.rd SPG_STATUS.SAFE_DISC) ∧
      (∀ b : Fin 8, t.field.core.causes b.val = s.field.core.causes b.val) ∧
      t.field.core = { s.field.core with regs := t.field.core.regs, spg := { s.field.core.spg with
        safeAt := t.field.core.spg.safeAt } } ∧
      SameRegs [chan.key 0, SPG_STATUS.SAFE_DISC.key 0] s.field.core t.field.core ∧ CoreOnly s t) ∧
    (∀ t0 : Nat, s.field.core.spg.safeAt = some t0 → s.field.core.rd SPG_STATUS.SAFE_A = b2n chB → s.field.core.rd SPG_STATUS.SAFE_B = b2n (!chB) →
      s.field.core.rd SPG_STATUS.SAFE_DISC = 0 → Answers .safeDiscrepancy s fun t =>
        t.field.core.rd SPG_STATUS.SAFE_DISC = 1 ∧ t.field.core.etime = max s.field.core.etime (t0 + 100000000) ∧
        s.field.core.Raised t.field.core 0x0804 (b2n chB) ∧
        SameRegs [SPG_STATUS.SAFE_DISC.key 0, LOG_EVT_OVWR_CNT.COUNT.key 0] s.field.core t.field.core ∧
        QuietEvents { s.field.core with etime := t.field.core.etime } t.field.core ∧ CoreOnly s t))

/-- The loop (R383 to R387): a write of SPG_LPC takes effect with its high half and sets p to m and v and a to 0; an update
lands on the next multiple of 1 µs, holds p while the web source is lost, and otherwise moves p, v and a by the loop's step
from the error m less p; SPG_POS shows φ. With no job and nothing due. -/
def Obligations.LoopFollowsTheWeb : Prop :=
  (∀ (c : Call) (v : Word) (low : Nat) (s : State), CleanHeader c 8 → Runs c 0x0101 2 s → s.field.core.cdc.out = [] →
    s.field.core.armedOrPrinting = false → low < 2 ^ 32 →
    (Answers (.spgLpcWrite c false v) s fun t =>
      Completed c 0x0101 0 0 s t ∧ mget 0 t.field.core.lo (SPG_LPC_LO.LPC.addr 0) = v.toNat + 1 ∧
      CommandFrame c 0x0101 [] s t) ∧
    (mget 0 s.field.core.lo (SPG_LPC_LO.LPC.addr 0) = low + 1 → Answers (.spgLpcWrite c true v) s fun t =>
      Completed c 0x0101 0 0 s t ∧ t.field.core.lpc = low + 2 ^ 32 * (v.toNat % 65536) ∧
      t.field.core.spg.p = mOf s.field.core.webCount (low + 2 ^ 32 * (v.toNat % 65536)) s.field.core.spg.o ∧
      t.field.core.spg.v = 0 ∧ t.field.core.spg.a = 0 ∧
      CommandFrame c 0x0101 [SPG_LPC_LO.LPC.key 0, SPG_LPC_HI.LPC.key 0] s t)) ∧
  (∀ s : State, s.field.core.bootState ≠ 1 → s.field.core.jobs.jobs = [] →
    (s.field.core.rd POS_WEB_STATUS.LOST = 1 → Answers .loopUpdate s fun t =>
      t.field.core.etime = max s.field.core.etime (max (s.field.core.spg.upd + 1000) (alignUp s.field.core.etime 1000)) ∧
      t.field.core.spg = { s.field.core.spg with v := 0, a := 0, upd := t.field.core.etime } ∧
      t.field.core.rd2 SPG_POS_LO.POS SPG_POS_HI.POS = s.field.core.phi ∧ t.field.core.rd SPG_RATE.HZ = 0 ∧
      SameRegs [SPG_POS_LO.POS.key 0, SPG_POS_HI.POS.key 0, SPG_RATE.HZ.key 0, SPG_STATUS.REVERSE.key 0,
        SPG_STATUS.MOVING.key 0] s.field.core t.field.core ∧ CoreOnly s t) ∧
    (s.field.core.rd POS_WEB_STATUS.LOST = 0 → NothingDue s.field.core → s.field.core.allHeads = [] →
      s.field.core.spg.o = 0 → Answers .loopUpdate s fun t =>
        (t.field.core.spg.p, t.field.core.spg.v, t.field.core.spg.a) =
          loopStep (s.field.core.rd SPG_CFG.BW_HZ) s.field.core.spg.p s.field.core.spg.v s.field.core.spg.a
            (sgn 64 (twos 64 (mOf s.field.core.webCount s.field.core.lpc 0 - s.field.core.spg.p))) ∧
        t.field.core.spg.o = 0 ∧ t.field.core.rd2 SPG_POS_LO.POS SPG_POS_HI.POS = s.field.core.phi ∧
        t.field.core.rd SPG_STATUS.REVERSE = (if t.field.core.spg.v < 0 then 1 else 0) ∧
        SameOutside [0x11, 0x1B] s.field.core t.field.core ∧ CoreOnly s t))

/-! ### Head links (spec/10) -/

/-- Present and training (R412, R426 to R429): a present link of running firmware starts training when EN is set; a missed step puts
it DOWN with its reason, counts and waits 100 ms; the restart trains it again; an attempt whose HELLO, echoes and STATUS pass every
step comes UP at LAT_NS and LEAD_MIN_NS from its echoes and its HELLO, the first TIME at a multiple of 10,000 ns, with its heads
waiting while the head end's memory cannot be read. -/
def Obligations.HeadLinksTrainAndFail : Prop :=
  ∀ (l : Fin 24) (s : State), s.field.core.bootState ≠ 1 →
    (s.field.core.rd HLK_STATUS.PRSNT l.val = 0 → Answers (.hlPresent l) s fun t =>
      t.field.core.rd HLK_STATUS.PRSNT l.val = 1 ∧
      t.field.core.linkState l.val = (if s.field.core.fwRuns = true ∧ s.field.core.rdb HLK_CFG.EN l.val = true then 2
        else s.field.core.linkState l.val) ∧
      SameRegs [HLK_STATUS.PRSNT.key l.val, HLK_STATUS.STATE.key l.val] s.field.core t.field.core ∧ CoreOnly s t) ∧
    (s.field.core.linkState l.val = 2 →
      ∀ (r : Fin 6) (i : Instr), r ≠ 0 →
        (i = .hlTrainFail l r ∨ (r = 1 ∧ ∃ x : TrainIn, x.lock = false ∧ i = trainRow l x)) →
        Answers i s fun t =>
          t.field.core.linkState l.val = 0 ∧ t.field.core.rd HLK_STATUS.TRAIN_FAIL l.val = r.val ∧
          t.field.core.rd HLK_LOSS_CNT.TRAIN_FAILS l.val = satU 16 (s.field.core.rd HLK_LOSS_CNT.TRAIN_FAILS l.val + 1) ∧
          (t.field.core.ln l.val).tx = false ∧ (t.field.core.ln l.val).restartAt = some (s.field.core.etime + 100000000) ∧
          ((s.field.core.ln l.val).failSaidAt = none → s.field.core.Raised t.field.core 0x0903
            (l.val + at_ 1 r.val + at_ 4 (satU 32 ((s.field.core.ln l.val).failsUnsaid + 1)))) ∧
          SameRegs [HLK_STATUS.STATE.key l.val, HLK_STATUS.TRAIN_FAIL.key l.val, HLK_STATUS.RET_LOCK.key l.val,
            HLK_LOSS_CNT.TRAIN_FAILS.key l.val, LOG_EVT_OVWR_CNT.COUNT.key 0] s.field.core t.field.core ∧ CoreOnly s t) ∧
    (∀ at' : Nat, (s.field.core.ln l.val).restartAt = some at' → s.field.core.linkState l.val = 0 →
      s.field.core.rdb HLK_CFG.EN l.val = true → s.field.core.rdb HLK_STATUS.PRSNT l.val = true →
      Answers (.hlTrainRestart l) s fun t =>
        t.field.core.linkState l.val = 2 ∧ t.field.core.etime = max s.field.core.etime at' ∧
        (t.field.core.ln l.val).tx = true ∧ (t.field.core.ln l.val).restartAt = none ∧
        SameRegs [HLK_STATUS.STATE.key l.val] s.field.core t.field.core ∧ CoreOnly s t) ∧
    (∀ (x : TrainIn) (hello status : Bytes) (tokens setup : Nat) (st : Bool × Nat × Nat),
      let lat := echoLat ((x.echoes.take 16).filterMap fun p => (turnOf p.2).map fun n => (p.1.toNat, n))
      s.field.core.linkState l.val = 2 → x.hello = some hello → helloOf hello = some (1, tokens, setup) → 4 ≤ tokens →
      100 ≤ setup → setup ≤ 5000 → 16 ≤ x.echoes.length → (∀ p ∈ x.echoes.take 16, (turnOf p.2).isSome = true) → lat ≤ 50 →
      x.lock = true → x.status = some status → status0Of status = some st → x.found.lost = none →
      Answers (trainRow l x) s fun t =>
        t.field.core.linkState l.val = 4 ∧
        t.field.core.rd2 HLK_UP_ETIME_LO.ETIME HLK_UP_ETIME_HI.ETIME l.val = t.field.core.etime % 2 ^ 64 ∧
        t.pending = s.pending ∧ t.host = s.host ∧ t.field.dram = s.field.dram ∧
        (idGot x.headEnd = none → (s.field.core.ln l.val).reattach = [] →
          t.field.core.rd HLK_STATUS.RET_LOCK l.val = 1 ∧ t.field.core.rd HLK_HELLO.SETUP_NS l.val = setup ∧
          t.field.core.rd HLK_HELLO.TOKENS l.val = tokens ∧ t.field.core.rd HLK_HELLO.VERSION l.val = 1 ∧
          t.field.core.rd HLK_LAT.LAT_NS l.val = lat ∧
          t.field.core.rd HLK_LAT.LEAD_MIN_NS l.val = alignUp (600 + lat + setup) 100 ∧
          t.field.core.rd HLK_SLOT_THERM.OHMS (8 * l.val) = st.2.2 ∧
          t.field.core.rd HLK_STATUS.HE_REASON l.val = 1 ∧
          t.field.core.etime = alignUp s.field.core.etime 10000 + idWaits x.headEnd ∧
          timeBlock (alignUp s.field.core.etime 10000 + lat) ∈ (t.field.core.ln l.val).out ∧
          (t.field.core.ln l.val).rxSeq = (x.found.seq.toNat + 1) % 256 ∧
          (∀ g ∈ s.field.core.headsOn l.val, t.field.core.headState g = 1) ∧
          t.field.core.newest 0x0901 =
            some (0x0901, l.val + at_ 2 lat + at_ 4 (alignUp (600 + lat + setup) 100))))

/-- The link carries no issued line, no crossing is TIMED_OUT, and none that touches the link has a request outstanding. -/
def LinkIdle (l : Nat) (s : Core) : Prop :=
  (∀ h ∈ s.headsOn l, (s.hf h).issued = []) ∧ s.cdc.out = [] ∧ ∀ x ∈ s.cdc.req.map (·.1), crossesDomain 9 l x = false
/-- The registers that the loss of a link changes. -/
def lossKeys (l : Nat) (s : Core) : List Nat :=
  [HLK_STATUS.STATE.key l, HLK_STATUS.LOSS_CAUSE.key l, HLK_STATUS.RET_LOCK.key l, HLK_LOSS_CNT.LOSSES.key l,
   LOG_EVT_OVWR_CNT.COUNT.key 0] ++
  (s.headsOn l).flatMap fun h => [HDC_ID_STATUS.STATE.key h, HDC_ID_STATUS.REASON.key h, HDC_ID_STATUS.USAGE_FRESH.key h,
    HDC_FIRE.FIRING.key h, HDC_FIRE.PENDING.key h]
/-- The blocks that leave link `l` when `bs` leave in one step: with the ALIGN blocks due among them (R412, R413). -/
def leaving (l : Nat) (bs : List Bytes) (s : Core) : List Bytes := ((s.ln l).send bs).out
/-- What the loss of a link leaves (R439). -/
structure LinkLost (l cause : Nat) (s t : Core) : Prop where
  why : t.rd HLK_STATUS.LOSS_CAUSE l = cause
  count : t.rd HLK_LOSS_CNT.LOSSES l = satU 16 (s.rd HLK_LOSS_CNT.LOSSES l + 1)
  lock : t.rd HLK_STATUS.RET_LOCK l = 0
  off : (t.ln l).tx = false ∧ (t.ln l).tokens = [] ∧ (t.ln l).sb = []
  inhibit : (t.ln l).out = if s.linkState l < 2 then [] else leaving l [inhibitBlock 255 4] (s.openLink l)
  event : s.Raised t 0x0902 (l + at_ 1 cause)
  heads : ∀ h ∈ s.headsOn l, t.headState h = 1

/-- Link loss (R437 to R439): presence, lock, a silent return lane and a token without its CONFIRM each end the link with their
cause, count, HL_LINK_LOST, an INHIBIT of every slot and waiting heads; the two that wait for a time end it at that time. A
sideband read that finds no answer is sent again (R148). Stated for a link with no line issued and, of the read, where no RACK
waits. -/
def Obligations.LossesEndALink : Prop :=
  ∀ (l : Fin 24) (s : State), s.field.core.bootState ≠ 1 →
    (∀ (i : Instr) (cause : Nat), LinkIdle l.val s.field.core →
      (i = .hlPresentLost l ∧ cause = 1 ∧ s.field.core.rd HLK_STATUS.PRSNT l.val = 1) ∨
        (i = .retLockLost l ∧ cause = 2 ∧ 2 ≤ s.field.core.linkState l.val) ∨
        (i = .retSilent l ∧ cause = 3 ∧ s.field.core.linkState l.val = 4) ∨
        (i = .confTimeout l ∧ cause = 5 ∧ s.field.core.linkState l.val = 4 ∧
          ∃ k ∈ (s.field.core.ln l.val).tokens, k.due (s.field.core.rd HLK_CFG.CONF_TO_US l.val) ≠ none) →
      Answers i s fun t =>
        LinkLost l.val cause s.field.core t.field.core ∧
        t.field.core.linkState l.val = (if s.field.core.rdb HLK_CFG.EN l.val then 0 else 1) ∧
        (i = .hlPresentLost l → t.field.core.rd HLK_STATUS.PRSNT l.val = 0 ∧
          (t.field.core.ln l.val).restartAt = none ∧ t.field.core.etime = s.field.core.etime) ∧
        (i = .retLockLost l → t.field.core.etime = s.field.core.etime) ∧
        (i = .retSilent l → t.field.core.etime = max s.field.core.etime ((s.field.core.ln l.val).lastMsg + 50000)) ∧
        (i = .confTimeout l → ∀ d ds, (s.field.core.ln l.val).tokens.filterMap
            (fun k => k.due (s.field.core.rd HLK_CFG.CONF_TO_US l.val)) = d :: ds →
          t.field.core.etime = max s.field.core.etime (ds.foldl min d)) ∧
        SameRegs (HLK_STATUS.PRSNT.key l.val :: lossKeys l.val s.field.core) s.field.core t.field.core ∧ CoreOnly s t) ∧
    (∀ q : SbReq, s.field.core.linkState l.val = 4 → (s.field.core.ln l.val).sb.find? (!·.write) = some q → q.fails < 2 →
      (s.field.core.hr (8 * l.val + q.target)).write.all (·.outcome == 0) = true →
      s.field.core.rd FIJ_STATUS.ARMED = 0 → s.field.core.fij.held = [] → (s.field.core.ln l.val).rack = none →
      Answers (.sidebandReadTimeout l) s fun t =>
        q.sentAt + 10000000 ≤ t.field.core.etime ∧
        (t.field.core.ln l.val).sb = dropFirst (· == q) (s.field.core.ln l.val).sb ++
          [{ q with fails := q.fails + 1, sentAt := t.field.core.etime }] ∧
        sbBlock q ∈ (t.field.core.ln l.val).out ∧ t.field.core.regs = s.field.core.regs ∧ CoreOnly s t)

/-- What the host sets on a link (R417, R419, R439, R441, R442): EN written 0 drops it and holds it DISABLED, EN written 1 lets it
train; a waveform word is stored with W0 held 0; a link that the press does not have keeps its reset values (R14); LINK_REATTACH is
accepted and drops the link, and ends in error when the link is not UP in time. Stated while no job is armed or prints and no line
is issued on the link. -/
def Obligations.LinkSettingsAndReattach : Prop :=
  ∀ (l : Fin 24) (s : State), s.field.core.armedOrPrinting = false → LinkIdle l.val s.field.core →
    (∀ (c : Call) (v : Word), CleanHeader c 8 → Runs c 0x0101 2 s →
      if 8 ≤ s.field.core.segBar l.val then
        (∀ i ∈ [Instr.hlkEnWrite c l v, .hlkLvlMapWrite c l v], Answers i s fun t =>
          Completed c 0x0101 0 0 s t ∧ t.field.core.hlk = s.field.core.hlk ∧ CommandFrame c 0x0101 [] s t)
      else
      (s.field.core.rd HLK_CFG.EN l.val = 1 → v.toNat % 2 = 0 → Answers (.hlkEnWrite c l v) s fun t =>
        Completed c 0x0101 0 0 s t ∧ t.field.core.rd HLK_CFG.EN l.val = 0 ∧ t.field.core.linkState l.val = 1 ∧
        (t.field.core.ln l.val).tx = false ∧ (t.field.core.ln l.val).restartAt = none ∧
        LinkLost l.val 7 s.field.core t.field.core ∧
        CommandFrame c 0x0101 ([HLK_CFG.EN.key l.val, HLK_CFG.AUTO.key l.val, HLK_CFG.TX_EQ.key l.val,
          HLK_CFG.CONF_TO_US.key l.val, HLK_STATUS.STATE.key l.val] ++ lossKeys l.val s.field.core) s t) ∧
      (s.field.core.rd HLK_CFG.EN l.val = 0 → v.toNat % 2 = 1 → Answers (.hlkEnWrite c l v) s fun t =>
        Completed c 0x0101 0 0 s t ∧ t.field.core.rd HLK_CFG.EN l.val = 1 ∧
        t.field.core.linkState l.val = (if s.field.core.rdb HLK_STATUS.PRSNT l.val then 2 else 0) ∧
        CommandFrame c 0x0101 [HLK_CFG.EN.key l.val, HLK_CFG.AUTO.key l.val, HLK_CFG.TX_EQ.key l.val,
          HLK_CFG.CONF_TO_US.key l.val, HLK_STATUS.STATE.key l.val] s t) ∧
      (Answers (.hlkLvlMapWrite c l v) s fun t =>
        Completed c 0x0101 0 0 s t ∧ t.field.core.levelMap l.val = v.toNat / 16 * 16 ∧
        CommandFrame c 0x0101 [HLK_LVL_MAP.W1.key l.val, HLK_LVL_MAP.W2.key l.val, HLK_LVL_MAP.W3.key l.val,
          HLK_LVL_MAP.W4.key l.val, HLK_LVL_MAP.W5.key l.val, HLK_LVL_MAP.W6.key l.val, HLK_LVL_MAP.W7.key l.val] s t)) ∧
    (∀ c : Call, CleanHeader c 4 → Runs c 0x0902 2 s → s.field.core.segBar l.val ≠ 0xFF →
      s.field.core.rd HLK_STATUS.PRSNT l.val = 1 → s.field.core.rd PWR_SUPPLY.PF = 0 → s.field.core.cmdq.opNext < 2 ^ 32 →
      Answers (.linkReattach c (BitVec.ofNat 8 l.val)) s fun t =>
        Completed c 0x0902 1 s.field.core.cmdq.opNext s t ∧
        t.field.core.cmdq.async = s.field.core.cmdq.async ++ [⟨s.field.core.cmdq.opNext, 0x0902, c.tag.toNat, c.q.val⟩] ∧
        (t.field.core.ln l.val).reattach =
          (s.field.core.ln l.val).reattach ++ [(s.field.core.cmdq.opNext, s.field.core.etime + 5000000000)] ∧
        LinkLost l.val 7 s.field.core t.field.core ∧
        t.field.core.linkState l.val = (if s.field.core.rdb HLK_CFG.EN l.val then 0 else 1) ∧
        (t.field.core.ln l.val).restartAt =
          (if s.field.core.rdb HLK_CFG.EN l.val then some (s.field.core.etime + 10000000) else none) ∧
        CommandFrame c 0x0902 (lossKeys l.val s.field.core) s t) ∧
    (∀ (op due : Nat) (rest : List (Nat × Nat)) (a : AsyncOp), s.field.core.bootState ≠ 1 →
      (s.field.core.ln l.val).reattach = (op, due) :: rest →
      s.field.core.cmdq.async.find? (fun x => x.opId == op) = some a → Answers (.linkReattachTimeout l) s fun t =>
        (t.field.core.ln l.val).reattach = rest ∧ t.field.core.etime = max s.field.core.etime due ∧
        s.field.core.Raised t.field.core 0x0105
          ((op + at_ 4 a.opcode + at_ 6 0x40 + at_ 8 (detailResult 0 0xFFFF 0x0903 % 2 ^ 64)) % 2 ^ 128) ∧
        t.field.core.cmdq.async = s.field.core.cmdq.async.filter (fun x => x.opId != op) ∧
        SameRegs [LOG_EVT_OVWR_CNT.COUNT.key 0] s.field.core t.field.core ∧ CoreOnly s t)

/-- FREED of a slot may become `freed`: it moves no further than SENT (R432). -/
def FreedOk (h freed : Nat) (s : Core) : Prop :=
  (freed + 65536 - s.rd HLK_SLOT_CRED.FREED h) % 65536 ≤
    (s.rd HLK_SLOT_CRED.SENT h + 65536 - s.rd HLK_SLOT_CRED.FREED h) % 65536
/-- No injection rule is armed and no unit is held (R592). -/
def NoInjection (s : Core) : Prop := s.rd FIJ_STATUS.ARMED = 0 ∧ s.fij.held = []

/-- Traffic of an UP link (R417 to R425, R430 to R438, R443 to R445): behind what R420 sends ahead, the next frame leaves under its
SENT and takes credit; the oldest unsent token leaves; TIME and ALIGN blocks keep their form and place; a usage write makes its
sideband request; a return message in order is acknowledged, no more than once per 1 µs, and acted on, a spoilt one asked for again;
a CONFIRM closes its token and strobed line, a STATUS and a sideband answer are taken; a usage write begins at its time and its end
puts its copy in force. Stated without injection and, but for frames and tokens, where no RACK waits. -/
def Obligations.LinkTrafficFlows : Prop :=
  ∀ (l : Fin 24) (s : State), s.field.core.bootState ≠ 1 → s.field.core.linkState l.val = 4 → NoInjection s.field.core →
    -- forward
    (∀ (h : Nat) (y : StagedLine) (parity : Option Word), s.field.core.nextFrame l.val = some (h, y) →
      s.field.core.segBar l.val ≤ 7 → (s.field.core.sendAhead l.val).linkUp l.val = true →
      Answers (.lineFrameSend l parity) s fun t =>
        let seq := s.field.core.rd HLK_SLOT_CRED.SENT h
        let ahead := s.field.core.sendAhead l.val
        t.field.core.rd HLK_SLOT_CRED.SENT h = (seq + 1) % 65536 ∧
        (t.field.core.hf h).staged = mapIf (· == y) (fun y => { y with seq := some seq, spoilt := parity.isSome })
          (s.field.core.hf h).staged ∧
        (t.field.core.ln l.val).out = leaving l.val (frameBlocks (h % 8)
          (s.field.core.rd GEO_CFG.DROP_BITS (s.field.core.segBar l.val)) seq
          (s.field.core.levelMap l.val) (s.field.core.nozzles h) y.payload parity.isSome) ahead ∧
        (parity = none → SameRegs [HLK_SLOT_CRED.SENT.key h, HDC_FIRE.PENDING.key h] ahead t.field.core) ∧
        CoreOnly s t) ∧
    (∀ (i : Nat) (k : Tok), findIx (fun k : Tok => k.sentAt.isNone) (s.field.core.ln l.val).tokens = some (i, k) →
      Answers (.tokenSend l) s fun t =>
        let x := s.field.core.ln l.val
        (t.field.core.ln l.val).tokens = lset x.tokens i { k with sentAt := some s.field.core.etime } ∧
        (t.field.core.ln l.val).out = leaving l.val (tokenBlock k ::
          (if x.resume = 0 ∨ (t.field.core.ln l.val).tokens.any (·.sentAt.isNone) = true then [] else [resumeBlock x.resume]))
          ((s.field.core.openLink l.val).sendTimes l.val) ∧
        t.field.core.regs = s.field.core.regs ∧ CoreOnly s t) ∧
    ((s.field.core.ln l.val).rack = none → Answers (.timeBlockSend l) s fun t =>
      t.field.core.etime = max s.field.core.etime ((s.field.core.ln l.val).lastTime + 10000) ∧
      (t.field.core.ln l.val).out = leaving l.val
        [timeBlock (t.field.core.etime + s.field.core.rd HLK_LAT.LAT_NS l.val)] (s.field.core.openLink l.val) ∧
      t.field.core.regs = s.field.core.regs ∧ CoreOnly s t) ∧
    ((s.field.core.ln l.val).rack = none → s.field.core.txOn l.val = true → Answers (.alignBlockSend l) s fun t =>
      (t.field.core.ln l.val).out = [alignBlock, alignBlock] ∧
      (t.field.core.ln l.val).aligned = max (s.field.core.ln l.val).pos ((s.field.core.ln l.val).aligned + 16384) ∧
      (t.field.core.ln l.val).pos = (t.field.core.ln l.val).aligned ∧
      t.field.core.regs = s.field.core.regs ∧ CoreOnly s t) ∧
    (∀ (h : Nat) (w : UsageWrite) (wr : Bool) (a x : Nat), s.field.core.rd PWR_SUPPLY.PF = 0 →
      s.field.core.headsOn l.val = [h] → (s.field.core.ln l.val).sb = [] → (s.field.core.hr h).write = some w →
      w.next = some (wr, a, x) → (s.field.core.ln l.val).rack = none → Answers (.sidebandRequest l) s fun t =>
        let due := (s.field.core.ln l.val).sbAt.elim 0 (· + 1000)
        (if wr = true ∧ s.field.core.writeTempOk h = false then
          (t.field.core.ln l.val).sb = [] ∧ t.field.core.rd HLK_SLOT_USAGE.DEFERRED h = 1
        else
          t.field.core.etime = max s.field.core.etime due ∧
          (t.field.core.ln l.val).sb = [⟨0, h % 8, wr, a, x, 0, t.field.core.etime⟩] ∧
          (t.field.core.ln l.val).out = leaving l.val [sbBlock ⟨0, h % 8, wr, a, x, 0, t.field.core.etime⟩]
            ((s.field.core.reach due).sendAhead l.val) ∧
          t.field.core.rd HLK_SLOT_USAGE.DEFERRED h = 0) ∧
        SameRegs [HLK_SLOT_USAGE.DEFERRED.key h] s.field.core t.field.core ∧ CoreOnly s t) ∧
    -- return
    (∀ (m : Bytes) (mem : IdRead), m.length = 14 → byteAt m 1 = (s.field.core.ln l.val).rxSeq →
      (s.field.core.ln l.val).rack = none →
      let due := s.field.core.rackDue l.val
      let sent (nak : Bool) := if due = true then
        leaving l.val [rackBlock (s.field.core.ln l.val).rxSeq nak] (s.field.core.openLink l.val) else []
      (∀ slot : Nat, crc16 (m.take 12) = leAt m 12 2 → byteAt m 0 = 4 → byteAt m 2 = slot → bodyClean m = true →
        slot < s.field.core.slotsOf l.val → FreedOk (8 * l.val + slot) (leAt m 6 2) s.field.core →
        Answers (.returnMessageReceive l false m mem) s fun t =>
          (t.field.core.ln l.val).rxSeq = (byteAt m 1 + 1) % 256 ∧ (t.field.core.ln l.val).lastMsg = s.field.core.etime ∧
          (t.field.core.ln l.val).out = sent false ∧ (t.field.core.ln l.val).rack = (if due = true then none else some false) ∧
          t.field.core.rd HLK_SLOT_CRED.FREED (8 * l.val + slot) = leAt m 6 2 ∧
          t.field.core.rd HLK_FRAME_NAK_CNT.COUNT l.val =
            satU 32 (s.field.core.rd HLK_FRAME_NAK_CNT.COUNT l.val + 1) ∧
          SameOutside [0x0A, 0x1B] s.field.core t.field.core ∧ CoreOnly s t) ∧
      ((s.field.core.ln l.val).nakRun < 3 → Answers (.returnMessageReceive l true m mem) s fun t =>
        (t.field.core.ln l.val).rxSeq = (s.field.core.ln l.val).rxSeq ∧
        (t.field.core.ln l.val).nakRun = (s.field.core.ln l.val).nakRun + (if due = true then 1 else 0) ∧
        (t.field.core.ln l.val).out = sent true ∧ (t.field.core.ln l.val).rack = (if due = true then none else some true) ∧
        t.field.core.rd HLK_RET_CRC_CNT.COUNT l.val = satU 32 (s.field.core.rd HLK_RET_CRC_CNT.COUNT l.val + 1) ∧
        SameRegs [HLK_RET_CRC_CNT.COUNT.key l.val, HLK_REPLAY_CNT.COUNT.key l.val] s.field.core t.field.core ∧
        CoreOnly s t)) ∧
    (∀ (slot : Fin 8) (line freed : BitVec 16), slot.val < s.field.core.slotsOf l.val →
      FreedOk (8 * l.val + slot.val) freed.toNat s.field.core →
      (∀ (st : Fin 4) (reason : Fin 8) (drops : BitVec 16) (dev : Byte) (k : Tok),
        (s.field.core.ln l.val).tokens.find? (fun k => k.slot == slot.val && k.line == line.toNat && k.sentAt.isSome) = some k →
        (k.fire = false → st = 3 → Answers (.confirmReceive l slot st reason line freed drops dev) s fun t =>
          (t.field.core.ln l.val).tokens = dropFirst (· == k) (s.field.core.ln l.val).tokens ∧
          t.field.core.rd HLK_SLOT_CRED.FREED (8 * l.val + slot.val) = freed.toNat ∧
          t.field.core.rd HLK_SLOT_LAST.STATUS (8 * l.val + slot.val) = 3 ∧
          SameOutside [0x0A, 0x1B] s.field.core t.field.core ∧ CoreOnly s t) ∧
        (∀ y : IssuedLine, k.fire = true → st = 0 → drops.toNat = k.drops →
          (s.field.core.hf (8 * l.val + slot.val)).issued.find? (fun y => y.seq == k.line) = some y →
          (s.field.core.hf (8 * l.val + slot.val)).ranges = [] →
          (∀ j : Job, s.field.core.job? y.job = some j → j.bars.any (fun e => !e.2.left) = true) →
          Answers (.confirmReceive l slot st reason line freed drops dev) s fun t =>
            let h := 8 * l.val + slot.val
            (t.field.core.ln l.val).tokens = dropFirst (· == k) (s.field.core.ln l.val).tokens ∧
            (t.field.core.hf h).issued = dropFirst (· == y) (s.field.core.hf h).issued ∧
            t.field.core.rd HLK_SLOT_CRED.FREED h = freed.toNat ∧ t.field.core.rd HLK_SLOT_LAST.LINE h = line.toNat ∧
            t.field.core.rd2 HDC_STROBED_LO.COUNT HDC_STROBED_HI.COUNT h =
              (s.field.core.rd2 HDC_STROBED_LO.COUNT HDC_STROBED_HI.COUNT h + 1) % 2 ^ 64 ∧
            t.field.core.rd2 HDC_DROPS_LO.COUNT HDC_DROPS_HI.COUNT h =
              (s.field.core.rd2 HDC_DROPS_LO.COUNT HDC_DROPS_HI.COUNT h + y.drops) % 2 ^ 64 ∧
            SameRegs [HLK_SLOT_CRED.FREED.key h, HLK_SLOT_LAST.LINE.key h, HLK_SLOT_LAST.DEV.key h,
              HLK_SLOT_LAST.STATUS.key h, HLK_SLOT_LAST.REASON.key h, HLK_DEV.LAST.key l.val, HLK_DEV.PEAK.key l.val,
              HDC_FIRE.PENDING.key h, HDC_STROBED_LO.COUNT.key h, HDC_STROBED_HI.COUNT.key h, HDC_DROPS_LO.COUNT.key h,
              HDC_DROPS_HI.COUNT.key h] s.field.core t.field.core ∧ CoreOnly s t)) ∧
      (∀ (headOk inhibited : Bool) (ohms : BitVec 24) (mem : IdRead),
        (if headOk then (s.field.core.ln l.val).gone.contains slot.val
          else s.field.core.attached (8 * l.val + slot.val)) = false →
        Answers (.statusReceive l slot headOk inhibited freed ohms mem) s fun t =>
          let h := 8 * l.val + slot.val
          t.field.core.rd HLK_SLOT_CRED.FREED h = freed.toNat ∧ t.field.core.rd HLK_SLOT_THERM.OHMS h = ohms.toNat ∧
          t.field.core.rd HLK_SLOT_THERM.AGE h = 0 ∧ t.field.core.rd HLK_SLOT_THERM.HEAD_OK h = b2n headOk ∧
          (t.field.core.ln l.val).lastMsg = s.field.core.etime ∧
          SameRegs [HLK_SLOT_CRED.FREED.key h, HLK_SLOT_THERM.OHMS.key h, HLK_SLOT_THERM.AGE.key h,
            HLK_SLOT_THERM.HEAD_OK.key h] s.field.core t.field.core ∧ CoreOnly s t) ∧
      (∀ reason : Byte, Answers (.hlFrameNak l slot reason line freed) s fun t =>
        t.field.core.rd HLK_SLOT_CRED.FREED (8 * l.val + slot.val) = freed.toNat ∧
        t.field.core.rd HLK_FRAME_NAK_CNT.COUNT l.val = satU 32 (s.field.core.rd HLK_FRAME_NAK_CNT.COUNT l.val + 1) ∧
        SameRegs [HLK_SLOT_CRED.FREED.key (8 * l.val + slot.val), HLK_FRAME_NAK_CNT.COUNT.key l.val,
          LOG_EVT_OVWR_CNT.COUNT.key 0] s.field.core t.field.core ∧ CoreOnly s t)) ∧
    (∀ (tid : Fin 8) (data : Bytes) (q : SbReq) (w : UsageWrite),
      (s.field.core.ln l.val).sb.find? (·.tid == tid.val) = some q → q.write = true →
      (s.field.core.hr (8 * l.val + q.target)).write = some w → zeroAt data 4 8 = true →
      Answers (.sbRespReceive l tid 0 data) s fun t =>
        (t.field.core.ln l.val).sb = dropFirst (· == q) (s.field.core.ln l.val).sb ∧
        (t.field.core.hr (8 * l.val + q.target)).write =
          some { w with done := w.done + 1, outcome := if 16 ≤ w.done + 1 ∧ w.powerFail = true then 1 else w.outcome } ∧
        t.field.core.regs = s.field.core.regs ∧ CoreOnly s t) ∧
    -- usage records
    (∀ h : Fin 192, h.val / 8 = l.val →
      (s.field.core.attached h.val = true → s.field.core.rd PWR_SUPPLY.PF = 0 → (s.field.core.hr h.val).write = none →
        s.field.core.rd HLK_SLOT_USAGE.DEFERRED h.val = 0 → Answers (.usageRecordWrite h) s fun t =>
          let r := s.field.core.hr h.val
          t.field.core.etime = max s.field.core.etime (r.attachedAt + 60000000000 * (r.periods + 1)) ∧
          (if s.field.core.writeTempOk h.val = true then
            (t.field.core.hr h.val).write =
              some ⟨1 - r.copy, usageBytes (r.serial.getD 0)
                (({ s.field.core with etime := t.field.core.etime } : Core).countFire h.val |>.usageNow h.val), 0, [], false, 0, 0⟩
          else (t.field.core.hr h.val).write = none ∧ t.field.core.rd HLK_SLOT_USAGE.DEFERRED h.val = 1) ∧
          SameRegs [HLK_SLOT_USAGE.DEFERRED.key h.val] s.field.core t.field.core ∧ CoreOnly s t) ∧
      (∀ w : UsageWrite, (s.field.core.hr h.val).write = some w →
        (w.outcome = 1 → Answers (.usageWriteEnd h) s fun t =>
          (t.field.core.hr h.val).write = none ∧ (t.field.core.hr h.val).copy = w.copy ∧
          (t.field.core.hr h.val).writtenAt = s.field.core.etime ∧ t.field.core.rd HLK_SLOT_USAGE.AGE_S h.val = 0 ∧
          t.field.core.rd HLK_SLOT_USAGE.FAILED h.val = 0 ∧
          SameRegs [HLK_SLOT_USAGE.DEFERRED.key h.val, HLK_SLOT_USAGE.AGE_S.key h.val, HLK_SLOT_USAGE.FAILED.key h.val]
            s.field.core t.field.core ∧ CoreOnly s t) ∧
        (w.outcome = 2 → Answers (.usageWriteEnd h) s fun t =>
          (t.field.core.hr h.val).write = none ∧ (t.field.core.hr h.val).copy = (s.field.core.hr h.val).copy ∧
          t.field.core.rd HLK_SLOT_USAGE.FAILED h.val = 1 ∧
          s.field.core.Raised t.field.core 0x090B ((h.val + at_ 1 w.result) % 2 ^ 128) ∧
          SameRegs [HLK_SLOT_USAGE.DEFERRED.key h.val, HLK_SLOT_USAGE.FAILED.key h.val, LOG_EVT_OVWR_CNT.COUNT.key 0]
            s.field.core t.field.core ∧ CoreOnly s t)))

/-! ### Camera, image pipeline and servo (spec/11) -/

/-- No crossing that touches the camera link is TIMED_OUT or has a request outstanding. -/
def NoCameraCrossing (s : Core) : Prop :=
  ∀ x ∈ s.cdc.out ++ s.cdc.req.map (·.1), (x % 16 == 0xB || x / 16 % 16 == 0xB) = false

/-- The keys of every bar's servo hold (R482). -/
def holdKeys : List Nat := (List.range 8).map (CSVB_MODE.HOLD.key ·)

/-- The camera's commands and its control channel (R457 to R461, R483 to R486, R465). CAM_START of an identified camera sends CONFIG
and waits for it, and its answer starts the camera; CAM_STOP sends STOP and ends the open frames; CAM_REINIT is accepted, and its
time-out ends it; link-up identifies, link-down and an unmatched trigger end the link; a request that gets no answer is sent again;
an exposure write pends; a table access uses its entry and steps the index; SERVO_SET sets the modes of the bars it names, which
hold while the camera does not run; a commit boundary hands the staged updates of the links that stand at it over. -/
def Obligations.CameraCommandsAndControlAct : Prop :=
  (∀ (c : Call) (s : State),
    (CleanHeader c 0 → Runs c 0x0600 2 s → s.field.core.camState = 3 → s.field.core.cam.start = [] →
      s.field.core.cam.auto = false →
      (∀ v : Fin 4, s.field.core.sensorOf v.val ≠ none → 4 ≤ s.field.core.ringFrames v.val) →
      let config : CtlReq := .config (s.field.core.rd CAM_CFG.FRAME_LINES) (vcMask s.field.core.cam.mem)
      Answers (.camStart c) s fun t =>
        Started c 0x0600 t ∧ t.field.core.cmdq.done = s.field.core.cmdq.done ∧
        t.field.core.cam = { s.field.core.cam with
          start := [refOf 0x0600 c]
          ctl := if s.field.core.cam.reqs = [] then config.frame else s.field.core.cam.ctl
          reqs := s.field.core.cam.reqs ++ [⟨.config, config, 0, s.field.core.etime⟩] } ∧
        CommandFrame c 0x0600 [] s t) ∧
    (CleanHeader c 0 → Runs c 0x0601 2 s → 3 ≤ s.field.core.camState →
      Answers (.camStop c) s fun t =>
        Completed c 0x0601 0 0 s t ∧ t.field.core.camState = 3 ∧ t.field.core.rd CAM_STATUS.STARTED = 0 ∧
        t.field.core.cam.reqs = s.field.core.cam.reqs ++ [⟨.stop, .stop, 0, s.field.core.etime⟩] ∧
        (∀ v : Fin 4, (t.field.core.frame v.val).open_ = false) ∧
        CommandFrame c 0x0601 (CAM_STATUS.STATE.key 0 :: CAM_STATUS.STARTED.key 0 :: holdKeys) s t) ∧
    (CleanHeader c 0 → Runs c 0x0603 2 s → s.field.core.printing = false → s.field.core.cam.start = [] →
      (∀ v : Fin 4, (s.field.core.frame v.val).open_ = false) → NoCameraCrossing s.field.core → s.field.core.cmdq.opNext < 2 ^ 32 →
      Answers (.camReinit c) s fun t =>
        Completed c 0x0603 1 s.field.core.cmdq.opNext s t ∧ t.field.core.camState = 6 ∧
        t.field.core.cmdq.async = s.field.core.cmdq.async ++ [⟨s.field.core.cmdq.opNext, 0x0603, c.tag.toNat, c.q.val⟩] ∧
        t.field.core.cam.reinit =
          s.field.core.cam.reinit ++ [(s.field.core.cmdq.opNext, s.field.core.etime + 2000000000)] ∧
        t.field.core.cam.fifo = [] ∧ (t.field.core.newest 0x0A02).map (·.1) = some 0x0A02 ∧
        CommandFrame c 0x0603 (CAM_STATUS.STATE.key 0 :: holdKeys) s t) ∧
    (∀ mask mode : Byte, CleanHeader c 4 → Runs c 0x0602 1 s →
      (∀ b : Fin 8, mask.toNat.testBit b.val = true → s.field.core.barPresent b.val = true) → mode.toNat ≤ 3 →
      Answers (.servoSet c mask mode) s fun t =>
        Completed c 0x0602 0 0 s t ∧
        (∀ b : Fin 8, t.field.core.rd CSVB_MODE.MODE b.val =
          if named mask b.val s.field.core then mode.toNat else s.field.core.rd CSVB_MODE.MODE b.val) ∧
        (∀ b : Fin 8, named mask b.val s.field.core = true → mode = 0 → t.field.core.rd CSVB_MODE.HOLD b.val = 0) ∧
        (∀ b : Fin 8, named mask b.val s.field.core = true → mode ≠ 0 → s.field.core.camState ≠ 5 →
          mode.toNat ≠ s.field.core.rd CSVB_MODE.MODE b.val → t.field.core.rd CSVB_MODE.HOLD b.val = 1) ∧
        (mode.toNat < 2 → CommandFrame c 0x0602 ((List.range 8).map (CSVB_MODE.MODE.key ·) ++ holdKeys) s t)) ∧
    (∀ (v : Fin 4) (x : Word), CleanHeader c 8 → Runs c 0x0101 2 s → s.field.core.cdc.out = [] →
      (Answers (.camExpWrite c v x) s fun t =>
        Completed c 0x0101 0 0 s t ∧ t.field.core.rd CAM_EXP.EXP v.val = x.toNat % 2 ^ 24 ∧
        t.field.core.rd CAM_EXP_GEN.PENDING v.val = 1 ∧
        CommandFrame c 0x0101 [CAM_EXP.EXP.key v.val, CAM_EXP_GEN.PENDING.key v.val] s t) ∧
      (Answers (.ispTblDataAccess c v (some x)) s fun t =>
        let table := s.field.core.rd ISP_TBL_IDX.TABLE v.val; let i := s.field.core.rd ISP_TBL_IDX.IDX v.val % tblSize table
        Completed c 0x0101 0 0 s t ∧
        t.field.core.tbl v.val table i = (if table = 0 then x.toNat % 65536 &&& 0x9FFF else if table = 1 then x.toNat % 65536
          else x.toNat % 256) ∧
        t.field.core.rd ISP_TBL_IDX.IDX v.val = (i + 1) % tblSize table ∧
        CommandFrame c 0x0101 [ISP_TBL_IDX.IDX.key v.val] s t)) ∧
    (∀ v : Fin 4, CleanHeader c 4 → Runs c 0x0100 2 s → s.field.core.cdc.out = [] →
      Answers (.ispTblDataAccess c v none) s fun t =>
        let table := s.field.core.rd ISP_TBL_IDX.TABLE v.val; let i := s.field.core.rd ISP_TBL_IDX.IDX v.val % tblSize table
        Completed c 0x0100 0 (s.field.core.tbl v.val table i % 2 ^ 128) s t ∧
        t.field.core.rd ISP_TBL_IDX.IDX v.val = (i + 1) % tblSize table ∧
        t.field.core.cam.tables = s.field.core.cam.tables ∧ CommandFrame c 0x0100 [ISP_TBL_IDX.IDX.key v.val] s t)) ∧
  (∀ s : State, s.field.core.bootState ≠ 1 →
    (∀ (op due : Nat) (a : AsyncOp), s.field.core.cam.reinit = [(op, due)] → s.field.core.camState = 6 →
      s.field.core.cam.linked = false →
      s.field.core.cmdq.async.find? (fun x => x.opId == op) = some a → Answers .camReinitTimeout s fun t =>
        t.field.core.camState = 0 ∧ t.field.core.etime = max s.field.core.etime due ∧ t.field.core.cam.reinit = [] ∧
        s.field.core.Raised t.field.core 0x0105
          ((op + at_ 4 a.opcode + at_ 6 0x40 + at_ 8 (detailResult 0 0xFFFF 0x0A02 % 2 ^ 64)) % 2 ^ 128) ∧
        SameRegs [CAM_STATUS.STATE.key 0, LOG_EVT_OVWR_CNT.COUNT.key 0] s.field.core t.field.core ∧ CoreOnly s t) ∧
    (∀ x : IdRead, s.field.core.fwRuns = true → s.field.core.camState = 0 → s.field.core.cam.linked = false →
      s.field.core.cam.reinit = [] →
      (idGot x = none → Answers (.camLinkUp x.mem x.fails) s fun t =>
        t.field.core.camState = 2 ∧ t.field.core.rd CAM_STATUS.REASON = 1 ∧ t.field.core.rd CAM_STATUS.VC_MASK = 0 ∧
        t.field.core.cam.mem = [] ∧ t.field.core.etime = s.field.core.etime + idWaitsBy 1000000 x ∧
        t.field.core.rd CAM_CTL_CNT.FAIL = satU 16 (s.field.core.rd CAM_CTL_CNT.FAIL + 1) ∧
        (t.field.core.newest 0x0A07).isSome = true ∧ t.field.core.newest 0x0A41 = some (0x0A41, 1) ∧
        SameOutside [0x12, 0x13, 0x1B] s.field.core t.field.core ∧ CoreOnly s t) ∧
      (∀ m : IdMem, idGot x = some m → identCheck m 3 32 4064 (camRanges m) = 0 → s.field.core.rd CAM_STATUS.STARTED = 0 →
        Answers (.camLinkUp x.mem x.fails) s fun t =>
          t.field.core.camState = 3 ∧ t.field.core.cam.linked = true ∧
          t.field.core.etime = s.field.core.etime + idWaitsBy 1000000 x ∧
          t.field.core.rd CAM_STATUS.REASON = 0 ∧ t.field.core.cam.mem = memRead m 0 0x700 ∧
          t.field.core.rd CAM_STATUS.VC_MASK = vcMask (memRead m 0 0x700) % 16 ∧
          t.field.core.cam.lastSerial = some (memSerial m) ∧ (t.field.core.newest 0x0A01).map (·.1) = some 0x0A01 ∧
          SameOutside [0x12, 0x13, 0x1B] s.field.core t.field.core ∧ CoreOnly s t)) ∧
    (∀ (i : Instr) (cause : Nat), s.field.core.cam.start = [] → NoCameraCrossing s.field.core →
      (∀ v : Fin 4, (s.field.core.frame v.val).open_ = false) →
      (i = .camLinkDown ∧ cause = 1 ∧ s.field.core.cam.linked = true) ∨
        (i = .camTriggerUnmatchedTimeout ∧ cause = 2 ∧ 4 ≤ s.field.core.camState ∧ s.field.core.camState ≤ 5 ∧
          s.field.core.cam.fifo ≠ []) →
      Answers i s fun t =>
        t.field.core.camState = 0 ∧ t.field.core.cam.linked = false ∧ t.field.core.newest 0x0A02 = some (0x0A02, cause) ∧
        t.field.core.cam.fifo = [] ∧
        (∀ k ks, s.field.core.cam.fifo = k :: ks → cause = 2 →
          t.field.core.etime = max s.field.core.etime (k.etime + 10000000)) ∧
        SameRegs (CAM_STATUS.STATE.key 0 :: LOG_EVT_OVWR_CNT.COUNT.key 0 :: holdKeys) s.field.core t.field.core ∧
        CoreOnly s t) ∧
    (∀ (r : CamReq) (rs : List CamReq), s.field.core.cam.reqs = r :: rs →
      (r.fails < 2 → Answers .camCtlTimeout s fun t =>
        t.field.core.etime = max s.field.core.etime (r.sentAt + 1000000) ∧
        t.field.core.cam.reqs = { r with fails := r.fails + 1, sentAt := t.field.core.etime } :: rs ∧
        t.field.core.regs = s.field.core.regs ∧ CoreOnly s t) ∧
      (r.fails = 2 → r.kind = .stop → rs = [] → Answers .camCtlTimeout s fun t =>
        t.field.core.cam.reqs = [] ∧ t.field.core.rd CAM_CTL_CNT.FAIL = satU 16 (s.field.core.rd CAM_CTL_CNT.FAIL + 1) ∧
        s.field.core.Raised t.field.core 0x0A07 ((r.req.cmd + at_ 1 0xFF) % 2 ^ 128) ∧
        SameRegs [CAM_CTL_CNT.FAIL.key 0, LOG_EVT_OVWR_CNT.COUNT.key 0] s.field.core t.field.core ∧ CoreOnly s t) ∧
      (∀ (frame : Bytes) (ref : CmdRef), ctlStatus frame = some 0 → byteAt frame 1 = r.req.answer + 1 → r.kind = .config → rs = [] →
        s.field.core.camState = 3 → s.field.core.cam.start = [ref] → ref ∈ s.field.core.cmdq.open_ → ref.src = .host →
        s.field.core.cam.reinit = [] → Answers (.camCtlResponse frame) s fun t =>
          t.field.core.camState = 4 ∧ t.field.core.rd CAM_STATUS.STARTED = 1 ∧ t.field.core.cam.start = [] ∧
          t.field.core.cam.reqs = [] ∧ t.field.core.cam.fifo = [] ∧ t.field.core.cam.trigNext = 0 ∧
          t.field.core.cam.trigEnd = max s.field.core.cam.trigEnd (s.field.core.etime + 1000) ∧
          t.field.core.cmdq.done =
            s.field.core.cmdq.done ++ [⟨1, 0, ref.tag, ref.q, ref.opcode, ref.index, s.field.core.etime, 0⟩] ∧
          SameOutside [0x01, 0x12, 0x13, 0x1B] s.field.core t.field.core ∧ CoreOnly s t)) ∧
    (∀ b : Fin 8, 2 ≤ s.field.core.rd CSVB_MODE.MODE b.val → s.field.core.rd CSVB_MODE.HOLD b.val = 0 →
      Answers (.servoCommit b) s fun t =>
        (∀ g ∈ t.field.core.csv.stages, g ∈ s.field.core.csv.stages ∧
          ¬ (g.bar = b.val ∧ s.field.core.atCommit b.val (g.head / 8) = true)) ∧
        (∀ h ∈ s.field.core.headsOfBar b.val, s.field.core.atCommit b.val (h / 8) = true → ∀ g,
          s.field.core.csv.stages.find? (fun g => g.bar == b.val && g.head == h) = some g →
          ⟨h / 8, h, true, g.entries, none, g.curve, g.dead⟩ ∈ t.field.core.press.stages) ∧
        (∀ g ∈ s.field.core.press.stages, g ∈ t.field.core.press.stages) ∧
        t.field.core.regs = s.field.core.regs ∧ CoreOnly s t))

/-- Triggers, packets and the pipeline (R452, R453, R459, R460, R463, R464, R466, R468): a trigger takes its number into the FIFO,
or counts an overflow; a Frame Start opens its frame, a Line Start holds its number, a good line of a waiting trigger counts
and goes into a slot, a Frame End shows the frame's statistics; the first slot's line is processed in its time and written into the
ring in DRAM and nowhere else, while no channel retrains. Without injection. -/
def Obligations.CameraLinesReachTheRing : Prop :=
  ∀ s : State, s.field.core.bootState ≠ 1 →
    (∀ (v : Fin 4) (fixed : Bool) (num : BitVec 16),
      4 ≤ s.field.core.camState → s.field.core.camState ≤ 5 → NoInjection s.field.core →
      s.field.core.vcActive v.val = true →
      ((s.field.core.frame v.val).open_ = false → s.field.core.rd CAM_EXP_GEN.PENDING v.val = 0 →
        (s.field.core.frame v.val).answered = false →
        (∀ n, (s.field.core.frame v.val).lastNum = some n → num.toNat = frameAfter n) →
        Answers (.csiFrameStart v fixed num) s fun t =>
          let x := t.field.core.frame v.val
          x.open_ = true ∧ x.num = num.toNat ∧ x.lines = 0 ∧ x.valid = true ∧ x.lineStart = none ∧
          x.lastNum = some num.toNat ∧ x.gen = s.field.core.rd CAM_EXP_GEN.ACTIVE v.val ∧
          x.set = s.field.core.ispSet v.val ∧
          t.field.core.rd CAM_ECC_CNT.CORR = (if fixed then satU 16 (s.field.core.rd CAM_ECC_CNT.CORR + 1)
            else s.field.core.rd CAM_ECC_CNT.CORR) ∧
          SameRegs [CAM_ECC_CNT.CORR.key 0] s.field.core t.field.core ∧ CoreOnly s t) ∧
      (Answers (.csiLineStart v fixed num) s fun t =>
        t.field.core.frame v.val = { s.field.core.frame v.val with lineStart := some num.toNat } ∧
        t.field.core.rd CAM_ECC_CNT.CORR = (if fixed then satU 16 (s.field.core.rd CAM_ECC_CNT.CORR + 1)
            else s.field.core.rd CAM_ECC_CNT.CORR) ∧
        SameRegs [CAM_ECC_CNT.CORR.key 0] s.field.core t.field.core ∧ CoreOnly s t) ∧
      (∀ (i lineNum : Nat) (k : CamTrig) (dt : Byte) (wc : BitVec 16) (p : Bytes), s.field.core.sensorOf v.val = some i →
        s.field.core.camField (0x41 + 16 * i) 1 = dt.toNat → (s.field.core.frame v.val).lineStart = some lineNum →
        (s.field.core.frame v.val).open_ = true → (s.field.core.frame v.val).lines < s.field.core.rd CAM_CFG.FRAME_LINES →
        s.field.core.cam.fifo.find? (fun k => k.num == lineNum) = some k →
        lineNum = (match (s.field.core.frame v.val).lastTrig with | some n => (n + 1) % 65536 | none => 0) →
        wc.toNat = wordCount dt.toNat (s.field.core.pixels i) → s.field.core.cam.slots.length < 16 →
        Answers (.csiLinePacket v (if fixed then .fixed else .good) dt wc p true) s fun t =>
          t.field.core.camState = 5 ∧ t.field.core.rd CAM_LINES.COUNT v.val =
            satU 32 (s.field.core.rd CAM_LINES.COUNT v.val + 1) ∧
          (t.field.core.frame v.val).lines = (s.field.core.frame v.val).lines + 1 ∧
          (t.field.core.frame v.val).lastTrig = some lineNum ∧ (t.field.core.frame v.val).lineStart = none ∧
          (∃ l, t.field.core.cam.slots = s.field.core.cam.slots ++ [l] ∧ l.vc = v.val ∧ l.raw = p ∧ l.pos = k.pos ∧
            l.etime = k.etime ∧ l.frame = (s.field.core.frame v.val).num ∧ l.line = (s.field.core.frame v.val).lines ∧
            l.bad = false ∧ l.dt = dt.toNat ∧ l.set = (s.field.core.frame v.val).set) ∧
          SameRegs [CAM_ECC_CNT.CORR.key 0, CAM_LINES.COUNT.key v.val, CAM_STATUS.STATE.key 0] s.field.core t.field.core ∧
          CoreOnly s t) ∧
      ((s.field.core.frame v.val).open_ = true → s.field.core.cam.slots = [] →
        s.field.core.rd CAM_CFG.FRAME_LINES ≤ (s.field.core.frame v.val).lines →
        Answers (.csiFrameEnd v fixed num) s fun t =>
          let x := s.field.core.frame v.val
          (t.field.core.frame v.val).open_ = false ∧
          t.field.core.rd ISP_STAT_MEAN.MEAN v.val = (if x.samples = 0 then 0 else x.green / x.samples) % 65536 ∧
          t.field.core.rd ISP_STAT_MEAN.GEN v.val = x.gen % 256 ∧ t.field.core.rd ISP_STAT_MEAN.VALID v.val =
            b2n (x.valid && !s.field.core.endMissing v.val x) ∧
          t.field.core.rd ISP_STAT_CLIP.CLIP v.val = satU 24 x.clips ∧
          t.field.core.rd ISP_STAT_FRAME.FRAME v.val = x.num % 65536 ∧
          SameRegs [CAM_ECC_CNT.CORR.key 0, ISP_STAT_MEAN.MEAN.key v.val, ISP_STAT_MEAN.GEN.key v.val,
            ISP_STAT_MEAN.VALID.key v.val, ISP_STAT_CLIP.CLIP.key v.val, ISP_STAT_FRAME.FRAME.key v.val]
            s.field.core t.field.core ∧ CoreOnly s t)) ∧
    (4 ≤ s.field.core.camState → s.field.core.camState ≤ 5 → Answers .camLineTrigger s fun t =>
      t.field.core.cam.trigNext = (s.field.core.cam.trigNext + 1) % 65536 ∧ t.field.core.cam.fsWait = false ∧
      (if s.field.core.cam.fifo.length < 1024 then
        t.field.core.cam.fifo = s.field.core.cam.fifo ++ [⟨s.field.core.cam.trigNext, s.field.core.phi, s.field.core.etime,
          s.field.core.rd CAM_STATUS.VC_MASK⟩]
      else t.field.core.cam.fifo = s.field.core.cam.fifo ∧
        t.field.core.rd CAM_TRIG_FIFO.OVR = satU 16 (s.field.core.rd CAM_TRIG_FIFO.OVR + 1)) ∧
      (s.field.core.cam.fsWait = true →
        t.field.core.rd2 CAM_FS_POS_LO.POS CAM_FS_POS_HI.POS = s.field.core.phi % 2 ^ 38) ∧
      SameRegs [CAM_FS_POS_LO.POS.key 0, CAM_FS_POS_HI.POS.key 0, CAM_TRIG_FIFO.OVR.key 0] s.field.core t.field.core ∧
      CoreOnly s t) ∧
    (∀ (l : IspLine) (ls : List IspLine), s.field.dram.wf → s.field.core.cam.slots = l :: ls → l.vc < 4 →
      (∀ ch ∈ s.field.core.mem.layout, ch < 4) → (∀ ch, ch < 4 → s.field.core.rd MEMC_STATUS.STATE ch ≠ 3) →
      Answers (.ispLineProcess none) s fun t =>
        t.field.core.etime =
          max s.field.core.etime (max s.field.core.cam.busyAt l.got + 3000 * l.pixels / s.field.core.ispRate) ∧
        t.field.core.cam.slots = ls ∧
        t.field.core.rd ISP_LINE_CNT.COUNT l.vc = satU 32 (s.field.core.rd ISP_LINE_CNT.COUNT l.vc + 1) ∧
        t.field.core.cam.ring = s.field.core.cam.ring ++
          [⟨l.vc, l.ring, l.line, l.frame, l.pos, l.etime, l.gen, l.bad, l.addr⟩] ∧
        (∀ i, i < (ispOut l).length → t.field.dram.get (l.addr + i) = (ispOut l).getD i 0) ∧
        SameBytes l.addr (ispOut l).length s.field.dram t.field.dram ∧ t.pending = s.pending ∧ t.host = s.host)

/-! ### DRAM (spec/13) -/

/-- The channels are those of the module, at most four. -/
def FourChannels (s : Core) : Prop := s.mem.layout.length ≤ 4 ∧ ∀ ch ∈ s.mem.layout, ch < 4

/-- DRAM (R517 to R531). RANK_RETIRE of an in-service rank with a spare queues its migration; 1 to 6 wrong symbols of a word are
corrected, which counts and leaves memory; 7 to 10 are uncorrectable, which counts, is noted, poisons the word and queues the rank,
and in a firmware region is rewritten from the next channel's copy; with more, what the decoder takes the word for is free (log
entry 143); a command error counts; a refresh when it is due, or an idle microsecond, closes a row, the window clears the activate
counts; a scrub read goes to the next word at its pace; a row copied moves the cursor; a retrain is asked for, and ends with its
time; a re-formed space is that of the channels in service, and empty but for their copies of the firmware. -/
def Obligations.MemoryErrorsRanksAndRows : Prop :=
  (∀ (c : Call) (ch r : Byte) (s : State), CleanHeader c 4 → Runs c 0x0803 2 s → ch.toNat ≤ 3 → r.toNat ≤ 2 →
    s.field.core.rd MEMC_STATUS.STATE ch.toNat ≠ 4 → s.field.core.rank ch.toNat r.toNat = 1 →
    s.field.core.spareOf ch.toNat ≠ none → (∀ m ∈ s.field.core.mem.queue, m.ch ≠ ch.toNat) →
    (∀ m tgt, s.field.core.mem.cur = some (m, tgt) → m.ch ≠ ch.toNat) → s.field.core.printing = false →
    s.field.core.cmdq.opNext < 2 ^ 32 → Answers (.rankRetire c ch r) s fun t =>
      Completed c 0x0803 1 s.field.core.cmdq.opNext s t ∧
      t.field.core.cmdq.async = s.field.core.cmdq.async ++ [⟨s.field.core.cmdq.opNext, 0x0803, c.tag.toNat, c.q.val⟩] ∧
      t.field.core.mem.queue = s.field.core.mem.queue ++ [⟨ch.toNat, r.toNat, 3, some s.field.core.cmdq.opNext⟩] ∧
      t.field.core.rd MEM_STATUS.MIG_QUEUE = satU 3 (s.field.core.mem.queue.length + 1) ∧
      CommandFrame c 0x0803 [MEM_STATUS.MIG_QUEUE.key 0] s t) ∧
  (∀ (c : Call) (ch : Fin 4) (v : Word) (s : State), CleanHeader c 8 → Runs c 0x0101 2 s → s.field.core.cdc.out = [] →
    v.toNat % 2 = 1 → s.field.core.printing = false → 1 ≤ s.field.core.rd MEMC_STATUS.STATE ch.val →
    s.field.core.rd MEMC_STATUS.STATE ch.val ≤ 2 → Answers (.memRetrainWrite c ch v) s fun t =>
      Completed c 0x0101 0 0 s t ∧ t.field.core.rd MEMC_STATUS.STATE ch.val = 3 ∧
      CommandFrame c 0x0101 [MEMC_STATUS.STATE.key ch.val] s t) ∧
  (∀ s : State, s.field.core.bootState ≠ 1 →
    (∀ (word : BitVec 30) (r : Fin 3) (cls : Fin 4), FourChannels s.field.core → s.field.core.wordExists word.toNat = true →
      (let p := s.field.core.pageAt (word.toNat / 64)
       s.field.core.readRank word.toNat = r.val ∧ s.field.core.rank p.1 r.val = 1 ∧ s.field.core.spareOf p.1 ≠ none ∧
         s.field.core.rd MEMC_STATUS.STATE p.1 < 3) →
      s.field.dram.poison.contains word.toNat = false → s.field.dram.once = [] →
      let ch := (s.field.core.pageAt (word.toNat / 64)).1
      let cp := (s.field.core.pageAt (word.toNat / 64)).2
      (∀ bad : List (Fin 80 × Byte), 1 ≤ bad.length → bad.length ≤ 6 → s.field.core.rd MEM_CFG.CE_RETIRE = 0 →
        Answers (.dramReadError word r (.symbols bad) cls) s fun t =>
        t.field.core.rd (ceFld r.val) ch = satU 16 (s.field.core.rd (ceFld r.val) ch + 1) ∧
        SameRegs [(ceFld r.val).key ch, MEMC_RH_CNT.COUNT.key ch, LOG_EVT_OVWR_CNT.COUNT.key 0]
          s.field.core t.field.core ∧ CoreOnly s t) ∧
      (∀ bad : List (Fin 80 × Byte), 7 ≤ bad.length → bad.length ≤ 10 → firmwarePage cp = false →
        (∀ m ∈ s.field.core.mem.queue, ¬ (m.ch = ch ∧ m.rank = r.val)) →
        Answers (.dramReadError word r (.symbols bad) cls) s fun t =>
          t.field.core.rd MEM_POISON_CNT.MARKED = satU 16 (s.field.core.rd MEM_POISON_CNT.MARKED + 1) ∧
          t.field.core.rd MEMC_CE_2.UE ch = satU 16 (s.field.core.rd MEMC_CE_2.UE ch + 1) ∧
          t.field.core.rd MEM_LAST_UE.WORD = word.toNat ∧
          t.field.core.newest 0x0402 = some (0x0402, ch + at_ 1 r.val + at_ 2 cls.val + at_ 4 word.toNat) ∧
          t.field.core.mem.queue = s.field.core.mem.queue ++ [⟨ch, r.val, 1, none⟩] ∧
          t.field.dram.poison.contains word.toNat = true ∧ t.field.dram.cells = s.field.dram.cells ∧
          SameRegs [MEM_POISON_CNT.MARKED.key 0, MEMC_CE_2.UE.key ch, MEM_LAST_UE.WORD.key 0, MEM_STATUS.MIG_QUEUE.key 0,
            MEMC_RH_CNT.COUNT.key ch, LOG_EVT_OVWR_CNT.COUNT.key 0] s.field.core t.field.core ∧
          t.pending = s.pending ∧ t.host = s.host) ∧
      (∀ (bad : List (Fin 80 × Byte)) (next : Nat) (chs : List Nat), 7 ≤ bad.length → bad.length ≤ 10 → firmwarePage cp = true →
        s.field.dram.wf → s.field.core.mem.layout.drop (s.field.core.mem.layout.idxOf ch + 1) ++
          s.field.core.mem.layout.take (s.field.core.mem.layout.idxOf ch) = next :: chs →
        let copy := 64 * s.field.core.pageOf next cp + word.toNat % 64
        copy ≠ word.toNat → s.field.core.bad s.field.dram (64 * copy) 64 = false →
        Answers (.dramReadError word r (.symbols bad) cls) s fun t =>
          t.field.dram.poison.contains word.toNat = false ∧
          (∀ i, i < 64 → t.field.dram.get (64 * word.toNat + i) = s.field.dram.get (64 * copy + i)) ∧
          SameBytes (64 * word.toNat) 64 s.field.dram t.field.dram) ∧
      (∀ bad : List (Fin 80 × Byte), 11 ≤ bad.length → firmwarePage cp = false → Answers (.dramReadError word r (.symbols bad) cls) s fun t =>
        match decodeWord (s.field.dram.word word.toNat) bad with
        | none => t.field.core.rd MEMC_CE_2.UE ch = satU 16 (s.field.core.rd MEMC_CE_2.UE ch + 1) ∧
          t.field.dram.poison.contains word.toNat = true ∧ t.field.dram.cells = s.field.dram.cells
        | some d => t.field.core.rd (ceFld r.val) ch = satU 16 (s.field.core.rd (ceFld r.val) ch + 1) ∧
          (∀ i, i < d.length → t.field.dram.get (64 * word.toNat + i) = d.getD i 0) ∧
          SameBytes (64 * word.toNat) 64 s.field.dram t.field.dram)) ∧
    (∀ (ch : Fin 4) (r : Fin 3) (wcrc : Bool), (s.field.core.rd MEM_STATUS.IN_SERVICE).testBit ch.val = true →
      Answers (.memCaErr ch r wcrc false) s fun t =>
        let f := if wcrc then MEMC_CA_CNT.WCRC else MEMC_CA_CNT.CA
        t.field.core.rd f ch.val = satU 16 (s.field.core.rd f ch.val + 1) ∧
        SameRegs [f.key ch.val, MEMC_STATUS.STATE.key ch.val, LOG_EVT_OVWR_CNT.COUNT.key 0] s.field.core t.field.core ∧
        CoreOnly s t) ∧
    (∀ (ch : Fin 4) (r : Fin 3) (b : Fin 32) (i : Instr) (due : Nat),
      let x := s.field.core.bank ch.val r.val b.val
      (i = .dramRefresh ch r b ∧ due = x.refAt + s.field.core.tRefi ch.val r.val) ∨
        (i = .rowIdleClose ch r b ∧ x.row ≠ none ∧ due = x.used + 1000) →
      Answers i s fun t =>
        let y := t.field.core.bank ch.val r.val b.val
        t.field.core.etime = max s.field.core.etime due ∧
        y.row = none ∧ y.last = x.last ∧ y.page = x.page ∧ y.counts = x.counts ∧
        (∀ ch' r' b', bankKey ch' r' b' ≠ bankKey ch.val r.val b.val →
          t.field.core.bank ch' r' b' = s.field.core.bank ch' r' b') ∧
        t.field.core.regs = s.field.core.regs ∧ CoreOnly s t) ∧
    (Answers .rowHammerWindow s fun t =>
      t.field.core.etime =
        max s.field.core.etime (s.field.core.mem.windowAt + 1000000 * s.field.core.rd MEM_RH_CFG.WINDOW_MS) ∧
      (∀ (ch : Fin 4) (r : Fin 3) (b : Fin 32), (t.field.core.bank ch.val r.val b.val).row =
          (s.field.core.bank ch.val r.val b.val).row ∧
        ∀ e ∈ (t.field.core.bank ch.val r.val b.val).counts, e.2 = 0) ∧
      t.field.core.regs = s.field.core.regs ∧ CoreOnly s t) ∧
    (let word := 64 * s.field.core.rd MEM_SCRUB_POS.PAGE + s.field.core.mem.scrubWord
     let ch := (s.field.core.pageAt (word / 64)).1
     s.field.core.rdb MEM_SCRUB_CFG.EN = true → FourChannels s.field.core → s.field.core.wordExists word = true →
      100000000 ≤ s.field.core.dramHead → s.field.core.rd MEMC_STATUS.STATE ch < 3 →
      s.field.dram.poison.contains word = false → Answers (.scrubRead none) s fun t =>
        t.field.core.etime = max s.field.core.etime (s.field.core.mem.scrubAt + s.field.core.scrubStep) ∧
        64 * t.field.core.rd MEM_SCRUB_POS.PAGE + t.field.core.mem.scrubWord =
          (if s.field.core.wordExists (word + 1) then word + 1 else 0) ∧
        (s.field.core.wordExists (word + 1) = false → (t.field.core.newest 0x040B).map (·.1) = some 0x040B) ∧
        SameRegs [MEM_SCRUB_POS.PAGE.key 0, MEMC_RH_CNT.COUNT.key ch, LOG_EVT_OVWR_CNT.COUNT.key 0]
          s.field.core t.field.core ∧ CoreOnly s t) ∧
    (∀ (m : Mig) (tgt : Nat), s.field.core.mem.cur = some (m, tgt) → m.ch < 4 →
      s.field.core.rd MEMC_STATUS.STATE m.ch ≠ 3 → s.field.core.rd MEM_MIG_CURSOR.ROW + 1 < 2 ^ 21 →
      s.field.dram.poison = [] → Answers (.migrationRowCopy [] false) s fun t =>
        t.field.core.etime =
          max s.field.core.etime (s.field.core.mem.copiedAt + 40960 / s.field.core.rd MEM_CFG.MIG_RATE) ∧
        t.field.core.rd MEM_MIG_CURSOR.ROW = s.field.core.rd MEM_MIG_CURSOR.ROW + 1 ∧
        t.field.core.mem.cur = s.field.core.mem.cur ∧ t.field.core.mem.queue = s.field.core.mem.queue ∧
        SameRegs [MEM_MIG_CURSOR.ROW.key 0, MEMC_RH_CNT.COUNT.key m.ch] s.field.core t.field.core ∧ CoreOnly s t) ∧
    (∀ (ch : Fin 4) (result : Fin 3) (ms : BitVec 16) (failed : List (Fin 3)), result ≠ 2 →
      s.field.core.rd MEMC_STATUS.STATE ch.val = 3 →
      2 ≤ ((List.range 3).filter fun r => decide (1 ≤ s.field.core.rank ch.val r ∧ s.field.core.rank ch.val r ≤ 5)).length →
      Answers (.channelRetrain ch result ms failed) s fun t =>
        t.field.core.rd MEMC_TRAIN.MS ch.val = ms.toNat ∧
        t.field.core.rd MEMC_TRAIN.COUNT ch.val = satU 8 (s.field.core.rd MEMC_TRAIN.COUNT ch.val + 1) ∧
        t.field.core.rd MEMC_STATUS.STATE ch.val = (if (List.range 3).any fun r =>
          s.field.core.rank ch.val r == 2 || s.field.core.rank ch.val r == 4 then 1 else 2) ∧
        s.field.core.Raised t.field.core 0x0408 (ch.val + at_ 1 result.val + at_ 2 ms.toNat) ∧
        SameRegs [MEMC_TRAIN.MS.key ch.val, MEMC_TRAIN.COUNT.key ch.val, MEMC_STATUS.STATE.key ch.val,
          MEMC_RH_CNT.COUNT.key ch.val, LOG_EVT_OVWR_CNT.COUNT.key 0] s.field.core t.field.core ∧ CoreOnly s t) ∧
    (s.field.core.mem.reform = true → (∀ j ∈ s.field.core.jobs.jobs, j.live = false) → s.field.core.mem.camWas = false →
      Answers .channelReform s fun t =>
        let chs := maskBits 4 (s.field.core.rd MEM_STATUS.IN_SERVICE)
        t.field.core.mem.layout = chs ∧ t.field.core.mem.reform = false ∧
        t.field.core.rd MEM_STATUS.WAYS = chs.length ∧ t.field.core.rd MEM_STATUS.GIB = 16 * chs.length ∧
        (∀ a, firmwarePage (t.field.core.pageAt (a / 4096)).2 = false → t.field.dram.get a = memDefault) ∧
        (s.field.dram.wf → s.field.core.mem.layout.Nodup → ∀ ch ∈ chs, ch ∈ s.field.core.mem.layout → ∀ cp i, firmwarePage cp = true →
          i < 4096 → t.field.dram.get (4096 * t.field.core.pageOf ch cp + i) =
            s.field.dram.get (4096 * s.field.core.pageOf ch cp + i)) ∧
        SameRegs [MEM_STATUS.WAYS.key 0, MEM_STATUS.GIB.key 0, MEM_SCRUB_POS.PAGE.key 0] s.field.core t.field.core ∧
        t.pending = s.pending ∧ t.host = s.host))

/-! ### Temperature and power (spec/14) -/

/-- Temperature and power (R398, R539, R540, R544, R546 to R551). THERM_SET and POWER_BUDGET store settings in their ranges; an
exclusion within its limits is stored, and what it ends takes effect at once; a forced engagement and a relaxation change the level
by one at their times; the hardware guard's third sample at 125 °C sets level 4, GUARD_HW and the TRIP cause on every bar, and a
cool sample clears GUARD_HW. -/
def Obligations.ThermalSettingsGuardAndLevels : Prop :=
  (∀ (c : Call) (n : Byte) (warn thr trip : BitVec 16) (s : State), CleanHeader c 8 → Runs c 0x0700 2 s →
    sgn 16 warn.toNat < sgn 16 thr.toNat → sgn 16 thr.toNat < sgn 16 trip.toNat →
    (n.toNat < 25 → sgn 16 trip.toNat ≤ tripMax n.toNat → Answers (.thermSet c n warn thr trip) s fun t =>
      Completed c 0x0700 0 0 s t ∧ t.field.core.rd THMS_WT.WARN n.toNat = warn.toNat ∧
      t.field.core.rd THMS_WT.THROTTLE n.toNat = thr.toNat ∧ t.field.core.rd THMS_TRIP.TRIP n.toNat = trip.toNat ∧
      CommandFrame c 0x0700 [THMS_WT.WARN.key n.toNat, THMS_WT.THROTTLE.key n.toNat, THMS_TRIP.TRIP.key n.toNat] s t) ∧
    (∀ h : Fin 192, n.toNat = 32 + h.val → s.field.core.headPresent h.val = true → (s.field.core.hr h.val).desc ≠ [] →
      sgn 16 trip.toNat ≤ sgn 16 (leAt (s.field.core.hr h.val).desc 0x2E 2) →
      Answers (.thermSet c n warn thr trip) s fun t =>
        Completed c 0x0700 0 0 s t ∧ t.field.core.rd HDC_TEMP_WARN.WARN h.val = warn.toNat ∧
        t.field.core.rd HDC_TEMP_LIM.LIMIT h.val = thr.toNat ∧ t.field.core.rd HDC_TEMP_LIM.TRIP h.val = trip.toNat ∧
        CommandFrame c 0x0700 [HDC_TEMP_WARN.WARN.key h.val, HDC_TEMP_LIM.LIMIT.key h.val, HDC_TEMP_LIM.TRIP.key h.val]
          s t)) ∧
  (∀ (c : Call) (w : BitVec 16) (s : State), CleanHeader c 4 → Runs c 0x0701 2 s → 40 ≤ w.toNat → w.toNat ≤ 120 →
    Answers (.powerBudget c w) s fun t =>
      Completed c 0x0701 0 0 s t ∧ t.field.core.rd PWR_BUDGET.BUDGET_W = w.toNat ∧
      CommandFrame c 0x0701 [PWR_BUDGET.BUDGET_W.key 0] s t) ∧
  (∀ (c : Call) (v : Word) (s : State), CleanHeader c 8 → Runs c 0x0101 3 s → s.field.core.cdc.out = [] →
    (maskBits 16 (bits v.toNat 15 0)).length ≤ 4 → (maskBits 8 (bits v.toNat 23 16)).length ≤ 2 →
    v.toNat.testBit 16 = false → v.toNat.testBit 19 = false → Answers (.thmExclWrite c v) s fun t =>
      Completed c 0x0101 0 0 s t ∧ t.field.core.rd THM_EXCL.TS = bits v.toNat 15 0 ∧
      t.field.core.rd THM_EXCL.MS = bits v.toNat 23 16 ∧ t.field.core.rd THM_EXCL.DT = b2n (v.toNat.testBit 24) ∧
      t.field.core.rd THM_STATUS.TRIP = b2n ((List.range 25).any fun n =>
        s.field.core.rdb THMS_READ.TRIP n && !t.field.core.excluded n) ∧
      CommandFrame c 0x0101 (THM_EXCL.TS.key 0 :: THM_EXCL.MS.key 0 :: THM_EXCL.DT.key 0 :: THM_STATUS.TRIP.key 0 :: fireKeys)
        s t) ∧
  (∀ s : State, s.field.core.bootState ≠ 1 → s.field.core.imagoDead = false → s.field.core.rd THM_STATUS.LEVEL ≤ 4 →
    (s.field.core.rd THM_STATUS.PENDING = 1 → Answers .throttleEngageForced s fun t =>
      let old := s.field.core.rd THM_STATUS.LEVEL
      t.field.core.etime = max s.field.core.etime
        (s.field.core.thm.pendAt + 1000000 * s.field.core.rd THM_THR_CFG.ENGAGE_MS) ∧
      t.field.core.rd THM_STATUS.LEVEL = min 4 (old + 1) ∧ t.field.core.rd THM_STATUS.PENDING = 0 ∧
      t.field.core.rd THM_THR_CNT.ENGAGES = satU 16 (s.field.core.rd THM_THR_CNT.ENGAGES + 1) ∧
      t.field.core.rd THM_THR_CNT.FORCED = satU 16 (s.field.core.rd THM_THR_CNT.FORCED + 1) ∧
      s.field.core.Raised t.field.core 0x0D06
        ((old + at_ 1 (min 4 (old + 1)) + at_ 2 1 + at_ 3 s.field.core.thm.pendBy) % 2 ^ 128) ∧
      SameRegs [THM_STATUS.LEVEL.key 0, THM_STATUS.PENDING.key 0, THM_THR_CNT.ENGAGES.key 0, THM_THR_CNT.FORCED.key 0,
        SPG_TERM_STATIC.HZ.key 0, LOG_EVT_OVWR_CNT.COUNT.key 0] s.field.core t.field.core ∧ CoreOnly s t) ∧
    (∀ t0 : Nat, s.field.core.thm.coolFrom = some t0 → s.field.core.rd THM_STATUS.LEVEL ≠ 0 →
      s.field.core.rd THM_STATUS.GUARD_HW = 0 → Answers .throttleRelax s fun t =>
        t.field.core.etime = max s.field.core.etime (t0 + 1000000 * s.field.core.rd THM_THR_CFG.RELAX_MS) ∧
        t.field.core.rd THM_STATUS.LEVEL = s.field.core.rd THM_STATUS.LEVEL - 1 ∧
        t.field.core.thm.coolFrom = some t.field.core.etime ∧ (t.field.core.newest 0x0D06).map (·.1) = some 0x0D06 ∧
        SameRegs [THM_STATUS.LEVEL.key 0, SPG_TERM_STATIC.HZ.key 0, LOG_EVT_OVWR_CNT.COUNT.key 0]
          s.field.core t.field.core ∧ CoreOnly s t) ∧
    (∀ (n : Fin 16) (x : BitVec 16), s.field.core.excluded n.val = false →
      (-550 ≤ sgn 16 x.toNat → sgn 16 x.toNat < 1150 → Answers (.hwGuardSample [(n, x)]) s fun t =>
        t.field.core.rd THM_STATUS.GUARD_HW = 0 ∧ mget 0 t.field.core.thm.guard n.val = 0 ∧
        t.field.core.rd THM_STATUS.LEVEL = s.field.core.rd THM_STATUS.LEVEL ∧
        SameRegs [THM_STATUS.GUARD_HW.key 0] s.field.core t.field.core ∧ CoreOnly s t) ∧
      (1250 ≤ sgn 16 x.toNat → sgn 16 x.toNat ≤ 1750 → 2 ≤ mget 0 s.field.core.thm.guard n.val →
        s.field.core.rd THM_STATUS.GUARD_HW = 0 → Answers (.hwGuardSample [(n, x)]) s fun t =>
          t.field.core.rd THM_STATUS.LEVEL = 4 ∧ t.field.core.rd THM_STATUS.PENDING = 0 ∧
          t.field.core.rd THM_STATUS.GUARD_HW = 1 ∧
          (∀ b : Fin 8, (t.field.core.causes b.val).testBit 4 = true) ∧
          t.field.core.newest 0x0D07 = some (0x0D07, n.val + at_ 2 x.toNat) ∧ CoreOnly s t)))

/-! ### Operator display (spec/15) -/

/-- The display (R146, R564 to R574). DSP_CONFIG in its ranges makes the port STARTING with the panel held in reset; its last step
makes it READY and completes it with OK, and a panel that does not answer its identity makes it REFUSED with DEVICE_FAULT;
DSP_COMMIT puts its pixels into a staging area and takes the next number; a TE edge is timed and starts a commit that is due; a
push that ends is reported and its area given back; without TE for 100 ms commits go out without it. -/
def Obligations.DisplayConfiguresAndPushes : Prop :=
  (∀ (c : Call) (id : BitVec 24) (w h mbps : BitVec 16) (answer : Option (BitVec 24)) (s : State), CleanHeader c 12 →
    Runs c 0x0A00 2 s → 1 ≤ w.toNat → w.toNat ≤ 1920 → 1 ≤ h.toNat → h.toNat ≤ 1200 → 80 ≤ mbps.toNat → mbps.toNat ≤ 1500 →
    s.field.core.dsp.push = none → s.field.core.dsp.commits = [] → s.field.core.dsp.run = none → s.field.core.dsp.cfg = [] →
    Answers (.dspConfig c id w h mbps answer) s fun t =>
      let g : DspCfg := ⟨refOf 0x0A00 c, id.toNat, w.toNat, h.toNat, mbps.toNat, answer.map BitVec.toNat⟩
      Started c 0x0A00 t ∧ t.field.core.dspState = 1 ∧ t.field.core.dsp.rst = true ∧
      t.field.core.dsp.run = some ⟨g, s.field.core.etime, 1⟩ ∧
      t.field.core.rd DSP_PANEL.WIDTH = w.toNat ∧ t.field.core.rd DSP_PANEL.HEIGHT = h.toNat ∧
      t.field.core.rd DSP_PANEL_ID.ID = id.toNat ∧
      CommandFrame c 0x0A00 [DSP_PANEL.WIDTH.key 0, DSP_PANEL.HEIGHT.key 0, DSP_PANEL_ID.ID.key 0,
        DSP_STATUS.STATE.key 0, DSP_STATUS.PENDING.key 0, DSP_STATUS.PUSHING.key 0] s t) ∧
  (∀ (f : Field) (x : DspStart), f.core.dsp.run = some x → f.core.dsp.cfg = [] → x.due ≤ f.core.etime →
    x.cfg.ref ∈ f.core.cmdq.open_ → x.cfg.ref.src = .host →
    let g := (dspSteps f).core
    let ends := fun (status result : Nat) => g.cmdq.done = f.core.cmdq.done ++
      [⟨1, status, x.cfg.ref.tag, x.cfg.ref.q, x.cfg.ref.opcode, x.cfg.ref.index, f.core.etime, result⟩]
    (x.step = 4 → g.dspState = 2 ∧ g.dsp.run = none ∧ g.dsp.readyAt = f.core.etime ∧ ends 0 0 ∧
      g.dsp.out = [[0x3A, 0x77], [0x35, 0x00], [0x29]] ∧ f.core.Raised g 0x0E06 (x.cfg.id % 2 ^ 128)) ∧
    (x.step = 2 → x.cfg.answer ≠ some x.cfg.id → g.dspState = 3 ∧ g.dsp.run = none ∧ g.dsp.rst = true ∧
      ends 0x40 (detailResult 0 0xFFFF 0x0E41) ∧ (g.newest 0x0E41).map (·.1) = some 0x0E41)) ∧
  (∀ (c : Call) (regions : Byte) (d : Bytes) (base : Nat) (x : Core) (s : State), BulkHeader c 4 d → Runs c 0x0A01 1 s →
    s.field.core.dspState = 2 → 1 ≤ regions.toNat → regions.toNat ≤ 16 → s.field.core.dsp.commits = [] →
    s.field.core.dsp.push = none → s.field.core.dsp.noTe = false → s.field.core.dsp.next < 65536 →
    s.field.core.allocJob d.length = some (base, x) → d.length ≤ s.field.core.jobFree → d.length ≤ 6912256 →
    (∀ i, i < regions.toNat →
      dspRegionOk (s.field.core.rd DSP_PANEL.WIDTH) (s.field.core.rd DSP_PANEL.HEIGHT) d i = true) →
    (let area := (dspRegions regions.toNat d).foldl (fun a r => a + r.2.2.1 * r.2.2.2) 0
     d.length = 16 * regions.toNat + 3 * area ∧
       area ≤ s.field.core.rd DSP_PANEL.WIDTH * s.field.core.rd DSP_PANEL.HEIGHT) →
    s.field.dram.wf → Answers (.dspCommit c regions) s fun t =>
      Completed c 0x0A01 0 s.field.core.dsp.next s t ∧ t.field.core.dsp.next = (s.field.core.dsp.next + 1) % 65536 ∧
      t.field.core.dsp.commits = [⟨s.field.core.dsp.next, base, d.length, dspRegions regions.toNat d, s.field.core.etime, none,
        0, 0, false, false, false⟩] ∧
      t.field.core.rd DSP_STATUS.PENDING = 1 ∧ t.field.core.jobs.regions = x.jobs.regions ∧
      (∀ i, i < d.length → t.field.dram.get (base + i) = d.getD i 0) ∧
      SameBytes base d.length s.field.dram t.field.dram ∧
      SameOutside [0x01, 0x04, 0x18, 0x1B] s.field.core t.field.core) ∧
  (∀ s : State, s.field.core.bootState ≠ 1 → s.field.core.dspState = 2 →
    (s.field.core.dsp.push = none → (∀ t0, s.field.core.dsp.lastEdge = some t0 → t0 + 8000000 ≤ s.field.core.etime) →
      (∀ t0, s.field.core.dsp.lastEdge = some t0 → s.field.core.dsp.commits = [] → Answers .dspTeEdge s fun t =>
        t.field.core.rd DSP_TE.PERIOD_US = satU 20 ((s.field.core.etime - t0) / 1000) ∧
        SameOutside [0x18, 0x1B] s.field.core t.field.core ∧ CoreOnly s t) ∧
      (s.field.core.dsp.commits = [] → Answers .dspTeEdge s fun t =>
        t.field.core.dsp = { s.field.core.dsp with lastEdge := some s.field.core.etime, noTe := false } ∧
        t.field.core.rd2 DSP_LAST_TE_LO.ETIME DSP_LAST_TE_HI.ETIME = s.field.core.etime % 2 ^ 64 ∧
        t.field.core.rd DSP_STATUS.TE_OK = (if s.field.core.rd DSP_STATUS.TE_OK = 0 then 1
          else s.field.core.rd DSP_STATUS.TE_OK) ∧
        (s.field.core.rd DSP_STATUS.TE_OK = 0 → (t.field.core.newest 0x0E05).map (·.1) = some 0x0E05) ∧
        SameRegs [DSP_TE.PERIOD_US.key 0, DSP_LAST_TE_LO.ETIME.key 0, DSP_LAST_TE_HI.ETIME.key 0, DSP_STATUS.TE_OK.key 0,
          DSP_STATUS.PENDING.key 0, DSP_STATUS.PUSHING.key 0, LOG_EVT_OVWR_CNT.COUNT.key 0] s.field.core t.field.core ∧
        CoreOnly s t) ∧
      (∀ k : DspCommit, s.field.core.dsp.commits = [k] → k.edge = none →
        k.eligible + 1000 * s.field.core.rd DSP_TIMING.PRIME_US ≤ s.field.core.etime → Answers .dspTeEdge s fun t =>
          t.field.core.dsp.push = some { k with edge := some s.field.core.etime, start := s.field.core.etime } ∧
          t.field.core.dsp.commits = [] ∧ t.field.core.rd DSP_STATUS.PUSHING = 1 ∧
          t.field.core.rd DSP_STATUS.PENDING = 0 ∧ SameOutside [0x18, 0x1B] s.field.core t.field.core ∧ CoreOnly s t)) ∧
    (∀ k : DspCommit, s.field.core.dsp.push = some k → s.field.core.dsp.cfg = [] → s.field.core.dsp.commits = [] →
      s.field.dram.poison = [] →
      Answers (.dspPushEnd 0 none) s fun t =>
        (let all := s.field.core.dsp.lineBuf ++ dspPixels s.field.core s.field.dram k
         t.field.core.dsp = { s.field.core.dsp with
           push := none, lineBuf := all.drop (all.length - 65536)
           out := dspPackets k.regions (dspPixels s.field.core s.field.dram k) }) ∧
        t.field.core.rd DSP_COMMIT_CNT.DONE = satU 16 (s.field.core.rd DSP_COMMIT_CNT.DONE + 1) ∧
        t.field.core.rd DSP_LAST.COMMIT = k.num % 65536 ∧ t.field.core.rd DSP_LAST.UNDERRUN = 0 ∧
        t.field.core.rd DSP_STATUS.PUSHING = 0 ∧
        s.field.core.Raised t.field.core 0x0E01
          ((k.num + at_ 2 (dspFlags k.late false k.span false k.noTe) + at_ 8 (k.edge.getD 0)) % 2 ^ 128) ∧
        (∀ r ∈ t.field.core.jobs.regions, r ∈ s.field.core.jobs.regions ∧ r.1 ≠ k.base) ∧
        SameBytes k.base (alignUp k.len 4096) s.field.dram t.field.dram ∧ t.pending = s.pending ∧ t.host = s.host) ∧
    (s.field.core.dsp.noTe = false → s.field.core.dsp.commits = [] → Answers .dspTeLost s fun t =>
      t.field.core.etime = max s.field.core.etime (s.field.core.dsp.lastEdge.getD s.field.core.dsp.readyAt + 100000000) ∧
      t.field.core.rd DSP_STATUS.TE_OK = 0 ∧ t.field.core.dsp = { s.field.core.dsp with noTe := true } ∧
      s.field.core.Raised t.field.core 0x0E04 (at_ 4 (s.field.core.rd DSP_TE.PERIOD_US) % 2 ^ 128) ∧
      SameRegs [DSP_STATUS.TE_OK.key 0, DSP_STATUS.PENDING.key 0, DSP_STATUS.PUSHING.key 0, LOG_EVT_OVWR_CNT.COUNT.key 0]
        s.field.core t.field.core ∧ CoreOnly s t))

/-! ### Integrity, crossings and fault injection (spec/16) -/

/-- Injection and crossings (R586, R590 to R594, R598). FIJ_SET arms the lowest free rule; FIJ_CLEAR disarms every rule; a delayed
forward unit leaves at its time; a crossing without an answer is TIMED_OUT, counted, noted and reported. -/
def Obligations.InjectionAndCrossingsAct : Prop :=
  (∀ (c : Call) (target inst action : Byte) (rate count : Word) (r : Nat) (s : State), CleanHeader c 12 → Runs c 0x0900 3 s →
    s.field.core.printing = false → 1 ≤ target.toNat → target.toNat ≤ 5 →
    (if target.toNat ≤ 2 then inst = 0 else if target.toNat ≤ 4 then inst.toNat < 24 else inst.toNat ≤ 3 ∨ inst = 0xFF) →
    1 ≤ action.toNat → action.toNat ≤ 4 → rate ≠ 0 → (action = 4 → s.field.core.rd FIJ_ARG.ARG ≠ 0) → r < 8 →
    (s.field.core.rd FIJ_STATUS.ARMED).testBit r = false →
    (∀ k, k < r → (s.field.core.rd FIJ_STATUS.ARMED).testBit k = true) →
    Answers (.fijSet c target inst action rate count) s fun t =>
      Completed c 0x0900 0 r s t ∧ (t.field.core.rd FIJ_STATUS.ARMED).testBit r = true ∧
      t.field.core.rd FIJ_RULE.TARGET r = target.toNat ∧ t.field.core.rd FIJ_RULE.INSTANCE r = inst.toNat ∧
      t.field.core.rd FIJ_RULE.ACTION r = action.toNat ∧
      t.field.core.rd FIJ_RULE.ARG r = s.field.core.rd FIJ_ARG.ARG % 65536 ∧
      t.field.core.rd FIJ_RATE.RATE r = rate.toNat ∧ t.field.core.rd FIJ_LEFT.LEFT r = count.toNat ∧
      t.field.core.rd FIJ_HITS.COUNT r = 0 ∧
      s.field.core.Raised t.field.core 0x0F07 (r + at_ 1 target.toNat + at_ 2 inst.toNat + at_ 3 action.toNat) ∧
      CommandFrame c 0x0900 [FIJ_STATUS.ARMED.key 0, FIJ_RULE.TARGET.key r, FIJ_RULE.INSTANCE.key r, FIJ_RULE.ACTION.key r,
        FIJ_RULE.ARG.key r, FIJ_RATE.RATE.key r, FIJ_LEFT.LEFT.key r, FIJ_HITS.COUNT.key r] s t) ∧
  (∀ (c : Call) (s : State), CleanHeader c 0 → Runs c 0x0901 3 s → Answers (.fijClear c) s fun t =>
    Completed c 0x0901 0 0 s t ∧ t.field.core.rd FIJ_STATUS.ARMED = 0 ∧
    (s.field.core.rd FIJ_STATUS.ARMED ≠ 0 → (t.field.core.newest 0x0F08).map (·.1) = some 0x0F08) ∧
    CommandFrame c 0x0901 [FIJ_STATUS.ARMED.key 0] s t) ∧
  (∀ (l : Fin 24) (kind due : Nat) (blocks : List Bytes) (s : State),
    s.field.core.fij.held = [⟨3, l.val, kind, some due, none, blocks⟩] → 3 ≤ s.field.core.linkState l.val →
    Answers .fijDelayRelease s fun t =>
      t.field.core.etime = max s.field.core.etime due ∧ t.field.core.fij.held = [] ∧
      (t.field.core.ln l.val).out = leaving l.val blocks s.field.core ∧ t.field.core.regs = s.field.core.regs ∧
      CoreOnly s t) ∧
  (∀ (id : BitVec 16) (s : State), s.field.core.bootState ≠ 1 → id.toNat < 8192 → s.field.core.timedOut id.toNat = false →
    Answers (.cdcTimeout id) s fun t =>
      t.field.core.cdc.out = s.field.core.cdc.out ++ [id.toNat] ∧
      t.field.core.rd CDC_STATUS.TIMED_OUT = satU 8 (s.field.core.cdc.out.length + 1) ∧
      t.field.core.rd CDC_TO_CNT.COUNT = satU 32 (s.field.core.rd CDC_TO_CNT.COUNT + 1) ∧
      t.field.core.rd CDC_LAST.ID = id.toNat ∧ t.field.core.rd CDC_LAST.KIND = 1 ∧
      t.field.core.rd2 CDC_LAST_ETIME_LO.ETIME CDC_LAST_ETIME_HI.ETIME = t.field.core.etime % 2 ^ 64 ∧
      t.field.core.etime = max s.field.core.etime (s.field.core.timeoutAt id.toNat) ∧
      s.field.core.Raised t.field.core 0x0F01 id.toNat ∧
      SameRegs [CDC_STATUS.TIMED_OUT.key 0, CDC_TO_CNT.COUNT.key 0, CDC_LAST.ID.key 0, CDC_LAST.KIND.key 0,
        CDC_LAST_ETIME_LO.ETIME.key 0, CDC_LAST_ETIME_HI.ETIME.key 0, LOG_EVT_OVWR_CNT.COUNT.key 0]
        s.field.core t.field.core ∧ CoreOnly s t)
end

