-- ==== Sys2Proof/Laws/Store.lean ====
section
/-! SUPPORT. Sparse stores: a read after a write, writes to other keys, and the canonical form. -/

namespace Sys2Proof.Machine

variable {α : Type}

/-- A key reads what was put there. -/
@[simp] theorem mget_mput (d : α) (k : Nat) (v : α) (m : SMap α) : mget d (mput k v m) k = v := by
  induction m with
  | nil => simp [mput, mget]
  | cons e m ih =>
    unfold mput
    split
    · simp [mget]
    · split
      · simp [mget]
      · rename_i h1 h2
        simp [mget, Ne.symm h2, ih]
/-- Another key reads as before. -/
theorem mget_mput_ne (d : α) {k j : Nat} (v : α) (m : SMap α) (h : j ≠ k) : mget d (mput k v m) j = mget d m j := by
  induction m with
  | nil => simp [mput, mget, Ne.symm h]
  | cons e m ih =>
    unfold mput
    split
    · simp [mget, Ne.symm h]
    · split
      · rename_i h1 h2
        simp [mget, Ne.symm h, ← h2]
      · simp [mget, ih]
/-- A dropped key reads as the default. -/
@[simp] theorem mget_mdel (d : α) (k : Nat) (m : SMap α) : mget d (mdel k m) k = d := by
  induction m with
  | nil => rfl
  | cons e m ih =>
    unfold mdel
    split
    · exact ih
    · rename_i h
      simp [mget, h, ih]
/-- Another key reads as before. -/
theorem mget_mdel_ne (d : α) {k j : Nat} (m : SMap α) (h : j ≠ k) : mget d (mdel k m) j = mget d m j := by
  induction m with
  | nil => rfl
  | cons e m ih =>
    unfold mdel
    split
    · rename_i h1
      rw [ih]
      simp [mget, h1, Ne.symm h]
    · simp [mget, ih]
/-- A key reads what was set there. -/
@[simp] theorem mget_mset [DecidableEq α] (d : α) (m : SMap α) (k : Nat) (v : α) : mget d (mset d m k v) k = v := by
  unfold mset; split
  · rename_i h; simp [h]
  · simp
/-- Another key reads as before, whatever default its own reads take. -/
theorem mget_mset_ne [DecidableEq α] {d d' : α} {k j : Nat} (m : SMap α) (v : α) (h : j ≠ k) :
    mget d (mset d' m k v) j = mget d m j := by
  unfold mset; split
  · exact mget_mdel_ne d m h
  · exact mget_mput_ne d v m h

/-- What is in a store after a drop was there before, under another key. -/
theorem mem_mdel {k : Nat} {m : SMap α} {e : Nat × α} (h : e ∈ mdel k m) : e ∈ m ∧ e.1 ≠ k := by
  induction m with
  | nil => simp [mdel] at h
  | cons x m ih =>
    unfold mdel at h
    split at h
    · exact ⟨List.mem_cons_of_mem _ (ih h).1, (ih h).2⟩
    · rename_i hx
      rcases List.mem_cons.1 h with rfl | h
      · exact ⟨List.mem_cons_self, hx⟩
      · exact ⟨List.mem_cons_of_mem _ (ih h).1, (ih h).2⟩
/-- What is in a store after a put is the new entry or was there before. -/
theorem mem_mput {k : Nat} {v : α} {m : SMap α} {e : Nat × α} (h : e ∈ mput k v m) : e = (k, v) ∨ e ∈ m := by
  induction m with
  | nil => simpa [mput] using h
  | cons x m ih =>
    unfold mput at h
    split at h
    · simpa using h
    · split at h
      · rcases List.mem_cons.1 h with rfl | h
        · exact .inl rfl
        · exact .inr (List.mem_cons_of_mem _ h)
      · rcases List.mem_cons.1 h with rfl | h
        · exact .inr List.mem_cons_self
        · exact (ih h).imp id (List.mem_cons_of_mem _)
/-- A drop keeps the canonical form. -/
theorem mdel_wf {d : Nat → α} {m : SMap α} (k : Nat) (h : mwf d m) : mwf d (mdel k m) := by
  refine ⟨?_, fun e he => h.2 e (mem_mdel he).1⟩
  have hp := h.1
  clear h
  induction m with
  | nil => simp [mdel]
  | cons x m ih =>
    rw [List.pairwise_cons] at hp
    unfold mdel; split
    · exact ih hp.2
    · exact List.pairwise_cons.2 ⟨fun e he => hp.1 e (mem_mdel he).1, ih hp.2⟩
/-- A put of a value that is not the default keeps the canonical form. -/
theorem mput_wf {d : Nat → α} {m : SMap α} {k : Nat} {v : α} (hv : v ≠ d k) (h : mwf d m) : mwf d (mput k v m) := by
  refine ⟨?_, fun e he => ?_⟩
  · have hp := h.1
    clear h
    induction m with
    | nil => simp [mput]
    | cons x m ih =>
      have hq := List.pairwise_cons.1 hp
      unfold mput; split
      · rename_i hk
        refine List.pairwise_cons.2 ⟨fun e he => ?_, hp⟩
        rcases List.mem_cons.1 he with rfl | he
        · exact hk
        · exact Nat.lt_trans hk (hq.1 e he)
      · split
        · rename_i hk
          exact List.pairwise_cons.2 ⟨fun e he => by simpa [hk] using hq.1 e he, hq.2⟩
        · rename_i h1 h2
          refine List.pairwise_cons.2 ⟨fun e he => ?_, ih hq.2⟩
          rcases mem_mput he with rfl | he
          · simp only; omega
          · exact hq.1 e he
  · rcases mem_mput he with rfl | he
    · exact hv
    · exact h.2 e he
/-- A set keeps the canonical form. -/
theorem mset_wf [DecidableEq α] {d : α} {m : SMap α} (k : Nat) (v : α) (h : mwf (fun _ => d) m) :
    mwf (fun _ => d) (mset d m k v) := by
  unfold mset; split
  · exact mdel_wf k h
  · rename_i hv
    exact mput_wf hv h
/-- A selection of a store keeps the canonical form. -/
theorem filter_wf {d : Nat → α} {m : SMap α} (p : Nat × α → Bool) (h : mwf d m) : mwf d (m.filter p) :=
  ⟨h.1.filter _, fun e he => h.2 e (List.mem_filter.1 he).1⟩

end Sys2Proof.Machine
end

