-- ==== Sys2Proof/Laws/State.lean ====
section
/-! SUPPORT. What the named operations over State leave alone, field by field, and what a register reads after them. -/

namespace Sys2Proof.Machine

/-! ### Registers: what a write changes -/

/-- A register field reads what was written to it, modulo its width. -/
@[simp] theorem Core.rd_wr (s : Core) (f : Fld) (v n : Nat) : (s.wr f v n).rd f n = v % 2 ^ f.width := by
  simp [Core.rd, Core.wr]
/-- A write to one field leaves a field under another key alone. -/
theorem Core.rd_wr_ne (s : Core) (f g : Fld) (v n m : Nat) (h : g.key m ≠ f.key n) : (s.wr f v n).rd g m = s.rd g m := by
  simp [Core.rd, Core.wr, mget_mset_ne _ _ h]
/-- Nor does any other record matter to a register read. -/
theorem Core.rd_congr {a b : Core} (h : a.regs = b.regs) (f : Fld) (n : Nat) : a.rd f n = b.rd f n := by
  simp [Core.rd, h]

/-! ### wr -/

@[simp] theorem Core.wr_latch (s : Core) (f : Fld) (v n : Nat) : (s.wr f v n).latch = s.latch := rfl
@[simp] theorem Core.wr_lo (s : Core) (f : Fld) (v n : Nat) : (s.wr f v n).lo = s.lo := rfl
@[simp] theorem Core.wr_etime (s : Core) (f : Fld) (v n : Nat) : (s.wr f v n).etime = s.etime := rfl
@[simp] theorem Core.wr_free (s : Core) (f : Fld) (v n : Nat) : (s.wr f v n).free = s.free := rfl
@[simp] theorem Core.wr_limits (s : Core) (f : Fld) (v n : Nat) : (s.wr f v n).limits = s.limits := rfl
@[simp] theorem Core.wr_resetPending (s : Core) (f : Fld) (v n : Nat) : (s.wr f v n).resetPending = s.resetPending := rfl
@[simp] theorem Core.wr_cmdq (s : Core) (f : Fld) (v n : Nat) : (s.wr f v n).cmdq = s.cmdq := rfl
@[simp] theorem Core.wr_ely (s : Core) (f : Fld) (v n : Nat) : (s.wr f v n).ely = s.ely := rfl
@[simp] theorem Core.wr_flash (s : Core) (f : Fld) (v n : Nat) : (s.wr f v n).flash = s.flash := rfl
@[simp] theorem Core.wr_tck (s : Core) (f : Fld) (v n : Nat) : (s.wr f v n).tck = s.tck := rfl
@[simp] theorem Core.wr_pwr (s : Core) (f : Fld) (v n : Nat) : (s.wr f v n).pwr = s.pwr := rfl
@[simp] theorem Core.wr_press (s : Core) (f : Fld) (v n : Nat) : (s.wr f v n).press = s.press := rfl
@[simp] theorem Core.wr_jobs (s : Core) (f : Fld) (v n : Nat) : (s.wr f v n).jobs = s.jobs := rfl
@[simp] theorem Core.wr_pos (s : Core) (f : Fld) (v n : Nat) : (s.wr f v n).pos = s.pos := rfl
@[simp] theorem Core.wr_spg (s : Core) (f : Fld) (v n : Nat) : (s.wr f v n).spg = s.spg := rfl
@[simp] theorem Core.wr_hlk (s : Core) (f : Fld) (v n : Nat) : (s.wr f v n).hlk = s.hlk := rfl
@[simp] theorem Core.wr_cam (s : Core) (f : Fld) (v n : Nat) : (s.wr f v n).cam = s.cam := rfl
@[simp] theorem Core.wr_csv (s : Core) (f : Fld) (v n : Nat) : (s.wr f v n).csv = s.csv := rfl
@[simp] theorem Core.wr_mem (s : Core) (f : Fld) (v n : Nat) : (s.wr f v n).mem = s.mem := rfl
@[simp] theorem Core.wr_thm (s : Core) (f : Fld) (v n : Nat) : (s.wr f v n).thm = s.thm := rfl
@[simp] theorem Core.wr_dsp (s : Core) (f : Fld) (v n : Nat) : (s.wr f v n).dsp = s.dsp := rfl
@[simp] theorem Core.wr_fij (s : Core) (f : Fld) (v n : Nat) : (s.wr f v n).fij = s.fij := rfl
@[simp] theorem Core.wr_cdc (s : Core) (f : Fld) (v n : Nat) : (s.wr f v n).cdc = s.cdc := rfl

/-! ### inc -/

@[simp] theorem Core.inc_latch (s : Core) (f : Fld) (n k : Nat) : (s.inc f n k).latch = s.latch := rfl
@[simp] theorem Core.inc_lo (s : Core) (f : Fld) (n k : Nat) : (s.inc f n k).lo = s.lo := rfl
@[simp] theorem Core.inc_etime (s : Core) (f : Fld) (n k : Nat) : (s.inc f n k).etime = s.etime := rfl
@[simp] theorem Core.inc_free (s : Core) (f : Fld) (n k : Nat) : (s.inc f n k).free = s.free := rfl
@[simp] theorem Core.inc_limits (s : Core) (f : Fld) (n k : Nat) : (s.inc f n k).limits = s.limits := rfl
@[simp] theorem Core.inc_resetPending (s : Core) (f : Fld) (n k : Nat) : (s.inc f n k).resetPending = s.resetPending := rfl
@[simp] theorem Core.inc_cmdq (s : Core) (f : Fld) (n k : Nat) : (s.inc f n k).cmdq = s.cmdq := rfl
@[simp] theorem Core.inc_ely (s : Core) (f : Fld) (n k : Nat) : (s.inc f n k).ely = s.ely := rfl
@[simp] theorem Core.inc_flash (s : Core) (f : Fld) (n k : Nat) : (s.inc f n k).flash = s.flash := rfl
@[simp] theorem Core.inc_tck (s : Core) (f : Fld) (n k : Nat) : (s.inc f n k).tck = s.tck := rfl
@[simp] theorem Core.inc_pwr (s : Core) (f : Fld) (n k : Nat) : (s.inc f n k).pwr = s.pwr := rfl
@[simp] theorem Core.inc_press (s : Core) (f : Fld) (n k : Nat) : (s.inc f n k).press = s.press := rfl
@[simp] theorem Core.inc_jobs (s : Core) (f : Fld) (n k : Nat) : (s.inc f n k).jobs = s.jobs := rfl
@[simp] theorem Core.inc_pos (s : Core) (f : Fld) (n k : Nat) : (s.inc f n k).pos = s.pos := rfl
@[simp] theorem Core.inc_spg (s : Core) (f : Fld) (n k : Nat) : (s.inc f n k).spg = s.spg := rfl
@[simp] theorem Core.inc_hlk (s : Core) (f : Fld) (n k : Nat) : (s.inc f n k).hlk = s.hlk := rfl
@[simp] theorem Core.inc_cam (s : Core) (f : Fld) (n k : Nat) : (s.inc f n k).cam = s.cam := rfl
@[simp] theorem Core.inc_csv (s : Core) (f : Fld) (n k : Nat) : (s.inc f n k).csv = s.csv := rfl
@[simp] theorem Core.inc_mem (s : Core) (f : Fld) (n k : Nat) : (s.inc f n k).mem = s.mem := rfl
@[simp] theorem Core.inc_thm (s : Core) (f : Fld) (n k : Nat) : (s.inc f n k).thm = s.thm := rfl
@[simp] theorem Core.inc_dsp (s : Core) (f : Fld) (n k : Nat) : (s.inc f n k).dsp = s.dsp := rfl
@[simp] theorem Core.inc_fij (s : Core) (f : Fld) (n k : Nat) : (s.inc f n k).fij = s.fij := rfl
@[simp] theorem Core.inc_cdc (s : Core) (f : Fld) (n k : Nat) : (s.inc f n k).cdc = s.cdc := rfl

/-! ### incW -/

@[simp] theorem Core.incW_latch (s : Core) (f : Fld) (n k : Nat) : (s.incW f n k).latch = s.latch := rfl
@[simp] theorem Core.incW_lo (s : Core) (f : Fld) (n k : Nat) : (s.incW f n k).lo = s.lo := rfl
@[simp] theorem Core.incW_etime (s : Core) (f : Fld) (n k : Nat) : (s.incW f n k).etime = s.etime := rfl
@[simp] theorem Core.incW_free (s : Core) (f : Fld) (n k : Nat) : (s.incW f n k).free = s.free := rfl
@[simp] theorem Core.incW_limits (s : Core) (f : Fld) (n k : Nat) : (s.incW f n k).limits = s.limits := rfl
@[simp] theorem Core.incW_resetPending (s : Core) (f : Fld) (n k : Nat) : (s.incW f n k).resetPending = s.resetPending := rfl
@[simp] theorem Core.incW_cmdq (s : Core) (f : Fld) (n k : Nat) : (s.incW f n k).cmdq = s.cmdq := rfl
@[simp] theorem Core.incW_ely (s : Core) (f : Fld) (n k : Nat) : (s.incW f n k).ely = s.ely := rfl
@[simp] theorem Core.incW_flash (s : Core) (f : Fld) (n k : Nat) : (s.incW f n k).flash = s.flash := rfl
@[simp] theorem Core.incW_tck (s : Core) (f : Fld) (n k : Nat) : (s.incW f n k).tck = s.tck := rfl
@[simp] theorem Core.incW_pwr (s : Core) (f : Fld) (n k : Nat) : (s.incW f n k).pwr = s.pwr := rfl
@[simp] theorem Core.incW_press (s : Core) (f : Fld) (n k : Nat) : (s.incW f n k).press = s.press := rfl
@[simp] theorem Core.incW_jobs (s : Core) (f : Fld) (n k : Nat) : (s.incW f n k).jobs = s.jobs := rfl
@[simp] theorem Core.incW_pos (s : Core) (f : Fld) (n k : Nat) : (s.incW f n k).pos = s.pos := rfl
@[simp] theorem Core.incW_spg (s : Core) (f : Fld) (n k : Nat) : (s.incW f n k).spg = s.spg := rfl
@[simp] theorem Core.incW_hlk (s : Core) (f : Fld) (n k : Nat) : (s.incW f n k).hlk = s.hlk := rfl
@[simp] theorem Core.incW_cam (s : Core) (f : Fld) (n k : Nat) : (s.incW f n k).cam = s.cam := rfl
@[simp] theorem Core.incW_csv (s : Core) (f : Fld) (n k : Nat) : (s.incW f n k).csv = s.csv := rfl
@[simp] theorem Core.incW_mem (s : Core) (f : Fld) (n k : Nat) : (s.incW f n k).mem = s.mem := rfl
@[simp] theorem Core.incW_thm (s : Core) (f : Fld) (n k : Nat) : (s.incW f n k).thm = s.thm := rfl
@[simp] theorem Core.incW_dsp (s : Core) (f : Fld) (n k : Nat) : (s.incW f n k).dsp = s.dsp := rfl
@[simp] theorem Core.incW_fij (s : Core) (f : Fld) (n k : Nat) : (s.incW f n k).fij = s.fij := rfl
@[simp] theorem Core.incW_cdc (s : Core) (f : Fld) (n k : Nat) : (s.incW f n k).cdc = s.cdc := rfl

/-! ### wr2 -/

@[simp] theorem Core.wr2_latch (s : Core) (f g : Fld) (v n : Nat) : (s.wr2 f g v n).latch = s.latch := rfl
@[simp] theorem Core.wr2_lo (s : Core) (f g : Fld) (v n : Nat) : (s.wr2 f g v n).lo = s.lo := rfl
@[simp] theorem Core.wr2_etime (s : Core) (f g : Fld) (v n : Nat) : (s.wr2 f g v n).etime = s.etime := rfl
@[simp] theorem Core.wr2_free (s : Core) (f g : Fld) (v n : Nat) : (s.wr2 f g v n).free = s.free := rfl
@[simp] theorem Core.wr2_limits (s : Core) (f g : Fld) (v n : Nat) : (s.wr2 f g v n).limits = s.limits := rfl
@[simp] theorem Core.wr2_resetPending (s : Core) (f g : Fld) (v n : Nat) : (s.wr2 f g v n).resetPending = s.resetPending := rfl
@[simp] theorem Core.wr2_cmdq (s : Core) (f g : Fld) (v n : Nat) : (s.wr2 f g v n).cmdq = s.cmdq := rfl
@[simp] theorem Core.wr2_ely (s : Core) (f g : Fld) (v n : Nat) : (s.wr2 f g v n).ely = s.ely := rfl
@[simp] theorem Core.wr2_flash (s : Core) (f g : Fld) (v n : Nat) : (s.wr2 f g v n).flash = s.flash := rfl
@[simp] theorem Core.wr2_tck (s : Core) (f g : Fld) (v n : Nat) : (s.wr2 f g v n).tck = s.tck := rfl
@[simp] theorem Core.wr2_pwr (s : Core) (f g : Fld) (v n : Nat) : (s.wr2 f g v n).pwr = s.pwr := rfl
@[simp] theorem Core.wr2_press (s : Core) (f g : Fld) (v n : Nat) : (s.wr2 f g v n).press = s.press := rfl
@[simp] theorem Core.wr2_jobs (s : Core) (f g : Fld) (v n : Nat) : (s.wr2 f g v n).jobs = s.jobs := rfl
@[simp] theorem Core.wr2_pos (s : Core) (f g : Fld) (v n : Nat) : (s.wr2 f g v n).pos = s.pos := rfl
@[simp] theorem Core.wr2_spg (s : Core) (f g : Fld) (v n : Nat) : (s.wr2 f g v n).spg = s.spg := rfl
@[simp] theorem Core.wr2_hlk (s : Core) (f g : Fld) (v n : Nat) : (s.wr2 f g v n).hlk = s.hlk := rfl
@[simp] theorem Core.wr2_cam (s : Core) (f g : Fld) (v n : Nat) : (s.wr2 f g v n).cam = s.cam := rfl
@[simp] theorem Core.wr2_csv (s : Core) (f g : Fld) (v n : Nat) : (s.wr2 f g v n).csv = s.csv := rfl
@[simp] theorem Core.wr2_mem (s : Core) (f g : Fld) (v n : Nat) : (s.wr2 f g v n).mem = s.mem := rfl
@[simp] theorem Core.wr2_thm (s : Core) (f g : Fld) (v n : Nat) : (s.wr2 f g v n).thm = s.thm := rfl
@[simp] theorem Core.wr2_dsp (s : Core) (f g : Fld) (v n : Nat) : (s.wr2 f g v n).dsp = s.dsp := rfl
@[simp] theorem Core.wr2_fij (s : Core) (f g : Fld) (v n : Nat) : (s.wr2 f g v n).fij = s.fij := rfl
@[simp] theorem Core.wr2_cdc (s : Core) (f g : Fld) (v n : Nat) : (s.wr2 f g v n).cdc = s.cdc := rfl

/-! ### tickFree -/

@[simp] theorem Core.tickFree_latch (s : Core) : (s.tickFree).latch = s.latch := rfl
@[simp] theorem Core.tickFree_lo (s : Core) : (s.tickFree).lo = s.lo := rfl
@[simp] theorem Core.tickFree_etime (s : Core) : (s.tickFree).etime = s.etime := rfl
@[simp] theorem Core.tickFree_limits (s : Core) : (s.tickFree).limits = s.limits := rfl
@[simp] theorem Core.tickFree_resetPending (s : Core) : (s.tickFree).resetPending = s.resetPending := rfl
@[simp] theorem Core.tickFree_cmdq (s : Core) : (s.tickFree).cmdq = s.cmdq := rfl
@[simp] theorem Core.tickFree_ely (s : Core) : (s.tickFree).ely = s.ely := rfl
@[simp] theorem Core.tickFree_flash (s : Core) : (s.tickFree).flash = s.flash := rfl
@[simp] theorem Core.tickFree_tck (s : Core) : (s.tickFree).tck = s.tck := rfl
@[simp] theorem Core.tickFree_pwr (s : Core) : (s.tickFree).pwr = s.pwr := rfl
@[simp] theorem Core.tickFree_press (s : Core) : (s.tickFree).press = s.press := rfl
@[simp] theorem Core.tickFree_jobs (s : Core) : (s.tickFree).jobs = s.jobs := rfl
@[simp] theorem Core.tickFree_pos (s : Core) : (s.tickFree).pos = s.pos := rfl
@[simp] theorem Core.tickFree_spg (s : Core) : (s.tickFree).spg = s.spg := rfl
@[simp] theorem Core.tickFree_hlk (s : Core) : (s.tickFree).hlk = s.hlk := rfl
@[simp] theorem Core.tickFree_cam (s : Core) : (s.tickFree).cam = s.cam := rfl
@[simp] theorem Core.tickFree_csv (s : Core) : (s.tickFree).csv = s.csv := rfl
@[simp] theorem Core.tickFree_mem (s : Core) : (s.tickFree).mem = s.mem := rfl
@[simp] theorem Core.tickFree_thm (s : Core) : (s.tickFree).thm = s.thm := rfl
@[simp] theorem Core.tickFree_dsp (s : Core) : (s.tickFree).dsp = s.dsp := rfl
@[simp] theorem Core.tickFree_fij (s : Core) : (s.tickFree).fij = s.fij := rfl
@[simp] theorem Core.tickFree_cdc (s : Core) : (s.tickFree).cdc = s.cdc := rfl

/-! ### reach -/

@[simp] theorem Core.reach_latch (s : Core) (t : Nat) : (s.reach t).latch = s.latch := rfl
@[simp] theorem Core.reach_lo (s : Core) (t : Nat) : (s.reach t).lo = s.lo := rfl
@[simp] theorem Core.reach_free (s : Core) (t : Nat) : (s.reach t).free = s.free := rfl
@[simp] theorem Core.reach_limits (s : Core) (t : Nat) : (s.reach t).limits = s.limits := rfl
@[simp] theorem Core.reach_resetPending (s : Core) (t : Nat) : (s.reach t).resetPending = s.resetPending := rfl
@[simp] theorem Core.reach_cmdq (s : Core) (t : Nat) : (s.reach t).cmdq = s.cmdq := rfl
@[simp] theorem Core.reach_ely (s : Core) (t : Nat) : (s.reach t).ely = s.ely := rfl
@[simp] theorem Core.reach_flash (s : Core) (t : Nat) : (s.reach t).flash = s.flash := rfl
@[simp] theorem Core.reach_tck (s : Core) (t : Nat) : (s.reach t).tck = s.tck := rfl
@[simp] theorem Core.reach_pwr (s : Core) (t : Nat) : (s.reach t).pwr = s.pwr := rfl
@[simp] theorem Core.reach_press (s : Core) (t : Nat) : (s.reach t).press = s.press := rfl
@[simp] theorem Core.reach_jobs (s : Core) (t : Nat) : (s.reach t).jobs = s.jobs := rfl
@[simp] theorem Core.reach_pos (s : Core) (t : Nat) : (s.reach t).pos = s.pos := rfl
@[simp] theorem Core.reach_spg (s : Core) (t : Nat) : (s.reach t).spg = s.spg := rfl
@[simp] theorem Core.reach_hlk (s : Core) (t : Nat) : (s.reach t).hlk = s.hlk := rfl
@[simp] theorem Core.reach_cam (s : Core) (t : Nat) : (s.reach t).cam = s.cam := rfl
@[simp] theorem Core.reach_csv (s : Core) (t : Nat) : (s.reach t).csv = s.csv := rfl
@[simp] theorem Core.reach_mem (s : Core) (t : Nat) : (s.reach t).mem = s.mem := rfl
@[simp] theorem Core.reach_thm (s : Core) (t : Nat) : (s.reach t).thm = s.thm := rfl
@[simp] theorem Core.reach_dsp (s : Core) (t : Nat) : (s.reach t).dsp = s.dsp := rfl
@[simp] theorem Core.reach_fij (s : Core) (t : Nat) : (s.reach t).fij = s.fij := rfl
@[simp] theorem Core.reach_cdc (s : Core) (t : Nat) : (s.reach t).cdc = s.cdc := rfl

/-! ### holdEvents -/

@[simp] theorem Core.holdEvents_latch (s : Core) (l : List Compl) : (s.holdEvents l).latch = s.latch := by
  unfold Core.holdEvents; dsimp only; split <;> simp
@[simp] theorem Core.holdEvents_lo (s : Core) (l : List Compl) : (s.holdEvents l).lo = s.lo := by
  unfold Core.holdEvents; dsimp only; split <;> simp
@[simp] theorem Core.holdEvents_etime (s : Core) (l : List Compl) : (s.holdEvents l).etime = s.etime := by
  unfold Core.holdEvents; dsimp only; split <;> simp
@[simp] theorem Core.holdEvents_free (s : Core) (l : List Compl) : (s.holdEvents l).free = s.free := by
  unfold Core.holdEvents; dsimp only; split <;> simp
@[simp] theorem Core.holdEvents_limits (s : Core) (l : List Compl) : (s.holdEvents l).limits = s.limits := by
  unfold Core.holdEvents; dsimp only; split <;> simp
@[simp] theorem Core.holdEvents_resetPending (s : Core) (l : List Compl) : (s.holdEvents l).resetPending = s.resetPending := by
  unfold Core.holdEvents; dsimp only; split <;> simp
@[simp] theorem Core.holdEvents_ely (s : Core) (l : List Compl) : (s.holdEvents l).ely = s.ely := by
  unfold Core.holdEvents; dsimp only; split <;> simp
@[simp] theorem Core.holdEvents_flash (s : Core) (l : List Compl) : (s.holdEvents l).flash = s.flash := by
  unfold Core.holdEvents; dsimp only; split <;> simp
@[simp] theorem Core.holdEvents_tck (s : Core) (l : List Compl) : (s.holdEvents l).tck = s.tck := by
  unfold Core.holdEvents; dsimp only; split <;> simp
@[simp] theorem Core.holdEvents_pwr (s : Core) (l : List Compl) : (s.holdEvents l).pwr = s.pwr := by
  unfold Core.holdEvents; dsimp only; split <;> simp
@[simp] theorem Core.holdEvents_press (s : Core) (l : List Compl) : (s.holdEvents l).press = s.press := by
  unfold Core.holdEvents; dsimp only; split <;> simp
@[simp] theorem Core.holdEvents_jobs (s : Core) (l : List Compl) : (s.holdEvents l).jobs = s.jobs := by
  unfold Core.holdEvents; dsimp only; split <;> simp
@[simp] theorem Core.holdEvents_pos (s : Core) (l : List Compl) : (s.holdEvents l).pos = s.pos := by
  unfold Core.holdEvents; dsimp only; split <;> simp
@[simp] theorem Core.holdEvents_spg (s : Core) (l : List Compl) : (s.holdEvents l).spg = s.spg := by
  unfold Core.holdEvents; dsimp only; split <;> simp
@[simp] theorem Core.holdEvents_hlk (s : Core) (l : List Compl) : (s.holdEvents l).hlk = s.hlk := by
  unfold Core.holdEvents; dsimp only; split <;> simp
@[simp] theorem Core.holdEvents_cam (s : Core) (l : List Compl) : (s.holdEvents l).cam = s.cam := by
  unfold Core.holdEvents; dsimp only; split <;> simp
@[simp] theorem Core.holdEvents_csv (s : Core) (l : List Compl) : (s.holdEvents l).csv = s.csv := by
  unfold Core.holdEvents; dsimp only; split <;> simp
@[simp] theorem Core.holdEvents_mem (s : Core) (l : List Compl) : (s.holdEvents l).mem = s.mem := by
  unfold Core.holdEvents; dsimp only; split <;> simp
@[simp] theorem Core.holdEvents_thm (s : Core) (l : List Compl) : (s.holdEvents l).thm = s.thm := by
  unfold Core.holdEvents; dsimp only; split <;> simp
@[simp] theorem Core.holdEvents_dsp (s : Core) (l : List Compl) : (s.holdEvents l).dsp = s.dsp := by
  unfold Core.holdEvents; dsimp only; split <;> simp
@[simp] theorem Core.holdEvents_fij (s : Core) (l : List Compl) : (s.holdEvents l).fij = s.fij := by
  unfold Core.holdEvents; dsimp only; split <;> simp
@[simp] theorem Core.holdEvents_cdc (s : Core) (l : List Compl) : (s.holdEvents l).cdc = s.cdc := by
  unfold Core.holdEvents; dsimp only; split <;> simp

/-! ### enter -/

@[simp] theorem Core.enter_latch (s : Core) (e : Compl) : (s.enter e).latch = s.latch := by simp [Core.enter]
@[simp] theorem Core.enter_lo (s : Core) (e : Compl) : (s.enter e).lo = s.lo := by simp [Core.enter]
@[simp] theorem Core.enter_etime (s : Core) (e : Compl) : (s.enter e).etime = s.etime := by simp [Core.enter]
@[simp] theorem Core.enter_free (s : Core) (e : Compl) : (s.enter e).free = s.free := by simp [Core.enter]
@[simp] theorem Core.enter_limits (s : Core) (e : Compl) : (s.enter e).limits = s.limits := by simp [Core.enter]
@[simp] theorem Core.enter_resetPending (s : Core) (e : Compl) : (s.enter e).resetPending = s.resetPending := by simp [Core.enter]
@[simp] theorem Core.enter_ely (s : Core) (e : Compl) : (s.enter e).ely = s.ely := by simp [Core.enter]
@[simp] theorem Core.enter_flash (s : Core) (e : Compl) : (s.enter e).flash = s.flash := by simp [Core.enter]
@[simp] theorem Core.enter_tck (s : Core) (e : Compl) : (s.enter e).tck = s.tck := by simp [Core.enter]
@[simp] theorem Core.enter_pwr (s : Core) (e : Compl) : (s.enter e).pwr = s.pwr := by simp [Core.enter]
@[simp] theorem Core.enter_press (s : Core) (e : Compl) : (s.enter e).press = s.press := by simp [Core.enter]
@[simp] theorem Core.enter_jobs (s : Core) (e : Compl) : (s.enter e).jobs = s.jobs := by simp [Core.enter]
@[simp] theorem Core.enter_pos (s : Core) (e : Compl) : (s.enter e).pos = s.pos := by simp [Core.enter]
@[simp] theorem Core.enter_spg (s : Core) (e : Compl) : (s.enter e).spg = s.spg := by simp [Core.enter]
@[simp] theorem Core.enter_hlk (s : Core) (e : Compl) : (s.enter e).hlk = s.hlk := by simp [Core.enter]
@[simp] theorem Core.enter_cam (s : Core) (e : Compl) : (s.enter e).cam = s.cam := by simp [Core.enter]
@[simp] theorem Core.enter_csv (s : Core) (e : Compl) : (s.enter e).csv = s.csv := by simp [Core.enter]
@[simp] theorem Core.enter_mem (s : Core) (e : Compl) : (s.enter e).mem = s.mem := by simp [Core.enter]
@[simp] theorem Core.enter_thm (s : Core) (e : Compl) : (s.enter e).thm = s.thm := by simp [Core.enter]
@[simp] theorem Core.enter_dsp (s : Core) (e : Compl) : (s.enter e).dsp = s.dsp := by simp [Core.enter]
@[simp] theorem Core.enter_fij (s : Core) (e : Compl) : (s.enter e).fij = s.fij := by simp [Core.enter]
@[simp] theorem Core.enter_cdc (s : Core) (e : Compl) : (s.enter e).cdc = s.cdc := by simp [Core.enter]

/-! ### queue -/

@[simp] theorem Core.queue_latch (s : Core) (e : Compl) : (s.queue e).latch = s.latch := by
  unfold Core.queue; dsimp only; split <;> rfl
@[simp] theorem Core.queue_lo (s : Core) (e : Compl) : (s.queue e).lo = s.lo := by
  unfold Core.queue; dsimp only; split <;> rfl
@[simp] theorem Core.queue_etime (s : Core) (e : Compl) : (s.queue e).etime = s.etime := by
  unfold Core.queue; dsimp only; split <;> rfl
@[simp] theorem Core.queue_free (s : Core) (e : Compl) : (s.queue e).free = s.free := by
  unfold Core.queue; dsimp only; split <;> rfl
@[simp] theorem Core.queue_limits (s : Core) (e : Compl) : (s.queue e).limits = s.limits := by
  unfold Core.queue; dsimp only; split <;> rfl
@[simp] theorem Core.queue_resetPending (s : Core) (e : Compl) : (s.queue e).resetPending = s.resetPending := by
  unfold Core.queue; dsimp only; split <;> rfl
@[simp] theorem Core.queue_ely (s : Core) (e : Compl) : (s.queue e).ely = s.ely := by
  unfold Core.queue; dsimp only; split <;> rfl
@[simp] theorem Core.queue_flash (s : Core) (e : Compl) : (s.queue e).flash = s.flash := by
  unfold Core.queue; dsimp only; split <;> rfl
@[simp] theorem Core.queue_tck (s : Core) (e : Compl) : (s.queue e).tck = s.tck := by
  unfold Core.queue; dsimp only; split <;> rfl
@[simp] theorem Core.queue_pwr (s : Core) (e : Compl) : (s.queue e).pwr = s.pwr := by
  unfold Core.queue; dsimp only; split <;> rfl
@[simp] theorem Core.queue_press (s : Core) (e : Compl) : (s.queue e).press = s.press := by
  unfold Core.queue; dsimp only; split <;> rfl
@[simp] theorem Core.queue_jobs (s : Core) (e : Compl) : (s.queue e).jobs = s.jobs := by
  unfold Core.queue; dsimp only; split <;> rfl
@[simp] theorem Core.queue_pos (s : Core) (e : Compl) : (s.queue e).pos = s.pos := by
  unfold Core.queue; dsimp only; split <;> rfl
@[simp] theorem Core.queue_spg (s : Core) (e : Compl) : (s.queue e).spg = s.spg := by
  unfold Core.queue; dsimp only; split <;> rfl
@[simp] theorem Core.queue_hlk (s : Core) (e : Compl) : (s.queue e).hlk = s.hlk := by
  unfold Core.queue; dsimp only; split <;> rfl
@[simp] theorem Core.queue_cam (s : Core) (e : Compl) : (s.queue e).cam = s.cam := by
  unfold Core.queue; dsimp only; split <;> rfl
@[simp] theorem Core.queue_csv (s : Core) (e : Compl) : (s.queue e).csv = s.csv := by
  unfold Core.queue; dsimp only; split <;> rfl
@[simp] theorem Core.queue_mem (s : Core) (e : Compl) : (s.queue e).mem = s.mem := by
  unfold Core.queue; dsimp only; split <;> rfl
@[simp] theorem Core.queue_thm (s : Core) (e : Compl) : (s.queue e).thm = s.thm := by
  unfold Core.queue; dsimp only; split <;> rfl
@[simp] theorem Core.queue_dsp (s : Core) (e : Compl) : (s.queue e).dsp = s.dsp := by
  unfold Core.queue; dsimp only; split <;> rfl
@[simp] theorem Core.queue_fij (s : Core) (e : Compl) : (s.queue e).fij = s.fij := by
  unfold Core.queue; dsimp only; split <;> rfl
@[simp] theorem Core.queue_cdc (s : Core) (e : Compl) : (s.queue e).cdc = s.cdc := by
  unfold Core.queue; dsimp only; split <;> rfl

/-! ### emit -/

@[simp] theorem Core.emit_latch (s : Core) (code data tag : Nat) : (s.emit code data tag).latch = s.latch := by
  unfold Core.emit; dsimp only; split <;> simp
@[simp] theorem Core.emit_lo (s : Core) (code data tag : Nat) : (s.emit code data tag).lo = s.lo := by
  unfold Core.emit; dsimp only; split <;> simp
@[simp] theorem Core.emit_etime (s : Core) (code data tag : Nat) : (s.emit code data tag).etime = s.etime := by
  unfold Core.emit; dsimp only; split <;> simp
@[simp] theorem Core.emit_free (s : Core) (code data tag : Nat) : (s.emit code data tag).free = s.free := by
  unfold Core.emit; dsimp only; split <;> simp
@[simp] theorem Core.emit_limits (s : Core) (code data tag : Nat) : (s.emit code data tag).limits = s.limits := by
  unfold Core.emit; dsimp only; split <;> simp
@[simp] theorem Core.emit_resetPending (s : Core) (code data tag : Nat) : (s.emit code data tag).resetPending = s.resetPending := by
  unfold Core.emit; dsimp only; split <;> simp
@[simp] theorem Core.emit_ely (s : Core) (code data tag : Nat) : (s.emit code data tag).ely = s.ely := by
  unfold Core.emit; dsimp only; split <;> simp
@[simp] theorem Core.emit_flash (s : Core) (code data tag : Nat) : (s.emit code data tag).flash = s.flash := by
  unfold Core.emit; dsimp only; split <;> simp
@[simp] theorem Core.emit_tck (s : Core) (code data tag : Nat) : (s.emit code data tag).tck = s.tck := by
  unfold Core.emit; dsimp only; split <;> simp
@[simp] theorem Core.emit_pwr (s : Core) (code data tag : Nat) : (s.emit code data tag).pwr = s.pwr := by
  unfold Core.emit; dsimp only; split <;> simp
@[simp] theorem Core.emit_press (s : Core) (code data tag : Nat) : (s.emit code data tag).press = s.press := by
  unfold Core.emit; dsimp only; split <;> simp
@[simp] theorem Core.emit_jobs (s : Core) (code data tag : Nat) : (s.emit code data tag).jobs = s.jobs := by
  unfold Core.emit; dsimp only; split <;> simp
@[simp] theorem Core.emit_pos (s : Core) (code data tag : Nat) : (s.emit code data tag).pos = s.pos := by
  unfold Core.emit; dsimp only; split <;> simp
@[simp] theorem Core.emit_spg (s : Core) (code data tag : Nat) : (s.emit code data tag).spg = s.spg := by
  unfold Core.emit; dsimp only; split <;> simp
@[simp] theorem Core.emit_hlk (s : Core) (code data tag : Nat) : (s.emit code data tag).hlk = s.hlk := by
  unfold Core.emit; dsimp only; split <;> simp
@[simp] theorem Core.emit_cam (s : Core) (code data tag : Nat) : (s.emit code data tag).cam = s.cam := by
  unfold Core.emit; dsimp only; split <;> simp
@[simp] theorem Core.emit_csv (s : Core) (code data tag : Nat) : (s.emit code data tag).csv = s.csv := by
  unfold Core.emit; dsimp only; split <;> simp
@[simp] theorem Core.emit_mem (s : Core) (code data tag : Nat) : (s.emit code data tag).mem = s.mem := by
  unfold Core.emit; dsimp only; split <;> simp
@[simp] theorem Core.emit_thm (s : Core) (code data tag : Nat) : (s.emit code data tag).thm = s.thm := by
  unfold Core.emit; dsimp only; split <;> simp
@[simp] theorem Core.emit_dsp (s : Core) (code data tag : Nat) : (s.emit code data tag).dsp = s.dsp := by
  unfold Core.emit; dsimp only; split <;> simp
@[simp] theorem Core.emit_fij (s : Core) (code data tag : Nat) : (s.emit code data tag).fij = s.fij := by
  unfold Core.emit; dsimp only; split <;> simp
@[simp] theorem Core.emit_cdc (s : Core) (code data tag : Nat) : (s.emit code data tag).cdc = s.cdc := by
  unfold Core.emit; dsimp only; split <;> simp

/-! ### putCompl -/

@[simp] theorem Core.putCompl_latch (s : Core) (src : Src) (c : Compl) : (s.putCompl src c).latch = s.latch := by
  cases src <;> rfl
@[simp] theorem Core.putCompl_lo (s : Core) (src : Src) (c : Compl) : (s.putCompl src c).lo = s.lo := by
  cases src <;> rfl
@[simp] theorem Core.putCompl_etime (s : Core) (src : Src) (c : Compl) : (s.putCompl src c).etime = s.etime := by
  cases src <;> rfl
@[simp] theorem Core.putCompl_free (s : Core) (src : Src) (c : Compl) : (s.putCompl src c).free = s.free := by
  cases src <;> rfl
@[simp] theorem Core.putCompl_limits (s : Core) (src : Src) (c : Compl) : (s.putCompl src c).limits = s.limits := by
  cases src <;> rfl
@[simp] theorem Core.putCompl_resetPending (s : Core) (src : Src) (c : Compl) : (s.putCompl src c).resetPending = s.resetPending := by
  cases src <;> rfl
@[simp] theorem Core.putCompl_ely (s : Core) (src : Src) (c : Compl) : (s.putCompl src c).ely = s.ely := by
  cases src <;> rfl
@[simp] theorem Core.putCompl_flash (s : Core) (src : Src) (c : Compl) : (s.putCompl src c).flash = s.flash := by
  cases src <;> rfl
@[simp] theorem Core.putCompl_tck (s : Core) (src : Src) (c : Compl) : (s.putCompl src c).tck = s.tck := by
  cases src <;> rfl
@[simp] theorem Core.putCompl_pwr (s : Core) (src : Src) (c : Compl) : (s.putCompl src c).pwr = s.pwr := by
  cases src <;> rfl
@[simp] theorem Core.putCompl_press (s : Core) (src : Src) (c : Compl) : (s.putCompl src c).press = s.press := by
  cases src <;> rfl
@[simp] theorem Core.putCompl_jobs (s : Core) (src : Src) (c : Compl) : (s.putCompl src c).jobs = s.jobs := by
  cases src <;> rfl
@[simp] theorem Core.putCompl_pos (s : Core) (src : Src) (c : Compl) : (s.putCompl src c).pos = s.pos := by
  cases src <;> rfl
@[simp] theorem Core.putCompl_spg (s : Core) (src : Src) (c : Compl) : (s.putCompl src c).spg = s.spg := by
  cases src <;> rfl
@[simp] theorem Core.putCompl_hlk (s : Core) (src : Src) (c : Compl) : (s.putCompl src c).hlk = s.hlk := by
  cases src <;> rfl
@[simp] theorem Core.putCompl_cam (s : Core) (src : Src) (c : Compl) : (s.putCompl src c).cam = s.cam := by
  cases src <;> rfl
@[simp] theorem Core.putCompl_csv (s : Core) (src : Src) (c : Compl) : (s.putCompl src c).csv = s.csv := by
  cases src <;> rfl
@[simp] theorem Core.putCompl_mem (s : Core) (src : Src) (c : Compl) : (s.putCompl src c).mem = s.mem := by
  cases src <;> rfl
@[simp] theorem Core.putCompl_thm (s : Core) (src : Src) (c : Compl) : (s.putCompl src c).thm = s.thm := by
  cases src <;> rfl
@[simp] theorem Core.putCompl_dsp (s : Core) (src : Src) (c : Compl) : (s.putCompl src c).dsp = s.dsp := by
  cases src <;> rfl
@[simp] theorem Core.putCompl_fij (s : Core) (src : Src) (c : Compl) : (s.putCompl src c).fij = s.fij := by
  cases src <;> rfl
@[simp] theorem Core.putCompl_cdc (s : Core) (src : Src) (c : Compl) : (s.putCompl src c).cdc = s.cdc := by
  cases src <;> rfl

/-! ### Registers through the other operations -/

@[simp] theorem Core.rd_tickFree (s : Core) (g : Fld) (m : Nat) : (s.tickFree).rd g m = s.rd g m := rfl
@[simp] theorem Core.rd_reach (s : Core) (t : Nat) (g : Fld) (m : Nat) : (s.reach t).rd g m = s.rd g m := rfl
@[simp] theorem Core.rd_putCompl (s : Core) (src : Src) (c : Compl) (g : Fld) (m : Nat) :
    (s.putCompl src c).rd g m = s.rd g m := by cases src <;> rfl
@[simp] theorem Core.rd_inc (s : Core) (f : Fld) (n k : Nat) : (s.inc f n k).rd f n = satU f.width (s.rd f n + k) % 2 ^ f.width := by
  simp [Core.inc]
theorem Core.rd_inc_ne (s : Core) (f g : Fld) (n k m : Nat) (h : g.key m ≠ f.key n) : (s.inc f n k).rd g m = s.rd g m := by
  simp [Core.inc, Core.rd_wr_ne _ _ _ _ _ _ h]
theorem Core.rd_incW_ne (s : Core) (f g : Fld) (n k m : Nat) (h : g.key m ≠ f.key n) : (s.incW f n k).rd g m = s.rd g m := by
  simp [Core.incW, Core.rd_wr_ne _ _ _ _ _ _ h]
theorem Core.rd_wr2_ne (s : Core) (f f' g : Fld) (v n m : Nat) (h : g.key m ≠ f.key n) (h' : g.key m ≠ f'.key n) :
    (s.wr2 f f' v n).rd g m = s.rd g m := by
  simp [Core.wr2, Core.rd_wr_ne _ _ _ _ _ _ h, Core.rd_wr_ne _ _ _ _ _ _ h']
/-- Holding events changes no register but the count of events lost to a full buffer. -/
theorem Core.rd_holdEvents_ne (s : Core) (l : List Compl) (g : Fld) (m : Nat) (h : g.key m ≠ LOG_EVT_OVWR_CNT.COUNT.key 0) :
    (s.holdEvents l).rd g m = s.rd g m := by
  by_cases k : l.length - 256 = 0
  · exact Core.rd_congr (by simp only [Core.holdEvents, k, ↓reduceIte]) g m
  · exact (Core.rd_congr (by simp only [Core.holdEvents, k, ↓reduceIte]) g m).trans (Core.rd_inc_ne s _ g 0 (l.length - 256) m h)
theorem Core.rd_enter_ne (s : Core) (e : Compl) (g : Fld) (m : Nat) (h : g.key m ≠ LOG_EVT_OVWR_CNT.COUNT.key 0) :
    (s.enter e).rd g m = s.rd g m := by
  have k : (s.enter e).regs = (s.holdEvents (s.cmdq.events ++ [{ e with index := s.cmdq.evSeq % 2 ^ 16 }])).regs := by
    simp only [Core.enter]
  exact (Core.rd_congr k g m).trans (Core.rd_holdEvents_ne s _ g m h)
theorem Core.rd_queue_ne (s : Core) (e : Compl) (g : Fld) (m : Nat) (h : g.key m ≠ LOG_EVT_OVWR_CNT.COUNT.key 0) :
    (s.queue e).rd g m = s.rd g m := by
  by_cases k : s.cmdq.fifo.length - 1023 = 0
  · exact Core.rd_congr (by simp only [Core.queue, k, ↓reduceIte]) g m
  · exact (Core.rd_congr (by simp only [Core.queue, k, ↓reduceIte]) g m).trans (Core.rd_inc_ne s _ g 0 1 m h)
theorem Core.rd_emit_ne (s : Core) (code data tag : Nat) (g : Fld) (m : Nat) (h : g.key m ≠ LOG_EVT_OVWR_CNT.COUNT.key 0) :
    (s.emit code data tag).rd g m = s.rd g m := by
  unfold Core.emit; dsimp only
  split
  · exact Core.rd_queue_ne s _ g m h
  · exact Core.rd_enter_ne s _ g m h
/-- A list of writes changes no field whose key none of them has. -/
theorem Core.rd_wrs_ne (l : List (Fld × Nat)) (n : Nat) (g : Fld) (m : Nat) (s : Core)
    (h : ∀ p ∈ l, g.key m ≠ p.1.key n) : (s.wrs l n).rd g m = s.rd g m := by
  induction l generalizing s with
  | nil => rfl
  | cons p l ih =>
    have := ih (s.wr p.1 p.2 n) fun q hq => h q (List.mem_cons_of_mem _ hq)
    simpa [Core.wrs, Core.rd_wr_ne _ _ _ _ _ _ (h p List.mem_cons_self)] using this
/-- A list of writes changes registers alone. -/
theorem Core.wrs_only (l : List (Fld × Nat)) (n : Nat) (s : Core) : s.wrs l n = { s with regs := (s.wrs l n).regs } := by
  induction l generalizing s with
  | nil => rfl
  | cons p l ih => exact ih (s.wr p.1 p.2 n)

/-! ### Events -/

/-- The newest 256 events stay. -/
@[simp] theorem Core.holdEvents_cmdq (s : Core) (l : List Compl) :
    (s.holdEvents l).cmdq = { s.cmdq with events := l.drop (l.length - 256) } := by
  unfold Core.holdEvents; dsimp only; split <;> simp
/-- What the event buffer holds after an event enters, and the numbering. -/
@[simp] theorem Core.enter_cmdq (s : Core) (e : Compl) :
    (s.enter e).cmdq =
      { s.cmdq with events := s.cmdq.events.drop (s.cmdq.events.length - 255) ++ [{ e with index := s.cmdq.evSeq % 2 ^ 16 }]
                    evSeq := s.cmdq.evSeq + 1 } := by
  have h := List.drop_append_of_le_length (l₂ := [{ e with index := s.cmdq.evSeq % 2 ^ 16 }]) (Nat.sub_le s.cmdq.events.length 255)
  simp only [Core.enter, Core.holdEvents_cmdq, List.length_append, List.length_singleton, ← h]
  simp
/-- What the FIFO holds after a hardware event. -/
@[simp] theorem Core.queue_cmdq (s : Core) (e : Compl) :
    (s.queue e).cmdq = { s.cmdq with fifo := s.cmdq.fifo.drop (s.cmdq.fifo.length - 1023) ++ [e] } := by
  unfold Core.queue; dsimp only; split <;> simp
/-- An event that is held waits last in the FIFO. -/
theorem Core.emit_held (s : Core) (code data tag : Nat) (h : s.held code = true) :
    (s.emit code data tag).cmdq =
      { s.cmdq with fifo := s.cmdq.fifo.drop (s.cmdq.fifo.length - 1023) ++ [⟨2, 0, tag, 0, code, 0, s.etime, data % 2 ^ 128⟩] } := by
  simp [Core.emit, h]
/-- Any other event stands last in the event buffer, with the next number. -/
theorem Core.emit_entered (s : Core) (code data tag : Nat) (h : s.held code = false) :
    (s.emit code data tag).cmdq =
      { s.cmdq with events := s.cmdq.events.drop (s.cmdq.events.length - 255) ++
                                [⟨2, 0, tag, 0, code, s.cmdq.evSeq % 2 ^ 16, s.etime, data % 2 ^ 128⟩]
                    evSeq := s.cmdq.evSeq + 1 } := by
  simp [Core.emit, h]
/-- Of the queues, an event changes only its FIFO, the event buffer and the numbering. -/
theorem Core.emit_cmdq (s : Core) (code data tag : Nat) :
    (s.emit code data tag).cmdq =
      { s.cmdq with events := (s.emit code data tag).cmdq.events, fifo := (s.emit code data tag).cmdq.fifo
                    evSeq := (s.emit code data tag).cmdq.evSeq } := by
  unfold Core.emit; dsimp only; split <;> simp
/-- The event buffer of R50 holds at most 256 events after an event that enters it. -/
theorem Core.enter_length (s : Core) (e : Compl) : (s.enter e).cmdq.events.length ≤ 256 := by
  simp only [Core.enter_cmdq, List.length_append, List.length_drop, List.length_singleton]; omega
/-- The FIFO of R227 holds at most 1,024 events after a hardware event. -/
theorem Core.queue_length (s : Core) (e : Compl) : (s.queue e).cmdq.fifo.length ≤ 1024 := by
  simp only [Core.queue_cmdq, List.length_append, List.length_drop, List.length_singleton]; omega

end Sys2Proof.Machine
end

