-- ==== Sys2Proof/Laws/Command.lean ====
section
/-! SUPPORT. A command that is delivered and passes every check runs its body once, on the state that counts it as in
flight, and is answered once. -/

namespace Sys2Proof.Machine

/-! ### Counting what is in flight -/

/-- The in-flight registers change, nothing else. -/
theorem syncInFlight_core (s : State) :
    s.syncInFlight.field.core = { s.field.core with regs := s.syncInFlight.field.core.regs } := rfl
@[simp] theorem syncInFlight_pending (s : State) : s.syncInFlight.pending = s.pending := rfl
@[simp] theorem syncInFlight_host (s : State) : s.syncInFlight.host = s.host := rfl
@[simp] theorem syncInFlight_dram (s : State) : s.syncInFlight.field.dram = s.field.dram := rfl
/-- The registers that count what is in flight. -/
def inFlightKeys : List Nat :=
  [CMDQ_INFLIGHT.TOTAL.key 0, CMDQ_INFLIGHT_Q.COUNT.key 0, CMDQ_INFLIGHT_Q.COUNT.key 1, CMDQ_INFLIGHT_Q.COUNT.key 2,
   CMDQ_INFLIGHT_Q.COUNT.key 3]
/-- Every other register reads as before. -/
theorem rd_syncInFlight (s : State) (f : Fld) (n : Nat) (h : f.key n ∉ inFlightKeys) :
    s.syncInFlight.field.core.rd f n = s.field.core.rd f n := by
  simp only [inFlightKeys, List.mem_cons, List.not_mem_nil, or_false, not_or] at h
  obtain ⟨h0, h1, h2, h3, h4⟩ := h
  simp only [State.syncInFlight, State.onCore, Field.onCore, List.range, List.range.loop, List.foldl]
  rw [Core.rd_wr_ne _ _ _ _ _ _ h4, Core.rd_wr_ne _ _ _ _ _ _ h3, Core.rd_wr_ne _ _ _ _ _ _ h2,
    Core.rd_wr_ne _ _ _ _ _ _ h1, Core.rd_wr_ne _ _ _ _ _ _ h0]

/-! ### Delivery -/

/-- The state in which the body of a delivered command runs: the host side tracks it, FSP's last answer is gone, and it is
counted in flight. -/
def State.taken (c : Call) (op : Nat) (s : State) : State :=
  State.syncInFlight <| match c.src with
    | .host => s.track c.q.val c.tag.toNat c.index.toNat op
    | .fsp => s.onCore fun x => { x with cmdq := { x.cmdq with fspTx := [] } }
/-- The start of a command depends on its queue and its FENCE alone. -/
theorem mayStart_asEntry (s : Core) (l : List QCmd) (k : Cmd) (i : Instr) (dup : Bool) :
    s.mayStart l (k.asEntry i dup) = s.mayStart l (inLine k.call) := rfl
/-- A delivered command is run by the field side. -/
theorem Cmd.submit_delivered (k : Cmd) (i : Instr) (s : State) (h : Delivered k.call s) (hb : s.field.core.bootState ≠ 1) :
    k.submit i s =
      match k.check false (s.taken k.call k.op).field.core with
      | some r => k.finish (some i) r (s.taken k.call k.op)
      | none =>
        let r := k.noted (k.body (s.taken k.call k.op).field)
        k.finish (some i) r.1 { s.taken k.call k.op with field := r.2 } := by
  cases hs : k.call.src with
  | host =>
    simp only [Delivered, hs] at h
    obtain ⟨h0, h1, hm, h2, h3, h4, h5⟩ := h
    have h4' : (s.track k.call.q.val k.call.tag.toNat k.call.index.toNat k.op).onTheWay k.call.q.val = false := h4
    have h0' : (s.track k.call.q.val k.call.tag.toNat k.call.index.toNat k.op).field.core.imagoDead = false := h0
    have h5' : (s.track k.call.q.val k.call.tag.toNat k.call.index.toNat k.op).field.core.mayStart
        (s.track k.call.q.val k.call.tag.toNat k.call.index.toNat k.op).field.core.cmdq.waiting (inLine k.call) = true := h5
    simp only [Cmd.submit, hs, h0', h1, hm, h2, h3, h4', mayStart_asEntry, h5', Cmd.run, State.taken, if_true, Bool.not_true,
      Bool.false_eq_true, or_self, if_false] <;> rfl
  | fsp =>
    simp only [Delivered, hs] at h
    simp only [Cmd.submit, hs, h.1, h.2, hb, Cmd.run, State.taken, if_false, Bool.false_eq_true, reduceCtorEq]
    rfl

theorem taken_pending (c : Call) (op : Nat) (s : State) : (s.taken c op).pending = s.pending := by
  cases h : c.src <;> simp [State.taken, h, State.track, State.onHost, State.onCore]
theorem taken_dram (c : Call) (op : Nat) (s : State) : (s.taken c op).field.dram = s.field.dram := by
  cases h : c.src <;> simp [State.taken, h, State.track, State.onHost, State.onCore, Field.onCore]
theorem taken_host (c : Call) (op : Nat) (s : State) : (s.taken c op).host = if c.src = .host then
    { s.host with tracked := s.host.tracked ++ [⟨c.q.val, c.tag.toNat, c.index.toNat, op⟩] } else s.host := by
  cases h : c.src <;> simp [State.taken, h, State.track, State.onHost, State.onCore]
/-- Only the in-flight registers and FSP's last answer differ on the field side. -/
theorem taken_core (c : Call) (op : Nat) (s : State) :
    (s.taken c op).field.core = { s.field.core with
      regs := (s.taken c op).field.core.regs
      cmdq := { s.field.core.cmdq with fspTx := (s.taken c op).field.core.cmdq.fspTx } } := by
  cases h : c.src <;>
    (simp only [State.taken, h]; rw [syncInFlight_core]; rfl)
theorem rd_taken (c : Call) (op : Nat) (s : State) (f : Fld) (n : Nat) (h : f.key n ∉ inFlightKeys) :
    (s.taken c op).field.core.rd f n = s.field.core.rd f n := by
  cases hs : c.src <;> (simp only [State.taken, hs]; rw [rd_syncInFlight _ _ _ h]; rfl)
theorem taken_fspTx (c : Call) (op : Nat) (s : State) (h : c.src = .fsp) : (s.taken c op).field.core.cmdq.fspTx = [] := by
  simp only [State.taken, h]; rw [syncInFlight_core]; rfl
theorem taken_bootState (c : Call) (op : Nat) (s : State) : (s.taken c op).field.core.bootState = s.field.core.bootState :=
  rd_taken c op s SYS_BOOT.STATE 0 (by decide)
theorem taken_priv (c : Call) (op : Nat) (s : State) (src : Src) :
    (s.taken c op).field.core.priv src = s.field.core.priv src := by
  cases src
  · exact rd_taken c op s CMDQ_PRIV.HOST 0 (by decide)
  · exact rd_taken c op s CMDQ_PRIV.FSP 0 (by decide)

/-! ### The checks -/

/-- A clean header passes check 1. -/
theorem CleanHeader.header {c : Call} {n : Nat} (h : CleanHeader c n) (hn : n ≤ 48) : headerCheck c = none := by
  simp [headerCheck, h.tag, h.flags, h.sg, h.count, h.addr, h.len]; omega
/-- A bulk header passes check 1. -/
theorem BulkHeader.header {c : Call} {n : Nat} {d : Bytes} (h : BulkHeader c n d) (hn : n ≤ 48) : headerCheck c = none := by
  have h0 : ¬ c.sgCount = 0#16 := fun h0 => by have := h.count.1; simp [h0] at this
  simp [headerCheck, h.tag, h.flags, h.sg, h.len, h0]; omega
/-- A clean header passes the common part of check 7. -/
theorem CleanHeader.params {k : Cmd} {n : Nat} (h : CleanHeader k.call n) : k.paramCheck = none := by
  simp [Cmd.paramCheck, h.sg, h.reserved]
/-- A bulk header passes the common part of check 7. -/
theorem BulkHeader.params {k : Cmd} {n : Nat} {d : Bytes} (h : BulkHeader k.call n d) : k.paramCheck = none := by
  have : (k.call.bulk.sgl.any fun e => e.len == 0 || e.res != 0) = false := by
    simp only [List.any_eq_false]
    intro e he
    have h1 := (h.elems e he).1
    have h2 := (h.elems e he).2
    simp_all
  simp only [Cmd.paramCheck, h.reserved, this, h.addr]
  simp
/-- A command that runs passes every check, given its lengths and parameters. -/
theorem Cmd.check_none {k : Cmd} {s : State} (h : Runs k.call k.op k.priv s) (hh : headerCheck k.call = none)
    (hk : k.known = true) (hf : ¬ (k.call.src = .fsp ∧ k.call.sg = true)) (hl : k.lengthCheck = none)
    (hp : k.paramCheck = none) : k.check false (s.taken k.call k.op).field.core = none := by
  have hn : k.need 7 ≤ s.field.core.priv k.call.src := by
    have := h.privilege
    unfold needBy at this
    unfold Cmd.need
    split <;> rename_i hc
    · simpa [hc.1, hc.2.1, hc.2.2.1, hc.2.2.2] using this
    · rw [if_neg hc] at this
      simpa using this
  simp [Cmd.check, hh, hk, h.queue, taken_bootState, h.ready, stateTakes, taken_priv, Nat.not_lt.2 hn, hf, hl, hp]
/-- A delivered command that passes every check: its body runs on the state that counts it. -/
theorem Cmd.submit_runs {k : Cmd} {i : Instr} {s : State} (h : Runs k.call k.op k.priv s) (hh : headerCheck k.call = none)
    (hk : k.known = true) (hf : ¬ (k.call.src = .fsp ∧ k.call.sg = true)) (hl : k.lengthCheck = none)
    (hp : k.paramCheck = none) :
    k.submit i s =
      let r := k.noted (k.body (s.taken k.call k.op).field)
      k.finish (some i) r.1 { s.taken k.call k.op with field := r.2 } := by
  rw [Cmd.submit_delivered k i s h.delivered (by rw [h.ready]; decide), Cmd.check_none h hh hk hf hl hp]

/-! ### The answer -/

/-- What `complete` does with a good status: it counts, and puts one entry where the source reads it. -/
theorem Core.complete_ok (s : Core) (src : Src) (op tag q idx : Nat) (r : Reply) (h : r.status ≤ 1) :
    s.complete src op tag q idx r = ((s.inc CMDQ_DONE_CNT.COUNT).tickFree).putCompl src
      ⟨1, r.status, tag, q, op, idx, s.etime, r.result s.free⟩ := by
  have h2 : r.status ≠ 0xFE := by omega
  unfold Core.complete
  dsimp only
  rw [if_pos h, if_neg h2]
  rfl
/-- The command's own write group enters the commit log: registers do not change. -/
@[simp] theorem Core.rd_commitGroup (s : Core) (c : Call) (f : Fld) (n : Nat) : (s.commitGroup c).rd f n = s.rd f n :=
  Core.rd_congr rfl f n

/-- A command whose body answers OK or ACCEPTED: the whole next state. -/
theorem Cmd.submit_answers {k : Cmd} {i : Instr} {s : State} {r : Reply} {f : Field}
    (h : Runs k.call k.op k.priv s) (hh : headerCheck k.call = none) (hk : k.known = true)
    (hf : ¬ (k.call.src = .fsp ∧ k.call.sg = true)) (hl : k.lengthCheck = none) (hp : k.paramCheck = none)
    (hb : k.body (s.taken k.call k.op).field = (r, f)) (hr : (∃ v, r = .ok v) ∨ ∃ v, r = .accepted v) :
    k.submit i s = { s.taken k.call k.op with field := ⟨(f.core.commitGroup k.call).complete k.call.src k.op
      k.call.tag.toNat k.call.q.val k.call.index.toNat r, f.dram⟩ } := by
  rw [Cmd.submit_runs h hh hk hf hl hp, hb]
  obtain ⟨v, rfl⟩ | ⟨v, rfl⟩ := hr <;> simp [Cmd.noted, Cmd.finish, State.onCore, Field.onCore]

end Sys2Proof.Machine
end

