-- ==== Sys2Proof/Laws/Dram.lean ====
section
/-! SUPPORT. DRAM: a read after a write, and that every operation keeps the canonical form. -/

namespace Sys2Proof.Machine

/-- A byte reads what was put there. -/
@[simp] theorem Dram.get_put (m : Dram) (a : Nat) (b : Byte) : (m.put a b).get a = b := by simp [Dram.get, Dram.put]
/-- Another byte reads as before. -/
theorem Dram.get_put_ne (m : Dram) {a x : Nat} (b : Byte) (h : x ≠ a) : (m.put a b).get x = m.get x := by
  simp [Dram.get, Dram.put, mget_mset_ne _ _ h]
/-- A byte string leaves the bytes outside its range alone. -/
theorem Dram.get_puts_out (bs : Bytes) (m : Dram) {a x : Nat} (h : x < a ∨ a + bs.length ≤ x) :
    (m.puts a bs).get x = m.get x := by
  induction bs generalizing m a with
  | nil => rfl
  | cons b bs ih =>
    simp only [List.length_cons] at h
    rw [Dram.puts, ih _ (by omega), Dram.get_put_ne _ _ (by omega)]
/-- Healing and spending touch no byte. -/
@[simp] theorem Dram.get_heal (m : Dram) (a n x : Nat) : (m.heal a n).get x = m.get x := rfl
@[simp] theorem Dram.get_spend (m : Dram) (x : Nat) : (m.spend).get x = m.get x := rfl
/-- A write leaves the bytes outside its range alone. -/
theorem Dram.get_write_out (m : Dram) (a : Nat) (bs : Bytes) {x : Nat} (h : x < a ∨ a + bs.length ≤ x) :
    (m.write a bs).get x = m.get x := Dram.get_puts_out bs m h

theorem Dram.put_wf {m : Dram} (a : Nat) (b : Byte) (h : m.wf) : (m.put a b).wf := mset_wf a b h
theorem Dram.puts_wf (bs : Bytes) {m : Dram} (a : Nat) (h : m.wf) : (m.puts a bs).wf := by
  induction bs generalizing m a with
  | nil => exact h
  | cons b bs ih => exact ih (a + 1) (Dram.put_wf a b h)
theorem Dram.heal_wf {m : Dram} (a n : Nat) (h : m.wf) : (m.heal a n).wf := h
theorem Dram.spend_wf {m : Dram} (h : m.wf) : (m.spend).wf := h
theorem Dram.write_wf {m : Dram} (a : Nat) (bs : Bytes) (h : m.wf) : (m.write a bs).wf := Dram.puts_wf bs a h
theorem Dram.free_wf {m : Dram} (a n : Nat) (h : m.wf) : (m.free a n).wf := filter_wf _ h
/-- Memory with nothing listed is canonical. -/
theorem Dram.empty_wf (p o : List Nat) : Dram.wf ⟨[], p, o⟩ := ⟨List.Pairwise.nil, by simp⟩

end Sys2Proof.Machine
end

