-- ==== Sys2Proof/WellFormed.lean ====
section
/-! DEFINITION. Which terms of `Instr` say something that can happen: the spec bounds what a command, a frame or a check can
carry further than the operands' types do. `exec` answers for the others too. -/

namespace Sys2Proof

/-- Each item is named once. -/
def once {α : Type} [BEq α] : List α → Bool
  | [] => true
  | a :: l => !l.contains a && once l
/-- The segments of an identity memory rise without overlap from `a` on and lie within its word addresses: a head's memory is of
64 KiB at least (R138). -/
def memFrom (a : Nat) : IdMem → Bool
  | [] => true
  | (o, bs) :: m => decide (a ≤ o ∧ bs ≠ [] ∧ o + bs.length ≤ 2 ^ 24) && memFrom (o + bs.length) m
/-- An identity memory. -/
def memWf (m : IdMem) : Bool := memFrom 0 m
/-- A read names each failing word pair once, with one to three failed attempts, none of them answered OK (R148). -/
def IdRead.wf (r : IdRead) : Bool :=
  memWf r.mem && once (r.fails.map (·.1)) &&
    r.fails.all fun f => f.1 % 8 == 0 && decide (1 ≤ f.2.length ∧ f.2.length ≤ 3) && !f.2.contains (some 0#8)
/-- A training attempt reads each slot once. -/
def TrainIn.wf (t : TrainIn) : Bool := t.headEnd.wf && once (t.found.heads.map (·.1)) && t.found.heads.all (·.2.wf)
/-- A host-memory access fails before all the data has moved (R170). -/
def Bulk.wf (b : Bulk) : Bool :=
  match b.dmaFail with
  | some n => decide (n < b.sgl.foldl (fun a e => a + e.len.toNat) 0)
  | none => true
/-- A command's header: a list of SG_COUNT elements is there where SG is set and none where it is not (R168); the FSP has no
queue, and a reserved parameter byte lies among the parameters (R167). -/
def Call.wf (c : Call) : Bool :=
  c.bulk.wf && c.bulk.sgl.length == (if c.sg then c.sgCount.toNat else 0) && (c.src == .host || c.q == 0) &&
  match c.resOff with
  | some o => decide (0x10 ≤ o.val)
  | none => true
/-- A start-up finds each rank and each image slot bad once, no more lanes than each direction has, and trains each link once,
within the bounds of steps 6 and 8 (R47, R116). -/
def BootIn.wf (b : BootIn) : Bool :=
  once b.badRanks && once b.flashBad && decide (b.f2h.val ≤ 2) && once (b.links.map (·.1)) && b.links.all (·.2.wf) &&
    decide (b.linksMs.toNat ≤ 2450 ∧ b.readyMs.toNat ≤ 5500)
/-- A chirp samples each sensor and reads each DRAM device once (R518, R536); DT is what the devices report. -/
def ChirpIn.wf (c : ChirpIn) : Bool :=
  once (c.sensors.map (·.1)) && once (c.mr4.map (·.1)) &&
    c.sensors.all fun p => match p with
      | (24, .temp _) => false
      | _ => true
/-- The wrong symbols of a codeword are distinct and wrong (R520). -/
def DramErr.wf : DramErr → Bool
  | .symbols bad => once (bad.map (·.1)) && bad.all fun e => e.2 != 0
  | _ => true
/-- A DATA message carries at least one byte (R42), a flit at most 512 (R43). -/
def FlitMsg.wf : FlitMsg → Bool
  | .data _ _ bytes => decide (bytes ≠ [] ∧ bytes.length ≤ 512)
  | .command | .hostHeartbeat | .fieldHeartbeat | .time | .completion | .event => true

/-- Is the term well-formed? -/
def Instr.wf : Instr → Bool
  | .fieldResetRelease b => b.wf
  | .fieldBrownOut => true
  | .watchdogBite => true
  | .vinFUpdate _ => true
  | .vinOver => true
  | .pwrFail => true
  | .pwrFailDone => true
  | .pwrRestored => true
  | .encSupOn => true
  | .encSupFault _ => true
  | .encSupRetry _ _ => true
  | .fwStage c _ _ => c.wf
  | .fwStageWriteDone => true
  | .flashOperationDone => true
  | .molt c _ => c.wf
  | .moltPupaBooted _ _ => true
  | .swapDrill c => c.wf
  | .drillConfirmed => true
  | .chirp inp => inp.wf
  | .checkpointDeadline _ => true
  | .pupaLost => true
  | .imagoTakeover _ badBanks => once badBanks
  | .failedCoreRelease _ _ => true
  | .pupaReady => true
  | .plannedHandover _ => true
  | .handoverFailed => true
  | .nop c => c.wf
  | .identify c => c.wf
  | .queueConfig c _ _ => c.wf
  | .fieldReset c => c.wf
  | .fieldResetDelayExpiry => true
  | .authChallenge c _ => c.wf
  | .authRespond c _ _ => c.wf
  | .authDrop c _ => c.wf
  | .regRead c _ => c.wf
  | .regWrite c _ _ => c.wf
  | .regRmw c _ _ _ => c.wf
  | .regReadBlock c _ _ => c.wf
  | .sysLockSet c _ => c.wf
  | .toneDataAccess c _ _ => c.wf
  | .toneCtlCommit c _ => c.wf
  | .toneCtlCopy c _ => c.wf
  | .scrErrClr c _ => c.wf
  | .scrMaskDataAccess c _ => c.wf
  | .nozzleWindowWrite c _ _ _ _ => c.wf
  | .latchedPairRead c _ => c.wf
  | .posTypeChange c _ _ => c.wf
  | .posWrapWrite c _ _ => c.wf
  | .posIdxLoad c _ _ => c.wf
  | .posWebReturn c _ => c.wf
  | .spgLpcWrite c _ _ => c.wf
  | .hlkEnWrite c _ _ => c.wf
  | .hlkLvlMapWrite c _ _ => c.wf
  | .camExpWrite c _ _ => c.wf
  | .ispTblDataAccess c _ _ => c.wf
  | .memRetrainWrite c _ _ => c.wf
  | .memRankClrWrite c _ => c.wf
  | .thmExclWrite c _ => c.wf
  | .chirpPeriodWrite c _ => c.wf
  | .logViolClr c => c.wf
  | .counterPeakClr c _ _ => c.wf
  | .fijLiveOkWrite c _ => c.wf
  | .fieldRegisterWrite c _ _ => c.wf
  | .sqTailDoorbell _ _ => true
  | .cqHeadDoorbell _ => true
  | .ringEnable _ _ => true
  | .ringDisable _ _ => true
  | .bar0RegisterWrite _ _ => true
  | .sqEntryFetch entry bulk _ => entry.length == 64 && bulk.wf
  | .completionEntryWrite _ => true
  | .completionWriteRetry _ => true
  | .fieldLostCompletions => true
  | .fspFrame _ => true
  | .elyFlitReceive _ _ _ _ msg => msg.wf
  | .elyReplayTimeout _ => true
  | .elyLaneDown _ => true
  | .elyRetrainDone _ _ => true
  | .hostHeartbeatSend => true
  | .elyHostLost => true
  | .hostAlertAssert => true
  | .dataDescriptorClose _ => true
  | .hostSideReset => true
  | .hostSupplyChange _ => true
  | .jobDefine c _ => c.wf
  | .jobLoadData c _ _ _ => c.wf
  | .jobRingAppend c _ _ => c.wf
  | .jobStreamOpen c _ _ _ => c.wf
  | .jobArm c _ => c.wf
  | .jobSwitchAt c _ _ _ => c.wf
  | .jobAbort c _ _ => c.wf
  | .jobStatus c _ => c.wf
  | .skelreStreamHeader => true
  | .skelreBlockDecode _ => true
  | .pressLoad c => c.wf
  | .geoSet c _ _ _ _ => c.wf
  | .nozzleMapLoad c _ _ _ => c.wf
  | .lineScreen _ _ nsmBad toneBad _ => once nsmBad && once toneBad
  | .cmpAppend c _ inline => c.wf && decide (inline.length ≤ 48)
  | .cmpEntryInsert => true
  | .cmpClear c _ => c.wf
  | .posArmIndex c _ _ _ => c.wf
  | .webSourceReturn => true
  | .quadEdge _ _ _ _ => true
  | .hallStateChange _ _ => true
  | .sincosPhaseStep _ _ => true
  | .ssiFrame _ _ _ _ => true
  | .indexEvent _ => true
  | .coPulseEnd _ => true
  | .speedWindow _ => true
  | .stillTimeout _ => true
  | .posFaultDetect first more => once (first :: more)
  | .posFaultClear _ _ _ => true
  | .webRatioWindow => true
  | .fireEnable c _ _ => c.wf
  | .stopFire c _ => c.wf
  | .fireInhibitHead c _ _ => c.wf
  | .loopUpdate => true
  | .safeInhibit _ => true
  | .safeEnergised _ => true
  | .safeDiscrepancy => true
  | .linkReattach c _ => c.wf
  | .linkReattachTimeout _ => true
  | .hlPresent _ => true
  | .linkTraining _ lock hello echoes status headEnd found => TrainIn.wf ⟨lock, hello, echoes, status, headEnd, found⟩
  | .hlTrainFail _ _ => true
  | .hlTrainRestart _ => true
  | .sidebandReadTimeout _ => true
  | .lineFrameSend _ _ => true
  | .tokenSend _ => true
  | .timeBlockSend _ => true
  | .alignBlockSend _ => true
  | .sidebandRequest _ => true
  | .returnMessageReceive _ _ _ mem => mem.wf
  | .confirmReceive _ _ _ _ _ _ _ _ => true
  | .statusReceive _ _ _ _ _ _ mem => mem.wf
  | .sbRespReceive _ _ _ data => decide (data.length ≤ 8)
  | .hlFrameNak _ _ _ _ _ => true
  | .confTimeout _ => true
  | .retSilent _ => true
  | .retLockLost _ => true
  | .hlPresentLost _ => true
  | .usageRecordWrite _ => true
  | .usageWriteEnd _ => true
  | .camStart c => c.wf
  | .camStop c => c.wf
  | .servoSet c _ _ => c.wf
  | .camReinit c => c.wf
  | .camReinitTimeout => true
  | .servoCommit _ => true
  | .camLinkUp mem fails => IdRead.wf ⟨mem, fails⟩ && fails.all fun f => f.1 % 32 == 0
  | .camLinkDown => true
  | .camTriggerUnmatchedTimeout => true
  | .camLineTrigger => true
  | .csiFrameStart _ _ _ => true
  | .csiLineStart _ _ _ => true
  | .csiLinePacket _ _ _ _ _ _ => true
  | .csiFrameEnd _ _ _ => true
  | .ispLineProcess _ => true
  | .camCtlResponse _ => true
  | .camCtlTimeout => true
  | .rankRetire c _ _ => c.wf
  | .dramReadError _ _ kind _ => kind.wf
  | .memCaErr _ _ _ _ => true
  | .dramRefresh _ _ _ => true
  | .rowHammerWindow => true
  | .rowIdleClose _ _ _ => true
  | .scrubRead err => match err with | some kind => kind.wf | none => true
  | .migrationRowCopy bad _ => once bad
  | .channelRetrain _ _ _ failed => once failed
  | .channelReform => true
  | .thermSet c _ _ _ _ => c.wf
  | .powerBudget c _ => c.wf
  | .throttleEngageForced => true
  | .throttleRelax => true
  | .hwGuardSample raw => once (raw.map (·.1))
  | .dspConfig c _ _ _ _ _ => c.wf
  | .dspCommit c _ => c.wf
  | .dspTeEdge => true
  | .dspPushEnd _ _ => true
  | .dspTeLost => true
  | .fijSet c _ _ _ _ _ => c.wf
  | .fijClear c => c.wf
  | .fijDelayRelease => true
  | .cdcTimeout _ => true

end Sys2Proof
end

