-- ==== Sys2Proof/Tests/Slice0.lean ====
section
/-! SUPPORT. The author's own checks: for every statement with hypotheses a state and operands that meet them, small checks
of single steps against the spec's own figures, and ill-formed terms that `Instr.wf` refuses. Each witness state is a small
change of `ready`, a field side in READY whose host holds SERVICE. -/

namespace Sys2Proof.Tests

set_option Elab.async false

open Sys2Proof.Machine

/-! ### The base state and the headers -/

/-- READY with both directions of the elytron up, the chirp running, and SERVICE for host and FSP. -/
def ready : State :=
  let s := State.reset.onHost fun h => { h with alert := false }
  s.onCore fun c =>
    { (((c.wr SYS_BOOT.STATE 7).wr CMDQ_PRIV.HOST 3).wr CMDQ_PRIV.FSP 3) with
      etime := 800000000
      ely := { c.ely with
        h2f := 4, f2h := 2, hbAt := 800000000
        toF := { c.ely.toF with credits := [(0, 4), (1, 4), (2, 4)] }
        toH := { c.ely.toH with credits := [(0, 4), (1, 4), (2, 4)] } }
      tck := { c.tck with running := true, last := 800000000, hbAt := 800000000, kickAt := 800000000, imagoUp := true } }
/-- Write register fields of instance `n`. -/
def w (l : List (Fld × Nat)) (s : State) (n : Nat := 0) : State := s.onCore fun c => c.wrs l n
/-- A host command header on queue 1 with `plen` parameter bytes and no bulk data. -/
def call (plen : Byte) : Call := ⟨.host, 1, 5, 0, false, false, 0, 0, plen, 0, 0, none, ⟨[], [], none⟩⟩
/-- An FSP command header. -/
def fcall (plen : Byte) : Call := { call plen with src := .fsp, q := 0 }
/-- A host command header with `data` as its bulk data, in one element. -/
def bulkCall (plen : Byte) (data : Bytes) : Call :=
  { call plen with sg := true, sgCount := 1, sglAddr := 0x1000, bulk := ⟨[⟨0x2000, BitVec.ofNat 32 data.length, 0⟩], data, none⟩ }

/-- `CleanHeader` as a check. -/
def cleanB (c : Call) (plen : Nat) : Bool :=
  c.tagRes == 0 && c.flagRes == 0 && c.plen.toNat == plen && !c.sg && c.sgCount == 0 && c.sglAddr == 0 && c.resOff.isNone
/-- `BulkHeader` as a check. -/
def bulkB (c : Call) (plen : Nat) (data : Bytes) : Bool :=
  c.src == .host && c.tagRes == 0 && c.flagRes == 0 && c.plen.toNat == plen && c.sg && decide (0 < c.sgCount.toNat) &&
  decide (c.sgCount.toNat ≤ 4096) && c.sglAddr.toNat % 16 == 0 && c.bulk.sgl.all (fun e => e.len != 0 && e.res == 0) &&
  c.resOff.isNone && c.bulk.dmaFail.isNone && c.bulk.data == data && dlenOf c == data.length
/-- `Delivered` as a check. -/
def deliveredB (c : Call) (s : State) : Bool :=
  !s.field.core.imagoDead &&
  match c.src with
  | .host => s.host.powered && s.mayTake c.q.val && s.field.core.elyUp && !s.dupTag c.tag.toNat &&
    !s.onTheWay c.q.val && s.field.core.mayStart s.field.core.cmdq.waiting (inLine c)
  | .fsp => !s.field.core.fspBusy
/-- `Runs` as a check. -/
def runsB (c : Call) (op need : Nat) (s : State) : Bool :=
  s.field.core.bootState == 7 && deliveredB c s && queueTakes c op && decide (needBy c op need ≤ s.field.core.priv c.src)
theorem clean_iff (c : Call) (plen : Nat) : CleanHeader c plen ↔ cleanB c plen = true := by
  constructor
  · rintro ⟨a, b, d, e, f, g, h⟩; simp [cleanB, a, b, d, e, f, g, h]
  · simp only [cleanB, Bool.and_eq_true, beq_iff_eq, Bool.not_eq_true', Option.isNone_iff_eq_none]
    rintro ⟨⟨⟨⟨⟨⟨a, b⟩, d⟩, e⟩, f⟩, g⟩, h⟩; exact ⟨a, b, d, e, f, g, h⟩
theorem bulk_iff (c : Call) (plen : Nat) (data : Bytes) : BulkHeader c plen data ↔ bulkB c plen data = true := by
  constructor
  · rintro ⟨a, b, d, e, f, g, h, i, j, k, l, m⟩; simp [bulkB, a, b, d, e, f, g, h, j, k, l, m]; exact i
  · simp only [bulkB, Bool.and_eq_true, beq_iff_eq, decide_eq_true_eq, Option.isNone_iff_eq_none, List.all_eq_true, bne_iff_ne]
    rintro ⟨⟨⟨⟨⟨⟨⟨⟨⟨⟨⟨⟨a, b⟩, d⟩, e⟩, f⟩, g⟩, g'⟩, h⟩, i⟩, j⟩, k⟩, l⟩, m⟩; exact ⟨a, b, d, e, f, ⟨g, g'⟩, h, i, j, k, l, m⟩
theorem delivered_iff (c : Call) (s : State) : Delivered c s ↔ deliveredB c s = true := by
  unfold Delivered deliveredB
  cases c.src <;> simp [and_assoc]
theorem runs_iff (c : Call) (op need : Nat) (s : State) : Runs c op need s ↔ runsB c op need s = true := by
  constructor
  · rintro ⟨a, b, d, e⟩; simp [runsB, a, (delivered_iff c s).1 b, d, e]
  · simp only [runsB, Bool.and_eq_true, beq_iff_eq, decide_eq_true_eq]
    rintro ⟨⟨⟨a, b⟩, d⟩, e⟩; exact ⟨a, (delivered_iff c s).2 b, d, e⟩

/-- `DramSound` as a check. -/
def soundB (s : State) : Bool :=
  s.field.dram.poison.isEmpty && s.field.dram.once.isEmpty && s.field.core.mem.layout.all (· < 4) &&
  (List.range 4).all fun ch => s.field.core.rd MEMC_STATUS.STATE ch < 3
theorem sound_of (s : State) (h : soundB s = true) : DramSound s := by
  simp only [soundB, Bool.and_eq_true, List.isEmpty_iff, List.all_eq_true, decide_eq_true_eq, List.mem_range] at h
  exact ⟨h.1.1.1, h.1.1.2, h.1.2, h.2⟩

/-! ### Witnesses: the queue, reset, supply, flash (spec/00, spec/02, spec/03) -/

theorem witness_StepRunsFrontCommand :
    ({ ready with pending := [.pwrFail, .encSupOn] } : State).pending = .pwrFail :: [.encSupOn] := by decide +kernel
theorem witness_EmptyQueuePassesOneNanosecond :
    ready.pending = [] ∧ ready.field.core.bootState ≠ 1 ∧ State.reset.pending = [] ∧ State.reset.field.core.bootState = 1 := by
  decide +kernel
theorem witness_StepKeepsMemoryCanonical : ready.Inv ∧ step ready = .next (ready.onCore fun c => { c with etime := c.etime + 1 }) := by
  constructor
  · unfold State.Inv; decide +kernel
  · rfl
theorem witness_FieldEventsStayOnTheFieldSide :
    ofFieldSide .pwrFail = true ∧ ofFieldSide .dspTeEdge = true ∧ State.reset.field.core.bootState = 1 := by decide +kernel
/-- A reset is due after a FIELD_RESET. -/
def wReset (r : State) : State := r.onCore fun c => { c with resetPending := true }
theorem witness_FieldResetsRestoreResetValues :
    ready.field.core.tck.running = true ∧ (wReset ready).field.core.resetPending = true ∧
    ready.field.core.resetPending = false := by decide +kernel
theorem witness_StartUpEndsReadyOrBootFail :
    State.reset.field.core.bootState = 1 ∧ State.reset.field.core.rd MEM_STATUS.IN_SERVICE = 0 := by decide +kernel
/-- VIN_F has been over 32.5 V since 799 ms, reported or not. -/
def wOver (said : Nat) (r : State) : State :=
  (w [(PWR_SUPPLY.VIN_OVER, said)] r).onCore fun c => { c with pwr := { c.pwr with overFrom := some 799000000 } }
theorem witness_SupplySamplesAreShown :
    ready.field.core.bootState ≠ 1 ∧ ready.field.core.pwr.overFrom = none ∧
    (∀ n ∈ [0, 1], (wOver n ready).field.core.bootState ≠ 1 ∧ (wOver n ready).field.core.pwr.overFrom = some 799000000 ∧
      (wOver n ready).field.core.rd PWR_SUPPLY.VIN_OVER = n) := by decide +kernel
/-- VIN_F fell below PF_LEVEL at 799.9 ms. -/
def wLowVin (r : State) : State := r.onCore fun c => { c with pwr := { c.pwr with lowFrom := some 799900000 } }
/-- A power failure is in progress, and VIN_F came back at 700 ms. -/
def wPf (r : State) : State :=
  (w [(PWR_SUPPLY.PF, 1)] r).onCore fun c => { c with pwr := { c.pwr with backFrom := some 700000000 } }
theorem witness_PowerFailSequence :
    (wLowVin ready).field.core.bootState ≠ 1 ∧ (wLowVin ready).field.core.pwr.lowFrom = some 799900000 ∧
    (wLowVin ready).field.core.rd PWR_SUPPLY.PF = 0 ∧ (wLowVin ready).field.core.upLinks = [] ∧
    ready.field.core.pwr.lowFrom = none ∧
    (wPf ready).field.core.bootState ≠ 1 ∧ (wPf ready).field.core.rd PWR_SUPPLY.PF = 1 ∧
    (wPf ready).field.core.rd PWR_SUPPLY.PF_DONE = 0 ∧ (wPf ready).field.core.upLinks = [] ∧
    (wPf ready).field.core.pwr.backFrom = some 700000000 := by decide +kernel
/-- The sensor supplies are on, channels 0 and 7 enabled. -/
def wSup (r : State) : State := (w [(PWR_ENC_SUP.EN, 0x81)] r).onCore fun c => { c with pwr := { c.pwr with on := true } }
/-- Channel 7 has been cut. -/
def wCut (r : State) : State := w [(PWR_ENC_SUP.FAULT, 0x80)] (wSup r)
theorem witness_SensorSuppliesSwitchAndRetry :
    (∀ s ∈ [ready, wSup ready, wCut ready], NothingDue s.field.core) ∧ ready.field.core.bootState ≠ 1 ∧ ready.field.core.pwr.on = false ∧ (wSup ready).field.core.bootState ≠ 1 ∧
    (wSup ready).field.core.pwr.on = true ∧
    ready.field.core.rd PWR_ENC_SUP.FAULT = 0 ∧ (wSup ready).field.core.rd POS_STATUS.FAULT 0 = 0 ∧
    (wSup ready).field.core.rd POS_STATUS.FAULT 1 = 0 ∧ (wSup ready).field.core.rd POS_STATUS.SUP 7 = 0 ∧
    (∀ ch : Fin 8, ch = 0 ∨ ch = 7 → ((wSup ready).field.core.rd PWR_ENC_SUP.EN).testBit ch.val = true ∧
      ((wSup ready).field.core.rd PWR_ENC_SUP.FAULT).testBit ch.val = false) ∧
    (wCut ready).field.core.bootState ≠ 1 ∧ ((wCut ready).field.core.rd PWR_ENC_SUP.EN).testBit 7 = true ∧
    ((wCut ready).field.core.rd PWR_ENC_SUP.FAULT).testBit 7 = true := by unfold NothingDue; decide +kernel
/-- Two flash writes are queued and the first is being written. -/
def wFlash (op : FlashOp) (r : State) : State :=
  r.onCore fun c => { c with flash := { c.flash with queue := [op, .boot 0 1], busy := true } }
/-- A MOLT has passed the line to core B, and its boot record is being written. -/
def wSwapped (r : State) : State :=
  (w [(TCK_STATUS.MOLT_PENDING, 1)] (wFlash (.boot 1 0) r)).onCore fun c =>
    { c with tck := { c.tck with molt := some ⟨7, 1, 0, false, true, true⟩ } }
theorem witness_FlashWritesEndInOrder :
    (∀ s ∈ [wFlash (.boot 1 0) ready, wFlash (.ranks [(0, 1, 6)]) ready, wFlash (.press [1]) ready,
      wFlash (.image 1 1 9 [0x54]) ready], s.field.core.bootState = 7 ∧ s.field.core.bootState ≠ 1 ∧ s.field.core.flash.busy = true) ∧
    (∀ op ∈ ([.boot 1 0, .ranks [(0, 1, 6)], .press [1]] : List FlashOp), (wFlash op ready).field.core.flash.queue = op :: [.boot 0 1]) ∧
    (wFlash (.image 1 1 9 [0x54]) ready).field.core.flash.queue = .image 1 1 9 [0x54] :: [.boot 0 1] ∧
    (wFlash (.image 1 1 9 [0x54]) ready).field.core.rd (failFld 1) = 0 ∧
    (∀ m, (wFlash (.boot 1 0) ready).field.core.tck.molt = some m → m.swapped = false) ∧
    (wSwapped ready).field.core.flash.busy = true ∧ (wSwapped ready).field.core.bootState ≠ 1 ∧
    (wSwapped ready).field.core.tck.molt = some ⟨7, 1, 0, false, true, true⟩ ∧
    (⟨7, 1, 0, false, true, true⟩ : Molt).swapped = true ∧ (wSwapped ready).field.core.flash.queue = .boot 1 0 :: [.boot 0 1] ∧
    (∀ core slot o d, (.boot 1 0 : FlashOp) ≠ .image core slot o d) := by
  refine ⟨by decide +kernel, by decide +kernel, by decide +kernel, by decide +kernel, fun m h => ?_, by decide +kernel,
    by decide +kernel, by decide +kernel, by decide +kernel, by decide +kernel, by intros; simp⟩
  rw [show (wFlash (.boot 1 0) ready).field.core.tck.molt = none by decide +kernel] at h
  cases h
/-- A MOLT of core B into slot A is pending. -/
def wMolt (r : State) : State :=
  (w [(TCK_STATUS.MOLT_PENDING, 1)] r).onCore fun c =>
    { c with tck := { c.tck with molt := some ⟨7, 1, 0, false, false, false⟩, stagedB := some 0 } }
theorem witness_MoltGoesOnWithAGoodImage :
    (wMolt ready).field.core.bootState ≠ 1 ∧ (wMolt ready).field.core.tck.molt = some ⟨7, 1, 0, false, false, false⟩ ∧
    (wMolt ready).field.core.tck.held = none ∧ (⟨7, 1, 0, false, false, false⟩ : Molt).booted = false ∧
    (⟨7, 1, 0, false, false, false⟩ : Molt).core = (1 : Fin 2).val ∧ (⟨7, 1, 0, false, false, false⟩ : Molt).slot = (0 : Fin 2).val := by
  decide +kernel

/-! ### Witnesses: the chirp and the tick cores (spec/05) -/

/-- What a chirp without work and without heartbeats finds. -/
def idleChirp : ChirpIn := ⟨false, false, false, false, 0, 0, false, [], [], 0, none, none, []⟩
theorem witness_ChirpBoundaryCountsAndMonitors : ready.field.core.tck.running = true ∧ idleChirp.works = false := by decide +kernel
/-- Items 8 and 9 of this chirp were left. -/
def wDrop (r : State) : State := r.onCore fun c => { c with tck := { c.tck with dropped := 2 } }
theorem witness_CheckpointDeadlineDropsAndCheckpoints :
    (wDrop ready).field.core.bootState ≠ 1 ∧ (wDrop ready).field.core.tck.dropped ≠ 0 := by decide +kernel
/-- Three misses, a live pupa, and a valid bank. -/
def wTake (r : State) : State :=
  (w [(TCK_STATUS.MISS_RUN, 3), (TCK_STATUS.PUPA_STATE, 2)] r).onCore fun c =>
    { c with tck := { c.tck with bank0 := some ⟨0x544B5043, 0, 0, 5, 0, 23168, false, true, { c.ckptBody with thermal := { c.thm with mr4 := 3 } }⟩ } }
/-- The same with another checkpoint epoch in core B. -/
def wTakeOdd (r : State) : State := w [(SYS_EPOCH.CKPT_EPOCH, 9)] (wTake r) 1
theorem witness_TakeoverPassesTheLine :
    (∀ s ∈ [wTake ready, wTakeOdd ready], s.field.core.tck.running = true ∧
      s.field.core.tck.missLimit ≤ s.field.core.rd TCK_STATUS.MISS_RUN ∧ 2 ≤ s.field.core.rd TCK_STATUS.PUPA_STATE ∧
      s.field.core.rd SYS_BOOT.IMAGO ≤ 1 ∧ s.field.core.cmdq.waiting = [] ∧ s.field.core.jobs = JobSt.reset) ∧
    (wTake ready).field.core.rd SYS_EPOCH.CKPT_EPOCH 0 = (wTake ready).field.core.rd SYS_EPOCH.CKPT_EPOCH 1 ∧
    (wTake ready).field.core.newestCkpt (fun _ => false) = (wTake ready).field.core.tck.bank0 ∧ (wTake ready).field.core.tck.bank0.isSome ∧
    (wTakeOdd ready).field.core.rd SYS_EPOCH.CKPT_EPOCH 0 ≠ (wTakeOdd ready).field.core.rd SYS_EPOCH.CKPT_EPOCH 1 := by decide +kernel
/-- The pupa has been silent for 16 chirps. -/
def wSilent (r : State) : State :=
  (w [(TCK_STATUS.PUPA_STATE, 2)] r).onCore fun c => { c with tck := { c.tck with pupaSilent := 16 } }
/-- Core B is being restarted, with `n` failures as imago. -/
def wHeld (n : Nat) (r : State) : State :=
  (w [(failCnt 1, n), (TCK_STATUS.PUPA_STATE, 1)] r).onCore fun c => { c with tck := { c.tck with held := some 1 } }
theorem witness_HeldCoresRestartAsPupa :
    (wSilent ready).field.core.bootState ≠ 1 ∧ 2 ≤ (wSilent ready).field.core.rd TCK_STATUS.PUPA_STATE ∧
    16 ≤ (wSilent ready).field.core.tck.pupaSilent ∧ (wHeld 2 ready).field.core.tck.molt = none ∧
    (∀ n ∈ [2, 3], (wHeld n ready).field.core.bootState ≠ 1 ∧ (wHeld n ready).field.core.tck.held = some (1 : Fin 2).val ∧
      (wHeld n ready).field.core.rd (failCnt 1) = n ∧ (wHeld n ready).field.core.rd TCK_STATUS.PUPA_STATE = 1) := by decide +kernel
/-- TC-B is imago after a failover and TC-A is ready: a revert is due. -/
def wRevert (r : State) : State :=
  (w [(TCK_STATUS.PUPA_STATE, 2), (SYS_BOOT.IMAGO, 1), (TCK_STATUS.REVERT_PENDING, 1)] r).onCore fun c =>
    { c with tck := { c.tck with boundary := true, jobBoundary := true } }
/-- A drill whose new imago has run 16 chirps. -/
def wDrill (r : State) : State :=
  (w [(TCK_STATUS.DRILL_PENDING, 1)] r).onCore fun c => { c with
    tck := { c.tck with drill := some ⟨3, true, 900, some 16⟩, stagedB := some 0 }
    cmdq := { c.cmdq with async := [⟨3, 0x0802, 1, 1⟩] } }
theorem witness_HandoverPassesOrFails :
    (wRevert ready).field.core.bootState ≠ 1 ∧ (wRevert ready).field.core.handoverDue = some 2 ∧
    (wRevert ready).field.core.rd TCK_STATUS.PUPA_STATE = 2 ∧ (wRevert ready).field.core.rd SYS_BOOT.IMAGO = 1 ∧
    (wRevert ready).field.core.tck.molt = none ∧ (wRevert ready).field.core.tck.drill = none ∧
    (wDrill ready).field.core.bootState ≠ 1 ∧ (wDrill ready).field.core.tck.drill = some ⟨3, true, 900, some 16⟩ ∧
    (⟨3, true, 900, some 16⟩ : Drill).swapped = true ∧ 16 ≤ ((⟨3, true, 900, some 16⟩ : Drill).chirps.getD 0) := by decide +kernel

/-! ### Witnesses: commands and registers (spec/04) -/

/-- A NOP with a reserved FLAGS bit set. -/
def badNop : Call := { call 0 with flagRes := 1 }
theorem witness_FailedCheckAnswersAndDoesNothing :
    cmdOf id (.nop badNop) = some (cmdNop badNop) ∧ Delivered badNop ready ∧ ready.field.core.bootState ≠ 1 ∧
    (cmdNop badNop).check false ready.field.core = some (.err 0x11 1 0x04 none) := by
  refine ⟨rfl, ?_, ?_, ?_⟩
  · rw [delivered_iff]; decide +kernel
  · decide +kernel
  · decide +kernel
/-- The elytron is down. -/
def wDown (r : State) : State := r.onCore fun c => { c with ely := { c.ely with h2f := 0 } }
/-- The same beside an earlier command of queue 1. -/
def wDownBeside (r : State) : State := (wDown r).onHost fun h => { h with tracked := [⟨1, 9, 0, 0x0100⟩] }
theorem witness_HostSideAnswersWithoutElytron :
    cmdOf id (.nop (call 0)) = some (cmdNop (call 0)) ∧ (cmdNop (call 0)).call.src = .host ∧
    (∀ s ∈ [wDown ready, wDownBeside ready], s.host.powered = true ∧ s.field.core.elyUp = false ∧ s.mayTake 1 = true) ∧
    (wDown ready).host.owes 1 = 0 ∧ (wDownBeside ready).host.owes 1 ≠ 0 ∧ (wDown ready).field.core.rd CMDQ_CFG.MODE = 0 ∧
    (cmdNop (call 0)).op ≠ 1 := by
  exact ⟨rfl, rfl, by decide +kernel, by decide +kernel, by decide +kernel, by decide +kernel, by decide +kernel⟩
/-- Another command of the host is in flight. -/
def wBeside (r : State) : State := r.onHost fun h => { h with tracked := [⟨1, 9, 0, 0x0100⟩] }
theorem witness_SystemCommandsAct :
    CleanHeader (call 0) 0 ∧ Runs (call 0) 0x0000 0 ready ∧ Runs (call 0) 0x0001 0 ready ∧ Runs (call 0) 0x0003 3 ready ∧
    CleanHeader (fcall 0) 0 ∧ Runs (fcall 0) 0x0000 0 ready ∧ Runs (fcall 0) 0x0003 3 ready ∧
    CleanHeader (call 4) 4 ∧ Runs (call 4) 0x0002 2 ready ∧ (1 : Byte).toNat ≤ 1 ∧ ready.inFlight = [] ∧
    ready.field.core.cmdq.open_ = [] ∧ Runs (call 4) 0x0002 2 (wBeside ready) ∧ (wBeside ready).inFlight ≠ [] ∧
    (wBeside ready).inFlight.length + 1 < 1024 := by
  simp only [clean_iff, runs_iff]; decide +kernel
/-- A nonce for OPERATOR (1) has been issued at 795 s. -/
def wNonce (r : State) : State :=
  r.onCore fun c => { c with etime := 805000000000, cmdq := { c.cmdq with authHost := ⟨some (0x1234, 1, 795000000000), 4, 0⟩ } }
theorem witness_AuthRaisesOnlyWithTheRightMac :
    levelOk (call 4).src (1 : Byte).toNat = true ∧ CleanHeader (call 4) 4 ∧ Runs (call 4) 0x00F0 0 ready ∧
    (ready.field.core.auth (call 4).src).lockUntil ≤ ready.field.core.etime ∧
    levelOk (call 36).src (1 : Byte).toNat = true ∧ CleanHeader (call 36) 36 ∧ Runs (call 36) 0x00F0 0 (wNonce ready) ∧
    ((wNonce ready).field.core.auth (call 36).src).nonce = some (0x1234, (1 : Byte).toNat, 795000000000) ∧
    (wNonce ready).field.core.etime ≤ 795000000000 + 10000000000 ∧
    (call 4).src = .host ∧ (1 : Byte).toNat ≤ ready.field.core.priv .host := by
  simp only [clean_iff, runs_iff]; decide +kernel
/-- A header of a command that returns 20 bytes. -/
def returnCall : Call := bulkCall 8 (List.replicate 20 0)
theorem witness_RegisterReadsReturnWords :
    (∀ i, i < 5 → Readable (ready.field.core.priv .host) ((0xC : Word).toNat + 4 * i) ready.field.core) ∧
    Readable (ready.field.core.priv .host) (0x30004 : Word).toNat ready.field.core ∧
    CleanHeader (call 4) 4 ∧ Runs (call 4) 0x0100 1 ready ∧ CleanHeader (call 8) 8 ∧ Runs (call 8) 0x0103 1 ready ∧
    ReturnHeader returnCall 8 (4 * (5 : BitVec 16).toNat) ∧ Runs returnCall 0x0103 1 ready ∧ (4 : BitVec 16).toNat ≤ 4 ∧
    CleanHeader (call 12) 12 ∧ Runs (call 12) 0x0102 2 ready ∧ ready.field.core.rd SYS_LOCK.CFG_LOCK = 0 := by
  refine ⟨by unfold Readable; decide +kernel, by unfold Readable; decide +kernel, ?_, ?_, ?_, ?_,
    ⟨rfl, rfl, rfl, rfl, rfl, by decide, rfl, by decide, rfl, rfl, rfl⟩, ?_, by decide, ?_, ?_, by decide +kernel⟩ <;>
    simp only [clean_iff, runs_iff] <;> decide +kernel
/-- CFG_LOCK is set. -/
def wLocked (r : State) : State := w [(SYS_LOCK.CFG_LOCK, 1)] r
theorem witness_RegisterWritesStoreAndLock :
    CleanHeader (call 8) 8 ∧ Runs (call 8) 0x0101 2 ready ∧ ready.field.core.rd SYS_LOCK.CFG_LOCK = 0 ∧
    3 ≤ ready.field.core.priv (call 8).src ∧
    Runs (call 8) 0x0101 2 (wLocked ready) ∧ (wLocked ready).field.core.rd SYS_LOCK.CFG_LOCK = 1 ∧
    bits (0x5 : Word).toNat 3 0 ≠ (wLocked ready).field.core.rd ELY_CFG.HOST_HB_MISS := by
  simp only [clean_iff, runs_iff]; decide +kernel
theorem witness_AddressViolationIsLogged :
    CleanHeader (call 8) 8 ∧ Runs (call 8) 0x0101 0 ready ∧ ((0x30002 : Word).toNat % 4 ≠ 0 ∨ regDefined (0x30002 : Word).toNat = false) ∧
    ((0x3FFF0 : Word).toNat % 4 ≠ 0 ∨ regDefined (0x3FFF0 : Word).toNat = false) ∧ ready.field.core.rd LOG_VIOL_CTL.NEXT < 16 := by
  simp only [clean_iff, runs_iff]; decide +kernel
/-- A press with bar 0 on segment 0 (links 0 and 1), heads 0 and 15 of 640 nozzles. -/
def wPress (r : State) : State :=
  (w [(GEO_PRESS.BAR_MASK, 1)] r).onCore fun c =>
    { c with press := { c.press with segBar := [(0, 0), (1, 0)], nozzles := [(0, 640), (15, 640)], datum := [(0, 0)] } }
/-- The shadow bank is selected at its last entry. -/
def wTone (r : State) : State := w [(HDC_TONE_IDX.BANK, 1), (HDC_TONE_IDX.IDX, 255)] (wPress r)
theorem witness_ToneRegistersReachTheShadow :
    Runs (call 4) 0x0101 2 (wTone ready) ∧ Runs (call 4) 0x0100 1 (wTone ready) ∧ CleanHeader (call 4) 4 ∧
    Runs (call 8) 0x0101 2 (wTone ready) ∧ Runs (call 8) 0x0100 1 (wTone ready) ∧ CleanHeader (call 8) 8 ∧
    (wTone ready).field.core.headPresent (0 : Fin 192).val = true ∧ (wTone ready).field.core.servoOwns (0 : Fin 192).val = false ∧
    (wTone ready).field.core.rd SYS_LOCK.CFG_LOCK = 0 ∧ (wTone ready).field.core.rd HDC_TONE_IDX.BANK (0 : Fin 192).val = 1 ∧
    (wTone ready).field.core.rd HDC_TONE_CTL.PENDING (0 : Fin 192).val = 0 := by
  simp only [clean_iff, runs_iff]; decide +kernel
/-- The low word of the window entry of bar 7, k 131,071 is held. -/
def wLow (r : State) : State := r.onCore fun c => { c with lo := [(0x1000000 + 0x100000 * 7 + 8 * 131071, 0xABCD0012 + 1)] }
theorem witness_ScreeningRegistersAct :
    (∀ s ∈ [ready, wPress ready, wLow ready], s.field.core.rd SYS_LOCK.CFG_LOCK = 0 ∧ s.field.core.printing = false) ∧
    Runs (call 8) 0x0101 2 (wPress ready) ∧ Runs (call 8) 0x0100 1 (wPress ready) ∧ CleanHeader (call 8) 8 ∧
    (wPress ready).field.core.barPresent (0 : Fin 8).val = true ∧
    Runs (call 4) 0x0101 2 ready ∧ Runs (call 4) 0x0100 1 ready ∧ CleanHeader (call 4) 4 ∧
    Runs (call 8) 0x0101 2 (wLow ready) ∧ Runs (call 8) 0x0100 1 (wLow ready) ∧ (wLow ready).field.core.press.stages = [] ∧
    (wLow ready).field.core.csv.stages = [] ∧ (0xFF1234 : Word).toNat < 2 ^ 24 ∧ 0xABCD0012 < 2 ^ 32 ∧
    mget 0 (wLow ready).field.core.lo (0x1000000 + 0x100000 * (7 : Fin 8).val + 8 * (131071 : Fin 131072).val) = 0xABCD0012 + 1 := by
  simp only [clean_iff, runs_iff]; decide +kernel
theorem witness_PairReadsAreConsistent :
    CleanHeader (call 4) 4 ∧ Runs (call 4) 0x0100 1 ready ∧ ready.field.core.timedOut (cdcId 4 10 0) = false := by
  simp only [clean_iff, runs_iff]; decide +kernel
theorem witness_ControlRegisterWritesAct :
    CleanHeader (call 8) 8 ∧ Runs (call 8) 0x0101 3 ready ∧ ready.field.core.rd SYS_LOCK.CFG_LOCK = 0 ∧ ready.field.core.cdc.out = [] ∧
    (0x80000000 : Word).toNat.testBit 31 = true ∧ ready.field.core.printing = false ∧ (4 : Word).toNat.testBit 2 = true ∧ ready.field.core.tck.running = true ∧
    idleChirp.works = false := by
  simp only [clean_iff, runs_iff]; decide +kernel

/-! ### Witnesses: position channels and the compare pool (spec/08) -/

/-- Channels 0 to 7 are of a type. -/
def wType (ty : Nat) (r : State) : State := (List.range 8).foldl (fun s n => w [(POS_CFG.TYPE, ty)] s n) r
theorem nothingDue_iff (s : Core) : NothingDue s ↔ (s.pos.cmp.pool = [] ∧ s.spg.markers = []) := Iff.rfl
theorem witness_QuadratureEdgesCount :
    (wType 1 ready).field.core.bootState ≠ 1 ∧ NothingDue (wType 1 ready).field.core ∧
    (∀ ch : Fin 8, (wType 1 ready).field.core.rd POS_CFG.TYPE ch.val = 1 ∧ (wType 1 ready).field.core.rd POS_STATUS.FAULT ch.val = 0) ∧
    (w [(POS_CFG.FILT, 3)] (wType 1 ready) 7).field.core.rd POS_CFG.TYPE (7 : Fin 8).val = 1 ∧
    (159 : Byte).toNat < filtNs ((w [(POS_CFG.FILT, 3)] (wType 1 ready) 7).field.core.rd POS_CFG.FILT (7 : Fin 8).val) ∧
    (∀ ch : Fin 8, filtNs ((wType 1 ready).field.core.rd POS_CFG.FILT ch.val) ≤ (160 : Byte).toNat) ∧
    ((wType 1 ready).field.core.pc 0).a ≠ true ∧ ((wType 1 ready).field.core.pc 0).b = false ∧
    ((wType 1 ready).field.core.pc 0).a = false ∧ ((wType 1 ready).field.core.pc 0).b ≠ true := by
  simp only [nothingDue_iff]; decide +kernel
/-- Hall channels whose last state is 1. -/
def wHall (r : State) : State :=
  (wType 2 r).onCore fun c => (List.range 8).foldl (fun c n => c.setPc n { PosCh.reset with hall := 1 }) c
/-- SSI channels of 13 bits, binary, without an error bit. -/
def wSsi (r : State) : State :=
  (List.range 8).foldl (fun s n => w [(POS_SSI_CFG.BITS, 13), (POS_SSI_CFG.GRAY, 0), (POS_SSI_CFG.ERRBIT, 0)] s n) (wType 4 r)
theorem witness_OtherChannelsCount :
    (∀ s ∈ [wHall ready, wType 3 ready, wSsi ready], s.field.core.bootState ≠ 1 ∧
      s.field.core.pos.cmp.pool = [] ∧ s.field.core.spg.markers = [] ∧
      ∀ ch : Fin 8, s.field.core.rd POS_STATUS.FAULT ch.val = 0 ∧ s.field.core.rd POS_CFG.REVERSE ch.val = 0) ∧
    (∀ ch : Fin 8, (wHall ready).field.core.rd POS_CFG.TYPE ch.val = 2 ∧ ((wHall ready).field.core.pc ch.val).hall = 1 ∧
      (wType 3 ready).field.core.rd POS_CFG.TYPE ch.val = 3 ∧ (0x8000 : BitVec 16) ≠ 0 ∧
      (wSsi ready).field.core.rd POS_CFG.TYPE ch.val = 4 ∧ ((wSsi ready).field.core.pc ch.val).ssiLast = none ∧
      (wSsi ready).field.core.rd POS_SSI_CFG.GRAY ch.val = 0 ∧ (wSsi ready).field.core.rd POS_SSI_CFG.ERRBIT ch.val = 0 ∧
      (wSsi ready).field.core.rd POS_STATUS.SSI ch.val = 0) := by decide +kernel
/-- Channel 7 in reverse, its next log slot the last. -/
def wBack (r : State) : State := w [(POS_STATUS.DIR, 1), (POS_STATUS.IDX_NEXT, 15)] (wType 1 r) 7
/-- Channel 7 armed with PRESET 0x1234. -/
def wArmed (r : State) : State := w [(POS_STATUS.IDX_ARMED, 1), (POS_PRESET_LO.PRESET, 0x1234), (POS_COUNT_LO.COUNT, 77)] (wType 1 r) 7
theorem witness_IndexMarksAreLoggedAndPreset :
    (∀ s ∈ [wBack ready, wArmed ready], s.field.core.bootState ≠ 1 ∧ s.field.core.pos.cmp.pool = [] ∧
      s.field.core.spg.markers = [] ∧ s.field.core.rd POS_CFG.TYPE (7 : Fin 8).val = 1 ∧
      s.field.core.rd POS_CFG.IDX_GATE (7 : Fin 8).val = 0 ∧ s.field.core.rd POS_STATUS.IDX_NEXT (7 : Fin 8).val < 16) ∧
    (wBack ready).field.core.rd POS_STATUS.DIR (7 : Fin 8).val = 1 ∧ (wArmed ready).field.core.rd POS_STATUS.DIR (7 : Fin 8).val = 0 ∧
    (wArmed ready).field.core.rd POS_STATUS.IDX_ARMED (7 : Fin 8).val = 1 := by decide +kernel
/-- Channel 2 stands still. -/
def wStill (r : State) : State := w [(POS_STATUS.STILL, 1)] (wType 1 r) 2
/-- Channel 2 last stepped 1 µs ago, after a period of 1 ms, and its speed window ends at 800 ms. -/
def wMoves (r : State) : State :=
  (w [(POS_STATUS.STILL, 0), (POS_PERIOD.NS, 1000000)] (wType 1 r) 2).onCore fun c =>
    c.setPc 2 { PosCh.reset with lastStep := some 799999000, winAt := 800000000 - 1000 * c.rd POS_SPD_CFG.WINDOW_US 2 }
theorem witness_SpeedFollowsPeriodAndStill :
    (wStill ready).field.core.bootState ≠ 1 ∧ (wStill ready).field.core.rd POS_CFG.TYPE (2 : Fin 8).val = 1 ∧
    (wStill ready).field.core.rd POS_STATUS.STILL (2 : Fin 8).val = 1 ∧
    (wMoves ready).field.core.bootState ≠ 1 ∧ (wMoves ready).field.core.rd POS_CFG.TYPE (2 : Fin 8).val = 1 ∧
    (wMoves ready).field.core.rd POS_STATUS.STILL (2 : Fin 8).val = 0 ∧ (wMoves ready).field.core.rd POS_STATUS.FAULT (2 : Fin 8).val = 0 ∧
    ((wMoves ready).field.core.pc (2 : Fin 8).val).base = none ∧ ((wMoves ready).field.core.pc (2 : Fin 8).val).lastStep = some 799999000 ∧
    0 < (wMoves ready).field.core.rd POS_PERIOD.NS (2 : Fin 8).val ∧
    max (wMoves ready).field.core.etime (((wMoves ready).field.core.pc (2 : Fin 8).val).winAt +
      1000 * (wMoves ready).field.core.rd POS_SPD_CFG.WINDOW_US (2 : Fin 8).val) ≤
      799999000 + (wMoves ready).field.core.rd POS_PERIOD.NS (2 : Fin 8).val ∧
    filtNs ((wStill ready).field.core.rd POS_CFG.FILT (2 : Fin 8).val) ≤ (160 : Byte).toNat ∧
    (wStill ready).field.core.pos.cmp.pool = [] ∧ (wStill ready).field.core.spg.markers = [] ∧
    (wStill ready).field.core.rd POS_STATUS.FAULT (2 : Fin 8).val = 0 ∧ ((wStill ready).field.core.pc (2 : Fin 8).val).a ≠ true ∧
    ((wStill ready).field.core.pc (2 : Fin 8).val).b = false := by decide +kernel
/-- Channels 2 and 7 have lost their signal. -/
def wLos (r : State) : State := w [(POS_STATUS.LOS, 1), (POS_STATUS.FAULT, 1)] (w [(POS_STATUS.LOS, 1), (POS_STATUS.FAULT, 1)] (wType 1 r) 2) 7
/-- A sin/cos channel 7 at 500 kHz, 15 samples out of the amplitude window. -/
def wSin (r : State) : State := (wType 3 r).onCore fun c => c.setPc 7 { PosCh.reset with hz := 500000, ampOut := 15 }
/-- PC1 has lost its signal. -/
def wLos1 (r : State) : State := w [(POS_STATUS.LOS, 1), (POS_STATUS.FAULT, 1)] (wType 1 r) 1
theorem witness_ChannelFaultsRaiseAndClear :
    (∀ s ∈ [wType 1 ready, wLos ready, wSin ready], s.field.core.bootState ≠ 1 ∧ NothingDue s.field.core ∧
      s.field.core.rd POS_STATUS.FAULT 0 = 0 ∧ s.field.core.rd POS_STATUS.FAULT 1 = 0) ∧
    (wType 1 ready).field.core.signMet (7 : Fin 8).val .amplitude = false ∧ (.amplitude : PosSign) ≠ .illegal ∧
    (wType 1 ready).field.core.rd POS_SIG_CFG.LOS_US (2 : Fin 8).val ≤ (0xFFFF : BitVec 16).toNat ∧
    (wSin ready).field.core.rd POS_CFG.TYPE (7 : Fin 8).val = 3 ∧
    (wSin ready).field.core.hzLimit (7 : Fin 8).val < ((wSin ready).field.core.pc (7 : Fin 8).val).hz ∧
    (wSin ready).field.core.rd POS_STATUS.RATE (7 : Fin 8).val = 0 ∧
    (wSin ready).field.core.rd POS_SIG_CFG.AMP_FILT (7 : Fin 8).val ≤ ((wSin ready).field.core.pc (7 : Fin 8).val).ampOut ∧
    (wSin ready).field.core.rd POS_STATUS.AMP (7 : Fin 8).val = 0 ∧
    (wLos1 ready).field.core.bootState ≠ 1 ∧ NothingDue (wLos1 ready).field.core ∧ (1 : Fin 8).val < 2 ∧
    (wLos1 ready).field.core.rd POS_CFG.TYPE (1 : Fin 8).val = 1 ∧ (wLos1 ready).field.core.rd POS_STATUS.LOS (1 : Fin 8).val = 1 ∧
    (∀ ch : Fin 8, ch = 2 ∨ ch = 7 → 2 ≤ ch.val ∧ (wType 1 ready).field.core.rd POS_CFG.TYPE ch.val = 1 ∧
      (wType 1 ready).field.core.rd POS_STATUS.LOS ch.val = 0 ∧ (wLos ready).field.core.rd POS_CFG.TYPE ch.val = 1 ∧
      (wLos ready).field.core.rd POS_STATUS.LOS ch.val = 1 ∧ (wLos ready).field.core.rd POS_STATUS.HALL_BAD ch.val = 0 ∧
      (wLos ready).field.core.rd POS_STATUS.AMP ch.val = 0 ∧ (wLos ready).field.core.rd POS_STATUS.SSI ch.val = 0 ∧
      (wLos ready).field.core.rd POS_STATUS.RATE ch.val = 0 ∧ (wLos ready).field.core.rd POS_STATUS.SUP ch.val = 0) := by
  simp only [nothingDue_iff]; decide +kernel
/-- PC0 has moved 2^TRACK counts since the window began, PC1 three times as many. -/
def wRatio (r : State) : State :=
  (w [(POS_STATUS.STILL, 0)] (w [(POS_STATUS.STILL, 0)] (wType 1 r) 0) 1).onCore fun c =>
    (c.setPc 0 { PosCh.reset with steps := 2 ^ c.rd POS_WEB_CFG.TRACK }).setPc 1 { PosCh.reset with steps := 3 * 2 ^ c.rd POS_WEB_CFG.TRACK }
/-- The web source is lost and a return is pending, with PC0 sound. -/
def wLostWeb (r : State) : State := w [(POS_WEB_STATUS.RETURN_PENDING, 1), (POS_WEB_STATUS.LOST, 1), (POS_WEB_STATUS.SRC, 1)] (wType 1 r)
/-- PC1 is the web source. -/
def wPc1 (r : State) : State := w [(POS_WEB_STATUS.SRC, 1)] (wType 1 r)
theorem witness_WebSourceMeasuresAndReturns :
    (wRatio ready).field.core.bootState ≠ 1 ∧ (wRatio ready).field.core.rd POS_STATUS.FAULT 0 = 0 ∧ (wRatio ready).field.core.rd POS_STATUS.FAULT 1 = 0 ∧
    (wRatio ready).field.core.rd POS_STATUS.STILL 0 = 0 ∧ (wRatio ready).field.core.rd POS_STATUS.STILL 1 = 0 ∧
    2 ^ (wRatio ready).field.core.rd POS_WEB_CFG.TRACK ≤
      (((wRatio ready).field.core.pc 0).steps - (wRatio ready).field.core.pos.web.win0).natAbs ∧
    (wLostWeb ready).field.core.bootState ≠ 1 ∧ (wLostWeb ready).field.core.rd POS_WEB_STATUS.RETURN_PENDING = 1 ∧
    (wLostWeb ready).field.core.rd POS_WEB_STATUS.LOST = 1 ∧ (wLostWeb ready).field.core.rd POS_STATUS.FAULT 0 = 0 ∧
    NothingDue (wLostWeb ready).field.core ∧ (wPc1 ready).field.core.bootState ≠ 1 ∧
    CleanHeader (call 8) 8 ∧ Runs (call 8) 0x0101 2 (wPc1 ready) ∧ (wPc1 ready).field.core.cdc.out = [] ∧
    (wPc1 ready).field.core.rd SYS_LOCK.CFG_LOCK = 0 ∧ (wPc1 ready).field.core.rd POS_WEB_STATUS.SRC = 1 ∧
    (wPc1 ready).field.core.rd POS_WEB_STATUS.LOST = 0 ∧ (1 : Word).toNat.testBit 0 = true := by
  simp only [clean_iff, runs_iff, nothingDue_iff]; decide +kernel
theorem witness_ChannelRegistersAndArmingAct :
    (∀ ch : Fin 8, ch = 2 ∨ ch = 7 → 2 ≤ ch.val ∧ 3 = fieldPart POS_CFG.TYPE (0xFFFFFFFB : Word).toNat ∧
      3 ≠ (wType 1 ready).field.core.rd POS_CFG.TYPE ch.val ∧ (0x100 : Word).toNat ≠ (wType 1 ready).field.core.rd POS_WRAP.WRAP ch.val) ∧
    (wType 1 ready).field.core.cdc.out = [] ∧ (wType 1 ready).field.core.rd SYS_LOCK.CFG_LOCK = 0 ∧ NothingDue (wType 1 ready).field.core ∧
    Runs (call 8) 0x0101 3 (wType 1 ready) ∧ CleanHeader (call 8) 8 ∧ (8 : Word).toNat.testBit 3 = true ∧
    CleanHeader (call 12) 12 ∧ Runs (call 12) 0x0502 2 (wType 1 ready) ∧ (2 : Byte).toNat ≤ 2 ∧ (0 : Byte).toNat ≤ 2 ∧
    (∀ ch : Fin 8, (wType 1 ready).field.core.rd POS_CFG.TYPE ch.val = 1 ∧ (2 ≤ ch.val → (wType 1 ready).field.core.rd POS_WRAP.WRAP ch.val = 0)) ∧
    (0xFFFFFFFFFFFF : BitVec 64).toNat < 2 ^ 48 := by
  simp only [clean_iff, runs_iff, nothingDue_iff]; decide +kernel
/-- Two entries: a 1 µs pulse on CO 3 at PC0 count 1,000, and level on at 2^48 - 1. -/
def cmpBytes : Bytes :=
  [0xE8, 3, 0, 0, 0, 0, 0, 0, 0, 1, 3, 0, 100, 0, 7, 0, 0xFF, 0xFF, 0xFF, 0xFF, 0xFF, 0xFF, 0, 0, 1, 2, 7, 1, 0, 0, 8, 0]
/-- An append of two entries whose first comes next. -/
def wAppend (r : State) : State :=
  r.onCore fun c => c.setCmp { c.pos.cmp with queue := [⟨refOf 0x0500 (call 48), [cmpEntryAt cmpBytes 0, cmpEntryAt cmpBytes 16], 0, 0⟩] }
theorem witness_CompareEntriesQueueAndInsert :
    ((1 : BitVec 16) = 1 ∨ (1 : BitVec 16) = 2) ∧ ((2 : BitVec 16) = 1 ∨ (2 : BitVec 16) = 2) ∧
    CleanHeader (call 32) (16 * (1 : BitVec 16).toNat + 16) ∧ CleanHeader (call 48) (16 * (2 : BitVec 16).toNat + 16) ∧
    Runs (call 32) 0x0500 1 ready ∧ Runs (call 48) 0x0500 1 ready ∧
    (∀ i, i < (2 : BitVec 16).toNat → ready.field.core.cmpBad (cmpEntryAt cmpBytes (16 * i)) = none) ∧
    (2 : BitVec 16).toNat ≤ ready.field.core.cmpFree ∧
    (wAppend ready).field.core.bootState ≠ 1 ∧
    (wAppend ready).field.core.pos.cmp.queue =
      ⟨refOf 0x0500 (call 48), [cmpEntryAt cmpBytes 0, cmpEntryAt cmpBytes 16], 0, 0⟩ :: [] ∧
    (wAppend ready).field.core.pos.cmp.pool.length < 4096 ∧ (cmpEntryAt cmpBytes 0).source ≤ 8 ∧
    smodM ((wAppend ready).field.core.srcMod (cmpEntryAt cmpBytes 0).source)
      ((wAppend ready).field.core.srcPos (cmpEntryAt cmpBytes 0).source) (cmpEntryAt cmpBytes 0).pos ≠ 0 ∧
    decide (smodM ((wAppend ready).field.core.srcMod (cmpEntryAt cmpBytes 0).source)
      ((wAppend ready).field.core.srcPos (cmpEntryAt cmpBytes 0).source) (cmpEntryAt cmpBytes 0).pos > 0) = (cmpEntryAt cmpBytes 0).rev := by
  simp only [clean_iff, runs_iff]; decide +kernel
/-- CO 3 is in a pulse, and three entries are pending. -/
def wPulse (r : State) : State :=
  r.onCore fun c => (c.setCmp { c.pos.cmp with
    timers := [(3, 800001000)]
    pool := [cmpEntryAt cmpBytes 0, { cmpEntryAt cmpBytes 16 with slot := 1 }, ⟨2, 5, 8, 0x10, 0, 0, 3, 9⟩] }).refreshCo
theorem witness_ClearAndPulseEndFreeOutputs :
    CleanHeader (call 4) 4 ∧ Runs (call 4) 0x0501 1 (wPulse ready) ∧ (wPulse ready).field.core.bootState ≠ 1 ∧
    mget 0 (wPulse ready).field.core.pos.cmp.timers (3 : Fin 8).val ≠ 0 := by
  simp only [clean_iff, runs_iff]; decide +kernel

/-! ### Witnesses: the host side, rings, flits, lanes, FSP (spec/01, spec/04) -/

/-- Set BAR0 fields of instance `n`. -/
def hw (l : List (Fld × Nat)) (r : State) (n : Nat := 0) : State := r.onHost fun h => l.foldl (fun h p => h.wr p.1 p.2 n) h
/-- Q0 is a ring of 16 with one entry at slot 15, and the completion ring one of 1,024 with its tail at the last slot. -/
def wRings (r : State) : State :=
  hw [(CQ_SIZE.EN, 1), (CQ_SIZE.LOG2, 10), (CQ_HEAD.HEAD, 5), (CQ_TAIL.TAIL, 1023)]
    (hw [(SQ_SIZE.EN, 1), (SQ_SIZE.LOG2, 4), (SQ_HEAD.HEAD, 15), (SQ_TAIL.TAIL, 0)] r)
theorem witness_RingRegistersFollowTheHost :
    ready.host.powered = true ∧ (wRings ready).host.powered = true ∧
    (0x100F : Word).toNat % 4096 < 2 ^ (wRings ready).host.log2 (0 : Fin 4).val ∧
    2 ^ (wRings ready).host.log2 (0 : Fin 4).val ≤ (0x10 : Word).toNat % 4096 ∧
    (wRings ready).host.rd CQ_HEAD.HEAD < 2 ^ (wRings ready).host.log2 4 ∧ (wRings ready).host.log2 4 ≤ 14 ∧
    (wRings ready).host.rd CQ_TAIL.TAIL = ((wRings ready).host.rd CQ_HEAD.HEAD + 1018) % 2 ^ (wRings ready).host.log2 4 ∧
    1018 < 2 ^ (wRings ready).host.log2 4 ∧
    (∀ q : Fin 4, ready.host.rd SQ_SIZE.EN q.val = 0 ∧ ready.host.rd SQ_BASE_LO.BASE q.val % 4096 = 0) ∧
    4 ≤ (4 : Word).toNat % 16 ∧ (4 : Word).toNat % 16 ≤ 12 ∧ 4 ≤ (12 : Word).toNat % 16 ∧ (12 : Word).toNat % 16 ≤ 12 ∧
    ready.host.rd CQ_SIZE.EN = 0 ∧ 10 ≤ (14 : Word).toNat % 16 ∧ (14 : Word).toNat % 16 ≤ 14 ∧
    ready.host.rd CQ_BASE_LO.BASE % 4096 = 0 ∧ (4 : Word).toNat % 16 = (wRings ready).host.rd SQ_SIZE.LOG2 (0 : Fin 4).val ∧
    0x100 ≤ (0x100 : BitVec 14).toNat ∧ (0x100 : BitVec 14).toNat < 0x2000 ∧ (0x1FFF : BitVec 14).toNat < 0x2000 ∧
    barListed (0x24 : BitVec 14).toNat = true ∧ barListed (0x100 : BitVec 14).toNat = false := by decide +kernel
/-- A completion of a NOP with tag 5. -/
def done5 : Compl := ⟨1, 0, 5, 1, 0, 3, 800000000, 0⟩
/-- The completion has crossed; two commands were lost. -/
def wArrived (r : State) : State :=
  (wRings r).onHost fun h => { h with arrived := [done5], lost := [⟨1, 9, 4, 0x0300⟩, ⟨2, 10, 0, 0x0206⟩] }
/-- The completion's write has failed. -/
def wRetry (r : State) : State := (wRings r).onHost fun h => { h with retry := some done5 }
theorem witness_EntriesAreFetchedAndCompletionsWritten :
    (∀ s ∈ [wArrived ready, wRetry ready], s.host.powered = true ∧ s.host.rd SQ_SIZE.EN 0 = 1 ∧ s.host.rd SQ_SIZE.LOG2 0 ≤ 12 ∧
      s.host.rd SQ_HEAD.HEAD 0 ≠ s.host.rd SQ_TAIL.TAIL 0 ∧ s.field.core.rd CMDQ_CFG.MODE = 0 ∧ s.inFlight.countP (·.q == 0) < 64 ∧
      s.inFlight.length < 512 ∧ s.field.core.elyUp = true ∧ s.host.rd CQ_SIZE.EN = 1 ∧ s.host.rd CQ_SIZE.LOG2 ≤ 14 ∧
      s.host.rd CQ_TAIL.TAIL < 2 ^ s.host.rd CQ_SIZE.LOG2 ∧ s.host.rd CQ_HEAD.HEAD < 2 ^ s.host.rd CQ_SIZE.LOG2 ∧
      (s.host.rd CQ_TAIL.TAIL + 1) % 2 ^ s.host.rd CQ_SIZE.LOG2 ≠ s.host.rd CQ_HEAD.HEAD) ∧
    (List.replicate 64 (0 : Byte)).length = 64 ∧
    (wArrived ready).host.retry = none ∧ (wArrived ready).host.arrived = done5 :: [] ∧ done5.kind = 1 ∧
    (wRetry ready).host.retry = some done5 := by decide +kernel
/-- Change the elytron. -/
def ew (f : ElySt → ElySt) (r : State) : State := r.onCore fun c => { c with ely := f c.ely }
/-- HEARTBEATs of both sides and TIME wait to cross. -/
def wBeats (r : State) : State := ew (fun e => { e with hostHb := true, fieldHb := true, fieldTime := true }) r
/-- A host HEARTBEAT has been sent and not taken. -/
def wNaked (r : State) : State := ew (fun e => { e with toF := { e.toF with next := 1, replay := [⟨0, .hostHeartbeat⟩], nak := some 0 } }) r
/-- A completion and an event wait to cross, and a command of Q1 the other way. -/
def wDone (r : State) : State :=
  ((wRings r).onHost fun h => { h with outbox := [⟨.host, 1, 3, List.replicate 64 0, ⟨[], [], none⟩, false, none⟩] }).onCore fun c =>
    { c with cmdq := { c.cmdq with done := [done5] } }
/-- Only an event waits to cross. -/
def wEvent (r : State) : State :=
  (wRings r).onCore fun c => { c with cmdq := { c.cmdq with events := [⟨2, 0, 0, 0, 0x0D35, 1, 0, 0⟩] } }
theorem witness_FlitsCrossInSequence :
    (∀ s ∈ [ready, wBeats ready, wNaked ready, wDone ready, wEvent ready], s.host.powered = true ∧ s.field.core.flitsCross = true ∧
      s.field.core.cdc.out = [] ∧ s.field.core.cdc.req = [] ∧ s.field.core.rd FIJ_STATUS.ARMED = 0 ∧
      s.field.core.fij.held = [] ∧ s.field.core.ely.hostLost = false ∧ s.field.core.bootState ≠ 1 ∧ s.field.core.elyUp = true ∧
      s.field.core.bootState ≠ 0xF ∧ s.field.core.ely.descs = [] ∧ s.field.core.ely.toF.run < 8 ∧ s.field.core.ely.toH.run < 8 ∧
      (∀ vc ∈ [0, 1, 2], 0 < s.field.core.ely.toF.credit vc ∧ 0 < s.field.core.ely.toH.credit vc)) ∧
    (∀ s ∈ [ready, wBeats ready, wDone ready, wEvent ready], s.field.core.ely.toF.replay = [] ∧ s.field.core.ely.toH.replay = [] ∧
      s.field.core.ely.toF.next = (0 : BitVec 12).toNat ∧ s.field.core.ely.toF.want = (0 : BitVec 12).toNat ∧
      s.field.core.ely.toH.next = (0 : BitVec 12).toNat ∧ s.field.core.ely.toH.want = (0 : BitVec 12).toNat) ∧
    (wBeats ready).field.core.ely.hostHb = true ∧ (wBeats ready).field.core.ely.fieldHb = true ∧
    (wBeats ready).field.core.ely.fieldTime = true ∧
    (ew (fun e => { e with fieldTime := true }) ready).field.core.ely.fieldHb = false ∧
    ready.host.outbox = [] ∧ ready.field.core.ely.hostHb = false ∧ (List.replicate 512 (0 : Byte)).length ≤ 512 ∧
    (wDone ready).host.outbox = ⟨.host, 1, 3, List.replicate 64 0, ⟨[], [], none⟩, false, none⟩ :: [] ∧
    (∀ x ∈ (wDone ready).host.outbox ++ (wDone ready).field.core.cmdq.waiting, x.urgent = false) ∧
    (wDone ready).field.core.ely.hostHb = false ∧ (wDone ready).field.core.cmdq.waiting = [] ∧
    (wDone ready).field.core.cmdq.done = done5 :: [] ∧ (wDone ready).host.answers = [] ∧ (wDone ready).host.cqRoom true = true ∧
    (wEvent ready).field.core.cmdq.done = [] ∧ (wEvent ready).host.cqRoom false = true ∧
    (wEvent ready).field.core.cmdq.events = ⟨2, 0, 0, 0, 0x0D35, 1, 0, 0⟩ :: [] ∧
    (wNaked ready).field.core.ely.toF.want = (0 : BitVec 12).toNat ∧
    (wNaked ready).field.core.ely.toF.replay = [⟨(0 : BitVec 12).toNat, .hostHeartbeat⟩] ∧
    ((wNaked ready).field.core.ely.dir true).replay ≠ [] ∧ (ready.field.core.ely.dir false).replay = [] := by decide +kernel
/-- One field-to-host lane is left; a link-down has been reported. -/
def wLane (r : State) : State := r.onCore fun c => { c with ely := { c.ely with f2h := 1, wasDown := true } }
theorem witness_LanesAndHostSideFollowTheirSupply :
    (∀ s ∈ [ready, wLane ready], s.field.core.bootState ≠ 1 ∧ s.field.core.rd ELY_CFG.HOST_LOSS_POLICY = 0 ∧
      s.field.core.ely.h2f ≤ 4 ∧ s.field.core.ely.f2h ≤ 2 ∧ 2 ≤ s.field.core.ely.h2f ∧ s.host.powered = true ∧
      s.field.core.ely.hostLost = false ∧ s.host.alert = false) ∧
    (wLane ready).field.core.ely.h2f ≠ 0 ∧ (wLane ready).field.core.ely.f2h = 1 ∧ (4 : Fin 5) ≠ 0 ∧ (3 : Fin 5) ≠ 0 ∧
    (wLane ready).field.core.ely.wasDown = true ∧
    ((.hostSideReset : Instr) = .hostSideReset ∧ ready.host.powered = true ∧ true = true) ∧
    ((.hostSupplyChange false : Instr) = .hostSupplyChange false ∧ ready.host.powered ≠ false) := by decide +kernel
/-- The frame of a NOP with tag 5. -/
def nopFrame : Bytes := 0x7E#8 :: ([0, 0, 5, 0] ++ List.replicate 60 0#8) ++ [0x59, 0xce, 0xf8, 0x3c, 0x7E]
/-- The descriptor of a CMP_APPEND of two entries in bulk, all of whose bytes have landed. -/
def appendDesc : DataDesc :=
  ⟨0, 32, cmpBytes, [], refOf 0x0500 (bulkCall 16 cmpBytes), some (.cmpAppend (bulkCall 16 cmpBytes) 2 []), none, none⟩
/-- A JOB_LOAD_DATA with tag 6. -/
def loadCall : Call := { bulkCall 16 cmpBytes with tag := 6 }
/-- The descriptor of a load that has ended with WRONG_STATE. -/
def endedDesc : DataDesc := ⟨1, 64, [], [], refOf 0x0201 loadCall, none, some (wrongState 0x0010), none⟩
/-- Both descriptors are open. -/
def wDesc (r : State) : State :=
  r.onCore fun c => { c with
    ely := { c.ely with descs := [appendDesc, endedDesc], descNext := 2 }
    cmdq := { c.cmdq with open_ := [appendDesc.ref, endedDesc.ref] } }
theorem witness_FramesAndDescriptorsRunCommands :
    ready.field.core.bootState ≠ 1 ∧ fspEntry [0x7E, 1, 0x7E] = none ∧ 5 < 1024 ∧
    fspEntry nopFrame = some (toLE 2 0 ++ toLE 2 5 ++ List.replicate 60 0#8) ∧
    ready.field.core.fspBusy = false ∧ ready.field.core.imagoDead = false ∧
    (wDesc ready).field.core.bootState ≠ 1 ∧
    (wDesc ready).field.core.ely.descs.find? (·.id == 0) = some appendDesc ∧
    (wDesc ready).field.core.cmdq.waiting = [] ∧ (wDesc ready).field.core.imagoDead = false ∧ appendDesc.region = none ∧
    (wDesc ready).field.core.ely.toF.replay = [] ∧ appendDesc.ended = none ∧ appendDesc.len ≤ appendDesc.got.length ∧
    appendDesc.cmd = some (.cmpAppend (bulkCall 16 cmpBytes) 2 []) ∧ (bulkCall 16 cmpBytes).sg = true ∧
    (bulkCall 16 cmpBytes).bulk.dmaFail = none ∧ dlenOf (bulkCall 16 cmpBytes) = appendDesc.len ∧
    appendDesc.len = 16 * (2 : BitVec 16).toNat ∧
    (∀ i, i < (2 : BitVec 16).toNat → (wDesc ready).field.core.cmpBad (cmpEntryAt appendDesc.got (16 * i)) = none) ∧
    (2 : BitVec 16).toNat ≤ (wDesc ready).field.core.cmpFree ∧ appendDesc.got.length = appendDesc.len ∧
    (wDesc ready).field.core.ely.descs.find? (·.id == 1) = some endedDesc ∧ endedDesc.ended = some (wrongState 0x0010) ∧
    endedDesc.ref = refOf 0x0201 loadCall ∧ endedDesc.region = none ∧ loadCall.src = .host ∧
    refOf 0x0201 loadCall ∈ (wDesc ready).field.core.cmdq.open_ := by decide +kernel

/-! ### Witnesses: images, jobs and their data (spec/05, spec/06, spec/12) -/

/-- Zero bytes. -/
def z (n : Nat) : Bytes := List.replicate n 0#8
/-- The shortest staged image. -/
def shortImage : Bytes := List.replicate 257 0x54#8
/-- The pupa could resume, and slot B of core B is staged. -/
def wStaged (r : State) : State :=
  (w [(TCK_STATUS.PUPA_STATE, 2)] r).onCore fun c => { c with tck := { c.tck with stagedB := some 1 } }
theorem witness_StagingMoltAndDrillAreAccepted :
    BulkHeader (bulkCall 4 shortImage) 4 shortImage ∧ Runs (bulkCall 4 shortImage) 0x0800 2 ready ∧ 257 ≤ shortImage.length ∧
    shortImage.length ≤ 16777216 ∧ (1 : Byte).toNat ≤ 1 ∧ (1 : Byte).toNat ≠ ready.field.core.flash.activeSlot (1 : Byte).toNat ∧
    ready.field.core.flash.waiting.length < 1024 ∧ ready.field.core.cmdq.opNext < 2 ^ 32 ∧
    CleanHeader (call 4) 4 ∧ Runs (call 4) 0x0801 2 (wStaged ready) ∧
    (wStaged ready).field.core.rd TCK_STATUS.PUPA_STATE = 2 ∧
    (wStaged ready).field.core.staged (wStaged ready).field.core.pupa = some 1 ∧
    (wStaged ready).field.core.tck.molt = none ∧ (wStaged ready).field.core.tck.drill = none ∧
    (wStaged ready).field.core.printing = false ∧
    ((0 : Byte) = 1 ∨ ckptEpoch (((wStaged ready).field.core.flash.image (wStaged ready).field.core.pupa 1).getD []) =
      (wStaged ready).field.core.rd SYS_EPOCH.CKPT_EPOCH (wStaged ready).field.core.imago) ∧
    (∀ x ∈ (wStaged ready).field.core.cdc.out ++ (wStaged ready).field.core.cdc.req.map (·.1),
      crossesDomain 5 (wStaged ready).field.core.pupa x = false) ∧ (wStaged ready).field.core.cmdq.opNext < 2 ^ 32 ∧
    CleanHeader (call 0) 0 ∧ Runs (call 0) 0x0802 2 (wStaged ready) ∧
    ((wStaged ready).field.core.staged (wStaged ready).field.core.pupa).isSome = true := by
  simp only [clean_iff, runs_iff, bulk_iff]; decide +kernel

/-- A CRC-32C whose running value is forced at each byte. -/
def crcGo : Nat → Bytes → Nat
  | c, [] => c
  | c, b :: bs => if c = 0 then crcGo (crcByte 0x82F63B78 0 b) bs else crcGo (crcByte 0x82F63B78 c b) bs
theorem crcGo_eq (c : Nat) (bs : Bytes) : crcGo c bs = bs.foldl (crcByte 0x82F63B78) c := by
  induction bs generalizing c with
  | nil => rfl
  | cons b bs ih => simp only [crcGo, ih, List.foldl_cons]; split <;> simp_all
theorem crc32c_go (bs : Bytes) : crc32c bs = crcGo 0xFFFFFFFF bs ^^^ 0xFFFFFFFF := by rw [crcGo_eq]; rfl

/-- A job descriptor (R492): bar 0, eight lines of four pixels. -/
def jobBytes : Bytes :=
  [0x54, 0x4A, 0x4F, 0x42, 1, 0, 0, 0, 1, 0, 0, 0, 8] ++ z 47 ++ [0x9C, 0x63, 0x4D, 0x8F, 0, 1, 0, 0, 4, 0, 0, 0, 8] ++ z 1015
theorem jobBytes_crc : jobCrc jobBytes = 0x8F4D639C := by unfold jobCrc; rw [crc32c_go]; decide +kernel
/-- A press and four channels of DRAM. -/
def wMem (r : State) : State :=
  (w [(MEM_STATUS.WAYS, 4), (MEM_STATUS.IN_SERVICE, 15)] (wPress r)).onCore fun c => { c with mem := { c.mem with layout := [0, 1, 2, 3] } }
theorem jobBytes_ok : (wMem ready).field.core.jobCheck jobBytes = none := by
  unfold Core.jobCheck; rw [jobBytes_crc]; decide +kernel
/-- Its bar. -/
def aBar : JobBar := { JobBar.none with code := 1, width := 4, planeLines := 8 }
/-- Job 7 as defined from it, in a state. -/
def aJob (st : Nat) : Job :=
  { id := 7, state := st, barMask := 1, streamMask := 0, flags := 0, lines := 8, cover := [], bars := [(0, aBar)], ceiling := 0
    pos := none, cut := false, aborting := false, struck := none, open_ := 0, defects := [], extra := 0, overflow := false, overSaid := false
    ring := none, endSeq := 0, desc := [], reduced := false, opened := false }
/-- Job 7 is there. -/
def wJob (st : Nat) (r : State) : State :=
  (wMem r).onCore fun c => { c with jobs := { c.jobs with jobs := [aJob st], regions := [(0, 4096)] } }
/-- Job 7 is ARMED, its registers' sets loaded, and no line is near. -/
def wArm (r : State) : State := wJob 3 r
theorem witness_JobCommandsKeepTheRecord :
    BulkHeader (bulkCall 4 jobBytes) 4 jobBytes ∧ Runs (bulkCall 4 jobBytes) 0x0200 1 (wMem ready) ∧ jobBytes.length = 1088 ∧
    (7 : Word) ≠ 0 ∧ (7 : Word) ≠ 0xFFFFFFFF ∧ (wMem ready).field.core.mem.reform = false ∧
    (wMem ready).field.core.jobs.jobs.length < 8 ∧ (wMem ready).field.core.job? (7 : Word).toNat = none ∧
    (((wMem ready).field.core.allocBars jobBytes (jdBars jobBytes)).map fun p => p.1) = some [(0, aBar)] ∧
    CleanHeader (call 4) 4 ∧ Runs (call 4) 0x0203 1 (wJob 2 ready) ∧ Runs (call 4) 0x0206 1 (wJob 2 ready) ∧
    (wJob 2 ready).field.core.job? (7 : Word).toNat = some (aJob 2) ∧ (aJob 2).state = 2 ∧ (aJob 2).state < 256 ∧
    (∀ e ∈ (aJob 2).bars, (wJob 2 ready).field.core.barPresent e.1 = true ∧
      lvlOk (scrOf ((wJob 2 ready).field.core.jobSet (aJob 2) e.1).scr) ((wJob 2 ready).field.core.lmax e.1) = true ∧
      stripOk ((wJob 2 ready).field.core.jobSet (aJob 2) e.1) ((wJob 2 ready).field.core.lmax e.1) = true ∧
      (wJob 2 ready).field.core.shadows e.1 < 3) ∧
    CleanHeader (call 16) 16 ∧ Runs (call 16) 0x0204 1 (wArm ready) ∧
    (wArm ready).field.core.liveJob? (7 : Word).toNat = some (aJob 3) ∧ (aJob 3).state = 3 ∧
    (0 : Word).toNat = (wArm ready).field.core.tailJob ∧ (wArm ready).field.core.jobs.switches.length < 3 ∧
    ((wArm ready).field.core.jobs.switches.any fun w => w.dst == (7 : Word).toNat) = false ∧
    (0x1000000 : BitVec 64).toNat < 2 ^ 38 ∧
    (wArm ready).field.core.switchAhead ((wArm ready).field.core.eitherBars (0 : Word).toNat (7 : Word).toNat)
      (0x1000000 : BitVec 64).toNat = true ∧
    (∀ b ∈ (wArm ready).field.core.eitherBars (0 : Word).toNat (7 : Word).toNat,
      smodM (2 ^ 38) (wArm ready).field.core.phi
        (posMod (((0x1000000 : BitVec 64).toNat : Int) + (wArm ready).field.core.delay b)) < 0) ∧
    (wArm ready).field.core.cmdq.opNext < 2 ^ 32 ∧
    CleanHeader (call 8) 8 ∧ Runs (call 8) 0x0205 1 (wJob 1 ready) ∧ (1 : Byte).toNat ≤ 1 ∧
    (wJob 1 ready).field.core.job? (7 : Word).toNat = some (aJob 1) ∧ 1 ≤ (aJob 1).state ∧ (aJob 1).state ≤ 3 ∧
    (wJob 1 ready).field.core.jobs.switches = [] ∧ (∀ ld ∈ (wJob 1 ready).field.core.jobs.loads, ld.job ≠ (7 : Word).toNat) := by
  simp only [clean_iff, runs_iff, bulk_iff]; decide +kernel
/-- A Skelre header of eight lines of four pixels, and a STORED block of sixteen bytes. -/
def skBytes : Bytes :=
  [0x53, 0x4B, 0x45, 0x4C, 1, 0, 0, 0, 4, 0, 0, 0, 8, 0, 0, 0] ++ [0, 0, 0, 0, 16, 0, 0, 0, 16, 0, 0, 0] ++
  [1, 2, 3, 4, 5, 6, 7, 8, 9, 10, 11, 12, 13, 14, 15, 16, 0x14, 0x67, 0xDE, 0xA0]
/-- An empty ring of 8 MiB for bar 0. -/
def aRing : Ring := ⟨4096, 8388608, 8392704, [], 0, false, 1, [], false, 0, false⟩
/-- Job 7 has it open. -/
def wRing (r : State) : State :=
  (wMem r).onCore fun c => { c with jobs := { c.jobs with
    jobs := [{ aJob 1 with ring := some aRing, opened := true }], regions := [(0, 4096)] } }
/-- Its load is in front, at its header or behind it. -/
def aLoad (begun : Bool) : Load :=
  ⟨refOf 0x0201 (bulkCall 16 skBytes), 7, 0, 0, 4096, skBytes.length, skBytes, if begun then 16 else 0,
    if begun then some (skStart ⟨0, 0, 4, 8⟩) else none, 0, if begun then 2 else 0⟩
/-- A load is under way. -/
def wLoad (begun : Bool) (r : State) : State :=
  (wJob 1 r).onCore fun c => { c with jobs := { c.jobs with loads := [aLoad begun] } }
theorem witness_JobDataIsStagedAndDecoded :
    (∀ b : Bool, DramSound (wLoad b ready)) ∧
    BulkHeader (bulkCall 16 skBytes) 16 skBytes ∧ Runs (bulkCall 16 skBytes) 0x0201 1 (wJob 1 ready) ∧
    (wJob 1 ready).field.core.job? (7 : Word).toNat = some (aJob 1) ∧ (0 : Byte) ≠ 0xFF ∧ (aJob 1).bar? (0 : Byte).toNat = some aBar ∧
    (aJob 1).state = 1 ∧ (4 : BitVec 64).toNat % 4 = 0 ∧ (4 : BitVec 64).toNat < aBar.planeLines ∧ skBytes.length ≤ 268435456 ∧
    ((wJob 1 ready).field.core.allocJob skBytes.length).isSome = true ∧ skBytes.length ≤ (wJob 1 ready).field.core.jobFree ∧
    CleanHeader (call 12) 12 ∧ Runs (call 12) 0x0202 1 (wJob 1 ready) ∧ (1 : Byte) ≠ 0 ∧
    (∀ b : Fin 8, (1 : Byte).toNat.testBit b.val = true → (aJob 1).barMask.testBit b.val = true) ∧
    (8388608 : Word).toNat % 4096 = 0 ∧ 8388608 ≤ (8388608 : Word).toNat ∧ (8388608 : Word).toNat ≤ 1073741824 ∧
    (1073741824 : Word).toNat % 4096 = 0 ∧ (1073741824 : Word).toNat ≤ 1073741824 ∧
    (8388608 : Word).toNat + 262144 * (maskBits 8 (1 : Byte).toNat).length ≤ (wJob 1 ready).field.core.jobFree ∧
    (aJob 1).ring = none ∧ ((wJob 1 ready).field.core.allocJob (8388608 : Word).toNat).isSome = true ∧
    (((wJob 1 ready).field.core.allocJob (8388608 : Word).toNat).bind fun p =>
      p.2.allocJob (262144 * (maskBits 8 (1 : Byte).toNat).length)).isSome = true ∧
    Runs (bulkCall 16 skBytes) 0x0201 1 (wRing ready) ∧
    (((wRing ready).field.core.job? (7 : Word).toNat).bind fun j => if j.opened then j.ring else none) = some aRing ∧
    aRing.dead = false ∧ aRing.segs = [] ∧
    skBytes.length ≤ aRing.size - aRing.bytes.length ∧
    (∀ b : Bool, (wLoad b ready).field.core.bootState ≠ 1 ∧ (∀ j' ∈ (wLoad b ready).field.core.jobs.jobs, j'.ring = none) ∧
      (wLoad b ready).field.core.jobs.loads = aLoad b :: [] ∧ (wLoad b ready).field.core.job? (aLoad b).job = some (aJob 1) ∧
      (aJob 1).bar? (aLoad b).bar = some aBar) ∧
    (aLoad false).stream = none ∧ (aLoad false).data.length ≥ 16 ∧ skHeader (aLoad false).data false = some ⟨0, 0, 4, 8⟩ ∧
    0 = aBar.dpi ∧ 4 = aBar.width ∧ (aLoad false).offset + 8 ≤ aBar.planeLines ∧
    (∀ i, i < 8 / 4 → aBar.band ((aLoad false).offset / 4 + i) = 0) ∧
    (aLoad true).stream = some (skStart ⟨0, 0, 4, 8⟩) ∧
    skBlock ((aLoad true).data.drop (aLoad true).pos) = ⟨0, (aLoad true).bar, 0, 16, 16⟩ ∧
    16 + 16 ≤ ((aLoad true).data.drop (aLoad true).pos).length ∧ 0 + 16 ≤ streamBytes 4 8 ∧
    crc32c ((((aLoad true).data.drop (aLoad true).pos).drop 12).take 16) = leAt ((aLoad true).data.drop (aLoad true).pos) (12 + 16) 4 := by
  refine ⟨fun b => sound_of _ (by cases b <;> decide +kernel), ?_⟩
  simp only [clean_iff, runs_iff, bulk_iff]; decide +kernel


/-! ### Witnesses: the press description, the nozzle path, firing and pacing (spec/07, spec/09) -/

/-- The bytes of a press description up to the last that is not zero: bar 0 on segment 0, head 0 of 640 nozzles. -/
def pressHead : Bytes :=
  [0x50, 0x52, 0x44, 0x53, 1, 0, 0, 1] ++ z 20 ++ [0x48, 0x90, 0x8A, 0x70, 1, 0, 0xFF] ++ z 253 ++ [0] ++
  List.replicate 23 0xFF#8 ++ z 8 ++ [1, 0, 0, 0, 0x80, 2] ++ z 12 ++ [1]
/-- The description. -/
def pressBytes : Bytes := pressHead ++ z 6125
theorem byteAt_z (p : Bytes) (n o : Nat) : byteAt (p ++ z n) o = byteAt p o := by
  unfold byteAt z
  congr 1
  simp only [List.getD_eq_getElem?_getD, List.getElem?_append, List.getElem?_replicate]
  split
  · rfl
  · rename_i h
    rw [List.getElem?_eq_none (by omega)]
    split <;> rfl
theorem leAt_succ (d : Bytes) (o k : Nat) : leAt d o (k + 1) = byteAt d o + 256 * leAt d (o + 1) k := by
  unfold leAt byteAt
  by_cases h : o < d.length
  · rw [List.drop_eq_getElem_cons h, List.take_succ_cons]
    simp [leNat, List.getD_eq_getElem?_getD, h]
  · rw [List.drop_eq_nil_of_le (by omega), List.drop_eq_nil_of_le (by omega)]
    simp [leNat, List.getD_eq_getElem?_getD, List.getElem?_eq_none (Nat.le_of_not_lt h)]
theorem leAt_z (p : Bytes) (n o k : Nat) : leAt (p ++ z n) o k = leAt p o k := by
  induction k generalizing o with
  | zero => simp [leAt, leNat]
  | succ k ih => rw [leAt_succ, leAt_succ, ih, byteAt_z]
theorem pressBytes_crc : pressCrc pressBytes = 0x708A9048 := by unfold pressCrc; rw [crc32c_go]; decide +kernel
theorem press_ok (d : Bytes) (hc : pressCrc d = 0x708A9048) (hd : dHeads d = [0]) (hb : byteAt d = byteAt pressHead)
    (hl : leAt d = leAt pressHead) : pressCheck d = none := by
  simp only [pressCheck, hc, hd, pressRanges, pressShape, pressDup, dSpan, dHeadSpan, dBars, dSegs, sAt, firstNonZero, hb, hl]
  decide +kernel
theorem pressBytes_ok : pressCheck pressBytes = none := by
  have hb : byteAt pressBytes = byteAt pressHead := funext fun _ => byteAt_z _ _ _
  have hl : leAt pressBytes = leAt pressHead := funext fun _ => funext fun _ => leAt_z _ _ _ _
  refine press_ok _ pressBytes_crc ?_ hb hl
  simp only [dHeads, hb]; decide +kernel
/-- One nozzle-state entry. -/
def nozBytes : Bytes := [0, 4, 0, 0, 0, 0, 0, 0]
theorem pressBulk_ok : bulkB (bulkCall 0 pressBytes) 0 pressBytes = true := by decide +kernel
theorem witness_PressSettingsTakeForce :
    BulkHeader (bulkCall 0 pressBytes) 0 pressBytes ∧ Runs (bulkCall 0 pressBytes) 0x0400 2 ready ∧ pressBytes.length = 6464 ∧
    ready.field.core.armedOrPrinting = false ∧ pressCheck pressBytes = none ∧ (∀ l, (ready.field.core.ln l).headEnd = none) ∧
    ready.field.core.flash.waiting.length < 1024 ∧
    CleanHeader (call 16) 16 ∧ Runs (call 16) 0x0401 2 (wPress ready) ∧ (0 : Byte).toNat < 192 ∧
    (wPress ready).field.core.headPresent (0 : Byte).toNat = true ∧ 0x4000 ≤ (sgn 32 (0x10000 : Word).toNat).natAbs ∧
    (sgn 32 (0x10000 : Word).toNat).natAbs ≤ 0x20000 ∧ (sgn 32 (0xFFFF0000 : Word).toNat).natAbs ≤ 0x20000 ∧ (63 : Byte).toNat ≤ 63 ∧
    (wPress ready).field.core.spanWith (0 : Byte).toNat (5 : Word).toNat (sgn 32 (0x10000 : Word).toNat) ≤ 16384 ∧
    (wPress ready).field.core.flash.waiting.length < 1024 ∧
    BulkHeader (bulkCall 12 nozBytes) 12 nozBytes ∧ Runs (bulkCall 12 nozBytes) 0x0402 2 (wPress ready) ∧
    (wPress ready).field.core.barPresent 0 = true ∧ 1 ≤ (1 : Word).toNat ∧ (131071 : Word).toNat + (1 : Word).toNat ≤ 131072 ∧
    nozBytes.length = 8 * (1 : Word).toNat ∧ (∀ i, i < (1 : Word).toNat → leAt nozBytes (8 * i) 8 < 2 ^ 47) ∧
    (∀ e ∈ (wPress ready).field.core.press.nsm, nozTwin e.2 = false) ∧ (wPress ready).field.core.csv.stages = [] ∧
    (∀ i, i < (1 : Word).toNat → (wPress ready).field.core.headOfKey 0 ((131071 : Word).toNat + i) = none) ∧
    (∀ i, i < (1 : Word).toNat → (wPress ready).field.core.headOfKey 0 ((5 : Word).toNat + i) = some 0) := by
  refine ⟨by rw [bulk_iff]; exact pressBulk_ok, ?_, by decide +kernel, by decide +kernel, pressBytes_ok, fun l => rfl, ?_⟩
  · simp only [runs_iff]; decide +kernel
  · simp only [clean_iff, runs_iff, bulk_iff]; decide +kernel

/-- Job 7 prints on bar 0 from web line index 0, and head 0 is attached. -/
def wLine (r : State) : State :=
  (w [(HDC_ID_STATUS.STATE, 3)] (wMem r)).onCore fun c =>
    let j := { aJob 4 with pos := some 0, bars := [(0, { aBar with set := some (c.jobSet (aJob 4) 0) })] }
    { c with jobs := { c.jobs with jobs := [j], chains := [(0, [(0, 7)])], regions := [(0, 4096)] } }
/-- Its set. -/
def aSet (r : State) : JobSet := r.field.core.jobSet (aJob 4) 0
theorem witness_ScreenedLinesAreStaged :
    (∀ ch ∈ (wLine ready).field.core.mem.layout, ch < 4) ∧ (∀ ch, ch < 4 → (wLine ready).field.core.rd MEMC_STATUS.STATE ch ≠ 3) ∧
    (wLine ready).field.core.bootState ≠ 1 ∧ (wLine ready).field.core.segBar 0 ≤ 7 ∧
    (((wLine ready).field.core.nextLine ((wLine ready).field.core.segBar 0) ((wLine ready).field.core.scr 0).nextW).map
      fun p => (p.1, p.2.2.1.set.isSome, p.2.2.2)) = some (0, true, 0) ∧
    (∀ h ∈ (wLine ready).field.core.headsOn 0, (wLine ready).field.core.attached h = true →
      ((wLine ready).field.core.hf h).staged.length < 16) ∧
    0 ∈ (wLine ready).field.core.headsOn 0 ∧ (wLine ready).field.core.attached 0 = true ∧
    ((wLine ready).field.core.hf 0).nextW = none := by decide +kernel

/-- Everything a bar needs to fire stands, and STOP and DISABLED are set. -/
def wFire (r : State) : State :=
  w [(HDC_ID_STATUS.STATE, 3), (SPG_STATUS.SAFE_A, 1), (SPG_STATUS.SAFE_B, 1), (SPG_STATUS.SAFE_DISC, 0), (THM_STATUS.TRIP, 0),
    (POS_WEB_STATUS.LOST, 0), (SPG_STATUS.LOCK, 1), (SPGB_FIRE.CAUSE, 3), (SPGB_FIRE.FIRING, 0)] (wPress r)
/-- The two channels differ since 750 ms. -/
def wDisc (chB : Bool) (r : State) : State :=
  (w [(SPG_STATUS.SAFE_A, b2n chB), (SPG_STATUS.SAFE_B, b2n (!chB)), (SPG_STATUS.SAFE_DISC, 0)] r).onCore fun c =>
    { c with spg := { c.spg with safeAt := some 750000000 } }
theorem witness_FiringFollowsCausesAndSafe :
    CleanHeader (call 4) 4 ∧ (∀ m ∈ [(0 : Byte), 1], ∀ b : Fin 8, m.toNat.testBit b.val = true → (wFire ready).field.core.barPresent b.val = true) ∧
    Runs (call 4) 0x0300 1 (wFire ready) ∧ (wFire ready).field.core.rd SPG_STATUS.SAFE_A = 1 ∧
    (wFire ready).field.core.rd SPG_STATUS.SAFE_B = 1 ∧ (wFire ready).field.core.rd SPG_STATUS.SAFE_DISC = 0 ∧
    (wFire ready).field.core.rd THM_STATUS.TRIP = 0 ∧ (wFire ready).field.core.rd POS_WEB_STATUS.LOST = 0 ∧
    (wFire ready).field.core.rd SPG_STATUS.LOCK = 1 ∧
    (∀ b : Fin 8, named 0 b.val (wFire ready).field.core = true → ((wFire ready).field.core.causes b.val).testBit 7 = false) ∧
    (wFire ready).field.core.causes 0 = 6 ∧
    Runs (call 4) 0x0301 1 (wFire ready) ∧ Runs (call 4) 0x0302 1 (wFire ready) ∧ (0 : Byte).toNat < 192 ∧
    (wFire ready).field.core.headPresent (0 : Byte).toNat = true ∧ (wFire ready).field.core.attached (0 : Byte).toNat = true ∧
    (wFire ready).field.core.rd HDC_FIRE.TRIP (0 : Byte).toNat = 0 ∧
    (∀ b : Bool, (wDisc b ready).field.core.bootState ≠ 1 ∧ (wDisc b ready).field.core.rd SPG_STATUS.SAFE_A = b2n b ∧
      (wDisc b ready).field.core.rd SPG_STATUS.SAFE_B = b2n (!b) ∧ (wDisc b ready).field.core.rd SPG_STATUS.SAFE_DISC = 0 ∧
      (wDisc b ready).field.core.spg.safeAt = some 750000000) := by
  simp only [clean_iff, runs_iff]; decide +kernel

/-- The low half of SPG_LPC has been written with 6. -/
def wLow6 (r : State) : State := r.onCore fun c => { c with lo := mset 0 c.lo (SPG_LPC_LO.LPC.addr 0) 7 }
/-- The web count is 1,000, at one line to the count, and the loop stands 10 lines behind. -/
def wLoop (lost : Nat) (r : State) : State :=
  (w [(POS_WEB_STATUS.LOST, lost), (POS_WEB_COUNT_LO.COUNT, 1000), (SPG_LPC_HI.LPC, 1), (SPG_CFG.BW_HZ, 100)] r).onCore fun c =>
    { c with spg := { c.spg with p := 1000, v := 5, a := 1 } }
theorem witness_LoopFollowsTheWeb :
    CleanHeader (call 8) 8 ∧ Runs (call 8) 0x0101 2 ready ∧ Runs (call 8) 0x0101 2 (wLow6 ready) ∧ ready.field.core.cdc.out = [] ∧
    (wLow6 ready).field.core.cdc.out = [] ∧ (wLow6 ready).field.core.armedOrPrinting = false ∧
    mget 0 (wLow6 ready).field.core.lo (SPG_LPC_LO.LPC.addr 0) = 6 + 1 ∧
    (∀ n ∈ [0, 1], (wLoop n ready).field.core.bootState ≠ 1 ∧ (wLoop n ready).field.core.jobs.jobs = [] ∧
      (wLoop n ready).field.core.rd POS_WEB_STATUS.LOST = n ∧ (wLoop n ready).field.core.allHeads = [] ∧
      (wLoop n ready).field.core.spg.o = 0 ∧ (wLoop n ready).field.core.pos.cmp.pool = [] ∧
      (wLoop n ready).field.core.spg.markers = []) := by
  simp only [clean_iff, runs_iff]; decide +kernel


/-! ### Witnesses: head links (spec/10) -/

/-- Link 0 of the press is present and enabled, in state `st`. -/
def wLn (st : Nat) (r : State) (x : LinkSt := LinkSt.reset) : State :=
  (w [(HLK_STATUS.STATE, st), (HLK_STATUS.PRSNT, 1), (HLK_CFG.EN, 1), (HLK_CFG.CONF_TO_US, 100)] (wPress r)).onCore (·.setLn 0 x)
/-- A link of the press that is neither present nor enabled. -/
def wNone (r : State) : State := w [(HLK_CFG.EN, 0)] (wPress r)
/-- Training may start again at this time. -/
def wAgain (r : State) : State := wLn 0 r { LinkSt.reset with restartAt := some 800000500 }
/-- A HELLO of version 1, 4 tokens and 1,000 ns, sixteen ECHOes of RT 160 and TURN 100, and a STATUS of slot 0. -/
def aHello : Bytes := [6, 0, 1, 4, 0xE8, 3, 0, 0, 0, 0, 0, 0, 0x0C, 0xCA]
def anEcho : List (BitVec 32 × Bytes) := List.replicate 16 (160, [5, 0, 0, 0, 100, 0, 0, 0, 0, 0, 0, 0, 0x8D, 0x08])
def aStatus : Bytes := [2, 17, 8, 0, 0, 0, 0xE8, 3, 0, 0, 0, 0, 0x84, 0x2D]
/-- A head end whose memory does not answer. -/
def noAnswer : IdRead := ⟨[], [(0, [none, none, none])]⟩
/-- An attempt that passes every step, and one that finds no lock. -/
def goodTrain : TrainIn := ⟨true, some aHello, anEcho, some aStatus, noAnswer, ⟨[], none, 17⟩⟩
def noLock : TrainIn := { goodTrain with lock := false }
theorem witness_HeadLinksTrainAndFail :
    (wNone ready).field.core.bootState ≠ 1 ∧ (wNone ready).field.core.rd HLK_STATUS.PRSNT 0 = 0 ∧
    (wLn 2 ready).field.core.bootState ≠ 1 ∧ (wLn 2 ready).field.core.linkState 0 = 2 ∧
    ((wLn 2 ready).field.core.ln 0).failSaidAt = none ∧ (1 : Fin 6) ≠ 0 ∧ (5 : Fin 6) ≠ 0 ∧
    (wAgain ready).field.core.bootState ≠ 1 ∧ ((wAgain ready).field.core.ln 0).restartAt = some 800000500 ∧
    (wAgain ready).field.core.linkState 0 = 0 ∧ (wAgain ready).field.core.rdb HLK_CFG.EN 0 = true ∧
    (wAgain ready).field.core.rdb HLK_STATUS.PRSNT 0 = true ∧
    noLock.lock = false ∧ goodTrain.lock = true ∧ goodTrain.hello = some aHello ∧ helloOf aHello = some (1, 4, 1000) ∧
    goodTrain.status = some aStatus ∧ status0Of aStatus = some (true, 0, 1000) ∧ goodTrain.found.lost = none ∧
    idGot goodTrain.headEnd = none ∧ 16 ≤ goodTrain.echoes.length ∧ (∀ p ∈ goodTrain.echoes.take 16, (turnOf p.2).isSome = true) ∧
    echoLat ((goodTrain.echoes.take 16).filterMap fun p => (turnOf p.2).map fun n => (p.1.toNat, n)) = 30 ∧ ((wLn 2 ready).field.core.ln 0).reattach = [] := by
  decide +kernel

/-- The link is UP, a token of line 7 of slot 0 has been sent, and a read is outstanding. -/
def aTok : Tok := ⟨0, 7, false, 0, 0, some 799999000⟩
def aSb : SbReq := ⟨2, 8, false, 0x10, 0, 1, 799000000⟩
def wUp (r : State) : State := wLn 4 r { LinkSt.reset with tx := true, tokens := [aTok], sb := [aSb] }
theorem witness_LossesEndALink :
    (wUp ready).field.core.bootState ≠ 1 ∧ (∀ h ∈ (wUp ready).field.core.headsOn 0, ((wUp ready).field.core.hf h).issued = []) ∧
    LinkIdle 0 (wUp ready).field.core ∧ 2 ≤ (wUp ready).field.core.linkState 0 ∧ (wUp ready).field.core.rd HLK_STATUS.PRSNT 0 = 1 ∧ (wUp ready).field.core.linkState 0 = 4 ∧
    aTok ∈ ((wUp ready).field.core.ln 0).tokens ∧ aTok.due ((wUp ready).field.core.rd HLK_CFG.CONF_TO_US 0) ≠ none ∧
    ((wUp ready).field.core.ln 0).sb.find? (!·.write) = some aSb ∧ aSb.fails < 2 ∧
    ((wUp ready).field.core.hr (8 * 0 + aSb.target)).write.all (·.outcome == 0) = true ∧
    (wUp ready).field.core.rd FIJ_STATUS.ARMED = 0 ∧ (wUp ready).field.core.fij.held = [] ∧ ((wUp ready).field.core.ln 0).rack = none := by
  unfold LinkIdle; decide +kernel

/-- A LINK_REATTACH waits on link 0. -/
def wWait (r : State) : State :=
  (wLn 2 r { LinkSt.reset with reattach := [(3, 5800000000)] }).onCore fun c =>
    { c with cmdq := { c.cmdq with async := [⟨3, 0x0902, 5, 1⟩] } }
theorem witness_LinkSettingsAndReattach :
    (∀ s ∈ [wUp ready, wNone ready, wWait ready], s.field.core.armedOrPrinting = false ∧
      LinkIdle 0 s.field.core) ∧
    CleanHeader (call 8) 8 ∧ Runs (call 8) 0x0101 2 (wUp ready) ∧ (wUp ready).field.core.rd HLK_CFG.EN 0 = 1 ∧
    LinkIdle 23 (wUp ready).field.core ∧ 8 ≤ (wUp ready).field.core.segBar 23 ∧ ¬ 8 ≤ (wUp ready).field.core.segBar 0 ∧
    (0 : Word).toNat % 2 = 0 ∧ 2 ≤ (wUp ready).field.core.linkState 0 ∧ Runs (call 8) 0x0101 2 (wNone ready) ∧
    (wNone ready).field.core.rd HLK_CFG.EN 0 = 0 ∧ (1 : Word).toNat % 2 = 1 ∧
    CleanHeader (call 4) 4 ∧ Runs (call 4) 0x0902 2 (wUp ready) ∧ (wUp ready).field.core.segBar 0 ≠ 0xFF ∧
    (wUp ready).field.core.rd HLK_STATUS.PRSNT 0 = 1 ∧ (wUp ready).field.core.rd PWR_SUPPLY.PF = 0 ∧
    (wUp ready).field.core.cmdq.opNext < 2 ^ 32 ∧
    (wWait ready).field.core.bootState ≠ 1 ∧ ((wWait ready).field.core.ln 0).reattach = (3, 5800000000) :: [] ∧
    (wWait ready).field.core.cmdq.async.find? (fun x => x.opId == 3) = some ⟨3, 0x0902, 5, 1⟩ := by
  simp only [clean_iff, runs_iff, LinkIdle]; decide +kernel

/-- Bytes of an accepted head end's descriptor, of one slot. -/
def anEnd : Bytes := z 0x20 ++ [1] ++ z 15
/-- A line staged, its token, the line once issued, and a write of head 0's usage record. -/
def aLine : StagedLine := ⟨7, 0, 0, [0x55], 3, none, false, 0⟩
def fTok : Tok := ⟨0, 9, true, 800001000, 3, some 799999000⟩
def nTok : Tok := ⟨0, 11, false, 0, 0, none⟩
def anIssue : IssuedLine := ⟨7, 0, 0, 800001000, 3, 9⟩
def aWrite (o : Nat) : UsageWrite := ⟨1, z 64, 2, [], false, o, 0⟩
def uSb : SbReq := ⟨3, 0, true, 0x111, 0, 0, 799000000⟩
/-- Link 0 carries traffic; head 0 is attached, with the write of its usage record or without. -/
def wTraffic (wr : Option UsageWrite) (sb : List SbReq) (r : State) : State :=
  let s := w [(HDC_ID_STATUS.STATE, 3), (HLK_SLOT_CRED.SENT, 12), (HLK_SLOT_CRED.FREED, 8), (HLK_CREDIT.GRANT, 16), (HLK_CFG.CONF_TO_US, 100)]
    (wLn 4 r { LinkSt.reset with tx := true, tokens := [aTok, fTok, nTok], sb := sb, headEnd := some anEnd, rxSeq := 33 })
  s.onCore fun c =>
    let c := c.setHr 0 { HeadRec.reset with write := wr, serial := some 77, attachedAt := 700000000 }
    { c with spg := { c.spg with heads := [(0, { HeadFire.none with staged := [aLine], issued := [anIssue] })] } }
/-- A FRAME_NAK of slot 0, line 12, FREED 10, with SEQ 33. -/
def aNak : Bytes := [4, 33, 0, 2, 12, 0, 10, 0, 0, 0, 0, 0, 0xCC, 0xAA]
theorem witness_LinkTrafficFlows :
    (∀ s ∈ [wTraffic none [] ready, wTraffic (some (aWrite 0)) [] ready, wTraffic (some (aWrite 0)) [uSb] ready,
      wTraffic (some (aWrite 1)) [] ready, wTraffic (some (aWrite 2)) [] ready], s.field.core.bootState ≠ 1 ∧
      s.field.core.linkState 0 = 4 ∧ s.field.core.rd FIJ_STATUS.ARMED = 0 ∧ s.field.core.fij.held = [] ∧
      (s.field.core.ln 0).rack = none ∧ s.field.core.txOn 0 = true ∧ (s.field.core.sendAhead 0).linkUp 0 = true) ∧
    zeroAt [0, 0, 0, 0, 0, 0, 0, 0] 4 8 = true ∧
    (wTraffic none [] ready).field.core.nextFrame 0 = some (0, aLine) ∧ (wTraffic none [] ready).field.core.segBar 0 ≤ 7 ∧
    findIx (fun k : Tok => k.sentAt.isNone) ((wTraffic none [] ready).field.core.ln 0).tokens = some (2, nTok) ∧
    (wTraffic none [] ready).field.core.rd PWR_SUPPLY.PF = 0 ∧
    (wTraffic (some (aWrite 0)) [] ready).field.core.headsOn 0 = [0] ∧
    ((wTraffic (some (aWrite 0)) [] ready).field.core.ln 0).sb = [] ∧
    ((wTraffic (some (aWrite 0)) [] ready).field.core.hr 0).write = some (aWrite 0) ∧ (aWrite 0).next = some (true, 0x112, 0) ∧
    aNak.length = 14 ∧ byteAt aNak 1 = ((wTraffic none [] ready).field.core.ln 0).rxSeq ∧
    crc16 (aNak.take 12) = leAt aNak 12 2 ∧ byteAt aNak 0 = 4 ∧ byteAt aNak 2 = 0 ∧ bodyClean aNak = true ∧
    0 < (wTraffic none [] ready).field.core.slotsOf 0 ∧
    (∀ f ∈ [8, 10, 12], (f + 65536 - (wTraffic none [] ready).field.core.rd HLK_SLOT_CRED.FREED 0) % 65536 ≤
      ((wTraffic none [] ready).field.core.rd HLK_SLOT_CRED.SENT 0 + 65536 -
        (wTraffic none [] ready).field.core.rd HLK_SLOT_CRED.FREED 0) % 65536) ∧
    ((wTraffic none [] ready).field.core.ln 0).nakRun < 3 ∧
    ((wTraffic none [] ready).field.core.ln 0).tokens.find? (fun k => k.slot == 0 && k.line == 7 && k.sentAt.isSome) = some aTok ∧
    aTok.fire = false ∧
    ((wTraffic none [] ready).field.core.ln 0).tokens.find? (fun k => k.slot == 0 && k.line == 9 && k.sentAt.isSome) = some fTok ∧
    fTok.fire = true ∧ (3 : BitVec 16).toNat = fTok.drops ∧
    ((wTraffic none [] ready).field.core.hf 0).issued.find? (fun y => y.seq == fTok.line) = some anIssue ∧
    ((wTraffic none [] ready).field.core.hf 0).ranges = [] ∧ (wTraffic none [] ready).field.core.job? anIssue.job = none ∧
    ((wTraffic none [] ready).field.core.ln 0).gone.contains 0 = false ∧
    ((wTraffic (some (aWrite 0)) [uSb] ready).field.core.ln 0).sb.find? (·.tid == 3) = some uSb ∧ uSb.write = true ∧
    ((wTraffic (some (aWrite 0)) [uSb] ready).field.core.hr (8 * 0 + uSb.target)).write = some (aWrite 0) ∧
    (wTraffic none [] ready).field.core.attached 0 = true ∧ ((wTraffic none [] ready).field.core.hr 0).write = none ∧
    (wTraffic none [] ready).field.core.rd HLK_SLOT_USAGE.DEFERRED 0 = 0 ∧
    (∀ o ∈ [1, 2], ((wTraffic (some (aWrite o)) [] ready).field.core.hr 0).write = some (aWrite o) ∧ (aWrite o).outcome = o) := by
  decide +kernel


/-! ### Witnesses: camera, pipeline and servo (spec/11) -/

/-- An aggregator's identity memory (R145): one sensor of 4 pixels, RAW10, on channel 0. -/
def camBytes : Bytes :=
  [0x54, 0x49, 0x44, 0x4D, 3, 1, 0, 0, 0x60, 2, 0, 0, 0, 0, 0, 0, 9] ++ z 11 ++ [0x45, 0x4F, 0xCE, 0xE5, 1, 1, 80] ++ z 29 ++
  [0, 0x2B, 4] ++ z 190 ++ [1, 0, 0, 1] ++ z 83 ++ (List.replicate 99 [0#8, 0x10#8]).flatten ++ z 98
def camMem : IdMem := [(0, camBytes)]
/-- A camera in state `st`, identified. -/
def wCam (st : Nat) (r : State) (g : CamSt → CamSt := id) : State :=
  (w [(CAM_STATUS.STATE, st), (CAM_STATUS.VC_MASK, 1), (CAM_CFG.FRAME_LINES, 2)] r).onCore fun c =>
    { c with cam := g { c.cam with mem := camBytes } }
/-- A request for CONFIG or STOP in front. -/
def aReq (k : CamReqKind) (fails : Nat) : CamReq := ⟨k, if k = .stop then .stop else .config 2 1, fails, 799500000⟩
/-- A CAM_START waits. -/
def aStart : CmdRef := refOf 0x0600 (call 0)
def wAsked (r : State) : State :=
  (wCam 3 r fun x => { x with reqs := [aReq .config 0], start := [aStart] }).onCore fun c =>
    { c with cmdq := { c.cmdq with open_ := [aStart] } }
/-- A CAM_REINIT waits for its link. -/
def wReinit (r : State) : State :=
  (wCam 6 r fun x => { x with reinit := [(3, 802000000)] }).onCore fun c => { c with cmdq := { c.cmdq with async := [⟨3, 0x0603, 5, 1⟩] } }
/-- Servo mode 2 on bar 0, with an update of head 0 staged. -/
def aStage : ServoStage := ⟨0, 0, [(5, 1024)], 0, false⟩
def wServo (r : State) : State :=
  (w [(CSVB_MODE.MODE, 2), (CSVB_MODE.HOLD, 0)] (wLine r)).onCore fun c => { c with csv := { c.csv with stages := [aStage] } }
theorem memRead_one (b : Bytes) (a n : Nat) (h : a + n ≤ b.length) : memRead [(0, b)] a n = (b.drop a).take n := by
  apply List.ext_getElem
  · simp [memRead]; omega
  · intro i h1 h2
    have h3 : i < n := by simpa [memRead] using h1
    have h4 : a + i < b.length := by omega
    simp [memRead, memByte, h4]
theorem camBytes_crc : memLE camMem 0x1C 4 = crc32c (memRead camMem 0 0x1C ++ memRead camMem 0x20 0x260) := by
  have hl : camBytes.length = 0x280 := by decide +kernel
  rw [crc32c_go, camMem, memRead_one _ _ _ (by omega), memRead_one _ _ _ (by omega)]; decide +kernel
theorem camBytes_ok : identCheck camMem 3 32 4064 (camRanges camMem) = 0 := by
  have hl : memLE camMem 8 4 = 0x260 := by decide +kernel
  simp only [identCheck, hl, camBytes_crc, ne_eq, not_true_eq_false, if_false]
  decide +kernel
theorem witness_CameraCommandsAndControlAct :
    CleanHeader (call 0) 0 ∧ Runs (call 0) 0x0600 2 (wCam 3 ready) ∧ (wCam 3 ready).field.core.camState = 3 ∧
    (wCam 3 ready).field.core.cam.start = [] ∧ (wCam 3 ready).field.core.cam.auto = false ∧
    (∀ v : Fin 4, (wCam 3 ready).field.core.sensorOf v.val ≠ none → 4 ≤ (wCam 3 ready).field.core.ringFrames v.val) ∧
    (wCam 3 ready).field.core.sensorOf 0 = some 0 ∧
    Runs (call 0) 0x0601 2 (wCam 5 ready) ∧ 3 ≤ (wCam 5 ready).field.core.camState ∧ (wCam 5 ready).field.core.camState ≤ 5 ∧
    Runs (call 0) 0x0603 2 (wCam 5 ready) ∧ (wCam 5 ready).field.core.printing = false ∧
    (∀ v : Fin 4, ((wCam 5 ready).field.core.frame v.val).open_ = false) ∧ NoCameraCrossing (wCam 5 ready).field.core ∧
    (wCam 5 ready).field.core.cmdq.opNext < 2 ^ 32 ∧
    CleanHeader (call 4) 4 ∧ Runs (call 4) 0x0602 1 (wPress ready) ∧
    (∀ m ∈ [(0 : Byte), 1], ∀ b : Fin 8, m.toNat.testBit b.val = true → (wPress ready).field.core.barPresent b.val = true) ∧
    (3 : Byte).toNat ≤ 3 ∧ CleanHeader (call 8) 8 ∧ Runs (call 8) 0x0101 2 ready ∧ ready.field.core.cdc.out = [] ∧
    Runs (call 4) 0x0100 2 ready := by
  simp only [clean_iff, runs_iff, NoCameraCrossing]; decide +kernel
theorem witness_CameraCommandsAndControlAct_events :
    (wReinit ready).field.core.bootState ≠ 1 ∧ (wReinit ready).field.core.cam.reinit = [(3, 802000000)] ∧
    (wReinit ready).field.core.camState = 6 ∧
    (wReinit ready).field.core.cmdq.async.find? (fun x => x.opId == 3) = some ⟨3, 0x0603, 5, 1⟩ ∧
    ready.field.core.bootState ≠ 1 ∧ ready.field.core.fwRuns = true ∧ ready.field.core.camState = 0 ∧
    ready.field.core.cam.reinit = [] ∧ idGot noAnswer = none ∧ idGot ⟨camMem, []⟩ = some camMem ∧ identCheck camMem 3 32 4064 (camRanges camMem) = 0 ∧
    ready.field.core.rd CAM_STATUS.STARTED = 0 ∧
    (wCam 3 ready fun x => { x with linked := true }).field.core.cam.linked = true ∧ (wReinit ready).field.core.cam.linked = false ∧
    ready.field.core.cam.linked = false ∧ NoCameraCrossing (wCam 3 ready fun x => { x with linked := true }).field.core ∧
    byteAt [0x5A, 1, 0, 0x3E, 0x2E] 1 = (aReq .config 0).req.answer + 1 ∧ (wServo ready).field.core.atCommit 0 0 = true ∧
    NoCameraCrossing (wCam 3 ready).field.core ∧ (∀ v : Fin 4, ((wCam 3 ready).field.core.frame v.val).open_ = false) ∧
    (wCam 3 ready).field.core.cam.start = [] ∧ (wCam 3 ready).field.core.camState ≠ 0 ∧ (wCam 3 ready).field.core.camState ≠ 6 ∧
    (wCam 4 ready fun x => { x with fifo := [⟨0, 5, 790000000, 1⟩] }).field.core.camState = 4 ∧
    (wCam 4 ready fun x => { x with fifo := [⟨0, 5, 790000000, 1⟩] }).field.core.cam.fifo ≠ [] ∧
    (∀ n ∈ [1, 2], ((wCam 3 ready fun x => { x with reqs := [aReq .stop n] }).field.core.cam.reqs = aReq .stop n :: [] ∧
      (aReq .stop n).fails = n ∧ (aReq .stop n).kind = .stop)) ∧
    ctlStatus [0x5A, 1, 0, 0x3E, 0x2E] = some 0 ∧ (wAsked ready).field.core.cam.reqs = aReq .config 0 :: [] ∧
    (aReq .config 0).kind = .config ∧ (wAsked ready).field.core.camState = 3 ∧ (wAsked ready).field.core.cam.start = [aStart] ∧
    aStart ∈ (wAsked ready).field.core.cmdq.open_ ∧ aStart.src = .host ∧ (wAsked ready).field.core.cam.reinit = [] ∧
    (wServo ready).field.core.bootState ≠ 1 ∧ 2 ≤ (wServo ready).field.core.rd CSVB_MODE.MODE 0 ∧
    (wServo ready).field.core.rd CSVB_MODE.HOLD 0 = 0 ∧ 0 ∈ (wServo ready).field.core.headsOfBar 0 ∧
    (wServo ready).field.core.csv.stages.find? (fun g => g.bar == 0 && g.head == 0) = some aStage := by
  rw [camBytes_ok]; simp only [NoCameraCrossing]; decide +kernel

/-- A frame of channel 0 is open with `n` lines, and a line of trigger 6 has started. -/
def aFrame (n : Nat) (open_ : Bool) : CamFrame :=
  { CamFrame.none with open_ := open_, num := 3, lines := n, lineStart := some 6, lastTrig := some 5, lastNum := some 3, valid := true }
/-- The camera runs; trigger 6 waits for channel 0. -/
def aTrig : CamTrig := ⟨6, 77, 799999000, 1⟩
def wFrame (n : Nat) (open_ : Bool) (r : State) : State :=
  wCam 4 (w [(CAM_EXP_GEN.PENDING, 0)] r) fun x => { x with frames := [(0, aFrame n open_)], fifo := [aTrig] }
/-- A line of 4 pixels in the pipeline. -/
def aRaw : Bytes := List.replicate 15 0x33
def aSlot : IspLine := ⟨0, aRaw, 77, 799999000, 0, 3, 1, 0, false, 0x100000, 4, 0x2B, IspSet.none, 799999000⟩
def wSlot (r : State) : State :=
  wCam 5 (wMem r) fun x => { x with frames := [(0, aFrame 1 true)], slots := [aSlot] }
theorem witness_CameraLinesReachTheRing :
    (∀ ch, ch < 4 → (wSlot ready).field.core.rd MEMC_STATUS.STATE ch ≠ 3) ∧
    (∀ s ∈ [wFrame 1 false ready, wFrame 1 true ready, wFrame 2 true ready], s.field.core.bootState ≠ 1 ∧
      4 ≤ s.field.core.camState ∧ s.field.core.camState ≤ 5 ∧ s.field.core.rd FIJ_STATUS.ARMED = 0 ∧ s.field.core.fij.held = [] ∧
      s.field.core.vcActive 0 = true) ∧
    ((wFrame 1 false ready).field.core.frame 0).open_ = false ∧ (wFrame 1 false ready).field.core.rd CAM_EXP_GEN.PENDING 0 = 0 ∧
    ((wFrame 1 false ready).field.core.frame 0).answered = false ∧
    ((wFrame 1 false ready).field.core.frame 0).lastNum = some 3 ∧ (4 : BitVec 16).toNat = frameAfter 3 ∧
    (wFrame 1 true ready).field.core.sensorOf 0 = some 0 ∧
    (wFrame 1 true ready).field.core.camField (0x41 + 16 * 0) 1 = (0x2B : Byte).toNat ∧
    ((wFrame 1 true ready).field.core.frame 0).lineStart = some 6 ∧ ((wFrame 1 true ready).field.core.frame 0).open_ = true ∧
    ((wFrame 1 true ready).field.core.frame 0).lines < (wFrame 1 true ready).field.core.rd CAM_CFG.FRAME_LINES ∧
    (wFrame 1 true ready).field.core.cam.fifo.find? (fun k => k.num == 6 && k.waits.testBit 0) = some aTrig ∧
    (wFrame 1 true ready).field.core.cam.fifo.find? (fun k => k.num == 6) = some aTrig ∧
    6 = (match ((wFrame 1 true ready).field.core.frame 0).lastTrig with | some n => (n + 1) % 65536 | none => 0) ∧
    (15 : BitVec 16).toNat = wordCount (0x2B : Byte).toNat ((wFrame 1 true ready).field.core.pixels 0) ∧
    (wFrame 1 true ready).field.core.cam.slots.length < 16 ∧ (wFrame 2 true ready).field.core.cam.slots = [] ∧
    (wFrame 2 true ready).field.core.rd CAM_CFG.FRAME_LINES ≤ ((wFrame 2 true ready).field.core.frame 0).lines ∧
    (wSlot ready).field.core.bootState ≠ 1 ∧ (wSlot ready).field.dram.wf ∧ (wSlot ready).field.core.cam.slots = aSlot :: [] ∧
    aSlot.vc < 4 ∧ (∀ ch ∈ (wSlot ready).field.core.mem.layout, ch < 4) := by decide +kernel


/-! ### Witnesses: DRAM, temperature, display, injection (spec/13 to spec/16) -/

/-- Channel 0 is trained: ranks 0 and 1 in service in slots 0 and 1, rank 2 the spare, and a row is open. -/
def wRank (r : State) : State :=
  (w [(MEMC_STATUS.STATE, 1), (MEMC_STATUS.RANK0, 1), (MEMC_STATUS.RANK1, 1), (MEMC_STATUS.RANK2, 2), (MEMC_STATUS.SLOT0, 0),
    (MEMC_STATUS.SLOT1, 1), (MEM_CFG.CE_RETIRE, 0), (MEM_SCRUB_CFG.EN, 1)] (wMem r)).onCore fun c =>
    { c with mem := { c.mem with banks := [(0, { Bank.reset with row := some 3, counts := [(3, 9)] })], scrubWord := 7 } }
/-- A copy of rank 0 of channel 0 to rank 2 is under way. -/
def aMig : Mig := ⟨0, 0, 3, none⟩
def wCopy (r : State) : State :=
  (w [(MEMC_STATUS.RANK0, 3), (MEMC_STATUS.RANK2, 4), (MEM_MIG_CURSOR.ROW, 5)] (wRank r)).onCore fun c =>
    { c with mem := { c.mem with cur := some (aMig, 2) } }
/-- The channel trains again; the space is to be re-formed. -/
def wTrain (r : State) : State := w [(MEMC_STATUS.STATE, 3)] (wRank r)
def wReform (r : State) : State := (wRank r).onCore fun c => { c with mem := { c.mem with reform := true, camWas := false } }
theorem witness_MemoryErrorsRanksAndRows :
    CleanHeader (call 4) 4 ∧ Runs (call 4) 0x0803 2 (wRank ready) ∧ (0 : Byte).toNat ≤ 3 ∧ (1 : Byte).toNat ≤ 2 ∧
    (wRank ready).field.core.rd MEMC_STATUS.STATE 0 ≠ 4 ∧ (wRank ready).field.core.rank 0 1 = 1 ∧
    (wRank ready).field.core.rank 0 0 = 1 ∧ (wRank ready).field.core.spareOf 0 ≠ none ∧
    (wRank ready).field.core.mem.queue = [] ∧ (wRank ready).field.core.mem.cur = none ∧
    (wRank ready).field.core.printing = false ∧ (wRank ready).field.core.cmdq.opNext < 2 ^ 32 ∧
    CleanHeader (call 8) 8 ∧ Runs (call 8) 0x0101 2 (wRank ready) ∧ (wRank ready).field.core.cdc.out = [] ∧
    (1 : Word).toNat % 2 = 1 ∧ 1 ≤ (wRank ready).field.core.rd MEMC_STATUS.STATE 0 ∧
    (wRank ready).field.core.rd MEMC_STATUS.STATE 0 ≤ 2 ∧
    (wRank ready).field.core.bootState ≠ 1 ∧ (wRank ready).field.core.mem.layout.length ≤ 4 ∧
    (∀ ch ∈ (wRank ready).field.core.mem.layout, ch < 4) ∧
    (wRank ready).field.core.wordExists (0x105 : BitVec 30).toNat = true ∧
    (wRank ready).field.core.pageAt ((0x105 : BitVec 30).toNat / 64) = (0, 1) ∧
    (wRank ready).field.core.readRank (0x105 : BitVec 30).toNat = 0 ∧ firmwarePage 1 = false ∧
    (wRank ready).field.dram.once = [] ∧ (wRank ready).field.core.mem.layout.Nodup ∧
    (((wRank ready).field.core.bank 0 0 0).row).isSome = true ∧
    (wRank ready).field.dram.poison.contains (0x105 : BitVec 30).toNat = false ∧
    (wRank ready).field.core.rd MEM_CFG.CE_RETIRE = 0 ∧
    ((wRank ready).field.core.rd MEM_STATUS.IN_SERVICE).testBit 0 = true ∧
    (wRank ready).field.core.rdb MEM_SCRUB_CFG.EN = true ∧
    (wRank ready).field.core.wordExists (64 * (wRank ready).field.core.rd MEM_SCRUB_POS.PAGE + (wRank ready).field.core.mem.scrubWord) = true ∧
    100000000 ≤ (wRank ready).field.core.dramHead ∧
    (wRank ready).field.core.pageAt ((64 * (wRank ready).field.core.rd MEM_SCRUB_POS.PAGE + (wRank ready).field.core.mem.scrubWord) / 64) = (0, 0) ∧
    (wRank ready).field.core.rd MEMC_STATUS.STATE 0 < 3 ∧ (wRank ready).field.dram.poison = [] ∧
    (wCopy ready).field.core.bootState ≠ 1 ∧ (wCopy ready).field.core.mem.cur = some (aMig, 2) ∧ aMig.ch < 4 ∧
    (wCopy ready).field.core.rd MEMC_STATUS.STATE aMig.ch ≠ 3 ∧ (wCopy ready).field.core.rd MEM_MIG_CURSOR.ROW + 1 < 2 ^ 21 ∧
    (wCopy ready).field.dram.poison = [] ∧
    (wTrain ready).field.core.bootState ≠ 1 ∧ (1 : Fin 3) ≠ 2 ∧ (wTrain ready).field.core.rd MEMC_STATUS.STATE 0 = 3 ∧
    2 ≤ ((List.range 3).filter fun r => decide (1 ≤ (wTrain ready).field.core.rank 0 r ∧ (wTrain ready).field.core.rank 0 r ≤ 5)).length ∧
    (wReform ready).field.core.bootState ≠ 1 ∧ (wReform ready).field.core.mem.reform = true ∧
    (∀ j ∈ (wReform ready).field.core.jobs.jobs, j.live = false) ∧ (wReform ready).field.core.mem.camWas = false := by
  simp only [clean_iff, runs_iff]; decide +kernel
/-- The word of channel 0's firmware copy with which the second witness works. -/
def fwWord : BitVec 30 := 532611072
theorem witness_MemoryErrorsRanksAndRows_firmware :
    (wRank ready).field.core.wordExists fwWord.toNat = true ∧ (wRank ready).field.core.pageAt (fwWord.toNat / 64) = (0, 2080512) ∧
    (wRank ready).field.core.readRank fwWord.toNat = 0 ∧ firmwarePage 2080512 = true ∧ (wRank ready).field.dram.wf ∧
    (wRank ready).field.core.mem.layout.drop ((wRank ready).field.core.mem.layout.idxOf 0 + 1) ++
      (wRank ready).field.core.mem.layout.take ((wRank ready).field.core.mem.layout.idxOf 0) = 1 :: [2, 3] ∧
    64 * (wRank ready).field.core.pageOf 1 2080512 + fwWord.toNat % 64 ≠ fwWord.toNat ∧
    (wRank ready).field.core.bad (wRank ready).field.dram
      (64 * (64 * (wRank ready).field.core.pageOf 1 2080512 + fwWord.toNat % 64)) 64 = false := by decide +kernel

/-- Head 0's descriptor with a greatest limit of 60 °C. -/
def wHead (r : State) : State :=
  (wPress r).onCore (·.setHr 0 { HeadRec.reset with desc := z 0x2E ++ [0x58, 2] ++ z 0x20 })
/-- Throttling is asked for, or relaxes, or the guard has seen two hot samples of TS5. -/
def wPend (r : State) : State := w [(THM_STATUS.LEVEL, 1), (THM_STATUS.PENDING, 1), (THM_THR_CFG.ENGAGE_MS, 500)] r
def wCool (r : State) : State :=
  (w [(THM_STATUS.LEVEL, 2), (THM_STATUS.GUARD_HW, 0), (THM_THR_CFG.RELAX_MS, 500)] r).onCore fun c =>
    { c with thm := { c.thm with coolFrom := some 790000000 } }
def wGuard (r : State) : State :=
  (w [(THM_STATUS.LEVEL, 1), (THM_STATUS.GUARD_HW, 0)] r).onCore fun c => { c with thm := { c.thm with guard := [(5, 2)] } }
theorem witness_ThermalSettingsGuardAndLevels :
    CleanHeader (call 8) 8 ∧ Runs (call 8) 0x0700 2 (wHead ready) ∧ sgn 16 (400 : BitVec 16).toNat < sgn 16 (500 : BitVec 16).toNat ∧
    sgn 16 (500 : BitVec 16).toNat < sgn 16 (600 : BitVec 16).toNat ∧ (24 : Byte).toNat < 25 ∧
    (∀ n < 25, n ≠ 16 → sgn 16 (600 : BitVec 16).toNat ≤ tripMax n) ∧
    (32 : Byte).toNat = 32 + (0 : Fin 192).val ∧ (wHead ready).field.core.headPresent 0 = true ∧
    ((wHead ready).field.core.hr 0).desc ≠ [] ∧
    sgn 16 (600 : BitVec 16).toNat ≤ sgn 16 (leAt ((wHead ready).field.core.hr 0).desc 0x2E 2) ∧
    CleanHeader (call 4) 4 ∧ Runs (call 4) 0x0701 2 ready ∧ 40 ≤ (120 : BitVec 16).toNat ∧ (120 : BitVec 16).toNat ≤ 120 ∧
    Runs (call 8) 0x0101 3 ready ∧ ready.field.core.cdc.out = [] ∧ (maskBits 16 (bits (0x106000F : Word).toNat 15 0)).length ≤ 4 ∧
    (maskBits 8 (bits (0x106000F : Word).toNat 23 16)).length ≤ 2 ∧ (0x106000F : Word).toNat.testBit 16 = false ∧
    (0x106000F : Word).toNat.testBit 19 = false ∧
    (∀ s ∈ [wPend ready, wCool ready, wGuard ready], s.field.core.bootState ≠ 1 ∧ s.field.core.imagoDead = false ∧ s.field.core.rd THM_STATUS.LEVEL ≤ 4) ∧
    (wPend ready).field.core.rd THM_STATUS.PENDING = 1 ∧ (wCool ready).field.core.thm.coolFrom = some 790000000 ∧
    (wCool ready).field.core.rd THM_STATUS.LEVEL ≠ 0 ∧ (wCool ready).field.core.rd THM_STATUS.GUARD_HW = 0 ∧
    (wGuard ready).field.core.excluded 5 = false ∧ -550 ≤ sgn 16 (1149 : BitVec 16).toNat ∧ sgn 16 (1149 : BitVec 16).toNat < 1150 ∧
    1250 ≤ sgn 16 (1250 : BitVec 16).toNat ∧ sgn 16 (1250 : BitVec 16).toNat ≤ 1750 ∧
    2 ≤ mget 0 (wGuard ready).field.core.thm.guard 5 ∧ (wGuard ready).field.core.rd THM_STATUS.GUARD_HW = 0 := by
  simp only [clean_iff, runs_iff]; decide +kernel

/-- A READY panel of 4 by 2 pixels. -/
def wPanel (cs : List DspCommit) (p : Option DspCommit) (r : State) : State :=
  (w [(DSP_STATUS.STATE, 2), (DSP_PANEL.WIDTH, 4), (DSP_PANEL.HEIGHT, 2), (DSP_TIMING.PRIME_US, 100)] (wMem r)).onCore fun c =>
    { c with
      dsp := { c.dsp with commits := cs, push := p, lastEdge := some 780000000 }
      jobs := { c.jobs with regions := if cs = [] ∧ p = none then [] else [(0, 4096)] } }
/-- A commit of one pixel at (1, 1), and one that waits or is pushed. -/
def dspBytes : Bytes := [1, 0, 1, 0, 1, 0, 1, 0, 0, 0, 0, 0, 0, 0, 0, 0, 9, 8, 7]
def aCommit : DspCommit := ⟨3, 0, 19, [(1, 1, 1, 1)], 790000000, none, 0, 0, false, false, false⟩
/-- A DSP_CONFIG whose step `k` was the last, begun 300 ms ago. -/
def aPanel (k : Nat) (answer : Option Nat) : DspStart := ⟨⟨refOf 0x0A00 (call 12), 5, 1920, 1200, 1200, answer⟩, 500000000, k⟩
def wStarting (k : Nat) (answer : Option Nat) (r : State) : State :=
  (w [(DSP_STATUS.STATE, 1)] r).onCore fun c => { c with
    dsp := { c.dsp with run := some (aPanel k answer) }, cmdq := { c.cmdq with open_ := [(aPanel k answer).cfg.ref] } }
theorem witness_DisplayConfiguresAndPushes :
    CleanHeader (call 12) 12 ∧ Runs (call 12) 0x0A00 2 (wPanel [] none ready) ∧ 1 ≤ (1920 : BitVec 16).toNat ∧
    (1920 : BitVec 16).toNat ≤ 1920 ∧ (1 : BitVec 16).toNat ≤ 1200 ∧ 80 ≤ (80 : BitVec 16).toNat ∧ (80 : BitVec 16).toNat ≤ 1500 ∧
    (wPanel [] none ready).field.core.dsp.push = none ∧ (wPanel [] none ready).field.core.dsp.commits = [] ∧
    (wPanel [] none ready).field.core.dsp.run = none ∧ (wPanel [] none ready).field.core.dsp.cfg = [] ∧
    (∀ k ∈ [2, 4], (wStarting k none ready).field.core.dsp.run = some (aPanel k none) ∧ (wStarting k none ready).field.core.dsp.cfg = [] ∧
      (aPanel k none).due ≤ (wStarting k none ready).field.core.etime ∧
      (aPanel k none).cfg.ref ∈ (wStarting k none ready).field.core.cmdq.open_ ∧ (aPanel k none).cfg.ref.src = .host ∧
      (aPanel k none).step = k) ∧
    BulkHeader (bulkCall 4 dspBytes) 4 dspBytes ∧ Runs (bulkCall 4 dspBytes) 0x0A01 1 (wPanel [] none ready) ∧
    (wPanel [] none ready).field.core.dspState = 2 ∧ 1 ≤ (1 : Byte).toNat ∧ (1 : Byte).toNat ≤ 16 ∧
    (wPanel [] none ready).field.core.dsp.noTe = false ∧ (wPanel [] none ready).field.core.dsp.next < 65536 ∧
    ((wPanel [] none ready).field.core.allocJob dspBytes.length).isSome = true ∧
    dspBytes.length ≤ (wPanel [] none ready).field.core.jobFree ∧ dspBytes.length ≤ 6912256 ∧
    (∀ i, i < (1 : Byte).toNat → dspRegionOk ((wPanel [] none ready).field.core.rd DSP_PANEL.WIDTH)
      ((wPanel [] none ready).field.core.rd DSP_PANEL.HEIGHT) dspBytes i = true) ∧
    dspBytes.length = 16 * (1 : Byte).toNat + 3 * (dspRegions (1 : Byte).toNat dspBytes).foldl (fun a r => a + r.2.2.1 * r.2.2.2) 0 ∧
    (dspRegions (1 : Byte).toNat dspBytes).foldl (fun a r => a + r.2.2.1 * r.2.2.2) 0 ≤
      (wPanel [] none ready).field.core.rd DSP_PANEL.WIDTH * (wPanel [] none ready).field.core.rd DSP_PANEL.HEIGHT ∧
    (wPanel [] none ready).field.dram.wf ∧
    (∀ s ∈ [wPanel [] none ready, wPanel [aCommit] none ready, wPanel [] (some aCommit) ready],
      s.field.core.bootState ≠ 1 ∧ s.field.core.dspState = 2 ∧ s.field.core.dsp.lastEdge = some 780000000 ∧
      780000000 + 8000000 ≤ s.field.core.etime) ∧
    (wPanel [aCommit] none ready).field.core.dsp.push = none ∧ (wPanel [aCommit] none ready).field.core.dsp.commits = [aCommit] ∧
    aCommit.edge = none ∧
    aCommit.eligible + 1000 * (wPanel [aCommit] none ready).field.core.rd DSP_TIMING.PRIME_US ≤ (wPanel [aCommit] none ready).field.core.etime ∧
    (wPanel [] (some aCommit) ready).field.core.dsp.push = some aCommit ∧ (wPanel [] (some aCommit) ready).field.core.dsp.cfg = [] := by
  simp only [clean_iff, runs_iff, bulk_iff]; decide +kernel

/-- Rule 0 is armed, and a delayed frame of link 0 is held. -/
def wRule (r : State) : State := w [(FIJ_STATUS.ARMED, 1), (FIJ_ARG.ARG, 250)] r
def wDelay (r : State) : State :=
  (wLn 4 r { LinkSt.reset with tx := true }).onCore fun c =>
    { c with fij := { c.fij with held := [⟨3, 0, 0x55, some 800000250, none, [[0x55, 0, 0, 0, 0, 0, 0, 0]]⟩] } }
theorem witness_InjectionAndCrossingsAct :
    CleanHeader (call 12) 12 ∧ Runs (call 12) 0x0900 3 (wRule ready) ∧ (wRule ready).field.core.printing = false ∧
    1 ≤ (1 : Byte).toNat ∧ (5 : Byte).toNat ≤ 5 ∧
    (if (5 : Byte).toNat ≤ 2 then (0xFF : Byte) = 0 else if (5 : Byte).toNat ≤ 4 then (0xFF : Byte).toNat < 24
      else (0xFF : Byte).toNat ≤ 3 ∨ (0xFF : Byte) = 0xFF) ∧ 1 ≤ (4 : Byte).toNat ∧ (4 : Byte).toNat ≤ 4 ∧ (1 : Word) ≠ 0 ∧
    ((4 : Byte) = 4 → (wRule ready).field.core.rd FIJ_ARG.ARG ≠ 0) ∧ 1 < 8 ∧
    ((wRule ready).field.core.rd FIJ_STATUS.ARMED).testBit 1 = false ∧
    (∀ k, k < 1 → ((wRule ready).field.core.rd FIJ_STATUS.ARMED).testBit k = true) ∧
    CleanHeader (call 0) 0 ∧ Runs (call 0) 0x0901 3 (wRule ready) ∧ (wRule ready).field.core.rd FIJ_STATUS.ARMED ≠ 0 ∧
    (wDelay ready).field.core.fij.held = [⟨3, 0, 0x55, some 800000250, none, [[0x55, 0, 0, 0, 0, 0, 0, 0]]⟩] ∧
    3 ≤ (wDelay ready).field.core.linkState 0 ∧
    ready.field.core.bootState ≠ 1 ∧ (0xB1 : BitVec 16).toNat < 8192 ∧ ready.field.core.timedOut (0xB1 : BitVec 16).toNat = false := by
  simp only [clean_iff, runs_iff]; decide +kernel

/-! ### Well-formed and ill-formed terms -/

theorem test_wf_nop : Instr.wf (.nop (call 0)) = true := by decide
/-- An element is there and SG is not set. -/
theorem test_ill_sg : Instr.wf (.nop { call 0 with bulk := ⟨[⟨0x2000, 1, 0⟩], [1], none⟩ }) = false := by decide
/-- The access fails after more bytes than there are. -/
theorem test_ill_dma : Instr.wf (.jobLoadData { bulkCall 16 [1] with bulk := ⟨[⟨0x2000, 1, 0⟩], [1], some 2⟩ } 7 0 0) = false := by decide
/-- The FSP has one queue. -/
theorem test_ill_fspQueue : Instr.wf (.nop { call 0 with src := .fsp }) = false := by decide
/-- A reserved parameter byte inside the header. -/
theorem test_ill_resOff : Instr.wf (.nop { call 0 with resOff := some 8 }) = false := by decide
/-- A boot with good ranks but for those named, and image slots but for those named. -/
def aBoot (ranks : List (Fin 4 × Fin 3)) (slots : List (Fin 2 × Fin 3)) : BootIn := ⟨true, true, true, ranks, 800, slots, 4, 2, true, true, [], 850, 900⟩
theorem test_ill_bootRanks : Instr.wf (.fieldResetRelease (aBoot [(0, 0), (0, 0)] [])) = false := by decide
theorem test_ill_bootSlots : Instr.wf (.fieldResetRelease (aBoot [] [(1, 2), (1, 2)])) = false := by decide
theorem test_ill_bootLanes : Instr.wf (.fieldResetRelease { aBoot [] [] with f2h := 4 }) = false := by decide
/-- A link that trains twice. -/
theorem test_ill_bootLinks : Instr.wf (.fieldResetRelease { aBoot [] [] with links := [(3, noLock), (3, noLock)] }) = false := by decide
theorem test_ill_chirp : Instr.wf (.chirp { idleChirp with sensors := [(3, .open_), (3, .short)] }) = false := by decide
theorem test_ill_takeover : Instr.wf (.imagoTakeover 0 [(0, 4), (0, 4)]) = false := by decide
theorem test_ill_entry : Instr.wf (.sqEntryFetch [0] ⟨[], [], none⟩ none) = false := by decide
theorem test_ill_flit : Instr.wf (.elyFlitReceive true 0 true false (.data 1 0 [])) = false := by decide
theorem test_ill_screen : Instr.wf (.lineScreen 0 none [5, 5] [] none) = false := by decide
theorem test_ill_screenTone : Instr.wf (.lineScreen 0 none [] [(1, 2), (1, 2)] none) = false := by decide
theorem test_ill_append : Instr.wf (.cmpAppend (call 4) 3 (z 72)) = false := by decide
theorem test_ill_faults : Instr.wf (.posFaultDetect (0, .absent 5) [(0, .absent 5)]) = false := by decide
/-- Two heads in one slot, and a segment that ends outside the memory. -/
theorem test_ill_training : Instr.wf (trainRow 0 { goodTrain with found := ⟨[(0, noAnswer), (0, noAnswer)], none, 0⟩ }) = false ∧
    Instr.wf (trainRow 0 { goodTrain with headEnd := ⟨[(16777215, [0, 0])], []⟩ }) = false := by decide
/-- A pair that fails four times, and one that fails with RESULT 0. -/
theorem test_ill_reads : IdRead.wf ⟨[], [(8, [none, none, none, none])]⟩ = false ∧ IdRead.wf ⟨[], [(8, [some 0])]⟩ = false := by decide
theorem test_ill_message : Instr.wf (.returnMessageReceive 0 false [] ⟨[(4, []), (8, [1])], []⟩) = false := by decide
theorem test_ill_status : Instr.wf (.statusReceive 0 0 true false 0 0 ⟨[(4, [1]), (4, [1])], []⟩) = false := by decide
theorem test_ill_sideband : Instr.wf (.sbRespReceive 0 0 0 (z 9)) = false := by decide
theorem test_ill_camera : Instr.wf (.camLinkUp [(8, [1]), (0, [1])] []) = false := by decide
/-- One symbol wrong twice, and one that is not wrong. -/
theorem test_ill_symbols : Instr.wf (.dramReadError 0 0 (.symbols [(5, 1), (5, 2)]) 0) = false ∧
    Instr.wf (.scrubRead (some (.symbols [(5, 0)]))) = false := by decide
/-- More than a flit carries. -/
theorem test_ill_longFlit : Instr.wf (.elyFlitReceive true 0 true false (.data 1 0 (z 513))) = false := by decide +kernel
theorem test_ill_rowCopy : Instr.wf (.migrationRowCopy [1, 1] false) = false := by decide
theorem test_ill_retrain : Instr.wf (.channelRetrain 0 1 40 [2, 2]) = false := by decide
theorem test_ill_guard : Instr.wf (.hwGuardSample [(1, 500), (1, 600)]) = false := by decide

/-! ### The spec's worked examples, one step each -/

/-- The core after a command, or the core before it where none follows. -/
def after (i : Instr) (s : State) : Core :=
  match exec i s with
  | .next t => t.field.core
  | _ => s.field.core

/-- spec/04, the policy change: at ETIME 80,000,000,000 ns the host holds SETUP. -/
def exPolicy : State := (w [(CMDQ_PRIV.HOST, 2), (LOG_VIOL_CTL.NEXT, 3)] ready).onCore fun c => { c with etime := 80000000000 }
/-- REG_RMW answers 0x0000001A_0000000A: the old value and the new one. -/
theorem test_regRmw_example : (after (.regRmw { call 12 with q := 2, tag := 0x25, index := 0x13 } 0x30004 0x30 0x10) exPolicy).cmdq.done.map
    (fun e => (e.status, e.result)) = [(0, 0x1A0000000A)] := by decide +kernel
/-- The refused fault-injection write leaves violation entry 3. -/
theorem test_regWrite_violation_example : (after (.regWrite { call 8 with q := 2, tag := 0x26, index := 0x14 } 0x1A0000 1) exPolicy).cmdq.done.map
    (fun e => e.result) = [0x001A0000_0010_001A] := by decide +kernel

/-- spec/08, the lagging die-cylinder index. -/
def exDie : State :=
  (w [(POS_CFG.TYPE, 3), (POS_WRAP.WRAP, 0x800000), (POS_IDX_PITCH.PITCH, 0x800000), (POS_IDX_CFG.TOL, 16), (POS_IDX_CFG.POLICY, 1),
    (POS_IDX_CFG.MODE, 2), (POS_STATUS.IDX_NEXT, 5), (POS_STATUS.IDX_REF, 1), (POS_COUNT_LO.COUNT, 8388580), (POS_STATUS.STILL, 0)] ready 2).onCore fun c =>
  { c.setPool [⟨0, 8388590, 2, 1, 3, 0, 10, 0x11⟩, ⟨1, 8388600, 2, 1, 3, 0, 10, 0x12⟩, ⟨2, 4194304, 2, 1, 3, 0, 10, 0x13⟩] with
    etime := 31500000000 }
/-- The count becomes 0, tags 0x0011 and 0x0012 are missed, and tag 0x0013 stays pending. -/
theorem test_indexEvent_example :
    let c := after (.indexEvent ⟨2, true⟩) exDie
    c.posCount 2 = 0 ∧ c.rd CMP_MISSED_CNT.COUNT = 2 ∧ c.pos.cmp.pool.map (·.tag) = [0x13] ∧ c.rd CMP_LAST_MISS.TAG = 0x12 ∧
    c.rd2 POS_IDXLOG_CNT_LO.COUNT POS_IDXLOG_CNT_HI.COUNT 37 = 8388580 ∧ c.rd POS_IDXLOG_CNT_HI.UNEXPECTED 37 = 1 ∧
    c.rd POS_IDXLOG_CNT_HI.CORRECTED 37 = 1 ∧ c.rd POS_IDXLOG_ETIME_LO.ETIME 37 = 0x558BDB00 := by decide +kernel

/-- spec/09, one strobe on a carton press: the strobe of line 250 of head 26 is predicted at 34,000,001,823 ns. -/
theorem test_predict_example :
    ({ ready.field.core with etime := 34000000000, spg := { ready.field.core.spg with p := 4071116 * 2 ^ 32 + 56 * 2 ^ 26, v := 120000 * 2 ^ 32 } } : Core).predict
      0x0F87B346 = some 34000001823 := by decide +kernel
/-- spec/10, link 3: the TIME block and the token of line 250. -/
theorem test_blocks_example :
    timeBlock 34000000024 = [2, 0x33, 0x18, 0xD4, 0x8E, 0xEA, 7, 0, 0] ∧
    tokenBlock ⟨2, 0x1387, true, 34000001823, 2417, none⟩ = [2, 0x2D, 2, 0x87, 0x13, 0x1F, 0xDB, 0x8E, 0xEA] ∧
    echoLat [(1078, 1030)] = 24 ∧ leastLead 24 750 = 1400 := by decide +kernel
/-- spec/11, one servo cycle on head 42: the gain goes from 0x440 to 0x450, and the tone patches read as tabled. -/
theorem test_servo_example :
    gainStep ready.field.core 1 0x440 1840 1610 = (0x450, false) ∧ [165, 125, 67, 22].map (absorptance 0 221) = [1037, 1779, 2854, 3688] ∧
    [96, 128, 160, 192, 224].map (knotStep [(0, 0), (64, 0), (128, 32), (192, -27), (255, 0)]) = [16, 32, 3, -27, -14] := by decide +kernel
/-- spec/07, one column through the pipeline. -/
theorem test_column_example :
    demandOf 2393 983 (-3) = 2285 ∧ maskIx { scrOf [] with xoff := 0x35, yoff := 0x0A } 7001 8292 0 = 0x6399 ∧
    (packHead 128 2 [(100, 2), (101, 0), (102, 1), (103, 3)]).1.getD 25 0 = 0xD2 := by decide +kernel
/-- spec/06, a text edge: the tile's XBC-2 bytes. -/
theorem test_tile_example :
    (tileEnc 2 [0xE6, 0xE6, 0x7C, 0x12, 0xE6, 0xE6, 0x7C, 0x12, 0xE6, 0x7C, 0x12, 0x12, 0xE6, 0x7C, 0x12, 0x12]).1 =
      [0x49, 0x98, 0xF3, 0x01, 0x25, 0x25, 0x09, 0x09] := by decide +kernel
/-- spec/06, the same tile in XBC-4. -/
theorem test_tile4_example :
    (tileEnc 4 [0xE6, 0xE6, 0x7C, 0x12, 0xE6, 0xE6, 0x7C, 0x12, 0xE6, 0x7C, 0x12, 0x12, 0xE6, 0x7C, 0x12, 0x12]).1 =
      [0xE7, 0xA4, 0x6C, 0x02] := by decide +kernel
/-- spec/09, the stalling ring, and spec/12, the approach distance of the changeover. -/
theorem test_terms_example :
    runwayTerm 160000 290000 10000 289990 = 159994 ∧ runwayTerm 160000 290000 10000 289974 = 159985 ∧
    approach 160000 140000 100 100 = 30032 := by decide +kernel
/-- spec/13, a rank failure: engine address 0xA34566A40 lies on channel 2, in slot 1, bank 25, row 0x468A. -/
theorem test_address_example :
    (wRank ready).field.core.pageAt 0xA34566 = (2, 0x28D159) ∧ slotOfPage 0x28D159 = 1 ∧ bankOfPage 0x28D159 = 25 ∧
    rowOfPage 0x28D159 = 0x468A := by decide +kernel

/-- A hardware event waits in the FIFO and takes its number at the drain of item 6 (R210, R606). -/
theorem test_hwEvent_waits : (ready.field.core.emit 0x0408 1).cmdq.events = ready.field.core.cmdq.events ∧
    (ready.field.core.emit 0x0408 1).drainEvents.cmdq.events.getLast?.map (fun e => (e.opcode, e.index, e.result)) =
      some (0x0408, ready.field.core.cmdq.evSeq, 1) := by decide +kernel

/-- R568: the packets of a push of two rows of one pixel at (1, 2); and R565: a panel that gives no answer is refused 140 ms on. -/
theorem test_display_packets :
    dspPackets [(1, 2, 1, 2)] [9, 8, 7, 6, 5, 4] =
      [[0x2A, 0, 1, 0, 1], [0x2B, 0, 2, 0, 3], [0x2C, 9, 8, 7], [0x3C, 6, 5, 4]] ∧
    (aPanel 2 none).due = 640000000 ∧ (aPanel 2 (some 7)).due = 630000000 := by decide +kernel

end Sys2Proof.Tests
end

section
/-! PROOF. The sensor supplies (R104): what cutting the web source's encoder does beside the supply. -/

namespace Sys2Proof.Machine

/-! ### A cut that loses the web source while a job prints under a defect marker -/

/-- Job 5, PRINTING on bar 0 from position 0 on. -/
def printingJob : Job where
  id := 5
  state := 4
  barMask := 1
  streamMask := 0
  flags := 0
  lines := 0
  cover := []
  bars := [(0, JobBar.none)]
  ceiling := 0
  pos := some 0
  cut := false
  aborting := false
  struck := none
  open_ := 0
  defects := []
  extra := 0
  overflow := false
  overSaid := false
  ring := none
  endSeq := 0
  desc := []
  reduced := false
  opened := false

/-- READY with the sensor supplies on and PC0 as the web source, no backup ready: bar 0 prints job 5, defect markers go to CO
output 0 with offset 0 (R402), and that output is enabled. Nothing is due at a position. -/
def printingWithMarkers : State :=
  State.reset.onCore fun c =>
    ({ c with pwr := { c.pwr with on := true }, jobs := { c.jobs with jobs := [printingJob] } } : Core).wrs
      [(SYS_BOOT.STATE, 7), (JOBB_ACTIVE.JOB_ID, 5), (SPG_DEFECT_CFG.EN, 1), (CMP_CO_CFG.EN, 1)]

/-- The state meets what O11 asks before the cut of channel 0. -/
theorem printingWithMarkers_may_cut :
    printingWithMarkers.field.core.bootState ≠ 1 ∧ NothingDue printingWithMarkers.field.core ∧
    printingWithMarkers.field.core.pwr.on = true ∧
    (printingWithMarkers.field.core.rd PWR_ENC_SUP.EN).testBit (0 : Fin 8).val = true ∧
    (printingWithMarkers.field.core.rd PWR_ENC_SUP.FAULT).testBit (0 : Fin 8).val = false := by
  unfold NothingDue; decide +kernel

/-- ENC_SUP_FAULT is the cut of the channel, while the field side is out of reset. -/
theorem exec_encSupFault {ch : Fin 8} {s : State} (hb : s.field.core.bootState ≠ 1) :
    exec (.encSupFault ch) s = .next (s.onCore (doEncSupFault ch.val)) := by
  change Host.Outcome.next (s.onRunning (doEncSupFault ch.val)) = _
  rw [State.onRunning, if_neg hb]

/-- No CO output is active before the cut. -/
theorem printingWithMarkers_co_idle : printingWithMarkers.field.core.rd CMP_CO_LEVEL.ACTIVE = 0 := by decide +kernel

/-- The cut loses the web source (R362). The WEB range it opens on bar 0 schedules a marker at φ itself, which fires at once
(R402) and so drives CO output 0 (R373). -/
theorem cut_of_web_source_drives_co :
    (printingWithMarkers.onCore (doEncSupFault (0 : Fin 8).val)).field.core.rd CMP_CO_LEVEL.ACTIVE = 1 := by
  decide +kernel

/-- Refutes O11: the frame of ENC_SUP_FAULT leaves out the compare block 0x0F. At `printingWithMarkers` no marker is pending
before the cut, but the cut of PC0 makes one, and its pulse changes CMP_CO_LEVEL from 0 to 1. -/
theorem not_sensorSuppliesSwitchAndRetry : ¬ Obligations.SensorSuppliesSwitchAndRetry := by
  unfold Obligations.SensorSuppliesSwitchAndRetry
  intro h
  obtain ⟨hboot, hdue, hon, hen, hfault⟩ := printingWithMarkers_may_cut
  obtain ⟨-, hcut, -⟩ := h 0 printingWithMarkers hboot hdue
  obtain ⟨t, ht, -, -, -, -, -, -, hframe, -⟩ := hcut hon hen hfault
  rw [exec_encSupFault hboot] at ht
  cases ht
  have hsame := hframe CMP_CO_LEVEL.ACTIVE 0 (by decide)
  rw [cut_of_web_source_drives_co, printingWithMarkers_co_idle] at hsame
  exact absurd hsame (by decide)

end Sys2Proof.Machine
end

section
/-! PROOF. The system commands (R183 to R187): what completing a command leaves alone, what a command without bulk data that
passes the checks of R179 does, and the four system commands through it. -/

namespace Sys2Proof.Machine

/-! ### Frames of the shared operations -/

theorem Quiet.trans {a b c : Core} (hab : Quiet a b) (hbc : Quiet b c) : Quiet a c := by
  unfold Quiet at *
  rw [hbc, hab]
theorem Quiet.wrs (s : Core) (l : List (Fld × Nat)) (n : Nat) : Quiet s (s.wrs l n) := by
  unfold Quiet
  rw [Core.wrs_only]
theorem Quiet.putCompl (s : Core) (src : Src) (e : Compl) : Quiet s (s.putCompl src e) := by
  cases src <;> rfl
theorem Quiet.taken (c : Call) (op : Nat) (s : State) : Quiet s.field.core (s.taken c op).field.core := by
  unfold Quiet
  rw [taken_core]

theorem inFlightKeys_subset : inFlightKeys ⊆ commandKeys := by decide
/-- A command that is taken changes no register but those that count what is in flight. -/
theorem SameRegs.taken (c : Call) (op : Nat) (ks : List Nat) (s : State) :
    SameRegs (commandKeys ++ ks) s.field.core (s.taken c op).field.core :=
  fun f n h => rd_taken c op s f n fun hm => h (List.mem_append_left ks (inFlightKeys_subset hm))

theorem taken_etime (c : Call) (op : Nat) (s : State) : (s.taken c op).field.core.etime = s.field.core.etime := by
  rw [taken_core]
theorem taken_done (c : Call) (op : Nat) (s : State) : (s.taken c op).field.core.cmdq.done = s.field.core.cmdq.done := by
  rw [taken_core]
theorem taken_open (c : Call) (op : Nat) (s : State) : (s.taken c op).field.core.cmdq.open_ = s.field.core.cmdq.open_ := by
  rw [taken_core]

/-! ### Completing a command (R178, R206) -/

/-- A completed command is counted, and counted again where it ends in an error (R206). -/
def Core.counted (s : Core) (r : Reply) : Core :=
  if r.status ≤ 1 then (s.inc CMDQ_DONE_CNT.COUNT).tickFree
  else ((s.inc CMDQ_DONE_CNT.COUNT).inc CMDQ_ERR_CNT.COUNT).tickFree
/-- Completing with no protocol violation is counting, then one entry where the source reads it. -/
theorem Core.complete_eq (s : Core) (src : Src) (op tag q idx : Nat) {r : Reply} (h : r.status ≠ 0xFE) :
    s.complete src op tag q idx r =
      (s.counted r).putCompl src ⟨1, r.status, tag, q, op, idx, s.etime, r.result s.free⟩ := by
  unfold Core.complete Core.counted
  simp only [h, if_false]
  split <;> rfl
theorem Quiet.counted (s : Core) (r : Reply) : Quiet s (s.counted r) := by
  unfold Core.counted
  split <;> rfl
theorem Core.counted_cmdq (s : Core) (r : Reply) : (s.counted r).cmdq = s.cmdq := by
  unfold Core.counted
  split <;> rfl
theorem Core.rd_counted_ne (s : Core) (r : Reply) (f : Fld) (n : Nat) (h : f.key n ∉ commandKeys) :
    (s.counted r).rd f n = s.rd f n := by
  have hdone : f.key n ≠ CMDQ_DONE_CNT.COUNT.key 0 := fun e => h (e ▸ by decide)
  have herr : f.key n ≠ CMDQ_ERR_CNT.COUNT.key 0 := fun e => h (e ▸ by decide)
  unfold Core.counted
  split
  · rw [Core.rd_tickFree, Core.rd_inc_ne _ _ _ _ _ _ hdone]
  · rw [Core.rd_tickFree, Core.rd_inc_ne _ _ _ _ _ _ herr, Core.rd_inc_ne _ _ _ _ _ _ hdone]

/-! ### A command without bulk data -/

/-- A defined command whose body touches the field side's registers and records alone, as `g` does: no bulk data, one figure
for PLEN and no length check of its own (R183). -/
structure Cmd.Plain (k : Cmd) (n : Nat) (g : Core → Reply × Core) : Prop where
  known : k.known = true
  plens : k.plens = [n]
  short : n ≤ 48
  lenBad : k.lenBad = none
  bulk : k.bulk = none
  body : k.body = liftBody g

/-- With a clean header such a command passes check 6. -/
theorem Cmd.Plain.lengthCheck {k : Cmd} {n : Nat} {g : Core → Reply × Core} (hk : k.Plain n g) (hc : CleanHeader k.call n) :
    k.lengthCheck = none := by
  simp [Cmd.lengthCheck, hk.plens, hk.lenBad, hk.bulk, hc.len, hc.sg]

/-- The body answers at once with OK or an error of no protocol violation. -/
def Reply.Direct (r : Reply) : Prop := (∃ v, r = .ok v) ∨ ∃ st d off v, r = .err st d off v ∧ st ≠ 0xFE

theorem Reply.Direct.status_ne {r : Reply} (h : r.Direct) : r.status ≠ 0xFE := by
  obtain ⟨v, rfl⟩ | ⟨st, d, off, v, rfl, hst⟩ := h
  · simp [Reply.status]
  · exact hst

/-- The whole next state of such a command: its body has run on the state that counts it, its write group may have entered the
commit log `l`, and it is completed. -/
theorem Cmd.Plain.submit {k : Cmd} {n : Nat} {g : Core → Reply × Core} {i : Instr} {s : State} {r : Reply} {x : Core}
    (hk : k.Plain n g) (hc : CleanHeader k.call n) (hr : Runs k.call k.op k.priv s)
    (hg : g (s.taken k.call k.op).field.core = (r, x)) (hd : r.Direct) :
    ∃ l, k.submit i s = { s.taken k.call k.op with field := ⟨({ x with tck := l } : Core).complete k.call.src k.op
      k.call.tag.toNat k.call.q.val k.call.index.toNat r, (s.taken k.call k.op).field.dram⟩ } := by
  have hrun := Cmd.submit_runs (i := i) hr (hc.header hk.short) hk.known (by simp [hc.sg]) (hk.lengthCheck hc) hc.params
  have hbody : k.body (s.taken k.call k.op).field = (r, { (s.taken k.call k.op).field with core := x }) := by
    rw [hk.body]
    simp only [liftBody, hg]
  rw [hbody] at hrun
  obtain ⟨v, rfl⟩ | ⟨st, d, off, v, rfl, -⟩ := hd
  · exact ⟨(x.commitGroup k.call).tck, hrun⟩
  · exact ⟨x.tck, hrun⟩

/-- What a command without bulk data does that passes the checks, where its body changes registers `ks` and nothing of the queues: it
completes once with the body's answer, and leaves what its body leaves. `a` is the state with which its body agrees outside
registers and queues. -/
theorem Cmd.Plain.answers {k : Cmd} {n : Nat} {g : Core → Reply × Core} {i : Instr} {s : State} {r : Reply} {a x : Core}
    {ks : List Nat} (hexec : exec i s = .next (k.submit i s)) (hk : k.Plain n g) (hc : CleanHeader k.call n)
    (hr : Runs k.call k.op k.priv s) (hg : g (s.taken k.call k.op).field.core = (r, x)) (hd : r.Direct)
    (hquiet : Quiet a x) (htime : x.etime = s.field.core.etime) (hcmdq : x.cmdq = (s.taken k.call k.op).field.core.cmdq)
    (hregs : SameRegs (commandKeys ++ ks) s.field.core x) :
    Answers i s fun t => Completed k.call k.op r.status (r.result x.free) s t ∧ CommandFrame k.call k.op ks s t ∧
      Quiet a t.field.core ∧ ∀ f n, f.key n ∉ commandKeys → t.field.core.rd f n = x.rd f n := by
  obtain ⟨l, ht⟩ := hk.submit (i := i) hc hr hg hd
  rw [Core.complete_eq _ _ _ _ _ _ hd.status_ne] at ht
  have hreads : ∀ (f : Fld) n (e : Compl), f.key n ∉ commandKeys →
      ((({ x with tck := l } : Core).counted r).putCompl k.call.src e).rd f n = x.rd f n := fun f n e h => by
    rw [Core.rd_putCompl, Core.rd_counted_ne _ _ _ _ h]; rfl
  refine ⟨_, hexec, ?_⟩
  rw [ht]
  refine ⟨?completed, ⟨taken_pending _ _ _, taken_dram _ _ _, taken_host _ _ _, ?regs⟩, ?quiet, fun f n => hreads f n _⟩
  case completed =>
    cases hs : k.call.src with
    | host =>
      simp only [Completed, hs, Core.putCompl, Core.counted_cmdq, hcmdq, taken_done, entryOf, htime]
    | fsp =>
      simp only [Completed, hs, Core.putCompl, Core.counted_cmdq, hcmdq, taken_fspTx k.call k.op s hs, entryOf, htime,
        List.nil_append]
  case regs =>
    intro f n h
    rw [hreads f n _ fun hm => h (List.mem_append_left ks hm)]
    exact hregs f n h
  case quiet =>
    have hlog : Quiet x { x with tck := l } := rfl
    exact ((hquiet.trans hlog).trans (Quiet.counted _ _)).trans (Quiet.putCompl _ _ _)

/-! ### NOP, IDENTIFY and FIELD_RESET (R184, R187) -/

theorem nop_answers {c : Call} {s : State} (hc : CleanHeader c 0) (hr : Runs c 0x0000 0 s) :
    Answers (.nop c) s fun t =>
      Completed c 0x0000 0 0 s t ∧ CommandFrame c 0x0000 [] s t ∧ Quiet s.field.core t.field.core := by
  have hk : (cmdNop c).Plain 0 fun s => (.ok 0, s) := ⟨rfl, rfl, by decide, rfl, rfl, rfl⟩
  obtain ⟨t, ht, hdone, hframe, hquiet, -⟩ := hk.answers (i := .nop c) rfl hc hr rfl (.inl ⟨0, rfl⟩)
    (Quiet.taken _ _ _) (taken_etime _ _ _) rfl (SameRegs.taken _ _ [] _)
  exact ⟨t, ht, hdone, hframe, hquiet⟩

/-- A register word depends on the fields that lie at its address. -/
theorem Core.regWord_congr {a b : Core} {addr : Nat} (h : ∀ p ∈ fieldsAt addr, a.rd p.1 p.2 = b.rd p.1 p.2) :
    a.regWord addr = b.regWord addr :=
  List.foldl_ext _ _ _ fun x p hp => by rw [h p hp]

/-- What is reported of the identity, the boot and the imago's epochs depends on the SYS block alone (R135, R184). -/
theorem Core.fieldReport_congr {a b : Core} (h : ∀ (f : Fld) (n : Nat), f.block n = 0 → a.rd f n = b.rd f n) :
    a.fieldReport = b.fieldReport := by
  have hid : a.regWord 0x0 = b.regWord 0x0 := Core.regWord_congr fun p hp => h _ _ (by revert p; decide)
  have hboot : a.regWord 0xC = b.regWord 0xC := Core.regWord_congr fun p hp => h _ _ (by revert p; decide)
  have himago : a.rd SYS_BOOT.IMAGO = b.rd SYS_BOOT.IMAGO := h _ _ (by decide)
  have hcore : ∀ i < 2, SYS_EPOCH.CKPT_EPOCH.block i = 0 ∧ SYS_EPOCH.CMD_EPOCH.block i = 0 ∧ SYS_FW.MAP_EPOCH.block i = 0 := by
    decide
  obtain ⟨hckpt, hcmd, hmap⟩ := hcore (b.rd SYS_BOOT.IMAGO) (Nat.mod_lt _ (by decide))
  simp only [Core.fieldReport, hid, hboot, himago, h _ _ hckpt, h _ _ hcmd, h _ _ hmap]

/-- The taking of a command changes nothing that IDENTIFY reports (R184). -/
theorem identifyBody_taken (c : Call) (op : Nat) (s : State) :
    (identifyBody c.src (s.taken c op).field.core).1 = .ok (s.field.core.fieldReport + at_ 14 (s.field.core.priv c.src) +
      at_ 15 (s.field.core.regWord CMDQ_CFG.MODE.base % 256)) := by
  have hblock : ∀ k ∈ inFlightKeys, k / 2 ^ 21 ≠ 0 := by decide
  have hreport : (s.taken c op).field.core.fieldReport = s.field.core.fieldReport :=
    Core.fieldReport_congr fun f n h => rd_taken c op s f n fun hm => hblock _ hm h
  have hcfg : ∀ p ∈ fieldsAt CMDQ_CFG.MODE.base, p.1.key p.2 ∉ inFlightKeys := by decide
  have hmode : (s.taken c op).field.core.regWord CMDQ_CFG.MODE.base = s.field.core.regWord CMDQ_CFG.MODE.base :=
    Core.regWord_congr fun p hp => rd_taken c op s p.1 p.2 (hcfg p hp)
  simp only [identifyBody, hreport, taken_priv, hmode]

theorem identify_answers {c : Call} {s : State} (hc : CleanHeader c 0) (hr : Runs c 0x0001 0 s) :
    Answers (.identify c) s fun t =>
      Completed c 0x0001 0 ((s.field.core.fieldReport + at_ 14 (s.field.core.priv c.src) +
        at_ 15 (s.field.core.regWord CMDQ_CFG.MODE.base % 256)) % 2 ^ 128) s t ∧
      CommandFrame c 0x0001 [] s t ∧ Quiet s.field.core t.field.core := by
  have hk : (cmdIdentify c).Plain 0 (identifyBody c.src) := ⟨rfl, rfl, by decide, rfl, rfl, rfl⟩
  obtain ⟨t, ht, hdone, hframe, hquiet, -⟩ := hk.answers (i := .identify c) rfl hc hr
    (Prod.ext (identifyBody_taken c 0x0001 s) rfl) (.inl ⟨_, rfl⟩)
    (Quiet.taken _ _ _) (taken_etime _ _ _) rfl (SameRegs.taken _ _ [] _)
  exact ⟨t, ht, hdone, hframe, hquiet⟩

theorem fieldReset_answers {c : Call} {s : State} (hc : CleanHeader c 0) (hr : Runs c 0x0003 3 s) :
    Answers (.fieldReset c) s fun t =>
      Completed c 0x0003 0 0 s t ∧ CommandFrame c 0x0003 [] s t ∧ t.field.core.resetPending = true ∧
      Quiet { s.field.core with resetPending := true } t.field.core := by
  have hk : (cmdFieldReset c).Plain 0 fieldResetBody := ⟨rfl, rfl, by decide, rfl, rfl, rfl⟩
  have hpending : Quiet { s.field.core with resetPending := true }
      { (s.taken c 0x0003).field.core with resetPending := true } := by
    unfold Quiet
    rw [taken_core]
  have hregs : SameRegs (commandKeys ++ []) s.field.core { (s.taken c 0x0003).field.core with resetPending := true } :=
    fun f n h => (Core.rd_congr rfl f n).trans (SameRegs.taken c 0x0003 [] s f n h)
  obtain ⟨t, ht, hdone, hframe, hquiet, -⟩ := hk.answers (i := .fieldReset c) rfl hc hr rfl (.inl ⟨0, rfl⟩)
    hpending (taken_etime c 0x0003 s) rfl hregs
  exact ⟨t, ht, hdone, hframe, by rw [hquiet], hquiet⟩

/-! ### QUEUE_CONFIG (R175, R185) -/

/-- The ring commands in flight that a command counts for itself (R175). -/
def ownCount (c : Call) : Nat := if c.src = .host then 1 else 0

/-- CMDQ_INFLIGHT.TOTAL shows the number of commands in flight. -/
theorem rd_total_syncInFlight (s : State) :
    s.syncInFlight.field.core.rd CMDQ_INFLIGHT.TOTAL = s.inFlight.length % 1024 := by
  have hkey : ∀ q < 4, CMDQ_INFLIGHT.TOTAL.key 0 ≠ CMDQ_INFLIGHT_Q.COUNT.key q := by decide
  simp only [State.syncInFlight, State.onCore, Field.onCore, List.range, List.range.loop, List.foldl]
  rw [Core.rd_wr_ne _ _ _ _ _ _ (hkey 3 (by decide)), Core.rd_wr_ne _ _ _ _ _ _ (hkey 2 (by decide)),
    Core.rd_wr_ne _ _ _ _ _ _ (hkey 1 (by decide)), Core.rd_wr_ne _ _ _ _ _ _ (hkey 0 (by decide)), Core.rd_wr]
  rfl
/-- When a command is taken, the commands in flight are those before it, and itself where it came by a ring. -/
theorem rd_total_taken (c : Call) (op : Nat) (s : State) :
    (s.taken c op).field.core.rd CMDQ_INFLIGHT.TOTAL = (s.inFlight.length + ownCount c) % 1024 := by
  cases hs : c.src with
  | host =>
    simp only [State.taken, hs, rd_total_syncInFlight, ownCount, if_true]
    congr 1
    simp [State.inFlight, State.track, State.onHost]
    omega
  | fsp =>
    simp only [State.taken, hs, rd_total_syncInFlight, ownCount, reduceCtorEq, if_false]
    rfl

/-- As the only command in flight QUEUE_CONFIG sets both fields (R185). -/
theorem queueConfigBody_sole {c : Call} {mode live : Nat} {s : Core} (hm : mode ≤ 1) (hl : live ≤ 1)
    (ht : s.rd CMDQ_INFLIGHT.TOTAL ≤ ownCount c) (ho : s.cmdq.open_ = []) :
    queueConfigBody c mode live s = (.ok 0, s.wrs [(CMDQ_CFG.MODE, mode), (CMDQ_CFG.LIVE_SERVICE, live)]) := by
  have hsole : ¬ (s.rd CMDQ_INFLIGHT.TOTAL > ownCount c ∨ (c.src = .host ∧ s.cmdq.open_.any (·.src == .fsp))) := by
    simp [ho]; omega
  unfold queueConfigBody
  rw [if_neg (Nat.not_lt.2 hm), if_neg (Nat.not_lt.2 hl)]
  exact if_neg hsole
/-- Beside another ring command it is refused with NOT_ONLY (R185). -/
theorem queueConfigBody_beside {c : Call} {mode live : Nat} {s : Core} (hm : mode ≤ 1) (hl : live ≤ 1)
    (ht : ownCount c < s.rd CMDQ_INFLIGHT.TOTAL) : queueConfigBody c mode live s = (busy 0x001D, s) := by
  unfold queueConfigBody
  rw [if_neg (Nat.not_lt.2 hm), if_neg (Nat.not_lt.2 hl)]
  exact if_pos (.inl ht)

/-- The row of R183 of QUEUE_CONFIG. -/
theorem cmdQueueConfig_plain (c : Call) (mode live : Nat) :
    (cmdQueueConfig c mode live).Plain 4 (queueConfigBody c mode live) := ⟨rfl, rfl, by decide, rfl, rfl, rfl⟩

/-- The keys of CMDQ_CFG's two fields. -/
def configKeys : List Nat := [CMDQ_CFG.MODE.key 0, CMDQ_CFG.LIVE_SERVICE.key 0]

theorem queueConfig_sole_answers {c : Call} {mode live : Byte} {s : State} (hc : CleanHeader c 4) (hr : Runs c 0x0002 2 s)
    (hm : mode.toNat ≤ 1) (hl : live.toNat ≤ 1) (hf : s.inFlight = []) (ho : s.field.core.cmdq.open_ = []) :
    Answers (.queueConfig c mode live) s fun t =>
      Completed c 0x0002 0 0 s t ∧ t.field.core.rd CMDQ_CFG.MODE = mode.toNat ∧
      t.field.core.rd CMDQ_CFG.LIVE_SERVICE = live.toNat ∧ CommandFrame c 0x0002 configKeys s t ∧
      Quiet s.field.core t.field.core := by
  have htotal : (s.taken c 0x0002).field.core.rd CMDQ_INFLIGHT.TOTAL ≤ ownCount c := by
    rw [rd_total_taken, hf, List.length_nil, Nat.zero_add]
    exact Nat.mod_le _ _
  have hopen : (s.taken c 0x0002).field.core.cmdq.open_ = [] := (taken_open _ _ _).trans ho
  have hregs : SameRegs (commandKeys ++ configKeys) s.field.core
      ((s.taken c 0x0002).field.core.wrs [(CMDQ_CFG.MODE, mode.toNat), (CMDQ_CFG.LIVE_SERVICE, live.toNat)]) := by
    intro f n h
    rw [Core.rd_wrs_ne, SameRegs.taken c 0x0002 configKeys s f n h]
    simp_all [configKeys]
  obtain ⟨t, ht, hdone, hframe, hquiet, hreads⟩ := (cmdQueueConfig_plain c _ _).answers (i := .queueConfig c mode live) rfl hc hr
    (queueConfigBody_sole hm hl htotal hopen) (.inl ⟨0, rfl⟩)
    ((Quiet.taken c 0x0002 s).trans (Quiet.wrs _ _ _)) (taken_etime c 0x0002 s) rfl hregs
  refine ⟨t, ht, hdone, ?_, ?_, hframe, hquiet⟩
  · rw [hreads _ _ (by decide)]
    simp only [Core.wrs, List.foldl]
    rw [Core.rd_wr_ne _ _ _ _ _ _ (by decide), Core.rd_wr]
    exact Nat.mod_eq_of_lt (Nat.lt_succ_of_le hm)
  · rw [hreads _ _ (by decide)]
    simp only [Core.wrs, List.foldl]
    rw [Core.rd_wr]
    exact Nat.mod_eq_of_lt (Nat.lt_succ_of_le hl)

theorem queueConfig_beside_answers {c : Call} {mode live : Byte} {s : State} (hc : CleanHeader c 4) (hr : Runs c 0x0002 2 s)
    (hm : mode.toNat ≤ 1) (hl : live.toNat ≤ 1) (hf : s.inFlight ≠ []) (hlen : s.inFlight.length + 1 < 1024) :
    Answers (.queueConfig c mode live) s fun t =>
      (∃ result, Completed c 0x0002 0x14 result s t ∧ result % 2 ^ 16 = 0x001D) ∧ CommandFrame c 0x0002 [] s t ∧
      Quiet s.field.core t.field.core := by
  have htotal : ownCount c < (s.taken c 0x0002).field.core.rd CMDQ_INFLIGHT.TOTAL := by
    have hpos := List.length_pos_of_ne_nil hf
    have hown : ownCount c ≤ 1 := by unfold ownCount; split <;> decide
    rw [rd_total_taken]
    omega
  obtain ⟨t, ht, hdone, hframe, hquiet, -⟩ := (cmdQueueConfig_plain c _ _).answers (i := .queueConfig c mode live) rfl hc hr
    (queueConfigBody_beside hm hl htotal) (.inr ⟨_, _, _, _, rfl, by decide⟩)
    (Quiet.taken _ _ _) (taken_etime _ _ _) rfl (SameRegs.taken _ _ [] _)
  refine ⟨t, ht, ⟨_, hdone, ?_⟩, hframe, hquiet⟩
  simp only [busy, Reply.result, detailResult, at_]
  omega

/-- A field-side reset of any cause puts every register but its cause back to its reset value (R36). -/
theorem rd_fieldReset (cause : Nat) (s : State) (f : Fld) (n : Nat) (h : f.key n ≠ SYS_BOOT.RESET_CAUSE.key 0) :
    (fieldReset cause s).field.core.rd f n = resetOf f n % 2 ^ f.width := by
  simp only [fieldReset, State.syncHost, State.onHost]
  rw [Core.rd_wr_ne _ _ _ _ _ _ h]
  rfl

/-- Settles O21: each system command through `Cmd.Plain.answers`, and the reset through the reset values of CMDQ_CFG. -/
theorem systemCommandsAct : Obligations.SystemCommandsAct := by
  unfold Obligations.SystemCommandsAct
  refine ⟨fun c s hc => ⟨nop_answers hc, identify_answers hc, fieldReset_answers hc⟩, ?_, ?_, ?_⟩
  · intro c mode live s hc hr hm hl hf ho
    exact queueConfig_sole_answers hc hr hm hl hf ho
  · intro c mode live s hc hr hm hl hf hlen
    exact queueConfig_beside_answers hc hr hm hl hf hlen
  · intro cause s
    exact ⟨rd_fieldReset cause s CMDQ_CFG.MODE 0 (by decide), rd_fieldReset cause s CMDQ_CFG.LIVE_SERVICE 0 (by decide)⟩

end Sys2Proof.Machine
end

section
/-! PROOF. CMP_CLEAR and CO_PULSE_END (R373, R375): what an event and a missed entry change, a command whose body raises events,
and the outputs' state through CMP_CO_LEVEL. -/

namespace Sys2Proof.Machine

/-! ### What an event changes -/

theorem QuietEvents.trans {a b c : Core} (hab : QuietEvents a b) (hbc : QuietEvents b c) : QuietEvents a c := by
  unfold QuietEvents at *
  rw [hbc, hab]
theorem Core.inc_only (s : Core) (f : Fld) (n k : Nat) : s.inc f n k = { s with regs := (s.inc f n k).regs } := rfl
/-- Counting events lost and holding the others: registers and queues. -/
theorem Core.holdEvents_only (s : Core) (l : List Compl) :
    s.holdEvents l = { s with regs := (s.holdEvents l).regs, cmdq := { s.cmdq with events := l.drop (l.length - 256) } } := by
  rw [← Core.holdEvents_cmdq]
  unfold Core.holdEvents
  dsimp only
  split
  · rfl
  · rw [Core.inc_only]
theorem QuietEvents.enter (s : Core) (e : Compl) : QuietEvents s (s.enter e) := by
  unfold QuietEvents Core.enter
  rw [Core.holdEvents_only]
theorem QuietEvents.queue (s : Core) (e : Compl) : QuietEvents s (s.queue e) := by
  unfold QuietEvents Core.queue
  dsimp only
  split <;> rfl
theorem QuietEvents.emit (s : Core) (code data tag : Nat) : QuietEvents s (s.emit code data tag) := by
  unfold Core.emit
  dsimp only
  split
  · exact QuietEvents.queue s _
  · exact QuietEvents.enter s _
theorem QuietEvents.wrs (s : Core) (l : List (Fld × Nat)) (n : Nat) : QuietEvents s (s.wrs l n) := by
  unfold QuietEvents
  rw [Core.wrs_only]
theorem QuietEvents.incW (s : Core) (f : Fld) (n k : Nat) : QuietEvents s (s.incW f n k) := rfl
theorem QuietEvents.setCmp {a b : Core} (h : QuietEvents a b) (c : CmpSt) : QuietEvents (a.setCmp c) (b.setCmp c) := by
  unfold QuietEvents at *
  rw [h]
  rfl
theorem QuietEvents.etime {a b : Core} (h : QuietEvents a b) : b.etime = a.etime := by rw [h]
theorem QuietEvents.pos {a b : Core} (h : QuietEvents a b) : b.pos = a.pos := by rw [h]
theorem QuietEvents.done {a b : Core} (h : QuietEvents a b) : b.cmdq.done = a.cmdq.done := by rw [h]
theorem QuietEvents.fspTx {a b : Core} (h : QuietEvents a b) : b.cmdq.fspTx = a.cmdq.fspTx := by rw [h]

/-! ### Blocks of registers -/

theorem SameOutside.trans {ps : List Nat} {a b c : Core} (hab : SameOutside ps a b) (hbc : SameOutside ps b c) :
    SameOutside ps a c := fun f n h => (hbc f n h).trans (hab f n h)
theorem SameOutside.mono {ps qs : List Nat} {a b : Core} (hsub : ps ⊆ qs) (h : SameOutside ps a b) : SameOutside qs a b :=
  fun f n hn => h f n fun hp => hn (hsub hp)
/-- Registers that all lie in the blocks `ps`. -/
theorem SameRegs.outside {ks ps : List Nat} {a b : Core} (hk : ∀ k ∈ ks, k / 2 ^ 21 ∈ ps) (h : SameRegs ks a b) :
    SameOutside ps a b := fun f n hn => h f n fun hm => hn (hk _ hm)
theorem commandKeys_blocks : ∀ k ∈ commandKeys, k / 2 ^ 21 ∈ [0x01, 0x1B] := by decide
/-- An event changes the LOG block alone. -/
theorem SameOutside.emit (s : Core) (code data tag : Nat) : SameOutside [0x1B] s (s.emit code data tag) :=
  fun _ _ h => Core.rd_emit_ne _ _ _ _ _ _ fun e => h (by rw [Fld.block, e]; decide)
/-- A list of writes to fields of the blocks `ps`. -/
theorem SameOutside.wrs {ps : List Nat} (s : Core) (l : List (Fld × Nat)) (n : Nat) (hl : ∀ p ∈ l, p.1.block n ∈ ps) :
    SameOutside ps s (s.wrs l n) :=
  fun _ _ h => Core.rd_wrs_ne _ _ _ _ _ fun p hp e => h (by rw [Fld.block, e]; exact hl p hp)
theorem SameOutside.incW {ps : List Nat} (s : Core) (f : Fld) (n k : Nat) (hf : f.block n ∈ ps) :
    SameOutside ps s (s.incW f n k) :=
  fun _ _ h => Core.rd_incW_ne _ _ _ _ _ _ fun e => h (by rw [Fld.block, e]; exact hf)

/-! ### A command whose body raises events -/

/-- What a command without bulk data does that passes the checks, where its body changes registers of the blocks `ps` and of the
queues at most the events: it completes once with the body's answer, and leaves what its body leaves. -/
theorem Cmd.Plain.answers_within {k : Cmd} {n : Nat} {g : Core → Reply × Core} {i : Instr} {s : State} {r : Reply} {x : Core}
    {ps : List Nat} (hexec : exec i s = .next (k.submit i s)) (hk : k.Plain n g) (hc : CleanHeader k.call n)
    (hr : Runs k.call k.op k.priv s) (hg : g (s.taken k.call k.op).field.core = (r, x)) (hd : r.Direct)
    (htime : x.etime = s.field.core.etime) (hdone : x.cmdq.done = s.field.core.cmdq.done)
    (htx : x.cmdq.fspTx = (s.taken k.call k.op).field.core.cmdq.fspTx)
    (hregs : SameOutside (0x01 :: 0x1B :: ps) s.field.core x) :
    Answers i s fun t => Completed k.call k.op r.status (r.result x.free) s t ∧ CommandWithin k.call k.op ps s t ∧
      Quiet x t.field.core ∧ ∀ f n, f.key n ∉ commandKeys → t.field.core.rd f n = x.rd f n := by
  obtain ⟨l, ht⟩ := hk.submit (i := i) hc hr hg hd
  rw [Core.complete_eq _ _ _ _ _ _ hd.status_ne] at ht
  have hreads : ∀ (f : Fld) n (e : Compl), f.key n ∉ commandKeys →
      ((({ x with tck := l } : Core).counted r).putCompl k.call.src e).rd f n = x.rd f n := fun f n e h => by
    rw [Core.rd_putCompl, Core.rd_counted_ne _ _ _ _ h]; rfl
  refine ⟨_, hexec, ?_⟩
  rw [ht]
  refine ⟨?completed, ⟨taken_pending _ _ _, taken_dram _ _ _, taken_host _ _ _, ?regs⟩, ?quiet, fun f n => hreads f n _⟩
  case completed =>
    cases hs : k.call.src with
    | host => simp only [Completed, hs, Core.putCompl, Core.counted_cmdq, hdone, entryOf, htime]
    | fsp =>
      simp only [Completed, hs, Core.putCompl, Core.counted_cmdq, htx, taken_fspTx k.call k.op s hs, entryOf, htime,
        List.nil_append]
  case regs =>
    intro f n h
    rw [hreads f n _ fun hm => h (List.mem_append_left ps (commandKeys_blocks _ hm))]
    exact hregs f n h
  case quiet =>
    have hlog : Quiet x { x with tck := l } := rfl
    exact (hlog.trans (Quiet.counted _ _)).trans (Quiet.putCompl _ _ _)

/-! ### Entries that leave the pool as missed (R372, R375, R376) -/

/-- The pool record without the entries in the slots of `es`. -/
def CmpSt.without (c : CmpSt) (es : List CmpEntry) : CmpSt :=
  { c with pool := c.pool.filter fun e => es.all fun x => e.slot != x.slot }
/-- Several entries leave the pool as missed, one after the other. -/
def Core.missAll (s : Core) (es : List CmpEntry) (cause : Nat) : Core := es.foldl (fun s e => s.missEntry e cause) s

theorem CmpSt.without_nil (c : CmpSt) : c.without [] = c := by
  simp [CmpSt.without]
theorem CmpSt.without_without (c : CmpSt) (es fs : List CmpEntry) : (c.without es).without fs = c.without (es ++ fs) := by
  simp only [CmpSt.without, List.filter_filter, List.all_append, Bool.and_comm]
theorem CmpSt.mem_without {c : CmpSt} {es : List CmpEntry} {e : CmpEntry} :
    e ∈ (c.without es).pool ↔ e ∈ c.pool ∧ ∀ x ∈ es, e.slot ≠ x.slot := by
  simp [CmpSt.without]

theorem QuietEvents.setPool (s : Core) (p : List CmpEntry) :
    QuietEvents (s.setCmp { s.pos.cmp with pool := p }) (s.setPool p) := QuietEvents.wrs _ _ 0
theorem SameOutside.setPool (s : Core) (p : List CmpEntry) : SameOutside [0x0F, 0x1B] s (s.setPool p) :=
  SameOutside.wrs (s.setCmp _) _ 0 (by simp only [List.forall_mem_cons]; decide)
/-- A missed entry leaves the pool, and beside it changes registers and events. -/
theorem QuietEvents.missEntry (s : Core) (e : CmpEntry) (cause : Nat) :
    QuietEvents (s.setCmp (s.pos.cmp.without [e])) (s.missEntry e cause) := by
  have hpool : s.pos.cmp.without [e] = { s.pos.cmp with pool := s.pos.cmp.pool.filter (·.slot != e.slot) } := by
    simp [CmpSt.without]
  rw [hpool]
  exact (((QuietEvents.setPool s _).trans (QuietEvents.incW _ CMP_MISSED_CNT.COUNT 0 1)).trans (QuietEvents.wrs _ _ 0)).trans
    (QuietEvents.emit _ _ _ _)
theorem SameOutside.missEntry (s : Core) (e : CmpEntry) (cause : Nat) :
    SameOutside [0x0F, 0x1B] s (s.missEntry e cause) := by
  exact (((SameOutside.setPool s _).trans (SameOutside.incW _ CMP_MISSED_CNT.COUNT 0 1 (by decide))).trans
    (SameOutside.wrs _ _ 0 (by simp only [List.forall_mem_cons]; decide))).trans ((SameOutside.emit _ _ _ _).mono (by decide))
/-- CMP_MISSED_CNT counts it. -/
theorem Core.rd_missed_missEntry (s : Core) (e : CmpEntry) (cause : Nat) :
    (s.missEntry e cause).rd CMP_MISSED_CNT.COUNT = (s.rd CMP_MISSED_CNT.COUNT + 1) % 2 ^ 32 := by
  unfold Core.missEntry
  dsimp only
  rw [Core.rd_emit_ne _ _ _ _ _ _ (by decide), Core.rd_wrs_ne _ _ _ _ _ (by simp only [List.forall_mem_cons]; decide),
    Core.incW, Core.rd_wr, Core.setPool, Core.rd_wrs_ne _ _ _ _ _ (by simp only [List.forall_mem_cons]; decide)]
  rfl
/-- CMP_LAST_MISS shows its cause. -/
theorem Core.rd_cause_missEntry (s : Core) (e : CmpEntry) (cause : Nat) :
    (s.missEntry e cause).rd CMP_LAST_MISS.CAUSE = cause % 4 := by
  unfold Core.missEntry
  dsimp only
  rw [Core.rd_emit_ne _ _ _ _ _ _ (by decide)]
  exact Core.rd_wr _ CMP_LAST_MISS.CAUSE cause 0

theorem QuietEvents.missAll (s : Core) (es : List CmpEntry) (cause : Nat) :
    QuietEvents (s.setCmp (s.pos.cmp.without es)) (s.missAll es cause) := by
  induction es generalizing s with
  | nil =>
    rw [CmpSt.without_nil]
    rfl
  | cons e es ih =>
    have hone := QuietEvents.missEntry s e cause
    have hcmp : (s.missEntry e cause).pos.cmp = s.pos.cmp.without [e] := by rw [hone.pos]; rfl
    have hrest := ih (s.missEntry e cause)
    rw [hcmp, CmpSt.without_without] at hrest
    exact (hone.setCmp _).trans hrest
theorem SameOutside.missAll (s : Core) (es : List CmpEntry) (cause : Nat) :
    SameOutside [0x0F, 0x1B] s (s.missAll es cause) := by
  induction es generalizing s with
  | nil => exact fun _ _ _ => rfl
  | cons e es ih => exact (SameOutside.missEntry s e cause).trans (ih _)
theorem Core.rd_missed_missAll (s : Core) (es : List CmpEntry) (cause : Nat) :
    (s.missAll es cause).rd CMP_MISSED_CNT.COUNT = (s.rd CMP_MISSED_CNT.COUNT + es.length) % 2 ^ 32 := by
  induction es generalizing s with
  | nil => exact (Nat.mod_mod _ _).symm
  | cons e es ih =>
    rw [Core.missAll, List.foldl_cons, ← Core.missAll, ih, Core.rd_missed_missEntry, List.length_cons]
    omega
/-- Entries missed after one of that cause leave the cause as it is. -/
theorem Core.rd_cause_missAll_of_eq {s : Core} {cause : Nat} (es : List CmpEntry) (h : s.rd CMP_LAST_MISS.CAUSE = cause % 4) :
    (s.missAll es cause).rd CMP_LAST_MISS.CAUSE = cause % 4 := by
  induction es generalizing s with
  | nil => exact h
  | cons e es ih => exact ih (Core.rd_cause_missEntry s e cause)
theorem Core.rd_cause_missAll (s : Core) {es : List CmpEntry} (cause : Nat) (h : es ≠ []) :
    (s.missAll es cause).rd CMP_LAST_MISS.CAUSE = cause % 4 := by
  cases es with
  | nil => exact absurd rfl h
  | cons e es => exact Core.rd_cause_missAll_of_eq es (Core.rd_cause_missEntry s e cause)

/-! ### CMP_CLEAR (R375) -/

/-- The entries a CMP_CLEAR removes: those whose action drives a CO output of the mask, or with an empty mask CAM_FRAME. -/
def clearHit (mask : Byte) (e : CmpEntry) : Bool :=
  if mask = 0 then e.action == 0x10 else decide (e.action ≤ 4) && mask.toNat.testBit e.output
theorem cmpClear_eq (mask : Byte) (s : Core) :
    cmpClear mask.toNat s = (.ok 0, s.missAll (s.pos.cmp.pool.filter (clearHit mask)) 3) := by
  have hzero : mask.toNat = 0 ↔ mask = 0 := (BitVec.toNat_eq (y := 0)).symm
  simp only [cmpClear, hzero]
  rfl

/-- The row of R183 of CMP_CLEAR. -/
theorem cmdCmpClear_plain (c : Call) (mask : Nat) : (cmdCmpClear c mask).Plain 4 (cmpClear mask) :=
  ⟨rfl, rfl, by decide, rfl, rfl, rfl⟩

theorem cmpClear_answers {c : Call} {mask : Byte} {s : State} (hc : CleanHeader c 4) (hr : Runs c 0x0501 1 s) :
    Answers (.cmpClear c mask) s fun t =>
      Completed c 0x0501 0 0 s t ∧ CommandWithin c 0x0501 [0x0F] s t ∧
      t.field.core.pos.cmp = s.field.core.pos.cmp.without (s.field.core.pos.cmp.pool.filter (clearHit mask)) ∧
      t.field.core.rd CMP_MISSED_CNT.COUNT =
        (s.field.core.rd CMP_MISSED_CNT.COUNT + (s.field.core.pos.cmp.pool.filter (clearHit mask)).length) % 2 ^ 32 ∧
      (s.field.core.pos.cmp.pool.filter (clearHit mask) ≠ [] → t.field.core.rd CMP_LAST_MISS.CAUSE = 3) := by
  generalize hes : s.field.core.pos.cmp.pool.filter (clearHit mask) = es
  have hpos : (s.taken c 0x0501).field.core.pos = s.field.core.pos := by rw [taken_core]
  have hbody : cmpClear mask.toNat (s.taken c 0x0501).field.core = (.ok 0, (s.taken c 0x0501).field.core.missAll es 3) := by
    rw [cmpClear_eq, hpos, hes]
  have hmiss := QuietEvents.missAll (s.taken c 0x0501).field.core es 3
  have hregs : SameOutside (0x01 :: 0x1B :: [0x0F]) s.field.core ((s.taken c 0x0501).field.core.missAll es 3) :=
    ((SameRegs.taken c 0x0501 [] s).outside (by decide)).trans ((SameOutside.missAll _ _ _).mono (by decide))
  obtain ⟨t, ht, hdone, hwithin, hquiet, hreads⟩ := (cmdCmpClear_plain c mask.toNat).answers_within (i := .cmpClear c mask) rfl
    hc hr hbody (.inl ⟨0, rfl⟩) (hmiss.etime.trans (taken_etime c 0x0501 s))
    (hmiss.done.trans (taken_done c 0x0501 s)) hmiss.fspTx hregs
  refine ⟨t, ht, hdone, hwithin, ?_, ?_, fun hne => ?_⟩
  · rw [hquiet, hmiss.pos, ← hpos]
    rfl
  · rw [hreads _ _ (by decide), Core.rd_missed_missAll, rd_taken _ _ _ _ _ (by decide)]
  · rw [hreads _ _ (by decide), Core.rd_cause_missAll _ _ hne]

/-! ### CO outputs (R373) -/

/-- The number with the bits of `p` below `n`. -/
def bitsBelow (p : Nat → Bool) (n : Nat) : Nat := (List.range n).foldl (fun m i => if p i then m + 2 ^ i else m) 0
theorem bitsBelow_succ (p : Nat → Bool) (n : Nat) :
    bitsBelow p (n + 1) = if p n then bitsBelow p n + 2 ^ n else bitsBelow p n := by
  simp only [bitsBelow, List.range_succ, List.foldl_append, List.foldl_cons, List.foldl_nil]
theorem bitsBelow_lt (p : Nat → Bool) (n : Nat) : bitsBelow p n < 2 ^ n := by
  induction n with
  | zero => exact Nat.one_pos
  | succ n ih =>
    rw [bitsBelow_succ, Nat.pow_succ]
    split <;> omega
theorem testBit_bitsBelow (p : Nat → Bool) {n i : Nat} (h : i < n) : (bitsBelow p n).testBit i = p i := by
  induction n with
  | zero => omega
  | succ n ih =>
    have hlast : (bitsBelow p n).testBit n = false := Nat.testBit_lt_two_pow (bitsBelow_lt p n)
    rw [bitsBelow_succ]
    rcases Nat.lt_succ_iff_lt_or_eq.1 h with hi | rfl
    · split
      · rw [Nat.add_comm, Nat.testBit_two_pow_add_gt hi, ih hi]
      · exact ih hi
    · split
      · next hp => rw [Nat.add_comm, Nat.testBit_two_pow_add_eq, hlast, hp]; rfl
      · next hp => rw [hlast, Bool.eq_false_iff.2 hp]

/-- Is an output active: enabled, with its level set or its pulse timer running? -/
def Core.coActive (s : Core) (co : Nat) : Bool :=
  (s.rd CMP_CO_CFG.EN).testBit co && (s.pos.cmp.levels.testBit co || mget 0 s.pos.cmp.timers co != 0)
theorem Core.refreshCo_eq (s : Core) : s.refreshCo = s.wr CMP_CO_LEVEL.ACTIVE (bitsBelow s.coActive 8) := rfl
/-- CMP_CO_LEVEL shows each output. -/
theorem Core.testBit_active_refreshCo (s : Core) {co : Nat} (h : co < 8) :
    (s.refreshCo.rd CMP_CO_LEVEL.ACTIVE).testBit co = s.coActive co := by
  have hfits : bitsBelow s.coActive 8 % 2 ^ CMP_CO_LEVEL.ACTIVE.width = bitsBelow s.coActive 8 :=
    Nat.mod_eq_of_lt (bitsBelow_lt s.coActive 8)
  rw [Core.refreshCo_eq, Core.rd_wr, hfits, testBit_bitsBelow s.coActive h]
/-- The PIO outputs alone change. -/
theorem Core.drivePio_only (s : Core) : s.drivePio = { s with spg := s.drivePio.spg } := by
  unfold Core.drivePio
  split <;> rfl

/-! ### Rows of the clock -/

/-- A row that applies `g` to the field side's records, at a field side out of reset. -/
theorem answers_of_onRunning {i : Instr} {s : State} {g : Core → Core} {P : State → Prop}
    (hexec : exec i s = .next (s.onRunning g)) (hb : s.field.core.bootState ≠ 1) (h : P (s.onCore g)) : Answers i s P :=
  ⟨s.onCore g, by rw [hexec, State.onRunning, if_neg hb], h⟩
theorem CoreOnly.onCore (s : State) (g : Core → Core) : CoreOnly s (s.onCore g) := ⟨rfl, rfl, rfl⟩

/-! ### CO_PULSE_END (R373) -/

/-- The pool record once the pulse of an output has ended; a marker pulse on the marker output may end with it (R402). -/
def Core.pulseEnded (s : Core) (co : Nat) : CmpSt :=
  { s.pos.cmp with
    timers := mset 0 s.pos.cmp.timers co 0
    marker := if co = s.rd SPG_DEFECT_CFG.CO ∧ s.pos.cmp.marker ≤ s.etime then 0 else s.pos.cmp.marker }
theorem doCoPulseEnd_running {s : Core} {co t : Nat} (ht : mget 0 s.pos.cmp.timers co = t) (h : t ≠ 0) :
    doCoPulseEnd co s = (((s.reach t).setCmp ((s.reach t).pulseEnded co)).refreshCo).drivePio := by
  subst ht
  unfold doCoPulseEnd
  rw [if_neg h]
  rfl

theorem coPulseEnd_answers {co : Fin 8} {s : State} (hb : s.field.core.bootState ≠ 1)
    (hrun : mget 0 s.field.core.pos.cmp.timers co.val ≠ 0) :
    Answers (.coPulseEnd co) s fun t =>
      mget 0 t.field.core.pos.cmp.timers co.val = 0 ∧
      t.field.core.etime = max s.field.core.etime (mget 0 s.field.core.pos.cmp.timers co.val) ∧
      (t.field.core.rd CMP_CO_LEVEL.ACTIVE).testBit co.val =
        ((s.field.core.rd CMP_CO_CFG.EN).testBit co.val && s.field.core.pos.cmp.levels.testBit co.val) ∧
      SameRegs [CMP_CO_LEVEL.ACTIVE.key 0] s.field.core t.field.core ∧ CoreOnly s t := by
  refine answers_of_onRunning rfl hb ⟨?timer, ?time, ?active, ?regs, CoreOnly.onCore s _⟩
  all_goals
    simp only [State.onCore, Field.onCore]
    rw [doCoPulseEnd_running rfl hrun, Core.drivePio_only]
  case timer => exact mget_mset 0 s.field.core.pos.cmp.timers co.val 0
  case time => rfl
  case active =>
    refine (Core.testBit_active_refreshCo _ co.isLt).trans ?_
    simp only [Core.coActive, Core.setCmp, Core.pulseEnded, mget_mset, bne_self_eq_false, Bool.or_false]
    rfl
  case regs =>
    intro f n h
    exact Core.rd_wr_ne _ _ _ _ _ _ fun e => h (List.mem_singleton.2 e)

/-- Settles O38: CMP_CLEAR through the entries it misses, by their slots; CO_PULSE_END through CMP_CO_LEVEL, bit by bit. -/
theorem clearAndPulseEndFreeOutputs : Obligations.ClearAndPulseEndFreeOutputs := by
  unfold Obligations.ClearAndPulseEndFreeOutputs
  refine ⟨fun c mask s hc hr => ?_, fun co s hb hrun => coPulseEnd_answers hb hrun⟩
  obtain ⟨t, ht, hdone, hwithin, hcmp, hmissed, hcause⟩ := cmpClear_answers (mask := mask) hc hr
  refine ⟨t, ht, hdone, ?gone, ?kept, ?count, ?cause, ?levels, ?timers, hwithin⟩
  case gone =>
    intro e he
    rw [hcmp, CmpSt.mem_without] at he
    obtain ⟨hmem, hslot⟩ := he
    refine ⟨Bool.eq_false_iff.2 fun hhit => ?_, hmem⟩
    exact hslot e (List.mem_filter.2 ⟨hmem, hhit⟩) rfl
  case kept =>
    intro e hmem hslot
    rw [hcmp, CmpSt.mem_without]
    refine ⟨hmem, fun x hx => ?_⟩
    obtain ⟨hxmem, hhit⟩ := List.mem_filter.1 hx
    exact (hslot x hxmem hhit).symm
  case count =>
    rw [hmissed, ← List.countP_eq_length_filter]
    rfl
  case cause =>
    intro hany
    obtain ⟨e, hmem, hhit⟩ := List.any_eq_true.1 hany
    exact hcause (List.ne_nil_of_mem (List.mem_filter.2 ⟨hmem, hhit⟩))
  case levels => rw [hcmp]; rfl
  case timers => rw [hcmp]; rfl

end Sys2Proof.Machine
end

section
/-! PROOF. Speed and stillness of a position channel (R351, R353): the end of a speed window, the still timeout, and a counting
step with nothing due at a position. -/

namespace Sys2Proof.Machine

/-! ### Signed registers -/

/-- A signed 32-bit register reads the number written to it. -/
theorem sgn_twos {i : Int} (hlo : -2 ^ 31 ≤ i) (hhi : i < 2 ^ 31) : sgn 32 (twos 32 i % 2 ^ 32) = i := by
  unfold sgn twos
  dsimp only
  split <;> omega
/-- A number within the bounds is held as it is. -/
theorem clampI_eq_self {lo hi i : Int} (hlo : lo ≤ i) (hhi : i ≤ hi) : clampI lo hi i = i := by
  rw [clampI, if_neg (not_lt.2 hlo), if_neg (not_lt.2 hhi)]

/-! ### SPEED_WINDOW (R351) -/

/-- A channel once its speed window has ended: a new window begins, at the last step where the old one held any. -/
def Core.windowEnded (s : Core) (ch : Nat) : Core :=
  let x := s.pc ch
  let s := s.reach (x.winAt + 1000 * s.rd POS_SPD_CFG.WINDOW_US ch)
  s.setPc ch { x with
    winAt := s.etime, winN := 0, winRev := false
    base := if x.winN > 0 then some (s.posCount ch, x.lastStep.getD 0) else x.base }
/-- One step per period, in the channel's direction; 0 before the first period is known. -/
def Core.periodSpeed (s : Core) (ch : Nat) : Int :=
  (if s.rdb POS_STATUS.DIR ch then -1 else 1) * ((10 ^ 9 / s.rd POS_PERIOD.NS ch : Nat) : Int)
theorem Core.periodSpeed_bounds (s : Core) (ch : Nat) : -10 ^ 9 ≤ s.periodSpeed ch ∧ s.periodSpeed ch ≤ 10 ^ 9 := by
  have hle : 10 ^ 9 / s.rd POS_PERIOD.NS ch ≤ 10 ^ 9 := Nat.div_le_self _ _
  unfold Core.periodSpeed
  generalize 10 ^ 9 / s.rd POS_PERIOD.NS ch = v at hle ⊢
  split <;> omega

theorem Core.pc_setPc (s : Core) (ch : Nat) (x : PosCh) : (s.setPc ch x).pc ch = x := mget_mset _ _ _ _
theorem Core.rdb_eq_false {s : Core} {f : Fld} {n : Nat} (h : s.rd f n = 0) : s.rdb f n = false := by
  simp [Core.rdb, h]
theorem Core.rdb_reach (s : Core) (t : Nat) (f : Fld) (n : Nat) : (s.reach t).rdb f n = s.rdb f n := rfl
theorem Core.rdb_eq_true {s : Core} {f : Fld} {n : Nat} (h : s.rd f n ≠ 0) : s.rdb f n = true := by
  simp [Core.rdb, h]

/-- At the end of its window a channel that stands still shows speed 0. -/
theorem doSpeedWindow_of_still {s : Core} {ch : Nat} (hty : s.rd POS_CFG.TYPE ch ≠ 0) (hstill : s.rd POS_STATUS.STILL ch ≠ 0) :
    doSpeedWindow ch s = (s.windowEnded ch).wr POS_SPEED.SPEED 0 ch := by
  have hs : (s.reach ((s.pc ch).winAt + 1000 * s.rd POS_SPD_CFG.WINDOW_US ch)).rdb POS_STATUS.STILL ch = true :=
    Core.rdb_eq_true hstill
  unfold doSpeedWindow
  rw [if_neg hty]
  simp only [hs, or_true, if_true]
  rfl

/-- At the end of its window a moving channel without a base, timed by its last period, shows one step per period. -/
theorem doSpeedWindow_of_period {s : Core} {ch last : Nat} (hty : s.rd POS_CFG.TYPE ch ≠ 0)
    (hstill : s.rd POS_STATUS.STILL ch = 0) (hfault : s.rd POS_STATUS.FAULT ch = 0) (hbase : (s.pc ch).base = none)
    (hlast : (s.pc ch).lastStep = some last) (hperiod : 0 < s.rd POS_PERIOD.NS ch)
    (hsince : max s.etime ((s.pc ch).winAt + 1000 * s.rd POS_SPD_CFG.WINDOW_US ch) ≤ last + s.rd POS_PERIOD.NS ch) :
    doSpeedWindow ch s = (s.windowEnded ch).wr POS_SPEED.SPEED (twos 32 (s.periodSpeed ch)) ch := by
  have hfaulted := Core.rdb_eq_false hfault
  have hmoving := Core.rdb_eq_false hstill
  have hrecent : ¬ (s.reach ((s.pc ch).winAt + 1000 * s.rd POS_SPD_CFG.WINDOW_US ch)).etime - last > s.rd POS_PERIOD.NS ch := by
    simp only [Core.reach]
    omega
  have hclamp : clampI (-(2 ^ 31 - 1)) (2 ^ 31 - 1) (s.periodSpeed ch) = s.periodSpeed ch := by
    obtain ⟨hlo, hhi⟩ := s.periodSpeed_bounds ch
    exact clampI_eq_self (by omega) (by omega)
  rw [Core.periodSpeed] at hclamp
  unfold doSpeedWindow
  rw [if_neg hty]
  simp only [hbase, hlast, Core.rd_reach, Core.rdb_reach, Core.faulted, hfaulted, hmoving, Option.getD_some, hrecent,
    Bool.false_eq_true, or_self, and_false, if_false, hperiod.ne', ne_eq, not_false_eq_true, if_true, Core.windowEnded,
    Core.periodSpeed]
  exact congrArg (fun v => Core.wr _ POS_SPEED.SPEED (twos 32 v) ch) hclamp

/-- What the end of a window leaves, whatever speed `v` it shows. -/
theorem speedWindow_answers {ch : Fin 8} {s : State} {v : Nat} (hb : s.field.core.bootState ≠ 1)
    (h : doSpeedWindow ch.val s.field.core = (s.field.core.windowEnded ch.val).wr POS_SPEED.SPEED v ch.val) :
    Answers (.speedWindow ch) s fun t =>
      t.field.core.rd POS_SPEED.SPEED ch.val = v % 2 ^ 32 ∧ (t.field.core.pc ch.val).winN = 0 ∧
      t.field.core.etime =
        max s.field.core.etime ((s.field.core.pc ch.val).winAt + 1000 * s.field.core.rd POS_SPD_CFG.WINDOW_US ch.val) ∧
      SameRegs [POS_SPEED.SPEED.key ch.val] s.field.core t.field.core ∧ CoreOnly s t := by
  refine answers_of_onRunning rfl hb ⟨?speed, ?window, ?time, ?regs, CoreOnly.onCore s _⟩
  all_goals
    simp only [State.onCore, Field.onCore]
    rw [h]
  case speed => exact Core.rd_wr _ POS_SPEED.SPEED v ch.val
  case window => exact congrArg PosCh.winN (Core.pc_setPc _ ch.val _)
  case time => rfl
  case regs =>
    intro f n hn
    exact Core.rd_wr_ne _ _ _ _ _ _ fun e => hn (List.mem_singleton.2 e)

/-! ### STILL_TIMEOUT (R353) -/

theorem stillTimeout_answers {ch : Fin 8} {s : State} (hb : s.field.core.bootState ≠ 1)
    (hstill : s.field.core.rd POS_STATUS.STILL ch.val = 0) :
    Answers (.stillTimeout ch) s fun t =>
      t.field.core.rd POS_STATUS.STILL ch.val = 1 ∧ t.field.core.rd POS_SPEED.SPEED ch.val = 0 ∧
      t.field.core.etime = max s.field.core.etime
        (((s.field.core.pc ch.val).lastStep.getD 0) + 1000000 * s.field.core.rd POS_SPD_CFG.STILL_MS ch.val) ∧
      SameRegs [POS_STATUS.STILL.key ch.val, POS_SPEED.SPEED.key ch.val, SPG_STATUS.MOVING.key 0]
        s.field.core t.field.core ∧ CoreOnly s t := by
  have hkeys : ∀ c : Fin 8, POS_STATUS.STILL.key c.val ≠ SPG_STATUS.MOVING.key 0 ∧
      POS_STATUS.STILL.key c.val ≠ POS_SPEED.SPEED.key c.val ∧ POS_SPEED.SPEED.key c.val ≠ SPG_STATUS.MOVING.key 0 := by decide
  obtain ⟨hmoving, hspeed, hspeedMoving⟩ := hkeys ch
  refine answers_of_onRunning rfl hb ⟨?still, ?speed, ?time, ?regs, CoreOnly.onCore s _⟩
  all_goals
    simp only [State.onCore, Field.onCore, doStillTimeout, Core.rdb_eq_false hstill, Bool.false_eq_true, if_false]
  case still => rw [Core.rd_wr_ne _ _ _ _ _ _ hmoving, Core.rd_wr_ne _ _ _ _ _ _ hspeed, Core.rd_wr]; rfl
  case speed => rw [Core.rd_wr_ne _ _ _ _ _ _ hspeedMoving, Core.rd_wr]; rfl
  case time => rfl
  case regs =>
    intro f n hn
    simp only [List.mem_cons, List.not_mem_nil, or_false, not_or] at hn
    obtain ⟨h1, h2, h3⟩ := hn
    rw [Core.rd_wr_ne _ _ _ _ _ _ h3, Core.rd_wr_ne _ _ _ _ _ _ h2, Core.rd_wr_ne _ _ _ _ _ _ h1, Core.rd_reach]

/-! ### What a counting step leaves (R346, R352, R359, R365) -/

/-- The registers a counting step may change beside STILL: the channel's count, direction and period, the web count, MOVING,
and the counts of repeater counts and of events lost. -/
def stepKeys (ch : Nat) : List Nat :=
  [POS_COUNT_LO.COUNT.key ch, POS_COUNT_HI.COUNT.key ch, POS_STATUS.DIR.key ch, POS_PERIOD.NS.key ch,
   POS_WEB_COUNT_LO.COUNT.key 0, POS_WEB_COUNT_HI.COUNT.key 0, SPG_STATUS.MOVING.key 0, ER_OVR_CNT.ER0.key 0,
   ER_OVR_CNT.ER1.key 0, LOG_EVT_OVWR_CNT.COUNT.key 0]
/-- Between `a` and `b` part of a counting step of a channel lies: other registers, the compare pool and the defect markers
stay. -/
structure StepPart (ch : Nat) (a b : Core) : Prop where
  regs : SameRegs (stepKeys ch) a b
  cmp : b.pos.cmp = a.pos.cmp
  markers : b.spg.markers = a.spg.markers

theorem still_not_stepKey (ch : Fin 8) : POS_STATUS.STILL.key ch.val ∉ stepKeys ch.val := by
  revert ch
  decide

section
variable {ch : Nat} {a b c : Core}

theorem StepPart.refl : StepPart ch a a := ⟨fun _ _ _ => rfl, rfl, rfl⟩
theorem StepPart.trans (hab : StepPart ch a b) (hbc : StepPart ch b c) : StepPart ch a c :=
  ⟨fun f n h => (hbc.regs f n h).trans (hab.regs f n h), hbc.cmp.trans hab.cmp, hbc.markers.trans hab.markers⟩
theorem StepPart.wr (f : Fld) (v n : Nat) (hk : f.key n ∈ stepKeys ch) : StepPart ch a (a.wr f v n) :=
  ⟨fun _ _ h => Core.rd_wr_ne _ _ _ _ _ _ fun e => h (e ▸ hk), rfl, rfl⟩
theorem StepPart.setPc (k : Nat) (x : PosCh) : StepPart ch a (a.setPc k x) := ⟨fun _ _ _ => rfl, rfl, rfl⟩
theorem StepPart.setEr (e : Nat) (x : ErSt) : StepPart ch a (a.setEr e x) := ⟨fun _ _ _ => rfl, rfl, rfl⟩
theorem StepPart.emit (code data tag : Nat) : StepPart ch a (a.emit code data tag) :=
  ⟨fun _ _ h => Core.rd_emit_ne _ _ _ _ _ _ fun e => h (e ▸ by simp [stepKeys]), by rw [Core.emit_pos], by rw [Core.emit_spg]⟩
theorem StepPart.setCount (v : Int) : StepPart ch a (a.setCount ch v) :=
  (StepPart.wr _ _ _ (by simp [stepKeys])).trans (StepPart.wr _ _ _ (by simp [stepKeys]))

theorem StepPart.erLevel (e : Nat) : StepPart ch a (a.erLevel e) := by
  unfold Core.erLevel
  dsimp only
  split <;> exact StepPart.setEr _ _
theorem StepPart.erLevels : StepPart ch a a.erLevels := (StepPart.erLevel 0).trans (StepPart.erLevel 1)
theorem StepPart.erDrain (e : Nat) : StepPart ch a (a.erDrain e) := by
  unfold Core.erDrain
  dsimp only
  split
  · exact StepPart.setEr _ _
  · split
    · exact StepPart.refl
    · exact StepPart.setEr _ _
theorem StepPart.erCounts (e : Nat) (d : Int) : StepPart ch a (a.erCounts e d) := by
  unfold Core.erCounts
  dsimp only
  split
  · exact StepPart.refl
  · have hbuffer : ∀ x : ErSt, StepPart ch a (((a.erDrain e).setEr e x).erDrain e) := fun x =>
      ((StepPart.erDrain e).trans (StepPart.setEr e x)).trans (StepPart.erDrain e)
    split
    · exact hbuffer _
    · refine (hbuffer _).trans ((StepPart.wr _ _ _ ?_).trans (StepPart.emit _ _ _))
      split <;> simp [stepKeys]
theorem StepPart.erFeed (src : Nat) (d : Int) : StepPart ch a (a.erFeed src d) := by
  have hone : ∀ (x : Core) (e : Nat), StepPart ch x (if x.rd ER_CFG.SRC e = src then x.erCounts e d else x) := fun x e => by
    split
    · exact StepPart.erCounts e d
    · exact StepPart.refl
  unfold Core.erFeed
  split
  · exact StepPart.refl
  · exact (hone a 0).trans (hone _ 1)
theorem StepPart.writeWeb (v : Int) : StepPart ch a (a.writeWeb v) :=
  ((StepPart.wr _ _ _ (by simp [stepKeys])).trans (StepPart.wr _ _ _ (by simp [stepKeys]))).trans (StepPart.erFeed 2 _)
theorem StepPart.pc1Web (d : Int) : StepPart ch a (a.pc1Web d).2 := by
  unfold Core.pc1Web
  dsimp only
  split <;> exact ⟨fun _ _ _ => rfl, rfl, rfl⟩
theorem StepPart.webSteps (d : Int) : StepPart ch a (a.webSteps ch d) := by
  have hlatch : ∀ w : WebSt, StepPart ch a { a with pos := { a.pos with web := w } } := fun _ => ⟨fun _ _ _ => rfl, rfl, rfl⟩
  unfold Core.webSteps
  split
  · exact StepPart.refl
  · extract_lets w latched pos x
    have hx : StepPart ch a x := hlatch latched
    split
    · exact hx
    · split
      · exact hx.trans (StepPart.writeWeb _)
      · exact hx.trans ((StepPart.pc1Web d).trans (StepPart.writeWeb _))
theorem StepPart.stepTiming (d : Int) (t : Nat) : StepPart ch (a.endStill ch) (a.stepTiming ch d t) := by
  unfold Core.stepTiming
  extract_lets x p back timed
  split
  · exact ((StepPart.wr _ _ _ (by simp [stepKeys])).trans (StepPart.wr _ _ _ (by simp [stepKeys]))).trans (StepPart.setPc _ _)
  · refine StepPart.trans ?_ (StepPart.setPc _ _)
    simp only [timed]
    split
    · exact StepPart.wr _ _ _ (by simp [stepKeys])
    · exact StepPart.refl

end

/-! ### The next step clears STILL (R353) -/

/-- A step ends STILL, and what waits on a position goes on waiting. -/
theorem Core.endStill_spec (s : Core) (ch : Nat) :
    (s.endStill ch).rd POS_STATUS.STILL ch = 0 ∧ (s.endStill ch).pos.cmp = s.pos.cmp ∧
      (s.endStill ch).spg.markers = s.spg.markers := by
  have hcleared : (s.wr POS_STATUS.STILL 0 ch).rd POS_STATUS.STILL ch = 0 := (Core.rd_wr _ _ _ _).trans (Nat.zero_mod _)
  unfold Core.endStill
  split
  · next h => exact ⟨by simpa [Core.rdb] using h, rfl, rfl⟩
  · dsimp only
    split <;> exact ⟨hcleared, rfl, rfl⟩

/-- A channel and the web count once a step by `d` is counted, before entries and markers are looked at. -/
def Core.stepCounted (s : Core) (ch : Nat) (d : Int) (t : Nat) : Core :=
  let s := (s.setCount ch (s.posCount ch + d)).stepTiming ch d t
  let s := if ch < 2 then s.erFeed ch d else s
  let s := s.webSteps ch d
  s.wr SPG_STATUS.MOVING (b2n (!s.rdb POS_STATUS.STILL (s.rd POS_WEB_STATUS.SRC)))

/-- Counting a step clears STILL, and what waits on a position goes on waiting. -/
theorem Core.stepCounted_spec (s : Core) (ch : Fin 8) (d : Int) (t : Nat) :
    (s.stepCounted ch.val d t).rd POS_STATUS.STILL ch.val = 0 ∧ (s.stepCounted ch.val d t).pos.cmp = s.pos.cmp ∧
      (s.stepCounted ch.val d t).spg.markers = s.spg.markers := by
  have hcount : StepPart ch.val s (s.setCount ch.val (s.posCount ch.val + d)) := StepPart.setCount _
  obtain ⟨hstill, hcmp, hmarkers⟩ := (s.setCount ch.val (s.posCount ch.val + d)).endStill_spec ch.val
  have hfeed : ∀ x : Core, StepPart ch.val x (if ch.val < 2 then x.erFeed ch.val d else x) := fun x => by
    split
    · exact StepPart.erFeed _ _
    · exact StepPart.refl
  have hrest : StepPart ch.val ((s.setCount ch.val (s.posCount ch.val + d)).endStill ch.val) (s.stepCounted ch.val d t) :=
    (((StepPart.stepTiming d t).trans (hfeed _)).trans (StepPart.webSteps d)).trans (StepPart.wr _ _ _ (by simp [stepKeys]))
  exact ⟨(hrest.regs _ _ (still_not_stepKey ch)).trans hstill, hrest.cmp.trans (hcmp.trans hcount.cmp),
    hrest.markers.trans (hmarkers.trans hcount.markers)⟩

theorem Core.crossed_nil (src m prev : Nat) (d : Int) : crossed [] src m prev d = [] := rfl
theorem Core.fireMarkers_of_none {s : Core} (h : s.spg.markers = []) : s.fireMarkers = s := by
  simp [Core.fireMarkers, h]

/-- A step of a sound channel is counted, then the entries that the channel and the web position cross fire, then markers
(R371). -/
theorem Core.posStepAt_eq {s : Core} {ch : Nat} {d : Int} {t : Nat} (hd : d ≠ 0) (hf : s.faulted ch = false) :
    s.posStepAt ch d t =
      let d := if s.rdb POS_CFG.REVERSE ch then -d else d
      let x := s.stepCounted ch d t
      (x.fireAll false (crossed x.pos.cmp.pool ch (x.srcMod ch) (s.posCount ch) d ++
        crossed x.pos.cmp.pool 8 (2 ^ 38) s.phi (posDiff x.phi s.phi))).fireMarkers := by
  have hcounts : ¬ (d = 0 ∨ s.faulted ch = true) := by simp [hd, hf]
  unfold Core.posStepAt
  rw [if_neg hcounts]
  rfl
/-- With nothing due at a position nothing fires. -/
theorem Core.posStepAt_of_nothingDue {s : Core} {ch : Fin 8} {d : Int} {t : Nat} (hd : d ≠ 0) (hf : s.faulted ch.val = false)
    (hdue : NothingDue s) :
    s.posStepAt ch.val d t = s.stepCounted ch.val (if s.rdb POS_CFG.REVERSE ch.val then -d else d) t := by
  obtain ⟨hpool, hmarkers⟩ := hdue
  obtain ⟨-, hcmp, hkept⟩ := s.stepCounted_spec ch (if s.rdb POS_CFG.REVERSE ch.val then -d else d) t
  rw [Core.posStepAt_eq hd hf]
  dsimp only
  rw [hcmp, hpool, Core.crossed_nil, Core.crossed_nil]
  exact Core.fireMarkers_of_none (hkept.trans hmarkers)

/-- The levels of A and B an edge shows, and the repeaters in PASS with them, before it is judged as a step. -/
def Core.edgeSeen (s : Core) (ch : Nat) (a b : Bool) : Core :=
  (s.setPc ch { s.pc ch with a := a, b := b, inA := a, inB := b }).erLevels
theorem StepPart.edgeSeen (s : Core) (ch : Nat) (a b : Bool) : StepPart ch s (s.edgeSeen ch a b) :=
  (StepPart.setPc _ _).trans StepPart.erLevels
theorem edgeSeen_keys (ch : Fin 8) :
    POS_CFG.TYPE.key ch.val ∉ stepKeys ch.val ∧ POS_STATUS.FAULT.key ch.val ∉ stepKeys ch.val := by
  revert ch
  decide
/-- A change of A alone, held for the filter's width, counts by one on a quadrature channel. -/
theorem doQuadEdge_of_a {s : Core} {ch : Fin 8} {held : Nat} {a b : Bool} (hty : s.rd POS_CFG.TYPE ch.val = 1)
    (hheld : filtNs (s.rd POS_CFG.FILT ch.val) ≤ held) (ha : (s.pc ch.val).a ≠ a) (hb : (s.pc ch.val).b = b) :
    doQuadEdge ch.val a b held none s = (s.edgeSeen ch.val a b).posStep ch.val (if a != b then 1 else -1) := by
  have hquad : ¬ (s.edgeSeen ch.val a b).rd POS_CFG.TYPE ch.val ≠ 1 :=
    not_not.2 (((StepPart.edgeSeen s ch.val a b).regs _ _ (edgeSeen_keys ch).1).trans hty)
  have hone : ¬ ((s.pc ch.val).a ≠ a ∧ (s.pc ch.val).b ≠ b) := fun h => h.2 hb
  unfold doQuadEdge
  simp only [hheld, decide_true, if_true, Bool.not_true, Bool.false_eq_true, if_false]
  exact (if_neg hquad).trans ((if_neg hone).trans (if_pos ha))

theorem quadEdge_clears_still {ch : Fin 8} {a b : Bool} {held : Byte} {s : State} (hboot : s.field.core.bootState ≠ 1)
    (hty : s.field.core.rd POS_CFG.TYPE ch.val = 1) (hdue : NothingDue s.field.core)
    (hfault : s.field.core.rd POS_STATUS.FAULT ch.val = 0) (hheld : filtNs (s.field.core.rd POS_CFG.FILT ch.val) ≤ held.toNat)
    (ha : (s.field.core.pc ch.val).a ≠ a) (hb : (s.field.core.pc ch.val).b = b) :
    Answers (.quadEdge ch a b ⟨held, none⟩) s fun t => t.field.core.rd POS_STATUS.STILL ch.val = 0 := by
  have hseen := StepPart.edgeSeen s.field.core ch.val a b
  have hsound : (s.field.core.edgeSeen ch.val a b).faulted ch.val = false :=
    Core.rdb_eq_false ((hseen.regs _ _ (edgeSeen_keys ch).2).trans hfault)
  obtain ⟨hpool, hmarkers⟩ := hdue
  have hdue' : NothingDue (s.field.core.edgeSeen ch.val a b) := ⟨by rw [hseen.cmp, hpool], hseen.markers.trans hmarkers⟩
  refine answers_of_onRunning rfl hboot ?_
  simp only [State.onCore, Field.onCore, Option.map_none]
  rw [doQuadEdge_of_a hty hheld ha hb, Core.posStep, Core.posStepAt_of_nothingDue (by split <;> decide) hsound hdue']
  exact (Core.stepCounted_spec _ ch _ _).1

/-! ### A moving source (R353) -/

/-- A sound channel moves for the compare pool while STILL is 0. -/
theorem Core.srcMoving_of_sound {s : Core} {ch : Nat} (hch : ch ≠ 8) (hfault : s.rd POS_STATUS.FAULT ch = 0) :
    s.srcMoving ch = decide (s.rd POS_STATUS.STILL ch = 0) := by
  simp only [Core.srcMoving, Core.srcChan, hch, if_false, Core.rdb_eq_false hfault, Bool.or_false]
  by_cases hstill : s.rd POS_STATUS.STILL ch = 0
  · simp [Core.rdb_eq_false hstill, hstill]
  · simp [Core.rdb_eq_true hstill, hstill]

/-- Settles O33: the ends of a window and of STILL_MS as what they write, the next step through what each part of it leaves. -/
theorem speedFollowsPeriodAndStill : Obligations.SpeedFollowsPeriodAndStill := by
  unfold Obligations.SpeedFollowsPeriodAndStill
  intro ch s hboot hty
  have htype : s.field.core.rd POS_CFG.TYPE ch.val ≠ 0 := by rw [hty]; decide
  refine ⟨fun hstill => ?_, fun last hstill hfault hbase hlast hperiod hsince => ?_,
    fun hstill => stillTimeout_answers hboot hstill,
    fun a b held hdue hfault hheld ha hb => quadEdge_clears_still hboot hty hdue hfault hheld ha hb,
    fun hfault => Core.srcMoving_of_sound ch.isLt.ne hfault⟩
  · exact speedWindow_answers hboot (doSpeedWindow_of_still htype (by rw [hstill]; decide))
  · obtain ⟨t, ht, hspeed, -, -, hregs, hcore⟩ :=
      speedWindow_answers hboot (doSpeedWindow_of_period htype hstill hfault hbase hlast hperiod hsince)
    obtain ⟨hlo, hhi⟩ := s.field.core.periodSpeed_bounds ch.val
    refine ⟨t, ht, ?_, hregs, hcore⟩
    rw [Core.rds, hspeed]
    refine (sgn_twos (by omega) (by omega)).trans ?_
    simp [Core.periodSpeed, Core.rdb, ite_not]

end Sys2Proof.Machine
end

section
/-! PROOF. The queue and the whole machine: the step, and that every row leaves the queue alone and keeps DRAM in its canonical
form. The rows are followed through the layers that touch DRAM: the decoder, the error handling and the display on the field
side, then commands, flits and the chirp. -/

namespace Sys2Proof.Machine

set_option Elab.async false

/-- Settles O1: the step takes the front of the queue by definition. -/
theorem stepRunsFrontCommand : Obligations.StepRunsFrontCommand := by
  unfold Obligations.StepRunsFrontCommand
  intro i rest s h
  rw [step, h]

/-- Settles O2: the idle step is one nanosecond of `State.onRunning`. -/
theorem emptyQueuePassesOneNanosecond : Obligations.EmptyQueuePassesOneNanosecond := by
  unfold Obligations.EmptyQueuePassesOneNanosecond
  intro s h
  have hstep : step s = .next s.idle := by rw [step, h]
  constructor
  · intro hb
    rw [hstep, State.idle, State.onRunning, if_pos hb]
  · intro hb
    rw [hstep, State.idle, State.onRunning, if_neg hb]
    rfl

/-- Settles O5: nothing is listed at reset. -/
theorem resetMemoryCanonical : Obligations.ResetMemoryCanonical := Dram.empty_wf [] []

/-! ### What the field side's functions do to the canonical form of DRAM -/

/-- From `f` to `g` the canonical form of DRAM is kept. -/
def Field.Keeps (f g : Field) : Prop := f.dram.wf → g.dram.wf

theorem Field.Keeps.refl (f : Field) : f.Keeps f := id
theorem Field.Keeps.trans {f g h : Field} (hfg : f.Keeps g) (hgh : g.Keeps h) : f.Keeps h := hgh ∘ hfg
/-- A function that leaves DRAM as it was keeps its form. -/
theorem Field.Keeps.of_eq {f g : Field} (h : g.dram = f.dram) : f.Keeps g := fun hf => h ▸ hf
theorem Field.Keeps.onCore (f : Field) (k : Core → Core) : f.Keeps (f.onCore k) := id
/-- A fold of functions that keep the form keeps it. -/
theorem Field.Keeps.foldl {α : Type} {k : Field → α → Field} (hk : ∀ f a, Field.Keeps f (k f a)) (l : List α) (f : Field) :
    f.Keeps (l.foldl k f) := by
  induction l generalizing f with
  | nil => exact .refl f
  | cons a l ih => exact (hk f a).trans (ih _)
/-- A fold over memory alone keeps the form where each step does. -/
theorem Dram.foldl_wf {α : Type} {k : Dram → α → Dram} (hk : ∀ m a, Dram.wf m → Dram.wf (k m a)) (l : List α) {m : Dram}
    (h : m.wf) : Dram.wf (l.foldl k m) := by
  induction l generalizing m with
  | nil => exact h
  | cons a l ih => exact ih (hk m a h)
theorem Dram.mark_wf {m : Dram} (w : Nat) (h : m.wf) : (m.mark w).wf := by
  unfold Dram.mark
  split <;> exact h

/-! #### The decoder (spec/06_raster_ingest_and_coding.md) -/

theorem storeTiles_keeps (jb : JobBar) (n i : Nat) (bs : Bytes) (f : Field) : f.Keeps (storeTiles jb n i bs f).2 := by
  induction n generalizing i bs f with
  | zero => exact .refl f
  | succ n ih =>
    unfold storeTiles
    split
    · exact .refl f
    · refine Field.Keeps.trans ?_ (ih _ _ _)
      exact fun h => Dram.write_wf _ _ h
theorem loadBlock_keeps (f : Field) (ld : Load) (bad : Bool) : f.Keeps (loadBlock f ld bad) := by
  intro h
  unfold loadBlock
  dsimp only
  split
  · split
    · split <;> exact h
    · split
      · exact h
      · split
        · split
          · exact h
          · split <;> exact h
        · split
          · exact h
          · split
            · split <;> exact h
            · split
              · exact h
              · split
                · exact h
                · split
                  · exact h
                  · exact storeTiles_keeps _ _ _ _ _ h
  · exact h
theorem saveHist_wf {m : Dram} (slot : Nat) (st : SkStream) (h : m.wf) : (saveHist m slot st).wf :=
  Dram.write_wf _ _ (Dram.write_wf _ _ h)
theorem swapHistory_keeps (f : Field) (id b : Nat) (r : Ring) : f.Keeps (swapHistory f id r b) := by
  intro h
  unfold swapHistory
  dsimp only
  split
  · exact h
  · split
    · exact h
    · split
      · exact saveHist_wf _ _ h
      · exact h
theorem ringWrite_keeps (f : Field) (j : Job) (r : Ring) (jb : JobBar) (st : SkStream) (b : SkBlock) (bad : Bool) :
    f.Keeps (ringWrite f j r jb st b bad) := by
  intro h
  unfold ringWrite
  dsimp only
  split <;> exact storeTiles_keeps _ _ _ _ _ h
theorem ringBlock_keeps (f : Field) (j : Job) (r : Ring) (bad : Bool) : f.Keeps (ringBlock f j r bad) := by
  intro h
  have hswap := swapHistory_keeps f j.id (skBlock r.bytes).bar r h
  unfold ringBlock
  extract_lets b fatal f'
  split
  · split
    · exact h
    · split
      · exact h
      · split
        · exact h
        · extract_lets st'
          split
          · exact hswap
          · split
            · exact hswap
            · exact ringWrite_keeps _ _ _ _ _ _ _ hswap
  · exact h
theorem doSkelreBlockDecode_keeps (bad : Option Nat) (f : Field) : f.Keeps (doSkelreBlockDecode bad f) := by
  intro h
  unfold doSkelreBlockDecode
  extract_lets spoil
  have hspoil : (spoil f).dram.wf := by
    cases bad <;> exact h
  split
  · split
    · exact h
    · exact ringBlock_keeps _ _ _ _ hspoil
  · split
    · exact h
    · split
      · exact h
      · exact loadBlock_keeps _ _ _ hspoil
theorem ringAppend_keeps (c : Call) (id offset : Nat) (f : Field) : f.Keeps (ringAppend c id offset f).2 := by
  unfold ringAppend
  dsimp only
  repeat' split
  all_goals exact fun h => h
theorem loadData_keeps (c : Call) (id bar offset : Nat) (f : Field) : f.Keeps (loadData c id bar offset f).2 := by
  unfold loadData
  dsimp only
  repeat' split
  all_goals exact fun h => h

/-! #### The pipeline, errors, retraining, scrubbing and row copies (spec/11 and spec/13) -/

theorem doIspLineProcess_keeps (bad : Option Nat) (f : Field) : f.Keeps (doIspLineProcess bad f) := by
  intro h
  unfold doIspLineProcess
  dsimp only
  split
  · exact h
  · split
    · exact h
    · exact Dram.write_wf _ _ h
theorem readError_keeps (f : Field) (word r : Nat) (kind : DramErr) (cls : Nat) : f.Keeps (readError f word r kind cls) := by
  intro h
  unfold readError
  dsimp only
  split
  · exact h
  · split
    case h_1 bad =>
      split
      · exact h
      · split
        · dsimp only
          split
          · exact h
          · exact Dram.puts_wf _ _ h
        · split
          · exact h
          · exact Dram.mark_wf _ h
    all_goals first | exact h | exact Dram.mark_wf _ h
theorem refetch_keeps (cls cp off : Nat) (chs bad : List Nat) (f : Field) : f.Keeps (refetch cls cp off chs bad f) := by
  induction chs generalizing bad f with
  | nil => exact .refl f
  | cons ch chs ih =>
    unfold refetch
    dsimp only
    split
    · exact fun h => ih _ _ h
    · intro h
      refine Field.Keeps.foldl (fun g b hg => ?_) bad _ h
      exact Dram.write_wf _ _ hg
theorem doDramReadError_keeps (word r : Nat) (kind : DramErr) (cls : Nat) (f : Field) :
    f.Keeps (doDramReadError word r kind cls f) := by
  intro h
  unfold doDramReadError
  dsimp only
  split
  · exact h
  · split
    · exact refetch_keeps _ _ _ _ _ _ (readError_keeps _ _ _ _ _ h)
    · exact readError_keeps _ _ _ _ _ h
theorem doChannelRetrain_keeps (ch result ms : Nat) (failed : List Nat) (f : Field) :
    f.Keeps (doChannelRetrain ch result ms failed f) := by
  intro h
  unfold doChannelRetrain
  extract_lets s
  split
  · exact h
  · split
    · exact Dram.foldl_wf (fun m c hm => Dram.free_wf _ _ hm) _ h
    · exact h
/-- A new address space is canonical whatever it keeps of the old one. -/
theorem keepCopies_wf (old new : Core) (m : Dram) : (keepCopies old new m).wf := by
  unfold keepCopies
  refine Dram.foldl_wf (fun m c hm => ?_) _ (Dram.empty_wf [] [])
  split
  · exact Dram.put_wf _ _ hm
  · exact hm
theorem doChannelReform_keeps (f : Field) : f.Keeps (doChannelReform f) := by
  intro h
  unfold doChannelReform
  dsimp only
  split
  · exact h
  · exact keepCopies_wf _ _ _
/-- Of two fields that keep the form, either does. -/
theorem ite_wf {p : Prop} [Decidable p] {f g : Field} (hf : f.dram.wf) (hg : g.dram.wf) : (if p then f else g).dram.wf := by
  split
  · exact hf
  · exact hg
theorem doScrubRead_keeps (err : Option DramErr) (f : Field) : f.Keeps (doScrubRead err f) := by
  intro h
  unfold doScrubRead
  extract_lets s word
  cases s.pageAt (word / 64)
  dsimp -zeta only
  extract_lets st
  split
  · exact h
  · split
    · exact h
    · cases err with
      | some k => exact ite_wf h (readError_keeps _ _ _ _ _ h)
      | none => exact ite_wf h (ite_wf h (readError_keeps _ _ _ _ _ h))
theorem doMigrationRowCopy_keeps (bad : List Nat) (targetBad : Bool) (f : Field) :
    f.Keeps (doMigrationRowCopy bad targetBad f) := by
  intro h
  unfold doMigrationRowCopy
  split
  · exact h
  · extract_lets s row slot cp base
    split
    · exact h
    · split
      · exact h
      · rename_i t f' _ _ _
        have hcopy : Field.Keeps ⟨t, f.dram⟩ f' := by
          unfold f'
          refine Field.Keeps.foldl ?_ _ _
          intro g i hg
          exact ite_wf hg (ite_wf (Dram.mark_wf _ hg) hg)
        clear_value f'
        exact hcopy h

/-! #### Images and start-up (spec/03_startup_and_images.md) -/

theorem loadRegion_wf (s : Core) (core : Nat) (d : Bytes) {m : Dram} (h : m.wf) : (loadRegion s core d m).wf :=
  Dram.foldl_wf (fun _ _ hm => Dram.foldl_wf (fun _ _ hn => Dram.write_wf _ _ hn) _ hm) _ h
theorem loadCore_keeps (f : Field) (core slot : Nat) (bad : Nat → Bool) : f.Keeps (loadCore f core slot bad).2 := by
  intro h
  unfold loadCore
  dsimp only
  split
  · exact loadRegion_wf _ _ _ h
  · split
    · exact loadRegion_wf _ _ _ h
    · exact h
theorem startUp_keeps (b : BootIn) (lanes : Nat × Nat) (f : Field) : f.Keeps (startUp b lanes f) := by
  intro h
  unfold startUp
  extract_lets s fail s1 s2 s3
  split
  · exact h
  · split
    · exact h
    · have load : ∀ (x : Bool) (g : Field) core slot bad, g.dram.wf → (if x then loadCore g core slot bad else (false, g)).2.dram.wf := by
        intro x g core slot bad hg
        cases x
        · exact hg
        · exact loadCore_keeps _ _ _ _ hg
      exact ite_wf (load _ _ _ _ _ (load _ _ _ _ _ h)) (load _ _ _ _ _ (load _ _ _ _ _ h))
theorem doMoltPupaBooted_keeps (selfTest : Bool) (bad : List Nat) (f : Field) : f.Keeps (doMoltPupaBooted selfTest bad f) := by
  intro h
  unfold doMoltPupaBooted
  dsimp only
  split
  · exact h
  · split
    · exact h
    · split
      · exact h
      · split
        · exact loadRegion_wf _ _ _ h
        · exact loadCore_keeps ⟨_, f.dram⟩ _ _ _ h
theorem doFailedCoreRelease_keeps (selfTest : Bool) (bad : List Nat) (f : Field) :
    f.Keeps (doFailedCoreRelease selfTest bad f) := by
  intro h
  unfold doFailedCoreRelease
  split
  · exact h
  · dsimp only
    split
    · exact h
    · split
      · exact h
      · exact loadCore_keeps ⟨_, f.dram⟩ _ _ _ h

/-! #### The display (spec/15_operator_display.md) -/

theorem freeCommit_keeps (c : DspCommit) (f : Field) : f.Keeps (freeCommit c f) := fun h => Dram.free_wf _ _ h
theorem dspBegin_keeps (g : DspCfg) (f : Field) : f.Keeps (dspBegin g f) :=
  Field.Keeps.foldl (k := fun f c => freeCommit c (f.onCore fun s => s.commitDone c false true))
    (fun _ c hf => freeCommit_keeps c _ hf) _ f
theorem dspWaiting_keeps (f : Field) : f.Keeps (dspWaiting f) := by
  intro h
  unfold dspWaiting
  split
  · exact dspBegin_keeps _ _ h
  · exact h
theorem dspSteps_keeps (f : Field) : f.Keeps (dspSteps f) := fun h => dspWaiting_keeps _ h
theorem dspConfig_keeps (c : Call) (id width height mbps : Nat) (answer : Option Nat) (f : Field) :
    f.Keeps (dspConfig c id width height mbps answer f).2 := by
  intro h
  unfold dspConfig
  dsimp only
  split
  · exact h
  · split
    · exact h
    · split
      · exact h
      · exact dspWaiting_keeps _ h
theorem dspCommit_keeps (c : Call) (regions : Nat) (f : Field) : f.Keeps (dspCommit c regions f).2 := by
  intro h
  unfold dspCommit
  dsimp only
  repeat' split
  all_goals first | exact h | exact Dram.write_wf _ _ h
theorem doDspPushEnd_keeps (repeated : Nat) (parity : Option Nat) (f : Field) : f.Keeps (doDspPushEnd repeated parity f) := by
  intro h
  unfold doDspPushEnd
  split
  · exact h
  · dsimp only
    exact dspWaiting_keeps _ (Dram.free_wf _ _ h)

/-! ### The queue and DRAM from state to state -/

/-- From `s` to `t` the queue stays and the canonical form of DRAM is kept. -/
def State.Keeps (s t : State) : Prop := t.pending = s.pending ∧ s.field.Keeps t.field

theorem State.Keeps.refl (s : State) : s.Keeps s := ⟨rfl, .refl _⟩
theorem State.Keeps.trans {s t u : State} (hst : s.Keeps t) (htu : t.Keeps u) : s.Keeps u :=
  ⟨htu.1.trans hst.1, hst.2.trans htu.2⟩
/-- A step that works on the host side or on the field side's records alone. -/
theorem State.Keeps.of_eq {s t : State} (hp : t.pending = s.pending) (hd : t.field.dram = s.field.dram) : s.Keeps t :=
  ⟨hp, .of_eq hd⟩
theorem State.Keeps.onCore (s : State) (g : Core → Core) : s.Keeps (s.onCore g) := .of_eq rfl rfl
theorem State.Keeps.onHost (s : State) (g : HostSide → HostSide) : s.Keeps (s.onHost g) := .of_eq rfl rfl
theorem State.Keeps.syncHost (s : State) : s.Keeps s.syncHost := .of_eq rfl rfl
theorem State.Keeps.syncInFlight (s : State) : s.Keeps s.syncInFlight := .of_eq rfl rfl
theorem State.Keeps.onField {s : State} {f : Field} (h : s.field.Keeps f) : s.Keeps { s with field := f } := ⟨rfl, h⟩
theorem State.Keeps.ite {p : Prop} [Decidable p] {s t u : State} (ht : s.Keeps t) (hu : s.Keeps u) :
    s.Keeps (if p then t else u) := by
  split
  · exact ht
  · exact hu
theorem State.Keeps.onRunning (s : State) (g : Core → Core) : s.Keeps (s.onRunning g) := by
  unfold State.onRunning
  split
  · exact .refl s
  · exact .onCore s g
theorem State.Keeps.onRunningField (s : State) {g : Field → Field} (h : s.field.Keeps (g s.field)) :
    s.Keeps (s.onRunningField g) := by
  unfold State.onRunningField
  split
  · exact .refl s
  · exact .onField h
theorem State.Keeps.onPowered (s : State) (g : HostSide → HostSide) : s.Keeps (s.onPowered g) := by
  unfold State.onPowered
  split
  · exact .onHost s g
  · exact .refl s
theorem State.Keeps.foldl {α : Type} {k : State → α → State} (hk : ∀ s a, State.Keeps s (k s a)) (l : List α) (s : State) :
    s.Keeps (l.foldl k s) := by
  induction l generalizing s with
  | nil => exact .refl s
  | cons a l ih => exact (hk s a).trans (ih _)

/-! ### Commands -/

/-- The body of a command keeps the canonical form. -/
def Cmd.Keeps (k : Cmd) : Prop := ∀ f : Field, f.Keeps (k.body f).2

theorem Cmd.Keeps.lift {k : Cmd} {g : Core → Reply × Core} (h : k.body = liftBody g) : k.Keeps := fun f => by
  rw [h]; exact .of_eq rfl
theorem cmdAccess_keeps (c : Call) (f : Fld) (n : Nat) (w : Option Word) : (cmdAccess c f n w).Keeps := by
  cases w <;> exact .lift rfl
theorem cmdJobLoadData_keeps (c : Call) (id bar offset : Nat) : (cmdJobLoadData c id bar offset).Keeps := by
  intro f
  unfold cmdJobLoadData
  dsimp only
  split
  · exact ringAppend_keeps _ _ _ _
  · exact loadData_keeps _ _ _ _ _
/-- Every row that is a command has a body that keeps the form. -/
theorem cmdOf_keeps {g : Call → Call} {i : Instr} {k : Cmd} (h : cmdOf g i = some k) : k.Keeps := by
  cases i <;> simp only [cmdOf, Option.some.injEq, reduceCtorEq] at h <;> subst h
  case jobLoadData => exact cmdJobLoadData_keeps _ _ _ _
  case jobRingAppend => exact cmdJobLoadData_keeps _ _ _ _
  case dspConfig => exact fun f => dspConfig_keeps _ _ _ _ _ _ f
  case dspCommit => exact fun f => dspCommit_keeps _ _ f
  all_goals first | exact cmdAccess_keeps _ _ _ _ | exact .lift rfl

theorem Cmd.finish_keeps (k : Cmd) (again : Option Instr) (r : Reply) (s : State) : s.Keeps (k.finish again r s) := by
  cases r with
  | wait =>
    simp only [Cmd.finish]
    split
    · exact .of_eq rfl rfl
    · exact .of_eq rfl rfl
  | later => exact .refl s
  | data bs last => exact .of_eq rfl rfl
  | ok r => exact .of_eq rfl rfl
  | accepted op => exact .of_eq rfl rfl
  | err st d off v => exact .of_eq rfl rfl
theorem Cmd.noted_keeps (k : Cmd) (r : Reply × Field) : r.2.Keeps (k.noted r).2 := by
  unfold Cmd.noted
  repeat' split
  all_goals exact id
/-- A command's body runs and its answer is dealt with. -/
theorem Cmd.body_keeps {k : Cmd} (hk : k.Keeps) (again : Option Instr) (s : State) :
    s.Keeps (k.finish again (k.noted (k.body s.field)).1 { s with field := (k.noted (k.body s.field)).2 }) :=
  (State.Keeps.onField ((hk s.field).trans (k.noted_keeps _))).trans (k.finish_keeps _ _ _)
theorem Cmd.run_keeps {k : Cmd} (hk : k.Keeps) (again : Option Instr) (dup : Bool) (s : State) :
    s.Keeps (k.run again dup s) := by
  refine (State.Keeps.syncInFlight s).trans ?_
  unfold Cmd.run
  dsimp only
  split
  · exact k.finish_keeps _ _ _
  · exact Cmd.body_keeps hk again s.syncInFlight
theorem Cmd.submit_keeps {k : Cmd} (hk : k.Keeps) (again : Instr) (s : State) : s.Keeps (k.submit again s) := by
  unfold Cmd.submit
  extract_lets c tag
  split
  · split
    · exact .refl s
    · split
      · exact .of_eq rfl rfl
      · have ht : s.Keeps (s.track c.q.val tag c.index.toNat k.op) := .onHost s _
        split
        · exact ht.trans (.onHost _ _)
        · split
          · exact ht.trans (.onCore _ _)
          · exact ht.trans (Cmd.run_keeps hk _ _ _)
  · split
    · exact .refl s
    · split
      · exact .onCore s _
      · split
        · exact .onCore s _
        · exact (State.Keeps.onCore s _).trans (Cmd.run_keeps hk _ _ _)
theorem runEntry_keeps (e : QCmd) (s : State) : s.Keeps (runEntry e s) := by
  unfold runEntry
  extract_lets c i op k
  refine Cmd.run_keeps ?_ i e.dup s
  unfold k
  split
  · rename_i k' hk'
    obtain ⟨j, -, hj⟩ := Option.bind_eq_some_iff.1 hk'
    exact cmdOf_keeps hj
  · split <;> exact fun f => .refl f
theorem runWaiting_keeps (d : DataDesc) (s : State) : s.Keeps (runWaiting d s) := by
  unfold runWaiting
  split
  · exact .refl s
  · split
    · exact .refl s
    · rename_i k hk
      extract_lets ref t r
      exact ((State.Keeps.onCore s _).trans (.syncInFlight t)).trans (Cmd.body_keeps (cmdOf_keeps hk) none t.syncInFlight)
theorem startNext_keeps (p : QCmd → Bool) (s : State) : s.Keeps (startNext p s) := by
  unfold startNext
  split
  · exact .refl s
  · split
    · exact .refl s
    · exact (State.Keeps.onCore s _).trans (runEntry_keeps _ _)
theorem startUrgent_keeps (n : Nat) (s : State) : s.Keeps (startUrgent n s) := by
  induction n generalizing s with
  | zero => exact .refl s
  | succ n ih => exact (startNext_keeps _ s).trans (ih _)
theorem bootFailStart_keeps (n : Nat) (s : State) : s.Keeps (bootFailStart n s) := by
  induction n generalizing s with
  | zero => exact .refl s
  | succ n ih =>
    unfold bootFailStart
    split
    · exact (startNext_keeps _ s).trans (ih _)
    · exact .refl s
theorem startArrived_keeps (s : State) : s.Keeps (startArrived s) :=
  (startUrgent_keeps _ s).trans (bootFailStart_keeps _ _)

/-! ### Rings, flits and the service port -/

theorem doSqEntryFetch_keeps (entry : Bytes) (bulk : Bulk) (fail : DmaFail) (s : State) :
    s.Keeps (doSqEntryFetch entry bulk fail s) := by
  unfold doSqEntryFetch
  split
  · exact .refl s
  · split
    · exact .refl s
    · split
      · exact .onHost s _
      · exact .ite (.of_eq rfl rfl) (.of_eq rfl rfl)
theorem doFieldLostCompletions_keeps (s : State) : s.Keeps (doFieldLostCompletions s) := by
  unfold doFieldLostCompletions
  dsimp only
  split
  · exact .refl s
  · refine (State.Keeps.onHost s _).trans (.foldl (fun t l => ?_) _ _)
    exact .of_eq rfl rfl
theorem doFspFrame_keeps (frame : Bytes) (s : State) : s.Keeps (doFspFrame frame s) := by
  unfold doFspFrame
  split
  · exact .refl s
  · split
    · exact .onCore s _
    · split
      · exact .onCore s _
      · dsimp only
        split
        · exact .onCore s _
        · exact (State.Keeps.onCore s _).trans (runEntry_keeps _ _)
theorem landHost_keeps (s : State) (id off : Nat) (b : Bytes) : s.Keeps (s.landHost id off b) := by
  unfold State.landHost
  split
  · exact .refl s
  · dsimp only
    split
    · split <;> exact .of_eq rfl rfl
    · split <;> exact .of_eq rfl rfl
theorem unqueue_keeps (s : State) (toField : Bool) (b : FlitBody) : s.Keeps (s.unqueue toField b) := by
  cases b <;> cases toField <;> exact .of_eq rfl rfl
theorem transmit_keeps (s : State) (toField : Bool) (b : FlitBody) : s.Keeps (s.transmit toField b) :=
  (unqueue_keeps s toField b).trans (.onCore _ _)
theorem flitAt_keeps {s t : State} {toField : Bool} {seq : Nat} {m : FlitMsg} {f : Flit}
    (h : s.flitAt toField seq m = some (f, t)) : s.Keeps t := by
  unfold State.flitAt at h
  dsimp only at h
  split at h
  · split at h
    · cases h
      exact .refl s
    · cases h
  · split at h
    · cases h
    · split at h
      · split at h
        · cases h
          exact transmit_keeps _ _ _
        · cases h
      · cases h
theorem deliver_keeps (s : State) (toField : Bool) (b : FlitBody) : s.Keeps (s.deliver toField b) := by
  cases b with
  | command e => exact (State.Keeps.onCore s _).trans (startArrived_keeps _)
  | data id off b =>
    cases toField
    · exact landHost_keeps s id off b
    · exact .onCore s _
  | _ => exact .of_eq rfl rfl
theorem recvFlit_keeps (toField : Bool) (f : Flit) (ok par : Bool) (s : State) : s.Keeps (recvFlit toField f ok par s) := by
  unfold recvFlit
  dsimp only
  split
  · exact .onCore s _
  · split
    · split
      · exact .refl s
      · exact .onCore s _
    · exact (State.Keeps.onCore s _).trans (deliver_keeps _ _ _)
theorem recvHeld_keeps (u : HeldUnit) (s : State) : s.Keeps (recvHeld u s) := by
  unfold recvHeld
  split
  · split
    · rename_i hf
      exact (flitAt_keeps hf).trans (recvFlit_keeps _ _ _ _ _)
    · exact .refl s
  · exact .refl s
theorem doElyFlitReceive_keeps (t : Bool) (seq : BitVec 12) (ok par : Bool) (m : FlitMsg) (s : State) :
    s.Keeps (doElyFlitReceive t seq ok par m s) := by
  unfold doElyFlitReceive
  split
  · exact .refl s
  · split
    · exact .refl s
    · rename_i f u hf
      have hu : s.Keeps u := (State.Keeps.onCore s _).trans (flitAt_keeps hf)
      dsimp only
      split
      · exact hu.trans (recvFlit_keeps _ _ _ _ _)
      · have hv : s.Keeps (u.onCore fun _ => (u.field.core.fijUnit (if t = true then 1 else 2) 0).2) := hu.trans (.onCore u _)
        split
        · exact hv
        · exact hv.trans (.onCore _ _)
        · exact hv.trans (.onCore _ _)
        · split
          · exact (hv.trans (.onCore _ _)).trans ((recvFlit_keeps _ _ _ _ _).trans (recvHeld_keeps _ _))
          · split
            · exact hv.trans (.onCore _ _)
            · exact hv.trans (recvFlit_keeps _ _ _ _ _)

/-! ### Data descriptors, lanes, resets and held units -/

theorem doDataDescriptorClose_keeps (id : Nat) (s : State) : s.Keeps (doDataDescriptorClose id s) := by
  unfold doDataDescriptorClose
  split
  · exact .refl s
  · split
    · exact .ite (.refl s) (.of_eq rfl rfl)
    · split
      · refine State.Keeps.trans ?_ ((runWaiting_keeps _ _).trans (startArrived_keeps _))
        exact .ite (.of_eq rfl rfl) (.of_eq rfl rfl)
      · exact .refl s
theorem doHostHeartbeatSend_keeps (s : State) : s.Keeps (doHostHeartbeatSend s) := by
  unfold doHostHeartbeatSend
  split
  · exact .refl s
  · refine ((State.Keeps.onRunning s _).trans (.onHost _ _)).trans (.ite (.onCore _ _) (.refl _))
theorem doHostAlertAssert_keeps (s : State) : s.Keeps (doHostAlertAssert s) := by
  unfold doHostAlertAssert
  split
  · exact .refl s
  · exact (State.Keeps.onRunning s _).trans (.onHost _ _)
theorem restartFlits_keeps (s : State) : s.Keeps s.restartFlits := (State.Keeps.onHost s _).trans (.onCore _ _)
theorem hostRestart_keeps (on : Bool) (s : State) : s.Keeps (hostRestart on s) := by
  exact (((State.Keeps.onHost s _).trans (restartFlits_keeps _)).trans (.onRunning _ _)).trans (.syncHost _)
theorem releaseUnit_keeps (s : State) (u : HeldUnit) : s.Keeps (releaseUnit s u) := by
  unfold releaseUnit
  split
  · exact .onCore s _
  · split
    · exact .onCore s _
    · exact .ite (recvHeld_keeps u s) (.refl s)
    · exact .onCore s _
    · exact .refl s
theorem doFijDelayRelease_keeps (s : State) : s.Keeps (doFijDelayRelease s) := by
  unfold doFijDelayRelease
  split
  · exact .refl s
  · exact ((State.Keeps.onCore s _).trans (.onCore _ _)).trans (.foldl releaseUnit_keeps _ _)
theorem doFieldResetRelease_keeps (b : BootIn) (s : State) : s.Keeps (doFieldResetRelease b s) := by
  unfold doFieldResetRelease
  split
  · exact .refl s
  · exact (State.Keeps.onField (startUp_keeps _ _ _)).trans (.syncHost _)
/-- A field-side reset leaves DRAM empty. -/
theorem fieldReset_dram (cause : Nat) (s : State) : (fieldReset cause s).field.dram = ⟨[], [], []⟩ := by
  unfold fieldReset
  extract_lets c fl fl' t
  exact Eq.refl t.field.dram
theorem fieldReset_keeps (cause : Nat) (s : State) : s.Keeps (fieldReset cause s) :=
  ⟨rfl, fun _ => fieldReset_dram cause s ▸ Dram.empty_wf [] []⟩
theorem doWatchdogBite_keeps (s : State) : s.Keeps (doWatchdogBite s) := .ite (fieldReset_keeps 3 _) (.refl s)
theorem doFieldResetDelayExpiry_keeps (s : State) : s.Keeps (doFieldResetDelayExpiry s) :=
  .ite (fieldReset_keeps 4 s) (.refl s)

/-! ### The chirp and the takeover -/

theorem servoItem_keeps (f : Field) : f.Keeps (servoItem f) := fun h => Dram.spend_wf h
theorem chirpItem_keeps (i : Nat) (s : State) : s.Keeps (chirpItem i s) := by
  unfold chirpItem
  refine .ite (.onCore s _) (.ite ?_ (.ite (.onField (servoItem_keeps _)) (.ite (.onCore s _) (.refl s))))
  exact ((startNext_keeps _ s).trans (startNext_keeps _ _)).trans (startNext_keeps _ _)
theorem doChirp_keeps (i : ChirpIn) (s : State) : s.Keeps (doChirp i s) := by
  unfold doChirp
  split
  · exact .refl s
  · extract_lets t u v w n x
    have hwork : t.Keeps x := ((State.Keeps.onCore t _).trans (.onField (dspSteps_keeps u.field))).trans
      ((startNext_keeps _ v).trans (.foldl (fun t k => chirpItem_keeps k t) _ w))
    exact .ite (.onCore s _) (((State.Keeps.onCore s _).trans hwork).trans (.onCore x _))
theorem doImagoTakeover_keeps (lag : Nat) (bad : List (Nat × Nat)) (s : State) : s.Keeps (doImagoTakeover lag bad s) :=
  .ite (.refl s) ((State.Keeps.onCore s _).trans (startArrived_keeps _))

/-! ### The rows -/

/-- A row that is a command is the submission of its command. -/
theorem exec_command {i : Instr} {k : Cmd} (s : State) (h : cmdOf id i = some k) : exec i s = .next (k.submit i s) := by
  cases i <;> simp only [cmdOf, Option.some.injEq, reduceCtorEq] at h <;> subst h <;> rfl

/-- Every row answers a next state, leaves the queue alone and keeps the canonical form of DRAM. -/
theorem exec_keeps (i : Instr) (s : State) : ∃ t, exec i s = .next t ∧ s.Keeps t := by
  cases hk : cmdOf id i with
  | some k => exact ⟨_, exec_command s hk, Cmd.submit_keeps (cmdOf_keeps hk) i s⟩
  | none =>
    cases i <;> simp only [cmdOf, reduceCtorEq] at hk <;> refine ⟨_, rfl, ?_⟩
    case fieldResetRelease b => exact doFieldResetRelease_keeps b s
    case fieldBrownOut => exact fieldReset_keeps 2 s
    case watchdogBite => exact doWatchdogBite_keeps s
    case fieldResetDelayExpiry => exact doFieldResetDelayExpiry_keeps s
    case moltPupaBooted => exact .onRunningField s (doMoltPupaBooted_keeps _ _ _)
    case failedCoreRelease => exact .onRunningField s (doFailedCoreRelease_keeps _ _ _)
    case chirp inp => exact doChirp_keeps inp s
    case imagoTakeover => exact doImagoTakeover_keeps _ _ s
    case skelreStreamHeader => exact .onRunningField s (.of_eq rfl)
    case skelreBlockDecode => exact .onRunningField s (doSkelreBlockDecode_keeps _ _)
    case lineScreen => exact .onRunningField s fun h => h
    case ispLineProcess => exact .onRunningField s (doIspLineProcess_keeps _ _)
    case dramReadError => exact .onRunningField s (doDramReadError_keeps _ _ _ _ _)
    case scrubRead => exact .onRunningField s (doScrubRead_keeps _ _)
    case migrationRowCopy => exact .onRunningField s (doMigrationRowCopy_keeps _ _ _)
    case channelRetrain => exact .onRunningField s (doChannelRetrain_keeps _ _ _ _ _)
    case channelReform => exact .onRunningField s (doChannelReform_keeps _)
    case dspPushEnd => exact .onRunningField s (doDspPushEnd_keeps _ _ _)
    case sqEntryFetch => exact doSqEntryFetch_keeps _ _ _ s
    case fieldLostCompletions => exact doFieldLostCompletions_keeps s
    case fspFrame frame => exact doFspFrame_keeps frame s
    case elyFlitReceive => exact doElyFlitReceive_keeps _ _ _ _ _ s
    case elyLaneDown => exact (State.Keeps.onRunning s _).trans (.syncHost _)
    case elyRetrainDone => exact .ite ((State.Keeps.onRunning s _).trans (.syncHost _)) (.refl s)
    case hostHeartbeatSend => exact doHostHeartbeatSend_keeps s
    case hostAlertAssert => exact doHostAlertAssert_keeps s
    case dataDescriptorClose d => exact doDataDescriptorClose_keeps d s
    case hostSideReset => exact .ite (hostRestart_keeps true s) (.refl s)
    case hostSupplyChange on => exact .ite (.refl s) (hostRestart_keeps on s)
    case fijDelayRelease => exact doFijDelayRelease_keeps s
    case sqTailDoorbell | cqHeadDoorbell | ringEnable | ringDisable | bar0RegisterWrite | completionEntryWrite |
        completionWriteRetry => exact .onPowered s _
    all_goals exact .onRunning s _

/-- Settles O3: the queue's half of `exec_keeps`. -/
theorem everyRowAnswersAndKeepsQueue : Obligations.EveryRowAnswersAndKeepsQueue := by
  unfold Obligations.EveryRowAnswersAndKeepsQueue
  intro i s
  obtain ⟨t, ht, hpending, -⟩ := exec_keeps i s
  exact ⟨t, ht, hpending⟩

/-- Settles O4: an idle step leaves DRAM alone, and any other step is a row, which keeps its form. -/
theorem stepKeepsMemoryCanonical : Obligations.StepKeepsMemoryCanonical := by
  unfold Obligations.StepKeepsMemoryCanonical State.Inv
  intro s t hs ht
  unfold step at ht
  split at ht
  · cases ht
    exact (State.Keeps.onRunning s _).2 hs
  · obtain ⟨u, hu, -, hkeeps⟩ := exec_keeps _ _
    rw [hu] at ht
    cases ht
    exact hkeeps hs

/-! ### The field side's own events -/

/-- A row that acts on the field side's records. -/
theorem exec_onRunning {i : Instr} {s : State} {g : Core → Core} (h : exec i s = .next (s.onRunning g)) :
    ∃ g : Field → Field, exec i s = .next (s.onRunningField g) ∧ (ofDram i = false → (g s.field).dram = s.field.dram) :=
  ⟨fun f => f.onCore g, h, fun _ => rfl⟩
/-- A row of the field side's own events is a function of the field side, under its reset; all but those of `ofDram` leave DRAM. -/
theorem exec_ofFieldSide {i : Instr} (s : State) (h : ofFieldSide i = true) :
    ∃ g : Field → Field, exec i s = .next (s.onRunningField g) ∧ (ofDram i = false → (g s.field).dram = s.field.dram) := by
  cases i <;> cases h
  case moltPupaBooted | failedCoreRelease | skelreBlockDecode | lineScreen | ispLineProcess | dramReadError | scrubRead |
      migrationRowCopy | channelRetrain | channelReform | dspPushEnd =>
    exact ⟨_, rfl, fun hd => nomatch hd⟩
  case skelreStreamHeader => exact ⟨doSkelreStreamHeader, rfl, fun _ => rfl⟩
  all_goals exact exec_onRunning rfl

/-- Settles O6: such a row acts through `State.onRunningField`, which knows neither the host side nor the queue. -/
theorem fieldEventsStayOnTheFieldSide : Obligations.FieldEventsStayOnTheFieldSide := by
  unfold Obligations.FieldEventsStayOnTheFieldSide
  intro i s h
  obtain ⟨g, hg, hdram⟩ := exec_ofFieldSide s h
  refine ⟨_, hg, ?_⟩
  unfold State.onRunningField
  split
  · exact ⟨rfl, rfl, fun _ => rfl, fun _ => rfl⟩
  · rename_i hb
    exact ⟨rfl, rfl, fun h1 => absurd h1 hb, hdram⟩

end Sys2Proof.Machine
end

section
/-! PROOF. Frames and events as rules that compose, and with them the field-side resets, the supply and the power-fail sequence
(spec/02_module_hardware.md R102, R105, R110; spec/04_command_protocol.md R187; spec/05_chirp_and_tick_cores.md R222). -/

namespace Sys2Proof.Machine

set_option Elab.async false

/-! ### Registers outside a set of keys -/

theorem SameRegs.refl (ks : List Nat) (a : Core) : SameRegs ks a a := fun _ _ _ => rfl
theorem SameRegs.trans {ks : List Nat} {a b c : Core} (hab : SameRegs ks a b) (hbc : SameRegs ks b c) : SameRegs ks a c :=
  fun f n h => (hbc f n h).trans (hab f n h)
theorem SameRegs.mono {ks ls : List Nat} {a b : Core} (hsub : ks ⊆ ls) (h : SameRegs ks a b) : SameRegs ls a b :=
  fun f n hn => h f n fun hk => hn (hsub hk)
/-- No register reads differently where the register store is the same. -/
theorem SameRegs.of_regs {ks : List Nat} {a b : Core} (h : b.regs = a.regs) : SameRegs ks a b := fun f n _ => Core.rd_congr h f n
theorem SameRegs.wr {ks : List Nat} {a b : Core} (h : SameRegs ks a b) {f : Fld} {n : Nat} (v : Nat) (hf : f.key n ∈ ks := by decide) :
    SameRegs ks a (b.wr f v n) :=
  h.trans fun _ _ hg => Core.rd_wr_ne _ _ _ _ _ _ fun e => hg (e ▸ hf)
theorem SameRegs.inc {ks : List Nat} {a b : Core} (h : SameRegs ks a b) {f : Fld} {n : Nat} (k : Nat) (hf : f.key n ∈ ks := by decide) :
    SameRegs ks a (b.inc f n k) :=
  h.trans fun _ _ hg => Core.rd_inc_ne _ _ _ _ _ _ fun e => hg (e ▸ hf)
theorem SameRegs.incW {ks : List Nat} {a b : Core} (h : SameRegs ks a b) {f : Fld} {n : Nat} (k : Nat) (hf : f.key n ∈ ks := by decide) :
    SameRegs ks a (b.incW f n k) :=
  h.trans fun _ _ hg => Core.rd_incW_ne _ _ _ _ _ _ fun e => hg (e ▸ hf)
theorem SameRegs.wrs {ks : List Nat} {a b : Core} (h : SameRegs ks a b) {l : List (Fld × Nat)} {n : Nat}
    (hl : ∀ p ∈ l, p.1.key n ∈ ks := by
      simp only [List.forall_mem_cons]; decide) : SameRegs ks a (b.wrs l n) :=
  h.trans fun _ _ hg => Core.rd_wrs_ne _ _ _ _ _ fun p hp e => hg (e ▸ hl p hp)
theorem SameRegs.emit {ks : List Nat} {a b : Core} (h : SameRegs ks a b) (code data tag : Nat)
    (hf : LOG_EVT_OVWR_CNT.COUNT.key 0 ∈ ks := by decide) : SameRegs ks a (b.emit code data tag) :=
  h.trans fun _ _ hg => Core.rd_emit_ne _ _ _ _ _ _ fun e => hg (e ▸ hf)

/-! ### One event -/

/-- What an event in `emit` leaves as the newest of its code. -/
theorem Core.raised_emit (s : Core) (code data tag : Nat) (hd : data < 2 ^ 128) : s.Raised (s.emit code data tag) code data := by
  have hheld : (s.emit code data tag).held code = s.held code := by simp [Core.held]
  unfold Core.Raised Core.newest
  rw [hheld]
  cases h : s.held code with
  | true =>
    rw [Core.emit_held _ _ _ _ h, Nat.mod_eq_of_lt hd]
    simp
  | false =>
    rw [Core.emit_entered _ _ _ _ h, Nat.mod_eq_of_lt hd]
    simp
/-- Whether an event has been raised is a matter of the event buffer, the FIFO and the numbering, and of whether the chirp runs. -/
theorem Core.Raised.congr {a a' b b' : Core} {code data : Nat} (h : a.Raised b code data)
    (hfifo : a'.cmdq.fifo = a.cmdq.fifo) (hseq : a'.cmdq.evSeq = a.cmdq.evSeq) (hrun : a'.tck.running = a.tck.running)
    (hfifo' : b'.cmdq.fifo = b.cmdq.fifo) (hev' : b'.cmdq.events = b.cmdq.events) (hseq' : b'.cmdq.evSeq = b.cmdq.evSeq)
    (hrun' : b'.tck.running = b.tck.running) : a'.Raised b' code data := by
  unfold Core.Raised Core.newest Core.held at *
  rw [hfifo, hseq, hrun, hfifo', hev', hseq', hrun']
  exact h
/-- An event raised after steps that leave the queues and the chirp alone. -/
theorem Core.raised_emit_of {a s : Core} {code data tag : Nat} (hd : data < 2 ^ 128) (hq : s.cmdq = a.cmdq) (ht : s.tck.running = a.tck.running) :
    a.Raised (s.emit code data tag) code data :=
  (s.raised_emit code data tag hd).congr (by rw [hq]) (by rw [hq]) ht.symm rfl rfl rfl rfl

/-! ### Registers of a fixed address -/

theorem Core.rdb_wr (s : Core) (f : Fld) (v n : Nat) : (s.wr f v n).rdb f n = (v % 2 ^ f.width != 0) := by
  rw [Core.rdb, Core.rd_wr]
theorem Core.rdb_wr_ne (s : Core) (f g : Fld) (v n m : Nat) (h : g.key m ≠ f.key n) : (s.wr f v n).rdb g m = s.rdb g m := by
  rw [Core.rdb, Core.rd_wr_ne _ _ _ _ _ _ h, Core.rdb]
theorem Core.rdb_eq_decide (s : Core) (f : Fld) (n : Nat) : s.rdb f n = decide (s.rd f n ≠ 0) := by
  by_cases h : s.rd f n = 0 <;> simp [Core.rdb, h]
/-- A register is within its width. -/
theorem Core.rd_lt (s : Core) (f : Fld) (n : Nat) : s.rd f n < 2 ^ f.width := Nat.mod_lt _ (Nat.two_pow_pos _)
/-- A saturated value is within its width. -/
theorem satU_lt (w n : Nat) : satU w n < 2 ^ w := by
  have hpos := Nat.two_pow_pos w
  unfold satU
  omega
/-- A saturating counter counts. -/
theorem Core.rd_inc_self (s : Core) (f : Fld) (n k : Nat) : (s.inc f n k).rd f n = satU f.width (s.rd f n + k) := by
  rw [Core.rd_inc, Nat.mod_eq_of_lt (satU_lt _ _)]

/-! ### Field-side resets (R36, R102, R187, R222) -/

theorem FlashSt.cut_queue (f : FlashSt) : f.cut.queue = [] := rfl
/-- The registers, records and DRAM after a reset, from any state with the flash, the host side and the queue of `s`. -/
theorem fieldReset_to {s s' : State} (cause : Nat) (hc : cause < 2 ^ SYS_BOOT.RESET_CAUSE.width) (hp : s'.pending = s.pending)
    (hh : s'.host = s.host) (hf : s'.field.core.flash = s.field.core.flash) : fieldResetTo cause s (fieldReset cause s') := by
  refine ⟨fun f n h => rd_fieldReset cause s' f n h, ?cause, ?_⟩
  all_goals
    unfold fieldReset
    extract_lets c fl fl' t
  case cause => exact (Core.rd_wr (Core.reset fl') _ _ _).trans (Nat.mod_eq_of_lt hc)
  have hfl : fl'.images = s.field.core.flash.cut.images ∧ fl'.queue = [] := by
    have hcut : fl.images = s.field.core.flash.cut.images ∧ fl.queue = [] := ⟨by rw [← hf], FlashSt.cut_queue _⟩
    unfold fl'
    split <;> exact hcut
  refine ⟨rfl, rfl, rfl, rfl, hfl.1, hfl.2, fun a => ?_, ?_, rfl, hp⟩
  · exact Eq.refl memDefault
  · rw [← hh]; rfl

/-- Settles O7: each row is `fieldReset` with its cause, and what it does first changes neither flash nor host side. -/
theorem fieldResetsRestoreResetValues : Obligations.FieldResetsRestoreResetValues := by
  unfold Obligations.FieldResetsRestoreResetValues
  intro s
  refine ⟨⟨_, rfl, fieldReset_to 2 (by decide) rfl rfl rfl⟩, fun hrun => ?_, fun hpending => ?_, fun hpending => ?_⟩
  · refine ⟨_, rfl, ?_⟩
    rw [doWatchdogBite, if_pos hrun]
    exact fieldReset_to 3 (by decide) rfl rfl rfl
  · refine ⟨_, rfl, ?_⟩
    rw [doFieldResetDelayExpiry, if_pos hpending]
    exact fieldReset_to 4 (by decide) rfl rfl rfl
  · refine ⟨_, rfl, ?_⟩
    rw [doFieldResetDelayExpiry, if_neg (by simp [hpending])]

/-! ### VIN_F_UPDATE and VIN_OVER (R102, R110) -/

/-- The supply after a sample, before it is held against the thresholds. -/
def Core.vinSampled (s : Core) (v : Nat) : Core :=
  let s := s.reach (s.pwr.sampledAt + 100000)
  let s := ({ s with pwr := { s.pwr with sampledAt := s.etime } } : Core).wr PWR_SUPPLY.VIN_F v
  let s := if v < s.rd PWR_VIN_MIN.MIN then s.wr PWR_VIN_MIN.MIN v else s
  if v ≤ 3250 then s.wr PWR_SUPPLY.VIN_OVER 0 else s

theorem doVinFUpdate_eq (v : Nat) (s : Core) : doVinFUpdate v s = (s.vinSampled v).judgeVin := rfl

/-- What the sample changes of the supply's registers. -/
def vinKeys : List Nat := [PWR_SUPPLY.VIN_F.key 0, PWR_VIN_MIN.MIN.key 0, PWR_SUPPLY.VIN_OVER.key 0]
theorem Core.vinSampled_regs (s : Core) (v : Nat) : SameRegs vinKeys s (s.vinSampled v) := by
  have hseen : SameRegs vinKeys s (({ s.reach (s.pwr.sampledAt + 100000) with pwr :=
      { s.pwr with sampledAt := (s.reach (s.pwr.sampledAt + 100000)).etime } } : Core).wr PWR_SUPPLY.VIN_F v) :=
    SameRegs.wr (.of_regs rfl) v (by decide)
  unfold Core.vinSampled
  extract_lets t p u w
  have hw : SameRegs vinKeys s w := by
    unfold w
    split
    · exact hseen.wr v (by decide)
    · exact hseen
  split
  · exact hw.wr 0 (by decide)
  · exact hw
/-- What the supply shows after a sample of 12 bits. -/
theorem Core.vinSampled_reads (s : Core) {v : Nat} (hv : v < 2 ^ 12) :
    (s.vinSampled v).rd PWR_SUPPLY.VIN_F = v ∧
    (s.vinSampled v).rd PWR_VIN_MIN.MIN = (if v < s.rd PWR_VIN_MIN.MIN then v else s.rd PWR_VIN_MIN.MIN) ∧
    (s.vinSampled v).rd PWR_SUPPLY.VIN_OVER = (if v ≤ 3250 then 0 else s.rd PWR_SUPPLY.VIN_OVER) := by
  have hvin : v % 2 ^ PWR_SUPPLY.VIN_F.width = v := Nat.mod_eq_of_lt hv
  have hmin : v % 2 ^ PWR_VIN_MIN.MIN.width = v := Nat.mod_eq_of_lt hv
  unfold Core.vinSampled
  extract_lets t p u w
  have humin : u.rd PWR_VIN_MIN.MIN = s.rd PWR_VIN_MIN.MIN := Core.rd_wr_ne _ _ _ _ _ _ (by decide)
  have huvin : u.rd PWR_SUPPLY.VIN_F = v := (Core.rd_wr _ _ _ _).trans hvin
  have huover : u.rd PWR_SUPPLY.VIN_OVER = s.rd PWR_SUPPLY.VIN_OVER := Core.rd_wr_ne _ _ _ _ _ _ (by decide)
  have hw : w.rd PWR_SUPPLY.VIN_F = v ∧ w.rd PWR_SUPPLY.VIN_OVER = s.rd PWR_SUPPLY.VIN_OVER ∧
      w.rd PWR_VIN_MIN.MIN = (if v < s.rd PWR_VIN_MIN.MIN then v else s.rd PWR_VIN_MIN.MIN) := by
    unfold w
    rw [humin]
    split
    · exact ⟨(Core.rd_wr_ne _ _ _ _ _ _ (by decide)).trans huvin, (Core.rd_wr_ne _ _ _ _ _ _ (by decide)).trans huover,
        (Core.rd_wr _ _ _ _).trans hmin⟩
    · exact ⟨huvin, huover, humin⟩
  obtain ⟨hwvin, hwover, hwmin⟩ := hw
  split
  · exact ⟨(Core.rd_wr_ne _ _ _ _ _ _ (by decide)).trans hwvin, (Core.rd_wr_ne _ _ _ _ _ _ (by decide)).trans hwmin, Core.rd_wr _ _ _ _⟩
  · exact ⟨hwvin, hwmin, hwover⟩
/-- The time of a sample, and the supply record that keeps it. -/
theorem Core.vinSampled_pwr (s : Core) (v : Nat) :
    (s.vinSampled v).etime = max s.etime (s.pwr.sampledAt + 100000) ∧
    (s.vinSampled v).pwr = { s.pwr with sampledAt := (s.vinSampled v).etime } := by
  unfold Core.vinSampled
  extract_lets t p u w
  have hw : w.etime = max s.etime (s.pwr.sampledAt + 100000) ∧ w.pwr = { s.pwr with sampledAt := w.etime } := by
    unfold w
    split <;> exact ⟨rfl, rfl⟩
  split <;> exact hw

theorem vinFUpdate_answers {v : BitVec 12} {s : State} (hb : s.field.core.bootState ≠ 1) :
    Answers (.vinFUpdate v) s fun t =>
      t.field.core.rd PWR_SUPPLY.VIN_F = v.toNat ∧
      t.field.core.rd PWR_VIN_MIN.MIN =
        (if v.toNat < s.field.core.rd PWR_VIN_MIN.MIN then v.toNat else s.field.core.rd PWR_VIN_MIN.MIN) ∧
      t.field.core.rd PWR_SUPPLY.VIN_OVER = (if v.toNat ≤ 3250 then 0 else s.field.core.rd PWR_SUPPLY.VIN_OVER) ∧
      t.field.core.etime = max s.field.core.etime (s.field.core.pwr.sampledAt + 100000) ∧
      t.field.core.pwr = { s.field.core.pwr with
        sampledAt := t.field.core.etime
        lowFrom := if v.toNat < 10 * s.field.core.rd PWR_PF_CFG.PF_LEVEL
          then some (s.field.core.pwr.lowFrom.getD t.field.core.etime) else none
        backFrom := if 10 * s.field.core.rd PWR_PF_CFG.PF_LEVEL + 50 ≤ v.toNat
          then some (s.field.core.pwr.backFrom.getD t.field.core.etime) else none
        overFrom := if 3250 < v.toNat then some (s.field.core.pwr.overFrom.getD t.field.core.etime) else none } ∧
      SameRegs vinKeys s.field.core t.field.core ∧ CoreOnly s t := by
  obtain ⟨hvin, hmin, hover⟩ := s.field.core.vinSampled_reads v.isLt
  obtain ⟨htime, hpwr⟩ := s.field.core.vinSampled_pwr v.toNat
  have hregs := s.field.core.vinSampled_regs v.toNat
  have hlevel : (s.field.core.vinSampled v.toNat).rd PWR_PF_CFG.PF_LEVEL = s.field.core.rd PWR_PF_CFG.PF_LEVEL :=
    hregs _ _ (by decide)
  refine answers_of_onRunning (g := doVinFUpdate v.toNat) rfl hb ⟨hvin, hmin, hover, htime, ?pwr, hregs, CoreOnly.onCore s _⟩
  simp only [State.onCore, Field.onCore, doVinFUpdate_eq, Core.judgeVin, sinceIf, hvin, hlevel, hpwr, decide_eq_true_eq]

theorem doVinOver_eq {s : Core} {t : Nat} (ht : s.pwr.overFrom = some t) (h : s.rd PWR_SUPPLY.VIN_OVER = 0) :
    doVinOver s = ((s.reach (t + 1000000)).wr PWR_SUPPLY.VIN_OVER 1).emit 0x0D35 := by
  simp [doVinOver, ht, Core.rdb_eq_false h]

/-- Settles O9: the sample through `Core.vinSampled`, then the thresholds; VIN_OVER as its one write and event. -/
theorem supplySamplesAreShown : Obligations.SupplySamplesAreShown := by
  unfold Obligations.SupplySamplesAreShown
  intro v s hb
  refine ⟨vinFUpdate_answers hb, fun t0 hfrom hover => ?_, fun h => ?_⟩
  · refine answers_of_onRunning (g := doVinOver) rfl hb ?_
    have hset : SameRegs [PWR_SUPPLY.VIN_OVER.key 0, LOG_EVT_OVWR_CNT.COUNT.key 0] s.field.core
        ((s.field.core.reach (t0 + 1000000)).wr PWR_SUPPLY.VIN_OVER 1) :=
      (SameRegs.of_regs (b := s.field.core.reach _) rfl).wr 1 (by decide)
    have hregs := hset.emit 0x0D35 0 0 (by decide)
    refine ⟨?set, ?raised, ?time, ?regs, CoreOnly.onCore s _⟩
    all_goals simp only [State.onCore, Field.onCore, doVinOver_eq hfrom hover]
    case set => exact (Core.rd_emit_ne _ _ _ _ _ _ (by decide)).trans (Core.rd_wr _ _ _ _)
    case raised => exact Core.raised_emit_of (by decide) rfl rfl
    case time => exact Core.emit_etime _ _ _ _
    case regs => exact hregs
  · refine answers_of_onRunning rfl hb ?_
    have hid : doVinOver s.field.core = s.field.core := by
      unfold doVinOver
      split
      · rfl
      · rename_i t ht
        have hover : s.field.core.rd PWR_SUPPLY.VIN_OVER ≠ 0 := h.resolve_right (by simp [ht])
        rw [if_pos (Core.rdb_eq_true hover)]
    simp only [State.onCore, Field.onCore, hid]

end Sys2Proof.Machine
end

section
/-! PROOF. The power-fail sequence (spec/02_module_hardware.md R102, R105, R107) and the field flash's queue
(spec/14_thermal_and_power.md R556, R557). -/

namespace Sys2Proof.Machine

set_option Elab.async false

/-! ### Links that are up -/

/-- Which links are up is a matter of their STATE registers. -/
theorem Core.upLinks_congr {a b : Core} {ks : List Nat} (h : SameRegs ks a b)
    (hk : ∀ l ∈ List.range 24, HLK_STATUS.STATE.key l ∉ ks) : b.upLinks = a.upLinks :=
  List.filter_congr fun l hl => by rw [Core.linkUp, Core.linkUp, Core.linkState, Core.linkState, h _ _ (hk l hl)]

/-! ### The flash's next write -/

/-- What the start of a flash write may change of the registers. -/
def flashKeys : List Nat := [THM_DEFER.FLASH_HOLD.key 0, THM_DEFER.QUEUED.key 0, LOG_EVT_OVWR_CNT.COUNT.key 0]
theorem Core.flashNext_regs (s : Core) : SameRegs flashKeys s s.flashNext := by
  have hshow : ∀ b : Core, SameRegs flashKeys s b → SameRegs flashKeys s b.showQueue := fun b h => h.wr _ (by decide)
  have hheld : SameRegs flashKeys s ((s.wr THM_DEFER.FLASH_HOLD 1).emit 0x0D09 (at_ 2 (s.rd THMS_READ.TEMP 0x13) + at_ 4 s.flashWaiting)) :=
    ((SameRegs.refl flashKeys s).wr 1 (by decide)).emit _ _ _ (by decide)
  unfold Core.flashNext
  split_ifs
  · exact hshow _ (.refl _ s)
  · exact hshow _ (.of_regs (b := s.setFlash _) rfl)
  · exact hshow _ (.refl _ s)
  · exact hshow _ hheld
/-- Beside registers and events, the start of a flash write changes at most that one is under way. -/
theorem Core.flashNext_only (s : Core) :
    QuietEvents (s.setFlash { s.flash with busy := s.flashNext.flash.busy }) s.flashNext := by
  have hshow : ∀ b : Core, QuietEvents b b.showQueue := fun b => .wrs b [(THM_DEFER.QUEUED, b.flashWaiting)] 0
  unfold Core.flashNext
  split_ifs
  · exact hshow s
  · exact hshow (s.setFlash _)
  · exact hshow s
  · simp only [Core.showQueue, Core.wr_flash, Core.emit_flash]
    exact ((QuietEvents.wrs s [(THM_DEFER.FLASH_HOLD, 1)] 0).trans (.emit _ _ _ _)).trans (hshow _)

/-! ### The power-fail sequence -/

theorem doPwrFail_eq {s : Core} {t : Nat} (ht : s.pwr.lowFrom = some t) (hpf : s.rd PWR_SUPPLY.PF = 0) (hup : s.upLinks = []) :
    doPwrFail s = (((s.reach (t + 200000)).wr PWR_SUPPLY.PF 1).inc PWR_PF_CNT.COUNT).emit 0x0D31 := by
  have hregs : SameRegs [PWR_SUPPLY.PF.key 0, PWR_PF_CNT.COUNT.key 0, LOG_EVT_OVWR_CNT.COUNT.key 0] s
      ((((s.reach (t + 200000)).wr PWR_SUPPLY.PF 1).inc PWR_PF_CNT.COUNT).emit 0x0D31) :=
    (((SameRegs.of_regs (b := s.reach _) rfl).wr 1 (by decide)).inc 1 (by decide)).emit _ _ _ (by decide)
  have hlinks := (Core.upLinks_congr hregs (by decide)).trans hup
  unfold doPwrFail
  rw [ht]
  simp only [Core.rdb_eq_false hpf]
  rw [hlinks]
  rfl

theorem pwrFail_answers {s : State} {t0 : Nat} (hb : s.field.core.bootState ≠ 1) (ht : s.field.core.pwr.lowFrom = some t0)
    (hpf : s.field.core.rd PWR_SUPPLY.PF = 0) (hup : s.field.core.upLinks = []) :
    Answers .pwrFail s fun t =>
      t.field.core.rd PWR_SUPPLY.PF = 1 ∧ t.field.core.etime = max s.field.core.etime (t0 + 200000) ∧
      t.field.core.rd PWR_PF_CNT.COUNT = satU PWR_PF_CNT.COUNT.width (s.field.core.rd PWR_PF_CNT.COUNT + 1) ∧
      s.field.core.Raised t.field.core 0x0D31 0 ∧
      SameRegs [PWR_SUPPLY.PF.key 0, PWR_PF_CNT.COUNT.key 0, LOG_EVT_OVWR_CNT.COUNT.key 0] s.field.core t.field.core ∧
      CoreOnly s t := by
  refine answers_of_onRunning (g := doPwrFail) rfl hb ⟨?pf, ?time, ?count, ?raised, ?regs, CoreOnly.onCore s _⟩
  all_goals simp only [State.onCore, Field.onCore, doPwrFail_eq ht hpf hup]
  case pf =>
    exact ((Core.rd_emit_ne _ _ _ _ _ _ (by decide)).trans (Core.rd_inc_ne _ _ _ _ _ _ (by decide))).trans (Core.rd_wr _ _ _ _)
  case time => exact Core.emit_etime _ _ _ _
  case count =>
    rw [Core.rd_emit_ne _ _ _ _ _ _ (by decide), Core.rd_inc_self, Core.rd_wr_ne _ _ _ _ _ _ (by decide), Core.rd_reach]
  case raised => exact Core.raised_emit_of (by decide) rfl rfl
  case regs =>
    exact (((SameRegs.of_regs (b := s.field.core.reach _) rfl).wr 1 (by decide)).inc 1 (by decide)).emit _ _ _ (by decide)

theorem doPwrFail_id {s : Core} (h : s.rd PWR_SUPPLY.PF ≠ 0 ∨ s.pwr.lowFrom = none) : doPwrFail s = s := by
  unfold doPwrFail
  split
  · rfl
  next t ht =>
    have hpf : s.rd PWR_SUPPLY.PF ≠ 0 := h.resolve_right (by simp [ht])
    rw [if_pos (Core.rdb_eq_true hpf)]

theorem doPwrFailDone_eq {s : Core} (hpf : s.rd PWR_SUPPLY.PF = 1) (hdone : s.rd PWR_SUPPLY.PF_DONE = 0) (hup : s.upLinks = []) :
    doPwrFailDone s = (s.wr PWR_SUPPLY.PF_DONE 1).emit 0x0D32 := by
  have hset : s.rdb PWR_SUPPLY.PF = true := Core.rdb_eq_true (by simp [hpf])
  simp [doPwrFailDone, hset, hup, Core.rdb_eq_false hdone, Core.pfBusy]

theorem pwrFailDone_answers {s : State} (hb : s.field.core.bootState ≠ 1) (hpf : s.field.core.rd PWR_SUPPLY.PF = 1)
    (hdone : s.field.core.rd PWR_SUPPLY.PF_DONE = 0) (hup : s.field.core.upLinks = []) :
    Answers .pwrFailDone s fun t =>
      t.field.core.rd PWR_SUPPLY.PF_DONE = 1 ∧ s.field.core.Raised t.field.core 0x0D32 0 ∧
      SameRegs [PWR_SUPPLY.PF_DONE.key 0, LOG_EVT_OVWR_CNT.COUNT.key 0] s.field.core t.field.core ∧
      QuietEvents s.field.core t.field.core ∧ CoreOnly s t := by
  refine answers_of_onRunning (g := doPwrFailDone) rfl hb ⟨?done, ?raised, ?regs, ?quiet, CoreOnly.onCore s _⟩
  all_goals simp only [State.onCore, Field.onCore, doPwrFailDone_eq hpf hdone hup]
  case done => exact (Core.rd_emit_ne _ _ _ _ _ _ (by decide)).trans (Core.rd_wr _ _ _ _)
  case raised => exact Core.raised_emit_of (by decide) rfl rfl
  case regs => exact ((SameRegs.refl _ s.field.core).wr 1 (by decide)).emit _ _ _ (by decide)
  case quiet => exact (QuietEvents.wrs _ [(PWR_SUPPLY.PF_DONE, 1)] 0).trans (.emit _ _ _ _)

/-- The heads' records take no register and no time. -/
theorem Core.restartPeriods_frame (l : List Nat) (s : Core) :
    (l.foldl Core.restartPeriod s).regs = s.regs ∧ (l.foldl Core.restartPeriod s).etime = s.etime := by
  induction l generalizing s with
  | nil => exact ⟨rfl, rfl⟩
  | cons h l ih =>
    have hone : (s.restartPeriod h).regs = s.regs ∧ (s.restartPeriod h).etime = s.etime := by
      unfold Core.restartPeriod
      split <;> exact ⟨rfl, rfl⟩
    exact ⟨(ih _).1.trans hone.1, (ih _).2.trans hone.2⟩

theorem pwrRestored_answers {s : State} {t0 : Nat} (hb : s.field.core.bootState ≠ 1) (ht : s.field.core.pwr.backFrom = some t0)
    (hpf : s.field.core.rd PWR_SUPPLY.PF ≠ 0) :
    Answers .pwrRestored s fun t =>
      t.field.core.rd PWR_SUPPLY.PF = 0 ∧ t.field.core.rd PWR_SUPPLY.PF_DONE = 0 ∧
      t.field.core.etime = max s.field.core.etime (t0 + 100000000) ∧
      SameRegs [PWR_SUPPLY.PF.key 0, PWR_SUPPLY.PF_DONE.key 0, THM_DEFER.FLASH_HOLD.key 0, THM_DEFER.QUEUED.key 0,
        LOG_EVT_OVWR_CNT.COUNT.key 0] s.field.core t.field.core ∧ CoreOnly s t := by
  let a : Core := ((s.field.core.reach (t0 + 100000000)).wrs [(PWR_SUPPLY.PF, 0), (PWR_SUPPLY.PF_DONE, 0)]).emit 0x0D33
  let b : Core := (List.range 192).foldl Core.restartPeriod a
  have hrun : doPwrRestored s.field.core = b.flashNext := by
    simp only [doPwrRestored, ht, Core.rdb_eq_true hpf, Bool.not_true, Bool.false_eq_true, if_false, a, b]
  have hcleared : a.rd PWR_SUPPLY.PF = 0 ∧ a.rd PWR_SUPPLY.PF_DONE = 0 :=
    ⟨((Core.rd_emit_ne _ _ _ _ _ _ (by decide)).trans (Core.rd_wr_ne _ _ _ _ _ _ (by decide))).trans (Core.rd_wr _ _ _ _),
      (Core.rd_emit_ne _ _ _ _ _ _ (by decide)).trans (Core.rd_wr _ _ _ _)⟩
  have htime : a.etime = max s.field.core.etime (t0 + 100000000) := Core.emit_etime _ _ _ _
  have hregs : SameRegs [PWR_SUPPLY.PF.key 0, PWR_SUPPLY.PF_DONE.key 0, THM_DEFER.FLASH_HOLD.key 0, THM_DEFER.QUEUED.key 0,
      LOG_EVT_OVWR_CNT.COUNT.key 0] s.field.core a :=
    ((SameRegs.of_regs (b := s.field.core.reach _) rfl).wrs (by decide)).emit _ _ _ (by decide)
  obtain ⟨hkeep, hnow⟩ : b.regs = a.regs ∧ b.etime = a.etime := Core.restartPeriods_frame _ a
  clear_value b a
  have hread : ∀ (f : Fld) (n : Nat), f.key n ∉ flashKeys → b.flashNext.rd f n = a.rd f n :=
    fun f n h => (b.flashNext_regs f n h).trans (Core.rd_congr hkeep f n)
  refine answers_of_onRunning (g := doPwrRestored) rfl hb ⟨?pf, ?done, ?time, ?regs, CoreOnly.onCore s _⟩
  all_goals simp only [State.onCore, Field.onCore, hrun]
  case pf => exact (hread _ _ (by decide)).trans hcleared.1
  case done => exact (hread _ _ (by decide)).trans hcleared.2
  case time => exact (b.flashNext_only.etime.trans hnow).trans htime
  case regs => exact hregs.trans ((SameRegs.of_regs hkeep).trans (b.flashNext_regs.mono (by decide)))

/-- Settles O10: each event of the supply through its equation; what follows a restoration is the heads' records and the flash. -/
theorem powerFailSequence : Obligations.PowerFailSequence := by
  unfold Obligations.PowerFailSequence
  intro s hb
  refine ⟨fun t0 ht hpf hup => pwrFail_answers hb ht hpf hup, fun h => ?_,
    fun hpf hdone hup => pwrFailDone_answers hb hpf hdone hup, fun t0 ht hpf => pwrRestored_answers hb ht hpf⟩
  refine answers_of_onRunning (g := doPwrFail) rfl hb ?_
  simp only [State.onCore, Field.onCore, doPwrFail_id h]

end Sys2Proof.Machine
end

section
/-! PROOF. The end of a flash write and of a MOLT (spec/14_thermal_and_power.md R556;
spec/05_chirp_and_tick_cores.md R235 to R238). -/

namespace Sys2Proof.Machine

set_option Elab.async false

/-! ### The end of an ACCEPTED operation (R178) -/

theorem Core.asyncDone_regs (s : Core) (opId status res : Nat) :
    SameRegs [LOG_EVT_OVWR_CNT.COUNT.key 0] s (s.asyncDone opId status res) := by
  unfold Core.asyncDone
  split
  · exact .refl _ s
  · exact ((SameRegs.refl _ s).emit _ _ _ (by decide)).trans (.of_regs rfl)
theorem QuietEvents.tck {a b : Core} (h : QuietEvents a b) : b.tck = a.tck := by rw [h]
theorem QuietEvents.flash {a b : Core} (h : QuietEvents a b) : b.flash = a.flash := by rw [h]
theorem QuietEvents.async {a b : Core} (h : QuietEvents a b) : b.cmdq.async = a.cmdq.async := by rw [h]
theorem QuietEvents.setAsync {a b : Core} (h : QuietEvents a b) (l : List AsyncOp) :
    QuietEvents { a with cmdq := { a.cmdq with async := l } } { b with cmdq := { b.cmdq with async := l } } := by
  unfold QuietEvents at *
  rw [h]
/-- Beside events, the end of an operation changes only the list of those that are open. -/
theorem Core.asyncDone_only (s : Core) (opId status res : Nat) :
    QuietEvents { s with cmdq := { s.cmdq with async := (s.asyncDone opId status res).cmdq.async } } (s.asyncDone opId status res) := by
  unfold Core.asyncDone
  split
  · exact rfl
  · exact (QuietEvents.emit s _ _ _).setAsync _
/-- Afterwards it is no longer open. -/
theorem Core.asyncDone_gone (s : Core) (opId status res : Nat) : ∀ x ∈ (s.asyncDone opId status res).cmdq.async, x.opId ≠ opId := by
  unfold Core.asyncDone
  intro x hx
  split at hx
  · next hnone => simpa using List.find?_eq_none.1 hnone x hx
  · extract_lets e at hx
    simpa using (List.mem_filter.1 hx).2
theorem Core.asyncDone_tck (s : Core) (opId status res : Nat) : (s.asyncDone opId status res).tck = s.tck :=
  (s.asyncDone_only opId status res).tck
theorem Core.asyncDone_flash (s : Core) (opId status res : Nat) : (s.asyncDone opId status res).flash = s.flash :=
  (s.asyncDone_only opId status res).flash

theorem Core.flashNext_tck (s : Core) : s.flashNext.tck = s.tck := s.flashNext_only.tck
/-- Of the flash, the start of a write changes only that one is under way. -/
theorem Core.flashNext_flash (s : Core) : ∃ b, s.flashNext.flash = { s.flash with busy := b } :=
  ⟨s.flashNext.flash.busy, s.flashNext_only.flash⟩

/-! ### FLASH_OPERATION_DONE -/

/-- The field side once the write at the front has been committed. -/
def Core.committed (s : Core) (op : FlashOp) (rest : List FlashOp) : Core :=
  s.setFlash { s.flash.commit op true with queue := rest, busy := false }

theorem doFlashOperationDone_eq {s : Core} {op : FlashOp} {rest : List FlashOp} (hbusy : s.flash.busy = true)
    (hop : ∀ core slot o d, op ≠ .image core slot o d) (hq : s.flash.queue = op :: rest) :
    doFlashOperationDone s = (s.committed op rest).flashNext := by
  unfold doFlashOperationDone
  rw [hbusy, hq]
  cases op with
  | image core slot o d => exact absurd rfl (hop core slot o d)
  | press | ranks | boot | page => rfl

/-- With no MOLT that waits for its boot record, the end of a write is that of the flash alone. -/
theorem flashDone_of_unswapped {s : Core} {op : FlashOp} {rest : List FlashOp} (hbusy : s.flash.busy = true)
    (hop : ∀ core slot o d, op ≠ .image core slot o d) (hmolt : ∀ m, s.tck.molt = some m → m.swapped = false)
    (hq : s.flash.queue = op :: rest) : s.flashDone = (s.committed op rest).flashNext := by
  unfold Core.flashDone
  rw [doFlashOperationDone_eq hbusy hop hq]
  extract_lets recorded t
  have htck : t.tck = s.tck := (s.committed op rest).flashNext_tck
  cases hm : t.tck.molt with
  | none => rfl
  | some m => simp [hmolt m (htck ▸ hm), t]
theorem Core.endMolt_some {s : Core} {m : Molt} (h : s.tck.molt = some m) (g : Nat → Core → Core) :
    s.endMolt g = g m.opId ((s.setTck { s.tck with molt := none }).wr TCK_STATUS.MOLT_PENDING 0) := by
  unfold Core.endMolt
  rw [h]
/-- The boot record of a MOLT whose core has become imago ends it. -/
theorem flashDone_of_swapped {s : Core} {m : Molt} {a b : Nat} {rest : List FlashOp} (hbusy : s.flash.busy = true)
    (hm : s.tck.molt = some m) (hswap : m.swapped = true) (hq : s.flash.queue = .boot a b :: rest) :
    ∃ v, s.flashDone = ((((s.committed (.boot a b) rest).flashNext.setTck
      { s.tck with molt := none }).wr TCK_STATUS.MOLT_PENDING 0).asyncDone m.opId 0 v) := by
  have htck := (s.committed (.boot a b) rest).flashNext_tck
  have hm' : (s.committed (.boot a b) rest).flashNext.tck.molt = some m := by rw [htck]; exact hm
  unfold Core.flashDone
  rw [doFlashOperationDone_eq hbusy (by simp) hq, hbusy, hq]
  generalize (s.committed (.boot a b) rest).flashNext = u at *
  refine ⟨m.core + at_ 4 (((u.setTck { s.tck with molt := none }).wr TCK_STATUS.MOLT_PENDING 0).rd SYS_VER.VERSION m.core), ?_⟩
  simp only [hm', hswap, Core.endMolt_some hm', Bool.and_true, if_true]
  rw [htck]
  rfl

theorem FlashSt.commit_images (f : FlashSt) {op : FlashOp} (hop : ∀ core slot o d, op ≠ .image core slot o d) (ok : Bool) :
    (f.commit op ok).images = f.images := by
  cases op with
  | image core slot o d => exact absurd rfl (hop core slot o d)
  | press d =>
    change (f.writePress d ok).images = _
    unfold FlashSt.writePress
    extract_lets n
    split <;> rfl
  | ranks l =>
    change (if ok then { f with retired := l } else f).images = _
    split <;> rfl
  | boot a b =>
    change (f.writeBoot a b ok).images = _
    unfold FlashSt.writeBoot
    extract_lets n
    split <;> rfl
  | page => rfl

/-! ### FW_STAGE_WRITE_DONE (R235) -/

/-- An image slot that has been written holds what was written. -/
theorem FlashSt.image_commit (f : FlashSt) (core slot o : Nat) (d : Bytes) :
    (f.commit (.image core slot o d) true).image core slot = some d := by
  simp [FlashSt.commit, FlashSt.image]

theorem Core.setStaged_self (s : Core) (core : Fin 2) (x : Option Nat) : (s.setStaged core.val x).staged core.val = x := by
  revert core
  simp [Fin.forall_fin_two, Core.setStaged, Core.staged, Core.setTck]
theorem Core.setStaged_regs (s : Core) (core : Nat) (x : Option Nat) : (s.setStaged core x).regs = s.regs := by
  unfold Core.setStaged; split <;> rfl
theorem Core.setStaged_flash (s : Core) (core : Nat) (x : Option Nat) : (s.setStaged core x).flash = s.flash := by
  unfold Core.setStaged; split <;> rfl
theorem Core.staged_congr {a b : Core} (h : b.tck = a.tck) (core : Nat) : b.staged core = a.staged core := by
  rw [Core.staged, h, Core.staged]

/-- The staged slot once its image has been checked. -/
def Core.verified (s : Core) (core slot op : Nat) (d : Bytes) : Core :=
  let r := imageReason (some d) false
  if r = 0 then (s.setStaged core (some slot)).asyncDone op 0 (ckptEpoch d + at_ 4 (leAt d 0x10 4))
  else (s.imageRefused core slot r).asyncErr op 0x12 0x0007 r
theorem Core.verified_spec (s : Core) (core : Fin 2) (slot op : Nat) (d : Bytes) :
    (s.verified core.val slot op d).flash = s.flash ∧
    (s.verified core.val slot op d).staged core.val =
      (if imageReason (some d) false = 0 then some slot else s.staged core.val) ∧
    SameRegs [LOG_EVT_OVWR_CNT.COUNT.key 0] s (s.verified core.val slot op d) := by
  unfold Core.verified
  extract_lets r
  change _ ∧ _ = (if r = 0 then _ else _) ∧ _
  clear_value r
  split
  · exact ⟨(Core.asyncDone_flash _ _ _ _).trans (s.setStaged_flash _ _),
      (Core.staged_congr (Core.asyncDone_tck _ _ _ _) _).trans (s.setStaged_self _ _),
      (SameRegs.of_regs (s.setStaged_regs _ _)).trans (Core.asyncDone_regs _ _ _ _)⟩
  · exact ⟨(Core.asyncDone_flash _ _ _ _).trans (Core.emit_flash _ _ _ _),
      Core.staged_congr ((Core.asyncDone_tck _ _ _ _).trans (Core.emit_tck _ _ _ _)) _,
      ((SameRegs.refl _ s).emit _ _ _ (by decide)).trans (Core.asyncDone_regs _ _ _ _)⟩

theorem doFwStageWriteDone_eq {s : Core} {core : Fin 2} {slot op : Nat} {d : Bytes} {rest : List FlashOp} (hbusy : s.flash.busy = true)
    (hq : s.flash.queue = .image core.val slot op d :: rest) (hready : s.bootState = 7) (hfail : s.rd (failFld core.val) = 0) :
    doFwStageWriteDone s = ((s.committed (.image core.val slot op d) rest).verified core.val slot op d).flashNext := by
  unfold doFwStageWriteDone Core.verified
  rw [hbusy, hq]
  dsimp -zeta only
  extract_lets f t r u v
  have hregs : SameRegs [LOG_EVT_OVWR_CNT.COUNT.key 0] s u :=
    (SameRegs.of_regs ((t.setStaged_regs _ _).trans rfl)).trans (Core.asyncDone_regs _ _ _ _)
  have hready' : u.bootState = 7 := (hregs _ _ (by decide)).trans hready
  have hfail' : u.rdb (failFld core.val) = false :=
    Core.rdb_eq_false ((hregs _ _ (by unfold failFld; split <;> decide)).trans hfail)
  have hv : v = if r = 0 then u else (t.imageRefused core.val slot r).asyncErr op 0x12 0x0007 r := by
    unfold v
    rw [hready', hfail']
    rfl
  rw [hv]
  rfl

/-- Settles O12: the commit, then what the flash does next; a MOLT's boot record and an image's check in between. -/
theorem flashWritesEndInOrder : Obligations.FlashWritesEndInOrder := by
  unfold Obligations.FlashWritesEndInOrder
  intro s rest hb hbusy
  refine ⟨fun op hop hmolt hq => ?_, fun m a b hm hswap hq => ?_, fun core slot o d hq hready hfail => ?_⟩
  · obtain ⟨b, hflash⟩ := (s.field.core.committed op rest).flashNext_flash
    refine answers_of_onRunning (g := Core.flashDone) rfl hb ?_
    simp only [State.onCore, Field.onCore, flashDone_of_unswapped hbusy hop hmolt hq, hflash]
    exact ⟨rfl, rfl, rfl, rfl, rfl, rfl, FlashSt.commit_images _ hop _,
      (SameRegs.of_regs (b := s.field.core.committed op rest) rfl).trans (Core.flashNext_regs _), rfl, rfl, rfl⟩
  · obtain ⟨v, hrun⟩ := flashDone_of_swapped hbusy hm hswap hq
    let u : Core := (s.field.core.committed (.boot a b) rest).flashNext
    obtain ⟨w, hflash⟩ : ∃ w, u.flash = _ := (s.field.core.committed (.boot a b) rest).flashNext_flash
    have hregs : SameRegs flashKeys s.field.core u :=
      (SameRegs.of_regs (b := s.field.core.committed (.boot a b) rest) rfl).trans (Core.flashNext_regs _)
    change _ = ((u.setTck { s.field.core.tck with molt := none }).wr TCK_STATUS.MOLT_PENDING 0).asyncDone _ _ _ at hrun
    clear_value u
    refine answers_of_onRunning (g := Core.flashDone) rfl hb ⟨?molt, ?pending, ?queue, ?gone, ?regs, CoreOnly.onCore s _⟩
    all_goals simp only [State.onCore, Field.onCore, hrun]
    case molt => exact congrArg TckSt.molt (Core.asyncDone_tck _ _ _ _)
    case pending => exact (Core.asyncDone_regs _ _ _ _ _ _ (by decide)).trans (Core.rd_wr _ _ _ _)
    case queue =>
      rw [Core.asyncDone_flash]
      exact congrArg FlashSt.queue hflash
    case gone => exact Core.asyncDone_gone _ _ _ _
    case regs =>
      have hset : SameRegs [THM_DEFER.FLASH_HOLD.key 0, THM_DEFER.QUEUED.key 0, TCK_STATUS.MOLT_PENDING.key 0,
          LOG_EVT_OVWR_CNT.COUNT.key 0] s.field.core (u.setTck { s.field.core.tck with molt := none }) :=
        (hregs.mono (by decide)).trans (.of_regs rfl)
      exact (hset.wr 0 (by decide)).trans ((Core.asyncDone_regs _ _ _ _).mono (by decide))
  · obtain ⟨hflash, hstaged, hregs⟩ :=
      (s.field.core.committed (.image core.val slot.val o d) rest).verified_spec core slot.val o d
    have hrun := doFwStageWriteDone_eq hbusy hq hready hfail
    generalize (s.field.core.committed (.image core.val slot.val o d) rest).verified core.val slot.val o d = u at *
    obtain ⟨w, hnext⟩ := u.flashNext_flash
    refine answers_of_onRunning (g := doFwStageWriteDone) rfl hb ⟨?queue, ?image, ?staged, ?regs, CoreOnly.onCore s _⟩
    all_goals simp only [State.onCore, Field.onCore, hrun]
    case queue => rw [hnext, hflash]; rfl
    case image =>
      rw [hnext, hflash]
      exact FlashSt.image_commit s.field.core.flash core.val slot.val o d
    case staged => exact (Core.staged_congr u.flashNext_tck _).trans hstaged
    case regs =>
      exact (SameRegs.of_regs (b := s.field.core.committed _ rest) rfl).trans ((hregs.mono (by decide)).trans u.flashNext_regs)

end Sys2Proof.Machine
end

section
/-! PROOF. Which registers, by block, and which records of the field side a function may change, as one relation that composes. -/

namespace Sys2Proof.Machine

set_option Elab.async false

/-! ### Records -/

/-- The records of the field side beside its registers; of the commands' record, also those that wait, those that
have started and the completions, which events leave. -/
inductive Part where
  | latch | lo | etime | free | limits | resetPending | cmdq | waiting | open_ | answers | ely | flash | tck | pwr | press
  | jobs | pos | spg | hlk | cam | csv | mem | thm | dsp | fij | cdc
  deriving DecidableEq
/-- A record is the same in two states. -/
def Part.same : Part → Core → Core → Prop
  | .latch, a, b => b.latch = a.latch
  | .lo, a, b => b.lo = a.lo
  | .etime, a, b => b.etime = a.etime
  | .free, a, b => b.free = a.free
  | .limits, a, b => b.limits = a.limits
  | .resetPending, a, b => b.resetPending = a.resetPending
  | .cmdq, a, b => b.cmdq = a.cmdq
  | .waiting, a, b => b.cmdq.waiting = a.cmdq.waiting
  | .open_, a, b => b.cmdq.open_ = a.cmdq.open_
  | .answers, a, b => (b.cmdq.done, b.cmdq.fspTx) = (a.cmdq.done, a.cmdq.fspTx)
  | .ely, a, b => b.ely = a.ely
  | .flash, a, b => b.flash = a.flash
  | .tck, a, b => b.tck = a.tck
  | .pwr, a, b => b.pwr = a.pwr
  | .press, a, b => b.press = a.press
  | .jobs, a, b => b.jobs = a.jobs
  | .pos, a, b => b.pos = a.pos
  | .spg, a, b => b.spg = a.spg
  | .hlk, a, b => b.hlk = a.hlk
  | .cam, a, b => b.cam = a.cam
  | .csv, a, b => b.csv = a.csv
  | .mem, a, b => b.mem = a.mem
  | .thm, a, b => b.thm = a.thm
  | .dsp, a, b => b.dsp = a.dsp
  | .fij, a, b => b.fij = a.fij
  | .cdc, a, b => b.cdc = a.cdc
/-- No record outside `rs` changes. -/
def Touches (rs : List Part) (a b : Core) : Prop := ∀ r, r ∉ rs → r.same a b

theorem Part.same_refl (r : Part) (a : Core) : r.same a a := by cases r <;> rfl
theorem Part.same_trans {r : Part} {a b c : Core} (hab : r.same a b) (hbc : r.same b c) : r.same a c := by
  cases r <;> exact hbc.trans hab
theorem Touches.refl (rs : List Part) (a : Core) : Touches rs a a := fun r _ => r.same_refl a
theorem Touches.trans {rs : List Part} {a b c : Core} (hab : Touches rs a b) (hbc : Touches rs b c) : Touches rs a c :=
  fun r hr => Part.same_trans (hab r hr) (hbc r hr)
theorem Touches.mono {rs qs : List Part} {a b : Core} (hsub : rs ⊆ qs) (h : Touches rs a b) : Touches qs a b :=
  fun r hr => h r fun hrs => hr (hsub hrs)
theorem Touches.emit (s : Core) (code data tag : Nat) : Touches [.cmdq] s (s.emit code data tag) := by
  intro r hr
  have hq := Core.emit_cmdq s code data tag
  cases r with
  | waiting => exact (congrArg CmdqSt.waiting hq :)
  | open_ => exact (congrArg CmdqSt.open_ hq :)
  | answers => exact (congrArg (fun q => (q.done, q.fspTx)) hq :)
  | cmdq => exact absurd (List.mem_singleton.2 rfl) hr
  | _ => simp [Part.same]
/-- What changes registers and events alone. -/
theorem QuietEvents.touches {a b : Core} (h : QuietEvents a b) : Touches [.limits, .cmdq] a b := by
  intro r hr
  rw [h]
  revert hr
  cases r <;> simp [Part.same]

/-! ### Registers and records -/

theorem SameOutside.refl (ps : List Nat) (a : Core) : SameOutside ps a a := fun _ _ _ => rfl
theorem SameOutside.of_regs {ps : List Nat} {a b : Core} (h : b.regs = a.regs) : SameOutside ps a b := fun f n _ => Core.rd_congr h f n
theorem SameOutside.wr {ps : List Nat} {a b : Core} (h : SameOutside ps a b) {f : Fld} {n : Nat} (v : Nat) (hf : f.block n ∈ ps) :
    SameOutside ps a (b.wr f v n) :=
  h.trans fun _ _ hg => Core.rd_wr_ne _ _ _ _ _ _ fun e => hg (by unfold Fld.block at *; rwa [e])

/-- A step that changes registers of the blocks `ps` and records of `rs` alone. -/
structure Within (ps : List Nat) (rs : List Part) (a b : Core) : Prop where
  regs : SameOutside ps a b
  parts : Touches rs a b

section
variable {ps : List Nat} {rs : List Part} {a b c : Core}

theorem Within.refl (ps : List Nat) (rs : List Part) (a : Core) : Within ps rs a a := ⟨.refl ps a, .refl rs a⟩
theorem Within.trans (hab : Within ps rs a b) (hbc : Within ps rs b c) : Within ps rs a c :=
  ⟨hab.regs.trans hbc.regs, hab.parts.trans hbc.parts⟩
theorem Within.mono {qs : List Nat} {ss : List Part} (hp : ps ⊆ qs) (hr : rs ⊆ ss) (h : Within ps rs a b) : Within qs ss a b :=
  ⟨h.regs.mono hp, h.parts.mono hr⟩
/-- A step within less. -/
theorem Within.next {qs : List Nat} {ss : List Part} (h : Within ps rs a b) (h' : Within qs ss b c) (hp : qs ⊆ ps := by decide)
    (hr : ss ⊆ rs := by decide) : Within ps rs a c := h.trans (h'.mono hp hr)
theorem Within.rd (h : Within ps rs a b) (f : Fld) (n : Nat) (hf : f.block n ∉ ps) : b.rd f n = a.rd f n := h.regs f n hf
theorem Within.rdb (h : Within ps rs a b) (f : Fld) (n : Nat) (hf : f.block n ∉ ps) : b.rdb f n = a.rdb f n := by
  rw [Core.rdb, h.rd f n hf, Core.rdb]
theorem Within.ite {p : Prop} [Decidable p] (hb : p → Within ps rs a b) (hc : ¬ p → Within ps rs a c) :
    Within ps rs a (if p then b else c) := by
  split
  · exact hb ‹_›
  · exact hc ‹_›
theorem Within.foldl {α : Type} {k : Core → α → Core} (l : List α) (hk : ∀ x ∈ l, ∀ s, Within ps rs s (k s x))
    (h : Within ps rs a b) :
    Within ps rs a (l.foldl k b) := by
  induction l generalizing b with
  | nil => exact h
  | cons x l ih =>
    exact ih (fun y hy => hk y (List.mem_cons_of_mem _ hy)) (h.trans (hk x List.mem_cons_self b))
theorem Within.wr (h : Within ps rs a b) {f : Fld} {n : Nat} (v : Nat) (hf : f.block n ∈ ps := by decide) :
    Within ps rs a (b.wr f v n) :=
  ⟨h.regs.wr v hf, h.parts.trans fun r _ => by cases r <;> rfl⟩
theorem Within.inc (h : Within ps rs a b) {f : Fld} {n : Nat} (k : Nat) (hf : f.block n ∈ ps := by decide) :
    Within ps rs a (b.inc f n k) := h.wr _ hf
theorem Within.incW (h : Within ps rs a b) {f : Fld} {n : Nat} (k : Nat) (hf : f.block n ∈ ps := by decide) :
    Within ps rs a (b.incW f n k) := h.wr _ hf
theorem Within.wr2 (h : Within ps rs a b) {f g : Fld} {n : Nat} (v : Nat) (hf : f.block n ∈ ps := by decide)
    (hg : g.block n ∈ ps := by decide) :
    Within ps rs a (b.wr2 f g v n) := (h.wr _ hf).wr _ hg
theorem Within.wrs (h : Within ps rs a b) {l : List (Fld × Nat)} {n : Nat} (hl : ∀ p ∈ l, p.1.block n ∈ ps := by
      simp only [List.forall_mem_cons]; decide) :
    Within ps rs a (b.wrs l n) := h.foldl l fun p hp s => (Within.refl ps rs s).wr p.2 (hl p hp)
theorem Within.clr (h : Within ps rs a b) {l : List Fld} {n : Nat} (hl : ∀ f ∈ l, f.block n ∈ ps := by decide) :
    Within ps rs a (b.clr l n) :=
  h.foldl l fun f hf s => (Within.refl ps rs s).wr _ (hl f hf)
theorem Within.emit (h : Within ps rs a b) (code data tag : Nat) (hp : 0x1B ∈ ps := by decide) (hq : .cmdq ∈ rs := by decide) :
    Within ps rs a (b.emit code data tag) :=
  h.trans ⟨(SameOutside.emit b code data tag).mono (by simpa using hp), (Touches.emit b code data tag).mono (by simpa using hq)⟩

theorem Within.latch (h : Within ps rs a b) (x : SMap Nat) (hr : .latch ∈ rs := by decide) : Within ps rs a { b with latch := x } :=
  ⟨h.regs.trans (.of_regs rfl), h.parts.trans fun r hn => by cases r with | latch => exact absurd hr hn | _ => rfl⟩
theorem Within.lo (h : Within ps rs a b) (x : SMap Nat) (hr : .lo ∈ rs := by decide) : Within ps rs a { b with lo := x } :=
  ⟨h.regs.trans (.of_regs rfl), h.parts.trans fun r hn => by cases r with | lo => exact absurd hr hn | _ => rfl⟩
theorem Within.etime (h : Within ps rs a b) (x : Nat) (hr : .etime ∈ rs := by decide) : Within ps rs a { b with etime := x } :=
  ⟨h.regs.trans (.of_regs rfl), h.parts.trans fun r hn => by cases r with | etime => exact absurd hr hn | _ => rfl⟩
theorem Within.free (h : Within ps rs a b) (x : Nat) (hr : .free ∈ rs := by decide) : Within ps rs a { b with free := x } :=
  ⟨h.regs.trans (.of_regs rfl), h.parts.trans fun r hn => by cases r with | free => exact absurd hr hn | _ => rfl⟩
theorem Within.limits (h : Within ps rs a b) (x : List (Nat × Nat × Nat)) (hr : .limits ∈ rs := by decide) :
    Within ps rs a { b with limits := x } :=
  ⟨h.regs.trans (.of_regs rfl), h.parts.trans fun r hn => by cases r with | limits => exact absurd hr hn | _ => rfl⟩
theorem Within.resetPending (h : Within ps rs a b) (x : Bool) (hr : .resetPending ∈ rs := by decide) :
    Within ps rs a { b with resetPending := x } :=
  ⟨h.regs.trans (.of_regs rfl), h.parts.trans fun r hn => by cases r with | resetPending => exact absurd hr hn | _ => rfl⟩
/-- A change of the commands' record; of the parts of that record, what it leaves stays. -/
theorem Within.cmdq (h : Within ps rs a b) (x : CmdqSt) (hr : .cmdq ∈ rs := by decide)
    (hw : .waiting ∈ rs ∨ x.waiting = b.cmdq.waiting := by exact .inr rfl)
    (ho : .open_ ∈ rs ∨ x.open_ = b.cmdq.open_ := by exact .inr rfl)
    (hd : .answers ∈ rs ∨ (x.done, x.fspTx) = (b.cmdq.done, b.cmdq.fspTx) := by exact .inr rfl) : Within ps rs a { b with cmdq := x } :=
  ⟨h.regs.trans (.of_regs rfl), h.parts.trans fun r hn => by
    cases r with
    | cmdq => exact absurd hr hn
    | waiting => exact hw.resolve_left hn
    | open_ => exact ho.resolve_left hn
    | answers => exact hd.resolve_left hn
    | _ => rfl⟩
theorem Within.ely (h : Within ps rs a b) (x : ElySt) (hr : .ely ∈ rs := by decide) : Within ps rs a { b with ely := x } :=
  ⟨h.regs.trans (.of_regs rfl), h.parts.trans fun r hn => by cases r with | ely => exact absurd hr hn | _ => rfl⟩
theorem Within.flash (h : Within ps rs a b) (x : FlashSt) (hr : .flash ∈ rs := by decide) : Within ps rs a { b with flash := x } :=
  ⟨h.regs.trans (.of_regs rfl), h.parts.trans fun r hn => by cases r with | flash => exact absurd hr hn | _ => rfl⟩
theorem Within.tck (h : Within ps rs a b) (x : TckSt) (hr : .tck ∈ rs := by decide) : Within ps rs a { b with tck := x } :=
  ⟨h.regs.trans (.of_regs rfl), h.parts.trans fun r hn => by cases r with | tck => exact absurd hr hn | _ => rfl⟩
theorem Within.pwr (h : Within ps rs a b) (x : PwrSt) (hr : .pwr ∈ rs := by decide) : Within ps rs a { b with pwr := x } :=
  ⟨h.regs.trans (.of_regs rfl), h.parts.trans fun r hn => by cases r with | pwr => exact absurd hr hn | _ => rfl⟩
theorem Within.press (h : Within ps rs a b) (x : PressSt) (hr : .press ∈ rs := by decide) : Within ps rs a { b with press := x } :=
  ⟨h.regs.trans (.of_regs rfl), h.parts.trans fun r hn => by cases r with | press => exact absurd hr hn | _ => rfl⟩
theorem Within.jobs (h : Within ps rs a b) (x : JobSt) (hr : .jobs ∈ rs := by decide) : Within ps rs a { b with jobs := x } :=
  ⟨h.regs.trans (.of_regs rfl), h.parts.trans fun r hn => by cases r with | jobs => exact absurd hr hn | _ => rfl⟩
theorem Within.pos (h : Within ps rs a b) (x : PosSt) (hr : .pos ∈ rs := by decide) : Within ps rs a { b with pos := x } :=
  ⟨h.regs.trans (.of_regs rfl), h.parts.trans fun r hn => by cases r with | pos => exact absurd hr hn | _ => rfl⟩
theorem Within.spg (h : Within ps rs a b) (x : SpgSt) (hr : .spg ∈ rs := by decide) : Within ps rs a { b with spg := x } :=
  ⟨h.regs.trans (.of_regs rfl), h.parts.trans fun r hn => by cases r with | spg => exact absurd hr hn | _ => rfl⟩
theorem Within.hlk (h : Within ps rs a b) (x : HlkSt) (hr : .hlk ∈ rs := by decide) : Within ps rs a { b with hlk := x } :=
  ⟨h.regs.trans (.of_regs rfl), h.parts.trans fun r hn => by cases r with | hlk => exact absurd hr hn | _ => rfl⟩
theorem Within.cam (h : Within ps rs a b) (x : CamSt) (hr : .cam ∈ rs := by decide) : Within ps rs a { b with cam := x } :=
  ⟨h.regs.trans (.of_regs rfl), h.parts.trans fun r hn => by cases r with | cam => exact absurd hr hn | _ => rfl⟩
theorem Within.csv (h : Within ps rs a b) (x : CsvSt) (hr : .csv ∈ rs := by decide) : Within ps rs a { b with csv := x } :=
  ⟨h.regs.trans (.of_regs rfl), h.parts.trans fun r hn => by cases r with | csv => exact absurd hr hn | _ => rfl⟩
theorem Within.mem (h : Within ps rs a b) (x : MemSt) (hr : .mem ∈ rs := by decide) : Within ps rs a { b with mem := x } :=
  ⟨h.regs.trans (.of_regs rfl), h.parts.trans fun r hn => by cases r with | mem => exact absurd hr hn | _ => rfl⟩
theorem Within.thm (h : Within ps rs a b) (x : ThmSt) (hr : .thm ∈ rs := by decide) : Within ps rs a { b with thm := x } :=
  ⟨h.regs.trans (.of_regs rfl), h.parts.trans fun r hn => by cases r with | thm => exact absurd hr hn | _ => rfl⟩
theorem Within.dsp (h : Within ps rs a b) (x : DspSt) (hr : .dsp ∈ rs := by decide) : Within ps rs a { b with dsp := x } :=
  ⟨h.regs.trans (.of_regs rfl), h.parts.trans fun r hn => by cases r with | dsp => exact absurd hr hn | _ => rfl⟩
theorem Within.fij (h : Within ps rs a b) (x : FijSt) (hr : .fij ∈ rs := by decide) : Within ps rs a { b with fij := x } :=
  ⟨h.regs.trans (.of_regs rfl), h.parts.trans fun r hn => by cases r with | fij => exact absurd hr hn | _ => rfl⟩
theorem Within.cdc (h : Within ps rs a b) (x : CdcSt) (hr : .cdc ∈ rs := by decide) : Within ps rs a { b with cdc := x } :=
  ⟨h.regs.trans (.of_regs rfl), h.parts.trans fun r hn => by cases r with | cdc => exact absurd hr hn | _ => rfl⟩

theorem Within.reach (h : Within ps rs a b) (t : Nat) (hr : .etime ∈ rs := by decide) : Within ps rs a (b.reach t) := h.etime _ hr
theorem Within.emitEvery (h : Within ps rs a b) (gap code inst : Nat) (data : Nat → Nat) (hp : 0x1B ∈ ps := by decide)
    (hr : .limits ∈ rs := by decide)
    (hq : .cmdq ∈ rs := by decide) : Within ps rs a (b.emitEvery gap code inst data) := by
  unfold Core.emitEvery
  extract_lets k
  split
  · exact (h.emit _ _ _ hp hq).limits _ hr
  · extract_lets rest
    split
    · exact (h.emit _ _ _ hp hq).limits _ hr
    · exact h.limits _ hr
theorem Within.emitLim (h : Within ps rs a b) (code inst : Nat) (data : Nat → Nat) (hp : 0x1B ∈ ps := by decide)
    (hr : .limits ∈ rs := by decide)
    (hq : .cmdq ∈ rs := by decide) : Within ps rs a (b.emitLim code inst data) := h.emitEvery _ _ _ _ hp hr hq
theorem Within.emitSum (h : Within ps rs a b) (code inst amt : Nat) (data : Nat → Nat) (hp : 0x1B ∈ ps := by decide)
    (hr : .limits ∈ rs := by decide)
    (hq : .cmdq ∈ rs := by decide) : Within ps rs a (b.emitSum code inst amt data) := by
  unfold Core.emitSum
  extract_lets k
  split
  · exact (h.emit _ _ _ hp hq).limits _ hr
  · extract_lets rest
    split
    · exact (h.emit _ _ _ hp hq).limits _ hr
    · exact h.limits _ hr
theorem Within.asyncDone (h : Within ps rs a b) (opId status res : Nat) (hp : 0x1B ∈ ps := by decide)
    (hq : .cmdq ∈ rs := by decide) :
    Within ps rs a (b.asyncDone opId status res) := by
  unfold Core.asyncDone
  split
  · exact h
  · exact (h.emit _ _ _ hp hq).cmdq _ hq
theorem Within.asyncErr (h : Within ps rs a b) (opId status detail val : Nat) (hp : 0x1B ∈ ps := by decide)
    (hq : .cmdq ∈ rs := by decide) :
    Within ps rs a (b.asyncErr opId status detail val) := h.asyncDone _ _ _ hp hq

end

/-- The block of a field, of whose places the first `N` lie in one block. -/
theorem Fld.block_mem {f : Fld} {n N : Nat} {ps : List Nat} (hn : n < N) (hfit : 0 < f.sub ∧ f.lo < 32 ∧
    f.base % 65536 + f.stride * ((N - 1) / f.sub) + f.stride2 * (f.sub - 1) < 65536 ∧ f.base / 65536 ∈ ps) : f.block n ∈ ps := by
  obtain ⟨hsub, hlo, hfit, hmem⟩ := hfit
  have hrow : f.stride * (n / f.sub) ≤ f.stride * ((N - 1) / f.sub) :=
    Nat.mul_le_mul_left _ (Nat.div_le_div_right (by omega))
  have hcol : f.stride2 * (n % f.sub) ≤ f.stride2 * (f.sub - 1) :=
    Nat.mul_le_mul_left _ (by have := Nat.mod_lt n hsub; omega)
  have hblock : f.block n = f.base / 65536 := by
    unfold Fld.block Fld.key Fld.addr
    omega
  rwa [hblock]

end Sys2Proof.Machine
end

section
/-! PROOF. The other core: MOLT_PUPA_BOOTED, PUPA_LOST, FAILED_CORE_RELEASE and PUPA_READY
(spec/05_chirp_and_tick_cores.md R221, R229, R230, R237; spec/03_startup_and_images.md R131 to R133). -/

namespace Sys2Proof.Machine

set_option Elab.async false

theorem answers_of_onRunningField {i : Instr} {s : State} {g : Field → Field} {P : State → Prop}
    (hexec : exec i s = .next (s.onRunningField g)) (hb : s.field.core.bootState ≠ 1) (h : P { s with field := g s.field }) :
    Answers i s P :=
  ⟨{ s with field := g s.field }, by rw [hexec, State.onRunningField, if_neg hb], h⟩

/-! ### Crossings of one core (R587) -/

theorem Core.setReq_within (s : Core) (id : Nat) (r : Option (Nat × Nat)) (held : Nat) : Within [] [.cdc] s (s.setReq id r held) :=
  (Within.refl _ _ s).cdc _
theorem Core.cdcSettle_within (s : Core) (id : Nat) : Within [] [.cdc] s (s.cdcSettle id).2 := by
  unfold Core.cdcSettle
  split
  · exact .refl _ _ s
  · extract_lets t' held
    split_ifs
    · exact .refl _ _ s
    · exact s.setReq_within _ _ _
    · exact s.setReq_within _ _ _
    · exact s.setReq_within _ _ _
theorem Core.cdcNote_within (s : Core) (id kind : Nat) : Within [0x19] [] s (s.cdcNote id kind) := ((Within.refl _ _ s).wrs).wr2 _
theorem Core.setOut_within (s : Core) (l : List Nat) : Within [0x19] [.cdc] s (s.setOut l) := ((Within.refl _ _ s).cdc _).wrs
theorem Core.cdcAbort_within (s : Core) (id : Nat) : Within [0x19, 0x1B] [.cdc, .limits, .cmdq] s (s.cdcAbort id) := by
  unfold Core.cdcAbort
  extract_lets t n u
  have ht : Within [0x19, 0x1B] [.cdc, .limits, .cmdq] s t := (Within.refl _ _ s).next (s.cdcSettle_within id)
  split
  · exact ht
  · exact ((((ht.inc 1).inc n).next (Core.cdcNote_within _ _ _)).next (Core.setReq_within _ _ _ _)).emitLim _ _ _
theorem Core.cdcReset_within (s : Core) (p : Nat → Bool) : Within [0x19, 0x1B] [.cdc, .limits, .cmdq] s (s.cdcReset p) := by
  unfold Core.cdcReset
  extract_lets hit t
  have ht : Within [0x19, 0x1B] [.cdc, .limits, .cmdq] s t := (Within.refl _ _ s).foldl hit fun id _ s => s.cdcAbort_within id
  split
  · exact ht.next (Core.setOut_within _ _)
  · exact ht

/-! ### The pupa's registers -/

/-- What tells of the pupa. -/
def pupaKeys : List Nat := [TCK_STATUS.PUPA_STATE.key 0, SYS_BOOT.CKPT_MATCH.key 0, LOG_EVT_OVWR_CNT.COUNT.key 0]
theorem Core.pupaDown_regs (s : Core) (st : Nat) : SameRegs pupaKeys s (s.pupaDown st) := (SameRegs.refl _ s).wrs
theorem Core.pupaDown_parts (s : Core) (st : Nat) : Touches [] s (s.pupaDown st) := (Within.refl [0, 2] [] s).wrs.parts
theorem Core.pupaDown_reads (s : Core) {st : Nat} (h : st < 4) :
    (s.pupaDown st).rd TCK_STATUS.PUPA_STATE = st ∧ (s.pupaDown st).rd SYS_BOOT.CKPT_MATCH = 0 :=
  ⟨((Core.rd_wr_ne _ SYS_BOOT.CKPT_MATCH TCK_STATUS.PUPA_STATE _ _ _ (by decide)).trans (Core.rd_wr _ _ _ _)).trans
    (Nat.mod_eq_of_lt h), Core.rd_wr _ _ _ _⟩
theorem Core.pupaUp_regs (s : Core) : SameRegs pupaKeys s s.pupaUp := by
  unfold Core.pupaUp
  extract_lets e g t
  have ht : SameRegs pupaKeys s t := (SameRegs.refl _ s).wrs
  split
  · exact ht
  · exact ht.emit _ _ _ (by decide)

/-! ### A core held for good, and a core that runs an image -/

theorem failFld_ne (core : Nat) (g : Fld) (m : Nat) (ha : g.key m ≠ SYS_BOOT.TC_A_FAIL.key 0) (hb : g.key m ≠ SYS_BOOT.TC_B_FAIL.key 0) :
    g.key m ≠ (failFld core).key 0 := by
  unfold failFld
  split <;> assumption
theorem failFld_block (core : Nat) : (failFld core).block 0 = 0 := by
  unfold failFld
  split <;> decide
theorem failFld_width (core : Nat) : (failFld core).width = 1 := by
  unfold failFld
  split <;> decide

theorem failFld_key_notMem {core : Nat} {ks : List Nat} (ha : SYS_BOOT.TC_A_FAIL.key 0 ∉ ks) (hb : SYS_BOOT.TC_B_FAIL.key 0 ∉ ks) :
    (failFld core).key 0 ∉ ks := by
  unfold failFld
  split <;> assumption

/-- The registers of a core held for good. -/
def heldKeys (core : Nat) : List Nat := (failFld core).key 0 :: pupaKeys
theorem Core.holdCore_regs (s : Core) (core cause : Nat) : SameRegs (heldKeys core) s (s.holdCore core cause) :=
  (((s.pupaDown_regs 0).mono (List.subset_cons_self _ _)).wr 1 List.mem_cons_self).emit _ _ _ (by simp [pupaKeys])
theorem Core.holdCore_parts (s : Core) (core cause : Nat) : Touches [.cmdq] s (s.holdCore core cause) :=
  (((s.pupaDown_parts 0).mono (List.nil_subset _)).trans
    (((Within.refl [0] _ _).wr 1 (by rw [failFld_block]; decide)).parts)).trans (.emit _ _ _ _)
theorem Core.holdCore_reads (s : Core) (core cause : Nat) :
    (s.holdCore core cause).rd (failFld core) = 1 ∧ (s.holdCore core cause).rd TCK_STATUS.PUPA_STATE = 0 := by
  have hown : (s.pupaDown 0 |>.wr (failFld core) 1).rd (failFld core) = 1 := by rw [Core.rd_wr, failFld_width]; rfl
  refine ⟨(Core.rd_emit_ne _ _ _ _ _ _ ?_).trans hown,
    ((Core.rd_emit_ne _ _ _ _ _ _ (by decide)).trans (Core.rd_wr_ne _ _ _ _ _ _ ?_)).trans (s.pupaDown_reads (by decide)).1⟩
  · exact (failFld_ne core LOG_EVT_OVWR_CNT.COUNT 0 (by decide) (by decide)).symm
  · exact failFld_ne core TCK_STATUS.PUPA_STATE 0 (by decide) (by decide)
/-- The identity registers of a core's image. -/
theorem Core.showImage_slot (s : Core) (core : Fin 2) (slot : Fin 4) (reason : Nat) (d : Bytes) :
    (s.showImage core.val slot.val reason d).rd SYS_FW.SLOT core.val = slot.val := by
  unfold Core.showImage
  extract_lets mem t
  rw [Core.wrs, List.foldl_cons]
  refine (Core.rd_wrs_ne _ _ _ _ _ (by simp only [List.forall_mem_cons]; revert core; decide)).trans ?_
  rw [Core.rd_wr]
  exact Nat.mod_eq_of_lt slot.isLt
theorem Core.showImage_within (s : Core) (core : Fin 2) (slot reason : Nat) (d : Bytes) :
    Within [0] [.tck] s (s.showImage core.val slot reason d) := by
  unfold Core.showImage
  extract_lets mem t
  exact ((Within.refl _ _ s).tck _).wrs (by simp only [List.forall_mem_cons]; revert core; decide)
/-- Showing an image changes, of the tick cores' records, what lies in the cores' own memories alone. -/
theorem Core.showImage_tck (s : Core) (core slot reason : Nat) (d : Bytes) :
    ∃ la lb, (s.showImage core slot reason d).tck = { s.tck with localA := la, localB := lb } := by
  unfold Core.showImage
  extract_lets mem t
  by_cases h : core = 0
  · exact ⟨mem, t.localB, by rw [Core.wrs_only, if_pos h]⟩
  · exact ⟨t.localA, mem, by rw [Core.wrs_only, if_neg h]⟩

theorem Core.showNoImage_within (s : Core) (core : Fin 2) (reason : Nat) : Within [0] [] s (s.showNoImage core.val reason) :=
  (Within.refl _ _ s).wrs (by simp only [List.forall_mem_cons]; revert core; decide)

/-- What loading a core's image changes: its identity, what it reports, and the core's own memory. -/
theorem loadCore_spec (f : Field) (core : Fin 2) (slot : Nat) (bad : Nat → Bool) :
    Within [0, 0x1B] [.tck, .cmdq] f.core (loadCore f core.val slot bad).2.core ∧
    ∃ la lb, (loadCore f core.val slot bad).2.core.tck = { f.core.tck with localA := la, localB := lb } := by
  have hrefused : ∀ (s : Core) (slot r : Nat), Within [0, 0x1B] [.tck, .cmdq] s (s.imageRefused core.val slot r) :=
    fun s slot r => (Within.refl _ _ s).emit _ _ _
  unfold loadCore
  extract_lets s run r t g
  have ht : Within [0, 0x1B] [.tck, .cmdq] f.core t := hrefused _ _ _
  have htck : t.tck = f.core.tck := Core.emit_tck _ _ _ _
  split_ifs
  · exact ⟨(Within.refl _ _ f.core).next (f.core.showImage_within core _ _ _), f.core.showImage_tck _ _ _ _⟩
  · have hu := ht.emit 0x0241 (core.val + at_ 1 r) 0
    obtain ⟨la, lb, hshow⟩ := (t.emit 0x0241 (core.val + at_ 1 r)).showImage_tck core.val 2 r ((t.flash.image core.val 2).getD [])
    exact ⟨hu.next (Core.showImage_within _ core _ _ _), la, lb, hshow.trans (by rw [Core.emit_tck, htck])⟩
  · refine ⟨((ht.trans (hrefused _ _ _)).next (Core.showNoImage_within _ core _)).wr 1 (by rw [failFld_block]; decide),
      f.core.tck.localA, f.core.tck.localB, ?_⟩
    rw [Core.wr_tck, Core.showNoImage, Core.wrs_only, Core.imageRefused, Core.emit_tck, htck]

/-! ### MOLT_PUPA_BOOTED (R237) -/

/-- A MOLT that ends in error, or is not there. -/
theorem Core.endMolt_asyncErr_spec (s : Core) (st d v : Nat) :
    (s.endMolt fun op s => s.asyncErr op st d v).tck = { s.tck with molt := none } ∧
    SameRegs [TCK_STATUS.MOLT_PENDING.key 0, LOG_EVT_OVWR_CNT.COUNT.key 0] s (s.endMolt fun op s => s.asyncErr op st d v) ∧
    Touches [.tck, .cmdq] s (s.endMolt fun op s => s.asyncErr op st d v) := by
  unfold Core.endMolt
  split
  · next h => exact ⟨by rw [← h], .refl _ s, .refl _ s⟩
  · next m _ =>
    exact ⟨Core.asyncDone_tck _ _ _ _,
      ((SameRegs.of_regs (b := s.setTck _) rfl).wr 0).trans ((Core.asyncDone_regs _ _ _ _).mono (by decide)),
      ((((Within.refl [2, 0x1B] [.tck, .cmdq] s).tck _).wr 0).asyncErr _ _ _ _).parts⟩
theorem Core.endMolt_asyncErr_pending {s : Core} {m : Molt} (h : s.tck.molt = some m) (st d v : Nat) :
    (s.endMolt fun op s => s.asyncErr op st d v).rd TCK_STATUS.MOLT_PENDING = 0 := by
  rw [Core.endMolt_some h]
  exact (Core.asyncDone_regs _ _ _ _ _ _ (by decide)).trans (Core.rd_wr _ _ _ _)

theorem Core.staged_of_molt {a b : Core} {m : Option Molt} (h : b.tck = { a.tck with molt := m }) (core : Nat) :
    b.staged core = a.staged core := by
  rw [Core.staged, h, Core.staged]
theorem Core.setStaged_molt (s : Core) (core : Nat) (x : Option Nat) : (s.setStaged core x).tck.molt = s.tck.molt := by
  unfold Core.setStaged; split <;> rfl

/-- The pupa of a MOLT fails its self-test. -/
theorem doMoltPupaBooted_of_failed {f : Field} {m : Molt} (bad : List Nat) (hm : f.core.tck.molt = some m)
    (hheld : f.core.tck.held = none) (hboot : m.booted = false) :
    doMoltPupaBooted false bad f = f.onCore fun s =>
      ((s.setStaged m.core none).holdCore m.core 2).endMolt fun op s => s.asyncErr op 0x40 0 0x0209 := by
  simp [doMoltPupaBooted, hm, hheld, hboot]

/-- The pupa of a MOLT boots: the staged image, or its active one, after which the MOLT is over. -/
theorem doMoltPupaBooted_molt {f : Field} {m : Molt} {core : Fin 2} {slot : Fin 4} (bad : List Nat) (hm : f.core.tck.molt = some m)
    (hheld : f.core.tck.held = none) (hboot : m.booted = false) (hcore : m.core = core.val) (hslot : m.slot = slot.val) :
    (doMoltPupaBooted true bad f).core.tck.molt =
      (if imageReason (f.core.flash.image core.val slot.val) (bad.contains slot.val) = 0 then some { m with booted := true } else none) ∧
    ((doMoltPupaBooted true bad f).core.tck.molt.isSome →
      (doMoltPupaBooted true bad f).core.rd SYS_FW.SLOT core.val = slot.val) := by
  unfold doMoltPupaBooted
  extract_lets s
  have hflash : (f.core.setStaged core.val none).flash = f.core.flash := Core.setStaged_flash _ _ _
  simp only [s, hm, hheld, hboot, hflash, hcore, hslot, Bool.false_eq_true, Option.isSome_none, or_self, Bool.not_true, if_false]
  generalize imageReason (f.core.flash.image core.val slot.val) (bad.contains slot.val) = r
  have hslotKey : ∀ core : Fin 2, SYS_FW.SLOT.key core.val ∉ pupaKeys := by decide
  split
  · refine ⟨rfl, fun _ => ?_⟩
    exact (Core.pupaUp_regs _ _ _ (hslotKey core)).trans (Core.showImage_slot _ _ _ _ _)
  · have hend := fun t : Core => congrArg TckSt.molt (t.endMolt_asyncErr_spec 0x40 0 0x0242).1
    simp only [Field.onCore]
    exact ⟨hend _, fun h => absurd h (by rw [hend]; simp)⟩

/-- Settles O13: a failed self-test holds the core and ends the MOLT; else the image's check decides. -/
theorem moltGoesOnWithAGoodImage : Obligations.MoltGoesOnWithAGoodImage := by
  unfold Obligations.MoltGoesOnWithAGoodImage
  intro s m core slot hb hm hheld hboot hcore hslot
  refine ⟨fun bad => ?_, fun bad => ?_⟩
  · have hrun := doMoltPupaBooted_of_failed (bad.map Fin.val) hm hheld hboot
    let a : Core := s.field.core.setStaged m.core none
    have ha : a.staged core.val = none := by unfold a; rw [hcore]; exact Core.setStaged_self _ _ _
    have hregs : SameRegs [] s.field.core a := .of_regs (Core.setStaged_regs _ _ _)
    have hmolt : a.tck.molt = some m := (Core.setStaged_molt _ _ _).trans hm
    change _ = s.field.onCore fun _ => (a.holdCore m.core 2).endMolt fun op s => s.asyncErr op 0x40 0 0x0209 at hrun
    clear_value a
    have hhold := a.holdCore_regs m.core 2
    have htck : (a.holdCore m.core 2).tck = a.tck := a.holdCore_parts m.core 2 .tck (by decide)
    obtain ⟨hfail, hpupa⟩ := a.holdCore_reads m.core 2
    have hmolt' : (a.holdCore m.core 2).tck.molt = some m := by rw [htck]; exact hmolt
    rw [hcore] at *
    generalize a.holdCore core.val 2 = b at *
    obtain ⟨hend, hendRegs, -⟩ := b.endMolt_asyncErr_spec 0x40 0 0x0209
    have hpending := Core.endMolt_asyncErr_pending hmolt' 0x40 0 0x0209
    refine answers_of_onRunningField (g := doMoltPupaBooted false (bad.map Fin.val)) rfl hb ?_
    rw [hrun]
    refine ⟨congrArg TckSt.molt hend, hpending, (hendRegs _ _ (failFld_key_notMem (by decide) (by decide))).trans hfail,
      (hendRegs _ _ (by decide)).trans hpupa,
      (Core.staged_of_molt hend _).trans ((Core.staged_congr htck _).trans ha), ?_, rfl, rfl, rfl⟩
    have hheldKeys : ∀ core : Fin 2, heldKeys core.val ⊆ [TCK_STATUS.MOLT_PENDING.key 0, (failFld core.val).key 0,
        TCK_STATUS.PUPA_STATE.key 0, SYS_BOOT.CKPT_MATCH.key 0, LOG_EVT_OVWR_CNT.COUNT.key 0] := by decide
    exact ((hregs.mono (List.nil_subset _)).trans (hhold.mono (hheldKeys core))).trans (hendRegs.mono (by simp))
  · obtain ⟨hmolt, hshow⟩ := doMoltPupaBooted_molt (slot := ⟨slot.val, by omega⟩) (bad.map Fin.val) hm hheld hboot hcore hslot
    exact answers_of_onRunningField (g := doMoltPupaBooted true (bad.map Fin.val)) rfl hb ⟨hmolt, hshow, rfl, rfl⟩

end Sys2Proof.Machine
end

section
/-! PROOF. A pupa that is lost, released and ready again (spec/05_chirp_and_tick_cores.md R221, R229, R230). -/

namespace Sys2Proof.Machine

set_option Elab.async false

/-- A core put into reset. -/
theorem Core.hold_spec (s : Core) (core : Nat) :
    (s.hold core).tck = { s.tck with held := some core, heldAt := s.etime, pupaSilent := 0 } ∧
    (s.hold core).rd TCK_STATUS.PUPA_STATE = 0 ∧ (s.hold core).rd SYS_BOOT.CKPT_MATCH = 0 ∧
    Within [0, 2, 0x19, 0x1B] [.cdc, .limits, .cmdq, .tck] s (s.hold core) := by
  have hreset := s.cdcReset_within (crossesDomain 5 core)
  exact ⟨rfl, ((s.resetCore core).pupaDown_reads (by decide)).1, ((s.resetCore core).pupaDown_reads (by decide)).2,
    (((Within.refl _ _ s).next hreset).wrs).tck _⟩

theorem doPupaLost_eq {s : Core} (hlive : 2 ≤ s.rd TCK_STATUS.PUPA_STATE) (hsilent : 16 ≤ s.tck.pupaSilent) :
    doPupaLost s =
      let t := (s.emit 0x0209 (s.pupa + at_ 1 1)).hold s.pupa
      t.setTck { t.tck with molt := t.tck.molt.map fun m => if m.swapped then m else { m with booted := false } } := by
  unfold doPupaLost
  rw [if_neg (by omega)]

theorem pupaLost_answers {s : State} (hb : s.field.core.bootState ≠ 1) (hlive : 2 ≤ s.field.core.rd TCK_STATUS.PUPA_STATE)
    (hsilent : 16 ≤ s.field.core.tck.pupaSilent) :
    Answers .pupaLost s fun t =>
      t.field.core.tck.molt = s.field.core.tck.molt.map (fun m => if m.swapped then m else { m with booted := false }) ∧
      t.field.core.tck.held = some s.field.core.pupa ∧ t.field.core.rd TCK_STATUS.PUPA_STATE = 0 ∧
      t.field.core.rd SYS_BOOT.CKPT_MATCH = 0 ∧ t.field.core.tck.pupaSilent = 0 ∧
      SameOutside [0x00, 0x02, 0x19, 0x1B] s.field.core t.field.core ∧ CoreOnly s t := by
  obtain ⟨htck, hpupa, hmatch, hframe⟩ := (s.field.core.emit 0x0209 (s.field.core.pupa + at_ 1 1)).hold_spec s.field.core.pupa
  rw [Core.emit_tck] at htck
  have hemit := (Within.refl [0, 2, 0x19, 0x1B] [.cdc, .limits, .cmdq, .tck] s.field.core).emit 0x0209 (s.field.core.pupa + at_ 1 1) 0
  have hrun := doPupaLost_eq hlive hsilent
  generalize (s.field.core.emit 0x0209 (s.field.core.pupa + at_ 1 1)).hold s.field.core.pupa = u at *
  refine answers_of_onRunning (g := doPupaLost) rfl hb ⟨?molt, ?held, ?pupa, ?ckpt, ?silent, ?regs, CoreOnly.onCore s _⟩
  all_goals simp only [State.onCore, Field.onCore, hrun]
  case molt => rw [Core.setTck, htck]
  case held => rw [Core.setTck, htck]
  case silent => rw [Core.setTck, htck]
  case pupa => exact hpupa
  case ckpt => exact hmatch
  case regs => exact ((hemit.trans hframe).tck _).regs

/-! ### FAILED_CORE_RELEASE -/

/-- A released core that stays in reset for good. -/
def Core.dropped (s : Core) (core cause : Nat) : Core :=
  ((s.setStaged core none).setTck { (s.setStaged core none).tck with held := none }).holdCore core cause

/-- With no MOLT of that core, nothing else ends with it. -/
theorem Core.dropped_unmolted {s : Core} {core : Nat} (hmolt : ∀ m, s.tck.molt = some m → m.core ≠ core) (cause : Nat) :
    (s.dropped core cause).tck.molt.any (fun m => m.core == core) = false := by
  have htck : (s.dropped core cause).tck.molt = s.tck.molt :=
    (congrArg TckSt.molt (Core.holdCore_parts _ core cause .tck (by decide))).trans (s.setStaged_molt core none)
  rw [htck]
  cases hm : s.tck.molt with
  | none => rfl
  | some m => simpa using hmolt m hm
theorem Core.dropped_spec (s : Core) (core : Fin 2) (cause : Nat) (hc : cause < 256) :
    (s.dropped core.val cause).tck.held = none ∧ (s.dropped core.val cause).rd (failFld core.val) = 1 ∧
    (s.dropped core.val cause).rd TCK_STATUS.PUPA_STATE = 0 ∧
    s.Raised (s.dropped core.val cause) 0x0209 (core.val + 256 * cause) ∧ (s.dropped core.val cause).etime = s.etime ∧
    SameRegs [(failFld core.val).key 0, TCK_STATUS.PUPA_STATE.key 0, SYS_BOOT.CKPT_MATCH.key 0, LOG_EVT_OVWR_CNT.COUNT.key 0]
      s (s.dropped core.val cause) := by
  let a : Core := (s.setStaged core.val none).setTck { (s.setStaged core.val none).tck with held := none }
  have hparts := a.holdCore_parts core.val cause
  have hstaged : a.regs = s.regs ∧ a.etime = s.etime ∧ a.cmdq = s.cmdq ∧ a.tck.running = s.tck.running := by
    unfold a Core.setStaged
    split <;> exact ⟨rfl, rfl, rfl, rfl⟩
  obtain ⟨hregs, htime, hq, hrun⟩ := hstaged
  refine ⟨congrArg TckSt.held (hparts .tck (by decide)), (a.holdCore_reads core.val cause).1, (a.holdCore_reads core.val cause).2,
    ?_, (hparts .etime (by decide)).trans htime, (SameRegs.of_regs hregs).trans (a.holdCore_regs core.val cause)⟩
  rw [show core.val + 256 * cause = core.val + at_ 1 cause by simp [at_, Nat.mul_comm]]
  exact Core.raised_emit_of (by simp only [at_]; omega) hq hrun

theorem doFailedCoreRelease_of_drop {f : Field} {core : Nat} {selfTest : Bool} (bad : List Nat) {cause : Nat}
    (hheld : f.core.tck.held = some core) (hmolt : ∀ m, f.core.tck.molt = some m → m.core ≠ core)
    (h : 3 ≤ f.core.rd (failCnt core) ∧ cause = 4 ∨ f.core.rd (failCnt core) < 3 ∧ selfTest = false ∧ cause = 2) :
    doFailedCoreRelease selfTest bad f = ⟨(f.core.reach (f.core.tck.heldAt + 10000000)).dropped core cause, f.dram⟩ := by
  have hany := Core.dropped_unmolted (s := f.core.reach (f.core.tck.heldAt + 10000000)) hmolt
  have hcnt : ((f.core.reach (f.core.tck.heldAt + 10000000)).setStaged core none).rd (failCnt core) = f.core.rd (failCnt core) :=
    Core.rd_congr (Core.setStaged_regs _ _ _) _ _
  unfold doFailedCoreRelease
  rw [hheld]
  dsimp -zeta only
  extract_lets t drop u
  have hdrop : ∀ c, drop u c = t.dropped core c := fun c => if_neg (Bool.eq_false_iff.1 (hany c))
  rw [show u.rd (failCnt core) = _ from hcnt, hdrop, hdrop]
  rcases h with ⟨h3, rfl⟩ | ⟨h3, rfl, rfl⟩
  · rw [if_pos h3]
  · rw [if_neg (by omega), if_pos (by decide)]

/-- A release that goes as far as the image load. -/
theorem doFailedCoreRelease_of_load {f : Field} {core : Fin 2} (bad : List Nat)
    (hheld : f.core.tck.held = some core.val) (hmolt : ∀ m, f.core.tck.molt = some m → m.core ≠ core.val)
    (h : f.core.rd (failCnt core.val) < 3) :
    (doFailedCoreRelease true bad f).core.staged core.val = none ∧
    (doFailedCoreRelease true bad f).core.etime = max f.core.etime (f.core.tck.heldAt + 10000000) ∧
    ((doFailedCoreRelease true bad f).core.tck.held = some core.val ∧
        (doFailedCoreRelease true bad f).core.rd TCK_STATUS.PUPA_STATE = 1 ∨
      (doFailedCoreRelease true bad f).core.tck.held = none ∧ (doFailedCoreRelease true bad f).core.rd (failFld core.val) = 1 ∧
        (doFailedCoreRelease true bad f).core.rd TCK_STATUS.PUPA_STATE = 0) := by
  let t : Core := f.core.reach (f.core.tck.heldAt + 10000000)
  let u : Core := t.setStaged core.val none
  have hcnt : u.rd (failCnt core.val) = f.core.rd (failCnt core.val) := Core.rd_congr (Core.setStaged_regs _ _ _) _ _
  obtain ⟨hload, la, lb, htck⟩ := loadCore_spec ⟨u, f.dram⟩ core (u.flash.activeSlot core.val) bad.contains
  have hrun : doFailedCoreRelease true bad f =
      (loadCore ⟨u, f.dram⟩ core.val (u.flash.activeSlot core.val) bad.contains).2.onCore fun s =>
        if (loadCore ⟨u, f.dram⟩ core.val (u.flash.activeSlot core.val) bad.contains).1 then s.wr TCK_STATUS.PUPA_STATE 1
        else
          let s := (s.setTck { s.tck with held := none }).holdCore core.val 3
          if s.tck.molt.any fun m => m.core == core.val then s.endMolt fun op s => s.asyncErr op 0x40 0 0x0209 else s := by
    unfold doFailedCoreRelease
    rw [hheld]
    dsimp -zeta only
    rw [if_neg (show ¬ 3 ≤ u.rd (failCnt core.val) by omega), if_neg (by decide)]
  have hustaged : u.staged core.val = none := Core.setStaged_self _ _ _
  have hutime : u.etime = max f.core.etime (f.core.tck.heldAt + 10000000) := by
    unfold u Core.setStaged; split <;> rfl
  have huheld : u.tck.held = some core.val := by
    unfold u Core.setStaged; split <;> exact hheld
  have humolt : u.tck.molt = f.core.tck.molt := Core.setStaged_molt _ _ _
  clear_value u
  generalize loadCore ⟨u, f.dram⟩ core.val (u.flash.activeSlot core.val) bad.contains = x at *
  obtain ⟨runs, g⟩ := x
  dsimp only at hload htck hrun
  have hgstaged : ∀ y : Core, (∃ o, y.tck = { g.core.tck with held := o }) → y.staged core.val = none := by
    rintro y ⟨o, hy⟩
    rw [← hustaged, Core.staged, Core.staged, hy, htck]
  have hgtime : g.core.etime = u.etime := hload.parts .etime (by decide)
  rw [hrun]
  cases runs with
  | true =>
    exact ⟨hgstaged _ ⟨g.core.tck.held, rfl⟩, hgtime.trans hutime, .inl ⟨by
      change g.core.tck.held = _
      rw [htck]; exact huheld, Core.rd_wr _ _ _ _⟩⟩
  | false =>
    have hparts := (g.core.setTck { g.core.tck with held := none }).holdCore_parts core.val 3
    obtain ⟨hfail, hpupa⟩ := (g.core.setTck { g.core.tck with held := none }).holdCore_reads core.val 3
    have hany : ((g.core.setTck { g.core.tck with held := none }).holdCore core.val 3).tck.molt.any (fun m => m.core == core.val) = false := by
      rw [show Core.tck _ = _ from hparts .tck (by decide)]
      change g.core.tck.molt.any _ = false
      rw [htck]
      change u.tck.molt.any _ = false
      rw [humolt]
      cases hm : f.core.tck.molt with
      | none => rfl
      | some m => simpa using hmolt m hm
    simp only [Field.onCore, hany, Bool.false_eq_true, if_false]
    exact ⟨hgstaged _ ⟨none, hparts .tck (by decide)⟩, ((hparts .etime (by decide)).trans hgtime).trans hutime,
      .inr ⟨congrArg TckSt.held (hparts .tck (by decide)), hfail, hpupa⟩⟩

/-! ### PUPA_READY -/

theorem Core.pupaUp_reads (s : Core) :
    s.pupaUp.rd TCK_STATUS.PUPA_STATE = (if s.rd SYS_EPOCH.CKPT_EPOCH 0 = s.rd SYS_EPOCH.CKPT_EPOCH 1 then 2 else 3) ∧
    s.pupaUp.rd SYS_BOOT.CKPT_MATCH = (if s.rd SYS_EPOCH.CKPT_EPOCH 0 = s.rd SYS_EPOCH.CKPT_EPOCH 1 then 1 else 0) := by
  unfold Core.pupaUp
  extract_lets e g t
  have hstate : t.rd TCK_STATUS.PUPA_STATE = if e = g then 2 else 3 := by
    refine ((Core.rd_wr_ne _ SYS_BOOT.CKPT_MATCH TCK_STATUS.PUPA_STATE _ _ _ (by decide)).trans (Core.rd_wr _ _ _ _)).trans ?_
    split <;> rfl
  have hmatch : t.rd SYS_BOOT.CKPT_MATCH = if e = g then 1 else 0 := by
    refine (Core.rd_wr _ _ _ _).trans ?_
    by_cases h : e = g <;> simp [h, b2n, show SYS_BOOT.CKPT_MATCH.width = 1 from rfl]
  change _ = (if e = g then 2 else 3) ∧ _ = (if e = g then 1 else 0)
  rw [← hstate, ← hmatch]
  split
  · exact ⟨rfl, rfl⟩
  · exact ⟨Core.rd_emit_ne _ _ _ _ _ _ (by decide), Core.rd_emit_ne _ _ _ _ _ _ (by decide)⟩

/-- A restarted core that has become pupa, before any revert is due. -/
def Core.pupaReady (s : Core) (core : Nat) : Core :=
  (s.pupaUp.setTck { s.pupaUp.tck with held := none, pupaSilent := 0 }).emit 0x0208 core

theorem doPupaReady_eq {s : Core} {core : Nat} (hheld : s.tck.held = some core) (hstate : s.rd TCK_STATUS.PUPA_STATE = 1) :
    doPupaReady s = if core = 0 ∧ s.rd SYS_BOOT.IMAGO = 1 ∧ (s.rd TCK_LAST_GAP.KIND = 1 ∨ s.rd TCK_LAST_GAP.KIND = 5)
      then (s.pupaReady core).wr TCK_STATUS.REVERT_PENDING 1 else s.pupaReady core := by
  have hread : ∀ (f : Fld), f.key 0 ∉ pupaKeys → (s.pupaReady core).rd f = s.rd f := fun f hf =>
    (Core.rd_emit_ne _ _ _ _ _ _ fun e => hf (by simp [e, pupaKeys])).trans (s.pupaUp_regs f 0 hf)
  unfold doPupaReady
  rw [hheld]
  dsimp -zeta only
  rw [if_neg (by simp [hstate])]
  change (if core = 0 ∧ (s.pupaReady core).rd SYS_BOOT.IMAGO = 1 ∧
    ((s.pupaReady core).rd TCK_LAST_GAP.KIND = 1 ∨ (s.pupaReady core).rd TCK_LAST_GAP.KIND = 5) then _ else _) = _
  rw [hread _ (by decide), hread _ (by decide)]
  rfl

theorem pupaReady_answers {core : Fin 2} {s : State} (hb : s.field.core.bootState ≠ 1) (hheld : s.field.core.tck.held = some core.val)
    (hstate : s.field.core.rd TCK_STATUS.PUPA_STATE = 1) :
    Answers .pupaReady s fun t =>
      t.field.core.tck.held = none ∧
      t.field.core.rd TCK_STATUS.PUPA_STATE =
        (if s.field.core.rd SYS_EPOCH.CKPT_EPOCH 0 = s.field.core.rd SYS_EPOCH.CKPT_EPOCH 1 then 2 else 3) ∧
      t.field.core.rd SYS_BOOT.CKPT_MATCH =
        (if s.field.core.rd SYS_EPOCH.CKPT_EPOCH 0 = s.field.core.rd SYS_EPOCH.CKPT_EPOCH 1 then 1 else 0) ∧
      t.field.core.newest 0x0208 = some (0x0208, core.val) ∧
      t.field.core.rd TCK_STATUS.REVERT_PENDING =
        (if core.val = 0 ∧ s.field.core.rd SYS_BOOT.IMAGO = 1 ∧
            (s.field.core.rd TCK_LAST_GAP.KIND = 1 ∨ s.field.core.rd TCK_LAST_GAP.KIND = 5) then 1
         else s.field.core.rd TCK_STATUS.REVERT_PENDING) ∧
      SameRegs [TCK_STATUS.PUPA_STATE.key 0, SYS_BOOT.CKPT_MATCH.key 0, TCK_STATUS.REVERT_PENDING.key 0,
        LOG_EVT_OVWR_CNT.COUNT.key 0] s.field.core t.field.core ∧ CoreOnly s t := by
  obtain ⟨hpupa, hmatch⟩ := s.field.core.pupaUp_reads
  have hrun := doPupaReady_eq hheld hstate
  have hheld' : (s.field.core.pupaReady core.val).tck.held = none := congrArg TckSt.held (Core.emit_tck _ _ _ _)
  have hread : ∀ (f : Fld), f.key 0 ≠ LOG_EVT_OVWR_CNT.COUNT.key 0 →
      (s.field.core.pupaReady core.val).rd f = s.field.core.pupaUp.rd f := fun f hf => Core.rd_emit_ne _ _ _ _ _ _ hf
  have hnewest : (s.field.core.pupaReady core.val).newest 0x0208 = some (0x0208, core.val) :=
    (Core.raised_emit _ _ _ _ (by omega)).1
  have hregs : SameRegs [TCK_STATUS.PUPA_STATE.key 0, SYS_BOOT.CKPT_MATCH.key 0, TCK_STATUS.REVERT_PENDING.key 0,
      LOG_EVT_OVWR_CNT.COUNT.key 0] s.field.core (s.field.core.pupaReady core.val) := by
    have hset : (s.field.core.pupaUp.setTck { s.field.core.pupaUp.tck with held := none, pupaSilent := 0 }).regs =
        s.field.core.pupaUp.regs := rfl
    exact ((s.field.core.pupaUp_regs.mono (by decide)).trans (.of_regs hset)).emit _ _ _
  have hrevert : (s.field.core.pupaReady core.val).rd TCK_STATUS.REVERT_PENDING = s.field.core.rd TCK_STATUS.REVERT_PENDING :=
    (hread _ (by decide)).trans (s.field.core.pupaUp_regs _ _ (by decide))
  refine answers_of_onRunning (g := doPupaReady) rfl hb ?_
  simp only [State.onCore, Field.onCore, hrun]
  generalize s.field.core.pupaReady core.val = u at *
  split
  · exact ⟨hheld', ((Core.rd_wr_ne _ _ _ _ _ _ (by decide)).trans (hread _ (by decide))).trans hpupa,
      ((Core.rd_wr_ne _ _ _ _ _ _ (by decide)).trans (hread _ (by decide))).trans hmatch, hnewest, Core.rd_wr _ _ _ _,
      hregs.wr 1, rfl, rfl, rfl⟩
  · exact ⟨hheld', (hread _ (by decide)).trans hpupa, (hread _ (by decide)).trans hmatch, hnewest, hrevert, hregs, rfl, rfl, rfl⟩

/-- Settles O17: the three rows of the other core, FAILED_CORE_RELEASE by what lets the core run. -/
theorem heldCoresRestartAsPupa : Obligations.HeldCoresRestartAsPupa := by
  unfold Obligations.HeldCoresRestartAsPupa
  refine ⟨fun s hb hlive hsilent => pupaLost_answers hb hlive hsilent, fun core s hb hheld hmolt => ⟨fun st fl h => ?_,
    fun fl h => ?_, fun fl h => ?_⟩, fun core s hb hheld hstate => pupaReady_answers hb hheld hstate⟩
  · refine answers_of_onRunningField (g := doFailedCoreRelease st (fl.map Fin.val)) rfl hb ?_
    rw [doFailedCoreRelease_of_drop _ hheld hmolt (.inl ⟨h, rfl⟩)]
    obtain ⟨h1, h2, h3, h4, h5, h6⟩ := (s.field.core.reach (s.field.core.tck.heldAt + 10000000)).dropped_spec core 4 (by decide)
    exact ⟨h1, h2, h3, h4, h5, h6, rfl, rfl, rfl⟩
  · refine answers_of_onRunningField (g := doFailedCoreRelease false (fl.map Fin.val)) rfl hb ?_
    rw [doFailedCoreRelease_of_drop _ hheld hmolt (.inr ⟨h, rfl, rfl⟩)]
    obtain ⟨h1, h2, h3, h4, h5, h6⟩ := (s.field.core.reach (s.field.core.tck.heldAt + 10000000)).dropped_spec core 2 (by decide)
    exact ⟨h1, h2, h3, h4, h5, h6, rfl, rfl, rfl⟩
  · obtain ⟨hstaged, htime, hstate⟩ := doFailedCoreRelease_of_load (fl.map Fin.val) hheld hmolt h
    exact answers_of_onRunningField (g := doFailedCoreRelease true (fl.map Fin.val)) rfl hb ⟨hstaged, htime, hstate, rfl, rfl⟩

end Sys2Proof.Machine
end

section
/-! PROOF. Checkpoints, planned handovers and drills (spec/05_chirp_and_tick_cores.md R211, R224, R233 to R241), and the
governor's step that a handover runs (spec/09_firing_and_speed_governor.md R403 to R407). -/

namespace Sys2Proof.Machine

set_option Elab.async false

/-! ### The governor's step -/

theorem Core.drivePio_within (s : Core) : Within [] [.spg] s s.drivePio := by
  rw [Core.drivePio_only]
  exact (Within.refl _ _ s).spg _
theorem Core.drivePwm_within (s : Core) : Within [] [.spg] s s.drivePwm := by
  unfold Core.drivePwm
  exact (Within.refl _ _ s).foldl _ fun c _ s => (Within.refl _ _ s).spg _
theorem Core.averageRing_within (s : Core) : Within [] [.spg] s s.averageRing := (Within.refl _ _ s).spg _
/-- The code of an SPD output lies in the governor's block. -/
theorem spdCode_block {c : Nat} (h : c ∈ [0, 1]) : SPG_SPD_VAL.CODE.block c ∈ [0x11, 0x1B] := by
  revert c
  simp only [List.forall_mem_cons]
  decide
theorem Core.rampDown_within (s : Core) : Within [0x11, 0x1B] [.spg] s s.rampDown := by
  unfold Core.rampDown
  refine Within.next ?_ (Core.drivePwm_within _)
  refine (Within.refl _ _ s).foldl _ fun c hc s => ?_
  extract_lets v full x step w t
  exact ((Within.refl _ _ s).spg _).wr _ (spdCode_block hc)
theorem Core.govern_within (s : Core) : Within [0x11, 0x1B] [.spg, .thm, .cmdq, .limits] s s.govern := by
  unfold Core.govern
  extract_lets stat a rw frw starved head die src b terms tgt old down up ceil bnd was fell src' c d e f g
  have ha : Within [0x11, 0x1B] [.spg, .thm, .cmdq, .limits] s a := (Within.refl _ _ s).next s.averageRing_within
  have hd : Within [0x11, 0x1B] [.spg, .thm, .cmdq, .limits] s d := ((ha.thm _).spg _).wrs
  have he : Within [0x11, 0x1B] [.spg, .thm, .cmdq, .limits] s e := .ite (fun _ => hd.emit _ _ _) fun _ => hd
  have hf : Within [0x11, 0x1B] [.spg, .thm, .cmdq, .limits] s f := .ite (fun _ => he.emitEvery _ _ _ _) fun _ => he
  have hg : Within [0x11, 0x1B] [.spg, .thm, .cmdq, .limits] s g :=
    hf.foldl _ fun c hc s => (Within.refl _ _ s).wr _ (spdCode_block hc)
  exact (hg.next (Core.drivePwm_within _)).next (Core.drivePio_within _)
theorem Core.speedStep_within (s : Core) : Within [0x11, 0x1B] [.spg, .thm, .cmdq, .limits] s s.speedStep :=
  .ite (fun _ => (Within.refl _ _ s).next s.rampDown_within) fun _ => s.govern_within

/-! ### A checkpoint (R224) -/

theorem Core.checkpoint_within (s : Core) (handover whole : Bool) : Within [] [.tck] s (s.checkpoint handover whole) := by
  unfold Core.checkpoint
  extract_lets t i k
  exact .ite (fun _ => (Within.refl _ _ s).tck _) fun _ => (Within.refl _ _ s).tck _
/-- Of the tick cores' records, a checkpoint changes the banks. -/
theorem Core.checkpoint_tck (s : Core) (handover whole : Bool) :
    ∃ x y, (s.checkpoint handover whole).tck = { s.tck with bank0 := x, bank1 := y } := by
  unfold Core.checkpoint
  extract_lets t i k
  split
  · exact ⟨t.bank0, some k, rfl⟩
  · exact ⟨some k, t.bank1, rfl⟩

/-! ### PLANNED_HANDOVER (R233) -/

theorem Core.seize_within (s : Core) (core kind gap : Nat) (cnt : Fld) (hc : cnt.block 0 = 2) :
    Within [0, 2] [.tck] s (s.seize core kind gap cnt) := by
  unfold Core.seize
  extract_lets t u
  exact ((((Within.refl _ _ s).wrs).wr2 _).inc 1 (by rw [hc]; decide)).tck _
/-- What a core shows that has become imago. -/
theorem Core.seize_reads (s : Core) (core : Fin 2) (kind : Fin 16) (gap : Nat) (cnt : Fld)
    (hc : cnt = TCK_SWITCH_CNT.HANDOVERS ∨ cnt = TCK_SWITCH_CNT.TAKEOVERS) :
    (s.seize core.val kind.val gap cnt).rd SYS_BOOT.IMAGO = core.val ∧
    (s.seize core.val kind.val gap cnt).rd TCK_STATUS.LINE_HELD = 1 ∧
    (s.seize core.val kind.val gap cnt).rd TCK_LAST_GAP.NS = satU 24 gap ∧
    (s.seize core.val kind.val gap cnt).rd TCK_LAST_GAP.KIND = kind.val ∧
    (s.seize core.val kind.val gap cnt).rd cnt = satU cnt.width (s.rd cnt + 1) := by
  unfold Core.seize
  extract_lets t u
  change u.rd SYS_BOOT.IMAGO = _ ∧ u.rd TCK_STATUS.LINE_HELD = _ ∧ u.rd TCK_LAST_GAP.NS = _ ∧ u.rd TCK_LAST_GAP.KIND = _ ∧
    u.rd cnt = _
  rcases hc with rfl | rfl <;> (
    simp (disch := decide) only [u, t, Core.wr2, Core.wrs, List.foldl_cons, List.foldl_nil, Core.rd_inc_self, Core.rd_inc_ne,
      Core.rd_wr_ne, Core.rd_wr, and_true]
    exact ⟨Nat.mod_eq_of_lt core.isLt, rfl, Nat.mod_eq_of_lt (satU_lt _ _), Nat.mod_eq_of_lt kind.isLt⟩)

theorem Core.seize_tck (s : Core) (core kind gap : Nat) (cnt : Fld) : (s.seize core kind gap cnt).tck =
    { s.tck with kickAt := s.etime, wireRun := 0, wordRun := 0, dropped := 0, imagoUp := true } := rfl

theorem Core.rd_speedStep_ne (s : Core) (f : Fld) (h : f.block 0 ∉ [0x11, 0x1B]) : s.speedStep.rd f = s.rd f :=
  s.speedStep_within.rd f 0 h

/-- A revert from TC-B to TC-A with nothing else under way (R234). -/
theorem Core.handover_spec {s : Core} (gap : Nat) (himago : s.rd SYS_BOOT.IMAGO = 1) (hmolt : s.tck.molt = none)
    (hdrill : s.tck.drill = none) :
    (s.handover 2 gap).rd SYS_BOOT.IMAGO = 0 ∧ (s.handover 2 gap).rd TCK_STATUS.REVERT_PENDING = 0 ∧
    (s.handover 2 gap).etime = s.etime + min gap 40000 ∧ (s.handover 2 gap).rd TCK_LAST_GAP.NS = min gap 40000 ∧
    (s.handover 2 gap).rd TCK_STATUS.SWITCHING = 0 ∧ (s.handover 2 gap).rd TCK_STATUS.LINE_HELD = 1 ∧
    (s.handover 2 gap).rd TCK_LAST_GAP.KIND = 2 ∧
    (s.handover 2 gap).rd TCK_SWITCH_CNT.HANDOVERS = satU TCK_SWITCH_CNT.HANDOVERS.width (s.rd TCK_SWITCH_CNT.HANDOVERS + 1) ∧
    Within [0x00, 0x02, 0x11, 0x1B] [.tck, .etime, .spg, .thm, .cmdq, .limits] s (s.handover 2 gap) := by
  have hpupa : s.pupa = 0 := by rw [Core.pupa, Core.imago, himago]
  unfold Core.handover
  extract_lets old new resumed g c r z p tck q v
  have hv : v = q.wr TCK_STATUS.REVERT_PENDING 0 := if_pos hpupa
  obtain ⟨hcore, hheld, hgap, hkind, hcnt⟩ := r.seize_reads 0 2 g _ (.inl rfl)
  have hz : z = r.seize (0 : Fin 2).val (2 : Fin 16).val g TCK_SWITCH_CNT.HANDOVERS := by unfold z new; rw [hpupa]; rfl
  have hcframe : Within [0x00, 0x02, 0x11, 0x1B] [.tck, .etime, .spg, .thm, .cmdq, .limits] s c :=
    ((Within.refl _ _ s).next (s.checkpoint_within true true)).wrs
  have hzframe : Within [0x00, 0x02, 0x11, 0x1B] [.tck, .etime, .spg, .thm, .cmdq, .limits] s z :=
    (hcframe.reach _).next (r.seize_within _ _ _ _ rfl)
  have hvframe : Within [0x00, 0x02, 0x11, 0x1B] [.tck, .etime, .spg, .thm, .cmdq, .limits] s v := by
    rw [hv]
    exact ((hzframe.wr _).tck _).wr _
  have hcount : r.rd TCK_SWITCH_CNT.HANDOVERS = s.rd TCK_SWITCH_CNT.HANDOVERS := by
    have hck : (s.checkpoint true).rd TCK_SWITCH_CNT.HANDOVERS = s.rd TCK_SWITCH_CNT.HANDOVERS :=
      (s.checkpoint_within true true).rd _ _ (by decide)
    simp (disch := decide) only [r, c, Core.rd_reach, Core.wrs, List.foldl_cons, List.foldl_nil, Core.rd_wr_ne, hck]
  have htime : v.etime = s.etime + g := by
    have hc : c.etime = s.etime := (s.checkpoint_within true true).parts .etime (by decide)
    rw [hv]
    change max c.etime (c.etime + g) = _
    omega
  have hidle : v.tck.molt = none ∧ v.tck.drill = none := by
    obtain ⟨x, y, hck⟩ := s.checkpoint_tck true true
    have hq : q.tck.molt = (s.checkpoint true).tck.molt ∧ q.tck.drill = (s.checkpoint true).tck.drill := ⟨rfl, rfl⟩
    rw [hck] at hq
    rw [hv, Core.wr_tck]
    exact ⟨hq.1.trans hmolt, hq.2.trans hdrill⟩
  have hvread : ∀ f : Fld, f.key 0 ≠ TCK_STATUS.REVERT_PENDING.key 0 → f.key 0 ≠ TCK_STATUS.PUPA_STATE.key 0 → v.rd f = z.rd f := by
    intro f hr hp
    rw [hv]
    exact (Core.rd_wr_ne _ _ _ _ _ _ hr).trans (Core.rd_wr_ne _ _ _ _ _ _ hp)
  have hrevert : v.rd TCK_STATUS.REVERT_PENDING = 0 := by rw [hv]; exact Core.rd_wr _ _ _ _
  rw [← hz] at hcore hheld hgap hkind hcnt
  clear_value v z r c
  have hafter : ((v.speedStep.wr TCK_STATUS.SWITCHING 0).switchEvent 0x020A new 2 g).afterHandover new g resumed =
      (v.speedStep.wr TCK_STATUS.SWITCHING 0).switchEvent 0x020A new 2 g := by
    have htck : ((v.speedStep.wr TCK_STATUS.SWITCHING 0).switchEvent 0x020A new 2 g).tck = v.tck :=
      (Core.emit_tck _ _ _ _).trans (v.speedStep_within.parts .tck (by decide))
    unfold Core.afterHandover
    rw [htck, hidle.1]
    dsimp only
    rw [htck, hidle.2]
  have hread : ∀ f : Fld, f.block 0 ∉ [0x11, 0x1B] → f.key 0 ≠ TCK_STATUS.SWITCHING.key 0 → f.key 0 ≠ LOG_EVT_OVWR_CNT.COUNT.key 0 →
      ((v.speedStep.wr TCK_STATUS.SWITCHING 0).switchEvent 0x020A new 2 g).rd f = v.rd f := fun f hb hs he =>
    ((Core.rd_emit_ne _ _ _ _ _ _ he).trans (Core.rd_wr_ne _ _ _ _ _ _ hs)).trans (v.rd_speedStep_ne f hb)
  rw [hafter]
  have hg : satU 24 g = g := Nat.min_eq_left (by omega)
  refine ⟨?_, ?_, ?_, ?_, ?_, ?_, ?_, ?_, ((hvframe.next v.speedStep_within).wr _).emit _ _ _⟩
  · rw [hread _ (by decide) (by decide) (by decide), hvread _ (by decide) (by decide), hcore]; rfl
  · rw [hread _ (by decide) (by decide) (by decide), hrevert]
  · rw [Core.switchEvent, Core.emit_etime, Core.wr_etime]
    exact (v.speedStep_within.parts .etime (by decide)).trans htime
  · rw [hread _ (by decide) (by decide) (by decide), hvread _ (by decide) (by decide), hgap, hg]
  · exact (Core.rd_emit_ne _ _ _ _ _ _ (by decide)).trans (Core.rd_wr _ _ _ _)
  · rw [hread _ (by decide) (by decide) (by decide), hvread _ (by decide) (by decide), hheld]
  · rw [hread _ (by decide) (by decide) (by decide), hvread _ (by decide) (by decide), hkind]; rfl
  · rw [hread _ (by decide) (by decide) (by decide), hvread _ (by decide) (by decide), hcnt, hcount]

/-! ### HANDOVER_FAILED (R234) -/

theorem Core.rd_hold_ne (s : Core) (core : Nat) (f : Fld) (hb : f.block 0 ∉ [0x19, 0x1B]) (hk : f.key 0 ∉ pupaKeys) :
    (s.hold core).rd f = s.rd f :=
  ((s.resetCore core).pupaDown_regs 0 f 0 hk).trans ((s.cdcReset_within _).rd f 0 hb)

/-- The releasing core has taken the line back after 100 µs, and says so. -/
def Core.seizeTimedOut (s : Core) : Core :=
  let c := (s.checkpoint true).wrs [(TCK_STATUS.LINE_HELD, 0), (TCK_STATUS.SWITCHING, 1)]
  ((c.reach (c.etime + 100000)).wrs [(TCK_STATUS.LINE_HELD, 1), (TCK_STATUS.SWITCHING, 0)]).emit 0x020B (s.pupa + at_ 1 2)
theorem Core.seizeTimedOut_spec (s : Core) :
    s.seizeTimedOut.etime = s.etime + 100000 ∧
    (∀ f : Fld, f.key 0 ≠ TCK_STATUS.LINE_HELD.key 0 → f.key 0 ≠ TCK_STATUS.SWITCHING.key 0 →
      f.key 0 ≠ LOG_EVT_OVWR_CNT.COUNT.key 0 → s.seizeTimedOut.rd f = s.rd f) ∧
    Within [0x02, 0x1B] [.tck, .etime, .cmdq] s s.seizeTimedOut := by
  unfold Core.seizeTimedOut
  extract_lets c
  have hcheck := s.checkpoint_within true true
  have hcframe : Within [0x02, 0x1B] [.tck, .etime, .cmdq] s c := ((Within.refl _ _ s).next hcheck).wrs
  refine ⟨?_, fun f hl hs he => (Core.rd_emit_ne _ _ _ _ _ _ he).trans ?_, ((hcframe.reach _).wrs).emit _ _ _⟩
  · have hc : c.etime = s.etime := hcheck.parts .etime (by decide)
    refine (Core.emit_etime _ _ _ _).trans ?_
    change max c.etime (c.etime + 100000) = _
    omega
  · simp only [c, Core.rd_reach, Core.wrs, List.foldl_cons, List.foldl_nil, Core.rd_wr_ne _ _ _ _ _ _ hl,
      Core.rd_wr_ne _ _ _ _ _ _ hs]
    exact hcheck.rd f 0 (by simp)

theorem doHandoverFailed_eq {s : Core} (hdue : s.handoverDue = some 2) (himago : s.rd SYS_BOOT.IMAGO = 1) :
    doHandoverFailed s = ((s.seizeTimedOut.inc TCK_STATUS.A_FAIL_CNT).hold 0).setTck
      { ((s.seizeTimedOut.inc TCK_STATUS.A_FAIL_CNT).hold 0).tck with
        jobBoundary := false, kickAt := ((s.seizeTimedOut.inc TCK_STATUS.A_FAIL_CNT).hold 0).etime } := by
  have hpupa : s.pupa = 0 := by rw [Core.pupa, Core.imago, himago]
  unfold doHandoverFailed Core.seizeTimedOut
  rw [hdue]
  dsimp only
  rw [if_neg (show ¬ (2 : Nat) = 3 by decide), if_neg (show ¬ (2 : Nat) = 4 by decide), hpupa]
  rfl

theorem doHandoverFailed_spec {s : Core} (hdue : s.handoverDue = some 2) (himago : s.rd SYS_BOOT.IMAGO = 1) :
    (doHandoverFailed s).rd SYS_BOOT.IMAGO = 1 ∧ (doHandoverFailed s).tck.held = some 0 ∧
    (doHandoverFailed s).rd TCK_STATUS.A_FAIL_CNT = satU TCK_STATUS.A_FAIL_CNT.width (s.rd TCK_STATUS.A_FAIL_CNT + 1) ∧
    (doHandoverFailed s).etime = s.etime + 100000 ∧
    SameOutside [0x00, 0x02, 0x19, 0x1B] s (doHandoverFailed s) := by
  obtain ⟨htime, hread, hframe⟩ := s.seizeTimedOut_spec
  obtain ⟨htck, -, -, hhold⟩ := (s.seizeTimedOut.inc TCK_STATUS.A_FAIL_CNT).hold_spec 0
  have hheld := (s.seizeTimedOut.inc TCK_STATUS.A_FAIL_CNT).rd_hold_ne 0
  rw [doHandoverFailed_eq hdue himago]
  have hinc : Within [0x00, 0x02, 0x19, 0x1B] [.tck, .etime, .cdc, .cmdq, .limits] s (s.seizeTimedOut.inc TCK_STATUS.A_FAIL_CNT) :=
    ((Within.refl _ _ s).next hframe).inc _
  generalize (s.seizeTimedOut.inc TCK_STATUS.A_FAIL_CNT).hold 0 = h at *
  have hread' : ∀ f : Fld, (h.setTck { h.tck with jobBoundary := false, kickAt := h.etime }).rd f = h.rd f := fun _ => rfl
  refine ⟨?_, congrArg TckSt.held htck, ?_, (hhold.parts .etime (by decide)).trans htime, ((hinc.next hhold).tck _).regs⟩
  · rw [hread', hheld _ (by decide) (by decide), Core.rd_inc_ne _ _ _ _ _ _ (by decide),
      hread _ (by decide) (by decide) (by decide), himago]
  · rw [hread', hheld _ (by decide) (by decide), Core.rd_inc_self, hread _ (by decide) (by decide) (by decide)]

/-! ### DRILL_CONFIRMED (R241) -/

theorem doDrillConfirmed_eq {s : Core} {d : Drill} (hd : s.tck.drill = some d) (hswap : d.swapped = true) (hrun : 16 ≤ d.chirps.getD 0) :
    ∃ v, doDrillConfirmed s =
      ((s.setTck { s.tck with drill := none }).wr TCK_STATUS.DRILL_PENDING 0).asyncDone d.opId 0 v := by
  refine ⟨((s.setTck { s.tck with drill := none }).wr TCK_STATUS.DRILL_PENDING 0).imago + at_ 4 d.gap, ?_⟩
  unfold doDrillConfirmed
  rw [hd]
  dsimp only
  rw [if_pos ⟨hswap, hrun⟩, Core.endDrill, hd]

/-- Settles O18: the handover and its failure by what each step shows; a confirmed drill by the end of its operation. -/
theorem handoverPassesOrFails : Obligations.HandoverPassesOrFails := by
  unfold Obligations.HandoverPassesOrFails
  intro gap s hb
  refine ⟨fun hdue hpupa himago hmolt hdrill => ⟨?_, ?_⟩, fun d hd hswap hrun => ?_⟩
  · have hrun : doPlannedHandover gap.toNat s.field.core = s.field.core.handover 2 gap.toNat := by
      rw [doPlannedHandover, hdue]
    obtain ⟨h1, h2, h3, h4, h5, h6, h7, h8, hframe⟩ := s.field.core.handover_spec gap.toNat himago hmolt hdrill
    refine answers_of_onRunning (g := doPlannedHandover gap.toNat) rfl hb ?_
    simp only [State.onCore, Field.onCore, hrun]
    exact ⟨h1, h2, h3, h4, h5, h6, h7, h8, hframe.regs, rfl, rfl, rfl⟩
  · obtain ⟨h1, h2, h3, h4, h5⟩ := doHandoverFailed_spec hdue himago
    exact answers_of_onRunning (g := doHandoverFailed) rfl hb ⟨h1, h2, h3, h4, h5, rfl, rfl, rfl⟩
  · obtain ⟨v, hdone⟩ := doDrillConfirmed_eq hd hswap hrun
    refine answers_of_onRunning (g := doDrillConfirmed) rfl hb ?_
    simp only [State.onCore, Field.onCore, hdone]
    refine ⟨congrArg TckSt.drill (Core.asyncDone_tck _ _ _ _), (Core.asyncDone_regs _ _ _ _ _ _ (by decide)).trans (Core.rd_wr _ _ _ _),
      Core.asyncDone_gone _ _ _ _, ?_, rfl, rfl, rfl⟩
    have hset : (s.field.core.setTck { s.field.core.tck with drill := none }).regs = s.field.core.regs := rfl
    exact ((SameRegs.of_regs hset).wr 0).trans ((Core.asyncDone_regs _ _ _ _).mono (by decide))

end Sys2Proof.Machine
end

section
/-! PROOF. The checkpoint's deadline and the chirp boundary (spec/05_chirp_and_tick_cores.md R210, R211, R217, R219). -/

namespace Sys2Proof.Machine

set_option Elab.async false

/-! ### CHECKPOINT_DEADLINE -/

/-- READY in a chirp that began at 1 ms, items left over and a period of 0 µs in force, which is less than the 8 µs by which the
deadline precedes the end of a chirp (R209 gives 50 µs at least). -/
def chirpOfNoLength : State :=
  State.reset.onCore fun c =>
    ({ c with tck := { c.tck with dropped := 1, period := 0, last := 1000000 } } : Core).wr SYS_BOOT.STATE 7

theorem chirpOfNoLength_may_drop :
    chirpOfNoLength.field.core.bootState ≠ 1 ∧ chirpOfNoLength.field.core.tck.dropped ≠ 0 := by decide +kernel

theorem exec_checkpointDeadline {x : Overrun} {s : State} (hb : s.field.core.bootState ≠ 1) :
    exec (.checkpointDeadline x) s = .next (s.onCore (doCheckpointDeadline x.hard x.workNs.toNat)) := by
  change Host.Outcome.next (s.onRunning (doCheckpointDeadline x.hard x.workNs.toNat)) = _
  rw [State.onRunning, if_neg hb]

/-- The deadline of a chirp shorter than 8 µs falls at its start: time does not stand before it. -/
theorem chirpOfNoLength_deadline :
    (chirpOfNoLength.onCore (doCheckpointDeadline false (0 : BitVec 20).toNat)).field.core.etime = 1000000 := by decide +kernel

/-- Refutes O15: it subtracts the 8 µs from the sum of the chirp's start and its length, where the deadline is that much before
the end only of a chirp that is at least as long. At `chirpOfNoLength` the sum less 8 µs is 0.992 ms, but ETIME becomes 1 ms. -/
theorem not_checkpointDeadlineDropsAndCheckpoints : ¬ Obligations.CheckpointDeadlineDropsAndCheckpoints := by
  unfold Obligations.CheckpointDeadlineDropsAndCheckpoints
  intro h
  obtain ⟨hb, hdropped⟩ := chirpOfNoLength_may_drop
  obtain ⟨t, ht, -, -, -, -, -, -, htime, -⟩ := h false 0 chirpOfNoLength hb hdropped
  rw [exec_checkpointDeadline hb] at ht
  injection ht with ht
  rw [← ht, chirpOfNoLength_deadline] at htime
  revert htime
  decide +kernel

/-! ### What a boundary does beside the tick cores (R210, R414, R447, R463, R533, R579) -/

theorem Core.mem_allHeads_lt {s : Core} {h : Nat} (hh : h ∈ s.allHeads) : h < 192 :=
  List.mem_range.1 (List.mem_of_mem_filter hh)
theorem Core.countFire_within (s : Core) (h : Nat) : Within [] [.hlk] s (s.countFire h) := by
  unfold Core.countFire
  extract_lets r
  exact .ite (fun _ => .refl _ _ s) fun _ => (Within.refl _ _ s).hlk _
theorem Core.linkFigures_within (s : Core) (us : Nat) : Within [0x0A] [.hlk] s (s.linkFigures us) := by
  unfold Core.linkFigures
  refine (Within.refl _ _ s).foldl _ fun l hl s => ?_
  have hl : l < 24 := List.mem_range.1 hl
  extract_lets x a b
  have ha : Within [0x0A] [.hlk] s a := .ite (fun _ => .refl _ _ s) fun _ => (Within.refl _ _ s).hlk _
  have hb : Within [0x0A] [.hlk] s b :=
    (ha.wr _ (Fld.block_mem hl (by decide))).wr _ (Fld.block_mem hl (by decide))
  refine hb.foldl _ fun k hk s => (Within.refl _ _ s).inc _ (Fld.block_mem (N := 192) ?_ (by decide))
  have hk : k < 8 := List.mem_range.1 hk
  omega
theorem Core.loadFigures_within (s : Core) (us : Nat) : Within [0x04, 0x13] [.cam, .mem] s (s.loadFigures us) := by
  unfold Core.loadFigures
  extract_lets a b words
  have ha : Within [0x04, 0x13] [.cam, .mem] s a := ((Within.refl _ _ s).wr _).wr _
  refine ((ha.cam _).mem _).foldl _ fun ch hch s => ?_
  have hch : ch < 4 := List.mem_range.1 (List.mem_of_mem_filter hch)
  exact ((Within.refl _ _ s).wr _ (Fld.block_mem hch (by decide))).wr _ (Fld.block_mem hch (by decide))
theorem Core.headTimes_within (s : Core) : Within [0x0A] [.hlk] s s.headTimes := by
  unfold Core.headTimes
  refine (Within.refl _ _ s).foldl _ fun h hh t => ?_
  exact ((Within.refl _ _ t).next (t.countFire_within h)).wr _
    (Fld.block_mem (Core.mem_allHeads_lt (List.mem_of_mem_filter hh)) (by decide))
theorem parityFld_block (code : Nat) : (parityFld code).block 0 = 0x1B := by
  unfold parityFld
  split_ifs <;> decide
theorem Core.sramParity_within (s : Core) (code loc : Nat) : Within [0x1B] [.cmdq] s (s.sramParity code loc) :=
  ((Within.refl _ _ s).inc _ (by rw [parityFld_block]; decide)).emit _ _ _

/-! ### Writes of a port without the imago line (R217) -/

/-- Does a core not hold the imago line? -/
def Core.denied (s : Core) (core : Fin 2) : Bool := !(s.rdb TCK_STATUS.LINE_HELD && s.imago == core.val)
theorem Core.portWrite_spec (s : Core) (core : Fin 2) :
    (s.portWrite core.val).rd TCK_LINE_DENY_CNT.COUNT =
      satU TCK_LINE_DENY_CNT.COUNT.width (s.rd TCK_LINE_DENY_CNT.COUNT + b2n (s.denied core)) ∧
    SameRegs [TCK_LINE_DENY_CNT.COUNT.key 0] s (s.portWrite core.val) ∧
    ∃ e, s.portWrite core.val = { s with regs := (s.portWrite core.val).regs, tck := { s.tck with busErr := e } } := by
  have hlt := s.rd_lt TCK_LINE_DENY_CNT.COUNT 0
  unfold Core.portWrite Core.denied
  split
  · next h => exact ⟨by simp [h, b2n, satU]; omega, .refl _ s, s.tck.busErr, rfl⟩
  · next h =>
    rw [Bool.not_eq_true] at h
    exact ⟨by rw [h]; exact Core.rd_inc_self _ _ _ _, (SameRegs.refl _ s).inc 1, _, rfl⟩
theorem satU_add (w n a b : Nat) : satU w (satU w (n + a) + b) = satU w (n + (a + b)) := by
  unfold satU
  omega
/-- The writes of the ports in a chirp: each that is denied counts. -/
theorem Core.portWrites_spec (l : List (Fin 2)) (s : Core) :
    (l.foldl (fun s core => s.portWrite core.val) s).rd TCK_LINE_DENY_CNT.COUNT =
      satU TCK_LINE_DENY_CNT.COUNT.width (s.rd TCK_LINE_DENY_CNT.COUNT + (l.filter s.denied).length) ∧
    SameRegs [TCK_LINE_DENY_CNT.COUNT.key 0] s (l.foldl (fun s core => s.portWrite core.val) s) ∧
    ∃ r e, l.foldl (fun s core => s.portWrite core.val) s = { s with regs := r, tck := { s.tck with busErr := e } } := by
  induction l generalizing s with
  | nil =>
    have hlt := s.rd_lt TCK_LINE_DENY_CNT.COUNT 0
    exact ⟨by simp [satU]; omega, .refl _ s, s.regs, s.tck.busErr, rfl⟩
  | cons core l ih =>
    obtain ⟨hcnt, hregs, e, honly⟩ := s.portWrite_spec core
    obtain ⟨hcnt', hregs', r', e', honly'⟩ := ih (s.portWrite core.val)
    have hdenied : (s.portWrite core.val).denied = s.denied := by
      funext c
      rw [Core.denied, Core.denied, Core.rdb, Core.rdb, Core.imago, Core.imago, hregs _ _ (by decide), hregs _ _ (by decide)]
    refine ⟨?_, hregs.trans hregs', r', e', ?_⟩
    · rw [List.foldl_cons, hcnt', hcnt, hdenied, satU_add, List.filter_cons]
      congr 2
      cases s.denied core <;> simp [b2n]; omega
    · rw [List.foldl_cons, honly', honly]

/-! ### The monitor (R219, R220, R223) -/

/-- The registers of the heartbeat paths. -/
def heartbeatKeys : List Nat :=
  [TCK_HB_WIRE_MISS_CNT.COUNT.key 0, TCK_HB_WORD_MISS_CNT.COUNT.key 0, TCK_STATUS.HB_WIRE_LOSS.key 0,
   TCK_STATUS.HB_WORD_LOSS.key 0, LOG_EVT_OVWR_CNT.COUNT.key 0]
theorem Core.hbPath_spec (s : Core) (adv other : Bool) (run path : Nat) {cnt loss : Fld} (hc : cnt.key 0 ∈ heartbeatKeys)
    (hl : loss.key 0 ∈ heartbeatKeys) :
    SameRegs heartbeatKeys s (s.hbPath adv other run path cnt loss).2 ∧
    Touches [.cmdq] s (s.hbPath adv other run path cnt loss).2 := by
  have hev : LOG_EVT_OVWR_CNT.COUNT.key 0 ∈ heartbeatKeys := by decide
  unfold Core.hbPath
  extract_lets n a b
  have ha : SameRegs heartbeatKeys s a ∧ Touches [.cmdq] s a := by
    unfold a
    split
    · exact ⟨.refl _ s, .refl _ s⟩
    · exact ⟨(SameRegs.refl _ s).inc 1 hc, fun r _ => by cases r <;> rfl⟩
  obtain ⟨haRegs, haParts⟩ := ha
  have hwr : ∀ v, Touches [.cmdq] s (a.wr loss v) := fun v => haParts.trans fun r _ => by cases r <;> rfl
  change SameRegs heartbeatKeys s b ∧ Touches [.cmdq] s b
  unfold b
  split_ifs
  · exact ⟨(haRegs.wr 0 hl).emit _ _ _ hev, (hwr 0).trans (.emit _ _ _ _)⟩
  · exact ⟨(haRegs.wr 1 hl).emit _ _ _ hev, (hwr 1).trans (.emit _ _ _ _)⟩
  · exact ⟨haRegs, haParts⟩

/-- What the monitor sees of a boundary. -/
theorem Core.monitor_spec (s : Core) (t : Nat) (wireOk wordOk pupa : Bool) :
    (s.monitor t wireOk wordOk pupa).rd TCK_STATUS.MISS_RUN =
      (if (wireOk || wordOk) && s.beatsBy t != s.tck.seenWord then 0 else min 15 (s.rd TCK_STATUS.MISS_RUN + 1)) ∧
    SameRegs (TCK_STATUS.MISS_RUN.key 0 :: heartbeatKeys) s (s.monitor t wireOk wordOk pupa) ∧
    (s.monitor t wireOk wordOk pupa).etime = s.etime ∧
    ∃ g x y d z, (s.monitor t wireOk wordOk pupa).tck =
      { s.tck with seenWord := s.beatsBy t, goodAt := g, wireRun := x, wordRun := y, drill := d, pupaSilent := z } := by
  unfold Core.monitor
  extract_lets made wire word tck a
  have ha : a.regs = s.regs ∧ a.etime = s.etime ∧ ∃ g, a.tck = { s.tck with seenWord := s.beatsBy t, goodAt := g } :=
    ⟨rfl, rfl, _, rfl⟩
  have hmade : (wire || word) = ((wireOk || wordOk) && s.beatsBy t != s.tck.seenWord) := by
    cases wireOk <;> cases wordOk <;> simp [wire, word, made]
  rw [← hmade]
  obtain ⟨haRegs, haTime, g, haTck⟩ := ha
  clear_value a wire word
  obtain ⟨hb, hbParts⟩ := a.hbPath_spec wire word a.tck.wireRun 0 (cnt := TCK_HB_WIRE_MISS_CNT.COUNT)
    (loss := TCK_STATUS.HB_WIRE_LOSS) (by decide) (by decide)
  generalize a.hbPath wire word a.tck.wireRun 0 TCK_HB_WIRE_MISS_CNT.COUNT TCK_STATUS.HB_WIRE_LOSS = u at *
  obtain ⟨x, b⟩ := u
  dsimp -zeta only at hb hbParts ⊢
  obtain ⟨hc, hcParts⟩ := b.hbPath_spec word wire b.tck.wordRun 1 (cnt := TCK_HB_WORD_MISS_CNT.COUNT)
    (loss := TCK_STATUS.HB_WORD_LOSS) (by decide) (by decide)
  generalize b.hbPath word wire b.tck.wordRun 1 TCK_HB_WORD_MISS_CNT.COUNT TCK_STATUS.HB_WORD_LOSS = v at *
  obtain ⟨y, c⟩ := v
  dsimp -zeta only at hc hcParts ⊢
  extract_lets m live drill
  generalize (if (decide live && !pupa) = true then m.tck.pupaSilent + 1 else 0) = z
  have hregs : SameRegs heartbeatKeys s c := ((SameRegs.of_regs haRegs).trans hb).trans hc
  have htck : c.tck = { s.tck with seenWord := s.beatsBy t, goodAt := g } :=
    ((hcParts .tck (by decide)).trans (hbParts .tck (by decide))).trans haTck
  have hrun : m.rd TCK_STATUS.MISS_RUN = if (wire || word) = true then 0 else min 15 (s.rd TCK_STATUS.MISS_RUN + 1) := by
    unfold m
    rw [Core.rd_wr, hregs _ _ (by decide)]
    split
    · rfl
    · exact Nat.mod_eq_of_lt (satU_lt 4 _) |>.trans (Nat.min_comm _ _)
  refine ⟨hrun, (hregs.mono (List.subset_cons_self _ _)).trans ((SameRegs.refl _ c).wr _ List.mem_cons_self |>.trans (.of_regs rfl)),
    ((hcParts .etime (by decide)).trans (hbParts .etime (by decide))).trans haTime, g, x, y, drill, z, ?_⟩
  exact congrArg (fun k : TckSt => { k with wireRun := x, wordRun := y, drill := drill, pupaSilent := z }) htck

/-! ### CHIRP at a boundary without work -/

/-- The figures and parity errors of a boundary, and what the elytron is to send. -/
def Core.boundaryFigures (s : Core) (i : ChirpIn) (us : Nat) : Core :=
  let s := ((s.linkFigures us).loadFigures us).headTimes
  let s := match i.coreParity with | some w => s.sramParity 3 w.toNat | none => s
  let s := match i.ckptParity with | some w => s.sramParity 4 w.toNat | none => s
  if s.elyUp then s.setEly { s.ely with fieldHb := true, fieldTime := true } else s
theorem Core.boundaryFigures_within (s : Core) (i : ChirpIn) (us : Nat) :
    Within [0x04, 0x0A, 0x13, 0x1B] [.hlk, .cam, .mem, .cmdq, .ely] s (s.boundaryFigures i us) := by
  unfold Core.boundaryFigures
  extract_lets a b c
  have ha : Within [0x04, 0x0A, 0x13, 0x1B] [.hlk, .cam, .mem, .cmdq, .ely] s a :=
    (((Within.refl _ _ s).next (s.linkFigures_within us)).next (Core.loadFigures_within _ us)).next (Core.headTimes_within _)
  have hb : Within [0x04, 0x0A, 0x13, 0x1B] [.hlk, .cam, .mem, .cmdq, .ely] s b := by
    unfold b
    split
    · exact ha.next (Core.sramParity_within _ _ _)
    · exact ha
  have hc : Within [0x04, 0x0A, 0x13, 0x1B] [.hlk, .cam, .mem, .cmdq, .ely] s c := by
    unfold c
    split
    · exact hb.next (Core.sramParity_within _ _ _)
    · exact hb
  exact .ite (fun _ => hc.ely _) fun _ => hc

/-- The chirp timer at a boundary: time, and what the registers put in force (R209, R210, R226). -/
def Core.timerBoundary (s : Core) (i : ChirpIn) : Core :=
  let s := s.reach (s.tck.last + 1000 * s.tck.period)
  s.setTck { s.tck with
    last := s.tck.last + 1000 * s.tck.period, period := s.rd TCK_CFG.CHIRP_US, missLimit := s.rd TCK_CFG.HB_MISS_LIMIT
    jobBoundary := s.tck.boundary || !s.printing, boundary := false, dropped := 0, chirpNo := s.tck.chirpNo + 1
    imagoUp := s.tck.imagoUp && i.works && i.coreParity.isNone }
theorem Core.boundary_eq (s : Core) (i : ChirpIn) :
    s.boundary i =
      (((i.portWrites.foldl (fun s core => s.portWrite core.val) (s.timerBoundary i)).incW TCK_CHIRP_CNT.COUNT).monitor
        (s.tck.last + 1000 * s.tck.period) i.wire i.word i.pupa).boundaryFigures i s.tck.period := by
  obtain ⟨-, -, r, e, h⟩ := Core.portWrites_spec i.portWrites (s.timerBoundary i)
  have hlast : (i.portWrites.foldl (fun s core => s.portWrite core.val) (s.timerBoundary i)).tck.last =
      s.tck.last + 1000 * s.tck.period := by rw [h]; rfl
  rw [← hlast]
  rfl

theorem Core.boundary_spec (s : Core) (i : ChirpIn) (hworks : i.works = false) :
    (s.boundary i).rd TCK_CHIRP_CNT.COUNT = (s.rd TCK_CHIRP_CNT.COUNT + 1) % 2 ^ 32 ∧
    (s.boundary i).etime = max s.etime (s.tck.last + 1000 * s.tck.period) ∧
    (s.boundary i).tck.last = s.tck.last + 1000 * s.tck.period ∧ (s.boundary i).tck.period = s.rd TCK_CFG.CHIRP_US ∧
    (s.boundary i).tck.missLimit = s.rd TCK_CFG.HB_MISS_LIMIT ∧
    (s.boundary i).rd TCK_STATUS.MISS_RUN =
      (if (i.wire || i.word) && s.beatsBy (s.tck.last + 1000 * s.tck.period) != s.tck.seenWord then 0
       else min 15 (s.rd TCK_STATUS.MISS_RUN + 1)) ∧
    (s.boundary i).tck.seenWord = s.beatsBy (s.tck.last + 1000 * s.tck.period) ∧ (s.boundary i).tck.imagoUp = false ∧
    (s.boundary i).rd TCK_LINE_DENY_CNT.COUNT =
      satU TCK_LINE_DENY_CNT.COUNT.width (s.rd TCK_LINE_DENY_CNT.COUNT + (i.portWrites.filter s.denied).length) := by
  obtain ⟨hdeny, hports, r, e, honly⟩ := Core.portWrites_spec i.portWrites (s.timerBoundary i)
  rw [s.boundary_eq i]
  have hup : (s.timerBoundary i).tck.imagoUp = false := by
    change (s.tck.imagoUp && i.works && i.coreParity.isNone) = false
    simp [hworks]
  generalize i.portWrites.foldl (fun s core => s.portWrite core.val) (s.timerBoundary i) = p at *
  have hptime : p.etime = max s.etime (s.tck.last + 1000 * s.tck.period) := by rw [honly]; rfl
  have hptck : p.tck = { (s.timerBoundary i).tck with busErr := e } := by rw [honly]
  obtain ⟨hmiss, hmon, hmtime, g, x, y, d, z, hmtck⟩ :=
    (p.incW TCK_CHIRP_CNT.COUNT).monitor_spec (s.tck.last + 1000 * s.tck.period) i.wire i.word i.pupa
  have hbeats : (p.incW TCK_CHIRP_CNT.COUNT).beatsBy (s.tck.last + 1000 * s.tck.period) =
      s.beatsBy (s.tck.last + 1000 * s.tck.period) := by
    change (if p.tck.hbAt ≤ _ then p.tck.hbWord else p.tck.hbWord - 1) = _
    rw [hptck]
    rfl
  have hseen : (p.incW TCK_CHIRP_CNT.COUNT).tck.seenWord = s.tck.seenWord := by
    change p.tck.seenWord = _
    rw [hptck]
    rfl
  rw [hbeats, hseen] at hmiss
  generalize (p.incW TCK_CHIRP_CNT.COUNT).monitor (s.tck.last + 1000 * s.tck.period) i.wire i.word i.pupa = m at *
  have hfig := m.boundaryFigures_within i s.tck.period
  have hregs : ∀ f : Fld, f.block 0 ∉ [0x04, 0x0A, 0x13, 0x1B] → f.key 0 ∉ TCK_STATUS.MISS_RUN.key 0 :: heartbeatKeys →
      (m.boundaryFigures i s.tck.period).rd f = (p.incW TCK_CHIRP_CNT.COUNT).rd f :=
    fun f hb hk => (hfig.rd f 0 hb).trans (hmon f 0 hk)
  have htck : (m.boundaryFigures i s.tck.period).tck = m.tck := hfig.parts .tck (by decide)
  have hmtck' : m.tck = { p.tck with
      seenWord := s.beatsBy (s.tck.last + 1000 * s.tck.period), goodAt := g, wireRun := x, wordRun := y, drill := d, pupaSilent := z } := by
    rw [hmtck, hbeats]
    rfl
  rw [htck, hmtck', hptck]
  refine ⟨?_, ((hfig.parts .etime (by decide)).trans hmtime).trans hptime, rfl, rfl, rfl, ?_, rfl, hup, ?_⟩
  · rw [hregs _ (by decide) (by decide), Core.incW, Core.rd_wr, hports _ _ (by decide)]
    rfl
  · rw [hfig.rd _ _ (by decide), hmiss]
    have hrun : (p.incW TCK_CHIRP_CNT.COUNT).rd TCK_STATUS.MISS_RUN = s.rd TCK_STATUS.MISS_RUN :=
      (Core.rd_incW_ne _ _ _ _ _ _ (by decide)).trans (hports _ _ (by decide))
    rw [hrun]
  · rw [hregs _ (by decide) (by decide), Core.rd_incW_ne _ _ _ _ _ _ (by decide), hdeny]
    rfl

/-- Settles O14: the row is the boundary, since the imago then counts as failed. -/
theorem chirpBoundaryCountsAndMonitors : Obligations.ChirpBoundaryCountsAndMonitors := by
  unfold Obligations.ChirpBoundaryCountsAndMonitors
  intro b s hrun hworks
  obtain ⟨h1, h2, h3, h4, h5, h6, h7, h8, h9⟩ := s.field.core.boundary_spec b hworks
  have hchirp : doChirp b s = s.onCore fun c => c.boundary b := by
    unfold doChirp
    rw [if_neg (by simp [hrun])]
    extract_lets t
    have hup : t.field.core.tck.imagoUp = false := h8
    rw [if_pos (by simp [hup])]
  refine ⟨s.onCore fun c => c.boundary b, by rw [← hchirp]; rfl, h1, h2, h3, h4, h5, ?_, ?_, h8, h9, rfl, rfl, rfl⟩
  · rw [show (s.onCore fun c => c.boundary b).field.core.tck.last = _ from h3]
    exact h6
  · rw [show (s.onCore fun c => c.boundary b).field.core.tck.last = _ from h3]
    exact h7

end Sys2Proof.Machine
end

section
/-! PROOF. What shared operations of the firing, the links, the switches and the elytron may change
(spec/09_firing_and_speed_governor.md R391 to R393; spec/10_head_link.md R440; spec/12_jobs_and_changeover.md R505;
spec/01_architecture.md R49, R53). -/

namespace Sys2Proof.Machine

set_option Elab.async false

/-! ### Firing causes and INHIBIT blocks -/

theorem Core.mem_bars_lt {s : Core} {b : Nat} (h : b ∈ s.bars) : b < 8 := List.mem_range.1 (List.mem_of_mem_filter h)
theorem mem_allBars_lt {b : Nat} (h : b ∈ allBars) : b < 8 := List.mem_range.1 h
theorem Core.setCauses_within (s : Core) {b : Nat} (c : Nat) (hb : b < 8) : Within [0x11] [.hlk] s (s.setCauses b c) := by
  unfold Core.setCauses
  extract_lets t
  have ht : Within [0x11] [.hlk] s t := (Within.refl _ _ s).foldl _ fun h _ s => (Within.refl _ _ s).next (s.countFire_within h)
  exact (ht.wr _ (Fld.block_mem hb (by decide))).wr _ (Fld.block_mem hb (by decide))
theorem Core.setCause_within (s : Core) {bs : List Nat} (i : Nat) (hb : ∀ b ∈ bs, b < 8) :
    Within [0x11, 0x1B] [.hlk, .cmdq] s (s.setCause bs i) := by
  unfold Core.setCause
  extract_lets new t
  have ht : Within [0x11, 0x1B] [.hlk, .cmdq] s t :=
    (Within.refl _ _ s).foldl _ fun b hbn s => (Within.refl _ _ s).next (s.setCauses_within _ (hb b (List.mem_of_mem_filter hbn)))
  exact .ite (fun _ => ht) fun _ => ht.emit _ _ _
theorem Core.setLn_within (s : Core) (l : Nat) (x : LinkSt) : Within [] [.hlk] s (s.setLn l x) := (Within.refl _ _ s).hlk _
theorem Core.sendMore_within (s : Core) (l : Nat) (bs : List Bytes) : Within [] [.hlk] s (s.sendMore l bs) := s.setLn_within _ _
theorem Core.openLink_within (s : Core) (l : Nat) : Within [] [.hlk] s (s.openLink l) := s.setLn_within _ _
theorem Core.sendBlock_within (s : Core) (l : Nat) (b : Bytes) : Within [] [.hlk] s (s.sendBlock l b) :=
  (s.openLink_within l).next (Core.sendMore_within _ _ _)
theorem Core.flushResume_within (s : Core) (l : Nat) : Within [] [.hlk] s (s.flushResume l) := by
  unfold Core.flushResume
  extract_lets x
  exact .ite (fun _ => .refl _ _ s) fun _ => (s.setLn_within _ _).next (Core.sendMore_within _ _ _)
theorem Core.syncInhibit_within (s old : Core) : Within [] [.hlk] s (s.syncInhibit old) := by
  unfold Core.syncInhibit
  refine (Within.refl _ _ s).foldl _ fun l _ s => .ite (fun _ => .refl _ _ s) fun _ => ?_
  extract_lets blocks now freed
  refine .ite (fun _ => .refl _ _ s) fun _ => ?_
  exact ((s.setLn_within _ _).next (Core.sendMore_within _ _ _)).next (Core.flushResume_within _ _)
theorem Core.withInhibit_within {ps : List Nat} {rs : List Part} (s : Core) {g : Core → Core} (hg : Within ps rs s (g s))
    (hr : .hlk ∈ rs := by decide) : Within ps rs s (s.withInhibit g) :=
  hg.next ((g s).syncInhibit_within s) (List.nil_subset _) (by simpa using hr)
theorem stopBars_within (s : Core) {bs : List Nat} (cause : Nat) (hb : ∀ b ∈ bs, b < 8) :
    Within [0x11, 0x1B] [.hlk, .cmdq] s (stopBars bs cause s) := by
  unfold stopBars
  extract_lets t
  refine (s.setCause_within cause hb).foldl _ fun l _ s => ?_
  extract_lets slots
  refine .ite (fun _ => .refl _ _ s) fun _ => ?_
  exact ((Within.refl _ _ s).next (s.setLn_within _ _)).next (Core.sendBlock_within _ _ _)

/-! ### Withdrawn switches (R505) -/

theorem Core.missEntry_within (s : Core) (e : CmpEntry) (cause : Nat) : Within [0x0F, 0x1B] [.pos, .cmdq] s (s.missEntry e cause) := by
  unfold Core.missEntry
  extract_lets a b
  have ha : Within [0x0F, 0x1B] [.pos, .cmdq] s a := ((Within.refl _ _ s).pos _).wrs
  exact ((ha.incW _).wrs).emit _ _ _
theorem Core.refreshNext_within (s : Core) : Within [0x15] [] s s.refreshNext := by
  unfold Core.refreshNext
  exact (Within.refl _ _ s).foldl _ fun b hb s => (Within.refl _ _ s).wr _ (Fld.block_mem (mem_allBars_lt hb) (by decide))
theorem Core.withdraw_within (s : Core) (w : Switch) : Within [0x0F, 0x15, 0x1B] [.jobs, .pos, .cmdq] s (s.withdraw w) := by
  unfold Core.withdraw
  extract_lets jobs a mine b c d e
  have ha : Within [0x0F, 0x15, 0x1B] [.jobs, .pos, .cmdq] s a := (Within.refl _ _ s).jobs _
  have hb : Within [0x0F, 0x15, 0x1B] [.jobs, .pos, .cmdq] s b :=
    ha.foldl _ fun e _ s => (Within.refl _ _ s).next (s.missEntry_within e 3)
  have hc : Within [0x0F, 0x15, 0x1B] [.jobs, .pos, .cmdq] s c := hb.foldl _ fun b _ s => (Within.refl _ _ s).jobs _
  exact ((((hc.jobs _).emit _ _ _).asyncErr _ _ _ _)).next (Core.refreshNext_within _)
theorem Core.withdrawAll_within (s : Core) (ws : List Switch) : Within [0x0F, 0x15, 0x1B] [.jobs, .pos, .cmdq] s (s.withdrawAll ws) :=
  (Within.refl _ _ s).foldl _ fun w _ s => s.withdraw_within w

/-! ### The elytron's lanes -/

theorem Core.setLanes_within (s : Core) (h f : Nat) : Within [0x03] [.ely] s (s.setLanes h f) := ((Within.refl _ _ s).ely _).wrs
theorem Core.advertise_within (s : Core) : Within [] [.ely] s s.advertise := (Within.refl _ _ s).ely _
theorem Core.dropHostPriv_within (s : Core) : Within [0x01] [] s s.dropHostPriv := (Within.refl _ _ s).wr _
/-- What the loss of the host may change, whatever HOST_LOSS_POLICY says. -/
theorem Core.declareLost_within (s : Core) :
    Within [0x01, 0x03, 0x0F, 0x11, 0x15, 0x1B] [.ely, .cmdq, .hlk, .jobs, .pos] s s.declareLost := by
  unfold Core.declareLost
  refine .ite (fun _ => .refl _ _ s) fun _ => ?_
  extract_lets ely a b
  have hb : Within [0x01, 0x03, 0x0F, 0x11, 0x15, 0x1B] [.ely, .cmdq, .hlk, .jobs, .pos] s b :=
    ((((Within.refl _ _ s).ely _).wr _).emit _ _ _).next (Core.dropHostPriv_within _)
  split
  · exact hb
  · exact hb.next (Core.withdrawAll_within _ _)
  · exact hb.next (stopBars_within _ _ fun b h => Core.mem_bars_lt h)
theorem Core.startEly_within (s : Core) (h f : Nat) :
    Within [0x01, 0x03, 0x0F, 0x11, 0x15, 0x1B] [.ely, .cmdq, .hlk, .jobs, .pos] s (s.startEly h f) := by
  unfold Core.startEly
  extract_lets a
  have ha : Within [0x01, 0x03, 0x0F, 0x11, 0x15, 0x1B] [.ely, .cmdq, .hlk, .jobs, .pos] s a :=
    ((Within.refl _ _ s).next (s.setLanes_within h f)).next (Core.advertise_within _)
  exact .ite (fun _ => ha.next (Core.declareLost_within _)) fun _ => (ha.ely _).wr _

end Sys2Proof.Machine
end

section
/-! PROOF. Field start-up (spec/03_startup_and_images.md R116, R119, R120, R131; spec/13_memory_subsystem.md R513, R529). -/

namespace Sys2Proof.Machine

set_option Elab.async false

/-! ### Training of the DRAM -/

/-- A register that no step of a fold changes. -/
theorem Core.rd_foldl {α : Type} {k : Core → α → Core} {g : Fld} {m : Nat} (l : List α) (s : Core)
    (hk : ∀ x ∈ l, ∀ s, (k s x).rd g m = s.rd g m) : (l.foldl k s).rd g m = s.rd g m := by
  induction l generalizing s with
  | nil => rfl
  | cons x l ih =>
    exact (ih _ fun y hy => hk y (List.mem_cons_of_mem _ hy)).trans (hk x List.mem_cons_self s)

/-- Does a channel train: do at least two of its ranks, which no record keeps out? -/
def FlashSt.trains (fl : FlashSt) (bad : List (Nat × Nat)) (ch : Nat) : Bool :=
  decide (2 ≤ ((List.range 3).filter fun r =>
    ((fl.rankRecord ch r).orElse fun _ => if bad.contains (ch, r) then some 7 else none).isNone).length)
theorem rankFld_block (r : Nat) {ch : Nat} (h : ch < 4) : (rankFld r).block ch ∈ [0x04] := by
  unfold rankFld
  split_ifs <;> exact Fld.block_mem h (by decide)
theorem rankFld_ne_inService (r : Nat) {ch : Nat} (h : ch < 4) : MEM_STATUS.IN_SERVICE.key 0 ≠ (rankFld r).key ch := by
  have hall : ∀ ch : Fin 4, MEM_STATUS.IN_SERVICE.key 0 ≠ MEMC_STATUS.RANK0.key ch.val ∧
      MEM_STATUS.IN_SERVICE.key 0 ≠ MEMC_STATUS.RANK1.key ch.val ∧ MEM_STATUS.IN_SERVICE.key 0 ≠ MEMC_STATUS.RANK2.key ch.val := by
    decide
  obtain ⟨h0, h1, h2⟩ := hall ⟨ch, h⟩
  unfold rankFld
  split_ifs
  · exact h0
  · exact h1
  · exact h2
theorem Core.trainChannel_spec (s : Core) (bad : List (Nat × Nat)) (ch : Fin 4) :
    (s.trainChannel bad ch.val).rd MEM_STATUS.IN_SERVICE =
      (if s.flash.trains bad ch.val then setBit (s.rd MEM_STATUS.IN_SERVICE) ch.val true % 2 ^ 4 else s.rd MEM_STATUS.IN_SERVICE) ∧
    Within [0x04] [] s (s.trainChannel bad ch.val) := by
  have hkeys : ∀ ch : Fin 4, MEM_STATUS.IN_SERVICE.key 0 ≠ MEMC_STATUS.STATE.key ch.val ∧
      MEM_STATUS.IN_SERVICE.key 0 ≠ MEMC_STATUS.SLOT0.key ch.val ∧ MEM_STATUS.IN_SERVICE.key 0 ≠ MEMC_STATUS.SLOT1.key ch.val := by
    decide
  obtain ⟨hstate, hslot0, hslot1⟩ := hkeys ch
  unfold Core.trainChannel
  extract_lets out ok s0 s1 t
  have ht : Within [0x04] [] s t := (Within.refl _ _ s).foldl _ fun r _ s => (Within.refl _ _ s).wr _ (rankFld_block r ch.isLt)
  have hservice : t.rd MEM_STATUS.IN_SERVICE = s.rd MEM_STATUS.IN_SERVICE :=
    Core.rd_foldl _ _ fun r _ s => Core.rd_wr_ne _ _ _ _ _ _ (rankFld_ne_inService r ch.isLt)
  have htrains : s.flash.trains bad ch.val = decide (2 ≤ ok.length) := rfl
  rw [htrains]
  split
  · next hfew =>
    have hno : decide (2 ≤ ok.length) = false := decide_eq_false (by omega)
    rw [hno, if_neg Bool.false_ne_true]
    exact ⟨(Core.rd_wr_ne _ _ _ _ _ _ hstate).trans hservice, ht.wr _ (Fld.block_mem ch.isLt (by decide))⟩
  · next hmany =>
    have hyes : decide (2 ≤ ok.length) = true := decide_eq_true (by omega)
    rw [hyes, if_pos (rfl : true = true)]
    refine ⟨(Core.rd_wr _ _ _ _).trans (by rw [hservice]; rfl), (ht.wrs ?_).wr _⟩
    simp only [List.forall_mem_cons]
    exact ⟨Fld.block_mem ch.isLt (by decide), Fld.block_mem ch.isLt (by decide), Fld.block_mem ch.isLt (by decide), by simp⟩

/-- A list of channels trains: whether one is in service afterwards. -/
theorem Core.trainChannels_spec (bad : List (Nat × Nat)) (ms : Nat) (l : List Nat) (hl : ∀ ch ∈ l, ch < 4) (s : Core) :
    ((l.foldl (fun s ch => (s.trainChannel bad ch).wr MEMC_TRAIN.MS ms ch) s).rd MEM_STATUS.IN_SERVICE = 0 ↔
      s.rd MEM_STATUS.IN_SERVICE = 0 ∧ l.any (s.flash.trains bad) = false) ∧
    Within [0x04] [] s (l.foldl (fun s ch => (s.trainChannel bad ch).wr MEMC_TRAIN.MS ms ch) s) := by
  have hms : ∀ ch : Fin 4, MEM_STATUS.IN_SERVICE.key 0 ≠ MEMC_TRAIN.MS.key ch.val := by decide
  induction l generalizing s with
  | nil => exact ⟨by simp, .refl _ _ s⟩
  | cons ch l ih =>
    have hch : ch < 4 := hl ch List.mem_cons_self
    obtain ⟨hservice, hframe⟩ := s.trainChannel_spec bad ⟨ch, hch⟩
    have hframe' : Within [0x04] [] s ((s.trainChannel bad ch).wr MEMC_TRAIN.MS ms ch) :=
      hframe.wr _ (Fld.block_mem hch (by decide))
    obtain ⟨hiff, hrest⟩ := ih (fun c hc => hl c (List.mem_cons_of_mem _ hc)) ((s.trainChannel bad ch).wr MEMC_TRAIN.MS ms ch)
    refine ⟨?_, hframe'.trans hrest⟩
    rw [List.foldl_cons, hiff, Core.rd_wr_ne _ _ _ _ _ _ (hms ⟨ch, hch⟩), hservice, List.any_cons,
      show Core.flash _ = s.flash from hframe'.parts .flash (by decide)]
    have hbit : setBit (s.rd MEM_STATUS.IN_SERVICE) ch true % 2 ^ 4 ≠ 0 := by
      intro h
      have hset := Nat.testBit_mod_two_pow (setBit (s.rd MEM_STATUS.IN_SERVICE) ch true) 4 ch
      rw [h] at hset
      simp [setBit, hch] at hset
    cases s.flash.trains bad ch
    · simp
    · simp only [if_true, hbit, Bool.true_or, Bool.true_eq_false, false_and, and_false]

/-! ### The flash at start-up -/

theorem Core.flashNext_within (s : Core) : Within [0x16, 0x1B] [.flash, .cmdq] s s.flashNext := by
  unfold Core.flashNext
  exact .ite (fun _ => (Within.refl _ _ s).wr _) fun _ => .ite (fun _ => ((Within.refl _ _ s).flash _).wr _) fun _ =>
    .ite (fun _ => (Within.refl _ _ s).wr _) fun _ => (((Within.refl _ _ s).wr _).emit _ _ _).wr _
theorem Core.queueFlash_within (s : Core) (op : FlashOp) : Within [0x16, 0x1B] [.flash, .cmdq] s (s.queueFlash op) := by
  unfold Core.queueFlash
  extract_lets f run rest rest' a b
  have ha : Within [0x16, 0x1B] [.flash, .cmdq] s a := (Within.refl _ _ s).flash _
  exact Within.next (.ite (fun _ => ha) fun _ => ha.inc _) (Core.flashNext_within _)
/-- A queued write is in the queue alone: the records and images stay. -/
theorem Core.queueFlash_flash (s : Core) (op : FlashOp) :
    ∃ q b, (s.queueFlash op).flash = { s.flash with queue := q, busy := b } := by
  unfold Core.queueFlash
  extract_lets f run rest rest' a b
  have hb : b.flash = { s.flash with queue := run ++ rest' } := by
    unfold b
    split <;> rfl
  obtain ⟨x, hx⟩ := b.flashNext_flash
  exact ⟨run ++ rest', x, by rw [hx, hb]⟩
/-- What start-up reads of the flash: the boot record, the images and the record of ranks. -/
def FlashSt.sameRecords (a b : FlashSt) : Prop :=
  b.images = a.images ∧ b.boot0 = a.boot0 ∧ b.boot1 = a.boot1 ∧ b.retired = a.retired
theorem FlashSt.sameRecords.refl (a : FlashSt) : a.sameRecords a := ⟨rfl, rfl, rfl, rfl⟩
theorem Core.recordRanks_spec (s : Core) :
    s.flash.sameRecords s.recordRanks.flash ∧ Within [0x16, 0x1B] [.flash, .cmdq] s s.recordRanks := by
  unfold Core.recordRanks
  extract_lets l
  split
  · obtain ⟨q, b, h⟩ := s.queueFlash_flash (.ranks l)
    exact ⟨by rw [h]; exact ⟨rfl, rfl, rfl, rfl⟩, s.queueFlash_within _⟩
  · exact ⟨.refl _, .refl _ _ s⟩
theorem Core.formSpace_within (s : Core) : Within [0x04] [.mem] s s.formSpace := ((Within.refl _ _ s).mem _).wrs
theorem Core.formSpace_inService (s : Core) : s.formSpace.rd MEM_STATUS.IN_SERVICE = s.rd MEM_STATUS.IN_SERVICE := by
  unfold Core.formSpace
  extract_lets l mem
  exact Core.rd_wrs_ne _ _ _ _ _ (by simp only [List.forall_mem_cons]; decide)

/-- Some channel is in service after training where none was exactly if one of the four trains. -/
theorem Core.trainDram_spec (s : Core) (bad : List (Nat × Nat)) (ms : Nat) (hnone : s.rd MEM_STATUS.IN_SERVICE = 0) :
    ((s.trainDram bad ms).rd MEM_STATUS.IN_SERVICE = 0 ↔ (List.range 4).any (s.flash.trains bad) = false) ∧
    s.flash.sameRecords (s.trainDram bad ms).flash ∧
    Within [0x04, 0x16, 0x1B] [.mem, .flash, .cmdq] s (s.trainDram bad ms) := by
  unfold Core.trainDram
  extract_lets a b
  obtain ⟨hiff, ha⟩ : (a.rd MEM_STATUS.IN_SERVICE = 0 ↔
      s.rd MEM_STATUS.IN_SERVICE = 0 ∧ (List.range 4).any (s.flash.trains bad) = false) ∧ Within [0x04] [] s a :=
    Core.trainChannels_spec bad ms (List.range 4) (fun ch h => List.mem_range.1 h) s
  rw [hnone] at hiff
  have hb : b.rd MEM_STATUS.IN_SERVICE = a.rd MEM_STATUS.IN_SERVICE := a.formSpace_inService
  clear_value a
  have hbflash : b.flash = s.flash := (a.formSpace_within.parts .flash (by decide)).trans (ha.parts .flash (by decide))
  have hbframe : Within [0x04, 0x16, 0x1B] [.mem, .flash, .cmdq] s b :=
    ((Within.refl _ _ s).next ha).next a.formSpace_within
  obtain ⟨hrec, hrecFrame⟩ := b.recordRanks_spec
  rw [hbflash] at hrec
  have hservice : b.rd MEM_STATUS.IN_SERVICE = 0 ↔ (List.range 4).any (s.flash.trains bad) = false := by
    rw [hb, hiff]
    simp only [true_and]
  clear_value b
  split
  · exact ⟨by rw [hrecFrame.rd _ _ (by decide)]; exact hservice, hrec, hbframe.next hrecFrame⟩
  · exact ⟨hservice, by rw [hbflash]; exact .refl _, hbframe⟩

theorem Core.readBootRecord_within (s : Core) : Within [0x1B] [.cmdq] s s.readBootRecord := by
  have hcopies : ∀ (s : Core) (rec bad : Nat), Within [0x1B] [.cmdq] s (s.checkCopies rec bad) := fun s rec bad =>
    .ite (fun _ => .refl _ _ s) fun _ => ((Within.refl _ _ s).inc _).emit _ _ _
  unfold Core.readBootRecord
  extract_lets bad a
  have ha : Within [0x1B] [.cmdq] s a := hcopies s 1 bad
  exact .ite (fun _ => ha.emit _ _ _) fun _ => ha

/-! ### The cores -/

/-- Does a core find an image to run: the one in `slot`, or its golden image? -/
def FlashSt.loads (fl : FlashSt) (core slot : Nat) (bad : Nat → Bool) : Bool :=
  imageReason (fl.image core slot) (bad slot) == 0 || imageReason (fl.image core 2) (bad 2) == 0
theorem loadCore_runs (f : Field) (core slot : Nat) (bad : Nat → Bool) :
    (loadCore f core slot bad).1 = f.core.flash.loads core slot bad := by
  unfold loadCore FlashSt.loads
  extract_lets s run r t g
  have hg : imageReason (f.core.flash.image core 2) (bad 2) = g := by
    unfold g t Core.imageRefused
    rw [Core.emit_flash]
  rw [hg, show imageReason (f.core.flash.image core slot) (bad slot) = r from rfl]
  split_ifs <;> simp_all [run]
theorem FlashSt.loads_congr {a b : FlashSt} (h : a.sameRecords b) (core slot : Nat) (bad : Nat → Bool) :
    b.loads core slot bad = a.loads core slot bad := by
  obtain ⟨himages, -, -, -⟩ := h
  unfold FlashSt.loads FlashSt.image
  rw [himages]
theorem FlashSt.activeSlot_congr {a b : FlashSt} (h : a.sameRecords b) (core : Nat) : b.activeSlot core = a.activeSlot core := by
  obtain ⟨-, h0, h1, -⟩ := h
  unfold FlashSt.activeSlot FlashSt.bootRec
  rw [h0, h1]
/-- A core that passed its self-test loads its image, and the other does nothing. -/
theorem loadCore_ite (ok : Bool) (f : Field) (core : Fin 2) (slot : Nat) (bad : Nat → Bool) :
    ((if ok = true then loadCore f core.val slot bad else (false, f)).1 = (ok && f.core.flash.loads core.val slot bad)) ∧
    Within [0, 0x1B] [.tck, .cmdq] f.core (if ok = true then loadCore f core.val slot bad else (false, f)).2.core := by
  obtain ⟨hframe, -⟩ := loadCore_spec f core slot bad
  cases ok
  · exact ⟨rfl, .refl _ _ _⟩
  · exact ⟨(loadCore_runs f core.val slot bad).trans (Bool.true_and _).symm, hframe⟩

/-! ### Start-up -/

theorem coreStarts_eq (b : BootIn) (s : Core) (core : Nat) :
    coreStarts b s core = ((if core = 0 then b.coreA else b.coreB) &&
      s.flash.loads core (s.flash.activeSlot core) fun slot => b.flashBad.any fun p => p.1.val == core && p.2.val == slot) := rfl
theorem channelStarts_eq (b : BootIn) (s : Core) (ch : Nat) :
    channelStarts b s ch = s.flash.trains (b.badRanks.map fun p => (p.1.val, p.2.val)) ch := by
  have hbad : ∀ r, (b.badRanks.any fun p => p.1.val == ch && p.2.val == r) =
      (b.badRanks.map fun p => (p.1.val, p.2.val)).contains (ch, r) := fun r => by
    rw [List.contains_eq_any_beq, List.any_map]
    exact List.any_congr rfl fun p => congrArg₂ (· && ·) Bool.beq_comm Bool.beq_comm
  unfold channelStarts FlashSt.trains
  rw [List.countP_eq_length_filter]
  congr! 5 with r
  rw [hbad]
  cases s.flash.rankRecord ch r <;> cases (b.badRanks.map fun p => (p.1.val, p.2.val)).contains (ch, r) <;> rfl
theorem Core.readSafe_within (s : Core) (a b : Bool) : Within [0x11] [.hlk, .spg] s (s.readSafe a b) := by
  have hsafe : ∀ (s : Core) (chB on : Bool), Within [0x11] [.hlk, .spg] s (s.setSafe chB on) := fun s chB on => by
    unfold Core.setSafe
    cases chB
    · exact ((Within.refl _ _ s).wr _).spg _
    · exact ((Within.refl _ _ s).wr _).spg _
  unfold Core.readSafe
  extract_lets t
  have ht : Within [0x11] [.hlk, .spg] s t := (hsafe s false a).trans (hsafe _ true b)
  exact .ite (fun _ => ht) fun _ => ht.foldl _ fun i hi s => (Within.refl _ _ s).next (s.setCauses_within _ (mem_allBars_lt hi))
theorem startUp_fail_bootState (s : Core) (h f : Nat) : ((s.wr SYS_BOOT.STATE 0xF).startEly h f).bootState = 15 :=
  ((Core.startEly_within _ h f).rd _ _ (by decide)).trans (Core.rd_wr _ _ _ _)
theorem Core.becomeReady_bootState (s : Core) (ms : Nat) : (s.becomeReady ms).bootState = 7 := by
  unfold Core.becomeReady
  extract_lets a n
  have hready : (a.wrs [(SYS_BOOT.STATE, 7), (SYS_READY_TIME.MS, n)]).rd SYS_BOOT.STATE = 7 := by
    simp (disch := decide) only [Core.wrs, List.foldl_cons, List.foldl_nil, Core.rd_wr_ne, Core.rd_wr]
    rfl
  exact (Core.rd_emit_ne _ _ _ _ _ _ (by decide)).trans hready
theorem startUp_bootState (b : BootIn) (lanes : Nat × Nat) (f : Field) (hnone : f.core.rd MEM_STATUS.IN_SERVICE = 0) :
    (startUp b lanes f).core.bootState =
      (if b.chip && (List.range 4).any (channelStarts b f.core) && (List.range 2).any (coreStarts b f.core) then 7 else 15) := by
  unfold startUp
  extract_lets s0 fail s1 s2 s3 s4 s5 flashBad f5
  have hfail : ∀ f : Field, (fail f).core.bootState = 15 := fun f => startUp_fail_bootState f.core lanes.1 lanes.2
  have h3 : Within [0x00, 0x0E, 0x11, 0x1B] [.hlk, .spg, .etime, .cmdq] f.core s3 := by
    have h1 : Within [0x00, 0x0E, 0x11, 0x1B] [.hlk, .spg, .etime, .cmdq] f.core s1 :=
      (((Within.refl _ _ f.core).reach _).next (s0.readSafe_within b.safeA b.safeB)).wrs
    have h2 : Within [0x00, 0x0E, 0x11, 0x1B] [.hlk, .spg, .etime, .cmdq] f.core s2 :=
      .ite (fun _ => h1) fun _ => (h1.wr _).emit _ _ _
    exact .ite (fun _ => h2) fun _ => (h2.wr _).emit _ _ _
  clear_value s0 s1 s2 s3
  have hnone3 : (s3.wr SYS_BOOT.STATE 2).rd MEM_STATUS.IN_SERVICE = 0 :=
    (Core.rd_wr_ne _ _ _ _ _ _ (by decide)).trans ((h3.rd _ _ (by decide)).trans hnone)
  have hflash3 : (s3.wr SYS_BOOT.STATE 2).flash = f.core.flash := h3.parts .flash (by decide)
  obtain ⟨hservice, hrecords, -⟩ : (s4.rd MEM_STATUS.IN_SERVICE = 0 ↔ _) ∧ _ ∧ _ :=
    Core.trainDram_spec _ (b.badRanks.map fun p => (p.1.val, p.2.val)) b.trainMs.toNat hnone3
  rw [hflash3] at hservice hrecords
  have hflash5 : s5.flash = s4.flash := (Core.readBootRecord_within _).parts .flash (by decide)
  rw [← hflash5] at hrecords
  have hchannels : (List.range 4).any (channelStarts b f.core) =
      (List.range 4).any (f.core.flash.trains (b.badRanks.map fun p => (p.1.val, p.2.val))) :=
    List.any_congr rfl fun ch => channelStarts_eq b f.core ch
  have hcores : (List.range 2).any (coreStarts b f.core) =
      ((b.coreA && s5.flash.loads 0 (s5.flash.activeSlot 0) (flashBad 0)) ||
        (b.coreB && s5.flash.loads 1 (s5.flash.activeSlot 1) (flashBad 1))) := by
    simp only [FlashSt.loads_congr hrecords, FlashSt.activeSlot_congr hrecords]
    simp only [List.range_succ, List.range_zero, List.nil_append, List.cons_append, List.any_cons, List.any_nil, Bool.or_false,
      coreStarts_eq, if_true]
    rfl
  rw [hchannels, hcores]
  have hfalse : (b.coreA = false ∧ b.coreB = false) ∨ b.chip = false ↔ ((!b.chip) = true ∨ (!b.coreA) = true ∧ (!b.coreB) = true) := by
    simp [or_comm]
  split
  · next hchip =>
    rw [hfail, if_neg]
    rcases hfalse.2 hchip with ⟨ha, hb⟩ | hc
    · simp [ha, hb]
    · simp [hc]
  next hchip =>
  have hchip' : b.chip = true := by
    cases hc : b.chip
    · exact absurd (Or.inl (by rw [hc]; rfl)) hchip
    · rfl
  rw [hchip', Bool.true_and]
  split
  · next hno =>
    rw [hfail, hservice.1 hno, Bool.false_and, if_neg Bool.false_ne_true]
  next hyes =>
  rw [Bool.eq_true_of_not_eq_false fun h => hyes (hservice.2 h), Bool.true_and]
  obtain ⟨hrunA, hloadA⟩ := loadCore_ite b.coreA f5 0 (s5.flash.activeSlot 0) (flashBad 0)
  split
  next a fA hA =>
  rw [show (0 : Fin 2).val = 0 from rfl, hA] at hrunA hloadA
  obtain ⟨hrunB, -⟩ := loadCore_ite b.coreB fA 1 (s5.flash.activeSlot 1) (flashBad 1)
  split
  next bb fB hB =>
  rw [show (1 : Fin 2).val = 1 from rfl, hB] at hrunB
  rw [show fA.core.flash = s5.flash from hloadA.parts .flash (by decide)] at hrunB
  rw [show f5.core = s5 from rfl] at hrunA
  rw [← hrunA, ← hrunB]
  split
  · next hnorun =>
    rw [hfail, if_neg]
    simpa using hnorun
  · next hrun =>
    rw [if_pos (by cases a <;> cases bb <;> simp_all)]
    exact Core.becomeReady_bootState _ _

/-- Settles O8: of the flash, nothing before the cores' loads changes the records and images, so the field side's own conditions
decide. -/
theorem startUpEndsReadyOrBootFail : Obligations.StartUpEndsReadyOrBootFail := by
  unfold Obligations.StartUpEndsReadyOrBootFail
  intro b s hreset hnone
  have hrun : doFieldResetRelease b s =
      ({ s with field := startUp b (if s.host.powered then (b.h2f.val, b.f2h.val) else (0, 0)) s.field } : State).syncHost :=
    if_neg (not_not.2 hreset)
  refine ⟨_, rfl, ?_⟩
  rw [hrun]
  exact ⟨rfl, startUp_bootState b _ s.field hnone⟩

end Sys2Proof.Machine
end

section
/-! PROOF. The takeover (spec/05_chirp_and_tick_cores.md R226 to R232): what the end of commands and operations, the governor and a
pending throttle request may change. -/

namespace Sys2Proof.Machine

set_option Elab.async false

/-! ### Commands and operations that end -/

theorem Core.putCompl_within (s : Core) (src : Src) (c : Compl) : Within [] [.cmdq, .answers] s (s.putCompl src c) := by
  cases src
  · exact (Within.refl _ _ s).cmdq _ (hd := .inl (by decide))
  · exact (Within.refl _ _ s).cmdq _ (hd := .inl (by decide))
theorem Core.complete_within (s : Core) (src : Src) (op tag q idx : Nat) (r : Reply) :
    Within [0x01, 0x1B] [.cmdq, .answers, .free] s (s.complete src op tag q idx r) := by
  unfold Core.complete
  extract_lets st a b res c
  have ha : Within [0x01, 0x1B] [.cmdq, .answers, .free] s a := (Within.refl _ _ s).inc _
  have hb : Within [0x01, 0x1B] [.cmdq, .answers, .free] s b := .ite (fun _ => ha) fun _ => ha.inc _
  have hc : Within [0x01, 0x1B] [.cmdq, .answers, .free] s c := .ite (fun _ => (hb.inc _).emit _ _ _) fun _ => hb
  exact (hc.free _).next (Core.putCompl_within _ _ _)
theorem Core.closeCmd_within (s : Core) (r : CmdRef) (rep : Reply) :
    Within [0x01, 0x1B] [.cmdq, .open_, .answers, .free] s (s.closeCmd r rep) := by
  unfold Core.closeCmd
  refine .ite (fun _ => ?_) fun _ => .refl _ _ s
  have h : Within [0x01, 0x1B] [.cmdq, .open_, .answers, .free] s
      { s with cmdq := { s.cmdq with open_ := dropFirst (· == r) s.cmdq.open_ } } :=
    (Within.refl _ _ s).cmdq _ (by decide) (.inr rfl) (.inl (by decide))
  exact h.next (Core.complete_within _ _ _ _ _ _ _)
theorem Core.refreshRing_within (s : Core) : Within [0x05] [] s s.refreshRing := by
  unfold Core.refreshRing
  exact (Within.refl _ _ s).wrs
/-- With no job and no load, commands in the middle of execution end and nothing else changes. -/
theorem Core.holdCommands_spec (s : Core) (hjobs : s.jobs = JobSt.reset) :
    s.holdCommands.jobs = JobSt.reset ∧ Within [0x01, 0x05, 0x1B] [.cmdq, .open_, .answers, .free, .jobs, .ely] s s.holdCommands := by
  unfold Core.holdCommands
  extract_lets held a w logged b js src c
  have ha : a = s := by unfold a; rw [hjobs]; rfl
  have hb : Within [0x01, 0x05, 0x1B] [.cmdq, .open_, .answers, .free, .ely] s b := by
    unfold b
    rw [ha]
    exact (Within.refl _ _ s).foldl _ fun r _ s => (Within.refl _ _ s).next (s.closeCmd_within _ _)
  have hbjobs : b.jobs = JobSt.reset := (hb.parts .jobs (by decide)).trans hjobs
  have hc : ({ b with jobs := { src with jobs := js } } : Core).jobs = JobSt.reset := by
    change ({ b.jobs with jobs := js } : JobSt) = _
    unfold js
    rw [hbjobs]
    rfl
  clear_value b
  refine ⟨(Core.refreshRing_within _).parts .jobs (by decide) |>.trans hc, ?_⟩
  exact ((((Within.refl _ _ s).next hb).jobs _).next (Core.refreshRing_within _)).ely _
/-- With no switch due, operations end, and with them a MOLT or a drill. -/
theorem Core.holdOps_spec (s : Core) (hjobs : s.jobs = JobSt.reset) :
    s.holdOps.jobs = JobSt.reset ∧ s.holdOps.tck = { s.tck with drill := none, molt := none } ∧
    Within [0x02, 0x1B] [.cmdq, .tck, .jobs] s s.holdOps := by
  unfold Core.holdOps Core.recordDue
  extract_lets a b src c
  have ha : Within [0x02, 0x1B] [.cmdq] s a := by
    unfold a
    split
    · exact .ite (fun _ => (Within.refl _ _ s).asyncErr _ _ _ _) fun _ => .refl _ _ s
    · exact .refl _ _ s
  have hb : Within [0x02, 0x1B] [.cmdq] s b := ha.foldl _ fun e _ s => (Within.refl _ _ s).asyncErr _ _ _ _
  have hc : Within [0x02, 0x1B] [.cmdq, .tck] s c := (((Within.refl _ _ s).next hb).tck _).wrs
  have hcjobs : c.jobs = JobSt.reset := (hc.parts .jobs (by decide)).trans hjobs
  have hctck : c.tck = { s.tck with drill := none, molt := none } := by
    change ({ b.tck with drill := none, molt := none } : TckSt) = _
    rw [show b.tck = s.tck from hb.parts .tck (by decide)]
  clear_value c
  have hdue : c.jobs.due.foldl (fun s e => s.recordSwitch e.1 e.2.1 e.2.2) { c with jobs := { c.jobs with due := [] } } =
      { c with jobs := JobSt.reset } := by
    rw [hcjobs]
    rfl
  rw [hdue]
  exact ⟨rfl, hctck, ((Within.refl _ _ s).next hc).jobs _⟩

/-! ### The governor and a pending request -/

theorem Core.drivePio_thm (s : Core) : s.drivePio.thm = s.thm := s.drivePio_within.parts .thm (by decide)
/-- Of the record of temperature and power, the governor moves the two terms of the thermal laws. -/
theorem Core.govern_thm (s : Core) : ∃ x y, s.govern.thm = { s.thm with fHd := x, fTh := y } := by
  unfold Core.govern
  extract_lets stat a rw frw starved head die src b terms tgt old down up ceil bnd was fell src' c d e f g
  have ha : a.thm = s.thm := s.averageRing_within.parts .thm (by decide)
  have hd : Within [0x11] [] c d := (Within.refl _ _ c).wrs
  have he : Within [0x11, 0x1B] [.cmdq] c e :=
    .ite (fun _ => ((Within.refl _ _ c).next hd).emit _ _ _) fun _ => (Within.refl _ _ c).next hd
  have hf : Within [0x11, 0x1B] [.cmdq, .limits] c f :=
    .ite (fun _ => ((Within.refl _ _ c).next he).emitEvery _ _ _ _) fun _ => (Within.refl _ _ c).next he
  have hg : Within [0x11, 0x1B] [.cmdq, .limits] c g := hf.foldl _ fun c hc s => (Within.refl _ _ s).wr _ (spdCode_block hc)
  refine ⟨head, die, ?_⟩
  rw [Core.drivePio_thm, show g.drivePwm.thm = g.thm from (Core.drivePwm_within _).parts .thm (by decide),
    show g.thm = c.thm from hg.parts .thm (by decide)]
  change ({ a.thm with fHd := head, fTh := die } : ThmSt) = _
  rw [ha]
theorem Core.setStatic_within (s : Core) : Within [0x11] [] s s.setStatic := (Within.refl _ _ s).wr _
theorem Core.rd_setThm (s : Core) (x : ThmSt) (f : Fld) (n : Nat) : (s.setThm x).rd f n = s.rd f n := rfl
theorem Core.engage_spec (s : Core) (forced : Bool) :
    (s.engage forced).rd THM_STATUS.PENDING = 0 ∧ (s.engage forced).rd THM_STATUS.LEVEL = min 4 (s.rd THM_STATUS.LEVEL + 1) ∧
    (s.engage forced).thm = { s.thm with hotFrom := some s.etime } ∧ Within [0x16, 0x1B] [.thm, .cmdq] s (s.engage forced) := by
  unfold Core.engage
  extract_lets old a b
  have hread : ∀ f : Fld, f.key 0 ≠ THM_THR_CNT.ENGAGES.key 0 → f.key 0 ≠ THM_THR_CNT.FORCED.key 0 →
      f.key 0 ≠ LOG_EVT_OVWR_CNT.COUNT.key 0 → ((b.setThm { b.thm with hotFrom := some b.etime }).emit 0x0D06
        (old + at_ 1 (min 4 (old + 1)) + at_ 2 (b2n forced) + at_ 3 b.thm.pendBy)).rd f = a.rd f := fun f h1 h2 h3 =>
    (Core.rd_emit_ne _ _ _ _ _ _ h3).trans <| (Core.rd_setThm _ _ _ _).trans ((Core.rd_inc_ne _ _ _ _ _ _ h2).trans (Core.rd_inc_ne _ _ _ _ _ _ h1))
  have ha : Within [0x16] [] s a := (Within.refl _ _ s).wrs
  have hb : Within [0x16] [] s b := (ha.inc _).inc _
  have hthm : ({ b.thm with hotFrom := some b.etime } : ThmSt) = { s.thm with hotFrom := some s.etime } := by
    rw [show b.thm = s.thm from hb.parts .thm (by decide), show b.etime = s.etime from hb.parts .etime (by decide)]
  refine ⟨?_, ?_, (Core.emit_thm _ _ _ _).trans hthm, ((Within.refl _ _ s).next hb |>.thm _).emit _ _ _⟩
  · rw [hread _ (by decide) (by decide) (by decide)]
    simp (disch := decide) only [a, Core.wrs, List.foldl_cons, List.foldl_nil, Core.rd_wr, Nat.zero_mod]
  · rw [hread _ (by decide) (by decide) (by decide)]
    simp (disch := decide) only [a, Core.wrs, List.foldl_cons, List.foldl_nil, Core.rd_wr, Core.rd_wr_ne]
    exact Nat.mod_eq_of_lt (Nat.lt_of_le_of_lt (Nat.min_le_left _ _) (by decide))
theorem Core.tryEngage_eq (s : Core) : s.tryEngage = s.engage false ∨ s.tryEngage = s := by
  unfold Core.tryEngage
  extract_lets st
  split
  · exact .inl rfl
  · exact .inr rfl
/-- A request that is not pending does not engage. -/
theorem Core.resumeThrottle_none (s : Core) (h : s.rd THM_STATUS.PENDING = 0) : s.resumeThrottle = s := by
  have hb : s.rdb THM_STATUS.PENDING = false := by rw [Core.rdb, h]; rfl
  unfold Core.resumeThrottle Core.tryEngage
  rw [hb]
  simp
/-- A request that is old enough engages; a younger one may. -/
theorem Core.resumeThrottle_spec (s : Core) :
    (∃ x, s.resumeThrottle.thm = { s.thm with hotFrom := x }) ∧ Within [0x11, 0x16, 0x1B] [.thm, .cmdq] s s.resumeThrottle ∧
    (s.rd THM_STATUS.PENDING = 1 → s.forcedAt ≤ s.etime →
      s.resumeThrottle.rd THM_STATUS.PENDING = 0 ∧
      s.resumeThrottle.rd THM_STATUS.LEVEL = min 4 (s.rd THM_STATUS.LEVEL + 1)) := by
  have hforced := s.engage_spec true
  have heased := s.engage_spec false
  have htry := s.tryEngage_eq
  unfold Core.resumeThrottle
  generalize s.engage true = a at *
  generalize s.engage false = b at *
  obtain ⟨hpend, hlevel, hthm, hframe⟩ := hforced
  obtain ⟨-, -, hthm', hframe'⟩ := heased
  refine ⟨?_, ?_, fun h1 h2 => ?_⟩
  · split
    · exact ⟨_, hthm⟩
    · rcases htry with h | h <;> rw [h]
      · exact ⟨_, hthm'⟩
      · exact ⟨s.thm.hotFrom, rfl⟩
  · refine .ite (fun _ => ((Within.refl _ _ s).next hframe).next a.setStatic_within) fun _ => ?_
    rcases htry with h | h <;> rw [h]
    · exact (Within.refl _ _ s).next hframe'
    · exact .refl _ _ s
  · have hb : (s.rdb THM_STATUS.PENDING && decide (s.forcedAt ≤ s.etime)) = true := by
      rw [Core.rdb, h1, decide_eq_true h2]; rfl
    rw [if_pos hb, a.setStatic_within.rd _ _ (by decide), a.setStatic_within.rd _ _ (by decide)]
    exact ⟨hpend, hlevel⟩

/-! ### The resume and SAFE_IDLE -/

theorem Core.holdOps_kind (s : Core) (hjobs : s.jobs = JobSt.reset) :
    s.holdOps.rd TCK_LAST_GAP.KIND = s.rd TCK_LAST_GAP.KIND := by
  unfold Core.holdOps Core.recordDue
  extract_lets a b src c
  have ha : Within [0x1B] [.cmdq] s a := by
    unfold a
    split
    · exact .ite (fun _ => (Within.refl _ _ s).asyncErr _ _ _ _) fun _ => .refl _ _ s
    · exact .refl _ _ s
  have hb : Within [0x1B] [.cmdq] s b := ha.foldl _ fun e _ s => (Within.refl _ _ s).asyncErr _ _ _ _
  have hc : Within [0x02] [.tck] b c := ((Within.refl _ _ b).tck _).wrs
  have hkind : c.rd TCK_LAST_GAP.KIND = s.rd TCK_LAST_GAP.KIND :=
    (Core.rd_wrs_ne _ _ _ _ _ (by simp only [List.forall_mem_cons]; decide)).trans (hb.rd _ _ (by decide))
  have hcjobs : c.jobs = JobSt.reset := ((hc.parts .jobs (by decide)).trans (hb.parts .jobs (by decide))).trans hjobs
  clear_value c
  have hdue : c.jobs.due.foldl (fun s e => s.recordSwitch e.1 e.2.1 e.2.2) { c with jobs := { c.jobs with due := [] } } =
      { c with jobs := JobSt.reset } := by
    rw [hcjobs]
    rfl
  rw [hdue]
  exact hkind

/-- What the resuming core does with the newest checkpoint. -/
def Core.resumeFrom (s : Core) (k : Ckpt) : Core := (s.restore k).holdCommands.holdOps.govern.resumeThrottle
/-- The blocks and records of a resume without a throttle request. -/
theorem Core.resumeFrom_spec (s : Core) (k : Ckpt) (hjobs : s.jobs = JobSt.reset) :
    (∃ x y z, (s.resumeFrom k).thm = { k.body.thermal with
        fHd := x, fTh := y, guard := s.thm.guard
        hotFrom := if s.rd THM_STATUS.PENDING = 0 then k.body.thermal.hotFrom else z
        pendAt := s.thm.pendAt, pendBy := s.thm.pendBy }) ∧
    (s.resumeFrom k).tck = { s.tck with drill := none, molt := none } ∧
    (s.resumeFrom k).rd TCK_LAST_GAP.KIND = s.rd TCK_LAST_GAP.KIND ∧
    (s.rd THM_STATUS.PENDING = 1 → s.forcedAt ≤ s.etime →
      (s.resumeFrom k).rd THM_STATUS.PENDING = 0 ∧
      (s.resumeFrom k).rd THM_STATUS.LEVEL = min 4 (s.rd THM_STATUS.LEVEL + 1)) ∧
    Within ((if s.rd THM_STATUS.PENDING = 0 then [] else [0x16]) ++ [0x01, 0x02, 0x05, 0x11, 0x1B])
      [.spg, .thm, .cmdq, .open_, .answers, .free, .jobs, .ely, .tck, .limits] s (s.resumeFrom k) := by
  have hr : Within [] [.spg, .thm] s (s.restore k) := 
    ((Within.refl [] [.spg, .thm] s).spg { s.spg with ceil := k.body.ceil, elyAvg := k.body.runway }).thm
      { k.body.thermal with guard := s.thm.guard, pendAt := s.thm.pendAt, pendBy := s.thm.pendBy }
  have hrthm : (s.restore k).thm = { k.body.thermal with
      guard := s.thm.guard, pendAt := s.thm.pendAt, pendBy := s.thm.pendBy } := rfl
  obtain ⟨hjobs1, h1⟩ := (s.restore k).holdCommands_spec hjobs
  obtain ⟨-, htck2, h2⟩ := Core.holdOps_spec (s.restore k).holdCommands hjobs1
  have hkind2 := Core.holdOps_kind (s.restore k).holdCommands hjobs1
  obtain ⟨x, y, hthm3⟩ := (s.restore k).holdCommands.holdOps.govern_thm
  have h3 := (s.restore k).holdCommands.holdOps.govern_within
  unfold Core.resumeFrom
  generalize (s.restore k).holdCommands.holdOps.govern = g at *
  generalize (s.restore k).holdCommands.holdOps = o at *
  generalize (s.restore k).holdCommands = c at *
  generalize s.restore k = r at *
  have hg : Within [0x01, 0x02, 0x05, 0x11, 0x1B] [.spg, .thm, .cmdq, .open_, .answers, .free, .jobs, .ely, .tck, .limits] s g :=
    ((((Within.refl _ _ s).next hr).next h1).next h2).next h3
  have hthm : g.thm = { k.body.thermal with
      fHd := x, fTh := y, guard := s.thm.guard, pendAt := s.thm.pendAt, pendBy := s.thm.pendBy } := by
    rw [hthm3, show o.thm = c.thm from h2.parts .thm (by decide), show c.thm = r.thm from h1.parts .thm (by decide), hrthm]
  have hpending : g.rd THM_STATUS.PENDING = s.rd THM_STATUS.PENDING := hg.rd _ _ (by decide)
  have htck : g.tck = { s.tck with drill := none, molt := none } := by
    rw [show g.tck = o.tck from h3.parts .tck (by decide), htck2, show c.tck = r.tck from h1.parts .tck (by decide),
      show r.tck = s.tck from hr.parts .tck (by decide)]
  have hkind : g.rd TCK_LAST_GAP.KIND = s.rd TCK_LAST_GAP.KIND :=
    (h3.rd _ _ (by decide)).trans (hkind2.trans ((h1.rd _ _ (by decide)).trans (hr.rd _ _ (by decide))))
  have hforced : g.forcedAt = s.forcedAt := by
    unfold Core.forcedAt
    rw [hthm, hg.rd THM_THR_CFG.ENGAGE_MS _ (by decide)]
  by_cases hp : s.rd THM_STATUS.PENDING = 0
  · rw [g.resumeThrottle_none (hpending.trans hp), if_pos hp]
    exact ⟨⟨x, y, none, by rw [hthm, if_pos hp]⟩, htck, hkind, fun h => by omega, hg⟩
  · obtain ⟨⟨z, hz⟩, ht, hforce⟩ := g.resumeThrottle_spec
    rw [if_neg hp]
    refine ⟨⟨x, y, z, by rw [hz, hthm, if_neg hp]⟩, (ht.parts .tck (by decide)).trans htck, (ht.rd _ _ (by decide)).trans hkind,
      fun h1 h2 => ?_, (hg.mono (by decide) (by decide)).next ht⟩
    obtain ⟨ha, hb⟩ := hforce (hpending.trans h1) (by rw [hforced, show g.etime = s.etime from hg.parts .etime (by decide)]; exact h2)
    exact ⟨ha, by rw [hb, hg.rd THM_STATUS.LEVEL _ (by decide)]⟩
/-- SAFE_IDLE with no job and no command waiting. -/
theorem Core.safeIdle_spec (s : Core) (reason old new : Nat) (hjobs : s.jobs = JobSt.reset) (hwait : s.cmdq.waiting = []) :
    (s.safeIdle reason old new).bootState = 8 ∧ (s.safeIdle reason old new).rd SYS_BOOT.IMAGO = s.rd SYS_BOOT.IMAGO ∧
    (s.safeIdle reason old new).tck = { s.tck with drill := none, molt := none } ∧
    Within [0x00, 0x01, 0x02, 0x05, 0x11, 0x1B] [.hlk, .cmdq, .open_, .answers, .free, .jobs, .ely, .tck] s (s.safeIdle reason old new) := by
  have h1 := stopBars_within s (bs := allBars) 7 fun b => mem_allBars_lt
  unfold Core.safeIdle Core.abortAll
  generalize stopBars allBars 7 s = a at *
  have h2 : Within [0x00, 0x11, 0x1B] [.hlk, .cmdq] s (a.wr SYS_BOOT.STATE 8) := ((Within.refl _ _ s).next h1).wr _
  have hstate : (a.wr SYS_BOOT.STATE 8).rd SYS_BOOT.STATE = 8 := (Core.rd_wr _ _ _ _).trans (by decide)
  have himago : (a.wr SYS_BOOT.STATE 8).rd SYS_BOOT.IMAGO = s.rd SYS_BOOT.IMAGO :=
    (Core.rd_wr_ne _ _ _ _ _ _ (by decide)).trans (h1.rd _ _ (by decide))
  generalize a.wr SYS_BOOT.STATE 8 = b at *
  obtain ⟨hjobs3, h3⟩ := b.holdCommands_spec ((h2.parts .jobs (by decide)).trans hjobs)
  obtain ⟨hjobs4, htck4, h4⟩ := Core.holdOps_spec b.holdCommands hjobs3
  generalize b.holdCommands.holdOps = d at *
  generalize b.holdCommands = c at *
  have h5 : Within [0x01, 0x02, 0x05, 0x1B] [.cmdq, .open_, .answers, .free, .jobs, .ely, .tck] b d := ((Within.refl _ _ b).next h3).next h4
  have hframe : Within [0x00, 0x01, 0x02, 0x05, 0x11, 0x1B] [.hlk, .cmdq, .open_, .answers, .free, .jobs, .ely, .tck] s d :=
    ((Within.refl _ _ s).next h2).next h5
  have htck : d.tck = { s.tck with drill := none, molt := none } := by
    rw [htck4, show c.tck = b.tck from h3.parts .tck (by decide), show b.tck = s.tck from h2.parts .tck (by decide)]
  have hnojob : d.withdrawAll (d.jobs.switches.filter (·.fired == 0)) = d := by
    rw [hjobs4]
    rfl
  rw [hnojob]
  extract_lets u src t x e w
  have ht : Within [] [.jobs] d t := (Within.refl _ _ d).jobs _
  have htjobs : t.jobs = JobSt.reset := by
    change ({ d.jobs with switches := [], chains := [] } : JobSt) = _
    rw [hjobs4]
    rfl
  have hx : x = t := by
    unfold x
    rw [htjobs]
    rfl
  have hte : Within [0x1B] [.jobs, .cmdq] d e := by
    unfold e
    rw [hx]
    exact ((Within.refl _ _ d).next ht).emit _ _ _
  have hw : w = [] := (hte.parts .waiting (by decide)).trans ((hframe.parts .waiting (by decide)).trans hwait)
  rw [hw, List.foldl_nil]
  clear_value e
  have hread : ∀ f : Fld, f.block 0 ∉ [0x01, 0x02, 0x05, 0x1B] → e.rd f = b.rd f := fun f hf =>
    (hte.rd f 0 (by simp_all)).trans (h5.rd f 0 hf)
  have hend : Within [0x00, 0x01, 0x02, 0x05, 0x11, 0x1B] [.hlk, .cmdq, .open_, .answers, .free, .jobs, .ely, .tck] s
      { e with cmdq := { e.cmdq with waiting := [] } } :=
    (hframe.next hte).cmdq _ (by decide) (.inr hw.symm)
  exact ⟨(hread SYS_BOOT.STATE (by decide)).trans hstate, (hread SYS_BOOT.IMAGO (by decide)).trans himago,
    (hte.parts .tck (by decide)).trans htck, hend⟩

/-! ### IMAGO_TAKEOVER -/

theorem Core.seize_state (s : Core) (core kind gap : Nat) :
    (s.seize core kind gap TCK_SWITCH_CNT.TAKEOVERS).rd SYS_BOOT.STATE = s.rd SYS_BOOT.STATE := by
  unfold Core.seize
  extract_lets t u
  change u.rd SYS_BOOT.STATE = _
  simp (disch := decide) only [u, t, Core.wr2, Core.wrs, List.foldl_cons, List.foldl_nil, Core.rd_inc_ne, Core.rd_wr_ne]
/-- The pupa has the line: the state in which it resumes or goes to SAFE_IDLE. -/
def Core.takenBy (s : Core) (lag kind : Nat) : Core :=
  let a := ((s.emit 0x0205 (s.imago + at_ 8 s.tck.goodAt)).inc (failCnt s.imago)).hold s.imago
  let b := (a.wr TCK_STATUS.SWITCHING 1).reach (a.tck.last + min lag 40000)
  let c := b.seize s.pupa kind (b.etime - s.tck.goodAt) TCK_SWITCH_CNT.TAKEOVERS
  if s.pupa = 0 then c.wr TCK_STATUS.REVERT_PENDING 0 else c
theorem Core.takenBy_spec (s : Core) (lag : Nat) (kind : Fin 16) :
    (s.takenBy lag kind).rd SYS_BOOT.IMAGO = 1 - s.rd SYS_BOOT.IMAGO ∧ (s.takenBy lag kind).rd TCK_LAST_GAP.KIND = kind.val ∧
    (s.takenBy lag kind).rd SYS_BOOT.STATE = s.rd SYS_BOOT.STATE ∧
    (s.takenBy lag kind).tck.held = some (s.rd SYS_BOOT.IMAGO) ∧ (s.takenBy lag kind).tck.imagoUp = true ∧
    (s.takenBy lag kind).etime = max s.etime (s.tck.last + min lag 40000) ∧
    Within [0x00, 0x02, 0x19, 0x1B] [.cdc, .limits, .cmdq, .tck, .etime] s (s.takenBy lag kind) := by
  have hcnt : (failCnt s.imago).block 0 ∈ [0x00, 0x02, 0x19, 0x1B] := by
    unfold failCnt
    split <;> decide
  have hcntState : (failCnt s.imago).key 0 ≠ SYS_BOOT.STATE.key 0 := by
    unfold failCnt
    split <;> decide
  have he : Within [0x00, 0x02, 0x19, 0x1B] [.cdc, .limits, .cmdq, .tck, .etime] s
      ((s.emit 0x0205 (s.imago + at_ 8 s.tck.goodAt)).inc (failCnt s.imago)) := ((Within.refl _ _ s).emit _ _ _).inc _ hcnt
  have hestate : ((s.emit 0x0205 (s.imago + at_ 8 s.tck.goodAt)).inc (failCnt s.imago)).rd SYS_BOOT.STATE = s.rd SYS_BOOT.STATE :=
    (Core.rd_inc_ne _ _ _ _ _ _ hcntState.symm).trans (Core.rd_emit_ne _ _ _ _ _ _ (by decide))
  have hetck : ((s.emit 0x0205 (s.imago + at_ 8 s.tck.goodAt)).inc (failCnt s.imago)).tck = s.tck := Core.emit_tck _ _ _ _
  have hetime : ((s.emit 0x0205 (s.imago + at_ 8 s.tck.goodAt)).inc (failCnt s.imago)).etime = s.etime := Core.emit_etime _ _ _ _
  unfold Core.takenBy
  generalize (s.emit 0x0205 (s.imago + at_ 8 s.tck.goodAt)).inc (failCnt s.imago) = e at *
  obtain ⟨htck, -, -, hhold⟩ := e.hold_spec s.imago
  have hstate := e.rd_hold_ne s.imago SYS_BOOT.STATE (by decide) (by decide)
  generalize e.hold s.imago = a at *
  extract_lets h b c
  have hpupa : s.pupa < 2 := by unfold Core.pupa; omega
  have hb : Within [0x00, 0x02, 0x19, 0x1B] [.cdc, .limits, .cmdq, .tck, .etime] s b := ((he.next hhold).wr _).reach _
  have hbtime : b.etime = max s.etime (s.tck.last + min lag 40000) := by
    change max a.etime (a.tck.last + min lag 40000) = _
    rw [show a.etime = e.etime from hhold.parts .etime (by decide), hetime, htck, hetck]
  have hbstate : b.rd SYS_BOOT.STATE = s.rd SYS_BOOT.STATE :=
    (Core.rd_reach _ _ _ _).trans ((Core.rd_wr_ne _ _ _ _ _ _ (by decide)).trans (hstate.trans hestate))
  have hbheld : b.tck.held = some (s.rd SYS_BOOT.IMAGO) := congrArg TckSt.held htck
  clear_value b
  obtain ⟨hcimago, -, -, hckind, -⟩ := b.seize_reads ⟨s.pupa, hpupa⟩ kind (b.etime - s.tck.goodAt) TCK_SWITCH_CNT.TAKEOVERS (.inr rfl)
  have hc := b.seize_within s.pupa kind (b.etime - s.tck.goodAt) TCK_SWITCH_CNT.TAKEOVERS (by decide)
  have hctck := b.seize_tck s.pupa kind (b.etime - s.tck.goodAt) TCK_SWITCH_CNT.TAKEOVERS
  have hcstate := b.seize_state s.pupa kind (b.etime - s.tck.goodAt)
  change Core.rd c _ _ = _ at hcimago hckind
  have hframe : Within [0x00, 0x02, 0x19, 0x1B] [.cdc, .limits, .cmdq, .tck, .etime] s c := hb.next hc
  have hread : ∀ f : Fld, f.key 0 ≠ TCK_STATUS.REVERT_PENDING.key 0 →
      (if s.pupa = 0 then c.wr TCK_STATUS.REVERT_PENDING 0 else c).rd f = c.rd f := fun f hf => by
    split
    · exact Core.rd_wr_ne _ _ _ _ _ _ hf
    · rfl
  have hsame : (if s.pupa = 0 then c.wr TCK_STATUS.REVERT_PENDING 0 else c).tck = c.tck ∧
      (if s.pupa = 0 then c.wr TCK_STATUS.REVERT_PENDING 0 else c).etime = c.etime := by
    split <;> exact ⟨rfl, rfl⟩
  refine ⟨(hread _ (by decide)).trans hcimago, (hread _ (by decide)).trans hckind, (hread _ (by decide)).trans (hcstate.trans hbstate),
    ?_, ?_, ?_, .ite (fun _ => hframe.wr _) fun _ => hframe⟩
  · rw [hsame.1, hctck]
    exact hbheld
  · rw [hsame.1, hctck]
  · rw [hsame.2, show c.etime = b.etime from hc.parts .etime (by decide), hbtime]

/-- Do both cores' images write and read the same checkpoints? -/
def Core.sameEpoch (s : Core) : Bool := s.rd SYS_EPOCH.CKPT_EPOCH s.imago == s.rd SYS_EPOCH.CKPT_EPOCH s.pupa
theorem Core.sameEpoch_iff {s : Core} (himago : s.rd SYS_BOOT.IMAGO ≤ 1) :
    s.sameEpoch = true ↔ s.rd SYS_EPOCH.CKPT_EPOCH 0 = s.rd SYS_EPOCH.CKPT_EPOCH 1 := by
  unfold Core.sameEpoch Core.pupa Core.imago
  rw [beq_iff_eq]
  rcases Nat.le_one_iff_eq_zero_or_eq_one.1 himago with h | h <;> rw [h]
  exact eq_comm
/-- The two ends of a takeover whose checkpoint banks' parity is good. -/
theorem Core.takeover_eq {s : Core} (lag : Nat) (himago : s.rd SYS_BOOT.IMAGO ≤ 1) :
    (s.sameEpoch = true → ∀ k, s.newestCkpt (fun _ => false) = some k → ∃ data,
      s.takeover lag [] = (((s.takenBy lag 1).resumeFrom k).wr TCK_STATUS.SWITCHING 0).emit 0x0206 data) ∧
    (s.sameEpoch = false → ∃ reason, s.takeover lag [] =
      ((s.takenBy lag 5).safeIdle reason s.imago s.pupa).wr TCK_STATUS.SWITCHING 0) ∧
    (s.newestCkpt (fun _ => false) = none → ∃ reason, s.takeover lag [] =
      ((s.takenBy lag 5).safeIdle reason s.imago s.pupa).wr TCK_STATUS.SWITCHING 0) := by
  have hcnt : (failCnt s.imago).block 0 ∈ [0x02, 0x1B] := by
    unfold failCnt
    split <;> decide
  have hu : Within [0x02, 0x1B] [.cmdq] s ((s.emit 0x0205 (s.imago + at_ 8 s.tck.goodAt)).inc (failCnt s.imago)) :=
    ((Within.refl _ _ s).emit _ _ _).inc _ hcnt
  have hblock : ∀ core : Fin 2, SYS_EPOCH.CKPT_EPOCH.block core.val ∉ [0x02, 0x1B] := by decide
  unfold Core.takeover
  extract_lets old new t0 e u v isBad ckpt same h b gap held c d
  have hv : v = u := rfl
  have hckpt : ckpt = s.newestCkpt (fun _ => false) := by
    unfold ckpt Core.newestCkpt
    rw [hv, show u.tck = s.tck from hu.parts .tck (by decide)]
    rfl
  have hsame : same = s.sameEpoch := by
    unfold same Core.sameEpoch
    rw [hv, hu.rd _ _ (hblock ⟨old, by unfold old Core.imago; omega⟩), hu.rd _ _ (hblock ⟨new, by unfold new Core.pupa; omega⟩)]
  have hd : ∀ kind, (if (same && ckpt.isSome) = true then 1 else 5) = kind → d = s.takenBy lag kind := by
    rintro _ rfl
    rfl
  clear_value d gap held ckpt same
  subst hckpt hsame
  refine ⟨fun hepoch k hk => ?_, fun hepoch => ?_, fun hk => ?_⟩
  · rw [hd 1 (by rw [hepoch, hk]; rfl), hk, hepoch]
    exact ⟨_, rfl⟩
  · rw [hd 5 (by rw [hepoch]; rfl), hepoch]
    cases s.newestCkpt fun _ => false <;> exact ⟨_, rfl⟩
  · rw [hd 5 (by rw [hk, Option.isSome_none, Bool.and_false]; rfl), hk]
    exact ⟨_, rfl⟩

/-- What every takeover ends with. -/
structure Core.TakenOver (s c : Core) (lag : Nat) : Prop where
  imago : c.rd SYS_BOOT.IMAGO = 1 - s.rd SYS_BOOT.IMAGO
  held : c.tck.held = some (s.rd SYS_BOOT.IMAGO)
  alive : c.imagoDead = false
  switched : c.rd TCK_STATUS.SWITCHING = 0
  time : c.etime = max s.etime (s.tck.last + min lag 40000)
  idle : c.cmdq.waiting = []
theorem Core.imagoDead_of_up {s : Core} (h : s.tck.imagoUp = true) : s.imagoDead = false := by
  rw [Core.imagoDead, h, Bool.not_true, Bool.and_false]
theorem Core.takeover_idles {s : Core} (lag : Nat) {c : Core} (hwait : s.cmdq.waiting = []) (hjobs : s.jobs = JobSt.reset)
    {reason old new : Nat} (hc : c = ((s.takenBy lag 5).safeIdle reason old new).wr TCK_STATUS.SWITCHING 0) :
    s.TakenOver c lag ∧ c.bootState = 8 ∧ SameOutside [0x00, 0x01, 0x02, 0x05, 0x11, 0x19, 0x1B] s c := by
  obtain ⟨himago, -, -, hheld, hup, htime, hframe⟩ := s.takenBy_spec lag 5
  change (s.takenBy lag 5).rd _ = _ at himago
  change Within _ _ s (s.takenBy lag 5) at hframe
  change (s.takenBy lag 5).tck.held = _ at hheld
  change (s.takenBy lag 5).tck.imagoUp = _ at hup
  change (s.takenBy lag 5).etime = _ at htime
  generalize s.takenBy lag 5 = p at *
  have hpwait : p.cmdq.waiting = [] := (hframe.parts .waiting (by decide)).trans hwait
  obtain ⟨hboot, hcore, htck, hidle⟩ := p.safeIdle_spec reason old new ((hframe.parts .jobs (by decide)).trans hjobs) hpwait
  generalize p.safeIdle reason old new = q at *
  subst hc
  refine ⟨⟨?_, ?_, ?_, ?_, ?_, ?_⟩, ?_, (((Within.refl [0x00, 0x01, 0x02, 0x05, 0x11, 0x19, 0x1B]
    [.cdc, .limits, .cmdq, .tck, .etime, .hlk, .open_, .answers, .free, .jobs, .ely] s).next hframe).next hidle |>.wr _).regs⟩
  · exact (Core.rd_wr_ne _ _ _ _ _ _ (by decide)).trans (hcore.trans himago)
  · exact (congrArg TckSt.held htck).trans hheld
  · exact Core.imagoDead_of_up ((congrArg TckSt.imagoUp htck).trans hup)
  · exact Core.rd_wr _ _ _ _
  · exact (hidle.parts .etime (by decide)).trans htime
  · exact (hidle.parts .waiting (by decide)).trans hpwait
  · exact (Core.rd_wr_ne _ _ _ _ _ _ (by decide)).trans hboot
theorem Core.takeover_resumes {s : Core} (lag : Nat) {c : Core} {k : Ckpt} {data : Nat} (hwait : s.cmdq.waiting = [])
    (hjobs : s.jobs = JobSt.reset)
    (hc : c = (((s.takenBy lag 1).resumeFrom k).wr TCK_STATUS.SWITCHING 0).emit 0x0206 data) :
    s.TakenOver c lag ∧ c.bootState = s.bootState ∧ c.rd TCK_LAST_GAP.KIND = 1 ∧
    (∃ x y z, c.thm = { k.body.thermal with
        fHd := x, fTh := y, guard := s.thm.guard
        hotFrom := if s.rd THM_STATUS.PENDING = 0 then k.body.thermal.hotFrom else z
        pendAt := s.thm.pendAt, pendBy := s.thm.pendBy }) ∧
    (s.rd THM_STATUS.PENDING = 1 → s.forcedAt ≤ c.etime →
      c.rd THM_STATUS.PENDING = 0 ∧ c.rd THM_STATUS.LEVEL = min 4 (s.rd THM_STATUS.LEVEL + 1)) ∧
    SameOutside ((if s.rd THM_STATUS.PENDING = 0 then [] else [0x16]) ++ [0x00, 0x01, 0x02, 0x05, 0x11, 0x19, 0x1B]) s c := by
  obtain ⟨himago, hkind, hstate, hheld, hup, htime, hframe⟩ := s.takenBy_spec lag 1
  change (s.takenBy lag 1).rd _ = _ at himago
  change (s.takenBy lag 1).rd _ = 1 at hkind
  change (s.takenBy lag 1).rd _ = _ at hstate
  change Within _ _ s (s.takenBy lag 1) at hframe
  change (s.takenBy lag 1).tck.held = _ at hheld
  change (s.takenBy lag 1).tck.imagoUp = _ at hup
  change (s.takenBy lag 1).etime = _ at htime
  generalize s.takenBy lag 1 = p at *
  have hpwait : p.cmdq.waiting = [] := (hframe.parts .waiting (by decide)).trans hwait
  have hpending : p.rd THM_STATUS.PENDING = s.rd THM_STATUS.PENDING := hframe.rd _ _ (by decide)
  have hpthm : p.thm = s.thm := hframe.parts .thm (by decide)
  obtain ⟨⟨x, y, z, hthm⟩, htck, hqkind, hforce, hres⟩ := p.resumeFrom_spec k ((hframe.parts .jobs (by decide)).trans hjobs)
  generalize p.resumeFrom k = q at *
  have hforced : p.forcedAt = s.forcedAt := by
    unfold Core.forcedAt
    rw [hpthm, hframe.rd THM_THR_CFG.ENGAGE_MS _ (by decide)]
  rw [hpending] at hthm hforce hres
  rw [hpthm] at hthm
  have hread : ∀ f : Fld, f.key 0 ≠ LOG_EVT_OVWR_CNT.COUNT.key 0 → f.key 0 ≠ TCK_STATUS.SWITCHING.key 0 → c.rd f = q.rd f := by
    intro f he hs
    rw [hc]
    exact (Core.rd_emit_ne _ _ _ _ _ _ he).trans (Core.rd_wr_ne _ _ _ _ _ _ hs)
  have hqc : Within [0x02, 0x1B] [.cmdq] q c := by
    rw [hc]
    exact ((Within.refl _ _ q).wr _).emit _ _ _
  have hctck : c.tck = { p.tck with drill := none, molt := none } := (hqc.parts .tck (by decide)).trans htck
  have hctime : c.etime = p.etime := (hqc.parts .etime (by decide)).trans (hres.parts .etime (by decide))
  have hnot : ∀ f : Fld, f.block 0 ∉ [0x01, 0x02, 0x05, 0x11, 0x16, 0x1B] →
      f.block 0 ∉ (if s.rd THM_STATUS.PENDING = 0 then [] else [0x16]) ++ [0x01, 0x02, 0x05, 0x11, 0x1B] := fun f hf => by
    split <;> simp_all
  refine ⟨⟨?_, ?_, ?_, ?_, ?_, ?_⟩, ?_, ?_, ⟨x, y, z, (hqc.parts .thm (by decide)).trans hthm⟩, fun h1 h2 => ?_, ?_⟩
  · exact (hread _ (by decide) (by decide)).trans ((hres.rd _ _ (hnot _ (by decide))).trans himago)
  · exact (congrArg TckSt.held hctck).trans hheld
  · exact Core.imagoDead_of_up ((congrArg TckSt.imagoUp hctck).trans hup)
  · rw [hc]
    exact (Core.rd_emit_ne _ _ _ _ _ _ (by decide)).trans (Core.rd_wr _ _ _ _)
  · exact hctime.trans htime
  · exact (hqc.parts .waiting (by decide)).trans ((hres.parts .waiting (by decide)).trans hpwait)
  · exact (hread _ (by decide) (by decide)).trans ((hres.rd _ _ (hnot _ (by decide))).trans hstate)
  · exact (hread _ (by decide) (by decide)).trans (hqkind.trans hkind)
  · obtain ⟨hpend, hlevel⟩ := hforce h1 (by rw [hforced, ← hctime]; exact h2)
    exact ⟨(hread _ (by decide) (by decide)).trans hpend,
      (hread _ (by decide) (by decide)).trans (hlevel.trans (by rw [hframe.rd THM_STATUS.LEVEL _ (by decide)]))⟩
  · have hblocks : ∀ n : Nat, n ∉ (if s.rd THM_STATUS.PENDING = 0 then [] else [0x16]) ++ [0x00, 0x01, 0x02, 0x05, 0x11, 0x19, 0x1B] →
        n ∉ [0x02, 0x1B] ∧ n ∉ [0x00, 0x02, 0x19, 0x1B] ∧
        n ∉ (if s.rd THM_STATUS.PENDING = 0 then [] else [0x16]) ++ [0x01, 0x02, 0x05, 0x11, 0x1B] := fun n hn => by
      simp only [List.mem_append, List.mem_cons, List.not_mem_nil, not_or] at hn ⊢
      tauto
    intro f n hf
    obtain ⟨h1, h2, h3⟩ := hblocks _ hf
    exact (hqc.regs f n h1).trans ((hres.regs f n h3).trans (hframe.regs f n h2))
/-- The record of temperature and power after a resume, said by what it shows itself. -/
theorem Core.thm_resumed {c : Core} {a b : ThmSt} {p x y : Nat} {h z : Option Nat}
    (hc : c.thm = { a with fHd := x, fTh := y, guard := b.guard, hotFrom := if p = 0 then h else z, pendAt := b.pendAt, pendBy := b.pendBy }) :
    c.thm = { a with fHd := c.thm.fHd, fTh := c.thm.fTh, guard := b.guard, hotFrom := if p = 0 then h else c.thm.hotFrom
                     pendAt := b.pendAt, pendBy := b.pendBy } := by
  rw [hc]
  by_cases hp : p = 0
  · simp only [hp, if_true]
  · simp only [hp, if_false]
theorem startArrived_idle {s : State} (h : s.field.core.cmdq.waiting = []) : startArrived s = s := by
  unfold startArrived
  rw [h]
  rfl

/-- Settles O16: nothing waits and no job stands, so after the line has passed only the two ends of the takeover act. -/
theorem takeoverPassesTheLine : Obligations.TakeoverPassesTheLine := by
  unfold Obligations.TakeoverPassesTheLine
  intro lag s hrun hmiss hpupa himago hwait hjobs
  have hgo : doImagoTakeover lag.toNat [] s = startArrived (s.onCore fun c => c.takeover lag.toNat []) := by
    refine if_neg ?_
    simp only [hrun, Bool.not_true, Bool.false_eq_true, false_or, not_or]
    omega
  have hiff := Core.sameEpoch_iff himago
  obtain ⟨hresume, hodd, hnone⟩ := Core.takeover_eq lag.toNat himago
  refine ⟨doImagoTakeover lag.toNat [] s, rfl, ?_⟩
  rw [hgo]
  have hnot : ∀ f n, Fld.block f n ∉ (if s.field.core.rd THM_STATUS.PENDING = 0 then [] else [0x16]) ++
      [0x00, 0x01, 0x02, 0x05, 0x11, 0x15, 0x17, 0x19, 0x1B] →
      f.block n ∉ [0x00, 0x01, 0x02, 0x05, 0x11, 0x19, 0x1B] ∧
      f.block n ∉ (if s.field.core.rd THM_STATUS.PENDING = 0 then [] else [0x16]) ++
        [0x00, 0x01, 0x02, 0x05, 0x11, 0x19, 0x1B] := fun f n hf => by
    simp only [List.mem_append, List.mem_cons, List.not_mem_nil, not_or] at hf ⊢
    tauto
  by_cases hend : s.field.core.sameEpoch = true ∧ (s.field.core.newestCkpt fun _ => false).isSome = true
  · obtain ⟨hsame, hsome⟩ := hend
    obtain ⟨k, hk⟩ := Option.isSome_iff_exists.1 hsome
    obtain ⟨data, hc⟩ := hresume hsame k hk
    obtain ⟨htaken, hboot, hkind, ⟨x, y, z, hthm⟩, hforce, hregs⟩ := Core.takeover_resumes lag.toNat hwait hjobs hc
    rw [startArrived_idle htaken.idle]
    refine ⟨htaken.imago, htaken.held, htaken.alive, htaken.switched, htaken.time, fun _ k' hk' => ?_, fun hne => ?_, fun f n hf => ?_⟩
    · obtain rfl : k = k' := Option.some.inj (hk.symm.trans hk')
      refine ⟨hboot, hkind, ?_, hforce⟩
      exact Core.thm_resumed hthm
    · exact absurd (hiff.1 hsame) hne
    · exact hregs f n (hnot f n hf).2
  · have hidle : ∃ reason, s.field.core.takeover lag.toNat [] =
        ((s.field.core.takenBy lag.toNat 5).safeIdle reason s.field.core.imago s.field.core.pupa).wr TCK_STATUS.SWITCHING 0 := by
      by_cases hsame : s.field.core.sameEpoch = true
      · exact hnone (Option.not_isSome_iff_eq_none.1 fun h => hend ⟨hsame, h⟩)
      · exact hodd (Bool.eq_false_of_not_eq_true hsame)
    obtain ⟨reason, hc⟩ := hidle
    obtain ⟨htaken, hboot, hregs⟩ := Core.takeover_idles lag.toNat hwait hjobs hc
    rw [startArrived_idle htaken.idle]
    refine ⟨htaken.imago, htaken.held, htaken.alive, htaken.switched, htaken.time, fun heq k hk => ?_, fun _ => hboot, fun f n hf =>
      hregs f n (hnot f n hf).1⟩
    exact absurd ⟨hiff.2 heq, by rw [hk]; rfl⟩ hend

end Sys2Proof.Machine
end

section
/-! PROOF. Commands: what their completion leaves, the refusals of the checks, the host side's own answers, and AUTH
(spec/04_command_protocol.md R175 to R179, R184, R188, R193 to R197). -/

namespace Sys2Proof.Machine

set_option Elab.async false

/-! ### Completion -/

/-- Of the records, completing a command changes those that its source reads, the commit log and the count of free values. -/
def Finished (x c : Core) : Prop :=
  c = { x with regs := c.regs, free := c.free, limits := c.limits
               tck := { x.tck with commitLog := c.tck.commitLog }
               cmdq := { x.cmdq with done := c.cmdq.done, fspTx := c.cmdq.fspTx, fspOut := c.cmdq.fspOut, events := c.cmdq.events
                                     fifo := c.cmdq.fifo, evSeq := c.cmdq.evSeq } }
theorem Finished.trans {a b c : Core} (hab : Finished a b) (hbc : Finished b c) : Finished a c := by
  unfold Finished at *
  rw [hbc, hab]
theorem Finished.quiet {x c : Core} (h : Finished x c) : Quiet x c := by
  unfold Finished at h
  unfold Quiet
  rw [h]
theorem Finished.auth {x c : Core} (h : Finished x c) (src : Src) : c.auth src = x.auth src := by
  unfold Finished at h
  unfold Core.auth
  rw [h]
theorem Finished.of_quietEvents {a b : Core} (h : QuietEvents a b) : Finished a b := by
  unfold QuietEvents at h
  unfold Finished
  rw [h]

/-- What ends with the completion of a command: the entry that its source reads, and what else that changes. -/
structure Core.Completes (x c : Core) (src : Src) (e : Compl) : Prop where
  events : e.status ≠ 0xFE → (c.cmdq.events, c.cmdq.fifo, c.cmdq.evSeq) = (x.cmdq.events, x.cmdq.fifo, x.cmdq.evSeq)
  entry : match src with
    | .host => c.cmdq.done = x.cmdq.done ++ [e]
    | .fsp => c.cmdq.fspTx = x.cmdq.fspTx ++ [e]
  rest : Finished x c
  regs : SameRegs commandKeys x c
theorem Core.complete_completes (s : Core) (src : Src) (op tag q idx : Nat) (r : Reply) :
    s.Completes (s.complete src op tag q idx r) src ⟨1, r.status, tag, q, op, idx, s.etime, r.result s.free⟩ := by
  unfold Core.complete
  extract_lets st a b res c
  have hb : QuietEvents s b := by unfold b; split <;> rfl
  have hc : QuietEvents s c := by
    unfold c
    split
    · exact hb.trans (QuietEvents.emit (b.inc CMDQ_PROTO_CNT.COUNT) _ _ _)
    · exact hb
  have hkey : ∀ {f : Fld} {n : Nat} {k : Nat}, f.key n ∉ commandKeys → k ∈ commandKeys → f.key n ≠ k := fun hf hk e => hf (e ▸ hk)
  have hregs : SameRegs commandKeys s c := fun f n hf => by
    have hba : b.rd f n = s.rd f n := by
      have h1 : a.rd f n = s.rd f n := Core.rd_inc_ne _ _ _ _ _ _ (hkey hf (by decide))
      unfold b
      split
      · exact h1
      · exact (Core.rd_inc_ne _ _ _ _ _ _ (hkey hf (by decide))).trans h1
    unfold c
    split
    · exact (Core.rd_emit_ne _ _ _ _ _ _ (hkey hf (by decide))).trans ((Core.rd_inc_ne _ _ _ _ _ _ (hkey hf (by decide))).trans hba)
    · exact hba
  have hevents : r.status ≠ 0xFE → (c.cmdq.events, c.cmdq.fifo, c.cmdq.evSeq) = (s.cmdq.events, s.cmdq.fifo, s.cmdq.evSeq) := by
    intro hst
    unfold c b
    rw [if_neg hst]
    split <;> rfl
  have hres : res = r.result s.free := by
    unfold res b
    split <;> rfl
  rw [hres]
  have htime : c.etime = s.etime := hc.etime
  clear_value c res
  cases src
  · refine ⟨hevents, ?_, (Finished.of_quietEvents hc).trans rfl, hregs⟩
    change c.cmdq.done ++ _ = _
    rw [hc.done, ← htime]
  · refine ⟨hevents, ?_, (Finished.of_quietEvents hc).trans rfl, hregs⟩
    change c.cmdq.fspTx ++ _ = _
    rw [hc.fspTx, ← htime]

/-- A command has completed with the answer `r`; `x` is what its body left of the field side. -/
structure Cmd.Done (k : Cmd) (r : Reply) (s : State) (x : Core) (t : State) : Prop where
  completed : Completed k.call k.op r.status (r.result x.free) s t
  pending : t.pending = s.pending
  dram : t.field.dram = s.field.dram
  host : t.host = if k.call.src = .host then
      { s.host with tracked := s.host.tracked ++ [⟨k.call.q.val, k.call.tag.toNat, k.call.index.toNat, k.op⟩] } else s.host
  rest : Finished x t.field.core
  regs : SameRegs commandKeys x t.field.core
  events : r.status ≠ 0xFE → (t.field.core.cmdq.events, t.field.core.cmdq.fifo, t.field.core.cmdq.evSeq) =
    (x.cmdq.events, x.cmdq.fifo, x.cmdq.evSeq)
theorem Cmd.Done.frame {k : Cmd} {r : Reply} {s t : State} {x : Core} {ks : List Nat} (h : k.Done r s x t)
    (hx : SameRegs (commandKeys ++ ks) s.field.core x) : CommandFrame k.call k.op ks s t :=
  ⟨h.pending, h.dram, h.host, fun f n hf => (h.regs f n fun hm => hf (List.mem_append_left ks hm)).trans (hx f n hf)⟩
theorem Cmd.Done.within {k : Cmd} {r : Reply} {s t : State} {x : Core} {ps : List Nat} (h : k.Done r s x t)
    (hx : SameOutside (0x01 :: 0x1B :: ps) s.field.core x) : CommandWithin k.call k.op ps s t :=
  ⟨h.pending, h.dram, h.host, fun f n hf =>
    (h.regs f n fun hm => hf (List.mem_append_left ps (commandKeys_blocks _ hm))).trans (hx f n hf)⟩
theorem Cmd.Done.rd {k : Cmd} {r : Reply} {s t : State} {x : Core} (h : k.Done r s x t) (f : Fld) (n : Nat)
    (hf : f.key n ∉ commandKeys) : t.field.core.rd f n = x.rd f n := h.regs f n hf
/-- What the body has raised is still the newest event. -/
theorem Cmd.Done.raised {k : Cmd} {r : Reply} {s t : State} {a x : Core} {code data : Nat} (h : k.Done r s x t)
    (hx : a.Raised x code data) (hr : r.status ≠ 0xFE) : a.Raised t.field.core code data := by
  have hev := h.events hr
  simp only [Prod.mk.injEq] at hev
  obtain ⟨hevents, hfifo, hseq⟩ := hev
  exact hx.congr rfl rfl rfl hfifo hevents hseq (by rw [h.rest])

/-- The body answers at once, and not with a protocol violation. -/
def Reply.AtOnce (r : Reply) : Prop := (∃ v, r = .ok v) ∨ (∃ v, r = .accepted v) ∨ ∃ st d off v, r = .err st d off v
/-- The completion of a delivered command from what the taking of it left. -/
theorem Cmd.Done.of_complete {k : Cmd} {r : Reply} {s : State} {x : Core} {l : List (Nat × Nat)}
    (htime : x.etime = s.field.core.etime)
    (hans : (x.cmdq.done, x.cmdq.fspTx) = ((s.taken k.call k.op).field.core.cmdq.done, (s.taken k.call k.op).field.core.cmdq.fspTx)) :
    k.Done r s x { s.taken k.call k.op with field :=
      ⟨({ x with tck := { x.tck with commitLog := l } } : Core).complete k.call.src k.op k.call.tag.toNat k.call.q.val
        k.call.index.toNat r, (s.taken k.call k.op).field.dram⟩ } := by
  obtain ⟨hevents, hentry, hrest, hregs⟩ := Core.complete_completes { x with tck := { x.tck with commitLog := l } } k.call.src k.op
    k.call.tag.toNat k.call.q.val k.call.index.toNat r
  obtain ⟨hdone, htx⟩ := Prod.mk.inj hans
  have hlog : Finished x { x with tck := { x.tck with commitLog := l } } := rfl
  refine ⟨?_, taken_pending _ _ _, taken_dram _ _ _, taken_host _ _ _, hlog.trans hrest, hregs, hevents⟩
  generalize Core.complete { x with tck := { x.tck with commitLog := l } } k.call.src k.op
    k.call.tag.toNat k.call.q.val k.call.index.toNat r = c at *
  unfold Completed entryOf
  cases hs : k.call.src with
  | host =>
    rw [hs] at hentry
    change c.cmdq.done = _
    rw [hentry.trans rfl, hdone, taken_done, ← htime]
  | fsp =>
    rw [hs] at hentry
    change c.cmdq.fspTx = _
    rw [hentry.trans rfl, htx, taken_fspTx _ _ _ hs, ← htime]
    rfl
/-- A delivered command that passes the checks of its header and whose body answers at once. -/
theorem Cmd.runs_done {k : Cmd} {i : Instr} {s : State} {r : Reply} {x : Core} (hexec : exec i s = .next (k.submit i s))
    (h : Runs k.call k.op k.priv s) (hh : headerCheck k.call = none) (hk : k.known = true)
    (hf : ¬ (k.call.src = .fsp ∧ k.call.sg = true)) (hl : k.lengthCheck = none) (hp : k.paramCheck = none)
    (hb : k.body (s.taken k.call k.op).field = (r, ⟨x, (s.taken k.call k.op).field.dram⟩)) (hr : r.AtOnce)
    (htime : x.etime = s.field.core.etime)
    (hans : (x.cmdq.done, x.cmdq.fspTx) = ((s.taken k.call k.op).field.core.cmdq.done, (s.taken k.call k.op).field.core.cmdq.fspTx)) :
    Answers i s (k.Done r s x) := by
  have hrun := Cmd.submit_runs (i := i) h hh hk hf hl hp
  rw [hb] at hrun
  have hdone : ∃ l, k.submit i s = { s.taken k.call k.op with field :=
      ⟨({ x with tck := { x.tck with commitLog := l } } : Core).complete k.call.src k.op k.call.tag.toNat k.call.q.val
        k.call.index.toNat r, (s.taken k.call k.op).field.dram⟩ } := by
    obtain ⟨v, rfl⟩ | ⟨v, rfl⟩ | ⟨st, d, off, v, rfl⟩ := hr
    · exact ⟨_, hrun⟩
    · exact ⟨_, hrun⟩
    · exact ⟨x.tck.commitLog, hrun⟩
  obtain ⟨l, hl⟩ := hdone
  exact ⟨_, hexec, by rw [hl]; exact .of_complete htime hans⟩
/-- The same of a command without bulk data. -/
theorem Cmd.Plain.done {k : Cmd} {n : Nat} {g : Core → Reply × Core} {i : Instr} {s : State} {r : Reply} {x : Core}
    (hexec : exec i s = .next (k.submit i s)) (hk : k.Plain n g) (hc : CleanHeader k.call n)
    (hr : Runs k.call k.op k.priv s) (hg : g (s.taken k.call k.op).field.core = (r, x)) (hd : r.AtOnce)
    (htime : x.etime = s.field.core.etime)
    (hans : (x.cmdq.done, x.cmdq.fspTx) = ((s.taken k.call k.op).field.core.cmdq.done, (s.taken k.call k.op).field.core.cmdq.fspTx)) :
    Answers i s (k.Done r s x) := by
  refine Cmd.runs_done hexec hr (hc.header hk.short) hk.known (by simp [hc.sg]) (hk.lengthCheck hc) hc.params ?_ hd htime hans
  rw [hk.body]
  simp only [liftBody, hg]

/-! ### A check that fails (R178, R179) -/

theorem lenBad_of_ite {p : Prop} [Decidable p] {d off : Nat} {v : Option Nat} {r : Reply}
    (h : (if p then some (badLength d off v) else none) = some r) : ∃ d off v, r = badLength d off v := by
  split at h
  · exact ⟨d, off, v, (Option.some.inj h).symm⟩
  · exact nomatch h
/-- The length check of a command's own is a BAD_LENGTH. -/
theorem cmdOf_lenBad {g : Call → Call} {i : Instr} {k : Cmd} {r : Reply} (h : cmdOf g i = some k) (hr : k.lenBad = some r) :
    ∃ d off v, r = badLength d off v := by
  cases i <;> simp only [cmdOf, Option.some.injEq, reduceCtorEq] at h <;> subst h
  case regReadBlock c a n =>
    revert hr
    unfold cmdRegReadBlock
    dsimp only
    split_ifs <;> simp only [false_implies, Option.some.injEq] <;> exact fun h => ⟨_, _, _, h.symm⟩
  case nozzleMapLoad c b f n => exact lenBad_of_ite hr
  case cmpAppend c n d =>
    revert hr
    unfold cmdCmpAppend
    dsimp only
    split_ifs <;> simp only [false_implies, Option.some.injEq] <;> exact fun h => ⟨_, _, _, h.symm⟩
  case fwStage c core slot => exact lenBad_of_ite hr
  case toneDataAccess c h w => cases w <;> exact absurd (show (none : Option Reply) = some r from hr) nofun
  case scrMaskDataAccess c w => cases w <;> exact absurd (show (none : Option Reply) = some r from hr) nofun
  case ispTblDataAccess c vc w => cases w <;> exact absurd (show (none : Option Reply) = some r from hr) nofun
  all_goals exact absurd (show (none : Option Reply) = some r from hr) nofun

theorem headerCheck_err {c : Call} {r : Reply} (h : headerCheck c = some r) : ∃ st d off v, r = .err st d off v := by
  unfold headerCheck badLength at h
  split_ifs at h <;> exact ⟨_, _, _, _, (Option.some.inj h).symm⟩
theorem Cmd.lengthCheck_err {k : Cmd} {r : Reply} (hk : ∀ r, k.lenBad = some r → ∃ d off v, r = badLength d off v)
    (h : k.lengthCheck = some r) : ∃ st d off v, r = .err st d off v := by
  have hbad : ∀ d off v, some (badLength d off v) = some r → ∃ st d off v, r = .err st d off v := fun d off v e =>
    ⟨_, _, _, _, (Option.some.inj e).symm⟩
  unfold Cmd.lengthCheck at h
  extract_lets c at h
  split at h
  · exact hbad _ _ _ h
  split at h
  · next r' hr' =>
    obtain ⟨d, off, v, rfl⟩ := hk r' hr'
    exact hbad _ _ _ h
  split at h <;> split_ifs at h <;> exact hbad _ _ _ h
theorem Cmd.paramCheck_err {k : Cmd} {r : Reply} (h : k.paramCheck = some r) : ∃ st d off v, r = .err st d off v := by
  unfold Cmd.paramCheck at h
  extract_lets c at h
  split at h
  · exact ⟨_, _, _, _, (Option.some.inj h).symm⟩
  split at h
  · split at h
    · exact nomatch h
    · exact ⟨_, _, _, _, (Option.some.inj h).symm⟩
  · exact nomatch h
/-- A check that fails answers an error. -/
theorem Cmd.check_err {k : Cmd} {dup : Bool} {s : Core} {r : Reply}
    (hk : ∀ r, k.lenBad = some r → ∃ d off v, r = badLength d off v) (h : k.check dup s = some r) :
    ∃ st d off v, r = .err st d off v := by
  unfold Cmd.check at h
  cases hh : headerCheck k.call with
  | some r' =>
    rw [hh] at h
    exact headerCheck_err (hh.trans h)
  | none =>
    rw [hh] at h
    change (if _ then _ else _) = some r at h
    have herr : ∀ st d off v, some (Reply.err st d off v) = some r → ∃ st d off v, r = .err st d off v := fun st d off v e =>
      ⟨st, d, off, v, (Option.some.inj e).symm⟩
    split at h
    · exact herr _ _ _ _ h
    split at h
    · exact herr _ _ _ _ h
    split at h
    · exact herr _ _ _ _ h
    split at h
    · exact herr _ _ _ _ h
    split at h
    · exact herr _ _ _ _ h
    split at h
    · exact herr _ _ _ _ h
    cases hl : k.lengthCheck with
    | some r' =>
      rw [hl] at h
      exact Cmd.lengthCheck_err hk (hl.trans h)
    | none =>
      rw [hl] at h
      exact Cmd.paramCheck_err h
/-- The checks look at the field state and the source's privilege alone. -/
theorem Cmd.check_taken (k : Cmd) (dup : Bool) (s : State) :
    k.check dup (s.taken k.call k.op).field.core = k.check dup s.field.core := by
  unfold Cmd.check
  rw [taken_bootState, taken_priv]

/-- Settles O19: a check that fails answers an error, which completes the command on the state that counts it. -/
theorem failedCheckAnswersAndDoesNothing : Obligations.FailedCheckAnswersAndDoesNothing := by
  unfold Obligations.FailedCheckAnswersAndDoesNothing
  intro i k s r hk hdel hboot hcheck
  have hsub := Cmd.submit_delivered k i s hdel hboot
  rw [Cmd.check_taken, hcheck] at hsub
  obtain ⟨st, d, off, v, rfl⟩ := Cmd.check_err (fun r => cmdOf_lenBad hk) hcheck
  have hdone : k.Done (.err st d off v) s (s.taken k.call k.op).field.core (k.submit i s) := by
    rw [hsub]
    exact .of_complete (l := (s.taken k.call k.op).field.core.tck.commitLog) (taken_etime _ _ _) rfl
  exact ⟨_, exec_command s hk, ⟨_, hdone.completed⟩, hdone.frame (SameRegs.taken _ _ _ _),
    (Quiet.taken _ _ _).trans hdone.rest.quiet⟩

/-! ### The host side's own answers (R184, R188) -/

/-- Settles O20: with the elytron down the host side answers by `hostAnswer`, and only its count of free values moves on the field
side. -/
theorem hostSideAnswersWithoutElytron : Obligations.HostSideAnswersWithoutElytron := by
  unfold Obligations.HostSideAnswersWithoutElytron
  intro i k s hk hsrc hpow hely hop hmay
  have hsub : k.submit i s = s.hostComplete k.call.q.val k.call.tag.toNat k.call.index.toNat k.op (hostAnswer k.op s) := by
    unfold Cmd.submit
    rw [if_pos hsrc, if_neg (by rw [hpow, hmay]; decide), if_pos (by rw [hely]; rfl)]
  have hstatus : (hostAnswer k.op s).status = if k.op = 0 then 0 else 0x15 := by
    unfold hostAnswer
    rw [if_neg hop]
    split <;> rfl
  refine ⟨_, exec_command s hk, ⟨(hostAnswer k.op s).result s.field.core.free, ?_⟩, ?_, ?_, ?_⟩
  · extract_lets e
    have he : s.ownEntry k.call.q.val k.call.tag.toNat k.call.index.toNat k.op (hostAnswer k.op s) = e := by
      unfold e entryOf State.ownEntry
      rw [hstatus]
    rw [hsub]
    unfold State.hostComplete
    rw [he]
    have hordered : ((!s.field.core.rdb CMDQ_CFG.MODE) && s.host.owes e.q != 0) = true ↔
        s.field.core.rd CMDQ_CFG.MODE = 0 ∧ s.host.owes k.call.q.val ≠ 0 := by
      change ((!(s.field.core.rd CMDQ_CFG.MODE != 0)) && s.host.owes k.call.q.val != 0) = true ↔ _
      simp
    have hhost : (s.onHost fun h => h.answer (!s.field.core.rdb CMDQ_CFG.MODE) e).host =
        s.host.answer (!s.field.core.rdb CMDQ_CFG.MODE) e := rfl
    have hanswer : s.host.answer (!s.field.core.rdb CMDQ_CFG.MODE) e =
        if (!s.field.core.rdb CMDQ_CFG.MODE) && s.host.owes e.q != 0 then
          { s.host with answers := s.host.answers ++ [(s.host.owes k.call.q.val, e)] }
        else { s.host with arrived := s.host.arrived ++ [e] } := rfl
    split
    · next h => exact hanswer.trans (if_pos (hordered.2 h))
    · next h => exact hanswer.trans (if_neg fun h' => h (hordered.1 h'))
  · rw [hsub]; rfl
  · rw [hsub]; rfl
  · rw [hsub]; rfl

/-! ### AUTH (R193 to R197) -/

theorem Core.auth_setAuth (s : Core) (src : Src) (a : AuthSt) : (s.setAuth src a).auth src = a := by cases src <;> rfl
theorem Core.answers_setAuth (s : Core) (src : Src) (a : AuthSt) :
    ((s.setAuth src a).cmdq.done, (s.setAuth src a).cmdq.fspTx) = (s.cmdq.done, s.cmdq.fspTx) := by cases src <;> rfl
theorem Core.rd_setAuth (s : Core) (src : Src) (a : AuthSt) (f : Fld) (n : Nat) : (s.setAuth src a).rd f n = s.rd f n := rfl
theorem Quiet.setAuth (s : Core) (src : Src) (a : AuthSt) : Quiet s (s.setAuth src a) := rfl
theorem taken_free (c : Call) (op : Nat) (s : State) : (s.taken c op).field.core.free = s.field.core.free := by rw [taken_core]
theorem taken_auth (c : Call) (op : Nat) (s : State) (src : Src) : (s.taken c op).field.core.auth src = s.field.core.auth src := by
  unfold Core.auth
  rw [taken_core]
theorem QuietEvents.auth {a b : Core} (h : QuietEvents a b) (src : Src) : b.auth src = a.auth src := by
  unfold Core.auth
  rw [h]
theorem QuietEvents.answers {a b : Core} (h : QuietEvents a b) : (b.cmdq.done, b.cmdq.fspTx) = (a.cmdq.done, a.cmdq.fspTx) := by
  rw [h]
theorem QuietEvents.quiet {a b : Core} (h : QuietEvents a b) : Quiet a b := by
  unfold Quiet
  rw [h]
theorem Cmd.Done.priv {k : Cmd} {r : Reply} {s t : State} {x : Core} (h : k.Done r s x t) (src : Src) :
    t.field.core.priv src = x.priv src := by
  cases src
  · exact h.rd CMDQ_PRIV.HOST 0 (by decide)
  · exact h.rd CMDQ_PRIV.FSP 0 (by decide)
theorem QuietEvents.grant (s : Core) (src : Src) (level : Nat) : QuietEvents s (s.grant src level) := by
  cases src
  · exact (show QuietEvents s (s.setPriv .host level) from rfl).trans (QuietEvents.emit _ _ _ _)
  · exact (show QuietEvents s (s.setPriv .fsp level) from rfl).trans (QuietEvents.emit _ _ _ _)
theorem Core.priv_grant (s : Core) (src : Src) {level : Nat} (h : level < 4) : (s.grant src level).priv src = level := by
  cases src
  · exact (Core.rd_emit_ne _ _ _ _ CMDQ_PRIV.HOST 0 (by decide)).trans ((Core.rd_wr _ _ _ _).trans (Nat.mod_eq_of_lt h))
  · exact (Core.rd_emit_ne _ _ _ _ CMDQ_PRIV.FSP 0 (by decide)).trans ((Core.rd_wr _ _ _ _).trans (Nat.mod_eq_of_lt h))
theorem SameRegs.grant (s : Core) (src : Src) (level : Nat) : SameRegs (commandKeys ++ [(match src with
    | .host => CMDQ_PRIV.HOST.key 0
    | .fsp => CMDQ_PRIV.FSP.key 0)]) s (s.grant src level) := by
  intro f n hf
  have hover : f.key n ≠ LOG_EVT_OVWR_CNT.COUNT.key 0 := fun e => hf (List.mem_append_left _ (e ▸ by decide))
  refine (Core.rd_emit_ne _ _ _ _ _ _ hover).trans ?_
  cases src
  · exact Core.rd_wr_ne _ _ _ _ _ _ fun e => hf (List.mem_append_right _ (List.mem_singleton.2 e))
  · exact Core.rd_wr_ne _ _ _ _ _ _ fun e => hf (List.mem_append_right _ (List.mem_singleton.2 e))
theorem levelOk_lt {src : Src} {level : Nat} (h : levelOk src level = true) : level < 4 := by
  unfold levelOk at h
  split at h
  · have := beq_iff_eq.1 h; omega
  · simp only [Bool.and_eq_true, decide_eq_true_eq] at h; omega

theorem authChallenge_answers {c : Call} {level : Byte} {s : State} (hlevel : levelOk c.src level.toNat = true)
    (hc : CleanHeader c 4) (hr : Runs c 0x00F0 0 s) (hlock : (s.field.core.auth c.src).lockUntil ≤ s.field.core.etime) :
    Answers (.authChallenge c level) s fun t =>
      Completed c 0x00F0 0 (Config.freeNonce s.field.core.free).toNat s t ∧
      (t.field.core.auth c.src).nonce = some ((Config.freeNonce s.field.core.free).toNat, level.toNat, s.field.core.etime) ∧
      CommandFrame c 0x00F0 [] s t ∧ Quiet s.field.core t.field.core := by
  have hk : (cmdChallenge c level.toNat).Plain 4 (challengeBody c.src level.toNat) := ⟨rfl, rfl, by decide, rfl, rfl, rfl⟩
  have hbody : challengeBody c.src level.toNat (s.taken c 0x00F0).field.core =
      (.ok (Config.freeNonce s.field.core.free).toNat, (s.taken c 0x00F0).field.core.tickFree.setAuth c.src
        { s.field.core.auth c.src with
          nonce := some ((Config.freeNonce s.field.core.free).toNat, level.toNat, s.field.core.etime) }) := by
    unfold challengeBody
    rw [taken_etime, taken_auth, taken_free, if_neg (by rw [hlevel]; decide), if_neg (Nat.not_lt.2 hlock)]
  obtain ⟨t, ht, hdone⟩ := hk.done (i := .authChallenge c level) rfl hc hr hbody (.inl ⟨_, rfl⟩)
    (taken_etime c 0x00F0 s) (Core.answers_setAuth _ _ _)
  refine ⟨t, ht, ?_, ?_, hdone.frame (SameRegs.taken c 0x00F0 [] s), ?_⟩
  · have hresult : (Config.freeNonce s.field.core.free).toNat % 2 ^ 128 = (Config.freeNonce s.field.core.free).toNat :=
      Nat.mod_eq_of_lt (Config.freeNonce s.field.core.free).isLt
    have := hdone.completed
    unfold Reply.result at this
    dsimp only at this
    rwa [hresult] at this
  · rw [hdone.rest.auth, Core.auth_setAuth]
  · have htick : Quiet (s.taken c 0x00F0).field.core (s.taken c 0x00F0).field.core.tickFree := rfl
    exact (((Quiet.taken c 0x00F0 s).trans htick).trans (Quiet.setAuth _ _ _)).trans hdone.rest.quiet

theorem respondBody_right {src : Src} {tag level n t0 : Nat} {s : Core} (hlevel : levelOk src level = true)
    (hnonce : (s.auth src).nonce = some (n, level, t0)) (htime : s.etime ≤ t0 + 10000000000) :
    respondBody src tag level (authMac src level n) s =
      (.ok 0, (s.setAuth src { s.auth src with nonce := none, misses := 0 }).grant src level) := by
  unfold respondBody
  rw [if_neg (by rw [hlevel]; decide)]
  dsimp only
  rw [hnonce]
  dsimp only
  rw [if_neg (by omega), if_pos rfl]
/-- A wrong MAC costs the nonce and counts. -/
theorem respondBody_wrong {src : Src} {tag level n t0 : Nat} {mac : Bytes} {s : Core} (hlevel : levelOk src level = true)
    (hnonce : (s.auth src).nonce = some (n, level, t0)) (htime : s.etime ≤ t0 + 10000000000) (hmac : mac ≠ authMac src level n) :
    ∃ misses lock, respondBody src tag level mac s = (.err 0x13 0x0017 0xFFFF none,
      ((s.setAuth src ⟨none, misses, lock⟩).inc CMDQ_AUTH_FAIL_CNT.COUNT).emit 0x0103 (srcByte src + at_ 1 level) tag) := by
  unfold respondBody
  rw [if_neg (by rw [hlevel]; decide)]
  dsimp only
  rw [hnonce]
  dsimp only
  rw [if_neg (by omega), if_neg hmac]
  exact ⟨_, _, rfl⟩
theorem authRespond_answers {c : Call} {level : Byte} {mac : BitVec 256} {n t0 : Nat} {s : State}
    (hlevel : levelOk c.src level.toNat = true) (hc : CleanHeader c 36) (hr : Runs c 0x00F0 0 s)
    (hnonce : (s.field.core.auth c.src).nonce = some (n, level.toNat, t0)) (htime : s.field.core.etime ≤ t0 + 10000000000) :
    Answers (.authRespond c level mac) s fun t =>
      (t.field.core.auth c.src).nonce = none ∧
      t.field.core.priv c.src =
        (if toBE 32 mac.toNat = authMac c.src level.toNat n then level.toNat else s.field.core.priv c.src) ∧
      (∃ st result, Completed c 0x00F0 st result s t ∧ (st = 0 ↔ toBE 32 mac.toNat = authMac c.src level.toNat n)) ∧
      CommandFrame c 0x00F0 [CMDQ_PRIV.HOST.key 0, CMDQ_PRIV.FSP.key 0, CMDQ_AUTH_FAIL_CNT.COUNT.key 0] s t := by
  have hk : (cmdRespond c level.toNat (toBE 32 mac.toNat)).Plain 36 (respondBody c.src c.tag.toNat level.toNat (toBE 32 mac.toNat)) :=
    ⟨rfl, rfl, by decide, rfl, rfl, rfl⟩
  have htaken := SameRegs.taken c 0x00F0 [CMDQ_PRIV.HOST.key 0, CMDQ_PRIV.FSP.key 0, CMDQ_AUTH_FAIL_CNT.COUNT.key 0] s
  have hpriv := taken_priv c 0x00F0 s c.src
  have htime' := taken_etime c 0x00F0 s
  rw [← taken_auth c 0x00F0] at hnonce
  rw [← htime'] at htime
  by_cases hmac : toBE 32 mac.toNat = authMac c.src level.toNat n
  · have hbody := respondBody_right (tag := c.tag.toNat) hlevel hnonce htime
    rw [← hmac] at hbody
    have hq := QuietEvents.grant ((s.taken c 0x00F0).field.core.setAuth c.src
      { (s.taken c 0x00F0).field.core.auth c.src with nonce := none, misses := 0 }) c.src level.toNat
    have hregs := SameRegs.grant ((s.taken c 0x00F0).field.core.setAuth c.src
      { (s.taken c 0x00F0).field.core.auth c.src with nonce := none, misses := 0 }) c.src level.toNat
    obtain ⟨t, ht, hdone⟩ := hk.done (i := .authRespond c level mac) rfl hc hr hbody (.inl ⟨_, rfl⟩)
      (hq.etime.trans htime') (hq.answers.trans (Core.answers_setAuth _ _ _))
    refine ⟨t, ht, ?_, ?_, ⟨_, _, hdone.completed, iff_of_true rfl hmac⟩, hdone.frame ?_⟩
    · rw [hdone.rest.auth, hq.auth, Core.auth_setAuth]
    · rw [hdone.priv, if_pos hmac]
      exact Core.priv_grant _ _ (levelOk_lt hlevel)
    · refine fun f m hf => (hregs f m fun hm => hf ?_).trans (htaken f m hf)
      rcases List.mem_append.1 hm with h | h
      · exact List.mem_append_left _ h
      · refine List.mem_append_right _ ?_
        rw [List.mem_singleton.1 h]
        cases c.src <;> decide
  · obtain ⟨misses, lock, hbody⟩ := respondBody_wrong (tag := c.tag.toNat) hlevel hnonce htime hmac
    generalize hx : (((s.taken c 0x00F0).field.core.setAuth c.src ⟨none, misses, lock⟩).inc CMDQ_AUTH_FAIL_CNT.COUNT).emit 0x0103
      (srcByte c.src + at_ 1 level.toNat) c.tag.toNat = x at *
    have hq : QuietEvents ((s.taken c 0x00F0).field.core.setAuth c.src ⟨none, misses, lock⟩) x := by
      rw [← hx]
      exact (show QuietEvents _ (Core.inc ((s.taken c 0x00F0).field.core.setAuth c.src ⟨none, misses, lock⟩)
        CMDQ_AUTH_FAIL_CNT.COUNT) from rfl).trans (QuietEvents.emit _ _ _ _)
    have hread : ∀ (f : Fld) m, f.key m ≠ LOG_EVT_OVWR_CNT.COUNT.key 0 → f.key m ≠ CMDQ_AUTH_FAIL_CNT.COUNT.key 0 →
        x.rd f m = (s.taken c 0x00F0).field.core.rd f m := fun f m h1 h2 => by
      rw [← hx]
      exact (Core.rd_emit_ne _ _ _ _ _ _ h1).trans ((Core.rd_inc_ne _ _ _ _ _ _ h2).trans (Core.rd_setAuth _ _ _ _ _))
    obtain ⟨t, ht, hdone⟩ := hk.done (i := .authRespond c level mac) rfl hc hr hbody (.inr (.inr ⟨_, _, _, _, rfl⟩))
      (hq.etime.trans htime') (hq.answers.trans (Core.answers_setAuth _ _ _))
    refine ⟨t, ht, ?_, ?_, ⟨_, _, hdone.completed, iff_of_false (by decide) hmac⟩, hdone.frame ?_⟩
    · rw [hdone.rest.auth, hq.auth, Core.auth_setAuth]
    · rw [hdone.priv, if_neg hmac, ← hpriv]
      cases c.src
      · exact hread CMDQ_PRIV.HOST 0 (by decide) (by decide)
      · exact hread CMDQ_PRIV.FSP 0 (by decide) (by decide)
    · refine fun f m hf => (hread f m (fun e => hf ?_) fun e => hf ?_).trans (htaken f m hf)
      · rw [e]; decide
      · rw [e]; decide

theorem authDrop_answers {c : Call} {level : Byte} {s : State} (hlevel : levelOk c.src level.toNat = true)
    (hc : CleanHeader c 4) (hr : Runs c 0x00F0 0 s) (hsrc : c.src = .host) (hle : level.toNat ≤ s.field.core.priv .host) :
    Answers (.authDrop c level) s fun t =>
      Completed c 0x00F0 0 0 s t ∧ t.field.core.priv .host = level.toNat ∧
      s.field.core.Raised t.field.core 0x0104 (256 * level.toNat) ∧
      CommandFrame c 0x00F0 [CMDQ_PRIV.HOST.key 0] s t ∧ Quiet s.field.core t.field.core := by
  have hk : (cmdDrop c level.toNat).Plain 4 (dropBody c.src level.toNat) := ⟨rfl, rfl, by decide, rfl, rfl, rfl⟩
  have hbody : dropBody c.src level.toNat (s.taken c 0x00F0).field.core =
      (.ok 0, (s.taken c 0x00F0).field.core.grant .host level.toNat) := by
    unfold dropBody
    rw [hsrc, taken_priv, if_neg (by omega), if_neg (by simp)]
  have hq := QuietEvents.grant (s.taken c 0x00F0).field.core .host level.toNat
  have hregs := SameRegs.grant (s.taken c 0x00F0).field.core .host level.toNat
  have hraised : s.field.core.Raised ((s.taken c 0x00F0).field.core.grant .host level.toNat) 0x0104 (256 * level.toNat) := by
    have hdata : srcByte .host + at_ 1 level.toNat = 256 * level.toNat := by
      rw [srcByte, at_]
      omega
    unfold Core.grant
    rw [hdata]
    have hnum : 256 * level.toNat < 2 ^ 128 := lt_trans (b := 2 ^ 16) (by omega) (by decide)
    refine (Core.raised_emit ((s.taken c 0x00F0).field.core.setPriv .host level.toNat) 0x0104 _ 0 hnum).congr ?_ ?_ ?_ rfl rfl rfl rfl
    · change _ = (s.taken c 0x00F0).field.core.cmdq.fifo
      rw [taken_core]
    · change _ = (s.taken c 0x00F0).field.core.cmdq.evSeq
      rw [taken_core]
    · change _ = (s.taken c 0x00F0).field.core.tck.running
      rw [taken_core]
  obtain ⟨t, ht, hdone⟩ := hk.done (i := .authDrop c level) rfl hc hr hbody (.inl ⟨_, rfl⟩)
    (hq.etime.trans (taken_etime _ _ _)) hq.answers
  exact ⟨t, ht, hdone.completed, (hdone.priv .host).trans (Core.priv_grant _ _ (levelOk_lt hlevel)), hdone.raised hraised (by decide),
    hdone.frame fun f n hf => (hregs f n hf).trans (SameRegs.taken c 0x00F0 _ s f n hf),
    ((Quiet.taken _ _ _).trans hq.quiet).trans hdone.rest.quiet⟩

/-- Settles O22: each form of AUTH through its body's answer on the state that counts the command. -/
theorem authRaisesOnlyWithTheRightMac : Obligations.AuthRaisesOnlyWithTheRightMac := by
  unfold Obligations.AuthRaisesOnlyWithTheRightMac
  intro c level s hlevel
  exact ⟨authChallenge_answers hlevel, fun mac n t0 => authRespond_answers hlevel, authDrop_answers hlevel⟩

end Sys2Proof.Machine
end

section
/-! PROOF. Register commands: an access that is made, as its effect on the state that counts the command
(spec/00_scope.md R33, R34; spec/04_command_protocol.md R189, R198). -/

namespace Sys2Proof.Machine

set_option Elab.async false

/-! ### An access that is made -/

theorem Runs.weaken {c : Call} {op need : Nat} {s : State} (h : Runs c op need s) : Runs c op 0 s := by
  refine ⟨h.ready, h.delivered, h.queue, Nat.le_trans ?_ h.privilege⟩
  unfold needBy
  split <;> omega
/-- Over FSP as over a ring the source has the privilege of the row. -/
theorem Runs.priv_ge {c : Call} {op need : Nat} {s : State} (h : Runs c op need s) (hn : need ≤ 3) :
    need ≤ s.field.core.priv c.src := by
  refine Nat.le_trans ?_ h.privilege
  unfold needBy
  split <;> omega

/-- A register, and no window, lies at `a`. -/
def atRegister (a : Nat) : Bool :=
  a % 4 == 0 && decide (a < 2 ^ 32) && !inNozWindow a && !inPoolWindow a && !(fieldsAt a).isEmpty
theorem addrReason_zero {a p priv : Nat} (h : atRegister a = true) (hp : p ≤ priv) : addrReason priv p a = 0 := by
  simp only [atRegister, Bool.and_eq_true, beq_iff_eq, decide_eq_true_eq, Bool.not_eq_true'] at h
  obtain ⟨⟨⟨⟨halign, hsize⟩, hnoz⟩, hpool⟩, hfields⟩ := h
  unfold addrReason regDefined
  rw [if_neg (by omega), if_neg (by rw [hnoz, hpool, hfields]; simp; omega), if_neg (by omega)]
theorem atRegister_noz {a : Nat} (h : atRegister a = true) : inNozWindow a = false := by
  simp only [atRegister, Bool.and_eq_true, Bool.not_eq_true'] at h
  exact h.1.1.2
theorem atRegister_pool {a : Nat} (h : atRegister a = true) : inPoolWindow a = false := by
  simp only [atRegister, Bool.and_eq_true, Bool.not_eq_true'] at h
  exact h.1.2

/-- A write that crosses, to a present item, of nothing locked. -/
structure Core.Writes (s : Core) (a v : Nat) : Prop where
  crosses : s.regTimedOut a = false
  present : s.absentAt a = false
  free : s.locked a v = false
theorem Core.unlocked {s : Core} (h : s.rd SYS_LOCK.CFG_LOCK = 0) (a v : Nat) : s.locked a v = false := by
  rw [Core.locked, Core.rdb, h]
  rfl
/-- What such a write does: what the register does itself, or a store. -/
def regAct (a v : Nat) (s : Core) : Reply × Core := (regWriteSpecial a v s).getD (.ok 0, peakClr a v (s.plainWrite a v))
theorem regWriteCmd_made {c : Call} {op a v : Nat} {s : Core} (ha : atRegister a = true)
    (hp : writePriv a ≤ s.priv c.src) (hw : s.Writes a v) : regWriteCmd c op a v s = regAct a v s := by
  obtain ⟨hcross, hpresent, hfree⟩ := hw
  unfold regWriteCmd
  rw [addrReason_zero ha hp]
  change regWrite a v s = _
  unfold regWrite regAct
  rw [hcross, atRegister_noz ha, atRegister_pool ha, hpresent, hfree]
  cases regWriteSpecial a v s <;> rfl

theorem Core.absentAt_congr {a b : Core} (hp : b.press = a.press) (hm : b.rd GEO_PRESS.BAR_MASK = a.rd GEO_PRESS.BAR_MASK) (n : Nat) :
    b.absentAt n = a.absentAt n := by
  have hhead : ∀ h, b.headPresent h = a.headPresent h := fun h => by unfold Core.headPresent Core.nozzles; rw [hp]
  have hbar : ∀ i, b.barPresent i = a.barPresent i := fun i => by unfold Core.barPresent; rw [hm]
  have hseg : ∀ l, b.segBar l = a.segBar l := fun l => by unfold Core.segBar; rw [hp]
  simp only [Core.absentAt, Core.linkAbsentAt, Core.barAbsentAt, hhead, hbar, hseg]
theorem Core.regTimedOut_congr {a b : Core} (h : b.cdc = a.cdc) (n : Nat) : b.regTimedOut n = a.regTimedOut n := by
  unfold Core.regTimedOut Core.timedOut
  rw [h]
/-- Is no register of a head, a link, a slot or a bar at `a`? -/
def sharedAddr (a : Nat) : Bool :=
  !(0xC0000 ≤ a && a < 0xCC000) && !(0xA0000 ≤ a && a < 0xA6000) &&
  [(0x50040, 4), (0x80000, 0x40), (0x90000, 0x100), (0x110100, 0x20), (0x140100, 0x40), (0x150040, 0x10)].all fun p =>
    !(p.1 ≤ a && a < p.1 + 8 * p.2)
/-- A shared register that no crossing leads to. -/
def commonAddr (a : Nat) : Bool := (regCrossing a).isNone && sharedAddr a
theorem Core.present_shared (s : Core) {a : Nat} (h : sharedAddr a = true) : s.absentAt a = false := by
  simp only [sharedAddr, List.all_cons, List.all_nil, Bool.and_true, Bool.and_eq_true, Bool.not_eq_true'] at h
  obtain ⟨⟨hhead, hlink⟩, h1, h2, h3, h4, h5, h6⟩ := h
  simp only [Core.absentAt, Core.linkAbsentAt, Core.barAbsentAt, hhead, hlink, h1, h2, h3, h4, h5, h6, Bool.false_and, Bool.or_self]
theorem Core.present_common (s : Core) {a : Nat} (h : commonAddr a = true) : s.absentAt a = false :=
  s.present_shared ((Bool.and_eq_true _ _).mp h).2
theorem Core.crosses_common (s : Core) {a : Nat} (h : commonAddr a = true) : s.regTimedOut a = false := by
  simp only [commonAddr, Bool.and_eq_true, Option.isNone_iff_eq_none] at h
  obtain ⟨hnone, -⟩ := h
  unfold Core.regTimedOut
  rw [hnone]
theorem Core.crosses_of_none {s : Core} (h : s.cdc.out = []) (a : Nat) : s.regTimedOut a = false := by
  unfold Core.regTimedOut Core.timedOut
  rw [h]
  cases regCrossing a <;> rfl

theorem taken_press (c : Call) (op : Nat) (s : State) : (s.taken c op).field.core.press = s.field.core.press := by rw [taken_core]
theorem taken_cdc (c : Call) (op : Nat) (s : State) : (s.taken c op).field.core.cdc = s.field.core.cdc := by rw [taken_core]
theorem taken_regTimedOut (c : Call) (op : Nat) (s : State) (a : Nat) :
    (s.taken c op).field.core.regTimedOut a = s.field.core.regTimedOut a := Core.regTimedOut_congr (taken_cdc _ _ _) _
theorem taken_absentAt (c : Call) (op : Nat) (s : State) (a : Nat) :
    (s.taken c op).field.core.absentAt a = s.field.core.absentAt a :=
  Core.absentAt_congr (taken_press _ _ _) (rd_taken _ _ _ _ _ (by decide)) _
theorem taken_unlocked {c : Call} {op : Nat} {s : State} (h : s.field.core.rd SYS_LOCK.CFG_LOCK = 0) (a v : Nat) :
    (s.taken c op).field.core.locked a v = false := Core.unlocked ((rd_taken c op s _ _ (by decide)).trans h) a v

/-- A register write that is made: the command completes with what the register answers. `i` is its row. -/
theorem regWrite_done {c : Call} {i : Instr} {a v need : Nat} {s : State} {r : Reply} {x : Core}
    (hexec : exec i s = .next ((cmdRegWrite c a v).submit i s)) (hc : CleanHeader c 8) (hr : Runs c 0x0101 need s)
    (ha : atRegister a = true) (hp : writePriv a ≤ s.field.core.priv c.src)
    (hw : (s.taken c 0x0101).field.core.Writes a v) (hact : regAct a v (s.taken c 0x0101).field.core = (r, x)) (hd : r.AtOnce)
    (htime : x.etime = s.field.core.etime) (hans : (x.cmdq.done, x.cmdq.fspTx) =
      ((s.taken c 0x0101).field.core.cmdq.done, (s.taken c 0x0101).field.core.cmdq.fspTx)) :
    Answers i s ((cmdRegWrite c a v).Done r s x) := by
  have hk : (cmdRegWrite c a v).Plain 8 (regWriteCmd c 0x0101 a v) := ⟨rfl, rfl, by decide, rfl, rfl, rfl⟩
  refine hk.done hexec hc hr.weaken ?_ hd htime hans
  exact (regWriteCmd_made ha (by rw [taken_priv]; exact hp) hw).trans hact

/-! ### What a store leaves -/

theorem Core.writeField_within {ps : List Nat} (s : Core) (v : Nat) (p : Fld × Nat) (h : p.1.block p.2 ∈ ps) :
    Within ps [] s (s.writeField v p) := by
  unfold Core.writeField
  extract_lets x
  split
  · exact (Within.refl _ _ s).wr _ h
  · exact (Within.refl _ _ s).wr _ h
  · exact .ite (fun _ => (Within.refl _ _ s).wr _ h) fun _ => .refl _ _ s
  · exact .ite (fun _ => (Within.refl _ _ s).wr _ h) fun _ => .refl _ _ s
  · exact .refl _ _ s
  · exact .refl _ _ s
/-- A store changes registers of the block of its address alone. -/
theorem Core.plainWrite_within {ps : List Nat} (s : Core) {a : Nat} (v : Nat) (h : ∀ p ∈ fieldsAt a, p.1.block p.2 ∈ ps) :
    Within ps [] s (s.plainWrite a v) :=
  (Within.refl _ _ s).foldl _ fun p hp s => s.writeField_within v p (h p hp)
/-- A field with neither a clamp nor a remap stores what is written. -/
theorem storedAs_plain {f : Fld} {v : Nat} (hc : clamps.all (fun c => !(c.1 == f)) = true)
    (hr : remaps.all (fun r => !(r.1 == f)) = true) : storedAs f v = v := by
  have hclamp : clamps.find? (·.1 == f) = none := List.find?_eq_none.2 fun c hcm => by
    simpa using List.all_eq_true.1 hc c hcm
  have hremap : remaps.find? (fun r => r.1 == f && r.2.1 ≤ v && v ≤ r.2.2.1) = none := List.find?_eq_none.2 fun r hrm => by
    have := List.all_eq_true.1 hr r hrm
    simp_all
  rw [storedAs, hclamp, hremap]

/-! ### ELY_CFG, SYS_LOCK, SPG_TERM_HOST and LOG_VIOL_CTL -/

theorem regAct_elyCfg (v : Nat) (s : Core) : regAct 0x30004 v s =
    (.ok 0, (s.wr ELY_CFG.HOST_HB_MISS (bits v 3 0)).wr ELY_CFG.HOST_LOSS_POLICY (bits v 5 4)) := by
  have hnone : regWriteSpecial 0x30004 v s = none := by rfl
  have hpeak : ∀ t, peakClr 0x30004 v t = t := fun t => by unfold peakClr; split <;> rfl
  unfold regAct
  rw [hnone, Option.getD_none, hpeak]
  rfl
theorem bits_lt (v hi lo : Nat) : bits v hi lo < 2 ^ (hi - lo + 1) := Nat.mod_lt _ (Nat.two_pow_pos _)

theorem regWrite_elyCfg_answers {c : Call} {v : Word} {s : State} (hc : CleanHeader c 8) (hr : Runs c 0x0101 2 s)
    (hlock : s.field.core.rd SYS_LOCK.CFG_LOCK = 0) :
    Answers (.regWrite c 0x30004 v) s fun t =>
      Completed c 0x0101 0 0 s t ∧ t.field.core.rd ELY_CFG.HOST_HB_MISS = bits v.toNat 3 0 ∧
      t.field.core.rd ELY_CFG.HOST_LOSS_POLICY = bits v.toNat 5 4 ∧
      CommandFrame c 0x0101 [ELY_CFG.HOST_HB_MISS.key 0, ELY_CFG.HOST_LOSS_POLICY.key 0] s t ∧
      Quiet s.field.core t.field.core := by
  have htaken := SameRegs.taken c 0x0101 [ELY_CFG.HOST_HB_MISS.key 0, ELY_CFG.HOST_LOSS_POLICY.key 0] s
  have hquiet := Quiet.taken c 0x0101 s
  have hstored := regAct_elyCfg v.toNat (s.taken c 0x0101).field.core
  obtain ⟨t, ht, hdone⟩ := regWrite_done (i := .regWrite c 0x30004 v) rfl hc hr (by decide)
    (Nat.le_trans (by decide) (hr.priv_ge (by decide))) ⟨Core.crosses_common _ (by decide), Core.present_common _ (by decide),
      taken_unlocked hlock _ _⟩ hstored (.inl ⟨0, rfl⟩) (taken_etime c 0x0101 s) rfl
  generalize (s.taken c 0x0101).field.core = τ at *
  refine ⟨t, ht, hdone.completed, ?_, ?_, hdone.frame fun f n hf => ?_, (hquiet.trans ?_).trans hdone.rest.quiet⟩
  · rw [hdone.rd _ _ (by decide), Core.rd_wr_ne _ _ _ _ _ _ (by decide), Core.rd_wr]
    exact Nat.mod_eq_of_lt (bits_lt _ _ _)
  · rw [hdone.rd _ _ (by decide), Core.rd_wr]
    exact Nat.mod_eq_of_lt (bits_lt _ _ _)
  · rw [Core.rd_wr_ne _ _ _ _ _ _ fun e => hf (by rw [e]; decide), Core.rd_wr_ne _ _ _ _ _ _ fun e => hf (by rw [e]; decide)]
    exact htaken f n hf
  · rfl

/-- A locked register refuses a change. -/
theorem regWriteCmd_locked {c : Call} {op a v : Nat} {s : Core} (ha : atRegister a = true) (hp : writePriv a ≤ s.priv c.src)
    (hcross : s.regTimedOut a = false) (hpresent : s.absentAt a = false) (hlock : s.locked a v = true) :
    regWriteCmd c op a v s = (wrongState 0x0010, s) := by
  unfold regWriteCmd
  rw [addrReason_zero ha hp]
  change regWrite a v s = _
  unfold regWrite
  rw [hcross, atRegister_noz ha, atRegister_pool ha, hpresent, hlock]
  rfl
theorem regWrite_locked_answers {c : Call} {v : Word} {s : State} (hc : CleanHeader c 8) (hr : Runs c 0x0101 2 s)
    (hlock : s.field.core.rd SYS_LOCK.CFG_LOCK = 1) (hne : bits v.toNat 3 0 ≠ s.field.core.rd ELY_CFG.HOST_HB_MISS) :
    Answers (.regWrite c 0x30004 v) s fun t =>
      (∃ result, Completed c 0x0101 0x15 result s t) ∧ CommandFrame c 0x0101 [] s t ∧ Quiet s.field.core t.field.core := by
  have hk : (cmdRegWrite c 0x30004 v.toNat).Plain 8 (regWriteCmd c 0x0101 0x30004 v.toNat) := ⟨rfl, rfl, by decide, rfl, rfl, rfl⟩
  have hpart : fieldPart ELY_CFG.HOST_HB_MISS v.toNat = bits v.toNat 3 0 := storedAs_plain (by decide) (by decide)
  have hfields : fieldsAt 0x30004 = [(ELY_CFG.HOST_HB_MISS, 0), (ELY_CFG.HOST_LOSS_POLICY, 0)] := by rfl
  have hlocked : (s.taken c 0x0101).field.core.locked 0x30004 v.toNat = true := by
    have hset : (s.taken c 0x0101).field.core.rdb SYS_LOCK.CFG_LOCK = true := by
      rw [Core.rdb, rd_taken _ _ _ _ _ (by decide), hlock]
      rfl
    have hdiff : (ELY_CFG.HOST_HB_MISS.acc == .rwl &&
        fieldPart ELY_CFG.HOST_HB_MISS v.toNat != (s.taken c 0x0101).field.core.rd ELY_CFG.HOST_HB_MISS) = true := by
      rw [hpart, rd_taken _ _ _ _ _ (by decide)]
      exact bne_iff_ne.2 hne
    unfold Core.locked
    rw [hset, hfields, List.any_cons, hdiff]
    rfl
  obtain ⟨t, ht, hdone⟩ := hk.done (i := .regWrite c 0x30004 v) rfl hc hr.weaken
    (regWriteCmd_locked (by decide) (by rw [taken_priv]; exact Nat.le_trans (by decide) (hr.priv_ge (by decide)))
      (Core.crosses_common _ (by decide)) (Core.present_common _ (by decide)) hlocked) (.inr (.inr ⟨_, _, _, _, rfl⟩))
    (taken_etime c 0x0101 s) rfl
  exact ⟨t, ht, ⟨_, hdone.completed⟩, hdone.frame (SameRegs.taken c 0x0101 [] s), (Quiet.taken c 0x0101 s).trans hdone.rest.quiet⟩

theorem regAct_sysLock (v : Nat) (s : Core) : regAct (SYS_LOCK.CFG_LOCK.addr 0) v s =
    (.ok 0, if v.testBit 0 then s.wr SYS_LOCK.CFG_LOCK 1 else s) := by
  have hnone : regWriteSpecial (SYS_LOCK.CFG_LOCK.addr 0) v s = none := by rfl
  have hpeak : ∀ t, peakClr (SYS_LOCK.CFG_LOCK.addr 0) v t = t := fun t => by unfold peakClr; split <;> rfl
  have hstore : s.plainWrite (SYS_LOCK.CFG_LOCK.addr 0) v = if bits v 0 0 ≠ 0 then s.wr SYS_LOCK.CFG_LOCK 1 else s := by rfl
  have hbit : (bits v 0 0 ≠ 0) = (v.testBit 0 = true) := by
    rw [bits, Nat.testBit_zero]
    simp
  unfold regAct
  rw [hnone, Option.getD_none, hpeak, hstore]
  simp only [hbit]
theorem Core.locked_of_none {s : Core} {a : Nat} (v : Nat) (h : ((fieldsAt a).all fun p => !(p.1.acc == .rwl)) = true) :
    s.locked a v = false := by
  have hany : ((fieldsAt a).any fun p => p.1.acc == .rwl && fieldPart p.1 v != s.rd p.1 p.2) = false :=
    List.any_eq_false.2 fun p hp => by
      have := List.all_eq_true.1 h p hp
      simp_all
  rw [Core.locked, hany, Bool.and_false]

theorem sysLockSet_answers {c : Call} {v : Word} {s : State} (hc : CleanHeader c 8) (hr : Runs c 0x0101 2 s) :
    Answers (.sysLockSet c v) s fun t =>
      Completed c 0x0101 0 0 s t ∧
      t.field.core.rd SYS_LOCK.CFG_LOCK = (if v.toNat.testBit 0 then 1 else s.field.core.rd SYS_LOCK.CFG_LOCK) ∧
      CommandFrame c 0x0101 [SYS_LOCK.CFG_LOCK.key 0] s t ∧ Quiet s.field.core t.field.core := by
  have htaken := SameRegs.taken c 0x0101 [SYS_LOCK.CFG_LOCK.key 0] s
  have hold := rd_taken c 0x0101 s SYS_LOCK.CFG_LOCK 0 (by decide)
  have hquiet := Quiet.taken c 0x0101 s
  have htime := taken_etime c 0x0101 s
  have hstored := regAct_sysLock v.toNat (s.taken c 0x0101).field.core
  obtain ⟨t, ht, hdone⟩ := regWrite_done (i := .sysLockSet c v) rfl hc hr (by decide)
    (Nat.le_trans (by decide) (hr.priv_ge (by decide))) ⟨Core.crosses_common _ (by decide), Core.present_common _ (by decide),
      Core.locked_of_none _ (by decide)⟩ hstored (.inl ⟨0, rfl⟩) (by split <;> exact htime) (by split <;> rfl)
  generalize (s.taken c 0x0101).field.core = τ at *
  refine ⟨t, ht, hdone.completed, ?_, hdone.frame fun f n hf => ?_, (hquiet.trans ?_).trans hdone.rest.quiet⟩
  · rw [hdone.rd _ _ (by decide), ← hold]
    split
    · exact Core.rd_wr _ _ _ _
    · rfl
  · refine Eq.trans ?_ (htaken f n hf)
    split
    · exact Core.rd_wr_ne _ _ _ _ _ _ fun e => hf (by rw [e]; decide)
    · rfl
  · split <;> rfl

theorem regAct_termHost (v : Nat) (s : Core) : regAct (SPG_TERM_HOST.HZ.addr 0) v s =
    (.ok 0, s.wr SPG_TERM_HOST.HZ (min (bits v 19 0) 160000)) := by
  have hnone : regWriteSpecial (SPG_TERM_HOST.HZ.addr 0) v s = none := by rfl
  have hpeak : ∀ t, peakClr (SPG_TERM_HOST.HZ.addr 0) v t = t := fun t => by unfold peakClr; split <;> rfl
  have hclamp : fieldPart SPG_TERM_HOST.HZ v = clampN 0 160000 (bits v 19 0) := by rfl
  have hstore : s.plainWrite (SPG_TERM_HOST.HZ.addr 0) v = s.wr SPG_TERM_HOST.HZ (fieldPart SPG_TERM_HOST.HZ v) := by rfl
  unfold regAct
  rw [hnone, Option.getD_none, hpeak, hstore, hclamp]
  have hmin : clampN 0 160000 (bits v 19 0) = min (bits v 19 0) 160000 := by
    unfold clampN
    rw [if_neg (Nat.not_lt_zero _)]
    split <;> omega
  rw [hmin]

theorem fieldRegisterWrite_termHost_answers {c : Call} {v : Word} {s : State} (hc : CleanHeader c 8) (hr : Runs c 0x0101 2 s)
    (hlock : s.field.core.rd SYS_LOCK.CFG_LOCK = 0) :
    Answers (.fieldRegisterWrite c (BitVec.ofNat 32 (SPG_TERM_HOST.HZ.addr 0)) v) s fun t =>
      Completed c 0x0101 0 0 s t ∧ t.field.core.rd SPG_TERM_HOST.HZ = min (bits v.toNat 19 0) 160000 ∧
      CommandFrame c 0x0101 [SPG_TERM_HOST.HZ.key 0] s t ∧ Quiet s.field.core t.field.core := by
  have htaken := SameRegs.taken c 0x0101 [SPG_TERM_HOST.HZ.key 0] s
  have hquiet := Quiet.taken c 0x0101 s
  have hstored := regAct_termHost v.toNat (s.taken c 0x0101).field.core
  obtain ⟨t, ht, hdone⟩ := regWrite_done (i := .fieldRegisterWrite c (BitVec.ofNat 32 (SPG_TERM_HOST.HZ.addr 0)) v) rfl hc hr (by decide)
    (Nat.le_trans (by decide) (hr.priv_ge (by decide))) ⟨Core.crosses_common _ (by decide), Core.present_common _ (by decide),
      taken_unlocked hlock _ _⟩ hstored (.inl ⟨0, rfl⟩) (taken_etime c 0x0101 s) rfl
  generalize (s.taken c 0x0101).field.core = τ at *
  refine ⟨t, ht, hdone.completed, ?_, hdone.frame fun f n hf => ?_, (hquiet.trans ?_).trans hdone.rest.quiet⟩
  · rw [hdone.rd _ _ (by decide), Core.rd_wr]
    exact Nat.mod_eq_of_lt (Nat.lt_of_le_of_lt (Nat.min_le_right _ _) (by decide))
  · exact (Core.rd_wr_ne _ _ _ _ _ _ fun e => hf (by rw [e]; decide)).trans (htaken f n hf)
  · rfl

/-- The fields of one entry of the violation log (R198). -/
def violFields : List Fld :=
  [LOG_VIOL_ADDR.ADDR, LOG_VIOL_INFO.OPCODE, LOG_VIOL_INFO.TAG, LOG_VIOL_INFO.QUEUE, LOG_VIOL_INFO.PRIV, LOG_VIOL_INFO.SOURCE,
   LOG_VIOL_ETIME_LO.ETIME, LOG_VIOL_ETIME_HI.ETIME, LOG_VIOL_REASON.REASON]
theorem regAct_violClr (s : Core) : regAct (LOG_VIOL_CTL.CLR.addr 0) 0x80000000 s =
    (.ok 0, (List.range 16).foldl (fun s n => s.clr violFields n) (s.clr [LOG_VIOL_CNT.COUNT, LOG_VIOL_CTL.NEXT])) := by rfl
/-- A register that lies at none of the fields cleared, or is one of them, stays 0. -/
theorem Core.rd_clr_zero {s : Core} {fs : List Fld} {n m : Nat} {g : Fld} (hz : resetOf g m % 2 ^ g.width = 0)
    (hg : ∀ f ∈ fs, g.key m ≠ f.key n ∨ (g = f ∧ m = n)) (h : s.rd g m = 0) : (s.clr fs n).rd g m = 0 := by
  unfold Core.clr
  induction fs generalizing s with
  | nil => exact h
  | cons f fs ih =>
    refine ih (fun x hx => hg x (List.mem_cons_of_mem _ hx)) ?_
    rcases hg f List.mem_cons_self with hne | ⟨rfl, rfl⟩
    · exact (Core.rd_wr_ne _ _ _ _ _ _ hne).trans h
    · exact (Core.rd_wr _ _ _ _).trans hz
theorem Core.rd_clr_mem {s : Core} {fs : List Fld} {n : Nat} {g : Fld} (hz : resetOf g n % 2 ^ g.width = 0)
    (hg : ∀ f ∈ fs, g.key n ≠ f.key n ∨ g = f) (hm : g ∈ fs) :
    (s.clr fs n).rd g n = 0 := by
  unfold Core.clr
  induction fs generalizing s with
  | nil => exact absurd hm List.not_mem_nil
  | cons f fs ih =>
    have htail : ∀ x ∈ fs, g.key n ≠ x.key n ∨ g = x := fun x hx => hg x (List.mem_cons_of_mem f hx)
    rcases List.mem_cons.1 hm with rfl | hm
    · exact Core.rd_clr_zero (fs := fs) hz (fun x hx => (htail x hx).imp id fun e => ⟨e, rfl⟩) ((Core.rd_wr _ _ _ _).trans hz)
    · exact ih htail hm
/-- Entries cleared one after the other. -/
theorem Core.rd_foldl_clr {s : Core} {l : List Nat} {g : Fld} {m : Nat} (hz : resetOf g m % 2 ^ g.width = 0)
    (hg : ∀ n ∈ l, ∀ f ∈ violFields, g.key m ≠ f.key n ∨ (g = f ∧ m = n)) (h : g ∈ violFields ∧ m ∈ l ∨ s.rd g m = 0) :
    (l.foldl (fun s n => s.clr violFields n) s).rd g m = 0 := by
  induction l generalizing s with
  | nil =>
    rcases h with ⟨-, h⟩ | h
    · exact absurd h List.not_mem_nil
    · exact h
  | cons n l ih =>
    refine ih (fun k hk => hg k (List.mem_cons_of_mem _ hk)) ?_
    have hn := hg n List.mem_cons_self
    rcases h with ⟨hf, hm⟩ | h
    · rcases List.mem_cons.1 hm with rfl | hm
      · exact .inr (Core.rd_clr_mem hz (fun f hf => (hn f hf).imp id fun e => e.1) hf)
      · exact .inl ⟨hf, hm⟩
    · exact .inr (Core.rd_clr_zero hz hn h)

theorem Quiet.clr (s : Core) (l : List Fld) (n : Nat) : Quiet s (s.clr l n) := by
  unfold Core.clr
  induction l generalizing s with
  | nil => rfl
  | cons f l ih => exact (show Quiet s (s.wr f (resetOf f n) n) from rfl).trans (ih _)
theorem Quiet.foldl_clr (s : Core) (l : List Nat) : Quiet s (l.foldl (fun s n => s.clr violFields n) s) := by
  induction l generalizing s with
  | nil => rfl
  | cons n l ih => exact (Quiet.clr s violFields n).trans (ih _)

theorem logViolClr_answers {c : Call} {s : State} (hc : CleanHeader c 8) (hr : Runs c 0x0101 2 s) (hpriv : 3 ≤ s.field.core.priv c.src) :
    Answers (.logViolClr c) s fun t =>
      Completed c 0x0101 0 0 s t ∧ t.field.core.rd LOG_VIOL_CNT.COUNT = 0 ∧ t.field.core.rd LOG_VIOL_CTL.NEXT = 0 ∧
      (∀ n : Fin 16, t.field.core.rd LOG_VIOL_ADDR.ADDR n.val = 0 ∧ t.field.core.rd LOG_VIOL_REASON.REASON n.val = 0) ∧
      CommandWithin c 0x0101 [] s t ∧ Quiet s.field.core t.field.core := by
  have htaken := (SameRegs.taken c 0x0101 [] s).outside (ps := [0x01, 0x1B]) (by decide)
  have hquiet := Quiet.taken c 0x0101 s
  have hstored := regAct_violClr (s.taken c 0x0101).field.core
  generalize hx : (List.range 16).foldl (fun s n => s.clr violFields n)
    ((s.taken c 0x0101).field.core.clr [LOG_VIOL_CNT.COUNT, LOG_VIOL_CTL.NEXT]) = x at *
  have hclr : Within [0x1B] [] (s.taken c 0x0101).field.core x := by
    rw [← hx]
    have hblocks : ∀ n : Fin 16, ∀ f ∈ violFields, f.block n.val ∈ [0x1B] := by decide
    exact ((Within.refl _ _ _).clr (by decide)).foldl _ fun n hn s =>
      (Within.refl _ _ s).clr fun f hf => hblocks ⟨n, List.mem_range.1 hn⟩ f hf
  have hcounts : x.rd LOG_VIOL_CNT.COUNT = 0 ∧ x.rd LOG_VIOL_CTL.NEXT = 0 := by
    have hkeys : ∀ n : Fin 16, ∀ f ∈ violFields, LOG_VIOL_CNT.COUNT.key 0 ≠ f.key n.val ∧ LOG_VIOL_CTL.NEXT.key 0 ≠ f.key n.val := by
      decide
    rw [← hx]
    exact ⟨Core.rd_foldl_clr (by decide) (fun n hn f hf => .inl (hkeys ⟨n, List.mem_range.1 hn⟩ f hf).1)
        (.inr (Core.rd_clr_mem (by decide) (by decide) (by decide))),
      Core.rd_foldl_clr (by decide) (fun n hn f hf => .inl (hkeys ⟨n, List.mem_range.1 hn⟩ f hf).2)
        (.inr (Core.rd_clr_mem (by decide) (by decide) (by decide)))⟩
  have hentries : ∀ g ∈ [LOG_VIOL_ADDR.ADDR, LOG_VIOL_REASON.REASON], ∀ n : Fin 16, x.rd g n.val = 0 := by
    have hkeys : ∀ g ∈ [LOG_VIOL_ADDR.ADDR, LOG_VIOL_REASON.REASON], g ∈ violFields ∧
        (∀ n : Fin 16, resetOf g n.val % 2 ^ g.width = 0) ∧
        ∀ m n : Fin 16, ∀ f ∈ violFields, g.key m.val ≠ f.key n.val ∨ (g = f ∧ m.val = n.val) := by decide +kernel
    intro g hg n
    obtain ⟨hmem, hzero, hkey⟩ := hkeys g hg
    rw [← hx]
    exact Core.rd_foldl_clr (hzero n) (fun k hk f hf => hkey n ⟨k, List.mem_range.1 hk⟩ f hf) (.inl ⟨hmem, List.mem_range.2 n.isLt⟩)
  obtain ⟨t, ht, hdone⟩ := regWrite_done (i := .logViolClr c) rfl hc hr (by decide) (Nat.le_trans (by decide) hpriv)
    ⟨Core.crosses_common _ (by decide), Core.present_common _ (by decide), Core.locked_of_none _ (by decide)⟩ hstored
    (.inl ⟨0, rfl⟩) ((hclr.parts .etime (by decide)).trans (taken_etime c 0x0101 s)) (hclr.parts .answers (by decide))
  have hxq : Quiet (s.taken c 0x0101).field.core x := by
    rw [← hx]
    exact (Quiet.clr _ _ _).trans (Quiet.foldl_clr _ _)
  obtain ⟨hcnt, hnext⟩ := hcounts
  have hfree : ∀ g ∈ [LOG_VIOL_ADDR.ADDR, LOG_VIOL_REASON.REASON], ∀ n : Fin 16, g.key n.val ∉ commandKeys := by decide
  refine ⟨t, ht, hdone.completed, (hdone.rd _ _ (by decide)).trans hcnt, (hdone.rd _ _ (by decide)).trans hnext, fun n => ⟨?_, ?_⟩,
    hdone.within (htaken.trans (hclr.regs.mono (by decide))), (hquiet.trans hxq).trans hdone.rest.quiet⟩
  · exact (hdone.rd _ _ (hfree _ (by decide) n)).trans (hentries _ (by decide) n)
  · exact (hdone.rd _ _ (hfree _ (by decide) n)).trans (hentries _ (by decide) n)

/-- Settles O24: each register's own action on the state that counts the command. -/
theorem registerWritesStoreAndLock : Obligations.RegisterWritesStoreAndLock := by
  unfold Obligations.RegisterWritesStoreAndLock
  intro c v s hc hr
  exact ⟨regWrite_elyCfg_answers hc hr, regWrite_locked_answers hc hr, sysLockSet_answers hc hr,
    fieldRegisterWrite_termHost_answers hc hr, logViolClr_answers hc hr⟩

end Sys2Proof.Machine
end

section
/-! PROOF. Registers whose access acts: control registers, latched pairs, tone curves and the screening registers
(spec/00_scope.md R19; spec/05_chirp_and_tick_cores.md R209; spec/07_nozzle_path_and_screening.md R310 to R327). -/

namespace Sys2Proof.Machine

set_option Elab.async false

theorem Quiet.wr (s : Core) (f : Fld) (v n : Nat) : Quiet s (s.wr f v n) := rfl
theorem Finished.period {x c : Core} (h : Finished x c) : c.tck.period = x.tck.period := by
  unfold Finished at h
  rw [h]

/-! ### Control registers (R209, R294, R531, R594) -/

theorem peakClr_none {a v : Nat} (s : Core) (hvin : isAt PWR_VIN_MIN.CLR a = false)
    (hacts : (clrActs.all fun e => (e.1.at? a).isNone) = true) : peakClr a v s = s := by
  unfold peakClr
  rw [hvin]
  split
  · rfl
  · rw [if_neg (by decide)]
    generalize clrActs = l at hacts
    induction l with
    | nil => rfl
    | cons e l ih =>
      simp only [List.all_cons, Bool.and_eq_true, Option.isNone_iff_eq_none] at hacts
      simp only [List.foldl_cons, hacts.1]
      exact ih hacts.2

theorem regAct_chirpMax {v : Nat} (h : v.testBit 31 = true) (s : Core) :
    regAct (TCK_CHIRP_MAX.NS.addr 0) v s = (.ok 0, s.wr TCK_CHIRP_MAX.NS 0) := by
  have hnone : regWriteSpecial (TCK_CHIRP_MAX.NS.addr 0) v s = none := by rfl
  have hstore : s.plainWrite (TCK_CHIRP_MAX.NS.addr 0) v = s := by rfl
  have hbit : bit v 31 = true := h
  have hpeak : peakClr (TCK_CHIRP_MAX.NS.addr 0) v s = s.wr TCK_CHIRP_MAX.NS 0 := by
    unfold peakClr
    rw [hbit]
    rfl
  unfold regAct
  rw [hnone, Option.getD_none, hstore, hpeak]
theorem counterPeakClr_answers {c : Call} {v : Word} {s : State} (hc : CleanHeader c 8) (hr : Runs c 0x0101 3 s)
    (hcdc : s.field.core.cdc.out = []) (hlock : s.field.core.rd SYS_LOCK.CFG_LOCK = 0) (hv : v.toNat.testBit 31 = true) :
    Answers (.counterPeakClr c (BitVec.ofNat 32 (TCK_CHIRP_MAX.NS.addr 0)) v) s fun t =>
      Completed c 0x0101 0 0 s t ∧ t.field.core.rd TCK_CHIRP_MAX.NS = 0 ∧
      CommandFrame c 0x0101 [TCK_CHIRP_MAX.NS.key 0] s t ∧ Quiet s.field.core t.field.core := by
  have htaken := SameRegs.taken c 0x0101 [TCK_CHIRP_MAX.NS.key 0] s
  have hquiet := Quiet.taken c 0x0101 s
  have hstored := regAct_chirpMax hv (s.taken c 0x0101).field.core
  obtain ⟨t, ht, hdone⟩ := regWrite_done (i := .counterPeakClr c (BitVec.ofNat 32 (TCK_CHIRP_MAX.NS.addr 0)) v) rfl hc hr (by decide)
    (Nat.le_trans (by decide) (hr.priv_ge (by decide))) ⟨Core.crosses_of_none (by rw [taken_cdc]; exact hcdc) _,
      Core.present_shared _ (by decide), taken_unlocked hlock _ _⟩ hstored (.inl ⟨0, rfl⟩) (taken_etime c 0x0101 s) rfl
  generalize (s.taken c 0x0101).field.core = τ at *
  refine ⟨t, ht, hdone.completed, ?_, hdone.frame fun f n hf => ?_, (hquiet.trans (Quiet.wr _ _ _ _)).trans hdone.rest.quiet⟩
  · rw [hdone.rd _ _ (by decide), Core.rd_wr]
    rfl
  · exact (Core.rd_wr_ne _ _ _ _ _ _ fun e => hf (by rw [e]; decide)).trans (htaken f n hf)

theorem clampN_le {lo hi v : Nat} (h : lo ≤ hi) : clampN lo hi v ≤ hi := by
  unfold clampN
  split
  · exact h
  · split <;> omega
theorem regAct_chirpPeriod (v : Nat) (s : Core) : regAct (TCK_CFG.CHIRP_US.addr 0) v s =
    (.ok 0, ((s.wr TCK_CFG.CHIRP_US (clampN 50 400 (bits v 8 0))).wr TCK_CFG.HB_MISS_LIMIT (clampN 2 15 (bits v 15 12))).wr
      TCK_CFG.REVERT_DISABLE (bits v 16 16)) := by
  have hnone : regWriteSpecial (TCK_CFG.CHIRP_US.addr 0) v s = none := by rfl
  have hperiod : fieldPart TCK_CFG.CHIRP_US v = clampN 50 400 (bits v 8 0) := by rfl
  have hmiss : fieldPart TCK_CFG.HB_MISS_LIMIT v = clampN 2 15 (bits v 15 12) := by rfl
  have hrevert : fieldPart TCK_CFG.REVERT_DISABLE v = bits v 16 16 := storedAs_plain (by decide) (by decide)
  have hstore : s.plainWrite (TCK_CFG.CHIRP_US.addr 0) v =
      ((s.wr TCK_CFG.CHIRP_US (fieldPart TCK_CFG.CHIRP_US v)).wr TCK_CFG.HB_MISS_LIMIT (fieldPart TCK_CFG.HB_MISS_LIMIT v)).wr
        TCK_CFG.REVERT_DISABLE (fieldPart TCK_CFG.REVERT_DISABLE v) := by rfl
  unfold regAct
  rw [hnone, Option.getD_none, peakClr_none _ (by decide) (by decide), hstore, hperiod, hmiss, hrevert]
theorem chirpPeriodWrite_answers {c : Call} {v : Word} {s : State} (hc : CleanHeader c 8) (hr : Runs c 0x0101 3 s)
    (hcdc : s.field.core.cdc.out = []) (hlock : s.field.core.rd SYS_LOCK.CFG_LOCK = 0) :
    Answers (.chirpPeriodWrite c v) s fun t =>
      Completed c 0x0101 0 0 s t ∧
      t.field.core.rd TCK_CFG.CHIRP_US = clampN 50 400 (bits v.toNat TCK_CFG.CHIRP_US.hi TCK_CFG.CHIRP_US.lo) ∧
      t.field.core.tck.period = s.field.core.tck.period ∧
      CommandFrame c 0x0101 [TCK_CFG.CHIRP_US.key 0, TCK_CFG.HB_MISS_LIMIT.key 0, TCK_CFG.REVERT_DISABLE.key 0] s t := by
  have htaken := SameRegs.taken c 0x0101 [TCK_CFG.CHIRP_US.key 0, TCK_CFG.HB_MISS_LIMIT.key 0, TCK_CFG.REVERT_DISABLE.key 0] s
  have hperiod : (s.taken c 0x0101).field.core.tck = s.field.core.tck := by rw [taken_core]
  have hstored := regAct_chirpPeriod v.toNat (s.taken c 0x0101).field.core
  obtain ⟨t, ht, hdone⟩ := regWrite_done (i := .chirpPeriodWrite c v) rfl hc hr (by decide)
    (Nat.le_trans (by decide) (hr.priv_ge (by decide))) ⟨Core.crosses_of_none (by rw [taken_cdc]; exact hcdc) _,
      Core.present_shared _ (by decide), taken_unlocked hlock _ _⟩ hstored (.inl ⟨0, rfl⟩) (taken_etime c 0x0101 s) rfl
  generalize (s.taken c 0x0101).field.core = τ at *
  refine ⟨t, ht, hdone.completed, ?_, ?_, hdone.frame fun f n hf => ?_⟩
  · rw [hdone.rd _ _ (by decide), Core.rd_wr_ne _ _ _ _ _ _ (by decide), Core.rd_wr_ne _ _ _ _ _ _ (by decide), Core.rd_wr]
    exact Nat.mod_eq_of_lt (Nat.lt_of_le_of_lt (clampN_le (by decide)) (by decide))
  · exact hdone.rest.period.trans (congrArg TckSt.period hperiod)
  · rw [Core.rd_wr_ne _ _ _ _ _ _ fun e => hf (by rw [e]; decide), Core.rd_wr_ne _ _ _ _ _ _ fun e => hf (by rw [e]; decide),
      Core.rd_wr_ne _ _ _ _ _ _ fun e => hf (by rw [e]; decide)]
    exact htaken f n hf

/-- A boundary leaves the register of the period as it is. -/
theorem Core.rd_boundary_chirpUs (s : Core) (i : ChirpIn) : (s.boundary i).rd TCK_CFG.CHIRP_US = s.rd TCK_CFG.CHIRP_US := by
  obtain ⟨-, hports, -⟩ := Core.portWrites_spec i.portWrites (s.timerBoundary i)
  rw [s.boundary_eq i]
  generalize i.portWrites.foldl (fun s core => s.portWrite core.val) (s.timerBoundary i) = p at *
  obtain ⟨-, hmon, -⟩ := (p.incW TCK_CHIRP_CNT.COUNT).monitor_spec (s.tck.last + 1000 * s.tck.period) i.wire i.word i.pupa
  rw [(Core.boundaryFigures_within _ i s.tck.period).rd _ _ (by decide), hmon _ _ (by decide), Core.rd_incW_ne _ _ _ _ _ _ (by decide),
    hports _ _ (by decide)]
  rfl
theorem doChirp_idle {s : State} {i : ChirpIn} (hrun : s.field.core.tck.running = true) (hworks : i.works = false) :
    doChirp i s = s.onCore fun c => c.boundary i := by
  obtain ⟨-, -, -, -, -, -, -, hup, -⟩ := s.field.core.boundary_spec i hworks
  unfold doChirp
  rw [if_neg (by simp [hrun])]
  extract_lets t
  have hdead : t.field.core.tck.imagoUp = false := hup
  rw [if_pos (by simp [hdead])]
theorem chirp_takes_period {s : State} {i : ChirpIn} (hrun : s.field.core.tck.running = true) (hworks : i.works = false) :
    Answers (.chirp i) s fun t => t.field.core.tck.period = s.field.core.rd TCK_CFG.CHIRP_US ∧
      t.field.core.rd TCK_CFG.CHIRP_US = s.field.core.rd TCK_CFG.CHIRP_US ∧ CoreOnly s t := by
  obtain ⟨-, -, -, hperiod, -⟩ := s.field.core.boundary_spec i hworks
  exact ⟨s.onCore fun c => c.boundary i, by rw [← doChirp_idle hrun hworks]; rfl, hperiod, s.field.core.rd_boundary_chirpUs i,
    rfl, rfl, rfl⟩

theorem regAct_fijCfg {v : Nat} {s : Core} (h : s.printing = false) :
    regAct (FIJ_CFG.LIVE_OK.addr 0) v s = (.ok 0, s.wr FIJ_CFG.LIVE_OK (v % 2)) := by
  have hspecial : regWriteSpecial (FIJ_CFG.LIVE_OK.addr 0) v s = some (.ok 0, fijCfgWrite (FIJ_CFG.LIVE_OK.addr 0) v s) := by rfl
  have hpart : fieldPart FIJ_CFG.LIVE_OK v = v % 2 := by
    refine (storedAs_plain (by decide) (by decide)).trans ?_
    simp [bits, FIJ_CFG.LIVE_OK, f1]
  have hstore : s.plainWrite (FIJ_CFG.LIVE_OK.addr 0) v = s.wr FIJ_CFG.LIVE_OK (fieldPart FIJ_CFG.LIVE_OK v) := by rfl
  have hidle : (s.wr FIJ_CFG.LIVE_OK (v % 2)).printing = false := h
  unfold regAct
  rw [hspecial, Option.getD_some]
  unfold fijCfgWrite
  rw [hstore, hpart]
  dsimp only
  rw [hidle, Bool.and_false, if_neg (by decide)]
theorem taken_printing (c : Call) (op : Nat) (s : State) : (s.taken c op).field.core.printing = s.field.core.printing := by
  unfold Core.printing
  rw [taken_core]
  rfl
theorem fijLiveOkWrite_answers {c : Call} {v : Word} {s : State} (hc : CleanHeader c 8) (hr : Runs c 0x0101 3 s)
    (hlock : s.field.core.rd SYS_LOCK.CFG_LOCK = 0) (hidle : s.field.core.printing = false) :
    Answers (.fijLiveOkWrite c v) s fun t =>
      Completed c 0x0101 0 0 s t ∧ t.field.core.rd FIJ_CFG.LIVE_OK = v.toNat % 2 ∧
      CommandFrame c 0x0101 [FIJ_CFG.LIVE_OK.key 0] s t ∧ Quiet s.field.core t.field.core := by
  have htaken := SameRegs.taken c 0x0101 [FIJ_CFG.LIVE_OK.key 0] s
  have hquiet := Quiet.taken c 0x0101 s
  have hstored := regAct_fijCfg (v := v.toNat) ((taken_printing c 0x0101 s).trans hidle)
  obtain ⟨t, ht, hdone⟩ := regWrite_done (i := .fijLiveOkWrite c v) rfl hc hr (by decide)
    (Nat.le_trans (by decide) (hr.priv_ge (by decide))) ⟨Core.crosses_common _ (by decide), Core.present_common _ (by decide),
      taken_unlocked hlock _ _⟩ hstored (.inl ⟨0, rfl⟩) (taken_etime c 0x0101 s) rfl
  generalize (s.taken c 0x0101).field.core = τ at *
  refine ⟨t, ht, hdone.completed, ?_, hdone.frame fun f n hf => ?_, (hquiet.trans (Quiet.wr _ _ _ _)).trans hdone.rest.quiet⟩
  · rw [hdone.rd _ _ (by decide), Core.rd_wr]
    exact Nat.mod_eq_of_lt (Nat.mod_lt _ (by decide))
  · exact (Core.rd_wr_ne _ _ _ _ _ _ fun e => hf (by rw [e]; decide)).trans (htaken f n hf)

theorem regAct_memCfg {v : Nat} (s : Core) (h : v.testBit 2 = true) : regAct (MEM_CFG.RANK_CLR.addr 0) v s =
    (.ok 0, (s.plainWrite (MEM_CFG.RANK_CLR.addr 0) v).setMem
      { (s.plainWrite (MEM_CFG.RANK_CLR.addr 0) v).mem with rankClr := true }) := by
  have hspecial : regWriteSpecial (MEM_CFG.RANK_CLR.addr 0) v s = some (.ok 0, memCfgWrite (MEM_CFG.RANK_CLR.addr 0) v s) := by rfl
  have hbit : bit v 2 = true := h
  unfold regAct
  rw [hspecial, Option.getD_some]
  unfold memCfgWrite
  rw [hbit, if_pos rfl]
theorem memRankClrWrite_answers {c : Call} {v : Word} {s : State} (hc : CleanHeader c 8) (hr : Runs c 0x0101 3 s)
    (hcdc : s.field.core.cdc.out = []) (hlock : s.field.core.rd SYS_LOCK.CFG_LOCK = 0) (hv : v.toNat.testBit 2 = true) :
    Answers (.memRankClrWrite c v) s fun t =>
      Completed c 0x0101 0 0 s t ∧ t.field.core.mem.rankClr = true ∧ CommandWithin c 0x0101 [0x04] s t := by
  have htaken := (SameRegs.taken c 0x0101 [] s).outside (ps := [0x01, 0x1B, 0x04]) (by decide)
  have hstored := regAct_memCfg (s.taken c 0x0101).field.core hv
  have hstore : Within [0x04] [] (s.taken c 0x0101).field.core
      ((s.taken c 0x0101).field.core.plainWrite (MEM_CFG.RANK_CLR.addr 0) v.toNat) := Core.plainWrite_within _ _ (by decide)
  generalize (s.taken c 0x0101).field.core.plainWrite (MEM_CFG.RANK_CLR.addr 0) v.toNat = x at *
  obtain ⟨t, ht, hdone⟩ := regWrite_done (i := .memRankClrWrite c v) rfl hc hr (by decide)
    (Nat.le_trans (by decide) (hr.priv_ge (by decide))) ⟨Core.crosses_of_none (by rw [taken_cdc]; exact hcdc) _,
      Core.present_shared _ (by decide), taken_unlocked hlock _ _⟩ hstored (.inl ⟨0, rfl⟩)
    ((hstore.parts .etime (by decide)).trans (taken_etime c 0x0101 s)) (hstore.parts .answers (by decide))
  refine ⟨t, ht, hdone.completed, by rw [hdone.rest]; rfl, hdone.within (htaken.trans ?_)⟩
  exact hstore.regs.mono (by decide)

/-- Settles O29: each register's own action on the state that counts the command, and the boundary without work. -/
theorem controlRegisterWritesAct : Obligations.ControlRegisterWritesAct := by
  unfold Obligations.ControlRegisterWritesAct
  intro c v s hc hr hlock hcdc
  exact ⟨counterPeakClr_answers hc hr hcdc hlock, chirpPeriodWrite_answers hc hr hcdc hlock,
    fun i hrun hworks => chirp_takes_period hrun hworks, fijLiveOkWrite_answers hc hr hlock,
    memRankClrWrite_answers hc hr hcdc hlock⟩

/-! ### Reads, and latched pairs (R19) -/

theorem regReadCmd_made {c : Call} {op a : Nat} {s : Core} (ha : atRegister a = true) (hp : readPriv a ≤ s.priv c.src)
    (hcross : s.regTimedOut a = false) : regReadCmd c op a s = (.ok (regRead a s).1, (regRead a s).2) := by
  unfold regReadCmd
  rw [addrReason_zero ha hp]
  dsimp only
  rw [hcross]
  rfl
/-- A register read that is made: the command completes with the word read. `i` is its row. -/
theorem regRead_done {c : Call} {i : Instr} {a w need : Nat} {s : State} {x : Core}
    (hexec : exec i s = .next ((cmdRegRead c a).submit i s)) (hc : CleanHeader c 4) (hr : Runs c 0x0100 need s)
    (ha : atRegister a = true) (hp : readPriv a ≤ s.field.core.priv c.src) (hcross : s.field.core.regTimedOut a = false)
    (hread : regRead a (s.taken c 0x0100).field.core = (w, x)) (htime : x.etime = s.field.core.etime)
    (hans : (x.cmdq.done, x.cmdq.fspTx) =
      ((s.taken c 0x0100).field.core.cmdq.done, (s.taken c 0x0100).field.core.cmdq.fspTx)) :
    Answers i s ((cmdRegRead c a).Done (.ok w) s x) := by
  have hk : (cmdRegRead c a).Plain 4 (regReadCmd c 0x0100 a) := ⟨rfl, rfl, by decide, rfl, rfl, rfl⟩
  refine hk.done hexec hc hr.weaken ?_ (.inl ⟨w, rfl⟩) htime hans
  change regReadCmd c 0x0100 a (s.taken c 0x0100).field.core = _
  rw [regReadCmd_made ha (by rw [taken_priv]; exact hp) (by rw [taken_regTimedOut]; exact hcross), hread]

/-- What the addresses of a channel's count are to a read: the low half latches the high one. -/
theorem countAddr_facts : ∀ ch : Fin 8,
    let lo := POS_COUNT_LO.COUNT.addr ch.val
    let hi := POS_COUNT_HI.COUNT.addr ch.val
    (atRegister lo = true ∧ readPriv lo ≤ 1 ∧ regCrossing lo = some (cdcId 4 10 0) ∧ sharedAddr lo = true ∧ isLatched lo = false ∧
      latchesOf lo = [hi] ∧ (BitVec.ofNat 32 lo).toNat = lo) ∧
    (atRegister hi = true ∧ readPriv hi ≤ 1 ∧ regCrossing hi = some (cdcId 4 10 0) ∧ sharedAddr hi = true ∧ isLatched hi = true ∧
      (BitVec.ofNat 32 hi).toNat = hi) := by decide +kernel
/-- A read of the stored word at `a`, which is no data register, and what it latches. -/
theorem regRead_plain {s : Core} {a : Nat} (hcross : s.regTimedOut a = false) (hpresent : s.absentAt a = false)
    (hlatch : isLatched a = false) (htone : HDC_TONE_DATA.VALUE.at? a = none) (htbl : ISP_TBL_DATA.DATA.at? a = none)
    (hmask : isAt SCR_MASK_DATA.DATA a = false) : regRead a s = (s.liveWord a, s.latch_ a) := by
  unfold regRead
  rw [hcross, hpresent, hlatch, htone, htbl, hmask]
  rfl
/-- Neither a window nor a live figure lies at `a`. -/
def storedWord (a : Nat) : Bool :=
  !inNozWindow a && !inPoolWindow a && (HDC_TONE_DATA.VALUE.at? a).isNone && (ISP_TBL_DATA.DATA.at? a).isNone &&
  !isAt SCR_MASK_DATA.DATA a && !isAt JOB_QUEUE.LIVE a && !isAt JOB_DEF_IDX.IDX a && !isAt JOB_DEF_DATA0.UNIT a &&
  !isAt JOB_DEF_DATA1.FIRST a && !isAt JOB_DEF_DATA2.LAST a && !isAt JOB_DEF_DATA3.LINES a && !isAt CAM_TRIG_FIFO.LEVEL a
theorem Core.liveWord_stored {s : Core} {a : Nat} (h : storedWord a = true) (hpresent : s.absentAt a = false) :
    s.liveWord a = s.regWord a := by
  simp only [storedWord, Bool.and_eq_true, Bool.not_eq_true'] at h
  obtain ⟨⟨⟨⟨⟨⟨⟨⟨⟨⟨⟨h1, h2⟩, -⟩, -⟩, -⟩, h3⟩, h4⟩, h5⟩, h6⟩, h7⟩, h8⟩, h9⟩ := h
  unfold Core.liveWord
  simp only [h1, h2, hpresent, h3, h4, h5, h6, h7, h8, h9, Bool.false_eq_true, if_false]
theorem countAddr_stored : ∀ ch : Fin 8,
    let lo := POS_COUNT_LO.COUNT.addr ch.val
    let hi := POS_COUNT_HI.COUNT.addr ch.val
    storedWord lo = true ∧ storedWord hi = true ∧ HDC_TONE_DATA.VALUE.at? lo = none ∧ ISP_TBL_DATA.DATA.at? lo = none ∧
      isAt SCR_MASK_DATA.DATA lo = false ∧ fieldsAt lo = [(POS_COUNT_LO.COUNT, ch.val)] ∧
      fieldsAt hi = [(POS_COUNT_HI.COUNT, ch.val)] := by decide +kernel
theorem Core.regWord_single {s : Core} {a n : Nat} {f : Fld} (h : fieldsAt a = [(f, n)]) (hlo : f.lo = 0) : s.regWord a = s.rd f n := by
  unfold Core.regWord
  rw [h]
  simp [hlo]

theorem regRead_countLo {s : Core} {ch : Fin 8} (hcross : s.timedOut (cdcId 4 10 0) = false) :
    regRead (POS_COUNT_LO.COUNT.addr ch.val) s = (s.rd POS_COUNT_LO.COUNT ch.val,
      { s with latch := mset 0 s.latch (POS_COUNT_HI.COUNT.addr ch.val) (s.rd POS_COUNT_HI.COUNT ch.val) }) := by
  obtain ⟨⟨-, -, hcrossing, hshared, hlatched, hlatches, -⟩, -, -, -, hsharedHi, -, -⟩ := countAddr_facts ch
  obtain ⟨hlo, hhi, htone, htbl, hmask, hflo, hfhi⟩ := countAddr_stored ch
  have hno : s.regTimedOut (POS_COUNT_LO.COUNT.addr ch.val) = false := by
    unfold Core.regTimedOut
    rw [hcrossing]
    exact hcross
  rw [regRead_plain hno (s.present_shared hshared) hlatched htone htbl hmask,
    Core.liveWord_stored hlo (s.present_shared hshared), Core.regWord_single hflo rfl]
  unfold Core.latch_
  rw [hlatches, List.foldl_cons, List.foldl_nil, Core.liveWord_stored hhi (s.present_shared hsharedHi), Core.regWord_single hfhi rfl]
theorem regRead_latched {s : Core} {a : Nat} (hcross : s.regTimedOut a = false) (hpresent : s.absentAt a = false)
    (hlatched : isLatched a = true) : regRead a s = (mget 0 s.latch a, s) := by
  unfold regRead
  rw [hcross, hpresent, hlatched]
  rfl
theorem Finished.latch {x c : Core} (h : Finished x c) : c.latch = x.latch := by
  unfold Finished at h
  rw [h]

theorem exec_latchedPairRead {c : Call} {a : Word} {n : Nat} {s : State} (h : a.toNat = n) :
    exec (.latchedPairRead c a) s = .next ((cmdRegRead c n).submit (.latchedPairRead c a) s) := by
  subst h
  rfl
theorem countLoRead_answers {c : Call} {ch : Fin 8} {s : State} (hc : CleanHeader c 4) (hr : Runs c 0x0100 1 s)
    (hcross : s.field.core.timedOut (cdcId 4 10 0) = false) :
    Answers (.latchedPairRead c (BitVec.ofNat 32 (POS_COUNT_LO.COUNT.addr ch.val))) s fun t =>
      Completed c 0x0100 0 (s.field.core.rd POS_COUNT_LO.COUNT ch.val % 2 ^ 128) s t ∧
      mget 0 t.field.core.latch (POS_COUNT_HI.COUNT.addr ch.val) = s.field.core.rd POS_COUNT_HI.COUNT ch.val ∧
      CommandFrame c 0x0100 [] s t := by
  obtain ⟨⟨hat, hpriv, hcrossing, -, -, -, hword⟩, -⟩ := countAddr_facts ch
  have hfree : ∀ f ∈ [POS_COUNT_LO.COUNT, POS_COUNT_HI.COUNT], f.key ch.val ∉ inFlightKeys := by
    revert ch; decide
  have htaken := SameRegs.taken c 0x0100 [] s
  have hread := regRead_countLo (s := (s.taken c 0x0100).field.core) (ch := ch)
    ((show (s.taken c 0x0100).field.core.timedOut (cdcId 4 10 0) = s.field.core.timedOut (cdcId 4 10 0) by
      unfold Core.timedOut; rw [taken_cdc]).trans hcross)
  rw [rd_taken _ _ _ _ _ (hfree _ (by decide)), rd_taken _ _ _ _ _ (hfree _ (by decide))] at hread
  obtain ⟨t, ht, hdone⟩ := regRead_done (i := .latchedPairRead c (BitVec.ofNat 32 (POS_COUNT_LO.COUNT.addr ch.val)))
    (a := POS_COUNT_LO.COUNT.addr ch.val) (exec_latchedPairRead hword) hc hr hat (Nat.le_trans hpriv (hr.priv_ge (by decide)))
    (by unfold Core.regTimedOut; rw [hcrossing]; exact hcross) hread (taken_etime c 0x0100 s) rfl
  refine ⟨t, ht, hdone.completed, ?_, hdone.frame htaken⟩
  rw [hdone.rest.latch]
  exact mget_mset _ _ _ _
theorem countHiRead_answers {c : Call} {ch : Fin 8} {s : State} (hc : CleanHeader c 4) (hr : Runs c 0x0100 1 s)
    (hcross : s.field.core.timedOut (cdcId 4 10 0) = false) :
    Answers (.latchedPairRead c (BitVec.ofNat 32 (POS_COUNT_HI.COUNT.addr ch.val))) s fun t =>
      Completed c 0x0100 0 (mget 0 s.field.core.latch (POS_COUNT_HI.COUNT.addr ch.val) % 2 ^ 128) s t ∧
      CommandFrame c 0x0100 [] s t ∧ Quiet s.field.core t.field.core := by
  obtain ⟨-, hat, hpriv, hcrossing, hshared, hlatched, hword⟩ := countAddr_facts ch
  have hno : s.field.core.regTimedOut (POS_COUNT_HI.COUNT.addr ch.val) = false := by
    unfold Core.regTimedOut
    rw [hcrossing]
    exact hcross
  have hread := regRead_latched ((taken_regTimedOut c 0x0100 s _).trans hno) (Core.present_shared _ hshared) hlatched
  rw [show (s.taken c 0x0100).field.core.latch = s.field.core.latch by rw [taken_core]] at hread
  obtain ⟨t, ht, hdone⟩ := regRead_done (i := .latchedPairRead c (BitVec.ofNat 32 (POS_COUNT_HI.COUNT.addr ch.val)))
    (a := POS_COUNT_HI.COUNT.addr ch.val) (exec_latchedPairRead hword) hc hr hat (Nat.le_trans hpriv (hr.priv_ge (by decide)))
    hno hread (taken_etime c 0x0100 s) rfl
  exact ⟨t, ht, hdone.completed, hdone.frame (SameRegs.taken c 0x0100 [] s), (Quiet.taken c 0x0100 s).trans hdone.rest.quiet⟩

/-- Settles O28: the read of the low half holds the high half in the latch, which its read returns. -/
theorem pairReadsAreConsistent : Obligations.PairReadsAreConsistent := by
  unfold Obligations.PairReadsAreConsistent
  intro c ch s hc hr hcross
  exact ⟨countLoRead_answers hc hr hcross, countHiRead_answers hc hr hcross⟩

/-! ### A window write that makes a substitution active (R313, R320) -/

/-- READY, with two bars of one nozzle each at column 0, bar 1 the twin of bar 0, the low half of entry 0 of bar 0 written, and FSP
at FACTORY. -/
def twinBars : State :=
  State.reset.onCore fun c =>
    ({ c with press := { c.press with segBar := [(0, 0), (1, 1)], nozzles := [(0, 1), (8, 1)] }
              lo := [(0x1000000, 1)] } : Core).wrs
      [(SYS_BOOT.STATE, 7), (CMDQ_PRIV.FSP, 3), (GEO_PRESS.BAR_MASK, 3), (GEO_CFG.TWIN, 1)]
/-- FSP's REG_WRITE. -/
def fspWrite : Call := ⟨.fsp, 0, 0, 0, false, false, 0, 0, 8, 0, 0, none, ⟨[], [], none⟩⟩

theorem twinBars_ready : twinBars.field.core.bootState = 7 ∧ twinBars.field.core.imagoDead = false ∧
    twinBars.field.core.fspBusy = false ∧ twinBars.field.core.priv .fsp = 3 ∧ twinBars.field.core.rd SYS_LOCK.CFG_LOCK = 0 ∧
    twinBars.field.core.press.stages = [] ∧ twinBars.field.core.csv.stages = [] ∧
    mget 0 twinBars.field.core.lo 0x1000000 = 1 ∧ twinBars.field.core.rd GEO_TWIN_RX.COUNT 1 = 0 := by decide +kernel
theorem fspWrite_runs {op need : Nat} (hneed : need ≤ 3) : Runs fspWrite op need twinBars := by
  obtain ⟨hboot, hdead, hfsp, hpriv, -⟩ := twinBars_ready
  refine ⟨hboot, ⟨hdead, hfsp⟩, rfl, ?_⟩
  rw [show fspWrite.src = .fsp from rfl, hpriv]
  unfold needBy
  split <;> omega
/-- DEAD and TWIN of the entry make bar 1 a receiver. -/
theorem twinBars_substitutes :
    (match exec (.nozzleWindowWrite fspWrite 0 0 true 0x9000) twinBars with
      | .next t => t.field.core.rd GEO_TWIN_RX.COUNT 1
      | _ => 0) = 1 := by decide +kernel

/-- Refutes O27: its last clause lets a window write change no register but those of commands and the log, where one that sets or
clears DEAD, MASKED or TWIN rebuilds the receive tables (R320). At `twinBars` it makes a substitution active, and
GEO_TWIN_RX.COUNT of bar 1 goes from 0 to 1. -/
theorem not_screeningRegistersAct : ¬ Obligations.ScreeningRegistersAct := by
  unfold Obligations.ScreeningRegistersAct
  intro h
  obtain ⟨-, -, -, -, hlock, hstages, hservo, hlow, hnone⟩ := twinBars_ready
  obtain ⟨-, -, -, hwindow⟩ := h fspWrite twinBars (fspWrite_runs (by decide)) (fspWrite_runs (by decide)) hlock
  obtain ⟨t, ht, -, -, -, hframe⟩ := hwindow 0 0 0 0x9000 ⟨rfl, rfl, rfl, rfl, rfl, rfl, rfl⟩ hstages hservo (by decide)
    (by decide) hlow
  have hone := twinBars_substitutes
  rw [ht] at hone
  have hsame := hframe.regs GEO_TWIN_RX.COUNT 1 (by decide)
  exact absurd (hone.symm.trans (hsame.trans hnone)) (by decide)

/-! ### Tone curves (R310) -/

/-- The first address of `regWriteSpecial`'s chain to hold `a`, as far as the data of TONE is concerned: none. -/
def toneAddr (a : Nat) : Bool :=
  [POS_CFG.TYPE, POS_WRAP.WRAP, POS_IDX_CFG.MODE, POS_PRESET_LO.PRESET, POS_PRESET_HI.PRESET, POS_WEB_CTL.RETURN, ER_CFG.MODE,
   PWR_PF_CFG.PF_LEVEL, CMP_CO_CFG.POL, SPG_LPC_LO.LPC, SPG_LPC_HI.LPC, SPG_CFG.LEAD, SPG_RUNWAY_WARN.LINES,
   SPG_RUNWAY_MIN.LINES, HLK_CFG.EN, HLK_LVL_MAP.W1, CSV_CAM_DELAY_LO.DELAY, CSV_CAM_DELAY_HI.DELAY, CSVB_GLIM.GMIN, CAM_CFG.ER,
   ISP_BLACK_RG.RED, ISP_BLACK_B.BLUE, CAM_EXP.EXP, MEM_CFG.RANK_CLR, THM_EXCL.TS, FIJ_CFG.LIVE_OK, LOG_VIOL_CTL.CLR,
   SCR_MASK_DATA.DATA].all fun f => !isAt f a
theorem toneAddr_facts : ∀ h : Fin 192, ∀ a ∈ [HDC_TONE_DATA.VALUE.addr h.val, HDC_TONE_CTL.COMMIT.addr h.val],
    atRegister a = true ∧ readPriv a ≤ 1 ∧ writePriv a ≤ 2 ∧ regCrossing a = none ∧ toneAddr a = true ∧ isLatched a = false ∧
      (0xC0000 ≤ a ∧ a < 0xCC000 ∧ (a - 0xC0000) / 256 = h.val) := by decide +kernel
theorem toneAddr_at : ∀ h : Fin 192, HDC_TONE_DATA.VALUE.at? (HDC_TONE_DATA.VALUE.addr h.val) = some h.val ∧
    HDC_TONE_DATA.VALUE.at? (HDC_TONE_CTL.COMMIT.addr h.val) = none ∧
    HDC_TONE_CTL.COMMIT.at? (HDC_TONE_CTL.COMMIT.addr h.val) = some h.val ∧
    HDC_TONE_CTL.COPY.addr h.val = HDC_TONE_CTL.COMMIT.addr h.val := by decide +kernel
/-- Of an address that none of those registers holds, the tone data port and the tone control decide first. -/
theorem regWriteSpecial_tone {a v : Nat} {s : Core} (ha : toneAddr a = true) :
    (∀ h, HDC_TONE_DATA.VALUE.at? a = some h → regWriteSpecial a v s = some (toneWrite h v s)) ∧
    (∀ h, HDC_TONE_DATA.VALUE.at? a = none → HDC_TONE_CTL.COMMIT.at? a = some h → regWriteSpecial a v s = some (toneCtl h v s)) := by
  simp only [toneAddr, List.all_cons, List.all_nil, Bool.and_true, Bool.and_eq_true, Bool.not_eq_true'] at ha
  obtain ⟨h1, h2, h3, h4, h5, h6, h7, h8, h9, h10, h11, h12, h13, h14, h15, h16, h17, h18, h19, h20, h21, h22, h23, h24, h25, h26,
    h27, h28⟩ := ha
  unfold regWriteSpecial
  rw [h1, h2, h3, h4, h5, h6, h7, h8, h9, h10, h11, h12, h13, h14, h15, h16, h17, h18, h19, h20, h21, h22, h23, h24, h25,
    h26, h27, h28]
  refine ⟨fun h hdata => ?_, fun h hdata hctl => ?_⟩
  · rw [hdata]
    rfl
  · rw [hdata, hctl]
    rfl
theorem regWriteSpecial_toneData (h : Fin 192) (v : Nat) (s : Core) :
    regWriteSpecial (HDC_TONE_DATA.VALUE.addr h.val) v s = some (toneWrite h.val v s) := by
  obtain ⟨-, -, -, -, hchain, -⟩ := toneAddr_facts h _ List.mem_cons_self
  exact (regWriteSpecial_tone hchain).1 _ (toneAddr_at h).1
theorem regWriteSpecial_toneCtl (h : Fin 192) (v : Nat) (s : Core) :
    regWriteSpecial (HDC_TONE_CTL.COMMIT.addr h.val) v s = some (toneCtl h.val v s) := by
  obtain ⟨-, -, -, -, hchain, -⟩ := toneAddr_facts h _ (List.mem_cons_of_mem _ List.mem_cons_self)
  obtain ⟨-, hdata, hctl, -⟩ := toneAddr_at h
  exact (regWriteSpecial_tone hchain).2 _ hdata hctl
theorem Core.barAbsentAt_outside {s : Core} {base stride a : Nat} (h : base + 8 * stride ≤ a ∨ a < base) :
    s.barAbsentAt base stride a = false := by
  unfold Core.barAbsentAt
  rcases h with h | h
  · rw [decide_eq_false (by omega : ¬ a < base + 8 * stride), Bool.and_false, Bool.false_and]
  · rw [decide_eq_false (by omega : ¬ base ≤ a), Bool.false_and, Bool.false_and]
theorem Core.linkAbsentAt_outside {s : Core} {a : Nat} (h : 0xA6000 ≤ a ∨ a < 0xA0000) : s.linkAbsentAt a = false := by
  unfold Core.linkAbsentAt
  rcases h with h | h
  · rw [decide_eq_false (by omega : ¬ a < 0xA6000), Bool.and_false, Bool.false_and]
  · rw [decide_eq_false (by omega : ¬ 0xA0000 ≤ a), Bool.false_and, Bool.false_and]
theorem Core.present_head {s : Core} {a h : Nat} (ha : 0xC0000 ≤ a ∧ a < 0xCC000 ∧ (a - 0xC0000) / 256 = h)
    (hpresent : s.headPresent h = true) : s.absentAt a = false := by
  obtain ⟨hlo, hhi, rfl⟩ := ha
  rw [Core.absentAt, hpresent, Core.linkAbsentAt_outside (by omega), Core.barAbsentAt_outside (by omega),
    Core.barAbsentAt_outside (by omega), Core.barAbsentAt_outside (by omega), Core.barAbsentAt_outside (by omega),
    Core.barAbsentAt_outside (by omega), Core.barAbsentAt_outside (by omega)]
  simp

/-- An address of the tone registers of a present head is read and written there. -/
theorem toneRegister {c : Call} {op : Nat} {h : Fin 192} {s : State} {a : Nat} (ha : a ∈ [HDC_TONE_DATA.VALUE.addr h.val, HDC_TONE_CTL.COMMIT.addr h.val])
    (hpresent : s.field.core.headPresent h.val = true) (hlock : s.field.core.rd SYS_LOCK.CFG_LOCK = 0) (v : Nat) :
    s.field.core.regTimedOut a = false ∧ s.field.core.absentAt a = false ∧ (s.taken c op).field.core.Writes a v := by
  obtain ⟨-, -, -, hcrossing, -, -, hhead⟩ := toneAddr_facts h a ha
  have hcross : ∀ x : Core, x.regTimedOut a = false := fun x => by
    unfold Core.regTimedOut
    rw [hcrossing]
  exact ⟨hcross _, Core.present_head hhead hpresent, hcross _, (taken_absentAt c op s a).trans (Core.present_head hhead hpresent),
    taken_unlocked hlock a v⟩

theorem taken_tone (c : Call) (op : Nat) (s : State) (h b i : Nat) : (s.taken c op).field.core.tone h b i = s.field.core.tone h b i := by
  unfold Core.tone
  rw [taken_press]
theorem taken_servoOwns (c : Call) (op : Nat) (s : State) (h : Nat) : (s.taken c op).field.core.servoOwns h = s.field.core.servoOwns h := by
  have hbar : (s.taken c op).field.core.barOf h = s.field.core.barOf h := by
    unfold Core.barOf Core.segBar
    rw [taken_press]
  have hbelow : ∀ k ∈ inFlightKeys, k < 2 ^ 23 := by decide
  have hkey : ∀ n, CSVB_MODE.MODE.key n ∉ inFlightKeys := fun n hm => by
    have := hbelow _ hm
    simp only [Fld.key, Fld.addr, CSVB_MODE.MODE, fN] at this
    omega
  unfold Core.servoOwns
  rw [hbar, rd_taken _ _ _ _ _ (hkey _)]

theorem Core.tone_setTone (s : Core) (h b i v : Nat) : (s.setTone h b i v).tone h b i = v % 4096 := mget_mset _ _ _ _
theorem Core.tone_setTone_ne {s : Core} {h b i h' b' j : Nat} (v : Nat) (hne : toneKey h' b' j ≠ toneKey h b i) :
    (s.setTone h b i v).tone h' b' j = s.tone h' b' j := mget_mset_ne _ _ hne
theorem Core.tone_nextTone (s : Core) (h h' b i : Nat) : (s.nextTone h).tone h' b i = s.tone h' b i := rfl
theorem Core.tone_foldl_setTone {h b j : Nat} (g : Nat → Nat) (l : List Nat) (s : Core) :
    (l.foldl (fun s i => s.setTone h b i (g i)) s).tone h b j = if j ∈ l then g j % 4096 else s.tone h b j := by
  induction l generalizing s with
  | nil => rfl
  | cons i l ih =>
    rw [List.foldl_cons, ih]
    by_cases hmem : j ∈ l
    · rw [if_pos hmem, if_pos (List.mem_cons_of_mem _ hmem)]
    · rw [if_neg hmem]
      by_cases hij : j = i
      · rw [if_pos (by simp [hij]), hij, Core.tone_setTone]
      · rw [if_neg (by simp [hij, hmem]), Core.tone_setTone_ne _ (by unfold toneKey; omega)]
/-- COPY: every entry of the shadow is that of the active curve. -/
theorem Core.tone_setCurve_curve (s : Core) (h : Nat) {i : Nat} (hi : i < 256) :
    (s.setCurve h 1 (s.curve h 0)).tone h 1 i = s.tone h 0 i % 4096 := by
  unfold Core.setCurve
  rw [Core.tone_foldl_setTone, if_pos (List.mem_range.2 hi)]
  have hget : (s.curve h 0).getD i 0 = s.tone h 0 i := by
    simp [Core.curve, hi]
  rw [hget]
theorem Core.setCurve_within (s : Core) (h b : Nat) (l : List Nat) : Within [] [.press] s (s.setCurve h b l) :=
  (Within.refl _ _ s).foldl _ fun i _ s => (Within.refl _ _ s).press _

theorem Finished.press {x c : Core} (h : Finished x c) : c.press = x.press := by
  unfold Finished at h
  rw [h]
theorem Finished.tone {x c : Core} (hx : Finished x c) (h b i : Nat) : c.tone h b i = x.tone h b i := by
  unfold Core.tone
  rw [hx.press]

theorem toneKeys_free : ∀ h : Fin 192, ∀ f ∈ [HDC_TONE_IDX.IDX, HDC_TONE_IDX.BANK, HDC_TONE_CTL.PENDING],
    f.key h.val ∉ commandKeys := by decide +kernel
theorem rd_taken_tone {c : Call} {op : Nat} {s : State} (h : Fin 192) (f : Fld)
    (hf : f ∈ [HDC_TONE_IDX.IDX, HDC_TONE_IDX.BANK, HDC_TONE_CTL.PENDING]) :
    (s.taken c op).field.core.rd f h.val = s.field.core.rd f h.val :=
  rd_taken _ _ _ _ _ fun hm => toneKeys_free h f hf (inFlightKeys_subset hm)
theorem toneDataRead_answers {c : Call} {h : Fin 192} {s : State} (hc : CleanHeader c 4) (hr : Runs c 0x0100 1 s)
    (hpresent : s.field.core.headPresent h.val = true) (hlock : s.field.core.rd SYS_LOCK.CFG_LOCK = 0) :
    Answers (.toneDataAccess c h none) s fun t =>
      Completed c 0x0100 0 (s.field.core.tone h.val (s.field.core.rd HDC_TONE_IDX.BANK h.val)
        (s.field.core.rd HDC_TONE_IDX.IDX h.val) % 2 ^ 128) s t ∧
      t.field.core.rd HDC_TONE_IDX.IDX h.val = (s.field.core.rd HDC_TONE_IDX.IDX h.val + 1) % 256 ∧
      CommandFrame c 0x0100 [HDC_TONE_IDX.IDX.key h.val] s t ∧ Quiet s.field.core t.field.core := by
  obtain ⟨hat, hpriv, -, -, -, hlatched, -⟩ := toneAddr_facts h _ List.mem_cons_self
  obtain ⟨hcross, habsent, hw⟩ := toneRegister (c := c) (op := 0x0100) List.mem_cons_self hpresent hlock 0
  have htaken := SameRegs.taken c 0x0100 [HDC_TONE_IDX.IDX.key h.val] s
  have hidx := rd_taken_tone (c := c) (op := 0x0100) (s := s) h HDC_TONE_IDX.IDX (by decide)
  have hbank := rd_taken_tone (c := c) (op := 0x0100) (s := s) h HDC_TONE_IDX.BANK (by decide)
  have hread : regRead (HDC_TONE_DATA.VALUE.addr h.val) (s.taken c 0x0100).field.core =
      toneRead h.val (s.taken c 0x0100).field.core := by
    unfold regRead
    rw [hw.crosses, hw.present, hlatched, (toneAddr_at h).1]
    rfl
  obtain ⟨t, ht, hdone⟩ := regRead_done (i := .toneDataAccess c h none) (a := HDC_TONE_DATA.VALUE.addr h.val) rfl hc hr hat
    (Nat.le_trans hpriv (hr.priv_ge (by decide))) hcross hread (taken_etime c 0x0100 s) rfl
  have hcompleted := hdone.completed
  rw [hidx, hbank, taken_tone] at hcompleted
  have hquiet := Quiet.taken c 0x0100 s
  generalize (s.taken c 0x0100).field.core = τ at *
  refine ⟨t, ht, hcompleted, ?_, hdone.frame fun f n hf => ?_, (hquiet.trans (Quiet.wr _ _ _ _)).trans hdone.rest.quiet⟩
  · rw [hdone.rd _ _ (toneKeys_free h _ (by decide)), Core.nextTone, Core.rd_wr, hidx]
    rfl
  · exact (Core.rd_wr_ne _ _ _ _ _ _ fun e => hf (by rw [e]; exact List.mem_append_right _ List.mem_cons_self)).trans (htaken f n hf)

theorem toneDataWrite_answers {c : Call} {h : Fin 192} {v : Word} {s : State} (hc : CleanHeader c 8) (hr : Runs c 0x0101 2 s)
    (hpresent : s.field.core.headPresent h.val = true) (hservo : s.field.core.servoOwns h.val = false)
    (hlock : s.field.core.rd SYS_LOCK.CFG_LOCK = 0) (hshadow : s.field.core.rd HDC_TONE_IDX.BANK h.val = 1) :
    Answers (.toneDataAccess c h (some v)) s fun t =>
      Completed c 0x0101 0 0 s t ∧
      t.field.core.tone h.val 1 (s.field.core.rd HDC_TONE_IDX.IDX h.val) = v.toNat % 4096 ∧
      (∀ i, i ≠ s.field.core.rd HDC_TONE_IDX.IDX h.val → t.field.core.tone h.val 1 i = s.field.core.tone h.val 1 i) ∧
      t.field.core.rd HDC_TONE_IDX.IDX h.val = (s.field.core.rd HDC_TONE_IDX.IDX h.val + 1) % 256 ∧
      CommandFrame c 0x0101 [HDC_TONE_IDX.IDX.key h.val] s t := by
  obtain ⟨hat, -, hpriv, -⟩ := toneAddr_facts h _ List.mem_cons_self
  obtain ⟨-, -, hw⟩ := toneRegister (c := c) (op := 0x0101) List.mem_cons_self hpresent hlock v.toNat
  have htaken := SameRegs.taken c 0x0101 [HDC_TONE_IDX.IDX.key h.val] s
  have hidx := rd_taken_tone (c := c) (op := 0x0101) (s := s) h HDC_TONE_IDX.IDX (by decide)
  have hbank := rd_taken_tone (c := c) (op := 0x0101) (s := s) h HDC_TONE_IDX.BANK (by decide)
  have htone := taken_tone c 0x0101 s h.val 1
  have hact : regAct (HDC_TONE_DATA.VALUE.addr h.val) v.toNat (s.taken c 0x0101).field.core =
      (.ok 0, ((s.taken c 0x0101).field.core.setTone h.val 1 (s.field.core.rd HDC_TONE_IDX.IDX h.val) (v.toNat % 4096)).nextTone
        h.val) := by
    unfold regAct
    rw [regWriteSpecial_toneData, Option.getD_some]
    unfold toneWrite
    rw [Core.rdb, hbank, hshadow, taken_servoOwns, hservo, hidx, if_neg (by decide)]
  obtain ⟨t, ht, hdone⟩ := regWrite_done (i := .toneDataAccess c h (some v)) rfl hc hr hat
    (Nat.le_trans hpriv (hr.priv_ge (by decide))) hw hact (.inl ⟨0, rfl⟩) (taken_etime c 0x0101 s) rfl
  generalize (s.taken c 0x0101).field.core = τ at *
  refine ⟨t, ht, hdone.completed, ?_, fun i hi => ?_, ?_, hdone.frame fun f n hf => ?_⟩
  · rw [hdone.rest.tone, Core.tone_nextTone, Core.tone_setTone, Nat.mod_mod]
  · rw [hdone.rest.tone, Core.tone_nextTone, Core.tone_setTone_ne _ (by unfold toneKey; omega), htone]
  · rw [hdone.rd _ _ (toneKeys_free h _ (by decide)), Core.nextTone, Core.rd_wr, ← hidx]
    rfl
  · exact (Core.rd_wr_ne _ _ _ _ _ _ fun e => hf (by rw [e]; exact List.mem_append_right _ List.mem_cons_self)).trans (htaken f n hf)

theorem toneCtl_commit {h : Nat} {s : Core} (hservo : s.servoOwns h = false) : toneCtl h 1 s = (.ok 0, s.wr HDC_TONE_CTL.PENDING 1 h) := by
  unfold toneCtl
  rw [hservo]
  rfl
theorem toneCtl_copy {h : Nat} {s : Core} (hservo : s.servoOwns h = false) (hidle : s.rd HDC_TONE_CTL.PENDING h = 0) :
    toneCtl h 2 s = (.ok 0, s.setCurve h 1 (s.curve h 0)) := by
  have hcopy : s.toneCopy h = s.setCurve h 1 (s.curve h 0) := by
    unfold Core.toneCopy
    rw [Core.rdb, hidle]
    rfl
  unfold toneCtl
  rw [hservo]
  exact congrArg (Prod.mk (Reply.ok 0)) hcopy
theorem toneCtlCommit_answers {c : Call} {h : Fin 192} {s : State} (hc : CleanHeader c 8) (hr : Runs c 0x0101 2 s)
    (hpresent : s.field.core.headPresent h.val = true) (hservo : s.field.core.servoOwns h.val = false)
    (hlock : s.field.core.rd SYS_LOCK.CFG_LOCK = 0) :
    Answers (.toneCtlCommit c h) s fun t =>
      Completed c 0x0101 0 0 s t ∧ t.field.core.rd HDC_TONE_CTL.PENDING h.val = 1 ∧
      CommandFrame c 0x0101 [HDC_TONE_CTL.PENDING.key h.val] s t ∧ Quiet s.field.core t.field.core := by
  have hmem : HDC_TONE_CTL.COMMIT.addr h.val ∈ [HDC_TONE_DATA.VALUE.addr h.val, HDC_TONE_CTL.COMMIT.addr h.val] :=
    List.mem_cons_of_mem _ List.mem_cons_self
  obtain ⟨hat, -, hpriv, -⟩ := toneAddr_facts h _ hmem
  obtain ⟨-, -, hw⟩ := toneRegister (c := c) (op := 0x0101) hmem hpresent hlock 1
  have htaken := SameRegs.taken c 0x0101 [HDC_TONE_CTL.PENDING.key h.val] s
  have hact : regAct (HDC_TONE_CTL.COMMIT.addr h.val) 1 (s.taken c 0x0101).field.core =
      (.ok 0, (s.taken c 0x0101).field.core.wr HDC_TONE_CTL.PENDING 1 h.val) := by
    unfold regAct
    rw [regWriteSpecial_toneCtl, Option.getD_some]
    exact toneCtl_commit ((taken_servoOwns c 0x0101 s h.val).trans hservo)
  obtain ⟨t, ht, hdone⟩ := regWrite_done (i := .toneCtlCommit c h) rfl hc hr hat
    (Nat.le_trans hpriv (hr.priv_ge (by decide))) hw hact (.inl ⟨0, rfl⟩) (taken_etime c 0x0101 s) rfl
  have hquiet := Quiet.taken c 0x0101 s
  generalize (s.taken c 0x0101).field.core = τ at *
  refine ⟨t, ht, hdone.completed, ?_, hdone.frame fun f n hf => ?_, (hquiet.trans (Quiet.wr _ _ _ _)).trans hdone.rest.quiet⟩
  · rw [hdone.rd _ _ (toneKeys_free h _ (by decide)), Core.rd_wr]
    rfl
  · exact (Core.rd_wr_ne _ _ _ _ _ _ fun e => hf (by rw [e]; exact List.mem_append_right _ List.mem_cons_self)).trans (htaken f n hf)
theorem toneCtlCopy_answers {c : Call} {h : Fin 192} {s : State} (hc : CleanHeader c 8) (hr : Runs c 0x0101 2 s)
    (hpresent : s.field.core.headPresent h.val = true) (hservo : s.field.core.servoOwns h.val = false)
    (hlock : s.field.core.rd SYS_LOCK.CFG_LOCK = 0) (hidle : s.field.core.rd HDC_TONE_CTL.PENDING h.val = 0) :
    Answers (.toneCtlCopy c h) s fun t =>
      Completed c 0x0101 0 0 s t ∧
      (∀ i, i < 256 → t.field.core.tone h.val 1 i = s.field.core.tone h.val 0 i % 4096) ∧ CommandFrame c 0x0101 [] s t := by
  have hmem : HDC_TONE_CTL.COMMIT.addr h.val ∈ [HDC_TONE_DATA.VALUE.addr h.val, HDC_TONE_CTL.COMMIT.addr h.val] :=
    List.mem_cons_of_mem _ List.mem_cons_self
  obtain ⟨hat, -, hpriv, -⟩ := toneAddr_facts h _ hmem
  obtain ⟨-, -, hw⟩ := toneRegister (c := c) (op := 0x0101) hmem hpresent hlock 2
  have htaken := SameRegs.taken c 0x0101 [] s
  have htone := taken_tone c 0x0101 s h.val 0
  have hact : regAct (HDC_TONE_CTL.COMMIT.addr h.val) 2 (s.taken c 0x0101).field.core =
      (.ok 0, (s.taken c 0x0101).field.core.setCurve h.val 1 ((s.taken c 0x0101).field.core.curve h.val 0)) := by
    unfold regAct
    rw [regWriteSpecial_toneCtl, Option.getD_some]
    exact toneCtl_copy ((taken_servoOwns c 0x0101 s h.val).trans hservo)
      ((rd_taken_tone h HDC_TONE_CTL.PENDING (by decide)).trans hidle)
  have hset := Core.setCurve_within (s.taken c 0x0101).field.core h.val 1 ((s.taken c 0x0101).field.core.curve h.val 0)
  obtain ⟨t, ht, hdone⟩ := regWrite_done (i := .toneCtlCopy c h) rfl hc hr hat
    (Nat.le_trans hpriv (hr.priv_ge (by decide))) hw hact (.inl ⟨0, rfl⟩)
    ((hset.parts .etime (by decide)).trans (taken_etime c 0x0101 s)) (hset.parts .answers (by decide))
  refine ⟨t, ht, hdone.completed, fun i hi => ?_, hdone.frame fun f n hf => (hset.regs f n List.not_mem_nil).trans (htaken f n hf)⟩
  rw [hdone.rest.tone, Core.tone_setCurve_curve _ _ hi, htone]

/-- Settles O26: the tone data port and the tone control of a head, each read or written on the state that counts the command. -/
theorem toneRegistersReachTheShadow : Obligations.ToneRegistersReachTheShadow := by
  unfold Obligations.ToneRegistersReachTheShadow
  intro c h s hw hr hpresent hservo hlock
  refine ⟨fun hc => toneDataRead_answers hc hr hpresent hlock, fun v hc hshadow => ?_,
    fun hc => toneCtlCommit_answers hc hw hpresent hservo hlock, fun hc hidle => toneCtlCopy_answers hc hw hpresent hservo hlock hidle⟩
  obtain ⟨t, ht, hdone, hset, hother, hrest⟩ := toneDataWrite_answers (v := v) hc hw hpresent hservo hlock hshadow
  exact ⟨t, ht, hdone, hset, fun i hi _ => .inl (hother i hi), hrest⟩

end Sys2Proof.Machine
end

section
/-! PROOF. Position channels: what a counting step leaves as it was, edges, index marks, faults, the web's source and the registers
that act on a channel (spec/08_position_channels.md R338 to R365). -/

namespace Sys2Proof.Machine

set_option Elab.async false

/-! ### A sample without movement (R343, R346) -/

/-- READY, PC2 of type sin/cos with a modulus of 10 and a count of 12, which no step leaves there. -/
def countPastWrap : State :=
  State.reset.onCore fun c => (c.wr SYS_BOOT.STATE 7).wrs [(POS_CFG.TYPE, 3), (POS_WRAP.WRAP, 10), (POS_COUNT_LO.COUNT, 12)] 2
theorem countPastWrap_sound : countPastWrap.field.core.bootState ≠ 1 ∧ countPastWrap.field.core.pos.cmp.pool = [] ∧
    countPastWrap.field.core.spg.markers = [] ∧ countPastWrap.field.core.rd POS_STATUS.FAULT 2 = 0 ∧
    countPastWrap.field.core.rd POS_CFG.REVERSE 2 = 0 ∧ countPastWrap.field.core.rd POS_CFG.TYPE 2 = 3 ∧
    countPastWrap.field.core.posCount 2 = 12 ∧ countPastWrap.field.core.srcMod 2 = 10 ∧
    countPastWrap.field.core.rd POS_STATUS.INTERP8 2 = 0 := by decide +kernel
/-- No movement, no new count. -/
theorem countPastWrap_stays :
    (match exec (.sincosPhaseStep 2 ⟨0, 0, 0⟩) countPastWrap with
      | .next t => t.field.core.posCount 2
      | _ => 0) = 12 := by decide +kernel

/-- Refutes O31: a sin/cos sample that moves by no step leaves the count alone, and the statement has it reduced by the modulus.
At `countPastWrap` the count stays 12, not 2. -/
theorem not_otherChannelsCount : ¬ Obligations.OtherChannelsCount := by
  unfold Obligations.OtherChannelsCount
  intro h
  obtain ⟨hb, hpool, hmarkers, hfault, hrev, hty, hcount, hmod, hinterp⟩ := countPastWrap_sound
  obtain ⟨-, hsincos, -⟩ := h 2 countPastWrap hb ⟨hpool, hmarkers⟩ hfault hrev
  obtain ⟨t, ht, -, -, -, -, -, hstep, -⟩ := hsincos 0 0 0 hty
  have hstays := countPastWrap_stays
  rw [ht] at hstays
  have hreduced : t.field.core.posCount 2 = (((12 : Nat) + (0 : BitVec 16).toInt) % (10 : Nat)).toNat :=
    hstep.trans (by
      change (((countPastWrap.field.core.posCount 2 : Int) + (if countPastWrap.field.core.rd POS_STATUS.INTERP8 2 = 0 then _ else _)) %
        (countPastWrap.field.core.srcMod 2 : Int)).toNat = _
      rw [hcount, hmod, hinterp, if_pos rfl])
  exact absurd (hstays.symm.trans hreduced) (by decide)

/-! ### What the repeaters do (R364, R365) -/

/-- Only the repeaters' records differ. -/
def Repeats (a b : Core) : Prop := b = { a with pos := { a.pos with er := b.pos.er } }

section
variable {a b c : Core}

theorem Repeats.refl : Repeats a a := rfl
theorem Repeats.trans (hab : Repeats a b) (hbc : Repeats b c) : Repeats a c := by
  unfold Repeats at *
  rw [hbc, hab]
theorem Repeats.setEr (e : Nat) (x : ErSt) : Repeats a (a.setEr e x) := rfl
theorem Repeats.ite {p : Prop} [Decidable p] (hb : p → Repeats a b) (hc : ¬ p → Repeats a c) : Repeats a (if p then b else c) := by
  split
  · exact hb ‹_›
  · exact hc ‹_›
theorem Repeats.erLevel (e : Nat) : Repeats a (a.erLevel e) := .ite (fun _ => .setEr _ _) fun _ => .setEr _ _
theorem Repeats.erLevels : Repeats a a.erLevels := (Repeats.erLevel 0).trans (.erLevel 1)
theorem Repeats.erDrain (e : Nat) : Repeats a (a.erDrain e) :=
  .ite (fun _ => .setEr _ _) fun _ => .ite (fun _ => .refl) fun _ => .setEr _ _
theorem Repeats.erSettle : Repeats a a.erSettle := (Repeats.erDrain 0).trans (.erDrain 1)
theorem Repeats.erIndex (ch : Nat) : Repeats a (a.erIndex ch) := by
  have hone : ∀ (x : Core) (e : Nat), Repeats x (if
      (x.rd ER_CFG.SRC e == ch || (decide (x.rd ER_CFG.SRC e ≥ 2) && x.rd POS_WEB_STATUS.SRC == ch)) && x.rdb ER_CFG.Z_EN e &&
        x.erSynth e && !x.erHeld e then (x.erDrain e).setEr e { (x.erDrain e).er e with z := true } else x) := fun x e =>
    .ite (fun _ => (Repeats.erDrain e).trans (.setEr _ _)) fun _ => .refl
  exact (hone a 0).trans (hone _ 1)
theorem Repeats.regs (h : Repeats a b) : b.regs = a.regs := by
  unfold Repeats at h
  rw [h]
theorem Repeats.rd (h : Repeats a b) (f : Fld) (n : Nat) : b.rd f n = a.rd f n := Core.rd_congr h.regs f n
theorem Repeats.rdb (h : Repeats a b) (f : Fld) (n : Nat) : b.rdb f n = a.rdb f n := by
  unfold Core.rdb
  rw [h.rd]
theorem Repeats.pc (h : Repeats a b) (ch : Nat) : b.pc ch = a.pc ch := by
  unfold Repeats at h
  rw [h]
  rfl
theorem Repeats.within (h : Repeats a b) : Within [] [.pos] a b := by
  unfold Repeats at h
  rw [h]
  exact (Within.refl _ _ a).pos _
end

/-! ### What counts do at the repeaters and at the web (R359, R361, R365) -/

/-- The registers that counts of a channel may change at the repeaters and at the web. -/
def feedKeys : List Nat :=
  [POS_WEB_COUNT_LO.COUNT.key 0, POS_WEB_COUNT_HI.COUNT.key 0, ER_OVR_CNT.ER0.key 0, ER_OVR_CNT.ER1.key 0,
   LOG_EVT_OVWR_CNT.COUNT.key 0]
/-- Beside them, events, free values and the records of the repeaters and of the web, nothing differs. -/
structure Feeds (a b : Core) : Prop where
  regs : SameRegs feedKeys a b
  rest : b = { a with
    regs := b.regs, limits := b.limits, free := b.free
    cmdq := { a.cmdq with events := b.cmdq.events, fifo := b.cmdq.fifo, evSeq := b.cmdq.evSeq }
    pos := { a.pos with er := b.pos.er, web := b.pos.web } }

section
variable {a b c : Core}

theorem Feeds.refl : Feeds a a := ⟨.refl _ _, rfl⟩
theorem Feeds.trans (hab : Feeds a b) (hbc : Feeds b c) : Feeds a c := by
  obtain ⟨hr, hab⟩ := hab
  obtain ⟨hs, hbc⟩ := hbc
  refine ⟨hr.trans hs, ?_⟩
  rw [hbc, hab]
theorem Feeds.of_repeats (h : Repeats a b) : Feeds a b := by
  refine ⟨.of_regs h.regs, ?_⟩
  unfold Repeats at h
  rw [h]
theorem Feeds.of_quietEvents (hr : SameRegs feedKeys a b) (h : QuietEvents a b) : Feeds a b := by
  refine ⟨hr, ?_⟩
  unfold QuietEvents at h
  rw [h]
theorem Feeds.ite {p : Prop} [Decidable p] (hb : p → Feeds a b) (hc : ¬ p → Feeds a c) : Feeds a (if p then b else c) := by
  split
  · exact hb ‹_›
  · exact hc ‹_›
theorem Feeds.wr {f : Fld} {n : Nat} (v : Nat) (hk : f.key n ∈ feedKeys := by decide) : Feeds a (a.wr f v n) :=
  ⟨(SameRegs.refl _ a).wr v hk, rfl⟩
theorem Feeds.emit (code data tag : Nat) : Feeds a (a.emit code data tag) :=
  .of_quietEvents ((SameRegs.refl _ a).emit _ _ _) (.emit _ _ _ _)
theorem Feeds.setWeb (w : WebSt) : Feeds a { a with pos := { a.pos with web := w } } := ⟨.of_regs rfl, rfl⟩
theorem Feeds.erCounts (e : Nat) (d : Int) : Feeds a (a.erCounts e d) := by
  unfold Core.erCounts
  refine .ite (fun _ => .refl) fun _ => ?_
  extract_lets s x div k acc full n drop t
  have ht : Feeds a t := .of_repeats (((Repeats.erDrain e).trans (.setEr _ _)).trans (.erDrain e))
  clear_value t
  refine .ite (fun _ => ht) fun _ => (ht.trans ?_).trans (.emit _ _ _)
  split
  · exact Feeds.wr _
  · exact Feeds.wr _
theorem Feeds.erFeed (src : Nat) (d : Int) : Feeds a (a.erFeed src d) := by
  have hone : ∀ (x : Core) (e : Nat), Feeds x (if x.rd ER_CFG.SRC e = src then x.erCounts e d else x) := fun x e =>
    .ite (fun _ => .erCounts e d) fun _ => .refl
  exact .ite (fun _ => .refl) fun _ => (hone a 0).trans (hone _ 1)
theorem Feeds.writeWeb (v : Int) : Feeds a (a.writeWeb v) :=
  ((Feeds.wr _).trans (Feeds.wr _)).trans (.erFeed 2 _)
theorem Feeds.pc1Web (d : Int) : Feeds a (a.pc1Web d).2 := by
  unfold Core.pc1Web
  extract_lets r t
  split
  · exact ⟨.of_regs rfl, rfl⟩
  · exact .setWeb _
theorem Feeds.webSteps (ch : Nat) (d : Int) : Feeds a (a.webSteps ch d) := by
  unfold Core.webSteps
  refine .ite (fun _ => .refl) fun _ => ?_
  extract_lets w latched pos x
  have hx : Feeds a x := .setWeb latched
  clear_value x
  exact .ite (fun _ => hx) fun _ => .ite (fun _ => hx.trans (.writeWeb _)) fun _ => hx.trans ((Feeds.pc1Web d).trans (.writeWeb _))
theorem Feeds.restartWindow (lose : Bool) : Feeds a (a.restartWindow lose) := .setWeb _
theorem Feeds.ch (h : Feeds a b) : b.pos.ch = a.pos.ch := by rw [h.rest]
theorem Feeds.pc (h : Feeds a b) (ch : Nat) : b.pc ch = a.pc ch := by
  unfold Core.pc
  rw [h.ch]
theorem Feeds.cmp (h : Feeds a b) : b.pos.cmp = a.pos.cmp := by rw [h.rest]
theorem Feeds.spg (h : Feeds a b) : b.spg = a.spg := by rw [h.rest]
theorem Feeds.etime (h : Feeds a b) : b.etime = a.etime := by rw [h.rest]
theorem Feeds.due (h : Feeds a b) (ha : NothingDue a) : NothingDue b := ⟨(congrArg CmpSt.pool h.cmp).trans ha.1, (congrArg SpgSt.markers h.spg).trans ha.2⟩
end

/-! ### Counts (R346) -/

theorem Core.srcMod_bounds (s : Core) (ch : Fin 8) : 0 < s.srcMod ch.val ∧ s.srcMod ch.val ≤ 2 ^ 48 := by
  have hwrap : s.rd POS_WRAP.WRAP ch.val < 2 ^ 32 := Core.rd_lt _ _ _
  unfold Core.srcMod
  rw [if_neg ch.isLt.ne]
  dsimp only
  split <;> split <;> omega
theorem countKeys_ne : ∀ ch : Fin 8, POS_COUNT_LO.COUNT.key ch.val ≠ POS_COUNT_HI.COUNT.key ch.val := by decide
theorem Core.rd2_wr2 (s : Core) {lo hi : Fld} {v n : Nat} (hne : lo.key n ≠ hi.key n) (hlo : lo.width = 32)
    (hv : v < 2 ^ (32 + hi.width)) : (s.wr2 lo hi v n).rd2 lo hi n = v := by
  unfold Core.rd2 Core.wr2
  rw [Core.rd_wr_ne _ _ _ _ _ _ hne, Core.rd_wr, Core.rd_wr, hlo, Nat.mod_mod, Nat.mod_eq_of_lt
    (show v / 2 ^ 32 < 2 ^ hi.width by rw [Nat.div_lt_iff_lt_mul (by decide), ← Nat.pow_add, Nat.add_comm]; exact hv)]
  exact Nat.mod_add_div v (2 ^ 32)
theorem emod_toNat_lt (v : Int) {m : Nat} (h : 0 < m) : (v % (m : Int)).toNat < m := by
  have := Int.emod_lt_of_pos v (Int.natCast_pos.2 h)
  have := Int.emod_nonneg v (Int.natCast_pos.2 h).ne'
  omega
theorem Core.posCount_setCount (s : Core) (ch : Fin 8) (v : Int) :
    (s.setCount ch.val v).posCount ch.val = (v % (s.srcMod ch.val : Int)).toNat := by
  obtain ⟨hpos, hle⟩ := s.srcMod_bounds ch
  exact Core.rd2_wr2 s (countKeys_ne ch) rfl (Nat.lt_of_lt_of_le (emod_toNat_lt v hpos) hle)
theorem SameRegs.posCount {ks : List Nat} {a b : Core} {ch : Nat} (h : SameRegs ks a b) (hlo : POS_COUNT_LO.COUNT.key ch ∉ ks)
    (hhi : POS_COUNT_HI.COUNT.key ch ∉ ks) : b.posCount ch = a.posCount ch := by
  unfold Core.posCount Core.rd2
  rw [h _ _ hlo, h _ _ hhi]
theorem SameRegs.srcMod {ks : List Nat} {a b : Core} {ch : Nat} (h : SameRegs ks a b) (hk : POS_WRAP.WRAP.key ch ∉ ks) :
    b.srcMod ch = a.srcMod ch := by
  unfold Core.srcMod
  rw [h _ _ hk]

/-! ### A counting step (R346, R352) -/

theorem Core.pc_wr (s : Core) (f : Fld) (v n ch : Nat) : (s.wr f v n).pc ch = s.pc ch := rfl
theorem SameRegs.setPc {ks : List Nat} {a b : Core} (h : SameRegs ks a b) (ch : Nat) (x : PosCh) : SameRegs ks a (b.setPc ch x) := h

/-- The registers that show the timing of a channel's steps. -/
def timingKeys (ch : Nat) : List Nat := [POS_STATUS.STILL.key ch, POS_STATUS.DIR.key ch, POS_PERIOD.NS.key ch]
theorem timingKeys_count : ∀ ch : Fin 8, POS_COUNT_LO.COUNT.key ch.val ∉ timingKeys ch.val ++ feedKeys ++ [SPG_STATUS.MOVING.key 0] ∧
    POS_COUNT_HI.COUNT.key ch.val ∉ timingKeys ch.val ++ feedKeys ++ [SPG_STATUS.MOVING.key 0] := by decide
theorem timingKeys_subset : ∀ ch : Fin 8, timingKeys ch.val ++ feedKeys ++ [SPG_STATUS.MOVING.key 0] ⊆
    POS_STATUS.STILL.key ch.val :: stepKeys ch.val := by decide
/-- The records of a channel's steps and the ratio window change, of the channel's record only what times its steps. -/
structure TimedStep (ch : Nat) (d : Int) (t : Nat) (a b : Core) : Prop where
  regs : SameRegs (timingKeys ch) a b
  rest : b = { a with regs := b.regs, pos := { a.pos with ch := b.pos.ch, web := b.pos.web } }
  pc : ∃ r, b.pc ch = { a.pc ch with lastStep := some t, winN := (a.pc ch).winN + 1, winRev := r, steps := (a.pc ch).steps + d }
theorem Core.endStill_rest (s : Core) (ch : Nat) : SameRegs [POS_STATUS.STILL.key ch] s (s.endStill ch) ∧
    s.endStill ch = { s with regs := (s.endStill ch).regs, pos := { s.pos with web := (s.endStill ch).pos.web } } ∧
    ∀ k, (s.endStill ch).pc k = s.pc k := by
  have hwr : SameRegs [POS_STATUS.STILL.key ch] s (s.wr POS_STATUS.STILL 0 ch) := (SameRegs.refl _ s).wr _ List.mem_cons_self
  unfold Core.endStill
  split
  · exact ⟨.refl _ _, rfl, fun _ => rfl⟩
  · dsimp only
    split
    · exact ⟨hwr, rfl, fun _ => rfl⟩
    · exact ⟨hwr, rfl, fun _ => rfl⟩
theorem Core.stepTiming_timed (s : Core) (ch : Nat) (d : Int) (t : Nat) : TimedStep ch d t s (s.stepTiming ch d t) := by
  obtain ⟨hregs, hrest, hpc⟩ := s.endStill_rest ch
  unfold Core.stepTiming
  extract_lets e x back timed
  have he : SameRegs (timingKeys ch) s e := hregs.mono (by simp [timingKeys])
  have hrest' : e = { s with regs := e.regs, pos := { s.pos with web := e.pos.web } } := hrest
  have hx : x = s.pc ch := hpc ch
  clear_value e x
  subst hx
  split
  · refine ⟨((he.wr _ (by simp [timingKeys])).wr _ (by simp [timingKeys])).setPc _ _, ?_, true, Core.pc_setPc _ _ _⟩
    rw [hrest']
    rfl
  · have htimed : SameRegs (timingKeys ch) s timed ∧ timed = { e with regs := timed.regs } := by
      unfold timed
      split
      · exact ⟨he.wr _ (by simp [timingKeys]), rfl⟩
      · exact ⟨he, rfl⟩
    obtain ⟨htr, hto⟩ := htimed
    clear_value timed
    refine ⟨htr.setPc _ _, ?_, (s.pc ch).winRev, Core.pc_setPc _ _ _⟩
    rw [hto, hrest']
    rfl

/-- What counting a step by `d` does to the channel: its count, its record, and which registers else change. -/
structure Counted (ch : Nat) (d : Int) (s t : Core) : Prop where
  count : t.posCount ch = (((s.posCount ch : Int) + d) % (s.srcMod ch : Int)).toNat
  pc : ∃ l n r, t.pc ch = { s.pc ch with lastStep := l, winN := n, winRev := r, steps := (s.pc ch).steps + d }
  regs : SameRegs (POS_STATUS.STILL.key ch :: stepKeys ch) s t
  etime : t.etime = s.etime
  cmp : t.pos.cmp = s.pos.cmp
  spg : t.spg = s.spg
theorem stepKeys_blocks : ∀ ch : Fin 8, ∀ k ∈ POS_STATUS.STILL.key ch.val :: stepKeys ch.val, k / 2 ^ 21 ∈ [0x0E, 0x11, 0x12, 0x1B] := by
  decide
theorem Core.stepCounted_counted (s : Core) (ch : Fin 8) (d : Int) (t : Nat) : Counted ch.val d s (s.stepCounted ch.val d t) := by
  unfold Core.stepCounted
  have hcount := s.posCount_setCount ch (s.posCount ch.val + d)
  have hset : SameRegs (POS_STATUS.STILL.key ch.val :: stepKeys ch.val) s (s.setCount ch.val (s.posCount ch.val + d)) :=
    ((SameRegs.refl _ s).wr _ (by simp [stepKeys])).wr _ (by simp [stepKeys])
  have hsetRest : (s.setCount ch.val (s.posCount ch.val + d)).pos = s.pos ∧
      (s.setCount ch.val (s.posCount ch.val + d)).etime = s.etime ∧ (s.setCount ch.val (s.posCount ch.val + d)).spg = s.spg :=
    ⟨rfl, rfl, rfl⟩
  generalize s.setCount ch.val (s.posCount ch.val + d) = x at *
  extract_lets a b c
  obtain ⟨hxpos, hxtime, hxspg⟩ := hsetRest
  obtain ⟨haRegs, haRest, r, haPc⟩ : TimedStep ch.val d t x a := x.stepTiming_timed ch.val d t
  have hb : Feeds a b := .ite (fun _ => .erFeed _ _) fun _ => .refl
  have hc : Feeds a c := hb.trans (.webSteps _ _)
  clear_value a b c
  obtain ⟨hlo, hhi⟩ := timingKeys_count ch
  have hfed : SameRegs (timingKeys ch.val ++ feedKeys ++ [SPG_STATUS.MOVING.key 0]) x
      (c.wr SPG_STATUS.MOVING (b2n (!c.rdb POS_STATUS.STILL (c.rd POS_WEB_STATUS.SRC)))) :=
    (((haRegs.mono (by simp)).trans (hc.regs.mono (by simp))).wr _ (by simp))
  have hpc : x.pc ch.val = s.pc ch.val := by
    unfold Core.pc
    rw [hxpos]
  refine ⟨(hfed.posCount hlo hhi).trans hcount, ⟨some t, (x.pc ch.val).winN + 1, r, ?_⟩, hset.trans (hfed.mono ?_),
    hc.etime.trans ((by rw [haRest] : a.etime = x.etime).trans hxtime),
    hc.cmp.trans ((by rw [haRest] : a.pos.cmp = x.pos.cmp).trans (by rw [hxpos])),
    hc.spg.trans ((by rw [haRest] : a.spg = x.spg).trans hxspg)⟩
  · rw [Core.pc_wr, hc.pc, haPc, hpc]
  · exact timingKeys_subset ch

/-! ### Quadrature edges (R341, R364) -/

theorem Core.er_setEr (s : Core) (e : Nat) (x : ErSt) : (s.setEr e x).er e = x := mget_mset _ _ _ _
theorem Core.er_setEr_ne (s : Core) {e k : Nat} (x : ErSt) (h : k ≠ e) : (s.setEr e x).er k = s.er k := mget_mset_ne _ _ h
theorem Core.erLevel_er_ne (s : Core) {e k : Nat} (h : k ≠ e) : (s.erLevel e).er k = s.er k := by
  unfold Core.erLevel
  split
  · exact s.er_setEr_ne _ h
  · exact s.er_setEr_ne _ h
/-- A repeater in PASS shows what its source has received. -/
theorem Core.erLevel_er_pass {s : Core} {e : Nat} (hpass : s.erPass e = true) (hheld : s.erHeld e = false) :
    ((s.erLevel e).er e).a = (s.pc (s.rd ER_CFG.SRC e)).inA ∧ ((s.erLevel e).er e).b = (s.pc (s.rd ER_CFG.SRC e)).inB := by
  have hmode : s.rd ER_CFG.MODE e = 1 := by
    simp only [Core.erPass, Bool.and_eq_true, beq_iff_eq] at hpass
    exact hpass.1.1.1
  unfold Core.erLevel
  rw [if_neg (by rw [hmode]; decide), Core.er_setEr, hpass, hheld]
  exact ⟨rfl, rfl⟩
theorem Repeats.erPass {a b : Core} (h : Repeats a b) (e : Nat) : b.erPass e = a.erPass e := by
  unfold Core.erPass
  rw [h.rd, h.rd, h.rd, h.rd]
theorem Repeats.erHeld {a b : Core} (h : Repeats a b) (e : Nat) : b.erHeld e = a.erHeld e := by
  unfold Core.erHeld Core.faulted
  rw [h.rd, h.rdb, h.rdb]
theorem Core.erLevels_er_pass {s : Core} {e : Fin 2} (hpass : s.erPass e.val = true) (hheld : s.erHeld e.val = false) :
    (s.erLevels.er e.val).a = (s.pc (s.rd ER_CFG.SRC e.val)).inA ∧ (s.erLevels.er e.val).b = (s.pc (s.rd ER_CFG.SRC e.val)).inB := by
  unfold Core.erLevels
  have hfirst : Repeats s (s.erLevel 0) := .erLevel 0
  rcases Fin.exists_fin_two.1 ⟨e, rfl⟩ with rfl | rfl
  · rw [Core.erLevel_er_ne _ (by decide)]
    exact Core.erLevel_er_pass hpass hheld
  · have := Core.erLevel_er_pass (s := s.erLevel 0) (e := 1) ((hfirst.erPass 1).trans hpass) ((hfirst.erHeld 1).trans hheld)
    rwa [hfirst.rd, hfirst.pc] at this

/-- A and B as the input shows them. -/
def Core.levelsIn (s : Core) (ch : Nat) (a b : Bool) : Core := (s.setPc ch { s.pc ch with inA := a, inB := b }).erLevels
theorem Core.levelsIn_regs (s : Core) (ch : Nat) (a b : Bool) : (s.levelsIn ch a b).regs = s.regs := Repeats.erLevels.regs
theorem doQuadEdge_short {s : Core} {ch held : Nat} {a b : Bool} (hheld : held < filtNs (s.rd POS_CFG.FILT ch)) :
    doQuadEdge ch a b held none s = s.levelsIn ch a b := by
  unfold doQuadEdge
  simp only [decide_eq_false (Nat.not_le.2 hheld), Bool.false_eq_true, if_false, Bool.not_false, if_true]
  rfl
theorem quadEdge_answers {ch : Fin 8} {a b : Bool} {held : Byte} {s : State} {P : State → Prop} (hboot : s.field.core.bootState ≠ 1)
    (h : P (s.onCore (doQuadEdge ch.val a b held.toNat none))) : Answers (.quadEdge ch a b ⟨held, none⟩) s P :=
  answers_of_onRunning (g := doQuadEdge ch.val a b held.toNat none) rfl hboot h
theorem shortEdge_answers {ch : Fin 8} {a b : Bool} {held : Byte} {s : State} (hboot : s.field.core.bootState ≠ 1)
    (hheld : held.toNat < filtNs (s.field.core.rd POS_CFG.FILT ch.val)) :
    Answers (.quadEdge ch a b ⟨held, none⟩) s fun t =>
      t.field.core.regs = s.field.core.regs ∧ (t.field.core.pc ch.val).a = (s.field.core.pc ch.val).a ∧
      (t.field.core.pc ch.val).b = (s.field.core.pc ch.val).b ∧ (t.field.core.pc ch.val).steps = (s.field.core.pc ch.val).steps ∧
      (∀ e : Fin 2, s.field.core.erPass e.val = true → s.field.core.erHeld e.val = false →
        s.field.core.rd ER_CFG.SRC e.val = ch.val → (t.field.core.er e.val).a = a ∧ (t.field.core.er e.val).b = b) ∧
      CoreOnly s t := by
  refine quadEdge_answers hboot ?_
  have hcore : (s.onCore (doQuadEdge ch.val a b held.toNat none)).field.core = s.field.core.levelsIn ch.val a b :=
    doQuadEdge_short hheld
  have honly := CoreOnly.onCore s (doQuadEdge ch.val a b held.toNat none)
  rw [hcore]
  have hpc : ∀ k, (s.field.core.levelsIn ch.val a b).pc k = (s.field.core.setPc ch.val _).pc k := Repeats.erLevels.pc
  refine ⟨Core.levelsIn_regs _ _ _ _, ?_, ?_, ?_, fun e hpass hheld hsrc => ?_, honly⟩
  · rw [hpc, Core.pc_setPc]
  · rw [hpc, Core.pc_setPc]
  · rw [hpc, Core.pc_setPc]
  · obtain ⟨ha, hb⟩ := Core.erLevels_er_pass
      (s := s.field.core.setPc ch.val { s.field.core.pc ch.val with inA := a, inB := b }) (e := e) hpass hheld
    have hsource : (s.field.core.setPc ch.val { s.field.core.pc ch.val with inA := a, inB := b }).rd ER_CFG.SRC e.val = ch.val := hsrc
    rw [hsource, Core.pc_setPc] at ha hb
    exact ⟨ha, hb⟩

theorem Core.edgeSeen_regs (s : Core) (ch : Nat) (a b : Bool) : (s.edgeSeen ch a b).regs = s.regs := Repeats.erLevels.regs
theorem Core.edgeSeen_rest (s : Core) (ch : Nat) (a b : Bool) : (s.edgeSeen ch a b).pos.cmp = s.pos.cmp ∧
    (s.edgeSeen ch a b).spg = s.spg ∧
    (s.edgeSeen ch a b).pc ch = { s.pc ch with a := a, b := b, inA := a, inB := b } := by
  have hrep : Repeats (s.setPc ch { s.pc ch with a := a, b := b, inA := a, inB := b }) (s.edgeSeen ch a b) := .erLevels
  refine ⟨?_, ?_, (hrep.pc ch).trans (Core.pc_setPc _ _ _)⟩
  · unfold Repeats at hrep
    rw [hrep]
    rfl
  · unfold Repeats at hrep
    rw [hrep]
    rfl
/-- An edge that holds for the filter's width: what its levels do on a quadrature channel. -/
theorem doQuadEdge_long {s : Core} {ch held : Nat} {a b : Bool} (hty : s.rd POS_CFG.TYPE ch = 1)
    (hheld : filtNs (s.rd POS_CFG.FILT ch) ≤ held) :
    doQuadEdge ch a b held none s =
      if (s.pc ch).a ≠ a ∧ (s.pc ch).b ≠ b then (s.edgeSeen ch a b).quadErr ch
      else if (s.pc ch).a ≠ a then (s.edgeSeen ch a b).posStep ch (if a != b then 1 else -1)
      else if (s.pc ch).b ≠ b then (s.edgeSeen ch a b).posStep ch (if a == b then 1 else -1)
      else s.edgeSeen ch a b := by
  have hquad : ¬ (s.edgeSeen ch a b).rd POS_CFG.TYPE ch ≠ 1 :=
    not_not.2 ((Core.rd_congr (s.edgeSeen_regs ch a b) _ _).trans hty)
  unfold doQuadEdge
  simp only [hheld, decide_true, if_true, Bool.not_true, Bool.false_eq_true, if_false]
  exact if_neg hquad
/-- The edge counts a step by `d`, as its sense goes. -/
theorem Core.edgeSeen_step {s : Core} {ch : Fin 8} {a b : Bool} {d : Int} (hd : d ≠ 0) (hdue : NothingDue s)
    (hfault : s.rd POS_STATUS.FAULT ch.val = 0) :
    Counted ch.val ((if s.rd POS_CFG.REVERSE ch.val = 0 then 1 else -1) * d) (s.edgeSeen ch.val a b)
      ((s.edgeSeen ch.val a b).posStep ch.val d) := by
  obtain ⟨hcmp, hspg, -⟩ := s.edgeSeen_rest ch.val a b
  have hregs := s.edgeSeen_regs ch.val a b
  have hturn : (if (s.edgeSeen ch.val a b).rdb POS_CFG.REVERSE ch.val = true then -d else d) =
      (if s.rd POS_CFG.REVERSE ch.val = 0 then 1 else -1) * d := by
    rw [Core.rdb, Core.rd_congr hregs]
    by_cases h : s.rd POS_CFG.REVERSE ch.val = 0
    · simp [h]
    · simp [h]
  rw [Core.posStep, Core.posStepAt_of_nothingDue hd (Core.rdb_eq_false ((Core.rd_congr hregs _ _).trans hfault))
    ⟨by rw [hcmp]; exact hdue.1, by rw [hspg]; exact hdue.2⟩, hturn]
  exact Core.stepCounted_counted _ ch _ _

/-- The registers an edge of a quadrature channel may change. -/
theorem quadErr_keys : ∀ ch : Fin 8, POS_COUNT_LO.COUNT.key ch.val ∉ [POS_ERR_CNT.QUAD.key ch.val, POS_STATUS.SUSPECT.key ch.val] ∧
    POS_COUNT_HI.COUNT.key ch.val ∉ [POS_ERR_CNT.QUAD.key ch.val, POS_STATUS.SUSPECT.key ch.val] ∧
    POS_ERR_CNT.QUAD.key ch.val ≠ POS_STATUS.SUSPECT.key ch.val ∧
    ∀ k ∈ [POS_ERR_CNT.QUAD.key ch.val, POS_STATUS.SUSPECT.key ch.val], k / 2 ^ 21 ∈ [0x0E, 0x11, 0x12, 0x1B] := by decide
theorem Core.quadErr_spec (s : Core) (ch : Fin 8) :
    (s.quadErr ch.val).posCount ch.val = s.posCount ch.val ∧ (s.quadErr ch.val).rd POS_STATUS.SUSPECT ch.val = 1 ∧
    (s.quadErr ch.val).rd POS_ERR_CNT.QUAD ch.val = satU POS_ERR_CNT.QUAD.width (s.rd POS_ERR_CNT.QUAD ch.val + 1) ∧
    SameOutside [0x0E, 0x11, 0x12, 0x1B] s (s.quadErr ch.val) ∧ (s.quadErr ch.val).pc = s.pc := by
  obtain ⟨hlo, hhi, hne, hblocks⟩ := quadErr_keys ch
  have hregs : SameRegs [POS_ERR_CNT.QUAD.key ch.val, POS_STATUS.SUSPECT.key ch.val] s (s.quadErr ch.val) :=
    ((SameRegs.refl _ s).inc 1 (by simp)).wr 1 (by simp)
  refine ⟨hregs.posCount hlo hhi, Core.rd_wr _ _ _ _, ?_, hregs.outside hblocks, rfl⟩
  rw [Core.quadErr, Core.rd_wr_ne _ _ _ _ _ _ hne, Core.rd_inc_self]

theorem longEdge_answers {ch : Fin 8} {a b : Bool} {held : Byte} {s : State} (hboot : s.field.core.bootState ≠ 1)
    (hdue : NothingDue s.field.core) (hty : s.field.core.rd POS_CFG.TYPE ch.val = 1)
    (hfault : s.field.core.rd POS_STATUS.FAULT ch.val = 0) (hheld : filtNs (s.field.core.rd POS_CFG.FILT ch.val) ≤ held.toNat) :
    Answers (.quadEdge ch a b ⟨held, none⟩) s fun t =>
      let x := s.field.core.pc ch.val
      let turn : Int := if s.field.core.rd POS_CFG.REVERSE ch.val = 0 then 1 else -1
      (t.field.core.pc ch.val).a = a ∧ (t.field.core.pc ch.val).b = b ∧
      (x.a ≠ a → x.b = b → t.field.core.posCount ch.val =
        (((s.field.core.posCount ch.val : Int) + turn * (if a != b then 1 else -1)) % (s.field.core.srcMod ch.val : Int)).toNat) ∧
      (x.a = a → x.b ≠ b → t.field.core.posCount ch.val =
        (((s.field.core.posCount ch.val : Int) + turn * (if a == b then 1 else -1)) % (s.field.core.srcMod ch.val : Int)).toNat) ∧
      (x.a ≠ a → x.b ≠ b → t.field.core.posCount ch.val = s.field.core.posCount ch.val ∧
        t.field.core.rd POS_STATUS.SUSPECT ch.val = 1 ∧
        t.field.core.rd POS_ERR_CNT.QUAD ch.val =
          satU POS_ERR_CNT.QUAD.width (s.field.core.rd POS_ERR_CNT.QUAD ch.val + 1)) ∧
      (x.a = a → x.b = b → t.field.core.posCount ch.val = s.field.core.posCount ch.val) ∧
      SameOutside [0x0E, 0x11, 0x12, 0x1B] s.field.core t.field.core ∧ CoreOnly s t := by
  refine quadEdge_answers hboot ?_
  have hcore : (s.onCore (doQuadEdge ch.val a b held.toNat none)).field.core = doQuadEdge ch.val a b held.toNat none s.field.core := rfl
  have honly := CoreOnly.onCore s (doQuadEdge ch.val a b held.toNat none)
  rw [hcore, doQuadEdge_long hty hheld]
  generalize s.onCore (doQuadEdge ch.val a b held.toNat none) = t at *
  have hstep := fun d hd => Core.edgeSeen_step (a := a) (b := b) (d := d) hd hdue hfault
  obtain ⟨-, -, hpc⟩ := s.field.core.edgeSeen_rest ch.val a b
  have hregs : SameRegs [] s.field.core (s.field.core.edgeSeen ch.val a b) := .of_regs (Core.edgeSeen_regs _ _ _ _)
  have hcount := hregs.posCount (ch := ch.val) List.not_mem_nil List.not_mem_nil
  have hmod := hregs.srcMod (ch := ch.val) List.not_mem_nil
  have hquad := hregs POS_ERR_CNT.QUAD ch.val List.not_mem_nil
  have hout : SameOutside [0x0E, 0x11, 0x12, 0x1B] s.field.core (s.field.core.edgeSeen ch.val a b) := hregs.outside (by simp)
  generalize s.field.core.edgeSeen ch.val a b = e at *
  have hlevels : (e.pc ch.val).a = a ∧ (e.pc ch.val).b = b := by rw [hpc]; exact ⟨rfl, rfl⟩
  have hcounted : ∀ d, d ≠ 0 → ((e.posStep ch.val d).pc ch.val).a = a ∧ ((e.posStep ch.val d).pc ch.val).b = b ∧
      (e.posStep ch.val d).posCount ch.val = (((s.field.core.posCount ch.val : Int) +
        (if s.field.core.rd POS_CFG.REVERSE ch.val = 0 then 1 else -1) * d) % (s.field.core.srcMod ch.val : Int)).toNat ∧
      SameOutside [0x0E, 0x11, 0x12, 0x1B] s.field.core (e.posStep ch.val d) := fun d hd => by
    obtain ⟨hnew, ⟨l, n, r, hrec⟩, hkeys, -⟩ := hstep d hd
    rw [hcount, hmod] at hnew
    exact ⟨by rw [hrec]; exact hlevels.1, by rw [hrec]; exact hlevels.2, hnew, hout.trans (hkeys.outside (stepKeys_blocks ch))⟩
  dsimp only
  by_cases ha : (s.field.core.pc ch.val).a = a <;> by_cases hb : (s.field.core.pc ch.val).b = b
  · rw [if_neg (by simp [ha]), if_neg (by simp [ha]), if_neg (by simp [hb])]
    exact ⟨hlevels.1, hlevels.2, fun h => absurd ha h, fun _ h => absurd hb h, fun h => absurd ha h, fun _ _ => hcount, hout, honly⟩
  · rw [if_neg (by simp [ha]), if_neg (by simp [ha]), if_pos hb]
    obtain ⟨h1, h2, h3, h4⟩ := hcounted (if a == b then 1 else -1) (by split <;> decide)
    exact ⟨h1, h2, fun h => absurd ha h, fun _ _ => h3, fun h => absurd ha h, fun _ h => absurd h hb, h4, honly⟩
  · rw [if_neg (by simp [hb]), if_pos ha]
    obtain ⟨h1, h2, h3, h4⟩ := hcounted (if a != b then 1 else -1) (by split <;> decide)
    exact ⟨h1, h2, fun _ _ => h3, fun h => absurd h ha, fun _ h => absurd hb h, fun h => absurd h ha, h4, honly⟩
  · rw [if_pos ⟨ha, hb⟩]
    obtain ⟨h1, h2, h3, h4, h5⟩ := e.quadErr_spec ch
    rw [h5]
    exact ⟨hlevels.1, hlevels.2, fun _ h => absurd h hb, fun h => absurd h ha, fun _ _ => ⟨h1.trans hcount, h2, by rw [h3, hquad]⟩,
      fun h => absurd h ha, hout.trans h4, honly⟩

/-- Settles O30: an edge sets the levels; what it does beside them is a step, an error or nothing. -/
theorem quadratureEdgesCount : Obligations.QuadratureEdgesCount := by
  unfold Obligations.QuadratureEdgesCount
  intro ch a b held s hboot hdue hty hfault
  exact ⟨shortEdge_answers hboot, longEdge_answers hboot hdue hty hfault⟩

/-! ### Index marks (R354 to R357) -/

/-- An edge of the index, and the repeaters in PASS with it, before it is judged as an index. -/
def Core.indexSeen (s : Core) (ch : Nat) (rising : Bool) : Core := (s.setPc ch { s.pc ch with z := rising }).erLevels
theorem Core.indexSeen_regs (s : Core) (ch : Nat) (rising : Bool) : (s.indexSeen ch rising).regs = s.regs := Repeats.erLevels.regs
theorem Core.rd_indexSeen (s : Core) (ch : Nat) (rising : Bool) (f : Fld) (n : Nat) : (s.indexSeen ch rising).rd f n = s.rd f n :=
  Core.rd_congr (s.indexSeen_regs ch rising) f n
theorem Core.rdb_indexSeen (s : Core) (ch : Nat) (rising : Bool) (f : Fld) (n : Nat) : (s.indexSeen ch rising).rdb f n = s.rdb f n := by
  unfold Core.rdb
  rw [s.rd_indexSeen]
theorem Core.indexSeen_rest (s : Core) (ch : Nat) (rising : Bool) : (s.indexSeen ch rising).pos.cmp = s.pos.cmp ∧
    (s.indexSeen ch rising).etime = s.etime := by
  have hrep : Repeats (s.setPc ch { s.pc ch with z := rising }) (s.indexSeen ch rising) := .erLevels
  unfold Repeats at hrep
  exact ⟨by rw [hrep]; rfl, by rw [hrep]; rfl⟩
theorem Core.in2Driven_quad {s : Core} {ch : Nat} (hty : s.rd POS_CFG.TYPE ch = 1) : s.in2Driven ch = false := by
  rw [Core.in2Driven, hty]
  rfl
/-- The other edge of a mark is no index. -/
theorem doIndexEvent_other {s : Core} {ch : Nat} (hty : s.rd POS_CFG.TYPE ch = 1) :
    doIndexEvent ch (decide (s.rd POS_CFG.IDX_EDGE ch ≠ 0)) s = s.indexSeen ch (decide (s.rd POS_CFG.IDX_EDGE ch ≠ 0)) := by
  unfold doIndexEvent
  extract_lets ty x
  rw [Core.in2Driven_quad hty, if_neg (by decide)]
  refine if_pos (.inr (.inl (beq_iff_eq.2 ?_)))
  exact (s.rdb_eq_decide _ _).symm.trans (s.rdb_indexSeen ch _ _ _).symm
/-- The chosen edge of a quadrature channel without gating is an index. -/
theorem index_judged {s : Core} {ch : Nat} {x : PosCh} (hty : s.rd POS_CFG.TYPE ch = 1) (hgate : s.rd POS_CFG.IDX_GATE ch = 0) :
    ¬ ((s.rd POS_CFG.TYPE ch ≠ 1 ∧ s.rd POS_CFG.TYPE ch ≠ 3) ∨
      (decide (s.rd POS_CFG.IDX_EDGE ch = 0) ==
        (s.indexSeen ch (decide (s.rd POS_CFG.IDX_EDGE ch = 0))).rdb POS_CFG.IDX_EDGE ch) = true ∨
      (s.rd POS_CFG.TYPE ch = 1 ∧ (s.indexSeen ch (decide (s.rd POS_CFG.IDX_EDGE ch = 0))).rdb POS_CFG.IDX_GATE ch = true ∧
        !(x.a && x.b))) := by
  rw [s.rdb_indexSeen, s.rdb_indexSeen, s.rdb_eq_decide, Core.rdb_eq_false hgate, hty]
  simp
theorem Core.posCount_indexSeen (s : Core) (ch : Nat) (rising : Bool) (k : Nat) : (s.indexSeen ch rising).posCount k = s.posCount k := by
  unfold Core.posCount Core.rd2
  rw [s.rd_indexSeen, s.rd_indexSeen]
theorem doIndexEvent_back {s : Core} {ch : Nat} (hty : s.rd POS_CFG.TYPE ch = 1) (hgate : s.rd POS_CFG.IDX_GATE ch = 0)
    (hback : s.rd POS_STATUS.DIR ch = 1) :
    doIndexEvent ch (decide (s.rd POS_CFG.IDX_EDGE ch = 0)) s =
      (s.indexSeen ch (decide (s.rd POS_CFG.IDX_EDGE ch = 0))).logIndex ch (s.posCount ch) 8 := by
  have hdir : (s.indexSeen ch (decide (s.rd POS_CFG.IDX_EDGE ch = 0))).rdb POS_STATUS.DIR ch = true := by
    rw [s.rdb_indexSeen, Core.rdb_eq_true (by rw [hback]; decide)]
  unfold doIndexEvent
  extract_lets ty x
  rw [Core.in2Driven_quad hty, if_neg (by decide)]
  refine (if_neg (index_judged hty hgate)).trans ((if_pos hdir).trans ?_)
  rw [← s.posCount_indexSeen ch (decide (s.rd POS_CFG.IDX_EDGE ch = 0)) ch]
  rfl
/-- What an armed index in web direction writes, from the state that shows its edge. -/
def Core.armedIndex (s : Core) (ch : Nat) : Core :=
  let cap := s.posCount ch
  let preset := s.rd2 POS_PRESET_LO.PRESET POS_PRESET_HI.PRESET ch
  let s := (s.erIndex ch).logIndex ch cap 2
  let s := ((s.setPc ch { s.pc ch with ref := preset }).wr POS_STATUS.IDX_REF 1 ch).wrs
    [(POS_STATUS.IDX_ARMED, 0), (POS_STATUS.SUSPECT, 0)] ch
  (s.adjust ch preset).emit 0x0708 (ch + at_ 8 cap)
theorem doIndexEvent_armed {s : Core} {ch : Nat} (hty : s.rd POS_CFG.TYPE ch = 1) (hgate : s.rd POS_CFG.IDX_GATE ch = 0)
    (hforth : s.rd POS_STATUS.DIR ch = 0) (harmed : s.rd POS_STATUS.IDX_ARMED ch = 1) :
    doIndexEvent ch (decide (s.rd POS_CFG.IDX_EDGE ch = 0)) s =
      (s.indexSeen ch (decide (s.rd POS_CFG.IDX_EDGE ch = 0))).armedIndex ch := by
  have hdir : ¬ (s.indexSeen ch (decide (s.rd POS_CFG.IDX_EDGE ch = 0))).rdb POS_STATUS.DIR ch = true := by
    rw [s.rdb_indexSeen, Core.rdb_eq_false hforth]
    decide
  have harm : ((s.indexSeen ch (decide (s.rd POS_CFG.IDX_EDGE ch = 0))).erIndex ch).rdb POS_STATUS.IDX_ARMED ch = true := by
    rw [(Repeats.erIndex ch).rdb, s.rdb_indexSeen, Core.rdb_eq_true (by rw [harmed]; decide)]
  have hpreset : ((s.indexSeen ch (decide (s.rd POS_CFG.IDX_EDGE ch = 0))).erIndex ch).rd2 POS_PRESET_LO.PRESET POS_PRESET_HI.PRESET ch =
      (s.indexSeen ch (decide (s.rd POS_CFG.IDX_EDGE ch = 0))).rd2 POS_PRESET_LO.PRESET POS_PRESET_HI.PRESET ch := by
    unfold Core.rd2
    rw [(Repeats.erIndex ch).rd, (Repeats.erIndex ch).rd]
  unfold doIndexEvent
  extract_lets ty x
  rw [Core.in2Driven_quad hty, if_neg (by decide)]
  refine (if_neg (index_judged hty hgate)).trans ((if_neg hdir).trans ((if_pos harm).trans ?_))
  unfold Core.armedIndex
  rw [← hpreset]
  rfl

/-! ### The log of index marks (R357) -/

/-- What is written of an entry after its count, and the next entry's number. -/
def logTail (ch i : Nat) : List Nat :=
  [POS_IDXLOG_CNT_HI.COUNT.key (16 * ch + i), POS_IDXLOG_ETIME_LO.ETIME.key (16 * ch + i), POS_IDXLOG_ETIME_HI.ETIME.key (16 * ch + i),
   POS_IDXLOG_CNT_HI.UNEXPECTED.key (16 * ch + i), POS_IDXLOG_CNT_HI.ARMING.key (16 * ch + i),
   POS_IDXLOG_CNT_HI.CORRECTED.key (16 * ch + i), POS_IDXLOG_CNT_HI.REVERSE.key (16 * ch + i), POS_STATUS.IDX_NEXT.key ch]
/-- The registers that logging an index of a channel changes: those of the entry, and the number of the next. -/
def logKeys (ch i : Nat) : List Nat := POS_IDXLOG_CNT_LO.COUNT.key (16 * ch + i) :: logTail ch i
theorem logKeys_facts : ∀ (ch : Fin 8) (i : Fin 16), (logKeys ch.val i.val).Nodup ∧
    (∀ k ∈ logKeys ch.val i.val, k / 2 ^ 21 ∈ [0x0E, 0x11, 0x12, 0x1B]) ∧
    ∀ f ∈ [POS_COUNT_LO.COUNT, POS_COUNT_HI.COUNT, POS_STATUS.IDX_REF, POS_STATUS.IDX_ARMED, POS_STATUS.SUSPECT, POS_WRAP.WRAP],
      f.key ch.val ∉ logKeys ch.val i.val := by decide +kernel
theorem Core.logIndex_regs (s : Core) (ch cap flags : Nat) :
    SameRegs (logKeys ch (s.rd POS_STATUS.IDX_NEXT ch)) s (s.logIndex ch cap flags) := by
  refine SameRegs.wr (SameRegs.wrs ?_ fun p hp => ?_) _ (by simp [logKeys, logTail])
  · exact ((((SameRegs.refl _ s).wr _ (by simp [logKeys])).wr _ (by simp [logKeys, logTail])).wr _ (by simp [logKeys, logTail])).wr _
      (by simp [logKeys, logTail])
  · simp only [List.mem_cons, List.not_mem_nil, or_false] at hp
    rcases hp with rfl | rfl | rfl | rfl <;> simp [logKeys, logTail]
theorem Core.logIndex_rest (s : Core) (ch cap flags : Nat) : s.logIndex ch cap flags = { s with regs := (s.logIndex ch cap flags).regs } := rfl
theorem Core.logIndex_shows (s : Core) (ch : Fin 8) (cap flags : Nat) :
    let n := 16 * ch.val + s.rd POS_STATUS.IDX_NEXT ch.val
    (s.logIndex ch.val cap flags).rd POS_IDXLOG_CNT_LO.COUNT n = cap % 2 ^ 32 ∧
    (s.logIndex ch.val cap flags).rd POS_IDXLOG_ETIME_LO.ETIME n = s.etime % 2 ^ 32 ∧
    (s.logIndex ch.val cap flags).rd POS_IDXLOG_CNT_HI.REVERSE n = flags / 8 % 2 ∧
    (s.logIndex ch.val cap flags).rd POS_STATUS.IDX_NEXT ch.val = (s.rd POS_STATUS.IDX_NEXT ch.val + 1) % 16 := by
  intro n
  have hnext : s.rd POS_STATUS.IDX_NEXT ch.val < 16 := Core.rd_lt _ _ _
  obtain ⟨hnodup, -⟩ := logKeys_facts ch ⟨_, hnext⟩
  simp only [logKeys, logTail, List.nodup_cons, List.mem_cons, List.not_mem_nil, or_false, not_or] at hnodup
  obtain ⟨⟨a1, a2, a3, a4, a5, a6, a7, a8⟩, -, ⟨c3, c4, c5, c6, c7, c8⟩, -, -, -, -, g8, -⟩ := hnodup
  unfold Core.logIndex Core.wr2
  simp only [Core.wrs, List.foldl_cons, List.foldl_nil]
  refine ⟨?_, ?_, ?_, ?_⟩
  · rw [Core.rd_wr_ne _ _ _ _ _ _ a8, Core.rd_wr_ne _ _ _ _ _ _ a7, Core.rd_wr_ne _ _ _ _ _ _ a6, Core.rd_wr_ne _ _ _ _ _ _ a5,
      Core.rd_wr_ne _ _ _ _ _ _ a4, Core.rd_wr_ne _ _ _ _ _ _ a3, Core.rd_wr_ne _ _ _ _ _ _ a2, Core.rd_wr_ne _ _ _ _ _ _ a1,
      Core.rd_wr]
    exact Nat.mod_mod _ _
  · rw [Core.rd_wr_ne _ _ _ _ _ _ c8, Core.rd_wr_ne _ _ _ _ _ _ c7, Core.rd_wr_ne _ _ _ _ _ _ c6, Core.rd_wr_ne _ _ _ _ _ _ c5,
      Core.rd_wr_ne _ _ _ _ _ _ c4, Core.rd_wr_ne _ _ _ _ _ _ c3, Core.rd_wr]
    exact Nat.mod_mod _ _
  · rw [Core.rd_wr_ne _ _ _ _ _ _ g8, Core.rd_wr]
    exact Nat.mod_mod _ _
  · rw [Core.rd_wr]
    exact Nat.mod_mod _ _

/-! ### A count set by an index or a load (R347, R355, R372) -/

theorem Core.crossStep_of_empty {s : Core} (h : s.pos.cmp.pool = []) (src m prev : Nat) (d : Int) : s.crossStep src m prev d = s := by
  unfold Core.crossStep
  rw [h, Core.crossed_nil]
  dsimp only
  split
  · rfl
  · split <;> rfl
/-- With no entry pending the count is set, and the base of the speed moves with it. -/
theorem Core.adjust_of_empty {s : Core} (h : s.pos.cmp.pool = []) (ch : Nat) (target : Int) :
    ∃ b, s.adjust ch target = (s.setPc ch { s.pc ch with base := b }).setCount ch target := by
  unfold Core.adjust
  exact ⟨_, Core.crossStep_of_empty (s := (s.setPc ch _).setCount ch target) h _ _ _ _⟩
theorem natCast_emod_toNat (a m : Nat) : ((a : Int) % (m : Int)).toNat = a % m := by
  rw [← Int.natCast_mod, Int.toNat_natCast]
/-- The registers of a channel that a load or an armed index may change beside the log. -/
def adjustKeys (ch : Nat) : List Nat :=
  [POS_COUNT_LO.COUNT.key ch, POS_COUNT_HI.COUNT.key ch, POS_STATUS.IDX_REF.key ch, POS_STATUS.IDX_ARMED.key ch,
   POS_STATUS.SUSPECT.key ch]
theorem adjustKeys_facts : ∀ ch : Fin 8, (adjustKeys ch.val).Nodup ∧
    (∀ k ∈ adjustKeys ch.val, k / 2 ^ 21 ∈ [0x0E, 0x11, 0x12, 0x1B]) ∧ LOG_EVT_OVWR_CNT.COUNT.key 0 ∉ adjustKeys ch.val ∧
    POS_WRAP.WRAP.key ch.val ∉ adjustKeys ch.val ∧ POS_PRESET_LO.PRESET.key ch.val ∉ adjustKeys ch.val ∧
    POS_PRESET_HI.PRESET.key ch.val ∉ adjustKeys ch.val := by decide
theorem Core.adjust_spec {s : Core} (h : s.pos.cmp.pool = []) (ch : Fin 8) (preset : Nat) :
    (s.adjust ch.val preset).posCount ch.val = preset % s.srcMod ch.val ∧
    SameRegs [POS_COUNT_LO.COUNT.key ch.val, POS_COUNT_HI.COUNT.key ch.val] s (s.adjust ch.val preset) ∧
    s.adjust ch.val preset = { s with regs := (s.adjust ch.val preset).regs, pos := { s.pos with ch := (s.adjust ch.val preset).pos.ch } } := by
  obtain ⟨b, hb⟩ := Core.adjust_of_empty h ch.val preset
  rw [hb]
  refine ⟨(Core.posCount_setCount _ ch _).trans (natCast_emod_toNat _ _), ?_, rfl⟩
  exact (((SameRegs.refl _ s).setPc _ _).wr _ (by simp)).wr _ (by simp)
theorem Core.newest_emit (s : Core) (code data tag : Nat) : (s.emit code data tag).newest code = some (code, data % 2 ^ 128) := by
  have hmod : s.emit code (data % 2 ^ 128) tag = s.emit code data tag := by
    unfold Core.emit
    rw [Nat.mod_mod]
  rw [← hmod]
  exact (s.raised_emit code (data % 2 ^ 128) tag (Nat.mod_lt _ (by decide))).1
theorem Core.armedIndex_spec {s : Core} (h : s.pos.cmp.pool = []) (ch : Fin 8) :
    (s.armedIndex ch.val).posCount ch.val = s.rd2 POS_PRESET_LO.PRESET POS_PRESET_HI.PRESET ch.val % s.srcMod ch.val ∧
    (s.armedIndex ch.val).rd POS_STATUS.IDX_REF ch.val = 1 ∧ (s.armedIndex ch.val).rd POS_STATUS.IDX_ARMED ch.val = 0 ∧
    (s.armedIndex ch.val).newest 0x0708 = some (0x0708, (ch.val + at_ 8 (s.posCount ch.val)) % 2 ^ 128) ∧
    SameOutside [0x0E, 0x11, 0x12, 0x1B] s (s.armedIndex ch.val) := by
  have hnext : s.rd POS_STATUS.IDX_NEXT ch.val < 16 := Core.rd_lt _ _ _
  obtain ⟨-, hlogBlocks, hlogKeys⟩ := logKeys_facts ch ⟨_, hnext⟩
  obtain ⟨hnodup, hblocks, hover, hwrap, -, -⟩ := adjustKeys_facts ch
  unfold Core.armedIndex
  extract_lets cap preset l x m
  have hrep : Repeats s (s.erIndex ch.val) := .erIndex _
  have hl : SameRegs (logKeys ch.val (s.rd POS_STATUS.IDX_NEXT ch.val)) s l := by
    have := (s.erIndex ch.val).logIndex_regs ch.val cap 2
    rw [hrep.rd] at this
    exact (SameRegs.of_regs hrep.regs).trans this
  have hlpool : l.pos.cmp.pool = [] := by
    refine Eq.trans ?_ h
    unfold Repeats at hrep
    unfold l
    rw [Core.logIndex_rest, hrep]
  clear_value l
  have hm : SameRegs (adjustKeys ch.val) l m := by
    refine SameRegs.wrs ((SameRegs.setPc (SameRegs.refl _ l) _ _).wr 1 (by simp [adjustKeys])) fun p hp => ?_
    simp only [List.mem_cons, List.not_mem_nil, or_false] at hp
    rcases hp with rfl | rfl <;> simp [adjustKeys]
  have hmpool : m.pos.cmp.pool = [] := hlpool
  simp only [adjustKeys, List.nodup_cons, List.mem_cons, List.not_mem_nil, or_false, not_or] at hnodup
  obtain ⟨⟨-, a2, a3, -⟩, ⟨b2, b3, -⟩, ⟨c3, c4⟩, d4, -⟩ := hnodup
  have href : m.rd POS_STATUS.IDX_REF ch.val = 1 ∧ m.rd POS_STATUS.IDX_ARMED ch.val = 0 := by
    unfold m
    simp only [Core.wrs, List.foldl_cons, List.foldl_nil]
    rw [Core.rd_wr_ne _ _ _ _ _ _ c4, Core.rd_wr_ne _ _ _ _ _ _ c3, Core.rd_wr, Core.rd_wr_ne _ _ _ _ _ _ d4, Core.rd_wr]
    exact ⟨rfl, rfl⟩
  clear_value m
  obtain ⟨hcount, hregs, -⟩ := m.adjust_spec hmpool ch preset
  have hmod : m.srcMod ch.val = s.srcMod ch.val := (hm.srcMod hwrap).trans (hl.srcMod (hlogKeys POS_WRAP.WRAP (by decide)))
  have hne : ∀ k ∈ adjustKeys ch.val, k ≠ LOG_EVT_OVWR_CNT.COUNT.key 0 := fun k hk e => hover (e ▸ hk)
  have hemit : SameRegs [LOG_EVT_OVWR_CNT.COUNT.key 0] (m.adjust ch.val preset)
      ((m.adjust ch.val preset).emit 0x0708 (ch.val + at_ 8 cap)) := (SameRegs.refl _ _).emit _ _ _
  refine ⟨?_, ?_, ?_, Core.newest_emit _ _ _ _, ?_⟩
  · rw [hemit.posCount (by simpa using hne _ (by simp [adjustKeys])) (by simpa using hne _ (by simp [adjustKeys])), hcount, hmod]
  · rw [hemit _ _ (by simpa using hne _ (by simp [adjustKeys])), hregs _ _ (by simpa using ⟨Ne.symm a2, Ne.symm b2⟩)]
    exact href.1
  · rw [hemit _ _ (by simpa using hne _ (by simp [adjustKeys])), hregs _ _ (by simpa using ⟨Ne.symm a3, Ne.symm b3⟩)]
    exact href.2
  · refine (hl.outside hlogBlocks).trans ((hm.outside hblocks).trans (SameOutside.trans ?_ (hemit.outside (by decide))))
    exact (hregs.mono (by simp [adjustKeys] : _ ⊆ adjustKeys ch.val)).outside hblocks

/-- Settles O32: the edge is seen, and what it then does is nothing, an entry of the log, or the load of PRESET with one. -/
theorem indexMarksAreLoggedAndPreset : Obligations.IndexMarksAreLoggedAndPreset := by
  unfold Obligations.IndexMarksAreLoggedAndPreset
  intro ch s hboot hdue hty hgate _
  refine ⟨?_, fun hback => ?_, fun hforth harmed => ?_⟩
  · refine answers_of_onRunning (g := doIndexEvent ch.val (decide (s.field.core.rd POS_CFG.IDX_EDGE ch.val ≠ 0))) rfl hboot
      ⟨?_, CoreOnly.onCore s _⟩
    exact (congrArg Core.regs (doIndexEvent_other hty)).trans (Core.indexSeen_regs _ _ _)
  · refine answers_of_onRunning (g := doIndexEvent ch.val (decide (s.field.core.rd POS_CFG.IDX_EDGE ch.val = 0))) rfl hboot ?_
    have hcore : (s.onCore (doIndexEvent ch.val (decide (s.field.core.rd POS_CFG.IDX_EDGE ch.val = 0)))).field.core = _ :=
      doIndexEvent_back hty hgate hback
    have honly := CoreOnly.onCore s (doIndexEvent ch.val (decide (s.field.core.rd POS_CFG.IDX_EDGE ch.val = 0)))
    rw [hcore]
    generalize s.onCore (doIndexEvent ch.val (decide (s.field.core.rd POS_CFG.IDX_EDGE ch.val = 0))) = t at *
    have hseen := s.field.core.rd_indexSeen ch.val (decide (s.field.core.rd POS_CFG.IDX_EDGE ch.val = 0))
    obtain ⟨-, htime⟩ := s.field.core.indexSeen_rest ch.val (decide (s.field.core.rd POS_CFG.IDX_EDGE ch.val = 0))
    have hcount := s.field.core.posCount_indexSeen ch.val (decide (s.field.core.rd POS_CFG.IDX_EDGE ch.val = 0)) ch.val
    generalize s.field.core.indexSeen ch.val (decide (s.field.core.rd POS_CFG.IDX_EDGE ch.val = 0)) = e at *
    obtain ⟨hcnt, hetime, hrev, hnext⟩ := e.logIndex_shows ch (s.field.core.posCount ch.val) 8
    have hregs := e.logIndex_regs ch.val (s.field.core.posCount ch.val) 8
    rw [hseen] at hcnt hetime hrev hnext hregs
    obtain ⟨-, hblocks, hkeys⟩ := logKeys_facts ch ⟨_, Core.rd_lt s.field.core POS_STATUS.IDX_NEXT ch.val⟩
    refine ⟨(hregs.posCount (hkeys _ (by decide)) (hkeys _ (by decide))).trans hcount, hcnt, by rw [hetime, htime], hrev, hnext, ?_, honly⟩
    exact SameOutside.trans (fun f n _ => hseen f n) (hregs.outside hblocks)
  · refine answers_of_onRunning (g := doIndexEvent ch.val (decide (s.field.core.rd POS_CFG.IDX_EDGE ch.val = 0))) rfl hboot ?_
    have hcore : (s.onCore (doIndexEvent ch.val (decide (s.field.core.rd POS_CFG.IDX_EDGE ch.val = 0)))).field.core = _ :=
      doIndexEvent_armed hty hgate hforth harmed
    have honly := CoreOnly.onCore s (doIndexEvent ch.val (decide (s.field.core.rd POS_CFG.IDX_EDGE ch.val = 0)))
    rw [hcore]
    generalize s.onCore (doIndexEvent ch.val (decide (s.field.core.rd POS_CFG.IDX_EDGE ch.val = 0))) = t at *
    have hseen : SameRegs [] s.field.core (s.field.core.indexSeen ch.val (decide (s.field.core.rd POS_CFG.IDX_EDGE ch.val = 0))) :=
      .of_regs (Core.indexSeen_regs _ _ _)
    obtain ⟨hcmp, -⟩ := s.field.core.indexSeen_rest ch.val (decide (s.field.core.rd POS_CFG.IDX_EDGE ch.val = 0))
    generalize s.field.core.indexSeen ch.val (decide (s.field.core.rd POS_CFG.IDX_EDGE ch.val = 0)) = e at *
    obtain ⟨hcount, href, harm, hnewest, hout⟩ := e.armedIndex_spec (by rw [hcmp]; exact hdue.1) ch
    rw [hseen.srcMod List.not_mem_nil, Core.rd2, hseen _ _ List.not_mem_nil, hseen _ _ List.not_mem_nil] at hcount
    rw [hseen.posCount List.not_mem_nil List.not_mem_nil] at hnewest
    exact ⟨hcount, href, harm, hnewest, (hseen.outside (by simp)).trans hout, honly⟩

/-! ### A store, field by field (R32, R36) -/

theorem Core.rd_writeField_ne (s : Core) (v : Nat) (p : Fld × Nat) (f : Fld) (n : Nat) (h : f.key n ≠ p.1.key p.2) :
    (s.writeField v p).rd f n = s.rd f n := by
  unfold Core.writeField
  extract_lets x
  split
  · exact Core.rd_wr_ne _ _ _ _ _ _ h
  · exact Core.rd_wr_ne _ _ _ _ _ _ h
  · split
    · exact Core.rd_wr_ne _ _ _ _ _ _ h
    · rfl
  · split
    · exact Core.rd_wr_ne _ _ _ _ _ _ h
    · rfl
  · rfl
  · rfl
theorem Core.rd_foldl_writeField_ne (l : List (Fld × Nat)) (s : Core) (v : Nat) (f : Fld) (n : Nat)
    (h : ∀ p ∈ l, f.key n ≠ p.1.key p.2) : (l.foldl (fun s p => s.writeField v p) s).rd f n = s.rd f n := by
  induction l generalizing s with
  | nil => rfl
  | cons p l ih =>
    exact (ih _ fun q hq => h q (List.mem_cons_of_mem _ hq)).trans (s.rd_writeField_ne v p f n (h p List.mem_cons_self))
/-- A field that lies at no part of the register keeps its value. -/
theorem Core.rd_plainWrite_ne {s : Core} {a v : Nat} {f : Fld} {n : Nat} (h : ∀ p ∈ fieldsAt a, f.key n ≠ p.1.key p.2) :
    (s.plainWrite a v).rd f n = s.rd f n := Core.rd_foldl_writeField_ne _ _ _ _ _ h
/-- A writable field of the register takes its part of the word. -/
theorem Core.rd_plainWrite {s : Core} {a v n : Nat} {f : Fld} (hmem : (f, n) ∈ fieldsAt a) (hacc : f.acc = .rw)
    (hdis : (fieldsAt a).Pairwise fun p q => p.1.key p.2 ≠ q.1.key q.2) :
    (s.plainWrite a v).rd f n = fieldPart f v % 2 ^ f.width := by
  unfold Core.plainWrite
  generalize fieldsAt a = l at *
  induction l generalizing s with
  | nil => exact absurd hmem List.not_mem_nil
  | cons p l ih =>
    rw [List.pairwise_cons] at hdis
    rcases List.mem_cons.1 hmem with rfl | hmem
    · refine (Core.rd_foldl_writeField_ne l _ v f n fun q hq => hdis.1 q hq).trans ?_
      have hfield : s.writeField v (f, n) = s.wr f (fieldPart f v) n := by
        unfold Core.writeField
        simp only [hacc]
      exact (congrArg (fun x : Core => x.rd f n) hfield).trans (Core.rd_wr _ _ _ _)
    · exact ih hmem hdis.2

/-! ### A changed TYPE (R339) -/

/-- The fields that a changed TYPE puts back. -/
def typeFlds : List Fld :=
  [POS_SPEED.SPEED, POS_PERIOD.NS, POS_STATUS.IDX_REF, POS_STATUS.LOS, POS_STATUS.HALL_BAD, POS_STATUS.AMP, POS_STATUS.SSI,
   POS_STATUS.RATE, POS_STATUS.SUP]
theorem typeFlds_facts : ∀ ch : Fin 8, ∀ g ∈ typeFlds, resetOf g ch.val % 2 ^ g.width = 0 ∧
    (∀ f ∈ typeFlds, g.key ch.val ≠ f.key ch.val ∨ g = f) ∧ g.key ch.val ≠ POS_STATUS.INTERP8.key ch.val ∧
    g.key ch.val ≠ POS_STATUS.FAULT.key ch.val ∧ g.key ch.val ≠ LOG_EVT_OVWR_CNT.COUNT.key 0 ∧
    g.block ch.val = 0x0E ∧ POS_CFG.TYPE.key ch.val ≠ g.key ch.val ∧
    POS_COUNT_LO.COUNT.key ch.val ≠ g.key ch.val ∧ POS_COUNT_HI.COUNT.key ch.val ≠ g.key ch.val := by decide +kernel
theorem typeKeys_facts : ∀ ch : Fin 8, ∀ f ∈ [POS_CFG.TYPE, POS_COUNT_LO.COUNT, POS_COUNT_HI.COUNT],
    f.key ch.val ≠ POS_STATUS.INTERP8.key ch.val ∧ f.key ch.val ≠ POS_STATUS.FAULT.key ch.val ∧
    f.key ch.val ≠ LOG_EVT_OVWR_CNT.COUNT.key 0 := by decide
theorem typeCount_ne : ∀ ch : Fin 8, POS_CFG.TYPE.key ch.val ≠ POS_COUNT_LO.COUNT.key ch.val ∧
    POS_CFG.TYPE.key ch.val ≠ POS_COUNT_HI.COUNT.key ch.val := by decide
theorem faultKey_ne : ∀ ch : Fin 8, POS_STATUS.FAULT.key ch.val ≠ LOG_EVT_OVWR_CNT.COUNT.key 0 := by decide
theorem Core.refreshFault_of_late {s : Core} {ch : Nat} (hch : 2 ≤ ch) :
    s.refreshFault ch = s.wr POS_STATUS.FAULT (b2n (s.rdb POS_STATUS.LOS ch || s.rdb POS_STATUS.HALL_BAD ch ||
      s.rdb POS_STATUS.AMP ch || s.rdb POS_STATUS.RATE ch || s.rdb POS_STATUS.SUP ch)) ch := by
  unfold Core.refreshFault
  rw [if_neg (by omega), if_neg (by omega)]
/-- What a channel beside PC0 and PC1 becomes at a new TYPE. -/
structure Typed (ch : Nat) (s t : Core) : Prop where
  ty : t.rd POS_CFG.TYPE ch = s.rd POS_CFG.TYPE ch
  count : t.posCount ch = 0
  flds : ∀ g ∈ typeFlds, t.rd g ch = 0
  fault : t.rd POS_STATUS.FAULT ch = 0
  within : Within [0x0E, 0x1B] [.pos, .cmdq] s t
theorem Core.rd_clr_ne {s : Core} {fs : List Fld} {n : Nat} {g : Fld} {m : Nat} (h : ∀ f ∈ fs, g.key m ≠ f.key n) :
    (s.clr fs n).rd g m = s.rd g m := by
  unfold Core.clr
  induction fs generalizing s with
  | nil => rfl
  | cons f fs ih =>
    exact (ih fun x hx => h x (List.mem_cons_of_mem _ hx)).trans (Core.rd_wr_ne _ _ _ _ _ _ (h f List.mem_cons_self))
theorem Core.typeChanged_typed (s : Core) (ch : Fin 8) (hch : 2 ≤ ch.val) : Typed ch.val s (s.typeChanged ch.val) := by
  have hfacts := typeFlds_facts ch
  have hlt : ch.val < 8 := ch.isLt
  unfold Core.typeChanged
  extract_lets x had src e c j r w t
  have he : Within [0x0E, 0x1B] [.pos, .cmdq] s e := (Repeats.erSettle.within.mono (by decide) (by decide)).pos _
  have hety : e.rd POS_CFG.TYPE ch.val = s.rd POS_CFG.TYPE ch.val := Repeats.erSettle.rd _ _
  clear_value e
  have hc : Within [0x0E, 0x1B] [.pos, .cmdq] s c := (he.wr2 _ (Fld.block_mem hlt (by decide)) (Fld.block_mem hlt (by decide))).clr
    fun f hf => by rw [(hfacts f hf).2.2.2.2.2.1]; decide
  have hcty : c.rd POS_CFG.TYPE ch.val = s.rd POS_CFG.TYPE ch.val :=
    (Core.rd_clr_ne fun f hf => (hfacts f hf).2.2.2.2.2.2.1).trans
      ((Core.rd_wr2_ne _ _ _ _ _ _ _ (typeCount_ne ch).1 (typeCount_ne ch).2).trans hety)
  have hccount : c.posCount ch.val = 0 := by
    have hkept : ∀ f ∈ [POS_COUNT_LO.COUNT, POS_COUNT_HI.COUNT], c.rd f ch.val = (e.setCount ch.val 0).rd f ch.val := by
      intro f hf
      refine Core.rd_clr_ne fun g hg => ?_
      obtain ⟨-, -, -, -, -, -, -, hlo, hhi⟩ := hfacts g hg
      rcases List.mem_pair.1 hf with rfl | rfl
      · exact hlo
      · exact hhi
    have := e.posCount_setCount ch 0
    unfold Core.posCount Core.rd2 at *
    rw [hkept _ (by decide), hkept _ (by decide), this]
    simp
  have hcflds : ∀ g ∈ typeFlds, c.rd g ch.val = 0 := fun g hg => Core.rd_clr_mem (hfacts g hg).1 (hfacts g hg).2.1 hg
  clear_value c
  have hj : ∀ f n, f.key n ≠ POS_STATUS.INTERP8.key ch.val → j.rd f n = c.rd f n := fun f n hf =>
    (Core.rd_wr_ne _ _ _ _ _ _ hf).trans (Core.rd_wr_ne _ _ _ _ _ _ hf)
  have hjw : Within [0x0E, 0x1B] [.pos, .cmdq] s j := (hc.wr _ (Fld.block_mem hlt (by decide))).wr _ (Fld.block_mem hlt (by decide))
  clear_value j
  have hjflds : ∀ g ∈ typeFlds, j.rd g ch.val = 0 := fun g hg => (hj g _ (hfacts g hg).2.2.1).trans (hcflds g hg)
  have hr : r = (j.wr POS_STATUS.FAULT 0 ch.val).erLevels := by
    unfold r
    rw [Core.refreshFault_of_late hch, Core.rdb_eq_false (hjflds POS_STATUS.LOS (by decide)),
      Core.rdb_eq_false (hjflds POS_STATUS.HALL_BAD (by decide)), Core.rdb_eq_false (hjflds POS_STATUS.AMP (by decide)),
      Core.rdb_eq_false (hjflds POS_STATUS.RATE (by decide)), Core.rdb_eq_false (hjflds POS_STATUS.SUP (by decide))]
    rfl
  have hrr : ∀ f n, r.rd f n = (j.wr POS_STATUS.FAULT 0 ch.val).rd f n := fun f n => by rw [hr]; exact Repeats.erLevels.rd f n
  have hrw : Within [0x0E, 0x1B] [.pos, .cmdq] s r := by
    rw [hr]
    exact (hjw.wr 0 (Fld.block_mem hlt (by decide))).next Repeats.erLevels.within
  clear_value r
  have hw : w = r := if_neg (by omega)
  clear_value w
  subst hw
  have htw : ∀ f n, f.key n ≠ LOG_EVT_OVWR_CNT.COUNT.key 0 → t.rd f n = w.rd f n := fun f n hf => by
    unfold t
    split
    · exact Core.rd_emit_ne _ _ _ _ _ _ hf
    · rfl
  have htwithin : Within [0x0E, 0x1B] [.pos, .cmdq] s t := .ite (fun _ => hrw.emit _ _ _) fun _ => hrw
  clear_value t
  rw [if_neg fun h => absurd h.1 (by omega)]
  have hlate : ∀ f, f.key ch.val ≠ POS_STATUS.INTERP8.key ch.val → f.key ch.val ≠ POS_STATUS.FAULT.key ch.val →
      f.key ch.val ≠ LOG_EVT_OVWR_CNT.COUNT.key 0 → t.rd f ch.val = c.rd f ch.val := fun f h1 h2 h3 =>
    ((htw f _ h3).trans (hrr f _)).trans ((Core.rd_wr_ne _ _ _ _ _ _ h2).trans (hj f _ h1))
  have hkept : ∀ f ∈ [POS_CFG.TYPE, POS_COUNT_LO.COUNT, POS_COUNT_HI.COUNT], t.rd f ch.val = c.rd f ch.val := fun f hf =>
    let ⟨h1, h2, h3⟩ := typeKeys_facts ch f hf
    hlate f h1 h2 h3
  refine ⟨(hkept _ (by decide)).trans hcty, ?_, fun g hg => ?_, ?_, htwithin⟩
  · unfold Core.posCount Core.rd2 at *
    rw [hkept _ (by decide), hkept _ (by decide)]
    exact hccount
  · obtain ⟨-, -, h1, h2, h3, -⟩ := hfacts g hg
    exact (hlate g h1 h2 h3).trans (hcflds g hg)
  · rw [htw _ _ (faultKey_ne ch), hrr, Core.rd_wr]
    rfl

/-! ### Registers whose write acts on a channel (R339, R346, R347, R355) -/

/-- The registers of a channel whose write acts. -/
def chanFlds : List Fld := [POS_CFG.TYPE, POS_WRAP.WRAP, POS_IDX_CFG.LOAD]
theorem chanAddr_facts : ∀ ch : Fin 8, ∀ f ∈ chanFlds, atRegister (f.addr ch.val) = true ∧ writePriv (f.addr ch.val) ≤ 3 ∧
    sharedAddr (f.addr ch.val) = true ∧ (f.addr ch.val - 0xE0000) / 0x800 = ch.val ∧
    (∀ p ∈ fieldsAt (f.addr ch.val), p.1.block p.2 ∈ [0x0E]) ∧
    (fieldsAt (f.addr ch.val)).Pairwise (fun p q => p.1.key p.2 ≠ q.1.key q.2) ∧
    (∀ p ∈ fieldsAt (f.addr ch.val), POS_COUNT_LO.COUNT.key ch.val ≠ p.1.key p.2 ∧ POS_COUNT_HI.COUNT.key ch.val ≠ p.1.key p.2 ∧
      POS_PRESET_LO.PRESET.key ch.val ≠ p.1.key p.2 ∧ POS_PRESET_HI.PRESET.key ch.val ≠ p.1.key p.2 ∧
      (f ≠ POS_WRAP.WRAP → POS_WRAP.WRAP.key ch.val ≠ p.1.key p.2)) := by decide +kernel
theorem chanAddr_at : ∀ ch : Fin 8, isAt POS_CFG.TYPE (POS_CFG.TYPE.addr ch.val) = true ∧
    isAt POS_CFG.TYPE (POS_WRAP.WRAP.addr ch.val) = false ∧ isAt POS_WRAP.WRAP (POS_WRAP.WRAP.addr ch.val) = true ∧
    isAt POS_CFG.TYPE (POS_IDX_CFG.LOAD.addr ch.val) = false ∧ isAt POS_WRAP.WRAP (POS_IDX_CFG.LOAD.addr ch.val) = false ∧
    isAt POS_IDX_CFG.MODE (POS_IDX_CFG.LOAD.addr ch.val) = true ∧
    (POS_CFG.TYPE, ch.val) ∈ fieldsAt (POS_CFG.TYPE.addr ch.val) ∧
    fieldsAt (POS_WRAP.WRAP.addr ch.val) = [(POS_WRAP.WRAP, ch.val)] := by decide +kernel
theorem regWriteSpecial_posCfg (ch : Fin 8) (v : Nat) (s : Core) :
    regWriteSpecial (POS_CFG.TYPE.addr ch.val) v s = some (posCfgWrite ch.val (POS_CFG.TYPE.addr ch.val) v s) := by
  obtain ⟨htype, -⟩ := chanAddr_at ch
  obtain ⟨-, -, -, hch, -⟩ := chanAddr_facts ch POS_CFG.TYPE (by decide)
  unfold regWriteSpecial
  rw [if_pos htype, hch]
theorem regWriteSpecial_posWrap (ch : Fin 8) (v : Nat) (s : Core) :
    regWriteSpecial (POS_WRAP.WRAP.addr ch.val) v s = some (posWrapWrite ch.val (POS_WRAP.WRAP.addr ch.val) v s) := by
  obtain ⟨-, htype, hwrap, -⟩ := chanAddr_at ch
  obtain ⟨-, -, -, hch, -⟩ := chanAddr_facts ch POS_WRAP.WRAP (by decide)
  unfold regWriteSpecial
  rw [htype, if_neg (by decide), if_pos hwrap, hch]
theorem regWriteSpecial_idxLoad (ch : Fin 8) {v : Nat} (s : Core) (h : v.testBit 3 = true) :
    regWriteSpecial (POS_IDX_CFG.LOAD.addr ch.val) v s = some (.ok 0, (s.plainWrite (POS_IDX_CFG.LOAD.addr ch.val) v).idxLoad ch.val) := by
  obtain ⟨-, -, -, htype, hwrap, hidx, -⟩ := chanAddr_at ch
  obtain ⟨-, -, -, hch, -⟩ := chanAddr_facts ch POS_IDX_CFG.LOAD (by decide)
  have hbit : bit v 3 = true := h
  unfold regWriteSpecial
  rw [htype, if_neg (by decide), hwrap, if_neg (by decide), if_pos hidx, hch]
  dsimp only
  rw [hbit, if_pos rfl]

/-- A write to a register of a channel that acts and whose block is the positions' own. `x` is what it leaves. -/
theorem chanWrite_answers {c : Call} {i : Instr} {ch : Fin 8} {f : Fld} {v : Nat} {s : State} {x : Core} {P : State → Prop}
    (hexec : exec i s = .next ((cmdRegWrite c (f.addr ch.val) v).submit i s)) (hf : f ∈ chanFlds)
    (hc : CleanHeader c 8) (hr : Runs c 0x0101 3 s) (hcdc : s.field.core.cdc.out = [])
    (hlock : s.field.core.rd SYS_LOCK.CFG_LOCK = 0)
    (hact : regAct (f.addr ch.val) v (s.taken c 0x0101).field.core = (.ok 0, x))
    (hx : Within [0x0E, 0x1B] [.pos, .cmdq] (s.taken c 0x0101).field.core x)
    (hP : ∀ t : State, Completed c 0x0101 0 0 s t → (∀ g n, g.key n ∉ commandKeys → t.field.core.rd g n = x.rd g n) →
      CommandWithin c 0x0101 [0x0E, 0x11, 0x12] s t → P t) : Answers i s P := by
  obtain ⟨hat, hpriv, hshared, -⟩ := chanAddr_facts ch f hf
  obtain ⟨t, ht, hdone⟩ := regWrite_done hexec hc hr hat (Nat.le_trans hpriv (hr.priv_ge (by decide)))
    ⟨Core.crosses_of_none (by rw [taken_cdc]; exact hcdc) _, Core.present_shared _ hshared, taken_unlocked hlock _ _⟩ hact
    (.inl ⟨0, rfl⟩) ((hx.parts .etime (by decide)).trans (taken_etime _ _ _)) (hx.parts .answers (by decide))
  refine ⟨t, ht, hP t hdone.completed (fun g n hg => hdone.rd g n hg) (hdone.within ?_)⟩
  exact ((SameRegs.taken c 0x0101 [] s).outside (by decide)).trans (hx.regs.mono (by decide))

theorem posKey_free {f : Fld} {n : Nat} (h : f.block n = 0x0E) : f.key n ∉ commandKeys := fun hm => by
  have := commandKeys_blocks _ hm
  rw [show f.key n / 2 ^ 21 = 0x0E from h] at this
  exact absurd this (by decide)
theorem chan_block : ∀ ch : Fin 8, ∀ f ∈ [POS_CFG.TYPE, POS_COUNT_LO.COUNT, POS_COUNT_HI.COUNT, POS_SPEED.SPEED, POS_STATUS.IDX_REF,
    POS_STATUS.FAULT, POS_STATUS.LOS, POS_WRAP.WRAP, POS_PRESET_LO.PRESET, POS_PRESET_HI.PRESET], f.block ch.val = 0x0E := by decide
theorem chanKey_free (ch : Fin 8) {f : Fld} (hf : f ∈ [POS_CFG.TYPE, POS_COUNT_LO.COUNT, POS_COUNT_HI.COUNT, POS_SPEED.SPEED,
    POS_STATUS.IDX_REF, POS_STATUS.FAULT, POS_STATUS.LOS, POS_WRAP.WRAP, POS_PRESET_LO.PRESET, POS_PRESET_HI.PRESET]) :
    f.key ch.val ∉ commandKeys := posKey_free (chan_block ch f hf)
theorem rd_taken_chan {c : Call} {op : Nat} {s : State} (ch : Fin 8) (f : Fld) (hf : f ∈ [POS_CFG.TYPE, POS_COUNT_LO.COUNT,
    POS_COUNT_HI.COUNT, POS_SPEED.SPEED, POS_STATUS.IDX_REF, POS_STATUS.FAULT, POS_STATUS.LOS, POS_WRAP.WRAP, POS_PRESET_LO.PRESET,
    POS_PRESET_HI.PRESET] := by decide) : (s.taken c op).field.core.rd f ch.val = s.field.core.rd f ch.val :=
  rd_taken _ _ _ _ _ fun h => chanKey_free ch hf (inFlightKeys_subset h)
theorem fieldPart_type_lt (v : Nat) : fieldPart POS_CFG.TYPE v < 8 := by
  have hclamp : clamps.find? (fun c => c.1 == POS_CFG.TYPE) = none := by decide
  have hremaps : ∀ r ∈ remaps, r.1 = POS_CFG.TYPE → r.2.2.2 < 8 := by decide
  unfold fieldPart storedAs
  rw [hclamp]
  dsimp only
  split
  · next r hr =>
    have hsome := List.find?_some hr
    simp only [Bool.and_eq_true, beq_iff_eq] at hsome
    exact hremaps r (List.mem_of_find?_eq_some hr) hsome.1.1
  · exact bits_lt _ _ _

theorem posCount_of_reads {x y : Core} {ch : Fin 8} (h : ∀ g n, g.key n ∉ commandKeys → y.rd g n = x.rd g n) :
    y.posCount ch.val = x.posCount ch.val := by
  unfold Core.posCount Core.rd2
  rw [h _ _ (chanKey_free ch (by decide)), h _ _ (chanKey_free ch (by decide))]

theorem posTypeChange_answers {c : Call} {ch : Fin 8} {v : Word} {s : State} (hch : 2 ≤ ch.val) (hcdc : s.field.core.cdc.out = [])
    (hlock : s.field.core.rd SYS_LOCK.CFG_LOCK = 0) (hr : Runs c 0x0101 3 s) (hc : CleanHeader c 8)
    (hty : fieldPart POS_CFG.TYPE v.toNat ≠ s.field.core.rd POS_CFG.TYPE ch.val) :
    Answers (.posTypeChange c ch v) s fun t =>
      Completed c 0x0101 0 0 s t ∧ t.field.core.rd POS_CFG.TYPE ch.val = fieldPart POS_CFG.TYPE v.toNat ∧
      t.field.core.posCount ch.val = 0 ∧ t.field.core.rd POS_SPEED.SPEED ch.val = 0 ∧ t.field.core.rd POS_STATUS.IDX_REF ch.val = 0 ∧
      t.field.core.rd POS_STATUS.FAULT ch.val = 0 ∧ t.field.core.rd POS_STATUS.LOS ch.val = 0 ∧
      CommandWithin c 0x0101 [0x0E, 0x11, 0x12] s t := by
  obtain ⟨-, -, -, -, hblocks, hdis, -⟩ := chanAddr_facts ch POS_CFG.TYPE (by decide)
  obtain ⟨-, -, -, -, -, -, hmem, -⟩ := chanAddr_at ch
  have hold := rd_taken_chan (c := c) (op := 0x0101) (s := s) ch POS_CFG.TYPE
  have hnew : ∀ τ : Core, (τ.erSettle.plainWrite (POS_CFG.TYPE.addr ch.val) v.toNat).rd POS_CFG.TYPE ch.val =
      fieldPart POS_CFG.TYPE v.toNat := fun τ => (Core.rd_plainWrite hmem rfl hdis).trans (Nat.mod_eq_of_lt (fieldPart_type_lt _))
  have hstored : ∀ τ : Core, Within [0x0E, 0x1B] [.pos, .cmdq] τ (τ.erSettle.plainWrite (POS_CFG.TYPE.addr ch.val) v.toNat) := fun τ =>
    (Repeats.erSettle.within.mono (by decide) (by decide)).next (Core.plainWrite_within _ _ hblocks)
  have htyped := ((s.taken c 0x0101).field.core.erSettle.plainWrite (POS_CFG.TYPE.addr ch.val) v.toNat).typeChanged_typed ch hch
  have hact : regAct (POS_CFG.TYPE.addr ch.val) v.toNat (s.taken c 0x0101).field.core =
      (.ok 0, ((s.taken c 0x0101).field.core.erSettle.plainWrite (POS_CFG.TYPE.addr ch.val) v.toNat).typeChanged ch.val) := by
    unfold regAct
    rw [regWriteSpecial_posCfg, Option.getD_some]
    unfold posCfgWrite
    rw [if_neg (by omega)]
    dsimp only
    rw [hnew, hold, if_pos hty]
  refine chanWrite_answers (f := POS_CFG.TYPE) rfl (by decide) hc hr hcdc hlock hact ((hstored _).trans htyped.within)
    fun t hdone hreads hframe => ?_
  obtain ⟨hkind, hcount, hflds, hfault, -⟩ := htyped
  exact ⟨hdone, ((hreads _ _ (chanKey_free ch (by decide))).trans hkind).trans (hnew _), (posCount_of_reads hreads).trans hcount,
    (hreads _ _ (chanKey_free ch (by decide))).trans (hflds _ (by decide)), (hreads _ _ (chanKey_free ch (by decide))).trans (hflds _ (by decide)),
    (hreads _ _ (chanKey_free ch (by decide))).trans hfault, (hreads _ _ (chanKey_free ch (by decide))).trans (hflds _ (by decide)), hframe⟩

theorem wrapKey_ne : ∀ ch : Fin 8, POS_WRAP.WRAP.key ch.val ≠ POS_COUNT_LO.COUNT.key ch.val ∧
    POS_WRAP.WRAP.key ch.val ≠ POS_COUNT_HI.COUNT.key ch.val := by decide
theorem fieldPart_wrap (v : Word) : fieldPart POS_WRAP.WRAP v.toNat = v.toNat := by
  refine (storedAs_plain (by decide) (by decide)).trans ?_
  rw [bits]
  exact (Nat.mod_eq_of_lt v.isLt : v.toNat % 2 ^ 32 = v.toNat)
theorem posWrapWrite_answers {c : Call} {ch : Fin 8} {v : Word} {s : State} (hch : 2 ≤ ch.val) (hcdc : s.field.core.cdc.out = [])
    (hlock : s.field.core.rd SYS_LOCK.CFG_LOCK = 0) (hdue : NothingDue s.field.core) (hr : Runs c 0x0101 3 s) (hc : CleanHeader c 8)
    (hne : v.toNat ≠ s.field.core.rd POS_WRAP.WRAP ch.val) :
    Answers (.posWrapWrite c ch v) s fun t =>
      Completed c 0x0101 0 0 s t ∧ t.field.core.rd POS_WRAP.WRAP ch.val = v.toNat ∧
      t.field.core.posCount ch.val = s.field.core.posCount ch.val % (if v = 0 then 2 ^ 48 else v.toNat) ∧
      CommandWithin c 0x0101 [0x0E, 0x11, 0x12] s t := by
  obtain ⟨-, -, -, -, hblocks, hdis, hkeys⟩ := chanAddr_facts ch POS_WRAP.WRAP (by decide)
  obtain ⟨-, -, -, -, -, -, -, hfields⟩ := chanAddr_at ch
  have hold := rd_taken_chan (c := c) (op := 0x0101) (s := s) ch POS_WRAP.WRAP
  have hcount : (s.taken c 0x0101).field.core.posCount ch.val = s.field.core.posCount ch.val := by
    unfold Core.posCount Core.rd2
    rw [rd_taken_chan ch POS_COUNT_LO.COUNT, rd_taken_chan ch POS_COUNT_HI.COUNT]
  have hpool : (s.taken c 0x0101).field.core.pos.cmp.pool = [] := by
    rw [taken_core]
    exact hdue.1
  have hstored : Within [0x0E] [] (s.taken c 0x0101).field.core
      ((s.taken c 0x0101).field.core.plainWrite (POS_WRAP.WRAP.addr ch.val) v.toNat) := Core.plainWrite_within _ _ hblocks
  have hchanges : (s.taken c 0x0101).field.core.changes (POS_WRAP.WRAP.addr ch.val) v.toNat = true := by
    unfold Core.changes
    rw [hfields, List.any_cons]
    dsimp only
    rw [fieldPart_wrap, hold, bne_iff_ne.2 hne]
    rfl
  have hact : regAct (POS_WRAP.WRAP.addr ch.val) v.toNat (s.taken c 0x0101).field.core =
      (.ok 0, ((s.taken c 0x0101).field.core.plainWrite (POS_WRAP.WRAP.addr ch.val) v.toNat).wrapChanged ch.val) := by
    unfold regAct
    rw [regWriteSpecial_posWrap, Option.getD_some]
    unfold posWrapWrite
    rw [hchanges, if_neg (by simp; omega), hpool]
    rfl
  have hwrap : ((s.taken c 0x0101).field.core.plainWrite (POS_WRAP.WRAP.addr ch.val) v.toNat).rd POS_WRAP.WRAP ch.val = v.toNat := by
    rw [Core.rd_plainWrite (by rw [hfields]; exact List.mem_cons_self) rfl hdis, fieldPart_wrap]
    exact Nat.mod_eq_of_lt v.isLt
  have hkept : ((s.taken c 0x0101).field.core.plainWrite (POS_WRAP.WRAP.addr ch.val) v.toNat).posCount ch.val =
      s.field.core.posCount ch.val := by
    refine Eq.trans ?_ hcount
    unfold Core.posCount Core.rd2
    rw [Core.rd_plainWrite_ne fun p hp => (hkeys p hp).1, Core.rd_plainWrite_ne fun p hp => (hkeys p hp).2.1]
  generalize (s.taken c 0x0101).field.core.plainWrite (POS_WRAP.WRAP.addr ch.val) v.toNat = x at hact hstored hwrap hkept
  have hmod : x.srcMod ch.val = if v = 0 then 2 ^ 48 else v.toNat := by
    unfold Core.srcMod
    rw [if_neg ch.isLt.ne]
    dsimp only
    rw [if_neg (by omega : ¬ ch.val < 2), hwrap]
    simp only [BitVec.toNat_eq, BitVec.ofNat_eq_ofNat, BitVec.toNat_ofNat, Nat.zero_mod]
  have hset : Within [0x0E, 0x1B] [.pos, .cmdq] x (x.wrapChanged ch.val) :=
    (Within.refl _ _ x).wr2 _ (Fld.block_mem ch.isLt (by decide)) (Fld.block_mem ch.isLt (by decide))
  refine chanWrite_answers (f := POS_WRAP.WRAP) rfl (by decide) hc hr hcdc hlock hact ((hstored.mono (by decide) (by decide)).trans hset)
    fun t hdone hreads hframe => ⟨hdone, ?_, ?_, hframe⟩
  · rw [hreads _ _ (chanKey_free ch (by decide)), Core.wrapChanged, Core.setCount,
      Core.rd_wr2_ne _ _ _ _ _ _ _ (wrapKey_ne ch).1 (wrapKey_ne ch).2, hwrap]
  · rw [posCount_of_reads hreads, Core.wrapChanged, Core.posCount_setCount, natCast_emod_toNat, hkept, hmod]

theorem posIdxLoad_answers {c : Call} {ch : Fin 8} {v : Word} {s : State} (hch : 2 ≤ ch.val) (hcdc : s.field.core.cdc.out = [])
    (hlock : s.field.core.rd SYS_LOCK.CFG_LOCK = 0) (hdue : NothingDue s.field.core) (hr : Runs c 0x0101 3 s) (hc : CleanHeader c 8)
    (hload : v.toNat.testBit 3 = true) :
    Answers (.posIdxLoad c ch v) s fun t =>
      Completed c 0x0101 0 0 s t ∧ t.field.core.posCount ch.val =
        s.field.core.rd2 POS_PRESET_LO.PRESET POS_PRESET_HI.PRESET ch.val % s.field.core.srcMod ch.val ∧
      CommandWithin c 0x0101 [0x0E, 0x11, 0x12] s t := by
  obtain ⟨-, -, -, -, hblocks, -, hkeys⟩ := chanAddr_facts ch POS_IDX_CFG.LOAD (by decide)
  have hpreset : (s.taken c 0x0101).field.core.rd2 POS_PRESET_LO.PRESET POS_PRESET_HI.PRESET ch.val =
      s.field.core.rd2 POS_PRESET_LO.PRESET POS_PRESET_HI.PRESET ch.val := by
    unfold Core.rd2
    rw [rd_taken_chan ch POS_PRESET_LO.PRESET, rd_taken_chan ch POS_PRESET_HI.PRESET]
  have hmod : (s.taken c 0x0101).field.core.srcMod ch.val = s.field.core.srcMod ch.val := by
    unfold Core.srcMod
    rw [rd_taken_chan ch POS_WRAP.WRAP]
  have hact : regAct (POS_IDX_CFG.LOAD.addr ch.val) v.toNat (s.taken c 0x0101).field.core =
      (.ok 0, ((s.taken c 0x0101).field.core.plainWrite (POS_IDX_CFG.LOAD.addr ch.val) v.toNat).idxLoad ch.val) := by
    unfold regAct
    rw [regWriteSpecial_idxLoad ch _ hload, Option.getD_some]
  have hstored : Within [0x0E] [] (s.taken c 0x0101).field.core
      ((s.taken c 0x0101).field.core.plainWrite (POS_IDX_CFG.LOAD.addr ch.val) v.toNat) := Core.plainWrite_within _ _ hblocks
  have hxpreset : ((s.taken c 0x0101).field.core.plainWrite (POS_IDX_CFG.LOAD.addr ch.val) v.toNat).rd2 POS_PRESET_LO.PRESET
      POS_PRESET_HI.PRESET ch.val = s.field.core.rd2 POS_PRESET_LO.PRESET POS_PRESET_HI.PRESET ch.val := by
    refine Eq.trans ?_ hpreset
    unfold Core.rd2
    rw [Core.rd_plainWrite_ne fun p hp => (hkeys p hp).2.2.1, Core.rd_plainWrite_ne fun p hp => (hkeys p hp).2.2.2.1]
  have hxmod : ((s.taken c 0x0101).field.core.plainWrite (POS_IDX_CFG.LOAD.addr ch.val) v.toNat).srcMod ch.val =
      s.field.core.srcMod ch.val := by
    refine Eq.trans ?_ hmod
    unfold Core.srcMod
    rw [Core.rd_plainWrite_ne fun p hp => (hkeys p hp).2.2.2.2 (by decide)]
  have hpool : (s.taken c 0x0101).field.core.pos.cmp.pool = [] := by
    rw [taken_core]
    exact hdue.1
  have hxpool := (congrArg (fun p : PosSt => p.cmp.pool) (hstored.parts .pos (by decide))).trans hpool
  generalize (s.taken c 0x0101).field.core.plainWrite (POS_IDX_CFG.LOAD.addr ch.val) v.toNat = x at hact hstored hxpreset hxmod hxpool
  rw [Core.idxLoad, if_neg (by omega), hxpreset] at hact
  obtain ⟨hcount, hregs, hrest⟩ := x.adjust_spec hxpool ch
    (s.field.core.rd2 POS_PRESET_LO.PRESET POS_PRESET_HI.PRESET ch.val)
  obtain ⟨b, hb⟩ := Core.adjust_of_empty hxpool ch.val (s.field.core.rd2 POS_PRESET_LO.PRESET POS_PRESET_HI.PRESET ch.val)
  have hset : Within [0x0E, 0x1B] [.pos, .cmdq] x
      (x.adjust ch.val (s.field.core.rd2 POS_PRESET_LO.PRESET POS_PRESET_HI.PRESET ch.val)) := by
    rw [hb]
    exact ((Within.refl _ _ x).pos _).wr2 _ (Fld.block_mem ch.isLt (by decide)) (Fld.block_mem ch.isLt (by decide))
  refine chanWrite_answers (f := POS_IDX_CFG.LOAD) rfl (by decide) hc hr hcdc hlock hact
    ((hstored.mono (by decide) (by decide)).trans hset) fun t hdone hreads hframe => ⟨hdone, ?_, hframe⟩
  rw [posCount_of_reads hreads, hcount, hxmod]

/-! ### POS_ARM_INDEX (R355) -/

/-- The registers of a channel that arming writes. -/
def armKeys (ch : Nat) : List Nat :=
  [POS_IDX_CFG.MODE.key ch, POS_PRESET_LO.PRESET.key ch, POS_PRESET_HI.PRESET.key ch, POS_STATUS.IDX_REF.key ch,
   POS_STATUS.IDX_ARMED.key ch]
theorem armKeys_facts : ∀ ch : Fin 8, (armKeys ch.val).Nodup ∧ (∀ k ∈ armKeys ch.val, k ∉ commandKeys) ∧
    POS_CFG.TYPE.key ch.val ∉ inFlightKeys ∧ POS_WRAP.WRAP.key ch.val ∉ inFlightKeys := by decide
/-- What arming an index writes. -/
def Core.armed (s : Core) (ch mode preset : Nat) : Core :=
  ((s.wr POS_IDX_CFG.MODE mode ch).wr2 POS_PRESET_LO.PRESET POS_PRESET_HI.PRESET preset ch).wrs
    [(POS_STATUS.IDX_REF, 0), (POS_STATUS.IDX_ARMED, b2n (mode != 0))] ch
theorem posArmIndex_quad {ch mode preset : Nat} {s : Core} (hch : ch < 8) (hmode : mode ≤ 2) (hty : s.rd POS_CFG.TYPE ch = 1)
    (hpreset : preset < 2 ^ 48) (hwrap : 2 ≤ ch → s.rd POS_WRAP.WRAP ch = 0) :
    posArmIndex ch mode preset s = (.ok 0, s.armed ch mode preset) := by
  have hnone : (if ch < 2 then 0 else s.rd POS_WRAP.WRAP ch) = 0 := by
    split
    · rfl
    · exact hwrap (by omega)
  unfold posArmIndex
  rw [if_neg (by omega)]
  dsimp only
  rw [hty, hnone, if_neg (by omega), if_neg (by omega)]
  rfl
theorem SameRegs.armed (s : Core) (ch mode preset : Nat) : SameRegs (armKeys ch) s (s.armed ch mode preset) := by
  refine SameRegs.wrs ((((SameRegs.refl _ s).wr _ (by simp [armKeys])).wr _ (by simp [armKeys])).wr _ (by simp [armKeys])) fun p hp => ?_
  simp only [List.mem_cons, List.not_mem_nil, or_false] at hp
  rcases hp with rfl | rfl <;> simp [armKeys]
theorem posArmIndex_answers {c : Call} {ch : Fin 8} {mode : Byte} {preset : BitVec 64} {s : State} (hc : CleanHeader c 12)
    (hr : Runs c 0x0502 2 s) (hmode : mode.toNat ≤ 2) (hty : s.field.core.rd POS_CFG.TYPE ch.val = 1)
    (hpreset : preset.toNat < 2 ^ 48) (hwrap : 2 ≤ ch.val → s.field.core.rd POS_WRAP.WRAP ch.val = 0) :
    Answers (.posArmIndex c (BitVec.ofNat 8 ch.val) mode preset) s fun t =>
      Completed c 0x0502 0 0 s t ∧ t.field.core.rd POS_IDX_CFG.MODE ch.val = mode.toNat ∧
      t.field.core.rd2 POS_PRESET_LO.PRESET POS_PRESET_HI.PRESET ch.val = preset.toNat ∧
      t.field.core.rd POS_STATUS.IDX_REF ch.val = 0 ∧
      t.field.core.rd POS_STATUS.IDX_ARMED ch.val = (if mode = 0 then 0 else 1) ∧
      CommandFrame c 0x0502 [POS_IDX_CFG.MODE.key ch.val, POS_PRESET_LO.PRESET.key ch.val, POS_PRESET_HI.PRESET.key ch.val,
        POS_STATUS.IDX_REF.key ch.val, POS_STATUS.IDX_ARMED.key ch.val] s t ∧ Quiet s.field.core t.field.core := by
  have hchan : (BitVec.ofNat 8 ch.val).toNat = ch.val := by
    rw [BitVec.toNat_ofNat]
    exact Nat.mod_eq_of_lt (by omega)
  have hk : (cmdPosArmIndex c (BitVec.ofNat 8 ch.val).toNat mode.toNat preset.toNat).Plain 12
      (posArmIndex (BitVec.ofNat 8 ch.val).toNat mode.toNat preset.toNat) := ⟨rfl, rfl, by decide, rfl, rfl, rfl⟩
  obtain ⟨hnodup, hfree, hkind, hkwrap⟩ := armKeys_facts ch
  have hbody : posArmIndex (BitVec.ofNat 8 ch.val).toNat mode.toNat preset.toNat (s.taken c 0x0502).field.core =
      (.ok 0, (s.taken c 0x0502).field.core.armed ch.val mode.toNat preset.toNat) := by
    rw [hchan]
    exact posArmIndex_quad ch.isLt hmode ((rd_taken _ _ _ _ _ hkind).trans hty) hpreset fun h =>
      (rd_taken _ _ _ _ _ hkwrap).trans (hwrap h)
  have harmed := SameRegs.armed (s.taken c 0x0502).field.core ch.val mode.toNat preset.toNat
  obtain ⟨t, ht, hdone⟩ := hk.done (i := .posArmIndex c (BitVec.ofNat 8 ch.val) mode preset) rfl hc hr hbody (.inl ⟨0, rfl⟩)
    (taken_etime c 0x0502 s) rfl
  have htaken := SameRegs.taken c 0x0502 (armKeys ch.val) s
  have hquiet := Quiet.taken c 0x0502 s
  generalize (s.taken c 0x0502).field.core = τ at *
  have hreads : ∀ f : Fld, f.key ch.val ∈ armKeys ch.val →
      t.field.core.rd f ch.val = (τ.armed ch.val mode.toNat preset.toNat).rd f ch.val := fun f hf => hdone.rd _ _ (hfree _ hf)
  simp only [armKeys, List.nodup_cons, List.mem_cons, List.not_mem_nil, or_false, not_or] at hnodup
  obtain ⟨⟨a1, a2, a3, a4⟩, ⟨b2, b3, b4⟩, ⟨c3, c4⟩, d4, -⟩ := hnodup
  refine ⟨t, ht, hdone.completed, ?_, ?_, ?_, ?_, hdone.frame (htaken.trans (harmed.mono (by simp [armKeys]))),
    (hquiet.trans (rfl : Quiet τ (τ.armed ch.val mode.toNat preset.toNat))).trans hdone.rest.quiet⟩
  · rw [hreads _ (by simp [armKeys])]
    simp only [Core.armed, Core.wr2, Core.wrs, List.foldl_cons, List.foldl_nil]
    rw [Core.rd_wr_ne _ _ _ _ _ _ a4, Core.rd_wr_ne _ _ _ _ _ _ a3, Core.rd_wr_ne _ _ _ _ _ _ a2, Core.rd_wr_ne _ _ _ _ _ _ a1,
      Core.rd_wr]
    exact Nat.mod_eq_of_lt (Nat.lt_of_le_of_lt hmode (by decide))
  · unfold Core.rd2
    rw [hreads _ (by simp [armKeys]), hreads _ (by simp [armKeys])]
    have hpair := Core.rd2_wr2 (τ.wr POS_IDX_CFG.MODE mode.toNat ch.val) (lo := POS_PRESET_LO.PRESET) (hi := POS_PRESET_HI.PRESET) b2 rfl hpreset
    simp only [Core.armed, Core.wrs, List.foldl_cons, List.foldl_nil]
    rw [Core.rd_wr_ne _ _ _ _ _ _ b4, Core.rd_wr_ne _ _ _ _ _ _ b3, Core.rd_wr_ne _ _ _ _ _ _ c4, Core.rd_wr_ne _ _ _ _ _ _ c3]
    exact hpair
  · rw [hreads _ (by simp [armKeys])]
    simp only [Core.armed, Core.wrs, List.foldl_cons, List.foldl_nil]
    rw [Core.rd_wr_ne _ _ _ _ _ _ d4, Core.rd_wr]
    rfl
  · rw [hreads _ (by simp [armKeys])]
    simp only [Core.armed, Core.wrs, List.foldl_cons, List.foldl_nil]
    rw [Core.rd_wr]
    by_cases h : mode = 0
    · subst h
      rfl
    · have hne : mode.toNat ≠ 0 := fun e => h (BitVec.eq_of_toNat_eq e)
      rw [if_neg h, bne_iff_ne.2 hne]
      rfl

/-- Settles O36: the three registers of a channel as their own actions on the state that counts the command, and arming. -/
theorem channelRegistersAndArmingAct : Obligations.ChannelRegistersAndArmingAct := by
  unfold Obligations.ChannelRegistersAndArmingAct
  refine ⟨fun c ch v s hch hcdc hlock hdue hr hc => ⟨?_, posWrapWrite_answers hch hcdc hlock hdue hr hc,
    posIdxLoad_answers hch hcdc hlock hdue hr hc⟩, fun c ch mode preset s hc hr hmode hty hpreset hwrap =>
    posArmIndex_answers hc hr hmode hty hpreset hwrap⟩
  rintro ty rfl hty
  exact posTypeChange_answers hch hcdc hlock hr hc hty

end Sys2Proof.Machine
end

section
/-! PROOF. The web's source and its loss, and the faults of a channel (spec/08_position_channels.md R348 to R350, R359 to R363). -/

namespace Sys2Proof.Machine

set_option Elab.async false

/-! ### Fields that a function leaves, by key and by block -/

/-- Every field but those of the keys `ks` and those in the blocks `ps` reads as before. -/
def Keeps (ks ps : List Nat) (a b : Core) : Prop := ∀ (f : Fld) (n : Nat), f.key n ∉ ks → f.block n ∉ ps → b.rd f n = a.rd f n
section
variable {ks ps : List Nat} {a b c : Core}

theorem Keeps.refl : Keeps ks ps a a := fun _ _ _ _ => rfl
theorem Keeps.trans (hab : Keeps ks ps a b) (hbc : Keeps ks ps b c) : Keeps ks ps a c := fun f n hk hp =>
  (hbc f n hk hp).trans (hab f n hk hp)
theorem Keeps.ite {p : Prop} [Decidable p] (hb : p → Keeps ks ps a b) (hc : ¬ p → Keeps ks ps a c) :
    Keeps ks ps a (if p then b else c) := by
  split
  · exact hb ‹_›
  · exact hc ‹_›
theorem Keeps.of_regs {ls : List Nat} (h : SameRegs ls a b) (hsub : ls ⊆ ks := by decide) : Keeps ks ps a b := fun f n hk _ =>
  h f n fun hm => hk (hsub hm)
theorem Keeps.of_outside {qs : List Nat} (h : SameOutside qs a b) (hsub : qs ⊆ ps := by decide) : Keeps ks ps a b := fun f n _ hp =>
  h f n fun hm => hp (hsub hm)
theorem SameRegs.emitEvery (h : SameRegs ks a b) (gap code inst : Nat) (data : Nat → Nat)
    (hk : LOG_EVT_OVWR_CNT.COUNT.key 0 ∈ ks := by decide) : SameRegs ks a (b.emitEvery gap code inst data) := by
  have hemit : ∀ d, SameRegs ks a (b.emit code d) := fun d => h.emit _ _ _ hk
  unfold Core.emitEvery
  extract_lets k
  split
  · exact hemit _
  · extract_lets rest
    split
    · exact hemit _
    · exact h
end

/-! ### The web's source (R361 to R363, R387, R401) -/

/-- The registers of the web's source and of its count. -/
def webKeys : List Nat :=
  [POS_WEB_STATUS.SRC.key 0, POS_WEB_STATUS.LOST.key 0, POS_WEB_STATUS.RETURN_PENDING.key 0, POS_WEB_STATUS.BACKUP_READY.key 0,
   POS_WEB_STATUS.PC0_OK.key 0, POS_WEB_STATUS.PC1_OK.key 0, POS_WEB_SWITCH_CNT.TAKEOVERS.key 0,
   POS_WEB_SWITCH_CNT.RETURNS.key 0, POS_WEB_COUNT_LO.COUNT.key 0, POS_WEB_COUNT_HI.COUNT.key 0, ER_OVR_CNT.ER0.key 0,
   ER_OVR_CNT.ER1.key 0, LOG_EVT_OVWR_CNT.COUNT.key 0]
theorem Core.coPulse_within (s : Core) (co ns : Nat) : Within [0x0F] [.pos] s (s.coPulse co ns) := ((Within.refl _ _ s).pos _).wr _
theorem Core.fireMarkers_within (s : Core) : Within [0x0F, 0x11] [.pos, .spg] s s.fireMarkers := by
  unfold Core.fireMarkers
  extract_lets due
  refine .ite (fun _ => .refl _ _ s) fun _ => ((Within.refl _ _ s).spg _).foldl _ fun m _ s => ?_
  extract_lets ns t
  have ht : Within [0x0F, 0x11] [.pos, .spg] s t := ((Within.refl _ _ s).inc _).next (Core.coPulse_within _ _ _)
  exact (ht.pos _).next (Core.drivePio_within _)
theorem Core.schedMarker_within (s : Core) (cls pos : Nat) : Within [0x0F, 0x11] [.pos, .spg] s (s.schedMarker cls pos) := by
  unfold Core.schedMarker
  extract_lets at'
  exact .ite (fun _ => .ite (fun _ => (Within.refl _ _ s).inc _) fun _ => ((Within.refl _ _ s).spg _).next (Core.fireMarkers_within _))
    fun _ => .refl _ _ s
theorem Core.webLost_keeps (s : Core) : Keeps webKeys [0x0F, 0x11, 0x1B] s s.webLost := by
  unfold Core.webLost
  extract_lets t src u held v
  refine .ite (fun _ => .refl) fun _ => ?_
  have ht : Keeps webKeys [0x0F, 0x11, 0x1B] s t :=
    .of_regs (((SameRegs.of_regs Repeats.erSettle.regs).wr 1).emit _ _ _ : SameRegs webKeys s t)
  have hv : Within [0x0F, 0x11, 0x1B] [.pos, .spg] u v := (Within.refl _ _ u).foldl _ fun b _ s => by
    split
    · exact .ite (fun _ => ((Within.refl _ _ s).spg _).next (Core.schedMarker_within _ _ _)) fun _ => .refl _ _ s
    · exact .refl _ _ s
  have hu : Keeps webKeys [0x0F, 0x11, 0x1B] t u := fun _ _ _ _ => rfl
  clear_value t u v
  exact (ht.trans hu).trans ((Keeps.of_outside hv.regs).trans (.of_outside (v.setCause_within 5 fun b hb => mem_allBars_lt hb).regs))

theorem Core.crossFire_of_empty {s : Core} (h : s.pos.cmp.pool = []) (src m prev : Nat) (d : Int) : s.crossFire src m prev d = s := by
  unfold Core.crossFire
  rw [h, Core.crossed_nil]
  rfl
theorem Core.crossWeb_of_nothingDue {s : Core} (h : NothingDue s) (prev : Nat) : s.crossWeb prev = s := by
  unfold Core.crossWeb
  rw [Core.crossFire_of_empty h.1]
  exact Core.fireMarkers_of_none h.2
theorem feedKeys_web : feedKeys ⊆ webKeys := by decide
/-- The source becomes PC1, `q` web counts on from `s`, before the event and what φ then crosses. -/
def Core.takenOver (s : Core) (q : Int) : Core :=
  ((s.wr POS_WEB_STATUS.SRC 1).inc POS_WEB_SWITCH_CNT.TAKEOVERS).writeWeb (s.webCount + q)
theorem Core.webTakeover_eq (s : Core) :
    let x := s.pc1Web ((s.pc 1).steps - s.pos.web.latch1)
    s.webTakeover = ((x.2.takenOver x.1).emit 0x0709 (at_ 8 ((x.2.takenOver x.1).webCount / 65536))).crossWeb s.phi := rfl
theorem Core.webTakeover_keeps {s : Core} (hdue : NothingDue s) : Keeps webKeys [0x0F, 0x11, 0x1B] s s.webTakeover := by
  have hp : Feeds s (s.pc1Web ((s.pc 1).steps - s.pos.web.latch1)).2 := .pc1Web _
  rw [s.webTakeover_eq]
  generalize s.pc1Web ((s.pc 1).steps - s.pos.web.latch1) = x at *
  have ht : Feeds ((x.2.wr POS_WEB_STATUS.SRC 1).inc POS_WEB_SWITCH_CNT.TAKEOVERS) (x.2.takenOver x.1) := .writeWeb _
  have htdue : NothingDue (x.2.takenOver x.1) := ht.due (hp.due hdue)
  have hregs : SameRegs webKeys s (x.2.takenOver x.1) :=
    (((hp.regs.mono feedKeys_web).wr 1).inc 1).trans (ht.regs.mono feedKeys_web)
  generalize x.2.takenOver x.1 = t at *
  have hemit : Feeds t (t.emit 0x0709 (at_ 8 (t.webCount / 65536))) := .emit _ _ _
  rw [Core.crossWeb_of_nothingDue (hemit.due htdue)]
  exact .of_regs (hregs.trans (hemit.regs.mono feedKeys_web))
/-- The source returns to PC0 from a lost source. -/
def Core.webRecovered (s : Core) : Core :=
  (s.erSettle.wrs [(POS_WEB_STATUS.SRC, 0), (POS_WEB_STATUS.LOST, 0), (POS_WEB_STATUS.RETURN_PENDING, 0)]).inc
    POS_WEB_SWITCH_CNT.RETURNS
theorem SameRegs.webRecovered (s : Core) :
    SameRegs [POS_WEB_STATUS.SRC.key 0, POS_WEB_STATUS.LOST.key 0, POS_WEB_STATUS.RETURN_PENDING.key 0,
      POS_WEB_SWITCH_CNT.RETURNS.key 0] s s.webRecovered :=
  SameRegs.inc (SameRegs.wrs (.of_regs Repeats.erSettle.regs) (by simp only [List.forall_mem_cons]; decide)) _
theorem Core.webBack_of_lost {s : Core} (hdue : NothingDue s) (hlost : s.rdb POS_WEB_STATUS.LOST = true) :
    s.webBack = s.webRecovered.emit 0x070C (at_ 8 (s.webRecovered.webCount / 65536)) := by
  have hr : NothingDue s.webRecovered := (Feeds.of_repeats Repeats.erSettle).due hdue
  unfold Core.webBack
  rw [hlost]
  exact Core.crossWeb_of_nothingDue (s := s.webRecovered.emit 0x070C (at_ 8 (s.webRecovered.webCount / 65536)))
    ((Feeds.emit _ _ _).due hr) s.phi
/-- A return at a lost source leaves every register of a channel. -/
theorem doWebSourceReturn_keeps {s : Core} (hdue : NothingDue s) (hlost : s.rdb POS_WEB_STATUS.LOST = true) :
    Keeps webKeys [0x0F, 0x11, 0x1B] s (doWebSourceReturn s) := by
  unfold doWebSourceReturn
  rw [if_pos hlost, Core.webBack_of_lost hdue hlost]
  refine .ite (fun _ => .refl) fun _ => ?_
  exact .of_regs (((SameRegs.webRecovered s).mono (by decide)).emit _ _ _ : SameRegs webKeys s _)
theorem Core.webFaults_keeps {s : Core} (hdue : NothingDue s) (ready : Bool) : Keeps webKeys [0x0F, 0x11, 0x1B] s (s.webFaults ready) :=
  .ite (fun _ => .refl) fun _ => .ite
    (fun _ => .ite (fun _ => .refl) fun _ => .ite (fun _ => Core.webTakeover_keeps hdue) fun _ => Core.webLost_keeps s)
    fun _ => .ite (fun _ => Core.webLost_keeps s) fun _ => .refl

/-! ### The ratio and the return (R360, R363) -/

theorem SameRegs.webCount {ks : List Nat} {a b : Core} (h : SameRegs ks a b) (hlo : POS_WEB_COUNT_LO.COUNT.key 0 ∉ ks := by decide)
    (hhi : POS_WEB_COUNT_HI.COUNT.key 0 ∉ ks := by decide) : b.webCount = a.webCount := by
  unfold Core.webCount Core.rd2
  rw [h _ _ hlo, h _ _ hhi]
/-- A measured ratio: its register, and a window that starts afresh. -/
def Core.ratioMeasured (s : Core) (r : Nat) : Core :=
  let s := s.wr POS_WEB_RATIO.R r
  ({ s with pos := { s.pos with web := { s.pos.web with tracked := true, rem := 0 } } } : Core).restartWindow false
/-- With the backup ready where the ratio is within tolerance, and the event where it is not. -/
def Core.ratioShown (s : Core) (r : Nat) : Core :=
  let s := s.ratioMeasured r
  let s := s.wr POS_WEB_STATUS.BACKUP_READY (b2n (s.rdb POS_WEB_CFG.BACKUP_EN && s.ratioOk))
  if s.ratioOk then s else s.emit 0x070A (at_ 4 r)
theorem Core.ratioMeasured_spec (s : Core) (r : Nat) : (s.ratioMeasured r).rd POS_WEB_RATIO.R = r % 2 ^ 32 ∧
    (s.ratioMeasured r).pos.web.tracked = true ∧ (s.ratioMeasured r).pos.web.win0 = (s.pc 0).steps ∧
    SameRegs [POS_WEB_RATIO.R.key 0] s (s.ratioMeasured r) := by
  have hregs : SameRegs [POS_WEB_RATIO.R.key 0] s (s.wr POS_WEB_RATIO.R r) := (SameRegs.refl _ s).wr _ List.mem_cons_self
  exact ⟨Core.rd_wr _ _ _ _, rfl, rfl, hregs⟩
theorem Core.ratioShown_spec (s : Core) (r : Nat) : (s.ratioShown r).rd POS_WEB_RATIO.R = r % 2 ^ 32 ∧
    (s.ratioShown r).pos.web.tracked = true ∧ (s.ratioShown r).pos.web.win0 = (s.pc 0).steps ∧
    SameRegs [POS_WEB_RATIO.R.key 0, POS_WEB_STATUS.BACKUP_READY.key 0, LOG_EVT_OVWR_CNT.COUNT.key 0] s (s.ratioShown r) := by
  unfold Core.ratioShown
  extract_lets m b
  obtain ⟨hr, htracked, hwin, hregs⟩ : m.rd POS_WEB_RATIO.R = r % 2 ^ 32 ∧ m.pos.web.tracked = true ∧ m.pos.web.win0 = (s.pc 0).steps ∧
    SameRegs [POS_WEB_RATIO.R.key 0] s m := s.ratioMeasured_spec r
  clear_value m
  have hb : SameRegs [POS_WEB_STATUS.BACKUP_READY.key 0] m b := (SameRegs.refl _ m).wr _ List.mem_cons_self
  have hpos : b.pos = m.pos := rfl
  clear_value b
  rw [← hpos] at htracked hwin
  split
  · exact ⟨(hb _ _ (by decide)).trans hr, htracked, hwin, (hregs.mono (by decide)).trans (hb.mono (by decide))⟩
  · have hemit : SameRegs [LOG_EVT_OVWR_CNT.COUNT.key 0] b (b.emit 0x070A (at_ 4 r)) := (SameRegs.refl _ b).emit _ _ _
    exact ⟨((hemit _ _ (by decide)).trans (hb _ _ (by decide))).trans hr, by rw [Core.emit_pos]; exact htracked,
      by rw [Core.emit_pos]; exact hwin, (hregs.mono (by decide)).trans ((hb.mono (by decide)).trans (hemit.mono (by decide)))⟩

theorem webRatioWindow_answers {s : State} (hboot : s.field.core.bootState ≠ 1) (h0 : s.field.core.rd POS_STATUS.FAULT 0 = 0)
    (h1 : s.field.core.rd POS_STATUS.FAULT 1 = 0) (hs0 : s.field.core.rd POS_STATUS.STILL 0 = 0)
    (hs1 : s.field.core.rd POS_STATUS.STILL 1 = 0)
    (hlong : 2 ^ s.field.core.rd POS_WEB_CFG.TRACK ≤ ((s.field.core.pc 0).steps - s.field.core.pos.web.win0).natAbs) :
    Answers .webRatioWindow s fun t =>
      t.field.core.rd POS_WEB_RATIO.R =
        satU 32 (((s.field.core.pc 1).steps - s.field.core.pos.web.win1) * 2 ^ 24 /
          ((s.field.core.pc 0).steps - s.field.core.pos.web.win0)).toNat ∧
      t.field.core.pos.web.tracked = true ∧ t.field.core.pos.web.win0 = (s.field.core.pc 0).steps ∧
      SameRegs [POS_WEB_RATIO.R.key 0, POS_WEB_STATUS.BACKUP_READY.key 0, LOG_EVT_OVWR_CNT.COUNT.key 0]
        s.field.core t.field.core ∧ CoreOnly s t := by
  refine answers_of_onRunning rfl hboot ?_
  have honly := CoreOnly.onCore s doWebRatioWindow
  have hcore : (s.onCore doWebRatioWindow).field.core = s.field.core.ratioShown (satU 32
      (((s.field.core.pc 1).steps - s.field.core.pos.web.win1) * 2 ^ 24 /
        ((s.field.core.pc 0).steps - s.field.core.pos.web.win0)).toNat) := by
    change doWebRatioWindow s.field.core = _
    unfold doWebRatioWindow
    extract_lets w d0 d1
    rw [if_neg (by
      simp only [Core.faulted, Core.rdb_eq_false h0, Core.rdb_eq_false h1, Core.rdb_eq_false hs0, Core.rdb_eq_false hs1,
        Bool.false_eq_true, false_or]
      exact Nat.not_lt.2 hlong)]
    rfl
  rw [hcore]
  generalize s.onCore doWebRatioWindow = t at *
  obtain ⟨hr, htracked, hwin, hregs⟩ := s.field.core.ratioShown_spec (satU 32
    (((s.field.core.pc 1).steps - s.field.core.pos.web.win1) * 2 ^ 24 / ((s.field.core.pc 0).steps - s.field.core.pos.web.win0)).toNat)
  exact ⟨hr.trans (Nat.mod_eq_of_lt (satU_lt 32 _)), htracked, hwin, hregs, honly⟩
theorem webSourceReturn_answers {s : State} (hboot : s.field.core.bootState ≠ 1)
    (hpend : s.field.core.rd POS_WEB_STATUS.RETURN_PENDING = 1) (hlost : s.field.core.rd POS_WEB_STATUS.LOST = 1)
    (h0 : s.field.core.rd POS_STATUS.FAULT 0 = 0) (hdue : NothingDue s.field.core) :
    Answers .webSourceReturn s fun t =>
      t.field.core.rd POS_WEB_STATUS.SRC = 0 ∧ t.field.core.rd POS_WEB_STATUS.LOST = 0 ∧
      t.field.core.rd POS_WEB_STATUS.RETURN_PENDING = 0 ∧
      t.field.core.rd POS_WEB_SWITCH_CNT.RETURNS =
        satU POS_WEB_SWITCH_CNT.RETURNS.width (s.field.core.rd POS_WEB_SWITCH_CNT.RETURNS + 1) ∧
      t.field.core.webCount = s.field.core.webCount ∧
      SameOutside [0x0E, 0x11, 0x12, 0x1B] s.field.core t.field.core ∧ CoreOnly s t := by
  refine answers_of_onRunning rfl hboot ?_
  have honly := CoreOnly.onCore s doWebSourceReturn
  have hcore : (s.onCore doWebSourceReturn).field.core = s.field.core.webRecovered.emit 0x070C
      (at_ 8 (s.field.core.webRecovered.webCount / 65536)) := by
    change doWebSourceReturn s.field.core = _
    have hset : s.field.core.rdb POS_WEB_STATUS.LOST = true := Core.rdb_eq_true (by rw [hlost]; decide)
    unfold doWebSourceReturn
    rw [if_neg (by simp [Core.faulted, Core.rdb, hpend, h0]), if_pos hset, Core.webBack_of_lost hdue hset]
  rw [hcore]
  generalize s.onCore doWebSourceReturn = t at *
  have hregs := SameRegs.webRecovered s.field.core
  have hret : s.field.core.webRecovered.rd POS_WEB_SWITCH_CNT.RETURNS =
      satU POS_WEB_SWITCH_CNT.RETURNS.width (s.field.core.rd POS_WEB_SWITCH_CNT.RETURNS + 1) := by
    unfold Core.webRecovered
    rw [Core.rd_inc_self, Core.rd_wrs_ne _ _ _ _ _ (by simp only [List.forall_mem_cons]; decide), Repeats.erSettle.rd]
  have hzero : s.field.core.webRecovered.rd POS_WEB_STATUS.SRC = 0 ∧ s.field.core.webRecovered.rd POS_WEB_STATUS.LOST = 0 ∧
      s.field.core.webRecovered.rd POS_WEB_STATUS.RETURN_PENDING = 0 := by
    unfold Core.webRecovered
    simp (disch := decide) only [Core.wrs, List.foldl_cons, List.foldl_nil, Core.rd_inc_ne, Core.rd_wr_ne, Core.rd_wr]
    exact ⟨rfl, rfl, rfl⟩
  generalize s.field.core.webRecovered = r at *
  have hemit : SameRegs [LOG_EVT_OVWR_CNT.COUNT.key 0] r (r.emit 0x070C (at_ 8 (r.webCount / 65536))) := (SameRegs.refl _ r).emit _ _ _
  obtain ⟨hsrc, hlost, hpend⟩ := hzero
  refine ⟨(hemit _ _ (by decide)).trans hsrc, (hemit _ _ (by decide)).trans hlost, (hemit _ _ (by decide)).trans hpend,
    (hemit _ _ (by decide)).trans hret, ?_, (hregs.outside (by decide)).trans (hemit.outside (by decide)), honly⟩
  rw [hemit.webCount, hregs.webCount]

theorem regAct_webReturn {v : Nat} {s : Core} (hv : v.testBit 0 = true) (hkept : s.rd POS_WEB_STATUS.LOST = 0) :
    regAct (POS_WEB_CTL.RETURN.addr 0) v s = (.ok 0, s.wr POS_WEB_STATUS.RETURN_PENDING 1) := by
  have hspecial : regWriteSpecial (POS_WEB_CTL.RETURN.addr 0) v s = some (.ok 0, if bit v 0 then s.webReturn else s) := by rfl
  have hbit : bit v 0 = true := hv
  have hlost : (s.wr POS_WEB_STATUS.RETURN_PENDING 1).rdb POS_WEB_STATUS.LOST = false :=
    Core.rdb_eq_false ((Core.rd_wr_ne _ _ _ _ _ _ (by decide)).trans hkept)
  unfold regAct
  rw [hspecial, Option.getD_some, hbit, if_pos rfl]
  unfold Core.webReturn
  dsimp only
  rw [hlost]
  rfl
theorem posWebReturn_answers {c : Call} {v : Word} {s : State} (hc : CleanHeader c 8) (hr : Runs c 0x0101 2 s)
    (hcdc : s.field.core.cdc.out = []) (hlock : s.field.core.rd SYS_LOCK.CFG_LOCK = 0)
    (hkept : s.field.core.rd POS_WEB_STATUS.LOST = 0) (hv : v.toNat.testBit 0 = true) :
    Answers (.posWebReturn c v) s fun t =>
      Completed c 0x0101 0 0 s t ∧ t.field.core.rd POS_WEB_STATUS.RETURN_PENDING = 1 ∧
      CommandFrame c 0x0101 [POS_WEB_STATUS.RETURN_PENDING.key 0] s t ∧ Quiet s.field.core t.field.core := by
  have htaken := SameRegs.taken c 0x0101 [POS_WEB_STATUS.RETURN_PENDING.key 0] s
  have hquiet := Quiet.taken c 0x0101 s
  have hstored := regAct_webReturn hv ((rd_taken c 0x0101 s POS_WEB_STATUS.LOST 0 (by decide)).trans hkept)
  obtain ⟨t, ht, hdone⟩ := regWrite_done (i := .posWebReturn c v) rfl hc hr (by decide)
    (Nat.le_trans (by decide) (hr.priv_ge (by decide))) ⟨Core.crosses_of_none (by rw [taken_cdc]; exact hcdc) _,
      Core.present_shared _ (by decide), taken_unlocked hlock _ _⟩ hstored (.inl ⟨0, rfl⟩) (taken_etime c 0x0101 s) rfl
  generalize (s.taken c 0x0101).field.core = τ at *
  refine ⟨t, ht, hdone.completed, ?_, hdone.frame fun f n hf => ?_, (hquiet.trans (Quiet.wr _ _ _ _)).trans hdone.rest.quiet⟩
  · rw [hdone.rd _ _ (by decide), Core.rd_wr]
    rfl
  · exact (Core.rd_wr_ne _ _ _ _ _ _ fun e => hf (by rw [e]; decide)).trans (htaken f n hf)

/-- Settles O35: the measured ratio, the return from a lost source, and the request of one. -/
theorem webSourceMeasuresAndReturns : Obligations.WebSourceMeasuresAndReturns := by
  unfold Obligations.WebSourceMeasuresAndReturns
  intro s hboot
  exact ⟨webRatioWindow_answers hboot, webSourceReturn_answers hboot,
    fun c v hc hr hcdc hlock hkept hv => posWebReturn_answers hc hr hcdc hlock hkept hv⟩

/-! ### A fault that is found (R348, R350) -/

/-- The faults whose bit stands for FAULT too. -/
def standing : List PosFault := [.los, .hall, .amp, .rate, .sup]
theorem faultKeys_facts : ∀ ch : Fin 8, ∀ f ∈ standing, (faultFld f).key ch.val ≠ POS_STATUS.FAULT.key ch.val ∧
    (faultFld f).key ch.val ≠ POS_SPEED.SPEED.key ch.val ∧ POS_STATUS.FAULT.key ch.val ≠ POS_SPEED.SPEED.key ch.val ∧
    (∀ g ∈ [faultFld f, POS_STATUS.FAULT, POS_SPEED.SPEED, POS_ERR_CNT.AMP], g.key ch.val ∉ webKeys ∧ g.block ch.val = 0x0E) ∧
    (∀ g ∈ [faultFld f, POS_STATUS.FAULT, POS_SPEED.SPEED], g.key ch.val ≠ POS_ERR_CNT.AMP.key ch.val) := by decide
/-- A bit is set that FAULT stands for. -/
def Core.anyFault (s : Core) (ch : Nat) : Bool :=
  s.rdb POS_STATUS.LOS ch || s.rdb POS_STATUS.HALL_BAD ch || s.rdb POS_STATUS.AMP ch || s.rdb POS_STATUS.RATE ch ||
    s.rdb POS_STATUS.SUP ch
theorem Core.anyFault_of {s : Core} {ch : Nat} {f : PosFault} (hf : f ∈ standing) (h : s.rdb (faultFld f) ch = true) :
    s.anyFault ch = true := by
  unfold Core.anyFault
  simp only [standing, List.mem_cons, List.not_mem_nil, or_false] at hf
  rcases hf with rfl | rfl | rfl | rfl | rfl <;> (rw [faultFld] at h; simp [h])
/-- FAULT of a channel follows its bits; of PC0 and PC1 the web's status does too. -/
theorem Core.refreshFault_spec (s : Core) (ch : Nat) :
    SameRegs [POS_STATUS.FAULT.key ch, POS_WEB_STATUS.PC0_OK.key 0, POS_WEB_STATUS.PC1_OK.key 0] s (s.refreshFault ch) ∧
    (2 ≤ ch → SameRegs [POS_STATUS.FAULT.key ch] s (s.refreshFault ch)) ∧
    ((∀ g ∈ [POS_WEB_STATUS.PC0_OK, POS_WEB_STATUS.PC1_OK], POS_STATUS.FAULT.key ch ≠ g.key 0) →
      (s.refreshFault ch).rd POS_STATUS.FAULT ch = b2n (s.anyFault ch)) ∧
    s.refreshFault ch = { s with regs := (s.refreshFault ch).regs } := by
  unfold Core.refreshFault
  extract_lets any t ok
  have ht : SameRegs [POS_STATUS.FAULT.key ch] s t := (SameRegs.refl _ s).wr _ List.mem_cons_self
  have hfault : t.rd POS_STATUS.FAULT ch = b2n (s.anyFault ch) := by
    refine (Core.rd_wr _ _ _ _).trans ?_
    change b2n any % 2 = b2n any
    cases any <;> rfl
  have hrest : t = { s with regs := t.regs } := rfl
  clear_value t
  split
  · refine ⟨(ht.mono (by simp)).wr _ (by simp), fun h => by omega, fun hne => ?_, by rw [hrest]; rfl⟩
    exact (Core.rd_wr_ne _ _ _ _ _ _ (hne _ (by decide))).trans hfault
  · split
    · refine ⟨(ht.mono (by simp)).wr _ (by simp), fun h => by omega, fun hne => ?_, by rw [hrest]; rfl⟩
      exact (Core.rd_wr_ne _ _ _ _ _ _ (hne _ (by decide))).trans hfault
    · exact ⟨ht.mono (by simp), fun _ => ht, fun _ => hfault, hrest⟩
/-- What a detected fault, other than SSI, leaves; `n` is the count of amplitude errors. -/
structure FaultRaised (ch : Nat) (f : PosFault) (n : Nat) (s t : Core) : Prop where
  bit : t.rd (faultFld f) ch = 1
  shown : t.rd POS_STATUS.FAULT ch = 1
  still : t.rd POS_SPEED.SPEED ch = 0
  amps : t.rd POS_ERR_CNT.AMP ch = n
  due : NothingDue s → NothingDue t
  frame : 2 ≤ ch → f ≠ .amp → SameRegs [(faultFld f).key ch, POS_STATUS.FAULT.key ch, POS_SPEED.SPEED.key ch,
    LOG_EVT_OVWR_CNT.COUNT.key 0] s t
/-- The marks of a fault: its bit, what FAULT makes of it, and speed 0. -/
def Core.faultMarked (s : Core) (ch : Nat) (f : PosFault) : Core := ((s.wr (faultFld f) 1 ch).refreshFault ch).wr POS_SPEED.SPEED 0 ch
theorem faultFld_width : ∀ f ∈ standing, (faultFld f).width = 1 := by decide
theorem Core.faultMarked_raised (s : Core) (ch : Fin 8) {f : PosFault} (hf : f ∈ standing) :
    FaultRaised ch.val f (s.rd POS_ERR_CNT.AMP ch.val) s (s.faultMarked ch.val f) := by
  obtain ⟨hbs, hbp, hsp, hweb, hamp⟩ := faultKeys_facts ch f hf
  have hweb' : ∀ g ∈ [faultFld f, POS_STATUS.FAULT, POS_SPEED.SPEED, POS_ERR_CNT.AMP],
      g.key ch.val ≠ POS_WEB_STATUS.PC0_OK.key 0 ∧ g.key ch.val ≠ POS_WEB_STATUS.PC1_OK.key 0 := fun g hg =>
    ⟨fun h => (hweb g hg).1 (by rw [h]; decide), fun h => (hweb g hg).1 (by rw [h]; decide)⟩
  simp only [List.forall_mem_cons, List.not_mem_nil, IsEmpty.forall_iff, implies_true, and_true] at hweb' hamp
  obtain ⟨⟨hb0, hb1⟩, ⟨hs0, hs1⟩, -, ha0, ha1⟩ := hweb'
  obtain ⟨hba, hsa, hpa⟩ := hamp
  obtain ⟨hregs, hhigh, hshown, hrest⟩ := (s.wr (faultFld f) 1 ch.val).refreshFault_spec ch.val
  have hbit : (s.wr (faultFld f) 1 ch.val).rd (faultFld f) ch.val = 1 := by
    rw [Core.rd_wr, faultFld_width f hf]; rfl
  unfold Core.faultMarked
  constructor
  case bit =>
    rw [Core.rd_wr_ne _ _ _ _ _ _ hbp, hregs _ _ (by simpa using ⟨hbs, hb0, hb1⟩), hbit]
  case shown =>
    rw [Core.rd_wr_ne _ _ _ _ _ _ hsp, hshown (by simpa using ⟨hs0, hs1⟩), Core.anyFault_of hf (Core.rdb_eq_true (by rw [hbit]; decide))]
    rfl
  case still => exact Core.rd_wr _ _ _ _
  case amps =>
    rw [Core.rd_wr_ne _ _ _ _ _ _ hpa.symm, hregs _ _ (by simpa using ⟨hsa.symm, ha0, ha1⟩), Core.rd_wr_ne _ _ _ _ _ _ hba.symm]
  case due => exact fun h => by rw [hrest]; exact h
  case frame =>
    intro hch _
    have h1 : SameRegs [(faultFld f).key ch, POS_STATUS.FAULT.key ch, POS_SPEED.SPEED.key ch, LOG_EVT_OVWR_CNT.COUNT.key 0] s
        (s.wr (faultFld f) 1 ch.val) := (SameRegs.refl _ s).wr _ List.mem_cons_self
    exact (h1.trans ((hhigh hch).mono (by simp))).wr _ (by simp)
theorem FaultRaised.emitEvery {n : Nat} {s t : Core} {ch : Fin 8} {f : PosFault} (hf : f ∈ standing) (h : FaultRaised ch.val f n s t)
    (gap code inst : Nat) (data : Nat → Nat) : FaultRaised ch.val f n s (t.emitEvery gap code inst data) := by
  have hw : Within [0x1B] [.cmdq, .limits] t (t.emitEvery gap code inst data) := (Within.refl _ _ t).emitEvery _ _ _ _
  have hrd : ∀ g ∈ [faultFld f, POS_STATUS.FAULT, POS_SPEED.SPEED, POS_ERR_CNT.AMP],
      (t.emitEvery gap code inst data).rd g ch.val = t.rd g ch.val := fun g hg =>
    hw.rd g ch.val (by rw [((faultKeys_facts ch f hf).2.2.2.1 g hg).2]; decide)
  have hpos := hw.parts .pos (by decide)
  have hspg := hw.parts .spg (by decide)
  exact
    { bit := (hrd _ (by simp)).trans h.bit
      shown := (hrd _ (by simp)).trans h.shown
      still := (hrd _ (by simp)).trans h.still
      amps := (hrd _ (by simp)).trans h.amps
      due := fun hs => (h.due hs).imp (fun hp => (congrArg (fun p : PosSt => p.cmp.pool) hpos).trans hp)
        fun hm => (congrArg SpgSt.markers hspg).trans hm
      frame := fun hch hne => (h.frame hch hne).emitEvery _ _ _ _ (by simp) }
theorem Core.raiseFault_raised (s : Core) (ch : Fin 8) {f : PosFault} (hf : f ∈ standing) (hbit : s.rd (faultFld f) ch.val = 0) :
    FaultRaised ch.val f (if f = .amp then satU POS_ERR_CNT.AMP.width (s.rd POS_ERR_CNT.AMP ch.val + 1) else s.rd POS_ERR_CNT.AMP ch.val)
      s (s.raiseFault ch.val f) := by
  unfold Core.raiseFault
  rw [if_neg (c := s.rdb (faultFld f) ch.val = true) (by rw [Core.rdb_eq_false hbit]; decide)]
  extract_lets a b c d e g
  have hssi : f ≠ .ssi := fun h => by subst h; simp [standing] at hf
  have hd : d = c.faultMarked ch.val f := by
    simp only [d, Core.faultMarked, if_neg hssi]
  have hmark := c.faultMarked_raised ch hf
  rw [← hd] at hmark
  have he : FaultRaised ch.val f (c.rd POS_ERR_CNT.AMP ch.val) c e := by
    unfold e
    split
    · exact { hmark with }
    · exact hmark
  obtain ⟨-, -, -, hweb, hamp⟩ := faultKeys_facts ch f hf
  have hne : ∀ g ∈ [faultFld f, POS_STATUS.FAULT, POS_SPEED.SPEED, POS_ERR_CNT.AMP],
      g.key ch.val ≠ POS_WEB_STATUS.BACKUP_READY.key 0 := fun g hg h => (hweb g hg).1 (by rw [h]; decide)
  have hc : c.regs = s.regs := Repeats.erSettle.regs
  have hcdue : NothingDue s → NothingDue c := (Feeds.of_repeats Repeats.erSettle).due
  have hg : FaultRaised ch.val f (c.rd POS_ERR_CNT.AMP ch.val) c g := by
    unfold g
    split
    next h =>
      exact
        { bit := (Core.rd_wr_ne _ _ _ _ _ _ (hne _ (by simp))).trans he.bit
          shown := (Core.rd_wr_ne _ _ _ _ _ _ (hne _ (by simp))).trans he.shown
          still := (Core.rd_wr_ne _ _ _ _ _ _ (hne _ (by simp))).trans he.still
          amps := (Core.rd_wr_ne _ _ _ _ _ _ (hne _ (by simp))).trans he.amps
          due := he.due
          frame := fun hch => by omega }
    · exact he
  clear_value c g
  have hs : FaultRaised ch.val f (s.rd POS_ERR_CNT.AMP ch.val) s g :=
    { hg with
      amps := hg.amps.trans (Core.rd_congr hc _ _)
      due := fun h => hg.due (hcdue h)
      frame := fun hch hamp => (SameRegs.of_regs hc).trans (hg.frame hch hamp) }
  have hinc : f = .amp → FaultRaised ch.val f (satU POS_ERR_CNT.AMP.width (s.rd POS_ERR_CNT.AMP ch.val + 1)) s
      (g.inc POS_ERR_CNT.AMP ch.val) := fun h =>
    { bit := (Core.rd_inc_ne _ _ _ _ _ _ (hamp _ (by simp))).trans hs.bit
      shown := (Core.rd_inc_ne _ _ _ _ _ _ (hamp _ (by simp))).trans hs.shown
      still := (Core.rd_inc_ne _ _ _ _ _ _ (hamp _ (by simp))).trans hs.still
      amps := (Core.rd_inc_self _ _ _ _).trans (by rw [hs.amps])
      due := hs.due
      frame := fun _ hn => absurd h hn }
  cases f with
  | los => exact hs.emitEvery hf _ _ _ _
  | hall => exact hs.emitEvery hf _ _ _ _
  | amp => exact (hinc rfl).emitEvery hf _ _ _ _
  | rate => exact hs.emitEvery hf _ _ _ _
  | ssi => exact absurd rfl hssi
  | sup => exact hs

theorem Core.webFaults_sound {s : Core} (h0 : s.rd POS_STATUS.FAULT 0 = 0) (h1 : s.rd POS_STATUS.FAULT 1 = 0) (ready : Bool) :
    s.webFaults ready = s := by
  unfold Core.webFaults Core.faulted
  rw [Core.rdb_eq_false h0, Core.rdb_eq_false h1]
  simp
theorem Core.awaitHall_of_ne {g : PosSign} (hg : g ≠ .illegal) (s : Core) (ch : Nat) : s.awaitHall ch g = s := by
  cases g <;> first | rfl | exact absurd rfl hg
theorem doPosFaultDetect_one {g : PosSign} (hg : g ≠ .illegal) (s : Core) (ch : Nat) :
    doPosFaultDetect [(ch, g)] s =
      (if s.signMet ch g then s.raiseFault ch (signFault g) else s).webFaults (s.rdb POS_WEB_STATUS.BACKUP_READY) := by
  simp only [doPosFaultDetect, List.foldl_cons, List.foldl_nil, Core.awaitHall_of_ne hg]
theorem webFault_keys : ∀ ch : Fin 8, 2 ≤ ch.val → ∀ f ∈ standing, ∀ k : Fin 2, POS_STATUS.FAULT.key k.val ∉
    [(faultFld f).key ch.val, POS_STATUS.FAULT.key ch.val, POS_SPEED.SPEED.key ch.val, LOG_EVT_OVWR_CNT.COUNT.key 0] := by decide
/-- One fault found of one channel, where PC0 and PC1 are sound. -/
theorem posFaultDetect_answers {ch : Fin 8} {g : PosSign} {s : State} (hboot : s.field.core.bootState ≠ 1)
    (hdue : NothingDue s.field.core) (h0 : s.field.core.rd POS_STATUS.FAULT 0 = 0) (h1 : s.field.core.rd POS_STATUS.FAULT 1 = 0)
    (hg : g ≠ .illegal) (hf : signFault g ∈ standing) (hmet : s.field.core.signMet ch.val g = true)
    (hbit : s.field.core.rd (faultFld (signFault g)) ch.val = 0) :
    Answers (.posFaultDetect (ch, g) []) s fun t =>
      t.field.core.rd (faultFld (signFault g)) ch.val = 1 ∧ t.field.core.rd POS_STATUS.FAULT ch.val = 1 ∧
      t.field.core.rd POS_SPEED.SPEED ch.val = 0 ∧
      t.field.core.rd POS_ERR_CNT.AMP ch.val = (if signFault g = .amp then
        satU POS_ERR_CNT.AMP.width (s.field.core.rd POS_ERR_CNT.AMP ch.val + 1) else s.field.core.rd POS_ERR_CNT.AMP ch.val) ∧
      (2 ≤ ch.val → signFault g ≠ .amp → SameRegs [(faultFld (signFault g)).key ch.val, POS_STATUS.FAULT.key ch.val,
        POS_SPEED.SPEED.key ch.val, LOG_EVT_OVWR_CNT.COUNT.key 0] s.field.core t.field.core) ∧ CoreOnly s t := by
  refine answers_of_onRunning (g := doPosFaultDetect [(ch.val, g)]) rfl hboot ?_
  have hcore := CoreOnly.onCore s (doPosFaultDetect [(ch.val, g)])
  rw [← and_assoc, ← and_assoc, ← and_assoc, ← and_assoc]
  refine ⟨?_, hcore⟩
  rw [State.onCore, Field.onCore, doPosFaultDetect_one hg, if_pos hmet]
  have hr := s.field.core.raiseFault_raised ch hf hbit
  generalize s.field.core.raiseFault ch.val (signFault g) = x at *
  generalize s.field.core.rdb POS_WEB_STATUS.BACKUP_READY = ready
  have hkeep := Core.webFaults_keeps (hr.due hdue) ready
  have hfacts := (faultKeys_facts ch _ hf).2.2.2.1
  have hrd : ∀ f ∈ [faultFld (signFault g), POS_STATUS.FAULT, POS_SPEED.SPEED, POS_ERR_CNT.AMP],
      (x.webFaults ready).rd f ch.val = x.rd f ch.val := fun f hm =>
    hkeep f ch.val (hfacts f hm).1 (by rw [(hfacts f hm).2]; decide)
  refine ⟨⟨⟨⟨?_, ?_⟩, ?_⟩, ?_⟩, fun hch hne => ?_⟩
  · exact (hrd _ (by simp)).trans hr.bit
  · exact (hrd _ (by simp)).trans hr.shown
  · exact (hrd _ (by simp)).trans hr.still
  · exact (hrd _ (by simp)).trans hr.amps
  · have hk := webFault_keys ch hch _ hf
    have hsame := hr.frame hch hne
    change SameRegs _ _ (x.webFaults ready)
    rw [Core.webFaults_sound ((hsame _ _ (hk 0)).trans h0) ((hsame _ _ (hk 1)).trans h1)]
    exact hsame
theorem posFaultDetect_none {ch : Fin 8} {g : PosSign} {s : State} (hboot : s.field.core.bootState ≠ 1)
    (h0 : s.field.core.rd POS_STATUS.FAULT 0 = 0) (h1 : s.field.core.rd POS_STATUS.FAULT 1 = 0)
    (hg : g ≠ .illegal) (hmet : s.field.core.signMet ch.val g = false) :
    Answers (.posFaultDetect (ch, g) []) s fun t => t = s := by
  refine answers_of_onRunning (g := doPosFaultDetect [(ch.val, g)]) rfl hboot ?_
  have : doPosFaultDetect [(ch.val, g)] s.field.core = s.field.core := by
    rw [doPosFaultDetect_one hg, if_neg (by rw [hmet]; decide), Core.webFaults_sound h0 h1]
  rw [State.onCore, Field.onCore, this]

/-! ### A fault that clears (R349, R350) -/

/-- LOS of a channel is cleared, and SUSPECT set, before the event. -/
def Core.losCleared (s : Core) (ch : Nat) : Core :=
  let s := ((s.erSettle.wr POS_STATUS.LOS 0 ch).refreshFault ch).erLevels
  let s := if ch < 2 then s.restartWindow false else s
  s.wr POS_STATUS.SUSPECT 1 ch
def losKeys (ch : Nat) : List Nat := [POS_STATUS.LOS.key ch, POS_STATUS.FAULT.key ch, POS_STATUS.SUSPECT.key ch]
/-- The fault bits beside LOS. -/
def otherFaults : List Fld := [POS_STATUS.HALL_BAD, POS_STATUS.AMP, POS_STATUS.SSI, POS_STATUS.RATE, POS_STATUS.SUP]
theorem losKeys_facts : ∀ ch : Fin 8, (losKeys ch.val ++ [POS_WEB_STATUS.PC0_OK.key 0, POS_WEB_STATUS.PC1_OK.key 0,
    POS_CFG.TYPE.key ch.val]).Nodup ∧
    (∀ f ∈ [POS_STATUS.LOS, POS_STATUS.SUSPECT, POS_CFG.TYPE], f.key ch.val ∉ webKeys ∧ f.block ch.val = 0x0E) ∧
    (∀ f ∈ otherFaults, f.key ch.val ∉ losKeys ch.val) := by
  decide
theorem losKeys_log : ∀ ch : Fin 8, ∀ f ∈ [POS_STATUS.LOS, POS_STATUS.FAULT, POS_STATUS.SUSPECT],
    f.key ch.val ≠ LOG_EVT_OVWR_CNT.COUNT.key 0 := by decide
theorem Core.losCleared_spec (s : Core) (ch : Fin 8) :
    (s.losCleared ch.val).rd POS_STATUS.LOS ch.val = 0 ∧ (s.losCleared ch.val).rd POS_STATUS.SUSPECT ch.val = 1 ∧
    (s.losCleared ch.val).rd POS_CFG.TYPE ch.val = s.rd POS_CFG.TYPE ch.val ∧
    (2 ≤ ch.val → SameRegs (losKeys ch.val) s (s.losCleared ch.val)) ∧
    ((∀ g ∈ otherFaults, s.rd g ch.val = 0) →
      (s.losCleared ch.val).rd POS_STATUS.FAULT ch.val = 0) ∧
    (NothingDue s → NothingDue (s.losCleared ch.val)) ∧
    s.losCleared ch.val = { s with regs := (s.losCleared ch.val).regs, pos := (s.losCleared ch.val).pos } := by
  obtain ⟨hnodup, -, hother⟩ := losKeys_facts ch
  simp only [losKeys, List.cons_append, List.nil_append, List.nodup_cons, List.mem_cons, List.not_mem_nil, or_false, not_or]
    at hnodup
  obtain ⟨⟨hlf, hls, hl0, hl1, hlt⟩, ⟨hfs, hf0, hf1, hft⟩, ⟨hs0, hs1, hst⟩, ⟨-, h0t⟩, h1t, -⟩ := hnodup
  unfold Core.losCleared
  have hsettle : Feeds s s.erSettle := .of_repeats Repeats.erSettle
  have hsregs : s.erSettle.regs = s.regs := Repeats.erSettle.regs
  have hsrest : s.erSettle = { s with pos := s.erSettle.pos } := by
    rw [(Repeats.erSettle : s.erSettle = _)]
  generalize s.erSettle = e at *
  extract_lets a b
  obtain ⟨hregs, hhigh, hshown, hrest⟩ := (e.wr POS_STATUS.LOS 0 ch.val).refreshFault_spec ch.val
  have hshown := hshown (by simpa using ⟨hf0, hf1⟩)
  have ha : Repeats ((e.wr POS_STATUS.LOS 0 ch.val).refreshFault ch.val) a := Repeats.erLevels
  generalize (e.wr POS_STATUS.LOS 0 ch.val).refreshFault ch.val = r at *
  have hb : b.regs = r.regs := by
    unfold b
    split <;> exact ha.regs
  have hbrest : b = { s with regs := b.regs, pos := b.pos } ∧ b.pos.cmp = e.pos.cmp := by
    unfold b
    rw [ha, hrest, hsrest]
    split <;> exact ⟨rfl, rfl⟩
  clear_value b
  have hlos : r.rd POS_STATUS.LOS ch.val = 0 := by
    rw [hregs _ _ (by simpa using ⟨hlf, hl0, hl1⟩)]
    exact Core.rd_wr _ _ _ _
  have hread : ∀ g n, g.key n ≠ POS_STATUS.SUSPECT.key ch.val → (b.wr POS_STATUS.SUSPECT 1 ch.val).rd g n = r.rd g n := fun g n h =>
    (Core.rd_wr_ne _ _ _ _ _ _ h).trans (Core.rd_congr hb _ _)
  have hfirst : ∀ g n, g.key n ≠ POS_STATUS.LOS.key ch.val → (e.wr POS_STATUS.LOS 0 ch.val).rd g n = s.rd g n := fun g n h =>
    (Core.rd_wr_ne _ _ _ _ _ _ h).trans (Core.rd_congr hsregs _ _)
  refine ⟨(hread _ _ hls).trans hlos, Core.rd_wr _ _ _ _, ?_, fun hch g n hk => ?_, fun hnone => ?_, fun hdue => ?_, ?_⟩
  · rw [hread _ _ (Ne.symm hst), hregs _ _ (by simpa using ⟨Ne.symm hft, Ne.symm h0t, Ne.symm h1t⟩), hfirst _ _ (Ne.symm hlt)]
  · simp only [losKeys, List.mem_cons, List.not_mem_nil, or_false, not_or] at hk
    rw [hread _ _ hk.2.2, hhigh hch _ _ (by simpa using hk.2.1), hfirst _ _ hk.1]
  · rw [hread _ _ hfs, hshown]
    have hgone : (e.wr POS_STATUS.LOS 0 ch.val).rdb POS_STATUS.LOS ch.val = false := Core.rdb_wr _ _ _ _
    have hsound : ∀ g ∈ otherFaults, (e.wr POS_STATUS.LOS 0 ch.val).rdb g ch.val = false := fun g hg =>
      Core.rdb_eq_false ((hfirst g _ fun h => hother g hg (by rw [h]; exact List.mem_cons_self)).trans (hnone g hg))
    simp only [otherFaults, List.forall_mem_cons, List.not_mem_nil, IsEmpty.forall_iff, implies_true, and_true] at hsound
    obtain ⟨h1, h2, -, h3, h4⟩ := hsound
    simp only [Core.anyFault, hgone, h1, h2, h3, h4]
    rfl
  · exact ⟨(congrArg CmpSt.pool hbrest.2).trans (hsettle.due hdue).1, by rw [hbrest.1]; exact hdue.2⟩
  · rw [hbrest.1]
    rfl
/-- What is left of the clearing after SUSPECT is set concerns the event and the web alone. -/
theorem Core.clearFault_los {s : Core} {ch : Nat} (hty : (s.losCleared ch).rd POS_CFG.TYPE ch ≠ 4)
    (hbit : s.rd POS_STATUS.LOS ch = 1) : s.clearFault ch .los =
      let t := if (s.losCleared ch).faultBits ch = 0 then (s.losCleared ch).emit 0x0706 ch else s.losCleared ch
      if ch = 0 ∧ t.rdb POS_WEB_STATUS.LOST then doWebSourceReturn t else t := by
  have hb : (!s.rdb POS_STATUS.LOS ch) = false := by rw [Core.rdb_eq_true (by rw [hbit]; decide)]; rfl
  have ht : (s.losCleared ch).rd POS_CFG.TYPE ch = 4 ↔ False := by simpa using hty
  simp only [Core.losCleared] at ht
  simp only [Core.clearFault, hb, Core.losCleared, ht, faultFld, true_or, if_true, and_false, if_false, Bool.false_eq_true]
  rfl
theorem Core.clearFault_los_keeps {s : Core} {ch : Nat} (hdue : NothingDue (s.losCleared ch))
    (hty : (s.losCleared ch).rd POS_CFG.TYPE ch ≠ 4) (hbit : s.rd POS_STATUS.LOS ch = 1) :
    Keeps webKeys [0x0F, 0x11, 0x1B] (s.losCleared ch) (s.clearFault ch .los) := by
  rw [Core.clearFault_los hty hbit]
  extract_lets t
  have ht : Feeds (s.losCleared ch) t := .ite (fun _ => .emit _ _ _) fun _ => .refl
  clear_value t
  have hk : Keeps webKeys [0x0F, 0x11, 0x1B] (s.losCleared ch) t := .of_regs (ht.regs.mono feedKeys_web)
  exact .ite (fun h => hk.trans (doWebSourceReturn_keeps (ht.due hdue) h.2)) fun _ => hk
/-- A channel whose LOS clears, with what its type may add left out: a quadrature channel's count does not jump. -/
theorem doPosFaultClear_los {s : Core} {ch : Fin 8} (phase : Int) (hdue : NothingDue s) (hty : s.rd POS_CFG.TYPE ch.val = 1)
    (hbit : s.rd POS_STATUS.LOS ch.val = 1) : doPosFaultClear ch.val .los phase s =
      (s.reach (mget 0 (s.pc ch.val).seen (faultIx .los) + 1000000)).clearFault ch.val .los := by
  unfold doPosFaultClear
  generalize hr : s.reach (mget 0 (s.pc ch.val).seen (faultIx .los) + 1000000) = r
  have hrty : r.rd POS_CFG.TYPE ch.val = 1 := by rw [← hr]; exact hty
  have hrbit : r.rd POS_STATUS.LOS ch.val = 1 := by rw [← hr]; exact hbit
  have hrdue : NothingDue r := by rw [← hr]; exact hdue
  obtain ⟨-, -, hcty, -, -, hcdue, -⟩ := r.losCleared_spec ch
  have hfacts := (losKeys_facts ch).2.1 POS_CFG.TYPE (by simp)
  have hty' : (r.clearFault ch.val .los).rd POS_CFG.TYPE ch.val = 1 := by
    rw [Core.clearFault_los_keeps (hcdue hrdue) (by rw [hcty, hrty]; decide) hrbit _ _ hfacts.1 (by rw [hfacts.2]; decide), hcty, hrty]
  rw [if_neg (by rw [faultFld, Core.rdb_eq_true (by rw [hbit]; decide), Core.signalGood]; simp)]
  simp only [hty']
  rfl
/-- No fault bit of the channel but SUSPECT's. -/
theorem Core.faultBits_zero {s : Core} {ch : Nat} (h : ∀ f ∈ [POS_STATUS.FAULT, POS_STATUS.LOS, POS_STATUS.HALL_BAD, POS_STATUS.AMP,
    POS_STATUS.SSI, POS_STATUS.RATE, POS_STATUS.SUP], s.rd f ch = 0) : s.faultBits ch = 0 := by
  simp only [List.forall_mem_cons, List.not_mem_nil, IsEmpty.forall_iff, implies_true, and_true] at h
  obtain ⟨h0, h1, h2, h3, h4, h5, h6⟩ := h
  simp only [Core.faultBits, Core.word, List.foldl_cons, List.foldl_nil, h0, h1, h2, h3, h4, h5, h6, Nat.zero_mul]
/-- What clears at a channel that is not the web's, where no other fault is left. -/
theorem Core.clearFault_los_high {s : Core} {ch : Fin 8} (hch : 2 ≤ ch.val) (hty : s.rd POS_CFG.TYPE ch.val = 1)
    (hbit : s.rd POS_STATUS.LOS ch.val = 1)
    (hnone : ∀ g ∈ otherFaults, s.rd g ch.val = 0) :
    (s.losCleared ch.val).rd POS_STATUS.FAULT ch.val = 0 ∧
    s.clearFault ch.val .los = (s.losCleared ch.val).emit 0x0706 ch.val := by
  obtain ⟨hlos, hsus, htype, hsame, hfault, -⟩ := s.losCleared_spec ch
  have hfault := hfault hnone
  have hbits : (s.losCleared ch.val).faultBits ch.val = 0 := Core.faultBits_zero (by
    have hother := fun g hg => (hsame hch _ _ ((losKeys_facts ch).2.2 g hg)).trans (hnone g hg)
    simp only [otherFaults, List.forall_mem_cons, List.not_mem_nil, IsEmpty.forall_iff, implies_true, and_true] at hother ⊢
    exact ⟨hfault, hlos, hother⟩)
  refine ⟨hfault, ?_⟩
  rw [Core.clearFault_los (by rw [htype, hty]; decide) hbit]
  simp only [hbits, if_true]
  rw [if_neg fun h => by omega]
theorem posFaultClear_high {ch : Fin 8} (phase : BitVec 16) {s : State} (hboot : s.field.core.bootState ≠ 1) (hdue : NothingDue s.field.core)
    (hch : 2 ≤ ch.val) (hty : s.field.core.rd POS_CFG.TYPE ch.val = 1) (hbit : s.field.core.rd POS_STATUS.LOS ch.val = 1)
    (hnone : ∀ g ∈ otherFaults, s.field.core.rd g ch.val = 0) :
    Answers (.posFaultClear ch .los phase) s fun t =>
      t.field.core.rd POS_STATUS.LOS ch.val = 0 ∧ t.field.core.rd POS_STATUS.FAULT ch.val = 0 ∧
      t.field.core.rd POS_STATUS.SUSPECT ch.val = 1 ∧ s.field.core.Raised t.field.core 0x0706 ch.val ∧
      t.field.core.etime = max s.field.core.etime (mget 0 (s.field.core.pc ch.val).seen (faultIx .los) + 1000000) ∧
      SameRegs [POS_STATUS.LOS.key ch.val, POS_STATUS.FAULT.key ch.val, POS_STATUS.SUSPECT.key ch.val,
        LOG_EVT_OVWR_CNT.COUNT.key 0] s.field.core t.field.core ∧ CoreOnly s t := by
  refine answers_of_onRunning (g := doPosFaultClear ch.val .los phase.toInt) rfl hboot ?_
  have hcore := CoreOnly.onCore s (doPosFaultClear ch.val .los phase.toInt)
  rw [← and_assoc, ← and_assoc, ← and_assoc, ← and_assoc, ← and_assoc]
  refine ⟨?_, hcore⟩
  rw [State.onCore, Field.onCore, doPosFaultClear_los _ hdue hty hbit]
  generalize hr : s.field.core.reach (mget 0 (s.field.core.pc ch.val).seen (faultIx .los) + 1000000) = r
  have hrd : ∀ f n, r.rd f n = s.field.core.rd f n := fun f n => by rw [← hr]; rfl
  obtain ⟨hfault, hclear⟩ := Core.clearFault_los_high (s := r) hch ((hrd _ _).trans hty) ((hrd _ _).trans hbit)
    fun g hg => (hrd _ _).trans (hnone g hg)
  obtain ⟨hlos, hsus, -, hsame, -, -, hrest⟩ := r.losCleared_spec ch
  have hlog := (losKeys_log ch)
  simp only [List.forall_mem_cons, List.not_mem_nil, IsEmpty.forall_iff, implies_true, and_true] at hlog
  obtain ⟨hl0, hl1, hl2⟩ := hlog
  rw [hclear]
  refine ⟨⟨⟨⟨⟨?_, ?_⟩, ?_⟩, ?_⟩, ?_⟩, ?_⟩
  · exact (Core.rd_emit_ne _ _ _ _ _ _ hl0).trans hlos
  · exact (Core.rd_emit_ne _ _ _ _ _ _ hl1).trans hfault
  · exact (Core.rd_emit_ne _ _ _ _ _ _ hl2).trans hsus
  · exact Core.raised_emit_of (by omega) (by rw [hrest, ← hr]; rfl) (by rw [hrest, ← hr]; rfl)
  · exact (Core.emit_etime _ _ _ _).trans (by rw [hrest, ← hr]; rfl)
  · have hsr : SameRegs (losKeys ch.val ++ [LOG_EVT_OVWR_CNT.COUNT.key 0]) s.field.core (r.losCleared ch.val) := fun f n hk =>
      (hsame hch f n fun h => hk (List.mem_append_left _ h)).trans (hrd f n)
    exact hsr.emit _ _ _ (by simp)
theorem posFaultClear_web {ch : Fin 8} (phase : BitVec 16) {s : State} (hboot : s.field.core.bootState ≠ 1) (hdue : NothingDue s.field.core)
    (hty : s.field.core.rd POS_CFG.TYPE ch.val = 1) (hbit : s.field.core.rd POS_STATUS.LOS ch.val = 1) :
    Answers (.posFaultClear ch .los phase) s fun t =>
      t.field.core.rd POS_STATUS.LOS ch.val = 0 ∧ t.field.core.rd POS_STATUS.SUSPECT ch.val = 1 ∧ CoreOnly s t := by
  refine answers_of_onRunning (g := doPosFaultClear ch.val .los phase.toInt) rfl hboot ?_
  have hcore := CoreOnly.onCore s (doPosFaultClear ch.val .los phase.toInt)
  rw [← and_assoc]
  refine ⟨?_, hcore⟩
  rw [State.onCore, Field.onCore, doPosFaultClear_los _ hdue hty hbit]
  generalize hr : s.field.core.reach (mget 0 (s.field.core.pc ch.val).seen (faultIx .los) + 1000000) = r
  have hrd : ∀ f n, r.rd f n = s.field.core.rd f n := fun f n => by rw [← hr]; rfl
  obtain ⟨hlos, hsus, htype, -, -, hcdue, -⟩ := r.losCleared_spec ch
  have hkeep := Core.clearFault_los_keeps (s := r) (hcdue (by rw [← hr]; exact hdue)) (by rw [htype, hrd, hty]; decide)
    ((hrd _ _).trans hbit)
  have hfacts := (losKeys_facts ch).2.1
  have hread : ∀ f ∈ [POS_STATUS.LOS, POS_STATUS.SUSPECT, POS_CFG.TYPE],
      (r.clearFault ch.val .los).rd f ch.val = (r.losCleared ch.val).rd f ch.val := fun f hf =>
    hkeep f _ (hfacts f hf).1 (by rw [(hfacts f hf).2]; decide)
  exact ⟨(hread _ (by simp)).trans hlos, (hread _ (by simp)).trans hsus⟩

/-- Settles O34: what a detection writes by `raiseFault_raised`, what a clearing writes by `losCleared_spec`. -/
theorem channelFaultsRaiseAndClear : Obligations.ChannelFaultsRaiseAndClear := by
  unfold Obligations.ChannelFaultsRaiseAndClear
  intro ch s hboot hdue
  refine ⟨fun h0 h1 => ⟨?none, ?los, fun hty => ⟨?rate, ?amp⟩, ?clear⟩, ?web⟩
  case none => exact fun g hmet hg => posFaultDetect_none hboot h0 h1 hg hmet
  case los =>
    intro us hty hus hbit
    have hmet : s.field.core.signMet ch.val (.absent us) = true := by simp [Core.signMet, hty, hus]
    obtain ⟨t, hx, hb, hf, hsp, -, hsame, hcore⟩ := posFaultDetect_answers (g := .absent us) hboot hdue h0 h1 (by simp) List.mem_cons_self hmet hbit
    exact ⟨t, hx, hb, hf, hsp, hcore, fun hch => hsame hch (by simp [signFault])⟩
  case rate =>
    intro hhz hbit
    have hmet : s.field.core.signMet ch.val .frequency = true := by simp [Core.signMet, hty, hhz]
    obtain ⟨t, hx, hb, hf, hsp, -, -, hcore⟩ := posFaultDetect_answers hboot hdue h0 h1 (by simp) (by decide) hmet hbit
    exact ⟨t, hx, hb, hf, hsp, hcore⟩
  case amp =>
    intro hout hbit
    have hmet : s.field.core.signMet ch.val .amplitude = true := by simp [Core.signMet, hty, hout]
    obtain ⟨t, hx, hb, hf, hsp, hn, -, hcore⟩ := posFaultDetect_answers hboot hdue h0 h1 (by simp) (by decide) hmet hbit
    exact ⟨t, hx, hb, hf, hn, hsp, hcore⟩
  case clear =>
    intro phase hch hty hbit hhall hamp hssi hrate hsup
    exact posFaultClear_high phase hboot hdue hch hty hbit (by simpa [otherFaults] using ⟨hhall, hamp, hssi, hrate, hsup⟩)
  case web => exact fun phase _ hty hbit => posFaultClear_web phase hboot hdue hty hbit

end Sys2Proof.Machine
end

section
/-! PROOF. The compare pool and the host's rings (spec/08 R366 to R377, spec/04 R155 to R166): O37, O39, O40. -/

namespace Sys2Proof.Machine

set_option Elab.async false

/-! ### A command that completes later (R169) -/

/-- A command has started, and completes later: what is left is what its body left, but for the commit log (R214). -/
def Cmd.Begun (k : Cmd) (s : State) (x : Field) (t : State) : Prop :=
  ∃ l, t = { s.taken k.call k.op with field := ⟨{ x.core with tck := { x.core.tck with commitLog := l } }, x.dram⟩ }
theorem Cmd.runs_begun {k : Cmd} {i : Instr} {s : State} {x : Field} (hexec : exec i s = .next (k.submit i s))
    (h : Runs k.call k.op k.priv s) (hh : headerCheck k.call = none) (hk : k.known = true)
    (hf : ¬ (k.call.src = .fsp ∧ k.call.sg = true)) (hl : k.lengthCheck = none) (hp : k.paramCheck = none)
    (hb : k.body (s.taken k.call k.op).field = (.later, x)) : Answers i s (k.Begun s x) := by
  have hrun := Cmd.submit_runs (i := i) h hh hk hf hl hp
  rw [hb] at hrun
  refine ⟨_, hexec, ?_⟩
  rw [hrun]
  unfold Cmd.noted
  dsimp only
  split
  · exact ⟨x.core.tck.commitLog, rfl⟩
  · exact ⟨_, rfl⟩
section
variable {k : Cmd} {s t : State} {x : Field}
theorem Cmd.Begun.rd (h : k.Begun s x t) (f : Fld) (n : Nat) : t.field.core.rd f n = x.core.rd f n := by
  obtain ⟨l, rfl⟩ := h
  rfl
theorem Cmd.Begun.rest (h : k.Begun s x t) : Finished x.core t.field.core := by
  obtain ⟨l, rfl⟩ := h
  rfl
theorem Cmd.Begun.frame {ks : List Nat} (h : k.Begun s x t) (hd : x.dram = s.field.dram)
    (hx : SameRegs (commandKeys ++ ks) s.field.core x.core) : CommandFrame k.call k.op ks s t := by
  obtain ⟨l, rfl⟩ := h
  exact ⟨taken_pending _ _ _, hd, taken_host _ _ _, hx⟩
theorem Cmd.Begun.within {ps : List Nat} (h : k.Begun s x t) (hd : x.dram = s.field.dram)
    (hx : SameOutside (0x01 :: 0x1B :: ps) s.field.core x.core) : CommandWithin k.call k.op ps s t := by
  obtain ⟨l, rfl⟩ := h
  exact ⟨taken_pending _ _ _, hd, taken_host _ _ _, hx⟩
end

/-! ### CMP_APPEND (R368) -/

theorem SameRegs.cmpBad {ks : List Nat} {a b : Core} (h : SameRegs ks a b) (hk : ∀ n, POS_WRAP.WRAP.key n ∉ ks) (e : CmpEntry) :
    b.cmpBad e = a.cmpBad e := by
  unfold Core.cmpBad
  rw [h.srcMod (hk _)]
theorem findIdxFrom_none {α : Type} {p : α → Bool} : ∀ {l : List α} (n : Nat), (∀ a ∈ l, p a = false) → findIdxFrom p n l = none
  | [], _, _ => rfl
  | a :: l, n, h => by
    rw [findIdxFrom, h a List.mem_cons_self]
    exact findIdxFrom_none _ fun b hb => h b (List.mem_cons_of_mem _ hb)
/-- Entries that pass every check, with room for them, are queued behind those of earlier commands. -/
theorem cmpAppend_queued {c : Call} {count : Nat} {inline : Bytes} {s : Core} (hsg : c.sg = false)
    (hgood : ∀ i, i < count → s.cmpBad (cmpEntryAt inline (16 * i)) = none) (hroom : count ≤ s.cmpFree) :
    cmpAppend c count inline s = (.later, (s.openCmd (refOf 0x0500 c)).setCmp { s.pos.cmp with queue := s.pos.cmp.queue ++
      [⟨refOf 0x0500 c, (List.range count).map fun i => cmpEntryAt inline (16 * i), 0, 0⟩] }) := by
  have hnone : findIx (fun e => (s.cmpBad e).isSome) ((List.range count).map fun i => cmpEntryAt inline (16 * i)) = none :=
    findIdxFrom_none _ fun e he => by
      obtain ⟨i, hi, rfl⟩ := List.mem_map.1 he
      rw [hgood i (List.mem_range.1 hi)]
      rfl
  unfold cmpAppend
  rw [hsg]
  simp only [Bool.not_false, if_true, hnone]
  rw [if_neg (Nat.not_lt.2 hroom)]
theorem Cmd.lengthCheck_none {k : Cmd} (hp : k.call.plen.toNat ∈ k.plens) (hb : k.lenBad = none) (hsg : k.call.sg = false)
    (hbulk : k.bulk = none) : k.lengthCheck = none := by
  unfold Cmd.lengthCheck
  simp [hp, hb, hsg, hbulk]
theorem Quiet.cmpFree {a b : Core} (h : Quiet a b) : b.cmpFree = a.cmpFree := by
  unfold Quiet at h
  unfold Core.cmpFree
  rw [h]
theorem Quiet.pos {a b : Core} (h : Quiet a b) : b.pos = a.pos := by
  unfold Quiet at h
  rw [h]
theorem wrapKeys_free (n : Nat) : POS_WRAP.WRAP.key n ∉ commandKeys ++ [] := by
  have hlow : ∀ k ∈ commandKeys ++ [], k % 65536 ≠ 1408 := by decide
  have hkey : POS_WRAP.WRAP.key n % 65536 = 1408 := by
    simp only [Fld.key, Fld.addr, POS_WRAP.WRAP, fN]
    omega
  exact fun h => hlow _ h hkey
theorem cmpAppend_answers {c : Call} {count : BitVec 16} {inline : Bytes} {s : State} (hcount : count = 1 ∨ count = 2)
    (hc : CleanHeader c (16 * count.toNat + 16)) (hr : Runs c 0x0500 1 s)
    (hgood : ∀ i, i < count.toNat → s.field.core.cmpBad (cmpEntryAt inline (16 * i)) = none)
    (hroom : count.toNat ≤ s.field.core.cmpFree) : Answers (.cmpAppend c count inline) s fun t =>
      Started c 0x0500 t ∧
      t.field.core.pos.cmp.queue = s.field.core.pos.cmp.queue ++
        [⟨refOf 0x0500 c, (List.range count.toNat).map fun i => cmpEntryAt inline (16 * i), 0, 0⟩] ∧
      t.field.core.pos.cmp.pool = s.field.core.pos.cmp.pool ∧
      CommandFrame c 0x0500 [] s t ∧ t.field.core.cmdq.done = s.field.core.cmdq.done := by
  have hfree : (s.taken c 0x0500).field.core.cmpFree = s.field.core.cmpFree := (Quiet.taken c 0x0500 s).cmpFree
  have hpos : (s.taken c 0x0500).field.core.pos = s.field.core.pos := (Quiet.taken c 0x0500 s).pos
  have hregs := SameRegs.taken c 0x0500 [] s
  have hbody := cmpAppend_queued (inline := inline) (s := (s.taken c 0x0500).field.core) hc.sg (count := count.toNat)
    (fun i hi => (hregs.cmpBad wrapKeys_free _).trans (hgood i hi)) (hroom.trans hfree.ge)
  have hplen : (cmdCmpAppend c count.toNat inline).call.plen.toNat ∈ (cmdCmpAppend c count.toNat inline).plens ∧
      c.plen ≠ 16 := by
    have hlen := hc.len
    refine ⟨?_, fun h => ?_⟩
    · change c.plen.toNat ∈ [16, 32, 48]
      rw [hlen]
      obtain rfl | rfl := hcount <;> decide
    · rw [h] at hlen
      obtain rfl | rfl := hcount <;> exact absurd hlen (by decide)
  have hbad : (cmdCmpAppend c count.toNat inline).lenBad = none := by
    exact (if_neg hplen.2).trans (if_neg (not_not.2 hc.len.symm))
  obtain ⟨t, hexec, ht⟩ := Cmd.runs_begun (k := cmdCmpAppend c count.toNat inline) (i := .cmpAppend c count inline)
    (x := ⟨_, (s.taken c 0x0500).field.dram⟩) rfl hr
    (hc.header (by obtain rfl | rfl := hcount <;> decide)) rfl (by simp [cmdCmpAppend, hc.sg])
    (Cmd.lengthCheck_none hplen.1 hbad hc.sg (if_neg hplen.2)) (hc.params (k := cmdCmpAppend c count.toNat inline))
    (congrArg (fun r : Reply × Core => (r.1, (⟨r.2, _⟩ : Field))) hbody)
  have hrest := ht.rest
  refine ⟨t, hexec, ?_, ?_, ?_, ht.frame (taken_dram _ _ _) hregs, ?_⟩
  · unfold Started
    rw [hrest]
    exact List.mem_append_right _ List.mem_cons_self
  · rw [hrest, ← hpos]
    rfl
  · rw [hrest, ← hpos]
    rfl
  · obtain ⟨l, rfl⟩ := ht
    exact taken_done _ _ _

/-! ### CMP_ENTRY_INSERT (R369, R376) -/

/-- An entry in its slot of the pool, before it is judged. -/
def Core.poolEntry (s : Core) (e : CmpEntry) : Core :=
  (s.setPool (s.pos.cmp.pool ++ [{ e with slot := freeSlot s.pos.cmp.pool }])).incW CMP_APPENDED_CNT.COUNT
def poolKeys : List Nat := [CMP_STATUS.PENDING.key 0, CMP_STATUS.HOST_FREE.key 0, CMP_APPENDED_CNT.COUNT.key 0]
theorem Core.poolEntry_regs (s : Core) (e : CmpEntry) : SameRegs poolKeys s (s.poolEntry e) :=
  SameRegs.incW (SameRegs.wrs (.of_regs rfl) (by simp only [List.forall_mem_cons]; decide)) 1
theorem sourceKeys_facts : (∀ n : Fin 9, POS_WRAP.WRAP.key n.val ∉ poolKeys ∧ POS_COUNT_LO.COUNT.key n.val ∉ poolKeys ∧
    POS_COUNT_HI.COUNT.key n.val ∉ poolKeys) := by decide
theorem SameRegs.lpc {ks : List Nat} {a b : Core} (h : SameRegs ks a b) (hlo : SPG_LPC_LO.LPC.key 0 ∉ ks := by decide)
    (hhi : SPG_LPC_HI.LPC.key 0 ∉ ks := by decide) : b.lpc = a.lpc := by
  unfold Core.lpc Core.rd2
  rw [h _ _ hlo, h _ _ hhi]
theorem Core.poolEntry_shows (s : Core) (e : CmpEntry) :
    (s.poolEntry e).pos.cmp.pool = s.pos.cmp.pool ++ [{ e with slot := freeSlot s.pos.cmp.pool }] ∧
    (s.poolEntry e).rd CMP_STATUS.PENDING = (s.pos.cmp.pool.length + 1) % 2 ^ CMP_STATUS.PENDING.width ∧
    (s.poolEntry e).rd CMP_APPENDED_CNT.COUNT = (s.rd CMP_APPENDED_CNT.COUNT + 1) % 2 ^ 32 := by
  unfold Core.poolEntry Core.setPool
  generalize hp : s.pos.cmp.pool ++ [{ e with slot := freeSlot s.pos.cmp.pool }] = p
  have hlen : p.length = s.pos.cmp.pool.length + 1 := by rw [← hp, List.length_append]; rfl
  generalize 4032 - (p.filter (·.host)).length = free
  simp only [Core.wrs, List.foldl_cons, List.foldl_nil]
  refine ⟨rfl, ?_, ?_⟩
  · rw [Core.rd_incW_ne _ _ _ _ _ _ (by decide), Core.rd_wr_ne _ _ _ _ _ _ (by decide), Core.rd_wr, hlen]
  · rw [Core.incW, Core.rd_wr, Core.rd_wr_ne _ _ _ _ _ _ (by decide), Core.rd_wr_ne _ _ _ _ _ _ (by decide)]
    rfl
theorem Core.poolEntry_src (s : Core) (e : CmpEntry) {src : Nat} (h : src ≤ 8) :
    (s.poolEntry e).srcMod src = s.srcMod src ∧ (s.poolEntry e).srcPos src = s.srcPos src := by
  obtain ⟨hw, hlo, hhi⟩ := sourceKeys_facts ⟨src, by omega⟩
  refine ⟨(s.poolEntry_regs e).srcMod hw, ?_⟩
  have hphi : (s.poolEntry e).phi = s.phi := by
    unfold Core.phi
    rw [(s.poolEntry_regs e).webCount (by decide) (by decide), (s.poolEntry_regs e).lpc]
    rfl
  unfold Core.srcPos
  rw [(s.poolEntry_regs e).posCount hlo hhi, hphi]
theorem Core.insertEntry_ahead {s : Core} {e : CmpEntry} (hsrc : e.source ≤ 8)
    (hne : smodM (s.srcMod e.source) (s.srcPos e.source) e.pos ≠ 0)
    (hrev : decide (smodM (s.srcMod e.source) (s.srcPos e.source) e.pos > 0) = e.rev) :
    s.insertEntry e = (s.poolEntry e, false) := by
  obtain ⟨hm, hp⟩ := s.poolEntry_src e hsrc
  rw [← hm, ← hp] at hne hrev
  unfold Core.insertEntry
  extract_lets f t d
  have ht : t = s.poolEntry e := rfl
  have hsource : f.source = e.source := rfl
  have hpos : f.pos = e.pos := rfl
  have hflags : f.flags = e.flags := rfl
  have hd : d = smodM (t.srcMod f.source) (t.srcPos f.source) f.pos := rfl
  clear_value d t f
  rw [hsource, hpos, ht] at hd
  rw [← hd] at hne hrev
  rw [if_neg hne, CmpEntry.rev, hflags, ← CmpEntry.rev, if_pos (beq_iff_eq.2 hrev), ht]
theorem cmpEntryInsert_answers {s : State} {q : CmpAppend} {qs : List CmpAppend} {e e' : CmpEntry} {es : List CmpEntry}
    (hboot : s.field.core.bootState ≠ 1) (hq : s.field.core.pos.cmp.queue = q :: qs) (hrest : q.rest = e :: e' :: es)
    (hsrc : e.source ≤ 8) (hne : smodM (s.field.core.srcMod e.source) (s.field.core.srcPos e.source) e.pos ≠ 0)
    (hrev : decide (smodM (s.field.core.srcMod e.source) (s.field.core.srcPos e.source) e.pos > 0) = e.rev) :
    Answers .cmpEntryInsert s fun t =>
      t.field.core.pos.cmp.pool = s.field.core.pos.cmp.pool ++ [{ e with slot := freeSlot s.field.core.pos.cmp.pool }] ∧
      t.field.core.pos.cmp.queue = { q with rest := e' :: es, done := q.done + 1 } :: qs ∧
      t.field.core.rd CMP_STATUS.PENDING = (s.field.core.pos.cmp.pool.length + 1) % 2 ^ CMP_STATUS.PENDING.width ∧
      t.field.core.rd CMP_APPENDED_CNT.COUNT = (s.field.core.rd CMP_APPENDED_CNT.COUNT + 1) % 2 ^ 32 ∧
      SameRegs [CMP_STATUS.PENDING.key 0, CMP_STATUS.HOST_FREE.key 0, CMP_APPENDED_CNT.COUNT.key 0]
        s.field.core t.field.core ∧ CoreOnly s t := by
  refine answers_of_onRunning (g := doCmpEntryInsert) rfl hboot ?_
  have hcore := CoreOnly.onCore s doCmpEntryInsert
  have hx : doCmpEntryInsert s.field.core = (s.field.core.poolEntry e).setCmp { (s.field.core.poolEntry e).pos.cmp with
      queue := { q with rest := e' :: es, done := q.done + 1 } :: qs } := by
    unfold doCmpEntryInsert
    rw [hq]
    have hins := Core.insertEntry_ahead hsrc hne hrev
    generalize s.field.core.poolEntry e = x at *
    simp only [hrest, hins, reduceCtorEq, if_false]
    rfl
  rw [State.onCore, Field.onCore, hx] at hcore ⊢
  obtain ⟨hpool, hpending, hcount⟩ := s.field.core.poolEntry_shows e
  have hregs := s.field.core.poolEntry_regs e
  generalize s.field.core.poolEntry e = x at *
  have hrd : ∀ f n, (x.setCmp { x.pos.cmp with queue := { q with rest := e' :: es, done := q.done + 1 } :: qs }).rd f n = x.rd f n :=
    Core.rd_congr rfl
  exact ⟨hpool, rfl, (hrd _ _).trans hpending, (hrd _ _).trans hcount, fun f n hk => (hrd f n).trans (hregs f n hk), hcore⟩

/-- Settles O37. -/
theorem compareEntriesQueueAndInsert : Obligations.CompareEntriesQueueAndInsert := by
  unfold Obligations.CompareEntriesQueueAndInsert
  refine ⟨fun c count inline s hcount hc hr hgood hroom => cmpAppend_answers hcount hc hr hgood hroom, ?_⟩
  exact fun s q qs e e' es hboot hq hrest _ hsrc hne hrev => cmpEntryInsert_answers hboot hq hrest hsrc hne hrev

/-! ### BAR0 fields (R155) -/

@[simp] theorem HostSide.rd_wr (h : HostSide) (f : Fld) (v n : Nat) : (h.wr f v n).rd f n = v % 2 ^ f.width := by
  simp [HostSide.rd, HostSide.wr]
theorem HostSide.rd_wr_ne (h : HostSide) (f g : Fld) (v n m : Nat) (hk : g.key m ≠ f.key n) : (h.wr f v n).rd g m = h.rd g m := by
  simp [HostSide.rd, HostSide.wr, mget_mset_ne _ _ hk]
theorem HostSide.rd_congr {a b : HostSide} (h : b.bar = a.bar) (f : Fld) (n : Nat) : b.rd f n = a.rd f n := by
  unfold HostSide.rd
  rw [h]
theorem HostSide.rd_lt (h : HostSide) (f : Fld) (n : Nat) : h.rd f n < 2 ^ f.width := Nat.mod_lt _ (Nat.two_pow_pos _)
section
variable {ks : List Nat} {a b c : HostSide}
theorem SameBar.refl (ks : List Nat) (a : HostSide) : SameBar ks a a := fun _ _ _ => rfl
theorem SameBar.trans (hab : SameBar ks a b) (hbc : SameBar ks b c) : SameBar ks a c := fun f n h => (hbc f n h).trans (hab f n h)
theorem SameBar.wr (h : SameBar ks a b) {f : Fld} {n : Nat} (v : Nat) (hf : f.key n ∈ ks := by simp) : SameBar ks a (b.wr f v n) :=
  h.trans fun _ _ hg => HostSide.rd_wr_ne _ _ _ _ _ _ fun e => hg (e ▸ hf)
theorem BarOnly.refl (a : HostSide) : BarOnly a a := rfl
theorem BarOnly.wr (h : BarOnly a b) (f : Fld) (v n : Nat) : BarOnly a (b.wr f v n) := by
  unfold BarOnly at *
  rw [h]
  rfl
theorem BarOnly.trans (hab : BarOnly a b) (hbc : BarOnly b c) : BarOnly a c := by
  unfold BarOnly at *
  rw [hbc, hab]
theorem SameBar.mono {ls : List Nat} (h : SameBar ks a b) (hsub : ks ⊆ ls) : SameBar ls a b := fun f n hk => h f n fun hm => hk (hsub hm)
theorem BarOnly.barErr (h : BarOnly a b) (f : Fld) (addr : Nat) : BarOnly a (b.barErr f addr) :=
  ((h.wr f 1 0).wr _ addr 0).wr _ 1 0
end
/-- The fields of a cause of BAR_ERR. -/
def errKeys (f : Fld) : List Nat := [f.key 0, BAR_ERR_ADDR.ADDR.key 0, IRQ_STATUS.ERR.key 0]
/-- What a cause of BAR_ERR at an offset leaves. -/
theorem HostSide.barErr_spec (h : HostSide) {f : Fld} {addr : Nat} (ha : addr < 2 ^ 32) (hf : f.width = 1)
    (hk : (errKeys f).Nodup) : (h.barErr f addr).rd f = 1 ∧ (h.barErr f addr).rd BAR_ERR_ADDR.ADDR = addr ∧
      (h.barErr f addr).rd IRQ_STATUS.ERR = 1 ∧ SameBar (errKeys f) h (h.barErr f addr) := by
  simp only [errKeys, List.nodup_cons, List.mem_cons, List.not_mem_nil, or_false, not_or] at hk
  obtain ⟨⟨hfa, hfe⟩, hae, -⟩ := hk
  unfold HostSide.barErr
  refine ⟨?_, ?_, HostSide.rd_wr _ _ _ _, ?_⟩
  · rw [HostSide.rd_wr_ne _ _ _ _ _ _ hfe, HostSide.rd_wr_ne _ _ _ _ _ _ hfa, HostSide.rd_wr, hf]
    rfl
  · rw [HostSide.rd_wr_ne _ _ _ _ _ _ hae, HostSide.rd_wr]
    exact Nat.mod_eq_of_lt ha
  · exact (((SameBar.refl (errKeys f) h).wr _ (by simp [errKeys])).wr _ (by simp [errKeys])).wr _ (by simp [errKeys])

/-! ### Ring registers (R155 to R164) -/

/-- Something the host does on a host side that has its supply. -/
theorem answers_of_powered {i : Instr} {s : State} {g : HostSide → HostSide} {P : State → Prop}
    (hexec : exec i s = .next (s.onPowered g)) (hp : s.host.powered = true) (h : P { s with host := g s.host }) : Answers i s P :=
  ⟨{ s with host := g s.host }, by rw [hexec, State.onPowered, if_pos hp]; rfl, h⟩
theorem bits_low (v n : Nat) : bits v n 0 = v % 2 ^ (n + 1) := by rw [bits, Nat.shiftRight_zero, Nat.sub_zero]
theorem HostSide.log2_sq (h : HostSide) (q : Fin 4) : h.log2 q.val = h.rd SQ_SIZE.LOG2 q.val := if_neg (by omega)
theorem HostSide.enabled_sq (h : HostSide) (q : Fin 4) : h.enabled q.val = h.rdb SQ_SIZE.EN q.val := if_neg (by omega)
theorem sqTailDoorbell_answers {s : State} (hp : s.host.powered = true) (q : Fin 4) (tail : Word) :
    Answers (.sqTailDoorbell q tail) s fun t =>
      HostOnly s t ∧ BarOnly s.host t.host ∧
      (tail.toNat % 4096 < 2 ^ s.host.log2 q.val →
        t.host.rd SQ_TAIL.TAIL q.val = tail.toNat % 4096 ∧ SameBar [SQ_TAIL.TAIL.key q.val] s.host t.host) ∧
      (2 ^ s.host.log2 q.val ≤ tail.toNat % 4096 →
        t.host.rd BAR_ERR.TAIL_RANGE = 1 ∧ t.host.rd BAR_ERR_ADDR.ADDR = 0x2C + 0x20 * q.val ∧ t.host.rd IRQ_STATUS.ERR = 1 ∧
        SameBar [BAR_ERR.TAIL_RANGE.key 0, BAR_ERR_ADDR.ADDR.key 0, IRQ_STATUS.ERR.key 0] s.host t.host) := by
  refine answers_of_powered (g := fun h => h.tailWrite q.val tail.toNat) rfl hp ⟨⟨rfl, rfl⟩, ?_⟩
  generalize s.host = h
  have hbits : bits tail.toNat 11 0 = tail.toNat % 4096 := bits_low _ _
  by_cases hin : tail.toNat % 4096 < 2 ^ h.log2 q.val
  · have hw : h.tailWrite q.val tail.toNat = h.wr SQ_TAIL.TAIL (tail.toNat % 4096) q.val := by
      rw [HostSide.tailWrite, hbits, if_neg (Nat.not_le.2 hin)]
    dsimp only
    rw [hw]
    refine ⟨(BarOnly.refl h).wr _ _ _, fun _ => ⟨?_, (SameBar.refl _ h).wr _⟩, fun hout => absurd hin (Nat.not_lt.2 hout)⟩
    rw [HostSide.rd_wr]
    exact Nat.mod_mod _ _
  · have hw : h.tailWrite q.val tail.toNat = h.barErr BAR_ERR.TAIL_RANGE (0x2C + 0x20 * q.val) := by
      rw [HostSide.tailWrite, hbits, if_pos (Nat.le_of_not_lt hin)]
    dsimp only
    rw [hw]
    exact ⟨(BarOnly.refl h).barErr _ _, fun h => absurd h hin, fun _ => h.barErr_spec (by omega) rfl (by decide)⟩
theorem headMove {n head tail d x : Nat} (hhead : head < n) (htail : tail = (head + x) % n) (hx : x < n) (hd : d ≤ x) :
    (head + d) % n < n ∧ ((head + d) % n + n - head) % n ≤ (tail + n - head) % n := by
  have hmove : ∀ y, y < n → ((head + y) % n + n - head) % n = y := fun y hy => by
    rcases Nat.lt_or_ge (head + y) n with h | h
    · rw [Nat.mod_eq_of_lt h, show head + y + n - head = y + n by omega, Nat.add_mod_right, Nat.mod_eq_of_lt hy]
    · rw [Nat.mod_eq_sub_mod h, Nat.mod_eq_of_lt (a := head + y - n) (by omega), show head + y - n + n - head = y by omega, Nat.mod_eq_of_lt hy]
  rw [htail, hmove d (by omega), hmove x hx]
  exact ⟨Nat.mod_lt _ (by omega), hd⟩
theorem cqHeadDoorbell_answers {s : State} (hp : s.host.powered = true) {x d : Nat} (hhead : s.host.rd CQ_HEAD.HEAD < 2 ^ s.host.log2 4)
    (hlog : s.host.log2 4 ≤ 14) (htail : s.host.rd CQ_TAIL.TAIL = (s.host.rd CQ_HEAD.HEAD + x) % 2 ^ s.host.log2 4)
    (hx : x < 2 ^ s.host.log2 4) (hd : d ≤ x) :
    Answers (.cqHeadDoorbell (BitVec.ofNat 32 ((s.host.rd CQ_HEAD.HEAD + d) % 2 ^ s.host.log2 4))) s fun t =>
      t.host.rd CQ_HEAD.HEAD = (s.host.rd CQ_HEAD.HEAD + d) % 2 ^ s.host.log2 4 ∧ HostOnly s t ∧ BarOnly s.host t.host ∧
      SameBar [CQ_HEAD.HEAD.key 0] s.host t.host := by
  refine answers_of_powered (g := fun h => h.cqHeadWrite _) rfl hp ?_
  obtain ⟨hlt, hle⟩ := headMove hhead htail hx hd
  have hsize : 2 ^ s.host.log2 4 ≤ 2 ^ 14 := Nat.pow_le_pow_right (by decide) hlog
  generalize hv : (s.host.rd CQ_HEAD.HEAD + d) % 2 ^ s.host.log2 4 = v at *
  have hw : s.host.cqHeadWrite (BitVec.ofNat 32 v).toNat = s.host.wr CQ_HEAD.HEAD v := by
    have hbits : bits (BitVec.ofNat 32 v).toNat 13 0 = v := by
      rw [bits_low, BitVec.toNat_ofNat, Nat.mod_eq_of_lt (a := v) (by omega), Nat.mod_eq_of_lt (by omega)]
    unfold HostSide.cqHeadWrite
    simp only [hbits]
    rw [if_pos ⟨hlt, hle⟩]
  refine ⟨?_, ⟨rfl, rfl⟩, ?_, ?_⟩ <;> dsimp only <;> rw [hw]
  · exact (HostSide.rd_wr _ _ _ _).trans (Nat.mod_eq_of_lt (lt_of_lt_of_le hlt hsize))
  · exact (BarOnly.refl _).wr _ _ _
  · exact (SameBar.refl _ _).wr _
/-- The keys of a submission ring's size and pointers, which are four fields. -/
theorem sqKeys_nodup : ∀ q : Fin 4, ([SQ_SIZE.EN.key q.val, SQ_SIZE.LOG2.key q.val, SQ_HEAD.HEAD.key q.val,
    SQ_TAIL.TAIL.key q.val] : List Nat).Nodup := by decide
/-- The word that RING_ENABLE writes: LOG2 of the value, and EN. -/
theorem enableWord (v : Nat) : bits (v % 2 ^ 31 + 2 ^ 31) 3 0 = v % 16 ∧ bit (v % 2 ^ 31 + 2 ^ 31) 31 = true := by
  constructor
  · rw [bits_low]
    omega
  · unfold bit
    rw [Nat.testBit_eq_decide_div_mod_eq]
    have hbit : (v % 2 ^ 31 + 2 ^ 31) / 2 ^ 31 % 2 = 1 := by omega
    exact decide_eq_true hbit
theorem disableWord (v : Nat) : bits (v % 2 ^ 31) 3 0 = v % 16 ∧ bit (v % 2 ^ 31) 31 = false := by
  constructor
  · rw [bits_low]
    omega
  · unfold bit
    rw [Nat.testBit_eq_decide_div_mod_eq]
    have hbit : v % 2 ^ 31 / 2 ^ 31 % 2 = 0 := by omega
    exact decide_eq_false (by rw [hbit]; decide)
theorem HostSide.rdb_eq_false {h : HostSide} {f : Fld} {n : Nat} (hz : h.rd f n = 0) : h.rdb f n = false := by
  rw [HostSide.rdb, hz]
  rfl
theorem ringEnable_answers {s : State} (hp : s.host.powered = true) {q : Fin 4} {value : Word} (hoff : s.host.rd SQ_SIZE.EN q.val = 0)
    (hlo : 4 ≤ value.toNat % 16) (hhi : value.toNat % 16 ≤ 12) (hbase : s.host.rd SQ_BASE_LO.BASE q.val % 4096 = 0) :
    Answers (.ringEnable (q.castLE (by omega)) value) s fun t =>
      t.host.rd SQ_SIZE.EN q.val = 1 ∧ t.host.rd SQ_SIZE.LOG2 q.val = value.toNat % 16 ∧
      t.host.rd SQ_HEAD.HEAD q.val = 0 ∧ t.host.rd SQ_TAIL.TAIL q.val = 0 ∧ HostOnly s t ∧ BarOnly s.host t.host ∧
      SameBar [SQ_SIZE.EN.key q.val, SQ_SIZE.LOG2.key q.val, SQ_HEAD.HEAD.key q.val, SQ_TAIL.TAIL.key q.val] s.host t.host := by
  refine answers_of_powered (g := fun h => h.sizeWrite q.val _) rfl hp ?_
  generalize s.host = h at *
  obtain ⟨hbits, hen⟩ := enableWord value.toNat
  have hne : (q.val = 4) = False := by
    have := q.isLt
    exact eq_false (by omega)
  have hw : h.sizeWrite q.val (value.toNat % 2 ^ 31 + 2 ^ 31) = (((h.wr SQ_SIZE.LOG2 (value.toNat % 16) q.val).wr SQ_SIZE.EN 1
      q.val).wr SQ_HEAD.HEAD 0 q.val).wr SQ_TAIL.TAIL 0 q.val := by
    have hok : h.sizeOk q.val (value.toNat % 16) = true := by
      simp only [HostSide.sizeOk, hne, if_false, hbase]
      simp [hlo, hhi]
    simp only [HostSide.sizeWrite, hbits, hen, HostSide.enabled_sq, HostSide.rdb_eq_false hoff, hok, HostSide.setSize, hne]
    rfl
  have hnodup := sqKeys_nodup q
  simp only [List.nodup_cons, List.mem_cons, List.not_mem_nil, or_false, not_or] at hnodup
  obtain ⟨⟨hel, heh, het⟩, ⟨hlh, hlt⟩, hht, -⟩ := hnodup
  dsimp only
  rw [hw]
  refine ⟨?_, ?_, ?_, HostSide.rd_wr _ _ _ _, ⟨rfl, rfl⟩, ?_, ?_⟩
  · rw [HostSide.rd_wr_ne _ _ _ _ _ _ het, HostSide.rd_wr_ne _ _ _ _ _ _ heh, HostSide.rd_wr]
    rfl
  · rw [HostSide.rd_wr_ne _ _ _ _ _ _ hlt, HostSide.rd_wr_ne _ _ _ _ _ _ hlh, HostSide.rd_wr_ne _ _ _ _ _ _ (Ne.symm hel),
      HostSide.rd_wr]
    exact Nat.mod_mod _ _
  · rw [HostSide.rd_wr_ne _ _ _ _ _ _ hht, HostSide.rd_wr]
    rfl
  · exact ((((BarOnly.refl h).wr _ _ _).wr _ _ _).wr _ _ _).wr _ _ _
  · exact ((((SameBar.refl _ h).wr _).wr _).wr _).wr _
theorem ringEnable_cq {s : State} (hp : s.host.powered = true) {value : Word} (hoff : s.host.rd CQ_SIZE.EN = 0)
    (hlo : 10 ≤ value.toNat % 16) (hhi : value.toNat % 16 ≤ 14) (hbase : s.host.rd CQ_BASE_LO.BASE % 4096 = 0) :
    Answers (.ringEnable 4 value) s fun t =>
      t.host.rd CQ_SIZE.EN = 1 ∧ t.host.rd CQ_SIZE.LOG2 = value.toNat % 16 ∧ t.host.rd CQ_HEAD.HEAD = 0 ∧
      t.host.rd CQ_TAIL.TAIL = 0 ∧ t.host.phase = true ∧ HostOnly s t ∧
      SameBar [CQ_SIZE.EN.key 0, CQ_SIZE.LOG2.key 0, CQ_HEAD.HEAD.key 0, CQ_TAIL.TAIL.key 0] s.host t.host := by
  refine answers_of_powered (g := fun h => h.sizeWrite 4 _) rfl hp ?_
  generalize s.host = h at *
  obtain ⟨hbits, hen⟩ := enableWord value.toNat
  have hw : h.sizeWrite 4 (value.toNat % 2 ^ 31 + 2 ^ 31) = { (((h.wr CQ_SIZE.LOG2 (value.toNat % 16)).wr CQ_SIZE.EN 1).wr
      CQ_HEAD.HEAD 0).wr CQ_TAIL.TAIL 0 with phase := true } := by
    have hok : h.sizeOk 4 (value.toNat % 16) = true := by
      simp only [HostSide.sizeOk, if_true, hbase]
      simp [hlo, hhi]
    have hen4 : h.enabled 4 = false := HostSide.rdb_eq_false hoff
    simp only [HostSide.sizeWrite, hbits, hen, hen4, hok, HostSide.setSize]
    rfl
  dsimp only
  rw [hw]
  have hrd := HostSide.rd_congr (a := (((h.wr CQ_SIZE.LOG2 (value.toNat % 16)).wr CQ_SIZE.EN 1).wr CQ_HEAD.HEAD 0).wr CQ_TAIL.TAIL 0)
    (b := { (((h.wr CQ_SIZE.LOG2 (value.toNat % 16)).wr CQ_SIZE.EN 1).wr CQ_HEAD.HEAD 0).wr CQ_TAIL.TAIL 0 with phase := true }) rfl
  have hsame : SameBar [CQ_SIZE.EN.key 0, CQ_SIZE.LOG2.key 0, CQ_HEAD.HEAD.key 0, CQ_TAIL.TAIL.key 0] h
      ((((h.wr CQ_SIZE.LOG2 (value.toNat % 16)).wr CQ_SIZE.EN 1).wr CQ_HEAD.HEAD 0).wr CQ_TAIL.TAIL 0) :=
    ((((SameBar.refl _ h).wr _).wr _).wr _).wr _
  refine ⟨?_, ?_, ?_, (hrd _ _).trans (HostSide.rd_wr _ _ _ _), rfl, ⟨rfl, rfl⟩, fun f n hk => (hrd f n).trans (hsame f n hk)⟩
  · rw [hrd, HostSide.rd_wr_ne _ _ _ _ _ _ (by decide), HostSide.rd_wr_ne _ _ _ _ _ _ (by decide), HostSide.rd_wr]
    rfl
  · rw [hrd, HostSide.rd_wr_ne _ _ _ _ _ _ (by decide), HostSide.rd_wr_ne _ _ _ _ _ _ (by decide),
      HostSide.rd_wr_ne _ _ _ _ _ _ (by decide), HostSide.rd_wr]
    exact Nat.mod_mod _ _
  · rw [hrd, HostSide.rd_wr_ne _ _ _ _ _ _ (by decide), HostSide.rd_wr]
    rfl
theorem ringDisable_answers {s : State} (hp : s.host.powered = true) {q : Fin 4} {value : Word}
    (hlog : value.toNat % 16 = s.host.rd SQ_SIZE.LOG2 q.val) : Answers (.ringDisable (q.castLE (by omega)) value) s fun t =>
      t.host.rd SQ_SIZE.EN q.val = 0 ∧ HostOnly s t ∧ BarOnly s.host t.host ∧
      SameBar [SQ_SIZE.EN.key q.val, SQ_SIZE.LOG2.key q.val] s.host t.host := by
  refine answers_of_powered (g := fun h => h.sizeWrite q.val _) rfl hp ?_
  generalize s.host = h at *
  obtain ⟨hbits, hen⟩ := disableWord value.toNat
  have hne : (q.val = 4) = False := by
    have := q.isLt
    exact eq_false (by omega)
  have hw : h.sizeWrite q.val (value.toNat % 2 ^ 31) = (h.wr SQ_SIZE.LOG2 (value.toNat % 16) q.val).wr SQ_SIZE.EN 0 q.val := by
    simp only [HostSide.sizeWrite, hbits, hen, HostSide.log2_sq, ← hlog, HostSide.setSize, hne]
    simp
  dsimp only
  rw [hw]
  exact ⟨HostSide.rd_wr _ _ _ _, ⟨rfl, rfl⟩, ((BarOnly.refl h).wr _ _ _).wr _ _ _, ((SameBar.refl _ h).wr _).wr _⟩

/-! ### BAR0 accesses (R155, R156) -/

/-- Of the bits that a word clears, one. -/
def HostSide.w1 (h : HostSide) (f : Fld) (v : Nat) : HostSide := if bit v f.lo then h.wr f 0 else h
theorem HostSide.w1_spec (h : HostSide) (f : Fld) (v : Nat) : (h.w1 f v).rd f = (if bit v f.lo then 0 else h.rd f) ∧
    BarOnly h (h.w1 f v) ∧ SameBar [f.key 0] h (h.w1 f v) := by
  unfold HostSide.w1
  split
  · exact ⟨(HostSide.rd_wr _ _ _ _).trans (Nat.zero_mod _), (BarOnly.refl h).wr _ _ _, (SameBar.refl _ h).wr _⟩
  · exact ⟨rfl, .refl h, .refl _ h⟩
theorem HostSide.w1c_irq (h : HostSide) (v : Nat) :
    (h.w1c [IRQ_STATUS.CQ, IRQ_STATUS.ALERT, IRQ_STATUS.ERR] v).rd IRQ_STATUS.CQ = (if v.testBit 0 then 0 else h.rd IRQ_STATUS.CQ) ∧
    (h.w1c [IRQ_STATUS.CQ, IRQ_STATUS.ALERT, IRQ_STATUS.ERR] v).rd IRQ_STATUS.ALERT =
      (if v.testBit 1 then 0 else h.rd IRQ_STATUS.ALERT) ∧
    (h.w1c [IRQ_STATUS.CQ, IRQ_STATUS.ALERT, IRQ_STATUS.ERR] v).rd IRQ_STATUS.ERR = (if v.testBit 2 then 0 else h.rd IRQ_STATUS.ERR) ∧
    BarOnly h (h.w1c [IRQ_STATUS.CQ, IRQ_STATUS.ALERT, IRQ_STATUS.ERR] v) ∧
    SameBar [IRQ_STATUS.CQ.key 0, IRQ_STATUS.ALERT.key 0, IRQ_STATUS.ERR.key 0] h
      (h.w1c [IRQ_STATUS.CQ, IRQ_STATUS.ALERT, IRQ_STATUS.ERR] v) := by
  change (((h.w1 IRQ_STATUS.CQ v).w1 IRQ_STATUS.ALERT v).w1 IRQ_STATUS.ERR v).rd IRQ_STATUS.CQ = _ ∧ _ ∧ _ ∧
    BarOnly h (((h.w1 IRQ_STATUS.CQ v).w1 IRQ_STATUS.ALERT v).w1 IRQ_STATUS.ERR v) ∧
    SameBar _ h (((h.w1 IRQ_STATUS.CQ v).w1 IRQ_STATUS.ALERT v).w1 IRQ_STATUS.ERR v)
  obtain ⟨hcq, hbar0, hsame0⟩ := h.w1_spec IRQ_STATUS.CQ v
  obtain ⟨hal, hbar1, hsame1⟩ := (h.w1 IRQ_STATUS.CQ v).w1_spec IRQ_STATUS.ALERT v
  obtain ⟨herr, hbar2, hsame2⟩ := ((h.w1 IRQ_STATUS.CQ v).w1 IRQ_STATUS.ALERT v).w1_spec IRQ_STATUS.ERR v
  refine ⟨?_, ?_, ?_, (hbar0.trans hbar1).trans hbar2, ((hsame0.mono (by simp)).trans (hsame1.mono (by simp))).trans (hsame2.mono (by simp))⟩
  · exact (hsame2 _ _ (by decide)).trans ((hsame1 _ _ (by decide)).trans hcq)
  · refine (hsame2 _ _ (by decide)).trans (hal.trans ?_)
    rw [hsame0 IRQ_STATUS.ALERT 0 (by decide)]
    rfl
  · refine herr.trans ?_
    rw [hsame1 IRQ_STATUS.ERR 0 (by decide), hsame0 IRQ_STATUS.ERR 0 (by decide)]
    rfl
theorem HostSide.write_outside (h : HostSide) {off : Nat} (v : Nat) (hlo : 0x100 ≤ off) (hhi : off < 0x2000) :
    h.write off v = h.barErr BAR_ERR.BAD_OFFSET off := by
  unfold HostSide.write
  extract_lets q
  rw [if_neg (by omega), if_neg (by omega), if_neg (by omega), if_neg (by omega), if_neg (by omega), if_neg (by omega),
    if_neg (by omega), if_neg (by omega), if_neg (by omega), if_neg (by omega), if_neg (by omega), if_neg (by omega)]
theorem bar0Write_irq {s : State} (hp : s.host.powered = true) (value : Word) : Answers (.bar0RegisterWrite 0x14 (some value)) s fun t =>
      t.host.rd IRQ_STATUS.CQ = (if value.toNat.testBit 0 then 0 else s.host.rd IRQ_STATUS.CQ) ∧
      t.host.rd IRQ_STATUS.ALERT = (if value.toNat.testBit 1 then 0 else s.host.rd IRQ_STATUS.ALERT) ∧
      t.host.rd IRQ_STATUS.ERR = (if value.toNat.testBit 2 then 0 else s.host.rd IRQ_STATUS.ERR) ∧
      HostOnly s t ∧ BarOnly s.host t.host ∧
      SameBar [IRQ_STATUS.CQ.key 0, IRQ_STATUS.ALERT.key 0, IRQ_STATUS.ERR.key 0] s.host t.host := by
  refine answers_of_powered (g := fun h => h.w1c [IRQ_STATUS.CQ, IRQ_STATUS.ALERT, IRQ_STATUS.ERR] value.toNat) rfl hp ?_
  obtain ⟨h0, h1, h2, hbar, hsame⟩ := s.host.w1c_irq value.toNat
  exact ⟨h0, h1, h2, ⟨rfl, rfl⟩, hbar, hsame⟩
theorem bar0Write_outside {s : State} (hp : s.host.powered = true) {off : BitVec 14} (value : Word) (hlo : 0x100 ≤ off.toNat)
    (hhi : off.toNat < 0x2000) : Answers (.bar0RegisterWrite off (some value)) s fun t =>
      t.host.rd BAR_ERR.BAD_OFFSET = 1 ∧ t.host.rd BAR_ERR_ADDR.ADDR = off.toNat ∧ t.host.rd IRQ_STATUS.ERR = 1 ∧
      HostOnly s t ∧ BarOnly s.host t.host ∧
      SameBar [BAR_ERR.BAD_OFFSET.key 0, BAR_ERR_ADDR.ADDR.key 0, IRQ_STATUS.ERR.key 0] s.host t.host := by
  refine answers_of_powered (g := fun h => h.write off.toNat value.toNat) rfl hp ?_
  dsimp only
  rw [HostSide.write_outside _ _ hlo hhi]
  obtain ⟨hbad, haddr, herr, hsame⟩ := s.host.barErr_spec (f := BAR_ERR.BAD_OFFSET) (addr := off.toNat) (by omega) rfl (by decide)
  exact ⟨hbad, haddr, herr, ⟨rfl, rfl⟩, (BarOnly.refl _).barErr _ _, hsame⟩
theorem bar0Read_answers {s : State} (hp : s.host.powered = true) (off : BitVec 14) : Answers (.bar0RegisterWrite off none) s fun t =>
      HostOnly s t ∧
      (barListed off.toNat = true → t.host = { s.host with barData := s.host.word off.toNat }) ∧
      (barListed off.toNat = false → t.host = { s.host with bar := t.host.bar, barData := 0 } ∧
        t.host.rd BAR_ERR.BAD_OFFSET = 1 ∧ t.host.rd BAR_ERR_ADDR.ADDR = off.toNat ∧ t.host.rd IRQ_STATUS.ERR = 1 ∧
        SameBar [BAR_ERR.BAD_OFFSET.key 0, BAR_ERR_ADDR.ADDR.key 0, IRQ_STATUS.ERR.key 0] s.host t.host) := by
  refine answers_of_powered (g := fun h => h.read off.toNat) rfl hp ⟨⟨rfl, rfl⟩, fun hin => ?_, fun hout => ?_⟩
  · simp only [HostSide.read, hin, if_true]
  · have hread : s.host.read off.toNat = { s.host.barErr BAR_ERR.BAD_OFFSET off.toNat with barData := 0 } := by
      simp only [HostSide.read, hout]
      rfl
    dsimp only
    rw [hread]
    obtain ⟨hbad, haddr, herr, hsame⟩ := s.host.barErr_spec (f := BAR_ERR.BAD_OFFSET) (addr := off.toNat) (by omega) rfl (by decide)
    exact ⟨rfl, hbad, haddr, herr, hsame⟩

/-- Settles O39: each access is one function of the host side, on the BAR0 fields named. -/
theorem ringRegistersFollowTheHost : Obligations.RingRegistersFollowTheHost := by
  unfold Obligations.RingRegistersFollowTheHost
  intro s hp
  refine ⟨sqTailDoorbell_answers hp, ?_, ?_, ?_, ?_, bar0Write_irq hp, ?_, bar0Read_answers hp⟩
  · exact fun x d hhead hlog htail hx hd => cqHeadDoorbell_answers hp hhead hlog htail hx hd
  · exact fun q value hoff hlo hhi hbase => ringEnable_answers hp hoff hlo hhi hbase
  · exact fun value hoff hlo hhi hbase => ringEnable_cq hp hoff hlo hhi hbase
  · exact fun q value hlog => ringDisable_answers hp hlog
  · exact fun off value hlo hhi => bar0Write_outside hp value hlo hhi

/-! ### Fetching (R161, R162, R175) -/

theorem HostSide.rdb_eq_true {h : HostSide} {f : Fld} {n : Nat} (hz : h.rd f n ≠ 0) : h.rdb f n = true := bne_iff_ne.2 hz
/-- Q0 has an entry, and room in flight for it. -/
theorem fetchQueue_first {s : State} (hen : s.host.rd SQ_SIZE.EN 0 = 1) (hentry : s.host.rd SQ_HEAD.HEAD 0 ≠ s.host.rd SQ_TAIL.TAIL 0)
    (hmode0 : s.field.core.rd CMDQ_CFG.MODE = 0 → s.inFlight.countP (·.q == 0) < 64)
    (hmode1 : s.field.core.rd CMDQ_CFG.MODE ≠ 0 → s.inFlight.length < 512) : s.fetchQueue = some 0 := by
  have henabled : s.host.enabled 0 = true := HostSide.rdb_eq_true (by rw [hen]; decide)
  have htake : s.mayTake 0 = true := by
    unfold State.mayTake
    by_cases h : s.field.core.rd CMDQ_CFG.MODE = 0
    · rw [Core.rdb_eq_false h]
      exact decide_eq_true (hmode0 h)
    · rw [Core.rdb_eq_true h]
      exact decide_eq_true (hmode1 h)
  have hfetch : s.mayFetch 0 = true := by
    rw [State.mayFetch, henabled, htake, bne_iff_ne.2 hentry]
    rfl
  unfold State.fetchQueue
  rw [List.find?_cons, hfetch]
/-- The host side once Q0's next entry has been fetched. -/
def HostSide.fetched (h : HostSide) (entry : Bytes) (bulk : Bulk) (dup : Bool) : HostSide :=
  { h.wr SQ_HEAD.HEAD ((h.rd SQ_HEAD.HEAD 0 + 1) % 2 ^ h.rd SQ_SIZE.LOG2 0) with
    outbox := h.outbox ++ [⟨.host, 0, h.rd SQ_HEAD.HEAD 0, entry, bulk, dup, none⟩]
    tracked := h.tracked ++ [⟨0, leAt entry 2 2 % 1024, h.rd SQ_HEAD.HEAD 0, leAt entry 0 2⟩] }
theorem sqEntryFetch_answers {entry : Bytes} {bulk : Bulk} {s : State} (hp : s.host.powered = true) (hlog : s.host.rd SQ_SIZE.LOG2 0 ≤ 12)
    (hfetch : s.fetchQueue = some 0) (hlen : entry.length = 64) (hup : s.field.core.elyUp = true) :
    Answers (.sqEntryFetch entry bulk none) s fun t =>
       t.host.rd SQ_HEAD.HEAD 0 = (s.host.rd SQ_HEAD.HEAD 0 + 1) % 2 ^ s.host.rd SQ_SIZE.LOG2 0 ∧
       t.host.outbox = s.host.outbox ++
         [⟨.host, 0, s.host.rd SQ_HEAD.HEAD 0, entry, bulk, s.dupTag (leAt entry 2 2 % 1024), none⟩] ∧
       t.host.tracked = s.host.tracked ++ [⟨0, leAt entry 2 2 % 1024, s.host.rd SQ_HEAD.HEAD 0, leAt entry 0 2⟩] ∧
       t.host = { s.host with bar := t.host.bar, outbox := t.host.outbox, tracked := t.host.tracked } ∧
       SameBar [SQ_HEAD.HEAD.key 0] s.host t.host ∧ HostOnly s t := by
  have hentry : (entry ++ List.replicate 64 0#8).take 64 = entry := by
    rw [List.take_append_of_le_length (by omega), List.take_of_length_le (by omega)]
  have hhead : ((s.host.rd SQ_HEAD.HEAD 0 + 1) % 2 ^ s.host.rd SQ_SIZE.LOG2 0) % 2 ^ SQ_HEAD.HEAD.width =
      (s.host.rd SQ_HEAD.HEAD 0 + 1) % 2 ^ s.host.rd SQ_SIZE.LOG2 0 :=
    Nat.mod_eq_of_lt (lt_of_lt_of_le (Nat.mod_lt _ (Nat.two_pow_pos _)) (Nat.pow_le_pow_right (by decide) hlog))
  have hdo : doSqEntryFetch entry bulk none s = { s with host := s.host.fetched entry bulk (s.dupTag (leAt entry 2 2 % 1024)) } := by
    unfold doSqEntryFetch
    simp only [hp, hfetch, hentry, Bool.not_true, Bool.false_eq_true, if_false, if_true, State.onHost, State.track, hup]
    rfl
  refine ⟨doSqEntryFetch entry bulk none s, rfl, ?_⟩
  rw [hdo]
  refine ⟨(HostSide.rd_wr _ _ _ _).trans hhead, rfl, rfl, rfl, (SameBar.refl _ s.host).wr _, rfl, rfl⟩
theorem sqEntryFetch_fails {entry : Bytes} {bulk : Bulk} {s : State} (hp : s.host.powered = true)
    (hfetch : s.fetchQueue = some 0) (a : BitVec 64) : Answers (.sqEntryFetch entry bulk (some a)) s fun t =>
       t.host.rd BAR_ERR.DMA_ERR = 1 ∧ t.host.rd BAR_ERR_ADDR.ADDR = a.toNat % 2 ^ 32 ∧ t.host.rd IRQ_STATUS.ERR = 1 ∧
       t.host.rd SQ_SIZE.EN 0 = 0 ∧ t.host.rd SQ_HEAD.HEAD 0 = s.host.rd SQ_HEAD.HEAD 0 ∧ HostOnly s t ∧ BarOnly s.host t.host ∧
       SameBar [BAR_ERR.DMA_ERR.key 0, BAR_ERR_ADDR.ADDR.key 0, IRQ_STATUS.ERR.key 0, SQ_SIZE.EN.key 0] s.host t.host := by
  refine ⟨doSqEntryFetch entry bulk (some a) s, rfl, ?_⟩
  unfold doSqEntryFetch
  simp only [hp, hfetch, Bool.not_true, Bool.false_eq_true, if_false]
  obtain ⟨hbit, haddr, herr, hsame⟩ := s.host.barErr_spec (f := BAR_ERR.DMA_ERR) (addr := a.toNat % 2 ^ 32)
    (Nat.mod_lt _ (by decide)) rfl (by decide)
  have hbar : BarOnly s.host (s.host.dmaErr (a.toNat % 2 ^ 32)) := (BarOnly.refl _).barErr _ _
  change (s.host.dmaErr (a.toNat % 2 ^ 32)).rd _ = _ at hbit haddr herr
  change SameBar _ _ (s.host.dmaErr (a.toNat % 2 ^ 32)) at hsame
  unfold State.onHost
  dsimp only
  generalize s.host.dmaErr (a.toNat % 2 ^ 32) = h at *
  refine ⟨(HostSide.rd_wr_ne _ _ _ _ _ _ (by decide)).trans hbit, (HostSide.rd_wr_ne _ _ _ _ _ _ (by decide)).trans haddr,
    (HostSide.rd_wr_ne _ _ _ _ _ _ (by decide)).trans herr, HostSide.rd_wr _ _ _ _,
    (HostSide.rd_wr_ne _ _ _ _ _ _ (by decide)).trans (hsame _ _ (by decide)), ⟨rfl, rfl⟩, hbar.wr _ _ _,
    (hsame.mono (by decide)).wr _⟩

/-! ### The completion ring (R164 to R166, R171) -/

theorem toLE_length : ∀ n x, (toLE n x).length = n
  | 0, _ => rfl
  | n + 1, x => congrArg Nat.succ (toLE_length n (x / 256))
theorem image_length (c : Compl) (phase : Bool) : (c.image phase).length = 32 := by
  simp [Compl.image, toLE_length]
/-- Bytes that go into host memory from an address on, modulo 2^64. -/
def putBytes (a : Nat) (bs : Bytes) (m : SMap (Option Byte)) : SMap (Option Byte) :=
  (bs.foldl (fun (p : Nat × SMap (Option Byte)) b => (p.1 + 1, mput (p.1 % 2 ^ 64) (some b) p.2)) (a, m)).2
theorem putBytes_cons (a : Nat) (b : Byte) (bs : Bytes) (m : SMap (Option Byte)) :
    putBytes a (b :: bs) m = putBytes (a + 1) bs (mput (a % 2 ^ 64) (some b) m) := rfl
theorem mget_putBytes_out (bs : Bytes) : ∀ (a x : Nat) (m : SMap (Option Byte)), (∀ i, i < bs.length → (a + i) % 2 ^ 64 ≠ x) →
    mget none (putBytes a bs m) x = mget none m x := by
  induction bs with
  | nil => exact fun _ _ _ _ => rfl
  | cons b bs ih =>
    intro a x m h
    rw [putBytes_cons, ih (a + 1) x _ fun i hi => by
      have := h (i + 1) (by rw [List.length_cons]; omega)
      rwa [show a + 1 + i = a + (i + 1) by omega], mget_mput_ne _ _ _ (Ne.symm (by simpa using h 0 (by simp)))]
/-- No more bytes than there are addresses: each is read back. -/
theorem mget_putBytes (bs : Bytes) : ∀ (a i : Nat) (m : SMap (Option Byte)), bs.length ≤ 2 ^ 64 → i < bs.length →
    mget none (putBytes a bs m) ((a + i) % 2 ^ 64) = bs[i]? := by
  induction bs with
  | nil => exact fun _ _ _ _ h => absurd h (Nat.not_lt_zero _)
  | cons b bs ih =>
    intro a i m hlen hi
    rw [List.length_cons] at hlen hi
    rw [putBytes_cons]
    cases i with
    | zero =>
      rw [mget_putBytes_out bs (a + 1) _ _ fun k hk => by omega]
      simp
    | succ i =>
      rw [show a + (i + 1) = a + 1 + i by omega, ih (a + 1) i _ (by omega) (by omega)]
      rfl
theorem dropFirst_self {α : Type} [BEq α] [LawfulBEq α] (a : α) (l : List α) : dropFirst (· == a) (a :: l) = l := by
  rw [dropFirst, beq_self_eq_true]
  rfl
/-- The ring has room where the tail's next slot is not the head's. -/
theorem cqFree_ne {head tail n : Nat} (ht : tail < n) (hh : head < n) (hne : (tail + 1) % n ≠ head) :
    (head + 2 * n - tail - 1) % n ≠ 0 := fun h => by
  rcases Nat.lt_or_ge (tail + 1) n with hlt | hge
  · rw [Nat.mod_eq_of_lt hlt] at hne
    rcases Nat.lt_or_ge head (tail + 1) with h1 | h1
    · rw [show head + 2 * n - tail - 1 = (head + n - tail - 1) + n by omega, Nat.add_mod_right, Nat.mod_eq_of_lt (by omega)] at h
      omega
    · rw [show head + 2 * n - tail - 1 = (head - tail - 1) + n + n by omega, Nat.add_mod_right, Nat.add_mod_right,
        Nat.mod_eq_of_lt (by omega)] at h
      omega
  · have htn : tail + 1 = n := by omega
    rw [htn, Nat.mod_self] at hne
    rw [show head + 2 * n - tail - 1 = head + n by omega, Nat.add_mod_right, Nat.mod_eq_of_lt hh] at h
    omega
/-- What the writing of an entry leaves (R171). -/
structure EntryPut (c : Compl) (s t : HostSide) : Prop where
  ring : mget none t.cqMem (s.rd CQ_TAIL.TAIL) = some (c, s.phase)
  bytes : ∀ i, i < 32 → mget none t.dataMem ((s.rd CQ_BASE_LO.BASE + 2 ^ 32 * s.rd CQ_BASE_HI.BASE + 32 * s.rd CQ_TAIL.TAIL + i) %
    2 ^ 64) = (c.image s.phase)[i]?
  tail : t.rd CQ_TAIL.TAIL = (s.rd CQ_TAIL.TAIL + 1) % 2 ^ s.rd CQ_SIZE.LOG2
  irq : t.rd IRQ_STATUS.CQ = 1
  phase : t.phase = (s.phase != (s.rd CQ_TAIL.TAIL + 1 == 2 ^ s.rd CQ_SIZE.LOG2))
  retry : t.retry = none
  arrived : t.arrived = s.arrived
  bar : SameBar [CQ_TAIL.TAIL.key 0, IRQ_STATUS.CQ.key 0] s t
theorem HostSide.putHost_rest (h : HostSide) (a : Nat) (bs : Bytes) : (h.putHost a bs).phase = h.phase ∧
    (h.putHost a bs).arrived = h.arrived ∧ (h.putHost a bs).bar = h.bar ∧ (h.putHost a bs).dataMem = putBytes a bs h.dataMem :=
  ⟨rfl, rfl, rfl, rfl⟩
theorem HostSide.putEntry_written (h : HostSide) (c : Compl) (hlog : h.rd CQ_SIZE.LOG2 ≤ 14)
    (htail : h.rd CQ_TAIL.TAIL < 2 ^ h.rd CQ_SIZE.LOG2) : EntryPut c h (h.putEntry c none) := by
  have hlog2 : h.log2 4 = h.rd CQ_SIZE.LOG2 := rfl
  have hnext : ((h.rd CQ_TAIL.TAIL + 1) % 2 ^ h.rd CQ_SIZE.LOG2) % 2 ^ CQ_TAIL.TAIL.width =
      (h.rd CQ_TAIL.TAIL + 1) % 2 ^ h.rd CQ_SIZE.LOG2 :=
    Nat.mod_eq_of_lt (lt_of_lt_of_le (Nat.mod_lt _ (Nat.two_pow_pos _)) (Nat.pow_le_pow_right (by decide) hlog))
  unfold HostSide.putEntry
  extract_lets tail n a b d
  obtain ⟨haphase, haarrived, habar, habytes⟩ : a.phase = h.phase ∧ a.arrived = h.arrived ∧ a.bar = h.bar ∧ a.dataMem =
    putBytes (h.rd CQ_BASE_LO.BASE + 2 ^ 32 * h.rd CQ_BASE_HI.BASE + 32 * tail) (c.image h.phase) h.dataMem :=
    h.putHost_rest _ _
  have hn : n = 2 ^ h.rd CQ_SIZE.LOG2 := rfl
  have ht : tail = h.rd CQ_TAIL.TAIL := rfl
  clear_value a tail n
  have hring : mget none b.cqMem tail = some (c, h.phase) := by
    rw [← haphase]
    exact mget_mset none a.cqMem tail (some (c, a.phase))
  have hbytes : b.dataMem = _ := habytes
  have hbar : b.bar = h.bar := habar
  have hphase : b.phase = h.phase := haphase
  have hretry : b.retry = none := rfl
  have harrived : b.arrived = h.arrived := haarrived
  clear_value b
  obtain ⟨hdring, hdbytes, hdphase, hdretry, hdarrived⟩ : d.cqMem = b.cqMem ∧ d.dataMem = b.dataMem ∧ d.phase = b.phase ∧
    d.retry = b.retry ∧ d.arrived = b.arrived := ⟨rfl, rfl, rfl, rfl, rfl⟩
  have hdtail : d.rd CQ_TAIL.TAIL = (h.rd CQ_TAIL.TAIL + 1) % 2 ^ h.rd CQ_SIZE.LOG2 := by
    rw [HostSide.rd_wr_ne _ _ _ _ _ _ (by decide), HostSide.rd_wr, hn, ht, hnext]
  have hdirq : d.rd IRQ_STATUS.CQ = 1 := HostSide.rd_wr _ _ _ _
  have hbd : SameBar [CQ_TAIL.TAIL.key 0, IRQ_STATUS.CQ.key 0] b d := ((SameBar.refl _ b).wr _).wr _
  have hdbar : SameBar [CQ_TAIL.TAIL.key 0, IRQ_STATUS.CQ.key 0] h d := fun f m hk =>
    (hbd f m hk).trans (HostSide.rd_congr hbar f m)
  clear_value d
  subst hn ht
  have hd : EntryPut c h { d with phase := h.phase != (h.rd CQ_TAIL.TAIL + 1 == 2 ^ h.rd CQ_SIZE.LOG2) } :=
    { ring := by rw [← hring, ← hdring]
      bytes := fun i hi => by
        have := mget_putBytes (c.image h.phase) (h.rd CQ_BASE_LO.BASE + 2 ^ 32 * h.rd CQ_BASE_HI.BASE + 32 * h.rd CQ_TAIL.TAIL) i
          h.dataMem (by rw [image_length]; decide) (by rw [image_length]; exact hi)
        exact (congrArg (fun m => mget none m _) (hdbytes.trans hbytes)).trans this
      tail := (HostSide.rd_congr rfl _ _).trans hdtail
      irq := (HostSide.rd_congr rfl _ _).trans hdirq
      phase := rfl
      retry := hdretry.trans hretry
      arrived := hdarrived.trans harrived
      bar := fun f m hk => (HostSide.rd_congr rfl _ _).trans (hdbar f m hk) }
  dsimp only
  rw [hdphase, hphase]
  split
  next hge =>
    have heq : (h.rd CQ_TAIL.TAIL + 1 == 2 ^ h.rd CQ_SIZE.LOG2) = true := beq_iff_eq.2 (by omega)
    rw [heq] at hd
    simpa using hd
  next hlt =>
    have hne : (h.rd CQ_TAIL.TAIL + 1 == 2 ^ h.rd CQ_SIZE.LOG2) = false := beq_eq_false_iff_ne.2 (by omega)
    rw [hne, show (h.phase != false) = h.phase by simp, ← hphase, ← hdphase] at hd
    exact hd
theorem HostSide.putEntry_failed (h : HostSide) (c : Compl) (a : BitVec 64) :
    (h.putEntry c (some a)).retry = some c ∧ (h.putEntry c (some a)).arrived = h.arrived ∧
    (h.putEntry c (some a)).cqMem = h.cqMem ∧ (h.putEntry c (some a)).rd BAR_ERR.DMA_ERR = 1 ∧
    (h.putEntry c (some a)).rd CQ_TAIL.TAIL = h.rd CQ_TAIL.TAIL ∧
    SameBar [BAR_ERR.DMA_ERR.key 0, BAR_ERR_ADDR.ADDR.key 0, IRQ_STATUS.ERR.key 0] h (h.putEntry c (some a)) := by
  obtain ⟨hbit, -, -, hsame⟩ := h.barErr_spec (f := BAR_ERR.DMA_ERR) (addr := a.toNat % 2 ^ 32) (Nat.mod_lt _ (by decide)) rfl (by decide)
  have hrd : ∀ f n, (h.putEntry c (some a)).rd f n = (h.barErr BAR_ERR.DMA_ERR (a.toNat % 2 ^ 32)).rd f n := HostSide.rd_congr rfl
  exact ⟨rfl, rfl, rfl, (hrd _ _).trans hbit, (hrd _ _).trans (hsame _ _ (by decide)), fun f n hk => (hrd f n).trans (hsame f n hk)⟩
/-- The completion ring is enabled and has room. -/
structure RingRoom (h : HostSide) : Prop where
  on : h.rd CQ_SIZE.EN = 1
  log : h.rd CQ_SIZE.LOG2 ≤ 14
  tail : h.rd CQ_TAIL.TAIL < 2 ^ h.rd CQ_SIZE.LOG2
  head : h.rd CQ_HEAD.HEAD < 2 ^ h.rd CQ_SIZE.LOG2
  room : (h.rd CQ_TAIL.TAIL + 1) % 2 ^ h.rd CQ_SIZE.LOG2 ≠ h.rd CQ_HEAD.HEAD
theorem RingRoom.open_ {h : HostSide} (hr : RingRoom h) : ¬ ((!h.enabled 4) = true ∨ h.cqFree = 0) := by
  have hen : h.enabled 4 = true := HostSide.rdb_eq_true (by rw [hr.on]; decide)
  have hfree : h.cqFree ≠ 0 := cqFree_ne hr.tail hr.head hr.room
  simp [hen, hfree]
theorem HostSide.writeNext_first {h : HostSide} {c : Compl} {cs : List Compl} (hr : RingRoom h) (hretry : h.retry = none)
    (harr : h.arrived = c :: cs) (hkind : c.kind = 1) (fail : DmaFail) :
    h.writeNext fail = ({ h with arrived := cs } : HostSide).putEntry c fail := by
  have hfind : h.arrived.find? (·.kind == 1) = some c := by
    rw [harr, List.find?_cons, hkind]
    rfl
  have hdrop : dropFirst (· == c) h.arrived = cs := by rw [harr, dropFirst_self]
  unfold HostSide.writeNext
  rw [if_neg hr.open_]
  simp only [hretry, hfind, hdrop]
theorem HostSide.retryWrite_held {h : HostSide} {c : Compl} (hr : RingRoom h) (hretry : h.retry = some c) (fail : DmaFail) :
    h.retryWrite fail = h.putEntry c fail := by
  unfold HostSide.retryWrite
  rw [hretry]
  exact if_neg hr.open_

/-! ### What a field reset has lost (R200) -/

/-- The host side completes one lost command. -/
def State.completeLost (s : State) (t : Track) : State :=
  (s.onHost fun h => ({ h with arrived := h.arrived ++ [s.ownEntry t.q t.tag t.index t.opcode (.err 0x40 0x001B 0xFFFF none)] } :
    HostSide).settled t.q).onCore Core.tickFree
/-- An entry but for the offset and value of its RESULT. -/
def Compl.headOf (c : Compl) : Nat × Nat × Nat × Nat × Nat × Nat × Nat × Nat :=
  (c.kind, c.status, c.tag, c.q, c.opcode, c.index, c.etime, c.result % 2 ^ 16)
def Track.lostAt (time : Nat) (x : Track) : Nat × Nat × Nat × Nat × Nat × Nat × Nat × Nat :=
  (1, 0x40, x.tag, x.q, x.opcode, x.index, time, 0x001B)
theorem ownEntry_lost (s : State) (x : Track) :
    (s.ownEntry x.q x.tag x.index x.opcode (.err 0x40 0x001B 0xFFFF none)).headOf = x.lostAt s.host.time := by
  have hres : (Reply.err 0x40 0x001B 0xFFFF none).result s.field.core.free % 2 ^ 16 = 0x001B := by
    simp only [Reply.result, detailResult, at_]
    omega
  simp only [State.ownEntry, Compl.headOf, hres]
  rfl
/-- What completing lost commands leaves, in order where no answer of the host side's own waits. -/
structure LostDone (l : List Track) (s t : State) : Prop where
  mem : ∀ x ∈ l, x.lostAt s.host.time ∈ t.host.arrived.map Compl.headOf
  keep : ∀ c ∈ s.host.arrived.map Compl.headOf, c ∈ t.host.arrived.map Compl.headOf
  order : s.host.answers = [] → t.host.arrived.map Compl.headOf = s.host.arrived.map Compl.headOf ++ l.map (·.lostAt s.host.time)
  lost : t.host.lost = s.host.lost
  bar : t.host.bar = s.host.bar
  pending : t.pending = s.pending
  regs : t.field.core.regs = s.field.core.regs
  dram : t.field.dram = s.field.dram
theorem completeLost_arrived (s : State) (x : Track) : ∃ l, (s.completeLost x).host.arrived = s.host.arrived ++
    s.ownEntry x.q x.tag x.index x.opcode (.err 0x40 0x001B 0xFFFF none) :: l ∧ (s.host.answers = [] → l = []) ∧
    (s.host.answers = [] → (s.completeLost x).host.answers = []) := by
  refine ⟨_, (List.append_assoc _ _ _).trans rfl, fun h => ?_, fun h => ?_⟩
  · simp [h]
  · simp [State.completeLost, State.onCore, State.onHost, HostSide.settled, h]
theorem lostDone (l : List Track) : ∀ s : State, LostDone l s (l.foldl State.completeLost s) := by
  induction l with
  | nil => exact fun s => ⟨fun x hx => (List.not_mem_nil hx).elim, fun c h => h, fun _ => by simp, rfl, rfl, rfl, rfl, rfl⟩
  | cons x l ih =>
    intro s
    obtain ⟨hmem, hkeep, horder, hlost, hbar, hpending, hregs, hdram⟩ := ih (s.completeLost x)
    obtain ⟨ys, harr, hys, hanswers⟩ := completeLost_arrived s x
    have htime : (s.completeLost x).host.time = s.host.time := rfl
    rw [htime] at hmem horder
    rw [harr, List.map_append, List.map_cons, ownEntry_lost] at hkeep
    rw [List.foldl_cons]
    refine ⟨fun y hy => ?_, fun c hc => hkeep c (List.mem_append_left _ hc), fun hnone => ?_, hlost, hbar, hpending, hregs, hdram⟩
    · rcases List.mem_cons.1 hy with rfl | hy
      · exact hkeep _ (List.mem_append_right _ List.mem_cons_self)
      · exact hmem y hy
    · rw [horder (hanswers hnone), harr, hys hnone, List.map_append, List.map_cons, ownEntry_lost]
      simp
theorem fieldLostCompletions_answers {s : State} (hp : s.host.powered = true) : Answers .fieldLostCompletions s fun t =>
    t.host.lost = [] ∧ (∀ x ∈ s.host.lost, x.lostAt s.host.time ∈ t.host.arrived.map Compl.headOf) ∧
    (s.host.answers = [] → t.host.arrived.map Compl.headOf =
      s.host.arrived.map Compl.headOf ++ s.host.lost.map (·.lostAt s.host.time)) ∧
    t.host.bar = s.host.bar ∧ t.pending = s.pending ∧ t.field.core.regs = s.field.core.regs ∧ t.field.dram = s.field.dram := by
  refine ⟨doFieldLostCompletions s, rfl, ?_⟩
  have hdo : doFieldLostCompletions s = s.host.lost.foldl State.completeLost (s.onHost fun h => { h with lost := [] }) := by
    unfold doFieldLostCompletions
    simp only [hp, Bool.not_true, Bool.false_eq_true, if_false]
    rfl
  rw [hdo]
  obtain ⟨hmem, -, horder, hlost, hbar, hpending, hregs, hdram⟩ := lostDone s.host.lost (s.onHost fun h => { h with lost := [] })
  exact ⟨hlost, hmem, horder, hbar, hpending, hregs, hdram⟩

/-- Settles O40: the fetch by `fetchQueue_first`, the ring by `putEntry_written`, the lost commands by `lostDone`. -/
theorem entriesAreFetchedAndCompletionsWritten : Obligations.EntriesAreFetchedAndCompletionsWritten := by
  unfold Obligations.EntriesAreFetchedAndCompletionsWritten
  refine ⟨fun entry bulk s hp hen hlog hentry hmode0 hmode1 => ?fetch, fun s hp => ?ring⟩
  case fetch =>
    have hfetch := fetchQueue_first hen hentry hmode0 hmode1
    exact ⟨fun hlen hup => sqEntryFetch_answers hp hlog hfetch hlen hup, fun a => sqEntryFetch_fails hp hfetch a⟩
  case ring =>
    refine ⟨fun hon hlog htail hhead hroom => ?_, fieldLostCompletions_answers hp⟩
    have hr : RingRoom s.host := ⟨hon, hlog, htail, hhead, hroom⟩
    refine ⟨fun c cs hretry harr hkind => ⟨?_, fun a => ?_⟩, fun c hretry => ?_⟩
    · refine answers_of_powered (g := fun h => h.writeNext none) rfl hp ?_
      dsimp only
      rw [HostSide.writeNext_first hr hretry harr hkind]
      have hput := ({ s.host with arrived := cs } : HostSide).putEntry_written c hlog htail
      exact ⟨hput.ring, hput.bytes, hput.arrived, hput.tail, hput.irq, hput.phase, hput.bar, rfl, rfl⟩
    · refine answers_of_powered (g := fun h => h.writeNext (some a)) rfl hp ?_
      dsimp only
      rw [HostSide.writeNext_first hr hretry harr hkind]
      obtain ⟨h1, h2, h3, h4, h5, h6⟩ := ({ s.host with arrived := cs } : HostSide).putEntry_failed c a
      exact ⟨h1, h2, h3, h4, h5, ⟨rfl, rfl⟩, h6⟩
    · refine answers_of_powered (g := fun h => h.retryWrite none) rfl hp ?_
      dsimp only
      rw [HostSide.retryWrite_held hr hretry]
      have hput := s.host.putEntry_written c hlog htail
      exact ⟨hput.ring, hput.bytes, hput.retry, hput.arrived, hput.tail, hput.irq, hput.bar, rfl, rfl⟩

end Sys2Proof.Machine
end

section
/-! PROOF. The elytron's lanes and ends, frames and descriptors (spec/01 R47 to R53, spec/04 R203 and R204): O42, O43. -/

namespace Sys2Proof.Machine

set_option Elab.async false

/-! ### Lanes (R47, R49, R53, R193) -/

/-- The host is lost, where no policy acts. -/
def Core.hostGone (s : Core) : Core :=
  (((s.setEly { s.ely with hostLost := true }).wr ELY_STATUS.HOST_ALIVE 0).emit 0x0303).dropHostPriv
theorem Core.declareLost_eq {s : Core} (hpol : s.rd ELY_CFG.HOST_LOSS_POLICY = 0) (hlost : s.ely.hostLost = false) :
    s.declareLost = s.hostGone := by
  have hp : s.hostGone.rd ELY_CFG.HOST_LOSS_POLICY = 0 := by
    unfold Core.hostGone Core.dropHostPriv
    rw [Core.rd_wr_ne _ _ _ _ _ _ (by decide), Core.rd_emit_ne _ _ _ _ _ _ (by decide), Core.rd_wr_ne _ _ _ _ _ _ (by decide)]
    exact hpol
  unfold Core.declareLost
  rw [hlost, if_neg Bool.false_ne_true]
  change (match s.hostGone.rd ELY_CFG.HOST_LOSS_POLICY with | 0 => s.hostGone | 1 => _ | _ => _) = _
  rw [hp]
  rfl
/-- What the loss of the host leaves, where no policy acts. -/
theorem Core.hostGone_spec (s : Core) : s.hostGone.ely = { s.ely with hostLost := true } ∧ s.hostGone.rd ELY_STATUS.HOST_ALIVE = 0 ∧
    s.hostGone.rd CMDQ_PRIV.HOST = 0 ∧ s.Raised s.hostGone 0x0303 0 ∧ s.hostGone.etime = s.etime ∧
    SameRegs [ELY_STATUS.HOST_ALIVE.key 0, CMDQ_PRIV.HOST.key 0, LOG_EVT_OVWR_CNT.COUNT.key 0] s s.hostGone := by
  unfold Core.hostGone
  generalize hx : (s.setEly { s.ely with hostLost := true }).wr ELY_STATUS.HOST_ALIVE 0 = x
  have hely : x.ely = { s.ely with hostLost := true } := by rw [← hx]; rfl
  have halive : x.rd ELY_STATUS.HOST_ALIVE = 0 := by rw [← hx]; exact Core.rd_wr _ _ _ _
  have hsame : SameRegs [ELY_STATUS.HOST_ALIVE.key 0, CMDQ_PRIV.HOST.key 0, LOG_EVT_OVWR_CNT.COUNT.key 0] s x := by
    rw [← hx]
    exact (SameRegs.of_regs rfl).wr _
  have hraised : s.Raised (x.emit 0x0303) 0x0303 0 := Core.raised_emit_of (by decide) (by rw [← hx]; rfl) (by rw [← hx]; rfl)
  have htime : x.etime = s.etime := by rw [← hx]; rfl
  unfold Core.dropHostPriv
  refine ⟨(Core.emit_ely _ _ _ _).trans hely, ?_, Core.rd_wr _ _ _ _, hraised, (Core.emit_etime _ _ _ _).trans htime,
    (hsame.emit _ _ _).wr _⟩
  rw [Core.rd_wr_ne _ _ _ _ _ _ (by decide), Core.rd_emit_ne _ _ _ _ _ _ (by decide), halive]
theorem Core.declareLost_quiet {s : Core} (hpol : s.rd ELY_CFG.HOST_LOSS_POLICY = 0) :
    Within [0x01, 0x03, 0x1B] [.ely, .cmdq] s s.declareLost ∧ s.declareLost.ely = { s.ely with hostLost := true } ∧
    s.declareLost.rd ELY_STATUS.LINK_UP = s.rd ELY_STATUS.LINK_UP ∧
    (s.rd CMDQ_PRIV.HOST = 0 → s.declareLost.rd CMDQ_PRIV.HOST = 0) := by
  cases hlost : s.ely.hostLost with
  | true =>
    have hid : s.declareLost = s := by rw [Core.declareLost, if_pos hlost]
    rw [hid]
    refine ⟨.refl _ _ s, ?_, rfl, id⟩
    rw [← hlost]
  | false =>
    rw [Core.declareLost_eq hpol hlost]
    obtain ⟨hely, -, hpriv, -, -, hregs⟩ := s.hostGone_spec
    exact ⟨((((Within.refl _ _ s).ely _).wr _).emit _ _ _).next (Core.dropHostPriv_within _), hely, hregs _ _ (by decide), fun _ => hpriv⟩
theorem Core.elyDown_spec (s : Core) : Within [0x01, 0x19, 0x1B] [.ely, .cmdq, .fij, .cdc, .limits] s s.elyDown ∧
    s.elyDown.ely = { s.ely with wasDown := true, retraining := false, freed := [] } ∧ s.elyDown.rd CMDQ_PRIV.HOST = 0 := by
  unfold Core.elyDown
  extract_lets e a fij b c
  have ha : Within [0x01, 0x19, 0x1B] [.ely, .cmdq, .fij, .cdc, .limits] s a :=
    (((Within.refl _ _ s).ely _).emit _ _ _).next (Core.dropHostPriv_within _)
  have haely : a.ely = { s.ely with wasDown := true, retraining := false } := Core.emit_ely _ _ _ _
  have hapriv : a.rd CMDQ_PRIV.HOST = 0 := Core.rd_wr _ _ _ _
  clear_value a
  have hbpriv : b.rd CMDQ_PRIV.HOST = 0 := (Core.rd_congr rfl _ _).trans hapriv
  have hb : Within [0x01, 0x19, 0x1B] [.ely, .cmdq, .fij, .cdc, .limits] s b := ha.fij _
  have hbely : b.ely = a.ely := rfl
  clear_value b
  have hc : Within [0x19, 0x1B] [.cdc, .limits, .cmdq] b c := b.cdcReset_within _
  have hcely : c.ely = b.ely := hc.parts .ely (by decide)
  have hcpriv : c.rd CMDQ_PRIV.HOST = 0 := (hc.rd _ _ (by decide)).trans hbpriv
  clear_value c
  refine ⟨(hb.next hc).ely _, ?_, (Core.rd_congr rfl _ _).trans hcpriv⟩
  change ({ c.ely with freed := [] } : ElySt) = _
  rw [hcely, hbely, haely]
/-- The lanes in use show. -/
theorem Core.setLanes_spec (s : Core) (h f : Nat) :
    (s.setLanes h f).ely = { s.ely with h2f := h2fLanes h, f2h := f2hLanes f } ∧
    (s.setLanes h f).rd ELY_STATUS.LINK_UP = b2n (h2fLanes h != 0 && f2hLanes f != 0) ∧
    (s.setLanes h f).rd ELY_STATUS.H2F_WIDTH = h2fLanes h ∧ (s.setLanes h f).cmdq = s.cmdq ∧ (s.setLanes h f).tck = s.tck := by
  have hlanes : h2fLanes h < 8 := by
    unfold h2fLanes
    split_ifs <;> omega
  unfold Core.setLanes Core.showEly
  generalize hx : s.setEly { s.ely with h2f := h2fLanes h, f2h := f2hLanes f } = x
  have hely : x.ely = { s.ely with h2f := h2fLanes h, f2h := f2hLanes f } := by rw [← hx]; rfl
  have hquiet : x.cmdq = s.cmdq ∧ x.tck = s.tck := by rw [← hx]; exact ⟨rfl, rfl⟩
  have hup : x.elyUp = (h2fLanes h != 0 && f2hLanes f != 0) := by rw [Core.elyUp, hely]
  simp only [Core.wrs, List.foldl_cons, List.foldl_nil]
  refine ⟨hely, ?_, ?_, hquiet⟩
  · rw [Core.rd_wr_ne _ _ _ _ _ _ (by decide), Core.rd_wr_ne _ _ _ _ _ _ (by decide), Core.rd_wr, hup]
    exact Nat.mod_eq_of_lt (by cases (h2fLanes h != 0 && f2hLanes f != 0) <;> decide)
  · rw [Core.rd_wr_ne _ _ _ _ _ _ (by decide), Core.rd_wr, hely]
    exact Nat.mod_eq_of_lt hlanes
theorem SameRegs.setLanes (s : Core) (h f : Nat) :
    SameRegs [ELY_STATUS.LINK_UP.key 0, ELY_STATUS.H2F_WIDTH.key 0, ELY_STATUS.F2H_WIDTH.key 0] s (s.setLanes h f) :=
  SameRegs.wrs (.of_regs rfl) (by simp only [List.forall_mem_cons]; decide)
/-- New lanes that keep the link up, or a link that was down: nothing else happens. -/
theorem Core.changeLanes_up {s : Core} {h f : Nat} (hh : h2fLanes h ≠ 0) (hf : s.elyUp = true → f2hLanes f ≠ 0) :
    s.changeLanes h f = s.setLanes h f := by
  obtain ⟨hely, -⟩ := s.setLanes_spec h f
  have hkeep : ¬ (s.elyUp = true ∧ (!(s.setLanes h f).elyUp) = true) := fun hdown => by
    have hup : (s.setLanes h f).elyUp = true := by
      rw [Core.elyUp, hely]
      simp [hh, hf hdown.1]
    rw [hup] at hdown
    exact absurd hdown.2 (by decide)
  have hne : (s.setLanes h f).ely.h2f ≠ 0 := by
    rw [hely]
    exact hh
  unfold Core.changeLanes
  simp only [if_neg hkeep]
  exact if_neg hne
/-- Lanes that end a link. -/
theorem Core.changeLanes_down {s : Core} {h f : Nat} (hpol : s.rd ELY_CFG.HOST_LOSS_POLICY = 0) (hf : f2hLanes f = 0) :
    Within [0x01, 0x03, 0x19, 0x1B] [.ely, .cmdq, .fij, .cdc, .limits] s (s.changeLanes h f) ∧
    (s.changeLanes h f).ely.h2f = h2fLanes h ∧ (s.changeLanes h f).ely.f2h = 0 ∧ (s.changeLanes h f).ely.toF = s.ely.toF ∧
    (s.changeLanes h f).rd ELY_STATUS.LINK_UP = 0 ∧
    (s.elyUp = true → (s.changeLanes h f).rd CMDQ_PRIV.HOST = 0) := by
  obtain ⟨hely, hshow, -⟩ := s.setLanes_spec h f
  have hw : Within [0x01, 0x03, 0x19, 0x1B] [.ely, .cmdq, .fij, .cdc, .limits] s (s.setLanes h f) :=
    (Within.refl _ _ s).next (s.setLanes_within h f)
  rw [hf, bne_self_eq_false, Bool.and_false] at hshow
  unfold Core.changeLanes
  extract_lets was a b
  have hapol : a.rd ELY_CFG.HOST_LOSS_POLICY = 0 := by
    have := SameRegs.setLanes s h f ELY_CFG.HOST_LOSS_POLICY 0 (by decide)
    exact this.trans hpol
  change a.ely = _ at hely
  change a.rd _ = _ at hshow
  change Within _ _ s a at hw
  have hdown : a.elyUp = false := by
    rw [Core.elyUp, hely, hf]
    simp
  clear_value a
  have hb : Within [0x01, 0x03, 0x19, 0x1B] [.ely, .cmdq, .fij, .cdc, .limits] s b ∧ b.ely.h2f = h2fLanes h ∧ b.ely.f2h = 0 ∧
      b.ely.toF = s.ely.toF ∧ b.rd ELY_STATUS.LINK_UP = 0 ∧ b.rd ELY_CFG.HOST_LOSS_POLICY = 0 ∧
      (s.elyUp = true → b.rd CMDQ_PRIV.HOST = 0) := by
    obtain ⟨hwd, hde, hdp⟩ := a.elyDown_spec
    by_cases hwas : was = true
    · have hbe : b = a.elyDown := if_pos ⟨hwas, by rw [hdown]; rfl⟩
      rw [hbe]
      refine ⟨hw.next hwd, ?_, ?_, ?_, (hwd.rd _ _ (by decide)).trans hshow, (hwd.rd _ _ (by decide)).trans hapol, fun _ => hdp⟩
      · rw [hde, hely]
      · rw [hde, hely]
        exact hf
      · rw [hde, hely]
    · have hbe : b = a := if_neg fun h => hwas h.1
      rw [hbe]
      refine ⟨hw, ?_, ?_, ?_, hshow, hapol, fun h => absurd h hwas⟩
      · rw [hely]
      · rw [hely]
        exact hf
      · rw [hely]
  clear_value b
  obtain ⟨hbw, hbh, hbf, hbt, hbup, hbpol, hbpriv⟩ := hb
  obtain ⟨hdw, hde, hdup, hdpriv⟩ := Core.declareLost_quiet hbpol
  split
  · refine ⟨hbw.next hdw, ?_, ?_, ?_, hdup.trans hbup, fun h => hdpriv (hbpriv h)⟩
    · rw [hde, ← hbh]
    · rw [hde, ← hbf]
    · rw [hde, ← hbt]
  · exact ⟨hbw, hbh, hbf, hbt, hbup, hbpriv⟩
/-- BAR_STATE follows the elytron; nothing but the host side's fields changes. -/
theorem syncHost_spec (s : State) : s.syncHost.field = s.field ∧ s.syncHost.pending = s.pending ∧
    s.syncHost.host.rd BAR_STATE.LINK_UP = b2n (s.field.core.elyUp && s.host.powered) ∧
    (s.field.core.elyUp = false → s.syncHost.host.rd BAR_STATE.FIELD_STATE = 0) ∧ BarOnly s.host s.syncHost.host ∧
    SameBar [BAR_STATE.LINK_UP.key 0, BAR_STATE.FIELD_STATE.key 0] s.host s.syncHost.host := by
  unfold State.syncHost
  extract_lets up
  refine ⟨rfl, rfl, ?_, fun h => ?_, ((BarOnly.refl _).wr _ _ _).wr _ _ _, ((SameBar.refl _ _).wr _).wr _⟩
  · refine (HostSide.rd_wr_ne _ _ _ _ _ _ (by decide)).trans ((HostSide.rd_wr _ _ _ _).trans ?_)
    exact Nat.mod_eq_of_lt (by cases up <;> decide)
  · have hup : up = false := by unfold up; rw [h]; rfl
    refine (HostSide.rd_wr _ _ _ _).trans ?_
    rw [hup]
    rfl
/-- A row that changes lanes of a running field side. -/
theorem answers_of_lanes {i : Instr} {s : State} {g : Core → Core} {P : State → Prop}
    (hexec : exec i s = .next (s.onRunning g).syncHost) (hb : s.field.core.bootState ≠ 1) (h : P (s.onCore g).syncHost) :
    Answers i s P := ⟨_, by rw [hexec, State.onRunning, if_neg hb], h⟩
theorem elyLaneDown_up {s : State} (hboot : s.field.core.bootState ≠ 1) (hmax : s.field.core.ely.h2f ≤ 4)
    (hf : s.field.core.ely.f2h ≤ 2) (htwo : 2 ≤ s.field.core.ely.h2f) : Answers (.elyLaneDown true) s fun t =>
      t.field.core.ely.h2f = (if s.field.core.ely.h2f = 4 then 2 else 1) ∧
      t.field.core.rd ELY_STATUS.H2F_WIDTH = (if s.field.core.ely.h2f = 4 then 2 else 1) ∧
      t.field.core.ely.retraining = true ∧ s.field.core.Raised t.field.core 0x0301 0 ∧
      SameOutside [0x03, 0x1B] s.field.core t.field.core ∧ t.pending = s.pending ∧ t.field.dram = s.field.dram := by
  refine answers_of_lanes rfl hboot ?_
  generalize hx : (s.field.core.setEly { s.field.core.ely with retraining := true }).emit 0x0301 = x
  have hxely : x.ely = { s.field.core.ely with retraining := true } := by rw [← hx]; exact Core.emit_ely _ _ _ _
  have hlanes : h2fLanes (s.field.core.ely.h2f / 2) = (if s.field.core.ely.h2f = 4 then 2 else 1) := by
    unfold h2fLanes
    split_ifs <;> omega
  have hdown : laneDown true s.field.core = x.setLanes (s.field.core.ely.h2f / 2) s.field.core.ely.f2h := by
    have hxf : x.ely.f2h = s.field.core.ely.f2h := by rw [hxely]
    have hup : x.elyUp = true → f2hLanes s.field.core.ely.f2h ≠ 0 := fun h => by
      rw [Core.elyUp, hxf] at h
      have : s.field.core.ely.f2h ≠ 0 := by simpa using (Bool.and_eq_true_iff.1 h).2
      unfold f2hLanes
      omega
    rw [← Core.changeLanes_up (by rw [hlanes]; split_ifs <;> decide) hup]
    unfold laneDown
    simp only [if_true]
    rw [if_neg (by omega), hx, hxf]
  obtain ⟨hfield, hpending, -⟩ := syncHost_spec (s.onCore (laneDown true))
  rw [hfield, hpending, State.onCore, Field.onCore, hdown]
  obtain ⟨hely, -, hwidth, hcmdq, htck⟩ := x.setLanes_spec (s.field.core.ely.h2f / 2) s.field.core.ely.f2h
  have hraised : s.field.core.Raised x 0x0301 0 := by
    rw [← hx]
    exact Core.raised_emit_of (by decide) rfl rfl
  have hregs : SameOutside [0x03, 0x1B] s.field.core x := by
    rw [← hx]
    exact ((Within.refl [0x03, 0x1B] [.ely, .cmdq] s.field.core).ely _).emit _ _ _ |>.regs
  refine ⟨?_, hwidth.trans hlanes, ?_, ?_, hregs.trans ((x.setLanes_within _ _).regs.mono (by decide)), rfl, rfl⟩
  · change (x.setLanes _ _).ely.h2f = _
    rw [hely]
    exact hlanes
  · change (x.setLanes _ _).ely.retraining = _
    rw [hely, hxely]
  · exact hraised.congr rfl rfl rfl (congrArg CmdqSt.fifo hcmdq) (congrArg CmdqSt.events hcmdq) (congrArg CmdqSt.evSeq hcmdq)
      (congrArg TckSt.running htck)
theorem elyLaneDown_last {s : State} (hboot : s.field.core.bootState ≠ 1) (hpol : s.field.core.rd ELY_CFG.HOST_LOSS_POLICY = 0)
    (hh : s.field.core.ely.h2f ≠ 0) (hf : s.field.core.ely.f2h = 1) : Answers (.elyLaneDown false) s fun t =>
      t.field.core.ely.f2h = 0 ∧ t.field.core.rd ELY_STATUS.LINK_UP = 0 ∧ t.field.core.rd CMDQ_PRIV.HOST = 0 ∧
      t.host.rd BAR_STATE.LINK_UP = 0 ∧ SameOutside [0x01, 0x03, 0x19, 0x1B] s.field.core t.field.core ∧
      t.pending = s.pending ∧ t.field.dram = s.field.dram := by
  refine answers_of_lanes rfl hboot ?_
  generalize hx : (s.field.core.setEly { s.field.core.ely with retraining := true }).emit 0x0301 = x
  have hxely : x.ely = { s.field.core.ely with retraining := true } := by rw [← hx]; exact Core.emit_ely _ _ _ _
  have hxregs : SameOutside [0x01, 0x03, 0x19, 0x1B] s.field.core x := by
    rw [← hx]
    exact ((Within.refl [0x01, 0x03, 0x19, 0x1B] [.ely, .cmdq] s.field.core).ely _).emit _ _ _ |>.regs
  have hxpol : x.rd ELY_CFG.HOST_LOSS_POLICY = 0 := by
    rw [← hx]
    exact (Core.rd_emit_ne _ _ _ _ _ _ (by decide)).trans hpol
  have hup : x.elyUp = true := by
    rw [Core.elyUp, hxely, hf]
    simp [hh]
  have hdown : laneDown false s.field.core = x.changeLanes s.field.core.ely.h2f 0 := by
    have hxh : x.ely.h2f = s.field.core.ely.h2f := by rw [hxely]
    have hn : ¬ s.field.core.ely.f2h = 0 := by omega
    have hhalf : s.field.core.ely.f2h / 2 = 0 := by omega
    unfold laneDown
    simp only [Bool.false_eq_true, if_false]
    rw [if_neg hn, hx, hxh, hhalf]
  obtain ⟨hfield, hpending, hlink, -⟩ := syncHost_spec (s.onCore (laneDown false))
  obtain ⟨hw, -, hf2h, -, hshow, hpriv⟩ := Core.changeLanes_down (h := s.field.core.ely.h2f) (f := 0) hxpol rfl
  rw [hfield, hpending, hlink, State.onCore, Field.onCore, hdown]
  refine ⟨hf2h, hshow, hpriv hup, ?_, hxregs.trans hw.regs, rfl, rfl⟩
  have hdead : (x.changeLanes s.field.core.ely.h2f 0).elyUp = false := by
    rw [Core.elyUp, hf2h]
    simp
  change b2n (Core.elyUp (x.changeLanes s.field.core.ely.h2f 0) && _) = 0
  rw [hdead]
  rfl
/-- The retrained lanes in use, before the replay. -/
def Core.relaned (s : Core) (h f : Nat) : Core :=
  (s.setEly { s.ely with retraining := false, toF := { s.ely.toF with nak := none, quietAt := s.etime }
                         toH := { s.ely.toH with nak := none, quietAt := s.etime } }).setLanes h f
/-- What follows the replay: credits, and the count of missed HEARTBEATs. -/
def Core.readvertised (s : Core) : Core :=
  let s := s.advertise
  if s.ely.hostLost then s else s.setEly { s.ely with hbAt := s.etime }
theorem retrainDone_eq {s : Core} {h f : Nat} (hh : h2fLanes h ≠ 0) (hf : f2hLanes f ≠ 0) : retrainDone h f s =
    let t := ((s.relaned h f).inc ELY_REPLAY_CNT.COUNT 0
      ((s.relaned h f).ely.toF.replay.length + (s.relaned h f).ely.toH.replay.length)).readvertised
    if s.ely.wasDown then (t.setEly { t.ely with wasDown := false }).emit 0x0305 else t := by
  have hup : (s.relaned h f).elyUp = true := by
    have hely : (s.relaned h f).ely.h2f = h2fLanes h ∧ (s.relaned h f).ely.f2h = f2hLanes f := ⟨rfl, rfl⟩
    rw [Core.elyUp, hely.1, hely.2]
    simp [hh, hf]
  unfold retrainDone
  simp only [Core.changeLanes_up hh fun _ => hf]
  change (if (!(s.relaned h f).elyUp) = true then _ else _) = _
  rw [hup, if_neg (by decide)]
  rfl
theorem Core.relaned_spec (s : Core) (h f : Nat) : (s.relaned h f).ely.h2f = h2fLanes h ∧ (s.relaned h f).ely.f2h = f2hLanes f ∧
    (s.relaned h f).ely.retraining = false ∧ (s.relaned h f).ely.toF.replay = s.ely.toF.replay ∧
    (s.relaned h f).ely.toH.replay = s.ely.toH.replay ∧
    (s.relaned h f).rd ELY_STATUS.LINK_UP = b2n (h2fLanes h != 0 && f2hLanes f != 0) ∧
    SameRegs [ELY_STATUS.LINK_UP.key 0, ELY_STATUS.H2F_WIDTH.key 0, ELY_STATUS.F2H_WIDTH.key 0] s (s.relaned h f) ∧
    (s.relaned h f).cmdq = s.cmdq ∧ (s.relaned h f).tck = s.tck := by
  unfold Core.relaned
  generalize hx : s.setEly { s.ely with
    retraining := false, toF := { s.ely.toF with nak := none, quietAt := s.etime }
    toH := { s.ely.toH with nak := none, quietAt := s.etime } } = x
  have hxely : x.ely = { s.ely with retraining := false, toF := { s.ely.toF with nak := none, quietAt := s.etime }
                                    toH := { s.ely.toH with nak := none, quietAt := s.etime } } := by rw [← hx]; rfl
  have hxrest : x.regs = s.regs ∧ x.cmdq = s.cmdq ∧ x.tck = s.tck := by rw [← hx]; exact ⟨rfl, rfl, rfl⟩
  obtain ⟨hregs, hcmdq, htck⟩ := hxrest
  obtain ⟨hely, hup, -, hq, ht⟩ := x.setLanes_spec h f
  rw [hxely] at hely
  exact ⟨by rw [hely], by rw [hely], by rw [hely], by rw [hely], by rw [hely], hup, (SameRegs.of_regs hregs).trans (.setLanes x h f),
    hq.trans hcmdq, ht.trans htck⟩
theorem Core.readvertised_spec (s : Core) : s.readvertised.ely.h2f = s.ely.h2f ∧ s.readvertised.ely.f2h = s.ely.f2h ∧
    s.readvertised.ely.retraining = s.ely.retraining ∧ s.readvertised = { s with ely := s.readvertised.ely } := by
  unfold Core.readvertised
  extract_lets a
  split <;> exact ⟨rfl, rfl, rfl, rfl⟩
theorem retrainDone_spec (s : Core) {h f : Nat} (hh : h2fLanes h ≠ 0) (hf : f2hLanes f ≠ 0) :
    (retrainDone h f s).ely.h2f = h2fLanes h ∧ (retrainDone h f s).ely.f2h = f2hLanes f ∧
    (retrainDone h f s).ely.retraining = false ∧ (retrainDone h f s).rd ELY_STATUS.LINK_UP = 1 ∧
    (retrainDone h f s).rd ELY_REPLAY_CNT.COUNT = satU 32 (s.rd ELY_REPLAY_CNT.COUNT +
        (s.ely.toF.replay.length + s.ely.toH.replay.length)) ∧
    (s.ely.wasDown = true → s.Raised (retrainDone h f s) 0x0305 0) ∧
    SameOutside [0x03, 0x1B] s (retrainDone h f s) := by
  rw [retrainDone_eq hh hf]
  obtain ⟨hrh, hrf, hrr, hrF, hrH, hrup, hrregs, hrcmdq, hrtck⟩ := s.relaned_spec h f
  have hrout : SameOutside [0x03, 0x1B] s (s.relaned h f) := ((((Within.refl [0x03, 0x1B] [.ely] s).ely _)).next
    (Core.setLanes_within _ h f)).regs
  rw [hrF, hrH]
  generalize s.relaned h f = r at *
  generalize hn : s.ely.toF.replay.length + s.ely.toH.replay.length = n
  extract_lets t
  have hirest : (r.inc ELY_REPLAY_CNT.COUNT 0 n).cmdq = r.cmdq ∧ (r.inc ELY_REPLAY_CNT.COUNT 0 n).tck = r.tck ∧
    (r.inc ELY_REPLAY_CNT.COUNT 0 n).ely = r.ely := ⟨rfl, rfl, rfl⟩
  have hicnt : (r.inc ELY_REPLAY_CNT.COUNT 0 n).rd ELY_REPLAY_CNT.COUNT = satU 32 (s.rd ELY_REPLAY_CNT.COUNT + n) :=
    (Core.rd_inc_self _ _ _ _).trans (by rw [hrregs _ _ (by decide)]; rfl)
  have hiup : (r.inc ELY_REPLAY_CNT.COUNT 0 n).rd ELY_STATUS.LINK_UP = 1 := by
    rw [Core.rd_inc_ne _ _ _ _ _ _ (by decide), hrup, bne_iff_ne.2 hh, bne_iff_ne.2 hf]
    rfl
  have hiout : SameOutside [0x03, 0x1B] s (r.inc ELY_REPLAY_CNT.COUNT 0 n) :=
    hrout.trans ((Within.refl [0x03, 0x1B] [] r).inc n).regs
  obtain ⟨hth, htf, htr, htrest⟩ : t.ely.h2f = _ ∧ t.ely.f2h = _ ∧ t.ely.retraining = _ ∧ t = _ :=
    (r.inc ELY_REPLAY_CNT.COUNT 0 n).readvertised_spec
  obtain ⟨hicmdq, hitck, hiely⟩ := hirest
  have htregs : t.regs = (r.inc ELY_REPLAY_CNT.COUNT 0 n).regs := by rw [htrest]
  have htq : t.cmdq = s.cmdq := by rw [htrest]; exact hicmdq.trans hrcmdq
  have htt : t.tck = s.tck := by rw [htrest]; exact hitck.trans hrtck
  rw [hiely] at hth htf htr
  clear_value t
  have hout : SameOutside [0x03, 0x1B] s t := hiout.trans (.of_regs htregs)
  split
  next hdown =>
    have hrd : ∀ g, g.key 0 ≠ LOG_EVT_OVWR_CNT.COUNT.key 0 →
        ((t.setEly { t.ely with wasDown := false }).emit 0x0305).rd g = (r.inc ELY_REPLAY_CNT.COUNT 0 n).rd g := fun g hg =>
      (Core.rd_emit_ne _ _ _ _ _ _ hg).trans (Core.rd_congr htregs g 0)
    have hely : ((t.setEly { t.ely with wasDown := false }).emit 0x0305).ely = { t.ely with wasDown := false } := Core.emit_ely _ _ _ _
    rw [hely]
    exact ⟨hth.trans hrh, htf.trans hrf, htr.trans hrr, (hrd _ (by decide)).trans hiup, (hrd _ (by decide)).trans hicnt,
      fun _ => Core.raised_emit_of (by decide) htq (congrArg TckSt.running htt),
      hout.trans (((Within.refl [0x03, 0x1B] [.ely, .cmdq] t).ely _).emit _ _ _).regs⟩
  next hup =>
    exact ⟨hth.trans hrh, htf.trans hrf, htr.trans hrr, (Core.rd_congr htregs _ _).trans hiup, (Core.rd_congr htregs _ _).trans hicnt,
      fun h => absurd h hup, hout⟩
theorem elyRetrainDone_answers {s : State} (hboot : s.field.core.bootState ≠ 1) (hp : s.host.powered = true) {h2f f2h : Fin 5}
    (hh : h2f ≠ 0) (hf : f2h ≠ 0) : Answers (.elyRetrainDone h2f f2h) s fun t =>
      t.field.core.ely.h2f = (if h2f = 3 then 2 else h2f.val) ∧ t.field.core.ely.f2h = min f2h.val 2 ∧
      t.field.core.ely.retraining = false ∧ t.field.core.rd ELY_STATUS.LINK_UP = 1 ∧ t.host.rd BAR_STATE.LINK_UP = 1 ∧
      t.field.core.rd ELY_REPLAY_CNT.COUNT = satU 32 (s.field.core.rd ELY_REPLAY_CNT.COUNT +
        (s.field.core.ely.toF.replay.length + s.field.core.ely.toH.replay.length)) ∧
      (s.field.core.ely.wasDown = true → s.field.core.Raised t.field.core 0x0305 0) ∧
      SameOutside [0x03, 0x1B] s.field.core t.field.core ∧
      t.pending = s.pending ∧ t.field.dram = s.field.dram := by
  refine answers_of_lanes (g := retrainDone h2f.val f2h.val) (congrArg Host.Outcome.next (if_pos hp)) hboot ?_
  have hhl : h2fLanes h2f.val = (if h2f = 3 then 2 else h2f.val) ∧ h2fLanes h2f.val ≠ 0 := by
    revert hh
    revert h2f
    decide
  have hfl : f2hLanes f2h.val = min f2h.val 2 ∧ f2hLanes f2h.val ≠ 0 := ⟨rfl, by
    have : f2h.val ≠ 0 := fun h => hf (Fin.ext h)
    unfold f2hLanes
    omega⟩
  obtain ⟨hfield, hpending, hlink, -⟩ := syncHost_spec (s.onCore (retrainDone h2f.val f2h.val))
  rw [hfield, hpending, hlink, State.onCore, Field.onCore]
  obtain ⟨hrh, hrf, hrr, hrup, hrcnt, hrraised, hrregs⟩ := retrainDone_spec s.field.core hhl.2 hfl.2
  generalize retrainDone h2f.val f2h.val s.field.core = t at *
  have hup : t.elyUp = true := by
    rw [Core.elyUp, hrh, hrf]
    simp [hhl.2, hfl.2]
  refine ⟨hrh.trans hhl.1, hrf.trans hfl.1, hrr, hrup, ?_, hrcnt, hrraised, hrregs, rfl, rfl⟩
  change b2n (t.elyUp && s.host.powered) = 1
  rw [hup, hp]
  rfl
theorem elyHostLost_answers {s : State} (hboot : s.field.core.bootState ≠ 1) (hpol : s.field.core.rd ELY_CFG.HOST_LOSS_POLICY = 0)
    (hlost : s.field.core.ely.hostLost = false) : Answers .elyHostLost s fun t =>
      t.field.core.ely = { s.field.core.ely with hostLost := true } ∧ t.field.core.rd ELY_STATUS.HOST_ALIVE = 0 ∧
      t.field.core.rd CMDQ_PRIV.HOST = 0 ∧ s.field.core.Raised t.field.core 0x0303 0 ∧
      t.field.core.etime = max s.field.core.etime
        (s.field.core.ely.hbAt + 100000 * max 1 (s.field.core.rd ELY_CFG.HOST_HB_MISS)) ∧
      SameRegs [ELY_STATUS.HOST_ALIVE.key 0, CMDQ_PRIV.HOST.key 0, LOG_EVT_OVWR_CNT.COUNT.key 0]
        s.field.core t.field.core ∧ CoreOnly s t := by
  refine answers_of_onRunning (g := hostSilent) rfl hboot ?_
  have hcore := CoreOnly.onCore s hostSilent
  have hdo : hostSilent s.field.core = (s.field.core.reach
      (s.field.core.ely.hbAt + 100000 * max 1 (s.field.core.rd ELY_CFG.HOST_HB_MISS))).hostGone := by
    unfold hostSilent
    rw [if_neg (by rw [hlost]; decide)]
    exact Core.declareLost_eq hpol hlost
  rw [State.onCore, Field.onCore, hdo] at hcore ⊢
  obtain ⟨hely, halive, hpriv, hraised, htime, hregs⟩ := Core.hostGone_spec (s.field.core.reach
      (s.field.core.ely.hbAt + 100000 * max 1 (s.field.core.rd ELY_CFG.HOST_HB_MISS)))
  exact ⟨hely, halive, hpriv, hraised.congr rfl rfl rfl rfl rfl rfl rfl, htime, hregs, hcore⟩
theorem hostAlertAssert_answers {s : State} (hboot : s.field.core.bootState ≠ 1) (hp : s.host.powered = true)
    (halert : s.host.alert = false) : Answers .hostAlertAssert s fun t =>
      t.host.alert = true ∧ t.host.rd BAR_STATE.FIELD_ALIVE = 0 ∧ t.host.rd IRQ_STATUS.ALERT = 1 ∧
      SameBar [BAR_STATE.FIELD_ALIVE.key 0, IRQ_STATUS.ALERT.key 0] s.host t.host ∧
      t.host = { s.host with bar := t.host.bar, alert := true } ∧ t.pending = s.pending ∧
      t.field = { s.field with core := { s.field.core with etime := max s.field.core.etime (s.host.hbAt + 1000000) } } := by
  have hdo : doHostAlertAssert s = { s with
      host := { (s.host.wr BAR_STATE.FIELD_ALIVE 0).wr IRQ_STATUS.ALERT 1 with alert := true }
      field := s.field.onCore fun c => c.reach (s.host.hbAt + 1000000) } := by
    unfold doHostAlertAssert
    rw [if_neg (by rw [hp]; decide), State.onRunning, if_neg hboot]
    simp only [State.onHost, State.onCore, HostSide.setAlert, halert]
    rfl
  refine ⟨doHostAlertAssert s, rfl, ?_⟩
  rw [hdo]
  have hrd : ∀ f n, HostSide.rd { (s.host.wr BAR_STATE.FIELD_ALIVE 0).wr IRQ_STATUS.ALERT 1 with alert := true } f n =
      ((s.host.wr BAR_STATE.FIELD_ALIVE 0).wr IRQ_STATUS.ALERT 1).rd f n := HostSide.rd_congr rfl
  have hsame : SameBar [BAR_STATE.FIELD_ALIVE.key 0, IRQ_STATUS.ALERT.key 0] s.host
      ((s.host.wr BAR_STATE.FIELD_ALIVE 0).wr IRQ_STATUS.ALERT 1) := ((SameBar.refl _ _).wr _).wr _
  refine ⟨rfl, ?_, (hrd _ _).trans (HostSide.rd_wr _ _ _ _), fun f n hk => (hrd f n).trans (hsame f n hk), rfl, rfl, rfl⟩
  exact (hrd _ _).trans ((HostSide.rd_wr_ne _ _ _ _ _ _ (by decide)).trans (HostSide.rd_wr _ _ _ _))

/-! ### The host side starts again (R86, R100, R202) -/

theorem Core.holdEvents_within (s : Core) (l : List Compl) : Within [0x1B] [.cmdq] s (s.holdEvents l) := by
  unfold Core.holdEvents
  extract_lets n a
  have ha : Within [0x1B] [.cmdq] s a := .ite (fun _ => .refl _ _ s) fun _ => (Within.refl _ _ s).inc _
  clear_value a n
  exact ha.cmdq _
/-- The commands among flits. -/
def sentCommands (l : List Flit) : List QCmd := l.filterMap fun f => match f.body with | .command e => some e | _ => none
/-- The numbering starts again: what the field side keeps. -/
theorem restartFlits_spec (s : State) : ∃ r, s.restartFlits = { s with
      host := { s.host with outbox := sentCommands s.field.core.ely.toF.replay ++ s.host.outbox }, field := ⟨r, s.field.dram⟩ } ∧
    r.ely.toF = s.field.core.ely.toF.restart ∧ Within [0x1B] [.ely, .cmdq, .answers] s.field.core r := by
  unfold State.restartFlits
  extract_lets e up down entries done events back
  have hentries : entries = sentCommands s.field.core.ely.toF.replay :=
    (List.filterMap_map ..).trans (congrArg (fun g => List.filterMap g _) (funext fun f => by
      cases h : f.body <;> simp only [Function.comp_apply, h]))
  rw [← hentries]
  clear_value entries done events back
  generalize hc : s.field.core.setEly { s.field.core.ely with toF := e.toF.restart, toH := e.toH.restart, toHost := e.toHost.map back } = c
  have hcely : c.ely.toF = s.field.core.ely.toF.restart := by rw [← hc]; rfl
  have hcw : Within [0x1B] [.ely, .cmdq, .answers] s.field.core c := by rw [← hc]; exact (Within.refl _ _ _).ely _
  have hdw : Within [0x1B] [.ely, .cmdq, .answers] s.field.core { c with cmdq := { c.cmdq with done := done ++ c.cmdq.done } } :=
    hcw.cmdq _ (hd := .inl (by decide))
  refine ⟨({ c with cmdq := { c.cmdq with done := done ++ c.cmdq.done } } : Core).holdEvents (events ++ c.cmdq.events), ?_, ?_,
    hdw.next (Core.holdEvents_within _ _)⟩
  · rw [← hc]
    rfl
  · have := (Core.holdEvents_within { c with cmdq := { c.cmdq with done := done ++ c.cmdq.done } } (events ++ c.cmdq.events)).parts
      .ely (by decide)
    exact (congrArg ElySt.toF this).trans hcely
theorem hostRestart_answers {i : Instr} {on : Bool} {s : State} (hexec : exec i s = .next (hostRestart on s))
    (hboot : s.field.core.bootState ≠ 1) (hpol : s.field.core.rd ELY_CFG.HOST_LOSS_POLICY = 0) : Answers i s fun t =>
      t.host.powered = on ∧ t.host.tracked = s.host.tracked ∧
      t.host.outbox = (s.field.core.ely.toF.replay.filterMap fun f => match f.body with | .command e => some e | _ => none) ++
        s.host.outbox ∧ t.field.core.ely.toF.replay = [] ∧ t.host.phase = true ∧ t.host.msix = [] ∧
      (∀ (f : Fld) (n : Nat), f.key n ∉ [BAR_STATE.LINK_UP.key 0, BAR_STATE.FIELD_STATE.key 0] → t.host.rd f n = f.rst % 2 ^ f.width) ∧
      t.host.rd BAR_STATE.LINK_UP = 0 ∧ t.host.rd BAR_STATE.FIELD_STATE = 0 ∧ t.field.core.ely.h2f = 0 ∧
      t.field.core.ely.f2h = 0 ∧ SameOutside [0x01, 0x03, 0x19, 0x1B] s.field.core t.field.core ∧
      t.pending = s.pending ∧ t.field.dram = s.field.dram := by
  obtain ⟨r, hflits, hrF, hrw⟩ := restartFlits_spec (s.onHost fun h => h.restart on s.field.core.etime)
  have hrboot : r.bootState ≠ 1 := fun h => hboot ((hrw.rd SYS_BOOT.STATE 0 (by decide)).symm.trans h)
  have hrpol : r.rd ELY_CFG.HOST_LOSS_POLICY = 0 := (hrw.rd _ _ (by decide)).trans hpol
  refine ⟨_, hexec, ?_⟩
  unfold hostRestart
  rw [hflits, State.onRunning, if_neg hrboot]
  obtain ⟨hw, hh2f, hf2h, htoF, hshow, -⟩ := Core.changeLanes_down (h := 0) (f := 0) hrpol rfl
  have hdead : (r.changeLanes 0 0).elyUp = false := by
    rw [Core.elyUp, hf2h]
    simp
  generalize hx : State.onCore _ _ = x
  have hxfield : x.field = ⟨r.changeLanes 0 0, s.field.dram⟩ := by rw [← hx]; rfl
  have hxpending : x.pending = s.pending := by rw [← hx]; rfl
  have hxhost : x.host = { s.host.restart on s.field.core.etime with
      outbox := sentCommands s.field.core.ely.toF.replay ++ s.host.outbox } := by rw [← hx]; rfl
  clear hx
  obtain ⟨hfield, hpending, hlink, hstate, hbar, hsame⟩ := syncHost_spec x
  have hxbar : x.host.bar = [] := by rw [hxhost]; rfl
  rw [hxhost] at hbar
  unfold BarOnly at hbar
  rw [hfield, hpending, hxfield]
  rw [hxfield] at hlink hstate
  refine ⟨by rw [hbar]; rfl, by rw [hbar]; rfl, by rw [hbar]; rfl, ?_, by rw [hbar]; rfl, by rw [hbar]; rfl, fun f n hk => ?_, ?_,
    hstate hdead, hh2f, hf2h, ?_, hxpending, rfl⟩
  · change (r.changeLanes 0 0).ely.toF.replay = []
    rw [htoF, hrF]
    rfl
  · rw [hsame f n hk, HostSide.rd, hxbar]
    rfl
  · rw [hlink]
    change b2n ((r.changeLanes 0 0).elyUp && _) = 0
    rw [hdead]
    rfl
  · exact (hrw.regs.mono (by decide)).trans hw.regs

/-- Settles O42: the lanes by `changeLanes_up` and `changeLanes_down`, the restart by `restartFlits_spec`. -/
theorem lanesAndHostSideFollowTheirSupply : Obligations.LanesAndHostSideFollowTheirSupply := by
  unfold Obligations.LanesAndHostSideFollowTheirSupply
  intro s hboot hpol hmax hf
  refine ⟨elyLaneDown_up hboot hmax hf, elyLaneDown_last hboot hpol, fun h2f f2h hp hh hf => elyRetrainDone_answers hboot hp hh hf,
    elyHostLost_answers hboot hpol, hostAlertAssert_answers hboot, fun i on hi => ?_⟩
  rcases hi with ⟨rfl, hp, rfl⟩ | ⟨rfl, hne⟩
  · exact hostRestart_answers (congrArg Host.Outcome.next (if_pos hp)) hboot hpol
  · exact hostRestart_answers (congrArg Host.Outcome.next (if_neg hne)) hboot hpol

/-! ### Frames (R203, R204) -/

theorem fspFrame_bad {frame : Bytes} {s : State} (hboot : s.field.core.bootState ≠ 1) (hbad : fspEntry frame = none) :
    Answers (.fspFrame frame) s fun t =>
      t.field.core.cmdq.fspBad = s.field.core.cmdq.fspBad + 1 ∧
      s.field.core.Raised t.field.core 0x0106 (satU 32 (s.field.core.cmdq.fspBad + 1)) ∧
      SameRegs [LOG_EVT_OVWR_CNT.COUNT.key 0] s.field.core t.field.core ∧ CoreOnly s t := by
  generalize hx : ({ s.field.core with cmdq := { s.field.core.cmdq with fspBad := s.field.core.cmdq.fspBad + 1 } } : Core) = x
  have hdo : doFspFrame frame s = s.onCore fun _ => x.emit 0x0106 (satU 32 (s.field.core.cmdq.fspBad + 1)) := by
    unfold doFspFrame
    rw [if_neg hboot, hbad, ← hx]
    rfl
  have hsat : satU 32 (s.field.core.cmdq.fspBad + 1) < 2 ^ 128 := lt_trans (satU_lt _ _) (by decide)
  have hraised : s.field.core.Raised (x.emit 0x0106 (satU 32 (s.field.core.cmdq.fspBad + 1))) 0x0106
      (satU 32 (s.field.core.cmdq.fspBad + 1)) := by
    refine (x.raised_emit _ _ _ hsat).congr ?_ ?_ ?_ rfl rfl rfl rfl <;> rw [← hx]
  refine ⟨_, congrArg Host.Outcome.next hdo, ?_, hraised, ?_, CoreOnly.onCore _ _⟩
  · change (x.emit _ _).cmdq.fspBad = _
    rw [Core.emit_cmdq, ← hx]
  · have hsame : SameRegs [LOG_EVT_OVWR_CNT.COUNT.key 0] s.field.core x := by
      rw [← hx]
      exact .of_regs rfl
    exact hsame.emit _ _ _
/-- The entry of a NOP. -/
def nopEntry (tag : Nat) : Bytes := toLE 2 0 ++ toLE 2 tag ++ List.replicate 60 0#8
theorem leAt_nopEntry {tag : Nat} (ht : tag < 1024) : leAt (nopEntry tag) 2 2 = tag := by
  have hbytes : leAt (nopEntry tag) 2 2 = (BitVec.ofNat 8 tag).toNat + 256 * (BitVec.ofNat 8 (tag / 256)).toNat := by
    simp [leAt, nopEntry, toLE, leNat]
  rw [hbytes, BitVec.toNat_ofNat, BitVec.toNat_ofNat]
  omega
/-- The command that a NOP's entry is over FSP. -/
def nopCall (tag : Nat) : Call :=
  { src := .fsp, q := 0, tag := BitVec.ofNat 10 tag, index := 0, fence := false, sg := false, tagRes := 0, flagRes := 0, plen := 0
    sgCount := 0, sglAddr := 0, resOff := none, bulk := ⟨[], [], none⟩ }
theorem entryCall_nop {tag : Nat} (ht : tag < 1024) : entryCall .fsp 0 0 (nopEntry tag) ⟨[], [], none⟩ = nopCall tag := by
  have hres : BitVec.ofNat 6 (tag / 1024) = 0 := by rw [Nat.div_eq_of_lt ht]; rfl
  have hop : leAt (nopEntry tag) 0 2 = 0 := by simp [leAt, nopEntry, toLE, leNat]
  have hflags : byteAt (nopEntry tag) 4 = 0 := by simp [byteAt, nopEntry, toLE]
  have hplen : byteAt (nopEntry tag) 5 = 0 := by simp [byteAt, nopEntry, toLE]
  have hcount : leAt (nopEntry tag) 6 2 = 0 := by simp [leAt, nopEntry, toLE, leNat]
  have haddr : leAt (nopEntry tag) 8 8 = 0 := by simp [leAt, nopEntry, toLE, leNat]
  have hnone : reservedAt 0 = [] := by decide
  unfold entryCall
  rw [leAt_nopEntry ht, hres, hop, hflags, hplen, hcount, haddr, hnone]
  rfl
/-- A NOP passes every check of R179, in any state. -/
theorem nopCall_check (tag : Nat) (s : Core) : (cmdNop (nopCall tag)).check false s = none := by
  have hst : stateTakes s.bootState 0 = true := by
    unfold stateTakes
    split_ifs <;> rfl
  have hneed : (cmdNop (nopCall tag)).need s.bootState = 0 := by
    unfold Cmd.need
    rw [if_neg fun h => h.2.1 rfl, if_neg fun h => absurd h.2 (show ¬ (0 : Nat) = 0x800 by decide)]
    rfl
  unfold Cmd.check
  rw [show headerCheck (cmdNop (nopCall tag)).call = none from rfl, hneed]
  rw [show (cmdNop (nopCall tag)).op = 0 from rfl, hst]
  rfl
theorem syncInFlight_outside (s : State) : SameOutside [0x01, 0x1B] s.field.core s.syncInFlight.field.core := fun f n hf =>
  rd_syncInFlight s f n fun hm => hf (commandKeys_blocks _ (inFlightKeys_subset hm))
theorem fspFrame_nop {frame : Bytes} {tag : Nat} {s : State} (hboot : s.field.core.bootState ≠ 1) (ht : tag < 1024)
    (hentry : fspEntry frame = some (nopEntry tag)) (hbusy : s.field.core.fspBusy = false)
    (hdead : s.field.core.imagoDead = false) : Answers (.fspFrame frame) s fun t =>
      t.field.core.cmdq.fspTx = [⟨1, 0, tag, 0, 0, 0, s.field.core.etime, 0⟩] ∧
      SameOutside [0x01, 0x1B] s.field.core t.field.core ∧ CoreOnly s t := by
  have hrun : doFspFrame frame s = (cmdNop (nopCall tag)).run (some (.nop (nopCall tag))) false (s.onCore Core.clearFsp) := by
    unfold doFspFrame
    rw [if_neg hboot, hentry]
    dsimp only
    rw [hbusy, hdead, if_neg Bool.false_ne_true, if_neg Bool.false_ne_true]
    unfold runEntry
    rw [show Fin.ofNat 4 0 = (0 : Fin 4) from rfl, entryCall_nop ht]
    rfl
  refine ⟨doFspFrame frame s, rfl, ?_⟩
  rw [hrun]
  generalize hy : (s.onCore Core.clearFsp).syncInFlight = y
  have hyq : y.field.core.cmdq = { s.field.core.cmdq with fspTx := [] } ∧ y.field.core.etime = s.field.core.etime ∧ CoreOnly s y := by
    rw [← hy]
    exact ⟨rfl, rfl, rfl, rfl, rfl⟩
  have hyregs : SameOutside [0x01, 0x1B] s.field.core y.field.core := by
    rw [← hy]
    exact syncInFlight_outside _
  obtain ⟨hyq, hytime, hycore⟩ := hyq
  have hdo : (cmdNop (nopCall tag)).run (some (.nop (nopCall tag))) false (s.onCore Core.clearFsp) =
      y.onCore fun c => (c.commitGroup (nopCall tag)).complete .fsp 0 (BitVec.ofNat 10 tag).toNat 0 0 (.ok 0) := by
    unfold Cmd.run
    rw [hy]
    dsimp only
    rw [nopCall_check]
    rfl
  rw [hdo]
  obtain ⟨-, hentry, -, hregs⟩ := Core.complete_completes (y.field.core.commitGroup (nopCall tag)) .fsp 0 (BitVec.ofNat 10 tag).toNat 0 0
    (.ok 0)
  have htag : (BitVec.ofNat 10 tag).toNat = tag := by rw [BitVec.toNat_ofNat, Nat.mod_eq_of_lt (by omega)]
  refine ⟨?_, ?_, hycore⟩
  · refine hentry.trans ?_
    change y.field.core.cmdq.fspTx ++ [_] = _
    rw [hyq, htag]
    change [] ++ [(⟨1, 0, tag, 0, 0, 0, y.field.core.etime, 0 % 2 ^ 128⟩ : Compl)] = _
    rw [hytime]
    rfl
  · exact hyregs.trans fun f n hf => (hregs f n fun hm => hf (commandKeys_blocks _ hm)).trans (Core.rd_commitGroup _ _ _ _)

/-! ### Descriptors (R251, R368) -/

/-- The field side without a descriptor. -/
def Core.withoutDesc (s : Core) (id : Nat) : Core := s.setEly { s.ely with descs := s.ely.descs.filter (·.id != id) }
theorem foldl_add_filter_le {α : Type} (g : α → Nat) (p : α → Bool) : ∀ (l : List α) (a b : Nat), a ≤ b →
    (l.filter p).foldl (fun n x => n + g x) a ≤ l.foldl (fun n x => n + g x) b
  | [], _, _, h => h
  | x :: l, a, b, h => by
    rw [List.filter_cons]
    split
    · exact foldl_add_filter_le g p l _ _ (Nat.add_le_add_right h _)
    · exact foldl_add_filter_le g p l _ _ (Nat.le_add_right_of_le h)
theorem Core.cmpFree_withoutDesc (s : Core) (id : Nat) : s.cmpFree ≤ (s.withoutDesc id).cmpFree :=
  Nat.sub_le_sub_left (foldl_add_filter_le _ _ _ _ _ (Nat.le_refl 0)) _
/-- The entries of a list whose bytes have all landed are queued. -/
theorem cmpAppend_landed {c : Call} {count : Nat} {s : Core} (hsg : c.sg = true) (hfail : c.bulk.dmaFail = none)
    (hlen : c.bulk.data.length = dlenOf c)
    (hgood : ∀ i, i < count → s.cmpBad (cmpEntryAt c.bulk.data (16 * i)) = none) (hroom : count ≤ s.cmpFree) :
    cmpAppend c count [] s = (.later, (s.openCmd (refOf 0x0500 c)).setCmp { s.pos.cmp with queue := s.pos.cmp.queue ++
      [⟨refOf 0x0500 c, (List.range count).map fun i => cmpEntryAt c.bulk.data (16 * i), 0, 0⟩] }) := by
  have hnone : findIx (fun e => (s.cmpBad e).isSome) ((List.range count).map fun i => cmpEntryAt c.bulk.data (16 * i)) = none :=
    findIdxFrom_none _ fun e he => by
      obtain ⟨i, hi, rfl⟩ := List.mem_map.1 he
      rw [hgood i (List.mem_range.1 hi)]
      rfl
  have htake : c.bulk.data.take (dlenOf c) = c.bulk.data := List.take_of_length_le hlen.le
  unfold cmpAppend withData
  rw [hsg]
  simp only [Bool.not_true, Bool.false_eq_true, if_false, hfail, Option.isSome_none, false_or, hlen, Nat.lt_irrefl, htake, hnone]
  rw [if_neg (Nat.not_lt.2 hroom), if_neg (Nat.not_lt.2 hroom)]
/-- A CMP_APPEND whose list has landed goes on, in a state that no longer counts it as started. -/
def goneOn (c : Call) (n : Nat) (y : State) : State :=
  let r := (cmdCmpAppend c n []).noted ((cmdCmpAppend c n []).body y.field)
  startArrived ((cmdCmpAppend c n []).finish none r.1 { y with field := r.2 })
theorem dataDescriptorClose_append {s : State} {id : Nat} {d : DataDesc} {c : Call} {n : BitVec 16}
    (hd : s.field.core.ely.descs.find? (·.id == id) = some d) (hwait : s.field.core.cmdq.waiting = [])
    (hdead : s.field.core.imagoDead = false) (hregion : d.region = none) (hended : d.ended = none)
    (hcmd : d.cmd = some (.cmpAppend c n [])) (hsg : c.sg = true) (hfail : c.bulk.dmaFail = none) (hdlen : dlenOf c = d.len)
    (hgood : ∀ i, i < n.toNat → s.field.core.cmpBad (cmpEntryAt d.got (16 * i)) = none) (hroom : n.toNat ≤ s.field.core.cmpFree)
    (hgot : d.got.length = d.len) : Answers (.dataDescriptorClose id) s fun t =>
        t.field.core.pos.cmp.queue = s.field.core.pos.cmp.queue ++
          [⟨refOf 0x0500 c, (List.range n.toNat).map fun i => cmpEntryAt d.got (16 * i), 0, 0⟩] ∧
        t.field.core.ely.descs = s.field.core.ely.descs.filter (·.id != id) ∧ Started c 0x0500 t ∧
        t.field.core.cmdq.done = s.field.core.cmdq.done ∧ t.host = s.host ∧ t.field.dram = s.field.dram := by
  generalize hy : (((s.onCore fun x => x.withoutDesc id).onCore fun x => x.freeRegions []).onCore fun x =>
    { x with cmdq := { x.cmdq with open_ := dropFirst (· == refOf 0x0500 c) x.cmdq.open_ } }).syncInFlight = y
  have hyrest : y.field.core.pos = s.field.core.pos ∧ y.field.core.ely = (s.field.core.withoutDesc id).ely ∧
      y.field.core.cmdq.done = s.field.core.cmdq.done ∧ y.field.core.cmdq.waiting = s.field.core.cmdq.waiting ∧ y.host = s.host ∧
      y.field.dram = s.field.dram := by
    rw [← hy]
    exact ⟨rfl, rfl, rfl, rfl, rfl, rfl⟩
  have hyfree : y.field.core.cmpFree = (s.field.core.withoutDesc id).cmpFree := by
    rw [← hy]
    rfl
  have hybad : ∀ e, y.field.core.cmpBad e = s.field.core.cmpBad e := fun e => by
    have hregs : SameRegs inFlightKeys s.field.core y.field.core := by
      rw [← hy]
      exact fun f n hf => rd_syncInFlight _ f n hf
    exact hregs.cmpBad (fun n hm => wrapKeys_free n (List.mem_append_left _ (inFlightKeys_subset hm))) e
  obtain ⟨hypos, hyely, hydone, hywait, hyhost, hydram⟩ := hyrest
  have hbody := cmpAppend_landed (c := { c with bulk := { c.bulk with data := d.got } }) (count := n.toNat) (s := y.field.core) hsg hfail
    (hgot.trans hdlen.symm) (fun i hi => (hybad _).trans (hgood i hi))
    (hroom.trans ((s.field.core.cmpFree_withoutDesc id).trans hyfree.ge))
  generalize hz : (y.field.core.openCmd (refOf 0x0500 c)).setCmp { y.field.core.pos.cmp with
    queue := y.field.core.pos.cmp.queue ++ [⟨refOf 0x0500 c, (List.range n.toNat).map fun i => cmpEntryAt d.got (16 * i), 0, 0⟩] } = z
  have hdo : doDataDescriptorClose id s = { y with field := ⟨z.commitGroup { c with bulk := { c.bulk with data := d.got } }, y.field.dram⟩ } := by
    have hstart : ∀ t : State, t.field.core.cmdq.waiting = [] → startArrived t = t := fun t h => by
      unfold startArrived
      rw [h]
      rfl
    unfold doDataDescriptorClose
    rw [hd]
    dsimp only
    rw [hended]
    dsimp only
    rw [if_pos ⟨hgot.ge, by rw [hdead]; rfl⟩, hcmd]
    simp only [Option.isSome_some, if_true, hregion, Option.toList_none]
    unfold runWaiting
    rw [hcmd]
    refine Eq.trans (b := goneOn { c with bulk := { c.bulk with data := d.got } } n.toNat y) (congrArg (goneOn _ _) hy) ?_
    have hk : (cmdCmpAppend { c with bulk := { c.bulk with data := d.got } } n.toNat []).body y.field = (.later, ⟨z, y.field.dram⟩) := by
      rw [← hz]
      exact congrArg (fun r : Reply × Core => (r.1, (⟨r.2, y.field.dram⟩ : Field))) hbody
    unfold goneOn
    rw [hk]
    have hzwait : z.cmdq.waiting = [] := by
      rw [← hz]
      exact hywait.trans hwait
    exact hstart _ hzwait
  refine ⟨doDataDescriptorClose id s, rfl, ?_⟩
  rw [hdo]
  refine ⟨?_, ?_, ?_, ?_, hyhost, hydram⟩
  · rw [← hypos]
    change z.pos.cmp.queue = _
    rw [← hz]
    rfl
  · change z.ely.descs = _
    rw [← hz]
    exact congrArg ElySt.descs hyely
  · change _ ∈ z.cmdq.open_
    rw [← hz]
    exact List.mem_append_right _ List.mem_cons_self
  · change z.cmdq.done = _
    rw [← hz]
    exact hydone
theorem dataDescriptorClose_ended {s : State} {id : Nat} {d : DataDesc} {c : Call} {r : Reply}
    (hd : s.field.core.ely.descs.find? (·.id == id) = some d) (hended : d.ended = some r) (href : d.ref = refOf 0x0201 c)
    (hregion : d.region = none) (hsent : ∀ f ∈ s.field.core.ely.toF.replay, ∀ o b, f.body ≠ .data id o b)
    (hsrc : c.src = .host) (hopen : refOf 0x0201 c ∈ s.field.core.cmdq.open_) : Answers (.dataDescriptorClose id) s fun t =>
        t.field.core.cmdq.done = s.field.core.cmdq.done ++
          [entryOf c 0x0201 r.status (r.result s.field.core.free) s.field.core.etime] ∧
        t.field.core.ely.descs = s.field.core.ely.descs.filter (·.id != id) ∧ SameOutside [0x01, 0x1B] s.field.core t.field.core ∧ CoreOnly s t := by
  have hway : s.field.core.onItsWay id = false := by
    unfold Core.onItsWay
    rw [List.any_eq_false]
    intro f hf
    have hne := hsent f hf
    cases hb : f.body with
    | data x o b =>
      have : x ≠ id := fun h => hne o b (by rw [hb, h])
      simpa using this
    | _ => simp
  generalize hx : (s.field.core.withoutDesc id).freeRegions [] = x
  have hdo : doDataDescriptorClose id s = s.onCore fun _ => x.closeCmd (refOf 0x0201 c) r := by
    unfold doDataDescriptorClose
    rw [hd]
    dsimp only
    rw [hended]
    dsimp only
    rw [hway, if_neg Bool.false_ne_true, hregion, href, ← hx]
    rfl
  have hxrest : x.cmdq = s.field.core.cmdq ∧ x.ely = (s.field.core.withoutDesc id).ely ∧ x.etime = s.field.core.etime ∧
      x.free = s.field.core.free ∧ x.regs = s.field.core.regs := by
    rw [← hx]
    exact ⟨rfl, rfl, rfl, rfl, rfl⟩
  obtain ⟨hxq, hxely, hxtime, hxfree, hxregs⟩ := hxrest
  refine ⟨doDataDescriptorClose id s, rfl, ?_⟩
  rw [hdo]
  have hclose : x.closeCmd (refOf 0x0201 c) r = Core.complete { x with cmdq := { x.cmdq with
      open_ := dropFirst (· == refOf 0x0201 c) x.cmdq.open_ } } .host 0x0201 c.tag.toNat c.q.val c.index.toNat r := by
    have hmem : x.cmdq.open_.contains (refOf 0x0201 c) = true := by
      rw [hxq]
      exact List.contains_iff_mem.2 hopen
    unfold Core.closeCmd
    rw [if_pos hmem]
    change Core.complete _ c.src _ _ _ _ _ = _
    rw [hsrc]
    rfl
  rw [State.onCore, Field.onCore, hclose]
  obtain ⟨-, hentry, hrest, hregs⟩ := Core.complete_completes { x with cmdq := { x.cmdq with
      open_ := dropFirst (· == refOf 0x0201 c) x.cmdq.open_ } } .host 0x0201 c.tag.toNat c.q.val c.index.toNat r
  refine ⟨hentry.trans ?_, ?_, ?_, rfl, rfl, rfl⟩
  · change x.cmdq.done ++ [(⟨1, _, _, _, _, _, x.etime, r.result x.free⟩ : Compl)] = _
    rw [hxq, hxtime, hxfree]
    rfl
  · dsimp only
    rw [hrest]
    exact congrArg ElySt.descs hxely
  · exact fun f n hf => (hregs f n fun hm => hf (commandKeys_blocks _ hm)).trans (Core.rd_congr hxregs f n)

/-- Settles O43. -/
theorem framesAndDescriptorsRunCommands : Obligations.FramesAndDescriptorsRunCommands := by
  unfold Obligations.FramesAndDescriptorsRunCommands
  intro s hboot
  refine ⟨fun frame hbad => fspFrame_bad hboot hbad, fun frame tag ht hentry hbusy hdead => fspFrame_nop hboot ht hentry hbusy hdead,
    ?_, ?_⟩
  · exact fun id d c n hd hwait hdead hregion hended _ hcmd hsg hfail hdlen _ hgood hroom hgot =>
      dataDescriptorClose_append hd hwait hdead hregion hended hcmd hsg hfail hdlen hgood hroom hgot
  · exact fun id d c r hd hended href hregion hsent hsrc hopen =>
      dataDescriptorClose_ended hd hended href hregion hsent hsrc hopen

end Sys2Proof.Machine
end

section
/-! PROOF. Commands that stage, molt and drill, and the commands and data of jobs (spec/05 R235 to R241, spec/06, spec/12): O44 to O46. -/

namespace Sys2Proof.Machine

set_option Elab.async false

/-! ### FW_STAGE (R235) -/

/-- A write of no record joins the queue behind those that wait. -/
theorem Core.queueFlash_joins (s : Core) {op : FlashOp} (h : s.flash.waiting.any (sameRecord op) = false) :
    (s.queueFlash op).flash.queue = s.flash.queue ++ [op] ∧ (s.queueFlash op).flash.images = s.flash.images ∧
    (s.queueFlash op).cmdq.async = s.cmdq.async ∧
    SameRegs (THM_DEFER_CNT.FLASH.key 0 :: flashKeys) s (s.queueFlash op) := by
  unfold Core.queueFlash
  extract_lets f run rest rest' a b
  have hrest : run ++ rest' = s.flash.queue ++ [op] := by
    have hr : rest' = rest ++ [op] := if_neg (by rw [h]; decide)
    rw [hr, ← List.append_assoc]
    refine congrArg (· ++ [op]) ?_
    unfold run rest FlashSt.waiting
    split
    · exact List.take_append_drop 1 _
    · rfl
  have hb : b.flash = { s.flash with queue := run ++ rest' } ∧ b.cmdq = s.cmdq := by
    unfold b
    split <;> exact ⟨rfl, rfl⟩
  have hregs : SameRegs (THM_DEFER_CNT.FLASH.key 0 :: flashKeys) s b := by
    have ha : SameRegs (THM_DEFER_CNT.FLASH.key 0 :: flashKeys) s a := .of_regs rfl
    unfold b
    split
    · exact ha
    · exact ha.inc _ List.mem_cons_self
  clear_value b
  obtain ⟨hflash, hcmdq⟩ := hb
  obtain ⟨x, hx⟩ := b.flashNext_flash
  refine ⟨?_, ?_, ?_, hregs.trans (b.flashNext_regs.mono (List.subset_cons_self _ _))⟩
  · rw [hx, hflash]
    exact hrest
  · rw [hx, hflash]
  · have honly : b.flashNext.cmdq.async = b.cmdq.async := by
      rw [(b.flashNext_only : b.flashNext = _)]
      rfl
    rw [honly, hcmdq]
/-- A new operation: its number, and the record that remembers it. -/
theorem Core.newOp_spec (s : Core) (opcode : Nat) (c : Call) (h : s.cmdq.opNext < 2 ^ 32) :
    (s.newOp opcode c).1 = s.cmdq.opNext ∧
    (s.newOp opcode c).2.cmdq = { s.cmdq with
      opNext := s.cmdq.opNext + 1
      async := s.cmdq.async ++ [⟨s.cmdq.opNext, opcode, c.tag.toNat, c.q.val⟩] } ∧
    (s.newOp opcode c).2 = { s with cmdq := (s.newOp opcode c).2.cmdq } := by
  have hid : s.cmdq.opNext % 2 ^ 32 = s.cmdq.opNext := Nat.mod_eq_of_lt h
  unfold Core.newOp
  rw [hid]
  exact ⟨rfl, rfl, rfl⟩
/-- The staged slot of a core that is written anew counts no longer. -/
def Core.unstaged (s : Core) (core slot : Nat) : Core := if s.staged core = some slot then s.setStaged core none else s
theorem Core.unstaged_rest (s : Core) (core slot : Nat) : (s.unstaged core slot).regs = s.regs ∧ (s.unstaged core slot).flash = s.flash ∧
    (s.unstaged core slot).cmdq = s.cmdq ∧ (s.unstaged core slot).etime = s.etime := by
  unfold Core.unstaged Core.setStaged
  split
  · split <;> exact ⟨rfl, rfl, rfl, rfl⟩
  · exact ⟨rfl, rfl, rfl, rfl⟩
theorem fwStage_queued {c : Call} {core slot : Nat} {d : Bytes} {s : Core} (hcore : core ≤ 1) (hslot : slot ≤ 1)
    (hactive : slot ≠ s.flash.activeSlot core) (hmoved : c.bulk.dmaFail = none) (hlanded : c.bulk.data = d) (hsize : dlenOf c = d.length)
    (hroom : s.flash.waiting.length < 1024) : fwStage c core slot s = (.accepted (s.newOp 0x0800 c).1,
      ((s.newOp 0x0800 c).2.unstaged core slot).queueFlash (.image core slot (s.newOp 0x0800 c).1 d)) := by
  have hmay : (s.flashRoom (.image core slot (s.newOp 0x0800 c).1 d)) = true := by
    rw [Core.flashRoom, decide_eq_true hroom, Bool.or_true]
  have htake : d.take d.length = d := List.take_length
  unfold fwStage withData
  rw [if_neg (by omega), if_neg (by omega), if_neg fun h => h.elim (by omega) hactive, hlanded, hsize, hmoved]
  simp only [Option.isSome_none, Bool.false_eq_true, Nat.lt_irrefl, or_self, if_false, htake, hmay, Bool.not_true]
  rfl
/-- Bulk data of a length in range is taken. -/
theorem Cmd.lengthCheck_bulk {k : Cmd} {n limit : Nat} {d : Bytes} (hc : BulkHeader k.call n d) (hp : n ∈ k.plens) (hb : k.lenBad = none)
    (hbulk : k.bulk = some limit) (hmax : d.length ≤ limit) : k.lengthCheck = none := by
  unfold Cmd.lengthCheck
  have hcount : ¬ k.call.sgCount.toNat > 4096 := Nat.not_lt.2 hc.count.2
  have hsize : ¬ dlenOf k.call > limit := by
    rw [hc.size]
    exact Nat.not_lt.2 hmax
  simp only [hc.len, hb, hbulk, hc.sg, Bool.not_true, Bool.false_eq_true, if_false, hcount, hsize]
  rw [if_neg]
  simpa using hp
/-- The entry of an accepted operation. -/
theorem Cmd.Done.accepted {k : Cmd} {s t : State} {x : Core} {op : Nat} (h : k.Done (.accepted op) s x t) : Completed k.call k.op 1 op s t :=
  h.completed
/-- What stays of the records after a completion. -/
theorem Cmd.Done.records {k : Cmd} {r : Reply} {s t : State} {x : Core} (h : k.Done r s x t) :
    t.field.core.cmdq.async = x.cmdq.async ∧ t.field.core.flash = x.flash ∧ t.field.core.tck.molt = x.tck.molt ∧
    t.field.core.tck.drill = x.tck.drill := by
  have hrest := h.rest
  generalize t.field.core = y at hrest ⊢
  rw [hrest]
  exact ⟨rfl, rfl, rfl, rfl⟩
/-- What the taking of a command leaves of the records that operations need. -/
theorem taken_records (c : Call) (op : Nat) (s : State) : (s.taken c op).field.core.flash = s.field.core.flash ∧
    (s.taken c op).field.core.tck = s.field.core.tck ∧ (s.taken c op).field.core.cmdq.opNext = s.field.core.cmdq.opNext ∧
    (s.taken c op).field.core.cmdq.async = s.field.core.cmdq.async := by
  rw [taken_core]
  exact ⟨rfl, rfl, rfl, rfl⟩
theorem fwStage_answers {c : Call} {core slot : Byte} {d : Bytes} {s : State} (hc : BulkHeader c 4 d) (hr : Runs c 0x0800 2 s)
    (hmin : 257 ≤ d.length) (hmax : d.length ≤ 16777216) (hcore : core.toNat ≤ 1) (hslot : slot.toNat ≤ 1)
    (hactive : slot.toNat ≠ s.field.core.flash.activeSlot core.toNat) (hroom : s.field.core.flash.waiting.length < 1024)
    (hop : s.field.core.cmdq.opNext < 2 ^ 32) : Answers (.fwStage c core slot) s fun t =>
        Completed c 0x0800 1 s.field.core.cmdq.opNext s t ∧
        t.field.core.cmdq.async = s.field.core.cmdq.async ++ [⟨s.field.core.cmdq.opNext, 0x0800, c.tag.toNat, c.q.val⟩] ∧
        t.field.core.flash.queue =
          s.field.core.flash.queue ++ [.image core.toNat slot.toNat s.field.core.cmdq.opNext d] ∧
        t.field.core.flash.images = s.field.core.flash.images ∧
        CommandFrame c 0x0800 [THM_DEFER.QUEUED.key 0, THM_DEFER.FLASH_HOLD.key 0, THM_DEFER_CNT.FLASH.key 0] s t := by
  obtain ⟨hflash, -, hnext, hasync⟩ := taken_records c 0x0800 s
  have hregs := SameRegs.taken c 0x0800 [THM_DEFER.QUEUED.key 0, THM_DEFER.FLASH_HOLD.key 0, THM_DEFER_CNT.FLASH.key 0] s
  have hdone := taken_done c 0x0800 s
  have htime := taken_etime c 0x0800 s
  have hbody := fwStage_queued (c := c) (s := (s.taken c 0x0800).field.core) hcore hslot (by rwa [hflash]) hc.moved hc.landed hc.size
    (by rwa [hflash])
  generalize hx0 : (s.taken c 0x0800).field.core = x0 at *
  obtain ⟨hid, hycmdq, hyrest⟩ := x0.newOp_spec 0x0800 c (by rwa [hnext])
  rw [hid] at hbody
  generalize (x0.newOp 0x0800 c).2 = y at *
  obtain ⟨hureg, huflash, hucmdq, hutime⟩ := y.unstaged_rest core.toNat slot.toNat
  generalize y.unstaged core.toNat slot.toNat = u at *
  have hyregs : y.regs = x0.regs ∧ y.flash = x0.flash ∧ y.etime = x0.etime := by
    rw [hyrest]
    exact ⟨rfl, rfl, rfl⟩
  obtain ⟨hyregs, hyflash, hytime⟩ := hyregs
  have hnone : u.flash.waiting.any (sameRecord (.image core.toNat slot.toNat x0.cmdq.opNext d)) = false :=
    List.any_eq_false.2 fun _ _ => by simp [sameRecord]
  obtain ⟨hq, himg, hqa, hqregs⟩ := u.queueFlash_joins hnone
  have hw := u.queueFlash_within (.image core.toNat slot.toNat x0.cmdq.opNext d)
  have hans := hw.parts .answers (by decide)
  have hxtime := hw.parts .etime (by decide)
  simp only [Part.same] at hans hxtime
  generalize u.queueFlash (.image core.toNat slot.toNat x0.cmdq.opNext d) = x at *
  rw [hucmdq, hycmdq] at hans hqa
  have hxregs : SameRegs (commandKeys ++ [THM_DEFER.QUEUED.key 0, THM_DEFER.FLASH_HOLD.key 0, THM_DEFER_CNT.FLASH.key 0])
      s.field.core x := (hregs.trans (.of_regs (hureg.trans hyregs))).trans (hqregs.mono (by decide))
  have hbad : (cmdFwStage c core.toNat slot.toNat).lenBad = none := if_neg (by
    rw [hc.size, decide_eq_false (Nat.not_lt.2 hmin)]
    simp)
  obtain ⟨t, hexec, ht⟩ := Cmd.runs_done (k := cmdFwStage c core.toNat slot.toNat) (i := .fwStage c core slot) (r := .accepted x0.cmdq.opNext)
    (x := x) rfl hr (hc.header (by decide)) rfl
    (fun h => absurd (hc.host.symm.trans h.1) (by decide))
    (Cmd.lengthCheck_bulk (k := cmdFwStage c core.toNat slot.toNat) hc List.mem_cons_self hbad rfl hmax)
    (BulkHeader.params (k := cmdFwStage c core.toNat slot.toNat) hc)
    (by
      change liftBody _ (s.taken c 0x0800).field = (_, (⟨x, (s.taken c 0x0800).field.dram⟩ : Field))
      simp only [liftBody, hx0, hbody])
    (.inr (.inl ⟨_, rfl⟩)) (hxtime.trans (hutime.trans (hytime.trans htime)))
    (by
      change (x.cmdq.done, x.cmdq.fspTx) = ((s.taken c 0x0800).field.core.cmdq.done, (s.taken c 0x0800).field.core.cmdq.fspTx)
      rw [hx0]
      exact hans)
  obtain ⟨hta, htf, -⟩ := ht.records
  refine ⟨t, hexec, ?_, ?_, ?_, ?_, ht.frame hxregs⟩
  · rw [← hnext]
    exact ht.accepted
  · rw [hta, hqa, hasync, hnext]
  · rw [htf, hq, huflash, hyflash, hflash, hnext]
  · rw [htf, himg, huflash, hyflash, hflash]

/-! ### MOLT and SWAP_DRILL (R236, R240, R241) -/

/-- With no crossing of the core on its way its reset aborts none. -/
theorem Core.resetCore_none {s : Core} {core : Nat}
    (h : ∀ x ∈ s.cdc.out ++ s.cdc.req.map (·.1), crossesDomain 5 core x = false) : s.resetCore core = s := by
  have hhit : ((s.cdc.out ++ s.cdc.req.map (·.1)).eraseDups).filter (crossesDomain 5 core) = [] :=
    List.filter_eq_nil_iff.2 fun x hx => by
      rw [h x (List.mem_eraseDups.1 hx)]
      decide
  have hout : s.cdc.out.any (crossesDomain 5 core) = false := List.any_eq_false.2 fun x hx => by
    rw [h x (List.mem_append_left _ hx)]
    decide
  unfold Core.resetCore Core.cdcReset
  simp only [hhit, hout, List.foldl_nil]
  rfl
/-- The pupa goes down for its molt. -/
def Core.molting (s : Core) (op core slot : Nat) (force : Bool) : Core :=
  let s := (s.pupaDown 1).wr TCK_STATUS.MOLT_PENDING 1
  s.setTck { s.tck with molt := some ⟨op, core, slot, force, false, false⟩ }
def moltKeys : List Nat := [TCK_STATUS.PUPA_STATE.key 0, TCK_STATUS.MOLT_PENDING.key 0, SYS_BOOT.CKPT_MATCH.key 0]
theorem Core.molting_spec (s : Core) (op core slot : Nat) (force : Bool) :
    (s.molting op core slot force).rd TCK_STATUS.PUPA_STATE = 1 ∧ (s.molting op core slot force).rd TCK_STATUS.MOLT_PENDING = 1 ∧
    (s.molting op core slot force).rd SYS_BOOT.CKPT_MATCH = 0 ∧ SameRegs moltKeys s (s.molting op core slot force) ∧
    (s.molting op core slot force).cmdq = s.cmdq ∧ (s.molting op core slot force).etime = s.etime ∧
    (s.molting op core slot force).tck.molt = some ⟨op, core, slot, force, false, false⟩ := by
  unfold Core.molting Core.pupaDown
  simp only [Core.wrs, List.foldl_cons, List.foldl_nil]
  have hrd : ∀ (x : Core) y f n, (x.setTck y).rd f n = x.rd f n := fun x y => Core.rd_congr rfl
  refine ⟨?_, ?_, ?_, ?_, rfl, rfl, rfl⟩
  · rw [hrd, Core.rd_wr_ne _ _ _ _ _ _ (by decide), Core.rd_wr_ne _ _ _ _ _ _ (by decide), Core.rd_wr]
    rfl
  · rw [hrd, Core.rd_wr]
    rfl
  · rw [hrd, Core.rd_wr_ne _ _ _ _ _ _ (by decide), Core.rd_wr]
    rfl
  · have h : SameRegs moltKeys s (((s.wr TCK_STATUS.PUPA_STATE 1).wr SYS_BOOT.CKPT_MATCH 0).wr TCK_STATUS.MOLT_PENDING 1) :=
      (((SameRegs.refl moltKeys s).wr _).wr _).wr _
    exact h.trans (.of_regs rfl)
theorem molt_accepted {c : Call} {flags slot : Nat} {s : Core} (hflags : flags ≤ 1) (hpupa : s.rd TCK_STATUS.PUPA_STATE = 2)
    (hstaged : s.staged s.pupa = some slot) (hmolt : s.tck.molt = none) (hdrill : s.tck.drill = none) (hprint : s.printing = false)
    (hepoch : flags = 1 ∨ ckptEpoch ((s.flash.image s.pupa slot).getD []) = s.rd SYS_EPOCH.CKPT_EPOCH s.imago)
    (hcross : ∀ x ∈ s.cdc.out ++ s.cdc.req.map (·.1), crossesDomain 5 s.pupa x = false) :
    molt c flags s = (.accepted (s.newOp 0x0801 c).1,
      (s.newOp 0x0801 c).2.molting (s.newOp 0x0801 c).1 s.pupa slot (decide (flags = 1))) := by
  have hmatch : ¬ (ckptEpoch ((s.flash.image s.pupa slot).getD []) ≠ s.rd SYS_EPOCH.CKPT_EPOCH s.imago ∧ flags = 0) := fun h =>
    hepoch.elim (by omega) h.1
  have hreset : ((s.newOp 0x0801 c).2.pupaDown 1 |>.wr TCK_STATUS.MOLT_PENDING 1).resetCore s.pupa =
      ((s.newOp 0x0801 c).2.pupaDown 1).wr TCK_STATUS.MOLT_PENDING 1 := Core.resetCore_none hcross
  unfold molt
  simp only [hpupa, hstaged, hmolt, hdrill, hprint, hreset]
  rw [if_neg (by omega), if_neg (by decide), if_neg (by decide), if_neg (fun h => absurd h.1 (by decide)), if_neg hmatch]
  rfl
theorem ckptEpoch_keys_free : ∀ i : Fin 2, SYS_EPOCH.CKPT_EPOCH.key i.val ∉ inFlightKeys := by decide
theorem ckptEpoch_free (s : Core) : SYS_EPOCH.CKPT_EPOCH.key s.imago ∉ inFlightKeys :=
  ckptEpoch_keys_free ⟨s.imago, s.rd_lt SYS_BOOT.IMAGO 0⟩
theorem molt_answers {c : Call} {flags : Byte} {slot : Nat} {s : State} (hc : CleanHeader c 4) (hr : Runs c 0x0801 2 s)
    (hflags : flags.toNat ≤ 1) (hpupa : s.field.core.rd TCK_STATUS.PUPA_STATE = 2)
    (hstaged : s.field.core.staged s.field.core.pupa = some slot) (hmolt : s.field.core.tck.molt = none)
    (hdrill : s.field.core.tck.drill = none) (hprint : s.field.core.printing = false)
    (hepoch : flags = 1 ∨ ckptEpoch ((s.field.core.flash.image s.field.core.pupa slot).getD []) =
      s.field.core.rd SYS_EPOCH.CKPT_EPOCH s.field.core.imago)
    (hcross : ∀ x ∈ s.field.core.cdc.out ++ s.field.core.cdc.req.map (·.1), crossesDomain 5 s.field.core.pupa x = false)
    (hop : s.field.core.cmdq.opNext < 2 ^ 32) : Answers (.molt c flags) s fun t =>
        Completed c 0x0801 1 s.field.core.cmdq.opNext s t ∧
        t.field.core.cmdq.async = s.field.core.cmdq.async ++ [⟨s.field.core.cmdq.opNext, 0x0801, c.tag.toNat, c.q.val⟩] ∧
        t.field.core.tck.molt = some ⟨s.field.core.cmdq.opNext, s.field.core.pupa, slot, decide (flags = 1), false, false⟩ ∧
        t.field.core.rd TCK_STATUS.PUPA_STATE = 1 ∧ t.field.core.rd TCK_STATUS.MOLT_PENDING = 1 ∧
        t.field.core.rd SYS_BOOT.CKPT_MATCH = 0 ∧
        CommandFrame c 0x0801 [TCK_STATUS.PUPA_STATE.key 0, TCK_STATUS.MOLT_PENDING.key 0, SYS_BOOT.CKPT_MATCH.key 0] s t := by
  obtain ⟨hflash, htck, hnext, hasync⟩ := taken_records c 0x0801 s
  have hregs := SameRegs.taken c 0x0801 moltKeys s
  have hrd := fun f n h => rd_taken c 0x0801 s f n h
  have hprint0 := taken_printing c 0x0801 s
  have hcdc := taken_cdc c 0x0801 s
  have htime := taken_etime c 0x0801 s
  generalize hx0 : (s.taken c 0x0801).field.core = x0 at *
  have himago : x0.imago = s.field.core.imago := hrd _ _ (by decide)
  have hpupaeq : x0.pupa = s.field.core.pupa := congrArg (1 - ·) himago
  have hflag1 : flags.toNat = 1 ↔ flags = 1 := ⟨fun h => BitVec.eq_of_toNat_eq h, fun h => by rw [h]; rfl⟩
  have hbody := molt_accepted (c := c) (s := x0) hflags ((hrd _ _ (by decide)).trans hpupa)
    (slot := slot) (by rw [hpupaeq, ← hstaged, Core.staged, htck]; rfl) (by rw [htck]; exact hmolt) (by rw [htck]; exact hdrill)
    (hprint0.trans hprint)
    (hepoch.imp hflag1.2 fun h => by rw [hpupaeq, hflash, himago, h]; exact (hrd _ _ (ckptEpoch_free s.field.core)).symm)
    (by rw [hcdc, hpupaeq]; exact hcross)
  obtain ⟨hid, hycmdq, hyrest⟩ := x0.newOp_spec 0x0801 c (by rwa [hnext])
  replace hbody : molt c flags.toNat x0 = (.accepted x0.cmdq.opNext,
      (x0.newOp 0x0801 c).2.molting x0.cmdq.opNext s.field.core.pupa slot (decide (flags = 1))) := by
    rw [hbody, hid, hpupaeq, decide_eq_decide.2 hflag1]
  generalize (x0.newOp 0x0801 c).2 = y at *
  obtain ⟨hyregs, hytime⟩ : y.regs = x0.regs ∧ y.etime = x0.etime := by
    rw [hyrest]
    exact ⟨rfl, rfl⟩
  obtain ⟨hpupa1, hpend, hmatch, hxregs, hxcmdq, hxtime, hxmolt⟩ := y.molting_spec x0.cmdq.opNext s.field.core.pupa slot (decide (flags = 1))
  generalize y.molting x0.cmdq.opNext s.field.core.pupa slot (decide (flags = 1)) = x at *
  have hk : (cmdMolt c flags.toNat).Plain 4 (molt c flags.toNat) := ⟨rfl, rfl, by decide, rfl, rfl, rfl⟩
  obtain ⟨t, hexec, ht⟩ := hk.done (i := .molt c flags) (r := .accepted x0.cmdq.opNext) rfl hc hr (hx0 ▸ hbody) (.inr (.inl ⟨_, rfl⟩)) (hxtime.trans (hytime.trans htime))
    (by
      change (x.cmdq.done, x.cmdq.fspTx) = ((s.taken c 0x0801).field.core.cmdq.done, (s.taken c 0x0801).field.core.cmdq.fspTx)
      rw [hx0, hxcmdq, hycmdq])
  obtain ⟨hta, -, htm, -⟩ := ht.records
  refine ⟨t, hexec, ?_, ?_, ?_, ?_, ?_, ?_, ht.frame ((hregs.trans (.of_regs hyregs)).trans (hxregs.mono (by decide)))⟩
  · rw [← hnext]
    exact ht.accepted
  · rw [hta, hxcmdq, hycmdq, hasync, hnext]
  · rw [htm, hxmolt, hnext]
  · exact (ht.rd _ _ (by decide)).trans hpupa1
  · exact (ht.rd _ _ (by decide)).trans hpend
  · exact (ht.rd _ _ (by decide)).trans hmatch
/-- The drill waits for its handover. -/
def Core.drilling (s : Core) (op : Nat) : Core := (s.setTck { s.tck with drill := some ⟨op, false, 0, none⟩ }).wr TCK_STATUS.DRILL_PENDING 1
theorem swapDrill_accepted {c : Call} {s : Core} (hpupa : s.rd TCK_STATUS.PUPA_STATE = 2) (hstaged : (s.staged s.pupa).isSome = true)
    (hmolt : s.tck.molt = none) (hdrill : s.tck.drill = none) :
    swapDrill c s = (.accepted (s.newOp 0x0802 c).1, (s.newOp 0x0802 c).2.drilling (s.newOp 0x0802 c).1) := by
  unfold swapDrill
  simp only [hpupa, hmolt, hdrill]
  rw [if_neg (by decide), if_neg (by decide), if_neg (by rw [Option.isNone_iff_eq_none]; exact fun h => by rw [h] at hstaged; cases hstaged), if_neg (by decide)]
  rfl
theorem Core.drilling_spec (s : Core) (op : Nat) : (s.drilling op).rd TCK_STATUS.DRILL_PENDING = 1 ∧
    SameRegs [TCK_STATUS.DRILL_PENDING.key 0] s (s.drilling op) ∧ (s.drilling op).cmdq = s.cmdq ∧ (s.drilling op).etime = s.etime ∧
    (s.drilling op).tck.drill = some ⟨op, false, 0, none⟩ := by
  have h : SameRegs [TCK_STATUS.DRILL_PENDING.key 0] s (s.setTck { s.tck with drill := some ⟨op, false, 0, none⟩ }) := .of_regs rfl
  exact ⟨Core.rd_wr _ _ _ _, h.wr _, rfl, rfl, rfl⟩
theorem swapDrill_answers {c : Call} {s : State} (hc : CleanHeader c 0) (hr : Runs c 0x0802 2 s)
    (hpupa : s.field.core.rd TCK_STATUS.PUPA_STATE = 2) (hstaged : (s.field.core.staged s.field.core.pupa).isSome = true)
    (hmolt : s.field.core.tck.molt = none) (hdrill : s.field.core.tck.drill = none) (hop : s.field.core.cmdq.opNext < 2 ^ 32) :
    Answers (.swapDrill c) s fun t => Completed c 0x0802 1 s.field.core.cmdq.opNext s t ∧
        t.field.core.cmdq.async = s.field.core.cmdq.async ++ [⟨s.field.core.cmdq.opNext, 0x0802, c.tag.toNat, c.q.val⟩] ∧
        t.field.core.tck.drill = some ⟨s.field.core.cmdq.opNext, false, 0, none⟩ ∧
        t.field.core.rd TCK_STATUS.DRILL_PENDING = 1 ∧ CommandFrame c 0x0802 [TCK_STATUS.DRILL_PENDING.key 0] s t := by
  obtain ⟨-, htck, hnext, hasync⟩ := taken_records c 0x0802 s
  have hregs := SameRegs.taken c 0x0802 [TCK_STATUS.DRILL_PENDING.key 0] s
  have hrd := fun f n h => rd_taken c 0x0802 s f n h
  have htime := taken_etime c 0x0802 s
  generalize hx0 : (s.taken c 0x0802).field.core = x0 at *
  have hpupaeq : x0.pupa = s.field.core.pupa := congrArg (1 - ·) (hrd SYS_BOOT.IMAGO 0 (by decide))
  have hbody := swapDrill_accepted (c := c) (s := x0) ((hrd _ _ (by decide)).trans hpupa)
    (by rw [hpupaeq, ← hstaged, Core.staged, htck]; rfl) (by rw [htck]; exact hmolt) (by rw [htck]; exact hdrill)
  obtain ⟨hid, hycmdq, hyrest⟩ := x0.newOp_spec 0x0802 c (by rwa [hnext])
  rw [hid] at hbody
  generalize (x0.newOp 0x0802 c).2 = y at *
  obtain ⟨hyregs, hytime⟩ : y.regs = x0.regs ∧ y.etime = x0.etime := by
    rw [hyrest]
    exact ⟨rfl, rfl⟩
  obtain ⟨hpend, hxregs, hxcmdq, hxtime, hxdrill⟩ := y.drilling_spec x0.cmdq.opNext
  generalize y.drilling x0.cmdq.opNext = x at *
  have hk : (cmdSwapDrill c).Plain 0 (swapDrill c) := ⟨rfl, rfl, by decide, rfl, rfl, rfl⟩
  obtain ⟨t, hexec, ht⟩ := hk.done (i := .swapDrill c) (r := .accepted x0.cmdq.opNext) rfl hc hr (hx0 ▸ hbody) (.inr (.inl ⟨_, rfl⟩)) (hxtime.trans (hytime.trans htime))
    (by
      change (x.cmdq.done, x.cmdq.fspTx) = ((s.taken c 0x0802).field.core.cmdq.done, (s.taken c 0x0802).field.core.cmdq.fspTx)
      rw [hx0, hxcmdq, hycmdq])
  obtain ⟨hta, -, -, htd⟩ := ht.records
  refine ⟨t, hexec, ?_, ?_, ?_, ?_, ht.frame ((hregs.trans (.of_regs hyregs)).trans (hxregs.mono (by decide)))⟩
  · rw [← hnext]
    exact ht.accepted
  · rw [hta, hxcmdq, hycmdq, hasync, hnext]
  · rw [htd, hxdrill, hnext]
  · exact (ht.rd _ _ (by decide)).trans hpend
/-- Settles O44. -/
theorem stagingMoltAndDrillAreAccepted : Obligations.StagingMoltAndDrillAreAccepted := by
  unfold Obligations.StagingMoltAndDrillAreAccepted
  refine fun c s => ⟨?_, ?_, ?_⟩
  · intro core slot d hc hr hmin hmax hcore hslot hactive hroom hop
    exact fwStage_answers hc hr hmin hmax hcore hslot hactive hroom hop
  · intro flags slot hc hr hflags hpupa hstaged hmolt hdrill hprint hepoch hcross hop
    exact molt_answers hc hr hflags hpupa hstaged hmolt hdrill hprint hepoch hcross hop
  · intro hc hr hpupa hstaged hmolt hdrill hop
    exact swapDrill_answers hc hr hpupa hstaged hmolt hdrill hop

end Sys2Proof.Machine
end

section
/-! PROOF. The job commands: defining, arming, reporting, switching and aborting a job (O45;
spec/12_jobs_and_changeover.md R491 to R506). -/

namespace Sys2Proof.Machine

set_option Elab.async false

/-! ### What the taking of a command leaves to read -/

/-- A field whose first `N` places lie in one block, outside `ps`. -/
theorem Fld.block_free {f : Fld} {n N : Nat} {ps : List Nat} (hn : n < N) (hfit : (0 < f.sub ∧ f.lo < 32 ∧
    f.base % 65536 + f.stride * ((N - 1) / f.sub) + f.stride2 * (f.sub - 1) < 65536) ∧ f.base / 65536 ∉ ps) : f.block n ∉ ps := by
  obtain ⟨⟨hsub, hlo, hsize⟩, hfree⟩ := hfit
  have hblock : f.block n ∈ [f.base / 65536] := Fld.block_mem hn ⟨hsub, hlo, hsize, List.mem_singleton_self _⟩
  rwa [List.mem_singleton.1 hblock]
/-- The taking of a command changes the counts of what is in flight alone. -/
theorem taken_outside (c : Call) (op : Nat) (s : State) : SameOutside [0x01] s.field.core (s.taken c op).field.core := fun f n hn =>
  rd_taken c op s f n fun hm => hn (inFlightKeys_block _ hm)
where
  inFlightKeys_block : ∀ k ∈ inFlightKeys, k / 2 ^ 21 ∈ [0x01] := by decide

section
variable {a b : Core}
theorem SameOutside.rdb {ps : List Nat} (h : SameOutside ps a b) (f : Fld) (n : Nat) (hf : f.block n ∉ ps) : b.rdb f n = a.rdb f n := by
  rw [Core.rdb, h f n hf, Core.rdb]
theorem SameOutside.barPresent (h : SameOutside [0x01] a b) (n : Nat) : b.barPresent n = a.barPresent n := by
  unfold Core.barPresent
  rw [h _ _ (by decide)]
theorem Core.barPresent_lt {s : Core} {n : Nat} (h : s.barPresent n = true) : n < 8 := by
  by_contra hn
  have hsmall : s.rd GEO_PRESS.BAR_MASK < 2 ^ n := lt_of_lt_of_le (s.rd_lt _ _) (Nat.pow_le_pow_right (by decide) (Nat.not_lt.1 hn))
  exact Bool.false_ne_true ((Nat.testBit_lt_two_pow hsmall).symm.trans h)
theorem SameOutside.word (h : SameOutside [0x01] a b) {n N : Nat} {l : List Fld} (hn : n < N) (hl : ∀ f ∈ l, (0 < f.sub ∧ f.lo < 32 ∧
    f.base % 65536 + f.stride * ((N - 1) / f.sub) + f.stride2 * (f.sub - 1) < 65536) ∧ f.base / 65536 ∉ [0x01]) :
    b.word l n = a.word l n :=
  List.foldl_ext _ _ _ fun _ f hf => by rw [h f n (Fld.block_free hn (hl f hf))]
theorem SameOutside.lmax (h : SameOutside [0x01] a b) {n : Nat} (hn : n < 8) : b.lmax n = a.lmax n := by
  unfold Core.lmax
  rw [h _ _ (Fld.block_free hn (by decide))]
theorem SameOutside.scrWords (h : SameOutside [0x01] a b) {n : Nat} (hn : n < 8) : b.scrWords n = a.scrWords n := by
  unfold Core.scrWords
  rw [h.word hn (by decide), h.word hn (by decide), h.word hn (by decide), h SPGB_ALT.MAP n (Fld.block_free hn (by decide))]
  congr 2
  refine List.map_congr_left fun i hi => h.word (N := 56) ?_ (by decide)
  have hi7 := List.mem_range.1 hi
  omega
theorem SameOutside.csvWords (h : SameOutside [0x01] a b) {n : Nat} (hn : n < 8) : b.csvWords n = a.csvWords n := by
  unfold Core.csvWords
  rw [h.word hn (by decide), h.word hn (by decide), h.word hn (by decide), h CSVB_REPEAT.REPEAT n (Fld.block_free hn (by decide)),
    h CSVB_START.START n (Fld.block_free hn (by decide))]
theorem SameOutside.jobSet (h : SameOutside [0x01] a b) (j : Job) {n : Nat} (hn : n < 8) : b.jobSet j n = a.jobSet j n := by
  unfold Core.jobSet
  rw [h.scrWords hn, h.csvWords hn, h CSVB_MODE.PHASE n (Fld.block_free hn (by decide)), h CSV_CFG.CYCLE 0 (by decide)]
theorem SameOutside.shadows (h : SameOutside [0x01] a b) (hj : b.jobs = a.jobs) {n : Nat} (hn : n < 8) : b.shadows n = a.shadows n := by
  unfold Core.shadows
  rw [hj, h JOBB_ACTIVE.JOB_ID n (Fld.block_free hn (by decide))]
end

/-! ### Job records -/

theorem find?_mapIf (id : Nat) {g : Job → Job} (hg : ∀ j, (g j).id = j.id) (l : List Job) :
    (mapIf (·.id == id) g l).find? (·.id == id) = (l.find? (·.id == id)).map g := by
  induction l with
  | nil => rfl
  | cons j l ih =>
    unfold mapIf at ih ⊢
    rw [List.map_cons, List.find?_cons, List.find?_cons]
    by_cases h : (j.id == id) = true
    · rw [if_pos h, hg, h]
      rfl
    · rw [if_neg h, Bool.eq_false_of_not_eq_true h]
      exact ih
theorem Core.job?_congr {a b : Core} (h : b.jobs.jobs = a.jobs.jobs) (id : Nat) : b.job? id = a.job? id := by
  unfold Core.job?
  rw [h]
theorem Core.job?_modJob (s : Core) (id : Nat) {g : Job → Job} (hg : ∀ j, (g j).id = j.id) :
    (s.modJob id g).job? id = (s.job? id).map g := find?_mapIf id hg _
/-- A move to a state that does not end the job. -/
theorem Core.setJobState_goesOn {s : Core} {id st : Nat} {j : Job} (h : s.job? id = some j) (hst : j.state ≠ st) (hlive : st < 6) :
    s.setJobState id st = (s.modJob id fun j => { j with state := st }).emit 0x0C01 (id + at_ 4 j.state + at_ 5 st) := by
  unfold Core.setJobState
  rw [h]
  simp only
  rw [if_neg hst, if_pos hlive]
/-- What such a move leaves. -/
theorem Core.setJobState_goesOn_spec {s : Core} {id st : Nat} {j : Job} (h : s.job? id = some j) (hst : j.state ≠ st) (hlive : st < 6) :
    (s.setJobState id st).job? id = some { j with state := st } ∧ Within [0x1B] [.jobs, .cmdq] s (s.setJobState id st) ∧
    SameRegs [LOG_EVT_OVWR_CNT.COUNT.key 0] s (s.setJobState id st) ∧
    (s.setJobState id st).jobs = { s.jobs with jobs := (s.setJobState id st).jobs.jobs } := by
  rw [Core.setJobState_goesOn h hst hlive]
  have hm : Within [0x1B] [.jobs, .cmdq] s (s.modJob id fun j => { j with state := st }) := (Within.refl _ _ s).jobs _
  have hjobs : ∀ d, ((s.modJob id fun j => { j with state := st }).emit 0x0C01 d).jobs = (s.modJob id fun j => { j with state := st }).jobs :=
    fun d => (((Within.refl [0x1B] [.cmdq] _).emit 0x0C01 d 0).parts .jobs (by decide) : _)
  refine ⟨?_, hm.emit _ _ _, ?_, ?_⟩
  · rw [Core.job?_congr (congrArg JobSt.jobs (hjobs _)), Core.job?_modJob s id (g := fun j => { j with state := st }) fun _ => rfl, h]
    rfl
  · have hregs : SameRegs [LOG_EVT_OVWR_CNT.COUNT.key 0] s (s.modJob id fun j => { j with state := st }) := .of_regs rfl
    exact hregs.emit _ _ _
  · rw [hjobs]
    rfl

/-! ### JOB_STATUS (R498) -/

/-- The mask of the bars with a property. -/
def barsWith (p : Nat → Bool) : Nat := (List.range 8).foldl (fun m b => if p b then m + 2 ^ b else m) 0
theorem barsWith_spec (p : Nat → Bool) : barsWith p < 256 ∧ ∀ b : Fin 8, (barsWith p).testBit b.val = p b.val := by
  have h : ∀ q : Fin 8 → Bool, (barsWith fun i => if h : i < 8 then q ⟨i, h⟩ else false) < 256 ∧
      ∀ b : Fin 8, (barsWith fun i => if h : i < 8 then q ⟨i, h⟩ else false).testBit b.val = q b := by decide +kernel
  have hq := h fun b => p b.val
  have heq : barsWith (fun i => if h : i < 8 then p (⟨i, h⟩ : Fin 8).val else false) = barsWith p :=
    List.foldl_ext _ _ _ fun m b hb => by
    simp only [List.mem_range.1 hb, dif_pos]
  rwa [heq] at hq
/-- The answer of JOB_STATUS. -/
def Core.statusOf (s : Core) (id : Nat) (j : Job) : Nat :=
  id + at_ 4 j.state + at_ 5 (barsWith fun b => s.rd JOBB_ACTIVE.JOB_ID b == id) +
      at_ 6 (barsWith fun b => match j.bar? b with | some jb => jb.left | none => false) +
      at_ 7 (b2n j.reduced + 2 * b2n j.overflow) + at_ 8 j.defects.length + at_ 12 j.ceiling
theorem jobStatus_of {s : Core} {id : Nat} {j : Job} (h : s.job? id = some j) : jobStatus id s = (.ok (s.statusOf id j), s) := by
  unfold jobStatus
  rw [h]
  rfl
theorem Core.statusOf_fields (s : Core) {id : Nat} (j : Job) (hid : id < 2 ^ 32) : s.statusOf id j % 2 ^ 128 % 2 ^ 32 = id ∧
    (j.state < 256 → s.statusOf id j % 2 ^ 128 / 2 ^ 32 % 256 = j.state ∧
      ∀ b : Fin 8, (s.statusOf id j % 2 ^ 128 / 2 ^ 40).testBit b.val = decide (s.rd JOBB_ACTIVE.JOB_ID b.val = id)) := by
  obtain ⟨hact, hbit⟩ := barsWith_spec fun b => s.rd JOBB_ACTIVE.JOB_ID b == id
  obtain ⟨rest, hrest⟩ : ∃ rest, s.statusOf id j = id + j.state * 2 ^ 32 +
      (barsWith fun b => s.rd JOBB_ACTIVE.JOB_ID b == id) * 2 ^ 40 + rest * 2 ^ 48 := by
    refine ⟨(barsWith fun b => match j.bar? b with | some jb => jb.left | none => false) +
      (b2n j.reduced + 2 * b2n j.overflow) * 2 ^ 8 + j.defects.length * 2 ^ 16 + j.ceiling * 2 ^ 48, ?_⟩
    simp only [Core.statusOf, at_]
    ring
  generalize (barsWith fun b => s.rd JOBB_ACTIVE.JOB_ID b == id) = m at *
  rw [hrest]
  refine ⟨by omega, fun hst => ⟨by omega, fun b => ?_⟩⟩
  have hdiv : (id + j.state * 2 ^ 32 + m * 2 ^ 40 + rest * 2 ^ 48) % 2 ^ 128 / 2 ^ 40 = 2 ^ 8 * (rest % 2 ^ 80) + m := by omega
  rw [hdiv, Nat.testBit_two_pow_mul_add _ hact, if_pos b.isLt, hbit]
  exact Bool.beq_eq_decide_eq _ _
theorem jobStatus_answers {c : Call} {id : Word} {s : State} {j : Job} (hc : CleanHeader c 4) (hr : Runs c 0x0206 1 s)
    (hj : s.field.core.job? id.toNat = some j) : Answers (.jobStatus c id) s fun t => ∃ result, Completed c 0x0206 0 result s t ∧
        CommandFrame c 0x0206 [] s t ∧ Quiet s.field.core t.field.core ∧ result % 2 ^ 32 = id.toNat ∧
        (j.state < 256 → result / 2 ^ 32 % 256 = j.state ∧
          ∀ b : Fin 8, (result / 2 ^ 40).testBit b.val = decide (s.field.core.rd JOBB_ACTIVE.JOB_ID b.val = id.toNat)) := by
  have hout := taken_outside c 0x0206 s
  have hquiet := Quiet.taken c 0x0206 s
  have hjob : (s.taken c 0x0206).field.core.job? id.toNat = some j := by
    rw [taken_core]
    exact hj
  have hk : (cmdJobStatus c id.toNat).Plain 4 (jobStatus id.toNat) := ⟨rfl, rfl, by decide, rfl, rfl, rfl⟩
  obtain ⟨t, hexec, ht⟩ := hk.done (i := .jobStatus c id) rfl hc hr (jobStatus_of hjob) (.inl ⟨_, rfl⟩) (taken_etime c 0x0206 s) rfl
  obtain ⟨hlow, hrest⟩ := (s.taken c 0x0206).field.core.statusOf_fields j id.isLt
  refine ⟨t, hexec, _, ht.completed, ht.frame (SameRegs.taken c 0x0206 [] s), hquiet.trans ht.rest.quiet, hlow, fun hst => ?_⟩
  obtain ⟨hstate, hact⟩ := hrest hst
  refine ⟨hstate, fun b => (hact b).trans ?_⟩
  rw [hout _ _ (Fld.block_free b.isLt (by decide))]

theorem Quiet.jobs {a b : Core} (h : Quiet a b) : b.jobs = a.jobs := by
  unfold Quiet at h
  rw [h]

/-! ### JOB_DEFINE (R491 to R495) -/

/-- The same core with other regions of job memory in use. -/
def Core.withRegions (s : Core) (r : List (Nat × Nat)) : Core := { s with jobs := { s.jobs with regions := r } }
theorem allocJob_congr {a b : Core} (hways : b.rd MEM_STATUS.WAYS = a.rd MEM_STATUS.WAYS) (hregions : b.jobs.regions = a.jobs.regions)
    {n base : Nat} {x : Core} (h : a.allocJob n = some (base, x)) :
    x = a.withRegions x.jobs.regions ∧ b.allocJob n = some (base, b.withRegions x.jobs.regions) := by
  have hfits : b.fits = a.fits := by
    funext p q
    unfold Core.fits
    rw [hways, hregions]
  unfold Core.allocJob at h ⊢
  simp only at h
  simp only [hways, hregions, hfits]
  split at h
  · cases h
  · next p ps hok =>
    simp only [Option.some.injEq, Prod.mk.injEq] at h
    obtain ⟨rfl, rfl⟩ := h
    simp only
    exact ⟨rfl, rfl⟩
/-- What planes are given to the bars depends on the memory in use alone. -/
theorem allocBars_congr {d : Bytes} (l : List Nat) {a b : Core} (hways : b.rd MEM_STATUS.WAYS = a.rd MEM_STATUS.WAYS)
    (hregions : b.jobs.regions = a.jobs.regions) {bars : List (Nat × JobBar)} {x : Core} (h : a.allocBars d l = some (bars, x)) :
    x = a.withRegions x.jobs.regions ∧ b.allocBars d l = some (bars, b.withRegions x.jobs.regions) := by
  induction l generalizing a b bars x with
  | nil =>
    unfold Core.allocBars at h ⊢
    simp only [Option.some.injEq, Prod.mk.injEq] at h
    obtain ⟨rfl, rfl⟩ := h
    exact ⟨rfl, by rw [← hregions]; rfl⟩
  | cons n l ih =>
    unfold Core.allocBars at h ⊢
    extract_lets at h ⊢
    split at h
    · cases h
    · next _ y hy =>
      obtain ⟨hya, hyb⟩ := allocJob_congr hways hregions hy
      rw [hyb]
      simp only
      split at h
      · cases h
      · next _ z hz =>
        simp only [Option.some.injEq, Prod.mk.injEq] at h
        obtain ⟨rfl, rfl⟩ := h
        have hwy : (b.withRegions y.jobs.regions).rd MEM_STATUS.WAYS = y.rd MEM_STATUS.WAYS :=
          (Core.rd_congr rfl _ _).trans (hways.trans (Core.rd_congr (by rw [hya]; rfl) _ _))
        obtain ⟨hza, hzb⟩ := ih hwy rfl hz
        rw [hzb]
        refine ⟨?_, rfl⟩
        rw [hza, hya]
        rfl
theorem SameOutside.jobCheck {a b : Core} (h : SameOutside [0x01] a b) (d : Bytes) : b.jobCheck d = a.jobCheck d := by
  unfold Core.jobCheck Core.lpi
  rw [h.rdb GEO_PRESS.LOADED 0 (by decide), h GEO_PRESS.LPI 0 (by decide), funext h.barPresent]
theorem Core.unstrobe_within (s : Core) (id : Nat) : Within [] [.spg] s (s.unstrobe id) := by
  unfold Core.unstrobe
  exact (Within.refl _ _ s).foldl _ fun b _ s => .ite (fun _ => (Within.refl _ _ s).spg _) fun _ => .refl _ _ s
/-- The record of a job that is newly defined, before its state moves. -/
def Job.fresh (id : Nat) (d : Bytes) (bars : List (Nat × JobBar)) : Job where
  id := id
  state := 0
  barMask := byteAt d 8
  streamMask := byteAt d 9
  flags := byteAt d 6
  lines := leAt d 0xC 4
  cover := (List.range 8).map fun b => byteAt d (0x10 + b)
  bars := bars
  ceiling := 0
  pos := none
  cut := false
  aborting := false
  struck := none
  open_ := 0
  defects := []
  extra := 0
  overflow := false
  overSaid := false
  ring := none
  endSeq := 0
  desc := d
  reduced := false
  opened := false
/-- A record joins the others. -/
def Core.addJob (s : Core) (j : Job) : Core := { s with jobs := { s.jobs with jobs := s.jobs.jobs ++ [j] } }
theorem Core.addJob_regs (s : Core) (j : Job) : (s.addJob j).regs = s.regs := rfl
theorem Core.withRegions_regs (s : Core) (r : List (Nat × Nat)) : (s.withRegions r).regs = s.regs := rfl
theorem Core.job?_addJob {s : Core} {j : Job} (h : s.job? j.id = none) : (s.addJob j).job? j.id = some j := by
  have h' : s.jobs.jobs.find? (·.id == j.id) = none := h
  unfold Core.job? Core.addJob
  rw [List.find?_append, h']
  simp
/-- A descriptor that passes makes a record. -/
theorem jobDefine_defines {c : Call} {id : Nat} {d : Bytes} {s : Core} {bars : List (Nat × JobBar)} {R : List (Nat × Nat)}
    (hid : id ≠ 0 ∧ id ≠ 0xFFFFFFFF) (hsize : dlenOf c = 1088) (hmoved : c.bulk.dmaFail = none) (hlanded : c.bulk.data = d)
    (hlen : d.length = 1088) (hreform : s.mem.reform = false) (hfew : s.jobs.jobs.length < 8) (hnew : s.job? id = none)
    (hcheck : s.jobCheck d = none) (halloc : s.allocBars d (jdBars d) = some (bars, s.withRegions R)) :
    jobDefine c id s = (.ok 0, (((s.withRegions R).unstrobe id).addJob (.fresh id d bars)).setJobState id 1) := by
  have hlive : ¬ (s.jobs.jobs.filter (·.live)).length ≥ 8 := Nat.not_le.2 (lt_of_le_of_lt (List.length_filter_le _ _) hfew)
  have hnone : (s.liveJob? id).isSome = false := by rw [Core.liveJob?, hnew]; rfl
  have hkept : (s.withRegions R).jobs.jobs.filter (·.id != id) = s.jobs.jobs :=
    List.filter_eq_self.2 fun j hj => by simpa using List.find?_eq_none.1 hnew j hj
  have hdata : d.take 1088 = d := List.take_of_length_le hlen.le
  unfold jobDefine
  rw [if_neg (by tauto), if_neg (not_not.2 hsize), if_neg (by rw [hreform]; decide), if_neg hlive, if_neg (by rw [hnone]; decide)]
  unfold withData
  rw [hmoved, hlanded, hsize, if_neg (by rw [hlen]; decide), hdata]
  simp only [hcheck, halloc, hkept]
  have hroom : (s.withRegions R).dropOldest = s.withRegions R := if_pos hfew
  have hsame : ({ s.withRegions R with jobs := { (s.withRegions R).jobs with jobs := s.jobs.jobs } } : Core) = s.withRegions R := rfl
  rw [hsame, hroom]
  rfl
/-- The record is LOADING, and what else a definition changes. -/
theorem Core.defined_spec {s : Core} {id : Nat} (d : Bytes) (bars : List (Nat × JobBar)) (R : List (Nat × Nat)) {x : Core} (hnew : s.job? id = none)
    (hx : x = (((s.withRegions R).unstrobe id).addJob (.fresh id d bars)).setJobState id 1) :
    x.job? id = some { Job.fresh id d bars with state := 1 } ∧ x.jobs.regions = R ∧ Within [0x1B] [.jobs, .cmdq, .spg] s x ∧
      SameRegs [LOG_EVT_OVWR_CNT.COUNT.key 0] s x := by
  have hun := (s.withRegions R).unstrobe_within id
  have hjobs := hun.parts .jobs (by decide)
  simp only [Part.same] at hjobs
  have hR' : Within [0x1B] [.jobs, .cmdq, .spg] s (s.withRegions R) := (Within.refl _ _ s).jobs _
  have hy : Within [0x1B] [.jobs, .cmdq, .spg] s (((s.withRegions R).unstrobe id).addJob (.fresh id d bars)) := (hR'.next hun).jobs _
  have hunregs : SameRegs [LOG_EVT_OVWR_CNT.COUNT.key 0] (s.withRegions R) ((s.withRegions R).unstrobe id) :=
    fun f n _ => hun.regs f n List.not_mem_nil
  have hadd : SameRegs [LOG_EVT_OVWR_CNT.COUNT.key 0] ((s.withRegions R).unstrobe id)
      (((s.withRegions R).unstrobe id).addJob (.fresh id d bars)) := .of_regs (Core.addJob_regs _ _)
  have hyregs : SameRegs [LOG_EVT_OVWR_CNT.COUNT.key 0] s (((s.withRegions R).unstrobe id).addJob (.fresh id d bars)) :=
    (SameRegs.of_regs (s.withRegions_regs R)).trans (hunregs.trans hadd)
  have hnew' : ((s.withRegions R).unstrobe id).job? id = none := (Core.job?_congr (by rw [hjobs]; rfl) id).trans hnew
  have hR : (((s.withRegions R).unstrobe id).addJob (.fresh id d bars)).jobs.regions = R := by
    rw [Core.addJob, hjobs, Core.withRegions]
  have hj := Core.job?_addJob (j := .fresh id d bars) hnew'
  rw [hx]
  clear hx
  generalize ((s.withRegions R).unstrobe id).addJob (.fresh id d bars) = y at *
  obtain ⟨hjob, hw, hregs, hrest⟩ := Core.setJobState_goesOn_spec (st := 1) (id := id) hj (fun h : (0 : Nat) = 1 => absurd h (by decide)) (by decide)
  exact ⟨hjob, by rw [hrest]; exact hR, hy.next hw, hyregs.trans hregs⟩
theorem jobDefine_answers {c : Call} {id : Word} {s : State} {d : Bytes} {bars : List (Nat × JobBar)} {x : Core} (hc : BulkHeader c 4 d)
    (hr : Runs c 0x0200 1 s) (hlen : d.length = 1088) (hid : id ≠ 0) (hid' : id ≠ 0xFFFFFFFF) (hreform : s.field.core.mem.reform = false)
    (hfew : s.field.core.jobs.jobs.length < 8) (hnew : s.field.core.job? id.toNat = none) (hcheck : s.field.core.jobCheck d = none)
    (halloc : s.field.core.allocBars d (jdBars d) = some (bars, x)) : Answers (.jobDefine c id) s fun t =>
        Completed c 0x0200 0 0 s t ∧ (∃ j, t.field.core.job? id.toNat = some j ∧ j.state = 1 ∧ j.desc = d ∧ j.bars = bars ∧
          j.lines = leAt d 0xC 4 ∧ j.barMask = byteAt d 8) ∧ t.field.core.jobs.regions = x.jobs.regions ∧
        CommandFrame c 0x0200 [] s t := by
  have hregs := SameRegs.taken c 0x0200 [] s
  have hout := taken_outside c 0x0200 s
  have htime := taken_etime c 0x0200 s
  have hjobs : (s.taken c 0x0200).field.core.jobs = s.field.core.jobs ∧ (s.taken c 0x0200).field.core.mem = s.field.core.mem := by
    rw [taken_core]
    exact ⟨rfl, rfl⟩
  obtain ⟨hjobs, hmem⟩ := hjobs
  generalize hx0 : (s.taken c 0x0200).field.core = x0 at *
  obtain ⟨-, halloc0⟩ := allocBars_congr (jdBars d) (hout _ _ (by decide)) (by rw [hjobs]) halloc
  have hnew0 : x0.job? id.toNat = none := (Core.job?_congr (by rw [hjobs]) _).trans hnew
  have hbody := jobDefine_defines (c := c) (s := x0) (id := id.toNat)
    ⟨fun h => hid (BitVec.eq_of_toNat_eq h), fun h => hid' (BitVec.eq_of_toNat_eq h)⟩ (hc.size.trans hlen) hc.moved hc.landed hlen
    (by rwa [hmem]) (by rwa [hjobs]) hnew0 ((hout.jobCheck d).trans hcheck) halloc0
  generalize hy : (((x0.withRegions x.jobs.regions).unstrobe id.toNat).addJob (.fresh id.toNat d bars)).setJobState id.toNat 1 = y at *
  obtain ⟨hjob, hR, hw, hwregs⟩ := Core.defined_spec d bars x.jobs.regions hnew0 hy.symm
  have hans := hw.parts .answers (by decide)
  have hytime := hw.parts .etime (by decide)
  simp only [Part.same] at hans hytime
  obtain ⟨t, hexec, ht⟩ := Cmd.runs_done (k := cmdJobDefine c id.toNat) (i := .jobDefine c id) (r := .ok 0)
    (x := y) rfl hr (hc.header (by decide)) rfl
    (fun h => absurd (hc.host.symm.trans h.1) (by decide))
    (Cmd.lengthCheck_bulk (k := cmdJobDefine c id.toNat) hc List.mem_cons_self rfl rfl (by rw [hlen]; decide))
    (BulkHeader.params (k := cmdJobDefine c id.toNat) hc)
    (by
      change liftBody _ (s.taken c 0x0200).field = (_, (⟨y, (s.taken c 0x0200).field.dram⟩ : Field))
      simp only [liftBody, hx0, hbody])
    (.inl ⟨_, rfl⟩) (hytime.trans htime)
    (by
      change (y.cmdq.done, y.cmdq.fspTx) = ((s.taken c 0x0200).field.core.cmdq.done, (s.taken c 0x0200).field.core.cmdq.fspTx)
      rw [hx0]
      exact hans)
  have htjobs := ht.rest.quiet.jobs
  refine ⟨t, hexec, ht.completed, ⟨_, (Core.job?_congr (by rw [htjobs]) _).trans hjob, rfl, rfl, rfl, rfl, rfl⟩, by rw [htjobs, hR],
    ht.frame (hregs.trans (hwregs.mono (by decide)))⟩

/-! ### JOB_ARM (R500) -/

theorem Core.ceilingOf_le (s : Core) (level : Nat) (j : Job) : s.ceilingOf level j ≤ 160000 := foldl_min_le _ _
where
  foldl_min_le : ∀ (l : List Nat) (n : Nat), l.foldl min n ≤ n
    | [], n => Nat.le_refl n
    | m :: l, n => (foldl_min_le l (min n m)).trans (Nat.min_le_left n m)
/-- The columns of a bar outside the plane are counted and reported. -/
def Core.countOutside (s : Core) (id : Nat) (of : Core) (e : Nat × JobBar) : Core :=
  let n := of.outside e.1 e.2
  let s := s.wr GEO_OUTSIDE.COUNT (satU 32 n) e.1
  if n = 0 then s else s.emit 0x0607 (id + at_ 4 e.1 + at_ 8 n)
theorem Core.countOutside_within (s : Core) (id : Nat) (of : Core) {e : Nat × JobBar} (he : e.1 < 8) :
    Within [0x08, 0x1B] [.cmdq] s (s.countOutside id of e) := by
  unfold Core.countOutside
  extract_lets n t
  have ht : Within [0x08, 0x1B] [.cmdq] s t := (Within.refl _ _ s).wr _ (Fld.block_mem he (by decide))
  exact .ite (fun _ => ht) fun _ => ht.emit _ _ _
/-- The record of an armed job: its ceiling, and the sets of its bars. -/
def Job.armed (ceiling : Nat) (set : Job → Nat → JobSet) (j : Job) : Job :=
  { j with ceiling := ceiling, bars := j.bars.map fun e => (e.1, { e.2 with set := some (set j e.1) }) }
theorem jobArm_arms {id : Nat} {s : Core} {j : Job} (hj : s.job? id = some j) (hst : j.state = 2)
    (hbars : ∀ e ∈ j.bars, s.barPresent e.1 = true ∧ lvlOk (scrOf (s.jobSet j e.1).scr) (s.lmax e.1) = true ∧
      stripOk (s.jobSet j e.1) (s.lmax e.1) = true ∧ s.shadows e.1 < 3) :
    jobArm id s = (.ok (s.ceilingOf s.planLevel j),
      ((j.bars.foldl (fun t e => t.countOutside id s e) (s.modJob id (.armed (s.ceilingOf s.planLevel j) s.jobSet))).setJobState
        id 3).refreshRing) := by
  have hall : ∀ p : Nat → Bool, (∀ e ∈ j.bars, p e.1 = false) → (j.bars.map (·.1)).find? p = none := fun p hp =>
    List.find?_eq_none.2 fun b hb => by
      obtain ⟨e, he, rfl⟩ := List.mem_map.1 hb
      rw [hp e he]
      decide
  have hshadows : (j.bars.any fun e => decide (s.shadows e.1 ≥ 3)) = false :=
    List.any_eq_false.2 fun e he => by simpa using (hbars e he).2.2.2
  unfold jobArm
  rw [hj]
  simp only
  rw [if_neg (not_not.2 hst), hall _ fun e he => by rw [(hbars e he).1]; rfl]
  simp only
  rw [hall _ fun e he => by rw [(hbars e he).2.1]; rfl]
  simp only
  rw [hall _ fun e he => by rw [(hbars e he).2.2.1]; rfl]
  simp only
  rw [if_neg (by rw [hshadows]; decide)]
  rfl
theorem Core.armed_spec {s : Core} {id : Nat} {j : Job} {ceiling : Nat} (set : Job → Nat → JobSet) (of : Core) {x : Core}
    (hj : s.job? id = some j) (hst : j.state = 2) (hbars : ∀ e ∈ j.bars, e.1 < 8)
    (hx : x = ((j.bars.foldl (fun t e => t.countOutside id of e) (s.modJob id (.armed ceiling set))).setJobState id 3).refreshRing) :
    x.job? id = some { j.armed ceiling set with state := 3 } ∧ Within [0x05, 0x08, 0x1B] [.cmdq, .jobs] s x := by
  have hjob : (s.modJob id (.armed ceiling set)).job? id = some (j.armed ceiling set) :=
    (Core.job?_modJob s id (g := .armed ceiling set) fun _ => rfl).trans (by rw [hj]; rfl)
  have hm : Within [0x05, 0x08, 0x1B] [.cmdq, .jobs] s (s.modJob id (.armed ceiling set)) := (Within.refl _ _ s).jobs _
  generalize s.modJob id (.armed ceiling set) = m at *
  have hf : Within [0x08, 0x1B] [.cmdq] m (j.bars.foldl (fun t e => t.countOutside id of e) m) :=
    (Within.refl _ _ m).foldl _ fun e he t => t.countOutside_within id of (hbars e he)
  have hfj := hf.parts .jobs (by decide)
  simp only [Part.same] at hfj
  generalize j.bars.foldl (fun t e => t.countOutside id of e) m = f at *
  obtain ⟨hstate, hw, -, -⟩ := Core.setJobState_goesOn_spec (st := 3) ((Core.job?_congr (by rw [hfj]) id).trans hjob)
    (fun h => by
      have h' : j.state = 3 := h
      omega) (by decide)
  have hr := (f.setJobState id 3).refreshRing_within
  rw [hx]
  have hrj := hr.parts .jobs (by decide)
  simp only [Part.same] at hrj
  exact ⟨(Core.job?_congr (by rw [hrj]) id).trans hstate, ((hm.next hf).next hw).next hr⟩
theorem jobArm_answers {c : Call} {id : Word} {s : State} {j : Job} (hc : CleanHeader c 4) (hr : Runs c 0x0203 1 s)
    (hj : s.field.core.job? id.toNat = some j) (hst : j.state = 2)
    (hbars : ∀ e ∈ j.bars, s.field.core.barPresent e.1 = true ∧
        lvlOk (scrOf (s.field.core.jobSet j e.1).scr) (s.field.core.lmax e.1) = true ∧
        stripOk (s.field.core.jobSet j e.1) (s.field.core.lmax e.1) = true ∧ s.field.core.shadows e.1 < 3) :
    Answers (.jobArm c id) s fun t => ∃ j', t.field.core.job? id.toNat = some j' ∧ j'.state = 3 ∧ j'.ceiling ≤ 160000 ∧
        j'.bars.map (·.1) = j.bars.map (·.1) ∧ (∀ e ∈ j'.bars, e.2.set = some (s.field.core.jobSet j e.1)) ∧
        Completed c 0x0203 0 j'.ceiling s t := by
  have hout := taken_outside c 0x0203 s
  have htime := taken_etime c 0x0203 s
  have hjobs : (s.taken c 0x0203).field.core.jobs = s.field.core.jobs := (Quiet.taken c 0x0203 s).jobs
  generalize hx0 : (s.taken c 0x0203).field.core = x0 at *
  have hj0 : x0.job? id.toNat = some j := (Core.job?_congr (by rw [hjobs]) _).trans hj
  have hlt : ∀ e ∈ j.bars, e.1 < 8 := fun e he => Core.barPresent_lt (hbars e he).1
  have hbody := jobArm_arms hj0 hst fun e he => by
    rw [hout.barPresent, hout.jobSet j (hlt e he), hout.lmax (hlt e he), hout.shadows hjobs (hlt e he)]
    exact hbars e he
  have hceil := x0.ceilingOf_le x0.planLevel j
  generalize hx : ((j.bars.foldl (fun t e => t.countOutside id.toNat x0 e)
    (x0.modJob id.toNat (.armed (x0.ceilingOf x0.planLevel j) x0.jobSet))).setJobState id.toNat 3).refreshRing = x at *
  obtain ⟨hjob, hw⟩ := Core.armed_spec x0.jobSet x0 hj0 hst hlt hx.symm
  generalize x0.ceilingOf x0.planLevel j = ceiling at *
  have hans := hw.parts .answers (by decide)
  have hxtime := hw.parts .etime (by decide)
  simp only [Part.same] at hans hxtime
  have hk : (cmdJobArm c id.toNat).Plain 4 (jobArm id.toNat) := ⟨rfl, rfl, by decide, rfl, rfl, rfl⟩
  obtain ⟨t, hexec, ht⟩ := hk.done (i := .jobArm c id) (r := .ok ceiling) rfl hc hr (hx0 ▸ hbody) (.inl ⟨_, rfl⟩) (hxtime.trans htime)
    (by
      change (x.cmdq.done, x.cmdq.fspTx) = ((s.taken c 0x0203).field.core.cmdq.done, (s.taken c 0x0203).field.core.cmdq.fspTx)
      rw [hx0]
      exact hans)
  have hcompl : Completed c 0x0203 0 (ceiling % 2 ^ 128) s t := ht.completed
  rw [Nat.mod_eq_of_lt (by omega)] at hcompl
  refine ⟨t, hexec, _, (Core.job?_congr (by rw [ht.rest.quiet.jobs]) _).trans hjob, rfl, hceil, ?_, ?_, hcompl⟩
  · exact List.map_map
  · intro e he
    obtain ⟨e', he', rfl⟩ := List.mem_map.1 he
    exact congrArg some (hout.jobSet j (hlt e' he'))

/-! ### JOB_SWITCH_AT (R501) -/

/-- What no step of a run changes, the run does not change. -/
theorem foldl_keeps {α β : Type} {k : Core → α → Core} (p : Core → β) (hk : ∀ s x, p (k s x) = p s) (l : List α) (s : Core) :
    p (l.foldl k s) = p s := by
  induction l generalizing s with
  | nil => rfl
  | cons x l ih => exact (ih _).trans (hk s x)
theorem list_all_congr {l : List Nat} {p q : Nat → Bool} (h : ∀ n ∈ l, p n = q n) : l.all p = l.all q := by
  induction l with
  | nil => rfl
  | cons n l ih => rw [List.all_cons, List.all_cons, h n List.mem_cons_self, ih fun m hm => h m (List.mem_cons_of_mem _ hm)]
section
variable {a b : Core}
theorem SameOutside.phi {ps : List Nat} (h : SameOutside ps a b) (ho : b.spg.o = a.spg.o) (hp : ∀ p ∈ ps, p ≠ 0x0E ∧ p ≠ 0x11 := by decide) :
    b.phi = a.phi := by
  have hpos : (0x0E : Nat) ∉ ps := fun hm => (hp _ hm).1 rfl
  have hspg : (0x11 : Nat) ∉ ps := fun hm => (hp _ hm).2 rfl
  unfold Core.phi Core.webCount Core.lpc Core.rd2
  rw [h POS_WEB_COUNT_LO.COUNT 0 hpos, h POS_WEB_COUNT_HI.COUNT 0 hpos, h SPG_LPC_LO.LPC 0 hspg, h SPG_LPC_HI.LPC 0 hspg, ho]
theorem SameOutside.delay {ps : List Nat} (h : SameOutside ps a b) {n : Nat} (hn : n < 8) (hp : 0x11 ∉ ps := by decide) :
    b.delay n = a.delay n := by
  unfold Core.delay Core.rd2
  rw [h SPGB_DELAY_LO.DELAY n (Fld.block_free hn ⟨by decide, hp⟩), h SPGB_DELAY_HI.DELAY n (Fld.block_free hn ⟨by decide, hp⟩)]
theorem Core.linksOf_congr (h : b.press = a.press) (n : Nat) : b.linksOf n = a.linksOf n := by
  unfold Core.linksOf Core.segBar
  rw [h]
theorem Core.mem_headsOfBar_lt {n h : Nat} (hm : h ∈ a.headsOfBar n) : h < 192 := by
  obtain ⟨l, hl, hh⟩ := List.mem_flatMap.1 hm
  obtain ⟨i, hi, rfl⟩ := List.mem_map.1 (List.mem_of_mem_filter hh)
  have hl24 := List.mem_range.1 (List.mem_of_mem_filter hl)
  have hi8 := List.mem_range.1 hi
  omega
theorem SameOutside.nextW (h : SameOutside [0x01] a b) (hp : b.press = a.press) (hj : b.jobs = a.jobs) (hs : b.spg = a.spg) {n : Nat} (hn : n < 8) :
    b.nextW n = a.nextW n := by
  unfold Core.nextW
  rw [Core.linksOf_congr hp, h _ _ (Fld.block_free hn (by decide)), h.phi (by rw [hs]), h.delay hn]
  unfold Core.scr Core.nextLine Core.ownerAt Core.chain Core.job?
  rw [hj, hs]
theorem Core.eitherBars_congr (hj : b.jobs = a.jobs) (n m : Nat) : b.eitherBars n m = a.eitherBars n m := by
  unfold Core.eitherBars Core.jobBars Core.job?
  rw [hj]
theorem Core.tailJob_congr (hj : b.jobs = a.jobs) : b.tailJob = a.tailJob := by
  unfold Core.tailJob
  rw [hj]
theorem Core.mem_eitherBars_lt {n m x : Nat} (h : x ∈ a.eitherBars n m) : x < 8 := mem_allBars_lt (List.mem_of_mem_filter h)
theorem SameOutside.switchAhead (h : SameOutside [0x01] a b) (hp : b.press = a.press) (hj : b.jobs = a.jobs) (hs : b.spg = a.spg) {l : List Nat}
    (hl : ∀ n ∈ l, n < 8) (p : Nat) : b.switchAhead l p = a.switchAhead l p := by
  unfold Core.switchAhead
  rw [hj, h JOB_CFG.MARGIN 0 (by decide)]
  congr 1
  refine list_all_congr fun n hn => ?_
  rw [h.nextW hp hj hs (hl n hn)]
end
theorem Core.restartIdle_within (s : Core) (w b : Nat) : Within [0x0C] [.spg] s (s.restartIdle w b) := by
  unfold Core.restartIdle
  refine .ite (fun _ => .refl _ _ s) fun _ => ?_
  extract_lets idle src t u
  have ht : Within [0x0C] [.spg] s t := .ite (fun _ => (Within.refl _ _ s).spg _) fun _ => .refl _ _ s
  have hu : Within [0x0C] [.spg] s u := ht.foldl _ fun h hm s => .ite (fun _ => by
    exact ((Within.refl _ _ s).spg _).wr _ (Fld.block_mem (Core.mem_headsOfBar_lt hm) (by decide))) fun _ => .refl _ _ s
  exact hu.foldl _ fun l _ s => .ite (fun _ => (Within.refl _ _ s).spg _) fun _ => .refl _ _ s
theorem Core.restartIdle_o (s : Core) (w b : Nat) : (s.restartIdle w b).spg.o = s.spg.o := by
  unfold Core.restartIdle
  split
  · rfl
  · extract_lets idle src t u
    have ht : t.spg.o = s.spg.o := by
      unfold t
      split <;> rfl
    have hu : u.spg.o = t.spg.o := foldl_keeps (fun x => x.spg.o) (fun s h => by
      dsimp only
      split <;> rfl) _ _
    exact (foldl_keeps (fun x => x.spg.o) (fun s l => by
      dsimp only
      split <;> rfl) _ _).trans (hu.trans ht)
theorem Core.poolEntry_within (s : Core) (e : CmpEntry) : Within [0x0F] [.pos] s (s.poolEntry e) := by
  unfold Core.poolEntry Core.setPool
  exact (((Within.refl _ _ s).pos _).wrs).incW _
theorem Core.refreshNext_parts (s : Core) : s.refreshNext.jobs = s.jobs := s.refreshNext_within.parts .jobs (by decide)
/-- Entries of bars whose switch lies ahead wait in the pool. -/
theorem Core.insertSwitches_within (pos : Nat) (bars : List Nat) (s : Core) (hbars : ∀ b ∈ bars, b < 8 ∧
      smodM (2 ^ 38) s.phi (posMod ((pos : Int) + s.delay b)) < 0) :
    Within [0x0F] [.pos] s (bars.foldl (fun s b => (s.insertEntry (switchEntry (posMod ((pos : Int) + s.delay b)) b)).1) s) := by
  induction bars generalizing s with
  | nil => exact .refl _ _ s
  | cons b bars ih =>
    have hd := (hbars b List.mem_cons_self).2
    have hins := Core.insertEntry_ahead (s := s) (e := switchEntry (posMod ((pos : Int) + s.delay b)) b) (Nat.le_refl 8)
      (Int.ne_of_lt hd) ((decide_eq_false (Int.not_lt.2 (Int.le_of_lt hd))).trans (by simp [CmpEntry.rev, switchEntry, bit]))
    rw [List.foldl_cons, hins]
    have hw := s.poolEntry_within (switchEntry (posMod ((pos : Int) + s.delay b)) b)
    refine hw.trans (ih _ fun n hn => ?_)
    have hspg := hw.parts .spg (by decide)
    simp only [Part.same] at hspg
    obtain ⟨hlt, hn⟩ := hbars n (List.mem_cons_of_mem _ hn)
    rw [hw.regs.phi (by rw [hspg]), hw.regs.delay hlt]
    exact ⟨hlt, hn⟩
/-- What a switch starts once it is recorded: idle bars begin afresh, the chains grow, and each bar's entry waits. -/
def Core.startSwitch (s : Core) (pos : Nat) (bars : List Nat) (owner : Nat → Nat) : Core :=
  let s := bars.foldl (fun s b => s.restartIdle (posLine pos) b) s
  let s := bars.foldl (fun s b =>
    let old := s.chain b
    s.setChain b (old.drop (old.length - 6) ++ [(pos, owner b)])) s
  let s := bars.foldl (fun s b => (s.insertEntry (switchEntry (posMod ((pos : Int) + s.delay b)) b)).1) s
  s.refreshNext
theorem Core.startSwitch_spec {s : Core} {pos : Nat} {bars : List Nat} (owner : Nat → Nat) (hbars : ∀ b ∈ bars, b < 8 ∧
      smodM (2 ^ 38) s.phi (posMod ((pos : Int) + s.delay b)) < 0) :
    Within [0x0C, 0x0F, 0x15] [.spg, .jobs, .pos] s (s.startSwitch pos bars owner) ∧
    (s.startSwitch pos bars owner).jobs = { s.jobs with chains := (s.startSwitch pos bars owner).jobs.chains } := by
  unfold Core.startSwitch
  extract_lets t u v
  have ht : Within [0x0C] [.spg] s t := (Within.refl _ _ s).foldl _ fun b _ s => s.restartIdle_within _ b
  have hto : t.spg.o = s.spg.o := foldl_keeps (fun x => x.spg.o) (fun s b => s.restartIdle_o _ b) _ _
  have htj : t.jobs = s.jobs := ht.parts .jobs (by decide)
  have hu : Within [] [.jobs] t u := (Within.refl _ _ t).foldl _ fun b _ s => (Within.refl _ _ s).jobs _
  have huo : u.spg = t.spg := hu.parts .spg (by decide)
  have huj : u.jobs = { t.jobs with chains := u.jobs.chains } :=
    (rfl : u.jobs = { u.jobs with chains := u.jobs.chains }).trans
      (foldl_keeps (fun x => { x.jobs with chains := u.jobs.chains }) (fun _ _ => by exact rfl) bars t)
  have hst : Within [0x0C] [.spg, .jobs] s u := ((Within.refl _ _ s).next ht).next hu
  have hv : Within [0x0F] [.pos] u v := u.insertSwitches_within pos bars fun b hb => by
    obtain ⟨hlt, hd⟩ := hbars b hb
    rw [hst.regs.phi (by rw [huo, hto]), hst.regs.delay hlt]
    exact ⟨hlt, hd⟩
  have hvj : v.jobs = u.jobs := hv.parts .jobs (by decide)
  have hw := v.refreshNext_within
  refine ⟨((((Within.refl _ _ s).next hst).next hv).next hw), ?_⟩
  rw [v.refreshNext_parts, hvj, huj, htj]
/-- A switch joins those that pend, and its job has its position. -/
def Core.addSwitch (s : Core) (w : Switch) : Core :=
  let s := s.modJob w.dst fun j => { j with pos := some w.pos }
  { s with jobs := { s.jobs with switches := s.jobs.switches ++ [w] } }
/-- The job that a bar has after the switch. -/
def Core.ownerAfter (s : Core) (dst b : Nat) : Nat := if (s.jobBars dst).contains b then dst else 0
theorem jobSwitchAt_starts {c : Call} {src dst pos : Nat} {s y : Core} {j : Job} (hdst : s.liveJob? dst = some j) (hst : j.state = 3)
    (htail : src = s.tailJob) (hsrc : src = 0 ∨ (s.liveJob? src).isSome = true) (hfew : s.jobs.switches.length < 3)
    (hnone : (s.jobs.switches.any fun w => w.dst == dst) = false) (hpos : pos < 2 ^ 38)
    (hahead : s.switchAhead (s.eitherBars src dst) pos = true)
    (hy : (s.newOp 0x0204 c).2.addSwitch ⟨(s.newOp 0x0204 c).1, src, dst, pos, s.eitherBars src dst, 0, 0⟩ = y) :
    jobSwitchAt c src dst pos s = (.accepted (s.newOp 0x0204 c).1, y.startSwitch pos (s.eitherBars src dst) (y.ownerAfter dst)) := by
  unfold jobSwitchAt
  rw [hdst]
  simp only
  rw [if_neg (fun h => hsrc.elim h.1 fun h' => by rw [Option.isNone_iff_eq_none.1 h.2] at h'; cases h'),
    if_neg (fun h => h.elim (fun h => h hst) fun h => by rw [hnone] at h; cases h), if_neg (not_not.2 htail),
    if_neg (Nat.not_le.2 hfew), if_neg (Nat.not_le.2 hpos), if_neg (by rw [hahead]; decide), ← hy]
  rfl
theorem Core.addSwitch_spec (s : Core) (w : Switch) : (s.addSwitch w).jobs.switches = s.jobs.switches ++ [w] ∧
    (s.addSwitch w).job? w.dst = (s.job? w.dst).map (fun j => { j with pos := some w.pos }) ∧
    (s.addSwitch w).spg = s.spg ∧ Within [] [.jobs] s (s.addSwitch w) := by
  have hm : Within [] [.jobs] s (s.modJob w.dst fun j => { j with pos := some w.pos }) := (Within.refl _ _ s).jobs _
  exact ⟨rfl, Core.job?_modJob s w.dst (g := fun j => { j with pos := some w.pos }) fun _ => rfl, rfl, hm.jobs _⟩
theorem jobSwitchAt_answers {c : Call} {src id : Word} {pos : BitVec 64} {s : State} {j : Job} (hc : CleanHeader c 16)
    (hr : Runs c 0x0204 1 s) (hdst : s.field.core.liveJob? id.toNat = some j) (hst : j.state = 3) (htail : src.toNat = s.field.core.tailJob)
    (hsrc : src = 0 ∨ (s.field.core.liveJob? src.toNat).isSome = true) (hfew : s.field.core.jobs.switches.length < 3)
    (hnone : (s.field.core.jobs.switches.any fun w => w.dst == id.toNat) = false) (hpos : pos.toNat < 2 ^ 38)
    (hahead : s.field.core.switchAhead (s.field.core.eitherBars src.toNat id.toNat) pos.toNat = true)
    (hdue : ∀ b ∈ s.field.core.eitherBars src.toNat id.toNat,
        smodM (2 ^ 38) s.field.core.phi (posMod ((pos.toNat : Int) + s.field.core.delay b)) < 0)
    (hop : s.field.core.cmdq.opNext < 2 ^ 32) : Answers (.jobSwitchAt c src id pos) s fun t =>
        Completed c 0x0204 1 s.field.core.cmdq.opNext s t ∧
        t.field.core.jobs.switches = s.field.core.jobs.switches ++ [⟨s.field.core.cmdq.opNext, src.toNat, id.toNat, pos.toNat,
          s.field.core.eitherBars src.toNat id.toNat, 0, 0⟩] ∧
        (t.field.core.job? id.toNat).map (·.pos) = some (some pos.toNat) := by
  have hout := taken_outside c 0x0204 s
  have htime := taken_etime c 0x0204 s
  obtain ⟨-, -, hnext, -⟩ := taken_records c 0x0204 s
  have hsame : (s.taken c 0x0204).field.core.jobs = s.field.core.jobs ∧ (s.taken c 0x0204).field.core.spg = s.field.core.spg ∧
      (s.taken c 0x0204).field.core.press = s.field.core.press := by
    rw [taken_core]
    exact ⟨rfl, rfl, rfl⟩
  obtain ⟨hjobs, hspg, hpress⟩ := hsame
  generalize hx0 : (s.taken c 0x0204).field.core = x0 at *
  have hbars : x0.eitherBars src.toNat id.toNat = s.field.core.eitherBars src.toNat id.toNat := Core.eitherBars_congr hjobs _ _
  have hlive : ∀ n, x0.liveJob? n = s.field.core.liveJob? n := fun n => by
    unfold Core.liveJob?
    rw [Core.job?_congr (congrArg JobSt.jobs hjobs)]
  have hlt : ∀ b ∈ s.field.core.eitherBars src.toNat id.toNat, b < 8 := fun b => Core.mem_eitherBars_lt
  have hbody := jobSwitchAt_starts (c := c) (src := src.toNat) (pos := pos.toNat) (s := x0) ((hlive _).trans hdst) hst
    (by rw [Core.tailJob_congr hjobs, htail]) (hsrc.imp (fun h => by rw [h]; rfl) fun h => by rw [hlive]; exact h) (by rwa [hjobs])
    (by rwa [hjobs]) hpos (by rw [hbars, hout.switchAhead hpress hjobs hspg hlt]; exact hahead) rfl
  rw [hbars] at hbody
  obtain ⟨hid, hycmdq, hyrest⟩ := x0.newOp_spec 0x0204 c (by rwa [hnext])
  rw [hid] at hbody
  generalize (x0.newOp 0x0204 c).2 = y at *
  have hyw : Within [] [.cmdq] x0 y := by
    rw [hyrest]
    exact (Within.refl _ _ x0).cmdq _ (by decide) (.inr (by rw [hycmdq])) (.inr (by rw [hycmdq])) (.inr (by rw [hycmdq]))
  have hyjobs : y.jobs = x0.jobs ∧ y.spg = x0.spg := by
    rw [hyrest]
    exact ⟨rfl, rfl⟩
  obtain ⟨hyjobs, hyspg⟩ := hyjobs
  obtain ⟨hzsw, hzjob, hzspg, hzw⟩ := y.addSwitch_spec ⟨x0.cmdq.opNext, src.toNat, id.toNat, pos.toNat,
    s.field.core.eitherBars src.toNat id.toNat, 0, 0⟩
  generalize y.addSwitch ⟨x0.cmdq.opNext, src.toNat, id.toNat, pos.toNat, s.field.core.eitherBars src.toNat id.toNat, 0, 0⟩ = z at *
  have hxz : Within [] [.cmdq, .jobs] x0 z := ((Within.refl _ _ x0).next hyw).next hzw
  obtain ⟨hxw, hxjobs⟩ := Core.startSwitch_spec (s := z) (pos := pos.toNat) (z.ownerAfter id.toNat) (bars := s.field.core.eitherBars src.toNat id.toNat)
    fun b hb => by
      rw [hxz.regs.phi (by rw [hzspg, hyspg]), hxz.regs.delay (hlt b hb), hout.phi (by rw [hspg]), hout.delay (hlt b hb)]
      exact ⟨hlt b hb, hdue b hb⟩
  generalize z.startSwitch pos.toNat (s.field.core.eitherBars src.toNat id.toNat) (z.ownerAfter id.toNat) = x at *
  have hw : Within [0x0C, 0x0F, 0x15] [.spg, .jobs, .pos, .cmdq] x0 x := ((Within.refl _ _ x0).next hxz).next hxw
  have hans := hw.parts .answers (by decide)
  have hxtime := hw.parts .etime (by decide)
  simp only [Part.same] at hans hxtime
  have hk : (cmdJobSwitchAt c src.toNat id.toNat pos.toNat).Plain 16 (jobSwitchAt c src.toNat id.toNat pos.toNat) :=
    ⟨rfl, rfl, by decide, rfl, rfl, rfl⟩
  obtain ⟨t, hexec, ht⟩ := hk.done (i := .jobSwitchAt c src id pos) (r := .accepted x0.cmdq.opNext) rfl hc hr (hx0 ▸ hbody)
    (.inr (.inl ⟨_, rfl⟩)) (hxtime.trans htime)
    (by
      change (x.cmdq.done, x.cmdq.fspTx) = ((s.taken c 0x0204).field.core.cmdq.done, (s.taken c 0x0204).field.core.cmdq.fspTx)
      rw [hx0]
      exact hans)
  have htjobs := ht.rest.quiet.jobs
  refine ⟨t, hexec, ?_, ?_, ?_⟩
  · rw [← hnext]
    exact ht.accepted
  · rw [htjobs, hxjobs, hzsw, hyjobs, hjobs, hnext]
  · have hjob : s.field.core.job? id.toNat = some j := by
      unfold Core.liveJob? at hdst
      exact (Option.filter_eq_some_iff.1 hdst).1
    have hzj : z.job? id.toNat = some { j with pos := some pos.toNat } := by
      rw [hzjob, Core.job?_congr (congrArg JobSt.jobs (hyjobs.trans hjobs)), hjob]
      rfl
    rw [Core.job?_congr (a := z) (b := t.field.core) (by rw [htjobs, hxjobs]), hzj]
    rfl

/-! ### JOB_ABORT (R506) -/

theorem Core.refreshAhead_within (s : Core) {b : Nat} (hb : b < 8) : Within [0x05] [] s (s.refreshAhead b) := by
  unfold Core.refreshAhead
  extract_lets on
  exact (Within.refl _ _ s).wr _ (Fld.block_mem hb (by decide))
theorem mem_maskBits_lt {n m i : Nat} (h : i ∈ maskBits n m) : i < n := List.mem_range.1 (List.mem_of_mem_filter h)
theorem byteAt_lt (d : Bytes) (o : Nat) : byteAt d o < 256 := by
  unfold byteAt
  exact BitVec.isLt _
theorem Core.endRing_within (s : Core) (j : Job) : Within [0x05] [.ely] s (s.endRing j) := by
  unfold Core.endRing
  split
  · exact .refl _ _ s
  · next r _ =>
    extract_lets a b c
    have ha : Within [0x05] [.ely] s a := (Within.refl _ _ s).ely _
    have hb : Within [0x05] [.ely] s b := ha.wr _
    have hc : Within [0x05] [.ely] s c :=
      .ite (fun _ => (hb.wr _).wr _ (Fld.block_mem (byteAt_lt _ _) (by decide))) fun _ => hb
    exact hc.foldl _ fun i hi s => (Within.refl _ _ s).next (s.refreshAhead_within (mem_maskBits_lt hi))
theorem Core.setHf_within (s : Core) {h : Nat} (x : HeadFire) (hh : h < 192) : Within [0x0C] [.spg] s (s.setHf h x) :=
  ((Within.refl _ _ s).spg _).wr _ (Fld.block_mem hh (by decide))
theorem Core.dropStaged_within (s : Core) (id : Nat) : Within [0x0C] [.spg, .hlk] s (s.dropStaged id) := by
  unfold Core.dropStaged
  refine (Within.refl _ _ s).foldl _ fun h hh s => ?_
  extract_lets gone src t
  have ht : Within [0x0C] [.spg, .hlk] s t :=
    (Within.refl _ _ s).next (s.setHf_within _ (Core.mem_allHeads_lt (List.mem_of_mem_filter hh)))
  exact ht.foldl _ fun q _ s => .ite (fun _ => (Within.refl _ _ s).next (s.setLn_within _ _)) fun _ => .refl _ _ s
/-- The memory of an ended job is given back, and the chains of its bars are idle where it stood. -/
def Core.forget (s : Core) (id : Nat) (j : Job) : Core :=
  let s := s.freeRegions j.regions
  let s := s.modJob id fun j => { j with ring := none, endSeq := s.jobs.ended + 1 }
  { s with jobs := { s.jobs with
    ended := s.jobs.ended + 1
    chains := s.jobs.chains.map fun (c : Nat × Chain) => (c.1, c.2.map fun (e : Nat × Nat) => if e.2 = id then (e.1, 0) else e) } }
theorem Core.forget_spec (s : Core) (id : Nat) (j : Job) :
    (s.forget id j).job? id = (s.job? id).map (fun j => { j with ring := none, endSeq := s.jobs.ended + 1 }) ∧
    (s.forget id j).jobs.regions = s.jobs.regions.filter (fun r => !j.regions.contains r.1) ∧ Within [] [.jobs] s (s.forget id j) := by
  have hf : Within [] [.jobs] s (s.freeRegions j.regions) := (Within.refl _ _ s).jobs _
  have hm : Within [] [.jobs] s ((s.freeRegions j.regions).modJob id fun j => { j with ring := none, endSeq := s.jobs.ended + 1 }) :=
    hf.jobs _
  exact ⟨Core.job?_modJob (s.freeRegions j.regions) id (g := fun j => { j with ring := none, endSeq := s.jobs.ended + 1 }) fun _ => rfl,
    rfl, hm.jobs _⟩
/-- With no job printing a boundary between jobs is due. -/
def Core.noteBoundary (s : Core) : Core := if s.printing then s else { s with tck := { s.tck with boundary := true } }
theorem Core.noteBoundary_within (s : Core) : Within [] [.tck] s s.noteBoundary ∧ s.noteBoundary.tck.running = s.tck.running := by
  unfold Core.noteBoundary
  split
  · exact ⟨.refl _ _ s, rfl⟩
  · exact ⟨(Within.refl _ _ s).tck _, rfl⟩
theorem Core.setJobState_end {s : Core} {id st : Nat} {j : Job} (h : s.job? id = some j) (hst : j.state ≠ st) (hend : 6 ≤ st) :
    s.setJobState id st = ((((((s.modJob id fun j => { j with state := st }).emit 0x0C01
      (id + at_ 4 j.state + at_ 5 st)).forget id j).endRing j).dropStaged id).noteBoundary) := by
  unfold Core.setJobState
  rw [h]
  simp only
  rw [if_neg hst, if_neg (Nat.not_lt.2 hend)]
  rfl
/-- An end of a job: it is reported, and its memory is given back. -/
theorem Core.setJobState_ends {s : Core} {id st : Nat} {j : Job} (h : s.job? id = some j) (hst : j.state ≠ st) (hend : 6 ≤ st)
    (hdata : id + at_ 4 j.state + at_ 5 st < 2 ^ 128) :
    ((s.setJobState id st).job? id).map (·.state) = some st ∧
    (s.setJobState id st).jobs.regions = s.jobs.regions.filter (fun r => !j.regions.contains r.1) ∧
    s.Raised (s.setJobState id st) 0x0C01 (id + at_ 4 j.state + at_ 5 st) ∧
    Within [0x05, 0x0C, 0x1B] [.cmdq, .jobs, .ely, .spg, .hlk, .tck] s (s.setJobState id st) := by
  rw [Core.setJobState_end h hst hend]
  have hm : Within [] [.jobs] s (s.modJob id fun j => { j with state := st }) := (Within.refl _ _ s).jobs _
  have hmj : (s.modJob id fun j => { j with state := st }).job? id = some { j with state := st } :=
    (Core.job?_modJob s id (g := fun j => { j with state := st }) fun _ => rfl).trans (by rw [h]; rfl)
  have hmr : (s.modJob id fun j => { j with state := st }).jobs.regions = s.jobs.regions := rfl
  have hmq : (s.modJob id fun j => { j with state := st }).cmdq = s.cmdq := rfl
  have hmt : (s.modJob id fun j => { j with state := st }).tck = s.tck := rfl
  generalize s.modJob id (fun j => { j with state := st }) = m at *
  have hraise := Core.raised_emit_of (a := s) (s := m) (code := 0x0C01) (tag := 0) hdata hmq (by rw [hmt])
  have he : Within [0x1B] [.cmdq] m (m.emit 0x0C01 (id + at_ 4 j.state + at_ 5 st)) := (Within.refl _ _ m).emit _ _ _
  generalize m.emit 0x0C01 (id + at_ 4 j.state + at_ 5 st) = e at *
  have hej : e.jobs = m.jobs := he.parts .jobs (by decide)
  obtain ⟨hfj, hfr, hf⟩ := e.forget_spec id j
  generalize e.forget id j = f at *
  have hg := f.endRing_within j
  have hd := (f.endRing j).dropStaged_within id
  have hfd : Within [0x05, 0x0C] [.ely, .spg, .hlk] f ((f.endRing j).dropStaged id) := ((Within.refl _ _ f).next hg).next hd
  generalize (f.endRing j).dropStaged id = d at *
  obtain ⟨hn, hnrun⟩ := d.noteBoundary_within
  generalize d.noteBoundary = n at *
  have hdt : d.tck = f.tck := hfd.parts .tck (by decide)
  have hft : f.tck = e.tck := hf.parts .tck (by decide)
  have hnj : n.jobs = f.jobs := (hn.parts .jobs (by decide) : n.jobs = d.jobs).trans (hfd.parts .jobs (by decide))
  have hnq : n.cmdq = e.cmdq := (hn.parts .cmdq (by decide) : n.cmdq = d.cmdq).trans
    ((hfd.parts .cmdq (by decide) : d.cmdq = f.cmdq).trans (hf.parts .cmdq (by decide)))
  refine ⟨?_, by rw [hnj, hfr, hej, hmr], hraise.congr rfl rfl rfl (by rw [hnq]) (by rw [hnq]) (by rw [hnq]) (by rw [hnrun, hdt, hft]),
    (((((Within.refl _ _ s).next hm).next he).next hf).next hfd).next hn⟩
  rw [Core.job?_congr (a := f) (b := n) (by rw [hnj]), hfj, Core.job?_congr (a := m) (b := e) (by rw [hej]), hmj]
  rfl
/-- The bars of a job give their sets back. -/
def Job.unset (j : Job) : Job := { j with bars := j.bars.map fun e => (e.1, { e.2 with set := none }) }
theorem Job.unset_regions (j : Job) : j.unset.regions = j.regions := by
  unfold Job.regions Job.unset
  simp only [List.map_map]
  rfl
theorem Core.abortIdle_of {s : Core} {id : Nat} (h : ∀ ld ∈ s.jobs.loads, ld.job ≠ id) :
    s.abortIdle id = ((s.modJob id .unset).setJobState id 7).refreshRing := by
  have hnone : s.jobs.loads.filter (·.job == id) = [] := List.filter_eq_nil_iff.2 fun ld hl => by simpa using h ld hl
  unfold Core.abortIdle
  rw [hnone]
  rfl
theorem jobAbort_idle {id mode : Nat} {s : Core} {j : Job} (hmode : mode ≤ 1) (hj : s.job? id = some j) (hst : j.state ≤ 3)
    (hsw : s.jobs.switches = []) : jobAbort id mode s = (.ok 0, s.abortIdle id) := by
  have hno : s.withdrawAll (s.switchesFrom id) = s := by
    unfold Core.switchesFrom
    rw [hsw]
    rfl
  unfold jobAbort
  rw [hj]
  simp only [hno, hsw, List.any_nil, Bool.not_false, and_true]
  rw [if_neg (Nat.not_lt.2 hmode), if_neg (by omega), if_pos hst]
/-- What JOB_ABORT of a job that does not print does: O45's clause, with the block of HDC_n_FIRE (0x0C) among those that may change, for
a staged line of the job is dropped and HDC_n_FIRE.PENDING written again. -/
theorem jobAbort_answers {c : Call} {id : Word} {mode : Byte} {s : State} {j : Job} (hc : CleanHeader c 8) (hr : Runs c 0x0205 1 s)
    (hmode : mode.toNat ≤ 1) (hj : s.field.core.job? id.toNat = some j) (hst : j.state ≤ 3) (hsw : s.field.core.jobs.switches = [])
    (hloads : ∀ ld ∈ s.field.core.jobs.loads, ld.job ≠ id.toNat) : Answers (.jobAbort c id mode) s fun t =>
        Completed c 0x0205 0 0 s t ∧ (t.field.core.job? id.toNat).map (·.state) = some 7 ∧
        (∀ r ∈ t.field.core.jobs.regions, r.1 ∉ j.regions ∧ r ∈ s.field.core.jobs.regions) ∧
        s.field.core.Raised t.field.core 0x0C01 (id.toNat + at_ 4 j.state + at_ 5 7) ∧
        SameOutside [0x01, 0x05, 0x0C, 0x1B] s.field.core t.field.core := by
  have hout := taken_outside c 0x0205 s
  have htime := taken_etime c 0x0205 s
  have hsame : (s.taken c 0x0205).field.core.jobs = s.field.core.jobs ∧
      (s.taken c 0x0205).field.core.cmdq.fifo = s.field.core.cmdq.fifo ∧
      (s.taken c 0x0205).field.core.cmdq.evSeq = s.field.core.cmdq.evSeq ∧
      (s.taken c 0x0205).field.core.tck = s.field.core.tck := by
    rw [taken_core]
    exact ⟨rfl, rfl, rfl, rfl⟩
  obtain ⟨hjobs, hfifo, hseq, htck⟩ := hsame
  generalize hx0 : (s.taken c 0x0205).field.core = x0 at *
  have hj0 : x0.job? id.toNat = some j := (Core.job?_congr (by rw [hjobs]) _).trans hj
  have hbody := jobAbort_idle hmode hj0 hst (by rwa [hjobs])
  rw [Core.abortIdle_of (by rwa [hjobs])] at hbody
  have hmj : (x0.modJob id.toNat .unset).job? id.toNat = some j.unset :=
    (Core.job?_modJob x0 id.toNat (g := .unset) fun _ => rfl).trans (by rw [hj0]; rfl)
  have hm : Within [] [.jobs] x0 (x0.modJob id.toNat .unset) := (Within.refl _ _ x0).jobs _
  have hmr : (x0.modJob id.toNat .unset).jobs.regions = x0.jobs.regions := rfl
  generalize x0.modJob id.toNat .unset = m at *
  have hid := id.isLt
  have hdata : id.toNat + at_ 4 j.unset.state + at_ 5 7 < 2 ^ 128 := by
    change id.toNat + at_ 4 j.state + at_ 5 7 < 2 ^ 128
    unfold at_
    omega
  obtain ⟨hstate, hregions, hraised, hw⟩ := Core.setJobState_ends hmj (st := 7)
    (fun h => by
      have h' : j.state = 7 := h
      omega) (by decide) hdata
  generalize m.setJobState id.toNat 7 = n at *
  have hring := n.refreshRing_within
  generalize n.refreshRing = x at *
  have hxw : Within [0x05, 0x0C, 0x1B] [.cmdq, .jobs, .ely, .spg, .hlk, .tck] x0 x := (((Within.refl _ _ x0).next hm).next hw).next hring
  have hans : (x.cmdq.done, x.cmdq.fspTx) = (x0.cmdq.done, x0.cmdq.fspTx) := hxw.parts .answers (by decide)
  have hxtime := hxw.parts .etime (by decide)
  simp only [Part.same] at hxtime
  have hxj : x.jobs = n.jobs := hring.parts .jobs (by decide)
  have hxq : x.cmdq = n.cmdq := hring.parts .cmdq (by decide)
  have hxt : x.tck = n.tck := hring.parts .tck (by decide)
  have hmq : m.cmdq = x0.cmdq := hm.parts .cmdq (by decide)
  have hmt : m.tck = x0.tck := hm.parts .tck (by decide)
  have hxraised : s.field.core.Raised x 0x0C01 (id.toNat + at_ 4 j.state + at_ 5 7) :=
    hraised.congr (by rw [hmq, hfifo]) (by rw [hmq, hseq]) (by rw [hmt, htck]) (by rw [hxq]) (by rw [hxq]) (by rw [hxq]) (by rw [hxt])
  have hk : (cmdJobAbort c id.toNat mode.toNat).Plain 8 (jobAbort id.toNat mode.toNat) := ⟨rfl, rfl, by decide, rfl, rfl, rfl⟩
  obtain ⟨t, hexec, ht⟩ := hk.done (i := .jobAbort c id mode) (r := .ok 0) rfl hc hr (hx0 ▸ hbody) (.inl ⟨_, rfl⟩) (hxtime.trans htime)
    (by
      change (x.cmdq.done, x.cmdq.fspTx) = ((s.taken c 0x0205).field.core.cmdq.done, (s.taken c 0x0205).field.core.cmdq.fspTx)
      rw [hx0]
      exact hans)
  have htjobs := ht.rest.quiet.jobs
  refine ⟨t, hexec, ht.completed, ?_, ?_, ht.raised hxraised (fun h => absurd h (by decide)), ?_⟩
  · rw [Core.job?_congr (a := n) (b := t.field.core) (by rw [htjobs, hxj]), hstate]
  · intro r hm'
    rw [htjobs, hxj, hregions, hmr, hjobs, Job.unset_regions] at hm'
    obtain ⟨hmem, hfree⟩ := List.mem_filter.1 hm'
    exact ⟨by simpa using hfree, hmem⟩
  · exact ((hout.mono (by decide)).trans (hxw.regs.mono (by decide))).trans ((ht.regs.outside commandKeys_blocks).mono (by decide))

/-! ### What O45 does not allow -/

/-- Job 7, LOADING and without bars. -/
def bareJob : Job := { Job.fresh 7 [] [] with state := 1 }
/-- READY, with job 7 LOADING, a line of it staged at head 0, and HDC_0_FIRE.PENDING 1 where no line is issued. -/
def stagedJob : State :=
  State.reset.onCore fun c =>
    ({ c with
      press := { c.press with segBar := [(0, 0)], nozzles := [(0, 1)] }
      jobs := { c.jobs with jobs := [bareJob] }
      spg := { c.spg with heads := [(0, { HeadFire.none with staged := [⟨7, 0, 0, [], 0, none, false, 0⟩] })] } } : Core).wrs
      [(SYS_BOOT.STATE, 7), (CMDQ_PRIV.FSP, 3), (HDC_FIRE.PENDING, 1)]
theorem stagedJob_ready : stagedJob.field.core.bootState = 7 ∧ stagedJob.field.core.imagoDead = false ∧
    stagedJob.field.core.fspBusy = false ∧ stagedJob.field.core.priv .fsp = 3 ∧ stagedJob.field.core.job? 7 = some bareJob ∧
    stagedJob.field.core.jobs.switches = [] ∧ stagedJob.field.core.jobs.loads = [] ∧
    stagedJob.field.core.rd HDC_FIRE.PENDING = 1 := by decide +kernel
theorem stagedJob_runs : Runs fspWrite 0x0205 1 stagedJob := by
  obtain ⟨hboot, hdead, hfsp, hpriv, -⟩ := stagedJob_ready
  refine ⟨hboot, ⟨hdead, hfsp⟩, rfl, ?_⟩
  rw [show fspWrite.src = .fsp from rfl, hpriv]
  decide
theorem stagedJob_aborts : (match exec (.jobAbort fspWrite 7 0) stagedJob with
    | .next t => t.field.core.rd HDC_FIRE.PENDING
    | _ => 1) = 0 := by decide +kernel
/-- Refutes O45: its last clause lets an abort change no register of block 0x0C, where dropping a staged line of the job writes
HDC_n_FIRE.PENDING again (R496). At `stagedJob` that register stands at 1 with no line issued, and the abort sets it to 0. The other
clauses hold (`jobDefine_answers`, `jobArm_answers`, `jobStatus_answers`, `jobSwitchAt_answers`), and the last with that block added
(`jobAbort_answers`). -/
theorem not_jobCommandsKeepTheRecord : ¬ Obligations.JobCommandsKeepTheRecord := by
  unfold Obligations.JobCommandsKeepTheRecord
  intro h
  obtain ⟨-, -, -, -, hjob, hsw, hloads, hone⟩ := stagedJob_ready
  obtain ⟨-, -, -, -, habort⟩ := h fspWrite 7 stagedJob
  obtain ⟨t, ht, -, -, -, -, hframe⟩ := habort 0 bareJob ⟨rfl, rfl, rfl, rfl, rfl, rfl, rfl⟩ stagedJob_runs (by decide) hjob (by decide)
    (by decide) hsw (by rw [hloads]; intro ld hm; cases hm)
  have hzero := stagedJob_aborts
  rw [ht] at hzero
  exact absurd (hzero.symm.trans ((hframe HDC_FIRE.PENDING 0 (by decide)).trans hone)) (by decide)

end Sys2Proof.Machine
end

section
/-! PROOF. Job data (O46; spec/06_raster_ingest_and_coding.md R249 to R267): what requests to DRAM change, the staging of a
load, the opening of a ring and an append to it, and the decoding of a load's header and of a STORED block. -/

namespace Sys2Proof.Machine

set_option Elab.async false

/-! ### Requests to DRAM (R515 to R519) -/

/-- A memory's record with its banks, its queues and what they count replaced. -/
def MemSt.dealt (x : MemSt) (banks : SMap Bank) (queues : SMap ChanQ) (windowAt : Nat) (held : List DramReq) (words : SMap Nat) : MemSt :=
  { x with banks := banks, queues := queues, windowAt := windowAt, cursorHeld := held, words := words }
/-- What serving requests changes: the memory's banks and queues, and the counts `ks` of neighbour refreshes. -/
structure Dealt (ks : List Nat) (a b : Core) : Prop where
  regs : SameRegs ks a b
  parts : Touches [.mem] a b
  mem : ∃ banks queues windowAt held words, b.mem = a.mem.dealt banks queues windowAt held words

section
variable {ks : List Nat} {a b c : Core}

theorem Dealt.refl (ks : List Nat) (a : Core) : Dealt ks a a := ⟨.refl _ a, .refl _ a, _, _, _, _, _, rfl⟩
theorem Dealt.trans (hab : Dealt ks a b) (hbc : Dealt ks b c) : Dealt ks a c := by
  obtain ⟨_, _, _, _, _, hb⟩ := hab.mem
  obtain ⟨_, _, _, _, _, hc⟩ := hbc.mem
  exact ⟨hab.regs.trans hbc.regs, hab.parts.trans hbc.parts, _, _, _, _, _, hc.trans (by rw [hb]; rfl)⟩
theorem Dealt.set (h : Dealt ks a b) {banks : SMap Bank} {queues : SMap ChanQ} {windowAt : Nat} {held : List DramReq} {words : SMap Nat}
    (x : MemSt) (hx : x = b.mem.dealt banks queues windowAt held words := by rfl) : Dealt ks a { b with mem := x } :=
  h.trans ⟨.of_regs rfl, ((Within.refl [] [.mem] b).mem x).parts, _, _, _, _, _, hx⟩
theorem Dealt.refreshed (h : Dealt ks a b) {ch : Nat} (k : Nat) (hk : MEMC_RH_CNT.COUNT.key ch ∈ ks) :
    Dealt ks a (if k = 0 then b else b.inc MEMC_RH_CNT.COUNT ch k) := by
  split
  · exact h
  · have hparts : Touches [.mem] b (b.inc MEMC_RH_CNT.COUNT ch k) := ((Within.refl [MEMC_RH_CNT.COUNT.block ch] [.mem] b).inc k
      List.mem_cons_self).parts
    exact h.trans ⟨(SameRegs.refl ks b).inc k hk, hparts, _, _, _, _, _, rfl⟩

end

section
variable {ks : List Nat} {ch : Nat}

theorem Core.rowWindow_dealt (ks : List Nat) (s : Core) : Dealt ks s s.rowWindow := by
  unfold Core.rowWindow
  extract_lets w
  split
  · exact .refl ks s
  · exact (Dealt.refl ks s).set _

variable (hk : MEMC_RH_CNT.COUNT.key ch ∈ ks)
include hk

theorem Core.bankAccess_dealt (s : Core) (rank bank row : Nat) (more : Bool) : Dealt ks s (s.bankAccess ch rank bank row more) := by
  unfold Core.bankAccess
  extract_lets b page
  exact ((Dealt.refl ks s).set _).refreshed _ hk
theorem Core.serveOne_dealt (s : Core) (q : ChanQ) : Dealt ks s (s.serveOne ch q).1 := by
  unfold Core.serveOne
  extract_lets q1 q2
  split
  · exact .refl ks s
  · exact (s.bankAccess_dealt hk _ _ _ _).set _
theorem Core.serve_dealt (n : Nat) (s : Core) (q : ChanQ) : Dealt ks s (Core.serve ch n s q).1 := by
  induction n generalizing s q with
  | zero => exact .refl ks s
  | succ n ih => exact (s.serveOne_dealt hk q).trans (ih _ _)
theorem Core.drain_dealt (s : Core) (q : ChanQ) : Dealt ks s (s.drain ch q) := by
  unfold Core.drain
  split
  · next t u h =>
    have ht : Dealt ks s t := by
      split at h
      · rw [← (Prod.mk.inj h).1]
        exact .refl ks s
      · rw [← (Prod.mk.inj h).1]
        exact Core.serve_dealt hk _ s q
    exact ht.set _
theorem Core.request_dealt (s : Core) (rs : List DramReq) : Dealt ks s (s.request ch rs) := by
  unfold Core.request
  extract_lets t
  have ht : Dealt ks s t := s.rowWindow_dealt ks
  split
  next hold rest _ =>
    extract_lets u
    have hu : Dealt ks s u := ht.set _
    split
    · exact hu
    · exact hu.trans (u.drain_dealt hk _)

end

/-- No request for a channel: its window may end. -/
theorem Core.request_none_dealt (ks : List Nat) (s : Core) (ch : Nat) : Dealt ks s (s.request ch []) := by
  unfold Core.request
  exact (s.rowWindow_dealt ks).set _
/-- Requests that reach the DRAM together. -/
theorem Core.requests_dealt {ks : List Nat} (s : Core) {rs : List (Nat × List DramReq)} (h : ∀ p ∈ rs, p.1 < 4 → MEMC_RH_CNT.COUNT.key p.1 ∈ ks) :
    Dealt ks s (s.requests rs) := by
  refine List.foldlRecOn (motive := fun t => Dealt ks s t) (List.range 4) _ (.refl ks s) fun t ht ch hch => ht.trans ?_
  cases hrs : rs.filter (·.1 == ch) with
  | nil => exact t.request_none_dealt ks ch
  | cons p ps =>
    have hp : p ∈ rs.filter (·.1 == ch) := hrs ▸ List.mem_cons_self
    have hpch : p.1 = ch := eq_of_beq (List.mem_filter.1 hp).2
    exact t.request_dealt (hpch ▸ h p (List.mem_filter.1 hp).1 (hpch ▸ List.mem_range.1 hch)) _

/-- What serving requests to any channel changes. -/
structure Served (a b : Core) : Prop where
  regs : SameRegs activateKeys a b
  parts : Touches [.mem] a b
theorem activateKeys_all : ∀ ch : Fin 4, MEMC_RH_CNT.COUNT.key ch.val ∈ activateKeys := by decide
theorem activateKeys_blocks : ∀ k ∈ activateKeys, k / 2 ^ 21 ∈ [0x04] := by decide
theorem Served.within {a b : Core} (h : Served a b) : Within [0x04] [.mem] a b := ⟨h.regs.outside activateKeys_blocks, h.parts⟩
theorem Core.requests_served (s : Core) (rs : List (Nat × List DramReq)) : Served s (s.requests rs) := by
  have h := s.requests_dealt (ks := activateKeys) (rs := rs) fun p _ hlt => activateKeys_all ⟨p.1, hlt⟩
  exact ⟨h.regs, h.parts⟩
/-- A read that meets no marked word. -/
theorem Core.reads_served (s : Core) {m : Dram} (cls a n : Nat) (h : m.poison = []) : Served s (s.reads m cls a n) := by
  have hnone : m.marked a n = [] := by
    rw [Dram.marked, h]
    rfl
  unfold Core.reads Core.meets
  rw [hnone, List.foldl_nil]
  exact s.requests_served _
/-! ### A sound DRAM -/

section
variable {s : State} (h : DramSound s)
include h
theorem DramSound.page_lt (hways : s.field.core.ways ≠ 0) (pg : Nat) : (s.field.core.pageAt pg).1 < 4 := by
  have hlt : pg % s.field.core.ways < s.field.core.mem.layout.length := Nat.mod_lt _ (Nat.pos_of_ne_zero hways)
  unfold Core.pageAt
  rw [List.getD_eq_getElem _ _ hlt]
  exact h.layout _ (List.getElem_mem hlt)
theorem DramSound.state_ne {ch : Nat} (hch : ch < 4) {n : Nat} (hn : 3 ≤ n) : (s.field.core.rd MEMC_STATUS.STATE ch == n) = false := by
  have hlt := h.channels ch hch
  exact beq_eq_false_iff_ne.2 (by omega)
theorem DramSound.channelsOf_lt {a n ch : Nat} (hch : ch ∈ s.field.core.channelsOf a n) : ch < 4 := by
  unfold Core.channelsOf at hch
  split at hch
  · cases hch
  · next hne =>
    obtain ⟨i, -, rfl⟩ := List.mem_map.1 hch
    exact h.page_lt (fun hw => hne (.inr hw)) _
theorem DramSound.stalls (a n : Nat) : s.field.core.stalls a n = false :=
  List.any_eq_false.2 fun ch hch => by
    rw [h.state_ne (h.channelsOf_lt hch) (by decide)]
    decide
theorem DramSound.bad (a n : Nat) : s.field.core.bad s.field.dram a n = false := by
  have hany : (s.field.core.channelsOf a n).any (fun ch => s.field.core.rd MEMC_STATUS.STATE ch == 4) = false :=
    List.any_eq_false.2 fun ch hch => by
      rw [h.state_ne (h.channelsOf_lt hch) (by decide)]
      decide
  unfold Core.bad Dram.bad
  rw [h.poison, h.once, hany]
  rfl
theorem DramSound.reqs_lt {write : Bool} {cls a n : Nat} {p : Nat × List DramReq} (hp : p ∈ s.field.core.reqs write cls a n) : p.1 < 4 := by
  unfold Core.reqs at hp
  split at hp
  · cases hp
  · next hne =>
    obtain ⟨i, -, rfl⟩ := List.mem_map.1 hp
    exact h.page_lt (fun hw => hne (.inr hw)) _
theorem DramSound.tileReqs_go (jb : JobBar) (i n : Nat) : s.field.core.anyStalls (s.field.core.tileReqs jb i n) = false :=
  List.any_eq_false.2 fun p hp => by
    obtain ⟨k, -, hk⟩ := List.mem_flatMap.1 hp
    rw [h.state_ne (h.reqs_lt hk) (by decide), Bool.and_false]
    decide
end

/-! ### JOB_LOAD_DATA (R249, R250) -/

/-- A load joins those in progress. -/
def Core.addLoad (s : Core) (ld : Load) : Core := { s with jobs := { s.jobs with loads := s.jobs.loads ++ [ld] } }
theorem loadData_starts {c : Call} {id bar offset base : Nat} {f : Field} {j : Job} {jb : JobBar} {d : Bytes} {x : Core}
    (hj : f.core.job? id = some j) (hbar : j.bar? bar = some jb) (hst : j.state = 1) (halign : offset % 4 = 0) (hin : offset < jb.planeLines)
    (hsize : dlenOf c = d.length) (hmoved : c.bulk.dmaFail = none) (hlanded : c.bulk.data = d)
    (halloc : f.core.allocJob d.length = some (base, x)) (hroom : d.length ≤ f.core.jobFree) :
    loadData c id bar offset f = (.later, ⟨((x.addLoad ⟨refOf 0x0201 c, id, bar, offset, base, d.length, d, 0, none, 0, 0⟩).stores 2
      base d.length).openCmd (refOf 0x0201 c), f.dram.heal base d.length⟩) := by
  have htake : d.take d.length = d := List.take_length
  unfold loadData
  simp only [hj, hbar, hsize, hlanded, hmoved, htake, halloc]
  rw [if_neg (by omega), if_neg (Nat.not_lt.2 hroom), if_neg (not_not.2 hst), if_neg (Nat.lt_irrefl _)]
  rfl
theorem jobLoadData_answers {c : Call} {id : Word} {s : State} {j : Job} {bar : Byte} {offset : BitVec 64} {jb : JobBar} {d : Bytes}
    {base : Nat} {x : Core} (hj : s.field.core.job? id.toNat = some j) (hc : BulkHeader c 16 d) (hr : Runs c 0x0201 1 s) (hff : bar ≠ 0xFF)
    (hbar : j.bar? bar.toNat = some jb) (hst : j.state = 1) (halign : offset.toNat % 4 = 0) (hin : offset.toNat < jb.planeLines)
    (hmax : d.length ≤ 268435456) (halloc : s.field.core.allocJob d.length = some (base, x)) (hroom : d.length ≤ s.field.core.jobFree) :
    Answers (.jobLoadData c id bar offset) s fun t =>
         Started c 0x0201 t ∧ t.field.core.cmdq.done = s.field.core.cmdq.done ∧
         t.field.core.jobs.loads = s.field.core.jobs.loads ++
           [⟨refOf 0x0201 c, id.toNat, bar.toNat, offset.toNat, base, d.length, d, 0, none, 0, 0⟩] ∧
         t.field.core.jobs.regions = x.jobs.regions ∧ t.field.dram.cells = s.field.dram.cells := by
  have hout := taken_outside c 0x0201 s
  have hjobs : (s.taken c 0x0201).field.core.jobs = s.field.core.jobs := (Quiet.taken c 0x0201 s).jobs
  have hdone := taken_done c 0x0201 s
  have hways := hout MEM_STATUS.WAYS 0 (by decide)
  have hcells : (s.taken c 0x0201).field.dram = s.field.dram := taken_dram _ _ _
  have hfree : (s.taken c 0x0201).field.core.jobFree = s.field.core.jobFree := by
    unfold Core.jobFree
    rw [hjobs, hways]
  obtain ⟨-, halloc0⟩ := allocJob_congr hways (by rw [hjobs]) halloc
  have hbody := loadData_starts (c := c) ((Core.job?_congr (by rw [hjobs]) _).trans hj) hbar hst halign hin hc.size hc.moved hc.landed halloc0
    (hroom.trans hfree.ge)
  obtain ⟨t, hexec, ht⟩ := Cmd.runs_begun (k := cmdJobLoadData c id.toNat bar.toNat offset.toNat) (i := .jobLoadData c id bar offset) rfl hr
    (hc.header (by decide)) rfl (fun h => absurd (hc.host.symm.trans h.1) (by decide))
    (Cmd.lengthCheck_bulk (k := cmdJobLoadData c id.toNat bar.toNat offset.toNat) hc List.mem_cons_self rfl rfl hmax)
    (BulkHeader.params (k := cmdJobLoadData c id.toNat bar.toNat offset.toNat) hc)
    (by
      change (if bar.toNat = 0xFF then ringAppend c id.toNat offset.toNat else loadData c id.toNat bar.toNat offset.toNat)
        (s.taken c 0x0201).field = _
      rw [if_neg fun h : bar.toNat = 255 => hff (BitVec.eq_of_toNat_eq h)]
      exact hbody)
  generalize (s.taken c 0x0201).field.core = x0 at *
  generalize hld : (⟨refOf 0x0201 c, id.toNat, bar.toNat, offset.toNat, base, d.length, d, 0, none, 0, 0⟩ : Load) = ld at *
  have hw := ((x0.withRegions x.jobs.regions).addLoad ld).requests_served (((x0.withRegions x.jobs.regions).addLoad ld).reqs true 2 base d.length)
  have hyjobs := hw.parts .jobs (by decide)
  have hycmdq := hw.parts .cmdq (by decide)
  simp only [Part.same] at hyjobs hycmdq
  obtain ⟨l, rfl⟩ := ht
  refine ⟨_, hexec, ?_, ?_, ?_, ?_, ?_⟩
  · exact List.mem_append_right _ List.mem_cons_self
  · exact (congrArg CmdqSt.done hycmdq).trans hdone
  · exact (congrArg JobSt.loads hyjobs).trans (by rw [Core.addLoad, Core.withRegions, hjobs])
  · exact (congrArg JobSt.regions hyjobs).trans rfl
  · change ((s.taken c 0x0201).field.dram.heal base d.length).cells = _
    rw [hcells]
    rfl

/-! ### JOB_STREAM_OPEN (R254) -/

theorem Core.readyIfLoaded_spec (s : Core) (id : Nat) : (s.readyIfLoaded id).jobs.regions = s.jobs.regions ∧
    ((s.readyIfLoaded id).job? id).bind (·.ring) = (s.job? id).bind (·.ring) ∧
    Within [0x1B] [.jobs, .cmdq] s (s.readyIfLoaded id) := by
  unfold Core.readyIfLoaded
  split
  · exact ⟨rfl, rfl, .refl _ _ s⟩
  · next j hj =>
    extract_lets full
    split
    · next h =>
      obtain ⟨hjob, hw, -, hrest⟩ := Core.setJobState_goesOn_spec (st := 2) hj (by rw [h.1]; decide) (by decide)
      exact ⟨by rw [hrest], by rw [hjob, hj]; rfl, hw⟩
    · exact ⟨rfl, rfl, .refl _ _ s⟩
/-- A ring for some bars, nothing in it. -/
def Ring.fresh (base size hist mask : Nat) : Ring := ⟨base, size, hist, [], 0, false, mask, [], false, 0, false⟩
/-- A job whose ring is open. -/
def Core.openRing (s : Core) (id : Nat) (r : Ring) : Core := (s.setRing id r).modJob id fun j => { j with opened := true }
theorem Core.openRing_spec {s : Core} {id : Nat} {j : Job} (r : Ring) (hj : s.job? id = some j) :
    ((s.openRing id r).job? id).bind (·.ring) = some r ∧ (s.openRing id r).jobs.regions = s.jobs.regions ∧
    Within [] [.jobs] s (s.openRing id r) := by
  have hw : Within [] [.jobs] s (s.setRing id r) := (Within.refl _ _ s).jobs _
  refine ⟨?_, rfl, hw.jobs _⟩
  have hring : (s.setRing id r).job? id = some { j with ring := some r } :=
    (Core.job?_modJob s id (g := fun j => { j with ring := some r }) fun _ => rfl).trans (by rw [hj]; rfl)
  have hopen : (s.openRing id r).job? id = _ := Core.job?_modJob (s.setRing id r) id (g := fun j => { j with opened := true }) fun _ => rfl
  rw [hopen, hring]
  rfl
theorem streamOpen_opens {id mask size base hist : Nat} {s y : Core} {R : List (Nat × Nat)} {j : Job} (hj : s.job? id = some j)
    (hmask : mask ≠ 0) (hbars : ∀ b ∈ maskBits 8 mask, j.barMask.testBit b = true) (halign : size % 4096 = 0) (hmin : 8388608 ≤ size)
    (hmax : size ≤ 1073741824) (hroom : size + 262144 * (maskBits 8 mask).length ≤ s.jobFree) (hst : j.state = 1) (hring : j.ring = none)
    (halloc : s.allocJob size = some (base, s.withRegions R))
    (halloc' : (s.withRegions R).allocJob (262144 * (maskBits 8 mask).length) = some (hist, y)) :
    streamOpen id mask size s = (.ok 0, ((y.openRing id (.fresh base size hist mask)).readyIfLoaded id).refreshRing) := by
  have hall : (maskBits 8 mask).any (fun b => !j.barMask.testBit b) = false :=
    List.any_eq_false.2 fun b hb => by
      rw [hbars b hb]
      decide
  unfold streamOpen
  simp only [hj, hall, halloc, halloc', hring]
  rw [if_neg (by simpa using hmask), if_neg (by omega), if_neg (Nat.not_lt.2 hroom), if_neg fun h => h.elim (fun h => h hst) (by simp)]
  rfl
theorem jobStreamOpen_answers {c : Call} {id : Word} {s : State} {j : Job} {mask : Byte} {size : Word} {base hist : Nat} {x y : Core}
    (hj : s.field.core.job? id.toNat = some j) (hc : CleanHeader c 12) (hr : Runs c 0x0202 1 s) (hmask : mask ≠ 0)
    (hbars : ∀ b : Fin 8, mask.toNat.testBit b.val = true → j.barMask.testBit b.val = true) (halign : size.toNat % 4096 = 0)
    (hmin : 8388608 ≤ size.toNat) (hmax : size.toNat ≤ 1073741824)
    (hroom : size.toNat + 262144 * (maskBits 8 mask.toNat).length ≤ s.field.core.jobFree) (hst : j.state = 1) (hring : j.ring = none)
    (halloc : s.field.core.allocJob size.toNat = some (base, x))
    (halloc' : x.allocJob (262144 * (maskBits 8 mask.toNat).length) = some (hist, y)) :
    Answers (.jobStreamOpen c id mask size) s fun t =>
         Completed c 0x0202 0 0 s t ∧ (t.field.core.job? id.toNat).bind (·.ring) =
           some ⟨base, size.toNat, hist, [], 0, false, mask.toNat, [], false, 0, false⟩ ∧
         t.field.core.jobs.regions = y.jobs.regions ∧ CommandWithin c 0x0202 [0x05] s t := by
  have hout := taken_outside c 0x0202 s
  have htime := taken_etime c 0x0202 s
  have hjobs : (s.taken c 0x0202).field.core.jobs = s.field.core.jobs := (Quiet.taken c 0x0202 s).jobs
  have hways := hout MEM_STATUS.WAYS 0 (by decide)
  have hfree : (s.taken c 0x0202).field.core.jobFree = s.field.core.jobFree := by
    unfold Core.jobFree
    rw [hjobs, hways]
  generalize hx0 : (s.taken c 0x0202).field.core = x0 at *
  obtain ⟨hxs, halloc0⟩ := allocJob_congr hways (by rw [hjobs]) halloc
  have hwaysx : (x0.withRegions x.jobs.regions).rd MEM_STATUS.WAYS = x.rd MEM_STATUS.WAYS :=
    (Core.rd_congr rfl _ _).trans (hways.trans (Core.rd_congr (by rw [hxs]; rfl) _ _))
  obtain ⟨-, halloc1⟩ := allocJob_congr (b := x0.withRegions x.jobs.regions) hwaysx rfl halloc'
  have hj0 : x0.job? id.toNat = some j := (Core.job?_congr (by rw [hjobs]) _).trans hj
  have hbody := streamOpen_opens (mask := mask.toNat) hj0 (fun h => hmask (BitVec.eq_of_toNat_eq h))
    (fun b hb => hbars ⟨b, mem_maskBits_lt hb⟩ (List.mem_filter.1 hb).2) halign hmin hmax (hroom.trans hfree.ge) hst hring halloc0 halloc1
  have hz : ((x0.withRegions x.jobs.regions).withRegions y.jobs.regions).job? id.toNat = some j := hj0
  have hzw : Within [] [.jobs] x0 (x0.withRegions x.jobs.regions) := (Within.refl _ _ x0).jobs _
  have hzw' : Within [] [.jobs] x0 ((x0.withRegions x.jobs.regions).withRegions y.jobs.regions) := hzw.jobs _
  have hzr : ((x0.withRegions x.jobs.regions).withRegions y.jobs.regions).jobs.regions = y.jobs.regions := rfl
  generalize (x0.withRegions x.jobs.regions).withRegions y.jobs.regions = z at *
  obtain ⟨hor, hoR, how⟩ := Core.openRing_spec (.fresh base size.toNat hist mask.toNat) hz
  generalize z.openRing id.toNat (.fresh base size.toNat hist mask.toNat) = o at *
  obtain ⟨hnR, hnr, hnw⟩ := o.readyIfLoaded_spec id.toNat
  generalize o.readyIfLoaded id.toNat = n at *
  have hrw := n.refreshRing_within
  generalize n.refreshRing = r at *
  have hw : Within [0x05, 0x1B] [.jobs, .cmdq] x0 r := ((((Within.refl _ _ x0).next hzw').next how).next hnw).next hrw
  have hans := hw.parts .answers (by decide)
  have hrtime := hw.parts .etime (by decide)
  have hrj : r.jobs = n.jobs := hrw.parts .jobs (by decide)
  simp only [Part.same] at hans hrtime
  have hk : (cmdJobStreamOpen c id.toNat mask.toNat size.toNat).Plain 12 (streamOpen id.toNat mask.toNat size.toNat) :=
    ⟨rfl, rfl, by decide, rfl, rfl, rfl⟩
  obtain ⟨t, hexec, ht⟩ := hk.done (i := .jobStreamOpen c id mask size) (r := .ok 0) rfl hc hr (hx0 ▸ hbody) (.inl ⟨_, rfl⟩)
    (hrtime.trans htime)
    (by
      change (r.cmdq.done, r.cmdq.fspTx) = ((s.taken c 0x0202).field.core.cmdq.done, (s.taken c 0x0202).field.core.cmdq.fspTx)
      rw [hx0]
      exact hans)
  have htjobs := ht.rest.quiet.jobs
  refine ⟨t, hexec, ht.completed, ?_, by rw [htjobs, hrj, hnR, hoR, hzr], ht.within ((hout.mono (by decide)).trans (hw.regs.mono (by decide)))⟩
  rw [Core.job?_congr (a := n) (b := t.field.core) (by rw [htjobs, hrj]), hnr, hor]
  rfl

/-! ### JOB_RING_APPEND (R255) -/

/-- A delivered command whose body answers at once, whatever it has done to DRAM. -/
theorem Cmd.runs_wrote {k : Cmd} {i : Instr} {s : State} {r : Reply} {x : Field} (hexec : exec i s = .next (k.submit i s))
    (h : Runs k.call k.op k.priv s) (hh : headerCheck k.call = none) (hk : k.known = true)
    (hf : ¬ (k.call.src = .fsp ∧ k.call.sg = true)) (hl : k.lengthCheck = none) (hp : k.paramCheck = none)
    (hb : k.body (s.taken k.call k.op).field = (r, x)) (hr : r.AtOnce) (htime : x.core.etime = s.field.core.etime)
    (hans : (x.core.cmdq.done, x.core.cmdq.fspTx) =
      ((s.taken k.call k.op).field.core.cmdq.done, (s.taken k.call k.op).field.core.cmdq.fspTx)) :
    Answers i s fun t => t.field.dram = x.dram ∧
      k.Done r s x.core { t with field := ⟨t.field.core, (s.taken k.call k.op).field.dram⟩ } := by
  have hrun := Cmd.submit_runs (i := i) h hh hk hf hl hp
  rw [hb] at hrun
  have hdone : ∃ l, k.submit i s = { s.taken k.call k.op with field :=
      ⟨({ x.core with tck := { x.core.tck with commitLog := l } } : Core).complete k.call.src k.op k.call.tag.toNat k.call.q.val
        k.call.index.toNat r, x.dram⟩ } := by
    obtain ⟨v, rfl⟩ | ⟨v, rfl⟩ | ⟨st, d, off, v, rfl⟩ := hr
    · exact ⟨_, hrun⟩
    · exact ⟨_, hrun⟩
    · exact ⟨x.core.tck.commitLog, hrun⟩
  obtain ⟨l, hl⟩ := hdone
  exact ⟨_, hexec, by rw [hl], by rw [hl]; exact .of_complete htime hans⟩
/-- The requests that put `n` bytes behind those of a ring: up to its end, and the rest at its base. -/
def Core.ringStores (s : Core) (r : Ring) (a n k : Nat) : Core :=
  s.requests (s.reqs true 2 (r.base + a) n ++ s.reqs true 2 r.base k)
theorem ringAppend_appends {c : Call} {id : Nat} {f : Field} {j : Job} {r : Ring} {d : Bytes} (hj : f.core.job? id = some j)
    (hring : j.ring = some r) (hopen : j.opened = true) (hdead : r.dead = false) (hsegs : r.segs = []) (hroom : d.length ≤ r.size - r.bytes.length)
    (hsize : dlenOf c = d.length) (hmoved : c.bulk.dmaFail = none) (hlanded : c.bulk.data = d) :
    ∃ a n, ringAppend c id 0 f = (.ok 0, ⟨((f.core.ringStores r a n (d.length - n)).setRing id { r with bytes := r.bytes ++ d }).refreshRing,
      (f.dram.heal (r.base + a) n).heal r.base (d.length - n)⟩) := by
  have hfree : r.free = r.size - r.bytes.length := by
    unfold Ring.free
    rw [hsegs]
    rfl
  have htake : d.take d.length = d := List.take_length
  refine ⟨(r.taken + r.bytes.length) % r.size, min d.length (r.size - (r.taken + r.bytes.length) % r.size), ?_⟩
  unfold ringAppend withData
  simp only [hj, hopen, hring, hdead, hsegs, hfree, hsize, hmoved, hlanded, htake, List.any_nil]
  rw [if_neg (by decide), if_neg (by decide), if_neg (by omega)]
  simp only [Option.isSome_none, Bool.false_eq_true, Nat.lt_irrefl, or_self, if_false, List.nil_append, mapIf, List.map_cons, List.map_nil,
    beq_self_eq_true, if_true, List.takeWhile_cons, bne_self_eq_false, List.sum_nil, Nat.add_zero, Ring.settle]
  rfl
theorem jobRingAppend_answers {c : Call} {id : Word} {s : State} {j : Job} {r : Ring} {d : Bytes}
    (hj : s.field.core.job? id.toNat = some j) (hc : BulkHeader c 16 d) (hr : Runs c 0x0201 1 s) (hring : j.ring = some r)
    (hopen : j.opened = true) (hdead : r.dead = false) (hsegs : r.segs = []) (hroom : d.length ≤ r.size - r.bytes.length)
    (hmax : d.length ≤ 268435456) : Answers (.jobRingAppend c id 0) s fun t =>
         Completed c 0x0201 0 0 s t ∧
         (t.field.core.job? id.toNat).bind (·.ring) = some { r with bytes := r.bytes ++ d } ∧
         t.field.core.jobs.jobs.length = s.field.core.jobs.jobs.length ∧ t.field.dram.cells = s.field.dram.cells ∧
         SameOutside [0x01, 0x04, 0x05, 0x1B] s.field.core t.field.core := by
  have hout := taken_outside c 0x0201 s
  have htime := taken_etime c 0x0201 s
  have hjobs : (s.taken c 0x0201).field.core.jobs = s.field.core.jobs := (Quiet.taken c 0x0201 s).jobs
  have hcells : (s.taken c 0x0201).field.dram = s.field.dram := taken_dram _ _ _
  have hj0 : (s.taken c 0x0201).field.core.job? id.toNat = some j := (Core.job?_congr (by rw [hjobs]) _).trans hj
  obtain ⟨a, n, hbody⟩ := ringAppend_appends (c := c) hj0 hring hopen hdead hsegs hroom hc.size hc.moved hc.landed
  generalize hf : (s.taken c 0x0201).field = f at *
  have hq := f.core.requests_served (f.core.reqs true 2 (r.base + a) n ++ f.core.reqs true 2 r.base (d.length - n))
  have hqw : Within [0x04] [.mem] f.core (f.core.ringStores r a n (d.length - n)) := hq.within
  generalize f.core.ringStores r a n (d.length - n) = q at *
  have hsw : Within [] [.jobs] q (q.setRing id.toNat { r with bytes := r.bytes ++ d }) := (Within.refl _ _ q).jobs _
  have hqj : q.jobs = f.core.jobs := hqw.parts .jobs (by decide)
  have hsj : (q.setRing id.toNat { r with bytes := r.bytes ++ d }).job? id.toNat = some { j with ring := some { r with bytes := r.bytes ++ d } } :=
    (Core.job?_modJob q id.toNat (g := fun j => { j with ring := some { r with bytes := r.bytes ++ d } }) fun _ => rfl).trans
      (by rw [Core.job?_congr (congrArg JobSt.jobs hqj), hj0]; rfl)
  have hsl : (q.setRing id.toNat { r with bytes := r.bytes ++ d }).jobs.jobs.length = q.jobs.jobs.length := List.length_map ..
  generalize q.setRing id.toNat { r with bytes := r.bytes ++ d } = z at *
  have hzw := z.refreshRing_within
  generalize z.refreshRing = x at *
  have hw : Within [0x04, 0x05] [.mem, .jobs] f.core x := (((Within.refl _ _ f.core).next hqw).next hsw).next hzw
  have hxtime := hw.parts .etime (by decide)
  have hxq := hw.parts .cmdq (by decide)
  have hxj : x.jobs = z.jobs := hzw.parts .jobs (by decide)
  simp only [Part.same] at hxtime hxq
  obtain ⟨t, hexec, htd, ht⟩ := Cmd.runs_wrote (k := cmdJobLoadData c id.toNat 0xFF 0) (i := .jobRingAppend c id 0) (r := .ok 0) rfl hr
    (hc.header (by decide)) rfl (fun h => absurd (hc.host.symm.trans h.1) (by decide))
    (Cmd.lengthCheck_bulk (k := cmdJobLoadData c id.toNat 0xFF 0) hc List.mem_cons_self rfl rfl hmax)
    (BulkHeader.params (k := cmdJobLoadData c id.toNat 0xFF 0) hc)
    (by
      change ringAppend c id.toNat 0 (s.taken c 0x0201).field = _
      rw [hf]
      exact hbody)
    (.inl ⟨_, rfl⟩) (hxtime.trans htime)
    (by
      change (x.cmdq.done, x.cmdq.fspTx) = ((s.taken c 0x0201).field.core.cmdq.done, (s.taken c 0x0201).field.core.cmdq.fspTx)
      rw [hf, hxq])
  have htjobs : t.field.core.jobs = x.jobs := ht.rest.quiet.jobs
  refine ⟨t, hexec, ht.completed, ?_, by rw [htjobs, hxj, hsl, hqj, hjobs], ?_, ?_⟩
  · rw [Core.job?_congr (a := z) (b := t.field.core) (by rw [htjobs, hxj]), hsj]
    rfl
  · rw [htd]
    exact Eq.trans (b := f.dram.cells) rfl (congrArg Dram.cells hcells)
  · exact ((hout.mono (by decide)).trans (hw.regs.mono (by decide))).trans ((ht.regs.outside commandKeys_blocks).mono (by decide))

/-! ### The header of the load in front (R252, R258) -/

theorem JobBar.band_setBands (b : JobBar) (n cnt st m : Nat) :
    (b.setBands n cnt st).band m = if n ≤ m ∧ m < n + cnt then st else b.band m := by
  unfold JobBar.setBands
  induction cnt with
  | zero =>
    rw [if_neg (by omega)]
    rfl
  | succ cnt ih =>
    rw [List.range_succ, List.foldl_append, List.foldl_cons, List.foldl_nil]
    by_cases hm : m = n + cnt
    · subst hm
      rw [if_pos (by omega)]
      exact mget_mset _ _ _ _
    · have hne : ∀ x : JobBar, (x.setBand (n + cnt) st).band m = x.band m := fun x => mget_mset_ne _ _ hm
      rw [hne, ih]
      exact if_congr (by omega) rfl rfl
theorem Job.bar?_modBar (j : Job) (b : Nat) (g : JobBar → JobBar) : (j.modBar b g).bar? b = (j.bar? b).map g := by
  unfold Job.bar? Job.modBar
  simp only
  induction j.bars with
  | nil => rfl
  | cons e l ih =>
    rw [List.map_cons, List.find?_cons, List.find?_cons]
    by_cases h : (e.1 == b) = true
    · rw [if_pos h, h]
      rfl
    · rw [if_neg h, Bool.eq_false_of_not_eq_true h]
      exact ih
theorem Core.nextUnit_none {s : Core} (h : ∀ j ∈ s.jobs.jobs, j.ring = none) : s.nextUnit = none := by
  have hjobs : s.ringJobs = [] := by
    unfold Core.ringJobs
    simp only [List.append_eq_nil_iff, List.filter_eq_nil_iff]
    refine ⟨⟨?_, ?_⟩, ?_⟩
    all_goals
      intro j hj
      rw [h j hj]
      simp
  unfold Core.nextUnit
  rw [hjobs]
  rfl
/-- The bars that a change of one bar of a job touches. -/
theorem Core.bar?_modBar {s : Core} {id b : Nat} {j : Job} (g : JobBar → JobBar) (hj : s.job? id = some j) :
    ((s.modJob id fun j => j.modBar b g).job? id).bind (·.bar? b) = (j.bar? b).map g := by
  rw [Core.job?_modJob s id (g := fun j => j.modBar b g) fun _ => rfl, hj]
  exact j.bar?_modBar b g
theorem Core.setLoad_head {s : Core} {ld : Load} {rest : List Load} (new : Load) (h : s.jobs.loads = ld :: rest) :
    (s.setLoad ld new).jobs.loads.head? = some new := by
  unfold Core.setLoad
  simp [h, mapIf]
/-- A header that agrees with the job begins its stream. -/
theorem Core.loadHeader_begins {s : Core} {m : Dram} {ld : Load} {j : Job} {jb : JobBar} {h : SkHeader} (hj : s.job? ld.job = some j)
    (hbar : j.bar? ld.bar = some jb) (hlen : ld.data.length ≥ 16) (hh : skHeader ld.data false = some h) (hb : h.bar = ld.bar)
    (hdpi : h.dpi = jb.dpi) (hwidth : h.width = jb.width) (hfit : ld.offset + h.lines ≤ jb.planeLines)
    (hbands : ∀ i, i < h.lines / 4 → jb.band (ld.offset / 4 + i) = 0) :
    s.loadHeader m ld = ((s.reads m 2 ld.staging 16).modJob ld.job fun j => j.modBar ld.bar fun b =>
      b.setBands (ld.offset / 4) (h.lines / 4) 1).setLoad ld { ld with pos := 16, stream := some (skStart h), first := ld.offset / 4,
                                                                       count := h.lines / 4 } := by
  have hany : (List.range (h.lines / 4)).any (fun i => jb.band (ld.offset / 4 + i) != 0) = false :=
    List.any_eq_false.2 fun i hi => by
      rw [hbands i (List.mem_range.1 hi)]
      decide
  unfold Core.loadHeader
  simp only [hj, Option.bind_some, hbar, hh, hany]
  rw [if_neg (Nat.not_lt.2 hlen), if_neg (by tauto), if_neg (by decide), if_neg (Nat.not_lt.2 hfit)]
theorem skelreStreamHeader_answers {s : State} {ld : Load} {rest : List Load} {j : Job} {jb : JobBar} {h : SkHeader}
    (hboot : s.field.core.bootState ≠ 1) (hsound : DramSound s) (hrings : ∀ j' ∈ s.field.core.jobs.jobs, j'.ring = none)
    (hloads : s.field.core.jobs.loads = ld :: rest) (hj : s.field.core.job? ld.job = some j) (hbar : j.bar? ld.bar = some jb)
    (hnew : ld.stream = none) (hlen : ld.data.length ≥ 16) (hh : skHeader ld.data false = some h) (hb : h.bar = ld.bar)
    (hdpi : h.dpi = jb.dpi) (hwidth : h.width = jb.width) (hfit : ld.offset + h.lines ≤ jb.planeLines)
    (hbands : ∀ i, i < h.lines / 4 → jb.band (ld.offset / 4 + i) = 0) : Answers .skelreStreamHeader s fun t =>
         t.field.core.jobs.loads.head? = some { ld with pos := 16, stream := some (skStart h),
                                                        first := ld.offset / 4, count := h.lines / 4 } ∧
         (∀ i, i < h.lines / 4 → ((t.field.core.job? ld.job).bind (·.bar? ld.bar)).map (·.band (ld.offset / 4 + i)) = some 1) ∧
         SameRegs activateKeys s.field.core t.field.core ∧ t.field.core.cmdq = s.field.core.cmdq ∧ CoreOnly s t := by
  refine answers_of_onRunningField (g := doSkelreStreamHeader) rfl hboot ?_
  have hdo : doSkelreStreamHeader s.field = s.field.onCore fun c => c.loadHeader s.field.dram ld := by
    unfold doSkelreStreamHeader Field.onCore
    dsimp only
    rw [Core.nextUnit_none hrings, hloads]
    simp only
    rw [hnew, hsound.stalls]
    rfl
  have hcore := CoreOnly.onCore s fun c => c.loadHeader s.field.dram ld
  rw [hdo]
  rw [State.onCore] at hcore
  have hq := s.field.core.reads_served 2 ld.staging 16 hsound.poison
  have hbegins := Core.loadHeader_begins (m := s.field.dram) hj hbar hlen hh hb hdpi hwidth hfit hbands
  simp only [Field.onCore]
  rw [hbegins]
  have hqj : (s.field.core.reads s.field.dram 2 ld.staging 16).jobs = s.field.core.jobs := hq.parts .jobs (by decide)
  have hqc : (s.field.core.reads s.field.dram 2 ld.staging 16).cmdq = s.field.core.cmdq := hq.parts .cmdq (by decide)
  generalize s.field.core.reads s.field.dram 2 ld.staging 16 = q at *
  have hbars := Core.bar?_modBar (s := q) (fun b => b.setBands (ld.offset / 4) (h.lines / 4) 1)
    ((Core.job?_congr (by rw [hqj]) ld.job).trans hj) (b := ld.bar)
  generalize hm : q.modJob ld.job (fun j => j.modBar ld.bar fun b => b.setBands (ld.offset / 4) (h.lines / 4) 1) = m at *
  have hmloads : m.jobs.loads = ld :: rest := by
    rw [← hm, ← hloads, ← hqj]
    rfl
  have hmregs : SameRegs activateKeys q m := .of_regs (by rw [← hm]; rfl)
  have hmc : m.cmdq = q.cmdq := by
    rw [← hm]
    rfl
  refine ⟨Core.setLoad_head _ hmloads, fun i hi => ?_, (hq.regs.trans hmregs).trans (.of_regs rfl), hmc.trans hqc, hcore⟩
  change ((m.job? ld.job).bind (·.bar? ld.bar)).map (·.band (ld.offset / 4 + i)) = some 1
  rw [hbars, hbar, Option.map_some, Option.map_some, JobBar.band_setBands, if_pos (by omega)]

/-! ### A STORED block of the load in front (R259 to R274) -/

theorem xbcCounter_block (k : Nat) : (xbcCounter k).block 0 ∈ [0x06] := by
  unfold xbcCounter
  split
  · decide
  · split
    · decide
    · split <;> decide
theorem Core.countTile_within (s : Core) (kind err : Nat) : Within [0x06] [] s (s.countTile kind err) := by
  unfold Core.countTile
  extract_lets t
  have ht : Within [0x06] [] s t := .ite (fun _ => .refl _ _ s) fun _ => (Within.refl _ _ s).inc _ (xbcCounter_block _)
  exact .ite (fun _ => ht.wr _) fun _ => ht
theorem storeTiles_within (jb : JobBar) (n i : Nat) (bs : Bytes) (f : Field) : Within [0x06] [] f.core (storeTiles jb n i bs f).2.core := by
  induction n generalizing i bs f with
  | zero => exact .refl _ _ _
  | succ n ih =>
    unfold storeTiles
    split
    · exact .refl _ _ _
    · split
      next tb kind err _ =>
        exact (f.core.countTile_within kind err).trans
          (ih (i + 1) (bs.drop 16) ⟨f.core.countTile kind err, f.dram.write (jb.tileAddr (i / tilesOf jb.width) (i % tilesOf jb.width)) tb⟩)
/-- What the decoding of a block counts and shows. -/
def Core.countBlock (s : Core) (bar n : Nat) : Core :=
  ((s.inc SKD_BLOCK_CNT.COUNT).add64 SKD_BYTES_LO.BYTES SKD_BYTES_HI.BYTES 0 n).wrs [(SKD_STATUS.SOURCE, 0), (SKD_STATUS.BAR, bar)]
theorem Core.countBlock_spec (s : Core) (bar n : Nat) : Within [0x05] [] s (s.countBlock bar n) ∧
    (s.countBlock bar n).rd SKD_BLOCK_CNT.COUNT = satU SKD_BLOCK_CNT.COUNT.width (s.rd SKD_BLOCK_CNT.COUNT + 1) := by
  have hinc : Within [0x05] [] s (s.inc SKD_BLOCK_CNT.COUNT) := (Within.refl _ _ s).inc _
  refine ⟨((hinc.wr2 _).wrs), ?_⟩
  unfold Core.countBlock Core.add64 Core.wr2
  simp only [Core.wrs, List.foldl_cons, List.foldl_nil]
  rw [Core.rd_wr_ne _ _ _ _ _ _ (by decide), Core.rd_wr_ne _ _ _ _ _ _ (by decide), Core.rd_wr_ne _ _ _ _ _ _ (by decide),
    Core.rd_wr_ne _ _ _ _ _ _ (by decide), Core.rd_inc_self]
theorem skBlockErr_stored {bar n : Nat} (hpos : 0 < n) (hmax : n ≤ 4194304) : skBlockErr ⟨0, bar, 0, n, n⟩ bar = none := by
  unfold skBlockErr
  dsimp only
  rw [if_neg (by omega), if_neg (by omega), if_neg (by omega), if_neg (by omega), if_neg (by omega)]
/-- A stream behind `p` more bytes, of which `left` have not filled a tile. -/
def SkStream.after (st : SkStream) (p left : Bytes) : SkStream :=
  { st with total := st.total + p.length, hist := (p.reverse ++ st.hist).take histMax, tile := left }
/-- A load behind a block of `size` bytes. -/
def Load.after (ld : Load) (size : Nat) (st : SkStream) : Load := { ld with pos := ld.pos + size, stream := some st }
/-- What a decoded block leaves of the field side: its tiles stored, bands that it has filled VALID, and its load behind it. -/
def storedBlock (f : Field) (jb : JobBar) (ld : Load) (st : SkStream) (p : Bytes) (rs : List (Nat × List DramReq)) (i first cnt : Nat) : Field :=
  let s := (f.core.reads f.dram 2 (ld.staging + ld.pos) (16 + p.length)).countBlock ld.bar p.length
  let x := storeTiles jb (p.length / 16 + 1) i (st.tile ++ p) { f with core := s.requests rs }
  let s := x.2.core.modJob ld.job fun j => j.modBar ld.bar fun b => b.setBands first cnt 2
  { x.2 with core := s.setLoad ld (ld.after (16 + p.length) (st.after p x.1)) }
/-- A STORED block whose CRC is right, with nothing in its way. -/
theorem loadBlock_stores {f : Field} {ld : Load} {j : Job} {jb : JobBar} {st : SkStream} {p : Bytes}
    (hj : f.core.job? ld.job = some j) (hbar : j.bar? ld.bar = some jb) (hst : ld.stream = some st)
    (hblock : skBlock (ld.data.drop ld.pos) = ⟨0, ld.bar, 0, p.length, p.length⟩) (hpos : 0 < p.length) (hmax : p.length ≤ 4194304)
    (hlen : 16 + p.length ≤ (ld.data.drop ld.pos).length) (hfit : st.total + p.length ≤ streamBytes st.width st.lines)
    (hp : ((ld.data.drop ld.pos).drop 12).take p.length = p) (hcrc : crc32c p = leAt (ld.data.drop ld.pos) (12 + p.length) 4)
    (hgo : f.core.stalls (ld.staging + ld.pos) (16 + p.length) = false)
    (hgo' : ∀ i k, f.core.anyStalls (f.core.tileReqs jb i k) = false)
    (hgood : f.core.bad f.dram (ld.staging + ld.pos) (16 + p.length) = false) :
    ∃ rs i first cnt, loadBlock f ld false = storedBlock f jb ld st p rs i first cnt := by
  have herr := skBlockErr_stored (bar := ld.bar) hpos hmax
  have hout : ((p.reverse ++ st.hist).take p.length).reverse = p := by
    rw [List.take_left' (List.length_reverse ..), List.reverse_reverse]
  have hsize : skBlockSize ⟨0, ld.bar, 0, p.length, p.length⟩ = 16 + p.length :=
    if_neg (fun h : (0 : Nat) = 0xFF => absurd h (by decide))
  have hbytes : ∀ b, skPayload 0 p.length b st.total p st.hist = ⟨p.reverse ++ st.hist, p.length, none⟩ := fun b => if_pos rfl
  refine ⟨f.core.tileReqs jb (ld.first * tilesOf st.width + st.total / 16) ((st.tile.length + p.length) / 16),
    ld.first * tilesOf st.width + st.total / 16, ld.first + st.total / bandBytes st.width,
    (st.total + p.length) / bandBytes st.width - st.total / bandBytes st.width, ?_⟩
  unfold loadBlock
  simp only [hst, hj, Option.bind_some, hbar, hblock, herr, hsize, hp, hbytes, hgo, hgo', hgood, Bool.or_false, hout, hcrc]
  rw [if_neg (by omega), if_neg (by decide), if_neg (by omega), if_neg (by omega), if_neg (by decide)]
  simp only [Bool.false_eq_true, if_false, ne_eq, not_true]
  rfl
theorem storedBlock_spec {f : Field} (jb : JobBar) {ld : Load} (st : SkStream) (p : Bytes) (rs : List (Nat × List DramReq)) (i first cnt : Nat)
    {rest : List Load} {t : Field} (hpoison : f.dram.poison = []) (hloads : f.core.jobs.loads = ld :: rest)
    (ht : t = storedBlock f jb ld st p rs i first cnt) :
    (∃ left, t.core.jobs.loads.head? = some (ld.after (16 + p.length) (st.after p left))) ∧
    t.core.rd SKD_BLOCK_CNT.COUNT = satU SKD_BLOCK_CNT.COUNT.width (f.core.rd SKD_BLOCK_CNT.COUNT + 1) ∧ t.core.cmdq = f.core.cmdq := by
  rw [ht]
  unfold storedBlock
  extract_lets s x z
  have hq := f.core.reads_served 2 (ld.staging + ld.pos) (16 + p.length) hpoison
  obtain ⟨hcw, hcount⟩ := (f.core.reads f.dram 2 (ld.staging + ld.pos) (16 + p.length)).countBlock_spec ld.bar p.length
  have hqs : Within [0x04, 0x05] [.mem] f.core s := ((Within.refl _ _ f.core).next hq.within).next hcw
  have hs : s.rd SKD_BLOCK_CNT.COUNT = satU SKD_BLOCK_CNT.COUNT.width (f.core.rd SKD_BLOCK_CNT.COUNT + 1) := by
    rw [← hq.regs SKD_BLOCK_CNT.COUNT 0 (by decide)]
    exact hcount
  have htiles : Within [0x06] [] (s.requests rs) x.2.core :=
    storeTiles_within jb (p.length / 16 + 1) i (st.tile ++ p) { f with core := s.requests rs }
  have hx : Within [0x04, 0x06] [.mem] s x.2.core := ((Within.refl _ _ s).next (s.requests_served rs).within).next htiles
  have hz : Within [] [.jobs] x.2.core z := (Within.refl _ _ _).jobs _
  have hzloads : z.jobs.loads = x.2.core.jobs.loads := rfl
  clear_value z x s
  have hzl : z.jobs.loads = ld :: rest := by
    rw [hzloads, (hx.parts .jobs (by decide) : x.2.core.jobs = s.jobs), (hqs.parts .jobs (by decide) : s.jobs = f.core.jobs), hloads]
  have hsz : Within [0x04, 0x06] [.mem, .jobs] s z := ((Within.refl _ _ s).next hx).next hz
  refine ⟨⟨x.1, Core.setLoad_head _ hzl⟩, ?_, ?_⟩
  · have hset : (z.setLoad ld (ld.after (16 + p.length) (st.after p x.1))).rd SKD_BLOCK_CNT.COUNT = z.rd SKD_BLOCK_CNT.COUNT :=
      Core.rd_congr rfl _ _
    rw [hset, hsz.rd _ _ (by decide), hs]
  · exact (hsz.parts .cmdq (by decide) : z.cmdq = s.cmdq).trans (hqs.parts .cmdq (by decide))
theorem skelreBlockDecode_answers {s : State} {ld : Load} {rest : List Load} {j : Job} {jb : JobBar} {st : SkStream} {n : Nat}
    (hboot : s.field.core.bootState ≠ 1) (hsound : DramSound s) (hrings : ∀ j' ∈ s.field.core.jobs.jobs, j'.ring = none)
    (hloads : s.field.core.jobs.loads = ld :: rest) (hj : s.field.core.job? ld.job = some j) (hbar : j.bar? ld.bar = some jb)
    (hst : ld.stream = some st) (hblock : skBlock (ld.data.drop ld.pos) = ⟨0, ld.bar, 0, n, n⟩) (hpos : 0 < n) (hmax : n ≤ 4194304)
    (hlen : 16 + n ≤ (ld.data.drop ld.pos).length) (hfit : st.total + n ≤ streamBytes st.width st.lines)
    (hcrc : crc32c (((ld.data.drop ld.pos).drop 12).take n) = leAt (ld.data.drop ld.pos) (12 + n) 4) :
    Answers (.skelreBlockDecode none) s fun t =>
         (∃ ld' st', t.field.core.jobs.loads.head? = some ld' ∧ ld'.pos = ld.pos + 16 + n ∧ ld'.stream = some st' ∧
           st'.total = st.total + n ∧
           st'.hist = ((((ld.data.drop ld.pos).drop 12).take n).reverse ++ st.hist).take 262144) ∧
         t.field.core.rd SKD_BLOCK_CNT.COUNT = satU SKD_BLOCK_CNT.COUNT.width (s.field.core.rd SKD_BLOCK_CNT.COUNT + 1) ∧
         t.field.core.cmdq = s.field.core.cmdq ∧ t.host = s.host := by
  have hplen : (((ld.data.drop ld.pos).drop 12).take n).length = n := by
    rw [List.length_take, List.length_drop]
    omega
  generalize hp : ((ld.data.drop ld.pos).drop 12).take n = p at *
  subst hplen
  refine answers_of_onRunningField (g := fun f => (doSkelreBlockDecode none f).spent) rfl hboot ?_
  obtain ⟨rs, i, first, cnt, hstores⟩ := loadBlock_stores (f := s.field) hj hbar hst hblock hpos hmax hlen hfit hp hcrc (hsound.stalls _ _)
    (hsound.tileReqs_go jb) (hsound.bad _ _)
  have hdo : doSkelreBlockDecode none s.field = storedBlock s.field jb ld st p rs i first cnt := by
    unfold doSkelreBlockDecode
    extract_lets bad
    rw [Core.nextUnit_none hrings, hloads]
    simp only
    rw [hst]
    exact hstores
  obtain ⟨⟨left, hhead⟩, hcount, hcmdq⟩ := storedBlock_spec jb st p rs i first cnt hsound.poison hloads hdo
  exact ⟨⟨_, _, hhead, (Nat.add_assoc ..).symm, rfl, rfl, rfl⟩, hcount, hcmdq, rfl⟩
/-- Settles O46. -/
theorem jobDataIsStagedAndDecoded : Obligations.JobDataIsStagedAndDecoded := by
  unfold Obligations.JobDataIsStagedAndDecoded
  refine ⟨fun c id j s hj => ⟨?_, ?_, ?_⟩, fun s ld rest j jb hboot hsound hrings hloads hj hbar => ⟨?_, ?_⟩⟩
  · intro bar offset jb d base x hc hr hff hbar hst halign hin hmax halloc hroom
    exact jobLoadData_answers hj hc hr hff hbar hst halign hin hmax halloc hroom
  · intro mask size base hist x y hc hr hmask hbars halign hmin hmax hroom hst hring halloc halloc'
    exact jobStreamOpen_answers hj hc hr hmask hbars halign hmin hmax hroom hst hring halloc halloc'
  · intro r d hc hr hring hopen hdead hsegs hroom hmax
    exact jobRingAppend_answers hj hc hr hring hopen hdead hsegs hroom hmax
  · intro h hnew hlen hh hb hdpi hwidth hfit hbands
    exact skelreStreamHeader_answers hboot hsound hrings hloads hj hbar hnew hlen hh hb hdpi hwidth hfit hbands
  · intro st n hst hblock hpos hmax hlen hfit hcrc
    exact skelreBlockDecode_answers hboot hsound hrings hloads hj hbar hst hblock hpos hmax hlen hfit hcrc

end Sys2Proof.Machine
end

section
/-! PROOF. The press settings (O47; spec/07_nozzle_path_and_screening.md R313 to R320). -/

namespace Sys2Proof.Machine

set_option Elab.async false

/-- READY, with the elytron up and SERVICE for the host, and some registers written. -/
def hostReady (l : List (Fld × Nat)) : State :=
  State.reset.onCore fun c =>
    ({ c with ely := { c.ely with h2f := 4, f2h := 2 } } : Core).wrs ([(SYS_BOOT.STATE, 7), (CMDQ_PRIV.HOST, 3)] ++ l)
/-- READY, with bar 0 present but no head, and GEO_TWIN_RX.COUNT of bar 0 at 1 where no entry has a twin. -/
def strayTwin : State := hostReady [(GEO_PRESS.BAR_MASK, 1), (GEO_TWIN_RX.COUNT, 1)]
/-- One entry, DEAD. -/
def deadEntry : Bytes := [0, 0, 0, 0, 0, 0x10, 0, 0]
/-- The host's NOZZLE_MAP_LOAD of it. -/
def mapCall : Call := ⟨.host, 1, 5, 0, false, true, 0, 0, 12, 1, 0x1000, none, ⟨[⟨0x2000, 8, 0⟩], deadEntry, none⟩⟩
theorem mapCall_bulk : BulkHeader mapCall 12 deadEntry :=
  ⟨rfl, rfl, rfl, rfl, rfl, by decide, by decide, by decide, rfl, rfl, rfl, by decide⟩
theorem strayTwin_ready : strayTwin.field.core.bootState = 7 ∧ strayTwin.field.core.imagoDead = false ∧ strayTwin.host.powered = true ∧
    strayTwin.mayTake 1 = true ∧ strayTwin.field.core.elyUp = true ∧ strayTwin.dupTag 5 = false ∧ strayTwin.onTheWay 1 = false ∧
    strayTwin.field.core.mayStart strayTwin.field.core.cmdq.waiting (inLine mapCall) = true ∧ queueTakes mapCall 0x0402 = true ∧
    needBy mapCall 0x0402 2 ≤ strayTwin.field.core.priv .host ∧ strayTwin.field.core.barPresent 0 = true ∧
    strayTwin.field.core.press.nsm = [] ∧ strayTwin.field.core.csv.stages = [] ∧ strayTwin.field.core.headOfKey 0 0 = none ∧
    strayTwin.field.core.rd GEO_TWIN_RX.COUNT = 1 := by decide +kernel
theorem strayTwin_loads : (match exec (.nozzleMapLoad mapCall 0 0 1) strayTwin with
    | .next t => t.field.core.rd GEO_TWIN_RX.COUNT
    | _ => 1) = 0 := by decide +kernel
/-- Refutes O47: a load of entries of no head is said to change no register but those of commands and the log, where one that makes
an entry DEAD rebuilds the receive tables (R320). At `strayTwin` that sets GEO_TWIN_RX.COUNT of bar 0 from 1, at which it stands with
no twin in force, to 0. -/
theorem not_pressSettingsTakeForce : ¬ Obligations.PressSettingsTakeForce := by
  unfold Obligations.PressSettingsTakeForce
  intro h
  obtain ⟨hboot, hdead, hpow, htake, hely, hdup, hway, hmay, hqueue, hpriv, hbar, hnsm, hstages, hkey, hone⟩ := strayTwin_ready
  have hruns : Runs mapCall 0x0402 2 strayTwin := ⟨hboot, ⟨hdead, hpow, htake, hely, hdup, hway, hmay⟩, hqueue, hpriv⟩
  obtain ⟨-, -, hload⟩ := h mapCall strayTwin
  obtain ⟨hfree, -⟩ := hload 0 0 1 deadEntry mapCall_bulk hruns hbar (by decide) (by decide) rfl
    (fun i hi => by
      obtain rfl : i = 0 := by
        have : i < 1 := hi
        omega
      decide)
    (by rw [hnsm]; intro e he; cases he) hstages
  obtain ⟨t, ht, -, -, -, hframe⟩ := hfree fun i hi => by
    obtain rfl : i = 0 := by
      have : i < 1 := hi
      omega
    exact hkey
  have hzero := strayTwin_loads
  rw [show (BitVec.ofNat 8 (0 : Fin 8).val) = 0 from rfl] at ht
  rw [ht] at hzero
  exact absurd (hzero.symm.trans ((hframe.regs GEO_TWIN_RX.COUNT 0 (by decide)).trans hone)) (by decide)

end Sys2Proof.Machine
end

section
/-! PROOF. Firing permission and the pacing loop: the causes of the bars, the SAFE channels, and the loop's law. -/

namespace Sys2Proof.Machine

set_option Elab.async false

/-! ### The causes of a bar (R391) -/

theorem Within.sameRegs {rs : List Part} {a b : Core} (h : Within [] rs a b) (ks : List Nat) : SameRegs ks a b :=
  fun f n _ => h.rd f n List.not_mem_nil
theorem SameRegs.causes {ks : List Nat} {a b : Core} (h : SameRegs ks a b) {n : Nat} (hn : SPGB_FIRE.CAUSE.key n ∉ ks) :
    b.causes n = a.causes n := by
  rw [Core.causes, h _ _ hn, Core.causes]
/-- The keys of one bar's SPG_b_FIRE are among those of all the bars. -/
theorem fireKeys_cause {b : Nat} (hb : b < 8) : SPGB_FIRE.CAUSE.key b ∈ fireKeys ∧ SPGB_FIRE.FIRING.key b ∈ fireKeys := by
  revert b
  decide
theorem fireKeys_free : ∀ k ∈ fireKeys, k ∉ commandKeys := by decide
theorem fireKey_ne : ∀ b < 8, ∀ b' < 8, b ≠ b' →
    SPGB_FIRE.CAUSE.key b ∉ [SPGB_FIRE.CAUSE.key b', SPGB_FIRE.FIRING.key b'] ∧
    SPGB_FIRE.FIRING.key b ∉ [SPGB_FIRE.CAUSE.key b', SPGB_FIRE.FIRING.key b'] := by decide
/-- Causes set on one bar: its CAUSE and FIRING follow, and no other register does. -/
theorem Core.setCauses_spec (s : Core) {b : Nat} (hb : b < 8) (c : Nat) :
    (s.setCauses b c).causes b = 2 * (c / 2 % 128) ∧ (s.setCauses b c).rd SPGB_FIRE.FIRING b = b2n (c / 2 % 128 == 0) ∧
    SameRegs [SPGB_FIRE.CAUSE.key b, SPGB_FIRE.FIRING.key b] s (s.setCauses b c) := by
  have hne : SPGB_FIRE.CAUSE.key b ≠ SPGB_FIRE.FIRING.key b := by
    revert b
    decide
  unfold Core.setCauses
  extract_lets t
  have ht : Within [] [.hlk] s t := (Within.refl _ _ s).foldl _ fun h _ s => (Within.refl _ _ s).next (s.countFire_within h)
  refine ⟨?_, ?_, ((ht.sameRegs _).wr _ (by simp)).wr _ (by simp)⟩
  · rw [Core.causes, Core.rd_wr_ne _ _ _ _ _ _ hne, Core.rd_wr]
    rfl
  · rw [Core.rd_wr]
    cases c / 2 % 128 == 0 <;> rfl

theorem fireKey_event : ∀ n < 8, SPGB_FIRE.CAUSE.key n ∉ [LOG_EVT_OVWR_CNT.COUNT.key 0] ∧
    SPGB_FIRE.FIRING.key n ∉ [LOG_EVT_OVWR_CNT.COUNT.key 0] := by decide

/-- Each of the bars `l` takes the causes that `c` makes of those it had. -/
def Core.mapCauses (s : Core) (l : List Nat) (c : Nat → Nat) : Core := l.foldl (fun s b => s.setCauses b (c (s.causes b))) s
/-- A bar named ends with the causes that `c` makes of some, and FIRING where these are none; the others keep theirs. -/
theorem Core.mapCauses_spec {l : List Nat} (hl : ∀ b ∈ l, b < 8) (c : Nat → Nat) (s : Core) :
    SameRegs fireKeys s (s.mapCauses l c) ∧
    ∀ b, b < 8 →
      (b ∈ l → ∃ m, (s.mapCauses l c).causes b = 2 * (c m / 2 % 128) ∧
        (s.mapCauses l c).rd SPGB_FIRE.FIRING b = b2n (c m / 2 % 128 == 0)) ∧
      (b ∉ l → (s.mapCauses l c).causes b = s.causes b ∧ (s.mapCauses l c).rd SPGB_FIRE.FIRING b = s.rd SPGB_FIRE.FIRING b) := by
  induction l generalizing s with
  | nil => exact ⟨.refl _ s, fun b _ => ⟨(nomatch ·), fun _ => ⟨rfl, rfl⟩⟩⟩
  | cons b0 l ih =>
    have hb0 : b0 < 8 := hl b0 List.mem_cons_self
    obtain ⟨hcause, hfire, hregs⟩ := s.setCauses_spec hb0 (c (s.causes b0))
    obtain ⟨ihregs, ihcause⟩ := ih (fun b hb => hl b (List.mem_cons_of_mem _ hb)) (s.setCauses b0 (c (s.causes b0)))
    have hfold : s.mapCauses (b0 :: l) c = (s.setCauses b0 (c (s.causes b0))).mapCauses l c := rfl
    rw [hfold]
    refine ⟨(hregs.mono ?_).trans ihregs, fun b hb => ⟨fun hm => ?_, fun hm => ?_⟩⟩
    · simp [fireKeys_cause hb0]
    · by_cases h : b ∈ l
      · exact (ihcause b hb).1 h
      · obtain rfl : b = b0 := (List.mem_cons.1 hm).resolve_right h
        obtain ⟨hc, hf⟩ := (ihcause b hb).2 h
        exact ⟨s.causes b, hc.trans hcause, hf.trans hfire⟩
    · obtain ⟨h0, h⟩ := not_or.1 (mt List.mem_cons.2 hm)
      obtain ⟨hc, hf⟩ := (ihcause b hb).2 h
      obtain ⟨hk, hk'⟩ := fireKey_ne b hb b0 hb0 h0
      exact ⟨hc.trans (hregs.causes hk), hf.trans (hregs _ _ hk')⟩
/-- The events and keys of a change of causes. -/
def causeKeys : List Nat := LOG_EVT_OVWR_CNT.COUNT.key 0 :: fireKeys
/-- A cause is set on the bars named, and the others keep theirs. -/
structure CauseSet (l : List Nat) (i : Nat) (a b : Core) : Prop where
  set : ∀ n, n < 8 → n ∈ l → (b.causes n).testBit i = true
  rest : ∀ n, n < 8 → n ∉ l → b.causes n = a.causes n
  regs : SameRegs causeKeys a b
theorem testBit_cause {i : Nat} (h1 : 1 ≤ i) (h7 : i ≤ 7) (m : Nat) : (2 * ((m ||| 2 ^ i) / 2 % 128)).testBit i = true := by
  obtain ⟨j, rfl⟩ : ∃ j, i = j + 1 := ⟨i - 1, by omega⟩
  rw [Nat.testBit_succ, Nat.mul_div_cancel_left _ (by decide), show (128 : Nat) = 2 ^ 7 from rfl, Nat.testBit_mod_two_pow, ← Nat.testBit_succ]
  simp
  omega
theorem Core.setCause_spec (s : Core) {bs : List Nat} (hb : ∀ b ∈ bs, b < 8) {i : Nat} (h1 : 1 ≤ i) (h7 : i ≤ 7) :
    CauseSet bs i s (s.setCause bs i) := by
  have hnew := Core.mapCauses_spec (l := bs.filter fun b => !(s.causes b).testBit i)
    (fun b h => hb b (List.mem_of_mem_filter h)) (· ||| 2 ^ i) s
  obtain ⟨hregs, hcauses⟩ := hnew
  have hset : CauseSet bs i s (s.mapCauses (bs.filter fun b => !(s.causes b).testBit i) (· ||| 2 ^ i)) := by
    refine ⟨fun n hn hm => ?_, fun n hn hm => ((hcauses n hn).2 fun h => hm (List.mem_of_mem_filter h)).1,
      hregs.mono (List.subset_cons_self _ _)⟩
    by_cases h : (s.causes n).testBit i = true
    · rw [((hcauses n hn).2 fun hf => by simp [h] at hf).1, h]
    · obtain ⟨m, hm', -⟩ := (hcauses n hn).1 (List.mem_filter.2 ⟨hm, by simp [h]⟩)
      rw [hm', testBit_cause h1 h7]
  unfold Core.setCause
  extract_lets new t
  split
  · exact hset
  · have hemit := (SameRegs.refl [LOG_EVT_OVWR_CNT.COUNT.key 0] t).emit 0x0801 ((new.foldl (fun m b => m + 2 ^ b) 0) + at_ 1 i) 0
    exact ⟨fun n hn hm => (congrArg (Nat.testBit · i) (hemit.causes (fireKey_event n hn).1)).trans (hset.set n hn hm),
      fun n hn hm => (hemit.causes (fireKey_event n hn).1).trans (hset.rest n hn hm), hset.regs.trans (hemit.mono (by decide))⟩
/-- What changes no register keeps the causes set. -/
theorem CauseSet.next {l : List Nat} {i : Nat} {rs : List Part} {a b c : Core} (h : CauseSet l i a b) (hw : Within [] rs b c) :
    CauseSet l i a c := by
  have hc : ∀ n, c.causes n = b.causes n := fun n => (hw.sameRegs []).causes List.not_mem_nil
  exact ⟨fun n hn hm => (congrArg (Nat.testBit · i) (hc n)).trans (h.set n hn hm), fun n hn hm => (hc n).trans (h.rest n hn hm),
    h.regs.trans (hw.sameRegs _)⟩
theorem stopBars_spec (s : Core) {bs : List Nat} (hb : ∀ b ∈ bs, b < 8) {i : Nat} (h1 : 1 ≤ i) (h7 : i ≤ 7) :
    CauseSet bs i s (stopBars bs i s) := by
  refine (s.setCause_spec hb h1 h7).next (rs := [.hlk]) ?_
  unfold stopBars
  extract_lets t
  refine (Within.refl _ _ t).foldl _ fun l _ s => ?_
  extract_lets slots
  exact .ite (fun _ => .refl _ _ s) fun _ => ((Within.refl _ _ s).next (s.setLn_within _ _)).next (Core.sendBlock_within _ _ _)

/-! ### FIRE_ENABLE and STOP_FIRE (R392, R393) -/

/-- The bars that BAR_MASK names, where it names none that is absent. -/
theorem Core.namedBars_eq (s : Core) (mask : Byte) (h : ∀ b : Fin 8, mask.toNat.testBit b.val = true → s.barPresent b.val = true) :
    ∃ bs, s.namedBars mask.toNat = some bs ∧ (∀ b ∈ bs, b < 8) ∧ ∀ b, b < 8 → (b ∈ bs ↔ named mask b s = true) := by
  by_cases h0 : mask = 0
  · subst h0
    refine ⟨s.bars, rfl, fun b hb => s.mem_bars_lt hb, fun b hb => ?_⟩
    simp [Core.bars, named, hb]
  · have hm : mask.toNat ≠ 0 := fun hz => h0 (BitVec.eq_of_toNat_eq hz)
    have hall : (maskBits 8 mask.toNat).all s.barPresent = true :=
      List.all_eq_true.2 fun b hb => h ⟨b, mem_maskBits_lt hb⟩ (List.mem_filter.1 hb).2
    refine ⟨maskBits 8 mask.toNat, by rw [Core.namedBars, if_neg hm, if_pos hall], fun b hb => mem_maskBits_lt hb, fun b hb => ?_⟩
    rw [named, if_neg h0]
    simp [maskBits, hb]
/-- FIRE_ENABLE 1 with nothing standing against it: no cause is left on the bars named, which fire. -/
theorem fireEnable_clears {s : Core} {mask : Nat} {bs : List Nat} (hbs : s.namedBars mask = some bs) (hb : ∀ b ∈ bs, b < 8)
    (ha : s.rd SPG_STATUS.SAFE_A = 1) (hb' : s.rd SPG_STATUS.SAFE_B = 1) (hd : s.rd SPG_STATUS.SAFE_DISC = 0)
    (htrip : s.rd THM_STATUS.TRIP = 0) (hlost : s.rd POS_WEB_STATUS.LOST = 0) (hlock : s.rd SPG_STATUS.LOCK = 1)
    (hidle : ∀ b ∈ bs, (s.causes b).testBit 7 = false) :
    ∃ x, fireEnable mask 1 s = (.ok 0, x) ∧ Within [0x11, 0x1B] [.hlk, .cmdq] s x ∧ SameRegs causeKeys s x ∧
      ∀ b, b < 8 → (b ∈ bs → x.causes b = 0 ∧ x.rd SPGB_FIRE.FIRING b = 1) ∧ (b ∉ bs → x.causes b = s.causes b) := by
  have hkept : bs.foldl (fun m b => m ||| s.stuckCauses (s.causes b)) 0 = 0 := by
    have hstuck : ∀ b ∈ bs, s.stuckCauses (s.causes b) = 0 := fun b hm => by
      have h7 := Nat.and_two_pow (s.causes b) 7
      rw [hidle b hm] at h7
      simpa [Core.stuckCauses, Core.safeOk, Core.rdb, ha, hb', hd, htrip, hlost] using h7
    clear hbs hidle hb
    induction bs with
    | nil => rfl
    | cons b bs ih =>
      rw [List.foldl_cons, hstuck b List.mem_cons_self]
      exact ih fun b' h => hstuck b' (List.mem_cons_of_mem _ h)
  obtain ⟨hregs, hcauses⟩ := Core.mapCauses_spec hb (fun _ => 0) s
  have hclear : Within [0x11, 0x1B] [.hlk, .cmdq] s (s.mapCauses bs fun _ => 0) :=
    (Within.refl _ _ s).foldl _ fun b hbb s => (Within.refl _ _ s).next (s.setCauses_within _ (hb b hbb))
  have hsync := (s.mapCauses bs fun _ => 0).syncInhibit_within s
  have hs : Within [0x11, 0x1B] [.hlk, .cmdq] s (s.withInhibit fun s => bs.foldl (fun s b => s.setCauses b 0) s) := hclear.next hsync
  have hsregs : SameRegs causeKeys s (s.withInhibit fun s => bs.foldl (fun s b => s.setCauses b 0) s) :=
    (hregs.mono (List.subset_cons_self _ _)).trans (hsync.sameRegs _)
  have hscauses : ∀ b, b < 8 → (b ∈ bs → (s.withInhibit fun s => bs.foldl (fun s b => s.setCauses b 0) s).causes b = 0 ∧
      (s.withInhibit fun s => bs.foldl (fun s b => s.setCauses b 0) s).rd SPGB_FIRE.FIRING b = 1) ∧
      (b ∉ bs → (s.withInhibit fun s => bs.foldl (fun s b => s.setCauses b 0) s).causes b = s.causes b) := fun b hbl => by
    have hsame := (hsync.sameRegs []).causes (n := b) List.not_mem_nil
    refine ⟨fun hm => ?_, fun hm => hsame.trans ((hcauses b hbl).2 hm).1⟩
    obtain ⟨-, h0, h1⟩ := (hcauses b hbl).1 hm
    exact ⟨hsame.trans h0, (hsync.rd _ _ List.not_mem_nil).trans h1⟩
  unfold fireEnable
  rw [hbs]
  dsimp only
  rw [if_neg (by decide), if_neg (by decide), hkept, if_neg (by simp [Core.rdb_eq_decide, hlock])]
  generalize (s.withInhibit fun s => bs.foldl (fun s b => s.setCauses b 0) s) = y at *
  refine ⟨_, rfl, .ite (fun _ => hs) fun _ => hs.emit _ _ _, ?_, ?_⟩
  · split
    · exact hsregs
    · exact hsregs.emit _ _ _
  · split
    · exact hscauses
    · intro b hbl
      have hemit := (SameRegs.refl [LOG_EVT_OVWR_CNT.COUNT.key 0] y).emit 0x0802
        (List.foldl (fun m b => m + 2 ^ b) 0 (List.filter (fun b => s.causes b != 0) bs)) 0
      obtain ⟨hcb, hfb⟩ := fireKey_event b hbl
      refine ⟨fun hm => ?_, fun hm => (hemit.causes hcb).trans ((hscauses b hbl).2 hm)⟩
      obtain ⟨h0, h1⟩ := (hscauses b hbl).1 hm
      exact ⟨(hemit.causes hcb).trans h0, (hemit _ _ hfb).trans h1⟩

/-- What a firing command on bars finds of them once it is taken. -/
theorem taken_bars (c : Call) (op : Nat) (mask : Byte) (s : State)
    (h : ∀ b : Fin 8, mask.toNat.testBit b.val = true → s.field.core.barPresent b.val = true) :
    (∃ bs, (s.taken c op).field.core.namedBars mask.toNat = some bs ∧ (∀ b ∈ bs, b < 8) ∧
      ∀ b, b < 8 → (b ∈ bs ↔ named mask b s.field.core = true)) ∧
    ∀ b, b < 8 → (s.taken c op).field.core.causes b = s.field.core.causes b := by
  have ho := taken_outside c op s
  have hp := fun b => ho.barPresent b
  constructor
  · obtain ⟨bs, hbs, hlt, hmem⟩ := (s.taken c op).field.core.namedBars_eq mask fun b hb => (hp b.val).trans (h b hb)
    refine ⟨bs, hbs, hlt, fun b hb => (hmem b hb).trans ?_⟩
    rw [named, hp b, named]
  · exact fun b hb => (SameRegs.taken c op [] s).causes
      ((List.append_nil commandKeys).symm ▸ fireKeys_free _ (fireKeys_cause hb).1)
/-- A cause that a firing command sets on the bars it names. -/
theorem causeSet_answers {c : Call} {op i : Nat} {mask : Byte} {s : State} {k : Cmd} {ins : Instr} {g : Core → Reply × Core}
    (hexec : exec ins s = .next (k.submit ins s)) (hk : k.Plain 4 g) (hkc : k.call = c) (hop : k.op = op) (hpriv : k.priv = 1)
    (hc : CleanHeader c 4) (hr : Runs c op 1 s) {f : List Nat → Core → Core}
    (hg : ∀ τ bs, τ.namedBars mask.toNat = some bs → g τ = (.ok 0, f bs τ))
    (hset : ∀ τ bs, (∀ b ∈ bs, b < 8) → CauseSet bs i τ (f bs τ))
    (hwithin : ∀ τ bs, (∀ b ∈ bs, b < 8) → Within [0x11, 0x1B] [.hlk, .cmdq] τ (f bs τ))
    (h : ∀ b : Fin 8, mask.toNat.testBit b.val = true → s.field.core.barPresent b.val = true) :
    Answers ins s fun t =>
      Completed c op 0 0 s t ∧ CommandFrame c op fireKeys s t ∧
      ∀ b : Fin 8, if named mask b.val s.field.core then (t.field.core.causes b.val).testBit i = true
        else t.field.core.causes b.val = s.field.core.causes b.val := by
  subst hkc hop
  obtain ⟨⟨bs, hbs, hlt, hmem⟩, hcauses⟩ := taken_bars k.call k.op mask s h
  have htaken := SameRegs.taken k.call k.op fireKeys s
  have htime := taken_etime k.call k.op s
  have hw := hwithin (s.taken k.call k.op).field.core bs hlt
  obtain ⟨t, ht, hdone⟩ := hk.done hexec hc (hpriv ▸ hr) (hg _ bs hbs) (.inl ⟨0, rfl⟩) ((hw.parts .etime (by decide)).trans htime)
    (hw.parts .answers (by decide))
  have hspec := hset (s.taken k.call k.op).field.core bs hlt
  have hkeys : ∀ b : Fin 8, t.field.core.causes b.val = (f bs (s.taken k.call k.op).field.core).causes b.val := fun b =>
    hdone.regs.causes (fireKeys_free _ (fireKeys_cause b.isLt).1)
  refine ⟨t, ht, hdone.completed, hdone.frame (htaken.trans (hspec.regs.mono ?_)), fun b => ?_⟩
  · decide
  · rw [hkeys]
    split
    next hn => exact hspec.set _ b.isLt ((hmem _ b.isLt).2 hn)
    next hn => exact (hspec.rest _ b.isLt (mt (hmem _ b.isLt).1 hn)).trans (hcauses _ b.isLt)

theorem fireEnable_answers (c : Call) (mask : Byte) (s : State) (hc : CleanHeader c 4)
    (hp : ∀ b : Fin 8, mask.toNat.testBit b.val = true → s.field.core.barPresent b.val = true) (hr : Runs c 0x0300 1 s)
    (ha : s.field.core.rd SPG_STATUS.SAFE_A = 1) (hb : s.field.core.rd SPG_STATUS.SAFE_B = 1)
    (hd : s.field.core.rd SPG_STATUS.SAFE_DISC = 0) (htrip : s.field.core.rd THM_STATUS.TRIP = 0)
    (hlost : s.field.core.rd POS_WEB_STATUS.LOST = 0) (hlock : s.field.core.rd SPG_STATUS.LOCK = 1)
    (hidle : ∀ b : Fin 8, named mask b.val s.field.core = true → (s.field.core.causes b.val).testBit 7 = false) :
    Answers (.fireEnable c mask 1) s fun t =>
      Completed c 0x0300 0 0 s t ∧ CommandFrame c 0x0300 fireKeys s t ∧
      ∀ b : Fin 8, if named mask b.val s.field.core then
          t.field.core.causes b.val = 0 ∧ t.field.core.rd SPGB_FIRE.FIRING b.val = 1
        else t.field.core.causes b.val = s.field.core.causes b.val := by
  obtain ⟨⟨bs, hbs, hlt, hmem⟩, hcauses⟩ := taken_bars c 0x0300 mask s hp
  have htaken := SameRegs.taken c 0x0300 fireKeys s
  have hrd : ∀ f : Fld, f.key 0 ∉ inFlightKeys → (s.taken c 0x0300).field.core.rd f = s.field.core.rd f := fun f h => rd_taken _ _ _ _ _ h
  obtain ⟨x, hx, hw, hregs, hclear⟩ := fireEnable_clears hbs hlt ((hrd _ (by decide)).trans ha) ((hrd _ (by decide)).trans hb)
    ((hrd _ (by decide)).trans hd) ((hrd _ (by decide)).trans htrip) ((hrd _ (by decide)).trans hlost) ((hrd _ (by decide)).trans hlock)
    fun b hm => (congrArg (Nat.testBit · 7) (hcauses b (hlt b hm))).trans (hidle ⟨b, hlt b hm⟩ ((hmem b (hlt b hm)).1 hm))
  have hk : (cmdFireEnable c mask.toNat 1).Plain 4 (fireEnable mask.toNat 1) := ⟨rfl, rfl, by decide, rfl, rfl, rfl⟩
  obtain ⟨t, ht, hdone⟩ := hk.done (i := .fireEnable c mask 1) rfl hc hr hx (.inl ⟨0, rfl⟩)
    ((hw.parts .etime (by decide)).trans (taken_etime c 0x0300 s)) (hw.parts .answers (by decide))
  refine ⟨t, ht, hdone.completed, hdone.frame (htaken.trans (hregs.mono (by decide))), fun b => ?_⟩
  obtain ⟨hin, hout⟩ := hclear b.val b.isLt
  have hcb : t.field.core.causes b.val = x.causes b.val := hdone.regs.causes (fireKeys_free _ (fireKeys_cause b.isLt).1)
  split
  next hn =>
    obtain ⟨h0, h1⟩ := hin ((hmem _ b.isLt).2 hn)
    exact ⟨hcb.trans h0, (hdone.rd _ _ (fireKeys_free _ (fireKeys_cause b.isLt).2)).trans h1⟩
  next hn => exact hcb.trans ((hout (mt (hmem _ b.isLt).1 hn)).trans (hcauses _ b.isLt))
theorem fireDisable_answers (c : Call) (mask : Byte) (s : State) (hc : CleanHeader c 4)
    (hp : ∀ b : Fin 8, mask.toNat.testBit b.val = true → s.field.core.barPresent b.val = true) (hr : Runs c 0x0300 1 s) :
    Answers (.fireEnable c mask 0) s fun t =>
      Completed c 0x0300 0 0 s t ∧ CommandFrame c 0x0300 fireKeys s t ∧
      ∀ b : Fin 8, if named mask b.val s.field.core then (t.field.core.causes b.val).testBit 1 = true
        else t.field.core.causes b.val = s.field.core.causes b.val :=
  causeSet_answers (k := cmdFireEnable c mask.toNat 0) (g := fireEnable mask.toNat 0) (f := fun bs τ => τ.setCause bs 1) rfl
    ⟨rfl, rfl, by decide, rfl, rfl, rfl⟩ rfl rfl rfl hc hr (fun τ bs hbs => by simp [fireEnable, hbs])
    (fun τ _ hb => τ.setCause_spec hb (by decide) (by decide)) (fun τ _ hb => τ.setCause_within 1 hb) hp
theorem stopFire_answers (c : Call) (mask : Byte) (s : State) (hc : CleanHeader c 4)
    (hp : ∀ b : Fin 8, mask.toNat.testBit b.val = true → s.field.core.barPresent b.val = true) (hr : Runs c 0x0301 1 s) :
    Answers (.stopFire c mask) s fun t =>
      Completed c 0x0301 0 0 s t ∧ CommandFrame c 0x0301 fireKeys s t ∧
      ∀ b : Fin 8, if named mask b.val s.field.core then (t.field.core.causes b.val).testBit 2 = true
        else t.field.core.causes b.val = s.field.core.causes b.val :=
  causeSet_answers (k := cmdStopFire c mask.toNat) (g := stopFire mask.toNat) (f := fun bs τ => stopBars bs 2 τ) rfl
    ⟨rfl, rfl, by decide, rfl, rfl, rfl⟩ rfl rfl rfl hc hr (fun τ bs hbs => by simp [stopFire, hbs])
    (fun τ _ hb => stopBars_spec τ hb (by decide) (by decide)) (fun τ _ hb => stopBars_within τ 2 hb) hp

/-! ### FIRE_INHIBIT_HEAD (R394) -/

theorem Core.headRefusal_attached (s : Core) {h : Nat} (hh : h < 192) (hp : s.headPresent h = true) (ha : s.attached h = true) (off : Nat) :
    s.headRefusal h off = none := by
  have hst : s.headState h = 3 := by simpa [Core.attached] using ha
  simp [Core.headRefusal, Nat.not_le.2 hh, hp, hst]
/-- A head whose inhibit the host sets, or clears with no trip standing: what the command leaves. -/
theorem fireInhibitHead_sets {s : Core} {h : Nat} (hh : h < 192) (hp : s.headPresent h = true) (ha : s.attached h = true) :
    ∃ x, fireInhibitHead h 1 s = (.ok 0, x) ∧ Within [] [.hlk] (s.wr HDC_FIRE.HOST_INH 1 h) x := by
  have href := s.headRefusal_attached hh hp ha 0x10
  unfold fireInhibitHead
  rw [if_neg (Nat.not_le.2 hh), if_neg (by simp [hp]), if_neg (by decide), href]
  dsimp only
  rw [if_pos rfl]
  exact ⟨_, rfl, .ite (fun _ => ((Within.refl _ _ _).next (Core.setLn_within _ _ _)).next (Core.sendBlock_within _ _ _)) fun _ => .refl _ _ _⟩
theorem fireInhibitHead_clears {s : Core} {h : Nat} (hh : h < 192) (hp : s.headPresent h = true) (ha : s.attached h = true)
    (ht : s.rd HDC_FIRE.TRIP h = 0) :
    ∃ x, fireInhibitHead h 0 s = (.ok 0, x) ∧ Within [] [.hlk] ((s.wr HDC_FIRE.HOST_INH 0 h).wr HDC_FIRE.TRIP 0 h) x := by
  have href := s.headRefusal_attached hh hp ha 0x10
  unfold fireInhibitHead
  rw [if_neg (Nat.not_le.2 hh), if_neg (by simp [hp]), if_neg (by decide), href, Core.rdb_eq_false ht]
  dsimp only
  rw [if_neg (by decide), if_neg (by simp), if_neg (by simp)]
  exact ⟨_, rfl, Core.syncInhibit_within _ _⟩
/-- The keys of a head's firing, and those of its state. -/
theorem headFireKeys_facts : ∀ h < 192, HDC_ID_STATUS.STATE.key h ∉ inFlightKeys ∧ HDC_FIRE.TRIP.key h ∉ inFlightKeys ∧
    HDC_FIRE.HOST_INH.key h ∉ commandKeys ∧ HDC_FIRE.HOST_INH.key h ≠ HDC_FIRE.TRIP.key h := by decide +kernel
theorem fireInhibitHead_answers (c : Call) (h : Byte) (s : State) (hc : CleanHeader c 4) (hr : Runs c 0x0302 1 s) (hh : h.toNat < 192)
    (hp : s.field.core.headPresent h.toNat = true) (ha : s.field.core.attached h.toNat = true) :
    (Answers (.fireInhibitHead c h 1) s fun t =>
      Completed c 0x0302 0 0 s t ∧ t.field.core.rd HDC_FIRE.HOST_INH h.toNat = 1 ∧
      CommandFrame c 0x0302 [HDC_FIRE.HOST_INH.key h.toNat] s t) ∧
    (s.field.core.rd HDC_FIRE.TRIP h.toNat = 0 → Answers (.fireInhibitHead c h 0) s fun t =>
      Completed c 0x0302 0 0 s t ∧ t.field.core.rd HDC_FIRE.HOST_INH h.toNat = 0 ∧
      CommandFrame c 0x0302 [HDC_FIRE.HOST_INH.key h.toNat, HDC_FIRE.TRIP.key h.toNat] s t) := by
  obtain ⟨kst, ktrip, kinh, kne⟩ := headFireKeys_facts h.toNat hh
  have hp' : (s.taken c 0x0302).field.core.headPresent h.toNat = true := by
    rw [← hp]
    unfold Core.headPresent Core.nozzles
    rw [taken_press]
  have ha' : (s.taken c 0x0302).field.core.attached h.toNat = true := by
    rw [← ha, Core.attached, Core.headState, rd_taken _ _ _ _ _ kst, Core.attached, Core.headState]
  have htime := taken_etime c 0x0302 s
  constructor
  · obtain ⟨x, hx, hw⟩ := fireInhibitHead_sets hh hp' ha'
    have hk : (cmdFireInhibitHead c h.toNat 1).Plain 4 (fireInhibitHead h.toNat 1) := ⟨rfl, rfl, by decide, rfl, rfl, rfl⟩
    obtain ⟨t, ht, hdone⟩ := hk.done (i := .fireInhibitHead c h 1) rfl hc hr hx (.inl ⟨0, rfl⟩) ((hw.parts .etime (by decide)).trans htime)
      (hw.parts .answers (by decide))
    refine ⟨t, ht, hdone.completed, ?_, hdone.frame ((SameRegs.taken c 0x0302 _ s).trans
      (((SameRegs.refl _ _).wr _ (by simp)).trans (hw.sameRegs _)))⟩
    rw [hdone.rd _ _ kinh, hw.rd _ _ List.not_mem_nil, Core.rd_wr]
    rfl
  · intro htrip
    obtain ⟨x, hx, hw⟩ := fireInhibitHead_clears hh hp' ha' ((rd_taken _ _ _ _ _ ktrip).trans htrip)
    have hk : (cmdFireInhibitHead c h.toNat 0).Plain 4 (fireInhibitHead h.toNat 0) := ⟨rfl, rfl, by decide, rfl, rfl, rfl⟩
    obtain ⟨t, ht, hdone⟩ := hk.done (i := .fireInhibitHead c h 0) rfl hc hr hx (.inl ⟨0, rfl⟩) ((hw.parts .etime (by decide)).trans htime)
      (hw.parts .answers (by decide))
    refine ⟨t, ht, hdone.completed, ?_, hdone.frame ((SameRegs.taken c 0x0302 _ s).trans
      ((((SameRegs.refl _ _).wr _ (by simp)).wr _ (by simp)).trans (hw.sameRegs _)))⟩
    rw [hdone.rd _ _ kinh, hw.rd _ _ List.not_mem_nil, Core.rd_wr_ne _ _ _ _ _ _ kne, Core.rd_wr]
    rfl

/-! ### SAFE (R395) -/

/-- The SAFE channel of that letter. -/
def safeChan (chB : Bool) : Fld := if chB then SPG_STATUS.SAFE_B else SPG_STATUS.SAFE_A
theorem Core.safe_lt (s : Core) (chB : Bool) : s.rd (safeChan chB) < 2 := by cases chB <;> exact Core.rd_lt _ _ _
theorem Core.safeBits_eq (s : Core) (chB : Bool) :
    s.safeBits = if chB then s.rd (safeChan (!chB)) + 2 * s.rd (safeChan chB) else s.rd (safeChan chB) + 2 * s.rd (safeChan (!chB)) := by
  cases chB <;> rfl
theorem SameRegs.safeBits {a b : Core} (h : SameRegs causeKeys a b) : b.safeBits = a.safeBits := by
  unfold Core.safeBits
  rw [h _ _ (by decide), h _ _ (by decide)]
theorem Core.rd_setSafe (s : Core) (chB on : Bool) :
    (s.setSafe chB on).rd (safeChan chB) = b2n on ∧ (s.setSafe chB on).rd (safeChan (!chB)) = s.rd (safeChan (!chB)) ∧
    SameRegs [(safeChan chB).key 0] s (s.setSafe chB on) := by
  have hne : (safeChan (!chB)).key 0 ≠ (safeChan chB).key 0 := by
    revert chB
    decide
  refine ⟨?_, ?_, ?_⟩
  · refine (Core.rd_wr s (safeChan chB) (b2n on) 0).trans ?_
    cases chB <;> cases on <;> rfl
  · exact Core.rd_wr_ne s (safeChan chB) _ (b2n on) 0 0 hne
  · exact ((SameRegs.refl _ s).wr (f := safeChan chB) (n := 0) (b2n on) (List.mem_singleton.2 rfl)).trans (.of_regs rfl)
/-- When one channel became de-energised alone: kept where the channel set does not change. -/
theorem Core.setSafe_at (s : Core) (chB on : Bool) :
    (s.setSafe chB on).spg.safeAt = if s.rd (safeChan chB) = b2n on then s.spg.safeAt
      else if s.rd (safeChan (!chB)) = b2n (!on) then some s.etime else none := by
  obtain ⟨hset, hother, -⟩ := s.rd_setSafe chB on
  have hbits := (s.setSafe chB on).safeBits_eq chB
  rw [hset, hother] at hbits
  have h0 := s.safe_lt chB
  have h1 := s.safe_lt (!chB)
  have hold := s.safeBits_eq chB
  have hdef : (s.setSafe chB on).spg.safeAt = if (s.setSafe chB on).safeBits = s.safeBits then s.spg.safeAt
      else if (s.setSafe chB on).safeBits = 1 ∨ (s.setSafe chB on).safeBits = 2 then some s.etime else none := rfl
  rw [hdef, hbits, hold]
  generalize s.rd (safeChan chB) = x at *
  generalize s.rd (safeChan (!chB)) = y at *
  have hx : x = 0 ∨ x = 1 := by omega
  have hy : y = 0 ∨ y = 1 := by omega
  clear hold hbits hdef hset hother
  obtain rfl | rfl := hx <;> obtain rfl | rfl := hy <;> cases chB <;> cases on <;> rfl
/-- The records beside SAFE's are kept. -/
theorem Core.setSafe_only (s : Core) (chB on : Bool) : s.setSafe chB on =
    { s with regs := (s.setSafe chB on).regs, spg := { s.spg with safeAt := (s.setSafe chB on).spg.safeAt } } := rfl
/-- SAFE_DISC cleared where both channels are de-energised. -/
def Core.clearDisc (s : Core) : Core := if s.safeBits = 0 then s.wr SPG_STATUS.SAFE_DISC 0 else s
theorem Core.clearDisc_only (s : Core) : s.clearDisc = { s with regs := s.clearDisc.regs } := by
  unfold Core.clearDisc
  split <;> rfl
theorem SameRegs.clearDisc (s : Core) : SameRegs [SPG_STATUS.SAFE_DISC.key 0] s s.clearDisc := by
  unfold Core.clearDisc
  split
  · exact (SameRegs.refl _ s).wr _
  · exact .refl _ s
theorem Core.rd_clearDisc (s : Core) :
    s.clearDisc.rd SPG_STATUS.SAFE_DISC = if s.safeBits = 0 then 0 else s.rd SPG_STATUS.SAFE_DISC := by
  unfold Core.clearDisc
  split
  · exact Core.rd_wr _ _ _ _
  · rfl
theorem safeChan_key (chB : Bool) : (safeChan chB).key 0 ∉ [SPG_STATUS.SAFE_DISC.key 0] ∧
    SPG_STATUS.SAFE_DISC.key 0 ∉ [(safeChan chB).key 0] ∧ ((safeChan chB).key 0 ∉ causeKeys ∧ SPG_STATUS.SAFE_DISC.key 0 ∉ causeKeys) ∧
    ∀ b < 8, SPGB_FIRE.CAUSE.key b ∉ [(safeChan chB).key 0, SPG_STATUS.SAFE_DISC.key 0] := by
  revert chB
  decide
theorem safeInhibit_answers (chB : Bool) (s : State) (hb : s.field.core.bootState ≠ 1) :
    Answers (.safeInhibit chB) s fun t =>
      t.field.core.rd (safeChan chB) = 0 ∧ t.field.core.safeFbClosed chB = true ∧
      t.field.core.rd SPG_STATUS.SAFE_DISC =
        (if s.field.core.rd (safeChan (!chB)) = 0 then 0 else s.field.core.rd SPG_STATUS.SAFE_DISC) ∧
      t.field.core.spg.safeAt = (if s.field.core.rd (safeChan chB) = 0 then s.field.core.spg.safeAt
        else if s.field.core.rd (safeChan (!chB)) = 1 then some s.field.core.etime else none) ∧
      (∀ b : Fin 8, (t.field.core.causes b.val).testBit 3 = true) ∧
      t.field.core.newest 0x0803 = some (0x0803, t.field.core.safeBits % 2 ^ 128) ∧
      SameRegs ((safeChan chB).key 0 :: SPG_STATUS.SAFE_DISC.key 0 :: LOG_EVT_OVWR_CNT.COUNT.key 0 :: fireKeys)
        s.field.core t.field.core ∧ CoreOnly s t := by
  refine answers_of_onRunning (g := doSafeInhibit chB) rfl hb ?_
  obtain ⟨hset, hother, hregs⟩ := s.field.core.rd_setSafe chB false
  have hat := s.field.core.setSafe_at chB false
  have hbits := (s.field.core.setSafe chB false).safeBits_eq chB
  obtain ⟨kd, kc, ⟨ks, ks'⟩, -⟩ := safeChan_key chB
  have kd' := (safeChan_key (!chB)).1
  have hz : (s.field.core.setSafe chB false).safeBits = 0 ↔ s.field.core.rd (safeChan (!chB)) = 0 := by
    rw [hset, hother] at hbits
    rw [hbits]
    cases chB <;> simp [b2n]
  have hdisc := (s.field.core.setSafe chB false).rd_clearDisc
  rw [hregs _ _ kc, if_congr hz rfl rfl] at hdisc
  have hdregs := SameRegs.clearDisc (s.field.core.setSafe chB false)
  have honly := (s.field.core.setSafe chB false).clearDisc_only
  have hspg : (s.field.core.setSafe chB false).clearDisc.spg = (s.field.core.setSafe chB false).spg := (congrArg Core.spg honly :)
  have hg : doSafeInhibit chB s.field.core = ((s.field.core.setSafe chB false).clearDisc.withInhibit fun s => s.setCause allBars 3).emit
      0x0803 (s.field.core.setSafe chB false).clearDisc.safeBits := rfl
  simp only [State.onCore, Field.onCore, hg]
  generalize (s.field.core.setSafe chB false).clearDisc = y at *
  have hspec := (y.setCause_spec (fun b hb => mem_allBars_lt hb) (i := 3) (by decide) (by decide)).next (Core.syncInhibit_within _ y)
  have hw := y.withInhibit_within (g := fun s => s.setCause allBars 3) (y.setCause_within 3 fun b hb => mem_allBars_lt hb)
  have hcause : CauseSet allBars 3 y (y.withInhibit fun s => s.setCause allBars 3) := hspec
  generalize (y.withInhibit fun s => s.setCause allBars 3) = z at *
  have hemit := (SameRegs.refl [LOG_EVT_OVWR_CNT.COUNT.key 0] z).emit 0x0803 y.safeBits 0
  have hall : SameRegs causeKeys y (z.emit 0x0803 y.safeBits) := hcause.regs.trans (hemit.mono (by decide))
  have hchan : (z.emit 0x0803 y.safeBits).rd (safeChan chB) = 0 := by
    rw [hall _ _ ks, hdregs _ _ kd, hset]
    rfl
  have hbitsz : (z.emit 0x0803 y.safeBits).safeBits = y.safeBits := hall.safeBits
  refine ⟨hchan, ?_, (hall _ _ ks').trans hdisc, ?_, fun b => ?_, ?_, ?_, rfl, rfl, rfl⟩
  · change (!(Core.rd _ (safeChan chB) 0 != 0)) = true
    rw [hchan]
    rfl
  · have hsame : (z.emit 0x0803 y.safeBits).spg = z.spg := (QuietEvents.emit _ _ _ _).touches .spg (by decide)
    rw [hsame, show z.spg = y.spg from hw.parts .spg (by decide), hspg]
    exact hat
  · exact (congrArg (Nat.testBit · 3) (hemit.causes (fireKey_event b.val b.isLt).1)).trans
      (hcause.set _ b.isLt (List.mem_range.2 b.isLt))
  · rw [Core.newest_emit, hbitsz]
  · exact ((hregs.mono (by simp)).trans (hdregs.mono (by simp))).trans (hall.mono (by
      exact fun k hk => List.mem_cons_of_mem _ (List.mem_cons_of_mem _ hk)))
theorem safeEnergised_answers (chB : Bool) (s : State) (hb : s.field.core.bootState ≠ 1) :
    Answers (.safeEnergised chB) s fun t =>
      t.field.core.rd (safeChan chB) = 1 ∧ t.field.core.safeFbClosed chB = false ∧
      t.field.core.spg.safeAt = (if s.field.core.rd (safeChan chB) = 1 then s.field.core.spg.safeAt
        else if s.field.core.rd (safeChan (!chB)) = 0 then some s.field.core.etime else none) ∧
      t.field.core.rd SPG_STATUS.SAFE_DISC =
        (if s.field.core.safeBits = 0 then 0 else s.field.core.rd SPG_STATUS.SAFE_DISC) ∧
      (∀ b : Fin 8, t.field.core.causes b.val = s.field.core.causes b.val) ∧
      t.field.core = { s.field.core with regs := t.field.core.regs, spg := { s.field.core.spg with
        safeAt := t.field.core.spg.safeAt } } ∧
      SameRegs [(safeChan chB).key 0, SPG_STATUS.SAFE_DISC.key 0] s.field.core t.field.core ∧ CoreOnly s t := by
  refine answers_of_onRunning (g := doSafeEnergised chB) rfl hb ?_
  have hg : doSafeEnergised chB s.field.core = s.field.core.clearDisc.setSafe chB true := rfl
  obtain ⟨hset, hother, hregs⟩ := s.field.core.clearDisc.rd_setSafe chB true
  have hat := s.field.core.clearDisc.setSafe_at chB true
  have hdregs := SameRegs.clearDisc s.field.core
  obtain ⟨kd, kc, -⟩ := safeChan_key chB
  have kd' := (safeChan_key (!chB)).1
  have honly := s.field.core.clearDisc_only
  have hspg : s.field.core.clearDisc.spg = s.field.core.spg := (congrArg Core.spg honly :)
  have htime : s.field.core.clearDisc.etime = s.field.core.etime := (congrArg Core.etime honly :)
  rw [hdregs _ _ kd, hdregs _ _ kd', hspg, htime] at hat
  have hall : SameRegs [(safeChan chB).key 0, SPG_STATUS.SAFE_DISC.key 0] s.field.core (s.field.core.clearDisc.setSafe chB true) :=
    (hdregs.mono (by simp)).trans (hregs.mono (by simp))
  simp only [State.onCore, Field.onCore, hg]
  refine ⟨hset, ?_, hat, ?_, fun b => hall.causes ?_, ?_, hall, rfl, rfl, rfl⟩
  · change (!(Core.rd _ (safeChan chB) 0 != 0)) = false
    rw [hset]
    rfl
  · rw [hregs _ _ kc, s.field.core.rd_clearDisc]
  · exact fun hm => (safeChan_key chB).2.2.2 b.val b.isLt hm
  · refine (s.field.core.clearDisc.setSafe_only chB true).trans ?_
    generalize s.field.core.clearDisc.setSafe chB true = y
    rw [honly]
/-- SAFE_DISCREPANCY with one channel de-energised alone (R395). -/
theorem safeDiscrepancy_answers (chB : Bool) (s : State) (hb : s.field.core.bootState ≠ 1) (t0 : Nat)
    (hat : s.field.core.spg.safeAt = some t0) (ha : s.field.core.rd SPG_STATUS.SAFE_A = b2n chB)
    (hb' : s.field.core.rd SPG_STATUS.SAFE_B = b2n (!chB)) (hd : s.field.core.rd SPG_STATUS.SAFE_DISC = 0) :
    Answers .safeDiscrepancy s fun t =>
      t.field.core.rd SPG_STATUS.SAFE_DISC = 1 ∧ t.field.core.etime = max s.field.core.etime (t0 + 100000000) ∧
      s.field.core.Raised t.field.core 0x0804 (b2n chB) ∧
      SameRegs [SPG_STATUS.SAFE_DISC.key 0, LOG_EVT_OVWR_CNT.COUNT.key 0] s.field.core t.field.core ∧
      QuietEvents { s.field.core with etime := t.field.core.etime } t.field.core ∧ CoreOnly s t := by
  refine answers_of_onRunning (g := doSafeDiscrepancy) rfl hb ?_
  have hbits : (s.field.core.safeBits == 1) = chB := by
    rw [Core.safeBits, ha, hb']
    cases chB <;> rfl
  have hg : doSafeDiscrepancy s.field.core =
      ((s.field.core.reach (t0 + 100000000)).wr SPG_STATUS.SAFE_DISC 1).emit 0x0804 (b2n chB) := by
    unfold doSafeDiscrepancy
    rw [hat]
    dsimp only
    rw [Core.rdb_eq_false hd, if_neg (by decide), ← hbits]
  have hreach : SameRegs [] s.field.core (s.field.core.reach (t0 + 100000000)) := .of_regs rfl
  simp only [State.onCore, Field.onCore, hg]
  refine ⟨?_, by rw [Core.emit_etime, Core.wr, Core.reach], Core.raised_emit_of (by cases chB <;> decide) rfl rfl,
    ((hreach.mono (List.nil_subset _)).wr _).emit _ _ _, ?_, rfl, rfl, rfl⟩
  · rw [Core.rd_emit_ne _ _ _ _ _ _ (by decide), Core.rd_wr]
    rfl
  · rw [Core.emit_etime]
    have hwr : QuietEvents (s.field.core.reach (t0 + 100000000)) ((s.field.core.reach (t0 + 100000000)).wr SPG_STATUS.SAFE_DISC 1) := rfl
    exact hwr.trans (.emit _ _ _ _)

/-- Settles O49: each cause that a command or a SAFE channel sets stands on the bars it names and on no other, and FIRE_ENABLE
clears those that nothing keeps. -/
theorem firingFollowsCausesAndSafe : Obligations.FiringFollowsCausesAndSafe := by
  refine ⟨fun c mask s hc hp => ⟨fireDisable_answers c mask s hc hp, ?_, stopFire_answers c mask s hc hp⟩,
    fun c h s hc hr => fireInhibitHead_answers c h s hc hr, fun chB s hb => ?_⟩
  · exact fun hr ha hb hd htrip hlost hlock hidle => fireEnable_answers c mask s hc hp hr ha hb hd htrip hlost hlock hidle
  · intro chan other
    have hchan : chan = safeChan chB := rfl
    have hother : other = s.field.core.rd (safeChan (!chB)) := by cases chB <;> rfl
    clear_value chan other
    subst hchan hother
    exact ⟨safeInhibit_answers chB s hb, safeEnergised_answers chB s hb,
      fun t0 hat ha hb' hd => safeDiscrepancy_answers chB s hb t0 hat ha hb' hd⟩

/-! ### The loop while a head still shows FIRING (R387, R410) -/

/-- The web source is lost, no job is known, and the one head of the press still shows FIRING from the line it was sent last. -/
def firingOnLostWeb : State :=
  State.reset.onCore fun c =>
    ({ c with press := { c.press with nozzles := mset 0 c.press.nozzles 0 1 } } : Core).wrs
      [(SYS_BOOT.STATE, 7), (POS_WEB_STATUS.LOST, 1), (HDC_FIRE.FIRING, 1)]
/-- Refutes O50: the update that holds p also clears HDC_n_FIRE.FIRING of a head that no line follows (R410), a register that the
statement keeps. -/
theorem not_loopFollowsTheWeb : ¬ Obligations.LoopFollowsTheWeb := by
  intro h
  have hready : firingOnLostWeb.field.core.bootState ≠ 1 ∧ firingOnLostWeb.field.core.jobs.jobs = [] ∧
      firingOnLostWeb.field.core.rd POS_WEB_STATUS.LOST = 1 ∧ firingOnLostWeb.field.core.rd HDC_FIRE.FIRING = 1 := by decide +kernel
  obtain ⟨hb, hj, hlost, hfire⟩ := hready
  obtain ⟨t, ht, -, -, -, -, hregs, -⟩ := (h.2 firingOnLostWeb hb hj).1 hlost
  have hkept : t.field.core.rd HDC_FIRE.FIRING = 1 := (hregs HDC_FIRE.FIRING 0 (by decide)).trans hfire
  have hclear : (match exec .loopUpdate firingOnLostWeb with
    | .next t => t.field.core.rd HDC_FIRE.FIRING
    | _ => 1) = 0 := by decide +kernel
  rw [ht] at hclear
  exact absurd (hkept.symm.trans hclear) (by decide)

end Sys2Proof.Machine
end

section
/-! PROOF. The operator display (O59; spec/15_operator_display.md R564 to R574): configuration, commits, pushes and TE. -/

namespace Sys2Proof.Machine

set_option Elab.async false

/-! ### The display's record and its shadow in DSP_STATUS -/

/-- The fields that follow the display's record. -/
def shownKeys : List Nat := [DSP_STATUS.PENDING.key 0, DSP_STATUS.PUSHING.key 0]
theorem SameRegs.setDsp {ks : List Nat} {a b : Core} (h : SameRegs ks a b) (x : DspSt) (hk : ∀ k ∈ shownKeys, k ∈ ks := by decide) :
    SameRegs ks a (b.setDsp x) := by
  have h0 : SameRegs ks a { b with dsp := x } := h.trans (.of_regs rfl)
  refine h0.wrs (n := 0) (l := [(DSP_STATUS.PENDING, x.commits.length), (DSP_STATUS.PUSHING, b2n x.push.isSome)]) ?_
  simp only [List.forall_mem_cons]
  exact ⟨hk _ (by decide), hk _ (by decide), fun _ h => nomatch h⟩
theorem Core.setDsp_only (s : Core) (x : DspSt) : s.setDsp x = { s with regs := (s.setDsp x).regs, dsp := x } := rfl
theorem Core.rd_setDsp (s : Core) (x : DspSt) :
    (s.setDsp x).rd DSP_STATUS.PENDING = x.commits.length % 4 ∧ (s.setDsp x).rd DSP_STATUS.PUSHING = b2n x.push.isSome := by
  unfold Core.setDsp
  simp only [Core.wrs, List.foldl_cons, List.foldl_nil]
  refine ⟨?_, ?_⟩
  · rw [Core.rd_wr_ne _ _ _ _ _ _ (by decide), Core.rd_wr]
    rfl
  · rw [Core.rd_wr]
    cases x.push.isSome <;> rfl
theorem Core.rd_setDsp_ne (s : Core) (x : DspSt) (f : Fld) (hf : f.key 0 ∉ shownKeys) : (s.setDsp x).rd f = s.rd f :=
  ((SameRegs.refl shownKeys s).setDsp x (fun _ h => h)) f 0 hf

/-! ### DSP_CONFIG (R565) -/

/-- The fields that show the panel. -/
def panelKeys : List Nat := [DSP_PANEL.WIDTH.key 0, DSP_PANEL.HEIGHT.key 0, DSP_PANEL_ID.ID.key 0, DSP_STATUS.STATE.key 0,
  DSP_STATUS.PENDING.key 0, DSP_STATUS.PUSHING.key 0]
/-- Step 1 of a configuration with no commit to discard. -/
def Core.panelBegin (s : Core) (g : DspCfg) : Core :=
  (s.setDsp { s.dsp with commits := [], lastEdge := none, rst := true, run := some ⟨g, s.etime, 1⟩ }).wrs
    [(DSP_PANEL.WIDTH, g.width), (DSP_PANEL.HEIGHT, g.height), (DSP_PANEL_ID.ID, g.id), (DSP_STATUS.STATE, 1)]
theorem SameRegs.panelBegin (s : Core) (g : DspCfg) : SameRegs panelKeys s (s.panelBegin g) :=
  ((SameRegs.refl panelKeys s).setDsp _).wrs
theorem Core.panelBegin_spec (s : Core) (g : DspCfg) (hw : g.width < 2 ^ 11) (hh : g.height < 2 ^ 11) (hid : g.id < 2 ^ 24) :
    (s.panelBegin g).dspState = 1 ∧ (s.panelBegin g).rd DSP_PANEL.WIDTH = g.width ∧
    (s.panelBegin g).rd DSP_PANEL.HEIGHT = g.height ∧ (s.panelBegin g).rd DSP_PANEL_ID.ID = g.id := by
  unfold Core.panelBegin Core.dspState
  simp only [Core.wrs, List.foldl_cons, List.foldl_nil]
  refine ⟨?_, ?_, ?_, ?_⟩
  · rw [Core.rd_wr]
    rfl
  · rw [Core.rd_wr_ne _ _ _ _ _ _ (by decide), Core.rd_wr_ne _ _ _ _ _ _ (by decide), Core.rd_wr_ne _ _ _ _ _ _ (by decide), Core.rd_wr]
    exact Nat.mod_eq_of_lt hw
  · rw [Core.rd_wr_ne _ _ _ _ _ _ (by decide), Core.rd_wr_ne _ _ _ _ _ _ (by decide), Core.rd_wr]
    exact Nat.mod_eq_of_lt hh
  · rw [Core.rd_wr_ne _ _ _ _ _ _ (by decide), Core.rd_wr]
    exact Nat.mod_eq_of_lt hid
/-- No configuration waits: the port stays as it is. -/
theorem dspWaiting_none {f : Field} (h : f.core.dsp.cfg = []) : dspWaiting f = f := by
  unfold dspWaiting
  rw [h]
  split
  · next hx => exact absurd hx (by simp)
  · rfl
theorem dspWaiting_begins {f : Field} {g : DspCfg} {rest : List DspCfg} (hpush : f.core.dsp.push = none) (hrun : f.core.dsp.run = none)
    (hcfg : f.core.dsp.cfg = g :: rest) (hcommits : f.core.dsp.commits = []) :
    dspWaiting f = f.onCore fun s => (s.setDsp { s.dsp with cfg := rest }).panelBegin g := by
  unfold dspWaiting
  rw [hpush, hrun, hcfg]
  dsimp only
  have h0 : (f.onCore fun s => s.setDsp { s.dsp with cfg := rest }).core.dsp.commits = [] := hcommits
  unfold dspBegin
  rw [h0]
  rfl
/-- The state in which an idle port begins a configuration that has just come. -/
def Core.configured (s : Core) (g : DspCfg) : Core :=
  (((s.openCmd g.ref).setDsp { s.dsp with cfg := [g] }).setDsp { s.dsp with cfg := [] }).panelBegin g
theorem SameRegs.configured (s : Core) (g : DspCfg) : SameRegs panelKeys s (s.configured g) := by
  have hopen : SameRegs panelKeys s (s.openCmd g.ref) := .of_regs rfl
  exact ((hopen.setDsp _).setDsp _).trans (.panelBegin _ g)
theorem Core.configured_spec (s : Core) (g : DspCfg) (hw : g.width < 2 ^ 11) (hh : g.height < 2 ^ 11) (hid : g.id < 2 ^ 24) :
    ((s.configured g).dspState = 1 ∧ (s.configured g).rd DSP_PANEL.WIDTH = g.width ∧
    (s.configured g).rd DSP_PANEL.HEIGHT = g.height ∧ (s.configured g).rd DSP_PANEL_ID.ID = g.id) ∧
    (s.configured g).dsp.rst = true ∧ (s.configured g).dsp.run = some ⟨g, s.etime, 1⟩ ∧ g.ref ∈ (s.configured g).cmdq.open_ :=
  ⟨Core.panelBegin_spec _ g hw hh hid, rfl, rfl, List.mem_append_right _ List.mem_cons_self⟩
theorem dspConfig_idle {c : Call} {id width height mbps : Nat} {answer : Option Nat} {f : Field} (hw : 1 ≤ width ∧ width ≤ 1920)
    (hh : 1 ≤ height ∧ height ≤ 1200) (hm : 80 ≤ mbps ∧ mbps ≤ 1500) (hpush : f.core.dsp.push = none)
    (hcommits : f.core.dsp.commits = []) (hrun : f.core.dsp.run = none) (hcfg : f.core.dsp.cfg = []) :
    dspConfig c id width height mbps answer f =
      (.later, ⟨f.core.configured ⟨refOf 0x0A00 c, id, width, height, mbps, answer⟩, f.dram⟩) := by
  unfold dspConfig
  rw [if_neg (by omega), if_neg (by omega), if_neg (by omega)]
  dsimp only
  generalize hg : (⟨refOf 0x0A00 c, id, width, height, mbps, answer⟩ : DspCfg) = g
  have href : refOf 0x0A00 c = g.ref := by rw [← hg]
  rw [href]
  change (Reply.later, dspWaiting ⟨(f.core.openCmd g.ref).setDsp { f.core.dsp with cfg := f.core.dsp.cfg ++ [g] }, f.dram⟩) = _
  rw [hcfg, List.nil_append]
  rw [dspWaiting_begins (f := ⟨(f.core.openCmd g.ref).setDsp { f.core.dsp with cfg := [g] }, f.dram⟩) (g := g) (rest := []) hpush hrun rfl hcommits]
  rfl
/-- What a started command has left is read as its body left it. -/
theorem Cmd.Begun.reads {k : Cmd} {s t : State} {x : Core} {m : Dram} (h : k.Begun s ⟨x, m⟩ t) (f : Fld) (n : Nat) :
    t.field.core.rd f n = x.rd f n := by
  obtain ⟨l, rfl⟩ := h
  exact Core.rd_congr rfl f n
theorem Finished.dsp {x c : Core} (h : Finished x c) : c.dsp = x.dsp := by
  unfold Finished at h
  rw [h]
theorem Finished.open_ {x c : Core} (h : Finished x c) : c.cmdq.open_ = x.cmdq.open_ := by
  unfold Finished at h
  rw [h]
theorem dspConfig_answers (c : Call) (id : BitVec 24) (w h mbps : BitVec 16) (answer : Option (BitVec 24)) (s : State)
    (hc : CleanHeader c 12) (hr : Runs c 0x0A00 2 s) (hw1 : 1 ≤ w.toNat) (hw : w.toNat ≤ 1920) (hh1 : 1 ≤ h.toNat) (hh : h.toNat ≤ 1200)
    (hm1 : 80 ≤ mbps.toNat) (hm : mbps.toNat ≤ 1500) (hpush : s.field.core.dsp.push = none) (hcommits : s.field.core.dsp.commits = [])
    (hrun : s.field.core.dsp.run = none) (hcfg : s.field.core.dsp.cfg = []) :
    Answers (.dspConfig c id w h mbps answer) s fun t =>
      let g : DspCfg := ⟨refOf 0x0A00 c, id.toNat, w.toNat, h.toNat, mbps.toNat, answer.map BitVec.toNat⟩
      Started c 0x0A00 t ∧ t.field.core.dspState = 1 ∧ t.field.core.dsp.rst = true ∧
      t.field.core.dsp.run = some ⟨g, s.field.core.etime, 1⟩ ∧
      t.field.core.rd DSP_PANEL.WIDTH = w.toNat ∧ t.field.core.rd DSP_PANEL.HEIGHT = h.toNat ∧
      t.field.core.rd DSP_PANEL_ID.ID = id.toNat ∧
      CommandFrame c 0x0A00 [DSP_PANEL.WIDTH.key 0, DSP_PANEL.HEIGHT.key 0, DSP_PANEL_ID.ID.key 0,
        DSP_STATUS.STATE.key 0, DSP_STATUS.PENDING.key 0, DSP_STATUS.PUSHING.key 0] s t := by
  have hdsp : (s.taken c 0x0A00).field.core.dsp = s.field.core.dsp := by rw [taken_core]
  have hbody := dspConfig_idle (c := c) (id := id.toNat) (answer := answer.map BitVec.toNat) (f := (s.taken c 0x0A00).field) ⟨hw1, hw⟩
    ⟨hh1, hh⟩ ⟨hm1, hm⟩ (by rw [hdsp, hpush]) (by rw [hdsp, hcommits]) (by rw [hdsp, hrun]) (by rw [hdsp, hcfg])
  have hplain : (cmdDspConfig c id.toNat w.toNat h.toNat mbps.toNat (answer.map BitVec.toNat)).lengthCheck = none := by
    simp [Cmd.lengthCheck, cmdDspConfig, hc.len, hc.sg]
  obtain ⟨t, hexec, ht⟩ := Cmd.runs_begun (k := cmdDspConfig c id.toNat w.toNat h.toNat mbps.toNat (answer.map BitVec.toNat))
    (i := .dspConfig c id w h mbps answer) rfl hr (hc.header (by decide)) rfl (by simp [cmdDspConfig, hc.sg]) hplain
    (hc.params (k := cmdDspConfig c id.toNat w.toNat h.toNat mbps.toNat _)) hbody
  have htime := taken_etime c 0x0A00 s
  have htaken := SameRegs.taken c 0x0A00 panelKeys s
  have hdram := taken_dram c 0x0A00 s
  generalize hg : (⟨refOf 0x0A00 c, id.toNat, w.toNat, h.toNat, mbps.toNat, answer.map BitVec.toNat⟩ : DspCfg) = g at *
  have hgw : g.width = w.toNat := by rw [← hg]
  have hgh : g.height = h.toNat := by rw [← hg]
  have hgid : g.id = id.toNat := by rw [← hg]
  have href : g.ref = refOf 0x0A00 c := by rw [← hg]
  obtain ⟨⟨hst, hwid, hhei, hpid⟩, hrst, hrn, hopen⟩ := (s.taken c 0x0A00).field.core.configured_spec g (by omega) (by omega)
    (hgid ▸ id.isLt)
  have hregs := SameRegs.configured (s.taken c 0x0A00).field.core g
  generalize (s.taken c 0x0A00).field.core.configured g = x at *
  have hrest := ht.rest
  have hframe := ht.frame hdram (htaken.trans (hregs.mono (List.subset_append_right commandKeys _)))
  refine ⟨t, hexec, ?_, (ht.reads _ _).trans hst, hrest.dsp.symm ▸ hrst, ?_, (ht.reads _ _).trans (hwid.trans hgw),
    (ht.reads _ _).trans (hhei.trans hgh), (ht.reads _ _).trans (hpid.trans hgid), hframe⟩
  · unfold Started
    rw [hrest.open_, ← href]
    exact hopen
  · rw [hrest.dsp, hrn, htime]

/-! ### The steps of a configuration (R565) -/

/-- A command that completes late: its entry joins those of the host, and of the display's record nothing changes. -/
theorem Core.closeCmd_closes (x : Core) {r : CmdRef} (rep : Reply) (hopen : r ∈ x.cmdq.open_) (hsrc : r.src = .host) :
    (x.closeCmd r rep).cmdq.done = x.cmdq.done ++ [⟨1, rep.status, r.tag, r.q, r.opcode, r.index, x.etime, rep.result x.free⟩] ∧
    SameRegs commandKeys x (x.closeCmd r rep) ∧
    (rep.status ≠ 0xFE → ((x.closeCmd r rep).cmdq.events, (x.closeCmd r rep).cmdq.fifo, (x.closeCmd r rep).cmdq.evSeq) =
      (x.cmdq.events, x.cmdq.fifo, x.cmdq.evSeq)) ∧
    (x.closeCmd r rep).dsp = x.dsp ∧ (x.closeCmd r rep).tck.running = x.tck.running := by
  have hclose : x.closeCmd r rep = Core.complete { x with cmdq := { x.cmdq with
      open_ := dropFirst (· == r) x.cmdq.open_ } } .host r.opcode r.tag r.q r.index rep := by
    unfold Core.closeCmd
    rw [if_pos (List.contains_iff_mem.2 hopen), hsrc]
  rw [hclose]
  obtain ⟨hev, hentry, hrest, hregs⟩ := Core.complete_completes { x with cmdq := { x.cmdq with
      open_ := dropFirst (· == r) x.cmdq.open_ } } .host r.opcode r.tag r.q r.index rep
  refine ⟨hentry, fun f n hf => (hregs f n hf).trans (Core.rd_congr rfl f n), hev, hrest.dsp, ?_⟩
  unfold Finished at hrest
  rw [hrest]
theorem Core.dspStep_none {s : Core} (h : s.dsp.run = none) : s.dspStep = s := by
  unfold Core.dspStep
  rw [h]
/-- A step that ends the configuration is the last that is made. -/
theorem dspSteps_ends {f : Field} (hrun : f.core.dspStep.dsp.run = none) (hcfg : f.core.dspStep.dsp.cfg = []) :
    dspSteps f = f.onCore fun _ => f.core.dspStep := by
  have h4 : f.core.dspStep.dspStep.dspStep.dspStep = f.core.dspStep := by
    rw [Core.dspStep_none hrun, Core.dspStep_none hrun, Core.dspStep_none hrun]
  unfold dspSteps
  rw [show (f.onCore fun s => s.dspStep.dspStep.dspStep.dspStep) = f.onCore fun _ => f.core.dspStep from
    congrArg (fun c => (⟨c, f.dram⟩ : Field)) h4]
  exact dspWaiting_none hcfg
theorem Core.emit_mod (s : Core) (code data tag : Nat) : s.emit code (data % 2 ^ 128) tag = s.emit code data tag := by
  unfold Core.emit
  rw [Nat.mod_mod]
/-- A configuration ends: its event, and the entry of its command. -/
theorem Core.emit_closes (s : Core) {r : CmdRef} (rep : Reply) (code data : Nat) (hopen : r ∈ s.cmdq.open_) (hsrc : r.src = .host)
    (hst : rep.status ≠ 0xFE) :
    ((s.emit code data).closeCmd r rep).cmdq.done =
      s.cmdq.done ++ [⟨1, rep.status, r.tag, r.q, r.opcode, r.index, s.etime, rep.result s.free⟩] ∧
    s.Raised ((s.emit code data).closeCmd r rep) code (data % 2 ^ 128) ∧ ((s.emit code data).closeCmd r rep).dsp = s.dsp ∧
    SameRegs commandKeys s ((s.emit code data).closeCmd r rep) := by
  have hq := QuietEvents.emit s code data 0
  have hraised : s.Raised (s.emit code data) code (data % 2 ^ 128) := by
    rw [← s.emit_mod code data 0]
    exact s.raised_emit _ _ _ (Nat.mod_lt _ (by decide))
  have hregs : SameRegs commandKeys s (s.emit code data) := (SameRegs.refl commandKeys s).emit _ _ _
  have hfree : (s.emit code data).free = s.free := Core.emit_free _ _ _ _
  generalize s.emit code data = y at *
  have hopen' : r ∈ y.cmdq.open_ := by rwa [show y.cmdq.open_ = s.cmdq.open_ from hq.touches .open_ (by decide)]
  obtain ⟨hdone, hregs', hev, hdsp, hrun⟩ := y.closeCmd_closes rep hopen' hsrc
  obtain ⟨hevents, hfifo, hseq⟩ : _ ∧ _ ∧ _ := by simpa only [Prod.mk.injEq] using hev hst
  refine ⟨?_, hraised.congr rfl rfl rfl hfifo hevents hseq hrun, hdsp.trans (hq.touches .dsp (by decide)), hregs.trans hregs'⟩
  rw [hdone, hq.done, hq.etime, hfree]
/-- The port as a configuration leaves it. -/
theorem Core.setDsp_state (s : Core) (x : DspSt) (v : Nat) :
    ((s.setDsp x).wr DSP_STATUS.STATE v).dspState = v % 4 ∧ ((s.setDsp x).wr DSP_STATUS.STATE v).dsp = x :=
  ⟨Core.rd_wr _ _ _ _, rfl⟩
/-- The end of a configuration whose panel has answered its identity. -/
theorem Core.dspEnd_ready (s : Core) {g : DspCfg} (hopen : g.ref ∈ s.cmdq.open_) (hsrc : g.ref.src = .host) :
    (s.dspEnd g true).dspState = 2 ∧ (s.dspEnd g true).dsp = { s.dsp with run := none, readyAt := s.etime } ∧
    (s.dspEnd g true).cmdq.done = s.cmdq.done ++ [⟨1, 0, g.ref.tag, g.ref.q, g.ref.opcode, g.ref.index, s.etime, 0⟩] ∧
    s.Raised (s.dspEnd g true) 0x0E06 (g.id % 2 ^ 128) := by
  obtain ⟨hst, hdsp⟩ := s.setDsp_state { s.dsp with run := none, readyAt := s.etime } 2
  obtain ⟨hdone, hraised, hdsp', hregs⟩ := Core.emit_closes ((s.setDsp { s.dsp with run := none, readyAt := s.etime }).wr DSP_STATUS.STATE 2)
    (.ok 0) 0x0E06 g.id hopen hsrc (by decide)
  exact ⟨(hregs _ _ (by decide)).trans hst, hdsp'.trans hdsp, hdone, hraised.congr rfl rfl rfl rfl rfl rfl rfl⟩
theorem Core.dspEnd_refused (s : Core) {g : DspCfg} (hopen : g.ref ∈ s.cmdq.open_) (hsrc : g.ref.src = .host) :
    (s.dspEnd g false).dspState = 3 ∧ (s.dspEnd g false).dsp = { s.dsp with run := none, rst := true } ∧
    (s.dspEnd g false).cmdq.done = s.cmdq.done ++
      [⟨1, 0x40, g.ref.tag, g.ref.q, g.ref.opcode, g.ref.index, s.etime, detailResult 0 0xFFFF 0x0E41⟩] ∧
    ((s.dspEnd g false).newest 0x0E41).map (·.1) = some 0x0E41 := by
  obtain ⟨hst, hdsp⟩ := s.setDsp_state { s.dsp with run := none, rst := true } 3
  obtain ⟨hdone, ⟨hnew, -⟩, hdsp', hregs⟩ := Core.emit_closes ((s.setDsp { s.dsp with run := none, rst := true }).wr DSP_STATUS.STATE 3)
    (.err 0x40 0 0xFFFF (some 0x0E41)) 0x0E41 (g.answer.getD 0 + at_ 3 (if g.answer.isSome then 2 else 1)) hopen hsrc (by decide)
  exact ⟨(hregs _ _ (by decide)).trans hst, hdsp'.trans hdsp, hdone, congrArg (Option.map (·.1)) hnew⟩
/-- The last step of a configuration, and the refusal of a panel (R146). -/
theorem dspSteps_last {f : Field} {x : DspStart} (hrun : f.core.dsp.run = some x) (hcfg : f.core.dsp.cfg = []) (hdue : x.due ≤ f.core.etime)
    (hopen : x.cfg.ref ∈ f.core.cmdq.open_) (hsrc : x.cfg.ref.src = .host) (hstep : x.step = 4) :
    (dspSteps f).core.dspState = 2 ∧ (dspSteps f).core.dsp.run = none ∧ (dspSteps f).core.dsp.readyAt = f.core.etime ∧
    (dspSteps f).core.cmdq.done =
      f.core.cmdq.done ++ [⟨1, 0, x.cfg.ref.tag, x.cfg.ref.q, x.cfg.ref.opcode, x.cfg.ref.index, f.core.etime, 0⟩] ∧
    (dspSteps f).core.dsp.out = [[0x3A, 0x77], [0x35, 0x00], [0x29]] ∧ f.core.Raised (dspSteps f).core 0x0E06 (x.cfg.id % 2 ^ 128) := by
  have heq : ∃ y : Core, f.core.dspStep = y.dspEnd x.cfg true ∧ y.cmdq = f.core.cmdq ∧ y.etime = f.core.etime ∧ y.tck = f.core.tck ∧
      y.dsp.cfg = f.core.dsp.cfg ∧ y.dsp.out = [[0x3A, 0x77], [0x35, 0x00], [0x29]] := by
    unfold Core.dspStep
    rw [hrun]
    dsimp only
    rw [if_neg (Nat.not_lt.2 hdue), hstep]
    exact ⟨_, rfl, rfl, rfl, rfl, rfl, rfl⟩
  obtain ⟨y, hy, hq, htime, htck, hycfg, hout⟩ := heq
  obtain ⟨hst, hdsp, hdone, hraised⟩ := y.dspEnd_ready (g := x.cfg) (hq ▸ hopen) hsrc
  have hend := dspSteps_ends (f := f) (by rw [hy, hdsp]) (by rw [hy, hdsp]; exact hycfg.trans hcfg)
  rw [hy] at hend
  rw [hend]
  simp only [Field.onCore]
  refine ⟨hst, by rw [hdsp], by rw [hdsp, htime], by rw [hdone, hq, htime], by rw [hdsp, hout], ?_⟩
  exact hraised.congr (by rw [hq]) (by rw [hq]) (by rw [htck]) rfl rfl rfl rfl
theorem dspSteps_refused {f : Field} {x : DspStart} (hrun : f.core.dsp.run = some x) (hcfg : f.core.dsp.cfg = []) (hdue : x.due ≤ f.core.etime)
    (hopen : x.cfg.ref ∈ f.core.cmdq.open_) (hsrc : x.cfg.ref.src = .host) (hstep : x.step = 2) (hanswer : x.cfg.answer ≠ some x.cfg.id) :
    (dspSteps f).core.dspState = 3 ∧ (dspSteps f).core.dsp.run = none ∧ (dspSteps f).core.dsp.rst = true ∧
    (dspSteps f).core.cmdq.done = f.core.cmdq.done ++
      [⟨1, 0x40, x.cfg.ref.tag, x.cfg.ref.q, x.cfg.ref.opcode, x.cfg.ref.index, f.core.etime, detailResult 0 0xFFFF 0x0E41⟩] ∧
    ((dspSteps f).core.newest 0x0E41).map (·.1) = some 0x0E41 := by
  have heq : ∃ y : Core, f.core.dspStep = y.dspEnd x.cfg false ∧ y.cmdq = f.core.cmdq ∧ y.etime = f.core.etime ∧
      y.dsp.cfg = f.core.dsp.cfg := by
    unfold Core.dspStep
    rw [hrun]
    dsimp only
    rw [if_neg (Nat.not_lt.2 hdue), hstep]
    rw [if_neg hanswer]
    exact ⟨_, rfl, rfl, rfl, rfl⟩
  obtain ⟨y, hy, hq, htime, hycfg⟩ := heq
  obtain ⟨hst, hdsp, hdone, hnew⟩ := y.dspEnd_refused (g := x.cfg) (hq ▸ hopen) hsrc
  have hend := dspSteps_ends (f := f) (by rw [hy, hdsp]) (by rw [hy, hdsp]; exact hycfg.trans hcfg)
  rw [hy] at hend
  rw [hend]
  simp only [Field.onCore]
  exact ⟨hst, by rw [hdsp], by rw [hdsp], by rw [hdone, hq, htime], hnew⟩

/-! ### Edges of TE (R569, R570) -/

/-- What an accepted edge measures and shows, before any commit is judged. -/
def Core.teSeen (s : Core) : Core :=
  let s := match s.dsp.lastEdge with
    | some t => s.wr DSP_TE.PERIOD_US (satU 20 ((s.etime - t) / 1000))
    | none => s
  let s := s.wr2 DSP_LAST_TE_LO.ETIME DSP_LAST_TE_HI.ETIME s.etime
  if s.rdb DSP_STATUS.TE_OK then s else (s.wr DSP_STATUS.TE_OK 1).emit 0x0E05 (at_ 4 (s.rd DSP_TE.PERIOD_US))
/-- The registers that show it. -/
def teKeys : List Nat := [DSP_TE.PERIOD_US.key 0, DSP_LAST_TE_LO.ETIME.key 0, DSP_LAST_TE_HI.ETIME.key 0, DSP_STATUS.TE_OK.key 0,
  DSP_STATUS.PENDING.key 0, DSP_STATUS.PUSHING.key 0, LOG_EVT_OVWR_CNT.COUNT.key 0]
/-- A value of any size in a pair of 32-bit fields. -/
theorem Core.rd2_wr2_mod (s : Core) {lo hi : Fld} (v : Nat) {n : Nat} (hne : lo.key n ≠ hi.key n) (hlo : lo.width = 32) (hhi : hi.width = 32) :
    (s.wr2 lo hi v n).rd2 lo hi n = v % 2 ^ 64 := by
  unfold Core.rd2 Core.wr2
  rw [Core.rd_wr_ne _ _ _ _ _ _ hne, Core.rd_wr, Core.rd_wr, hlo, hhi, Nat.mod_mod, show (2 : Nat) ^ 64 = 2 ^ 32 * 2 ^ 32 from rfl,
    Nat.mod_mul]
theorem Core.teSeen_spec (s : Core) :
    QuietEvents s s.teSeen ∧ SameRegs teKeys s s.teSeen ∧
    (∀ t0, s.dsp.lastEdge = some t0 → s.teSeen.rd DSP_TE.PERIOD_US = satU 20 ((s.etime - t0) / 1000)) ∧
    s.teSeen.rd2 DSP_LAST_TE_LO.ETIME DSP_LAST_TE_HI.ETIME = s.etime % 2 ^ 64 ∧
    s.teSeen.rd DSP_STATUS.TE_OK = (if s.rd DSP_STATUS.TE_OK = 0 then 1 else s.rd DSP_STATUS.TE_OK) ∧
    (s.rd DSP_STATUS.TE_OK = 0 → (s.teSeen.newest 0x0E05).map (·.1) = some 0x0E05) := by
  unfold Core.teSeen
  extract_lets a b
  have ha : QuietEvents s a ∧ SameRegs teKeys s a ∧ a.etime = s.etime ∧
      (∀ t0, s.dsp.lastEdge = some t0 → a.rd DSP_TE.PERIOD_US = satU 20 ((s.etime - t0) / 1000)) ∧
      a.rd DSP_STATUS.TE_OK = s.rd DSP_STATUS.TE_OK := by
    cases hl : s.dsp.lastEdge with
    | none =>
      rw [show a = s by simp only [a, hl]]
      exact ⟨rfl, .refl _ s, rfl, fun t0 h => absurd h (by simp), rfl⟩
    | some t0 =>
      simp only [a, hl]
      refine ⟨rfl, (SameRegs.refl teKeys s).wr _, rfl, fun t1 h => ?_, Core.rd_wr_ne _ _ _ _ _ _ (by decide)⟩
      rw [Core.rd_wr, ← Option.some.inj h]
      exact Nat.mod_eq_of_lt (satU_lt _ _)
  clear_value a
  obtain ⟨haq, har, hat, hap, hate⟩ := ha
  have hb : QuietEvents a b := rfl
  have hbr : SameRegs teKeys a b := ((SameRegs.refl teKeys a).wr _).wr _
  have hbp : b.rd DSP_TE.PERIOD_US = a.rd DSP_TE.PERIOD_US := Core.rd_wr2_ne _ _ _ _ _ _ _ (by decide) (by decide)
  have hbte : b.rd DSP_STATUS.TE_OK = a.rd DSP_STATUS.TE_OK := Core.rd_wr2_ne _ _ _ _ _ _ _ (by decide) (by decide)
  have hbe : b.rd2 DSP_LAST_TE_LO.ETIME DSP_LAST_TE_HI.ETIME = s.etime % 2 ^ 64 := by
    rw [← hat]
    exact a.rd2_wr2_mod _ (by decide) rfl rfl
  clear_value b
  have hbq : QuietEvents s b := haq.trans hb
  have hbregs : SameRegs teKeys s b := har.trans hbr
  have hper : ∀ t0, s.dsp.lastEdge = some t0 → b.rd DSP_TE.PERIOD_US = satU 20 ((s.etime - t0) / 1000) := fun t0 h =>
    hbp.trans (hap t0 h)
  have hte := hbte.trans hate
  split
  next hon =>
    have hne : s.rd DSP_STATUS.TE_OK ≠ 0 := fun h => by
      rw [Core.rdb_eq_false (hte.trans h)] at hon
      exact absurd hon (by decide)
    exact ⟨hbq, hbregs, hper, hbe, by rw [if_neg hne, hte], fun h => absurd h hne⟩
  next hoff =>
    have hz : s.rd DSP_STATUS.TE_OK = 0 := by
      by_contra h
      exact hoff (Core.rdb_eq_true (hte.symm ▸ h))
    have hw : QuietEvents b (b.wr DSP_STATUS.TE_OK 1) := rfl
    have hrd : ∀ f : Fld, f.key 0 ≠ DSP_STATUS.TE_OK.key 0 → f.key 0 ≠ LOG_EVT_OVWR_CNT.COUNT.key 0 →
        ((b.wr DSP_STATUS.TE_OK 1).emit 0x0E05 (at_ 4 (b.rd DSP_TE.PERIOD_US))).rd f = b.rd f := fun f h h' =>
      (Core.rd_emit_ne _ _ _ _ _ _ h').trans (Core.rd_wr_ne _ _ _ _ _ _ h)
    have hwr : SameRegs teKeys b (b.wr DSP_STATUS.TE_OK 1) := (SameRegs.refl teKeys b).wr _
    refine ⟨hbq.trans (hw.trans (.emit _ _ _ _)), (hbregs.trans hwr).emit _ _ _, fun t0 h =>
      (hrd DSP_TE.PERIOD_US (by decide) (by decide)).trans (hper t0 h),
      ?_, ?_, fun _ => ?_⟩
    · unfold Core.rd2
      rw [hrd DSP_LAST_TE_LO.ETIME (by decide) (by decide), hrd DSP_LAST_TE_HI.ETIME (by decide) (by decide)]
      exact hbe
    · rw [if_pos hz, Core.rd_emit_ne _ _ _ _ _ _ (by decide), Core.rd_wr]
      rfl
    · rw [Core.newest_emit]
      rfl

/-- The judging of the commits where none has an edge. -/
theorem Core.missWindows_none {s : Core} (h : ∀ c ∈ s.dsp.commits, c.edge = none) : s.missWindows = s.setDsp s.dsp := by
  have hfold : ∀ (l : List DspCommit) (acc : List DspCommit), (∀ c ∈ l, c.edge = none) →
      l.foldl (fun (acc : List DspCommit × Core) c =>
        let (c, s) := acc.2.missWindow c
        (acc.1 ++ [c], s)) (acc, s) = (acc ++ l, s) := by
    intro l
    induction l with
    | nil => exact fun acc _ => by rw [List.append_nil]; rfl
    | cons c l ih =>
      intro acc hl
      have hc : s.missWindow c = (c, s) := by
        unfold Core.missWindow
        rw [hl c List.mem_cons_self]
      rw [List.foldl_cons]
      dsimp only
      rw [hc, ih _ fun c' h' => hl c' (List.mem_cons_of_mem _ h'), List.append_assoc]
      rfl
  unfold Core.missWindows
  rw [hfold _ _ h]
  rfl
/-- An edge that is accepted with no push under way, where no commit has an edge already: each commit that is due takes it. -/
def DspSt.edged (x : DspSt) (now prime : Nat) : DspSt :=
  { x with
    lastEdge := some now, noTe := false
    push := x.push.map fun c => if c.start < now then { c with span := true } else c
    commits := x.commits.map fun c => if c.edge.isNone ∧ (c.late ∨ c.eligible + prime ≤ now) then { c with edge := some now } else c }
theorem doDspTeEdge_eq {s : Core} (hst : s.dspState = 2) (hlast : ∀ t0, s.dsp.lastEdge = some t0 → t0 + 8000000 ≤ s.etime)
    (hnone : ∀ c ∈ s.dsp.commits, c.edge = none) :
    doDspTeEdge s = ((s.teSeen.setDsp s.dsp).setDsp (s.dsp.edged s.etime (1000 * s.rd DSP_TIMING.PRIME_US))).dspStart := by
  obtain ⟨hq, hregs, -⟩ := s.teSeen_spec
  have hdsp : s.teSeen.dsp = s.dsp := hq.touches .dsp (by decide)
  have htime : s.teSeen.etime = s.etime := hq.etime
  have hprime : (s.teSeen.setDsp s.dsp).rd DSP_TIMING.PRIME_US = s.rd DSP_TIMING.PRIME_US :=
    (Core.rd_setDsp_ne _ _ _ (by decide)).trans (hregs _ _ (by decide))
  have hmiss : s.teSeen.missWindows = s.teSeen.setDsp s.dsp := by
    rw [Core.missWindows_none (hdsp ▸ hnone), hdsp]
  have hdo : doDspTeEdge s = (s.teSeen.missWindows.setDsp (s.teSeen.missWindows.dsp.edged s.teSeen.missWindows.etime
      (1000 * s.teSeen.missWindows.rd DSP_TIMING.PRIME_US))).dspStart := by
    unfold doDspTeEdge
    dsimp only
    rw [if_neg ?_]
    · rfl
    · rintro (h | h)
      · exact h hst
      · split at h
        next t0 he => exact absurd (hlast t0 he) (Nat.not_le.2 (of_decide_eq_true h))
        next => exact Bool.false_ne_true h
  rw [hdo, hmiss, hprime, ← htime]
  rfl
section
variable {s : State} (hboot : s.field.core.bootState ≠ 1) (hst : s.field.core.dspState = 2) (hpush : s.field.core.dsp.push = none)
  (hlast : ∀ t0, s.field.core.dsp.lastEdge = some t0 → t0 + 8000000 ≤ s.field.core.etime)
include hboot hst hpush hlast
/-- The state behind an edge that finds no commit. -/
theorem dspTeEdge_idle (hcommits : s.field.core.dsp.commits = []) : Answers .dspTeEdge s fun t =>
    (∀ t0, s.field.core.dsp.lastEdge = some t0 → t.field.core.rd DSP_TE.PERIOD_US = satU 20 ((s.field.core.etime - t0) / 1000)) ∧
    t.field.core.dsp = { s.field.core.dsp with lastEdge := some s.field.core.etime, noTe := false } ∧
    t.field.core.rd2 DSP_LAST_TE_LO.ETIME DSP_LAST_TE_HI.ETIME = s.field.core.etime % 2 ^ 64 ∧
    t.field.core.rd DSP_STATUS.TE_OK = (if s.field.core.rd DSP_STATUS.TE_OK = 0 then 1 else s.field.core.rd DSP_STATUS.TE_OK) ∧
    (s.field.core.rd DSP_STATUS.TE_OK = 0 → (t.field.core.newest 0x0E05).map (·.1) = some 0x0E05) ∧
    SameRegs teKeys s.field.core t.field.core ∧ CoreOnly s t := by
  refine answers_of_onRunning (g := doDspTeEdge) rfl hboot ?_
  have hdo := doDspTeEdge_eq hst hlast (by rw [hcommits]; exact fun c h => nomatch h)
  have hedged : s.field.core.dsp.edged s.field.core.etime (1000 * s.field.core.rd DSP_TIMING.PRIME_US) =
      { s.field.core.dsp with lastEdge := some s.field.core.etime, noTe := false } := by
    generalize s.field.core.dsp = d at hpush hcommits ⊢
    cases d
    cases hpush
    cases hcommits
    rfl
  obtain ⟨hq, hregs, hper, hlate, hte, hnew⟩ := s.field.core.teSeen_spec
  generalize s.field.core.teSeen = y at *
  rw [hedged] at hdo
  generalize hx : ({ s.field.core.dsp with lastEdge := some s.field.core.etime, noTe := false } : DspSt) = x at *
  have hstart : ((y.setDsp s.field.core.dsp).setDsp x).dspStart = (y.setDsp s.field.core.dsp).setDsp x := by
    have hp : ((y.setDsp s.field.core.dsp).setDsp x).dsp.push = none := by rw [← hpush, ← hx]; rfl
    have hc : ((y.setDsp s.field.core.dsp).setDsp x).dsp.commits = [] := by rw [← hcommits, ← hx]; rfl
    unfold Core.dspStart
    rw [hp, hc]
  have hrd : ∀ f : Fld, f.key 0 ∉ shownKeys → ((y.setDsp s.field.core.dsp).setDsp x).rd f = y.rd f := fun f hf =>
    (Core.rd_setDsp_ne _ _ f hf).trans (Core.rd_setDsp_ne _ _ f hf)
  have hall : SameRegs teKeys s.field.core ((y.setDsp s.field.core.dsp).setDsp x) := (hregs.setDsp _).setDsp _
  simp only [State.onCore, Field.onCore, hdo, hstart]
  refine ⟨fun t0 h => (hrd _ (by decide)).trans (hper t0 h), rfl, ?_, (hrd _ (by decide)).trans hte, fun h => ?_, hall, rfl, rfl, rfl⟩
  · unfold Core.rd2
    rw [hrd DSP_LAST_TE_LO.ETIME (by decide), hrd DSP_LAST_TE_HI.ETIME (by decide)]
    exact hlate
  · exact hnew h
/-- An edge starts the one commit that is due. -/
theorem dspTeEdge_starts {k : DspCommit} (hcommits : s.field.core.dsp.commits = [k]) (hedge : k.edge = none)
    (hdue : k.eligible + 1000 * s.field.core.rd DSP_TIMING.PRIME_US ≤ s.field.core.etime) : Answers .dspTeEdge s fun t =>
    t.field.core.dsp.push = some { k with edge := some s.field.core.etime, start := s.field.core.etime } ∧
    t.field.core.dsp.commits = [] ∧ t.field.core.rd DSP_STATUS.PUSHING = 1 ∧
    t.field.core.rd DSP_STATUS.PENDING = 0 ∧ SameOutside [0x18, 0x1B] s.field.core t.field.core ∧ CoreOnly s t := by
  refine answers_of_onRunning (g := doDspTeEdge) rfl hboot ?_
  have hdo := doDspTeEdge_eq hst hlast (by rw [hcommits]; simpa using hedge)
  obtain ⟨hq, hregs, -⟩ := s.field.core.teSeen_spec
  have htime := hq.etime
  generalize s.field.core.teSeen = y at *
  generalize hx : s.field.core.dsp.edged s.field.core.etime (1000 * s.field.core.rd DSP_TIMING.PRIME_US) = x at *
  have hxpush : x.push = none := by
    rw [← hx]
    exact congrArg (Option.map _) hpush
  have hxcommits : x.commits = [{ k with edge := some s.field.core.etime }] := by
    rw [← hx]
    unfold DspSt.edged
    simp only [hcommits, List.map_cons, List.map_nil]
    rw [if_pos ⟨by rw [hedge]; rfl, .inr hdue⟩]
  have hst' : ((y.setDsp s.field.core.dsp).setDsp x).dspState = 2 :=
    ((Core.rd_setDsp_ne _ _ _ (by decide)).trans (Core.rd_setDsp_ne _ _ _ (by decide))).trans ((hregs _ _ (by decide)).trans hst)
  have hall : SameRegs teKeys s.field.core ((y.setDsp s.field.core.dsp).setDsp x) := (hregs.setDsp _).setDsp _
  have hstart : ((y.setDsp s.field.core.dsp).setDsp x).dspStart = ((y.setDsp s.field.core.dsp).setDsp x).setDsp
      { x with commits := [], push := some { k with edge := some s.field.core.etime, start := s.field.core.etime } } := by
    have hp : ((y.setDsp s.field.core.dsp).setDsp x).dsp.push = none := hxpush
    have hc : ((y.setDsp s.field.core.dsp).setDsp x).dsp.commits = [{ k with edge := some s.field.core.etime }] := hxcommits
    have he : ((y.setDsp s.field.core.dsp).setDsp x).etime = s.field.core.etime := htime
    unfold Core.dspStart
    rw [hp, hc]
    dsimp only
    rw [if_neg (not_not.2 hst'), if_pos (show (some s.field.core.etime).isSome = true from rfl), he]
    rfl
  simp only [State.onCore, Field.onCore, hdo, hstart]
  generalize (y.setDsp s.field.core.dsp).setDsp x = z at *
  obtain ⟨hpend, hpushing⟩ := z.rd_setDsp
    { x with commits := [], push := some { k with edge := some s.field.core.etime, start := s.field.core.etime } }
  exact ⟨rfl, rfl, hpushing, hpend, (hall.setDsp _).outside (by decide), rfl, rfl, rfl⟩
end

/-- Data wider than an entry's is cut to it. -/
theorem Core.raised_emit_mod {a s : Core} {code : Nat} (data tag : Nat) (hq : s.cmdq = a.cmdq) (ht : s.tck.running = a.tck.running) :
    a.Raised (s.emit code data tag) code (data % 2 ^ 128) := by
  rw [← Core.emit_mod]
  exact Core.raised_emit_of (Nat.mod_lt _ (by decide)) hq ht

theorem Core.dspStart_none {s : Core} (h : s.dsp.commits = []) : s.dspStart = s := by
  unfold Core.dspStart
  rw [h]
  cases s.dsp.push <;> rfl
/-- The loss of TE shown and reported. -/
def Core.teLost (s : Core) : Core :=
  ((s.reach (s.dsp.lastEdge.getD s.dsp.readyAt + 100000000)).wr DSP_STATUS.TE_OK 0).emit 0x0E04 (at_ 4 (s.rd DSP_TE.PERIOD_US))
theorem doDspTeLost_eq {s : Core} (hst : s.dspState = 2) (hno : s.dsp.noTe = false) (hcommits : s.dsp.commits = []) :
    doDspTeLost s = s.teLost.setDsp { s.dsp with noTe := true } := by
  have hdsp : s.teLost.dsp = s.dsp := Core.emit_dsp ..
  have hdo : doDspTeLost s = (s.teLost.setDsp { s.teLost.dsp with noTe := true }).dspStart := by
    unfold doDspTeLost
    rw [if_neg (by rw [hno]; exact fun h => h.elim (fun h => h hst) Bool.false_ne_true)]
    rfl
  rw [hdo, hdsp]
  generalize hx : ({ s.dsp with noTe := true } : DspSt) = x
  have hc : (s.teLost.setDsp x).dsp.commits = [] := by rw [← hcommits, ← hx]; rfl
  exact Core.dspStart_none hc
/-- The fields that show it. -/
def teLostKeys : List Nat :=
  [DSP_STATUS.TE_OK.key 0, DSP_STATUS.PENDING.key 0, DSP_STATUS.PUSHING.key 0, LOG_EVT_OVWR_CNT.COUNT.key 0]
theorem Core.teLost_spec (s : Core) :
    s.teLost.etime = max s.etime (s.dsp.lastEdge.getD s.dsp.readyAt + 100000000) ∧ s.teLost.rd DSP_STATUS.TE_OK = 0 ∧
    s.Raised s.teLost 0x0E04 (at_ 4 (s.rd DSP_TE.PERIOD_US) % 2 ^ 128) ∧ SameRegs teLostKeys s s.teLost := by
  have hregs : SameRegs teLostKeys s (s.reach (s.dsp.lastEdge.getD s.dsp.readyAt + 100000000)) := .of_regs rfl
  refine ⟨by rw [Core.teLost, Core.emit_etime, Core.wr, Core.reach], ?_, Core.raised_emit_mod _ _ rfl rfl, (hregs.wr _).emit _ _ _⟩
  rw [Core.teLost, Core.rd_emit_ne _ _ _ _ _ _ (by decide), Core.rd_wr]
  rfl
/-- No edge for 100 ms: commits go without one. -/
theorem dspTeLost_noTe {s : State} (hboot : s.field.core.bootState ≠ 1) (hst : s.field.core.dspState = 2)
    (hno : s.field.core.dsp.noTe = false) (hcommits : s.field.core.dsp.commits = []) : Answers .dspTeLost s fun t =>
      t.field.core.etime = max s.field.core.etime (s.field.core.dsp.lastEdge.getD s.field.core.dsp.readyAt + 100000000) ∧
      t.field.core.rd DSP_STATUS.TE_OK = 0 ∧ t.field.core.dsp = { s.field.core.dsp with noTe := true } ∧
      s.field.core.Raised t.field.core 0x0E04 (at_ 4 (s.field.core.rd DSP_TE.PERIOD_US) % 2 ^ 128) ∧
      SameRegs teLostKeys s.field.core t.field.core ∧ CoreOnly s t := by
  refine answers_of_onRunning (g := doDspTeLost) rfl hboot ?_
  obtain ⟨htime, hz, hraised, hregs⟩ := s.field.core.teLost_spec
  simp only [State.onCore, Field.onCore, doDspTeLost_eq hst hno hcommits]
  generalize s.field.core.teLost = y at *
  exact ⟨htime, (Core.rd_setDsp_ne _ _ _ (by decide)).trans hz, rfl, hraised.congr rfl rfl rfl rfl rfl rfl rfl, hregs.setDsp _, rfl, rfl, rfl⟩

/-! ### The end of a push (R568, R573) -/

/-- A key the filter keeps is read as before. -/
theorem mget_filter {α : Type} (d : α) {p : Nat × α → Bool} {k : Nat} (hk : ∀ v, p (k, v) = true) (m : SMap α) :
    mget d (m.filter p) k = mget d m k := by
  induction m with
  | nil => rfl
  | cons e m ih =>
    by_cases he : e.1 = k
    · have hp : p e = true := by simpa [← he] using hk e.2
      rw [List.filter_cons_of_pos hp, mget, mget, if_pos he, if_pos he]
    · rw [mget, if_neg he, ← ih]
      by_cases hp : p e = true
      · rw [List.filter_cons_of_pos hp, mget, if_neg he]
      · rw [List.filter_cons_of_neg hp]
/-- A range given back leaves the other bytes. -/
theorem Dram.get_free_out (m : Dram) (a n : Nat) {x : Nat} (h : x < a ∨ a + n ≤ x) : (m.free a n).get x = m.get x :=
  mget_filter _ (fun _ => decide_eq_true (by omega)) _
/-- The line buffer behind some bytes more. -/
def lineBufWith (buf px : Bytes) : Bytes := (buf ++ px).drop (buf.length + px.length - 65536)
/-- The record of a push that has ended, `buf` in the line buffer and `px` on the link. -/
def DspSt.pushed (x : DspSt) (k : DspCommit) (buf px : Bytes) : DspSt :=
  { x with push := none, lineBuf := buf, out := dspPackets k.regions px }
/-- The requests of a push's fetch. -/
def Core.pushReads (s : Core) (k : DspCommit) : Core :=
  let a := k.base + 16 * k.regions.length
  let n := k.len - 16 * k.regions.length
  let low := min (s.rd DSP_WM.LOW) n
  s.requests (s.reqs false 1 a low ++ s.reqs false 3 (a + low) (n - low))
theorem DspSt.pushed_of_fetched (x : DspSt) (k : DspCommit) (buf px : Bytes) :
    ({ ({ x with lineBuf := buf } : DspSt) with push := none, out := dspPackets k.regions px } : DspSt) = x.pushed k buf px := rfl
theorem Core.meets_none (s : Core) {m : Dram} (a n : Nat) (h : m.poison = []) : s.meets m a n = s := by
  unfold Core.meets Dram.marked
  rw [h]
  rfl
theorem dspFetch_clean {f : Field} {k : DspCommit} (h : f.dram.poison = []) :
    dspFetch k f = ⟨(f.core.pushReads k).setDsp { (f.core.pushReads k).dsp with
      lineBuf := lineBufWith (f.core.pushReads k).dsp.lineBuf (dspPixels f.core f.dram k) }, f.dram.spend⟩ := by
  have hmeet : ∀ (y z : Core) (g : Core → Core), z = y → (⟨g z, f.dram.spend⟩ : Field) = ⟨g y, f.dram.spend⟩ := by
    rintro y _ g rfl
    rfl
  exact hmeet _ _ (fun y => y.setDsp { y.dsp with lineBuf := lineBufWith y.dsp.lineBuf (dspPixels f.core f.dram k) }) (Core.meets_none _ _ _ h)
/-- A push that has ended is reported. -/
def Core.pushDone (s : Core) (k : DspCommit) (x : DspSt) : Core := ((s.setDsp x).inc DSP_COMMIT_CNT.DONE).commitDone k false false
theorem doDspPushEnd_clean {f : Field} {k : DspCommit} (hpush : f.core.dsp.push = some k) (hcfg : f.core.dsp.cfg = [])
    (hcommits : f.core.dsp.commits = []) (h : f.dram.poison = []) :
    ∃ y, Within [0x04, 0x18] [.mem, .dsp] f.core y ∧ y.rd DSP_COMMIT_CNT.DONE = f.core.rd DSP_COMMIT_CNT.DONE ∧
      doDspPushEnd 0 none f = ⟨((y.pushDone k (f.core.dsp.pushed k (lineBufWith f.core.dsp.lineBuf (dspPixels f.core f.dram k)) (dspPixels f.core f.dram k))).freeRegions [k.base]).setDsp
        (f.core.dsp.pushed k (lineBufWith f.core.dsp.lineBuf (dspPixels f.core f.dram k)) (dspPixels f.core f.dram k)), f.dram.spend.free k.base (alignUp k.len 4096)⟩ := by
  have hq : Served f.core (f.core.pushReads k) := Core.requests_served ..
  have hfetch := dspFetch_clean (k := k) h
  have hdsp : (f.core.pushReads k).dsp = f.core.dsp := hq.parts .dsp (by decide)
  have hw := hq.within
  generalize f.core.pushReads k = q at *
  rw [hdsp] at hfetch
  have hx : ({ ({ f.core.dsp with lineBuf := lineBufWith f.core.dsp.lineBuf (dspPixels f.core f.dram k) } : DspSt) with
      push := none, out := dspPackets k.regions (dspPixels f.core f.dram k) } : DspSt) = f.core.dsp.pushed k (lineBufWith f.core.dsp.lineBuf (dspPixels f.core f.dram k)) (dspPixels f.core f.dram k) :=
    DspSt.pushed_of_fetched ..
  have hxc : (f.core.dsp.pushed k (lineBufWith f.core.dsp.lineBuf (dspPixels f.core f.dram k)) (dspPixels f.core f.dram k)).commits = [] := hcommits
  have hxf : (f.core.dsp.pushed k (lineBufWith f.core.dsp.lineBuf (dspPixels f.core f.dram k)) (dspPixels f.core f.dram k)).cfg = [] := hcfg
  generalize f.core.dsp.pushed k (lineBufWith f.core.dsp.lineBuf (dspPixels f.core f.dram k)) (dspPixels f.core f.dram k) = x at *
  generalize ({ f.core.dsp with lineBuf := lineBufWith f.core.dsp.lineBuf (dspPixels f.core f.dram k) } : DspSt) = z at *
  have hw' : Within [0x18] [.dsp] q (q.setDsp z) :=
    Within.wrs (n := 0) (l := [(DSP_STATUS.PENDING, _), (DSP_STATUS.PUSHING, _)]) ((Within.refl _ _ q).dsp _)
  refine ⟨q.setDsp z, (hw.mono (by decide) (by decide)).next hw', (Core.rd_setDsp_ne _ _ _ (by decide)).trans (hw.rd _ _ (by decide)), ?_⟩
  have hyd : (q.setDsp z).dsp = z := rfl
  generalize q.setDsp z = y at *
  unfold doDspPushEnd
  split
  next hn => exact nomatch hpush.symm.trans hn
  next c hc =>
    obtain rfl : k = c := Option.some.inj (hpush.symm.trans hc)
    rw [hfetch]
    extract_lets px g s s1 s2 sent s3 d s4 g1 g2
    have hs3 : s3 = y := rfl
    have hsent : sent = px := if_pos ⟨rfl, rfl⟩
    have hd : d = z := hyd
    have hs4 : s4 = (y.setDsp x).inc DSP_COMMIT_CNT.DONE := by
      rw [← hx]
      simp only [s4, hd, hsent, hs3, px]
    have hg1 : g1 = ⟨(y.pushDone k x).freeRegions [k.base], f.dram.spend.free k.base (alignUp k.len 4096)⟩ := by
      have hbne : ((0 : Nat) != 0) = false := rfl
      simp only [g1, hs4, hbne, freeCommit, Core.pushDone, g]
    have hg1d : g1.core.dsp = x := by
      rw [hg1]
      exact Core.emit_dsp ..
    have hg2 : g2 = g1 := dspWaiting_none ((congrArg DspSt.cfg hg1d).trans hxf)
    have hmiss : g1.core.missWindows = g1.core.setDsp x := by
      rw [Core.missWindows_none (by rw [hg1d, hxc]; exact fun c h => nomatch h), hg1d]
    have hidle : (g1.core.setDsp x).dspStart = g1.core.setDsp x := Core.dspStart_none hxc
    rw [hg2, Field.onCore, hmiss, hidle, hg1]
theorem Core.pushDone_spec (s : Core) (k : DspCommit) (x : DspSt) :
    (s.pushDone k x).rd DSP_COMMIT_CNT.DONE = satU 16 (s.rd DSP_COMMIT_CNT.DONE + 1) ∧
    (s.pushDone k x).rd DSP_LAST.COMMIT = k.num % 65536 ∧ (s.pushDone k x).rd DSP_LAST.UNDERRUN = 0 ∧
    s.Raised (s.pushDone k x) 0x0E01 ((k.num + at_ 2 (dspFlags k.late false k.span false k.noTe) + at_ 8 (k.edge.getD 0)) % 2 ^ 128) ∧
    (s.pushDone k x).jobs = s.jobs := by
  have hdone : ((s.setDsp x).inc DSP_COMMIT_CNT.DONE).rd DSP_COMMIT_CNT.DONE = satU 16 (s.rd DSP_COMMIT_CNT.DONE + 1) := by
    rw [Core.rd_inc_self, Core.rd_setDsp_ne _ _ _ (by decide)]
    rfl
  have hcq : ((s.setDsp x).inc DSP_COMMIT_CNT.DONE).cmdq = s.cmdq := rfl
  have htr : ((s.setDsp x).inc DSP_COMMIT_CNT.DONE).tck.running = s.tck.running := rfl
  have hjobs : ((s.setDsp x).inc DSP_COMMIT_CNT.DONE).jobs = s.jobs := rfl
  unfold Core.pushDone Core.commitDone
  generalize (s.setDsp x).inc DSP_COMMIT_CNT.DONE = y at *
  simp only [Core.wrs, List.foldl_cons, List.foldl_nil]
  have hrd : ∀ (f : Fld) (z : Core) (c d : Nat), f.key 0 ≠ LOG_EVT_OVWR_CNT.COUNT.key 0 → (z.emit c d).rd f = z.rd f :=
    fun f z c d h => Core.rd_emit_ne _ _ _ _ _ _ h
  refine ⟨?_, ?_, ?_, Core.raised_emit_mod _ _ hcq htr, (Core.emit_jobs ..).trans hjobs⟩
  · rw [hrd _ _ _ _ (by decide)]
    iterate 6 rw [Core.rd_wr_ne _ _ _ _ _ _ (by decide)]
    exact hdone
  · rw [hrd _ _ _ _ (by decide)]
    iterate 5 rw [Core.rd_wr_ne _ _ _ _ _ _ (by decide)]
    exact Core.rd_wr ..
  · rw [hrd _ _ _ _ (by decide)]
    iterate 3 rw [Core.rd_wr_ne _ _ _ _ _ _ (by decide)]
    rw [Core.rd_wr]
    rfl
theorem dspPushEnd_ends {s : State} (hboot : s.field.core.bootState ≠ 1) {k : DspCommit} (hpush : s.field.core.dsp.push = some k)
    (hcfg : s.field.core.dsp.cfg = []) (hcommits : s.field.core.dsp.commits = []) (hpoison : s.field.dram.poison = []) :
    Answers (.dspPushEnd 0 none) s fun t =>
      (let all := s.field.core.dsp.lineBuf ++ dspPixels s.field.core s.field.dram k
       t.field.core.dsp = { s.field.core.dsp with
         push := none, lineBuf := all.drop (all.length - 65536)
         out := dspPackets k.regions (dspPixels s.field.core s.field.dram k) }) ∧
      t.field.core.rd DSP_COMMIT_CNT.DONE = satU 16 (s.field.core.rd DSP_COMMIT_CNT.DONE + 1) ∧
      t.field.core.rd DSP_LAST.COMMIT = k.num % 65536 ∧ t.field.core.rd DSP_LAST.UNDERRUN = 0 ∧
      t.field.core.rd DSP_STATUS.PUSHING = 0 ∧
      s.field.core.Raised t.field.core 0x0E01
        ((k.num + at_ 2 (dspFlags k.late false k.span false k.noTe) + at_ 8 (k.edge.getD 0)) % 2 ^ 128) ∧
      (∀ r ∈ t.field.core.jobs.regions, r ∈ s.field.core.jobs.regions ∧ r.1 ≠ k.base) ∧
      SameBytes k.base (alignUp k.len 4096) s.field.dram t.field.dram ∧ t.pending = s.pending ∧ t.host = s.host := by
  refine answers_of_onRunningField (g := doDspPushEnd 0 none) rfl hboot ?_
  obtain ⟨y, hyw, hycount, hdo⟩ := doDspPushEnd_clean hpush hcfg hcommits hpoison
  have hlen : (s.field.core.dsp.lineBuf ++ dspPixels s.field.core s.field.dram k).length =
      s.field.core.dsp.lineBuf.length + (dspPixels s.field.core s.field.dram k).length := List.length_append
  simp only [hdo]
  rw [hlen]
  have hbuf : (s.field.core.dsp.lineBuf ++ dspPixels s.field.core s.field.dram k).drop
      (s.field.core.dsp.lineBuf.length + (dspPixels s.field.core s.field.dram k).length - 65536) =
      lineBufWith s.field.core.dsp.lineBuf (dspPixels s.field.core s.field.dram k) := by rw [lineBufWith]
  rw [hbuf]
  generalize lineBufWith s.field.core.dsp.lineBuf (dspPixels s.field.core s.field.dram k) = buf
  generalize dspPixels s.field.core s.field.dram k = px
  have hxp : (s.field.core.dsp.pushed k buf px).push = none := rfl
  have hx : s.field.core.dsp.pushed k buf px = { s.field.core.dsp with push := none, lineBuf := buf, out := dspPackets k.regions px } := rfl
  generalize s.field.core.dsp.pushed k buf px = x at *
  obtain ⟨hdone, hcommit, hunder, hraised, hjobs⟩ := y.pushDone_spec k x
  generalize y.pushDone k x = z at *
  have hqueue : y.cmdq = s.field.core.cmdq := hyw.parts .cmdq (by decide)
  have htck : y.tck = s.field.core.tck := hyw.parts .tck (by decide)
  have hregions : z.jobs = s.field.core.jobs := hjobs.trans (hyw.parts .jobs (by decide))
  have hrd : ∀ f : Fld, f.key 0 ∉ shownKeys → ((z.freeRegions [k.base]).setDsp x).rd f = z.rd f := fun f hf =>
    (Core.rd_setDsp_ne _ _ _ hf).trans (Core.rd_congr rfl _ _)
  refine ⟨hx, (hrd _ (by decide)).trans (hdone.trans (by rw [hycount])), (hrd _ (by decide)).trans hcommit,
    (hrd _ (by decide)).trans hunder, ?_, ?_, fun r hr => ?_, fun a ha => ?_, trivial, trivial⟩
  · rw [(Core.rd_setDsp _ x).2, hxp]
    rfl
  · exact hraised.congr (by rw [hqueue]) (by rw [hqueue]) (by rw [htck]) rfl rfl rfl rfl
  · obtain ⟨hin, hne⟩ := List.mem_filter.1 (hregions ▸ hr : r ∈ s.field.core.jobs.regions.filter fun r => !([k.base].contains r.1))
    exact ⟨hin, by simpa using hne⟩
  · exact Dram.get_free_out s.field.dram.spend k.base (alignUp k.len 4096) ha

/-! ### DSP_COMMIT (R566, R567) -/

/-- The bytes of a write are read back. -/
theorem Dram.get_puts_in (bs : Bytes) (m : Dram) (a : Nat) {i : Nat} (h : i < bs.length) : (m.puts a bs).get (a + i) = bs.getD i 0 := by
  induction bs generalizing m a i with
  | nil => exact absurd h (Nat.not_lt_zero i)
  | cons b bs ih =>
    cases i with
    | zero =>
      rw [Dram.puts, Dram.get_puts_out bs _ (.inl (by omega)), Nat.add_zero, Dram.get_put]
      rfl
    | succ i =>
      rw [Dram.puts, show a + (i + 1) = (a + 1) + i by omega, ih _ _ (Nat.lt_of_succ_lt_succ h)]
      rfl
theorem Dram.get_write_in (m : Dram) (a : Nat) (bs : Bytes) {i : Nat} (h : i < bs.length) :
    (m.write a bs).get (a + i) = bs.getD i 0 := Dram.get_puts_in bs m a h
/-- A region table all of whose entries hold and whose sizes add up is taken. -/
theorem Core.dspTable_none {s : Core} {n len : Nat} {d : Bytes}
    (hok : ∀ i, i < n → dspRegionOk (s.rd DSP_PANEL.WIDTH) (s.rd DSP_PANEL.HEIGHT) d i = true)
    (hlen : len = 16 * n + 3 * (dspRegions n d).foldl (fun a r => a + r.2.2.1 * r.2.2.2) 0)
    (harea : (dspRegions n d).foldl (fun a r => a + r.2.2.1 * r.2.2.2) 0 ≤ s.rd DSP_PANEL.WIDTH * s.rd DSP_PANEL.HEIGHT) :
    s.dspTable n len d = none := by
  have hfind : ((List.range n).find? fun i => !dspRegionOk (s.rd DSP_PANEL.WIDTH) (s.rd DSP_PANEL.HEIGHT) d i) = none :=
    List.find?_eq_none.2 fun i hi => by simp [hok i (List.mem_range.1 hi)]
  unfold Core.dspTable
  simp only [hfind]
  rw [if_neg]
  rintro (h | h)
  · exact h hlen
  · exact absurd h (Nat.not_lt.2 harea)
/-- A commit that has just been made. -/
def freshCommit (num base len : Nat) (regions : List (Nat × Nat × Nat × Nat)) (now : Nat) : DspCommit :=
  ⟨num, base, len, regions, now, none, 0, 0, false, false, false⟩
/-- The record with one commit more. -/
def DspSt.commit (x : DspSt) (k : DspCommit) : DspSt := { x with next := (x.next + 1) % 65536, commits := x.commits ++ [k] }
theorem Core.dspStart_waits {s : Core} {k : DspCommit} (hpush : s.dsp.push = none) (hcommits : s.dsp.commits = [k]) (hedge : k.edge = none)
    (hno : s.dsp.noTe = false) : s.dspStart = s := by
  unfold Core.dspStart
  rw [hpush, hcommits]
  simp only [hedge, hno]
  split <;> rfl
theorem dspCommit_commits {c : Call} {n base : Nat} {f : Field} {d : Bytes} {x : Core} (hn : 1 ≤ n ∧ n ≤ 16) (hcommits : f.core.dsp.commits = [])
    (hpush : f.core.dsp.push = none) (hno : f.core.dsp.noTe = false) (hst : f.core.dspState = 2)
    (hsize : dlenOf c = d.length) (hmoved : c.bulk.dmaFail = none) (hlanded : c.bulk.data = d)
    (halloc : f.core.allocJob d.length = some (base, x)) (hroom : d.length ≤ f.core.jobFree)
    (htable : f.core.dspTable n d.length d = none) (hx : x.dsp = f.core.dsp ∧ x.etime = f.core.etime) :
    dspCommit c n f = (.ok f.core.dsp.next, ⟨(x.stores 2 base d.length).setDsp (f.core.dsp.commit
      (freshCommit f.core.dsp.next base d.length (dspRegions n d) f.core.etime)), f.dram.write base d⟩) := by
  have htake : d.take d.length = d := List.take_length
  have hq : Served x (x.stores 2 base d.length) := Core.requests_served ..
  have hdsp : (x.stores 2 base d.length).dsp = f.core.dsp := (hq.parts .dsp (by decide)).trans hx.1
  have htime : (x.stores 2 base d.length).etime = f.core.etime := (hq.parts .etime (by decide)).trans hx.2
  generalize hk : freshCommit f.core.dsp.next base d.length (dspRegions n d) f.core.etime = k
  have hidle : ((x.stores 2 base d.length).setDsp (f.core.dsp.commit k)).dspStart = (x.stores 2 base d.length).setDsp (f.core.dsp.commit k) :=
    Core.dspStart_waits (k := k) hpush (by rw [Core.setDsp_only]; exact (congrArg (· ++ [k]) hcommits)) (by rw [← hk]; rfl) hno
  unfold dspCommit
  simp only [hsize, hlanded, hmoved, htake, halloc, htable]
  rw [if_neg (by omega), if_neg (by rw [hcommits]; simp), if_neg (Nat.not_lt.2 hroom), if_neg (not_not.2 hst), if_neg (by simp),
    if_neg (Nat.lt_irrefl _)]
  generalize x.stores 2 base d.length = y at *
  simp only [hdsp, htime]
  have hsame : ∀ z, z = y.setDsp (f.core.dsp.commit k) → (Reply.ok f.core.dsp.next, (⟨z.dspStart, f.dram.write base d⟩ : Field)) =
      (.ok f.core.dsp.next, ⟨y.setDsp (f.core.dsp.commit k), f.dram.write base d⟩) := by
    rintro _ rfl
    rw [hidle]
  exact hsame _ (by rw [← hk]; rfl)
theorem dspCommit_answers {c : Call} {regions : Byte} {d : Bytes} {base : Nat} {x : Core} {s : State} (hc : BulkHeader c 4 d)
    (hr : Runs c 0x0A01 1 s) (hst : s.field.core.dspState = 2) (hn : 1 ≤ regions.toNat ∧ regions.toNat ≤ 16)
    (hcommits : s.field.core.dsp.commits = []) (hpush : s.field.core.dsp.push = none) (hno : s.field.core.dsp.noTe = false)
    (hnext : s.field.core.dsp.next < 65536) (halloc : s.field.core.allocJob d.length = some (base, x))
    (hroom : d.length ≤ s.field.core.jobFree) (hmax : d.length ≤ 6912256)
    (htable : s.field.core.dspTable regions.toNat d.length d = none) : Answers (.dspCommit c regions) s fun t =>
      Completed c 0x0A01 0 s.field.core.dsp.next s t ∧ t.field.core.dsp.next = (s.field.core.dsp.next + 1) % 65536 ∧
      t.field.core.dsp.commits = [⟨s.field.core.dsp.next, base, d.length, dspRegions regions.toNat d, s.field.core.etime, none,
        0, 0, false, false, false⟩] ∧
      t.field.core.rd DSP_STATUS.PENDING = 1 ∧ t.field.core.jobs.regions = x.jobs.regions ∧
      (∀ i, i < d.length → t.field.dram.get (base + i) = d.getD i 0) ∧
      SameBytes base d.length s.field.dram t.field.dram ∧
      SameOutside [0x01, 0x04, 0x18, 0x1B] s.field.core t.field.core := by
  have hout := taken_outside c 0x0A01 s
  have hquiet := Quiet.taken c 0x0A01 s
  have hjobs : (s.taken c 0x0A01).field.core.jobs = s.field.core.jobs := hquiet.jobs
  have hdsp : (s.taken c 0x0A01).field.core.dsp = s.field.core.dsp := by rw [taken_core]
  have htime := taken_etime c 0x0A01 s
  have hways := hout MEM_STATUS.WAYS 0 (by decide)
  have hdram := taken_dram c 0x0A01 s
  have hfree : (s.taken c 0x0A01).field.core.jobFree = s.field.core.jobFree := by
    unfold Core.jobFree
    rw [hjobs, hways]
  have htable0 : (s.taken c 0x0A01).field.core.dspTable regions.toNat d.length d = none := by
    unfold Core.dspTable at htable ⊢
    rw [hout DSP_PANEL.WIDTH 0 (by decide), hout DSP_PANEL.HEIGHT 0 (by decide)]
    exact htable
  obtain ⟨-, halloc0⟩ := allocJob_congr hways (by rw [hjobs]) halloc
  have hbody := dspCommit_commits (c := c) hn (by rw [hdsp, hcommits]) (by rw [hdsp, hpush]) (by rw [hdsp, hno])
    ((hout DSP_STATUS.STATE 0 (by decide)).trans hst) hc.size hc.moved hc.landed halloc0 (hroom.trans hfree.ge) htable0 ⟨rfl, rfl⟩
  rw [hdsp, htime, hdram] at hbody
  generalize hk : freshCommit s.field.core.dsp.next base d.length (dspRegions regions.toNat d) s.field.core.etime = k at *
  have hxw : Within [] [.jobs] (s.taken c 0x0A01).field.core ((s.taken c 0x0A01).field.core.withRegions x.jobs.regions) :=
    (Within.refl _ _ _).jobs _
  have hxr : ((s.taken c 0x0A01).field.core.withRegions x.jobs.regions).jobs.regions = x.jobs.regions := rfl
  have hxt : ((s.taken c 0x0A01).field.core.withRegions x.jobs.regions).etime = s.field.core.etime := htime
  have hxa : (((s.taken c 0x0A01).field.core.withRegions x.jobs.regions).cmdq.done,
      ((s.taken c 0x0A01).field.core.withRegions x.jobs.regions).cmdq.fspTx) =
      ((s.taken c 0x0A01).field.core.cmdq.done, (s.taken c 0x0A01).field.core.cmdq.fspTx) := rfl
  generalize (s.taken c 0x0A01).field.core.withRegions x.jobs.regions = x0 at *
  have hq : Served x0 (x0.stores 2 base d.length) := Core.requests_served ..
  generalize x0.stores 2 base d.length = y at *
  have hyw : SameOutside [0x01, 0x04, 0x18] s.field.core (y.setDsp (s.field.core.dsp.commit k)) :=
    (((hout.mono (by decide)).trans (hxw.regs.mono (by decide))).trans (hq.within.regs.mono (by decide))).trans
      (((SameRegs.refl shownKeys y).setDsp _).outside (by decide))
  have hcq : (y.setDsp (s.field.core.dsp.commit k)).cmdq = x0.cmdq := hq.parts .cmdq (by decide)
  have hzt : (y.setDsp (s.field.core.dsp.commit k)).etime = s.field.core.etime := (hq.parts .etime (by decide) : y.etime = x0.etime).trans hxt
  have hzj : (y.setDsp (s.field.core.dsp.commit k)).jobs.regions = x.jobs.regions := by
    refine Eq.trans ?_ hxr
    exact congrArg JobSt.regions (hq.parts .jobs (by decide) : y.jobs = x0.jobs)
  have hzp : (y.setDsp (s.field.core.dsp.commit k)).rd DSP_STATUS.PENDING = 1 := by
    rw [(y.rd_setDsp _).1]
    simp only [DspSt.commit, hcommits]
    rfl
  have hzd : (y.setDsp (s.field.core.dsp.commit k)).dsp = s.field.core.dsp.commit k := rfl
  generalize y.setDsp (s.field.core.dsp.commit k) = z at *
  obtain ⟨t, hexec, htd, ht⟩ := Cmd.runs_wrote (k := cmdDspCommit c regions.toNat) (i := .dspCommit c regions) (x := ⟨z, s.field.dram.write base d⟩)
    rfl hr (hc.header (by decide)) rfl (fun h => absurd (hc.host.symm.trans h.1) (by decide))
    (Cmd.lengthCheck_bulk (k := cmdDspCommit c regions.toNat) hc List.mem_cons_self rfl rfl hmax)
    (BulkHeader.params (k := cmdDspCommit c regions.toNat) hc) hbody (.inl ⟨_, rfl⟩) hzt (by rw [hcq]; exact hxa)
  have htdsp : t.field.core.dsp = s.field.core.dsp.commit k := ht.rest.dsp.trans hzd
  have hres : s.field.core.dsp.next % 2 ^ 128 = s.field.core.dsp.next := Nat.mod_eq_of_lt (hnext.trans (by decide))
  have hdone : Completed c 0x0A01 0 (s.field.core.dsp.next % 2 ^ 128) s t := ht.completed
  have hcommit : (s.field.core.dsp.commit k).commits = [k] := congrArg (· ++ [k]) hcommits
  refine ⟨t, hexec, by rwa [hres] at hdone, by rw [htdsp]; rfl, by rw [htdsp, hcommit, ← hk]; rfl, (ht.rd _ _ (by decide)).trans hzp,
    (congrArg JobSt.regions ht.rest.quiet.jobs).trans hzj, fun i hi => ?_, fun a ha => ?_, ?_⟩
  · rw [htd]
    exact Dram.get_write_in _ _ _ hi
  · rw [htd]
    exact Dram.get_write_out _ _ _ ha
  · exact (hyw.mono (by decide)).trans (ht.regs.outside (fun k' h => (by decide : [0x01, 0x1B] ⊆ [0x01, 0x04, 0x18, 0x1B])
      (commandKeys_blocks k' h)))

/-- Settles O59: the display's configuration, its commits, its edges of TE and the end of a push. -/
theorem displayConfiguresAndPushes : Obligations.DisplayConfiguresAndPushes := by
  unfold Obligations.DisplayConfiguresAndPushes
  refine ⟨dspConfig_answers, ?_, ?_, fun s hboot hst => ⟨fun hpush hlast => ⟨?_, ?_, ?_⟩, ?_, ?_⟩⟩
  · intro f x hrun hcfg hdue hopen hsrc
    exact ⟨dspSteps_last hrun hcfg hdue hopen hsrc, dspSteps_refused hrun hcfg hdue hopen hsrc⟩
  · intro c regions d base x s hc hr hst hmin hmax hcommits hpush hno hnext halloc hroom hlen hok harea _
    exact dspCommit_answers hc hr hst ⟨hmin, hmax⟩ hcommits hpush hno hnext halloc hroom hlen (Core.dspTable_none hok harea.1 harea.2)
  · intro t0 hlast0 hcommits
    obtain ⟨t, hexec, hper, -, -, -, -, hregs, hcore⟩ := dspTeEdge_idle hboot hst hpush hlast hcommits
    exact ⟨t, hexec, hper t0 hlast0, hregs.outside (by decide), hcore⟩
  · intro hcommits
    obtain ⟨t, hexec, -, ht⟩ := dspTeEdge_idle hboot hst hpush hlast hcommits
    exact ⟨t, hexec, ht⟩
  · exact fun k hcommits hedge hdue => dspTeEdge_starts hboot hst hpush hlast hcommits hedge hdue
  · exact fun k hpush hcfg hcommits hpoison => dspPushEnd_ends hboot hpush hcfg hcommits hpoison
  · exact fun hno hcommits => dspTeLost_noTe hboot hst hno hcommits

end Sys2Proof.Machine
end

section
/-! PROOF. The head links (O51 to O54; spec/10_head_link.md R412 to R447): training, loss, settings and traffic. -/

namespace Sys2Proof.Machine

set_option Elab.async false

/-! ### Records of links and their registers -/

theorem Core.ln_setLn (s : Core) (l : Nat) (x : LinkSt) : (s.setLn l x).ln l = x := mget_mset _ _ _ _
theorem Core.ln_congr {a b : Core} (h : b.hlk = a.hlk) (l : Nat) : b.ln l = a.ln l := by rw [Core.ln, h, Core.ln]
theorem SameRegs.setLn {ks : List Nat} {a b : Core} (h : SameRegs ks a b) (l : Nat) (x : LinkSt) : SameRegs ks a (b.setLn l x) :=
  h.trans (.of_regs rfl)
/-- Registers that each link has once. -/
def Fld.ofLink (f : Fld) : Bool := f.sub == 1 && f.stride == 0x400
/-- Two fields that repeat at one stride have different keys where those of their first copies differ. -/
theorem strideKey_ne {f g : Fld} {n : Nat}
    (h : (f.sub == 1 && g.sub == 1 && f.stride == g.stride && decide (f.key 0 ≠ g.key 0)) = true := by decide) : f.key n ≠ g.key n := by
  simp only [Bool.and_eq_true, beq_iff_eq, decide_eq_true_eq] at h
  obtain ⟨⟨⟨hf, hg⟩, hs⟩, hne⟩ := h
  simp only [Fld.key, Fld.addr, hf, hg, hs, Nat.div_one, Nat.mod_one] at hne ⊢
  omega
/-- The registers of links are not those of events. -/
theorem linkKey_free {f : Fld} {l : Nat} (hl : l < 24)
    (h : (f.ofLink && decide (f.key 0 + 0x8000 * 24 < LOG_EVT_OVWR_CNT.COUNT.key 0)) = true := by decide) :
    f.key l ≠ LOG_EVT_OVWR_CNT.COUNT.key 0 := by
  simp only [Fld.ofLink, Bool.and_eq_true, beq_iff_eq, decide_eq_true_eq] at h
  obtain ⟨⟨hf, hf'⟩, hlt⟩ := h
  have hle : f.key l = f.key 0 + 0x8000 * l := by
    simp only [Fld.key, Fld.addr, hf, hf', Nat.div_one, Nat.mod_one]
    omega
  omega
/-! ### What leaves a link -/

/-- Blocks that leave change the stream alone, and stand behind those already out. -/
structure LinkSt.Sent (bs : List Bytes) (x y : LinkSt) : Prop where
  rest : y = { x with fwd := y.fwd, out := y.out, pos := y.pos, aligned := y.aligned, scrA := y.scrA, scrB := y.scrB, wire := y.wire }
  kept : ∀ b ∈ x.out, b ∈ y.out
  sent : ∀ b ∈ bs, b ∈ y.out
theorem LinkSt.Sent.refl (x : LinkSt) : LinkSt.Sent [] x x := ⟨rfl, fun _ h => h, fun _ h => nomatch h⟩
theorem LinkSt.Sent.trans {as bs : List Bytes} {x y z : LinkSt} (h : Sent as x y) (h' : Sent bs y z) : Sent (as ++ bs) x z :=
  ⟨by rw [h'.rest, h.rest], fun b hb => h'.kept b (h.kept b hb), fun b hb =>
    (List.mem_append.1 hb).elim (fun hb => h'.kept b (h.sent b hb)) (h'.sent b)⟩
theorem LinkSt.onLane_sent (x : LinkSt) (lane : Nat) (b : Bytes) : Sent [b] x (x.onLane lane b) := by
  have hout : (x.onLane lane b).out = x.out ++ [b] := by
    unfold LinkSt.onLane
    extract_lets r y
    split <;> rfl
  refine ⟨?_, fun c hc => hout ▸ List.mem_append_left _ hc, fun c hc => hout ▸ List.mem_append_right _ hc⟩
  unfold LinkSt.onLane
  extract_lets r y
  split <;> rfl
theorem LinkSt.align_sent (x : LinkSt) : Sent [alignBlock, alignBlock] x x.align := by
  have h : Sent [] x { x with aligned := x.pos } := ⟨rfl, fun _ h => h, fun _ h => nomatch h⟩
  exact (h.trans (onLane_sent _ 0 alignBlock)).trans (onLane_sent _ 1 alignBlock)
theorem LinkSt.next_sent (x : LinkSt) (b : Bytes) : Sent [b] x (x.next b) := by
  unfold LinkSt.next
  extract_lets y
  have hy : ∃ as, Sent as x y := by
    simp only [y]
    split
    · exact ⟨_, .refl x⟩
    · exact ⟨_, x.align_sent⟩
  clear_value y
  obtain ⟨as, hy⟩ := hy
  have hpos : Sent [] y { y with pos := y.pos + 1 } := ⟨rfl, fun _ h => h, fun _ h => nomatch h⟩
  have hall := (hy.trans hpos).trans (onLane_sent { y with pos := y.pos + 1 } (y.pos % 2) b)
  exact ⟨hall.rest, hall.kept, fun c hc => hall.sent c (List.mem_append_right _ hc)⟩
theorem LinkSt.send_sent (x : LinkSt) (bs : List Bytes) : Sent bs x (x.send bs) := by
  induction bs generalizing x with
  | nil => exact .refl x
  | cons b bs ih => exact (x.next_sent b).trans (ih _)

/-! ### Training begins (R428, R429) -/

theorem Core.trainStart_spec (s : Core) (l : Nat) : (s.trainStart l).linkState l = 2 ∧ ((s.trainStart l).ln l).tx = true ∧
    ((s.trainStart l).ln l).restartAt = none ∧ SameRegs [HLK_STATUS.STATE.key l] s (s.trainStart l) ∧ (s.trainStart l).etime = s.etime := by
  unfold Core.trainStart
  generalize hx : ({ s.ln l with tx := true, txAt := none, restartAt := none, pos := 0 } : LinkSt) = x
  have hs := (x.fresh.align_sent).trans (x.fresh.align.send_sent [idleBlock, idleBlock])
  have hstate : ((s.wr HLK_STATUS.STATE 2 l).setLn l (x.fresh.align.send [idleBlock, idleBlock])).linkState l = 2 :=
    (Core.rd_wr s HLK_STATUS.STATE 2 l).trans rfl
  have hregs : SameRegs [HLK_STATUS.STATE.key l] s (s.wr HLK_STATUS.STATE 2 l) := (SameRegs.refl _ s).wr _ (List.mem_cons_self)
  refine ⟨hstate, ?_, ?_, hregs.setLn _ _, rfl⟩
  · rw [Core.ln_setLn, hs.rest, ← hx]
    rfl
  · rw [Core.ln_setLn, hs.rest, ← hx]
    rfl
theorem hlPresent_answers {l : Fin 24} {s : State} (hboot : s.field.core.bootState ≠ 1) (hp : s.field.core.rd HLK_STATUS.PRSNT l.val = 0) :
    Answers (.hlPresent l) s fun t =>
      t.field.core.rd HLK_STATUS.PRSNT l.val = 1 ∧
      t.field.core.linkState l.val = (if s.field.core.fwRuns = true ∧ s.field.core.rdb HLK_CFG.EN l.val = true then 2
        else s.field.core.linkState l.val) ∧
      SameRegs [HLK_STATUS.PRSNT.key l.val, HLK_STATUS.STATE.key l.val] s.field.core t.field.core ∧ CoreOnly s t := by
  have hdo : doHlPresent l.val s.field.core = if s.field.core.fwRuns && s.field.core.rdb HLK_CFG.EN l.val then
      (s.field.core.wr HLK_STATUS.PRSNT 1 l.val).trainStart l.val else s.field.core.wr HLK_STATUS.PRSNT 1 l.val := by
    unfold doHlPresent
    rw [if_neg (by rw [Core.rdb_eq_false hp]; decide), ← Core.rdb_wr_ne s.field.core HLK_STATUS.PRSNT HLK_CFG.EN 1 l.val l.val strideKey_ne]
    have hrun : (s.field.core.wr HLK_STATUS.PRSNT 1 l.val).fwRuns = s.field.core.fwRuns := by
      have hboot : (s.field.core.wr HLK_STATUS.PRSNT 1 l.val).bootState = s.field.core.bootState :=
        Core.rd_wr_ne _ _ _ _ _ _ ((by decide : ∀ l : Fin 24, SYS_BOOT.STATE.key 0 ≠ HLK_STATUS.PRSNT.key l.val) l)
      rw [Core.fwRuns, hboot, Core.fwRuns]
    rw [← hrun]
  have hregs : SameRegs [HLK_STATUS.PRSNT.key l.val, HLK_STATUS.STATE.key l.val] s.field.core (s.field.core.wr HLK_STATUS.PRSNT 1 l.val) :=
    (SameRegs.refl _ _).wr _ List.mem_cons_self
  have hprsnt : (s.field.core.wr HLK_STATUS.PRSNT 1 l.val).rd HLK_STATUS.PRSNT l.val = 1 := Core.rd_wr ..
  have hstate : (s.field.core.wr HLK_STATUS.PRSNT 1 l.val).linkState l.val = s.field.core.linkState l.val := Core.rd_wr_ne _ _ _ _ _ _ strideKey_ne
  refine answers_of_onRunning (g := doHlPresent l.val) rfl hboot ?_
  simp only [State.onCore, Field.onCore, hdo]
  generalize s.field.core.wr HLK_STATUS.PRSNT 1 l.val = y at *
  obtain ⟨hst, -, -, htrain, -⟩ := y.trainStart_spec l.val
  by_cases hgo : s.field.core.fwRuns = true ∧ s.field.core.rdb HLK_CFG.EN l.val = true
  · rw [if_pos (by simpa using hgo), if_pos hgo]
    exact ⟨(htrain _ _ (by simpa using strideKey_ne)).trans hprsnt, hst, hregs.trans (htrain.mono (by simp)), rfl, rfl, rfl⟩
  · rw [if_neg (by simpa using hgo), if_neg hgo]
    exact ⟨hprsnt, hstate, hregs, rfl, rfl, rfl⟩
theorem hlTrainRestart_answers {l : Fin 24} {s : State} (hboot : s.field.core.bootState ≠ 1) {at' : Nat}
    (hat : (s.field.core.ln l.val).restartAt = some at') (hst : s.field.core.linkState l.val = 0)
    (hen : s.field.core.rdb HLK_CFG.EN l.val = true) (hp : s.field.core.rdb HLK_STATUS.PRSNT l.val = true) :
      Answers (.hlTrainRestart l) s fun t =>
        t.field.core.linkState l.val = 2 ∧ t.field.core.etime = max s.field.core.etime at' ∧
        (t.field.core.ln l.val).tx = true ∧ (t.field.core.ln l.val).restartAt = none ∧
        SameRegs [HLK_STATUS.STATE.key l.val] s.field.core t.field.core ∧ CoreOnly s t := by
  have hdo : doHlTrainRestart l.val s.field.core = (s.field.core.reach at').trainStart l.val := by
    unfold doHlTrainRestart
    rw [hat]
    exact if_pos ⟨hst, hen, hp⟩
  obtain ⟨hst', htx, hre, hregs, htime⟩ := (s.field.core.reach at').trainStart_spec l.val
  refine answers_of_onRunning (g := doHlTrainRestart l.val) rfl hboot ?_
  simp only [State.onCore, Field.onCore, hdo]
  exact ⟨hst', htime, htx, hre, (SameRegs.of_regs rfl).trans hregs, rfl, rfl, rfl⟩

/-! ### An attempt fails (R429) -/

/-- The registers of an attempt that fails. -/
def failKeys (l : Nat) : List Nat := [HLK_STATUS.STATE.key l, HLK_STATUS.TRAIN_FAIL.key l, HLK_STATUS.RET_LOCK.key l,
  HLK_LOSS_CNT.TRAIN_FAILS.key l, LOG_EVT_OVWR_CNT.COUNT.key 0]
/-- The registers show the failure. -/
def Core.failShown (s : Core) (l r : Nat) : Core :=
  (s.wrs [(HLK_STATUS.STATE, 0), (HLK_STATUS.TRAIN_FAIL, r), (HLK_STATUS.RET_LOCK, 0)] l).inc HLK_LOSS_CNT.TRAIN_FAILS l
theorem Core.failShown_spec (s : Core) (l : Nat) {r : Nat} (hr : r < 256) : (s.failShown l r).linkState l = 0 ∧
    (s.failShown l r).rd HLK_STATUS.TRAIN_FAIL l = r ∧
    (s.failShown l r).rd HLK_LOSS_CNT.TRAIN_FAILS l = satU 16 (s.rd HLK_LOSS_CNT.TRAIN_FAILS l + 1) ∧
    SameRegs (failKeys l) s (s.failShown l r) := by
  unfold Core.failShown
  have hregs : SameRegs (failKeys l) s (s.wrs [(HLK_STATUS.STATE, 0), (HLK_STATUS.TRAIN_FAIL, r), (HLK_STATUS.RET_LOCK, 0)] l) :=
    (SameRegs.refl _ s).wrs (l := [(HLK_STATUS.STATE, 0), (HLK_STATUS.TRAIN_FAIL, r), (HLK_STATUS.RET_LOCK, 0)]) (by simp [failKeys])
  refine ⟨?_, ?_, ?_, hregs.inc 1 (by simp [failKeys])⟩
  · rw [Core.linkState, Core.rd_inc_ne _ _ _ _ _ _ strideKey_ne]
    simp only [Core.wrs, List.foldl_cons, List.foldl_nil]
    rw [Core.rd_wr_ne _ _ _ _ _ _ strideKey_ne, Core.rd_wr_ne _ _ _ _ _ _ strideKey_ne, Core.rd_wr]
    rfl
  · rw [Core.rd_inc_ne _ _ _ _ _ _ strideKey_ne]
    simp only [Core.wrs, List.foldl_cons, List.foldl_nil]
    rw [Core.rd_wr_ne _ _ _ _ _ _ strideKey_ne, Core.rd_wr]
    exact Nat.mod_eq_of_lt hr
  · rw [Core.rd_inc_self]
    simp only [Core.wrs, List.foldl_cons, List.foldl_nil]
    rw [Core.rd_wr_ne _ _ _ _ _ _ strideKey_ne, Core.rd_wr_ne _ _ _ _ _ _ strideKey_ne, Core.rd_wr_ne _ _ _ _ _ _ strideKey_ne]
    rfl
/-- What an attempt that fails leaves. -/
structure TrainFailed (l r : Nat) (s t : Core) : Prop where
  state : t.linkState l = 0
  why : t.rd HLK_STATUS.TRAIN_FAIL l = r
  count : t.rd HLK_LOSS_CNT.TRAIN_FAILS l = satU 16 (s.rd HLK_LOSS_CNT.TRAIN_FAILS l + 1)
  off : (t.ln l).tx = false
  again : (t.ln l).restartAt = some (s.etime + 100000000)
  event : (s.ln l).failSaidAt = none → s.Raised t 0x0903 (l + at_ 1 r + at_ 4 (satU 32 ((s.ln l).failsUnsaid + 1)))
  regs : SameRegs (failKeys l) s t
theorem Core.trainFail_fails (s : Core) {l r : Nat} (hl : l < 24) (hr : r < 256) : TrainFailed l r s (s.trainFail l r) := by
  obtain ⟨hst, hwhy, hcount, hregs⟩ := s.failShown_spec l hr
  have hdata : l + at_ 1 r + at_ 4 (satU 32 ((s.ln l).failsUnsaid + 1)) < 2 ^ 128 := by
    have hs := satU_lt 32 ((s.ln l).failsUnsaid + 1)
    simp only [at_]
    omega
  have hln : (s.failShown l r).ln l = s.ln l := Core.ln_congr rfl _
  have htime : (s.failShown l r).etime = s.etime := rfl
  have hq : (s.failShown l r).cmdq = s.cmdq := rfl
  have htck : (s.failShown l r).tck = s.tck := rfl
  unfold Core.trainFail
  extract_lets y x say x'
  have hy : y = s.failShown l r := rfl
  rw [← hy] at hst hwhy hcount hregs hln htime hq htck
  have hx : x = s.ln l := hln
  have hoff : x'.tx = false := rfl
  have hagain : x'.restartAt = some (s.etime + 100000000) := congrArg (fun t => some (t + 100000000)) htime
  have hunsaid : x'.failsUnsaid = (s.ln l).failsUnsaid := (congrArg LinkSt.failsUnsaid hx : x.failsUnsaid = _)
  have hsay : (s.ln l).failSaidAt = none → say = true := fun h => by
    simp only [say, hx, h]
  clear_value y x' say
  split
  · refine ⟨(Core.rd_emit_ne _ _ _ _ _ _ (linkKey_free hl)).trans hst, (Core.rd_emit_ne _ _ _ _ _ _ (linkKey_free hl)).trans hwhy,
      (Core.rd_emit_ne _ _ _ _ _ _ (linkKey_free hl)).trans hcount, ?_, ?_, fun _ => ?_, (hregs.setLn _ _).emit _ _ _ (by simp [failKeys])⟩
    · rw [Core.ln_congr (Core.emit_hlk ..), Core.ln_setLn]
      exact hoff
    · rw [Core.ln_congr (Core.emit_hlk ..), Core.ln_setLn]
      exact hagain
    · rw [hunsaid]
      exact Core.raised_emit_of hdata hq (congrArg TckSt.running htck)
  next h =>
    refine ⟨hst, hwhy, hcount, ?_, ?_, fun h' => absurd (hsay h') h, hregs.setLn _ _⟩
    · rw [Core.ln_setLn]
      exact hoff
    · rw [Core.ln_setLn]
      exact hagain
theorem trainFails {l : Fin 24} {s : State} (hboot : s.field.core.bootState ≠ 1) (hst : s.field.core.linkState l.val = 2) {r : Fin 6} {i : Instr}
    (hr : r ≠ 0) (hi : i = .hlTrainFail l r ∨ (r = 1 ∧ ∃ x : TrainIn, x.lock = false ∧ i = trainRow l x)) :
    Answers i s fun t => TrainFailed l.val r.val s.field.core t.field.core ∧ CoreOnly s t := by
  have hfails := s.field.core.trainFail_fails (l := l.val) (r := r.val) l.isLt (by omega)
  obtain rfl | ⟨rfl, x, hlock, rfl⟩ := hi
  · have hdo : doHlTrainFail l.val r.val s.field.core = s.field.core.trainFail l.val r.val :=
      if_pos ⟨hst, fun h => hr (Fin.ext h)⟩
    refine answers_of_onRunning (g := doHlTrainFail l.val r.val) rfl hboot ⟨?_, CoreOnly.onCore _ _⟩
    simp only [State.onCore, Field.onCore, hdo]
    exact hfails
  · have hdo : doLinkTraining l.val x s.field.core = s.field.core.trainFail l.val 1 := by
      unfold doLinkTraining
      rw [if_neg (not_not.2 hst), hlock]
      rfl
    refine answers_of_onRunning (g := doLinkTraining l.val x) rfl hboot ⟨?_, CoreOnly.onCore _ _⟩
    simp only [State.onCore, Field.onCore, hdo]
    exact hfails

/-! ### Heads that wait (R147, R439) -/

theorem leNat_lt (d : Bytes) : leNat d < 256 ^ d.length := by
  induction d with
  | nil => exact Nat.one_pos
  | cons b d ih =>
    have hb := b.isLt
    rw [leNat, List.length_cons, Nat.pow_succ]
    omega
theorem leAt_lt (d : Bytes) (o n : Nat) : leAt d o n < 256 ^ n :=
  (leNat_lt _).trans_le (Nat.pow_le_pow_right (by decide) (List.length_take_le _ _))
/-- The registers of a head's identity that its wait sets. -/
def waitKeys (h : Nat) : List Nat := [HDC_ID_STATUS.STATE.key h, HDC_ID_STATUS.REASON.key h, HDC_ID_STATUS.USAGE_FRESH.key h]
theorem headState_free {h g : Nat} (hne : h ≠ g) : HDC_ID_STATUS.STATE.key h ∉ waitKeys g := by
  simp only [waitKeys, List.mem_cons, List.not_mem_nil, or_false, Fld.key, Fld.addr, HDC_ID_STATUS.STATE, HDC_ID_STATUS.REASON,
    HDC_ID_STATUS.USAGE_FRESH, fN]
  omega
theorem waitKeys_block {h k : Nat} (hh : h < 192) (hk : k ∈ waitKeys h) : k / 2 ^ 21 = 0x0C := by
  simp only [waitKeys, List.mem_cons, List.not_mem_nil, or_false, Fld.key, Fld.addr, HDC_ID_STATUS.STATE, HDC_ID_STATUS.REASON,
    HDC_ID_STATUS.USAGE_FRESH, fN] at hk
  omega
theorem Core.countFire_links (s : Core) (h : Nat) : (s.countFire h).hlk.links = s.hlk.links := by
  unfold Core.countFire
  extract_lets r
  split <;> rfl
theorem Core.waitHead_spec (s : Core) (h : Nat) : (s.waitHead h).headState h = 1 ∧ SameRegs (waitKeys h) s (s.waitHead h) ∧
    Touches [.hlk] s (s.waitHead h) ∧ (s.waitHead h).hlk.links = s.hlk.links := by
  have hcount := s.countFire_within h
  have hlinks := s.countFire_links h
  unfold Core.waitHead
  generalize s.countFire h = y at *
  have hregs : SameRegs (waitKeys h) y (y.wrs [(HDC_ID_STATUS.STATE, 1), (HDC_ID_STATUS.REASON, 0), (HDC_ID_STATUS.USAGE_FRESH, 0)] h) :=
    (SameRegs.refl _ y).wrs (l := [(HDC_ID_STATUS.STATE, 1), (HDC_ID_STATUS.REASON, 0), (HDC_ID_STATUS.USAGE_FRESH, 0)])
      (by simp [waitKeys])
  have hparts : Touches [.hlk] s (y.wrs [(HDC_ID_STATUS.STATE, 1), (HDC_ID_STATUS.REASON, 0), (HDC_ID_STATUS.USAGE_FRESH, 0)] h) :=
    hcount.parts.trans (fun r hr => by cases r <;> rfl)
  refine ⟨?_, (hcount.sameRegs _).trans hregs, hparts, hlinks⟩
  unfold Core.headState
  simp only [Core.wrs, List.foldl_cons, List.foldl_nil]
  rw [Core.rd_wr_ne _ _ _ _ _ _ strideKey_ne, Core.rd_wr_ne _ _ _ _ _ _ strideKey_ne, Core.rd_wr]
  rfl
/-- Heads that wait, one after the other. -/
theorem Core.waitHeads_spec (hs : List Nat) (s : Core) :
    (∀ h ∈ hs, (hs.foldl (fun s h => s.waitHead h) s).headState h = 1) ∧
    SameRegs (hs.flatMap waitKeys) s (hs.foldl (fun s h => s.waitHead h) s) ∧
    Touches [.hlk] s (hs.foldl (fun s h => s.waitHead h) s) ∧
    (hs.foldl (fun s h => s.waitHead h) s).hlk.links = s.hlk.links := by
  induction hs generalizing s with
  | nil => exact ⟨fun _ h => (nomatch h), .refl _ s, .refl _ s, rfl⟩
  | cons g hs ih =>
    obtain ⟨hstate, hregs, hparts, hlinks⟩ := s.waitHead_spec g
    obtain ⟨hall, hregs', hparts', hlinks'⟩ := ih (s.waitHead g)
    rw [List.foldl_cons]
    refine ⟨fun h hh => ?_, (hregs.mono (by simp)).trans (hregs'.mono (by simp)), hparts.trans hparts', hlinks'.trans hlinks⟩
    by_cases hin : h ∈ hs
    · exact hall h hin
    · obtain rfl : h = g := (List.mem_cons.1 hh).resolve_right hin
      refine (hregs' _ _ fun hk => ?_).trans hstate
      obtain ⟨k, hk, hk'⟩ := List.mem_flatMap.1 hk
      exact headState_free (fun e : h = k => hin (e.symm ▸ hk)) hk'
theorem headsOn_lt {s : Core} {l h : Nat} (hl : l < 24) (hh : h ∈ s.headsOn l) : h < 192 := by
  obtain ⟨i, hi, rfl⟩ := List.mem_map.1 (List.mem_filter.1 hh).1
  have := List.mem_range.1 hi
  omega
theorem Core.headsOn_congr {a b : Core} (h : b.press = a.press) (l : Nat) : b.headsOn l = a.headsOn l := by
  have hp : b.headPresent = a.headPresent := by
    funext g
    rw [Core.headPresent, Core.nozzles, h]
    rfl
  rw [Core.headsOn, hp, Core.headsOn]
/-- The wait of a link's heads leaves every other block of registers. -/
theorem waitHeads_outside {s t u : Core} {l : Nat} (hl : l < 24) (h : SameRegs ((s.headsOn l).flatMap waitKeys) t u) : SameOutside [0x0C] t u :=
  h.outside fun k hk => by
    obtain ⟨g, hg, hk'⟩ := List.mem_flatMap.1 hk
    rw [waitKeys_block (headsOn_lt hl hg) hk']
    exact List.mem_cons_self
/-- The registers of a link lie in the block of the head links, and those of a head in that of the heads. -/
theorem linkBlock {f : Fld} {l : Nat} (hl : l < 24) (h : 0 < f.sub ∧ f.lo < 32 ∧
    f.base % 65536 + f.stride * ((24 - 1) / f.sub) + f.stride2 * (f.sub - 1) < 65536 ∧ f.base / 65536 ∈ [0x0A] := by decide) :
    f.block l = 0x0A := List.mem_singleton.1 (Fld.block_mem hl h)
theorem headBlock {f : Fld} {h : Nat} (hh : h < 192) (hf : 0 < f.sub ∧ f.lo < 32 ∧
    f.base % 65536 + f.stride * ((192 - 1) / f.sub) + f.stride2 * (f.sub - 1) < 65536 ∧ f.base / 65536 ∈ [0x0C] := by decide) :
    f.block h = 0x0C := List.mem_singleton.1 (Fld.block_mem hh hf)
/-- The record of a link behind the reading of a head end that gave nothing. -/
def LinkSt.unread (x : LinkSt) : LinkSt := { x with mems := [], gone := [], lowRun := [], headEnd := none }
/-- Discovery of a head end that cannot be read (R147, R148). -/
theorem Core.discover_unread (s : Core) {l : Nat} (hl : l < 24) {r : IdRead} (heads : List (Nat × IdRead)) (h : idGot r = none) :
    (s.discover l r heads).etime = s.etime + idWaits r ∧ (s.discover l r heads).rd HLK_STATUS.HE_REASON l = 1 ∧
    (∀ g ∈ s.headsOn l, (s.discover l r heads).headState g = 1) ∧
    Keeps [HLK_STATUS.HE_REASON.key l] [0x0C, 0x1B] s (s.discover l r heads) ∧
    (s.discover l r heads).ln l = (s.ln l).unread ∧ Touches [.hlk, .cmdq, .etime] s (s.discover l r heads) := by
  have hread : s.readId r = (none, s.reach (s.etime + idWaits r)) := by rw [Core.readId, h]
  have htime : (s.reach (s.etime + idWaits r)).etime = s.etime + idWaits r := Nat.max_eq_right (Nat.le_add_right _ _)
  have hreach : Within [] [.etime] s (s.reach (s.etime + idWaits r)) := (Within.refl _ _ s).reach _
  unfold Core.discover
  simp only [hread]
  generalize s.reach (s.etime + idWaits r) = y at *
  have hln0 : y.ln l = s.ln l := Core.ln_congr (hreach.parts .hlk (by decide)) l
  rw [hln0]
  generalize hx : ({ s.ln l with mems := [], gone := [], lowRun := [] } : LinkSt) = x
  have hxu : ({ x with headEnd := none } : LinkSt) = (s.ln l).unread := by
    rw [← hx]
    rfl
  have hzt : Touches [.hlk] y ((y.setLn l x).wr HLK_STATUS.HE_REASON 1 l) := (y.setLn_within l x).parts.trans (fun r _ => by cases r <;> rfl)
  have hzr : Keeps [HLK_STATUS.HE_REASON.key l] [0x0C, 0x1B] y ((y.setLn l x).wr HLK_STATUS.HE_REASON 1 l) :=
    .of_regs (ls := [HLK_STATUS.HE_REASON.key l]) (((SameRegs.refl _ y).setLn l x).wr _ List.mem_cons_self) (fun _ h => h)
  have hzln : ((y.setLn l x).wr HLK_STATUS.HE_REASON 1 l).ln l = x := Core.ln_setLn ..
  have hreason : ((y.setLn l x).wr HLK_STATUS.HE_REASON 1 l).rd HLK_STATUS.HE_REASON l = 1 := Core.rd_wr ..
  generalize (y.setLn l x).wr HLK_STATUS.HE_REASON 1 l = z at *
  have hzp : z.headsOn l = s.headsOn l :=
    Core.headsOn_congr ((hzt .press (by decide) : z.press = y.press).trans (hreach.parts .press (by decide))) l
  obtain ⟨hwait, hregs, hparts, hlinks⟩ := Core.waitHeads_spec (z.headsOn l) z
  have hout := waitHeads_outside hl hregs
  generalize (z.headsOn l).foldl (fun s h => s.waitHead h) z = w at *
  have hwln : w.ln l = x := by rw [← hzln, Core.ln, hlinks, Core.ln]
  rw [hzln, hxu]
  have hv : Within [] [.hlk] w (w.setLn l (s.ln l).unread) := w.setLn_within _ _
  have hvln : (w.setLn l (s.ln l).unread).ln l = (s.ln l).unread := Core.ln_setLn ..
  generalize w.setLn l (s.ln l).unread = v at *
  have he : Within [0x1B] [.cmdq] v (v.emit 0x0944 (l + at_ 1 1)) := (Within.refl _ _ v).emit _ _ _
  have hvt : v.etime = s.etime + idWaits r := by
    rw [← htime]
    exact (hv.parts .etime (by decide) : v.etime = w.etime).trans ((hparts .etime (by decide) : w.etime = z.etime).trans (hzt .etime (by decide)))
  refine ⟨(v.emit_etime _ _ _).trans hvt, ?_, fun g hg => ?_, ?_, ?_, ?_⟩
  · refine (he.rd _ _ (by rw [linkBlock hl]; decide)).trans ((hv.rd _ _ (by simp)).trans ((hout _ _ (by rw [linkBlock hl]; decide)).trans hreason))
  · exact (he.rd _ _ (by rw [headBlock (headsOn_lt hl hg)]; decide)).trans ((hv.rd _ _ (by simp)).trans (hwait g (hzp ▸ hg)))
  · exact (((Keeps.of_outside hreach.regs (by simp)).trans hzr).trans (.of_outside hout)).trans
      ((Keeps.of_outside hv.regs (by simp)).trans (.of_outside he.regs))
  · exact (Core.ln_congr (Core.emit_hlk ..) l).trans hvln
  · exact (((hreach.parts.mono (by decide)).trans (hzt.mono (by decide))).trans (hparts.mono (by decide))).trans
      ((hv.parts.mono (by decide)).trans (he.parts.mono (by decide)))

/-! ### The link comes UP (R428) -/

theorem Core.leadCheck_spec (s : Core) (l : Nat) : Keeps [HLK_STATUS.LEAD_SHORT.key l] [0x1B] s (s.leadCheck l) ∧
    Touches [.cmdq] s (s.leadCheck l) := by
  unfold Core.leadCheck
  extract_lets least
  have hw : ∀ v, Keeps [HLK_STATUS.LEAD_SHORT.key l] [0x1B] s (s.wr HLK_STATUS.LEAD_SHORT v l) ∧
      Touches [.cmdq] s (s.wr HLK_STATUS.LEAD_SHORT v l) := fun v =>
    ⟨.of_regs (ls := [HLK_STATUS.LEAD_SHORT.key l]) ((SameRegs.refl _ s).wr _ List.mem_cons_self) (fun _ h => h), fun r _ => by cases r <;> rfl⟩
  split
  · obtain ⟨hk, ht⟩ := hw 1
    have he := (Within.refl [0x1B] [.cmdq] (s.wr HLK_STATUS.LEAD_SHORT 1 l)).emit 0x0909 (l + at_ 4 (s.lead l / 100) + at_ 6 least) 0
    exact ⟨hk.trans (.of_outside he.regs), ht.trans he.parts⟩
  · exact hw 0
theorem Core.endReattach_within (s : Core) (l : Nat) {g : Nat → Core → Core} (hg : ∀ op t, Within [0x1B] [.cmdq] t (g op t)) :
    Within [0x1B] [.cmdq, .hlk] s (s.endReattach l g) := by
  unfold Core.endReattach
  extract_lets x
  exact ((Within.refl _ _ s).next (s.setLn_within l _)).foldl _ fun r _ t => (hg r.1 t).mono (by decide) (by decide)
theorem Core.endReattach_none {s : Core} {l : Nat} (g : Nat → Core → Core) (h : (s.ln l).reattach = []) :
    s.endReattach l g = s.setLn l (s.ln l) := by
  unfold Core.endReattach
  extract_lets x
  have hx : ({ x with reattach := [] } : LinkSt) = x := by rw [← h]
  rw [hx, show x.reattach = [] from h]
  rfl
/-- The registers of a link that has come UP. -/
def Core.upShown (s : Core) (l : Nat) : Core := (s.wr HLK_STATUS.STATE 4 l).wr2 HLK_UP_ETIME_LO.ETIME HLK_UP_ETIME_HI.ETIME s.etime l
/-- The end of an attempt that has passed every step. -/
def Core.comeUp (s : Core) (l lat : Nat) : Core :=
  let s := (s.upShown l).leadCheck l
  let att := s.slotsIn l 3
  let s := s.emit 0x0901 (l + at_ 1 att + at_ 2 lat + at_ 4 (s.rd HLK_LAT.LEAD_MIN_NS l))
  s.endReattach l fun op s => s.asyncDone op 0 (att + at_ 1 (s.slotsIn l 4))
/-- The registers of a link that its coming UP writes. -/
def upKeys (l : Nat) : List Nat :=
  [HLK_STATUS.STATE.key l, HLK_UP_ETIME_LO.ETIME.key l, HLK_UP_ETIME_HI.ETIME.key l, HLK_STATUS.LEAD_SHORT.key l]
theorem upKeys_block {l k : Nat} (hl : l < 24) (hk : k ∈ upKeys l) : k / 2 ^ 21 = 0x0A := by
  simp only [upKeys, List.mem_cons, List.not_mem_nil, or_false] at hk
  obtain rfl | rfl | rfl | rfl := hk
  all_goals exact linkBlock hl
theorem head_upKeys {l h : Nat} (hl : l < 24) (hh : h < 192) : HDC_ID_STATUS.STATE.key h ∉ upKeys l := fun hk =>
  absurd ((upKeys_block hl hk).symm.trans (headBlock hh (f := HDC_ID_STATUS.STATE))) (by decide)
theorem Core.upShown_spec (s : Core) (l : Nat) : (s.upShown l).linkState l = 4 ∧
    (s.upShown l).rd2 HLK_UP_ETIME_LO.ETIME HLK_UP_ETIME_HI.ETIME l = s.etime % 2 ^ 64 ∧ SameRegs (upKeys l) s (s.upShown l) := by
  refine ⟨?_, Core.rd2_wr2_mod _ _ strideKey_ne rfl rfl, (((SameRegs.refl _ s).wr _ ?_).wr _ ?_).wr _ ?_⟩
  · refine (Core.rd_wr2_ne _ _ _ _ _ _ _ strideKey_ne strideKey_ne).trans ?_
    rw [Core.rd_wr]
    rfl
  all_goals simp [upKeys]
theorem Core.slotsIn_none {s : Core} {l st : Nat} (h : ∀ g ∈ s.headsOn l, s.headState g ≠ st) : s.slotsIn l st = 0 := by
  have hfold : ∀ hs : List Nat, (∀ g ∈ hs, s.headState g ≠ st) → ∀ m,
      hs.foldl (fun m h => if s.headState h = st then m + 2 ^ (h % 8) else m) m = m := by
    intro hs
    induction hs with
    | nil => exact fun _ _ => rfl
    | cons g hs ih =>
      intro hg m
      rw [List.foldl_cons, if_neg (hg g List.mem_cons_self)]
      exact ih (fun k hk => hg k (List.mem_cons_of_mem _ hk)) m
  exact hfold _ h 0
theorem Core.comeUp_spec (s : Core) {l : Nat} (hl : l < 24) (lat : Nat) : (s.comeUp l lat).linkState l = 4 ∧
    (s.comeUp l lat).rd2 HLK_UP_ETIME_LO.ETIME HLK_UP_ETIME_HI.ETIME l = (s.comeUp l lat).etime % 2 ^ 64 ∧
    Keeps (upKeys l) [0x1B] s (s.comeUp l lat) ∧ Touches [.hlk, .cmdq] s (s.comeUp l lat) ∧
    ((s.ln l).reattach = [] → (∀ h ∈ s.headsOn l, s.headState h = 1) → (s.comeUp l lat).ln l = s.ln l ∧
      (s.comeUp l lat).newest 0x0901 = some (0x0901, (l + at_ 2 lat + at_ 4 (s.rd HLK_LAT.LEAD_MIN_NS l)) % 2 ^ 128)) := by
  obtain ⟨hst, hup, hregs⟩ := s.upShown_spec l
  have hlny : (s.upShown l).ln l = s.ln l := Core.ln_congr rfl l
  have hparts : Touches [.hlk] s (s.upShown l) := fun r _ => by cases r <;> rfl
  unfold Core.comeUp
  generalize s.upShown l = y at *
  obtain ⟨hlead, hleadt⟩ := y.leadCheck_spec l
  generalize y.leadCheck l = z at *
  extract_lets _ att e
  have hzt : Touches [.hlk, .cmdq] s z := (hparts.mono (by decide)).trans (hleadt.mono (by decide))
  have he : Within [0x1B] [.cmdq] z e := (Within.refl _ _ z).emit _ _ _
  have hend : Within [0x1B] [.cmdq, .hlk] e (e.endReattach l fun op s => s.asyncDone op 0 (att + at_ 1 (s.slotsIn l 4))) :=
    e.endReattach_within l fun op t => (Within.refl _ _ t).asyncDone _ _ _
  have hall : Within [0x1B] [.hlk, .cmdq] z (e.endReattach l fun op s => s.asyncDone op 0 (att + at_ 1 (s.slotsIn l 4))) :=
    (he.mono (by decide) (by decide)).trans (hend.mono (by decide) (by decide))
  have hkeep := hlead.trans (Keeps.of_outside hall.regs)
  have htime : (e.endReattach l fun op s => s.asyncDone op 0 (att + at_ 1 (s.slotsIn l 4))).etime = s.etime :=
    (hall.parts .etime (by decide) : _ = z.etime).trans (hzt .etime (by decide))
  have hlow : ∀ f : Fld, f.key l ∉ [HLK_STATUS.LEAD_SHORT.key l] → f.block l = 0x0A →
      (e.endReattach l fun op s => s.asyncDone op 0 (att + at_ 1 (s.slotsIn l 4))).rd f l = y.rd f l := fun f hf hb =>
    hkeep f l hf (by rw [hb]; decide)
  refine ⟨?_, ?_, ?_, hzt.trans hall.parts, fun hno hheads => ?_⟩
  · exact (hlow _ (by simpa using strideKey_ne) (linkBlock hl)).trans hst
  · unfold Core.rd2 at hup ⊢
    rw [hlow _ (by simpa using strideKey_ne) (linkBlock hl), hlow _ (by simpa using strideKey_ne) (linkBlock hl), htime]
    exact hup
  · exact fun f n hf hb => (hkeep f n (fun h => hf ((List.mem_singleton.1 h) ▸ (by simp [upKeys]))) hb).trans (hregs f n hf)
  · have hlnz : z.ln l = s.ln l := (Core.ln_congr (hleadt .hlk (by decide)) l).trans hlny
    have hlne : e.ln l = s.ln l := (Core.ln_congr (he.parts .hlk (by decide)) l).trans hlnz
    have hpress : z.headsOn l = s.headsOn l := Core.headsOn_congr (hzt .press (by decide)) l
    have hatt : att = 0 := Core.slotsIn_none fun g hg => by
      rw [hpress] at hg
      have hin := headsOn_lt hl hg
      have hz : z.headState g = y.headState g := hlead _ _ (fun h => head_upKeys hl hin ((List.mem_singleton.1 h) ▸ (by simp [upKeys])))
        (by rw [headBlock hin]; decide)
      have hy : y.headState g = s.headState g := hregs _ _ (head_upKeys hl hin)
      rw [hz, hy, hheads g hg]
      decide
    have hleast : z.rd HLK_LAT.LEAD_MIN_NS l = s.rd HLK_LAT.LEAD_MIN_NS l :=
      (hlead _ _ (by simpa using strideKey_ne) (by rw [linkBlock hl]; decide)).trans (hregs _ _ (by
        simp only [upKeys, List.mem_cons, List.not_mem_nil, or_false, not_or]
        exact ⟨strideKey_ne, strideKey_ne, strideKey_ne, strideKey_ne⟩))
    rw [Core.endReattach_none _ (by rw [hlne, hno])]
    refine ⟨(Core.ln_setLn ..).trans hlne, ?_⟩
    have hnew : e.newest 0x0901 = _ := Core.newest_emit ..
    rw [hatt, hleast] at hnew
    exact hnew

/-! ### Steps 5 and 6 of R428 -/

theorem SameRegs.foldl {α : Type} {ks : List Nat} {k : Core → α → Core} (l : List α) (h : ∀ x ∈ l, ∀ s, SameRegs ks s (k s x)) (s : Core) :
    SameRegs ks s (l.foldl k s) := by
  induction l generalizing s with
  | nil => exact .refl ks s
  | cons x l ih => exact (h x List.mem_cons_self s).trans (ih (fun y hy => h y (List.mem_cons_of_mem _ hy)) _)
theorem Touches.foldl {α : Type} {ps : List Part} {k : Core → α → Core} (l : List α) (h : ∀ x ∈ l, ∀ s, Touches ps s (k s x)) (s : Core) :
    Touches ps s (l.foldl k s) := by
  induction l generalizing s with
  | nil => exact .refl ps s
  | cons x l ih => exact (h x List.mem_cons_self s).trans (ih (fun y hy => h y (List.mem_cons_of_mem _ hy)) _)
theorem Touches.wr (s : Core) (f : Fld) (v n : Nat) : Touches [] s (s.wr f v n) := fun r _ => by cases r <;> rfl
theorem Touches.wrs (s : Core) (l : List (Fld × Nat)) (n : Nat) : Touches [] s (s.wrs l n) :=
  Touches.foldl (k := fun s p => s.wr p.1 p.2 n) l (fun p _ s => .wr s p.1 p.2 n) s
/-- The registers of a link whose forward side begins to carry blocks for heads: no credit is in use. -/
def Core.runShown (s : Core) (l : Nat) (st : Bool × Nat × Nat) : Core :=
  (((List.range 8).map (8 * l + ·)).foldl (fun s h => s.wrs [(HLK_SLOT_CRED.SENT, 0), (HLK_SLOT_CRED.FREED, 0)] h)
    (s.wr HLK_STATUS.STATE 3 l)).wrs
    [(HLK_SLOT_THERM.OHMS, st.2.2), (HLK_SLOT_THERM.AGE, 0), (HLK_SLOT_THERM.HEAD_OK, b2n st.1)] (8 * l)
/-- The registers of the slots it writes. -/
def creditKeys (l : Nat) : List Nat :=
  ((List.range 8).map (8 * l + ·)).flatMap (fun h => [HLK_SLOT_CRED.SENT.key h, HLK_SLOT_CRED.FREED.key h]) ++
    [HLK_SLOT_THERM.OHMS.key (8 * l), HLK_SLOT_THERM.AGE.key (8 * l), HLK_SLOT_THERM.HEAD_OK.key (8 * l)]
/-- What the steps before it have shown. -/
def helloFlds : List Fld :=
  [HLK_STATUS.RET_LOCK, HLK_HELLO.SETUP_NS, HLK_HELLO.TOKENS, HLK_HELLO.VERSION, HLK_LAT.LAT_NS, HLK_LAT.LEAD_MIN_NS]
theorem creditKeys_free : ∀ l : Fin 24, ∀ f ∈ HLK_STATUS.STATE :: helloFlds, f.key l.val ∉ creditKeys l.val := by decide +kernel
theorem therm_ne : ∀ l : Fin 24, HLK_SLOT_THERM.OHMS.key (8 * l.val) ≠ HLK_SLOT_THERM.AGE.key (8 * l.val) ∧
    HLK_SLOT_THERM.OHMS.key (8 * l.val) ≠ HLK_SLOT_THERM.HEAD_OK.key (8 * l.val) ∧
    HLK_SLOT_THERM.OHMS.key (8 * l.val) ∉ HLK_STATUS.HE_REASON.key l.val :: upKeys l.val := by decide +kernel
theorem Core.runShown_spec (s : Core) (l : Fin 24) {st : Bool × Nat × Nat} (hst : st.2.2 < 2 ^ 24) :
    (s.runShown l.val st).rd HLK_SLOT_THERM.OHMS (8 * l.val) = st.2.2 ∧ (s.runShown l.val st).linkState l.val = 3 ∧
    SameRegs (HLK_STATUS.STATE.key l.val :: creditKeys l.val) s (s.runShown l.val st) ∧ Touches [] s (s.runShown l.val st) := by
  obtain ⟨hage, hok, -⟩ := therm_ne l
  have hin : ∀ h ∈ (List.range 8).map (8 * l.val + ·), ∀ k ∈ [HLK_SLOT_CRED.SENT.key h, HLK_SLOT_CRED.FREED.key h], k ∈ creditKeys l.val :=
    fun h hh k hk => List.mem_append_left _ (List.mem_flatMap.2 ⟨h, hh, hk⟩)
  have hin' : ∀ k ∈ [HLK_SLOT_THERM.OHMS.key (8 * l.val), HLK_SLOT_THERM.AGE.key (8 * l.val), HLK_SLOT_THERM.HEAD_OK.key (8 * l.val)],
      k ∈ creditKeys l.val := fun k hk => List.mem_append_right _ hk
  have hstate : SameRegs [HLK_STATUS.STATE.key l.val] s (s.wr HLK_STATUS.STATE 3 l.val) := (SameRegs.refl _ s).wr _ List.mem_cons_self
  have hthree : (s.wr HLK_STATUS.STATE 3 l.val).linkState l.val = 3 := (Core.rd_wr s HLK_STATUS.STATE 3 l.val).trans rfl
  have hwr := Touches.wr s HLK_STATUS.STATE 3 l.val
  unfold Core.runShown
  generalize s.wr HLK_STATUS.STATE 3 l.val = x at *
  have hcred := SameRegs.foldl (ks := creditKeys l.val) (k := fun s h => s.wrs [(HLK_SLOT_CRED.SENT, 0), (HLK_SLOT_CRED.FREED, 0)] h)
    ((List.range 8).map (8 * l.val + ·)) (fun h hh s => (SameRegs.refl _ s).wrs (l := [(HLK_SLOT_CRED.SENT, 0), (HLK_SLOT_CRED.FREED, 0)]) (by
      simp only [List.forall_mem_cons]
      exact ⟨hin h hh _ (by simp), hin h hh _ (by simp), fun _ h => nomatch h⟩)) x
  have hparts := Touches.foldl (k := fun s h => s.wrs [(HLK_SLOT_CRED.SENT, 0), (HLK_SLOT_CRED.FREED, 0)] h)
    ((List.range 8).map (8 * l.val + ·)) (fun h _ s => .wrs s _ _) x
  generalize ((List.range 8).map (8 * l.val + ·)).foldl (fun s h => s.wrs [(HLK_SLOT_CRED.SENT, 0), (HLK_SLOT_CRED.FREED, 0)] h) x = y at *
  have htherm : SameRegs (creditKeys l.val) y (y.wrs
      [(HLK_SLOT_THERM.OHMS, st.2.2), (HLK_SLOT_THERM.AGE, 0), (HLK_SLOT_THERM.HEAD_OK, b2n st.1)] (8 * l.val)) :=
    (SameRegs.refl _ y).wrs (n := 8 * l.val) (l := [(HLK_SLOT_THERM.OHMS, st.2.2), (HLK_SLOT_THERM.AGE, 0), (HLK_SLOT_THERM.HEAD_OK, b2n st.1)]) (by
      simp only [List.forall_mem_cons]
      exact ⟨hin' _ (by simp), hin' _ (by simp), hin' _ (by simp), fun _ h => nomatch h⟩)
  have hslots := hcred.trans htherm
  refine ⟨?_, (hslots _ _ (creditKeys_free l _ List.mem_cons_self)).trans hthree,
    (hstate.mono (by simp)).trans (hslots.mono (List.subset_cons_self ..)), (hwr.trans hparts).trans (.wrs y _ _)⟩
  simp only [Core.wrs, List.foldl_cons, List.foldl_nil]
  rw [Core.rd_wr_ne _ _ _ _ _ _ hok, Core.rd_wr_ne _ _ _ _ _ _ hage, Core.rd_wr]
  exact Nat.mod_eq_of_lt hst

/-- The record of a link at its first TIME. -/
def Core.runRecord (s : Core) (l lat : Nat) : LinkSt :=
  let blocks := [2, 1, 3].filterMap fun src =>
    if s.covered l src = 0 then none else some (inhibitBlock (s.covered l src) src)
  ({ s.ln l with
    rxSeq := 1, nakRun := 0, tokens := [], sb := [], lastMsg := s.etime, lastTime := s.etime, resume := 0
    inhibited := s.coveredAny l, rackAt := some s.etime, rack := none } : LinkSt).fresh.send
      (timeBlock (s.etime + lat) :: blocks ++ [rackBlock 0 false])
/-- Step 5 of R428. -/
def Core.runStart (s : Core) (l : Nat) (st : Bool × Nat × Nat) : Core :=
  let t := (s.reach (alignUp s.etime 10000)).runShown l st
  t.setLn l (t.runRecord l (s.rd HLK_LAT.LAT_NS l))
/-- What the last message of discovery leaves. -/
def Core.lastMessage (s : Core) (l last : Nat) : Core :=
  (s.setLn l { s.ln l with rxSeq := (last + 1) % 256, rackAt := some s.etime, lastMsg := s.etime }).sendMore l [rackBlock last false]
theorem Core.bringUp_eq (s : Core) (l : Nat) (st : Bool × Nat × Nat) {inp : TrainIn} (h : inp.found.lost = none) :
    s.bringUp l st inp = ((((s.runStart l st).discover l inp.headEnd (inp.found.heads.map fun p => (p.1.val, p.2))).sendTimes l).lastMessage l
      inp.found.seq.toNat).comeUp l (s.rd HLK_LAT.LAT_NS l) := by
  unfold Core.bringUp
  simp only [h]
  rfl
theorem le_alignUp (n : Nat) {m : Nat} (h : 0 < m) : n ≤ alignUp n m := by
  have hdiv := Nat.div_add_mod (n + m - 1) m
  have hmod := Nat.mod_lt (n + m - 1) h
  unfold alignUp ceilDiv
  rw [if_neg (by omega), Nat.mul_comm]
  omega
theorem Core.runStart_spec (s : Core) (l : Fin 24) {st : Bool × Nat × Nat} (hst : st.2.2 < 2 ^ 24) :
    (s.runStart l.val st).rd HLK_SLOT_THERM.OHMS (8 * l.val) = st.2.2 ∧ SameRegs (HLK_STATUS.STATE.key l.val :: creditKeys l.val) s (s.runStart l.val st) ∧
    Touches [.hlk, .etime] s (s.runStart l.val st) ∧ (s.runStart l.val st).etime = alignUp s.etime 10000 ∧
    ((s.runStart l.val st).ln l.val).reattach = (s.ln l.val).reattach ∧
    timeBlock (alignUp s.etime 10000 + s.rd HLK_LAT.LAT_NS l.val) ∈ ((s.runStart l.val st).ln l.val).out ∧
    (s.runStart l.val st).linkState l.val = 3 := by
  have hge : s.etime ≤ alignUp s.etime 10000 := le_alignUp s.etime (by decide)
  have hreach : Within [] [.etime] s (s.reach (alignUp s.etime 10000)) := (Within.refl _ _ s).reach _
  have htime : (s.reach (alignUp s.etime 10000)).etime = alignUp s.etime 10000 := Nat.max_eq_right hge
  unfold Core.runStart
  generalize s.reach (alignUp s.etime 10000) = x at *
  obtain ⟨hohms, hthree, hregs, hparts⟩ := x.runShown_spec l hst
  generalize x.runShown l.val st = y at *
  have hytime : y.etime = alignUp s.etime 10000 := (hparts .etime (by decide) : y.etime = x.etime).trans htime
  have hln : y.ln l.val = s.ln l.val :=
    (Core.ln_congr (hparts .hlk (by decide)) _).trans (Core.ln_congr (hreach.parts .hlk (by decide)) _)
  have hset : Within [] [.hlk] y (y.setLn l.val (y.runRecord l.val (s.rd HLK_LAT.LAT_NS l.val))) := y.setLn_within _ _
  dsimp only
  refine ⟨(hset.rd _ _ (by simp)).trans hohms, ((hreach.sameRegs _).trans hregs).setLn _ _,
    ((hreach.parts.mono (by decide)).trans (hparts.mono (by decide))).trans (hset.parts.mono (by decide)),
    (hset.parts .etime (by decide) : _ = y.etime).trans hytime, ?_, ?_, (hset.rd _ _ (by simp)).trans hthree⟩
  · rw [Core.ln_setLn, Core.runRecord, (LinkSt.send_sent _ _).rest, ← hln]
    rfl
  · rw [Core.ln_setLn, Core.runRecord, ← hytime]
    exact (LinkSt.send_sent _ _).sent _ (List.mem_append_left _ List.mem_cons_self)
/-- The parts of a link's record that its traffic leaves. -/
structure OnLink (l : Nat) (s t : Core) : Prop where
  regs : SameRegs [] s t
  parts : Touches [.hlk] s t
  kept : ∀ b ∈ (s.ln l).out, b ∈ (t.ln l).out
  reattach : (t.ln l).reattach = (s.ln l).reattach
theorem OnLink.trans {l : Nat} {s t u : Core} (h : OnLink l s t) (h' : OnLink l t u) : OnLink l s u :=
  ⟨h.regs.trans h'.regs, h.parts.trans h'.parts, fun b hb => h'.kept b (h.kept b hb), h'.reattach.trans h.reattach⟩
theorem Core.setLn_onLink (s : Core) {l : Nat} {x : LinkSt} (hout : ∀ b ∈ (s.ln l).out, b ∈ x.out) (hre : x.reattach = (s.ln l).reattach) :
    OnLink l s (s.setLn l x) :=
  ⟨.of_regs rfl, (s.setLn_within l x).parts, by rwa [Core.ln_setLn], by rwa [Core.ln_setLn]⟩
theorem Core.sendMore_onLink (s : Core) (l : Nat) (bs : List Bytes) : OnLink l s (s.sendMore l bs) :=
  s.setLn_onLink ((s.ln l).send_sent bs).kept (by rw [((s.ln l).send_sent bs).rest])
theorem Core.sendTimes_onLink {s : Core} {l : Nat} (h : s.linkState l ≠ 4) : OnLink l s (s.sendTimes l) := by
  unfold Core.sendTimes
  extract_lets x n
  split
  · exact ⟨.refl _ s, .refl _ s, fun _ h => h, rfl⟩
  · generalize hy : s.setLn l { x with lastTime := x.lastTime + 10000 * n, fwd := x.fwd + (n - 1) } = y
    have hset : OnLink l s y := hy ▸ s.setLn_onLink (fun _ h => h) rfl
    have hdown : (!y.linkUp l) = true := by
      have hst : y.linkState l = s.linkState l := hset.regs _ _ (by simp)
      simp [Core.linkUp, hst, h]
    unfold Core.fwdUnit
    extract_lets put
    rw [if_pos hdown]
    exact hset.trans (y.sendMore_onLink l _)
theorem Core.lastMessage_onLink (s : Core) (l last : Nat) : OnLink l s (s.lastMessage l last) ∧
    ((s.lastMessage l last).ln l).rxSeq = (last + 1) % 256 := by
  unfold Core.lastMessage
  generalize hx : ({ s.ln l with rxSeq := (last + 1) % 256, rackAt := some s.etime, lastMsg := s.etime } : LinkSt) = x
  have hset : OnLink l s (s.setLn l x) := s.setLn_onLink (by rw [← hx]; exact fun _ h => h) (by rw [← hx])
  refine ⟨hset.trans (Core.sendMore_onLink _ _ _), ?_⟩
  rw [Core.sendMore, Core.ln_setLn, Core.ln_setLn, (x.send_sent _).rest, ← hx]

/-! ### An attempt that passes (R428) -/

/-- What an attempt shows before its first TIME. -/
def Core.helloShown (s : Core) (l lat tokens setup : Nat) : Core :=
  ((((s.wr HLK_STATUS.RET_LOCK 1 l).wrs [(HLK_HELLO.SETUP_NS, setup), (HLK_HELLO.TOKENS, tokens), (HLK_HELLO.VERSION, 1)] l).openLink l).sendMore l
    ((List.range 16).map echoReq)).wrs [(HLK_LAT.LAT_NS, lat), (HLK_LAT.LEAD_MIN_NS, leastLead lat setup)] l
/-- The one-way time the first 16 echoes give. -/
def trainLat (x : TrainIn) : Nat := echoLat ((x.echoes.take 16).filterMap fun p => (turnOf p.2).map fun n => (p.1.toNat, n))
theorem filterMap_all {α β : Type} {f : α → Option β} {l : List α} (h : ∀ x ∈ l, (f x).isSome = true) : (l.filterMap f).length = l.length := by
  induction l with
  | nil => rfl
  | cons x l ih =>
    obtain ⟨y, hy⟩ := Option.isSome_iff_exists.1 (h x List.mem_cons_self)
    rw [List.filterMap_cons_some hy, List.length_cons, List.length_cons, ih fun z hz => h z (List.mem_cons_of_mem _ hz)]
theorem doLinkTraining_passes {s : Core} {l tokens setup : Nat} {x : TrainIn} {hello status : Bytes} {st : Bool × Nat × Nat}
    (hst : s.linkState l = 2) (hhello : x.hello = some hello) (hh : helloOf hello = some (1, tokens, setup)) (ht : 4 ≤ tokens)
    (hs1 : 100 ≤ setup) (hs2 : setup ≤ 5000) (he : 16 ≤ x.echoes.length) (hturn : ∀ p ∈ x.echoes.take 16, (turnOf p.2).isSome = true)
    (hlat : (trainLat x) ≤ 50) (hlock : x.lock = true) (hstatus : x.status = some status) (hs0 : status0Of status = some st) :
    doLinkTraining l x s = (s.helloShown l (trainLat x) tokens setup).bringUp l st x := by
  have hlen : ((x.echoes.take 16).filterMap fun p => (turnOf p.2).map fun n => (p.1.toNat, n)).length = 16 := by
    rw [filterMap_all fun p hp => by rw [Option.isSome_map]; exact hturn p hp, List.length_take, Nat.min_eq_left he]
  have hbad : ¬ ((1 : Nat) ≠ 1 ∨ tokens < 4 ∨ setup < 100 ∨ setup > 5000) := by omega
  have hgood : ¬ (((x.echoes.take 16).filterMap fun p => (turnOf p.2).map fun n => (p.1.toNat, n)).length < 16 ∨ trainLat x > 50) := by
    rw [hlen]
    exact fun h => h.elim (Nat.lt_irrefl _) (Nat.not_lt.2 hlat)
  have hh' : x.hello.bind helloOf = some (1, tokens, setup) := by rw [hhello]; exact hh
  have hs' : x.status.bind status0Of = some st := by rw [hstatus]; exact hs0
  unfold doLinkTraining
  rw [if_neg (not_not.2 hst), if_neg (by rw [hlock]; decide), hh', hs']
  exact (if_neg hbad).trans (if_neg hgood)
theorem Core.helloShown_spec (s : Core) (l : Nat) {lat tokens setup : Nat} (ht : tokens < 256) (hs : setup ≤ 5000) (hlat : lat ≤ 50) :
    (s.helloShown l lat tokens setup).rd HLK_STATUS.RET_LOCK l = 1 ∧ (s.helloShown l lat tokens setup).rd HLK_HELLO.SETUP_NS l = setup ∧
    (s.helloShown l lat tokens setup).rd HLK_HELLO.TOKENS l = tokens ∧ (s.helloShown l lat tokens setup).rd HLK_HELLO.VERSION l = 1 ∧
    (s.helloShown l lat tokens setup).rd HLK_LAT.LAT_NS l = lat ∧
    (s.helloShown l lat tokens setup).rd HLK_LAT.LEAD_MIN_NS l = alignUp (600 + lat + setup) 100 ∧
    Touches [.hlk] s (s.helloShown l lat tokens setup) ∧
    ((s.helloShown l lat tokens setup).ln l).reattach = (s.ln l).reattach := by
  have hret : (s.wr HLK_STATUS.RET_LOCK 1 l).rd HLK_STATUS.RET_LOCK l = 1 := Core.rd_wr ..
  have hyt := Touches.wr s HLK_STATUS.RET_LOCK 1 l
  unfold Core.helloShown
  generalize s.wr HLK_STATUS.RET_LOCK 1 l = y at *
  have hz : ∀ f : Fld, (f.key l ≠ HLK_HELLO.SETUP_NS.key l ∧ f.key l ≠ HLK_HELLO.TOKENS.key l ∧ f.key l ≠ HLK_HELLO.VERSION.key l) →
      (y.wrs [(HLK_HELLO.SETUP_NS, setup), (HLK_HELLO.TOKENS, tokens), (HLK_HELLO.VERSION, 1)] l).rd f l = y.rd f l := fun f hf =>
    Core.rd_wrs_ne _ _ _ _ _ (by simpa using hf)
  have hzs : (y.wrs [(HLK_HELLO.SETUP_NS, setup), (HLK_HELLO.TOKENS, tokens), (HLK_HELLO.VERSION, 1)] l).rd HLK_HELLO.SETUP_NS l = setup ∧
      (y.wrs [(HLK_HELLO.SETUP_NS, setup), (HLK_HELLO.TOKENS, tokens), (HLK_HELLO.VERSION, 1)] l).rd HLK_HELLO.TOKENS l = tokens ∧
      (y.wrs [(HLK_HELLO.SETUP_NS, setup), (HLK_HELLO.TOKENS, tokens), (HLK_HELLO.VERSION, 1)] l).rd HLK_HELLO.VERSION l = 1 := by
    simp only [Core.wrs, List.foldl_cons, List.foldl_nil]
    rw [Core.rd_wr_ne _ _ _ _ _ _ strideKey_ne, Core.rd_wr_ne _ _ _ _ _ _ strideKey_ne, Core.rd_wr, Core.rd_wr_ne _ _ _ _ _ _ strideKey_ne,
      Core.rd_wr, Core.rd_wr]
    exact ⟨Nat.mod_eq_of_lt (hs.trans_lt (by decide)), Nat.mod_eq_of_lt ht, rfl⟩
  have hzt := Touches.wrs y [(HLK_HELLO.SETUP_NS, setup), (HLK_HELLO.TOKENS, tokens), (HLK_HELLO.VERSION, 1)] l
  generalize y.wrs [(HLK_HELLO.SETUP_NS, setup), (HLK_HELLO.TOKENS, tokens), (HLK_HELLO.VERSION, 1)] l = z at *
  have hw : Within [] [.hlk] z ((z.openLink l).sendMore l ((List.range 16).map echoReq)) := (z.openLink_within l).trans (Core.sendMore_within _ _ _)
  have hwln : (((z.openLink l).sendMore l ((List.range 16).map echoReq)).ln l).reattach = (z.ln l).reattach := by
    rw [Core.sendMore, Core.ln_setLn, (LinkSt.send_sent _ _).rest, Core.openLink, Core.ln_setLn]
    rfl
  generalize (z.openLink l).sendMore l ((List.range 16).map echoReq) = w at *
  have hv : ∀ f : Fld, (f.key l ≠ HLK_LAT.LAT_NS.key l ∧ f.key l ≠ HLK_LAT.LEAD_MIN_NS.key l) →
      (w.wrs [(HLK_LAT.LAT_NS, lat), (HLK_LAT.LEAD_MIN_NS, leastLead lat setup)] l).rd f l = z.rd f l := fun f hf =>
    (Core.rd_wrs_ne _ _ _ _ _ (by simpa using hf)).trans (hw.rd _ _ (by simp))
  have hvl : (w.wrs [(HLK_LAT.LAT_NS, lat), (HLK_LAT.LEAD_MIN_NS, leastLead lat setup)] l).rd HLK_LAT.LAT_NS l = lat ∧
      (w.wrs [(HLK_LAT.LAT_NS, lat), (HLK_LAT.LEAD_MIN_NS, leastLead lat setup)] l).rd HLK_LAT.LEAD_MIN_NS l = alignUp (600 + lat + setup) 100 := by
    simp only [Core.wrs, List.foldl_cons, List.foldl_nil]
    rw [Core.rd_wr_ne _ _ _ _ _ _ strideKey_ne, Core.rd_wr, Core.rd_wr]
    refine ⟨Nat.mod_eq_of_lt (hlat.trans_lt (by decide)), Nat.mod_eq_of_lt ?_⟩
    have hfits : alignUp (600 + lat + setup) 100 < 2 ^ 16 := by
      unfold alignUp ceilDiv
      rw [if_neg (by decide)]
      omega
    exact hfits
  have hvt := Touches.wrs w [(HLK_LAT.LAT_NS, lat), (HLK_LAT.LEAD_MIN_NS, leastLead lat setup)] l
  generalize w.wrs [(HLK_LAT.LAT_NS, lat), (HLK_LAT.LEAD_MIN_NS, leastLead lat setup)] l = v at *
  refine ⟨(hv _ ⟨strideKey_ne, strideKey_ne⟩).trans ((hz _ ⟨strideKey_ne, strideKey_ne, strideKey_ne⟩).trans hret),
    (hv _ ⟨strideKey_ne, strideKey_ne⟩).trans hzs.1, (hv _ ⟨strideKey_ne, strideKey_ne⟩).trans hzs.2.1,
    (hv _ ⟨strideKey_ne, strideKey_ne⟩).trans hzs.2.2, hvl.1, hvl.2, ?_, ?_⟩
  · exact (((hyt.trans hzt).mono (by simp)).trans hw.parts).trans (hvt.mono (by simp))
  · rw [Core.ln_congr (hvt .hlk (by decide)), hwln, Core.ln_congr (hzt .hlk (by decide)), Core.ln_congr (hyt .hlk (by decide))]

theorem helloOf_lt {m : Bytes} {v t n : Nat} (h : helloOf m = some (v, t, n)) : t < 256 := by
  unfold helloOf at h
  split at h
  · obtain ⟨-, rfl, -⟩ : byteAt m 2 = v ∧ byteAt m 3 = t ∧ leAt m 4 2 = n := by simpa using h
    exact byteAt_lt _ _
  · cases h
theorem status0Of_lt {m : Bytes} {st : Bool × Nat × Nat} (h : status0Of m = some st) : st.2.2 < 2 ^ 24 := by
  unfold status0Of at h
  split at h
  · obtain rfl := Option.some.inj h
    exact leAt_lt _ _ _
  · cases h
theorem alignUp_lead {lat setup : Nat} (hlat : lat ≤ 50) (hs : setup ≤ 5000) : alignUp (600 + lat + setup) 100 < 65536 := by
  unfold alignUp ceilDiv
  rw [if_neg (by decide)]
  omega
theorem hello_free : ∀ l : Fin 24, ∀ f ∈ helloFlds, f.key l.val ∉ HLK_STATUS.STATE.key l.val :: creditKeys l.val ∧
    f.key l.val ∉ HLK_STATUS.HE_REASON.key l.val :: upKeys l.val ∧ f.block l.val = 0x0A := by decide +kernel
theorem ohms_block : ∀ l : Fin 24, HLK_SLOT_THERM.OHMS.block (8 * l.val) = 0x0A := by decide +kernel
/-- What a link's registers and record show once it has come UP with a head end that could not be read. -/
structure CameUp (l : Nat) (s : Core) (lat tokens setup ohms waits last : Nat) (t : Core) : Prop where
  lock : t.rd HLK_STATUS.RET_LOCK l = 1
  settling : t.rd HLK_HELLO.SETUP_NS l = setup
  credit : t.rd HLK_HELLO.TOKENS l = tokens
  version : t.rd HLK_HELLO.VERSION l = 1
  oneWay : t.rd HLK_LAT.LAT_NS l = lat
  least : t.rd HLK_LAT.LEAD_MIN_NS l = alignUp (600 + lat + setup) 100
  therm : t.rd HLK_SLOT_THERM.OHMS (8 * l) = ohms
  reason : t.rd HLK_STATUS.HE_REASON l = 1
  time : t.etime = alignUp s.etime 10000 + waits
  first : timeBlock (alignUp s.etime 10000 + lat) ∈ (t.ln l).out
  seq : (t.ln l).rxSeq = (last + 1) % 256
  heads : ∀ g ∈ s.headsOn l, t.headState g = 1
  event : t.newest 0x0901 = some (0x0901, l + at_ 2 lat + at_ 4 (alignUp (600 + lat + setup) 100))
theorem Core.bringUp_up (s : Core) (l : Fin 24) (st : Bool × Nat × Nat) {x : TrainIn} (hfound : x.found.lost = none) :
    (s.bringUp l.val st x).linkState l.val = 4 ∧
    (s.bringUp l.val st x).rd2 HLK_UP_ETIME_LO.ETIME HLK_UP_ETIME_HI.ETIME l.val = (s.bringUp l.val st x).etime % 2 ^ 64 := by
  rw [Core.bringUp_eq s l.val st hfound]
  obtain ⟨hst, hup, -⟩ := Core.comeUp_spec ((((s.runStart l.val st).discover l.val x.headEnd
    (x.found.heads.map fun p => (p.1.val, p.2))).sendTimes l.val).lastMessage l.val x.found.seq.toNat) l.isLt (s.rd HLK_LAT.LAT_NS l.val)
  exact ⟨hst, hup⟩
theorem cameUp {s : Core} {l : Fin 24} {x : TrainIn} {tokens setup lat : Nat} {st : Bool × Nat × Nat} (ht : tokens < 256)
    (hs : setup ≤ 5000) (hlat : lat ≤ 50) (hst : st.2.2 < 2 ^ 24) (hfound : x.found.lost = none)
    (hid : idGot x.headEnd = none) (hre : (s.ln l.val).reattach = []) :
    CameUp l.val s lat tokens setup st.2.2 (idWaits x.headEnd) x.found.seq.toNat ((s.helloShown l.val lat tokens setup).bringUp l.val st x) := by
  obtain ⟨hret, hsetup, htokens, hver, hlatr, hleast, hyt, hyre⟩ := s.helloShown_spec l.val ht hs hlat
  rw [Core.bringUp_eq _ l.val st hfound]
  generalize s.helloShown l.val lat tokens setup = y at *
  obtain ⟨hohms, hzr, hzt, hztime, hzre, hztb, hzst⟩ := y.runStart_spec l hst
  rw [hlatr] at hztb ⊢
  generalize y.runStart l.val st = z at *
  obtain ⟨hwtime, hreason, hheads, hwr, hwln, hwt⟩ := z.discover_unread l.isLt (x.found.heads.map fun p => (p.1.val, p.2)) hid
  generalize z.discover l.val x.headEnd (x.found.heads.map fun p => (p.1.val, p.2)) = w at *
  have hwst : w.linkState l.val ≠ 4 := by
    have hsame : w.linkState l.val = z.linkState l.val := hwr _ _ (by simpa using strideKey_ne) (by rw [linkBlock l.isLt]; decide)
    rw [hsame, hzst]
    decide
  have hv := Core.sendTimes_onLink hwst
  generalize w.sendTimes l.val = v at *
  obtain ⟨hu, hseq⟩ := v.lastMessage_onLink l.val x.found.seq.toNat
  generalize v.lastMessage l.val x.found.seq.toNat = u at *
  have huw := hv.trans hu
  obtain ⟨-, -, htr, htt, htl⟩ := u.comeUp_spec l.isLt lat
  have hpress : u.headsOn l.val = s.headsOn l.val := Core.headsOn_congr (by
    rw [(huw.parts .press (by decide) : u.press = w.press), (hwt .press (by decide) : w.press = z.press),
      (hzt .press (by decide) : z.press = y.press), (hyt .press (by decide) : y.press = s.press)]) _
  have hpressz : z.headsOn l.val = s.headsOn l.val := Core.headsOn_congr (by
    rw [(hzt .press (by decide) : z.press = y.press), (hyt .press (by decide) : y.press = s.press)]) _
  have hstate : ∀ g ∈ s.headsOn l.val, u.headState g = 1 := fun g hg => (huw.regs _ _ (by simp)).trans (hheads g (hpressz ▸ hg))
  have hure : (u.ln l.val).reattach = [] := by rw [huw.reattach, hwln, ← hre, ← hyre, ← hzre]; rfl
  obtain ⟨hln, hnew⟩ := htl hure fun g hg => hstate g (hpress ▸ hg)
  have hlow : Keeps (HLK_STATUS.HE_REASON.key l.val :: upKeys l.val) [0x0C, 0x1B] z (u.comeUp l.val lat) := fun f n hk hb => by
    simp only [List.mem_cons, not_or] at hk hb
    exact (htr f n hk.2 (by simpa using hb.2.1)).trans ((huw.regs f n (by simp)).trans (hwr f n (by simpa using hk.1) (by simpa using hb)))
  have hkeep : ∀ f ∈ helloFlds, (u.comeUp l.val lat).rd f l.val = y.rd f l.val := fun f hf => by
    obtain ⟨hk, hk', hb⟩ := hello_free l f hf
    exact (hlow f _ hk' (by rw [hb]; decide)).trans (hzr f _ hk)
  obtain ⟨-, -, hohmsfree⟩ := therm_ne l
  have hleastu : u.rd HLK_LAT.LEAD_MIN_NS l.val = alignUp (600 + lat + setup) 100 := by
    obtain ⟨hk, hk', hb⟩ := hello_free l HLK_LAT.LEAD_MIN_NS (by decide)
    exact (huw.regs _ _ (by simp)).trans ((hwr _ _ (fun h => hk' (List.mem_cons.2 (.inl (List.mem_singleton.1 h)))) (by
      rw [hb]; decide)).trans ((hzr _ _ hk).trans hleast))
  refine ⟨(hkeep _ (by decide)).trans hret, (hkeep _ (by decide)).trans hsetup, (hkeep _ (by decide)).trans htokens,
    (hkeep _ (by decide)).trans hver, (hkeep _ (by decide)).trans hlatr, (hkeep _ (by decide)).trans hleast,
    (hlow _ _ hohmsfree (by rw [ohms_block l]; decide)).trans hohms, ?_, ?_, ?_, ?_, fun g hg => ?_, ?_⟩
  · refine (htr _ _ ?_ (by rw [linkBlock l.isLt]; decide)).trans ((huw.regs _ _ (by simp)).trans hreason)
    simp only [upKeys, List.mem_cons, List.not_mem_nil, or_false, not_or]
    exact ⟨strideKey_ne, strideKey_ne, strideKey_ne, strideKey_ne⟩
  · rw [(htt .etime (by decide) : _ = u.etime), (huw.parts .etime (by decide) : u.etime = w.etime), hwtime, hztime,
      (hyt .etime (by decide) : y.etime = s.etime)]
  · rw [hln]
    refine huw.kept _ ?_
    rw [hwln, ← (hyt .etime (by decide) : y.etime = s.etime)]
    exact hztb
  · rw [hln]
    exact hseq
  · have hin := headsOn_lt l.isLt hg
    exact (htr _ _ (head_upKeys l.isLt hin) (by rw [headBlock hin]; decide)).trans (hstate g hg)
  · rw [hnew, hleastu]
    have hfits := alignUp_lead hlat hs
    have hl := l.isLt
    simp only [at_]
    rw [Nat.mod_eq_of_lt (by omega)]
/-- Settles O51: presence, an attempt that fails, one that begins again, and one that brings the link UP. -/
theorem headLinksTrainAndFail : Obligations.HeadLinksTrainAndFail := by
  unfold Obligations.HeadLinksTrainAndFail
  refine fun l s hboot => ⟨hlPresent_answers hboot, ?_, fun at' => hlTrainRestart_answers hboot, ?_⟩
  · intro hst r i hr hi
    obtain ⟨t, hexec, ht, hcore⟩ := trainFails hboot hst hr hi
    exact ⟨t, hexec, ht.state, ht.why, ht.count, ht.off, ht.again, ht.event, ht.regs, hcore⟩
  · intro x hello status tokens setup st lat hst hhello hh ht hs1 hs2 he hturn hlat hlock hstatus hs0 hfound
    have hdo := doLinkTraining_passes hst hhello hh ht hs1 hs2 he hturn hlat hlock hstatus hs0
    refine answers_of_onRunning (g := doLinkTraining l.val x) rfl hboot ?_
    simp only [State.onCore, Field.onCore, hdo]
    obtain ⟨hup, htime⟩ := Core.bringUp_up (s.field.core.helloShown l.val (trainLat x) tokens setup) l st hfound
    refine ⟨hup, htime, trivial, trivial, trivial, fun hid hre => ?_⟩
    have hc := cameUp (helloOf_lt hh) hs2 hlat (status0Of_lt hs0) hfound hid hre (lat := trainLat x)
    exact ⟨hc.lock, hc.settling, hc.credit, hc.version, hc.oneWay, hc.least, hc.therm, hc.reason, hc.time, hc.first, hc.seq, hc.heads, hc.event⟩

/-! ### Link loss (R437 to R439) -/

/-- What leaves a link depends on its stream alone. -/
theorem LinkSt.onLane_out (x : LinkSt) (lane : Nat) (b : Bytes) : (x.onLane lane b).out = x.out ++ [b] ∧ (x.onLane lane b).pos = x.pos ∧
    (x.onLane lane b).aligned = x.aligned := by
  unfold LinkSt.onLane
  extract_lets r y
  split <;> exact ⟨rfl, rfl, rfl⟩
/-- The part of a link's record that decides which blocks leave. -/
def LinkSt.stream (x : LinkSt) : Nat × Nat × List Bytes := (x.pos, x.aligned, x.out)
theorem LinkSt.align_stream (x : LinkSt) : x.align.stream = (x.pos, x.pos, x.out ++ [alignBlock, alignBlock]) := by
  unfold LinkSt.align LinkSt.stream
  rw [(onLane_out _ 1 alignBlock).1, (onLane_out _ 1 alignBlock).2.1, (onLane_out _ 1 alignBlock).2.2,
    (onLane_out _ 0 alignBlock).1, (onLane_out _ 0 alignBlock).2.1, (onLane_out _ 0 alignBlock).2.2, List.append_assoc]
  rfl
theorem LinkSt.next_stream {x y : LinkSt} (h : x.stream = y.stream) (b : Bytes) : (x.next b).stream = (y.next b).stream := by
  have hnext : ∀ z : LinkSt, (z.next b).stream = if z.stream.1 - z.stream.2.1 < 16384 then (z.stream.1 + 1, z.stream.2.1, z.stream.2.2 ++ [b])
      else (z.stream.1 + 1, z.stream.1, z.stream.2.2 ++ [alignBlock, alignBlock] ++ [b]) := by
    intro z
    have hal := z.align_stream
    simp only [LinkSt.stream, Prod.mk.injEq] at hal
    obtain ⟨hpos, haligned, hout⟩ := hal
    unfold LinkSt.next
    extract_lets w
    unfold LinkSt.stream
    rw [(onLane_out _ _ b).1, (onLane_out _ _ b).2.1, (onLane_out _ _ b).2.2]
    by_cases hn : z.pos - z.aligned < 16384
    · simp only [w, if_pos hn]
    · simp only [w, if_neg hn, hpos, haligned, hout]
  rw [hnext, hnext, h]
theorem LinkSt.send_stream (bs : List Bytes) {x y : LinkSt} (h : x.stream = y.stream) : (x.send bs).stream = (y.send bs).stream := by
  induction bs generalizing x y with
  | nil => exact h
  | cons b bs ih => exact ih (next_stream h b)
theorem LinkSt.send_out (bs : List Bytes) {x y : LinkSt} (h : x.stream = y.stream) : (x.send bs).out = (y.send bs).out :=
  congrArg (·.2.2) (send_stream bs h)
theorem Core.hf_setHf (s : Core) (h : Nat) (x : HeadFire) : (s.setHf h x).hf h = x := mget_mset _ _ _ _
theorem Core.hf_setHf_ne (s : Core) {h g : Nat} (x : HeadFire) (hne : g ≠ h) : (s.setHf h x).hf g = s.hf g := mget_mset_ne _ _ hne
theorem Core.setHf_spec (s : Core) (h : Nat) (x : HeadFire) : SameRegs [HDC_FIRE.PENDING.key h] s (s.setHf h x) ∧ Touches [.spg] s (s.setHf h x) := by
  have hspg : Within [] [.spg] s { s with spg := { s.spg with heads := mset HeadFire.none s.spg.heads h x } } := (Within.refl _ _ s).spg _
  exact ⟨((SameRegs.of_regs rfl : SameRegs [HDC_FIRE.PENDING.key h] s
    { s with spg := { s.spg with heads := mset HeadFire.none s.spg.heads h x } })).wr _ List.mem_cons_self, hspg.parts.trans ((Touches.wr _ _ _ _).mono (by simp))⟩
/-- With no line issued on its heads, a link closes none. -/
theorem Core.closeUnconfirmed_idle {s : Core} {l : Nat} (h : ∀ g ∈ s.headsOn l, (s.hf g).issued = []) : (s.closeUnconfirmed l).2 = 0 ∧
    SameRegs ((s.headsOn l).map HDC_FIRE.PENDING.key) s (s.closeUnconfirmed l).1 ∧ Touches [.spg] s (s.closeUnconfirmed l).1 := by
  have hfold : ∀ (hs : List Nat) (t : Core), (∀ g ∈ hs, (t.hf g).issued = []) →
      (hs.foldl (fun (acc : Core × Nat) h =>
        (acc.1.closeIssued h (fun _ => true) .unconf, acc.2 + (acc.1.hf h).issued.length)) (t, 0)).2 = 0 ∧
      SameRegs (hs.map HDC_FIRE.PENDING.key) t (hs.foldl (fun (acc : Core × Nat) h =>
        (acc.1.closeIssued h (fun _ => true) .unconf, acc.2 + (acc.1.hf h).issued.length)) (t, 0)).1 ∧
      Touches [.spg] t (hs.foldl (fun (acc : Core × Nat) h =>
        (acc.1.closeIssued h (fun _ => true) .unconf, acc.2 + (acc.1.hf h).issued.length)) (t, 0)).1 := by
    intro hs
    induction hs with
    | nil => exact fun t _ => ⟨rfl, .refl _ t, .refl _ t⟩
    | cons g hs ih =>
      intro t ht
      have hno := ht g List.mem_cons_self
      have hclose : t.closeIssued g (fun _ => true) .unconf = t.setHf g { t.hf g with issued := [] } := by
        unfold Core.closeIssued
        simp only [hno, List.filter_nil, List.foldl_nil]
      obtain ⟨hregs, hparts⟩ := t.setHf_spec g { t.hf g with issued := [] }
      have hnext : ∀ k ∈ hs, ((t.setHf g { t.hf g with issued := [] }).hf k).issued = [] := fun k hk => by
        by_cases hkg : k = g
        · rw [hkg, Core.hf_setHf]
        · rw [Core.hf_setHf_ne _ _ hkg]
          exact ht k (List.mem_cons_of_mem _ hk)
      rw [List.foldl_cons]
      dsimp only
      rw [hclose, hno]
      obtain ⟨hn, hr, hp⟩ := ih _ hnext
      exact ⟨hn, (hregs.mono (by simp)).trans (hr.mono (by simp)), hparts.trans hp⟩
  exact hfold _ s h

/-- The registers of a head that the loss of its link sets. -/
def lostHeadKeys (h : Nat) : List Nat := [HDC_ID_STATUS.STATE.key h, HDC_ID_STATUS.REASON.key h, HDC_ID_STATUS.USAGE_FRESH.key h,
  HDC_FIRE.FIRING.key h, HDC_FIRE.PENDING.key h]
/-- A head of a link that is lost. -/
def Core.lostHead (s : Core) (h : Nat) : Core :=
  let s := (s.waitHead h).wr HDC_FIRE.FIRING 0 h
  s.setHf h { s.hf h with staged := (s.hf h).staged.map spoilSent }
theorem headState_kept {h g : Nat} (hne : h ≠ g) : HDC_ID_STATUS.STATE.key h ∉ lostHeadKeys g := by
  simp only [lostHeadKeys, List.mem_cons, List.not_mem_nil, or_false, Fld.key, Fld.addr, HDC_ID_STATUS.STATE, HDC_ID_STATUS.REASON,
    HDC_ID_STATUS.USAGE_FRESH, HDC_FIRE.FIRING, HDC_FIRE.PENDING, fN]
  omega
theorem Core.lostHead_spec (s : Core) (h : Nat) : (s.lostHead h).headState h = 1 ∧ SameRegs (lostHeadKeys h) s (s.lostHead h) ∧
    Touches [.hlk, .spg] s (s.lostHead h) ∧ (s.lostHead h).hlk.links = s.hlk.links := by
  obtain ⟨hstate, hregs, hparts, hlinks⟩ := s.waitHead_spec h
  unfold Core.lostHead
  generalize s.waitHead h = y at *
  have hfire : SameRegs [HDC_FIRE.FIRING.key h] y (y.wr HDC_FIRE.FIRING 0 h) := (SameRegs.refl _ y).wr _ List.mem_cons_self
  have hfiret := Touches.wr y HDC_FIRE.FIRING 0 h
  generalize y.wr HDC_FIRE.FIRING 0 h = z at *
  dsimp only
  obtain ⟨hset, hsett⟩ := z.setHf_spec h { z.hf h with staged := (z.hf h).staged.map spoilSent }
  generalize z.setHf h { z.hf h with staged := (z.hf h).staged.map spoilSent } = w at *
  refine ⟨?_, ((hregs.mono (by simp [waitKeys, lostHeadKeys])).trans (hfire.mono (by simp [lostHeadKeys]))).trans
    (hset.mono (by simp [lostHeadKeys])), ((hparts.mono (by decide)).trans (hfiret.mono (by simp))).trans (hsett.mono (by decide)), ?_⟩
  · exact (hset _ _ (by simpa using strideKey_ne)).trans ((hfire _ _ (by simpa using strideKey_ne)).trans hstate)
  · rw [(hsett .hlk (by decide) : w.hlk = z.hlk), (hfiret .hlk (by simp) : z.hlk = y.hlk), hlinks]
theorem Core.lostHeads_spec (hs : List Nat) (s : Core) : (∀ h ∈ hs, (hs.foldl Core.lostHead s).headState h = 1) ∧
    SameRegs (hs.flatMap lostHeadKeys) s (hs.foldl Core.lostHead s) ∧ Touches [.hlk, .spg] s (hs.foldl Core.lostHead s) ∧
    (hs.foldl Core.lostHead s).hlk.links = s.hlk.links := by
  induction hs generalizing s with
  | nil => exact ⟨fun _ h => (nomatch h), .refl _ s, .refl _ s, rfl⟩
  | cons g hs ih =>
    obtain ⟨hstate, hregs, hparts, hlinks⟩ := s.lostHead_spec g
    obtain ⟨hall, hregs', hparts', hlinks'⟩ := ih (s.lostHead g)
    rw [List.foldl_cons]
    refine ⟨fun h hh => ?_, (hregs.mono (by simp)).trans (hregs'.mono (by simp)), hparts.trans hparts', hlinks'.trans hlinks⟩
    by_cases hin : h ∈ hs
    · exact hall h hin
    · obtain rfl : h = g := (List.mem_cons.1 hh).resolve_right hin
      refine (hregs' _ _ fun hk => ?_).trans hstate
      obtain ⟨k, hk, hk'⟩ := List.mem_flatMap.1 hk
      exact headState_kept (fun e : h = k => hin (e.symm ▸ hk)) hk'
/-- The usage writes of a lost link's slots end. -/
def Core.dropWrite (s : Core) (h : Nat) : Core :=
  if (s.hr h).write.isNone && !(s.hr h).pfDue then s else s.setHr h { s.hr h with write := none, pfDue := false }
theorem Core.dropWrites_spec (hs : List Nat) (s : Core) : SameRegs [] s (hs.foldl Core.dropWrite s) ∧
    Touches [.hlk] s (hs.foldl Core.dropWrite s) ∧ (hs.foldl Core.dropWrite s).hlk.links = s.hlk.links := by
  have hstep : ∀ (t : Core) (h : Nat), SameRegs [] t (t.dropWrite h) ∧ Touches [.hlk] t (t.dropWrite h) ∧ (t.dropWrite h).hlk.links = t.hlk.links :=
    fun t h => by
      unfold Core.dropWrite
      split
      · exact ⟨.refl _ t, .refl _ t, rfl⟩
      · exact ⟨.of_regs rfl, ((Within.refl [] [.hlk] t).hlk _).parts, rfl⟩
  exact ⟨SameRegs.foldl hs (fun h _ t => (hstep t h).1) s, Touches.foldl hs (fun h _ t => (hstep t h).2.1) s,
    foldl_keeps (fun t => t.hlk.links) (fun t h => (hstep t h).2.2) hs s⟩
theorem Core.cdcReset_none {s : Core} {p : Nat → Bool} (hout : s.cdc.out = []) (hreq : ∀ x ∈ s.cdc.req.map (·.1), p x = false) :
    s.cdcReset p = s := by
  have hhit : ((s.cdc.out ++ s.cdc.req.map (·.1)).eraseDups).filter p = [] := List.filter_eq_nil_iff.2 fun x hx => by
    rw [hout, List.nil_append, List.mem_eraseDups] at hx
    rw [hreq x hx]
    decide
  have hrun : ∀ hit : List Nat, hit = [] → (let t := hit.foldl Core.cdcAbort s
      if t.cdc.out.any p then t.setOut (t.cdc.out.filter fun id => !p id) else t) = s := by
    rintro _ rfl
    exact if_neg (by rw [List.foldl_nil, hout]; exact Bool.false_ne_true)
  exact hrun _ hhit
/-- The registers of a link that its loss sets. -/
def lossFlds : List Fld := [HLK_STATUS.STATE, HLK_STATUS.LOSS_CAUSE, HLK_STATUS.RET_LOCK, HLK_LOSS_CNT.LOSSES]
/-- The registers show the loss. -/
def Core.lossShown (s : Core) (l cause : Nat) : Core :=
  (s.wrs [(HLK_STATUS.STATE, if s.rdb HLK_CFG.EN l then 0 else 1), (HLK_STATUS.LOSS_CAUSE, cause), (HLK_STATUS.RET_LOCK, 0)] l).inc
    HLK_LOSS_CNT.LOSSES l
theorem Core.lossShown_spec (s : Core) (l : Nat) {cause : Nat} (hc : cause < 256) :
    (s.lossShown l cause).linkState l = (if s.rdb HLK_CFG.EN l then 0 else 1) ∧ (s.lossShown l cause).rd HLK_STATUS.LOSS_CAUSE l = cause ∧
    (s.lossShown l cause).rd HLK_STATUS.RET_LOCK l = 0 ∧
    (s.lossShown l cause).rd HLK_LOSS_CNT.LOSSES l = satU 16 (s.rd HLK_LOSS_CNT.LOSSES l + 1) ∧
    SameRegs (lossFlds.map (·.key l)) s (s.lossShown l cause) ∧ Touches [] s (s.lossShown l cause) := by
  unfold Core.lossShown
  have hv : (if s.rdb HLK_CFG.EN l then 0 else 1) ≤ 1 := by split <;> decide
  generalize (if s.rdb HLK_CFG.EN l then 0 else 1) = v at *
  have hregs : SameRegs (lossFlds.map (·.key l)) s (s.wrs [(HLK_STATUS.STATE, v), (HLK_STATUS.LOSS_CAUSE, cause), (HLK_STATUS.RET_LOCK, 0)] l) :=
    (SameRegs.refl _ s).wrs (l := [(HLK_STATUS.STATE, v), (HLK_STATUS.LOSS_CAUSE, cause), (HLK_STATUS.RET_LOCK, 0)]) (by simp [lossFlds])
  refine ⟨?_, ?_, ?_, ?_, hregs.inc 1 (by simp [lossFlds]), (Touches.wrs s _ l).trans (Touches.wr _ _ _ _)⟩
  · refine (Core.rd_inc_ne _ _ _ _ _ _ strideKey_ne).trans ?_
    simp only [Core.wrs, List.foldl_cons, List.foldl_nil]
    rw [Core.rd_wr_ne _ _ _ _ _ _ strideKey_ne, Core.rd_wr_ne _ _ _ _ _ _ strideKey_ne, Core.rd_wr]
    exact Nat.mod_eq_of_lt (hv.trans_lt (by decide))
  · refine (Core.rd_inc_ne _ _ _ _ _ _ strideKey_ne).trans ?_
    simp only [Core.wrs, List.foldl_cons, List.foldl_nil]
    rw [Core.rd_wr_ne _ _ _ _ _ _ strideKey_ne, Core.rd_wr]
    exact Nat.mod_eq_of_lt hc
  · refine (Core.rd_inc_ne _ _ _ _ _ _ strideKey_ne).trans ?_
    simp only [Core.wrs, List.foldl_cons, List.foldl_nil]
    exact Core.rd_wr ..
  · rw [Core.rd_inc_self]
    simp only [Core.wrs, List.foldl_cons, List.foldl_nil]
    rw [Core.rd_wr_ne _ _ _ _ _ _ strideKey_ne, Core.rd_wr_ne _ _ _ _ _ _ strideKey_ne, Core.rd_wr_ne _ _ _ _ _ _ strideKey_ne]
    rfl
/-- The record of a link whose transmitter goes off. -/
def Core.offRecord (s : Core) (l : Nat) : LinkSt :=
  { s.ln l with
    tx := false, txAt := if s.rdb HLK_CFG.EN l then some (s.etime + 1000000) else none
    restartAt := if s.rdb HLK_CFG.AUTO l && s.rdb HLK_CFG.EN l then some (s.etime + 10000000) else none, tokens := [], sb := []
    inhibited := 0, resume := 0, nakRun := 0, rack := none, lowRun := [], gone := [] }
/-- The record of a link that is lost, the last blocks sent. -/
def Core.lostRecord (s : Core) (l : Nat) (block : List Bytes) : LinkSt := (s.offRecord l).fresh.send block
theorem Core.lostRecord_congr {a b : Core} {l : Nat} (hln : b.ln l = a.ln l) (hen : b.rd HLK_CFG.EN l = a.rd HLK_CFG.EN l)
    (hauto : b.rd HLK_CFG.AUTO l = a.rd HLK_CFG.AUTO l) (htime : b.etime = a.etime) (block : List Bytes) :
    b.lostRecord l block = a.lostRecord l block := by
  unfold Core.lostRecord Core.offRecord Core.rdb
  rw [hln, hen, hauto, htime]
/-- The INHIBIT that a running transmitter sends as its last block. -/
def Core.lastBlock (s : Core) (l : Nat) : List Bytes := if s.linkState l < 2 then [] else [inhibitBlock 255 4]
/-- The event of the loss, and the link's record behind it. -/
def Core.lossSaid (r : Core × Nat) (l cause : Nat) (block : List Bytes) : Core :=
  let s := r.1.emit 0x0902 (l + at_ 1 cause + at_ 4 r.2)
  s.setLn l (s.lostRecord l block)
/-- The units held for a link are gone. -/
def Core.dropHeld (s : Core) (l : Nat) : Core :=
  { s with fij := { s.fij with held := s.fij.held.filter fun u => !((u.target == 3 || u.target == 4) && u.inst == l) } }
theorem Core.linkLoss_eq (s : Core) (l cause : Nat) : s.linkLoss l cause =
    let e := Core.lossSaid ((s.lossShown l cause).closeUnconfirmed l) l cause (s.lastBlock l)
    ((((List.range 8).map (8 * l + ·)).foldl Core.dropWrite ((e.headsOn l).foldl Core.lostHead e)).dropHeld l).cdcReset (crossesDomain 9 l) := by
  rcases hr : (s.lossShown l cause).closeUnconfirmed l with ⟨u, n⟩
  unfold Core.linkLoss
  extract_lets block a b said
  rw [show b.closeUnconfirmed l = (u, n) from hr]
  dsimp -zeta only
  extract_lets s1 again x d e f g u'
  have hsaid : said = Core.lossSaid (u, n) l cause block := rfl
  have hd : d = Core.lossSaid (u, n) l cause block := rfl
  have he : e = (d.headsOn l).foldl Core.lostHead d := rfl
  have hf : f = ((List.range 8).map (8 * l + ·)).foldl Core.dropWrite e := rfl
  have hu : u' = f.dropHeld l := rfl
  rw [hu, hf, he, hd, hsaid]
/-- What the first steps of a loss leave, `e` behind them (R439 steps 1 to 3). -/
structure LossSaid (l cause : Nat) (block : List Bytes) (s e : Core) : Prop where
  state : e.linkState l = (if s.rdb HLK_CFG.EN l then 0 else 1)
  why : e.rd HLK_STATUS.LOSS_CAUSE l = cause
  lock : e.rd HLK_STATUS.RET_LOCK l = 0
  count : e.rd HLK_LOSS_CNT.LOSSES l = satU 16 (s.rd HLK_LOSS_CNT.LOSSES l + 1)
  regs : SameRegs (lossFlds.map (·.key l) ++ LOG_EVT_OVWR_CNT.COUNT.key 0 :: (s.headsOn l).map HDC_FIRE.PENDING.key) s e
  parts : Touches [.hlk, .spg, .cmdq] s e
  record : e.ln l = s.lostRecord l block
  event : s.Raised e 0x0902 (l + at_ 1 cause)
  async : e.cmdq.async = s.cmdq.async
theorem loss_cfg (l : Nat) : HLK_CFG.EN.key l ∉ lossFlds.map (·.key l) ∧ HLK_CFG.AUTO.key l ∉ lossFlds.map (·.key l) := by
  simp only [lossFlds, List.map_cons, List.map_nil, List.mem_cons, List.not_mem_nil, or_false, not_or]
  exact ⟨⟨strideKey_ne, strideKey_ne, strideKey_ne, strideKey_ne⟩, strideKey_ne, strideKey_ne, strideKey_ne, strideKey_ne⟩
theorem Core.lossSaid_idle {s b c : Core} {l cause : Nat} (hl : l < 24) (hc : cause < 256) (hb : b = s.lossShown l cause)
    (hcr : SameRegs ((s.headsOn l).map HDC_FIRE.PENDING.key) b c) (hct : Touches [.spg] b c) (block : List Bytes) :
    LossSaid l cause block s (Core.lossSaid (c, 0) l cause block) := by
  obtain ⟨hst, hwhy, hlock, hcount, hregs, hparts⟩ := s.lossShown_spec l hc
  rw [← hb] at hst hwhy hlock hcount hregs hparts
  have hlow : ∀ f : Fld, f.block l = 0x0A → c.rd f l = b.rd f l := fun f hf => hcr f l fun hk => by
    obtain ⟨g, hg, hk⟩ := List.mem_map.1 hk
    have hhead : f.block l = 0x0C := by
      rw [Fld.block, ← hk]
      exact headBlock (headsOn_lt hl hg)
    exact absurd (hf.symm.trans hhead) (by decide)
  have hd : Within [0x1B] [.cmdq] c (c.emit 0x0902 (l + at_ 1 cause + at_ 4 0)) := (Within.refl _ _ c).emit _ _ _
  have hdr : SameRegs [LOG_EVT_OVWR_CNT.COUNT.key 0] c (c.emit 0x0902 (l + at_ 1 cause + at_ 4 0)) := (SameRegs.refl _ c).emit _ _ _
  have hraised : s.Raised (c.emit 0x0902 (l + at_ 1 cause + at_ 4 0)) 0x0902 (l + at_ 1 cause) := by
    have hdata : l + at_ 1 cause < 2 ^ 128 := by
      simp only [at_]
      omega
    have hzero : l + at_ 1 cause + at_ 4 0 = l + at_ 1 cause := by
      simp only [at_, Nat.zero_mul, Nat.add_zero]
    rw [hzero]
    exact Core.raised_emit_of (code := 0x0902) (tag := 0) hdata ((hct .cmdq (by decide) : c.cmdq = b.cmdq).trans (hparts .cmdq (by simp)))
      (congrArg TckSt.running ((hct .tck (by decide) : c.tck = b.tck).trans (hparts .tck (by simp))))
  have hq : (c.emit 0x0902 (l + at_ 1 cause + at_ 4 0)).cmdq.async = c.cmdq.async := by rw [Core.emit_cmdq]
  unfold Core.lossSaid
  extract_lets d
  change SameRegs _ c d at hdr
  change s.Raised d _ _ at hraised
  change d.cmdq.async = c.cmdq.async at hq
  have hasync : d.cmdq.async = s.cmdq.async := by
    rw [hq, (hct .cmdq (by decide) : c.cmdq = b.cmdq), (hparts .cmdq (by simp) : b.cmdq = s.cmdq)]
  change Within _ _ c d at hd
  clear_value d
  have hlowd : ∀ f : Fld, f.block l = 0x0A → d.rd f l = b.rd f l := fun f hf => (hd.rd f l (by rw [hf]; decide)).trans (hlow f hf)
  rw [Core.lostRecord_congr (a := s)]
  · have hset : ∀ f : Fld, (d.setLn l (s.lostRecord l block)).rd f l = d.rd f l := fun f => Core.rd_congr rfl _ _
    refine ⟨(hset _).trans ((hlowd _ (linkBlock hl)).trans hst), (hset _).trans ((hlowd _ (linkBlock hl)).trans hwhy),
      (hset _).trans ((hlowd _ (linkBlock hl)).trans hlock), (hset _).trans ((hlowd _ (linkBlock hl)).trans hcount), ?_, ?_, Core.ln_setLn .., ?_, hasync⟩
    · refine (((hregs.mono ?_).trans (hcr.mono ?_)).trans (hdr.mono ?_)).setLn _ _
      · exact List.subset_append_left _ _
      · exact fun k hk => List.mem_append_right _ (List.mem_cons_of_mem _ hk)
      · exact fun k hk => List.mem_append_right _ (List.mem_cons.2 (.inl (List.mem_singleton.1 hk)))
    · exact (((hparts.mono (by simp)).trans (hct.mono (by decide))).trans (hd.parts.mono (by decide))).trans
        ((d.setLn_within l _).parts.mono (by decide))
    · exact hraised.congr rfl rfl rfl rfl rfl rfl rfl
  · rw [Core.ln_congr (hd.parts .hlk (by decide)), Core.ln_congr (hct .hlk (by decide)), Core.ln_congr (hparts .hlk (by simp))]
  · exact (hlowd _ (linkBlock hl)).trans (hregs _ _ (loss_cfg l).1)
  · exact (hlowd _ (linkBlock hl)).trans (hregs _ _ (loss_cfg l).2)
  · rw [(hd.parts .etime (by decide) : d.etime = c.etime), (hct .etime (by decide) : c.etime = b.etime), (hparts .etime (by simp) : b.etime = s.etime)]
theorem lost_inhibit (s : Core) (l : Nat) : (s.lostRecord l (s.lastBlock l)).out =
    if s.linkState l < 2 then [] else leaving l [inhibitBlock 255 4] (s.openLink l) := by
  unfold Core.lostRecord
  rw [Core.lastBlock]
  split
  · rfl
  · unfold leaving
    refine LinkSt.send_out _ ?_
    rw [Core.openLink, Core.ln_setLn]
    rfl
theorem lossKeys_all {s : Core} {l k : Nat} (h : k ∈ lossFlds.map (·.key l) ++ LOG_EVT_OVWR_CNT.COUNT.key 0 :: (s.headsOn l).map HDC_FIRE.PENDING.key ∨
    k ∈ (s.headsOn l).flatMap lostHeadKeys) : k ∈ lossKeys l s := by
  unfold lossKeys
  rcases h with h | h
  · rcases List.mem_append.1 h with h | h
    · refine List.mem_append_left _ ?_
      simp only [lossFlds, List.map_cons, List.map_nil, List.mem_cons, List.not_mem_nil, or_false] at h ⊢
      tauto
    · rcases List.mem_cons.1 h with rfl | h
      · exact List.mem_append_left _ (by simp)
      · obtain ⟨g, hg, rfl⟩ := List.mem_map.1 h
        exact List.mem_append_right _ (List.mem_flatMap.2 ⟨g, hg, by simp⟩)
  · exact List.mem_append_right _ h
theorem lostHeadKeys_block {h k : Nat} (hh : h < 192) (hk : k ∈ lostHeadKeys h) : k / 2 ^ 21 = 0x0C := by
  simp only [lostHeadKeys, List.mem_cons, List.not_mem_nil, or_false] at hk
  obtain rfl | rfl | rfl | rfl | rfl := hk
  all_goals exact headBlock hh
/-- The loss of a link on which nothing is issued and no crossing is in use. -/
theorem Core.linkLoss_idle {s : Core} {l cause : Nat} (hl : l < 24) (hc : cause < 256) (hidle : LinkIdle l s) :
    LinkLost l cause s (s.linkLoss l cause) ∧ (s.linkLoss l cause).linkState l = (if s.rdb HLK_CFG.EN l then 0 else 1) ∧
    SameRegs (lossKeys l s) s (s.linkLoss l cause) ∧ Touches [.hlk, .spg, .fij, .cmdq] s (s.linkLoss l cause) ∧
    (s.linkLoss l cause).ln l = s.lostRecord l (s.lastBlock l) ∧ (s.linkLoss l cause).cmdq.async = s.cmdq.async := by
  obtain ⟨hissued, hout, hreq⟩ := hidle
  have hshown : Touches [] s (s.lossShown l cause) := (s.lossShown_spec l hc).2.2.2.2.2
  have hheads : (s.lossShown l cause).headsOn l = s.headsOn l := Core.headsOn_congr (hshown .press (by simp)) l
  obtain ⟨hn, hcr, hct⟩ := Core.closeUnconfirmed_idle (s := s.lossShown l cause) (l := l) fun g hg => by
    rw [hheads] at hg
    rw [Core.hf, (hshown .spg (by simp) : (s.lossShown l cause).spg = s.spg)]
    exact hissued g hg
  rw [hheads] at hcr
  rw [Core.linkLoss_eq]
  have hr : (s.lossShown l cause).closeUnconfirmed l = (((s.lossShown l cause).closeUnconfirmed l).1, 0) := by rw [← hn]
  have he := Core.lossSaid_idle hl hc rfl hcr hct (s.lastBlock l)
  rw [← hr] at he
  generalize Core.lossSaid ((s.lossShown l cause).closeUnconfirmed l) l cause (s.lastBlock l) = e at *
  have hpress : e.headsOn l = s.headsOn l := Core.headsOn_congr (he.parts .press (by decide)) l
  dsimp only
  rw [hpress]
  obtain ⟨hwait, hfr, hft, hfl⟩ := Core.lostHeads_spec (s.headsOn l) e
  generalize (s.headsOn l).foldl Core.lostHead e = f at *
  obtain ⟨hgr, hgt, hgl⟩ := Core.dropWrites_spec ((List.range 8).map (8 * l + ·)) f
  generalize ((List.range 8).map (8 * l + ·)).foldl Core.dropWrite f = g at *
  have hu : Within [] [.fij] g (g.dropHeld l) := (Within.refl _ _ g).fij _
  generalize g.dropHeld l = u at *
  have hall : Touches [.hlk, .spg, .fij] e u := ((hft.mono (by decide)).trans (hgt.mono (by decide))).trans (hu.parts.mono (by decide))
  have hcdc : u.cdc = s.cdc := (hall .cdc (by decide) : u.cdc = e.cdc).trans (he.parts .cdc (by decide))
  have hcq : u.cmdq = e.cmdq := hall .cmdq (by decide)
  have htck : u.tck = e.tck := hall .tck (by decide)
  rw [Core.cdcReset_none (by rw [hcdc, hout]) (by rw [hcdc]; exact hreq)]
  have huln : u.ln l = s.lostRecord l (s.lastBlock l) := by
    rw [← he.record, Core.ln_congr (hu.parts .hlk (by decide)), Core.ln, hgl, hfl, Core.ln]
  have hur : SameRegs ((s.headsOn l).flatMap lostHeadKeys) e u := (hfr.trans (hgr.mono (by simp))).trans (hu.sameRegs _)
  have hlow : ∀ f : Fld, f.block l = 0x0A → u.rd f l = e.rd f l := fun f hf => hur f l fun hk => by
    obtain ⟨g, hg, hk⟩ := List.mem_flatMap.1 hk
    exact absurd (hf.symm.trans (lostHeadKeys_block (headsOn_lt hl hg) hk)) (by decide)
  have hrec := ((s.offRecord l).fresh.send_sent (s.lastBlock l)).rest
  refine ⟨⟨(hlow _ (linkBlock hl)).trans he.why, (hlow _ (linkBlock hl)).trans he.count, (hlow _ (linkBlock hl)).trans he.lock,
    ?_, by rw [huln, lost_inhibit], ?_, fun h hh => ?_⟩, (hlow _ (linkBlock hl)).trans he.state, ?_, (he.parts.mono (by decide)).trans (hall.mono (by decide)), huln,
    (congrArg CmdqSt.async hcq).trans he.async⟩
  · rw [huln, Core.lostRecord, hrec]
    exact ⟨rfl, rfl, rfl⟩
  · exact he.event.congr rfl rfl rfl (by rw [hcq]) (by rw [hcq]) (by rw [hcq]) (by rw [htck])
  · exact (hu.rd _ _ (by simp)).trans ((hgr _ _ (by simp)).trans (hwait h hh))
  · exact (he.regs.mono fun k hk => lossKeys_all (.inl hk)).trans (hur.mono fun k hk => lossKeys_all (.inr hk))

theorem LinkIdle.congr {l : Nat} {a b : Core} (h : LinkIdle l a) (hpress : b.press = a.press) (hspg : b.spg = a.spg) (hcdc : b.cdc = a.cdc) :
    LinkIdle l b := by
  obtain ⟨hissued, hout, hreq⟩ := h
  refine ⟨fun g hg => ?_, by rw [hcdc, hout], by rw [hcdc]; exact hreq⟩
  rw [Core.hf, hspg]
  exact hissued g (Core.headsOn_congr hpress l ▸ hg)
/-- A loss told from a state before, that differs in nothing it reads. -/
theorem LinkLost.before {l cause : Nat} {a b t : Core} (h : LinkLost l cause b t) (hcount : b.rd HLK_LOSS_CNT.LOSSES l = a.rd HLK_LOSS_CNT.LOSSES l)
    (hstate : b.linkState l = a.linkState l) (hhlk : b.ln l = a.ln l ∨ (b.ln l).stream = (a.ln l).stream) (hcq : b.cmdq.evSeq = a.cmdq.evSeq)
    (hfifo : b.cmdq.fifo = a.cmdq.fifo)
    (htck : b.tck.running = a.tck.running) (hpress : b.press = a.press) : LinkLost l cause a t := by
  obtain ⟨hwhy, hcnt, hlock, hoff, hinh, hev, hheads⟩ := h
  refine ⟨hwhy, by rw [← hcount]; exact hcnt, hlock, hoff, ?_, hev.congr hfifo.symm hcq.symm htck.symm rfl rfl rfl rfl,
    by rw [← Core.headsOn_congr hpress l]; exact hheads⟩
  rw [hinh, hstate]
  split
  · rfl
  · unfold leaving
    refine LinkSt.send_out _ ?_
    rw [Core.openLink, Core.ln_setLn, Core.openLink, Core.ln_setLn]
    rcases hhlk with h | h
    · rw [h]
    · simp only [LinkSt.stream, Prod.mk.injEq] at h
      obtain ⟨hpos, hal, -⟩ := h
      simp only [LinkSt.stream, LinkSt.fresh, hpos, hal]
/-- A loss told of a state behind, where the link's record stays off and unsent. -/
theorem LinkLost.setLn {l cause : Nat} {s t : Core} (h : LinkLost l cause s t) {x : LinkSt} (htx : x.tx = false) (htok : x.tokens = (t.ln l).tokens)
    (hsb : x.sb = (t.ln l).sb) (hout : x.out = (t.ln l).out) : LinkLost l cause s (t.setLn l x) := by
  obtain ⟨hwhy, hcnt, hlock, hoff, hinh, hev, hheads⟩ := h
  have hrd : ∀ f n, (t.setLn l x).rd f n = t.rd f n := fun f n => Core.rd_congr rfl _ _
  refine ⟨(hrd _ _).trans hwhy, (hrd _ _).trans hcnt, (hrd _ _).trans hlock, ?_, ?_, hev.congr rfl rfl rfl rfl rfl rfl rfl,
    fun g hg => (hrd _ _).trans (hheads g hg)⟩
  · rw [Core.ln_setLn, htx, htok, hsb]
    exact ⟨rfl, hoff.2⟩
  · rw [Core.ln_setLn, hout, hinh]
/-- What O52 says of a loss but for the time it takes. -/
def Lost (l cause : Nat) (s t : Core) : Prop :=
  LinkLost l cause s t ∧ t.linkState l = (if s.rdb HLK_CFG.EN l then 0 else 1) ∧ SameRegs (HLK_STATUS.PRSNT.key l :: lossKeys l s) s t
theorem Core.linkLoss_reached {s : Core} {l cause : Nat} (hl : l < 24) (hc : cause < 256) (hidle : LinkIdle l s) (at' : Nat) :
    Lost l cause s ((s.reach at').linkLoss l cause) ∧ ((s.reach at').linkLoss l cause).etime = max s.etime at' := by
  obtain ⟨hlost, hstate, hregs, hparts, -⟩ := Core.linkLoss_idle (s := s.reach at') hl hc (LinkIdle.congr hidle rfl rfl rfl)
  refine ⟨⟨LinkLost.before hlost (Core.rd_congr rfl _ _) (Core.rd_congr rfl _ _) (.inl (Core.ln_congr rfl _)) rfl rfl rfl rfl, hstate, ?_⟩,
    hparts .etime (by decide)⟩
  have hkeys : lossKeys l (s.reach at') = lossKeys l s := by
    unfold lossKeys
    rw [Core.headsOn_congr (a := s) (b := s.reach at') rfl]
  rw [hkeys] at hregs
  exact ((SameRegs.of_regs rfl).trans hregs).mono (List.subset_cons_self ..)
theorem lossKeys_free {s : Core} {l : Nat} {f : Fld} (hl : l < 24) (hf : f.key l ∉ lossFlds.map (·.key l)) (hb : f.block l = 0x0A) :
    f.key l ∉ lossKeys l s := fun hk => by
  rcases List.mem_append.1 hk with h | h
  · simp only [lossFlds, List.map_cons, List.map_nil, List.mem_cons, List.not_mem_nil, or_false, not_or] at hf h
    obtain ⟨h1, h2, h3, h4⟩ := hf
    rcases h with h | h | h | h | h
    · exact h1 h
    · exact h2 h
    · exact h3 h
    · exact h4 h
    · have hlog : f.block l = LOG_EVT_OVWR_CNT.COUNT.block 0 := congrArg (· / 2 ^ 21) h
      rw [hb] at hlog
      exact absurd hlog (by decide)
  · obtain ⟨g, hg, hk'⟩ := List.mem_flatMap.1 h
    exact absurd (hb.symm.trans (lostHeadKeys_block (headsOn_lt hl hg) hk')) (by decide)
theorem presentLost_lost {s : Core} {l : Nat} (hl : l < 24) (hidle : LinkIdle l s) (hp : s.rd HLK_STATUS.PRSNT l = 1) :
    Lost l 1 s (doHlPresentLost l s) ∧ (doHlPresentLost l s).rd HLK_STATUS.PRSNT l = 0 ∧ ((doHlPresentLost l s).ln l).restartAt = none ∧
    (doHlPresentLost l s).etime = s.etime := by
  have hdo : doHlPresentLost l s = ((s.wr HLK_STATUS.PRSNT 0 l).linkLoss l 1).setLn l { ((s.wr HLK_STATUS.PRSNT 0 l).linkLoss l 1).ln l with
      tx := false, txAt := none, restartAt := none } := by
    unfold doHlPresentLost
    rw [Core.rdb_eq_true (by rw [hp]; decide)]
    rfl
  have hgone : (s.wr HLK_STATUS.PRSNT 0 l).rd HLK_STATUS.PRSNT l = 0 := Core.rd_wr ..
  have hen : (s.wr HLK_STATUS.PRSNT 0 l).rdb HLK_CFG.EN l = s.rdb HLK_CFG.EN l := Core.rdb_wr_ne _ _ _ _ _ _ strideKey_ne
  have hst : (s.wr HLK_STATUS.PRSNT 0 l).linkState l = s.linkState l := Core.rd_wr_ne _ _ _ _ _ _ strideKey_ne
  have hcnt : (s.wr HLK_STATUS.PRSNT 0 l).rd HLK_LOSS_CNT.LOSSES l = s.rd HLK_LOSS_CNT.LOSSES l := Core.rd_wr_ne _ _ _ _ _ _ strideKey_ne
  have hreg : SameRegs [HLK_STATUS.PRSNT.key l] s (s.wr HLK_STATUS.PRSNT 0 l) := (SameRegs.refl _ s).wr _ List.mem_cons_self
  have hpart := Touches.wr s HLK_STATUS.PRSNT 0 l
  rw [hdo]
  generalize s.wr HLK_STATUS.PRSNT 0 l = y at *
  have hpress : y.press = s.press := hpart .press (by simp)
  have hcq : y.cmdq = s.cmdq := hpart .cmdq (by simp)
  have htck : y.tck = s.tck := hpart .tck (by simp)
  have hkeys : lossKeys l y = lossKeys l s := by
    unfold lossKeys
    rw [Core.headsOn_congr hpress]
  obtain ⟨hlost, hstate, hregs, hparts, -⟩ := Core.linkLoss_idle hl (by decide : 1 < 256)
    (LinkIdle.congr hidle hpress (hpart .spg (by simp)) (hpart .cdc (by simp)))
  rw [hkeys] at hregs
  have hlost' := LinkLost.before hlost hcnt hst (.inl (Core.ln_congr (hpart .hlk (by simp)) l)) (by rw [hcq]) (by rw [hcq]) (by rw [htck]) hpress
  generalize y.linkLoss l 1 = z at *
  have hset : ∀ x f n, (z.setLn l x).rd f n = z.rd f n := fun x f n => Core.rd_congr rfl _ _
  refine ⟨⟨LinkLost.setLn hlost' rfl rfl rfl rfl, (hset _ _ _).trans (by rw [← hen]; exact hstate), ?_⟩, (hset _ _ _).trans ?_, ?_, ?_⟩
  · exact ((hreg.mono (by simp)).trans (hregs.mono (List.subset_cons_self ..))).setLn _ _
  · refine (hregs _ _ (lossKeys_free hl ?_ (linkBlock hl))).trans hgone
    simp only [lossFlds, List.map_cons, List.map_nil, List.mem_cons, List.not_mem_nil, or_false, not_or]
    exact ⟨strideKey_ne, strideKey_ne, strideKey_ne, strideKey_ne⟩
  · rw [Core.ln_setLn]
  · exact (hparts .etime (by decide) : z.etime = y.etime).trans (hpart .etime (by simp))
theorem retLockLost_lost {s : Core} {l : Nat} (hl : l < 24) (hidle : LinkIdle l s) (hst : 2 ≤ s.linkState l) :
    Lost l 2 s (doRetLockLost l s) ∧ (doRetLockLost l s).etime = s.etime := by
  have hdo : doRetLockLost l s = (s.reach s.etime).linkLoss l 2 := by
    unfold doRetLockLost
    rw [if_neg (Nat.not_lt.2 hst)]
    have hnow : s.reach s.etime = s := by
      unfold Core.reach
      rw [Nat.max_self]
    rw [hnow]
  obtain ⟨hlost, htime⟩ := Core.linkLoss_reached hl (by decide : 2 < 256) hidle s.etime
  rw [hdo]
  exact ⟨hlost, htime.trans (Nat.max_self _)⟩
theorem retSilent_lost {s : Core} {l : Nat} (hl : l < 24) (hidle : LinkIdle l s) (hst : s.linkState l = 4) :
    Lost l 3 s (doRetSilent l s) ∧ (doRetSilent l s).etime = max s.etime ((s.ln l).lastMsg + 50000) := by
  have hup : s.linkUp l = true := by rw [Core.linkUp, hst]; rfl
  have hdo : doRetSilent l s = (s.reach ((s.ln l).lastMsg + 50000)).linkLoss l 3 := if_pos hup
  rw [hdo]
  exact Core.linkLoss_reached hl (by decide) hidle _
theorem confTimeout_lost {s : Core} {l : Nat} (hl : l < 24) (hidle : LinkIdle l s) (hst : s.linkState l = 4) {d : Nat} {ds : List Nat}
    (hdue : (s.ln l).tokens.filterMap (fun k => k.due (s.rd HLK_CFG.CONF_TO_US l)) = d :: ds) :
    Lost l 5 s (doConfTimeout l s) ∧ (doConfTimeout l s).etime = max s.etime (ds.foldl min d) := by
  have hup : s.linkUp l = true := by rw [Core.linkUp, hst]; rfl
  have hdo : doConfTimeout l s = (s.reach (ds.foldl min d)).linkLoss l 5 := by
    unfold doConfTimeout
    rw [if_neg (by rw [hup]; decide), hdue]
  rw [hdo]
  exact Core.linkLoss_reached hl (by decide) hidle _

/-! ### Traffic without injection (R416, R420, R592) -/

theorem Core.fijUnit_idle {s : Core} (h : s.rd FIJ_STATUS.ARMED = 0) (target inst : Nat) : s.fijUnit target inst = (none, s) := by
  have hnone : s.fijArmed = [] := by
    rw [Core.fijArmed, h]
    rfl
  unfold Core.fijUnit
  rw [hnone, List.foldl_nil]
/-- A forward unit leaves as it is. -/
theorem Core.fwdUnit_plain {s : Core} (h : NoInjection s) (l kind : Nat) (blocks : List Bytes) : s.fwdUnit l kind blocks = s.sendMore l blocks := by
  obtain ⟨harmed, hheld⟩ := h
  unfold Core.fwdUnit
  rw [Core.fijUnit_idle harmed]
  dsimp only
  split
  · rfl
  · rw [hheld]
    rfl
/-- Blocks have left a link, and its tokens and times show it; nothing else has changed. -/
structure Flows (l : Nat) (s t : Core) : Prop where
  rest : t = { s with hlk := { s.hlk with links := t.hlk.links } }
  record : t.ln l = { s.ln l with
    tokens := (t.ln l).tokens, lastTime := (t.ln l).lastTime, fwd := (t.ln l).fwd, out := (t.ln l).out, resume := (t.ln l).resume
    pos := (t.ln l).pos, aligned := (t.ln l).aligned, scrA := (t.ln l).scrA, scrB := (t.ln l).scrB, wire := (t.ln l).wire }
theorem Flows.refl (l : Nat) (s : Core) : Flows l s s := ⟨rfl, rfl⟩
theorem Flows.trans {l : Nat} {s t u : Core} (h : Flows l s t) (h' : Flows l t u) : Flows l s u :=
  ⟨by rw [h'.rest, h.rest], by rw [h'.record, h.record]⟩
theorem Flows.regs {l : Nat} {s t : Core} (h : Flows l s t) : t.regs = s.regs := by rw [h.rest]
theorem Flows.rd {l : Nat} {s t : Core} (h : Flows l s t) (f : Fld) (n : Nat) : t.rd f n = s.rd f n := Core.rd_congr h.regs f n
theorem Flows.etime {l : Nat} {s t : Core} (h : Flows l s t) : t.etime = s.etime := by rw [h.rest]
theorem Flows.fij {l : Nat} {s t : Core} (h : Flows l s t) : t.fij = s.fij := by rw [h.rest]
theorem Flows.idle {l : Nat} {s t : Core} (h : Flows l s t) (hi : NoInjection s) : NoInjection t := by
  unfold NoInjection at *
  rw [h.rd, h.fij]
  exact hi
theorem Flows.of_setLn (s : Core) {l : Nat} {x : LinkSt} (h : x = { s.ln l with
    tokens := x.tokens, lastTime := x.lastTime, fwd := x.fwd, out := x.out, resume := x.resume, pos := x.pos, aligned := x.aligned
    scrA := x.scrA, scrB := x.scrB, wire := x.wire }) : Flows l s (s.setLn l x) :=
  ⟨rfl, by rw [Core.ln_setLn]; exact h⟩
theorem Core.sendMore_flows (s : Core) (l : Nat) (bs : List Bytes) : Flows l s (s.sendMore l bs) :=
  .of_setLn s (by rw [((s.ln l).send_sent bs).rest])
theorem Core.openLink_flows (s : Core) (l : Nat) : Flows l s (s.openLink l) := .of_setLn s rfl
theorem Core.sendTimes_flows {s : Core} {l : Nat} (h : NoInjection s) : Flows l s (s.sendTimes l) := by
  unfold Core.sendTimes
  extract_lets x n
  split
  · exact .refl l s
  · have hset : Flows l s (s.setLn l { x with lastTime := x.lastTime + 10000 * n, fwd := x.fwd + (n - 1) }) := .of_setLn s rfl
    rw [Core.fwdUnit_plain (hset.idle h)]
    exact hset.trans (Core.sendMore_flows _ _ _)
theorem Core.flushResume_flows (s : Core) (l : Nat) : Flows l s (s.flushResume l) := by
  unfold Core.flushResume
  extract_lets x
  split
  · exact .refl l s
  · have hset : Flows l s (s.setLn l { x with resume := 0 }) := .of_setLn s rfl
    exact hset.trans (Core.sendMore_flows _ _ _)
theorem Core.sendToken_flows {s : Core} {l : Nat} (h : NoInjection s) : Flows l s (s.sendToken l) := by
  unfold Core.sendToken
  extract_lets x
  split
  · exact .refl l s
  · next i t _ =>
    have hset : Flows l s (s.setLn l { x with tokens := lset x.tokens i { t with sentAt := some s.etime } }) := .of_setLn s rfl
    dsimp only
    rw [Core.fwdUnit_plain (hset.idle h)]
    exact (hset.trans (Core.sendMore_flows _ _ _)).trans (Core.flushResume_flows _ _)
/-- The state as all that goes ahead of a block has left, but for a RACK that waits (R420). -/
def Core.beforeRack (s : Core) (l : Nat) : Core :=
  (List.range (((s.openLink l).sendTimes l).ln l).tokens.length).foldl (fun s _ => s.sendToken l) ((s.openLink l).sendTimes l)
theorem Core.sendAhead_eq (s : Core) (l : Nat) : s.sendAhead l = (s.beforeRack l).flushRack l := rfl
theorem Core.beforeRack_flows {s : Core} {l : Nat} (h : NoInjection s) : Flows l s (s.beforeRack l) := by
  have hopen := (s.openLink_flows l).trans (Core.sendTimes_flows ((s.openLink_flows l).idle h))
  have hfold : ∀ (ks : List Nat) (t : Core), Flows l s t → Flows l s (ks.foldl (fun s _ => s.sendToken l) t) := by
    intro ks
    induction ks with
    | nil => exact fun t ht => ht
    | cons k ks ih => exact fun t ht => ih _ (ht.trans (Core.sendToken_flows (ht.idle h)))
  exact hfold _ _ hopen
theorem Core.flushRack_none {s : Core} {l : Nat} (h : (s.ln l).rack = none) : s.flushRack l = s := by
  unfold Core.flushRack
  rw [h]
/-- Where no RACK waits, none leaves. -/
theorem Core.sendAhead_noRack {s : Core} {l : Nat} (h : NoInjection s) (hrack : (s.ln l).rack = none) : s.sendAhead l = s.beforeRack l := by
  rw [Core.sendAhead_eq, Core.flushRack_none (by rw [(Core.beforeRack_flows h).record]; exact hrack)]
theorem Core.sendAhead_flows {s : Core} {l : Nat} (h : NoInjection s) (hrack : (s.ln l).rack = none) : Flows l s (s.sendAhead l) := by
  rw [Core.sendAhead_noRack h hrack]
  exact Core.beforeRack_flows h
theorem Flows.linkUp {l : Nat} {s t : Core} (h : Flows l s t) (n : Nat) : t.linkUp n = s.linkUp n := by
  unfold Core.linkUp Core.linkState
  rw [h.rd]
/-- A sideband request has left link `l`. -/
structure SbSent (l : Nat) (q : SbReq) (s t : Core) : Prop where
  rest : t = { s with etime := t.etime, hlk := { s.hlk with links := t.hlk.links } }
  etime : t.etime = max s.etime ((s.ln l).sbAt.elim 0 (· + 1000))
  sb : (t.ln l).sb = (s.ln l).sb ++ [{ q with sentAt := t.etime }]
  out : (t.ln l).out = leaving l [sbBlock q] ((s.reach ((s.ln l).sbAt.elim 0 (· + 1000))).sendAhead l)
theorem SbSent.regs {l : Nat} {q : SbReq} {s t : Core} (h : SbSent l q s t) : t.regs = s.regs := by rw [h.rest]
theorem Core.sendSb_sent {s : Core} {l : Nat} (q : SbReq) (h : NoInjection s) (hup : s.linkUp l = true)
    (hrack : (s.ln l).rack = none) : SbSent l q s (s.sendSb l q) := by
  have hflow : Flows l (s.reach ((s.ln l).sbAt.elim 0 (· + 1000))) ((s.reach ((s.ln l).sbAt.elim 0 (· + 1000))).sendAhead l) :=
    Core.sendAhead_flows h hrack
  unfold Core.sendSb
  have hmax : (s.reach ((s.ln l).sbAt.elim 0 (· + 1000))).etime = max s.etime ((s.ln l).sbAt.elim 0 (· + 1000)) := rfl
  have hln : (s.reach ((s.ln l).sbAt.elim 0 (· + 1000))).ln l = s.ln l := rfl
  have hup' : (s.reach ((s.ln l).sbAt.elim 0 (· + 1000))).linkUp l = true := hup
  generalize hz : (s.reach ((s.ln l).sbAt.elim 0 (· + 1000))).sendAhead l = z at *
  have hidle : NoInjection z := hflow.idle h
  have hlast : ∀ x : LinkSt, (z.setLn l x).fwdUnit l 0x99 [sbBlock { q with sentAt := z.etime }] = (z.setLn l x).sendMore l [sbBlock q] :=
    fun x => Core.fwdUnit_plain (s := z.setLn l x) hidle l 0x99 _
  dsimp only
  rw [if_neg (by rw [hflow.linkUp, hup']; decide), hlast]
  have htime : z.etime = max s.etime ((s.ln l).sbAt.elim 0 (· + 1000)) := hflow.etime.trans hmax
  unfold Core.sendMore
  rw [Core.ln_setLn]
  refine ⟨?_, htime, ?_, ?_⟩
  · have hrest : z = { s with etime := z.etime, hlk := { s.hlk with links := z.hlk.links } } := by
      rw [htime, ← hmax]
      exact hflow.rest
    have hset : ∀ (x : LinkSt) (L : List (Nat × LinkSt)), { z.setLn l x with hlk := { (z.setLn l x).hlk with links := L } } =
        { s with etime := z.etime, hlk := { s.hlk with links := L } } :=
      fun x L => congrArg (fun z : Core => { z with hlk := { z.hlk with links := L } }) hrest
    exact hset _ _
  · rw [Core.ln_setLn, (LinkSt.send_sent _ _).rest]
    change (z.ln l).sb ++ _ = _
    rw [hflow.record, hln]
    rfl
  · rw [Core.ln_setLn, leaving, hz]
    exact LinkSt.send_out _ rfl
/-- The read that has waited longest is sent again (R148). -/
theorem sidebandReadTimeout_sent {s : Core} {l : Nat} {q : SbReq} (h : NoInjection s) (hst : s.linkState l = 4)
    (hrack : (s.ln l).rack = none) (hq : (s.ln l).sb.find? (!·.write) = some q) (hfails : q.fails < 2)
    (hw : (s.hr (8 * l + q.target)).write.all (·.outcome == 0) = true) :
    SbSent l { q with fails := q.fails + 1 } ((s.reach (q.sentAt + 10000000)).setLn l { s.ln l with sb := dropFirst (· == q) (s.ln l).sb })
      (doSidebandReadTimeout l s) := by
  have hup : s.linkUp l = true := by rw [Core.linkUp, hst]; rfl
  unfold doSidebandReadTimeout
  dsimp only
  rw [if_neg (by rw [hup]; decide), hq]
  dsimp only
  have hopen : ¬ (s.hr (8 * l + q.target)).write.any (·.outcome != 0) = true := by
    cases hwr : (s.hr (8 * l + q.target)).write with
    | none => decide
    | some w =>
      rw [hwr] at hw
      simpa using hw
  unfold Core.sbReadFailed
  rw [if_neg (show ¬ (((s.reach (q.sentAt + 10000000)).setLn l { s.ln l with sb := dropFirst (· == q) (s.ln l).sb }).hr
    (8 * l + q.target)).write.any (·.outcome != 0) = true from hopen), if_pos hfails]
  exact Core.sendSb_sent _ h hup (by rw [Core.ln_setLn]; exact hrack)

/-- Settles O52: each cause runs `Core.linkLoss` on a link with no line issued, and a read that finds no answer passes through `Core.sendSb`. -/
theorem lossesEndALink : Obligations.LossesEndALink := by
  unfold Obligations.LossesEndALink
  refine fun l s hboot => ⟨fun i cause hidle hi => ?_, ?_⟩
  · rcases hi with ⟨rfl, rfl, hp⟩ | ⟨rfl, rfl, hst⟩ | ⟨rfl, rfl, hst⟩ | ⟨rfl, rfl, hst, k, hk, hkd⟩
    · obtain ⟨⟨hlost, hstate, hregs⟩, hgone, hre, htime⟩ := presentLost_lost l.isLt hidle hp
      exact answers_of_onRunning (g := doHlPresentLost l.val) rfl hboot
        ⟨hlost, hstate, fun _ => ⟨hgone, hre, htime⟩, fun h => (nomatch h), fun h => (nomatch h), fun h => (nomatch h), hregs, CoreOnly.onCore _ _⟩
    · obtain ⟨⟨hlost, hstate, hregs⟩, htime⟩ := retLockLost_lost l.isLt hidle hst
      exact answers_of_onRunning (g := doRetLockLost l.val) rfl hboot
        ⟨hlost, hstate, fun h => (nomatch h), fun _ => htime, fun h => (nomatch h), fun h => (nomatch h), hregs, CoreOnly.onCore _ _⟩
    · obtain ⟨⟨hlost, hstate, hregs⟩, htime⟩ := retSilent_lost l.isLt hidle hst
      exact answers_of_onRunning (g := doRetSilent l.val) rfl hboot
        ⟨hlost, hstate, fun h => (nomatch h), fun h => (nomatch h), fun _ => htime, fun h => (nomatch h), hregs, CoreOnly.onCore _ _⟩
    · obtain ⟨e, he⟩ := Option.ne_none_iff_exists'.1 hkd
      obtain ⟨d, ds, hdue⟩ := List.exists_cons_of_ne_nil (List.ne_nil_of_mem
        ((List.mem_filterMap (f := fun k : Tok => k.due (s.field.core.rd HLK_CFG.CONF_TO_US l.val))).2 ⟨k, hk, he⟩))
      obtain ⟨⟨hlost, hstate, hregs⟩, htime⟩ := confTimeout_lost l.isLt hidle hst hdue
      refine answers_of_onRunning (g := doConfTimeout l.val) rfl hboot
        ⟨hlost, hstate, fun h => (nomatch h), fun h => (nomatch h), fun h => (nomatch h), fun _ d' ds' hdue' => ?_, hregs, CoreOnly.onCore _ _⟩
      obtain ⟨rfl, rfl⟩ := List.cons.inj (hdue.symm.trans hdue')
      exact htime
  · intro q hst hq hfails hw harmed hheld hrack
    have hsent := sidebandReadTimeout_sent ⟨harmed, hheld⟩ hst hrack hq hfails hw
    refine answers_of_onRunning (g := doSidebandReadTimeout l.val) rfl hboot ⟨?_, ?_, ?_, hsent.regs, CoreOnly.onCore _ _⟩
    · exact Nat.le_trans (Nat.le_trans (Nat.le_max_right ..) (Nat.le_max_left ..)) (Nat.le_of_eq hsent.etime.symm)
    · exact hsent.sb.trans (by rw [Core.ln_setLn]; rfl)
    · change sbBlock q ∈ ((doSidebandReadTimeout l.val s.field.core).ln l.val).out
      rw [hsent.out]
      exact (LinkSt.send_sent _ _).sent _ List.mem_cons_self

end Sys2Proof.Machine

end

section
/-! PROOF. What the host sets on a link, and the traffic of a link that is up (spec/10_head_link.md R417 to R445). -/

namespace Sys2Proof.Machine

set_option Elab.async false

/-! ### The registers of a link that the host writes (R417, R419, R439, R442) -/

theorem linkAddr_facts : ∀ l : Fin 24, ∀ f ∈ [HLK_CFG.EN, HLK_LVL_MAP.W1], atRegister (f.addr l.val) = true ∧ writePriv (f.addr l.val) ≤ 2 ∧
    ((fieldsAt (f.addr l.val)).all fun p => !(p.1.acc == .rwl)) = true ∧ (f.addr l.val - 0xA0000) / 0x400 = l.val ∧
    (0xA0000 ≤ f.addr l.val && f.addr l.val < 0xA6000) = true ∧ (0xC0000 ≤ f.addr l.val && f.addr l.val < 0xCC000) = false ∧
    (0x100 ≤ f.addr l.val % 0x400 && f.addr l.val % 0x400 < 0x180) = false ∧
    ([(0x50040, 4), (0x80000, 0x40), (0x90000, 0x100), (0x110100, 0x20), (0x140100, 0x40), (0x150040, 0x10)].all fun p =>
      !(p.1 ≤ f.addr l.val && f.addr l.val < p.1 + 8 * p.2)) = true := by decide +kernel
theorem linkAddr_fields : ∀ l : Fin 24,
    fieldsAt (HLK_CFG.EN.addr l.val) = [(HLK_CFG.EN, l.val), (HLK_CFG.AUTO, l.val), (HLK_CFG.TX_EQ, l.val), (HLK_CFG.CONF_TO_US, l.val)] ∧
    fieldsAt (HLK_LVL_MAP.W1.addr l.val) = [(HLK_LVL_MAP.W0, l.val), (HLK_LVL_MAP.W1, l.val), (HLK_LVL_MAP.W2, l.val), (HLK_LVL_MAP.W3, l.val),
      (HLK_LVL_MAP.W4, l.val), (HLK_LVL_MAP.W5, l.val), (HLK_LVL_MAP.W6, l.val), (HLK_LVL_MAP.W7, l.val)] := by decide +kernel
/-- The registers that `regWriteSpecial` asks for before the two of a link. -/
theorem linkAddr_special : ∀ l : Fin 24, ∀ f ∈ [HLK_CFG.EN, HLK_LVL_MAP.W1],
    ([POS_CFG.TYPE, POS_WRAP.WRAP, POS_IDX_CFG.MODE, POS_PRESET_LO.PRESET, POS_PRESET_HI.PRESET, POS_WEB_CTL.RETURN, ER_CFG.MODE,
      PWR_PF_CFG.PF_LEVEL, CMP_CO_CFG.POL, SPG_LPC_LO.LPC, SPG_LPC_HI.LPC, SPG_CFG.LEAD, SPG_RUNWAY_WARN.LINES,
      SPG_RUNWAY_MIN.LINES].all fun g => !isAt g (f.addr l.val)) = true ∧
    isAt HLK_CFG.EN (f.addr l.val) = (f == HLK_CFG.EN) ∧ isAt HLK_LVL_MAP.W1 (f.addr l.val) = (f == HLK_LVL_MAP.W1) := by decide +kernel
theorem Core.absentAt_link (s : Core) (l : Fin 24) {f : Fld} (hf : f ∈ [HLK_CFG.EN, HLK_LVL_MAP.W1]) :
    s.absentAt (f.addr l.val) = decide (8 ≤ s.segBar l.val) := by
  obtain ⟨-, -, -, hl, hin, hhead, hslot, hbars⟩ := linkAddr_facts l f hf
  simp only [List.all_cons, List.all_nil, Bool.and_true, Bool.and_eq_true, Bool.not_eq_true'] at hbars
  obtain ⟨h1, h2, h3, h4, h5, h6⟩ := hbars
  unfold Core.absentAt Core.linkAbsentAt Core.barAbsentAt
  rw [hin, hhead, h1, h2, h3, h4, h5, h6]
  dsimp only
  rw [hslot, hl]
  simp only [Bool.false_and, Bool.or_false, Bool.true_and, Bool.false_or, ge_iff_le]
theorem regWriteSpecial_link (l : Fin 24) (v : Nat) (s : Core) :
    regWriteSpecial (HLK_CFG.EN.addr l.val) v s = some (hlkCfgWrite l.val (HLK_CFG.EN.addr l.val) v s) ∧
    regWriteSpecial (HLK_LVL_MAP.W1.addr l.val) v s = some (s.idleOnly fun s => s.plainWrite (HLK_LVL_MAP.W1.addr l.val) v) := by
  obtain ⟨-, -, -, hl, -⟩ := linkAddr_facts l HLK_CFG.EN (by decide)
  constructor
  · obtain ⟨hnone, hen, -⟩ := linkAddr_special l HLK_CFG.EN (by decide)
    simp only [List.all_cons, List.all_nil, Bool.and_true, Bool.and_eq_true, Bool.not_eq_true'] at hnone
    obtain ⟨h1, h2, h3, h4, h5, h6, h7, h8, h9, h10, h11, h12, h13, h14⟩ := hnone
    unfold regWriteSpecial
    simp only [h1, h2, h3, h4, h5, h6, h7, h8, h9, h10, h11, h12, h13, h14, Bool.or_self, Bool.false_eq_true, if_false]
    rw [if_pos (hen.trans (by decide)), hl]
  · obtain ⟨hnone, hen, hlvl⟩ := linkAddr_special l HLK_LVL_MAP.W1 (by decide)
    simp only [List.all_cons, List.all_nil, Bool.and_true, Bool.and_eq_true, Bool.not_eq_true'] at hnone
    obtain ⟨h1, h2, h3, h4, h5, h6, h7, h8, h9, h10, h11, h12, h13, h14⟩ := hnone
    have hno : isAt HLK_CFG.EN (HLK_LVL_MAP.W1.addr l.val) = false := hen.trans (by decide)
    unfold regWriteSpecial
    simp only [h1, h2, h3, h4, h5, h6, h7, h8, h9, h10, h11, h12, h13, h14, hno, Bool.or_self, Bool.false_eq_true, if_false]
    rw [if_pos (hlvl.trans (by decide))]

theorem Core.writeField_rw (s : Core) (v : Nat) {p : Fld × Nat} (h : p.1.acc = .rw) : s.writeField v p = s.wr p.1 (fieldPart p.1 v) p.2 := by
  unfold Core.writeField
  rw [h]
theorem Core.writeField_ro (s : Core) (v : Nat) {p : Fld × Nat} (h : p.1.acc = .ro) : s.writeField v p = s := by
  unfold Core.writeField
  rw [h]
/-- HLK_n_CFG stored but for EN. -/
def Core.cfgStored (s : Core) (l v : Nat) : Core := (s.plainWrite (HLK_CFG.EN.addr l) v).wr HLK_CFG.EN (s.rd HLK_CFG.EN l) l
/-- The registers of HLK_n_CFG. -/
def cfgKeys (l : Nat) : List Nat := [HLK_CFG.EN.key l, HLK_CFG.AUTO.key l, HLK_CFG.TX_EQ.key l, HLK_CFG.CONF_TO_US.key l]
theorem Core.cfgStored_spec (s : Core) (l : Fin 24) (v : Nat) : SameRegs (cfgKeys l.val) s (s.cfgStored l.val v) ∧
    (s.cfgStored l.val v).rd HLK_CFG.EN l.val = s.rd HLK_CFG.EN l.val ∧ Touches [] s (s.cfgStored l.val v) := by
  have hplain : SameRegs (cfgKeys l.val) s (s.plainWrite (HLK_CFG.EN.addr l.val) v) ∧ Touches [] s (s.plainWrite (HLK_CFG.EN.addr l.val) v) := by
    unfold Core.plainWrite
    rw [(linkAddr_fields l).1]
    simp only [List.foldl_cons, List.foldl_nil]
    rw [Core.writeField_rw _ _ rfl, Core.writeField_rw _ _ rfl, Core.writeField_rw _ _ rfl, Core.writeField_rw _ _ rfl]
    exact ⟨((((SameRegs.refl _ s).wr _ (by simp [cfgKeys])).wr _ (by simp [cfgKeys])).wr _ (by simp [cfgKeys])).wr _ (by simp [cfgKeys]),
      (((Touches.wr _ _ _ _).trans (Touches.wr _ _ _ _)).trans (Touches.wr _ _ _ _)).trans (Touches.wr _ _ _ _)⟩
  refine ⟨hplain.1.wr _ (by simp [cfgKeys]), (Core.rd_wr ..).trans ?_, hplain.2.trans (Touches.wr _ _ _ _)⟩
  exact Nat.mod_eq_of_lt (Core.rd_lt s HLK_CFG.EN l.val)
theorem cfgKeys_disjoint {f : Fld} {l : Nat} (h : (f.sub == 1 && f.stride == 0x400 && [HLK_CFG.EN, HLK_CFG.AUTO, HLK_CFG.TX_EQ, HLK_CFG.CONF_TO_US].all
    fun g => decide (f.key 0 ≠ g.key 0)) = true := by decide) : f.key l ∉ cfgKeys l := by
  simp only [List.all_cons, List.all_nil, Bool.and_true, Bool.and_eq_true, beq_iff_eq, decide_eq_true_eq] at h
  obtain ⟨⟨hsub, hstride⟩, h1, h2, h3, h4⟩ := h
  have hne : ∀ g : Fld, g.sub = 1 → g.stride = 0x400 → f.key 0 ≠ g.key 0 → f.key l ≠ g.key l := fun g hg hg' hk =>
    strideKey_ne (by simp only [hsub, hstride, hg, hg', Bool.and_eq_true, beq_self_eq_true, decide_eq_true_eq]; exact ⟨⟨⟨trivial, trivial⟩, trivial⟩, hk⟩)
  simp only [cfgKeys, List.mem_cons, List.not_mem_nil, or_false, not_or]
  exact ⟨hne _ rfl rfl h1, hne _ rfl rfl h2, hne _ rfl rfl h3, hne _ rfl rfl h4⟩
/-- A register of a link's block or a head's block is none of a command's. -/
theorem linkKey_noCommand {k b : Nat} (h : k / 2 ^ 21 = b) (hb : b = 0x0A ∨ b = 0x0C) : k ∉ commandKeys := fun hm => by
  have hblk := commandKeys_blocks _ hm
  rw [h] at hblk
  rcases hb with rfl | rfl <;> exact absurd hblk (by decide)
/-- A loss told of a state behind that has kept the registers that show it. -/
theorem LinkLost.after {l cause : Nat} {s x t : Core} {ks : List Nat} (h : LinkLost l cause s x) (hl : l < 24) (hregs : SameRegs ks x t)
    (hks : ∀ f ∈ [HLK_STATUS.LOSS_CAUSE, HLK_LOSS_CNT.LOSSES, HLK_STATUS.RET_LOCK], f.key l ∉ ks) (hkh : ∀ k ∈ ks, k / 2 ^ 21 ≠ 0x0C)
    (hln : t.ln l = x.ln l) (hev : s.Raised t 0x0902 (l + at_ 1 cause)) : LinkLost l cause s t := by
  obtain ⟨hwhy, hcnt, hlock, hoff, hinh, -, hheads⟩ := h
  refine ⟨(hregs _ _ (hks _ (by simp))).trans hwhy, (hregs _ _ (hks _ (by simp))).trans hcnt, (hregs _ _ (hks _ (by simp))).trans hlock,
    by rw [hln]; exact hoff, by rw [hln]; exact hinh, hev, fun g hg => ?_⟩
  exact (hregs _ _ fun hk => hkh _ hk (headBlock (headsOn_lt hl hg))).trans (hheads g hg)
/-- EN written 0 (R439, R442). -/
theorem Core.setLinkEn_off {y : Core} {l : Nat} (hl : l < 24) (hidle : LinkIdle l y) (hen : y.rd HLK_CFG.EN l = 1) :
    LinkLost l 7 y (y.setLinkEn l false) ∧ (y.setLinkEn l false).rd HLK_CFG.EN l = 0 ∧ (y.setLinkEn l false).linkState l = 1 ∧
    ((y.setLinkEn l false).ln l).tx = false ∧ ((y.setLinkEn l false).ln l).restartAt = none ∧
    SameRegs (HLK_CFG.EN.key l :: HLK_STATUS.STATE.key l :: lossKeys l y) y (y.setLinkEn l false) ∧
    Touches [.hlk, .spg, .fij, .cmdq] y (y.setLinkEn l false) := by
  have hwas : y.rdb HLK_CFG.EN l = true := Core.rdb_eq_true (by rw [hen]; decide)
  have hdo : y.setLinkEn l false = (((y.wr HLK_CFG.EN 0 l).linkLoss l 7).wr HLK_STATUS.STATE 1 l).setLn l
      { (((y.wr HLK_CFG.EN 0 l).linkLoss l 7).wr HLK_STATUS.STATE 1 l).ln l with tx := false, txAt := none, restartAt := none } := by
    unfold Core.setLinkEn
    rw [hwas, show b2n false = 0 from rfl]
    extract_lets was z u
    rw [if_neg (by decide), if_pos (by decide : (!false) = true)]
  have hz : (y.wr HLK_CFG.EN 0 l).rd HLK_CFG.EN l = 0 := Core.rd_wr ..
  have hst : (y.wr HLK_CFG.EN 0 l).linkState l = y.linkState l := Core.rd_wr_ne _ _ _ _ _ _ strideKey_ne
  have hcnt : (y.wr HLK_CFG.EN 0 l).rd HLK_LOSS_CNT.LOSSES l = y.rd HLK_LOSS_CNT.LOSSES l := Core.rd_wr_ne _ _ _ _ _ _ strideKey_ne
  have hreg : SameRegs [HLK_CFG.EN.key l] y (y.wr HLK_CFG.EN 0 l) := (SameRegs.refl _ y).wr _ List.mem_cons_self
  have hpart := Touches.wr y HLK_CFG.EN 0 l
  rw [hdo]
  generalize y.wr HLK_CFG.EN 0 l = z at *
  have hpress : z.press = y.press := hpart .press (by simp)
  have hcq : z.cmdq = y.cmdq := hpart .cmdq (by simp)
  have hkeys : lossKeys l z = lossKeys l y := by
    unfold lossKeys
    rw [Core.headsOn_congr hpress]
  obtain ⟨hlost, -, hregs, hparts, -⟩ := Core.linkLoss_idle hl (by decide : 7 < 256)
    (LinkIdle.congr hidle hpress (hpart .spg (by simp)) (hpart .cdc (by simp)))
  rw [hkeys] at hregs
  have hlost' := LinkLost.before hlost hcnt hst (.inl (Core.ln_congr (hpart .hlk (by simp)) l)) (by rw [hcq]) (by rw [hcq])
    (by rw [(hpart .tck (by simp) : z.tck = y.tck)]) hpress
  generalize z.linkLoss l 7 = u at *
  have hset : SameRegs [HLK_STATUS.STATE.key l] u (u.wr HLK_STATUS.STATE 1 l) := (SameRegs.refl _ u).wr _ List.mem_cons_self
  have hstate : (u.wr HLK_STATUS.STATE 1 l).linkState l = 1 := Core.rd_wr ..
  have hpartw := Touches.wr u HLK_STATUS.STATE 1 l
  have hraised : y.Raised (u.wr HLK_STATUS.STATE 1 l) 0x0902 (l + at_ 1 7) := hlost'.event.congr rfl rfl rfl rfl rfl rfl rfl
  generalize u.wr HLK_STATUS.STATE 1 l = w at *
  have hblock : ∀ k ∈ [HLK_STATUS.STATE.key l], k / 2 ^ 21 = 0x0A := fun k hk => by
    rw [List.mem_singleton.1 hk]
    exact linkBlock hl
  have hw : LinkLost l 7 y w := LinkLost.after hlost' hl hset
    (by simp only [List.mem_cons, List.not_mem_nil, or_false, forall_eq_or_imp, forall_eq]; exact ⟨strideKey_ne, strideKey_ne, strideKey_ne⟩)
    (fun k hk e => absurd ((hblock k hk).symm.trans e) (by decide)) (Core.ln_congr (hpartw .hlk (by simp)) l) hraised
  have hrd : ∀ x f n, (w.setLn l x).rd f n = w.rd f n := fun x f n => Core.rd_congr rfl _ _
  refine ⟨LinkLost.setLn hw rfl rfl rfl rfl, (hrd _ _ _).trans ?_, (hrd _ _ _).trans hstate, by rw [Core.ln_setLn], by rw [Core.ln_setLn], ?_, ?_⟩
  · refine (hset _ _ (by simp only [List.mem_singleton]; exact strideKey_ne)).trans ((hregs _ _ (lossKeys_free hl ?_ (linkBlock hl))).trans hz)
    exact (loss_cfg l).1
  · refine ((hreg.mono ?_).trans ((hregs.mono ?_).trans (hset.mono ?_))).setLn _ _
    · simp
    · exact fun k hk => List.mem_cons_of_mem _ (List.mem_cons_of_mem _ hk)
    · simp
  · exact ((hpart.mono (by simp)).trans (hparts.trans (hpartw.mono (by simp)))).trans ((w.setLn_within l _).parts.mono (by decide))
/-- EN written 1 (R439, R442). -/
theorem Core.setLinkEn_on {y : Core} {l : Nat} (hl : l < 24) (hen : y.rd HLK_CFG.EN l = 0) (hrun : y.fwRuns = true) :
    (y.setLinkEn l true).rd HLK_CFG.EN l = 1 ∧ (y.setLinkEn l true).linkState l = (if y.rdb HLK_STATUS.PRSNT l then 2 else 0) ∧
    SameRegs [HLK_CFG.EN.key l, HLK_STATUS.STATE.key l] y (y.setLinkEn l true) ∧ Touches [.hlk] y (y.setLinkEn l true) := by
  have hwas : y.rdb HLK_CFG.EN l = false := Core.rdb_eq_false hen
  have hdo : y.setLinkEn l true = if ((y.wr HLK_CFG.EN 1 l).wr HLK_STATUS.STATE 0 l).fwRuns && ((y.wr HLK_CFG.EN 1 l).wr HLK_STATUS.STATE 0 l).rdb HLK_STATUS.PRSNT l
      then ((y.wr HLK_CFG.EN 1 l).wr HLK_STATUS.STATE 0 l).trainStart l else (y.wr HLK_CFG.EN 1 l).wr HLK_STATUS.STATE 0 l := by
    unfold Core.setLinkEn
    rw [hwas]
    rfl
  have hone : ((y.wr HLK_CFG.EN 1 l).wr HLK_STATUS.STATE 0 l).rd HLK_CFG.EN l = 1 :=
    (Core.rd_wr_ne _ _ _ _ _ _ strideKey_ne).trans (Core.rd_wr ..)
  have hzero : ((y.wr HLK_CFG.EN 1 l).wr HLK_STATUS.STATE 0 l).linkState l = 0 := Core.rd_wr ..
  have hregs : SameRegs [HLK_CFG.EN.key l, HLK_STATUS.STATE.key l] y ((y.wr HLK_CFG.EN 1 l).wr HLK_STATUS.STATE 0 l) :=
    ((SameRegs.refl _ y).wr _ (by simp)).wr _ (by simp)
  have hp : ((y.wr HLK_CFG.EN 1 l).wr HLK_STATUS.STATE 0 l).rdb HLK_STATUS.PRSNT l = y.rdb HLK_STATUS.PRSNT l :=
    (Core.rdb_wr_ne _ _ _ _ _ _ strideKey_ne).trans (Core.rdb_wr_ne _ _ _ _ _ _ strideKey_ne)
  have hparts := (Touches.wr y HLK_CFG.EN 1 l).trans (Touches.wr _ HLK_STATUS.STATE 0 l)
  rw [hdo, hp]
  generalize (y.wr HLK_CFG.EN 1 l).wr HLK_STATUS.STATE 0 l = z at *
  have hfw : z.fwRuns = true := by
    rw [← hrun, Core.fwRuns, Core.fwRuns, Core.bootState, Core.bootState,
      hregs SYS_BOOT.STATE 0 ((by decide : ∀ l : Fin 24, SYS_BOOT.STATE.key 0 ∉ [HLK_CFG.EN.key l.val, HLK_STATUS.STATE.key l.val]) ⟨l, hl⟩)]
  rw [hfw, Bool.true_and]
  cases y.rdb HLK_STATUS.PRSNT l with
  | false => exact ⟨hone, hzero, hregs, hparts.mono (by simp)⟩
  | true =>
    obtain ⟨hst, -, -, htr, -⟩ := z.trainStart_spec l
    have htp : Touches [.hlk] z (z.trainStart l) := (Touches.wr z HLK_STATUS.STATE 2 l).mono (by simp) |>.trans (((z.wr HLK_STATUS.STATE 2 l).setLn_within l _).parts.mono (by decide))
    refine ⟨(htr _ _ (by simp only [List.mem_singleton]; exact strideKey_ne)).trans hone, hst, hregs.trans (htr.mono (by simp)), (hparts.mono (by simp)).trans htp⟩

/-- A write to an absent register answers OK and is ignored (R14). -/
theorem regWriteCmd_absent {c : Call} {op a v : Nat} {s : Core} (ha : atRegister a = true) (hp : writePriv a ≤ s.priv c.src)
    (hcross : s.regTimedOut a = false) (habsent : s.absentAt a = true) : regWriteCmd c op a v s = (.ok 0, s) := by
  unfold regWriteCmd
  rw [addrReason_zero ha hp]
  change regWrite a v s = _
  unfold regWrite
  rw [hcross, atRegister_noz ha, atRegister_pool ha, habsent]
  rfl
theorem linkAbsent_answers {c : Call} {i : Instr} {l : Fin 24} {f : Fld} {v : Nat} {s : State} (hf : f ∈ [HLK_CFG.EN, HLK_LVL_MAP.W1])
    (hexec : exec i s = .next ((cmdRegWrite c (f.addr l.val) v).submit i s)) (hc : CleanHeader c 8) (hr : Runs c 0x0101 2 s)
    (hcdc : s.field.core.cdc.out = []) (habsent : 8 ≤ s.field.core.segBar l.val) :
    Answers i s fun t => Completed c 0x0101 0 0 s t ∧ t.field.core.hlk = s.field.core.hlk ∧ CommandFrame c 0x0101 [] s t := by
  obtain ⟨hat, hpriv, -⟩ := linkAddr_facts l f hf
  have hk : (cmdRegWrite c (f.addr l.val) v).Plain 8 (regWriteCmd c 0x0101 (f.addr l.val) v) := ⟨rfl, rfl, by decide, rfl, rfl, rfl⟩
  have hgone : (s.taken c 0x0101).field.core.absentAt (f.addr l.val) = true := by
    rw [taken_absentAt, Core.absentAt_link _ l hf]
    exact decide_eq_true habsent
  obtain ⟨t, ht, hdone⟩ := hk.done hexec hc hr.weaken (regWriteCmd_absent hat (by rw [taken_priv]; exact Nat.le_trans hpriv (hr.priv_ge (by decide)))
    (Core.crosses_of_none (by rw [taken_cdc]; exact hcdc) _) hgone) (.inl ⟨0, rfl⟩) (taken_etime _ _ _) rfl
  refine ⟨t, ht, hdone.completed, ?_, hdone.frame (SameRegs.taken c 0x0101 [] s)⟩
  have hrest := hdone.rest
  have htaken : (s.taken c 0x0101).field.core.hlk = s.field.core.hlk := by rw [taken_core]
  generalize t.field.core = y at *
  rw [hrest]
  exact htaken
/-- A write to a register of a link that the press has. `x` is what it leaves. -/
theorem linkWrite_done {c : Call} {i : Instr} {l : Fin 24} {f : Fld} {v : Nat} {s : State} {x : Core} (hf : f ∈ [HLK_CFG.EN, HLK_LVL_MAP.W1])
    (hexec : exec i s = .next ((cmdRegWrite c (f.addr l.val) v).submit i s)) (hc : CleanHeader c 8) (hr : Runs c 0x0101 2 s)
    (hcdc : s.field.core.cdc.out = []) (hpresent : s.field.core.segBar l.val < 8)
    (hact : regAct (f.addr l.val) v (s.taken c 0x0101).field.core = (.ok 0, x))
    (hx : Touches [.hlk, .spg, .fij, .cmdq] (s.taken c 0x0101).field.core x) :
    Answers i s ((cmdRegWrite c (f.addr l.val) v).Done (.ok 0) s x) := by
  obtain ⟨hat, hpriv, hfree, -⟩ := linkAddr_facts l f hf
  have hhere : (s.taken c 0x0101).field.core.absentAt (f.addr l.val) = false := by
    rw [taken_absentAt, Core.absentAt_link _ l hf]
    exact decide_eq_false (Nat.not_le.2 hpresent)
  exact regWrite_done hexec hc hr hat (Nat.le_trans hpriv (hr.priv_ge (by decide)))
    ⟨Core.crosses_of_none (by rw [taken_cdc]; exact hcdc) _, hhere, Core.locked_of_none _ hfree⟩ hact (.inl ⟨0, rfl⟩)
    ((hx .etime (by decide)).trans (taken_etime _ _ _)) (hx .answers (by decide))
theorem printing_of_armed {s : Core} (h : s.armedOrPrinting = false) : s.printing = false := by
  refine List.any_eq_false.2 fun j hj hc => List.any_eq_false.1 h j hj ?_
  simp only [List.contains_cons, List.contains_nil, Bool.or_false, Bool.or_eq_true] at hc ⊢
  tauto
theorem regAct_hlkCfg {s : Core} (l : Fin 24) (v : Nat) (h : s.armedOrPrinting = false) :
    regAct (HLK_CFG.EN.addr l.val) v s = (.ok 0, (s.cfgStored l.val v).setLinkEn l.val (bit v 0)) := by
  unfold regAct
  rw [(regWriteSpecial_link l v s).1, Option.getD_some]
  unfold hlkCfgWrite
  rw [printing_of_armed h, if_neg (by simp)]
  rfl
theorem taken_armed (c : Call) (op : Nat) (s : State) : (s.taken c op).field.core.armedOrPrinting = s.field.core.armedOrPrinting := by
  rw [taken_core]
  rfl
/-- What the loss of a link reads of a state before a command. -/
theorem taken_loss (c : Call) (op : Nat) (s : State) (l : Nat) :
    (∀ f : Fld, f.block l = 0x0A → (s.taken c op).field.core.rd f l = s.field.core.rd f l) ∧
    (s.taken c op).field.core.hlk = s.field.core.hlk ∧ (s.taken c op).field.core.cmdq.evSeq = s.field.core.cmdq.evSeq ∧
    (s.taken c op).field.core.cmdq.fifo = s.field.core.cmdq.fifo ∧ (s.taken c op).field.core.tck.running = s.field.core.tck.running ∧
    (s.taken c op).field.core.press = s.field.core.press ∧ (s.taken c op).field.core.spg = s.field.core.spg := by
  refine ⟨fun f hf => rd_taken _ _ _ _ _ fun h => linkKey_noCommand hf (.inl rfl) (inFlightKeys_subset h), ?_, ?_, ?_, ?_, ?_, ?_⟩
  all_goals rw [taken_core]

theorem hlkEnOff_answers {c : Call} {v : Word} {l : Fin 24} {s : State} (hc : CleanHeader c 8) (hr : Runs c 0x0101 2 s)
    (harm : s.field.core.armedOrPrinting = false) (hidle : LinkIdle l.val s.field.core) (hpresent : s.field.core.segBar l.val < 8)
    (hen : s.field.core.rd HLK_CFG.EN l.val = 1) (hv : v.toNat % 2 = 0) :
    Answers (.hlkEnWrite c l v) s fun t =>
      Completed c 0x0101 0 0 s t ∧ t.field.core.rd HLK_CFG.EN l.val = 0 ∧ t.field.core.linkState l.val = 1 ∧
      (t.field.core.ln l.val).tx = false ∧ (t.field.core.ln l.val).restartAt = none ∧
      LinkLost l.val 7 s.field.core t.field.core ∧
      CommandFrame c 0x0101 ([HLK_CFG.EN.key l.val, HLK_CFG.AUTO.key l.val, HLK_CFG.TX_EQ.key l.val,
        HLK_CFG.CONF_TO_US.key l.val, HLK_STATUS.STATE.key l.val] ++ lossKeys l.val s.field.core) s t := by
  have hact := regAct_hlkCfg l v.toNat ((taken_armed c 0x0101 s).trans harm)
  rw [show bit v.toNat 0 = false by simp [bit, Nat.testBit_zero, hv]] at hact
  obtain ⟨hlow, hhlk, hseq, hfifo, hrun, hpress, hspg⟩ := taken_loss c 0x0101 s l.val
  have htaken := SameRegs.taken c 0x0101 ([HLK_CFG.EN.key l.val, HLK_CFG.AUTO.key l.val, HLK_CFG.TX_EQ.key l.val,
    HLK_CFG.CONF_TO_US.key l.val, HLK_STATUS.STATE.key l.val] ++ lossKeys l.val s.field.core) s
  have hcdc := taken_cdc c 0x0101 s
  have hanswer : ∀ x, regAct (HLK_CFG.EN.addr l.val) v.toNat (s.taken c 0x0101).field.core = (.ok 0, x) →
      Touches [.hlk, .spg, .fij, .cmdq] (s.taken c 0x0101).field.core x → _ := fun x hx hp =>
    linkWrite_done (i := .hlkEnWrite c l v) (f := HLK_CFG.EN) (x := x) List.mem_cons_self rfl hc hr hidle.2.1 hpresent hx hp
  generalize (s.taken c 0x0101).field.core = τ at *
  obtain ⟨hcfg, hyen, hyp⟩ := τ.cfgStored_spec l v.toNat
  generalize τ.cfgStored l.val v.toNat = y at *
  have hypress : y.press = s.field.core.press := (hyp .press (by simp) : y.press = τ.press).trans hpress
  have hyidle : LinkIdle l.val y := LinkIdle.congr hidle hypress ((hyp .spg (by simp) : y.spg = τ.spg).trans hspg)
    ((hyp .cdc (by simp) : y.cdc = τ.cdc).trans hcdc)
  have hycq : y.cmdq = τ.cmdq := hyp .cmdq (by simp)
  have hkeys : lossKeys l.val y = lossKeys l.val s.field.core := by
    unfold lossKeys
    rw [Core.headsOn_congr hypress]
  obtain ⟨hlost, hxen, hstate, htx, hre, hxregs, hxp⟩ := Core.setLinkEn_off l.isLt hyidle (hyen.trans ((hlow _ (linkBlock l.isLt)).trans hen))
  rw [hkeys] at hxregs
  have hlost' : LinkLost l.val 7 s.field.core (y.setLinkEn l.val false) := LinkLost.before hlost
    ((hcfg _ _ cfgKeys_disjoint).trans (hlow _ (linkBlock l.isLt))) ((hcfg _ _ cfgKeys_disjoint).trans (hlow _ (linkBlock l.isLt)))
    (.inl (Core.ln_congr ((hyp .hlk (by simp) : y.hlk = τ.hlk).trans hhlk) _)) (by rw [hycq, hseq]) (by rw [hycq, hfifo])
    (by rw [(hyp .tck (by simp) : y.tck = τ.tck), hrun]) hypress
  generalize y.setLinkEn l.val false = x at *
  obtain ⟨t, ht, hdone⟩ := hanswer x hact ((hyp.mono (by simp)).trans hxp)
  have hthlk : t.field.core.hlk = x.hlk := by
    have hrest := hdone.rest
    generalize t.field.core = z at *
    rw [hrest]
  have hln : t.field.core.ln l.val = x.ln l.val := Core.ln_congr hthlk _
  have hfree : ∀ f : Fld, f.block l.val = 0x0A → f.key l.val ∉ commandKeys := fun f hf => linkKey_noCommand hf (.inl rfl)
  refine ⟨t, ht, hdone.completed, (hdone.rd _ _ (hfree _ (linkBlock l.isLt))).trans hxen,
    (hdone.rd _ _ (hfree _ (linkBlock l.isLt))).trans hstate, by rw [hln]; exact htx, by rw [hln]; exact hre,
    LinkLost.after hlost' l.isLt hdone.regs (fun f hf => hfree f ?_) (fun k hk e => linkKey_noCommand e (.inr rfl) hk) hln
      (hdone.raised hlost'.event (by decide)), hdone.frame (htaken.trans ((hcfg.mono ?_).trans (hxregs.mono ?_)))⟩
  · simp only [List.mem_cons, List.not_mem_nil, or_false] at hf
    rcases hf with rfl | rfl | rfl <;> exact linkBlock l.isLt
  · exact fun k hk => List.mem_append_right _ (List.mem_append_left _ (List.mem_append_left [HLK_STATUS.STATE.key l.val] hk))
  · intro k hk
    simp only [List.mem_append, List.mem_cons, List.not_mem_nil, or_false] at hk ⊢
    tauto

theorem hlkEnOn_answers {c : Call} {v : Word} {l : Fin 24} {s : State} (hc : CleanHeader c 8) (hr : Runs c 0x0101 2 s)
    (harm : s.field.core.armedOrPrinting = false) (hout : s.field.core.cdc.out = []) (hpresent : s.field.core.segBar l.val < 8)
    (hen : s.field.core.rd HLK_CFG.EN l.val = 0) (hv : v.toNat % 2 = 1) :
    Answers (.hlkEnWrite c l v) s fun t =>
      Completed c 0x0101 0 0 s t ∧ t.field.core.rd HLK_CFG.EN l.val = 1 ∧
      t.field.core.linkState l.val = (if s.field.core.rdb HLK_STATUS.PRSNT l.val then 2 else 0) ∧
      CommandFrame c 0x0101 [HLK_CFG.EN.key l.val, HLK_CFG.AUTO.key l.val, HLK_CFG.TX_EQ.key l.val,
        HLK_CFG.CONF_TO_US.key l.val, HLK_STATUS.STATE.key l.val] s t := by
  have hact := regAct_hlkCfg l v.toNat ((taken_armed c 0x0101 s).trans harm)
  rw [show bit v.toNat 0 = true by simp [bit, Nat.testBit_zero, hv]] at hact
  obtain ⟨hlow, -⟩ := taken_loss c 0x0101 s l.val
  have hboot : (s.taken c 0x0101).field.core.bootState = 7 := (rd_taken _ _ _ _ _ (by decide)).trans hr.ready
  have htaken := SameRegs.taken c 0x0101 [HLK_CFG.EN.key l.val, HLK_CFG.AUTO.key l.val, HLK_CFG.TX_EQ.key l.val,
    HLK_CFG.CONF_TO_US.key l.val, HLK_STATUS.STATE.key l.val] s
  have hanswer : ∀ x, regAct (HLK_CFG.EN.addr l.val) v.toNat (s.taken c 0x0101).field.core = (.ok 0, x) →
      Touches [.hlk, .spg, .fij, .cmdq] (s.taken c 0x0101).field.core x → _ := fun x hx hp =>
    linkWrite_done (i := .hlkEnWrite c l v) (f := HLK_CFG.EN) (x := x) List.mem_cons_self rfl hc hr hout hpresent hx hp
  generalize (s.taken c 0x0101).field.core = τ at *
  obtain ⟨hcfg, hyen, hyp⟩ := τ.cfgStored_spec l v.toNat
  generalize τ.cfgStored l.val v.toNat = y at *
  have hprsnt : y.rdb HLK_STATUS.PRSNT l.val = s.field.core.rdb HLK_STATUS.PRSNT l.val := by
    rw [Core.rdb, Core.rdb, hcfg _ _ cfgKeys_disjoint, hlow _ (linkBlock l.isLt)]
  have hfw : y.fwRuns = true := by
    have hstate : y.bootState = 7 := (hcfg SYS_BOOT.STATE 0 ((by decide : ∀ l : Fin 24, SYS_BOOT.STATE.key 0 ∉ cfgKeys l.val) l)).trans hboot
    rw [Core.fwRuns, hstate]
    rfl
  obtain ⟨hxen, hstate, hxregs, hxp⟩ := Core.setLinkEn_on l.isLt (hyen.trans ((hlow _ (linkBlock l.isLt)).trans hen)) hfw
  rw [hprsnt] at hstate
  generalize y.setLinkEn l.val true = x at *
  obtain ⟨t, ht, hdone⟩ := hanswer x hact ((hyp.mono (by simp)).trans (hxp.mono (by decide)))
  have hfree : ∀ f : Fld, f.block l.val = 0x0A → f.key l.val ∉ commandKeys := fun f hf => linkKey_noCommand hf (.inl rfl)
  refine ⟨t, ht, hdone.completed, (hdone.rd _ _ (hfree _ (linkBlock l.isLt))).trans hxen,
    (hdone.rd _ _ (hfree _ (linkBlock l.isLt))).trans hstate, hdone.frame (htaken.trans ((hcfg.mono ?_).trans (hxregs.mono ?_)))⟩
  · exact fun k hk => List.mem_append_right _ (List.mem_append_left [HLK_STATUS.STATE.key l.val] hk)
  · intro k hk
    simp only [List.mem_append, List.mem_cons, List.not_mem_nil, or_false] at hk ⊢
    tauto

/-- The fields of HLK_n_LVL_MAP that the host writes, the highest first. -/
def lvlFields : List Fld :=
  [HLK_LVL_MAP.W7, HLK_LVL_MAP.W6, HLK_LVL_MAP.W5, HLK_LVL_MAP.W4, HLK_LVL_MAP.W3, HLK_LVL_MAP.W2, HLK_LVL_MAP.W1]
theorem lvlFields_facts : ∀ l : Fin 24, (∀ f ∈ lvlFields, (f, l.val) ∈ fieldsAt (HLK_LVL_MAP.W1.addr l.val) ∧ f.acc = .rw ∧ f.width = 4 ∧
      (clamps.all fun r => !(r.1 == f)) = true ∧ (remaps.all fun r => !(r.1 == f)) = true) ∧
    (fieldsAt (HLK_LVL_MAP.W1.addr l.val)).Pairwise (fun p q => p.1.key p.2 ≠ q.1.key q.2) := by decide +kernel
/-- The waveform word as it is written, W0 held 0 (R417, R419). -/
theorem levelMap_stored (τ : Core) (l : Fin 24) (v : Word) {x : Core}
    (hx : ∀ f ∈ lvlFields, x.rd f l.val = (τ.plainWrite (HLK_LVL_MAP.W1.addr l.val) v.toNat).rd f l.val) : x.levelMap l.val = v.toNat / 16 * 16 := by
  obtain ⟨hfields, hdis⟩ := lvlFields_facts l
  have hrd : ∀ f ∈ lvlFields, x.rd f l.val = v.toNat / 2 ^ f.lo % 2 ^ 4 := fun f hf => by
    obtain ⟨hmem, hacc, hwidth, hclamp, hremap⟩ := hfields f hf
    have hbits : bits v.toNat f.hi f.lo = v.toNat / 2 ^ f.lo % 2 ^ f.width := by
      rw [bits, Nat.shiftRight_eq_div_pow]
      rfl
    rw [hx f hf, Core.rd_plainWrite hmem hacc hdis, fieldPart, storedAs_plain hclamp hremap, hbits, Nat.mod_mod, hwidth]
  have hstep : ∀ k, 16 * (v.toNat / 2 ^ (k + 4)) + v.toNat / 2 ^ k % 16 = v.toNat / 2 ^ k := fun k => by
    rw [Nat.pow_add, ← Nat.div_div_eq_div_mul]
    exact Nat.div_add_mod _ _
  have htop : 16 * 0 + v.toNat / 2 ^ 28 % 16 = v.toNat / 2 ^ 28 := by omega
  unfold Core.levelMap
  simp only [List.foldl_cons, List.foldl_nil]
  rw [hrd HLK_LVL_MAP.W7 (by decide), hrd HLK_LVL_MAP.W6 (by decide), hrd HLK_LVL_MAP.W5 (by decide), hrd HLK_LVL_MAP.W4 (by decide),
    hrd HLK_LVL_MAP.W3 (by decide), hrd HLK_LVL_MAP.W2 (by decide), hrd HLK_LVL_MAP.W1 (by decide)]
  change (16 * (16 * (16 * (16 * (16 * (16 * (16 * 0 + v.toNat / 2 ^ 28 % 16) + v.toNat / 2 ^ 24 % 16) + v.toNat / 2 ^ 20 % 16) +
    v.toNat / 2 ^ 16 % 16) + v.toNat / 2 ^ 12 % 16) + v.toNat / 2 ^ 8 % 16) + v.toNat / 2 ^ 4 % 16) * 16 = v.toNat / 2 ^ 4 * 16
  rw [htop, hstep 24, hstep 20, hstep 16, hstep 12, hstep 8, hstep 4]
theorem hlkLvlMap_answers {c : Call} {v : Word} {l : Fin 24} {s : State} (hc : CleanHeader c 8) (hr : Runs c 0x0101 2 s)
    (harm : s.field.core.armedOrPrinting = false) (hout : s.field.core.cdc.out = []) (hpresent : s.field.core.segBar l.val < 8) :
    Answers (.hlkLvlMapWrite c l v) s fun t =>
      Completed c 0x0101 0 0 s t ∧ t.field.core.levelMap l.val = v.toNat / 16 * 16 ∧
      CommandFrame c 0x0101 [HLK_LVL_MAP.W1.key l.val, HLK_LVL_MAP.W2.key l.val, HLK_LVL_MAP.W3.key l.val,
        HLK_LVL_MAP.W4.key l.val, HLK_LVL_MAP.W5.key l.val, HLK_LVL_MAP.W6.key l.val, HLK_LVL_MAP.W7.key l.val] s t := by
  have harm' := (taken_armed c 0x0101 s).trans harm
  have hact : regAct (HLK_LVL_MAP.W1.addr l.val) v.toNat (s.taken c 0x0101).field.core =
      (.ok 0, (s.taken c 0x0101).field.core.plainWrite (HLK_LVL_MAP.W1.addr l.val) v.toNat) := by
    unfold regAct
    rw [(regWriteSpecial_link l _ _).2, Option.getD_some]
    unfold Core.idleOnly
    rw [harm', if_neg (by decide)]
  have htaken := SameRegs.taken c 0x0101 [HLK_LVL_MAP.W1.key l.val, HLK_LVL_MAP.W2.key l.val, HLK_LVL_MAP.W3.key l.val,
        HLK_LVL_MAP.W4.key l.val, HLK_LVL_MAP.W5.key l.val, HLK_LVL_MAP.W6.key l.val, HLK_LVL_MAP.W7.key l.val] s
  have hanswer : ∀ x, regAct (HLK_LVL_MAP.W1.addr l.val) v.toNat (s.taken c 0x0101).field.core = (.ok 0, x) →
      Touches [.hlk, .spg, .fij, .cmdq] (s.taken c 0x0101).field.core x → _ := fun x hx hp =>
    linkWrite_done (i := .hlkLvlMapWrite c l v) (f := HLK_LVL_MAP.W1) (x := x) (by decide) rfl hc hr hout hpresent hx hp
  generalize (s.taken c 0x0101).field.core = τ at *
  have hplain : SameRegs [HLK_LVL_MAP.W1.key l.val, HLK_LVL_MAP.W2.key l.val, HLK_LVL_MAP.W3.key l.val,
        HLK_LVL_MAP.W4.key l.val, HLK_LVL_MAP.W5.key l.val, HLK_LVL_MAP.W6.key l.val, HLK_LVL_MAP.W7.key l.val] τ
      (τ.plainWrite (HLK_LVL_MAP.W1.addr l.val) v.toNat) ∧ Touches [] τ (τ.plainWrite (HLK_LVL_MAP.W1.addr l.val) v.toNat) := by
    unfold Core.plainWrite
    rw [(linkAddr_fields l).2]
    simp only [List.foldl_cons, List.foldl_nil]
    rw [Core.writeField_ro _ _ (p := (HLK_LVL_MAP.W0, l.val)) rfl, Core.writeField_rw _ _ rfl, Core.writeField_rw _ _ rfl, Core.writeField_rw _ _ rfl,
      Core.writeField_rw _ _ rfl, Core.writeField_rw _ _ rfl, Core.writeField_rw _ _ rfl, Core.writeField_rw _ _ rfl]
    exact ⟨(((((((SameRegs.refl _ τ).wr _ (by simp)).wr _ (by simp)).wr _ (by simp)).wr _ (by simp)).wr _ (by simp)).wr _ (by simp)).wr _ (by simp),
      ((((((Touches.wr _ _ _ _).trans (Touches.wr _ _ _ _)).trans (Touches.wr _ _ _ _)).trans (Touches.wr _ _ _ _)).trans
        (Touches.wr _ _ _ _)).trans (Touches.wr _ _ _ _)).trans (Touches.wr _ _ _ _)⟩
  have hmap := fun x => levelMap_stored τ l v (x := x)
  generalize τ.plainWrite (HLK_LVL_MAP.W1.addr l.val) v.toNat = x at *
  obtain ⟨t, ht, hdone⟩ := hanswer x hact (hplain.2.mono (by simp))
  refine ⟨t, ht, hdone.completed, hmap _ fun f hf => hdone.rd _ _ (linkKey_noCommand (b := 0x0A) ?_ (.inl rfl)),
    hdone.frame (htaken.trans (hplain.1.mono (List.subset_append_right _ _)))⟩
  exact (by decide : ∀ l : Fin 24, ∀ f ∈ lvlFields, f.key l.val / 2 ^ 21 = 0x0A) l f hf

/-! ### Reattach (R441, R442) -/

/-- An operation that is known ends with its error, and is no longer among those that run. -/
theorem Core.asyncErr_ended {s : Core} {op : Nat} {a : AsyncOp} (h : s.cmdq.async.find? (fun x => x.opId == op) = some a) (status detail val : Nat) :
    s.Raised (s.asyncErr op status detail val) 0x0105
      ((op + at_ 4 a.opcode + at_ 6 status + at_ 8 (detailResult detail 0xFFFF val % 2 ^ 64)) % 2 ^ 128) ∧
    (s.asyncErr op status detail val).cmdq.async = s.cmdq.async.filter (fun x => x.opId != op) ∧
    SameRegs [LOG_EVT_OVWR_CNT.COUNT.key 0] s (s.asyncErr op status detail val) ∧ Touches [.cmdq] s (s.asyncErr op status detail val) := by
  refine ⟨?_, ?_, Core.asyncDone_regs _ _ _ _, ((Within.refl [0x1B] [.cmdq] s).asyncErr op status detail val).parts⟩
  · unfold Core.asyncErr Core.asyncDone
    rw [h]
    exact (Core.raised_emit_mod (a := s) (s := s) (code := 0x0105) _ a.tag rfl rfl).congr rfl rfl rfl rfl rfl rfl rfl
  · unfold Core.asyncErr Core.asyncDone
    rw [h]
    have hq := congrArg CmdqSt.async (Core.emit_cmdq s 0x0105 (op + at_ 4 a.opcode + at_ 6 status + at_ 8 (detailResult detail 0xFFFF val % 2 ^ 64)) a.tag)
    exact congrArg (List.filter fun x : AsyncOp => x.opId != op) hq
theorem linkReattachTimeout_answers {l : Fin 24} {s : State} {op due : Nat} {rest : List (Nat × Nat)} {a : AsyncOp}
    (hboot : s.field.core.bootState ≠ 1) (hre : (s.field.core.ln l.val).reattach = (op, due) :: rest)
    (ha : s.field.core.cmdq.async.find? (fun x => x.opId == op) = some a) :
    Answers (.linkReattachTimeout l) s fun t =>
      (t.field.core.ln l.val).reattach = rest ∧ t.field.core.etime = max s.field.core.etime due ∧
      s.field.core.Raised t.field.core 0x0105
        ((op + at_ 4 a.opcode + at_ 6 0x40 + at_ 8 (detailResult 0 0xFFFF 0x0903 % 2 ^ 64)) % 2 ^ 128) ∧
      t.field.core.cmdq.async = s.field.core.cmdq.async.filter (fun x => x.opId != op) ∧
      SameRegs [LOG_EVT_OVWR_CNT.COUNT.key 0] s.field.core t.field.core ∧ CoreOnly s t := by
  have hdo : doLinkReattachTimeout l.val s.field.core = ((s.field.core.reach due).setLn l.val { s.field.core.ln l.val with reattach := rest }).asyncErr
      op 0x40 0 0x0903 := by
    unfold doLinkReattachTimeout
    rw [hre]
    rfl
  refine answers_of_onRunning (g := doLinkReattachTimeout l.val) rfl hboot ?_
  simp only [State.onCore, Field.onCore, hdo]
  have hset : SameRegs [LOG_EVT_OVWR_CNT.COUNT.key 0] s.field.core ((s.field.core.reach due).setLn l.val { s.field.core.ln l.val with reattach := rest }) :=
    .of_regs rfl
  obtain ⟨hev, hasync, hregs, hparts⟩ := Core.asyncErr_ended
    (s := (s.field.core.reach due).setLn l.val { s.field.core.ln l.val with reattach := rest }) (op := op) ha 0x40 0 0x0903
  refine ⟨?_, (hparts .etime (by decide)).trans rfl, hev.congr rfl rfl rfl rfl rfl rfl rfl, hasync, hset.trans hregs, ⟨rfl, rfl, rfl⟩⟩
  rw [Core.ln_congr (hparts .hlk (by decide)), Core.ln_setLn]
/-- A reattach begins: its operation is noted on the link, and the link is dropped. -/
def Core.reattaching (y : Core) (l op : Nat) : Core :=
  (y.setLn l { y.ln l with reattach := (y.ln l).reattach ++ [(op, y.etime + 5000000000)] }).linkLoss l 7
theorem linkReattach_accepted {c : Call} {l : Nat} {s : Core} (hl : l < 24) (hbar : s.segBar l ≠ 0xFF) (hpf : s.rd PWR_SUPPLY.PF = 0)
    (hp : s.rd HLK_STATUS.PRSNT l = 1) (harm : s.armedOrPrinting = false) : linkReattach c l s = (.accepted (s.newOp 0x0902 c).1,
      ((s.newOp 0x0902 c).2.reattaching l (s.newOp 0x0902 c).1).setLn l { ((s.newOp 0x0902 c).2.reattaching l (s.newOp 0x0902 c).1).ln l with
        restartAt := if ((s.newOp 0x0902 c).2.reattaching l (s.newOp 0x0902 c).1).rdb HLK_CFG.EN l then
          some (((s.newOp 0x0902 c).2.reattaching l (s.newOp 0x0902 c).1).etime + 10000000) else none }) := by
  unfold linkReattach
  rw [if_neg (by omega), if_neg hbar, Core.rdb_eq_false hpf, if_neg (by decide), Core.rdb_eq_true (by rw [hp]; decide), if_neg (by decide),
    printing_of_armed harm, if_neg (by simp)]
  rfl

/-- What a reattach leaves of a link on which no line is issued, told from a state `s` that differs in nothing it reads. -/
structure Reattached (l op : Nat) (s x : Core) : Prop where
  lost : LinkLost l 7 s x
  state : x.linkState l = (if s.rdb HLK_CFG.EN l then 0 else 1)
  noted : (x.ln l).reattach = (s.ln l).reattach ++ [(op, s.etime + 5000000000)]
  again : (x.ln l).restartAt = (if s.rdb HLK_CFG.EN l then some (s.etime + 10000000) else none)
theorem Core.reattaching_spec {s y : Core} {l : Nat} (op : Nat) (hl : l < 24) (hidle : LinkIdle l s)
    (hlow : ∀ f : Fld, f.block l = 0x0A → y.rd f l = s.rd f l) (hhlk : y.hlk = s.hlk) (hseq : y.cmdq.evSeq = s.cmdq.evSeq)
    (hfifo : y.cmdq.fifo = s.cmdq.fifo) (hrun : y.tck.running = s.tck.running) (hpress : y.press = s.press) (hspg : y.spg = s.spg)
    (hcdc : y.cdc = s.cdc) (htime : y.etime = s.etime) :
    let u := y.reattaching l op
    let x := u.setLn l { u.ln l with restartAt := if u.rdb HLK_CFG.EN l then some (u.etime + 10000000) else none }
    Reattached l op s x ∧ SameRegs (lossKeys l s) y x ∧ Touches [.hlk, .spg, .fij, .cmdq] y x ∧ x.cmdq.async = y.cmdq.async := by
  unfold Core.reattaching
  have hln : y.ln l = s.ln l := Core.ln_congr hhlk l
  obtain ⟨r, hr⟩ : ∃ r, r = ({ y.ln l with reattach := (y.ln l).reattach ++ [(op, y.etime + 5000000000)] } : LinkSt) := ⟨_, rfl⟩
  have hnote : r.reattach = (s.ln l).reattach ++ [(op, s.etime + 5000000000)] := by rw [hr, hln, htime]
  have hstream : r.stream = (s.ln l).stream := by
    rw [hr, ← hln]
    rfl
  rw [← hr]
  clear hr
  have hzp := (y.setLn_within l r).parts
  have hzr : ∀ f n, (y.setLn l r).rd f n = y.rd f n := fun f n => Core.rd_congr rfl _ _
  have hzl : (y.setLn l r).ln l = r := Core.ln_setLn ..
  generalize y.setLn l r = z at *
  have hzpress : z.press = s.press := (hzp .press (by decide) : z.press = y.press).trans hpress
  have hzcq : z.cmdq = y.cmdq := hzp .cmdq (by decide)
  obtain ⟨hlost, hstate, hregs, hparts, hrec, hasync⟩ := Core.linkLoss_idle (s := z) hl (by decide : 7 < 256) (LinkIdle.congr hidle hzpress
    ((hzp .spg (by decide) : z.spg = y.spg).trans hspg) ((hzp .cdc (by decide) : z.cdc = y.cdc).trans hcdc))
  have hkeys : lossKeys l z = lossKeys l s := by
    unfold lossKeys
    rw [Core.headsOn_congr hzpress]
  rw [hkeys] at hregs
  have hlost' : LinkLost l 7 s (z.linkLoss l 7) := LinkLost.before hlost ((hzr _ _).trans (hlow _ (linkBlock hl)))
    ((hzr _ _).trans (hlow _ (linkBlock hl))) (.inr (by rw [hzl]; exact hstream)) (by rw [hzcq]; exact hseq) (by rw [hzcq]; exact hfifo)
    (by rw [(hzp .tck (by decide) : z.tck = y.tck)]; exact hrun) hzpress
  have hzen : z.rdb HLK_CFG.EN l = s.rdb HLK_CFG.EN l := by rw [Core.rdb, Core.rdb, hzr, hlow _ (linkBlock hl)]
  rw [hzen] at hstate
  generalize z.linkLoss l 7 = u at *
  have hur : SameRegs (lossKeys l s) y u := fun f n hf => (hregs f n hf).trans (hzr f n)
  have hen : u.rdb HLK_CFG.EN l = s.rdb HLK_CFG.EN l := by
    rw [Core.rdb, Core.rdb, hur _ _ (lossKeys_free hl (loss_cfg l).1 (linkBlock hl)), hlow _ (linkBlock hl)]
  have hut : u.etime = s.etime := ((hparts .etime (by decide)).trans (hzp .etime (by decide)) : u.etime = y.etime).trans htime
  have hnote' : (u.ln l).reattach = (s.ln l).reattach ++ [(op, s.etime + 5000000000)] := by
    rw [hrec, Core.lostRecord, (LinkSt.send_sent _ _).rest, ← hnote, ← hzl]
    rfl
  intro u' x
  have hrest : SameRegs (lossKeys l s) y x ∧ Touches [.hlk, .spg, .fij, .cmdq] y x :=
    ⟨hur.setLn _ _, ((hzp.mono (by decide)).trans hparts).trans ((u.setLn_within l _).parts.mono (by decide))⟩
  have hxr : ∀ f n, x.rd f n = u.rd f n := fun f n => Core.rd_congr rfl _ _
  refine ⟨⟨LinkLost.setLn hlost' hlost.off.1 rfl rfl rfl, (hxr _ _).trans hstate, ?_, ?_⟩, hrest.1, hrest.2, hasync.trans (congrArg CmdqSt.async hzcq)⟩
  · rw [Core.ln_setLn]
    exact hnote'
  · rw [Core.ln_setLn]
    change (if u.rdb HLK_CFG.EN l = true then _ else _) = _
    rw [hen, hut]
theorem linkReattach_answers {c : Call} {l : Fin 24} {s : State} (hc : CleanHeader c 4) (hr : Runs c 0x0902 2 s)
    (harm : s.field.core.armedOrPrinting = false) (hidle : LinkIdle l.val s.field.core) (hbar : s.field.core.segBar l.val ≠ 0xFF)
    (hp : s.field.core.rd HLK_STATUS.PRSNT l.val = 1) (hpf : s.field.core.rd PWR_SUPPLY.PF = 0) (hop : s.field.core.cmdq.opNext < 2 ^ 32) :
    Answers (.linkReattach c (BitVec.ofNat 8 l.val)) s fun t =>
      Completed c 0x0902 1 s.field.core.cmdq.opNext s t ∧
      t.field.core.cmdq.async = s.field.core.cmdq.async ++ [⟨s.field.core.cmdq.opNext, 0x0902, c.tag.toNat, c.q.val⟩] ∧
      (t.field.core.ln l.val).reattach =
        (s.field.core.ln l.val).reattach ++ [(s.field.core.cmdq.opNext, s.field.core.etime + 5000000000)] ∧
      LinkLost l.val 7 s.field.core t.field.core ∧
      t.field.core.linkState l.val = (if s.field.core.rdb HLK_CFG.EN l.val then 0 else 1) ∧
      (t.field.core.ln l.val).restartAt =
        (if s.field.core.rdb HLK_CFG.EN l.val then some (s.field.core.etime + 10000000) else none) ∧
      CommandFrame c 0x0902 (lossKeys l.val s.field.core) s t := by
  have hnat : (BitVec.ofNat 8 l.val).toNat = l.val := by
    rw [BitVec.toNat_ofNat, Nat.mod_eq_of_lt (by have := l.isLt; omega)]
  obtain ⟨hlow, hhlk, hseq, hfifo, hrun, hpress, hspg⟩ := taken_loss c 0x0902 s l.val
  have hcdc := taken_cdc c 0x0902 s
  have htime := taken_etime c 0x0902 s
  have hregs := SameRegs.taken c 0x0902 (lossKeys l.val s.field.core) s
  have hnext : (s.taken c 0x0902).field.core.cmdq.opNext = s.field.core.cmdq.opNext := by rw [taken_core]
  have hasync : (s.taken c 0x0902).field.core.cmdq.async = s.field.core.cmdq.async := by rw [taken_core]
  have hpf' : (s.taken c 0x0902).field.core.rd PWR_SUPPLY.PF = 0 := (rd_taken _ _ _ _ _ (by decide)).trans hpf
  have hbody := linkReattach_accepted (c := c) l.isLt (by rw [Core.segBar, hpress]; exact hbar) hpf'
    ((hlow _ (linkBlock l.isLt)).trans hp) ((taken_armed c 0x0902 s).trans harm)
  have hk : (cmdLinkReattach c (BitVec.ofNat 8 l.val).toNat).Plain 4 (linkReattach c (BitVec.ofNat 8 l.val).toNat) := ⟨rfl, rfl, by decide, rfl, rfl, rfl⟩
  have hdone : ∀ r x, linkReattach c l.val (s.taken c 0x0902).field.core = (r, x) → r.AtOnce → x.etime = s.field.core.etime →
      (x.cmdq.done, x.cmdq.fspTx) = ((s.taken c 0x0902).field.core.cmdq.done, (s.taken c 0x0902).field.core.cmdq.fspTx) →
      Answers (.linkReattach c (BitVec.ofNat 8 l.val)) s ((cmdLinkReattach c l.val).Done r s x) := fun r x hb => by
    have h := hk.done (i := .linkReattach c (BitVec.ofNat 8 l.val)) (r := r) (x := x) rfl hc hr
    rw [hnat] at h
    exact h hb
  generalize (s.taken c 0x0902).field.core = τ at *
  obtain ⟨hid, hycmdq, hyrest⟩ := τ.newOp_spec 0x0902 c (by rwa [hnext])
  rw [hid, hnext] at hbody
  rw [hnext, hasync] at hycmdq
  generalize (τ.newOp 0x0902 c).2 = y at *
  have hyregs : y.regs = τ.regs := by rw [hyrest]
  obtain ⟨hre, hxregs, hxp, hxasync⟩ := Core.reattaching_spec (y := y) s.field.core.cmdq.opNext l.isLt hidle
    (fun f hf => (Core.rd_congr hyregs _ _).trans (hlow f hf)) (by rw [hyrest]; exact hhlk) (by rw [hycmdq]; exact hseq) (by rw [hycmdq]; exact hfifo)
    (by rw [hyrest]; exact hrun) (by rw [hyrest]; exact hpress) (by rw [hyrest]; exact hspg) (by rw [hyrest]; exact hcdc) (by rw [hyrest]; exact htime)
  generalize (y.reattaching l.val s.field.core.cmdq.opNext).setLn l.val _ = x at *
  obtain ⟨t, ht, hd⟩ := hdone _ x hbody (.inr (.inl ⟨_, rfl⟩)) ((hxp .etime (by decide)).trans ((congrArg Core.etime hyrest).trans htime))
    ((hxp .answers (by decide)).trans (by rw [hycmdq]))
  have hthlk : t.field.core.hlk = x.hlk := by
    have hrest := hd.rest
    generalize t.field.core = z at *
    rw [hrest]
  have hln : t.field.core.ln l.val = x.ln l.val := Core.ln_congr hthlk _
  have hfree : ∀ f : Fld, f.block l.val = 0x0A → f.key l.val ∉ commandKeys := fun f hf => linkKey_noCommand hf (.inl rfl)
  refine ⟨t, ht, hd.accepted, hd.records.1.trans (hxasync.trans (by rw [hycmdq])), by rw [hln]; exact hre.noted,
    LinkLost.after hre.lost l.isLt hd.regs (fun f hf => hfree f ?_) (fun k hk e => linkKey_noCommand e (.inr rfl) hk) hln
      (hd.raised hre.lost.event (show (1 : Nat) ≠ 0xFE by decide)), (hd.rd _ _ (hfree _ (linkBlock l.isLt))).trans hre.state, by rw [hln]; exact hre.again, hd.frame ?_⟩
  · simp only [List.mem_cons, List.not_mem_nil, or_false] at hf
    rcases hf with rfl | rfl | rfl <;> exact linkBlock l.isLt
  · exact hregs.trans ((SameRegs.of_regs hyregs).trans (hxregs.mono (List.subset_append_right _ _)))
/-- Settles O53: the writes of a link's registers, whose EN drops or trains it, and a reattach with its time-out. -/
theorem linkSettingsAndReattach : Obligations.LinkSettingsAndReattach := by
  unfold Obligations.LinkSettingsAndReattach
  refine fun l s harm hidle => ⟨fun c v hc hr => ?_, fun c hc hr hbar hp hpf hop => linkReattach_answers hc hr harm hidle hbar hp hpf hop,
    fun op due rest a hboot hre ha => linkReattachTimeout_answers hboot hre ha⟩
  split
  · next habsent =>
    intro i hi
    simp only [List.mem_cons, List.not_mem_nil, or_false] at hi
    rcases hi with rfl | rfl
    · exact linkAbsent_answers (f := HLK_CFG.EN) (by decide) rfl hc hr hidle.2.1 habsent
    · exact linkAbsent_answers (f := HLK_LVL_MAP.W1) (by decide) rfl hc hr hidle.2.1 habsent
  · next hpresent =>
    exact ⟨fun hen hv => hlkEnOff_answers hc hr harm hidle (Nat.lt_of_not_le hpresent) hen hv,
      fun hen hv => hlkEnOn_answers hc hr harm hidle.2.1 (Nat.lt_of_not_le hpresent) hen hv,
      hlkLvlMap_answers hc hr harm hidle.2.1 (Nat.lt_of_not_le hpresent)⟩

/-! ### What the closing of lines may change (R400, R401, R496) -/

/-- The records that the closing of a line may change. -/
def closeParts : List Part := [.spg, .hlk, .ely, .jobs, .cmdq, .pos, .tck]
/-- The blocks whose registers it may change: none of a link's. -/
def closeBlocks : List Nat := [0x05, 0x0C, 0x0F, 0x11, 0x1B]
theorem Core.modJob_within (s : Core) (id : Nat) (g : Job → Job) : Within [] [.jobs] s (s.modJob id g) := (Within.refl _ _ s).jobs _
theorem Core.addDefect_within (s : Core) (id : Nat) (d : Defect) : Within [0x1B] [.jobs, .cmdq] s (s.addDefect id d) := by
  unfold Core.addDefect
  split
  · exact .refl _ _ s
  · next j _ =>
    extract_lets u t
    have hu : Within [0x1B] [.jobs, .cmdq] s u := (s.modJob_within _ _).mono (by decide) (by decide)
    have ht : Within [0x1B] [.jobs, .cmdq] s t := by
      unfold t
      refine .ite (fun _ => (s.modJob_within _ _).mono (by decide) (by decide)) fun _ => ?_
      exact .ite (fun _ => hu) fun _ => hu.emit _ _ _
    exact .ite (fun _ => ht.emit _ _ _) fun _ => ht
theorem Core.closeRange_within (s : Core) (h cls : Nat) (r : OpenRange) : Within [0x1B] [.jobs, .cmdq] s (s.closeRange h cls r) := by
  unfold Core.closeRange
  extract_lets b t
  have ht : Within [0x1B] [.jobs, .cmdq] s t := (Within.refl _ _ s).emit _ _ _
  exact ht.trans (t.addDefect_within _ _)
theorem Core.closeRanges_within (s : Core) {h : Nat} (hh : h < 192) (p : OpenRange → Bool) :
    Within [0x0C, 0x1B] [.spg, .jobs, .cmdq] s (s.closeRanges h p) := by
  unfold Core.closeRanges
  extract_lets x t
  have ht : Within [0x0C, 0x1B] [.spg, .jobs, .cmdq] s t := (s.setHf_within _ hh).mono (by decide) (by decide)
  exact ht.foldl _ fun r _ u => (u.closeRange_within _ _ _).mono (by decide) (by decide)
theorem Core.setJobState_within (s : Core) (id st : Nat) : Within closeBlocks closeParts s (s.setJobState id st) := by
  unfold Core.setJobState
  split
  · exact .refl _ _ s
  · next j _ =>
    refine .ite (fun _ => .refl _ _ s) fun _ => ?_
    extract_lets a b c src d e
    have ha : Within closeBlocks closeParts s a := ((s.modJob_within _ _).mono (by decide) (by decide)).emit _ _ _
    have hb : Within closeBlocks closeParts s b := ha.jobs _
    have hc : Within closeBlocks closeParts s c := hb.trans ((b.modJob_within _ _).mono (by decide) (by decide))
    have hd : Within closeBlocks closeParts s d := hc.jobs _
    have he : Within closeBlocks closeParts s e := (hd.trans ((d.endRing_within _).mono (by decide) (by decide))).trans
      ((Core.dropStaged_within _ _).mono (by decide) (by decide))
    exact .ite (fun _ => ha) fun _ => .ite (fun _ => he) fun _ => he.tck _
theorem Core.settleJob_within (s : Core) (id : Nat) : Within closeBlocks closeParts s (s.settleJob id) := by
  unfold Core.settleJob
  split
  · exact .refl _ _ s
  · next j _ =>
    refine .ite (fun _ => ?_) fun _ => .refl _ _ s
    extract_lets a b
    have ha : Within closeBlocks closeParts s a := (Within.refl _ _ s).foldl _ fun h hh u => by
      obtain ⟨e, -, he⟩ := List.mem_flatMap.1 hh
      exact (u.closeRanges_within (mem_headsOfBar_lt he) _).mono (by decide) (by decide)
    have hb : Within closeBlocks closeParts s b := by
      unfold b
      refine .ite (fun _ => ?_) fun _ => ha
      split
      · extract_lets lo
        exact .ite (fun _ => ha) fun _ => ha.trans ((a.addDefect_within _ _).mono (by decide) (by decide))
      · exact ha
    exact (hb.trans (b.setJobState_within _ _)).trans ((Core.refreshRing_within _).mono (by decide) (by decide))
theorem Core.accountRange_within (s : Core) {h : Nat} (hh : h < 192) (job w : Nat) (cls : Option Nat) (opens : Bool) :
    Within closeBlocks closeParts s (s.accountRange h job w cls opens) := by
  unfold Core.accountRange
  extract_lets x touch aged hit a b y
  have ha : Within closeBlocks closeParts s a := (s.setHf_within _ hh).mono (by decide) (by decide)
  have hb : Within closeBlocks closeParts s b := ha.trans ((a.closeRanges_within hh _).mono (by decide) (by decide))
  split
  · exact hb
  · refine .ite (fun _ => hb) fun _ => ?_
    extract_lets c
    have hc : Within closeBlocks closeParts s c := hb.trans ((b.setHf_within _ hh).mono (by decide) (by decide))
    exact hc.trans ((c.schedMarker_within _ _).mono (by decide) (by decide))
theorem Core.closeLine_within (s : Core) {h : Nat} (hh : h < 192) (job w drops : Nat) (c : LineClass) (opens : Bool) :
    Within closeBlocks closeParts s (s.closeLine h job w drops c opens) := by
  unfold Core.closeLine
  extract_lets a b d k src u e
  have hblock : ∀ f : Fld, f.block h = 0x0C → f.block h ∈ closeBlocks := fun f hf => by rw [hf]; decide
  have ha : Within closeBlocks closeParts s a := by
    unfold a
    cases c with
    | strobed => exact ((Within.refl _ _ s).wr2 _ (hblock _ (headBlock hh)) (hblock _ (headBlock hh))).wr2 _ (hblock _ (headBlock hh)) (hblock _ (headBlock hh))
    | late => exact (Within.refl _ _ s).wr _ (hblock _ (headBlock hh))
    | ovs => exact (Within.refl _ _ s).wr _ (hblock _ (headBlock hh))
    | inh => exact (Within.refl _ _ s).wr _ (hblock _ (headBlock hh))
    | unconf => exact (Within.refl _ _ s).wr _ (hblock _ (headBlock hh))
  have hb : Within closeBlocks closeParts s b := ha.trans ((a.modJob_within _ _).mono (by decide) (by decide))
  have hd : Within closeBlocks closeParts s d := hb.trans (b.accountRange_within hh _ _ _ _)
  have he : Within closeBlocks closeParts s e := by
    unfold e
    refine .ite (fun _ => ?_) fun _ => hd
    have hu : Within closeBlocks closeParts s u := hd.spg _
    exact hu.trans ((u.modJob_within _ _).mono (by decide) (by decide))
  exact he.trans (e.settleJob_within _)
theorem Core.closeIssued_within (s : Core) {h : Nat} (hh : h < 192) (p : IssuedLine → Bool) (c : LineClass) :
    Within closeBlocks closeParts s (s.closeIssued h p c) := by
  unfold Core.closeIssued
  extract_lets x t
  have ht : Within closeBlocks closeParts s t := (s.setHf_within _ hh).mono (by decide) (by decide)
  exact ht.foldl _ fun y _ u => u.closeLine_within hh _ _ _ _ _
theorem Core.closeUnconfirmed_within (s : Core) {l : Nat} (hl : l < 24) : Within closeBlocks closeParts s (s.closeUnconfirmed l).1 := by
  have hfold : ∀ (hs : List Nat) (acc : Core × Nat), (∀ h ∈ hs, h < 192) → Within closeBlocks closeParts s acc.1 →
      Within closeBlocks closeParts s (hs.foldl (fun (acc : Core × Nat) h =>
        (acc.1.closeIssued h (fun _ => true) .unconf, acc.2 + (acc.1.hf h).issued.length)) acc).1 := by
    intro hs
    induction hs with
    | nil => exact fun acc _ h => h
    | cons g hs ih => exact fun acc hlt h => ih _ (fun k hk => hlt k (List.mem_cons_of_mem _ hk)) (h.trans (Core.closeIssued_within _ (hlt g List.mem_cons_self) _ _))
  exact hfold _ (s, 0) (fun h hh => headsOn_lt hl hh) (.refl _ _ s)
/-- A link that is lost is not up. -/
theorem Core.linkLoss_down (s : Core) {l cause : Nat} (hl : l < 24) (hc : cause < 256) : (s.linkLoss l cause).linkUp l = false := by
  have hshown : (s.lossShown l cause).linkState l ≤ 1 := by
    rw [(s.lossShown_spec l hc).1]
    split <;> decide
  rw [Core.linkLoss_eq]
  have hclosed := (s.lossShown l cause).closeUnconfirmed_within hl
  generalize (s.lossShown l cause).closeUnconfirmed l = r at *
  have he : (Core.lossSaid r l cause (s.lastBlock l)).linkState l = r.1.linkState l := by
    unfold Core.lossSaid
    exact ((Within.refl [0x1B] [.cmdq] r.1).emit 0x0902 (l + at_ 1 cause + at_ 4 r.2) 0).rd HLK_STATUS.STATE l (by rw [linkBlock hl]; decide)
  generalize Core.lossSaid r l cause (s.lastBlock l) = e at *
  dsimp only
  obtain ⟨-, hheads, -⟩ := Core.lostHeads_spec (e.headsOn l) e
  obtain ⟨hdrop, -⟩ := Core.dropWrites_spec ((List.range 8).map (8 * l + ·)) ((e.headsOn l).foldl Core.lostHead e)
  have hf : ((e.headsOn l).foldl Core.lostHead e).linkState l = e.linkState l := hheads HLK_STATUS.STATE l fun hk => by
    obtain ⟨g, hg, hk⟩ := List.mem_flatMap.1 hk
    exact absurd ((linkBlock hl).symm.trans (lostHeadKeys_block (headsOn_lt hl hg) hk)) (by decide)
  generalize (e.headsOn l).foldl Core.lostHead e = f at *
  have hg : (((List.range 8).map (8 * l + ·)).foldl Core.dropWrite f).linkState l = f.linkState l := hdrop HLK_STATUS.STATE l (by simp)
  generalize ((List.range 8).map (8 * l + ·)).foldl Core.dropWrite f = g at *
  have hu : (g.dropHeld l).linkState l = g.linkState l := Core.rd_congr rfl _ _
  generalize g.dropHeld l = u at *
  have hv : (u.cdcReset (crossesDomain 9 l)).linkState l = u.linkState l := (u.cdcReset_within _).rd HLK_STATUS.STATE l (by rw [linkBlock hl]; decide)
  have hr : r.1.linkState l = (s.lossShown l cause).linkState l := hclosed.rd HLK_STATUS.STATE l (by rw [linkBlock hl]; decide)
  rw [Core.linkUp, hv, hu, hg, hf, he, hr]
  exact beq_false_of_ne (by omega)

/-! ### What leaves an UP link (R417 to R421, R437) -/

theorem Flows.touches {l : Nat} {s t : Core} (h : Flows l s t) : Touches [.hlk] s t := by
  intro r hr
  rw [h.rest]
  cases r with
  | hlk => exact absurd List.mem_cons_self hr
  | _ => rfl
/-- What a RACK that waits may change where it loses no link. -/
def Owed (l : Nat) (s t : Core) : Prop := SameRegs [HLK_REPLAY_CNT.COUNT.key l] s t ∧ Touches [.hlk] s t
theorem Owed.idle {l : Nat} {s t : Core} (hl : l < 24) (h : Owed l s t) (hi : NoInjection s) : NoInjection t := by
  unfold NoInjection at *
  have hfree : FIJ_STATUS.ARMED.key 0 ∉ [HLK_REPLAY_CNT.COUNT.key l] := (by decide : ∀ l : Fin 24, FIJ_STATUS.ARMED.key 0 ∉ [HLK_REPLAY_CNT.COUNT.key l.val]) ⟨l, hl⟩
  rw [h.1 _ _ hfree, (h.2 .fij (by decide) : t.fij = s.fij)]
  exact hi
theorem Core.sendRack_owed {s : Core} {l : Nat} (hl : l < 24) (h : NoInjection s) (nak : Bool) (hup : (s.sendRack l nak).linkUp l = true) :
    Owed l s (s.sendRack l nak) := by
  unfold Core.sendRack at hup ⊢
  dsimp only at hup ⊢
  generalize ({ s.ln l with rack := none, rackAt := some s.etime, nakRun := if nak then (s.ln l).nakRun + 1 else (s.ln l).nakRun } : LinkSt) = r at *
  have hset : Owed l s (s.setLn l r) := ⟨.of_regs rfl, (s.setLn_within l r).parts.mono (by decide)⟩
  rw [Core.fwdUnit_plain (hset.idle hl h)] at hup ⊢
  have hsent := (Core.sendMore_flows (s.setLn l r) l [rackBlock (if nak then (s.ln l).rxSeq else ((s.ln l).rxSeq + 255) % 256) nak])
  generalize (s.setLn l r).sendMore l _ = u at *
  have hu : Owed l s u := ⟨hset.1.trans (.of_regs hsent.regs), hset.2.trans hsent.touches⟩
  cases nak with
  | false => exact hu
  | true =>
    have hinc : Owed l s (u.inc HLK_REPLAY_CNT.COUNT l) := ⟨hu.1.inc 1 (List.mem_singleton.2 rfl), hu.2.trans ((Touches.wr _ _ _ _).mono (by simp))⟩
    by_cases hn : (s.ln l).nakRun + 1 ≥ 4
    · simp only [Bool.not_true, Bool.false_eq_true, if_false, if_pos hn] at hup
      rw [Core.linkLoss_down _ hl (by decide)] at hup
      exact absurd hup (by decide)
    · simp only [Bool.not_true, Bool.false_eq_true, if_false, if_neg hn]
      exact hinc
/-- What goes ahead of a block on a link that stays up. -/
theorem Core.sendAhead_owed {s : Core} {l : Nat} (hl : l < 24) (h : NoInjection s) (hup : (s.sendAhead l).linkUp l = true) :
    Owed l s (s.sendAhead l) := by
  have hz := Core.beforeRack_flows (l := l) h
  rw [Core.sendAhead_eq] at hup ⊢
  generalize s.beforeRack l = z at *
  have hzo : Owed l s z := ⟨.of_regs hz.regs, hz.touches⟩
  unfold Core.flushRack at hup ⊢
  cases hr : (z.ln l).rack with
  | none => simp only [hr] at hup ⊢; exact hzo
  | some nak =>
    simp only [hr] at hup ⊢
    by_cases hd : z.rackDue l
    · rw [if_pos hd] at hup ⊢
      obtain ⟨h1, h2⟩ := Core.sendRack_owed hl (hz.idle h) nak hup
      exact ⟨hzo.1.trans h1, hzo.2.trans h2⟩
    · rw [if_neg hd] at hup ⊢
      exact hzo

/-- The frame sent next is one of a head of the link. -/
theorem Core.nextFrame_mem {s : Core} {l h : Nat} {y : StagedLine} (hn : s.nextFrame l = some (h, y)) : h ∈ s.headsOn l := by
  suffices hall : ∀ g z, s.nextFrame l = some (g, z) → g ∈ s.headsOn l from hall h y hn
  unfold Core.nextFrame
  refine List.foldlRecOn (motive := fun b => ∀ g z, b = some (g, z) → g ∈ s.headsOn l) _ _ (fun _ _ h => nomatch h) ?_
  intro best hb k hk g z hg
  split at hg
  · exact hb g z hg
  · split at hg
    · obtain ⟨rfl, -⟩ := Prod.mk.inj (Option.some.inj hg)
      exact hk
    · split at hg
      · obtain ⟨rfl, -⟩ := Prod.mk.inj (Option.some.inj hg)
        exact hk
      · exact hb g z hg
theorem headsOn_div {s : Core} {l h : Nat} (hm : h ∈ s.headsOn l) : h / 8 = l := by
  obtain ⟨i, hi, rfl⟩ := List.mem_map.1 (List.mem_of_mem_filter hm)
  have := List.mem_range.1 hi
  omega
theorem sentKey_facts : ∀ h : Fin 192, (∀ f ∈ lvlFields, f.key (h.val / 8) ≠ HLK_SLOT_CRED.SENT.key h.val ∧ f.key (h.val / 8) ≠ HDC_FIRE.PENDING.key h.val ∧
      f.key (h.val / 8) ≠ HLK_REPLAY_CNT.COUNT.key (h.val / 8)) ∧
    HLK_SLOT_CRED.SENT.key h.val ≠ HLK_REPLAY_CNT.COUNT.key (h.val / 8) ∧ HLK_SLOT_CRED.SENT.key h.val ≠ HDC_FIRE.PENDING.key h.val := by decide +kernel
/-- The state as a frame has been taken from staging, its SENT moved on. -/
def Core.frameTaken (a : Core) (h : Nat) (y : StagedLine) (seq : Nat) (spoilt : Bool) : Core :=
  (a.wr HLK_SLOT_CRED.SENT (seq + 1) h).setHf h { (a.wr HLK_SLOT_CRED.SENT (seq + 1) h).hf h with
    staged := mapIf (· == y) (fun y => { y with seq := some seq, spoilt := spoilt }) ((a.wr HLK_SLOT_CRED.SENT (seq + 1) h).hf h).staged }
theorem Core.frameTaken_spec (a : Core) (h : Nat) (y : StagedLine) (seq : Nat) (spoilt : Bool) :
    SameRegs [HLK_SLOT_CRED.SENT.key h, HDC_FIRE.PENDING.key h] a (a.frameTaken h y seq spoilt) ∧ Touches [.spg] a (a.frameTaken h y seq spoilt) ∧
    (HLK_SLOT_CRED.SENT.key h ≠ HDC_FIRE.PENDING.key h → (a.frameTaken h y seq spoilt).rd HLK_SLOT_CRED.SENT h = (seq + 1) % 65536) ∧
    ((a.frameTaken h y seq spoilt).hf h).staged = mapIf (· == y) (fun y => { y with seq := some seq, spoilt := spoilt }) (a.hf h).staged := by
  have hw : SameRegs [HLK_SLOT_CRED.SENT.key h] a (a.wr HLK_SLOT_CRED.SENT (seq + 1) h) := (SameRegs.refl _ a).wr _ List.mem_cons_self
  have hwp := Touches.wr a HLK_SLOT_CRED.SENT (seq + 1) h
  have hsent : (a.wr HLK_SLOT_CRED.SENT (seq + 1) h).rd HLK_SLOT_CRED.SENT h = (seq + 1) % 2 ^ 16 := Core.rd_wr ..
  unfold Core.frameTaken
  generalize a.wr HLK_SLOT_CRED.SENT (seq + 1) h = b at *
  have hhf : b.hf h = a.hf h := by rw [Core.hf, (hwp .spg (by simp) : b.spg = a.spg), Core.hf]
  rw [hhf]
  obtain ⟨hr, hp⟩ := b.setHf_spec h { a.hf h with staged := mapIf (· == y) (fun y => { y with seq := some seq, spoilt := spoilt }) (a.hf h).staged }
  refine ⟨(hw.mono (by simp)).trans (hr.mono (by simp)), (hwp.mono (by simp)).trans hp, fun hne => ?_, by rw [Core.hf_setHf]⟩
  exact (hr _ _ (by simpa using hne)).trans hsent
theorem doLineFrameSend_eq {s : Core} {l h : Nat} {y : StagedLine} (hup : s.linkUp l = true) (hn : s.nextFrame l = some (h, y))
    (hup' : (s.sendAhead l).linkUp l = true) (parity : Option Nat) :
    ∃ a, a = parity.elim (s.sendAhead l) ((s.sendAhead l).sramParity 1) ∧
      doLineFrameSend l parity s = (a.frameTaken h y ((s.sendAhead l).rd HLK_SLOT_CRED.SENT h) parity.isSome).fwdUnit l 0x78
        (frameBlocks (h % 8)
          ((a.frameTaken h y ((s.sendAhead l).rd HLK_SLOT_CRED.SENT h) parity.isSome).rd GEO_CFG.DROP_BITS
            ((a.frameTaken h y ((s.sendAhead l).rd HLK_SLOT_CRED.SENT h) parity.isSome).barOf h))
          ((s.sendAhead l).rd HLK_SLOT_CRED.SENT h) ((a.frameTaken h y ((s.sendAhead l).rd HLK_SLOT_CRED.SENT h) parity.isSome).levelMap l)
          ((a.frameTaken h y ((s.sendAhead l).rd HLK_SLOT_CRED.SENT h) parity.isSome).nozzles h) y.payload parity.isSome) := by
  refine ⟨_, rfl, ?_⟩
  unfold doLineFrameSend
  rw [hup, if_neg (by decide), hn]
  dsimp only
  rw [hup', if_neg (by decide)]
  cases parity <;> rfl

theorem Core.levelMap_congr {a b : Core} {l : Nat} (h : ∀ f ∈ lvlFields, b.rd f l = a.rd f l) : b.levelMap l = a.levelMap l := by
  unfold Core.levelMap
  simp only [List.foldl_cons, List.foldl_nil]
  rw [h HLK_LVL_MAP.W7 (by decide), h HLK_LVL_MAP.W6 (by decide), h HLK_LVL_MAP.W5 (by decide), h HLK_LVL_MAP.W4 (by decide),
    h HLK_LVL_MAP.W3 (by decide), h HLK_LVL_MAP.W2 (by decide), h HLK_LVL_MAP.W1 (by decide)]
/-- What the sending of a frame leaves, told from the state `ahead` in which everything that goes ahead of it has left. -/
structure FrameSent (l h : Nat) (y : StagedLine) (parity : Option Nat) (s ahead t : Core) : Prop where
  sent : t.rd HLK_SLOT_CRED.SENT h = (s.rd HLK_SLOT_CRED.SENT h + 1) % 65536
  staged : (t.hf h).staged = mapIf (· == y) (fun y => { y with seq := some (s.rd HLK_SLOT_CRED.SENT h), spoilt := parity.isSome }) (s.hf h).staged
  out : (t.ln l).out = leaving l (frameBlocks (h % 8) (s.rd GEO_CFG.DROP_BITS (s.segBar l)) (s.rd HLK_SLOT_CRED.SENT h) (s.levelMap l) (s.nozzles h)
    y.payload parity.isSome) ahead
  regs : parity = none → SameRegs [HLK_SLOT_CRED.SENT.key h, HDC_FIRE.PENDING.key h] ahead t
theorem lineFrameSend_sent {s : Core} {l h : Nat} {y : StagedLine} (hl : l < 24) (hi : NoInjection s) (hst : s.linkState l = 4)
    (hn : s.nextFrame l = some (h, y)) (hbar : s.segBar l ≤ 7) (hup : (s.sendAhead l).linkUp l = true) (parity : Option Nat) :
    FrameSent l h y parity s (s.sendAhead l) (doLineFrameSend l parity s) := by
  have hm := Core.nextFrame_mem hn
  have hh : h < 192 := headsOn_lt hl hm
  obtain rfl : h / 8 = l := headsOn_div hm
  obtain ⟨hlvl, hseqkey, hpendkey⟩ := sentKey_facts ⟨h, hh⟩
  have hup0 : s.linkUp (h / 8) = true := by rw [Core.linkUp, hst]; rfl
  obtain ⟨a, ha, hdo⟩ := doLineFrameSend_eq hup0 hn hup parity
  obtain ⟨hor, hop⟩ := Core.sendAhead_owed hl hi hup
  have hidle := Owed.idle hl ⟨hor, hop⟩ hi
  rw [hdo]
  generalize s.sendAhead (h / 8) = b at *
  have hseq : b.rd HLK_SLOT_CRED.SENT h = s.rd HLK_SLOT_CRED.SENT h := hor _ _ (by simpa using hseqkey)
  have hw : Within [0x1B] [.cmdq] b a := by
    rw [ha]
    cases parity with
    | none => exact .refl _ _ b
    | some w => exact b.sramParity_within 1 w
  rw [hseq]
  obtain ⟨hzr, hzp, hzs, hzh⟩ := a.frameTaken_spec h y (s.rd HLK_SLOT_CRED.SENT h) parity.isSome
  have hsame : parity = none → a = b := fun hp => by rw [ha, hp]; rfl
  generalize a.frameTaken h y (s.rd HLK_SLOT_CRED.SENT h) parity.isSome = z at *
  have hpress : z.press = s.press := ((hzp .press (by decide) : z.press = a.press).trans (hw.parts .press (by decide))).trans (hop .press (by decide))
  have hzi : NoInjection z := by
    unfold NoInjection at hidle ⊢
    rw [hzr FIJ_STATUS.ARMED 0 ((by decide +kernel : ∀ h : Fin 192, FIJ_STATUS.ARMED.key 0 ∉ [HLK_SLOT_CRED.SENT.key h.val, HDC_FIRE.PENDING.key h.val]) ⟨h, hh⟩),
      hw.rd FIJ_STATUS.ARMED 0 (by decide), (hzp .fij (by decide) : z.fij = a.fij), (hw.parts .fij (by decide) : a.fij = b.fij)]
    exact hidle
  have hrd : ∀ f n, f.key n ∉ [HLK_SLOT_CRED.SENT.key h, HDC_FIRE.PENDING.key h] → f.block n ≠ 0x1B → f.key n ≠ HLK_REPLAY_CNT.COUNT.key (h / 8) →
      z.rd f n = s.rd f n := fun f n h1 h2 h3 =>
    (hzr f n h1).trans ((hw.rd f n (by simpa using h2)).trans (hor f n (by simpa using h3)))
  have hmap : z.levelMap (h / 8) = s.levelMap (h / 8) := Core.levelMap_congr fun f hf => by
    obtain ⟨h1, h2, h3⟩ := hlvl f hf
    refine hrd f _ (by simpa using ⟨h1, h2⟩) ?_ h3
    have hb : f.block (h / 8) = 0x0A := (by decide +kernel : ∀ l : Fin 24, ∀ f ∈ lvlFields, f.block l.val = 0x0A) ⟨h / 8, hl⟩ f hf
    rw [hb]
    decide
  have hbits : z.rd GEO_CFG.DROP_BITS (z.barOf h) = s.rd GEO_CFG.DROP_BITS (s.segBar (h / 8)) := by
    have hb : z.barOf h = s.segBar (h / 8) := by rw [Core.barOf, Core.segBar, hpress, Core.segBar]
    have h8 : GEO_CFG.DROP_BITS.block (s.segBar (h / 8)) = 0x08 :=
      (by decide : ∀ b : Fin 8, GEO_CFG.DROP_BITS.block b.val = 0x08) ⟨s.segBar (h / 8), by omega⟩
    have hkey : ∀ {k b : Nat}, k / 2 ^ 21 = b → b ≠ 0x08 → GEO_CFG.DROP_BITS.key (s.segBar (h / 8)) ≠ k := fun hk hb e => by
      rw [← e] at hk
      exact hb (hk.symm.trans h8)
    rw [hb]
    refine hrd _ _ ?_ (by rw [h8]; decide) (hkey (linkBlock hl) (by decide))
    simp only [List.mem_cons, List.not_mem_nil, or_false, not_or]
    exact ⟨hkey ((by decide +kernel : ∀ h : Fin 192, HLK_SLOT_CRED.SENT.block h.val = 0x0A) ⟨h, hh⟩) (by decide), hkey (headBlock hh) (by decide)⟩
  have hnoz : z.nozzles h = s.nozzles h := by rw [Core.nozzles, hpress, Core.nozzles]
  rw [Core.fwdUnit_plain hzi, hbits, hmap, hnoz]
  have hsm := Core.sendMore_flows z (h / 8) (frameBlocks (h % 8) (s.rd GEO_CFG.DROP_BITS (s.segBar (h / 8))) (s.rd HLK_SLOT_CRED.SENT h)
    (s.levelMap (h / 8)) (s.nozzles h) y.payload parity.isSome)
  refine ⟨(hsm.rd _ _).trans (hzs hpendkey), ?_, ?_, fun hp => ?_⟩
  · rw [Core.hf, (hsm.touches .spg (by decide) : _ = z.spg)]
    refine hzh.trans ?_
    have hspg : a.hf h = s.hf h := by
      rw [Core.hf, (hw.parts .spg (by decide) : a.spg = b.spg), (hop .spg (by decide) : b.spg = s.spg), Core.hf]
    rw [hspg]
  · unfold Core.sendMore
    rw [Core.ln_setLn, leaving, Core.ln_congr (a := b) ((hzp .hlk (by decide) : z.hlk = a.hlk).trans (hw.parts .hlk (by decide)))]
  · exact (hsame hp ▸ hzr).trans (.of_regs hsm.regs)

theorem Core.sendTimes_kept {s : Core} {l : Nat} (h : NoInjection s) : ((s.sendTimes l).ln l).tokens = (s.ln l).tokens ∧
    ((s.sendTimes l).ln l).resume = (s.ln l).resume := by
  unfold Core.sendTimes
  extract_lets x n
  split
  · exact ⟨rfl, rfl⟩
  · have hset : Flows l s (s.setLn l { x with lastTime := x.lastTime + 10000 * n, fwd := x.fwd + (n - 1) }) := .of_setLn s rfl
    rw [Core.fwdUnit_plain (hset.idle h), Core.sendMore, Core.ln_setLn, (LinkSt.send_sent _ _).rest, Core.ln_setLn]
    exact ⟨rfl, rfl⟩
/-- The blocks of a RESUME that waits for no token. -/
def resumeBlocks (resume : Nat) (tokens : List Tok) : List Bytes :=
  if resume = 0 ∨ tokens.any (·.sentAt.isNone) = true then [] else [resumeBlock resume]
theorem Core.flushResume_out (s : Core) (l : Nat) : ((s.flushResume l).ln l).tokens = (s.ln l).tokens ∧
    ((s.flushResume l).ln l).out = ((s.ln l).send (resumeBlocks (s.ln l).resume (s.ln l).tokens)).out := by
  unfold Core.flushResume resumeBlocks
  extract_lets x
  split
  · exact ⟨rfl, rfl⟩
  · rw [Core.sendMore, Core.ln_setLn, Core.ln_setLn]
    exact ⟨by rw [(LinkSt.send_sent _ _).rest], LinkSt.send_out _ rfl⟩
theorem findIx_some {α : Type} {p : α → Bool} {l : List α} {i : Nat} {a : α} (h : findIx p l = some (i, a)) : a ∈ l ∧ p a = true := by
  have hfrom : ∀ (l : List α) (n : Nat), findIdxFrom p n l = some (i, a) → a ∈ l ∧ p a = true := by
    intro l
    induction l with
    | nil => exact fun n h => nomatch h
    | cons b l ih =>
      intro n h
      unfold findIdxFrom at h
      split at h
      · next hp =>
        obtain ⟨-, rfl⟩ := Prod.mk.inj (Option.some.inj h)
        exact ⟨List.mem_cons_self, hp⟩
      · obtain ⟨hm, hp⟩ := ih _ h
        exact ⟨List.mem_cons_of_mem _ hm, hp⟩
  exact hfrom l 0 h
theorem tokenSend_sent {s : Core} {l i : Nat} {k : Tok} (h : NoInjection s) (hup : s.linkUp l = true)
    (hk : findIx (fun k : Tok => k.sentAt.isNone) (s.ln l).tokens = some (i, k)) :
    let t := doTokenSend l s
    (t.ln l).tokens = lset (s.ln l).tokens i { k with sentAt := some s.etime } ∧
    (t.ln l).out = leaving l (tokenBlock k :: resumeBlocks (s.ln l).resume (t.ln l).tokens) ((s.openLink l).sendTimes l) ∧ t.regs = s.regs := by
  intro t
  have hflow := (s.openLink_flows l).trans (Core.sendTimes_flows ((s.openLink_flows l).idle h))
  obtain ⟨htok, hres⟩ := Core.sendTimes_kept (l := l) ((s.openLink_flows l).idle h)
  rw [Core.openLink, Core.ln_setLn] at htok hres
  change ((s.openLink l).sendTimes l |>.ln l).tokens = (s.ln l).tokens at htok
  change ((s.openLink l).sendTimes l |>.ln l).resume = (s.ln l).resume at hres
  have hwaits : (s.ln l).tokens.all (·.sentAt.isSome) = false := by
    obtain ⟨hm, hp⟩ := findIx_some hk
    refine Bool.eq_false_iff.2 fun hall => ?_
    have hs := List.all_eq_true.1 hall k hm
    rw [Option.isNone_iff_eq_none] at hp
    rw [hp] at hs
    exact absurd hs (by decide)
  have hdo : t = ((s.openLink l).sendTimes l).sendToken l := by
    unfold t doTokenSend
    rw [hup, hwaits, if_neg (by decide)]
  generalize (s.openLink l).sendTimes l = y at *
  clear_value t
  subst hdo
  have hset : Flows l s (y.setLn l { y.ln l with tokens := lset (y.ln l).tokens i { k with sentAt := some y.etime } }) := hflow.trans (.of_setLn y rfl)
  have hsend : y.sendToken l = ((y.setLn l { y.ln l with tokens := lset (y.ln l).tokens i { k with sentAt := some y.etime } }).sendMore l [tokenBlock k]).flushResume l := by
    unfold Core.sendToken
    dsimp only
    rw [show findIx (fun t : Tok => t.sentAt.isNone) (y.ln l).tokens = some (i, k) by rw [htok]; exact hk]
    dsimp only
    rw [Core.fwdUnit_plain (hset.idle h)]
  have hflow' := (hset.trans (Core.sendMore_flows _ l [tokenBlock k])).trans (Core.flushResume_flows _ l)
  obtain ⟨htok', hout⟩ := Core.flushResume_out ((y.setLn l { y.ln l with tokens := lset (y.ln l).tokens i { k with sentAt := some y.etime } }).sendMore l [tokenBlock k]) l
  have hz : ((y.setLn l { y.ln l with tokens := lset (y.ln l).tokens i { k with sentAt := some y.etime } }).sendMore l [tokenBlock k]).ln l =
      ({ y.ln l with tokens := lset (y.ln l).tokens i { k with sentAt := some y.etime } } : LinkSt).send [tokenBlock k] := by
    rw [Core.sendMore, Core.ln_setLn, Core.ln_setLn]
  rw [← hsend] at hflow' htok' hout
  rw [hz] at htok' hout
  have hrest := (LinkSt.send_sent ({ y.ln l with tokens := lset (y.ln l).tokens i { k with sentAt := some y.etime } } : LinkSt) [tokenBlock k]).rest
  have htoks : ((y.sendToken l).ln l).tokens = lset (s.ln l).tokens i { k with sentAt := some s.etime } := by
    rw [htok', hrest, htok, hflow.etime]
  refine ⟨htoks, ?_, hflow'.regs⟩
  have hres' : ((({ y.ln l with tokens := lset (y.ln l).tokens i { k with sentAt := some y.etime } } : LinkSt).send [tokenBlock k])).resume =
      (s.ln l).resume := by
    rw [hrest]
    exact hres
  rw [hout, ← htok', hres', leaving]
  exact LinkSt.send_out (tokenBlock k :: resumeBlocks (s.ln l).resume ((y.sendToken l).ln l).tokens) rfl
/-- What a time block that is due leaves. -/
theorem timeBlockSend_sent {s : Core} {l : Nat} (h : NoInjection s) (hst : s.linkState l = 4) (hrack : (s.ln l).rack = none) :
    let t := doTimeBlockSend l s
    t.etime = max s.etime ((s.ln l).lastTime + 10000) ∧
    (t.ln l).out = leaving l [timeBlock (t.etime + s.rd HLK_LAT.LAT_NS l)] (s.openLink l) ∧ t.regs = s.regs := by
  have hrun : s.linkRuns l = true := by
    rw [Core.linkRuns, hst]
    rfl
  obtain ⟨r, hr⟩ : ∃ r, r = s.reach ((s.ln l).lastTime + 10000) := ⟨_, rfl⟩
  have hrt : r.etime = max s.etime ((s.ln l).lastTime + 10000) := by rw [hr]; rfl
  have hrl : r.ln l = s.ln l := by rw [hr]; rfl
  have hrr : r.regs = s.regs := by rw [hr]; rfl
  have hri : NoInjection r := by rw [hr]; exact h
  have hdue : (r.etime - ((r.openLink l).ln l).lastTime) / 10000 ≠ 0 := by
    have hlast : ((r.openLink l).ln l).lastTime = (s.ln l).lastTime := by rw [Core.openLink, Core.ln_setLn, hrl]; rfl
    rw [hlast, hrt]
    have : 10000 ≤ max s.etime ((s.ln l).lastTime + 10000) - (s.ln l).lastTime := by omega
    omega
  have hflow := (r.openLink_flows l).trans (Core.sendTimes_flows ((r.openLink_flows l).idle hri))
  have hout : (((r.openLink l).sendTimes l).ln l).out = leaving l [timeBlock (r.etime + r.rd HLK_LAT.LAT_NS l)] (s.openLink l) := by
    unfold Core.sendTimes
    extract_lets x n
    have hn : n ≠ 0 := hdue
    have hset : Flows l r ((r.openLink l).setLn l { x with lastTime := x.lastTime + 10000 * n, fwd := x.fwd + (n - 1) }) :=
      (r.openLink_flows l).trans (.of_setLn _ rfl)
    have hstream : ({ x with lastTime := x.lastTime + 10000 * n, fwd := x.fwd + (n - 1) } : LinkSt).stream = ((s.openLink l).ln l).stream := by
      unfold x
      rw [Core.openLink, Core.ln_setLn, hrl, Core.openLink, Core.ln_setLn]
      rfl
    rw [if_neg hn, Core.fwdUnit_plain (hset.idle hri), Core.sendMore, Core.ln_setLn, Core.ln_setLn]
    exact LinkSt.send_out _ hstream
  have hnone : ((((r.openLink l).sendTimes l)).ln l).rack = none := by rw [hflow.record, hrl]; exact hrack
  have hdo : doTimeBlockSend l s = (r.openLink l).sendTimes l := by
    unfold doTimeBlockSend
    rw [hrun, if_neg (by decide), ← hr]
    exact Core.flushRack_none hnone
  rw [hdo]
  exact ⟨hflow.etime.trans hrt, by rw [hout, hflow.etime, Core.rd_congr hrr], hflow.regs.trans hrr⟩
theorem alignBlockSend_sent {s : Core} {l : Nat} (hrack : (s.ln l).rack = none) (htx : s.txOn l = true) :
    let t := doAlignBlockSend l s
    (t.ln l).out = [alignBlock, alignBlock] ∧ (t.ln l).aligned = max (s.ln l).pos ((s.ln l).aligned + 16384) ∧
    (t.ln l).pos = (t.ln l).aligned ∧ t.regs = s.regs := by
  obtain ⟨x, hx⟩ : ∃ x, x = ({ s.ln l with pos := max (s.ln l).pos ((s.ln l).aligned + 16384) } : LinkSt).fresh := ⟨_, rfl⟩
  have hpos : x.pos = max (s.ln l).pos ((s.ln l).aligned + 16384) := by rw [hx]; rfl
  have hout : x.out = [] := by rw [hx]; rfl
  have hxr : x.rack = none := by rw [hx]; exact hrack
  have hal := x.align_stream
  simp only [LinkSt.stream, Prod.mk.injEq] at hal
  obtain ⟨hap, haa, hao⟩ := hal
  have hdo : doAlignBlockSend l s = s.setLn l x.align := by
    unfold doAlignBlockSend
    rw [htx, if_neg (by decide)]
    dsimp only
    rw [← hx]
    exact Core.flushRack_none (by rw [Core.ln_setLn, x.align_sent.rest]; exact hxr)
  rw [hdo]
  dsimp only
  rw [Core.ln_setLn]
  exact ⟨by rw [hao, hout]; rfl, haa.trans hpos, hap.trans haa.symm, rfl⟩

/-- Two states that differ in registers alone, none of which the stream of link `l` reads. -/
structure Alike (l : Nat) (a b : Core) : Prop where
  rest : b = { a with regs := b.regs }
  lat : b.rd HLK_LAT.LAT_NS l = a.rd HLK_LAT.LAT_NS l
  idle : NoInjection a ∧ NoInjection b
theorem Alike.ln {l : Nat} {a b : Core} (h : Alike l a b) : b.ln l = a.ln l := by
  rw [h.rest]
  rfl
theorem Alike.etime {l : Nat} {a b : Core} (h : Alike l a b) : b.etime = a.etime := by rw [h.rest]
theorem Alike.setLn {l : Nat} {a b : Core} (h : Alike l a b) (x : LinkSt) : Alike l (a.setLn l x) (b.setLn l x) := by
  refine ⟨?_, h.lat, h.idle⟩
  conv_lhs => rw [h.rest]
  rfl
theorem Alike.sendMore {l : Nat} {a b : Core} (h : Alike l a b) (bs : List Bytes) : Alike l (a.sendMore l bs) (b.sendMore l bs) := by
  unfold Core.sendMore
  rw [h.ln]
  exact h.setLn _
theorem Alike.sendTimes {l : Nat} {a b : Core} (h : Alike l a b) : Alike l (a.sendTimes l) (b.sendTimes l) := by
  unfold Core.sendTimes
  rw [h.ln, h.etime, h.lat]
  extract_lets x n
  split
  · exact h
  · have hset := h.setLn { x with lastTime := x.lastTime + 10000 * n, fwd := x.fwd + (n - 1) }
    rw [Core.fwdUnit_plain hset.idle.1, Core.fwdUnit_plain hset.idle.2]
    exact hset.sendMore _
theorem Alike.sendToken {l : Nat} {a b : Core} (h : Alike l a b) : Alike l (a.sendToken l) (b.sendToken l) := by
  unfold Core.sendToken
  rw [h.ln, h.etime]
  extract_lets x
  split
  · exact h
  · next i t _ =>
    have hset := h.setLn { x with tokens := lset x.tokens i { t with sentAt := some a.etime } }
    dsimp only
    rw [Core.fwdUnit_plain hset.idle.1, Core.fwdUnit_plain hset.idle.2]
    have hsent := hset.sendMore [tokenBlock t]
    unfold Core.flushResume
    rw [hsent.ln]
    extract_lets y
    split
    · exact hsent
    · exact (hsent.setLn { y with resume := 0 }).sendMore _
theorem Alike.sendAhead {l : Nat} {a b : Core} (h : Alike l a b) (hrack : (a.ln l).rack = none) : Alike l (a.sendAhead l) (b.sendAhead l) := by
  have hfold : ∀ (ks : List Nat) (a b : Core), Alike l a b → Alike l (ks.foldl (fun s _ => s.sendToken l) a) (ks.foldl (fun s _ => s.sendToken l) b) := by
    intro ks
    induction ks with
    | nil => exact fun a b h => h
    | cons k ks ih => exact fun a b h => ih _ _ h.sendToken
  have hopen : Alike l ((a.openLink l).sendTimes l) ((b.openLink l).sendTimes l) := by
    unfold Core.openLink
    rw [h.ln]
    exact (h.setLn _).sendTimes
  rw [Core.sendAhead_noRack h.idle.1 hrack, Core.sendAhead_noRack h.idle.2 (by rw [h.ln]; exact hrack)]
  unfold Core.beforeRack
  rw [hopen.ln]
  exact hfold _ _ _ hopen

/-! ### Usage writes ask for their sideband (R443 to R445) -/

/-- A request of the one head of the link whose usage write waits. -/
theorem doSidebandRequest_eq {s : Core} {l h a x : Nat} {w : UsageWrite} {wr : Bool} (hup : s.linkUp l = true) (hpf : s.rd PWR_SUPPLY.PF = 0)
    (hheads : s.headsOn l = [h]) (hsb : (s.ln l).sb = []) (hw : (s.hr h).write = some w) (hn : w.next = some (wr, a, x)) :
    doSidebandRequest l s = if wr = true ∧ s.writeTempOk h = false then s.wr HLK_SLOT_USAGE.DEFERRED 1 h
      else (s.wr HLK_SLOT_USAGE.DEFERRED 0 h).sendSb l ⟨0, h % 8, wr, a, x, 0, 0⟩ := by
  have hpf' : s.rdb PWR_SUPPLY.PF = false := Core.rdb_eq_false hpf
  unfold doSidebandRequest
  rw [hup, if_neg (by decide), hpf', if_neg (by decide)]
  dsimp only
  rw [hheads, hsb]
  simp only [List.filterMap_cons, List.filterMap_nil, List.any_nil, Bool.false_eq_true, if_false, hw, Option.bind_some, hn, Option.map_some]
  have htid : List.find? (fun _ => !false) (List.range 8) = some 0 := rfl
  by_cases hheld : wr = true ∧ s.writeTempOk h = false
  · rw [if_pos hheld, List.filter_cons_of_pos (by rw [hheld.1, hheld.2]; rfl)]
    simp only [List.filter_nil, List.map_cons, List.map_nil, List.foldl_cons, List.foldl_nil]
    rw [List.find?_cons_of_neg (by simp)]
    rfl
  · rw [if_neg hheld, List.filter_cons_of_neg (by simpa using hheld), htid]
    rfl
theorem slotKey_facts : ∀ h : Fin 192, HLK_SLOT_USAGE.DEFERRED.key h.val ≠ HLK_LAT.LAT_NS.key (h.val / 8) ∧
    HLK_SLOT_USAGE.DEFERRED.key h.val ≠ HLK_STATUS.STATE.key (h.val / 8) ∧ HLK_SLOT_USAGE.DEFERRED.key h.val ≠ FIJ_STATUS.ARMED.key 0 := by decide +kernel
theorem sidebandRequest_sent {s : Core} {l h a x : Nat} {w : UsageWrite} {wr : Bool} (hl : l < 24) (hi : NoInjection s) (hst : s.linkState l = 4)
    (hpf : s.rd PWR_SUPPLY.PF = 0) (hheads : s.headsOn l = [h]) (hsb : (s.ln l).sb = []) (hw : (s.hr h).write = some w)
    (hn : w.next = some (wr, a, x)) (hrack : (s.ln l).rack = none) :
    let t := doSidebandRequest l s
    let due := (s.ln l).sbAt.elim 0 (· + 1000)
    (if wr = true ∧ s.writeTempOk h = false then (t.ln l).sb = [] ∧ t.rd HLK_SLOT_USAGE.DEFERRED h = 1
      else t.etime = max s.etime due ∧ (t.ln l).sb = [⟨0, h % 8, wr, a, x, 0, t.etime⟩] ∧
        (t.ln l).out = leaving l [sbBlock ⟨0, h % 8, wr, a, x, 0, t.etime⟩] ((s.reach due).sendAhead l) ∧
        t.rd HLK_SLOT_USAGE.DEFERRED h = 0) ∧
    SameRegs [HLK_SLOT_USAGE.DEFERRED.key h] s t := by
  intro t due
  have hup : s.linkUp l = true := by rw [Core.linkUp, hst]; rfl
  have hm : h ∈ s.headsOn l := by rw [hheads]; exact List.mem_cons_self
  have hh : h < 192 := headsOn_lt hl hm
  obtain rfl : h / 8 = l := headsOn_div hm
  obtain ⟨hlat, hstate, harmed⟩ := slotKey_facts ⟨h, hh⟩
  have hdo : t = _ := doSidebandRequest_eq hup hpf hheads hsb hw hn
  clear_value t
  subst hdo
  split
  · refine ⟨⟨hsb, Core.rd_wr ..⟩, (SameRegs.refl _ s).wr _ List.mem_cons_self⟩
  · have hz : (s.wr HLK_SLOT_USAGE.DEFERRED 0 h).rd HLK_SLOT_USAGE.DEFERRED h = 0 := Core.rd_wr ..
    have hzr : SameRegs [HLK_SLOT_USAGE.DEFERRED.key h] s (s.wr HLK_SLOT_USAGE.DEFERRED 0 h) := (SameRegs.refl _ s).wr _ List.mem_cons_self
    have hzrest : s.wr HLK_SLOT_USAGE.DEFERRED 0 h = { s with regs := (s.wr HLK_SLOT_USAGE.DEFERRED 0 h).regs } := rfl
    generalize s.wr HLK_SLOT_USAGE.DEFERRED 0 h = z at *
    have hzi : NoInjection z := by
      unfold NoInjection at hi ⊢
      rw [hzr _ _ (by simpa using harmed.symm), show z.fij = s.fij by rw [hzrest]]
      exact hi
    have hzup : z.linkUp (h / 8) = true := by rw [← hup, Core.linkUp, Core.linkUp, Core.linkState, Core.linkState, hzr _ _ (by simpa using hstate.symm)]
    have hzl : z.ln (h / 8) = s.ln (h / 8) := by rw [hzrest]; rfl
    have hsent := Core.sendSb_sent ⟨0, h % 8, wr, a, x, 0, 0⟩ hzi hzup (by rw [hzl]; exact hrack)
    have halike : Alike (h / 8) (s.reach due) (z.reach due) := by
      refine ⟨?_, hzr _ _ (by simpa using hlat.symm), hi, hzi⟩
      conv_lhs => rw [hzrest]
      rfl
    have htime : z.etime = s.etime := by rw [hzrest]
    obtain ⟨-, hst', hsb', hout'⟩ := id hsent
    rw [hzl] at hst' hsb' hout'
    refine ⟨⟨by rw [hst', htime], ?_, ?_, (Core.rd_congr hsent.regs _ _).trans hz⟩, hzr.trans (.of_regs hsent.regs)⟩
    · rw [hsb', hsb]
      rfl
    · rw [hout', leaving, (halike.sendAhead hrack).ln]
      rfl

theorem sbRespReceive_taken {s : Core} {l tid : Nat} {data : Bytes} {q : SbReq} {w : UsageWrite} (hst : s.linkState l = 4)
    (hq : (s.ln l).sb.find? (·.tid == tid) = some q) (hqw : q.write = true) (hw : (s.hr (8 * l + q.target)).write = some w)
    (hz : zeroAt data 4 8 = true) :
    let t := doSbRespReceive l tid 0 data s
    (t.ln l).sb = dropFirst (· == q) (s.ln l).sb ∧
    (t.hr (8 * l + q.target)).write =
      some { w with done := w.done + 1, outcome := if 16 ≤ w.done + 1 ∧ w.powerFail = true then 1 else w.outcome } ∧ t.regs = s.regs := by
  have hup : s.linkUp l = true := by rw [Core.linkUp, hst]; rfl
  unfold doSbRespReceive
  rw [if_pos hup]
  have hheard : (s.heard l).ln l = { s.ln l with lastMsg := s.etime, ret := (s.ln l).ret + 1 } := Core.ln_setLn ..
  have hhr : (s.heard l).hr = s.hr := rfl
  have hregs : (s.heard l).regs = s.regs := rfl
  generalize s.heard l = y at *
  have hq' : (y.ln l).sb.find? (·.tid == tid) = some q := by rw [hheard]; exact hq
  have hsb : (y.ln l).sb = (s.ln l).sb := by rw [hheard]
  unfold Core.onSbResp
  dsimp only
  rw [hq']
  dsimp only
  rw [hqw, hz, if_neg (by decide), if_neg (by decide), if_pos rfl, hsb]
  unfold Core.modWrite
  have hset : ∀ x : LinkSt, (y.setLn l x).hr (8 * l + q.target) = s.hr (8 * l + q.target) := fun x => congrFun hhr _
  rw [hset, hw]
  refine ⟨congrArg LinkSt.sb (Core.ln_setLn y l _), ?_, hregs⟩
  unfold Core.hr Core.setHr
  rw [mget_mset]
  rfl
theorem Core.usageNow_congr {a b : Core} {h : Nat} (hr : (b.hr h).usage = (a.hr h).usage ∧ (b.hr h).fireNs = (a.hr h).fireNs ∧
    (b.hr h).baseStrobes = (a.hr h).baseStrobes ∧ (b.hr h).baseDrops = (a.hr h).baseDrops)
    (hregs : ∀ f ∈ [HDC_STROBED_LO.COUNT, HDC_STROBED_HI.COUNT, HDC_DROPS_LO.COUNT, HDC_DROPS_HI.COUNT], b.rd f h = a.rd f h) :
    b.usageNow h = a.usageNow h := by
  obtain ⟨h1, h2, h3, h4⟩ := hr
  unfold Core.usageNow Core.unwritten Core.rd2
  dsimp only
  rw [h1, h2, h3, h4, hregs HDC_STROBED_LO.COUNT (by decide), hregs HDC_STROBED_HI.COUNT (by decide), hregs HDC_DROPS_LO.COUNT (by decide),
    hregs HDC_DROPS_HI.COUNT (by decide)]
theorem Core.hr_setHr (s : Core) (h : Nat) (x : HeadRec) : (s.setHr h x).hr h = x := mget_mset _ _ _ _
theorem Core.countFire_hr (s : Core) (h : Nat) : (s.countFire h).regs = s.regs ∧ (s.countFire h).etime = s.etime ∧
    (s.countFire h).hr h = { s.hr h with fireNs := ((s.countFire h).hr h).fireNs, countAt := ((s.countFire h).hr h).countAt } := by
  unfold Core.countFire
  split
  · exact ⟨rfl, rfl, rfl⟩
  · exact ⟨rfl, rfl, by rw [Core.hr_setHr]⟩
/-- The time that a head has fired for depends on what counts it alone. -/
theorem Core.countFire_congr {a b : Core} {h : Nat} (hregs : b.regs = a.regs) (hpress : b.press = a.press) (htime : b.etime = a.etime)
    (hat : (b.hr h).countAt = (a.hr h).countAt) (hfire : (b.hr h).fireNs = (a.hr h).fireNs) :
    ((b.countFire h).hr h).fireNs = ((a.countFire h).hr h).fireNs := by
  have hatt : b.attached h = a.attached h := by unfold Core.attached Core.headState; rw [Core.rd_congr hregs]
  have hcause : b.causes (b.barOf h) = a.causes (a.barOf h) := by
    unfold Core.causes Core.barOf Core.segBar
    rw [Core.rd_congr hregs, hpress]
  unfold Core.countFire
  rw [hatt]
  split
  · exact hfire
  · rw [Core.hr_setHr, Core.hr_setHr, hcause, htime, hat, hfire]
/-- The record of the write that begins now. -/
theorem Core.beginUsage_begun (s : Core) {h : Nat} (hh : h < 192) (pf : Bool) :
    ((s.beginUsage h pf).hr h).write = some ⟨1 - (s.hr h).copy, usageBytes ((s.hr h).serial.getD 0) ((s.countFire h).usageNow h), 0, [], pf, 0, 0⟩ ∧
    SameRegs [HLK_SLOT_USAGE.DEFERRED.key h] s (s.beginUsage h pf) ∧ (s.beginUsage h pf).etime = s.etime := by
  obtain ⟨hregs, htime, hhr⟩ := s.countFire_hr h
  unfold Core.beginUsage
  have hz : SameRegs [HLK_SLOT_USAGE.DEFERRED.key h] (s.countFire h) ((s.countFire h).wr HLK_SLOT_USAGE.DEFERRED 0 h) := (SameRegs.refl _ _).wr _ List.mem_cons_self
  have hzh : ((s.countFire h).wr HLK_SLOT_USAGE.DEFERRED 0 h).hr h = (s.countFire h).hr h := rfl
  have hzt : ((s.countFire h).wr HLK_SLOT_USAGE.DEFERRED 0 h).etime = (s.countFire h).etime := rfl
  have hu : ((s.countFire h).wr HLK_SLOT_USAGE.DEFERRED 0 h).usageNow h = (s.countFire h).usageNow h :=
    Core.usageNow_congr ⟨rfl, rfl, rfl, rfl⟩ fun f hf => hz f h (by
      simpa using (by decide +kernel : ∀ h : Fin 192, ∀ f ∈ [HDC_STROBED_LO.COUNT, HDC_STROBED_HI.COUNT, HDC_DROPS_LO.COUNT, HDC_DROPS_HI.COUNT],
        f.key h.val ≠ HLK_SLOT_USAGE.DEFERRED.key h.val) ⟨h, hh⟩ f hf)
  generalize (s.countFire h).wr HLK_SLOT_USAGE.DEFERRED 0 h = z at *
  dsimp only
  rw [Core.hr_setHr, hu, hzh, hhr]
  exact ⟨rfl, ((SameRegs.of_regs hregs).trans hz).trans (.of_regs rfl), hzt.trans htime⟩
/-- The next 60 s since the attach of a head are over (R444). -/
theorem usageRecordWrite_begun {s : Core} {h : Nat} (hh : h < 192) (hst : s.linkState (h / 8) = 4) (hatt : s.attached h = true)
    (hpf : s.rd PWR_SUPPLY.PF = 0) (hw : (s.hr h).write = none) (hdef : s.rd HLK_SLOT_USAGE.DEFERRED h = 0) :
    let t := doUsageRecordWrite h s
    t.etime = max s.etime ((s.hr h).attachedAt + 60000000000 * ((s.hr h).periods + 1)) ∧
    (if s.writeTempOk h = true then
      (t.hr h).write = some ⟨1 - (s.hr h).copy, usageBytes ((s.hr h).serial.getD 0)
        (({ s with etime := t.etime } : Core).countFire h |>.usageNow h), 0, [], false, 0, 0⟩
    else (t.hr h).write = none ∧ t.rd HLK_SLOT_USAGE.DEFERRED h = 1) ∧
    SameRegs [HLK_SLOT_USAGE.DEFERRED.key h] s t := by
  intro t
  obtain ⟨T, hT⟩ : ∃ T, T = (s.hr h).attachedAt + 60000000000 * ((s.hr h).periods + 1) := ⟨_, rfl⟩
  rw [← hT]
  have hup : s.linkUp (h / 8) = true := by rw [Core.linkUp, hst]; rfl
  obtain ⟨p, hp⟩ : ∃ p, p = ((s.reach T).etime - (s.hr h).attachedAt) / 60000000000 := ⟨_, rfl⟩
  have hdo : t = if ((s.reach T).setHr h { s.hr h with periods := p }).writeTempOk h then ((s.reach T).setHr h { s.hr h with periods := p }).beginUsage h false
      else ((s.reach T).setHr h { s.hr h with periods := p }).wr HLK_SLOT_USAGE.DEFERRED 1 h := by
    unfold t doUsageRecordWrite
    dsimp only
    rw [if_neg (by simp [hatt, hup, Core.rdb_eq_false hpf, hw]), if_neg (by simp [Core.rdb_eq_false hdef]), ← hT, hp]
    rfl
  clear_value t
  have hzh : ((s.reach T).setHr h { s.hr h with periods := p }).hr h = { s.hr h with periods := p } := Core.hr_setHr ..
  have hzr : ((s.reach T).setHr h { s.hr h with periods := p }).regs = s.regs := rfl
  have hzt : ((s.reach T).setHr h { s.hr h with periods := p }).etime = max s.etime T := rfl
  have hzp : ((s.reach T).setHr h { s.hr h with periods := p }).press = s.press := rfl
  have hzm : ((s.reach T).setHr h { s.hr h with periods := p }).thm = s.thm := rfl
  generalize (s.reach T).setHr h { s.hr h with periods := p } = z at *
  have htemp : z.writeTempOk h = s.writeTempOk h := by
    unfold Core.writeTempOk Core.headDec Core.rdb
    rw [Core.rd_congr hzr, hzh, hzm]
  rw [htemp] at hdo
  split
  · next hok =>
    rw [if_pos hok] at hdo
    obtain ⟨hwrite, hregs, htime⟩ := z.beginUsage_begun hh false
    rw [hdo, htime, hzt]
    refine ⟨rfl, ?_, (SameRegs.of_regs hzr).trans hregs⟩
    obtain ⟨hzcr, -, hzc⟩ := z.countFire_hr h
    obtain ⟨hscr, -, hsc⟩ := ({ s with etime := max s.etime T } : Core).countFire_hr h
    have hfire : ((z.countFire h).hr h).fireNs = ((({ s with etime := max s.etime T } : Core).countFire h).hr h).fireNs :=
      Core.countFire_congr hzr hzp hzt (by rw [hzh]; rfl) (by rw [hzh]; rfl)
    have hnow : (z.countFire h).usageNow h = (({ s with etime := max s.etime T } : Core).countFire h).usageNow h := by
      refine Core.usageNow_congr ⟨?_, hfire, ?_, ?_⟩ fun f _ => ?_
      · rw [hzc, hsc, hzh]
        rfl
      · rw [hzc, hsc, hzh]
        rfl
      · rw [hzc, hsc, hzh]
        rfl
      · exact Core.rd_congr ((hzcr.trans hzr).trans hscr.symm) _ _
    rw [hwrite, hzh, hnow]
  · next hok =>
    rw [if_neg hok] at hdo
    rw [hdo]
    refine ⟨hzt, ⟨?_, Core.rd_wr ..⟩, ((SameRegs.of_regs hzr).wr _ List.mem_cons_self)⟩
    change (z.hr h).write = none
    rw [hzh]
    exact hw

theorem usageWriteEnd_success {s : Core} {h : Nat} {w : UsageWrite} (hh : h < 192) (hw : (s.hr h).write = some w) (ho : w.outcome = 1) :
    let t := doUsageWriteEnd h s
    (t.hr h).write = none ∧ (t.hr h).copy = w.copy ∧ (t.hr h).writtenAt = s.etime ∧ t.rd HLK_SLOT_USAGE.AGE_S h = 0 ∧
    t.rd HLK_SLOT_USAGE.FAILED h = 0 ∧
    SameRegs [HLK_SLOT_USAGE.DEFERRED.key h, HLK_SLOT_USAGE.AGE_S.key h, HLK_SLOT_USAGE.FAILED.key h] s t := by
  have hne := (by decide +kernel : ∀ h : Fin 192, HLK_SLOT_USAGE.AGE_S.key h.val ≠ HLK_SLOT_USAGE.FAILED.key h.val) ⟨h, hh⟩
  unfold doUsageWriteEnd
  dsimp only
  rw [hw]
  dsimp only
  rw [if_neg (by omega), if_pos ho]
  have hz : SameRegs [HLK_SLOT_USAGE.DEFERRED.key h] s (s.wr HLK_SLOT_USAGE.DEFERRED 0 h) := (SameRegs.refl _ s).wr _ List.mem_cons_self
  have hzt : (s.wr HLK_SLOT_USAGE.DEFERRED 0 h).etime = s.etime := rfl
  generalize s.wr HLK_SLOT_USAGE.DEFERRED 0 h = z at *
  generalize hx : ({ s.hr h with
    write := none, usage := { usageOf w.bytes with tPeak := max (usageOf w.bytes).tPeak (s.hr h).usage.tPeak }, copy := w.copy
    baseStrobes := ((s.hr h).baseStrobes + (usageOf w.bytes).strobes - (s.hr h).usage.strobes) % 2 ^ 64
    baseDrops := ((s.hr h).baseDrops + (usageOf w.bytes).drops - (s.hr h).usage.drops) % 2 ^ 64
    fireNs := (s.hr h).fireNs - 1000000000 * ((usageOf w.bytes).fireS - (s.hr h).usage.fireS), writtenAt := z.etime } : HeadRec) = x
  have hrec : ((z.setHr h x).wrs [(HLK_SLOT_USAGE.AGE_S, 0), (HLK_SLOT_USAGE.FAILED, 0)] h).hr h = x := (Core.hr_setHr z h x :)
  refine ⟨by rw [hrec, ← hx], by rw [hrec, ← hx], by rw [hrec, ← hx]; exact hzt, ?_, Core.rd_wr .., ?_⟩
  · exact (Core.rd_wr_ne _ _ _ _ _ _ hne).trans (Core.rd_wr ..)
  · exact (((hz.mono (by simp)).trans (.of_regs rfl)).wr _ (by simp)).wr _ (by simp)
theorem usageWriteEnd_failure {s : Core} {h : Nat} {w : UsageWrite} (hh : h < 192) (hw : (s.hr h).write = some w) (ho : w.outcome = 2) :
    let t := doUsageWriteEnd h s
    (t.hr h).write = none ∧ (t.hr h).copy = (s.hr h).copy ∧ t.rd HLK_SLOT_USAGE.FAILED h = 1 ∧
    s.Raised t 0x090B ((h + at_ 1 w.result) % 2 ^ 128) ∧
    SameRegs [HLK_SLOT_USAGE.DEFERRED.key h, HLK_SLOT_USAGE.FAILED.key h, LOG_EVT_OVWR_CNT.COUNT.key 0] s t := by
  have hfree := (by decide +kernel : ∀ h : Fin 192, HLK_SLOT_USAGE.FAILED.key h.val ≠ LOG_EVT_OVWR_CNT.COUNT.key 0) ⟨h, hh⟩
  unfold doUsageWriteEnd
  dsimp only
  rw [hw]
  dsimp only
  rw [if_neg (by omega), if_neg (by omega)]
  have hdef : SameRegs [HLK_SLOT_USAGE.DEFERRED.key h, HLK_SLOT_USAGE.FAILED.key h] s (s.wr HLK_SLOT_USAGE.DEFERRED 0 h) :=
    (SameRegs.refl _ s).wr _ (by simp)
  have hz : SameRegs [HLK_SLOT_USAGE.DEFERRED.key h, HLK_SLOT_USAGE.FAILED.key h] s
      (((s.wr HLK_SLOT_USAGE.DEFERRED 0 h).setHr h { s.hr h with write := none }).wr HLK_SLOT_USAGE.FAILED 1 h) :=
    (hdef.trans (.of_regs rfl)).wr _ (by simp)
  have hfail : (((s.wr HLK_SLOT_USAGE.DEFERRED 0 h).setHr h { s.hr h with write := none }).wr HLK_SLOT_USAGE.FAILED 1 h).rd HLK_SLOT_USAGE.FAILED h = 1 := Core.rd_wr ..
  have hrec : (((s.wr HLK_SLOT_USAGE.DEFERRED 0 h).setHr h { s.hr h with write := none }).wr HLK_SLOT_USAGE.FAILED 1 h).hr h =
      { s.hr h with write := none } := (Core.hr_setHr (s.wr HLK_SLOT_USAGE.DEFERRED 0 h) h _ :)
  have hcq : (((s.wr HLK_SLOT_USAGE.DEFERRED 0 h).setHr h { s.hr h with write := none }).wr HLK_SLOT_USAGE.FAILED 1 h).cmdq = s.cmdq := rfl
  have htck : (((s.wr HLK_SLOT_USAGE.DEFERRED 0 h).setHr h { s.hr h with write := none }).wr HLK_SLOT_USAGE.FAILED 1 h).tck = s.tck := rfl
  generalize ((s.wr HLK_SLOT_USAGE.DEFERRED 0 h).setHr h { s.hr h with write := none }).wr HLK_SLOT_USAGE.FAILED 1 h = z at *
  have hhr : (z.emit 0x090B (h + at_ 1 w.result)).hr h = z.hr h := by rw [Core.hr, Core.emit_hlk, Core.hr]
  refine ⟨by rw [hhr, hrec], by rw [hhr, hrec], (Core.rd_emit_ne _ _ _ _ _ _ hfree).trans hfail,
    Core.raised_emit_mod _ _ hcq (by rw [htck]), SameRegs.emit (hz.mono ?_) _ _ _ ?_⟩
  · simp
  · simp

/-! ### Return messages (R423 to R425, R432, R436) -/

theorem Core.heard_ln (s : Core) (l : Nat) : (s.heard l).ln l = { s.ln l with lastMsg := s.etime, ret := (s.ln l).ret + 1 } := Core.ln_setLn ..
theorem Core.heard_within (s : Core) (l : Nat) : Within [] [.hlk] s (s.heard l) := s.setLn_within l _
/-- A RACK is owed on a link where none waits and that it does not lose. -/
structure RackOwed (l : Nat) (nak : Bool) (y o : Core) : Prop where
  record : o.ln l = { y.ln l with rack := (o.ln l).rack, rackAt := (o.ln l).rackAt, nakRun := (o.ln l).nakRun, fwd := (o.ln l).fwd, out := (o.ln l).out
                                  pos := (o.ln l).pos, aligned := (o.ln l).aligned, scrA := (o.ln l).scrA, scrB := (o.ln l).scrB, wire := (o.ln l).wire }
  rack : (o.ln l).rack = if y.rackDue l then none else some nak
  out : (o.ln l).out = if y.rackDue l then ((y.ln l).send [rackBlock (if nak then (y.ln l).rxSeq else ((y.ln l).rxSeq + 255) % 256) nak]).out else (y.ln l).out
  nakRun : (o.ln l).nakRun = (y.ln l).nakRun + if nak ∧ y.rackDue l then 1 else 0
  regs : SameRegs [HLK_REPLAY_CNT.COUNT.key l] y o
  plain : nak = false → o.regs = y.regs
  parts : Touches [.hlk] y o
theorem Core.oweRack_owed {y : Core} {l : Nat} {nak : Bool} (h : NoInjection y) (hrack : (y.ln l).rack = none) (hrun : nak = true → (y.ln l).nakRun < 3) :
    RackOwed l nak y (y.oweRack l nak) := by
  have hbit : ((y.ln l).rack == some true) = false := by rw [hrack]; rfl
  unfold Core.oweRack
  rw [hbit, Bool.or_false]
  by_cases hdue : y.rackDue l
  · rw [if_pos hdue]
    unfold Core.sendRack
    dsimp only
    generalize hr : ({ y.ln l with rack := none, rackAt := some y.etime, nakRun := if nak then (y.ln l).nakRun + 1 else (y.ln l).nakRun } : LinkSt) = r
    have hsend : (y.setLn l r).fwdUnit l 0x66 [rackBlock (if nak then (y.ln l).rxSeq else ((y.ln l).rxSeq + 255) % 256) nak] =
        (y.setLn l r).sendMore l [rackBlock (if nak then (y.ln l).rxSeq else ((y.ln l).rxSeq + 255) % 256) nak] := Core.fwdUnit_plain (s := y.setLn l r) h _ _ _
    rw [hsend]
    have hln : ((y.setLn l r).sendMore l [rackBlock (if nak then (y.ln l).rxSeq else ((y.ln l).rxSeq + 255) % 256) nak]).ln l =
        r.send [rackBlock (if nak then (y.ln l).rxSeq else ((y.ln l).rxSeq + 255) % 256) nak] := by
      rw [Core.sendMore, Core.ln_setLn, Core.ln_setLn]
    have hout : (r.send [rackBlock (if nak then (y.ln l).rxSeq else ((y.ln l).rxSeq + 255) % 256) nak]).out =
        ((y.ln l).send [rackBlock (if nak then (y.ln l).rxSeq else ((y.ln l).rxSeq + 255) % 256) nak]).out := LinkSt.send_out _ (by rw [← hr]; rfl)
    have hrest := (LinkSt.send_sent r [rackBlock (if nak then (y.ln l).rxSeq else ((y.ln l).rxSeq + 255) % 256) nak]).rest
    have hparts : Touches [.hlk] y ((y.setLn l r).sendMore l [rackBlock (if nak then (y.ln l).rxSeq else ((y.ln l).rxSeq + 255) % 256) nak]) :=
      ((y.setLn_within l r).parts.mono (by decide)).trans (Core.sendMore_flows _ _ _).touches
    have hregs : ((y.setLn l r).sendMore l [rackBlock (if nak then (y.ln l).rxSeq else ((y.ln l).rxSeq + 255) % 256) nak]).regs = y.regs := rfl
    generalize (y.setLn l r).sendMore l [rackBlock (if nak then (y.ln l).rxSeq else ((y.ln l).rxSeq + 255) % 256) nak] = u at *
    generalize r.send [rackBlock (if nak then (y.ln l).rxSeq else ((y.ln l).rxSeq + 255) % 256) nak] = v at *
    have hv : RackOwed l nak y u := by
      refine ⟨?_, ?_, ?_, ?_, .of_regs hregs, fun _ => hregs, hparts⟩
      · rw [hln, hrest, ← hr]
      · rw [hln, hrest, ← hr, if_pos hdue]
      · rw [hln, hout, if_pos hdue]
      · rw [hln, hrest, ← hr]
        cases nak <;> simp [hdue]
    cases nak with
    | false => exact hv
    | true =>
      have hrun' := hrun rfl
      simp only [Bool.not_true, Bool.false_eq_true, if_false]
      rw [if_neg (by omega)]
      have hincl : (u.inc HLK_REPLAY_CNT.COUNT l).ln l = u.ln l := rfl
      have hincr : SameRegs [HLK_REPLAY_CNT.COUNT.key l] y (u.inc HLK_REPLAY_CNT.COUNT l) := hv.regs.inc 1 (List.mem_singleton.2 rfl)
      have hincp : Touches [.hlk] y (u.inc HLK_REPLAY_CNT.COUNT l) := hparts.trans ((Touches.wr _ _ _ _).mono (by simp))
      generalize u.inc HLK_REPLAY_CNT.COUNT l = z at *
      exact ⟨by rw [hincl]; exact hv.record, by rw [hincl]; exact hv.rack, by rw [hincl]; exact hv.out, by rw [hincl]; exact hv.nakRun, hincr,
        fun h => (nomatch h), hincp⟩
  · rw [if_neg hdue]
    have hln : (y.setLn l { y.ln l with rack := some nak }).ln l = { y.ln l with rack := some nak } := Core.ln_setLn ..
    have hpart := y.setLn_within l { y.ln l with rack := some nak }
    have hregs : (y.setLn l { y.ln l with rack := some nak }).regs = y.regs := rfl
    generalize y.setLn l { y.ln l with rack := some nak } = u at *
    refine ⟨by rw [hln], by rw [hln, if_neg hdue], by rw [hln, if_neg hdue], ?_, .of_regs hregs, fun _ => hregs, hpart.parts.mono (by decide)⟩
    rw [hln]
    simp [hdue]

/-- FREED of a slot as it comes, where it moves no further than SENT (R432). -/
theorem Core.takeFreed_ok {s : Core} {h freed : Nat} (hok : FreedOk h freed s) : s.takeFreed h freed = some (s.wr HLK_SLOT_CRED.FREED freed h) := if_pos hok
theorem FreedOk.congr {a b : Core} {h freed : Nat} (hok : FreedOk h freed a) (hregs : b.regs = a.regs) : FreedOk h freed b := by
  unfold FreedOk at *
  rw [Core.rd_congr hregs, Core.rd_congr hregs]
  exact hok
theorem freedKey_facts : ∀ h : Fin 192, HLK_SLOT_CRED.FREED.key h.val ≠ HLK_FRAME_NAK_CNT.COUNT.key (h.val / 8) ∧
    HLK_SLOT_CRED.FREED.key h.val ≠ LOG_EVT_OVWR_CNT.COUNT.key 0 ∧ HLK_FRAME_NAK_CNT.COUNT.key (h.val / 8) ≠ LOG_EVT_OVWR_CNT.COUNT.key 0 := by
  decide +kernel
/-- A FRAME_NAK of a slot whose FREED is in order. -/
theorem Core.onFrameNak_noted {y : Core} {l slot freed : Nat} (hl : l < 24) (hs : slot < 8) (hslot : slot < y.slotsOf l) (hok : FreedOk (8 * l + slot) freed y)
    (hfreed : freed < 65536) (reason : Nat) :
    let t := y.onFrameNak l slot reason freed
    t.rd HLK_SLOT_CRED.FREED (8 * l + slot) = freed ∧ t.rd HLK_FRAME_NAK_CNT.COUNT l = satU 32 (y.rd HLK_FRAME_NAK_CNT.COUNT l + 1) ∧
    SameRegs [HLK_SLOT_CRED.FREED.key (8 * l + slot), HLK_FRAME_NAK_CNT.COUNT.key l, LOG_EVT_OVWR_CNT.COUNT.key 0] y t ∧
    Touches [.limits, .cmdq] y t := by
  obtain ⟨h1, h2, h3⟩ := freedKey_facts ⟨8 * l + slot, by omega⟩
  simp only [show (8 * l + slot) / 8 = l by omega] at h1 h3
  unfold Core.onFrameNak
  dsimp only
  rw [if_neg (by omega), Core.takeFreed_ok hok]
  dsimp only
  have hw : SameRegs [HLK_SLOT_CRED.FREED.key (8 * l + slot)] y (y.wr HLK_SLOT_CRED.FREED freed (8 * l + slot)) := (SameRegs.refl _ y).wr _ List.mem_cons_self
  have hwf : (y.wr HLK_SLOT_CRED.FREED freed (8 * l + slot)).rd HLK_SLOT_CRED.FREED (8 * l + slot) = freed := by
    rw [Core.rd_wr]
    exact Nat.mod_eq_of_lt hfreed
  have hwp := Touches.wr y HLK_SLOT_CRED.FREED freed (8 * l + slot)
  generalize y.wr HLK_SLOT_CRED.FREED freed (8 * l + slot) = w at *
  have hi : SameRegs [HLK_FRAME_NAK_CNT.COUNT.key l] w (w.inc HLK_FRAME_NAK_CNT.COUNT l) := (SameRegs.refl _ w).inc _ List.mem_cons_self
  have hic : (w.inc HLK_FRAME_NAK_CNT.COUNT l).rd HLK_FRAME_NAK_CNT.COUNT l = satU 32 (w.rd HLK_FRAME_NAK_CNT.COUNT l + 1) := Core.rd_inc_self ..
  have hip := Touches.wr w HLK_FRAME_NAK_CNT.COUNT (satU HLK_FRAME_NAK_CNT.COUNT.width (w.rd HLK_FRAME_NAK_CNT.COUNT l + 1)) l
  change Touches [] w (w.inc HLK_FRAME_NAK_CNT.COUNT l) at hip
  generalize w.inc HLK_FRAME_NAK_CNT.COUNT l = v at *
  have he : SameRegs [LOG_EVT_OVWR_CNT.COUNT.key 0] v (v.emitLim 0x0905 l fun n => 8 * l + slot + at_ 1 reason + at_ 4 n) :=
    SameRegs.emitEvery (SameRegs.refl _ v) _ _ _ _ (by simp)
  have hep : Touches [.limits, .cmdq] v (v.emitLim 0x0905 l fun n => 8 * l + slot + at_ 1 reason + at_ 4 n) :=
    ((Within.refl [0x1B] [.limits, .cmdq] v).emitLim _ _ _).parts
  generalize (v.emitLim 0x0905 l fun n => 8 * l + slot + at_ 1 reason + at_ 4 n) = t at *
  refine ⟨?_, ?_, ((hw.mono ?_).trans (hi.mono ?_)).trans (he.mono ?_), ((hwp.mono (by simp)).trans (hip.mono (by simp))).trans hep⟩
  · exact (he _ _ (by simpa using h2)).trans ((hi _ _ (by simpa using h1)).trans hwf)
  · rw [he _ _ (by simpa using h3), hic, hw _ _ (by simpa using Ne.symm h1)]
  · simp
  · simp
  · simp

theorem hlFrameNak_noted {s : Core} {l slot freed : Nat} (hl : l < 24) (hs : slot < 8) (hst : s.linkState l = 4) (hslot : slot < s.slotsOf l)
    (hok : FreedOk (8 * l + slot) freed s) (hfreed : freed < 65536) (reason : Nat) :
    let t := doHlFrameNak l slot reason freed s
    t.rd HLK_SLOT_CRED.FREED (8 * l + slot) = freed ∧ t.rd HLK_FRAME_NAK_CNT.COUNT l = satU 32 (s.rd HLK_FRAME_NAK_CNT.COUNT l + 1) ∧
    SameRegs [HLK_SLOT_CRED.FREED.key (8 * l + slot), HLK_FRAME_NAK_CNT.COUNT.key l, LOG_EVT_OVWR_CNT.COUNT.key 0] s t := by
  have hup : s.linkUp l = true := by rw [Core.linkUp, hst]; rfl
  have hregs : (s.heard l).regs = s.regs := rfl
  have hslots : (s.heard l).slotsOf l = s.slotsOf l := by
    unfold Core.slotsOf
    rw [Core.heard_ln]
  unfold doHlFrameNak
  rw [if_pos hup]
  generalize s.heard l = y at *
  obtain ⟨h1, h2, h3, -⟩ := Core.onFrameNak_noted hl hs (by rw [hslots]; exact hslot) (FreedOk.congr hok hregs) hfreed reason
  exact ⟨h1, by rw [h2, Core.rd_congr hregs], (SameRegs.of_regs hregs).trans h3⟩
theorem slotBlock : ∀ h : Fin 192, ∀ f ∈ [HLK_SLOT_CRED.SENT, HLK_SLOT_CRED.FREED, HLK_SLOT_LAST.LINE, HLK_SLOT_LAST.DEV, HLK_SLOT_LAST.STATUS,
    HLK_SLOT_LAST.REASON], f.block h.val = 0x0A := by decide +kernel
/-- With nothing injected, a message goes to the receiver's checks as it is. -/
theorem doReturnMessage_eq {s : Core} {l : Nat} (h : NoInjection s) (hst : s.linkState l = 4) (hrack : (s.ln l).rack = none) (voided : Bool)
    (m : Bytes) (mem : IdRead) : doReturnMessage l voided m mem s = (s.openLink l).takeMsg l voided m mem := by
  have hup : s.linkUp l = true := by rw [Core.linkUp, hst]; rfl
  have hup' : (s.openLink l).linkUp l = true := hup
  have hflush : (s.openLink l).flushRack l = s.openLink l := Core.flushRack_none (by rw [Core.openLink, Core.ln_setLn]; exact hrack)
  have harmed : (s.openLink l).rd FIJ_STATUS.ARMED = 0 := h.1
  have hheld : (s.openLink l).fij.held = [] := h.2
  unfold doReturnMessage
  rw [if_pos hup, hflush]
  generalize s.openLink l = y at *
  dsimp only
  rw [hup', if_neg (by decide), Core.fijUnit_idle harmed]
  dsimp only
  rw [hheld]
  rfl
theorem bodyClean_nak {m : Bytes} (h4 : byteAt m 0 = 4) (hc : bodyClean m = true) : byteAt m 2 < 8 := by
  unfold bodyClean at hc
  rw [h4] at hc
  simp only [Bool.and_eq_true, decide_eq_true_eq] at hc
  exact hc.1
/-- A FRAME_NAK that arrives in order (R425, R436). -/
theorem returnNak_taken {s : Core} {l slot : Nat} {m : Bytes} (mem : IdRead) (hl : l < 24) (hi : NoInjection s) (hst : s.linkState l = 4)
    (hlen : m.length = 14) (hseq : byteAt m 1 = (s.ln l).rxSeq) (hrack : (s.ln l).rack = none) (hcrc : crc16 (m.take 12) = leAt m 12 2)
    (h4 : byteAt m 0 = 4) (hslotm : byteAt m 2 = slot) (hclean : bodyClean m = true) (hslot : slot < s.slotsOf l)
    (hok : FreedOk (8 * l + slot) (leAt m 6 2) s) :
    let t := doReturnMessage l false m mem s
    (t.ln l).rxSeq = (byteAt m 1 + 1) % 256 ∧ (t.ln l).lastMsg = s.etime ∧
    (t.ln l).out = (if s.rackDue l = true then leaving l [rackBlock (s.ln l).rxSeq false] (s.openLink l) else []) ∧
    (t.ln l).rack = (if s.rackDue l = true then none else some false) ∧
    t.rd HLK_SLOT_CRED.FREED (8 * l + slot) = leAt m 6 2 ∧
    t.rd HLK_FRAME_NAK_CNT.COUNT l = satU 32 (s.rd HLK_FRAME_NAK_CNT.COUNT l + 1) ∧
    SameOutside [0x0A, 0x1B] s t := by
  intro t
  have hs : slot < 8 := hslotm ▸ bodyClean_nak h4 hclean
  have hseqlt : (s.ln l).rxSeq < 256 := hseq ▸ byteAt_lt m 1
  obtain ⟨z, hz⟩ : ∃ z, z = ((s.openLink l).heard l).setLn l { ((s.openLink l).heard l).ln l with rxSeq := (byteAt m 1 + 1) % 256, nakRun := 0, rack := none } :=
    ⟨_, rfl⟩
  have hdo : t = (z.oweRack l false).onFrameNak l slot (byteAt m 3) (leAt m 6 2) := by
    unfold t
    rw [doReturnMessage_eq hi hst hrack]
    unfold Core.takeMsg
    dsimp only
    have hmsg : ¬ (false = true ∨ (!msgOk m) = true) := by
      unfold msgOk
      rw [hlen, hcrc]
      simp
    have hrx : byteAt m 1 = (((s.openLink l).heard l).ln l).rxSeq := by
      rw [hseq, Core.heard_ln, Core.openLink, Core.ln_setLn]
      rfl
    rw [if_neg hmsg, if_pos hrx, ← hz]
    unfold Core.dispatchMsg
    rw [hclean, if_neg (by decide), h4, hslotm]
    rfl
  have hzl : z.ln l = { (s.ln l).fresh with lastMsg := s.etime, ret := (s.ln l).ret + 1, rxSeq := (byteAt m 1 + 1) % 256, nakRun := 0, rack := none } := by
    rw [hz, Core.ln_setLn, Core.heard_ln, Core.openLink, Core.ln_setLn]
    rfl
  have hzr : z.regs = s.regs := by rw [hz]; rfl
  have hzt : z.etime = s.etime := by rw [hz]; rfl
  have hzi : NoInjection z := by rw [hz]; exact hi
  clear_value t
  clear hz
  have hdue : z.rackDue l = s.rackDue l := by
    unfold Core.rackDue
    rw [hzl, hzt]
    rfl
  have ho := Core.oweRack_owed (nak := false) hzi (by rw [hzl]) (fun h => nomatch h)
  generalize z.oweRack l false = o at *
  have hor : o.regs = s.regs := (ho.plain rfl).trans hzr
  have hhead : (o.ln l).headEnd = (s.ln l).headEnd := by
    rw [ho.record, hzl]
    rfl
  have hslots : o.slotsOf l = s.slotsOf l := by
    unfold Core.slotsOf
    rw [hhead]
  have hfreed : leAt m 6 2 < 65536 := leAt_lt m 6 2
  obtain ⟨h1, h2, h3, h5⟩ := Core.onFrameNak_noted hl hs (by rw [hslots]; exact hslot) (FreedOk.congr hok hor) hfreed (byteAt m 3)
  rw [← hdo] at h1 h2 h3 h5
  have hln : t.ln l = o.ln l := Core.ln_congr (h5 .hlk (by decide)) l
  refine ⟨?_, ?_, ?_, ?_, h1, by rw [h2, Core.rd_congr hor], ?_⟩
  · rw [hln, ho.record, hzl]
  · rw [hln, ho.record, hzl]
  · have hback : (byteAt m 1 + 1) % 256 + 255 = (s.ln l).rxSeq + 256 ∨ (byteAt m 1 + 1) % 256 + 255 = (s.ln l).rxSeq := by omega
    have hnum : ((byteAt m 1 + 1) % 256 + 255) % 256 = (s.ln l).rxSeq := by omega
    rw [hln, ho.out, hdue, hzl]
    refine if_congr Iff.rfl ?_ rfl
    dsimp only
    rw [if_neg (by decide), hnum, leaving, Core.openLink, Core.ln_setLn]
    exact LinkSt.send_out _ rfl
  · rw [hln, ho.rack, hdue]
  · refine (SameOutside.of_regs hor).trans (h3.outside fun k hk => ?_)
    simp only [List.mem_cons, List.not_mem_nil, or_false] at hk
    rcases hk with rfl | rfl | rfl
    · exact List.mem_cons.2 (.inl (slotBlock ⟨8 * l + slot, by omega⟩ _ (by decide)))
    · exact List.mem_cons.2 (.inl (linkBlock hl))
    · decide

/-- A message that is spoilt is asked for again (R425). -/
theorem returnVoided_asked {s : Core} {l : Nat} (m : Bytes) (mem : IdRead) (hl : l < 24) (hi : NoInjection s) (hst : s.linkState l = 4)
    (hrack : (s.ln l).rack = none) (hrun : (s.ln l).nakRun < 3) :
    let t := doReturnMessage l true m mem s
    (t.ln l).rxSeq = (s.ln l).rxSeq ∧ (t.ln l).nakRun = (s.ln l).nakRun + (if s.rackDue l = true then 1 else 0) ∧
    (t.ln l).out = (if s.rackDue l = true then leaving l [rackBlock (s.ln l).rxSeq true] (s.openLink l) else []) ∧
    (t.ln l).rack = (if s.rackDue l = true then none else some true) ∧
    t.rd HLK_RET_CRC_CNT.COUNT l = satU 32 (s.rd HLK_RET_CRC_CNT.COUNT l + 1) ∧
    SameRegs [HLK_RET_CRC_CNT.COUNT.key l, HLK_REPLAY_CNT.COUNT.key l] s t := by
  intro t
  obtain ⟨z, hz⟩ : ∃ z, z = ((s.openLink l).heard l).inc HLK_RET_CRC_CNT.COUNT l := ⟨_, rfl⟩
  have hdo : t = z.oweRack l true := by
    unfold t
    rw [doReturnMessage_eq hi hst hrack]
    unfold Core.takeMsg
    dsimp only
    rw [if_pos (.inl rfl), ← hz]
  have hzl : z.ln l = { (s.ln l).fresh with lastMsg := s.etime, ret := (s.ln l).ret + 1 } := by
    have hinc : z.ln l = ((s.openLink l).heard l).ln l := by rw [hz]; rfl
    rw [hinc, Core.heard_ln, Core.openLink, Core.ln_setLn]
    rfl
  have hsame : ((s.openLink l).heard l).regs = s.regs := rfl
  have hzr : SameRegs [HLK_RET_CRC_CNT.COUNT.key l] s z := by
    rw [hz]
    exact (SameRegs.of_regs hsame).inc 1 (List.mem_singleton.2 rfl)
  have hzc : z.rd HLK_RET_CRC_CNT.COUNT l = satU 32 (s.rd HLK_RET_CRC_CNT.COUNT l + 1) := by
    rw [hz, Core.rd_inc_self, Core.rd_congr hsame]
    rfl
  have hzt : z.etime = s.etime := by rw [hz]; rfl
  have hzf : z.fij = s.fij := by rw [hz]; rfl
  have hzi : NoInjection z := by
    unfold NoInjection at hi ⊢
    rw [hzf, hzr _ _ ((by decide : ∀ l : Fin 24, FIJ_STATUS.ARMED.key 0 ∉ [HLK_RET_CRC_CNT.COUNT.key l.val]) ⟨l, hl⟩)]
    exact hi
  clear_value t
  clear hz
  subst hdo
  have hdue : z.rackDue l = s.rackDue l := by
    unfold Core.rackDue
    rw [hzl, hzt]
    rfl
  have ho := Core.oweRack_owed (nak := true) hzi (by rw [hzl]; exact hrack) (fun _ => by rw [hzl]; exact hrun)
  refine ⟨by rw [ho.record, hzl]; rfl, ?_, ?_, by rw [ho.rack, hdue], (ho.regs _ _ ?_).trans hzc, (hzr.mono ?_).trans (ho.regs.mono ?_)⟩
  · rw [ho.nakRun, hdue, hzl]
    simp only [true_and]
    rfl
  · rw [ho.out, hdue, hzl]
    refine if_congr Iff.rfl ?_ rfl
    dsimp only
    rw [if_pos rfl, leaving, Core.openLink, Core.ln_setLn]
    exact LinkSt.send_out _ rfl
  · simp only [List.mem_singleton]
    exact strideKey_ne
  · simp
  · simp

/-! ### STATUS and CONFIRM (R424, R434, R437) -/

/-- The registers that note a CONFIRM. -/
def noteKeys (h : Nat) : List Nat :=
  [HLK_SLOT_LAST.LINE.key h, HLK_SLOT_LAST.DEV.key h, HLK_SLOT_LAST.STATUS.key h, HLK_SLOT_LAST.REASON.key h, HLK_DEV.LAST.key (h / 8),
   HLK_DEV.PEAK.key (h / 8)]
theorem slotKeys_distinct : ∀ h : Fin 192, HLK_SLOT_CRED.FREED.key h.val ∉ noteKeys h.val ∧
    HLK_SLOT_CRED.FREED.key h.val ∉ [HLK_SLOT_THERM.OHMS.key h.val, HLK_SLOT_THERM.AGE.key h.val, HLK_SLOT_THERM.HEAD_OK.key h.val] ∧
    HLK_SLOT_LAST.LINE.key h.val ∉ [HLK_SLOT_LAST.DEV.key h.val, HLK_SLOT_LAST.STATUS.key h.val, HLK_SLOT_LAST.REASON.key h.val,
      HLK_DEV.LAST.key (h.val / 8), HLK_DEV.PEAK.key (h.val / 8)] ∧
    HLK_SLOT_LAST.STATUS.key h.val ∉ [HLK_SLOT_LAST.REASON.key h.val, HLK_DEV.LAST.key (h.val / 8), HLK_DEV.PEAK.key (h.val / 8)] ∧
    HLK_SLOT_THERM.OHMS.key h.val ∉ [HLK_SLOT_THERM.AGE.key h.val, HLK_SLOT_THERM.HEAD_OK.key h.val] ∧
    HLK_SLOT_THERM.AGE.key h.val ≠ HLK_SLOT_THERM.HEAD_OK.key h.val ∧
    HDC_ID_STATUS.STATE.key h.val ∉ [HLK_SLOT_CRED.FREED.key h.val, HLK_SLOT_THERM.OHMS.key h.val, HLK_SLOT_THERM.AGE.key h.val,
      HLK_SLOT_THERM.HEAD_OK.key h.val] ∧ (∀ k ∈ noteKeys h.val, k / 2 ^ 21 = 0x0A) := by decide +kernel
theorem Core.noteConfirm_noted {s : Core} {h : Nat} (hh : h < 192) (line dev status reason : Nat) :
    let t := s.noteConfirm (h / 8) h line dev status reason
    t.rd HLK_SLOT_LAST.LINE h = line % 65536 ∧ t.rd HLK_SLOT_LAST.STATUS h = status % 4 ∧ SameRegs (noteKeys h) s t ∧ Touches [] s t := by
  obtain ⟨-, -, hline, hstatus, -⟩ := slotKeys_distinct ⟨h, hh⟩
  have hdev : ∀ u : Core, SameRegs [HLK_DEV.LAST.key (h / 8), HLK_DEV.PEAK.key (h / 8)] u
      (if dev = 0x80 then u else if absN (sgn 8 dev) > (u.wr HLK_DEV.LAST dev (h / 8)).rd HLK_DEV.PEAK (h / 8) then
        (u.wr HLK_DEV.LAST dev (h / 8)).wr HLK_DEV.PEAK (absN (sgn 8 dev)) (h / 8) else u.wr HLK_DEV.LAST dev (h / 8)) ∧
      Touches [] u (if dev = 0x80 then u else if absN (sgn 8 dev) > (u.wr HLK_DEV.LAST dev (h / 8)).rd HLK_DEV.PEAK (h / 8) then
        (u.wr HLK_DEV.LAST dev (h / 8)).wr HLK_DEV.PEAK (absN (sgn 8 dev)) (h / 8) else u.wr HLK_DEV.LAST dev (h / 8)) := fun u => by
    have hlast : SameRegs [HLK_DEV.LAST.key (h / 8), HLK_DEV.PEAK.key (h / 8)] u (u.wr HLK_DEV.LAST dev (h / 8)) := (SameRegs.refl _ u).wr _ (by simp)
    split
    · exact ⟨.refl _ u, .refl _ u⟩
    · split
      · exact ⟨hlast.wr _ (by simp), (Touches.wr _ _ _ _).trans (Touches.wr _ _ _ _)⟩
      · exact ⟨hlast, Touches.wr _ _ _ _⟩
  have hw : SameRegs (noteKeys h) s (s.wrs [(HLK_SLOT_LAST.LINE, line), (HLK_SLOT_LAST.DEV, dev), (HLK_SLOT_LAST.STATUS, status),
      (HLK_SLOT_LAST.REASON, reason)] h) := (SameRegs.refl _ s).wrs (by simp [noteKeys])
  have hwp := Touches.wrs s [(HLK_SLOT_LAST.LINE, line), (HLK_SLOT_LAST.DEV, dev), (HLK_SLOT_LAST.STATUS, status), (HLK_SLOT_LAST.REASON, reason)] h
  have hwl : (s.wrs [(HLK_SLOT_LAST.LINE, line), (HLK_SLOT_LAST.DEV, dev), (HLK_SLOT_LAST.STATUS, status),
      (HLK_SLOT_LAST.REASON, reason)] h).rd HLK_SLOT_LAST.LINE h = line % 65536 := by
    simp only [List.mem_cons, List.not_mem_nil, or_false, not_or] at hline
    obtain ⟨h1, h2, h3, -⟩ := hline
    simp only [Core.wrs, List.foldl_cons, List.foldl_nil]
    rw [Core.rd_wr_ne _ _ _ _ _ _ h3, Core.rd_wr_ne _ _ _ _ _ _ h2, Core.rd_wr_ne _ _ _ _ _ _ h1, Core.rd_wr]
    rfl
  have hws : (s.wrs [(HLK_SLOT_LAST.LINE, line), (HLK_SLOT_LAST.DEV, dev), (HLK_SLOT_LAST.STATUS, status),
      (HLK_SLOT_LAST.REASON, reason)] h).rd HLK_SLOT_LAST.STATUS h = status % 4 := by
    simp only [List.mem_cons, List.not_mem_nil, or_false, not_or] at hstatus
    simp only [Core.wrs, List.foldl_cons, List.foldl_nil]
    rw [Core.rd_wr_ne _ _ _ _ _ _ hstatus.1, Core.rd_wr]
    rfl
  unfold Core.noteConfirm
  generalize s.wrs [(HLK_SLOT_LAST.LINE, line), (HLK_SLOT_LAST.DEV, dev), (HLK_SLOT_LAST.STATUS, status), (HLK_SLOT_LAST.REASON, reason)] h = u at *
  obtain ⟨hr, hp⟩ := hdev u
  dsimp only
  refine ⟨(hr _ _ ?_).trans hwl, (hr _ _ ?_).trans hws, hw.trans (hr.mono ?_), hwp.trans hp⟩
  · simp only [List.mem_cons, List.not_mem_nil, or_false, not_or] at hline ⊢
    exact ⟨hline.2.2.2.1, hline.2.2.2.2⟩
  · simp only [List.mem_cons, List.not_mem_nil, or_false, not_or] at hstatus ⊢
    exact hstatus.2
  · simp [noteKeys]

/-- FREED is taken, and a CONFIRM noted. -/
def Core.confirmNoted (s : Core) (h line freed dev status reason : Nat) : Core := (s.wr HLK_SLOT_CRED.FREED freed h).noteConfirm (h / 8) h line dev status reason
theorem Core.confirmNoted_spec {s : Core} {h freed : Nat} (hh : h < 192) (hfreed : freed < 65536) (line dev status reason : Nat) :
    let z := s.confirmNoted h line freed dev status reason
    z.rd HLK_SLOT_CRED.FREED h = freed ∧ z.rd HLK_SLOT_LAST.LINE h = line % 65536 ∧ z.rd HLK_SLOT_LAST.STATUS h = status % 4 ∧
    SameRegs (HLK_SLOT_CRED.FREED.key h :: noteKeys h) s z ∧ Touches [] s z := by
  obtain ⟨hfree, -⟩ := slotKeys_distinct ⟨h, hh⟩
  have hw : SameRegs [HLK_SLOT_CRED.FREED.key h] s (s.wr HLK_SLOT_CRED.FREED freed h) := (SameRegs.refl _ s).wr _ List.mem_cons_self
  have hwf : (s.wr HLK_SLOT_CRED.FREED freed h).rd HLK_SLOT_CRED.FREED h = freed := by
    rw [Core.rd_wr]
    exact Nat.mod_eq_of_lt hfreed
  have hwp := Touches.wr s HLK_SLOT_CRED.FREED freed h
  unfold Core.confirmNoted
  generalize s.wr HLK_SLOT_CRED.FREED freed h = w at *
  obtain ⟨hline, hstatus, hregs, hparts⟩ := Core.noteConfirm_noted (s := w) hh line dev status reason
  refine ⟨(hregs _ _ hfree).trans hwf, hline, hstatus, (hw.mono ?_).trans (hregs.mono (List.subset_cons_self ..)), hwp.trans hparts⟩
  simp
/-- A CONFIRM of a token that was sent. -/
theorem Core.onConfirm_eq {y : Core} {l slot status freed line : Nat} {k : Tok} (hs : slot < 8) (hslot : slot < y.slotsOf l)
    (hok : FreedOk (8 * l + slot) freed y)
    (hk : (y.ln l).tokens.find? (fun k => k.slot == slot && k.line == line && k.sentAt.isSome) = some k) (hkind : k.fire ≠ decide (status = 3))
    (reason drops dev : Nat) :
    y.onConfirm l slot status reason line freed drops dev =
      let z := y.confirmNoted (8 * l + slot) line freed dev status reason
      let u := z.setLn l { y.ln l with tokens := dropFirst (· == k) (y.ln l).tokens }
      if k.fire then u.closeToken l (8 * l + slot) k status reason drops else u := by
  have hdiv : (8 * l + slot) / 8 = l := by omega
  have hln : ∀ z, z = y.confirmNoted (8 * l + slot) line freed dev status reason → z.ln l = y.ln l := by
    intro z hz
    rw [hz]
    unfold Core.confirmNoted Core.noteConfirm
    dsimp only
    split
    · rfl
    · split <;> rfl
  unfold Core.onConfirm
  dsimp only
  rw [if_neg (by omega), Core.takeFreed_ok hok]
  dsimp only
  have hz : (y.wr HLK_SLOT_CRED.FREED freed (8 * l + slot)).noteConfirm l (8 * l + slot) line dev status reason =
      y.confirmNoted (8 * l + slot) line freed dev status reason := by
    unfold Core.confirmNoted
    rw [hdiv]
  rw [hz, hln _ rfl, hk]
  dsimp only
  rw [if_neg hkind]
/-- The CONFIRM of a token that fires no line. -/
theorem confirmReceive_noted {s : Core} {l slot freed line : Nat} {k : Tok} (hl : l < 24) (hs : slot < 8) (hst : s.linkState l = 4)
    (hslot : slot < s.slotsOf l) (hok : FreedOk (8 * l + slot) freed s) (hfreed : freed < 65536)
    (hk : (s.ln l).tokens.find? (fun k => k.slot == slot && k.line == line && k.sentAt.isSome) = some k) (hfire : k.fire = false) (reason drops dev : Nat) :
    let t := doConfirmReceive l slot 3 reason line freed drops dev s
    (t.ln l).tokens = dropFirst (· == k) (s.ln l).tokens ∧ t.rd HLK_SLOT_CRED.FREED (8 * l + slot) = freed ∧
    t.rd HLK_SLOT_LAST.STATUS (8 * l + slot) = 3 ∧ SameOutside [0x0A, 0x1B] s t := by
  have hup : s.linkUp l = true := by rw [Core.linkUp, hst]; rfl
  have hh : 8 * l + slot < 192 := by omega
  have hregs : (s.heard l).regs = s.regs := rfl
  have hln := s.heard_ln l
  have hslots : (s.heard l).slotsOf l = s.slotsOf l := by
    unfold Core.slotsOf
    rw [hln]
  unfold doConfirmReceive
  rw [if_pos hup]
  generalize s.heard l = y at *
  have htok : (y.ln l).tokens = (s.ln l).tokens := by rw [hln]
  rw [Core.onConfirm_eq hs (by rw [hslots]; exact hslot) (FreedOk.congr hok hregs) (htok ▸ hk) (by rw [hfire]; decide)]
  obtain ⟨hzf, -, hzs, hzr, -⟩ := Core.confirmNoted_spec (s := y) hh hfreed line dev 3 reason
  generalize y.confirmNoted (8 * l + slot) line freed dev 3 reason = z at *
  dsimp only
  rw [hfire, if_neg (by decide), htok]
  refine ⟨by rw [Core.ln_setLn], (Core.rd_congr rfl _ _).trans hzf, (Core.rd_congr rfl _ _).trans hzs, ?_⟩
  refine (SameOutside.of_regs hregs).trans ((hzr.outside fun k hk => ?_).trans (.of_regs rfl))
  obtain ⟨-, -, -, -, -, -, -, hblocks⟩ := slotKeys_distinct ⟨8 * l + slot, hh⟩
  rcases List.mem_cons.1 hk with rfl | hk
  · exact List.mem_cons.2 (.inl (slotBlock ⟨8 * l + slot, hh⟩ _ (by decide)))
  · exact List.mem_cons.2 (.inl (hblocks _ hk))
theorem statusReceive_noted {s : Core} {l slot freed ohms : Nat} {headOk : Bool} (mem : IdRead) (hl : l < 24) (hs : slot < 8) (hst : s.linkState l = 4)
    (hslot : slot < s.slotsOf l) (hok : FreedOk (8 * l + slot) freed s) (hfreed : freed < 65536) (hohms : ohms < 2 ^ 24)
    (hsame : (if headOk then (s.ln l).gone.contains slot else s.attached (8 * l + slot)) = false) :
    let t := doStatusReceive l slot headOk freed ohms mem s
    t.rd HLK_SLOT_CRED.FREED (8 * l + slot) = freed ∧ t.rd HLK_SLOT_THERM.OHMS (8 * l + slot) = ohms ∧ t.rd HLK_SLOT_THERM.AGE (8 * l + slot) = 0 ∧
    t.rd HLK_SLOT_THERM.HEAD_OK (8 * l + slot) = b2n headOk ∧ (t.ln l).lastMsg = s.etime ∧
    SameRegs [HLK_SLOT_CRED.FREED.key (8 * l + slot), HLK_SLOT_THERM.OHMS.key (8 * l + slot), HLK_SLOT_THERM.AGE.key (8 * l + slot),
      HLK_SLOT_THERM.HEAD_OK.key (8 * l + slot)] s t := by
  have hup : s.linkUp l = true := by rw [Core.linkUp, hst]; rfl
  have hh : 8 * l + slot < 192 := by omega
  obtain ⟨-, hfree, -, -, hohmsk, hagek, hstatek, -⟩ := slotKeys_distinct ⟨8 * l + slot, hh⟩
  have hregs : (s.heard l).regs = s.regs := rfl
  have hln := s.heard_ln l
  have hslots : (s.heard l).slotsOf l = s.slotsOf l := by
    unfold Core.slotsOf
    rw [hln]
  unfold doStatusReceive
  rw [if_pos hup]
  generalize s.heard l = y at *
  unfold Core.onStatus
  dsimp only
  rw [if_neg (by omega), Core.takeFreed_ok (FreedOk.congr hok hregs)]
  dsimp only
  have hw : SameRegs [HLK_SLOT_CRED.FREED.key (8 * l + slot)] y (y.wr HLK_SLOT_CRED.FREED freed (8 * l + slot)) := (SameRegs.refl _ y).wr _ List.mem_cons_self
  have hwf : (y.wr HLK_SLOT_CRED.FREED freed (8 * l + slot)).rd HLK_SLOT_CRED.FREED (8 * l + slot) = freed := by
    rw [Core.rd_wr]
    exact Nat.mod_eq_of_lt hfreed
  have hwl : (y.wr HLK_SLOT_CRED.FREED freed (8 * l + slot)).ln l = y.ln l := rfl
  generalize y.wr HLK_SLOT_CRED.FREED freed (8 * l + slot) = w at *
  have hz : SameRegs [HLK_SLOT_THERM.OHMS.key (8 * l + slot), HLK_SLOT_THERM.AGE.key (8 * l + slot), HLK_SLOT_THERM.HEAD_OK.key (8 * l + slot)] w
      (w.wrs [(HLK_SLOT_THERM.OHMS, ohms), (HLK_SLOT_THERM.AGE, 0), (HLK_SLOT_THERM.HEAD_OK, b2n headOk)] (8 * l + slot)) := (SameRegs.refl _ w).wrs (by simp)
  have hzl : (w.wrs [(HLK_SLOT_THERM.OHMS, ohms), (HLK_SLOT_THERM.AGE, 0), (HLK_SLOT_THERM.HEAD_OK, b2n headOk)] (8 * l + slot)).ln l = w.ln l := rfl
  have hzv : (w.wrs [(HLK_SLOT_THERM.OHMS, ohms), (HLK_SLOT_THERM.AGE, 0), (HLK_SLOT_THERM.HEAD_OK, b2n headOk)] (8 * l + slot)).rd HLK_SLOT_THERM.OHMS (8 * l + slot) = ohms ∧
      (w.wrs [(HLK_SLOT_THERM.OHMS, ohms), (HLK_SLOT_THERM.AGE, 0), (HLK_SLOT_THERM.HEAD_OK, b2n headOk)] (8 * l + slot)).rd HLK_SLOT_THERM.AGE (8 * l + slot) = 0 ∧
      (w.wrs [(HLK_SLOT_THERM.OHMS, ohms), (HLK_SLOT_THERM.AGE, 0), (HLK_SLOT_THERM.HEAD_OK, b2n headOk)] (8 * l + slot)).rd HLK_SLOT_THERM.HEAD_OK (8 * l + slot) = b2n headOk := by
    simp only [List.mem_cons, List.not_mem_nil, or_false, not_or] at hohmsk
    simp only [Core.wrs, List.foldl_cons, List.foldl_nil]
    refine ⟨?_, ?_, ?_⟩
    · rw [Core.rd_wr_ne _ _ _ _ _ _ hohmsk.2, Core.rd_wr_ne _ _ _ _ _ _ hohmsk.1, Core.rd_wr]
      exact Nat.mod_eq_of_lt hohms
    · rw [Core.rd_wr_ne _ _ _ _ _ _ hagek, Core.rd_wr]
      rfl
    · rw [Core.rd_wr]
      cases headOk <;> rfl
  generalize w.wrs [(HLK_SLOT_THERM.OHMS, ohms), (HLK_SLOT_THERM.AGE, 0), (HLK_SLOT_THERM.HEAD_OK, b2n headOk)] (8 * l + slot) = z at *
  obtain ⟨ho, ha, hk⟩ := hzv
  have hzr : SameRegs [HLK_SLOT_CRED.FREED.key (8 * l + slot), HLK_SLOT_THERM.OHMS.key (8 * l + slot), HLK_SLOT_THERM.AGE.key (8 * l + slot),
      HLK_SLOT_THERM.HEAD_OK.key (8 * l + slot)] s z := ((SameRegs.of_regs hregs).trans (hw.mono (by simp))).trans (hz.mono (by simp))
  have hzf : z.rd HLK_SLOT_CRED.FREED (8 * l + slot) = freed := (hz _ _ hfree).trans hwf
  have hzln : z.ln l = { s.ln l with lastMsg := s.etime, ret := (s.ln l).ret + 1 } := by rw [hzl, hwl, hln]
  have hset : ∀ r : LinkSt, r.lastMsg = s.etime →
      (z.setLn l r).rd HLK_SLOT_CRED.FREED (8 * l + slot) = freed ∧ (z.setLn l r).rd HLK_SLOT_THERM.OHMS (8 * l + slot) = ohms ∧
      (z.setLn l r).rd HLK_SLOT_THERM.AGE (8 * l + slot) = 0 ∧ (z.setLn l r).rd HLK_SLOT_THERM.HEAD_OK (8 * l + slot) = b2n headOk ∧
      ((z.setLn l r).ln l).lastMsg = s.etime ∧
      SameRegs [HLK_SLOT_CRED.FREED.key (8 * l + slot), HLK_SLOT_THERM.OHMS.key (8 * l + slot), HLK_SLOT_THERM.AGE.key (8 * l + slot),
        HLK_SLOT_THERM.HEAD_OK.key (8 * l + slot)] s (z.setLn l r) := fun r hr =>
    ⟨hzf, ho, ha, hk, by rw [Core.ln_setLn, hr], hzr.setLn _ _⟩
  cases headOk with
  | true =>
    have hgone : (z.ln l).gone.contains slot = false := by
      rw [hzln]
      simpa using hsame
    rw [if_pos rfl, hgone, if_neg (by decide)]
    exact hset _ (by rw [hzln])
  | false =>
    have hatt : z.attached (8 * l + slot) = false := by
      have hstate : z.headState (8 * l + slot) = s.headState (8 * l + slot) := hzr _ _ hstatek
      rw [Core.attached, hstate]
      exact hsame
    rw [if_neg (by decide), hatt, if_pos (by decide)]
    exact ⟨hzf, ho, ha, hk, by rw [hzln], hzr⟩

end Sys2Proof.Machine

end

section
/-! PROOF. The CONFIRM of a strobed line, and the traffic of a link that is up as a whole (spec/10_head_link.md R424, R437). -/

namespace Sys2Proof.Machine

set_option Elab.async false

/-! ### A strobed line closes (R400, R437) -/

theorem Core.settleJob_stays {s : Core} {id : Nat} (h : ∀ j : Job, s.job? id = some j → j.bars.any (fun e => !e.2.left) = true) : s.settleJob id = s := by
  unfold Core.settleJob
  cases hj : s.job? id with
  | none => rfl
  | some j =>
    have hleft : ¬ j.bars.all (·.2.left) = true := fun hall => by
      obtain ⟨e, he, hne⟩ := List.any_eq_true.1 (h j hj)
      rw [List.all_eq_true.1 hall e he] at hne
      exact absurd hne (by decide)
    exact if_neg fun hc => hleft hc.2.2
theorem strobedKeys_distinct : ∀ h : Fin 192, HDC_STROBED_LO.COUNT.key h.val ≠ HDC_STROBED_HI.COUNT.key h.val ∧
    HDC_DROPS_LO.COUNT.key h.val ≠ HDC_DROPS_HI.COUNT.key h.val ∧
    (∀ f ∈ [HDC_STROBED_LO.COUNT, HDC_STROBED_HI.COUNT], f.key h.val ∉ [HDC_DROPS_LO.COUNT.key h.val, HDC_DROPS_HI.COUNT.key h.val, HDC_FIRE.PENDING.key h.val]) ∧
    (∀ f ∈ [HDC_DROPS_LO.COUNT, HDC_DROPS_HI.COUNT], f.key h.val ∉ [HDC_STROBED_LO.COUNT.key h.val, HDC_STROBED_HI.COUNT.key h.val, HDC_FIRE.PENDING.key h.val]) := by
  decide +kernel
/-- The two counters of a head that a strobed line moves. -/
def Core.strobeCounted (s : Core) (h drops : Nat) : Core :=
  (s.add64 HDC_STROBED_LO.COUNT HDC_STROBED_HI.COUNT h 1).add64 HDC_DROPS_LO.COUNT HDC_DROPS_HI.COUNT h drops
/-- The registers of these counters, and of the lines that are pending. -/
def strobeKeys (h : Nat) : List Nat := [HDC_FIRE.PENDING.key h, HDC_STROBED_LO.COUNT.key h, HDC_STROBED_HI.COUNT.key h, HDC_DROPS_LO.COUNT.key h, HDC_DROPS_HI.COUNT.key h]
/-- What the counters of a head read behind a strobed line. -/
structure Strobed (h drops : Nat) (s t : Core) : Prop where
  lines : t.rd2 HDC_STROBED_LO.COUNT HDC_STROBED_HI.COUNT h = (s.rd2 HDC_STROBED_LO.COUNT HDC_STROBED_HI.COUNT h + 1) % 2 ^ 64
  drops : t.rd2 HDC_DROPS_LO.COUNT HDC_DROPS_HI.COUNT h = (s.rd2 HDC_DROPS_LO.COUNT HDC_DROPS_HI.COUNT h + drops) % 2 ^ 64
  regs : SameRegs (strobeKeys h) s t
theorem Core.strobeCounted_spec (s : Core) {h : Nat} (hh : h < 192) (drops : Nat) :
    Strobed h drops s (s.strobeCounted h drops) ∧ Touches [] s (s.strobeCounted h drops) := by
  obtain ⟨hs, hd, hsd, hds⟩ := strobedKeys_distinct ⟨h, hh⟩
  have ha := Core.rd2_wr2_mod s (lo := HDC_STROBED_LO.COUNT) (hi := HDC_STROBED_HI.COUNT) ((s.rd2 HDC_STROBED_LO.COUNT HDC_STROBED_HI.COUNT h + 1) % 2 ^ 64) hs rfl rfl
  have har : SameRegs [HDC_STROBED_LO.COUNT.key h, HDC_STROBED_HI.COUNT.key h] s
      (s.wr2 HDC_STROBED_LO.COUNT HDC_STROBED_HI.COUNT ((s.rd2 HDC_STROBED_LO.COUNT HDC_STROBED_HI.COUNT h + 1) % 2 ^ 64) h) :=
    ((SameRegs.refl _ s).wr _ (by simp)).wr _ (by simp)
  have hap : Touches [] s (s.wr2 HDC_STROBED_LO.COUNT HDC_STROBED_HI.COUNT ((s.rd2 HDC_STROBED_LO.COUNT HDC_STROBED_HI.COUNT h + 1) % 2 ^ 64) h) :=
    (Touches.wr _ _ _ _).trans (Touches.wr _ _ _ _)
  unfold Core.strobeCounted
  change Strobed h drops s (Core.add64 (s.wr2 HDC_STROBED_LO.COUNT HDC_STROBED_HI.COUNT ((s.rd2 HDC_STROBED_LO.COUNT HDC_STROBED_HI.COUNT h + 1) % 2 ^ 64) h)
      HDC_DROPS_LO.COUNT HDC_DROPS_HI.COUNT h drops) ∧ Touches [] s (Core.add64 (s.wr2 HDC_STROBED_LO.COUNT HDC_STROBED_HI.COUNT
      ((s.rd2 HDC_STROBED_LO.COUNT HDC_STROBED_HI.COUNT h + 1) % 2 ^ 64) h) HDC_DROPS_LO.COUNT HDC_DROPS_HI.COUNT h drops)
  generalize s.wr2 HDC_STROBED_LO.COUNT HDC_STROBED_HI.COUNT ((s.rd2 HDC_STROBED_LO.COUNT HDC_STROBED_HI.COUNT h + 1) % 2 ^ 64) h = a at *
  have hda : a.rd2 HDC_DROPS_LO.COUNT HDC_DROPS_HI.COUNT h = s.rd2 HDC_DROPS_LO.COUNT HDC_DROPS_HI.COUNT h := by
    have hne : ∀ f ∈ [HDC_DROPS_LO.COUNT, HDC_DROPS_HI.COUNT], a.rd f h = s.rd f h := fun f hf => har _ _ fun hk => hds f hf (by
      simp only [List.mem_cons, List.not_mem_nil, or_false] at hk ⊢
      tauto)
    rw [Core.rd2, hne _ (by simp), hne _ (by simp), Core.rd2]
  unfold Core.add64
  rw [hda]
  have hb := Core.rd2_wr2_mod a (lo := HDC_DROPS_LO.COUNT) (hi := HDC_DROPS_HI.COUNT) ((s.rd2 HDC_DROPS_LO.COUNT HDC_DROPS_HI.COUNT h + drops) % 2 ^ 64) hd rfl rfl
  have hbr : SameRegs [HDC_DROPS_LO.COUNT.key h, HDC_DROPS_HI.COUNT.key h] a
      (a.wr2 HDC_DROPS_LO.COUNT HDC_DROPS_HI.COUNT ((s.rd2 HDC_DROPS_LO.COUNT HDC_DROPS_HI.COUNT h + drops) % 2 ^ 64) h) :=
    ((SameRegs.refl _ a).wr _ (by simp)).wr _ (by simp)
  have hbp : Touches [] a (a.wr2 HDC_DROPS_LO.COUNT HDC_DROPS_HI.COUNT ((s.rd2 HDC_DROPS_LO.COUNT HDC_DROPS_HI.COUNT h + drops) % 2 ^ 64) h) :=
    (Touches.wr _ _ _ _).trans (Touches.wr _ _ _ _)
  generalize a.wr2 HDC_DROPS_LO.COUNT HDC_DROPS_HI.COUNT ((s.rd2 HDC_DROPS_LO.COUNT HDC_DROPS_HI.COUNT h + drops) % 2 ^ 64) h = b at *
  refine ⟨⟨?_, by rw [hb, Nat.mod_mod], (har.mono ?_).trans (hbr.mono ?_)⟩, hap.trans hbp⟩
  · have hne : ∀ f ∈ [HDC_STROBED_LO.COUNT, HDC_STROBED_HI.COUNT], b.rd f h = a.rd f h := fun f hf => hbr _ _ fun hk => hsd f hf (by
      simp only [List.mem_cons, List.not_mem_nil, or_false] at hk ⊢
      tauto)
    rw [Core.rd2, hne _ (by simp), hne _ (by simp), ← Nat.mod_mod, ← ha, Core.rd2]
  · simp [strobeKeys]
  · simp [strobeKeys]
/-- With no open range, the account of a line that strobes changes no range. -/
theorem Core.accountRange_none {s : Core} {h : Nat} (hr : (s.hf h).ranges = []) (job w : Nat) (opens : Bool) :
    let t := s.accountRange h job w none opens
    t.hf h = s.hf h ∧ SameRegs [HDC_FIRE.PENDING.key h] s t ∧ Touches [.spg] s t := by
  have hsame : ({ s.hf h with ranges := [] } : HeadFire) = s.hf h := by rw [← hr]
  obtain ⟨har, hap⟩ := s.setHf_spec h (s.hf h)
  have hah : (s.setHf h (s.hf h)).hf h = s.hf h := Core.hf_setHf ..
  unfold Core.accountRange Core.closeRanges
  dsimp only
  rw [hr]
  simp only [List.map_nil]
  rw [hsame]
  generalize s.setHf h (s.hf h) = a at *
  rw [hah, hr]
  simp only [List.filter_nil, List.foldl_nil]
  rw [hsame]
  obtain ⟨hbr, hbp⟩ := a.setHf_spec h (s.hf h)
  exact ⟨Core.hf_setHf .., har.trans hbr, hap.trans hbp⟩
theorem Core.closeLine_strobed {s : Core} {h job : Nat} (hh : h < 192) (hr : (s.hf h).ranges = [])
    (hj : ∀ j : Job, s.job? job = some j → j.bars.any (fun e => !e.2.left) = true) (w drops : Nat) (opens : Bool) :
    let t := s.closeLine h job w drops .strobed opens
    t.hf h = s.hf h ∧ Strobed h drops s t ∧ Touches [.spg, .jobs] s t := by
  obtain ⟨ha, hap⟩ := s.strobeCounted_spec hh drops
  unfold Core.closeLine
  extract_lets a b d k src e t r
  change Strobed h drops s a at ha
  change Touches [] s a at hap
  have hbr : b.regs = a.regs := rfl
  have hbh : b.hf h = a.hf h := rfl
  have hbj : ∀ j', b.job? job = some j' → ∃ j, s.job? job = some j ∧ j'.bars = j.bars := fun j' hj' => by
    rw [Core.job?_modJob a job (g := fun j => { j with open_ := j.open_ - 1 }) fun _ => rfl, Core.job?,
      (hap .jobs (by simp) : a.jobs = s.jobs)] at hj'
    obtain ⟨j, hsj, rfl⟩ := Option.map_eq_some_iff.1 hj'
    exact ⟨j, hsj, rfl⟩
  have hbp : Touches [.jobs] a b := (a.modJob_within job _).parts
  clear_value b
  have hah : a.hf h = s.hf h := by rw [Core.hf, (hap .spg (by simp) : a.spg = s.spg), Core.hf]
  obtain ⟨hdh, hdr, hdp⟩ := Core.accountRange_none (s := b) (h := h) (by rw [hbh, hah, hr]) job w opens
  change d.hf h = _ at hdh
  change SameRegs _ b d at hdr
  change Touches _ b d at hdp
  clear_value d
  have heh : e.hf h = d.hf h := rfl
  have her : e.regs = d.regs := rfl
  have hej : e.jobs = d.jobs := rfl
  have hep : Touches [.spg] d e := ((Within.refl [] [.spg] d).spg _).parts
  clear_value e
  obtain ⟨g, hg, ht⟩ : ∃ g : Job → Job, (∀ j, (g j).id = j.id ∧ (g j).bars = j.bars) ∧ t = e.modJob job g := by
    have hpos : t = e.modJob job _ := if_pos rfl
    refine ⟨_, ?_, hpos⟩
    exact fun j => ⟨rfl, rfl⟩
  have htr : t.regs = e.regs := by rw [ht]; rfl
  have hth : t.hf h = e.hf h := by rw [ht]; rfl
  have htp : Touches [.jobs] e t := by rw [ht]; exact (e.modJob_within job _).parts
  have hstays : r = t := Core.settleJob_stays fun j' hj' => by
    rw [ht, Core.job?_modJob _ _ fun j => (hg j).1] at hj'
    obtain ⟨j1, hj1, rfl⟩ := Option.map_eq_some_iff.1 hj'
    have hbj1 : b.job? job = some j1 := by
      rw [← hj1, Core.job?, Core.job?, hej, (hdp .jobs (by decide) : d.jobs = b.jobs)]
    obtain ⟨j0, hj0, hbars⟩ := hbj j1 hbj1
    rw [(hg j1).2, hbars]
    exact hj j0 hj0
  rw [hstays]
  clear_value t
  have hreg : SameRegs [HDC_FIRE.PENDING.key h] a t := ((SameRegs.of_regs hbr).trans hdr).trans ((SameRegs.of_regs her).trans (.of_regs htr))
  obtain ⟨-, -, hsd, hds⟩ := strobedKeys_distinct ⟨h, hh⟩
  have hpend : ∀ f ∈ [HDC_STROBED_LO.COUNT, HDC_STROBED_HI.COUNT, HDC_DROPS_LO.COUNT, HDC_DROPS_HI.COUNT], t.rd f h = a.rd f h := fun f hf =>
    hreg _ _ (by
      simp only [List.mem_cons, List.not_mem_nil, or_false, forall_eq_or_imp, forall_eq, not_or] at hf hsd hds ⊢
      rcases hf with rfl | rfl | rfl | rfl
      · exact hsd.1.2.2
      · exact hsd.2.2.2
      · exact hds.1.2.2
      · exact hds.2.2.2)
  refine ⟨by rw [hth, heh, hdh, hbh, hah], ⟨?_, ?_, ha.regs.trans (hreg.mono ?_)⟩, ?_⟩
  · rw [Core.rd2, hpend _ (by simp), hpend _ (by simp)]
    exact ha.lines
  · rw [Core.rd2, hpend _ (by simp), hpend _ (by simp)]
    exact ha.drops
  · simp [strobeKeys]
  · exact (hap.mono (by simp)).trans ((hbp.mono (by decide)).trans ((hdp.mono (by decide)).trans ((hep.mono (by decide)).trans (htp.mono (by decide)))))

theorem strobeKeys_block {h k : Nat} (hh : h < 192) (hk : k ∈ strobeKeys h) : k / 2 ^ 21 = 0x0C := by
  simp only [strobeKeys, List.mem_cons, List.not_mem_nil, or_false] at hk
  rcases hk with rfl | rfl | rfl | rfl | rfl
  all_goals exact headBlock hh
/-- The line of a token that fired closes. -/
theorem Core.closeToken_strobed {u : Core} {l h reason : Nat} {k : Tok} {y : IssuedLine} (hh : h < 192)
    (hy : (u.hf h).issued.find? (fun y => y.seq == k.line) = some y) (hr : (u.hf h).ranges = [])
    (hj : ∀ j : Job, u.job? y.job = some j → j.bars.any (fun e => !e.2.left) = true) :
    let t := u.closeToken l h k 0 reason k.drops
    (t.hf h).issued = dropFirst (· == y) (u.hf h).issued ∧ Strobed h y.drops u t ∧ Touches [.spg, .jobs] u t := by
  have hdo : u.closeToken l h k 0 reason k.drops =
      (u.setHf h { u.hf h with issued := dropFirst (· == y) (u.hf h).issued }).closeLine h y.job y.w y.drops .strobed true := by
    unfold Core.closeToken
    rw [if_neg (show ¬ (0 = 0 ∧ k.drops ≠ k.drops) from fun hc => hc.2 rfl)]
    dsimp only
    rw [if_neg (by decide), hy]
    rfl
  rw [hdo]
  obtain ⟨hvr, hvp⟩ := u.setHf_spec h { u.hf h with issued := dropFirst (· == y) (u.hf h).issued }
  have hvh : (u.setHf h { u.hf h with issued := dropFirst (· == y) (u.hf h).issued }).hf h = _ := Core.hf_setHf ..
  generalize u.setHf h { u.hf h with issued := dropFirst (· == y) (u.hf h).issued } = v at *
  obtain ⟨hth, hts, htp⟩ := Core.closeLine_strobed (s := v) (job := y.job) hh (by rw [hvh]; exact hr)
    (fun j hv => hj j (by rw [← hv, Core.job?, Core.job?, (hvp .jobs (by decide) : v.jobs = u.jobs)])) y.w y.drops true
  obtain ⟨hlines, hdrops, hregs⟩ := hts
  obtain ⟨-, -, hsd, hds⟩ := strobedKeys_distinct ⟨h, hh⟩
  simp only [List.mem_cons, List.not_mem_nil, or_false, forall_eq_or_imp, forall_eq, not_or] at hsd hds
  have hs2 : v.rd2 HDC_STROBED_LO.COUNT HDC_STROBED_HI.COUNT h = u.rd2 HDC_STROBED_LO.COUNT HDC_STROBED_HI.COUNT h := by
    rw [Core.rd2, hvr _ _ (by simpa using hsd.1.2.2), hvr _ _ (by simpa using hsd.2.2.2), Core.rd2]
  have hd2 : v.rd2 HDC_DROPS_LO.COUNT HDC_DROPS_HI.COUNT h = u.rd2 HDC_DROPS_LO.COUNT HDC_DROPS_HI.COUNT h := by
    rw [Core.rd2, hvr _ _ (by simpa using hds.1.2.2), hvr _ _ (by simpa using hds.2.2.2), Core.rd2]
  exact ⟨by rw [hth, hvh], ⟨by rw [hlines, hs2], by rw [hdrops, hd2], (hvr.mono (by simp [strobeKeys])).trans hregs⟩, (hvp.mono (by decide)).trans htp⟩
/-- The CONFIRM of a token that fired its line. -/
theorem confirmReceive_strobed {s : Core} {l slot freed line : Nat} {k : Tok} {y : IssuedLine} (hl : l < 24) (hs : slot < 8) (hst : s.linkState l = 4)
    (hslot : slot < s.slotsOf l) (hok : FreedOk (8 * l + slot) freed s) (hfreed : freed < 65536) (hline : line < 65536)
    (hk : (s.ln l).tokens.find? (fun k => k.slot == slot && k.line == line && k.sentAt.isSome) = some k) (hfire : k.fire = true)
    (hy : (s.hf (8 * l + slot)).issued.find? (fun y => y.seq == k.line) = some y) (hr : (s.hf (8 * l + slot)).ranges = [])
    (hj : ∀ j : Job, s.job? y.job = some j → j.bars.any (fun e => !e.2.left) = true) (reason dev : Nat) :
    let t := doConfirmReceive l slot 0 reason line freed k.drops dev s
    let h := 8 * l + slot
    (t.ln l).tokens = dropFirst (· == k) (s.ln l).tokens ∧ (t.hf h).issued = dropFirst (· == y) (s.hf h).issued ∧
    t.rd HLK_SLOT_CRED.FREED h = freed ∧ t.rd HLK_SLOT_LAST.LINE h = line ∧
    t.rd2 HDC_STROBED_LO.COUNT HDC_STROBED_HI.COUNT h = (s.rd2 HDC_STROBED_LO.COUNT HDC_STROBED_HI.COUNT h + 1) % 2 ^ 64 ∧
    t.rd2 HDC_DROPS_LO.COUNT HDC_DROPS_HI.COUNT h = (s.rd2 HDC_DROPS_LO.COUNT HDC_DROPS_HI.COUNT h + y.drops) % 2 ^ 64 ∧
    SameRegs (HLK_SLOT_CRED.FREED.key h :: noteKeys h ++ strobeKeys h) s t := by
  have hup : s.linkUp l = true := by rw [Core.linkUp, hst]; rfl
  have hh : 8 * l + slot < 192 := by omega
  have hregs : (s.heard l).regs = s.regs := rfl
  have hheardp := (s.heard_within l).parts
  have hln := s.heard_ln l
  have hslots : (s.heard l).slotsOf l = s.slotsOf l := by
    unfold Core.slotsOf
    rw [hln]
  unfold doConfirmReceive
  rw [if_pos hup]
  generalize s.heard l = b at *
  have htok : (b.ln l).tokens = (s.ln l).tokens := by rw [hln]
  rw [Core.onConfirm_eq hs (by rw [hslots]; exact hslot) (FreedOk.congr hok hregs) (htok ▸ hk) (by rw [hfire]; decide)]
  obtain ⟨hzf, hzl, -, hzr, hzp⟩ := Core.confirmNoted_spec (s := b) hh hfreed line dev 0 reason
  generalize b.confirmNoted (8 * l + slot) line freed dev 0 reason = z at *
  have hzr' : SameRegs (HLK_SLOT_CRED.FREED.key (8 * l + slot) :: noteKeys (8 * l + slot)) s z := (SameRegs.of_regs hregs).trans hzr
  have hspg : z.spg = s.spg := (hzp .spg (by simp) : z.spg = b.spg).trans (hheardp .spg (by decide))
  have hjobs : z.jobs = s.jobs := (hzp .jobs (by simp) : z.jobs = b.jobs).trans (hheardp .jobs (by decide))
  dsimp only
  rw [hfire, if_pos rfl, htok]
  have hul : (z.setLn l { b.ln l with tokens := dropFirst (· == k) (s.ln l).tokens }).ln l = { b.ln l with tokens := dropFirst (· == k) (s.ln l).tokens } :=
    Core.ln_setLn ..
  have huh : (z.setLn l { b.ln l with tokens := dropFirst (· == k) (s.ln l).tokens }).hf (8 * l + slot) = s.hf (8 * l + slot) := by
    change z.hf (8 * l + slot) = _
    rw [Core.hf, hspg, Core.hf]
  have huj : (z.setLn l { b.ln l with tokens := dropFirst (· == k) (s.ln l).tokens }).jobs = s.jobs := hjobs
  have hur : (z.setLn l { b.ln l with tokens := dropFirst (· == k) (s.ln l).tokens }).regs = z.regs := rfl
  generalize z.setLn l { b.ln l with tokens := dropFirst (· == k) (s.ln l).tokens } = u at *
  obtain ⟨hissued, ⟨hlines, hdrops, htr⟩, htp⟩ := Core.closeToken_strobed (u := u) (l := l) (reason := reason) (k := k) (y := y) hh
    (by rw [huh]; exact hy) (by rw [huh]; exact hr) (fun j hv => hj j (by rw [← hv, Core.job?, Core.job?, huj]))
  generalize u.closeToken l (8 * l + slot) k 0 reason k.drops = t at *
  have hlow : ∀ f : Fld, f.block (8 * l + slot) = 0x0A → t.rd f (8 * l + slot) = z.rd f (8 * l + slot) := fun f hf =>
    (htr f _ fun hm => absurd (hf.symm.trans (strobeKeys_block hh hm)) (by decide)).trans (Core.rd_congr hur _ _)
  obtain ⟨-, -, -, -, -, -, -, hblocks⟩ := slotKeys_distinct ⟨8 * l + slot, hh⟩
  have hhigh : ∀ f : Fld, f.block (8 * l + slot) = 0x0C → u.rd f (8 * l + slot) = s.rd f (8 * l + slot) := fun f hf =>
    (Core.rd_congr hur _ _).trans (hzr' f _ fun hm => by
      have hb : f.key (8 * l + slot) / 2 ^ 21 = 0x0A := by
        rcases List.mem_cons.1 hm with e | hm
        · rw [e]
          exact slotBlock ⟨8 * l + slot, hh⟩ _ (by decide)
        · exact hblocks _ hm
      exact absurd (hb.symm.trans hf) (by decide))
  refine ⟨?_, by rw [hissued, huh], (hlow _ (slotBlock ⟨_, hh⟩ _ (by decide))).trans hzf,
    (hlow _ (slotBlock ⟨_, hh⟩ _ (by decide))).trans (hzl.trans (Nat.mod_eq_of_lt hline)), ?_, ?_, ?_⟩
  · rw [Core.ln_congr (htp .hlk (by decide)), hul]
  · rw [hlines, Core.rd2, hhigh _ (headBlock hh), hhigh _ (headBlock hh), Core.rd2]
  · rw [hdrops, Core.rd2, hhigh _ (headBlock hh), hhigh _ (headBlock hh), Core.rd2]
  · exact (hzr'.mono (List.subset_append_left _ _)).trans ((SameRegs.of_regs hur).trans (htr.mono (List.subset_append_right _ _)))

/-- Settles O54: what leaves behind what R420 sends ahead, a message that is acknowledged and acted on, and the usage records, each by the lemma of its row. -/
theorem linkTrafficFlows : Obligations.LinkTrafficFlows := by
  unfold Obligations.LinkTrafficFlows
  intro l s hboot hst hi
  have hup : s.field.core.linkUp l.val = true := by rw [Core.linkUp, hst]; rfl
  refine ⟨fun h y parity hn hbar hahead => ?_, fun i k hk => ?_, fun hrack => ?_, fun hrack htx => ?_,
    fun h w wr a x hpf hheads hsb hw hnext hrack => ?_, fun m mem hlen hseq hrack => ⟨fun slot hcrc h4 hslotm hclean hslot hok => ?_, fun hrun => ?_⟩,
    fun slot line freed hslot hok => ⟨fun st reason drops dev k hk => ⟨fun hfire hst3 => ?_, fun y hfire hst0 hdrops hy hr hj => ?_⟩,
      fun headOk inhibited ohms mem hsame => ?_, fun reason => ?_⟩,
    fun tid data q w hq hqw hw hz => ?_, fun h hdiv => ⟨fun hatt hpf hw hdef => ?_, fun w hw => ⟨fun ho => ?_, fun ho => ?_⟩⟩⟩
  · have hsent := lineFrameSend_sent l.isLt hi hst hn hbar hahead (parity.map BitVec.toNat)
    have hsome : (parity.map BitVec.toNat).isSome = parity.isSome := by cases parity <;> rfl
    refine answers_of_onRunning (g := doLineFrameSend l.val (parity.map BitVec.toNat)) rfl hboot
      ⟨hsent.sent, hsome ▸ hsent.staged, hsome ▸ hsent.out, fun hp => hsent.regs (by rw [hp]; rfl), CoreOnly.onCore _ _⟩
  · obtain ⟨htok, hout, hregs⟩ := tokenSend_sent hi hup hk
    exact answers_of_onRunning (g := doTokenSend l.val) rfl hboot ⟨htok, hout, hregs, CoreOnly.onCore _ _⟩
  · obtain ⟨htime, hout, hregs⟩ := timeBlockSend_sent hi hst hrack
    exact answers_of_onRunning (g := doTimeBlockSend l.val) rfl hboot ⟨htime, hout, hregs, CoreOnly.onCore _ _⟩
  · obtain ⟨hout, hal, hpos, hregs⟩ := alignBlockSend_sent hrack htx
    exact answers_of_onRunning (g := doAlignBlockSend l.val) rfl hboot ⟨hout, hal, hpos, hregs, CoreOnly.onCore _ _⟩
  · obtain ⟨hsent, hregs⟩ := sidebandRequest_sent l.isLt hi hst hpf hheads hsb hw hnext hrack
    exact answers_of_onRunning (g := doSidebandRequest l.val) rfl hboot ⟨hsent, hregs, CoreOnly.onCore _ _⟩
  · obtain ⟨h1, h2, h3, h5, h6, h7, h8⟩ := returnNak_taken mem l.isLt hi hst hlen hseq hrack hcrc h4 hslotm hclean hslot hok
    exact answers_of_onRunning (g := doReturnMessage l.val false m mem) rfl hboot ⟨h1, h2, h3, h5, h6, h7, h8, CoreOnly.onCore _ _⟩
  · obtain ⟨h1, h2, h3, h5, h6, h7⟩ := returnVoided_asked m mem l.isLt hi hst hrack hrun
    exact answers_of_onRunning (g := doReturnMessage l.val true m mem) rfl hboot ⟨h1, h2, h3, h5, h6, h7, CoreOnly.onCore _ _⟩
  · subst hst3
    obtain ⟨h1, h2, h3, h5⟩ := confirmReceive_noted l.isLt slot.isLt hst hslot hok freed.isLt hk hfire reason.val drops.toNat dev.toNat
    exact answers_of_onRunning (g := doConfirmReceive l.val slot.val 3 reason.val line.toNat freed.toNat drops.toNat dev.toNat) rfl hboot
      ⟨h1, h2, h3, h5, CoreOnly.onCore _ _⟩
  · subst hst0
    obtain ⟨h1, h2, h3, h5, h6, h7, h8⟩ := confirmReceive_strobed l.isLt slot.isLt hst hslot hok freed.isLt line.isLt hk hfire hy hr hj reason.val dev.toNat
    rw [← hdrops] at h1 h2 h3 h5 h6 h7 h8
    refine answers_of_onRunning (g := doConfirmReceive l.val slot.val 0 reason.val line.toNat freed.toNat drops.toNat dev.toNat) rfl hboot
      ⟨h1, h2, h3, h5, h6, h7, h8.mono ?_, CoreOnly.onCore _ _⟩
    have hdiv : (8 * l.val + slot.val) / 8 = l.val := by omega
    rw [noteKeys, hdiv]
    exact fun k hk => hk
  · obtain ⟨h1, h2, h3, h5, h6, h7⟩ := statusReceive_noted mem l.isLt slot.isLt hst hslot hok freed.isLt ohms.isLt hsame
    exact answers_of_onRunning (g := doStatusReceive l.val slot.val headOk freed.toNat ohms.toNat mem) rfl hboot
      ⟨h1, h2, h3, h5, h6, h7, CoreOnly.onCore _ _⟩
  · obtain ⟨h1, h2, h3⟩ := hlFrameNak_noted l.isLt slot.isLt hst hslot hok freed.isLt reason.toNat
    exact answers_of_onRunning (g := doHlFrameNak l.val slot.val reason.toNat freed.toNat) rfl hboot ⟨h1, h2, h3, CoreOnly.onCore _ _⟩
  · obtain ⟨h1, h2, h3⟩ := sbRespReceive_taken hst hq hqw hw hz
    exact answers_of_onRunning (g := doSbRespReceive l.val tid.val 0 data) rfl hboot ⟨h1, h2, h3, CoreOnly.onCore _ _⟩
  · obtain ⟨h1, h2, h3⟩ := usageRecordWrite_begun h.isLt (by rw [hdiv]; exact hst) hatt hpf hw hdef
    exact answers_of_onRunning (g := doUsageRecordWrite h.val) rfl hboot ⟨h1, h2, h3, CoreOnly.onCore _ _⟩
  · obtain ⟨h1, h2, h3, h5, h6, h7⟩ := usageWriteEnd_success h.isLt hw ho
    exact answers_of_onRunning (g := doUsageWriteEnd h.val) rfl hboot ⟨h1, h2, h3, h5, h6, h7, CoreOnly.onCore _ _⟩
  · obtain ⟨h1, h2, h3, h5, h6⟩ := usageWriteEnd_failure h.isLt hw ho
    exact answers_of_onRunning (g := doUsageWriteEnd h.val) rfl hboot ⟨h1, h2, h3, h5, h6, CoreOnly.onCore _ _⟩

end Sys2Proof.Machine

end

section
/-! PROOF. A stripe engine stages its next line (spec/07_nozzle_path_and_screening.md R305, R331). -/

namespace Sys2Proof.Machine

set_option Elab.async false

/-! ### What a stripe engine's line leaves of the heads (R315, R331) -/

/-- The firing records of the heads, and who is present, stay. -/
structure HeadsStay (a b : Core) : Prop where
  heads : b.spg.heads = a.spg.heads
  segBar : b.press.segBar = a.press.segBar
  nozzles : b.press.nozzles = a.press.nozzles

theorem HeadsStay.refl (a : Core) : HeadsStay a a := ⟨rfl, rfl, rfl⟩
theorem HeadsStay.trans {a b c : Core} (hab : HeadsStay a b) (hbc : HeadsStay b c) : HeadsStay a c :=
  ⟨hbc.heads.trans hab.heads, hbc.segBar.trans hab.segBar, hbc.nozzles.trans hab.nozzles⟩
theorem HeadsStay.of_touches {rs : List Part} {a b : Core} (h : Touches rs a b) (hspg : .spg ∉ rs := by decide)
    (hpress : .press ∉ rs := by decide) : HeadsStay a b :=
  ⟨congrArg SpgSt.heads (h .spg hspg), congrArg PressSt.segBar (h .press hpress), congrArg PressSt.nozzles (h .press hpress)⟩
theorem HeadsStay.foldl {α : Type} {k : Core → α → Core} {a b : Core} (l : List α) (hk : ∀ s x, HeadsStay s (k s x))
    (h : HeadsStay a b) : HeadsStay a (l.foldl k b) :=
  List.foldlRecOn l k h fun _ hs x _ => hs.trans (hk _ x)
theorem HeadsStay.ite {p : Prop} [Decidable p] {a b c : Core} (hb : p → HeadsStay a b) (hc : ¬ p → HeadsStay a c) :
    HeadsStay a (if p then b else c) := by
  split
  · exact hb ‹_›
  · exact hc ‹_›
theorem HeadsStay.wr {a b : Core} (h : HeadsStay a b) (f : Fld) (v n : Nat) : HeadsStay a (b.wr f v n) := h.trans ⟨rfl, rfl, rfl⟩
theorem HeadsStay.press {a b : Core} (h : HeadsStay a b) (x : PressSt) (hbar : x.segBar = b.press.segBar := by rfl)
    (hnoz : x.nozzles = b.press.nozzles := by rfl) : HeadsStay a { b with press := x } :=
  h.trans ⟨rfl, hbar, hnoz⟩
theorem HeadsStay.inc {a b : Core} (h : HeadsStay a b) (f : Fld) (n k : Nat) : HeadsStay a (b.inc f n k) := h.wr _ _ _
theorem HeadsStay.incW {a b : Core} (h : HeadsStay a b) (f : Fld) (n k : Nat) : HeadsStay a (b.incW f n k) := h.wr _ _ _
theorem HeadsStay.emit {a b : Core} (h : HeadsStay a b) (code data tag : Nat) : HeadsStay a (b.emit code data tag) :=
  h.trans (.of_touches (.emit b code data tag))
theorem HeadsStay.emitSum {a b : Core} (h : HeadsStay a b) (code inst amt : Nat) (data : Nat → Nat) :
    HeadsStay a (b.emitSum code inst amt data) :=
  h.trans (.of_touches ((Within.refl [0x1B] [.limits, .cmdq] b).emitSum code inst amt data).parts)
theorem HeadsStay.setNoz {a b : Core} (h : HeadsStay a b) (key v : Nat) : HeadsStay a (b.setNoz key v) := h.trans ⟨rfl, rfl, rfl⟩
theorem HeadsStay.setCurve {a b : Core} (h : HeadsStay a b) (g bank : Nat) (c : List Nat) : HeadsStay a (b.setCurve g bank c) :=
  h.foldl _ fun _ _ => ⟨rfl, rfl, rfl⟩

theorem HeadsStay.headsOn {a b : Core} (h : HeadsStay a b) (l : Nat) : b.headsOn l = a.headsOn l := by
  have hp : b.headPresent = a.headPresent := by
    funext g
    rw [Core.headPresent, Core.nozzles, h.nozzles, Core.headPresent, Core.nozzles]
  rw [Core.headsOn, hp, Core.headsOn]
theorem HeadsStay.barOf {a b : Core} (h : HeadsStay a b) (g : Nat) : b.barOf g = a.barOf g := by
  rw [Core.barOf, Core.segBar, h.segBar, Core.barOf, Core.segBar]
theorem HeadsStay.hf {a b : Core} (h : HeadsStay a b) (g : Nat) : b.hf g = a.hf g := by
  rw [Core.hf, h.heads, Core.hf]

theorem Core.toneCommit_stays (s : Core) (h : Nat) : HeadsStay s (s.toneCommit h) := by
  unfold Core.toneCommit
  extract_lets act sh u v src w
  have hv : HeadsStay s v := (((HeadsStay.refl s).setCurve _ _ _).setCurve _ _ _).incW _ _ _ |>.wr _ _ _
  clear_value v
  have hw : HeadsStay s w := hv.press _
  clear_value w
  split
  next z srcz _ =>
    have hz : HeadsStay s z := hw.setCurve _ _ _
    have hsrc : srcz = z.press := rfl
    clear_value z srcz
    subst hsrc
    exact hz.press _
  · exact hw
theorem Core.rebuildTwins_stays (s : Core) : HeadsStay s s.rebuildTwins := by
  unfold Core.rebuildTwins
  extract_lets act inactive t fresh u
  have ht : HeadsStay s t := (HeadsStay.refl s).foldl _ fun x b => (HeadsStay.refl x).wr _ _ _
  have hu : HeadsStay s u := ht.foldl _ fun x e => ((HeadsStay.refl x).inc _ _ _).emit _ _ _
  exact hu.trans ⟨rfl, rfl, rfl⟩
theorem Core.applyEntries_stays (s : Core) (es : List (Nat × Nat)) : HeadsStay s (s.applyEntries es) := by
  unfold Core.applyEntries
  extract_lets flags changed t
  have ht : HeadsStay s t := (HeadsStay.refl s).foldl _ fun x e => (HeadsStay.refl x).setNoz _ _
  split
  · exact ht.trans t.rebuildTwins_stays
  · exact ht
theorem Core.clearLinkErr_stays (s : Core) (l : Nat) : HeadsStay s (s.clearLinkErr l) :=
  (HeadsStay.refl s).foldl _ fun x _ => (HeadsStay.refl x).setNoz _ _
theorem Core.stageDone_stays (s : Core) (ref : Option CmdRef) : HeadsStay s (s.stageDone ref) := by
  unfold Core.stageDone
  split
  · exact .refl s
  · next r =>
    split
    · exact .refl s
    · exact .of_touches (s.closeCmd_within r _).parts
theorem Core.noteServoCommit_stays (s : Core) (g : NozStage) : HeadsStay s (s.noteServoCommit g) := by
  unfold Core.noteServoCommit
  extract_lets b t
  have ht : HeadsStay s t := ((HeadsStay.refl s).incW _ _ _).inc _ _ _
  split
  · exact ht
  · exact ht.emit _ _ _
theorem Core.fetches_stays (s : Core) (cls a n : Nat) : HeadsStay s (s.fetches cls a n) :=
  .of_touches (s.requests_served _).parts
theorem Core.shadowLoad_stays (s : Core) (n : Nat) : HeadsStay s (s.shadowLoad n) := by
  unfold Core.shadowLoad
  split
  · exact s.fetches_stays _ _ _
  · exact .refl s
/-- What a link's next line takes over changes the press's settings only. -/
theorem Core.applyStage_stays (s : Core) (l : Nat) : HeadsStay s (s.applyStage l) := by
  unfold Core.applyStage
  extract_lets mine host src t
  have ht : HeadsStay s t := ⟨rfl, rfl, rfl⟩
  clear_value t
  split
  · exact ht
  · next g _ =>
    extract_lets u src v w x now y z
    have hv : HeadsStay s v := (ht.trans (t.shadowLoad_stays _)).trans ⟨rfl, rfl, rfl⟩
    have hw : HeadsStay s w := hv.trans (v.applyEntries_stays _)
    have hx : HeadsStay s x := by
      unfold x
      split
      · exact hw.trans (w.toneCommit_stays _)
      · exact hw
    have hy : HeadsStay s y := hx.trans (x.applyEntries_stays _)
    have hz : HeadsStay s z := by
      unfold z
      split
      · exact (hy.foldl _ fun p e => (HeadsStay.refl p).inc _ _ _).trans (Core.noteServoCommit_stays _ g)
      · exact hy
    exact hz.trans (z.stageDone_stays _)
/-- So does all that takes effect between two lines. -/
theorem Core.lineBoundary_stays (s : Core) (l : Nat) : HeadsStay s (s.lineBoundary l) := by
  unfold Core.lineBoundary
  extract_lets cleared src t u
  have ht : HeadsStay s t := .ite (fun _ => (s.clearLinkErr_stays l).trans ⟨rfl, rfl, rfl⟩) fun _ => .refl s
  have hu : HeadsStay s u := ht.foldl _ fun x h => .ite (fun _ => x.toneCommit_stays h) fun _ => .refl x
  exact hu.trans (u.applyStage_stays l)

/-! ### The band and the records of a line (R303 to R305, R469, R507) -/

theorem Core.poisonRead_stays (s : Core) (ch w : Nat) : HeadsStay s (s.poisonRead ch w) :=
  ((HeadsStay.refl s).inc MEM_POISON_CNT.READS 0 1).trans
    (.of_touches ((Within.refl [0x1B] [.limits, .cmdq] (s.inc MEM_POISON_CNT.READS)).emitLim 0x0403 ch _).parts)
theorem Core.reads_stays (s : Core) (m : Dram) (cls a n : Nat) : HeadsStay s (s.reads m cls a n) :=
  (s.fetches_stays cls a n).foldl _ fun x w => by
    exact .ite (fun _ => .refl x) fun _ => x.poisonRead_stays _ _
theorem Core.fetchBand_stays (s : Core) (m : Dram) (l b : Nat) (j : Job) (jb : JobBar) (n : Nat) :
    HeadsStay s (s.fetchBand m l b j jb n).2 := by
  unfold Core.fetchBand
  extract_lets dead t tiles size valid
  have ht : HeadsStay s t := by
    unfold t
    split
    · exact (HeadsStay.of_touches (Core.modJob_within s _ _).parts).inc _ _ _
    · exact .refl s
  clear_value t
  dsimp -zeta only
  extract_lets lo hi poison res u v w
  have hu : HeadsStay s u := by
    unfold u
    split
    · exact ht.foldl _ fun x _ => ((HeadsStay.refl x).inc _ _ _).emit _ _ _
    · exact ht
  have hv : HeadsStay s v := by
    unfold v
    split
    · exact hu.trans (u.reads_stays _ _ _ _)
    · exact hu
  exact hv.trans (.of_touches (Core.modJob_within v _ _).parts)
theorem Core.loadBands_stays (s : Core) (m : Dram) (l b : Nat) (j : Job) (jb : JobBar) (n : Nat) :
    HeadsStay s (s.loadBands m l b j jb n).2 := by
  unfold Core.loadBands
  extract_lets held
  split
  next now t hnow =>
    have ht : HeadsStay s t := by
      split at hnow
      · cases hnow
        exact .refl s
      · have hfetch := s.fetchBand_stays m l b j jb n
        rwa [hnow] at hfetch
    split
    next more u hmore =>
      have hu : HeadsStay s u := by
        split at hmore
        · cases hmore
          exact ht
        · split at hmore
          · cases hmore
            exact ht.trans (t.fetchBand_stays m l b j jb (n + 1))
          · cases hmore
            exact ht
      exact hu.trans ⟨rfl, rfl, rfl⟩

theorem Core.closeData_stays (s : Core) (b : Nat) : HeadsStay s (s.closeData b) := by
  unfold Core.closeData
  split
  · exact .refl s
  · exact (⟨rfl, rfl, rfl⟩ : HeadsStay s (s.setBf b _)).trans (.of_touches (Core.addDefect_within _ _ _).parts)
theorem Core.accountData_stays (s : Core) (b job w : Nat) (bad : Bool) : HeadsStay s (s.accountData b job w bad) := by
  unfold Core.accountData
  extract_lets keep t
  have ht : HeadsStay s t := .ite (fun _ => .refl s) fun _ => s.closeData_stays b
  clear_value t
  refine .ite (fun _ => ?_) fun _ => ht
  split
  · exact ht.trans ⟨rfl, rfl, rfl⟩
  · exact .ite (fun _ => ht) fun _ => ht.trans ⟨rfl, rfl, rfl⟩
theorem Core.stripFor_stays (s : Core) (b : Nat) (j : Job) (js : JobSet) (w line : Nat) (bad : Bool) (heads : List Nat) :
    HeadsStay s (s.stripFor b j js w line bad heads).2 := by
  unfold Core.stripFor
  extract_lets ended cut src t src'
  have ht : HeadsStay s t := ⟨rfl, rfl, rfl⟩
  clear_value t
  split
  · exact ht
  · next n rel lad len _ =>
    extract_lets have_ u g src''
    have hu : HeadsStay s u := .ite (fun _ => ht) fun _ => ht.trans ⟨rfl, rfl, rfl⟩
    clear_value u
    split
    · exact ht
    · exact hu.trans ⟨rfl, rfl, rfl⟩

/-! ### Staging (R331, R439) -/

/-- A line goes into a head's staging, where the head has room and has not issued it. -/
def Core.stageOn (b job w line : Nat) (pay : Nat → Bytes × Nat) (s : Core) (h : Nat) : Core :=
  let x := s.hf h
  let gone : Bool := match x.nextW with
    | some nw => decide (lineDiff w nw < 0)
    | none => false
  if (s.attached h || decide (x.staged.length < 16)) && !gone && s.barOf h == b then
    let (p, n) := pay h
    s.setHf h { x with staged := x.staged ++ [⟨job, w, line, p, n, none, false, s.rd HDC_GEO_SKEW.SKEW h⟩] }
  else s
theorem Core.stageLine_eq (s : Core) (l b job w line : Nat) (pay : Nat → Bytes × Nat) :
    s.stageLine l b job w line pay = (s.headsOn l).foldl (Core.stageOn b job w line pay) s := rfl

section
variable {b job w line : Nat} {pay : Nat → Bytes × Nat}

theorem Core.stageOn_ne (s : Core) {h g : Nat} (hne : g ≠ h) : (s.stageOn b job w line pay h).hf g = s.hf g := by
  unfold Core.stageOn
  extract_lets x gone
  split
  · exact s.hf_setHf_ne _ hne
  · rfl
theorem Core.stageOn_press (s : Core) (h : Nat) : (s.stageOn b job w line pay h).press = s.press := by
  unfold Core.stageOn
  extract_lets x gone
  split <;> rfl
/-- A staged line of a job that has not been sent. -/
def Staged (job w line : Nat) (old new : List StagedLine) : Prop :=
  ∃ x, new = old ++ [x] ∧ x.job = job ∧ x.w = w ∧ x.l = line ∧ x.seq = none
theorem Core.stageOn_self (s : Core) {h : Nat} (hroom : (s.hf h).staged.length < 16) (hnext : (s.hf h).nextW = none)
    (hbar : s.barOf h = b) : Staged job w line (s.hf h).staged ((s.stageOn b job w line pay h).hf h).staged := by
  unfold Core.stageOn
  extract_lets x gone
  have hgone : gone = false := by
    unfold gone x
    rw [hnext]
  rw [if_pos (by simp [hgone, hbar, x, hroom])]
  exact ⟨_, congrArg HeadFire.staged (s.hf_setHf h _), rfl, rfl, rfl, rfl⟩
theorem Core.stageOn_foldl (L : List Nat) (s : Core) {h : Nat} (hnd : L.Nodup) (hh : h ∈ L)
    (hroom : (s.hf h).staged.length < 16) (hnext : (s.hf h).nextW = none) (hbar : s.barOf h = b) :
    Staged job w line (s.hf h).staged ((L.foldl (Core.stageOn b job w line pay) s).hf h).staged := by
  induction L generalizing s with
  | nil => cases hh
  | cons g L ih =>
    obtain ⟨hg, hL⟩ := List.nodup_cons.1 hnd
    rw [List.foldl_cons]
    by_cases hgh : g = h
    · subst hgh
      have hrest : ∀ t, (L.foldl (Core.stageOn b job w line pay) t).hf g = t.hf g := fun t =>
        List.foldlRecOn (motive := fun u => u.hf g = t.hf g) L _ rfl fun (u : Core) hu k hk =>
          (u.stageOn_ne fun e : g = k => hg (e ▸ hk)).trans hu
      rw [hrest]
      exact s.stageOn_self hroom hnext hbar
    · have hsame := s.stageOn_ne (b := b) (job := job) (w := w) (line := line) (pay := pay) (Ne.symm hgh)
      have hbar' : (s.stageOn b job w line pay g).barOf h = b := by
        rw [← hbar, Core.barOf, Core.segBar, s.stageOn_press, Core.barOf, Core.segBar]
      rw [← hsame]
      exact ih _ hL ((List.mem_cons.1 hh).resolve_left (Ne.symm hgh)) (hsame ▸ hroom) (hsame ▸ hnext) hbar'
theorem Core.headsOn_nodup (s : Core) (l : Nat) : (s.headsOn l).Nodup :=
  (List.nodup_range.map fun _ _ h => Nat.add_left_cancel h).filter _
/-- Each head of a link that has room and has issued nothing takes the line. -/
theorem Core.stageLine_staged {a s : Core} (hs : HeadsStay a s) {l h : Nat} (hh : h ∈ a.headsOn l)
    (hroom : (a.hf h).staged.length < 16) (hnext : (a.hf h).nextW = none) :
    Staged job w line (a.hf h).staged ((s.stageLine l (a.segBar l) job w line pay).hf h).staged := by
  rw [Core.stageLine_eq, ← hs.hf h]
  refine s.stageOn_foldl _ (s.headsOn_nodup l) (hs.headsOn l ▸ hh) (hs.hf h ▸ hroom) (hs.hf h ▸ hnext) ?_
  rw [hs.barOf, Core.barOf, headsOn_div hh]

end

/-- A page lies on a channel of the layout (R513). -/
theorem Core.pageAt_mem {s : Core} (hways : s.ways ≠ 0) (pg : Nat) : (s.pageAt pg).1 ∈ s.mem.layout := by
  have hlt : pg % s.ways < s.mem.layout.length := Nat.mod_lt _ (Nat.pos_of_ne_zero hways)
  have hin : (s.pageAt pg).1 = s.mem.layout[pg % s.ways] := List.getD_eq_getElem _ _ hlt
  exact hin ▸ List.getElem_mem hlt
/-- With no channel that retrains, no access waits (R530). -/
theorem Core.stalls_none {s : Core} (hch : ∀ ch ∈ s.mem.layout, ch < 4) (hst : ∀ ch, ch < 4 → s.rd MEMC_STATUS.STATE ch ≠ 3) (a n : Nat) :
    s.stalls a n = false := by
  refine List.any_eq_false.2 fun ch hmem => ?_
  have hlt : ch < 4 := by
    unfold Core.channelsOf at hmem
    split at hmem
    · cases hmem
    · obtain ⟨i, -, rfl⟩ := List.mem_map.1 hmem
      next hways => exact hch _ (Core.pageAt_mem (fun h => hways (.inr h)) _)
  simpa using hst ch hlt
theorem Core.fetchWaits_none {s : Core} (hch : ∀ ch ∈ s.mem.layout, ch < 4) (hst : ∀ ch, ch < 4 → s.rd MEMC_STATUS.STATE ch ≠ 3)
    (l b : Nat) (j : Job) (jb : JobBar) (n : Nat) : s.fetchWaits l b j jb n = false := by
  rw [Core.fetchWaits, Core.stalls_none hch hst, Bool.and_false]
theorem Core.scr_setScr (s : Core) (l : Nat) (x : LinkScr) : (s.setScr l x).scr l = x := mget_mset _ _ _ _

/-- What LINE_SCREEN does with the next line of an armed job (R305, R323, R331). -/
theorem doLineScreen_staged {m : Dram} {s : Core} {l w line : Nat} {j : Job} {jb : JobBar} {js : JobSet} (hbar : s.segBar l ≤ 7)
    (hline : s.nextLine (s.segBar l) (s.scr l).nextW = some (w, j, jb, line)) (hset : jb.set = some js)
    (hwait : ∀ n, s.fetchWaits l (s.segBar l) j jb n = false)
    (hroom : ∀ h ∈ s.headsOn l, s.attached h = true → (s.hf h).staged.length < 16) :
    ((doLineScreen l none [] [] none m s).scr l).nextW = some (lineAdd w 1) ∧
    ∀ h ∈ s.headsOn l, (s.hf h).staged.length < 16 → (s.hf h).nextW = none →
      Staged j.id w line (s.hf h).staged ((doLineScreen l none [] [] none m s).hf h).staged := by
  unfold doLineScreen
  extract_lets b due
  rw [if_neg (by omega)]
  split
  next h => cases h.symm.trans hline
  next h =>
  cases h.symm.trans hline
  split
  next h => cases h.symm.trans hset
  next h =>
  cases h.symm.trans hset
  extract_lets y
  rw [if_neg (by
    rw [hwait, Bool.or_false, List.any_eq_true]
    rintro ⟨h, hm, hfull⟩
    obtain ⟨hatt, hlen⟩ : s.attached h = true ∧ 16 ≤ (s.hf h).staged.length := by simpa using hfull
    have := hroom h hm hatt
    omega)]
  dsimp -zeta only [Core.lvlParity]
  extract_lets t acc set lmax pix interp c cols clamps screened drops clamped off outs levels staged src u
  have ht : HeadsStay s t := s.lineBoundary_stays l
  have hacc : HeadsStay s acc := (ht.trans (t.loadBands_stays _ _ _ _ _ _)).trans (Core.accountData_stays _ _ _ _ _)
  clear_value acc
  have hstrip := hacc.trans (acc.stripFor_stays b j js w line (!(t.loadBands m l b j jb (y / 4)).1.good) due)
  have hclamped : HeadsStay s clamped := by
    have hscreened : HeadsStay s screened := hstrip.foldl _ fun x o => (HeadsStay.refl x).setNoz _ _
    clear_value screened
    have hdrops : HeadsStay s drops := .ite (fun _ => hscreened) fun _ => (hscreened.inc _ _ _).emitSum _ _ _ _
    exact .ite (fun _ => hdrops) fun _ => (hdrops.inc _ _ _).emitSum _ _ _ _
  clear_value clamped
  have hstaged : ∀ h ∈ s.headsOn l, (s.hf h).staged.length < 16 → (s.hf h).nextW = none →
      Staged j.id w line (s.hf h).staged (staged.hf h).staged := by
    intro h hm hlen hnext
    unfold staged
    split
    · exact Core.stageLine_staged hclamped hm hlen hnext
    · exact Core.stageLine_staged hstrip hm hlen hnext
  clear_value staged
  have hnext : (u.scr l).nextW = some (lineAdd w 1) := congrArg LinkScr.nextW (staged.scr_setScr l _)
  clear_value src
  split
  · exact ⟨hnext, hstaged⟩
  · exact ⟨hnext, hstaged⟩

/-- Settles O48: everything that takes effect before a line of a link leaves the heads' staging, to which the line then goes. -/
theorem screenedLinesAreStaged : Obligations.ScreenedLinesAreStaged := by
  unfold Obligations.ScreenedLinesAreStaged
  intro l s w line j jb js hboot hbar hline hset hch hst hroom
  refine answers_of_onRunningField (g := fun f => (⟨doLineScreen l none [] [] none f.dram f.core, f.dram⟩ : Field).spent) rfl hboot ?_
  obtain ⟨hnext, hstaged⟩ := doLineScreen_staged (m := s.field.dram) hbar hline hset (Core.fetchWaits_none hch hst _ _ _ _) hroom
  refine ⟨hnext, fun h hm hcond hn => hstaged h hm ?_ hn, rfl, rfl, rfl⟩
  exact hcond.elim (hroom h hm) id

end Sys2Proof.Machine
end

section
/-! PROOF. Triggers, packets and the pipeline of the inspection camera (spec/11_inspection_and_colour_servo.md R452 to R468). -/

namespace Sys2Proof.Machine

set_option Elab.async false

/-! ### The camera's record (R459, R466) -/

theorem Core.frame_setFrame (s : Core) (v : Nat) (x : CamFrame) : (s.setFrame v x).frame v = x := mget_mset _ _ _ _
theorem Core.frame_congr {a b : Core} (h : b.cam.frames = a.cam.frames) (v : Nat) : b.frame v = a.frame v := by
  rw [Core.frame, h, Core.frame]
theorem SameRegs.setCam {ks : List Nat} {a b : Core} (h : SameRegs ks a b) (x : CamSt) : SameRegs ks a (b.setCam x) := h
theorem SameRegs.setFrame {ks : List Nat} {a b : Core} (h : SameRegs ks a b) (v : Nat) (x : CamFrame) : SameRegs ks a (b.setFrame v x) := h

/-- A packet reaches its channel as it came, where no injection is armed. -/
theorem Core.camUnit_plain {s : Core} (hlo : 4 ≤ s.camState) (hhi : s.camState ≤ 5) (hfij : NoInjection s) (v : Nat) (line : Bool)
    (i : Instr) : s.camUnit v line i = s.camRecv i := by
  obtain ⟨harm, hheld⟩ := hfij
  unfold Core.camUnit
  rw [if_neg (by omega)]
  split
  · rfl
  · rw [Core.fijUnit_idle harm]
    dsimp only
    rw [hheld]
    cases line <;> rfl

/-- The settings of a frame are the channel's context (R467). -/
theorem Core.ispSet_congr {a b : Core} (h : SameOutside [0x12] a b) (htbl : b.cam.tables = a.cam.tables) (v : Fin 4) :
    b.ispSet v.val = a.ispSet v.val := by
  have hblock : ∀ v : Fin 4, ∀ f ∈ [ISP_CTX.PRIO, ISP_BLACK_RG.RED, ISP_BLACK_RG.GREEN, ISP_BLACK_B.BLUE, ISP_WB_RG.RED, ISP_WB_RG.GREEN,
      ISP_WB_B.BLUE], f.block v.val ∉ [0x12] := by decide
  have hone := fun f hf => h f v.val (hblock v f hf)
  simp only [List.forall_mem_cons] at hone
  obtain ⟨hprio, hred, hgreen, hblue, hwr, hwg, hwb, -⟩ := hone
  have hccm : ∀ v : Fin 4, ∀ i ∈ List.range 9, ISP_CCM.M.block (9 * v.val + i) ∉ [0x12] := by decide
  have hoff : ∀ v : Fin 4, ∀ i ∈ List.range 3, ISP_OFF.OFF.block (3 * v.val + i) ∉ [0x12] := by decide
  have hmap : (List.range 9).map (fun i => b.rd ISP_CCM.M (9 * v.val + i)) = (List.range 9).map fun i => a.rd ISP_CCM.M (9 * v.val + i) :=
    List.map_congr_left fun i hi => h _ _ (hccm v i hi)
  have hadd : (List.range 3).map (fun i => b.rd ISP_OFF.OFF (3 * v.val + i)) = (List.range 3).map fun i => a.rd ISP_OFF.OFF (3 * v.val + i) :=
    List.map_congr_left fun i hi => h _ _ (hoff v i hi)
  have htab : b.tbl = a.tbl := by
    funext v t i
    rw [Core.tbl, htbl, Core.tbl]
  rw [Core.ispSet, hprio, hred, hgreen, hblue, hwr, hwg, hwb, hmap, hadd, htab, Core.ispSet]

theorem Core.ispSet_same {a b : Core} (hregs : b.regs = a.regs) (htbl : b.cam.tables = a.cam.tables) (v : Nat) : b.ispSet v = a.ispSet v := by
  have hrd : ∀ f n, b.rd f n = a.rd f n := Core.rd_congr hregs
  have htab : b.tbl = a.tbl := by
    funext v t i
    rw [Core.tbl, htbl, Core.tbl]
  simp only [Core.ispSet, hrd, htab]

/-! ### A header's ECC (R457, R460) -/

/-- What the ECC of a header counts, and nothing else. -/
structure EccCounted (fixed : Bool) (a b : Core) : Prop where
  corr : b.rd CAM_ECC_CNT.CORR = if fixed then satU 16 (a.rd CAM_ECC_CNT.CORR + 1) else a.rd CAM_ECC_CNT.CORR
  regs : SameRegs [CAM_ECC_CNT.CORR.key 0] a b
  parts : Touches [] a b

theorem Core.eccFixed_counted (s : Core) (fixed : Bool) : EccCounted fixed s (s.eccFixed fixed) := by
  cases fixed with
  | false => exact ⟨rfl, .refl _ s, .refl _ s⟩
  | true => exact ⟨s.rd_inc_self _ _ _, (SameRegs.refl _ s).inc _, Touches.wr _ _ _ _⟩

section
variable {a b : Core} {fixed : Bool} (h : EccCounted fixed a b)
include h

theorem EccCounted.cam : b.cam = a.cam := h.parts .cam (by simp)
theorem EccCounted.frame (v : Nat) : b.frame v = a.frame v := Core.frame_congr (by rw [h.cam]) v
theorem EccCounted.active (v : Nat) : b.vcActive v = a.vcActive v := by
  rw [Core.vcActive, h.regs _ _ (by decide), Core.vcActive]
theorem EccCounted.sensorOf (v : Nat) : b.sensorOf v = a.sensorOf v := by
  unfold Core.sensorOf Core.sensors Core.camField
  rw [h.cam]
theorem EccCounted.outside : SameOutside [0x12] a b := h.regs.outside (by decide)

end

/-! ### Frame Start and Line Start (R459) -/

theorem Core.frameExposure_idle {s : Core} {v : Nat} (hans : (s.frame v).answered = false) (hpend : s.rd CAM_EXP_GEN.PENDING v = 0) :
    s.frameExposure v = s := by
  unfold Core.frameExposure
  extract_lets x t
  have ht : t = s := if_neg (by simp [x, hans])
  rw [ht, if_pos (by simp [Core.rdb, hpend])]

/-- The frame a Frame Start opens, after its header's ECC. -/
structure FrameOpened (v num : Nat) (a b : Core) : Prop where
  frame : ∃ ring, b.frame v = { a.frame v with
    open_ := true, num := num, set := a.ispSet v, gen := a.rd CAM_EXP_GEN.ACTIVE v, ring := ring, lines := 0
    lineStart := none, valid := true, green := 0, samples := 0, clips := 0, lastNum := some num, excused := false }
  regs : b.regs = a.regs

theorem Core.csiFrameStart_opens {s : Core} {v num : Nat} (fixed : Bool) (hvc : (s.eccFixed fixed).vcActive v = true)
    (hopen : ((s.eccFixed fixed).frame v).open_ = false) (hpend : (s.eccFixed fixed).rd CAM_EXP_GEN.PENDING v = 0)
    (hans : ((s.eccFixed fixed).frame v).answered = false)
    (hlast : ∀ n, ((s.eccFixed fixed).frame v).lastNum = some n → num = frameAfter n) :
    FrameOpened v num (s.eccFixed fixed) (s.csiFrameStart v fixed num) := by
  unfold Core.csiFrameStart
  extract_lets e t t' u ring w src x y
  have ht : t = e := if_neg (by simp [e, hopen])
  have ht' : t' = e := by
    unfold t'
    rw [ht]
    cases hnum : (e.frame v).lastNum with
    | none => rfl
    | some n => exact if_pos (hlast n hnum)
  have hu : u = e := by
    unfold u
    rw [ht']
    exact Core.frameExposure_idle hans hpend
  clear_value u
  have hregs : x.regs = e.regs := (congrArg Core.regs hu :)
  have hframes : x.cam.frames = e.cam.frames := congrArg (fun c => c.cam.frames) hu
  have htables : x.cam.tables = e.cam.tables := congrArg (fun c => c.cam.tables) hu
  have hy : y = e.frame v := Core.frame_congr hframes v
  clear_value x y
  subst hy
  have hset : x.ispSet v = e.ispSet v := Core.ispSet_same hregs htables v
  rw [if_neg (by simp [e, hvc]), hset, Core.rd_congr hregs]
  exact ⟨⟨ring, Core.frame_setFrame _ _ _⟩, hregs⟩

/-- A packet of a channel without injection. -/
theorem answers_of_camUnit {i : Instr} {s : State} {v : Nat} {line : Bool} {P : State → Prop}
    (hexec : exec i s = .next (s.onRunning fun c => c.camUnit v line i)) (hboot : s.field.core.bootState ≠ 1)
    (hlo : 4 ≤ s.field.core.camState) (hhi : s.field.core.camState ≤ 5) (hfij : NoInjection s.field.core)
    (h : ∀ t : State, t.field.core = s.field.core.camRecv i → CoreOnly s t → P t) : Answers i s P :=
  answers_of_onRunning (g := fun c => c.camUnit v line i) hexec hboot
    (h _ (Core.camUnit_plain hlo hhi hfij v line i) (CoreOnly.onCore _ _))
theorem ecc_free : ∀ v : Fin 4, CAM_EXP_GEN.PENDING.key v.val ∉ [CAM_ECC_CNT.CORR.key 0] ∧ CAM_EXP_GEN.ACTIVE.key v.val ∉ [CAM_ECC_CNT.CORR.key 0] ∧
    CAM_LINES.COUNT.key v.val ∉ [CAM_ECC_CNT.CORR.key 0] := by decide

theorem csiFrameStart_answers {s : State} {v : Fin 4} {num : BitVec 16} (fixed : Bool) (hboot : s.field.core.bootState ≠ 1)
    (hlo : 4 ≤ s.field.core.camState) (hhi : s.field.core.camState ≤ 5) (hfij : NoInjection s.field.core)
    (hvc : s.field.core.vcActive v.val = true) (hopen : (s.field.core.frame v.val).open_ = false)
    (hpend : s.field.core.rd CAM_EXP_GEN.PENDING v.val = 0) (hans : (s.field.core.frame v.val).answered = false)
    (hlast : ∀ n, (s.field.core.frame v.val).lastNum = some n → num.toNat = frameAfter n) :
    Answers (.csiFrameStart v fixed num) s fun t =>
      let x := t.field.core.frame v.val
      x.open_ = true ∧ x.num = num.toNat ∧ x.lines = 0 ∧ x.valid = true ∧ x.lineStart = none ∧
      x.lastNum = some num.toNat ∧ x.gen = s.field.core.rd CAM_EXP_GEN.ACTIVE v.val ∧
      x.set = s.field.core.ispSet v.val ∧
      t.field.core.rd CAM_ECC_CNT.CORR = (if fixed then satU 16 (s.field.core.rd CAM_ECC_CNT.CORR + 1)
        else s.field.core.rd CAM_ECC_CNT.CORR) ∧
      SameRegs [CAM_ECC_CNT.CORR.key 0] s.field.core t.field.core ∧ CoreOnly s t := by
  obtain ⟨hpk, hak, -⟩ := ecc_free v
  have hecc := s.field.core.eccFixed_counted fixed
  obtain ⟨⟨ring, hframe⟩, hregs⟩ := Core.csiFrameStart_opens (s := s.field.core) (num := num.toNat) fixed ((hecc.active _).trans hvc)
    (hecc.frame _ ▸ hopen) ((hecc.regs _ _ hpk).trans hpend) (hecc.frame _ ▸ hans) (hecc.frame _ ▸ hlast)
  have hset : (s.field.core.eccFixed fixed).ispSet v.val = s.field.core.ispSet v.val := Core.ispSet_congr hecc.outside (by rw [hecc.cam]) v
  refine answers_of_camUnit rfl hboot hlo hhi hfij fun t ht hcore => ?_
  replace ht : t.field.core = s.field.core.csiFrameStart v.val fixed num.toNat := ht
  rw [← ht] at hframe hregs
  dsimp only
  rw [hframe]
  exact ⟨rfl, rfl, rfl, rfl, rfl, rfl, hecc.regs _ _ hak, hset, (Core.rd_congr hregs _ _).trans hecc.corr,
    hecc.regs.trans (.of_regs hregs), hcore⟩

theorem csiLineStart_answers {s : State} {v : Fin 4} {num : BitVec 16} (fixed : Bool) (hboot : s.field.core.bootState ≠ 1)
    (hlo : 4 ≤ s.field.core.camState) (hhi : s.field.core.camState ≤ 5) (hfij : NoInjection s.field.core)
    (hvc : s.field.core.vcActive v.val = true) :
    Answers (.csiLineStart v fixed num) s fun t =>
      t.field.core.frame v.val = { s.field.core.frame v.val with lineStart := some num.toNat } ∧
      t.field.core.rd CAM_ECC_CNT.CORR = (if fixed then satU 16 (s.field.core.rd CAM_ECC_CNT.CORR + 1)
          else s.field.core.rd CAM_ECC_CNT.CORR) ∧
      SameRegs [CAM_ECC_CNT.CORR.key 0] s.field.core t.field.core ∧ CoreOnly s t := by
  have hecc := s.field.core.eccFixed_counted fixed
  refine answers_of_camUnit rfl hboot hlo hhi hfij fun t ht hcore => ?_
  replace ht : t.field.core = s.field.core.csiLineStart v.val fixed num.toNat := ht
  unfold Core.csiLineStart at ht
  extract_lets e at ht
  rw [if_neg (by simp [e, hecc.active, hvc])] at ht
  rw [ht, Core.frame_setFrame]
  exact ⟨congrArg (fun x : CamFrame => { x with lineStart := some num.toNat }) (hecc.frame _), hecc.corr, hecc.regs, hcore⟩

/-! ### A line packet (R453, R459, R464) -/

theorem Core.missLines_next {s : Core} {v num : Nat}
    (hnext : num = match (s.frame v).lastTrig with | some n => (n + 1) % 65536 | none => 0) :
    s.missLines v num = s.setFrame v { s.frame v with lastTrig := some num } := by
  unfold Core.missLines
  extract_lets x next gap t
  have heq : num = next := hnext
  clear_value next
  subst heq
  have hgap : gap = 0 := by
    unfold gap
    omega
  clear_value gap
  subst hgap
  rw [if_neg (by decide)]
  unfold t
  rw [beq_self_eq_true, Bool.and_true]
  rfl

theorem Core.markCamera_csv (s : Core) : s.markCamera = { s with csv := s.markCamera.csv } := by
  unfold Core.markCamera
  split <;> rfl
/-- The camera goes on running, or begins to (R475). -/
theorem Core.setCamState_running (s : Core) : (s.setCamState 5).camState = 5 ∧ SameRegs [CAM_STATUS.STATE.key 0] s (s.setCamState 5) ∧
    ∃ stopAt, (s.setCamState 5).cam = { s.cam with stopAt := stopAt } := by
  unfold Core.setCamState
  rw [s.markCamera_csv]
  split
  · exact ⟨Core.rd_wr _ _ _ _, SameRegs.wr (.of_regs rfl) _, _, rfl⟩
  · rw [if_neg (fun h => h.2 rfl)]
    exact ⟨Core.rd_wr _ _ _ _, (SameRegs.refl _ s).wr _, _, rfl⟩

theorem Core.slotLine_room {s : Core} (h : s.cam.slots.length < 16) (l : IspLine) :
    s.slotLine l = s.setCam { s.cam with slots := s.cam.slots ++ [l] } := if_pos h
theorem lineKeys_ne : ∀ v : Fin 4, CAM_LINES.COUNT.key v.val ∉ [CAM_STATUS.STATE.key 0] := by decide

/-- A line that a trigger waited for, in the first slot that is free. -/
structure LineStored (v num dt : Nat) (k : CamTrig) (p : Bytes) (a b : Core) : Prop where
  running : b.camState = 5
  count : b.rd CAM_LINES.COUNT v = satU 32 (a.rd CAM_LINES.COUNT v + 1)
  frame : b.frame v = { a.frame v with lines := (a.frame v).lines + 1, lastTrig := some num, lineStart := none }
  slot : ∃ l, b.cam.slots = a.cam.slots ++ [l] ∧ l.vc = v ∧ l.raw = p ∧ l.pos = k.pos ∧ l.etime = k.etime ∧
    l.frame = (a.frame v).num ∧ l.line = (a.frame v).lines ∧ l.bad = false ∧ l.dt = dt ∧ l.set = (a.frame v).set
  regs : SameRegs [CAM_LINES.COUNT.key v, CAM_STATUS.STATE.key 0] a b

theorem Core.placeLine_stored {s : Core} {v : Fin 4} {i num dt wc : Nat} {k : CamTrig} {p : Bytes} (hsensor : s.sensorOf v.val = some i)
    (hdt : s.camField (0x41 + 16 * i) 1 = dt) (hstart : (s.frame v.val).lineStart = some num) (hopen : (s.frame v.val).open_ = true)
    (hlines : (s.frame v.val).lines < s.rd CAM_CFG.FRAME_LINES) (hfind : s.cam.fifo.find? (fun k => k.num == num) = some k)
    (hnext : num = match (s.frame v.val).lastTrig with | some n => (n + 1) % 65536 | none => 0)
    (hwc : wc = wordCount dt (s.pixels i)) (hslots : s.cam.slots.length < 16) :
    LineStored v.val num dt k p s (s.placeLine v.val dt wc p true) := by
  unfold Core.placeLine
  split
  next h => cases h.symm.trans hsensor
  next j h =>
  cases h.symm.trans hsensor
  extract_lets x began
  rw [if_neg (not_not_intro hdt)]
  split
  next h => cases h.symm.trans hstart
  next n h =>
  cases h.symm.trans hstart
  extract_lets t y u w z r
  rw [if_neg (by simp [x, hopen])]
  split
  next h => cases h.symm.trans hfind
  next k' h =>
  cases h.symm.trans hfind
  have hmiss : began.missLines v.val num = began.setFrame v.val { began.frame v.val with lastTrig := some num } :=
    Core.missLines_next (by rw [Core.frame_setFrame]; exact hnext)
  have hframe : t.frame v.val = { s.frame v.val with lineStart := none, lastTrig := some num } := by
    have hbegan : began.frame v.val = { s.frame v.val with lineStart := none } := s.frame_setFrame _ _
    have ht : t.frame v.val = (began.missLines v.val num).frame v.val := rfl
    rw [ht, hmiss, Core.frame_setFrame, hbegan]
  have hregs : t.regs = s.regs := by
    have ht : t.regs = (began.missLines v.val num).regs := rfl
    rw [ht, hmiss]
    rfl
  have hcam : t.cam.slots = s.cam.slots ∧ t.cam.mem = s.cam.mem := by
    have ht : t.cam.slots = (began.missLines v.val num).cam.slots ∧ t.cam.mem = (began.missLines v.val num).cam.mem := ⟨rfl, rfl⟩
    rw [ht.1, ht.2, hmiss]
    exact ⟨rfl, rfl⟩
  obtain ⟨htslots, hmem⟩ := hcam
  have hu : u = t := if_pos rfl
  clear_value t u
  subst hu
  obtain ⟨hrun, hstate, stopAt, hwcam⟩ := (u.inc CAM_LINES.COUNT v.val).setCamState_running
  have hz : z = u.frame v.val := Core.frame_congr (by rw [hwcam]; rfl) _
  have hpix : u.pixels i = s.pixels i := by rw [Core.pixels, Core.camField, hmem, Core.pixels, Core.camField]
  have hy : y.lines = (s.frame v.val).lines := (congrArg CamFrame.lines hframe :)
  rw [if_neg (by rw [Core.rd_congr hregs, hy]; omega), if_neg (by rw [hpix]; exact not_not_intro hwc)]
  have hrslots : r.cam.slots = s.cam.slots := by
    have hr : r.cam.slots = w.cam.slots := rfl
    rw [hr, hwcam]
    exact htslots
  have hrframe : r.frame v.val = { z with lines := z.lines + 1 } := w.frame_setFrame _ _
  have hrregs : r.regs = w.regs := rfl
  have hwcount : w.rd CAM_LINES.COUNT v.val = satU 32 (s.rd CAM_LINES.COUNT v.val + 1) := by
    rw [hstate _ _ (lineKeys_ne v), Core.rd_inc_self, Core.rd_congr hregs]
    rfl
  have hwregs : SameRegs [CAM_LINES.COUNT.key v.val, CAM_STATUS.STATE.key 0] s w :=
    ((SameRegs.of_regs hregs).inc 1 List.mem_cons_self).trans (hstate.mono (List.subset_cons_self _ _))
  have hwrun : w.camState = 5 := hrun
  replace hz := hz.trans hframe
  clear_value r w z
  subst hz
  rw [Core.slotLine_room (hrslots ▸ hslots)]
  exact ⟨(Core.rd_congr hrregs _ _).trans hwrun, (Core.rd_congr hrregs _ _).trans hwcount, (Core.frame_congr rfl _).trans hrframe,
    ⟨_, congrArg (· ++ _) hrslots, rfl, rfl, rfl, rfl, rfl, rfl, rfl, rfl, rfl⟩, hwregs.trans (.of_regs hrregs)⟩

theorem csiLinePacket_answers {s : State} {v : Fin 4} (fixed : Bool) (hboot : s.field.core.bootState ≠ 1)
    (hlo : 4 ≤ s.field.core.camState) (hhi : s.field.core.camState ≤ 5) (hfij : NoInjection s.field.core)
    (hvc : s.field.core.vcActive v.val = true) {i num : Nat} {k : CamTrig} {dt : Byte} {wc : BitVec 16} {p : Bytes}
    (hsensor : s.field.core.sensorOf v.val = some i) (hdt : s.field.core.camField (0x41 + 16 * i) 1 = dt.toNat)
    (hstart : (s.field.core.frame v.val).lineStart = some num) (hopen : (s.field.core.frame v.val).open_ = true)
    (hlines : (s.field.core.frame v.val).lines < s.field.core.rd CAM_CFG.FRAME_LINES)
    (hfind : s.field.core.cam.fifo.find? (fun k => k.num == num) = some k)
    (hnext : num = match (s.field.core.frame v.val).lastTrig with | some n => (n + 1) % 65536 | none => 0)
    (hwc : wc.toNat = wordCount dt.toNat (s.field.core.pixels i)) (hslots : s.field.core.cam.slots.length < 16) :
    Answers (.csiLinePacket v (if fixed then .fixed else .good) dt wc p true) s fun t =>
      t.field.core.camState = 5 ∧ t.field.core.rd CAM_LINES.COUNT v.val =
        satU 32 (s.field.core.rd CAM_LINES.COUNT v.val + 1) ∧
      (t.field.core.frame v.val).lines = (s.field.core.frame v.val).lines + 1 ∧
      (t.field.core.frame v.val).lastTrig = some num ∧ (t.field.core.frame v.val).lineStart = none ∧
      (∃ l, t.field.core.cam.slots = s.field.core.cam.slots ++ [l] ∧ l.vc = v.val ∧ l.raw = p ∧ l.pos = k.pos ∧
        l.etime = k.etime ∧ l.frame = (s.field.core.frame v.val).num ∧ l.line = (s.field.core.frame v.val).lines ∧
        l.bad = false ∧ l.dt = dt.toNat ∧ l.set = (s.field.core.frame v.val).set) ∧
      SameRegs [CAM_ECC_CNT.CORR.key 0, CAM_LINES.COUNT.key v.val, CAM_STATUS.STATE.key 0] s.field.core t.field.core ∧
      CoreOnly s t := by
  have hecc := s.field.core.eccFixed_counted fixed
  refine answers_of_camUnit rfl hboot hlo hhi hfij fun t ht hcore => ?_
  replace ht : t.field.core = (s.field.core.eccFixed fixed).placeLine v.val dt.toNat wc.toNat p true := by
    rw [ht]
    have hact : ¬ (!(s.field.core.eccFixed fixed).vcActive v.val) = true := by simp [hecc.active, hvc]
    cases fixed <;> exact if_neg hact
  have hcam := hecc.cam
  have hframe := hecc.frame v.val
  have hfld : ∀ a n, (s.field.core.eccFixed fixed).camField a n = s.field.core.camField a n := fun a n => by
    rw [Core.camField, hcam, Core.camField]
  have hst := Core.placeLine_stored (s := s.field.core.eccFixed fixed) (wc := wc.toNat) (p := p) ((hecc.sensorOf _).trans hsensor) ((hfld _ _).trans hdt) (hframe ▸ hstart) (hframe ▸ hopen)
    (by rw [hframe, hecc.regs _ _ (by decide)]; exact hlines) (hcam ▸ hfind) (hframe ▸ hnext)
    (by rw [Core.pixels, hfld]; exact hwc) (hcam ▸ hslots)
  rw [← ht] at hst
  obtain ⟨hrun, hcount, hto, ⟨l, hslot, hl⟩, hregs⟩ := hst
  rw [hframe] at hto hl
  rw [hto]
  exact ⟨hrun, hcount.trans (by rw [hecc.regs _ _ (ecc_free v).2.2]), rfl, rfl, rfl, ⟨l, hcam ▸ hslot, hl⟩,
    (hecc.regs.mono (by simp)).trans (hregs.mono (List.subset_cons_self _ _)), hcore⟩

/-! ### Frame End (R466) -/

/-- The keys of a channel's frame statistics. -/
def statKeys (v : Nat) : List Nat := [ISP_STAT_MEAN.MEAN.key v, ISP_STAT_MEAN.GEN.key v, ISP_STAT_MEAN.VALID.key v,
  ISP_STAT_CLIP.CLIP.key v, ISP_STAT_FRAME.FRAME.key v]
theorem statKeys_nodup : ∀ v : Fin 4, (statKeys v.val).Nodup ∧ CAM_ECC_CNT.CORR.key 0 ∉ statKeys v.val := by decide
/-- Of fields at different places that are written together, each reads what it was given. -/
theorem Core.rd_wrs_mem {l : List (Fld × Nat)} {n : Nat} (s : Core) (hnd : (l.map fun p => p.1.key n).Nodup) {p : Fld × Nat} (hp : p ∈ l) :
    (s.wrs l n).rd p.1 n = p.2 % 2 ^ p.1.width := by
  induction l generalizing s with
  | nil => cases hp
  | cons q l ih =>
    obtain ⟨hq, hl⟩ := List.nodup_cons.1 hnd
    rcases List.mem_cons.1 hp with rfl | hmem
    · exact (Core.rd_wrs_ne l n p.1 n _ fun r hr e => hq (List.mem_map.2 ⟨r, hr, e.symm⟩)).trans (Core.rd_wr _ _ _ _)
    · exact ih (s.wr q.1 q.2 n) hl hmem
theorem EccCounted.endMissing {a b : Core} {fixed : Bool} (h : EccCounted fixed a b) (v : Nat) (x : CamFrame) :
    b.endMissing v x = a.endMissing v x := by
  unfold Core.endMissing Core.rd2
  rw [h.cam, h.regs _ _ (by decide), h.regs _ _ (by decide), h.regs _ _ (by decide)]

/-- The statistics of a frame are shown together. -/
structure StatsShown (v : Nat) (x : CamFrame) (valid : Bool) (a b : Core) : Prop where
  mean : b.rd ISP_STAT_MEAN.MEAN v = (if x.samples = 0 then 0 else x.green / x.samples) % 65536
  gen : b.rd ISP_STAT_MEAN.GEN v = x.gen % 256
  valid : b.rd ISP_STAT_MEAN.VALID v = b2n valid
  clip : b.rd ISP_STAT_CLIP.CLIP v = satU 24 x.clips
  frame : b.rd ISP_STAT_FRAME.FRAME v = x.num % 65536
  regs : SameRegs (statKeys v) a b

theorem Core.stats_shown (s : Core) (v : Fin 4) (x : CamFrame) (valid : Bool) :
    StatsShown v.val x valid s (s.wrs [(ISP_STAT_MEAN.MEAN, if x.samples = 0 then 0 else x.green / x.samples), (ISP_STAT_MEAN.GEN, x.gen),
      (ISP_STAT_MEAN.VALID, b2n valid), (ISP_STAT_CLIP.CLIP, satU 24 x.clips), (ISP_STAT_FRAME.FRAME, x.num)] v.val) := by
  have hrd := fun p hp => Core.rd_wrs_mem (n := v.val) s (l := [(ISP_STAT_MEAN.MEAN, if x.samples = 0 then 0 else x.green / x.samples),
    (ISP_STAT_MEAN.GEN, x.gen), (ISP_STAT_MEAN.VALID, b2n valid), (ISP_STAT_CLIP.CLIP, satU 24 x.clips), (ISP_STAT_FRAME.FRAME, x.num)])
    (statKeys_nodup v).1 (p := p) hp
  simp only [List.forall_mem_cons] at hrd
  obtain ⟨hmean, hgen, hvalid, hclip, hframe, -⟩ := hrd
  refine ⟨hmean, hgen, hvalid.trans ?_, hclip.trans (Nat.mod_eq_of_lt (satU_lt 24 _)), hframe, ?_⟩
  · cases valid <;> rfl
  · refine SameRegs.wrs (.refl _ s) fun p hp => ?_
    exact (List.mem_map (f := fun p : Fld × Nat => p.1.key v.val)).2 ⟨p, hp, rfl⟩

theorem StatsShown.of_regs {v : Nat} {x : CamFrame} {valid : Bool} {a b c : Core} (h : StatsShown v x valid a b) (hc : c.regs = b.regs) :
    StatsShown v x valid a c :=
  ⟨(Core.rd_congr hc _ _).trans h.mean, (Core.rd_congr hc _ _).trans h.gen, (Core.rd_congr hc _ _).trans h.valid,
    (Core.rd_congr hc _ _).trans h.clip, (Core.rd_congr hc _ _).trans h.frame, h.regs.trans (.of_regs hc)⟩

/-- A frame ends, no line of which is still in the pipeline. -/
theorem Core.endFrame_shown {s : Core} (v : Fin 4) (hslots : s.cam.slots = []) :
    StatsShown v.val (s.frame v.val) ((s.frame v.val).valid && !s.endMissing v.val (s.frame v.val)) s (s.endFrame v.val true) ∧
    ((s.endFrame v.val true).frame v.val).open_ = false := by
  unfold Core.endFrame
  rw [hslots]
  extract_lets t x u
  have hu := s.stats_shown v (s.frame v.val) ((s.frame v.val).valid && !s.endMissing v.val (s.frame v.val))
  exact ⟨StatsShown.of_regs hu rfl, congrArg CamFrame.open_ (u.frame_setFrame _ _)⟩

theorem csiFrameEnd_answers {s : State} {v : Fin 4} {num : BitVec 16} (fixed : Bool) (hboot : s.field.core.bootState ≠ 1)
    (hlo : 4 ≤ s.field.core.camState) (hhi : s.field.core.camState ≤ 5) (hfij : NoInjection s.field.core)
    (hvc : s.field.core.vcActive v.val = true) (hopen : (s.field.core.frame v.val).open_ = true) (hslots : s.field.core.cam.slots = [])
    (hlines : s.field.core.rd CAM_CFG.FRAME_LINES ≤ (s.field.core.frame v.val).lines) :
    Answers (.csiFrameEnd v fixed num) s fun t =>
      let x := s.field.core.frame v.val
      (t.field.core.frame v.val).open_ = false ∧
      t.field.core.rd ISP_STAT_MEAN.MEAN v.val = (if x.samples = 0 then 0 else x.green / x.samples) % 65536 ∧
      t.field.core.rd ISP_STAT_MEAN.GEN v.val = x.gen % 256 ∧ t.field.core.rd ISP_STAT_MEAN.VALID v.val =
        b2n (x.valid && !s.field.core.endMissing v.val x) ∧
      t.field.core.rd ISP_STAT_CLIP.CLIP v.val = satU 24 x.clips ∧
      t.field.core.rd ISP_STAT_FRAME.FRAME v.val = x.num % 65536 ∧
      SameRegs (CAM_ECC_CNT.CORR.key 0 :: statKeys v.val) s.field.core t.field.core ∧ CoreOnly s t := by
  have hecc := s.field.core.eccFixed_counted fixed
  obtain ⟨hshown, hended⟩ := Core.endFrame_shown (s := s.field.core.eccFixed fixed) v (hecc.cam ▸ hslots)
  refine answers_of_camUnit rfl hboot hlo hhi hfij fun t ht hcore => ?_
  replace ht : t.field.core = (s.field.core.eccFixed fixed).endFrame v.val true := by
    have hend : t.field.core = s.field.core.csiFrameEnd v.val fixed num.toNat := ht
    have hshort : (s.field.core.eccFixed fixed).shortFrame v.val = s.field.core.eccFixed fixed := by
      refine if_neg fun h => ?_
      rw [hecc.frame, hecc.regs _ _ (by decide)] at h
      omega
    rw [hend, Core.csiFrameEnd]
    rw [if_neg (by simp [hecc.active, hvc]), if_neg (by simp [hecc.frame, hopen]), hshort]
  rw [← ht] at hshown hended
  rw [hecc.frame, hecc.endMissing] at hshown
  obtain ⟨hmean, hgen, hvalid, hclip, hframe, hregs⟩ := hshown
  exact ⟨hended, hmean, hgen, hvalid, hclip, hframe, (hecc.regs.mono (by simp)).trans (hregs.mono (List.subset_cons_self _ _)), hcore⟩

/-! ### A trigger (R452) -/

/-- The position of a frame start, where it is waited for, is the web's. -/
structure Core.FsShown (a b : Core) : Prop where
  pos : a.cam.fsWait = true → b.rd2 CAM_FS_POS_LO.POS CAM_FS_POS_HI.POS = a.phi % 2 ^ 38
  regs : SameRegs [CAM_FS_POS_LO.POS.key 0, CAM_FS_POS_HI.POS.key 0] a b
  parts : Touches [] a b
theorem Core.fsShown_wr (s : Core) : s.FsShown (s.wr2 CAM_FS_POS_LO.POS CAM_FS_POS_HI.POS s.phi) := by
  refine ⟨fun _ => ?_, ((SameRegs.refl _ s).wr _).wr _, (Touches.wr _ _ _ _).trans (Touches.wr _ _ _ _)⟩
  unfold Core.rd2 Core.wr2
  rw [Core.rd_wr_ne _ _ _ _ _ _ (by decide), Core.rd_wr, Core.rd_wr, show (2 : Nat) ^ 38 = 2 ^ 32 * 2 ^ 6 from rfl, Nat.mod_mul]
  exact congrArg (· + _) (Nat.mod_mod _ _)
theorem Core.phi_congr {ks : List Nat} {a b : Core} (h : SameRegs ks a b) (ho : b.spg = a.spg)
    (hks : ∀ f ∈ [POS_WEB_COUNT_LO.COUNT, POS_WEB_COUNT_HI.COUNT, SPG_LPC_LO.LPC, SPG_LPC_HI.LPC], f.key 0 ∉ ks := by decide) :
    b.phi = a.phi := by
  simp only [List.forall_mem_cons] at hks
  obtain ⟨hwlo, hwhi, hllo, hlhi, -⟩ := hks
  rw [Core.phi, h.webCount hwlo hwhi, h.lpc hllo hlhi, ho, Core.phi]

theorem camLineTrigger_answers {s : State} (hboot : s.field.core.bootState ≠ 1) (hlo : 4 ≤ s.field.core.camState)
    (hhi : s.field.core.camState ≤ 5) : Answers .camLineTrigger s fun t =>
      t.field.core.cam.trigNext = (s.field.core.cam.trigNext + 1) % 65536 ∧ t.field.core.cam.fsWait = false ∧
      (if s.field.core.cam.fifo.length < 1024 then
        t.field.core.cam.fifo = s.field.core.cam.fifo ++ [⟨s.field.core.cam.trigNext, s.field.core.phi, s.field.core.etime,
          s.field.core.rd CAM_STATUS.VC_MASK⟩]
      else t.field.core.cam.fifo = s.field.core.cam.fifo ∧
        t.field.core.rd CAM_TRIG_FIFO.OVR = satU 16 (s.field.core.rd CAM_TRIG_FIFO.OVR + 1)) ∧
      (s.field.core.cam.fsWait = true →
        t.field.core.rd2 CAM_FS_POS_LO.POS CAM_FS_POS_HI.POS = s.field.core.phi % 2 ^ 38) ∧
      SameRegs [CAM_FS_POS_LO.POS.key 0, CAM_FS_POS_HI.POS.key 0, CAM_TRIG_FIFO.OVR.key 0] s.field.core t.field.core ∧
      CoreOnly s t := by
  refine answers_of_onRunning rfl hboot ?_
  generalize ht : (s.onCore doCamLineTrigger) = t
  have hcore : CoreOnly s t := ht ▸ CoreOnly.onCore _ _
  replace ht : t.field.core = doCamLineTrigger s.field.core := ht ▸ rfl
  unfold doCamLineTrigger at ht
  rw [if_neg (by omega)] at ht
  extract_lets x u full w at ht
  have hu : Core.FsShown s.field.core u := by
    unfold u
    split
    next hwait => exact s.field.core.fsShown_wr
    next hwait => exact ⟨fun h => absurd h hwait, .refl _ _, .refl _ _⟩
  have hovr : w.rd CAM_TRIG_FIFO.OVR = if full then satU 16 (u.rd CAM_TRIG_FIFO.OVR + 1) else u.rd CAM_TRIG_FIFO.OVR := by
    unfold w
    split
    · exact u.rd_inc_self _ _ _
    · rfl
  have hw : SameRegs [CAM_TRIG_FIFO.OVR.key 0] u w ∧ Touches [] u w := by
    unfold w
    split
    · exact ⟨(SameRegs.refl _ u).inc _, Touches.wr _ _ _ _⟩
    · exact ⟨.refl _ u, .refl _ u⟩
  obtain ⟨hpos, hur, hup⟩ := hu
  obtain ⟨hwr, hwp⟩ := hw
  have hregs : SameRegs [CAM_FS_POS_LO.POS.key 0, CAM_FS_POS_HI.POS.key 0, CAM_TRIG_FIFO.OVR.key 0] s.field.core w :=
    (hur.mono (by simp)).trans (hwr.mono (by simp))
  have hparts := hup.trans hwp
  have hphi : w.phi = s.field.core.phi := Core.phi_congr hregs (hparts .spg (by simp))
  have hetime : w.etime = s.field.core.etime := hparts .etime (by simp)
  rw [hphi, hetime, hregs _ _ (by decide)] at ht
  rw [hur _ _ (by decide)] at hovr
  have hpos' : s.field.core.cam.fsWait = true → w.rd2 CAM_FS_POS_LO.POS CAM_FS_POS_HI.POS = s.field.core.phi % 2 ^ 38 := fun h => by
    rw [← hpos h, Core.rd2, hwr _ _ (by decide), hwr _ _ (by decide), Core.rd2]
  clear_value w u
  rw [ht]
  refine ⟨rfl, rfl, ?_, hpos', hregs, hcore⟩
  by_cases hfull : x.fifo.length < 1024
  · rw [if_pos hfull]
    exact if_neg (by omega)
  · rw [if_neg hfull]
    exact ⟨if_pos (by omega), hovr.trans (if_pos (by omega))⟩

/-! ### A line goes into the ring (R463, R468) -/

theorem Core.addStats_cam (s : Core) (l : IspLine) : ∃ frames, s.addStats l = s.setCam { s.cam with frames := frames } := by
  unfold Core.addStats
  extract_lets x
  split
  · exact ⟨_, rfl⟩
  · exact ⟨_, rfl⟩

theorem lineCnt_free : ∀ v : Fin 4, ISP_LINE_CNT.COUNT.key v.val ∉ activateKeys := by decide
theorem ispLineProcess_answers {s : State} {l : IspLine} {ls : List IspLine} (hboot : s.field.core.bootState ≠ 1)
    (hslots : s.field.core.cam.slots = l :: ls) (hvc : l.vc < 4)
    (hch : ∀ ch ∈ s.field.core.mem.layout, ch < 4) (hst : ∀ ch, ch < 4 → s.field.core.rd MEMC_STATUS.STATE ch ≠ 3) :
    Answers (.ispLineProcess none) s fun t =>
      t.field.core.etime =
        max s.field.core.etime (max s.field.core.cam.busyAt l.got + 3000 * l.pixels / s.field.core.ispRate) ∧
      t.field.core.cam.slots = ls ∧
      t.field.core.rd ISP_LINE_CNT.COUNT l.vc = satU 32 (s.field.core.rd ISP_LINE_CNT.COUNT l.vc + 1) ∧
      t.field.core.cam.ring = s.field.core.cam.ring ++
        [⟨l.vc, l.ring, l.line, l.frame, l.pos, l.etime, l.gen, l.bad, l.addr⟩] ∧
      (∀ i, i < (ispOut l).length → t.field.dram.get (l.addr + i) = (ispOut l).getD i 0) ∧
      SameBytes l.addr (ispOut l).length s.field.dram t.field.dram ∧ t.pending = s.pending ∧ t.host = s.host := by
  refine answers_of_onRunningField (g := doIspLineProcess none) rfl hboot ?_
  have hdo : ∃ c, doIspLineProcess none s.field = ⟨c, s.field.dram.write l.addr (ispOut l)⟩ ∧
      c.etime = max s.field.core.etime (max s.field.core.cam.busyAt l.got + 3000 * l.pixels / s.field.core.ispRate) ∧
      c.cam.slots = ls ∧ c.rd ISP_LINE_CNT.COUNT l.vc = satU 32 (s.field.core.rd ISP_LINE_CNT.COUNT l.vc + 1) ∧
      c.cam.ring = s.field.core.cam.ring ++ [⟨l.vc, l.ring, l.line, l.frame, l.pos, l.etime, l.gen, l.bad, l.addr⟩] := by
    unfold doIspLineProcess
    extract_lets c
    split
    next h => cases h.symm.trans hslots
    next l' rest h =>
    cases h.symm.trans hslots
    rw [if_neg (by simp [c, Core.stalls_none hch hst])]
    extract_lets done u v w x y src z
    have hw : w.etime = max c.etime done ∧ w.cam.ring = c.cam.ring ∧
        w.rd ISP_LINE_CNT.COUNT l.vc = satU 32 (c.rd ISP_LINE_CNT.COUNT l.vc + 1) := by
      obtain ⟨frames, hstats⟩ := v.addStats_cam l
      unfold w
      rw [hstats]
      exact ⟨rfl, rfl, Core.rd_inc_self _ _ _ _⟩
    have hy : y = w := if_neg (by simp)
    clear_value w y
    subst hy
    have hserved : Served z (z.stores 1 l.addr (3 * l.pixels + 32)) := z.requests_served _
    obtain ⟨hetime, hring, hcount⟩ := hw
    have hcam : (z.stores 1 l.addr (3 * l.pixels + 32)).cam = z.cam := hserved.parts .cam (by decide)
    refine ⟨_, rfl, (hserved.parts .etime (by decide)).trans hetime, congrArg CamSt.slots hcam,
      (hserved.regs _ _ (lineCnt_free ⟨_, hvc⟩)).trans hcount, (congrArg CamSt.ring hcam).trans ?_⟩
    simp only [z, Core.setCam, hring, Option.isSome_none, Bool.or_false]
    rfl
  obtain ⟨c, hc, hetime, hls, hcount, hring⟩ := hdo
  dsimp only
  rw [hc]
  exact ⟨hetime, hls, hcount, hring, fun i hi => Dram.get_write_in _ _ _ hi, fun x hx => Dram.get_write_out _ _ _ hx, rfl, rfl⟩

/-- Settles O56: without injection each packet is its own effect, and the pipeline's write reaches the ring's bytes alone. -/
theorem cameraLinesReachTheRing : Obligations.CameraLinesReachTheRing := by
  unfold Obligations.CameraLinesReachTheRing
  intro s hboot
  refine ⟨fun v fixed num hlo hhi hfij hvc => ⟨?_, ?_, ?_, ?_⟩, fun hlo hhi => camLineTrigger_answers hboot hlo hhi, ?_⟩
  · exact fun hopen hpend hans hlast => csiFrameStart_answers fixed hboot hlo hhi hfij hvc hopen hpend hans hlast
  · exact csiLineStart_answers fixed hboot hlo hhi hfij hvc
  · exact fun i num k dt wc p hsensor hdt hstart hopen hlines hfind hnext hwc hslots =>
      csiLinePacket_answers fixed hboot hlo hhi hfij hvc hsensor hdt hstart hopen hlines hfind hnext hwc hslots
  · exact fun hopen hslots hlines => csiFrameEnd_answers fixed hboot hlo hhi hfij hvc hopen hslots hlines
  · exact fun l ls _ hslots hvc hch hst => ispLineProcess_answers hboot hslots hvc hch hst

end Sys2Proof.Machine
end

section
/-! PROOF. Rows, errors, ranks and the address space of the DRAM (spec/13_memory_subsystem.md R513 to R531). -/

namespace Sys2Proof.Machine

set_option Elab.async false

/-! ### Banks and their rows (R517 to R519) -/

theorem Core.bank_setBank (s : Core) (ch rank bank : Nat) (x : Bank) : (s.setBank ch rank bank x).bank ch rank bank = x := mget_mset _ _ _ _
theorem Core.bank_setBank_ne (s : Core) {ch rank bank ch' rank' bank' : Nat} (x : Bank) (h : bankKey ch' rank' bank' ≠ bankKey ch rank bank) :
    (s.setBank ch rank bank x).bank ch' rank' bank' = s.bank ch' rank' bank' := mget_mset_ne _ _ h
/-- A bank as it stands differs in its row and its refreshes at most. -/
theorem Core.bankNow_keeps (s : Core) (ch rank bank : Nat) : (s.bankNow ch rank bank).last = (s.bank ch rank bank).last ∧
    (s.bankNow ch rank bank).page = (s.bank ch rank bank).page ∧ (s.bankNow ch rank bank).counts = (s.bank ch rank bank).counts := by
  unfold Core.bankNow
  extract_lets b owed b'
  have hb : b'.last = b.last ∧ b'.page = b.page ∧ b'.counts = b.counts := by
    unfold b'
    split
    · exact ⟨rfl, rfl, rfl⟩
    · exact ⟨rfl, rfl, rfl⟩
  split
  · exact hb
  · exact hb

/-- A closed row: the bank's other records, and the other banks, stay. -/
structure RowClosed (ch rank bank due : Nat) (a b : Core) : Prop where
  etime : b.etime = max a.etime due
  row : (b.bank ch rank bank).row = none
  last : (b.bank ch rank bank).last = (a.bank ch rank bank).last
  page : (b.bank ch rank bank).page = (a.bank ch rank bank).page
  counts : (b.bank ch rank bank).counts = (a.bank ch rank bank).counts
  others : ∀ ch' rank' bank', bankKey ch' rank' bank' ≠ bankKey ch rank bank → b.bank ch' rank' bank' = a.bank ch' rank' bank'
  regs : b.regs = a.regs

theorem Core.rowClosed (s : Core) (ch rank bank due refAt : Nat) :
    RowClosed ch rank bank due s ((s.reach due).setBank ch rank bank
      { (s.reach due).bankNow ch rank bank with row := none, refAt := refAt }) := by
  obtain ⟨hlast, hpage, hcounts⟩ := (s.reach due).bankNow_keeps ch rank bank
  have hsame := (s.reach due).bank_setBank ch rank bank { (s.reach due).bankNow ch rank bank with row := none, refAt := refAt }
  exact ⟨rfl, congrArg Bank.row hsame, (congrArg Bank.last hsame).trans hlast, (congrArg Bank.page hsame).trans hpage,
    (congrArg Bank.counts hsame).trans hcounts, fun _ _ _ h => Core.bank_setBank_ne _ _ h, rfl⟩
theorem doDramRefresh_closes (ch rank bank : Nat) (s : Core) :
    RowClosed ch rank bank ((s.bank ch rank bank).refAt + s.tRefi ch rank) s (doDramRefresh ch rank bank s) := s.rowClosed _ _ _ _ _
theorem doRowIdleClose_closes {ch rank bank : Nat} {s : Core} (h : (s.bank ch rank bank).row ≠ none) :
    RowClosed ch rank bank ((s.bank ch rank bank).used + 1000) s (doRowIdleClose ch rank bank s) := by
  have hdo : doRowIdleClose ch rank bank s = (s.reach ((s.bank ch rank bank).used + 1000)).closeRow ch rank bank :=
    if_neg (by simpa using h)
  rw [hdo]
  exact s.rowClosed _ _ _ _ _

theorem bankRow_answers {s : State} (hboot : s.field.core.bootState ≠ 1) (ch : Fin 4) (r : Fin 3) (b : Fin 32) (i : Instr) (due : Nat) :
    let x := s.field.core.bank ch.val r.val b.val
    (i = .dramRefresh ch r b ∧ due = x.refAt + s.field.core.tRefi ch.val r.val) ∨
      (i = .rowIdleClose ch r b ∧ x.row ≠ none ∧ due = x.used + 1000) →
    Answers i s fun t =>
      let y := t.field.core.bank ch.val r.val b.val
      t.field.core.etime = max s.field.core.etime due ∧
      y.row = none ∧ y.last = x.last ∧ y.page = x.page ∧ y.counts = x.counts ∧
      (∀ ch' r' b', bankKey ch' r' b' ≠ bankKey ch.val r.val b.val →
        t.field.core.bank ch' r' b' = s.field.core.bank ch' r' b') ∧
      t.field.core.regs = s.field.core.regs ∧ CoreOnly s t := by
  rintro x (⟨rfl, rfl⟩ | ⟨rfl, hrow, rfl⟩)
  · obtain ⟨hetime, hnone, hlast, hpage, hcounts, hother, hregs⟩ := doDramRefresh_closes ch.val r.val b.val s.field.core
    exact answers_of_onRunning rfl hboot ⟨hetime, hnone, hlast, hpage, hcounts, hother, hregs, CoreOnly.onCore _ _⟩
  · obtain ⟨hetime, hnone, hlast, hpage, hcounts, hother, hregs⟩ := doRowIdleClose_closes hrow
    exact answers_of_onRunning rfl hboot ⟨hetime, hnone, hlast, hpage, hcounts, hother, hregs, CoreOnly.onCore _ _⟩

/-- A value of a map all of whose values are changed alike, and what it holds elsewhere is not. -/
theorem mget_map {α : Type} {g : α → α} {d : α} (hd : g d = d) (m : SMap α) (k : Nat) :
    mget d (m.map fun e => (e.1, g e.2)) k = g (mget d m k) := by
  induction m with
  | nil => exact hd.symm
  | cons e m ih =>
    simp only [List.map_cons, mget]
    split
    · rfl
    · exact ih
/-- The row counters of a bank start again (R519). -/
def Bank.zeroed (x : Bank) : Bank := { x with counts := x.counts.map fun c => (c.1, 0) }
theorem Core.rowWindow_ended {s : Core} (h : s.mem.windowAt + 1000000 * s.rd MEM_RH_CFG.WINDOW_MS ≤ s.etime) (ch rank bank : Nat) :
    s.rowWindow.bank ch rank bank = (s.bank ch rank bank).zeroed := by
  unfold Core.rowWindow
  extract_lets w
  rw [if_neg (by omega)]
  exact mget_map (g := Bank.zeroed) rfl s.mem.banks _

theorem rowHammerWindow_answers {s : State} (hboot : s.field.core.bootState ≠ 1) : Answers .rowHammerWindow s fun t =>
    t.field.core.etime =
      max s.field.core.etime (s.field.core.mem.windowAt + 1000000 * s.field.core.rd MEM_RH_CFG.WINDOW_MS) ∧
    (∀ (ch : Fin 4) (r : Fin 3) (b : Fin 32), (t.field.core.bank ch.val r.val b.val).row =
        (s.field.core.bank ch.val r.val b.val).row ∧
      ∀ e ∈ (t.field.core.bank ch.val r.val b.val).counts, e.2 = 0) ∧
    t.field.core.regs = s.field.core.regs ∧ CoreOnly s t := by
  refine answers_of_onRunning (g := doRowHammerWindow) rfl hboot ?_
  have hbank := Core.rowWindow_ended (s := s.field.core.reach (s.field.core.mem.windowAt + 1000000 * s.field.core.rd MEM_RH_CFG.WINDOW_MS))
    (Nat.le_max_right _ _)
  have hdealt := (s.field.core.reach (s.field.core.mem.windowAt + 1000000 * s.field.core.rd MEM_RH_CFG.WINDOW_MS)).rowWindow_dealt []
  refine ⟨hdealt.parts .etime (by decide), fun ch r b => ?_, ?_, CoreOnly.onCore _ _⟩
  · refine ⟨(congrArg Bank.row (hbank ch.val r.val b.val) :), fun e he => ?_⟩
    have hcounts := congrArg Bank.counts (hbank ch.val r.val b.val)
    obtain ⟨c, -, rfl⟩ := List.mem_map.1 (hcounts ▸ he : e ∈ (Bank.zeroed _).counts)
    rfl
  · change (Core.rowWindow _).regs = _
    unfold Core.rowWindow
    dsimp only
    split <;> rfl

/-! ### Where a word is served (R513, R527) -/

/-- The requests of one word go to its channel alone. -/
theorem Core.reqs_word (s : Core) (write : Bool) (cls w : Nat) {p : Nat × List DramReq} (hp : p ∈ s.reqs write cls (64 * w) 64) :
    p.1 = (s.pageAt (w / 64)).1 := by
  unfold Core.reqs at hp
  rw [show (64 * w + 64 - 1) / 4096 - 64 * w / 4096 + 1 = 1 by omega] at hp
  split at hp
  · cases hp
  · obtain ⟨i, hi, rfl⟩ := List.mem_map.1 hp
    have hi0 : i = 0 := by simpa using hi
    subst hi0
    rw [Nat.add_zero, show 64 * w / 4096 = w / 64 by omega]
/-- A word's access deals with its own channel. -/
theorem Core.word_dealt (s : Core) (write : Bool) (cls w : Nat) :
    Dealt [MEMC_RH_CNT.COUNT.key (s.pageAt (w / 64)).1] s (s.requests (s.reqs write cls (64 * w) 64)) :=
  s.requests_dealt fun _ hp _ => by rw [s.reqs_word write cls w hp]; exact List.mem_cons_self

section
variable {ks : List Nat} {a b : Core} (h : Dealt ks a b)
include h

theorem Dealt.queue : b.mem.queue = a.mem.queue := by obtain ⟨_, _, _, _, _, hb⟩ := h.mem; rw [hb]; rfl
theorem Dealt.cur : b.mem.cur = a.mem.cur := by obtain ⟨_, _, _, _, _, hb⟩ := h.mem; rw [hb]; rfl
theorem Dealt.layout : b.mem.layout = a.mem.layout := by obtain ⟨_, _, _, _, _, hb⟩ := h.mem; rw [hb]; rfl
theorem Dealt.pageAt (pg : Nat) : b.pageAt pg = a.pageAt pg := by rw [Core.pageAt, Core.ways, h.layout, Core.pageAt, Core.ways]

end

/-! ### Errors of a word (R520 to R526) -/

/-- The keys of what an error of a rank counts. -/
def errorKeys (ch r : Nat) : List Nat := [(ceFld r).key ch, LOG_EVT_OVWR_CNT.COUNT.key 0, MEMC_RH_CNT.COUNT.key ch, MEM_POISON_CNT.MARKED.key 0,
  MEMC_CE_2.UE.key ch, MEM_LAST_UE.WORD.key 0]
/-- The registers that name a rank are none of them. -/
theorem memKeys : ∀ (ch : Fin 4) (r q : Fin 3), (rankFld q.val).key ch.val ∉ errorKeys ch.val r.val ∧
    (ceFld r.val).key ch.val ∉ [MEM_STATUS.MIG_QUEUE.key 0, LOG_EVT_OVWR_CNT.COUNT.key 0, MEMC_RH_CNT.COUNT.key ch.val] ∧
    MEM_CFG.CE_RETIRE.key 0 ∉ [(ceFld r.val).key ch.val, LOG_EVT_OVWR_CNT.COUNT.key 0, MEMC_RH_CNT.COUNT.key ch.val] := by decide +kernel

theorem Core.spareOf_congr {a b : Core} {ch : Nat} (h : ∀ r < 3, b.rank ch r = a.rank ch r) : b.spareOf ch = a.spareOf ch := by
  exact List.find?_congr fun r hr => by rw [h r (List.mem_range.1 hr)]
/-- A rank in service with a spare is queued, once. -/
theorem Core.queueMig_spare {s : Core} {ch r : Nat} (hrank : s.rank ch r = 1) (hspare : s.spareOf ch ≠ none) (cause : Nat) (op : Option Nat) :
    s.queueMig ch r cause op = if s.mem.queue.any (fun m => m.ch == ch && m.rank == r) then s else s.setMigs (s.mem.queue ++ [⟨ch, r, cause, op⟩]) := by
  unfold Core.queueMig
  extract_lets st
  refine ite_congr rfl (fun _ => rfl) fun _ => ?_
  rw [if_pos (show st = 1 from hrank), if_neg (by simpa using hspare)]
/-- What queueing it changes. -/
structure Queued (a b : Core) : Prop where
  regs : SameRegs [MEM_STATUS.MIG_QUEUE.key 0] a b
  parts : Touches [.mem] a b
  layout : b.mem.layout = a.mem.layout
theorem Core.queueMig_queued {s : Core} {ch r : Nat} (hrank : s.rank ch r = 1) (hspare : s.spareOf ch ≠ none) (cause : Nat) (op : Option Nat) :
    Queued s (s.queueMig ch r cause op) := by
  rw [Core.queueMig_spare hrank hspare]
  split
  · exact ⟨.refl _ s, .refl _ s, rfl⟩
  · exact ⟨SameRegs.wr (.of_regs rfl) _, (((Within.refl [] [.mem] s).mem _).parts).trans ((Touches.wr _ _ _ _).mono (by simp)), rfl⟩


/-- A rank and a channel's spare read the same while no register that names a rank changes. -/
theorem ranks_kept {a b : Core} {ks : List Nat} (h : SameRegs ks a b) (ch : Fin 4) (r : Fin 3) (hks : ks ⊆ errorKeys ch.val r.val) :
    (∀ r < 3, b.rank ch.val r = a.rank ch.val r) ∧ b.spareOf ch.val = a.spareOf ch.val := by
  have hrank : ∀ r < 3, b.rank ch.val r = a.rank ch.val r := fun q hq => h _ _ fun hin => (memKeys ch r ⟨q, hq⟩).1 (hks hin)
  exact ⟨hrank, Core.spareOf_congr hrank⟩

/-- A corrected error, on a rank in service with a spare. -/
structure Corrected (ch r : Nat) (a b : Core) : Prop where
  count : b.rd (ceFld r) ch = satU 16 (a.rd (ceFld r) ch + 1)
  regs : SameRegs [(ceFld r).key ch, LOG_EVT_OVWR_CNT.COUNT.key 0, MEM_STATUS.MIG_QUEUE.key 0] a b
  few : a.rd MEM_CFG.CE_RETIRE = 0 → SameRegs [(ceFld r).key ch, LOG_EVT_OVWR_CNT.COUNT.key 0] a b
theorem ceFld_width : ∀ r : Fin 3, (ceFld r.val).width = 16 := by decide
theorem Core.corrected_counts (s : Core) (ch : Fin 4) (r : Fin 3) (hrank : s.rank ch.val r.val = 1) (hspare : s.spareOf ch.val ≠ none) :
    Corrected ch.val r.val s (s.corrected ch.val r.val) := by
  obtain ⟨-, hce, hretire⟩ := memKeys ch r r
  unfold Core.corrected
  extract_lets key l src t u
  have ht : SameRegs [(ceFld r.val).key ch.val, LOG_EVT_OVWR_CNT.COUNT.key 0] s (t.inc (ceFld r.val) ch.val) :=
    (SameRegs.of_regs rfl : SameRegs _ s t).inc 1 List.mem_cons_self
  have hu : SameRegs [(ceFld r.val).key ch.val, LOG_EVT_OVWR_CNT.COUNT.key 0] s u := ht.emitEvery _ _ _ _ (by simp)
  have hcount : u.rd (ceFld r.val) ch.val = satU 16 (s.rd (ceFld r.val) ch.val + 1) := by
    have hkept : SameRegs [LOG_EVT_OVWR_CNT.COUNT.key 0] (t.inc (ceFld r.val) ch.val) u := (SameRegs.refl _ _).emitEvery _ _ _ _
    rw [hkept _ _ fun h => hce (by simp at h; simp [h]), Core.rd_inc_self, ceFld_width]
    rfl
  obtain ⟨hranks, hsp⟩ := ranks_kept hu ch r (by simp [errorKeys])
  have hq := Core.queueMig_queued (s := u) ((hranks _ r.isLt).trans hrank) (hsp ▸ hspare) 4 none
  split
  · refine ⟨(hq.regs _ _ fun h => hce (by simp at h; simp [h])).trans hcount, (hu.mono (by simp)).trans (hq.regs.mono (by simp)), fun hoff => ?_⟩
    next hon =>
    have hne : u.rd MEM_CFG.CE_RETIRE ≠ 0 := by simpa [Core.rdb] using hon.1
    exact absurd ((hu _ _ fun hin => hretire (List.mem_append_left [_] hin)).trans hoff) hne
  · exact ⟨hcount, hu.mono (by simp), fun _ => hu⟩


/-- An uncorrectable error, on a rank in service with a spare. -/
structure Uncorrected (ch r cls word : Nat) (a b : Core) : Prop where
  marked : b.rd MEM_POISON_CNT.MARKED = satU 16 (a.rd MEM_POISON_CNT.MARKED + 1)
  count : b.rd MEMC_CE_2.UE ch = satU 16 (a.rd MEMC_CE_2.UE ch + 1)
  last : b.rd MEM_LAST_UE.WORD = word % 2 ^ 30
  raised : a.Raised b 0x0402 ((ch + at_ 1 r + at_ 2 cls + at_ 4 word) % 2 ^ 128)
  queue : b.mem.queue = if a.mem.queue.any (fun m => m.ch == ch && m.rank == r) then a.mem.queue else a.mem.queue ++ [⟨ch, r, 1, none⟩]
  layout : b.mem.layout = a.mem.layout
  regs : SameRegs [MEM_POISON_CNT.MARKED.key 0, MEMC_CE_2.UE.key ch, MEM_LAST_UE.WORD.key 0, MEM_STATUS.MIG_QUEUE.key 0,
    MEMC_RH_CNT.COUNT.key ch, LOG_EVT_OVWR_CNT.COUNT.key 0] a b
theorem ueKeys : ∀ ch : Fin 4, MEM_POISON_CNT.MARKED.key 0 ∉ [MEMC_CE_2.UE.key ch.val, MEM_LAST_UE.WORD.key 0, LOG_EVT_OVWR_CNT.COUNT.key 0, MEM_STATUS.MIG_QUEUE.key 0,
      MEMC_RH_CNT.COUNT.key ch.val] ∧
    MEMC_CE_2.UE.key ch.val ∉ [MEM_POISON_CNT.MARKED.key 0, MEM_LAST_UE.WORD.key 0, LOG_EVT_OVWR_CNT.COUNT.key 0, MEM_STATUS.MIG_QUEUE.key 0,
      MEMC_RH_CNT.COUNT.key ch.val] ∧ MEM_LAST_UE.WORD.key 0 ≠ MEMC_RH_CNT.COUNT.key ch.val := by decide
theorem Core.uncorrectable_noted (s : Core) (ch : Fin 4) (r : Fin 3) (cls word : Nat) (hrank : s.rank ch.val r.val = 1)
    (hspare : s.spareOf ch.val ≠ none) : Uncorrected ch.val r.val cls word s (s.uncorrectable ch.val r.val cls word) := by
  obtain ⟨hmark, hue, -⟩ := ueKeys ch
  simp only [List.mem_cons, List.not_mem_nil, or_false, not_or] at hmark hue
  obtain ⟨hm1, hm2, hm3, hm4, -⟩ := hmark
  obtain ⟨hu1, hu2, hu3, hu4, -⟩ := hue
  unfold Core.uncorrectable
  extract_lets t
  have ht : SameRegs [MEM_POISON_CNT.MARKED.key 0, MEMC_CE_2.UE.key ch.val, MEM_LAST_UE.WORD.key 0] s t :=
    (((SameRegs.refl _ s).inc 1 (by simp)).inc 1 (by simp)).wr _ (by simp)
  have htmark : t.rd MEM_POISON_CNT.MARKED = satU 16 (s.rd MEM_POISON_CNT.MARKED + 1) :=
    (Core.rd_wr_ne _ _ _ _ _ _ hm2).trans ((Core.rd_inc_ne _ _ _ _ _ _ hm1).trans (s.rd_inc_self _ _ _))
  have htue : t.rd MEMC_CE_2.UE ch.val = satU 16 (s.rd MEMC_CE_2.UE ch.val + 1) :=
    (Core.rd_wr_ne _ _ _ _ _ _ hu2).trans ((Core.rd_inc_self _ _ _ _).trans (by rw [Core.rd_inc_ne _ _ _ _ _ _ hu1]; rfl))
  have htlast : t.rd MEM_LAST_UE.WORD = word % 2 ^ 30 := Core.rd_wr _ _ _ _
  have htmem : t.mem = s.mem := rfl
  have htq : t.cmdq = s.cmdq ∧ t.tck.running = s.tck.running := ⟨rfl, rfl⟩
  clear_value t
  generalize hev : ch.val + at_ 1 r.val + at_ 2 cls + at_ 4 word = data
  have hemit : SameRegs [LOG_EVT_OVWR_CNT.COUNT.key 0] t (t.emit 0x0402 data) := (SameRegs.refl _ t).emit _ _ _
  obtain ⟨hranks, hsp⟩ := ranks_kept (ht.mono (by simp [errorKeys]) |>.trans (hemit.mono (by simp [errorKeys])) : SameRegs (errorKeys ch.val r.val) s _) ch r (List.Subset.refl _)
  have hmem : (t.emit 0x0402 data).mem = s.mem := ((Touches.emit t 0x0402 data 0) .mem (by decide)).trans htmem
  have hraised : s.Raised (t.emit 0x0402 data) 0x0402 (data % 2 ^ 128) := Core.raised_emit_mod data 0 htq.1 htq.2
  have hq := Core.queueMig_queued (s := t.emit 0x0402 data) ((hranks _ r.isLt).trans hrank) (hsp ▸ hspare) 1 none
  have hqueue := Core.queueMig_spare (s := t.emit 0x0402 data) ((hranks _ r.isLt).trans hrank) (hsp ▸ hspare) 1 none
  have hto : SameRegs [LOG_EVT_OVWR_CNT.COUNT.key 0, MEM_STATUS.MIG_QUEUE.key 0] t ((t.emit 0x0402 data).queueMig ch.val r.val 1 none) :=
    (hemit.mono (by simp)).trans (hq.regs.mono (by simp))
  generalize (t.emit 0x0402 data).queueMig ch.val r.val 1 none = y at *
  have hcmdq : y.cmdq = (t.emit 0x0402 data).cmdq := hq.parts .cmdq (by decide)
  refine ⟨(hto _ _ ?_).trans htmark, (hto _ _ ?_).trans htue, (hto _ _ (by decide)).trans htlast, ?_, ?_, hq.layout.trans (congrArg MemSt.layout hmem),
    (ht.mono (by simp)).trans (hto.mono (by simp))⟩
  · simp [hm3, hm4]
  · simp [hu3, hu4]
  · rw [hev]
    exact hraised.congr rfl rfl rfl (congrArg CmdqSt.fifo hcmdq) (congrArg CmdqSt.events hcmdq) (congrArg CmdqSt.evSeq hcmdq)
      (congrArg TckSt.running (hq.parts .tck (by decide)))
  · rw [hqueue, hmem]
    split
    · rw [hmem]
    · rfl

/-! ### A read that meets an error (R514, R520, R521) -/

theorem stateKey_free : ∀ ch : Fin 4, MEMC_STATUS.STATE.key ch.val ∉ activateKeys ∧ ∀ c : Fin 4, MEMC_STATUS.STATE.key ch.val ∉
    [MEM_POISON_CNT.MARKED.key 0, MEMC_CE_2.UE.key c.val, MEM_LAST_UE.WORD.key 0, MEM_STATUS.MIG_QUEUE.key 0, MEMC_RH_CNT.COUNT.key c.val,
      LOG_EVT_OVWR_CNT.COUNT.key 0] := by decide
theorem Dram.bad_word (m : Dram) (w : Nat) : m.bad (64 * w) 64 = (m.poison.contains w || m.once.contains w) := by
  unfold Dram.bad
  rw [List.any_append]
  have hword : ∀ l : List Nat, (l.any fun v => decide (64 * w < 64 * v + 64 ∧ 64 * v < 64 * w + 64)) = l.contains w := by
    intro l
    rw [List.contains_eq_any_beq]
    exact List.any_congr rfl fun v => by
      rw [Bool.eq_iff_iff, decide_eq_true_iff, beq_iff_eq]
      omega
  rw [hword, hword]
theorem Dram.mark_contains (m : Dram) (w : Nat) : (m.mark w).poison.contains w = true := by
  unfold Dram.mark
  split
  · next h => exact h
  · simp
theorem Dram.mark_cells (m : Dram) (w : Nat) : (m.mark w).cells = m.cells := by
  unfold Dram.mark
  split <;> rfl

/-- The requests of the word come before the error. -/
theorem Uncorrected.after {ch : Fin 4} {r cls word : Nat} {a b c : Core} (h : Uncorrected ch.val r cls word b c)
    (hd : Dealt [MEMC_RH_CNT.COUNT.key ch.val] a b) : Uncorrected ch.val r cls word a c := by
  obtain ⟨hmark, hue, hlast⟩ := ueKeys ch
  simp only [List.mem_cons, List.not_mem_nil, or_false, not_or] at hmark hue
  have hcmdq : b.cmdq = a.cmdq := hd.parts .cmdq (by decide)
  refine ⟨h.marked.trans (by rw [hd.regs _ _ (by simp [hmark])]), h.count.trans (by rw [hd.regs _ _ (by simp [hue])]), h.last,
    h.raised.congr (by rw [hcmdq]) (by rw [hcmdq]) (congrArg TckSt.running (hd.parts .tck (by decide)).symm) rfl rfl rfl rfl,
    by rw [h.queue, hd.queue], h.layout.trans hd.layout, (hd.regs.mono (by simp)).trans h.regs⟩
theorem Corrected.after {ch : Fin 4} {r : Fin 3} {a b c : Core} (h : Corrected ch.val r.val b c) (hd : Dealt [MEMC_RH_CNT.COUNT.key ch.val] a b) :
    c.rd (ceFld r.val) ch.val = satU 16 (a.rd (ceFld r.val) ch.val + 1) ∧
    (a.rd MEM_CFG.CE_RETIRE = 0 → SameRegs [(ceFld r.val).key ch.val, MEMC_RH_CNT.COUNT.key ch.val, LOG_EVT_OVWR_CNT.COUNT.key 0] a c) := by
  obtain ⟨-, hce, hretire⟩ := memKeys ch r r
  simp only [List.mem_cons, List.not_mem_nil, or_false, not_or] at hce
  refine ⟨h.count.trans (by rw [hd.regs _ _ (by simp [hce])]), fun hoff => ?_⟩
  exact (hd.regs.mono (by simp)).trans ((h.few ((hd.regs _ _ fun hin => hretire (List.mem_cons_of_mem _ (List.mem_cons_of_mem _ hin))).trans hoff)).mono (by simp))

/-- A word that is read from a rank in service of a channel that has a spare, and is not poisoned. -/
structure WordRead (f : Field) (word : Nat) (ch : Fin 4) (r : Fin 3) : Prop where
  channel : (f.core.pageAt (word / 64)).1 = ch.val
  there : f.core.wordExists word = true
  served : f.core.readRank word = r.val
  state : f.core.rd MEMC_STATUS.STATE ch.val < 3
  rank : f.core.rank ch.val r.val = 1
  spare : f.core.spareOf ch.val ≠ none
  clean : f.dram.poison.contains word = false
  once : f.dram.once = []

section
variable {f : Field} {word : Nat} {ch : Fin 4} {r : Fin 3} (h : WordRead f word ch r)
include h

theorem WordRead.dealt (write : Bool) (cls : Nat) {b : Core} (hd : Dealt [MEMC_RH_CNT.COUNT.key ch.val] f.core b) :
    Dealt [MEMC_RH_CNT.COUNT.key ch.val] f.core (b.requests (b.reqs write cls (64 * word) 64)) := by
  have hw := b.word_dealt write cls word
  rw [hd.pageAt, h.channel] at hw
  exact hd.trans hw
theorem WordRead.ranks {b : Core} (hd : Dealt [MEMC_RH_CNT.COUNT.key ch.val] f.core b) : b.rank ch.val r.val = 1 ∧ b.spareOf ch.val ≠ none := by
  obtain ⟨hrank, hspare⟩ := ranks_kept hd.regs ch r (by simp [errorKeys])
  exact ⟨(hrank _ r.isLt).trans h.rank, hspare ▸ h.spare⟩

/-- What a correctable or a miscorrected word does. -/
theorem WordRead.corrects {bad : List (Fin 80 × Byte)} {d : Bytes} (cls : Nat) (hbad : bad ≠ []) (hd : decodeWord (f.dram.word word) bad = some d) :
    ∃ c, readError f word r.val (.symbols bad) cls = ⟨c, if d = f.dram.word word then f.dram else f.dram.puts (64 * word) d⟩ ∧
      c.rd (ceFld r.val) ch.val = satU 16 (f.core.rd (ceFld r.val) ch.val + 1) ∧
      (f.core.rd MEM_CFG.CE_RETIRE = 0 → SameRegs [(ceFld r.val).key ch.val, MEMC_RH_CNT.COUNT.key ch.val, LOG_EVT_OVWR_CNT.COUNT.key 0] f.core c) := by
  have hread := h.dealt false cls (.refl _ f.core)
  obtain ⟨hrank, hspare⟩ := h.ranks hread
  unfold readError
  extract_lets s c u
  rw [if_neg (by rw [h.clean]; decide)]
  dsimp -zeta only
  rw [if_neg hbad, hd]
  dsimp -zeta only
  have hch : c = ch.val := h.channel
  rw [hch]
  exact ⟨_, rfl, (Core.corrected_counts _ ch r hrank hspare).after hread⟩
/-- What a word that cannot be corrected does. -/
theorem WordRead.fails {bad : List (Fin 80 × Byte)} (cls : Nat) (hbad : bad ≠ []) (hd : decodeWord (f.dram.word word) bad = none) :
    ∃ c, readError f word r.val (.symbols bad) cls = ⟨c, f.dram.mark word⟩ ∧ Uncorrected ch.val r.val cls word f.core c := by
  have hread := h.dealt false cls (.refl _ f.core)
  have hwrite := h.dealt true cls hread
  obtain ⟨hrank, -⟩ := h.ranks hread
  obtain ⟨hrank', hspare'⟩ := h.ranks hwrite
  unfold readError
  extract_lets s c u
  rw [if_neg (by rw [h.clean]; decide)]
  dsimp -zeta only
  rw [if_neg hbad, hd]
  dsimp -zeta only
  have hch : c = ch.val := h.channel
  rw [hch]
  have hfour : ¬ u.rank ch.val r.val = 4 := fun e => by
    have := hrank.symm.trans e
    omega
  rw [if_neg hfour]
  exact ⟨_, rfl, (Core.uncorrectable_noted _ ch r cls word hrank' hspare').after hwrite⟩
theorem WordRead.step (kind : DramErr) (cls : Nat) : doDramReadError word r.val kind cls f =
    if firmwarePage (f.core.pageAt (word / 64)).2 ∧ (readError f word r.val kind cls).dram.bad (64 * word) 64 then
      refetch cls (f.core.pageAt (word / 64)).2 (word % 64)
        (f.core.mem.layout.drop (f.core.mem.layout.idxOf ch.val + 1) ++ f.core.mem.layout.take (f.core.mem.layout.idxOf ch.val)) [word]
        (readError f word r.val kind cls)
    else readError f word r.val kind cls := by
  have hgo : ¬ (!f.core.wordExists word) = true ∧ ¬ f.core.rd MEMC_STATUS.STATE ch.val ≥ 3 ∧ ¬ f.core.readRank word ≠ r.val :=
    ⟨by simp [h.there], Nat.not_le.2 h.state, not_not_intro h.served⟩
  unfold doDramReadError
  dsimp only
  rw [h.channel, if_neg (by rw [not_or, not_or]; exact hgo)]

/-- Without another copy of the word, the error is the read's alone. -/
theorem WordRead.single (kind : DramErr) (cls : Nat)
    (hfw : firmwarePage (f.core.pageAt (word / 64)).2 = false ∨ (readError f word r.val kind cls).dram.bad (64 * word) 64 = false) :
    doDramReadError word r.val kind cls f = readError f word r.val kind cls := by
  rw [h.step kind cls]
  exact if_neg fun hboth => by
    rcases hfw with hfw | hfw
    · exact absurd (hfw.symm.trans hboth.1) (by decide)
    · exact absurd (hfw.symm.trans hboth.2) (by decide)

end

theorem Dram.getD_read (m : Dram) (a : Nat) {n i : Nat} (h : i < n) : (m.read a n).getD i 0 = m.get (a + i) := by
  simp [Dram.read, List.getD_eq_getElem?_getD, h]
theorem Dram.length_word (m : Dram) (w : Nat) : (m.word w).length = 64 := by simp [Dram.word, Dram.read]
theorem decodeWord_few {data : Bytes} {bad : List (Fin 80 × Byte)} (h : bad.length ≤ 6) : decodeWord data bad = some data := if_pos h
theorem decodeWord_detected {data : Bytes} {bad : List (Fin 80 × Byte)} (h : 7 ≤ bad.length) (h' : bad.length ≤ 10) :
    decodeWord data bad = none := by
  rw [decodeWord, if_neg (by omega), if_pos h']
theorem decodeWord_length {data d : Bytes} {bad : List (Fin 80 × Byte)} (hd : data.length = 64) (h : decodeWord data bad = some d) : d.length ≤ 64 := by
  unfold decodeWord at h
  split at h
  · cases h
    omega
  · split at h
    · cases h
    · obtain ⟨x, -, rfl⟩ := Option.map_eq_some_iff.1 h
      exact List.length_take_le _ _

section
variable {s : State} {word : BitVec 30} {r : Fin 3} {cls : Fin 4} {ch : Fin 4} (hboot : s.field.core.bootState ≠ 1)
  (h : WordRead s.field word.toNat ch r)
include hboot h

theorem readError_corrected_answers {bad : List (Fin 80 × Byte)} (h1 : 1 ≤ bad.length) (h6 : bad.length ≤ 6)
    (hoff : s.field.core.rd MEM_CFG.CE_RETIRE = 0) : Answers (.dramReadError word r (.symbols bad) cls) s fun t =>
      t.field.core.rd (ceFld r.val) ch.val = satU 16 (s.field.core.rd (ceFld r.val) ch.val + 1) ∧
      SameRegs [(ceFld r.val).key ch.val, MEMC_RH_CNT.COUNT.key ch.val, LOG_EVT_OVWR_CNT.COUNT.key 0]
        s.field.core t.field.core ∧ CoreOnly s t := by
  refine answers_of_onRunningField rfl hboot ?_
  obtain ⟨c, hc, hcount, hregs⟩ := h.corrects cls.val (bad := bad) (by rintro rfl; simp at h1) (decodeWord_few h6)
  rw [if_pos rfl] at hc
  have hdo : doDramReadError word.toNat r.val (.symbols bad) cls.val s.field = ⟨c, s.field.dram⟩ := by
    rw [h.single _ _ (.inr (by rw [hc, Dram.bad_word, h.clean, h.once]; rfl)), hc]
  simp only [hdo]
  exact ⟨hcount, hregs hoff, rfl, rfl, rfl⟩

theorem readError_detected_answers {bad : List (Fin 80 × Byte)} (h7 : 7 ≤ bad.length) (h10 : bad.length ≤ 10)
    (hfw : firmwarePage (s.field.core.pageAt (word.toNat / 64)).2 = false)
    (hnew : ∀ m ∈ s.field.core.mem.queue, ¬ (m.ch = ch.val ∧ m.rank = r.val)) :
    Answers (.dramReadError word r (.symbols bad) cls) s fun t =>
      t.field.core.rd MEM_POISON_CNT.MARKED = satU 16 (s.field.core.rd MEM_POISON_CNT.MARKED + 1) ∧
      t.field.core.rd MEMC_CE_2.UE ch.val = satU 16 (s.field.core.rd MEMC_CE_2.UE ch.val + 1) ∧
      t.field.core.rd MEM_LAST_UE.WORD = word.toNat ∧
      t.field.core.newest 0x0402 = some (0x0402, ch.val + at_ 1 r.val + at_ 2 cls.val + at_ 4 word.toNat) ∧
      t.field.core.mem.queue = s.field.core.mem.queue ++ [⟨ch.val, r.val, 1, none⟩] ∧
      t.field.dram.poison.contains word.toNat = true ∧ t.field.dram.cells = s.field.dram.cells ∧
      SameRegs [MEM_POISON_CNT.MARKED.key 0, MEMC_CE_2.UE.key ch.val, MEM_LAST_UE.WORD.key 0, MEM_STATUS.MIG_QUEUE.key 0,
        MEMC_RH_CNT.COUNT.key ch.val, LOG_EVT_OVWR_CNT.COUNT.key 0] s.field.core t.field.core ∧
      t.pending = s.pending ∧ t.host = s.host := by
  refine answers_of_onRunningField rfl hboot ?_
  obtain ⟨c, hc, hun⟩ := h.fails cls.val (bad := bad) (by rintro rfl; simp at h7) (decodeWord_detected h7 h10)
  have hdo := (h.single (.symbols bad) cls.val (.inl hfw)).trans hc
  simp only [hdo]
  have hdata : (ch.val + at_ 1 r.val + at_ 2 cls.val + at_ 4 word.toNat) % 2 ^ 128 = ch.val + at_ 1 r.val + at_ 2 cls.val + at_ 4 word.toNat := by
    refine Nat.mod_eq_of_lt ?_
    have := word.isLt
    simp only [at_]
    omega
  have hqueue := hun.queue
  rw [if_neg (by simpa using hnew)] at hqueue
  exact ⟨hun.marked, hun.count, hun.last.trans (Nat.mod_eq_of_lt word.isLt), hun.raised.1.trans (by rw [hdata]), hqueue,
    Dram.mark_contains _ _, Dram.mark_cells _ _, hun.regs, trivial, trivial⟩

theorem readError_miscorrected_answers {bad : List (Fin 80 × Byte)} (h11 : 11 ≤ bad.length)
    (hfw : firmwarePage (s.field.core.pageAt (word.toNat / 64)).2 = false) : Answers (.dramReadError word r (.symbols bad) cls) s fun t =>
      match decodeWord (s.field.dram.word word.toNat) bad with
      | none => t.field.core.rd MEMC_CE_2.UE ch.val = satU 16 (s.field.core.rd MEMC_CE_2.UE ch.val + 1) ∧
        t.field.dram.poison.contains word.toNat = true ∧ t.field.dram.cells = s.field.dram.cells
      | some d => t.field.core.rd (ceFld r.val) ch.val = satU 16 (s.field.core.rd (ceFld r.val) ch.val + 1) ∧
        (∀ i, i < d.length → t.field.dram.get (64 * word.toNat + i) = d.getD i 0) ∧
        SameBytes (64 * word.toNat) 64 s.field.dram t.field.dram := by
  refine answers_of_onRunningField rfl hboot ?_
  have hbad : bad ≠ [] := by rintro rfl; simp at h11
  have hsingle := h.single (.symbols bad) cls.val (.inl hfw)
  cases hd : decodeWord (s.field.dram.word word.toNat) bad with
  | none =>
    obtain ⟨c, hc, hun⟩ := h.fails cls.val hbad hd
    simp only [hsingle.trans hc]
    exact ⟨hun.count, Dram.mark_contains _ _, Dram.mark_cells _ _⟩
  | some d =>
    obtain ⟨c, hc, hcount, -⟩ := h.corrects cls.val hbad hd
    simp only [hsingle.trans hc]
    have hlen : d.length ≤ 64 := decodeWord_length (Dram.length_word _ _) hd
    split
    · next hsame =>
      refine ⟨hcount, fun i hi => ?_, fun _ _ => rfl⟩
      rw [hsame, Dram.word, Dram.getD_read _ _ (by omega)]
    · exact ⟨hcount, fun i hi => Dram.get_puts_in _ _ _ hi, fun x hx => Dram.get_puts_out _ _ (by omega)⟩

end

/-! ### Firmware's other copies (R514) -/

theorem Dram.mark_bad {m : Dram} {w v : Nat} (h : v ≠ w) : (m.mark w).bad (64 * v) 64 = m.bad (64 * v) 64 := by
  rw [Dram.bad_word, Dram.bad_word]
  unfold Dram.mark
  split
  · rfl
  · simp [h]
theorem Dram.write_heals (m : Dram) {w : Nat} (bs : Bytes) (h : 0 < bs.length) : (m.write (64 * w) bs).poison.contains w = false := by
  rw [Bool.eq_false_iff, ne_eq, List.contains_iff_mem]
  intro hin
  have hclear := of_decide_eq_true (List.mem_filter.1 hin).2
  omega
theorem Dram.marked_none {m : Dram} {w : Nat} (h : m.bad (64 * w) 64 = false) : m.marked (64 * w) 64 = [] := by
  rw [Dram.bad_word, Bool.or_eq_false_iff] at h
  refine List.filter_eq_nil_iff.2 fun v hv hin => ?_
  have hvw : v = w := by
    have := of_decide_eq_true hin
    omega
  exact absurd (List.contains_iff_mem.2 (hvw ▸ hv)) (by rw [h.1]; decide)
/-- Whether a read is bad depends on the layout and on the states of its channels. -/
theorem Core.bad_congr {a b : Core} (hl : b.mem.layout = a.mem.layout) (hst : ∀ ch ∈ a.mem.layout, b.rd MEMC_STATUS.STATE ch = a.rd MEMC_STATUS.STATE ch)
    (m : Dram) (x n : Nat) : b.bad m x n = a.bad m x n := by
  have hchans : b.channelsOf x n = a.channelsOf x n := by
    unfold Core.channelsOf Core.pageAt Core.ways
    rw [hl]
  have hmem : ∀ ch ∈ a.channelsOf x n, ch ∈ a.mem.layout := by
    intro ch hch
    unfold Core.channelsOf at hch
    split at hch
    · cases hch
    · obtain ⟨i, -, rfl⟩ := List.mem_map.1 hch
      next hways => exact Core.pageAt_mem (fun h => hways (.inr h)) _
  unfold Core.bad
  rw [hchans]
  congr 1
  rw [Bool.eq_iff_iff, List.any_eq_true, List.any_eq_true]
  exact exists_congr fun ch => and_congr_right fun hch => by rw [hst ch (hmem ch hch)]
theorem Core.pageOf_congr {a b : Core} (hl : b.mem.layout = a.mem.layout) (ch cp : Nat) : b.pageOf ch cp = a.pageOf ch cp := by
  rw [Core.pageOf, Core.ways, hl, Core.pageOf, Core.ways]
/-- A good copy is written over the bad word. -/
theorem refetch_good {c : Core} {m : Dram} {cls cp off next word : Nat} {chs : List Nat} {w : Nat} (hw : 64 * c.pageOf next cp + off = w)
    (hgood : c.bad m (64 * w) 64 = false) (hst : ∀ ch ∈ c.mem.layout, ch < 4) :
    ∃ x, refetch cls cp off (next :: chs) [word] ⟨c, m⟩ =
      ⟨x, { m.write (64 * word) (m.word w) with once := m.once.filter (· != word) }⟩ := by
  have hm : m.bad (64 * w) 64 = false := (Bool.or_eq_false_iff.1 hgood).1
  have hreads : c.reads m cls (64 * w) 64 = c.fetches cls (64 * w) 64 := by
    unfold Core.reads Core.meets
    rw [Dram.marked_none hm, List.foldl_nil]
  have hd : Dealt activateKeys c (c.reads m cls (64 * w) 64) := hreads ▸ c.requests_dealt fun p _ hlt => activateKeys_all ⟨p.1, hlt⟩
  have hbad : (c.reads m cls (64 * w) 64).bad m (64 * w) 64 = false :=
    (Core.bad_congr hd.layout (fun ch hch => hd.regs _ _ (stateKey_free ⟨ch, hst ch hch⟩).1) m _ _).trans hgood
  unfold refetch
  dsimp -zeta only
  extract_lets v s
  have hv : v = w := hw
  subst hv
  rw [if_neg (by rw [show s = c.reads m cls (64 * v) 64 from rfl, hbad]; decide)]
  exact ⟨_, rfl⟩

section
variable {s : State} {word : BitVec 30} {r : Fin 3} {cls : Fin 4} {ch : Fin 4} (hboot : s.field.core.bootState ≠ 1)
  (h : WordRead s.field word.toNat ch r)
include hboot h

theorem readError_firmware_answers (hfour : FourChannels s.field.core) {bad : List (Fin 80 × Byte)} {next : Nat} {chs : List Nat} (h7 : 7 ≤ bad.length) (h10 : bad.length ≤ 10)
    (hfw : firmwarePage (s.field.core.pageAt (word.toNat / 64)).2 = true)
    (hchs : s.field.core.mem.layout.drop (s.field.core.mem.layout.idxOf ch.val + 1) ++
      s.field.core.mem.layout.take (s.field.core.mem.layout.idxOf ch.val) = next :: chs) :
    let copy := 64 * s.field.core.pageOf next (s.field.core.pageAt (word.toNat / 64)).2 + word.toNat % 64
    copy ≠ word.toNat → s.field.core.bad s.field.dram (64 * copy) 64 = false →
    Answers (.dramReadError word r (.symbols bad) cls) s fun t =>
      t.field.dram.poison.contains word.toNat = false ∧
      (∀ i, i < 64 → t.field.dram.get (64 * word.toNat + i) = s.field.dram.get (64 * copy + i)) ∧
      SameBytes (64 * word.toNat) 64 s.field.dram t.field.dram := by
  intro copy hne hgood
  refine answers_of_onRunningField rfl hboot ?_
  obtain ⟨c, hc, hun⟩ := h.fails cls.val (bad := bad) (by rintro rfl; simp at h7) (decodeWord_detected h7 h10)
  have hstep := h.step (.symbols bad) cls.val
  rw [hc, if_pos ⟨hfw, by rw [Dram.bad_word, Dram.mark_contains]; rfl⟩, hchs] at hstep
  have hcgood : c.bad (s.field.dram.mark word.toNat) (64 * copy) 64 = false := by
    rw [Core.bad_congr hun.layout fun ch' hch' => hun.regs _ _ (stateKey_free ⟨ch', hfour.2 ch' hch'⟩ |>.2 ch)]
    unfold Core.bad at hgood ⊢
    rw [Dram.mark_bad hne]
    exact hgood
  obtain ⟨x, hx⟩ := refetch_good (c := c) (cls := cls.val) (chs := chs) (word := word.toNat) (w := copy) (congrArg (64 * · + _) (Core.pageOf_congr hun.layout _ _)) hcgood
    (hun.layout ▸ hfour.2)
  have hdo := hstep.trans hx
  have hget : ∀ a, (s.field.dram.mark word.toNat).get a = s.field.dram.get a := fun a => by
    rw [Dram.get, Dram.mark_cells, Dram.get]
  have hlen := Dram.length_word (s.field.dram.mark word.toNat) copy
  simp only [hdo]
  refine ⟨Dram.write_heals _ _ (by omega), fun i hi => ?_, fun a ha => ?_⟩
  · exact (Dram.get_write_in _ _ _ (by omega)).trans ((Dram.getD_read _ _ hi).trans (hget _))
  · exact (Dram.get_write_out _ _ _ (by omega)).trans (hget _)

end

/-! ### A command error, a scrub read, a copied row (R523, R524, R527) -/

/-- The counter of a command's parity errors, or of a write's CRC errors. -/
def caFld (wcrc : Bool) : Fld := if wcrc then MEMC_CA_CNT.WCRC else MEMC_CA_CNT.CA
theorem caKeys : ∀ (ch : Fin 4) (w : Bool), (caFld w).key ch.val ∉ [LOG_EVT_OVWR_CNT.COUNT.key 0, MEMC_STATUS.STATE.key ch.val] ∧
    (caFld w).width = 16 := by decide
theorem Core.startRetrain_regs (s : Core) (ch : Nat) : SameRegs [MEMC_STATUS.STATE.key ch] s (s.startRetrain ch) := by
  unfold Core.startRetrain
  extract_lets st
  split
  · exact (SameRegs.refl _ s).wr _ List.mem_cons_self
  · exact .refl _ s
theorem Core.caErrors_regs (s : Core) (ch n : Nat) : SameRegs [MEMC_STATUS.STATE.key ch] s (s.caErrors ch n) := by
  unfold Core.caErrors
  extract_lets l src
  split
  · exact (SameRegs.of_regs rfl : SameRegs _ s _).trans (Core.startRetrain_regs _ ch)
  · exact .of_regs rfl

theorem memCaErr_answers {s : State} (hboot : s.field.core.bootState ≠ 1) (ch : Fin 4) (r : Fin 3) (wcrc : Bool)
    (hin : (s.field.core.rd MEM_STATUS.IN_SERVICE).testBit ch.val = true) : Answers (.memCaErr ch r wcrc false) s fun t =>
      let f := if wcrc then MEMC_CA_CNT.WCRC else MEMC_CA_CNT.CA
      t.field.core.rd f ch.val = satU 16 (s.field.core.rd f ch.val + 1) ∧
      SameRegs [f.key ch.val, MEMC_STATUS.STATE.key ch.val, LOG_EVT_OVWR_CNT.COUNT.key 0] s.field.core t.field.core ∧
      CoreOnly s t := by
  refine answers_of_onRunning (g := doMemCaErr ch.val r.val wcrc false) rfl hboot ?_
  obtain ⟨hkeys, hwidth⟩ := caKeys ch wcrc
  have hdo : (doMemCaErr ch.val r.val wcrc false s.field.core).rd (caFld wcrc) ch.val = satU 16 (s.field.core.rd (caFld wcrc) ch.val + 1) ∧
      SameRegs [(caFld wcrc).key ch.val, MEMC_STATUS.STATE.key ch.val, LOG_EVT_OVWR_CNT.COUNT.key 0] s.field.core (doMemCaErr ch.val r.val wcrc false s.field.core) := by
    unfold doMemCaErr
    rw [if_neg (by rw [hin]; decide)]
    extract_lets key n third src t u v
    have hcount : (t.inc (caFld wcrc) ch.val).rd (caFld wcrc) ch.val = satU 16 (s.field.core.rd (caFld wcrc) ch.val + 1) := by
      rw [Core.rd_inc_self, hwidth]
      rfl
    have ht : SameRegs [(caFld wcrc).key ch.val] s.field.core (t.inc (caFld wcrc) ch.val) :=
      (SameRegs.of_regs rfl : SameRegs _ s.field.core t).inc 1 List.mem_cons_self
    have hu : SameRegs [LOG_EVT_OVWR_CNT.COUNT.key 0] (t.inc (caFld wcrc) ch.val) u := (SameRegs.refl _ _).emitEvery _ _ _ _
    have hv : SameRegs [MEMC_STATUS.STATE.key ch.val] u v := by
      unfold v
      split
      · exact .refl _ u
      · exact u.caErrors_regs _ _
    rw [if_neg (by simp [third])]
    have htail : SameRegs [LOG_EVT_OVWR_CNT.COUNT.key 0, MEMC_STATUS.STATE.key ch.val] (t.inc (caFld wcrc) ch.val) v :=
      (hu.mono (by simp)).trans (hv.mono (by simp))
    exact ⟨(htail _ _ hkeys).trans hcount, (ht.mono (by simp)).trans (htail.mono (by simp))⟩
  exact ⟨hdo.1, hdo.2, CoreOnly.onCore _ _⟩

theorem Core.dramHead_congr {a b : Core} (hregs : b.regs = a.regs) (hjobs : b.jobs = a.jobs) : b.dramHead = a.dramHead := by
  unfold Core.dramHead Core.dramLimit Core.planLevel Core.channels Core.readNow Core.job? Core.lpi
  simp only [Core.rd_congr hregs, hjobs]

theorem Core.wordExists_congr {a b : Core} (h : b.mem.layout = a.mem.layout) (w : Nat) : b.wordExists w = a.wordExists w := by
  rw [Core.wordExists, Core.ways, h, Core.wordExists, Core.ways]

/-- A word of the scrubber's pass has been read, and the next one is due. -/
structure Scrubbed (word ch : Nat) (a b : Core) : Prop where
  etime : b.etime = max a.etime (a.mem.scrubAt + a.scrubStep)
  page : b.rd MEM_SCRUB_POS.PAGE = (if a.wordExists (word + 1) then word + 1 else 0) / 64 % 2 ^ 24
  scrubWord : b.mem.scrubWord = (if a.wordExists (word + 1) then word + 1 else 0) % 64
  ended : a.wordExists (word + 1) = false → ∃ data, b.newest 0x040B = some (0x040B, data)
  regs : SameRegs [MEM_SCRUB_POS.PAGE.key 0, MEMC_RH_CNT.COUNT.key ch, LOG_EVT_OVWR_CNT.COUNT.key 0] a b

theorem doScrubRead_next {f : Field} {word ch : Nat} (hw : 64 * f.core.rd MEM_SCRUB_POS.PAGE + f.core.mem.scrubWord = word)
    (hch : (f.core.pageAt (word / 64)).1 = ch)
    (hen : f.core.rdb MEM_SCRUB_CFG.EN = true) (hword : f.core.wordExists word = true) (hhead : 100000000 ≤ f.core.dramHead)
    (hstate : f.core.rd MEMC_STATUS.STATE ch < 3) (hclean : f.dram.poison.contains word = false) :
    ∃ c, doScrubRead none f = ⟨c, f.dram⟩ ∧ Scrubbed word ch f.core c := by
  subst hw
  unfold doScrubRead
  extract_lets c w s1 src1 s2 clean good f0 fix poi
  dsimp -zeta only
  extract_lets st u v src3 x last y next src4 z src5 q
  have hst : st < 3 := by rw [← hch] at hstate; exact hstate
  have hhead' : s2.dramHead = f.core.dramHead := Core.dramHead_congr rfl rfl
  have hisclean : clean = true := (congrArg (!·) hclean :)
  rw [if_neg (by simp [c, w, hen, hword]; omega), if_neg (by omega)]
  have hu : u = ⟨s2.fetches 3 (64 * w) 64, f.dram⟩ := (if_neg (by omega)).trans (if_pos hisclean)
  have hv : v = s2.fetches 3 (64 * w) 64 := by
    unfold v
    rw [if_neg (by simp [good]), hu]
  have hd : Dealt [MEMC_RH_CNT.COUNT.key ch] s2 v := by
    have hdealt := s2.word_dealt false 3 w
    have hpage : (s2.pageAt (w / 64)).1 = ch := hch
    rw [hpage] at hdealt
    rw [hv]
    exact hdealt
  have hlast : last = !f.core.wordExists (w + 1) := congrArg (!·) (Core.wordExists_congr hd.layout _)
  have hvtime : v.etime = max f.core.etime (f.core.mem.scrubAt + f.core.scrubStep) := hd.parts .etime (by decide)
  have hvregs : SameRegs [MEMC_RH_CNT.COUNT.key ch] f.core v := hd.regs
  have hxregs : x.regs = v.regs ∧ x.etime = v.etime := ⟨rfl, rfl⟩
  clear_value v x
  have hy : y.etime = v.etime ∧ SameRegs [MEMC_RH_CNT.COUNT.key ch, LOG_EVT_OVWR_CNT.COUNT.key 0] f.core y ∧
      (last = true → ∃ data, y.newest 0x040B = some (0x040B, data)) := by
    have hx : SameRegs [MEMC_RH_CNT.COUNT.key ch, LOG_EVT_OVWR_CNT.COUNT.key 0] f.core x := (hvregs.mono (by simp)).trans (.of_regs hxregs.1)
    unfold y
    split
    · exact ⟨(Core.emit_etime _ _ _ _).trans hxregs.2, hx.emit _ _ _ (by simp), fun _ => ⟨_, (Core.raised_emit_mod _ 0 rfl rfl).1⟩⟩
    · next h => exact ⟨hxregs.2, hx, fun hl => absurd hl h⟩
  obtain ⟨hytime, hyregs, hynew⟩ := hy
  have hz : z.rd MEM_SCRUB_POS.PAGE = next / 64 % 2 ^ 24 ∧ z.mem.scrubWord = next % 64 ∧ z.etime = y.etime ∧ z.cmdq = y.cmdq ∧ z.tck = y.tck :=
    ⟨Core.rd_wr _ _ _ _, rfl, rfl, rfl, rfl⟩
  have hzregs : SameRegs [MEM_SCRUB_POS.PAGE.key 0] y z := (SameRegs.of_regs rfl : SameRegs _ y _).wr _
  clear_value y z
  have hq : q.regs = z.regs ∧ q.mem.scrubWord = z.mem.scrubWord ∧ q.etime = z.etime ∧ q.cmdq = z.cmdq ∧ q.tck = z.tck := by
    unfold q
    split <;> exact ⟨rfl, rfl, rfl, rfl, rfl⟩
  clear_value q
  obtain ⟨hzpage, hzword, hztime, hzcmdq, hztck⟩ := hz
  obtain ⟨hqregs, hqword, hqtime, hqcmdq, hqtck⟩ := hq
  have hnext : next = if f.core.wordExists (w + 1) then w + 1 else 0 := by
    unfold next
    rw [hlast]
    cases f.core.wordExists (w + 1) <;> rfl
  refine ⟨q, by rw [hu], hqtime.trans (hztime.trans (hytime.trans hvtime)), (Core.rd_congr hqregs _ _).trans (hzpage.trans (by rw [hnext])),
    hqword.trans (hzword.trans (by rw [hnext])), fun hend => ?_,
    (hyregs.mono (by simp)).trans ((hzregs.mono (by simp)).trans (.of_regs hqregs))⟩
  obtain ⟨data, hdata⟩ := hynew (hlast.trans (by rw [hend]; rfl))
  exact ⟨data, by rw [← hdata, Core.newest, Core.held, hqcmdq, hqtck, hzcmdq, hztck, Core.newest, Core.held]⟩

theorem scrubRead_answers {s : State} (hboot : s.field.core.bootState ≠ 1) :
    let word := 64 * s.field.core.rd MEM_SCRUB_POS.PAGE + s.field.core.mem.scrubWord
    let ch := (s.field.core.pageAt (word / 64)).1
    s.field.core.rdb MEM_SCRUB_CFG.EN = true → FourChannels s.field.core → s.field.core.wordExists word = true →
    100000000 ≤ s.field.core.dramHead → s.field.core.rd MEMC_STATUS.STATE ch < 3 →
    s.field.dram.poison.contains word = false → Answers (.scrubRead none) s fun t =>
      t.field.core.etime = max s.field.core.etime (s.field.core.mem.scrubAt + s.field.core.scrubStep) ∧
      64 * t.field.core.rd MEM_SCRUB_POS.PAGE + t.field.core.mem.scrubWord =
        (if s.field.core.wordExists (word + 1) then word + 1 else 0) ∧
      (s.field.core.wordExists (word + 1) = false → (t.field.core.newest 0x040B).map (·.1) = some 0x040B) ∧
      SameRegs [MEM_SCRUB_POS.PAGE.key 0, MEMC_RH_CNT.COUNT.key ch, LOG_EVT_OVWR_CNT.COUNT.key 0]
        s.field.core t.field.core ∧ CoreOnly s t := by
  intro word ch hen hfour hword hhead hstate hclean
  refine answers_of_onRunningField (g := doScrubRead none) rfl hboot ?_
  obtain ⟨c, hdo, hetime, hpage, hnext, hended, hregs⟩ := doScrubRead_next rfl rfl hen hword hhead hstate hclean
  simp only [hdo]
  refine ⟨hetime, ?_, fun hlast => ?_, hregs, rfl, rfl, rfl⟩
  · rw [hpage, hnext]
    have hpage : (if s.field.core.wordExists (word + 1) then word + 1 else 0) / 64 < 2 ^ 24 := by
      split
      · next h =>
        have hexists := of_decide_eq_true h
        have hways := Nat.mul_le_mul_left (2 ^ 28) hfour.1
        simp only [Core.ways] at hexists
        omega
      · decide
    rw [Nat.mod_eq_of_lt hpage]
    exact Nat.div_add_mod _ 64
  · obtain ⟨data, hnew⟩ := hended hlast
    rw [hnew]
    rfl

/-- A copied row: the cursor moves on. -/
structure RowCopied (ch : Nat) (a b : Core) : Prop where
  etime : b.etime = max a.etime (a.mem.copiedAt + 40960 / a.rd MEM_CFG.MIG_RATE)
  row : b.rd MEM_MIG_CURSOR.ROW = a.rd MEM_MIG_CURSOR.ROW + 1
  cur : b.mem.cur = a.mem.cur
  queue : b.mem.queue = a.mem.queue
  regs : SameRegs [MEM_MIG_CURSOR.ROW.key 0, MEMC_RH_CNT.COUNT.key ch] a b
theorem Core.releaseHeld_dealt (s : Core) (ch : Nat) (ranks : List Nat) : Dealt [MEMC_RH_CNT.COUNT.key ch] s (s.releaseHeld ch ranks) := by
  have hset : Dealt [MEMC_RH_CNT.COUNT.key ch] s (s.setMem { s.mem with cursorHeld := [] }) := (Dealt.refl _ s).set _
  exact hset.trans (Core.request_dealt List.mem_cons_self _ _)

theorem rowKey_free : ∀ ch : Fin 4, MEM_MIG_CURSOR.ROW.key 0 ∉ [MEMC_RH_CNT.COUNT.key ch.val] := by decide
theorem doMigrationRowCopy_next {f : Field} {m : Mig} {tgt : Nat} (hcur : f.core.mem.cur = some (m, tgt)) (hch : m.ch < 4)
    (hst : f.core.rd MEMC_STATUS.STATE m.ch ≠ 3) (hrow : f.core.rd MEM_MIG_CURSOR.ROW + 1 < 2 ^ 21) (hpoison : f.dram.poison = []) :
    ∃ c, doMigrationRowCopy [] false f = ⟨c, f.dram⟩ ∧ RowCopied m.ch f.core c := by
  unfold doMigrationRowCopy
  split
  next h => cases h.symm.trans hcur
  next m' tgt' h =>
  cases h.symm.trans hcur
  extract_lets s row slot cp base t src u rd v g w
  rw [if_neg hst, if_neg (by decide)]
  have hv : Dealt [MEMC_RH_CNT.COUNT.key m.ch] u v := u.request_dealt List.mem_cons_self _
  have hg : g = ⟨v, f.dram⟩ := List.foldlRecOn (motive := fun g : Field => g = ⟨v, f.dram⟩) (List.range 64) _ rfl fun g hg i _ => by
    subst hg
    exact (if_neg (by rw [hpoison]; simp)).trans (if_neg (by simp))
  have hw : w = v := congrArg Field.core hg
  have hmore : ¬ row + 1 = 2 ^ 21 := Nat.ne_of_lt hrow
  rw [if_neg hmore, hg, hw]
  have hrelease := (v.wr MEM_MIG_CURSOR.ROW (row + 1)).releaseHeld_dealt m.ch [m.rank, tgt]
  have hu : u.etime = max f.core.etime (f.core.mem.copiedAt + 40960 / f.core.rd MEM_CFG.MIG_RATE) ∧ u.mem.cur = f.core.mem.cur ∧
      u.mem.queue = f.core.mem.queue ∧ u.regs = f.core.regs := ⟨rfl, rfl, rfl, rfl⟩
  obtain ⟨hutime, hucur, huqueue, huregs⟩ := hu
  clear_value u v
  have hfree := rowKey_free ⟨m.ch, hch⟩
  refine ⟨_, rfl, (hrelease.parts .etime (by decide)).trans ((hv.parts .etime (by decide)).trans hutime), ?_,
    hrelease.cur.trans (hv.cur.trans hucur), hrelease.queue.trans (hv.queue.trans huqueue), ?_⟩
  · rw [hrelease.regs _ _ hfree, Core.rd_wr]
    exact Nat.mod_eq_of_lt hrow
  · have hrow : SameRegs [MEM_MIG_CURSOR.ROW.key 0] v (v.wr MEM_MIG_CURSOR.ROW (row + 1)) := (SameRegs.refl _ v).wr _
    exact (SameRegs.of_regs huregs).trans ((hv.regs.mono (by simp)).trans ((hrow.mono (by simp)).trans (hrelease.regs.mono (by simp))))

theorem migrationRowCopy_answers {s : State} (hboot : s.field.core.bootState ≠ 1) {m : Mig} {tgt : Nat}
    (hcur : s.field.core.mem.cur = some (m, tgt)) (hch : m.ch < 4) (hst : s.field.core.rd MEMC_STATUS.STATE m.ch ≠ 3)
    (hrow : s.field.core.rd MEM_MIG_CURSOR.ROW + 1 < 2 ^ 21) (hpoison : s.field.dram.poison = []) :
    Answers (.migrationRowCopy [] false) s fun t =>
      t.field.core.etime =
        max s.field.core.etime (s.field.core.mem.copiedAt + 40960 / s.field.core.rd MEM_CFG.MIG_RATE) ∧
      t.field.core.rd MEM_MIG_CURSOR.ROW = s.field.core.rd MEM_MIG_CURSOR.ROW + 1 ∧
      t.field.core.mem.cur = s.field.core.mem.cur ∧ t.field.core.mem.queue = s.field.core.mem.queue ∧
      SameRegs [MEM_MIG_CURSOR.ROW.key 0, MEMC_RH_CNT.COUNT.key m.ch] s.field.core t.field.core ∧ CoreOnly s t := by
  refine answers_of_onRunningField (g := doMigrationRowCopy [] false) rfl hboot ?_
  obtain ⟨c, hdo, hetime, hto, hsame, hqueue, hregs⟩ := doMigrationRowCopy_next hcur hch hst hrow hpoison
  simp only [hdo]
  exact ⟨hetime, hto, hsame, hqueue, hregs, rfl, rfl, rfl⟩

/-! ### A retrain ends (R530) -/

/-- The registers that a retrain's end changes, but for the event log and the refresh counts. -/
theorem trainKeys : ∀ ch : Fin 4, MEMC_TRAIN.MS.key ch.val ∉ [MEMC_TRAIN.COUNT.key ch.val, LOG_EVT_OVWR_CNT.COUNT.key 0, MEMC_STATUS.STATE.key ch.val,
      MEMC_RH_CNT.COUNT.key ch.val] ∧
    MEMC_TRAIN.COUNT.key ch.val ∉ [MEMC_TRAIN.MS.key ch.val, LOG_EVT_OVWR_CNT.COUNT.key 0, MEMC_STATUS.STATE.key ch.val, MEMC_RH_CNT.COUNT.key ch.val] ∧
    MEMC_STATUS.STATE.key ch.val ∉ [MEMC_RH_CNT.COUNT.key ch.val] ∧
    ∀ r : Fin 3, (rankFld r.val).key ch.val ∉ [MEMC_TRAIN.MS.key ch.val, MEMC_TRAIN.COUNT.key ch.val, LOG_EVT_OVWR_CNT.COUNT.key 0,
      MEMC_STATUS.STATE.key ch.val, MEMC_RH_CNT.COUNT.key ch.val] := by decide
/-- A channel that works again shows whether it has a spare (R527, R530). -/
theorem Core.showChan_working (s : Core) (ch : Nat) : (s.wr MEMC_STATUS.STATE 1 ch).showChan ch =
    (s.wr MEMC_STATUS.STATE 1 ch).wr MEMC_STATUS.STATE (if (List.range 3).any fun r => (s.wr MEMC_STATUS.STATE 1 ch).rank ch r == 2 ||
      (s.wr MEMC_STATUS.STATE 1 ch).rank ch r == 4 then 1 else 2) ch := by
  unfold Core.showChan
  extract_lets st
  exact if_pos (.inl (Core.rd_wr _ _ _ _))

/-- A retrain that found working settings. -/
structure Retrained (ch result ms : Nat) (a b : Core) : Prop where
  took : b.rd MEMC_TRAIN.MS ch = ms % 2 ^ 16
  count : b.rd MEMC_TRAIN.COUNT ch = satU 8 (a.rd MEMC_TRAIN.COUNT ch + 1)
  state : b.rd MEMC_STATUS.STATE ch = if (List.range 3).any fun r => a.rank ch r == 2 || a.rank ch r == 4 then 1 else 2
  raised : a.Raised b 0x0408 ((ch + at_ 1 result + at_ 2 ms) % 2 ^ 128)
  regs : SameRegs [MEMC_TRAIN.MS.key ch, MEMC_TRAIN.COUNT.key ch, MEMC_STATUS.STATE.key ch, MEMC_RH_CNT.COUNT.key ch,
    LOG_EVT_OVWR_CNT.COUNT.key 0] a b

theorem doChannelRetrain_works {f : Field} (ch : Fin 4) {result : Nat} (ms : Nat) (failed : List Nat) (hres : result ≠ 2)
    (hst : f.core.rd MEMC_STATUS.STATE ch.val = 3)
    (hranks : 2 ≤ ((List.range 3).filter fun r => decide (1 ≤ f.core.rank ch.val r ∧ f.core.rank ch.val r ≤ 5)).length) :
    ∃ c, doChannelRetrain ch.val result ms failed f = ⟨c, f.dram⟩ ∧ Retrained ch.val result ms f.core c := by
  obtain ⟨hms, hcount, hstate, hrank⟩ := trainKeys ch
  unfold doChannelRetrain
  extract_lets s bad t u v working
  rw [if_neg (not_not_intro hst)]
  have hbad : bad = [] := if_neg hres
  have ht : t.rd MEMC_TRAIN.MS ch.val = ms % 2 ^ 16 ∧ t.rd MEMC_TRAIN.COUNT ch.val = satU 8 (f.core.rd MEMC_TRAIN.COUNT ch.val + 1) ∧
      SameRegs [MEMC_TRAIN.MS.key ch.val, MEMC_TRAIN.COUNT.key ch.val, LOG_EVT_OVWR_CNT.COUNT.key 0] f.core t ∧
      f.core.Raised t 0x0408 ((ch.val + at_ 1 result + at_ 2 ms) % 2 ^ 128) := by
    have hm1 : MEMC_TRAIN.MS.key ch.val ≠ MEMC_TRAIN.COUNT.key ch.val := fun e => hms (by simp [e])
    have hm2 : MEMC_TRAIN.MS.key ch.val ≠ LOG_EVT_OVWR_CNT.COUNT.key 0 := fun e => hms (by simp [e])
    have hc2 : MEMC_TRAIN.COUNT.key ch.val ≠ LOG_EVT_OVWR_CNT.COUNT.key 0 := fun e => hcount (by simp [e])
    refine ⟨?_, ?_, ?_, ?_⟩
    · exact (Core.rd_emit_ne _ _ _ _ _ _ hm2).trans ((Core.rd_inc_ne _ _ _ _ _ _ hm1).trans (Core.rd_wr _ _ _ _))
    · exact (Core.rd_emit_ne _ _ _ _ _ _ hc2).trans ((Core.rd_inc_self _ _ _ _).trans (by rw [Core.rd_wr_ne _ _ _ _ _ _ hm1.symm]; rfl))
    · exact (((SameRegs.refl _ f.core).wr _ (by simp)).inc 1 (by simp)).emit _ _ _ (by simp)
    · have hsame : (((s.wr MEMC_TRAIN.MS ms ch.val).inc MEMC_TRAIN.COUNT ch.val).cmdq = f.core.cmdq) ∧
          ((s.wr MEMC_TRAIN.MS ms ch.val).inc MEMC_TRAIN.COUNT ch.val).tck.running = f.core.tck.running := ⟨rfl, rfl⟩
      exact Core.raised_emit_mod _ 0 hsame.1 hsame.2
  clear_value t
  obtain ⟨htms, htcount, htregs, htraised⟩ := ht
  have hu : u.rd MEMC_STATUS.STATE ch.val = (if (List.range 3).any fun r => f.core.rank ch.val r == 2 || f.core.rank ch.val r == 4 then 1 else 2) ∧
      SameRegs [MEMC_STATUS.STATE.key ch.val] t u ∧ Touches [] t u := by
    have hone : SameRegs [MEMC_STATUS.STATE.key ch.val] t (t.wr MEMC_STATUS.STATE 1 ch.val) := (SameRegs.refl _ t).wr _ (by simp)
    have hsame : ((List.range 3).any fun r => (t.wr MEMC_STATUS.STATE 1 ch.val).rank ch.val r == 2 || (t.wr MEMC_STATUS.STATE 1 ch.val).rank ch.val r == 4) =
        (List.range 3).any fun r => f.core.rank ch.val r == 2 || f.core.rank ch.val r == 4 := by
      rw [Bool.eq_iff_iff, List.any_eq_true, List.any_eq_true]
      refine exists_congr fun r => and_congr_right fun hr => ?_
      have hto : (t.wr MEMC_STATUS.STATE 1 ch.val).rank ch.val r = f.core.rank ch.val r :=
        ((htregs.mono (by simp)).trans (hone.mono (by simp)) : SameRegs _ f.core _) _ _ (hrank ⟨r, List.mem_range.1 hr⟩)
      rw [hto]
    have hshow := t.showChan_working ch.val
    rw [hsame] at hshow
    have hueq : u = _ := hshow
    rw [hueq]
    refine ⟨(Core.rd_wr _ _ _ _).trans ?_, hone.wr _ (by simp), (Touches.wr _ _ _ _).trans (Touches.wr _ _ _ _)⟩
    split <;> rfl
  obtain ⟨hustate, huregs, huparts⟩ := hu
  have hv : Dealt [MEMC_RH_CNT.COUNT.key ch.val] u v := u.drain_dealt List.mem_cons_self _
  clear_value u v
  have htail : SameRegs [MEMC_STATUS.STATE.key ch.val, MEMC_RH_CNT.COUNT.key ch.val] t v := (huregs.mono (by simp)).trans (hv.regs.mono (by simp))
  have hto : SameRegs [MEMC_TRAIN.MS.key ch.val, MEMC_TRAIN.COUNT.key ch.val, MEMC_STATUS.STATE.key ch.val, MEMC_RH_CNT.COUNT.key ch.val,
      LOG_EVT_OVWR_CNT.COUNT.key 0] f.core v := (htregs.mono (by simp)).trans (htail.mono (by simp))
  have hwork : ¬ working.length < 2 := by
    have hsame : working = (List.range 3).filter fun r => decide (1 ≤ f.core.rank ch.val r ∧ f.core.rank ch.val r ≤ 5) := by
      unfold working
      rw [hbad]
      refine List.filter_congr fun r hr => ?_
      have hr' : v.rank ch.val r = f.core.rank ch.val r := hto _ _ fun hin => hrank ⟨r, List.mem_range.1 hr⟩ (by
        simp only [List.mem_cons, List.not_mem_nil, or_false] at hin ⊢
        tauto)
      rw [hr']
      simp
    rw [hsame]
    exact Nat.not_lt.2 hranks
  have hcmdq : v.cmdq = t.cmdq := (hv.parts .cmdq (by decide)).trans (huparts .cmdq (by decide))
  have htck : v.tck = t.tck := (hv.parts .tck (by decide)).trans (huparts .tck (by decide))
  rw [if_neg hwork, hbad]
  refine ⟨v, rfl, (htail _ _ ?_).trans htms, (htail _ _ ?_).trans htcount, (hv.regs _ _ hstate).trans hustate, ?_, hto⟩
  · exact fun h => hms (List.mem_cons_of_mem _ (List.mem_cons_of_mem _ h))
  · exact fun h => hcount (List.mem_cons_of_mem _ (List.mem_cons_of_mem _ h))
  · exact htraised.congr rfl rfl rfl (congrArg CmdqSt.fifo hcmdq) (congrArg CmdqSt.events hcmdq) (congrArg CmdqSt.evSeq hcmdq)
      (congrArg TckSt.running htck)


theorem channelRetrain_answers {s : State} (hboot : s.field.core.bootState ≠ 1) (ch : Fin 4) (result : Fin 3) (ms : BitVec 16)
    (failed : List (Fin 3)) (hres : result ≠ 2) (hst : s.field.core.rd MEMC_STATUS.STATE ch.val = 3)
    (hranks : 2 ≤ ((List.range 3).filter fun r => decide (1 ≤ s.field.core.rank ch.val r ∧ s.field.core.rank ch.val r ≤ 5)).length) :
    Answers (.channelRetrain ch result ms failed) s fun t =>
      t.field.core.rd MEMC_TRAIN.MS ch.val = ms.toNat ∧
      t.field.core.rd MEMC_TRAIN.COUNT ch.val = satU 8 (s.field.core.rd MEMC_TRAIN.COUNT ch.val + 1) ∧
      t.field.core.rd MEMC_STATUS.STATE ch.val = (if (List.range 3).any fun r =>
        s.field.core.rank ch.val r == 2 || s.field.core.rank ch.val r == 4 then 1 else 2) ∧
      s.field.core.Raised t.field.core 0x0408 (ch.val + at_ 1 result.val + at_ 2 ms.toNat) ∧
      SameRegs [MEMC_TRAIN.MS.key ch.val, MEMC_TRAIN.COUNT.key ch.val, MEMC_STATUS.STATE.key ch.val,
        MEMC_RH_CNT.COUNT.key ch.val, LOG_EVT_OVWR_CNT.COUNT.key 0] s.field.core t.field.core ∧ CoreOnly s t := by
  refine answers_of_onRunningField rfl hboot ?_
  obtain ⟨c, hdo, htook, hcount, hstate, hraised, hregs⟩ := doChannelRetrain_works ch ms.toNat (failed.map Fin.val)
    (fun h => hres (Fin.ext h)) hst hranks
  simp only [hdo]
  rw [Nat.mod_eq_of_lt (a := ch.val + at_ 1 result.val + at_ 2 ms.toNat) (by have := ms.isLt; simp only [at_]; omega)] at hraised
  exact ⟨htook.trans (Nat.mod_eq_of_lt ms.isLt), hcount, hstate, hraised, hregs, rfl, rfl, rfl⟩

/-! ### Retiring a rank, and a retrain that the host asks for (R529, R530) -/

theorem taken_mem (c : Call) (op : Nat) (s : State) : (s.taken c op).field.core.mem = s.field.core.mem := by rw [taken_core]
/-- A rank that may be retired is queued for its channel's spare. -/
theorem rankRetire_accepted {c : Call} {ch r : Nat} {s : Core} (hch : ch ≤ 3) (hr : r ≤ 2) (hst : s.rd MEMC_STATUS.STATE ch ≠ 4)
    (hrank : s.rank ch r = 1) (hspare : s.spareOf ch ≠ none) (hqueue : ∀ m ∈ s.mem.queue, m.ch ≠ ch)
    (hcur : ∀ m tgt, s.mem.cur = some (m, tgt) → m.ch ≠ ch) (hprint : s.printing = false) :
    rankRetire c ch r s = (.accepted (s.newOp 0x0803 c).1, (s.newOp 0x0803 c).2.setMigs (s.mem.queue ++ [⟨ch, r, 3, some (s.newOp 0x0803 c).1⟩])) := by
  have hnone : (s.spareOf ch).isNone = false := by rwa [Option.isNone_eq_false_iff, Option.isSome_iff_ne_none]
  have hqany : s.mem.queue.any (·.ch == ch) = false := List.any_eq_false.2 fun m hm => by simpa using hqueue m hm
  have hcany : (s.mem.cur.any fun m => m.1.ch == ch) = false := by
    cases h : s.mem.cur with
    | none => rfl
    | some p => simpa using hcur p.1 p.2 h
  have hmany : s.mem.queue.any (fun m => m.ch == ch && m.rank == r) = false := List.any_eq_false.2 fun m hm => by
    simp [beq_false_of_ne (hqueue m hm)]
  have hmig : (s.newOp 0x0803 c).2.queueMig ch r 3 (some (s.newOp 0x0803 c).1) =
      (s.newOp 0x0803 c).2.setMigs (s.mem.queue ++ [⟨ch, r, 3, some (s.newOp 0x0803 c).1⟩]) :=
    (Core.queueMig_spare (s := (s.newOp 0x0803 c).2) hrank hspare 3 _).trans (if_neg (by rw [show (s.newOp 0x0803 c).2.mem.queue = s.mem.queue from rfl, hmany]; decide))
  unfold rankRetire
  rw [hnone, hqany, hcany, hprint, if_neg (by omega), if_neg (by omega), if_neg (by simp), if_neg (by simp), if_neg (by simp [hst, hrank]), if_neg (by simp)]
  exact congrArg _ hmig
theorem rankRetire_answers {c : Call} {ch r : Byte} {s : State} (hc : CleanHeader c 4) (hr : Runs c 0x0803 2 s) (hch : ch.toNat ≤ 3) (hrk : r.toNat ≤ 2)
    (hst : s.field.core.rd MEMC_STATUS.STATE ch.toNat ≠ 4) (hrank : s.field.core.rank ch.toNat r.toNat = 1)
    (hspare : s.field.core.spareOf ch.toNat ≠ none) (hqueue : ∀ m ∈ s.field.core.mem.queue, m.ch ≠ ch.toNat)
    (hcur : ∀ m tgt, s.field.core.mem.cur = some (m, tgt) → m.ch ≠ ch.toNat) (hprint : s.field.core.printing = false)
    (hop : s.field.core.cmdq.opNext < 2 ^ 32) : Answers (.rankRetire c ch r) s fun t =>
      Completed c 0x0803 1 s.field.core.cmdq.opNext s t ∧
      t.field.core.cmdq.async = s.field.core.cmdq.async ++ [⟨s.field.core.cmdq.opNext, 0x0803, c.tag.toNat, c.q.val⟩] ∧
      t.field.core.mem.queue = s.field.core.mem.queue ++ [⟨ch.toNat, r.toNat, 3, some s.field.core.cmdq.opNext⟩] ∧
      t.field.core.rd MEM_STATUS.MIG_QUEUE = satU 3 (s.field.core.mem.queue.length + 1) ∧
      CommandFrame c 0x0803 [MEM_STATUS.MIG_QUEUE.key 0] s t := by
  obtain ⟨-, -, hnext, hasync⟩ := taken_records c 0x0803 s
  have hregs := SameRegs.taken c 0x0803 [MEM_STATUS.MIG_QUEUE.key 0] s
  have hranks : ∀ q < 3, (s.taken c 0x0803).field.core.rank ch.toNat q = s.field.core.rank ch.toNat q := fun q hq =>
    rd_taken c 0x0803 s (rankFld q) ch.toNat (rankKey_noCommand ⟨ch.toNat, by omega⟩ ⟨q, hq⟩).1
  have hstate := rd_taken c 0x0803 s MEMC_STATUS.STATE ch.toNat (rankKey_noCommand ⟨ch.toNat, by omega⟩ 0).2
  have hmem := taken_mem c 0x0803 s
  have htime := taken_etime c 0x0803 s
  have hprint' := taken_printing c 0x0803 s
  have hk : (cmdRankRetire c ch.toNat r.toNat).Plain 4 (rankRetire c ch.toNat r.toNat) := ⟨rfl, rfl, by decide, rfl, rfl, rfl⟩
  have hdone : ∀ a x, rankRetire c ch.toNat r.toNat (s.taken c 0x0803).field.core = (a, x) → a.AtOnce → x.etime = s.field.core.etime →
      (x.cmdq.done, x.cmdq.fspTx) = ((s.taken c 0x0803).field.core.cmdq.done, (s.taken c 0x0803).field.core.cmdq.fspTx) →
      Answers (.rankRetire c ch r) s ((cmdRankRetire c ch.toNat r.toNat).Done a s x) := by
    intro a x hb
    have h := hk.done (i := .rankRetire c ch r) (r := a) (x := x) rfl hc hr
    exact h hb
  generalize (s.taken c 0x0803).field.core = x0 at *
  have hbody := rankRetire_accepted (c := c) (s := x0) hch hrk (hstate ▸ hst) ((hranks _ (by omega)).trans hrank)
    (Core.spareOf_congr hranks ▸ hspare) (hmem ▸ hqueue) (hmem ▸ hcur) (hprint'.trans hprint)
  obtain ⟨hid, hycmdq, hyrest⟩ := x0.newOp_spec 0x0803 c (by rwa [hnext])
  rw [hid, hnext, hmem] at hbody
  generalize (x0.newOp 0x0803 c).2 = y at *
  have hyregs : y.regs = x0.regs := by rw [hyrest]
  have hytime : y.etime = x0.etime := by rw [hyrest]
  obtain ⟨t, hexec, ht⟩ := hdone _ _ hbody (.inr (.inl ⟨_, rfl⟩)) (hytime.trans htime)
    (show (y.cmdq.done, y.cmdq.fspTx) = _ by rw [hycmdq])
  refine ⟨t, hexec, ht.accepted, ?_, ?_, ?_, ht.frame ((hregs.trans (.of_regs hyregs)).trans (SameRegs.wr (.of_regs rfl) _))⟩
  · refine ht.records.1.trans (show y.cmdq.async = _ from ?_)
    rw [hycmdq, hasync, hnext]
  · rw [ht.rest]
    rfl
  · refine (ht.rd _ _ (by decide)).trans ((Core.rd_wr _ _ _ _).trans ?_)
    rw [List.length_append]
    exact Nat.mod_eq_of_lt (satU_lt _ _)
where
  rankKey_noCommand : ∀ (ch : Fin 4) (r : Fin 3), (rankFld r.val).key ch.val ∉ inFlightKeys ∧ MEMC_STATUS.STATE.key ch.val ∉ inFlightKeys := by decide

theorem memCtlAddr_facts : ∀ ch : Fin 4, atRegister (MEMC_CTL.RETRAIN.addr ch.val) = true ∧ writePriv (MEMC_CTL.RETRAIN.addr ch.val) ≤ 2 ∧
    ((fieldsAt (MEMC_CTL.RETRAIN.addr ch.val)).all fun p => !(p.1.acc == .rwl)) = true ∧ sharedAddr (MEMC_CTL.RETRAIN.addr ch.val) = true := by
  decide +kernel
theorem regWriteSpecial_memCtl (ch : Fin 4) (v : Nat) (s : Core) :
    regWriteSpecial (MEMC_CTL.RETRAIN.addr ch.val) v s = some (memCtl ch.val v s) := by
  fin_cases ch <;> rfl
/-- A retrain that the host asks for begins. -/
theorem memRetrainWrite_answers {c : Call} {v : Word} {s : State} (ch : Fin 4) (hc : CleanHeader c 8) (hr : Runs c 0x0101 2 s)
    (hcdc : s.field.core.cdc.out = []) (hv : v.toNat % 2 = 1) (hprint : s.field.core.printing = false)
    (h1 : 1 ≤ s.field.core.rd MEMC_STATUS.STATE ch.val) (h2 : s.field.core.rd MEMC_STATUS.STATE ch.val ≤ 2) :
    Answers (.memRetrainWrite c ch v) s fun t =>
      Completed c 0x0101 0 0 s t ∧ t.field.core.rd MEMC_STATUS.STATE ch.val = 3 ∧
      CommandFrame c 0x0101 [MEMC_STATUS.STATE.key ch.val] s t := by
  obtain ⟨hfree, hcmd⟩ := (by decide : ∀ ch : Fin 4, MEMC_STATUS.STATE.key ch.val ∉ inFlightKeys ∧ MEMC_STATUS.STATE.key ch.val ∉ commandKeys) ch
  obtain ⟨hat, hpriv, hlock, hshared⟩ := memCtlAddr_facts ch
  have hbit : bit v.toNat 0 = true := by simpa [bit, Nat.testBit_zero] using hv
  have hstate := (rd_taken c 0x0101 s _ _ hfree)
  have hact : regAct (MEMC_CTL.RETRAIN.addr ch.val) v.toNat (s.taken c 0x0101).field.core =
      (.ok 0, (s.taken c 0x0101).field.core.wr MEMC_STATUS.STATE 3 ch.val) := by
    unfold regAct
    rw [regWriteSpecial_memCtl, Option.getD_some]
    unfold memCtl Core.startRetrain
    rw [if_pos hbit, taken_printing, hprint, if_neg (by decide)]
    dsimp only
    rw [if_pos (by omega)]
  obtain ⟨t, ht, hdone⟩ := regWrite_done (i := .memRetrainWrite c ch v) rfl hc hr hat (Nat.le_trans hpriv (hr.priv_ge (by decide)))
    ⟨Core.crosses_of_none (by rw [taken_cdc]; exact hcdc) _, Core.present_shared _ hshared, Core.locked_of_none _ hlock⟩ hact (.inl ⟨0, rfl⟩)
    (taken_etime c 0x0101 s) rfl
  exact ⟨t, ht, hdone.completed, (hdone.rd _ _ hcmd).trans (Core.rd_wr _ _ _ _), hdone.frame ((SameRegs.taken c 0x0101 _ s).wr _ (by simp))⟩

/-! ### The address space formed anew (R513, R514, R531) -/

/-- Where the copy of the firmware that an address holds stands once the space is that of `new`. -/
def Core.copyAt (old new : Core) (a : Nat) : Option Nat :=
  if firmwarePage (old.pageAt (a / 4096)).2 ∧ new.mem.layout.contains (old.pageAt (a / 4096)).1 then
    some (4096 * new.pageOf (old.pageAt (a / 4096)).1 (old.pageAt (a / 4096)).2 + a % 4096)
  else none
/-- A byte of the old space goes to its place in the new one. -/
def Dram.copied (old new : Core) (m : Dram) (c : Host.Cell) : Dram :=
  match old.copyAt new c.1 with
  | some a => m.put a c.2
  | none => m
theorem keepCopies_get (old new : Core) (m : Dram) (a : Nat) :
    (keepCopies old new m).get a = (m.cells.foldl (Dram.copied old new) ⟨[], [], []⟩).get a := rfl
theorem Dram.get_copied {old new : Core} {m : Dram} {c : Host.Cell} {x : Nat} :
    (Dram.copied old new m c).get x = if old.copyAt new c.1 = some x then c.2 else m.get x := by
  unfold Dram.copied
  cases h : old.copyAt new c.1 with
  | none => rfl
  | some a =>
    by_cases hx : a = x
    · rw [hx, if_pos rfl]
      exact Dram.get_put _ _ _
    · rw [if_neg (by simpa using hx)]
      exact Dram.get_put_ne _ _ (Ne.symm hx)

/-- The engine page of a channel page in the layout is that page of that channel. -/
theorem Core.pageAt_pageOf {s : Core} {ch : Nat} (h : ch ∈ s.mem.layout) (cp : Nat) : s.pageAt (s.pageOf ch cp) = (ch, cp) := by
  have hidx : s.mem.layout.idxOf ch < s.ways := List.idxOf_lt_length_of_mem h
  unfold Core.pageAt Core.pageOf
  rw [Nat.mul_add_mod', Nat.mod_eq_of_lt hidx, Nat.mul_comm, Nat.mul_add_div (by omega), Nat.div_eq_of_lt hidx, Nat.add_zero, List.getD_eq_getElem _ _ hidx]
  exact congrArg (·, cp) (List.getElem_idxOf hidx)
/-- Two pages that are one page of one channel are one. -/
theorem Core.pageOf_pageAt {s : Core} (hnodup : s.mem.layout.Nodup) (hways : s.ways ≠ 0) (pg : Nat) :
    s.pageOf (s.pageAt pg).1 (s.pageAt pg).2 = pg := by
  have hlt : pg % s.ways < s.mem.layout.length := Nat.mod_lt _ (Nat.pos_of_ne_zero hways)
  unfold Core.pageAt Core.pageOf
  rw [List.getD_eq_getElem _ _ hlt, List.Nodup.idxOf_getElem hnodup, Nat.mul_comm]
  exact Nat.div_add_mod _ _

section
variable {old new : Core} {a x : Nat}
/-- A place in the new space is one of a copy of the firmware. -/
theorem Core.copyAt_firmware (h : old.copyAt new a = some x) : firmwarePage (new.pageAt (x / 4096)).2 = true := by
  unfold Core.copyAt at h
  split at h
  · next hcond =>
    obtain ⟨hfw, hin⟩ := hcond
    cases h
    rw [Nat.mul_add_div (by decide), Nat.div_eq_of_lt (Nat.mod_lt _ (by decide)), Nat.add_zero, Core.pageAt_pageOf (List.contains_iff_mem.1 hin)]
    exact hfw
  · cases h
/-- A byte of a copy comes from that byte of the same copy, and from no other. -/
theorem Core.copyAt_iff {ch cp i : Nat} (hnodup : old.mem.layout.Nodup) (hold : ch ∈ old.mem.layout) (hnew : ch ∈ new.mem.layout)
    (hfw : firmwarePage cp = true) (hi : i < 4096) :
    old.copyAt new a = some (4096 * new.pageOf ch cp + i) ↔ a = 4096 * old.pageOf ch cp + i := by
  have hways : old.ways ≠ 0 := fun h => List.not_mem_nil (List.eq_nil_of_length_eq_zero h ▸ hold)
  have hdiv : ∀ n, (4096 * n + i) / 4096 = n := by omega
  unfold Core.copyAt
  constructor
  · intro h
    split at h
    · next hcond =>
      obtain ⟨-, hin⟩ := hcond
      have heq := Option.some.inj h
      have hpage : new.pageOf (old.pageAt (a / 4096)).1 (old.pageAt (a / 4096)).2 = new.pageOf ch cp := by omega
      have hpair : old.pageAt (a / 4096) = (ch, cp) :=
        (Core.pageAt_pageOf (List.contains_iff_mem.1 hin) _).symm.trans ((congrArg _ hpage).trans (Core.pageAt_pageOf hnew cp))
      have hback : old.pageOf ch cp = a / 4096 := by
        have h := Core.pageOf_pageAt hnodup hways (a / 4096)
        rwa [hpair] at h
      omega
    · cases h
  · rintro rfl
    rw [hdiv, Core.pageAt_pageOf hold, if_pos ⟨hfw, List.contains_iff_mem.2 hnew⟩, show (4096 * old.pageOf ch cp + i) % 4096 = i by omega]
end
/-- A place that no byte goes to reads as it did. -/
theorem Dram.copied_free {old new : Core} {x : Nat} (h : ∀ a, old.copyAt new a ≠ some x) (cells : List Host.Cell) (m : Dram) :
    (cells.foldl (Dram.copied old new) m).get x = m.get x := by
  refine List.foldlRecOn (motive := fun y : Dram => y.get x = m.get x) cells _ rfl fun y hy c _ => ?_
  rw [Dram.get_copied, if_neg (h _), hy]
/-- What a key that is listed last, if at all, reads. -/
theorem mget_absent {α : Type} {d : α} {m : SMap α} {k : Nat} (h : ∀ e ∈ m, k < e.1) : mget d m k = d := by
  induction m with
  | nil => rfl
  | cons e m ih => rw [mget, if_neg (Nat.ne_of_gt (h e List.mem_cons_self)), ih fun e' he => h e' (List.mem_cons_of_mem _ he)]
/-- A place that one byte alone goes to reads what that byte read. -/
theorem Dram.copied_place {old new : Core} {x a : Nat} (h : ∀ b, old.copyAt new b = some x ↔ b = a) {cells : List Host.Cell}
    (hsorted : cells.Pairwise (·.1 < ·.1)) (m : Dram) : (cells.foldl (Dram.copied old new) m).get x = mget (m.get x) cells a := by
  induction cells generalizing m with
  | nil => rfl
  | cons e cells ih =>
    obtain ⟨hfirst, hrest⟩ := List.pairwise_cons.1 hsorted
    rw [List.foldl_cons, ih hrest, Dram.get_copied]
    by_cases he : e.1 = a
    · rw [if_pos ((h _).2 he), mget, if_pos he]
      exact mget_absent fun e' he' => he ▸ hfirst e' he'
    · rw [if_neg fun h' => he ((h _).1 h'), mget, if_neg he]

theorem Core.formSpace_spec (s : Core) : s.formSpace.mem.layout = maskBits 4 (s.rd MEM_STATUS.IN_SERVICE) ∧ s.formSpace.mem.reform = false ∧
    s.formSpace.rd MEM_STATUS.WAYS = (maskBits 4 (s.rd MEM_STATUS.IN_SERVICE)).length ∧
    s.formSpace.rd MEM_STATUS.GIB = 16 * (maskBits 4 (s.rd MEM_STATUS.IN_SERVICE)).length ∧
    SameRegs [MEM_STATUS.WAYS.key 0, MEM_STATUS.GIB.key 0, MEM_SCRUB_POS.PAGE.key 0] s s.formSpace := by
  have hlen : (maskBits 4 (s.rd MEM_STATUS.IN_SERVICE)).length ≤ 4 := List.length_filter_le _ _
  have hform : s.formSpace = (s.setMem { s.mem with layout := maskBits 4 (s.rd MEM_STATUS.IN_SERVICE), reform := false, scrubWord := 0 }).wrs
    [(MEM_STATUS.WAYS, (maskBits 4 (s.rd MEM_STATUS.IN_SERVICE)).length), (MEM_STATUS.GIB, 16 * (maskBits 4 (s.rd MEM_STATUS.IN_SERVICE)).length),
      (MEM_SCRUB_POS.PAGE, 0)] := rfl
  generalize maskBits 4 (s.rd MEM_STATUS.IN_SERVICE) = l at *
  rw [hform]
  refine ⟨rfl, rfl, ?_, ?_, .wrs (.of_regs rfl) (by simp)⟩
  · exact ((Core.rd_wr_ne _ _ _ _ _ _ (by simp only; decide)).trans (Core.rd_wr_ne _ _ _ _ _ _ (by simp only; decide))).trans
      ((Core.rd_wr _ _ _ _).trans (Nat.mod_eq_of_lt (show _ < 2 ^ 3 by omega)))
  · exact (Core.rd_wr_ne _ _ _ _ _ _ (by simp only; decide)).trans ((Core.rd_wr _ _ _ _).trans (Nat.mod_eq_of_lt (show _ < 2 ^ 7 by omega)))
theorem channelReform_answers {s : State} (hboot : s.field.core.bootState ≠ 1) (hreform : s.field.core.mem.reform = true)
    (hjobs : ∀ j ∈ s.field.core.jobs.jobs, j.live = false) (hcam : s.field.core.mem.camWas = false) :
    Answers .channelReform s fun t =>
      let chs := maskBits 4 (s.field.core.rd MEM_STATUS.IN_SERVICE)
      t.field.core.mem.layout = chs ∧ t.field.core.mem.reform = false ∧
      t.field.core.rd MEM_STATUS.WAYS = chs.length ∧ t.field.core.rd MEM_STATUS.GIB = 16 * chs.length ∧
      (∀ a, firmwarePage (t.field.core.pageAt (a / 4096)).2 = false → t.field.dram.get a = memDefault) ∧
      (s.field.dram.wf → s.field.core.mem.layout.Nodup → ∀ ch ∈ chs, ch ∈ s.field.core.mem.layout → ∀ cp i, firmwarePage cp = true →
        i < 4096 → t.field.dram.get (4096 * t.field.core.pageOf ch cp + i) =
          s.field.dram.get (4096 * s.field.core.pageOf ch cp + i)) ∧
      SameRegs [MEM_STATUS.WAYS.key 0, MEM_STATUS.GIB.key 0, MEM_SCRUB_POS.PAGE.key 0] s.field.core t.field.core ∧
      t.pending = s.pending ∧ t.host = s.host := by
  refine answers_of_onRunningField rfl hboot ?_
  obtain ⟨hlayout, hdone, hways, hgib, hregs⟩ := s.field.core.formSpace_spec
  have hlive : s.field.core.jobs.jobs.any (·.live) = false := List.any_eq_false.2 fun j hj => by simp [hjobs j hj]
  have hget := keepCopies_get s.field.core s.field.core.formSpace s.field.dram
  obtain ⟨c, hdo, hmem, hreg⟩ : ∃ c : Core, doChannelReform s.field = ⟨c, keepCopies s.field.core s.field.core.formSpace s.field.dram⟩ ∧
      c.mem = { s.field.core.formSpace.mem with camWas := false } ∧ c.regs = s.field.core.formSpace.regs := by
    unfold doChannelReform
    rw [if_neg (by simp [hreform, hlive]), hcam]
    exact ⟨_, rfl, rfl, rfl⟩
  generalize s.field.core.formSpace = n at *
  generalize keepCopies s.field.core n s.field.dram = d at *
  have hl : c.mem.layout = n.mem.layout := (congrArg MemSt.layout hmem :)
  have hpage : ∀ pg, c.pageAt pg = n.pageAt pg := fun pg => by rw [Core.pageAt, Core.pageAt, Core.ways, Core.ways, hl]
  have hof : ∀ ch cp, c.pageOf ch cp = n.pageOf ch cp := Core.pageOf_congr hl
  have hr : ∀ f k, c.rd f k = n.rd f k := fun _ _ => Core.rd_congr hreg _ _
  simp only [hdo]
  refine ⟨hl.trans hlayout, (congrArg MemSt.reform hmem).trans hdone, (hr _ _).trans hways, (hr _ _).trans hgib, fun a ha => ?_,
    fun hwf hnodup ch hch hold cp i hfw hi => ?_, hregs.trans (.of_regs hreg), trivial, trivial⟩
  · rw [hget, Dram.copied_free fun b hb => ?_]
    · rfl
    · rw [hpage, Core.copyAt_firmware hb] at ha
      cases ha
  · rw [hof, hget, Dram.copied_place (fun b => Core.copyAt_iff hnodup hold (hlayout ▸ hch) hfw hi) hwf.1]
    rfl

/-! ### The memory's statement -/

/-- Settles O57: what each row does to the counters, the ranks, the banks and the bytes of the DRAM. -/
theorem memoryErrorsRanksAndRows : Obligations.MemoryErrorsRanksAndRows := by
  unfold Obligations.MemoryErrorsRanksAndRows
  refine ⟨fun c ch r s hc hr hch hrk hst hrank hspare hqueue hcur hprint hop => rankRetire_answers hc hr hch hrk hst hrank hspare hqueue hcur hprint hop,
    fun c ch v s hc hr hcdc hv hprint h1 h2 => memRetrainWrite_answers ch hc hr hcdc hv hprint h1 h2,
    fun s hboot => ⟨?_, fun ch r wcrc hin => memCaErr_answers hboot ch r wcrc hin, fun ch r b i due => bankRow_answers hboot ch r b i due,
      rowHammerWindow_answers hboot, scrubRead_answers hboot,
      fun m tgt hcur hch hst hrow hpoison => migrationRowCopy_answers hboot hcur hch hst hrow hpoison,
      fun ch result ms failed hres hst hranks => channelRetrain_answers hboot ch result ms failed hres hst hranks,
      fun hreform hjobs hcam => channelReform_answers hboot hreform hjobs hcam⟩⟩
  intro word r cls hfour hthere hserves hclean honce
  obtain ⟨hserved, hrank, hspare, hstate⟩ := hserves
  have hways : s.field.core.ways ≠ 0 := fun h => by
    have hlt := of_decide_eq_true hthere
    rw [h] at hlt
    omega
  obtain ⟨ch, hch⟩ : ∃ ch : Fin 4, (s.field.core.pageAt (word.toNat / 64)).1 = ch.val :=
    ⟨⟨_, hfour.2 _ (Core.pageAt_mem hways _)⟩, rfl⟩
  rw [hch] at hrank hspare hstate ⊢
  have h : WordRead s.field word.toNat ch r := ⟨hch, hthere, hserved, hstate, hrank, hspare, hclean, honce⟩
  exact ⟨fun bad h1 h6 hoff => readError_corrected_answers hboot h h1 h6 hoff,
    fun bad h7 h10 hfw hnew => readError_detected_answers hboot h h7 h10 hfw hnew,
    fun bad next chs h7 h10 hfw _ hchs hne hgood => readError_firmware_answers hboot h hfour h7 h10 hfw hchs hne hgood,
    fun bad h11 hfw => readError_miscorrected_answers hboot h h11 hfw⟩

end Sys2Proof.Machine
end

section
/-! PROOF. The camera's commands, its control channel and its link, and the servo's modes and commits (spec/11_inspection_and_colour_servo.md
R457 to R461, R465, R475, R482 to R486). -/

namespace Sys2Proof.Machine

set_option Elab.async false

/-! ### The servo holds while the camera does not run (R475, R482) -/

theorem holdKey_mem {b : Nat} (h : b < 8) : CSVB_MODE.HOLD.key b ∈ holdKeys := List.mem_map.2 ⟨b, List.mem_range.2 h, rfl⟩
/-- A step that changes holds of the servo, what the servo has staged, and the events that say so, alone. -/
structure Held (a b : Core) : Prop where
  regs : SameRegs (LOG_EVT_OVWR_CNT.COUNT.key 0 :: holdKeys) a b
  parts : Touches [.csv, .press, .cmdq] a b
  async : b.cmdq.async = a.cmdq.async

theorem Core.emit_async (s : Core) (code data tag : Nat) : (s.emit code data tag).cmdq.async = s.cmdq.async :=
  (congrArg CmdqSt.async (Core.emit_cmdq s code data tag) :)
theorem Held.refl (a : Core) : Held a a := ⟨.refl _ a, .refl _ a, rfl⟩
theorem Held.trans {a b c : Core} (hab : Held a b) (hbc : Held b c) : Held a c :=
  ⟨hab.regs.trans hbc.regs, hab.parts.trans hbc.parts, hbc.async.trans hab.async⟩
theorem Core.dropServo_keeps (s : Core) (b : Nat) : (s.dropServo b).regs = s.regs ∧ Touches [.csv, .press] s (s.dropServo b) :=
  ⟨rfl, (((Within.refl [] [.csv, .press] s).csv _).press _).parts⟩
/-- A bar that is to hold holds. -/
theorem Core.enterHold_held (s : Core) {b : Nat} (hb : b < 8) : Held s (s.enterHold b) ∧ (s.enterHold b).rd CSVB_MODE.HOLD b ≠ 0 := by
  unfold Core.enterHold
  split
  · next h => exact ⟨.refl s, fun h0 => by rw [Core.rdb, h0] at h; cases h⟩
  · obtain ⟨hregs, hparts⟩ := (s.wr CSVB_MODE.HOLD 1 b).dropServo_keeps b
    have hone : ((s.wr CSVB_MODE.HOLD 1 b).dropServo b).rd CSVB_MODE.HOLD b = 1 := (Core.rd_congr hregs _ _).trans (Core.rd_wr _ _ _ _)
    have hto : SameRegs (LOG_EVT_OVWR_CNT.COUNT.key 0 :: holdKeys) s ((s.wr CSVB_MODE.HOLD 1 b).dropServo b) :=
      ((SameRegs.refl _ s).wr 1 (List.mem_cons_of_mem _ (holdKey_mem hb))).trans (.of_regs hregs)
    refine ⟨⟨hto.emit _ _ _ List.mem_cons_self, ((Touches.wr s CSVB_MODE.HOLD 1 b).mono (by simp)).trans ((hparts.mono (by decide)).trans
      ((Touches.emit _ _ _ _).mono (by decide))), Core.emit_async _ _ _ _⟩, ?_⟩
    rw [(SameRegs.refl [LOG_EVT_OVWR_CNT.COUNT.key 0] _).emit _ _ _ (by simp) CSVB_MODE.HOLD b (holdKey_free ⟨b, hb⟩), hone]
    decide
where
  holdKey_free : ∀ b : Fin 8, CSVB_MODE.HOLD.key b.val ∉ [LOG_EVT_OVWR_CNT.COUNT.key 0] := by decide
/-- The camera is not, or no longer, running. -/
structure CamStill (v : Nat) (a b : Core) : Prop where
  state : b.camState = v
  regs : SameRegs (CAM_STATUS.STATE.key 0 :: LOG_EVT_OVWR_CNT.COUNT.key 0 :: holdKeys) a b
  parts : Touches [.cam, .csv, .press, .cmdq] a b
  cam : ∃ stopAt, b.cam = { a.cam with stopAt := stopAt }
  async : b.cmdq.async = a.cmdq.async
theorem Core.setCamState_still (s : Core) {v : Nat} (hv : v < 8) (h5 : v ≠ 5) : CamStill v s (s.setCamState v) := by
  have hwr : ∀ t : Core, (t.wr CAM_STATUS.STATE v).camState = v := fun t => (Core.rd_wr _ _ _ _).trans (Nat.mod_eq_of_lt hv)
  have hregs : SameRegs (CAM_STATUS.STATE.key 0 :: LOG_EVT_OVWR_CNT.COUNT.key 0 :: holdKeys) s (s.wr CAM_STATUS.STATE v) :=
    (SameRegs.refl _ s).wr v List.mem_cons_self
  unfold Core.setCamState
  rw [if_neg fun h => h5 h.2]
  split
  · extract_lets src t
    have ht : Touches [.cam, .csv, .press, .cmdq] s t :=
      ((Touches.wr s CAM_STATUS.STATE v 0).mono (by simp)).trans ((((Within.refl [] [.cam] (s.wr CAM_STATUS.STATE v)).cam _).parts).mono (by decide))
    have hheld : Held t ((List.range 8).foldl (fun s b => if s.rd CSVB_MODE.MODE b = 0 then s else s.enterHold b) t) := by
      refine List.foldlRecOn (motive := Held t) _ _ (.refl t) fun x hx b hb => ?_
      split
      · exact hx
      · exact hx.trans (x.enterHold_held (List.mem_range.1 hb)).1
    generalize (List.range 8).foldl _ t = y at *
    refine ⟨?_, (hregs.trans (.of_regs rfl)).trans (hheld.regs.mono (List.subset_cons_self _ _)), ht.trans (hheld.parts.mono (by decide)),
      ⟨_, (hheld.parts .cam (by decide)).trans rfl⟩, hheld.async⟩
    exact (hheld.regs CAM_STATUS.STATE 0 (by decide)).trans (hwr s)
  · exact ⟨hwr s, hregs, (Touches.wr s CAM_STATUS.STATE v 0).mono (by simp), ⟨_, rfl⟩, rfl⟩

/-! ### CAM_START (R483) -/

/-- The record of the camera once a request is queued. -/
theorem Core.camRequest_queued (s : Core) (kind : CamReqKind) (r : CtlReq) : s.camRequest kind r =
    s.setCam { s.cam with ctl := if s.cam.reqs = [] then r.frame else s.cam.ctl, reqs := s.cam.reqs ++ [⟨kind, r, 0, s.etime⟩] } := by
  unfold Core.camRequest
  split <;> rfl

theorem taken_cam (c : Call) (op : Nat) (s : State) : (s.taken c op).field.core.cam = s.field.core.cam := by rw [taken_core]
theorem Core.sensorOf_congr {a b : Core} (h : b.cam.mem = a.cam.mem) (v : Nat) : b.sensorOf v = a.sensorOf v := by
  unfold Core.sensorOf Core.sensors Core.camField
  rw [h]
theorem Core.ringFrames_congr {a b : Core} (h : b.cam.mem = a.cam.mem) (hl : b.rd CAM_CFG.FRAME_LINES = a.rd CAM_CFG.FRAME_LINES) (v : Nat) :
    b.ringFrames v = a.ringFrames v := by
  unfold Core.ringFrames Core.pixels
  rw [Core.sensorOf_congr h, hl]
  unfold Core.sensors Core.camField
  rw [h]
/-- A camera that is identified, with room for its frames, is sent CONFIG. -/
theorem camStart_asks {c : Call} {s : Core} (hst : s.camState = 3) (hstart : s.cam.start = []) (hauto : s.cam.auto = false)
    (hroom : ∀ v : Fin 4, s.sensorOf v.val ≠ none → 4 ≤ s.ringFrames v.val) :
    camStart c s = (.later, ((s.openCmd (refOf 0x0600 c)).setCam { s.cam with start := [refOf 0x0600 c] }).camConfig) := by
  have hno : ((List.range 4).any fun v => (s.sensorOf v).isSome && decide (s.ringFrames v < 4)) = false := by
    refine List.any_eq_false.2 fun v hv => ?_
    have h4 := hroom ⟨v, List.mem_range.1 hv⟩
    rw [Bool.and_eq_true, decide_eq_true_iff, Option.isSome_iff_ne_none]
    exact fun h => absurd (h4 h.1) (Nat.not_le.2 h.2)
  unfold camStart
  rw [hst, hno, if_neg (by decide), if_neg (by decide), if_neg (by decide), hstart, hauto]
  rfl
theorem camStart_answers {c : Call} {s : State} (hc : CleanHeader c 0) (hr : Runs c 0x0600 2 s) (hst : s.field.core.camState = 3)
    (hstart : s.field.core.cam.start = []) (hauto : s.field.core.cam.auto = false)
    (hroom : ∀ v : Fin 4, s.field.core.sensorOf v.val ≠ none → 4 ≤ s.field.core.ringFrames v.val) :
    let config : CtlReq := .config (s.field.core.rd CAM_CFG.FRAME_LINES) (vcMask s.field.core.cam.mem)
    Answers (.camStart c) s fun t =>
      Started c 0x0600 t ∧ t.field.core.cmdq.done = s.field.core.cmdq.done ∧
      t.field.core.cam = { s.field.core.cam with
        start := [refOf 0x0600 c]
        ctl := if s.field.core.cam.reqs = [] then config.frame else s.field.core.cam.ctl
        reqs := s.field.core.cam.reqs ++ [⟨.config, config, 0, s.field.core.etime⟩] } ∧
      CommandFrame c 0x0600 [] s t := by
  have hcam := taken_cam c 0x0600 s
  have hlines := rd_taken c 0x0600 s CAM_CFG.FRAME_LINES 0 (by decide)
  have hbody : (cmdCamStart c).body (s.taken c 0x0600).field = _ := congrArg (fun p : Reply × Core => (p.1, (⟨p.2, (s.taken c 0x0600).field.dram⟩ : Field)))
    (camStart_asks (c := c) (s := (s.taken c 0x0600).field.core) ((rd_taken c 0x0600 s _ _ (by decide)).trans hst) (by rw [hcam, hstart])
      (by rw [hcam, hauto]) fun v hv => by
        rw [Core.sensorOf_congr (congrArg CamSt.mem hcam)] at hv
        rw [Core.ringFrames_congr (congrArg CamSt.mem hcam) hlines]
        exact hroom v hv)
  obtain ⟨t, hexec, ht⟩ := Cmd.runs_begun (k := cmdCamStart c) (i := .camStart c) rfl hr (hc.header (by decide)) rfl (by simp [cmdCamStart, hc.sg])
    (by simp [Cmd.lengthCheck, cmdCamStart, hc.len, hc.sg]) (hc.params (k := cmdCamStart c)) hbody
  have hframe := ht.frame (taken_dram _ _ _) (SameRegs.trans (SameRegs.taken c 0x0600 [] s) (SameRegs.of_regs (by rw [Core.camConfig, Core.camRequest_queued]; rfl)))
  have hpast : (s.taken c 0x0600).field.core.etime = s.field.core.etime ∧ (s.taken c 0x0600).field.core.cmdq.done = s.field.core.cmdq.done :=
    ⟨taken_etime _ _ _, taken_done _ _ _⟩
  obtain ⟨l, rfl⟩ := ht
  refine ⟨_, hexec, ?_, ?_, ?_, hframe⟩
  · change _ ∈ ((((s.taken c 0x0600).field.core.openCmd (refOf 0x0600 c)).setCam _).camConfig).cmdq.open_
    rw [Core.camConfig, Core.camRequest_queued]
    exact List.mem_append_right _ List.mem_cons_self
  · change ((((s.taken c 0x0600).field.core.openCmd (refOf 0x0600 c)).setCam _).camConfig).cmdq.done = _
    rw [Core.camConfig, Core.camRequest_queued]
    exact hpast.2
  · change ((((s.taken c 0x0600).field.core.openCmd (refOf 0x0600 c)).setCam _).camConfig).cam = _
    rw [Core.camConfig, Core.camRequest_queued, ← hpast.1, ← hcam, ← hlines]
    rfl

/-! ### CAM_STOP (R484) -/

/-- Frames of which none is open. -/
theorem closedFrames (m : SMap CamFrame) (v : Nat) :
    (mget CamFrame.none (m.map fun e => (e.1, { e.2 with open_ := false })) v).open_ = false := by
  induction m with
  | nil => rfl
  | cons e m ih =>
    rw [List.map_cons, mget]
    split
    · rfl
    · exact ih
/-- What CAM_STOP leaves of a camera that is identified. -/
structure CamStopped (a b : Core) : Prop where
  state : b.camState = 3
  started : b.rd CAM_STATUS.STARTED = 0
  reqs : b.cam.reqs = a.cam.reqs ++ [⟨.stop, .stop, 0, a.etime⟩]
  frames : ∀ v, (b.frame v).open_ = false
  regs : SameRegs (CAM_STATUS.STATE.key 0 :: CAM_STATUS.STARTED.key 0 :: LOG_EVT_OVWR_CNT.COUNT.key 0 :: holdKeys) a b
  parts : Touches [.cam, .csv, .press, .cmdq] a b
theorem camStop_stopped {s : Core} (h : 3 ≤ s.camState) : ∃ x, camStop s = (.ok 0, x) ∧ CamStopped s x := by
  obtain ⟨hreqs, hpast, hreg⟩ : (s.camRequest .stop .stop).cam.reqs = s.cam.reqs ++ [⟨.stop, .stop, 0, s.etime⟩] ∧
      Touches [.cam] s (s.camRequest .stop .stop) ∧ (s.camRequest .stop .stop).regs = s.regs := by
    rw [Core.camRequest_queued]
    exact ⟨rfl, ((Within.refl [] [.cam] s).cam _).parts, rfl⟩
  have hstill := (s.camRequest .stop .stop).setCamState_still (v := 3) (by decide) (by decide)
  unfold camStop
  rw [if_pos h]
  generalize s.camRequest .stop .stop = y at *
  obtain ⟨hstate, hregs, hparts, ⟨stopAt, hcam⟩, -⟩ := hstill
  generalize y.setCamState 3 = z at *
  refine ⟨_, rfl, (Core.rd_wr_ne z CAM_STATUS.STARTED CAM_STATUS.STATE 0 0 0 (by decide)).trans hstate, Core.rd_wr z CAM_STATUS.STARTED 0 0,
    (congrArg CamSt.reqs hcam).trans hreqs, closedFrames _, ?_, ?_⟩
  · exact ((SameRegs.of_regs hreg).trans (hregs.mono (by decide))).trans ((SameRegs.refl _ z).wr (f := CAM_STATUS.STARTED) (n := 0) 0)
  · exact (hpast.mono (by decide)).trans (hparts.trans (((Touches.wr z CAM_STATUS.STARTED 0 0).mono (by simp)).trans
      (((Within.refl [] [.cam] (z.wr CAM_STATUS.STARTED 0)).cam _).parts.mono (by decide))))
theorem camStop_answers {c : Call} {s : State} (hc : CleanHeader c 0) (hr : Runs c 0x0601 2 s) (hst : 3 ≤ s.field.core.camState) :
    Answers (.camStop c) s fun t =>
      Completed c 0x0601 0 0 s t ∧ t.field.core.camState = 3 ∧ t.field.core.rd CAM_STATUS.STARTED = 0 ∧
      t.field.core.cam.reqs = s.field.core.cam.reqs ++ [⟨.stop, .stop, 0, s.field.core.etime⟩] ∧
      (∀ v : Fin 4, (t.field.core.frame v.val).open_ = false) ∧
      CommandFrame c 0x0601 (CAM_STATUS.STATE.key 0 :: CAM_STATUS.STARTED.key 0 :: holdKeys) s t := by
  have hcam := taken_cam c 0x0601 s
  have htime := taken_etime c 0x0601 s
  have hk : (cmdCamStop c).Plain 0 camStop := ⟨rfl, rfl, by decide, rfl, rfl, rfl⟩
  obtain ⟨x, hx, hstop⟩ := camStop_stopped (s := (s.taken c 0x0601).field.core) (hst.trans_eq (rd_taken c 0x0601 s CAM_STATUS.STATE 0 (by decide)).symm)
  obtain ⟨t, hexec, ht⟩ := hk.done (i := .camStop c) rfl hc hr hx (.inl ⟨0, rfl⟩) ((hstop.parts .etime (by decide)).trans htime) (hstop.parts .answers (by decide))
  have htcam : t.field.core.cam = x.cam := by rw [ht.rest]
  refine ⟨t, hexec, ht.completed, (ht.rd _ _ (by decide)).trans hstop.state, (ht.rd _ _ (by decide)).trans hstop.started, ?_, fun v => ?_, ht.frame ?_⟩
  · rw [htcam, hstop.reqs, hcam, htime]
  · rw [Core.frame_congr (congrArg CamSt.frames htcam)]
    exact hstop.frames v.val
  · exact (SameRegs.taken c 0x0601 _ s).trans (hstop.regs.mono stopKeys)
where
  stopKeys : CAM_STATUS.STATE.key 0 :: CAM_STATUS.STARTED.key 0 :: LOG_EVT_OVWR_CNT.COUNT.key 0 :: holdKeys ⊆
    commandKeys ++ (CAM_STATUS.STATE.key 0 :: CAM_STATUS.STARTED.key 0 :: holdKeys) := by decide

/-! ### The camera link ends (R460, R461) -/

/-- A reset that no crossing meets changes nothing. -/
theorem Core.cdcReset_clear {s : Core} {p : Nat → Bool} (h : ∀ x ∈ s.cdc.out ++ s.cdc.req.map (·.1), p x = false) : s.cdcReset p = s := by
  have hhit : ((s.cdc.out ++ s.cdc.req.map (·.1)).eraseDups).filter p = [] := List.filter_eq_nil_iff.2 fun x hx => by
    rw [h x (List.mem_eraseDups.1 hx)]
    decide
  have hany : s.cdc.out.any p = false := List.any_eq_false.2 fun x hx => by
    rw [h x (List.mem_append_left _ hx)]
    decide
  unfold Core.cdcReset
  rw [hhit]
  exact if_neg (by rw [List.foldl_nil, hany]; decide)
theorem Core.endFrames_closed {s : Core} {l : List Nat} (h : ∀ v ∈ l, (s.frame v).open_ = false) :
    l.foldl (fun s v => if (s.frame v).open_ then s.endFrame v false else s) s = s := by
  induction l with
  | nil => rfl
  | cons v l ih =>
    rw [List.foldl_cons, if_neg (by rw [h v List.mem_cons_self]; decide)]
    exact ih fun w hw => h w (List.mem_cons_of_mem _ hw)
/-- What the end of the link leaves where no start waits, no frame is open and no crossing touches the link. -/
structure CamEnded (state cause : Nat) (a b : Core) : Prop where
  state : b.camState = state
  cam : ∃ stopAt, b.cam = { a.cam with
    stopAt := stopAt, fifo := [], fsWait := false, linked := false, reqs := a.cam.reqs.filter fun r => r.kind != .config, start := [], auto := false }
  event : ∃ y : Core, y.Raised b 0x0A02 (cause % 2 ^ 128)
  regs : SameRegs (CAM_STATUS.STATE.key 0 :: LOG_EVT_OVWR_CNT.COUNT.key 0 :: holdKeys) a b
  parts : Touches [.cam, .csv, .press, .cmdq, .fij] a b
  async : b.cmdq.async = a.cmdq.async
/-- The camera's record once its link has ended. -/
def Core.unlinked (s : Core) : Core :=
  let s := s.setCam { s.cam with
    fifo := [], fsWait := false, linked := false, reqs := s.cam.reqs.filter fun r => r.kind != .config }
  { s with fij := { s.fij with held := s.fij.held.filter fun u => u.target != 5 } }
theorem Core.camEnd_unlinks (s : Core) (state cause : Nat) : s.camEnd state cause =
    ((((List.range 4).foldl (fun s v => if (s.frame v).open_ then s.endFrame v false else s)
      ((s.setCamState state).emit 0x0A02 cause)).unlinked).endStarts (.err 0x40 0 0xFFFF (some 0x0A02))).cdcReset
      fun id => id % 16 == 0xB || id / 16 % 16 == 0xB := rfl
theorem Core.endStarts_none {s : Core} (h : s.cam.start = []) (r : Reply) :
    s.endStarts r = s.setCam { s.cam with start := [], auto := false } := by
  unfold Core.endStarts
  rw [h]
  rfl
theorem Core.camEnd_ended {s : Core} {state : Nat} (hv : state < 8) (h5 : state ≠ 5) (cause : Nat) (hstart : s.cam.start = [])
    (hframes : ∀ v : Fin 4, (s.frame v.val).open_ = false) (hcdc : NoCameraCrossing s) : CamEnded state cause s (s.camEnd state cause) := by
  obtain ⟨hstate, hregs, hparts, ⟨stopAt, hcam⟩, hasync⟩ := s.setCamState_still hv h5
  have hraised : (s.setCamState state).Raised ((s.setCamState state).emit 0x0A02 cause) 0x0A02 (cause % 2 ^ 128) :=
    Core.raised_emit_mod (a := s.setCamState state) (s := s.setCamState state) cause 0 rfl rfl
  have hemit : SameRegs [LOG_EVT_OVWR_CNT.COUNT.key 0] (s.setCamState state) ((s.setCamState state).emit 0x0A02 cause) := (SameRegs.refl _ _).emit _ _ _
  have hto := Touches.emit (s.setCamState state) 0x0A02 cause 0
  have hzasync := (s.setCamState state).emit_async 0x0A02 cause 0
  rw [s.camEnd_unlinks]
  generalize s.setCamState state = y at *
  generalize y.emit 0x0A02 cause = z at *
  have hzcam : z.cam = { s.cam with stopAt := stopAt } := (hto .cam (by decide)).trans hcam
  have hzcdc : z.cdc = s.cdc := (hto .cdc (by decide)).trans (hparts .cdc (by decide))
  rw [Core.endFrames_closed (s := z) (l := List.range 4) fun v hv => by
      rw [Core.frame_congr (show z.cam.frames = s.cam.frames by rw [hzcam])]
      exact hframes ⟨v, List.mem_range.1 hv⟩,
    Core.endStarts_none (s := z.unlinked) (show z.cam.start = [] by rw [hzcam, hstart]),
    Core.cdcReset_clear (s := z.unlinked.setCam { z.unlinked.cam with start := [], auto := false }) (show ∀ x ∈ z.cdc.out ++ z.cdc.req.map (·.1), _ by rw [hzcdc]; exact hcdc)]
  have hoff : Within [] [.cam, .fij] z (z.unlinked.setCam { z.unlinked.cam with start := [], auto := false }) :=
    (((Within.refl [] [.cam, .fij] z).cam _).fij _).cam _
  refine ⟨(hemit _ _ (by decide)).trans hstate, ⟨stopAt, ?_⟩, ⟨y, hraised.congr rfl rfl rfl rfl rfl rfl rfl⟩,
    (hregs.trans (hemit.mono (by simp))).trans (.of_regs rfl), ((hparts.mono (by decide)).trans (hto.mono (by decide))).trans (hoff.parts.mono (by decide)), hzasync.trans hasync⟩
  change ({ z.cam with fifo := [], fsWait := false, linked := false, reqs := z.cam.reqs.filter fun r => r.kind != .config, start := [], auto := false } : CamSt) = _
  rw [hzcam]
/-- The two ends of the link that the camera itself brings. -/
theorem camEnd_answers {i : Instr} {cause : Nat} {s : State} (hboot : s.field.core.bootState ≠ 1) (hstart : s.field.core.cam.start = [])
    (hcdc : NoCameraCrossing s.field.core) (hframes : ∀ v : Fin 4, (s.field.core.frame v.val).open_ = false)
    (hi : (i = .camLinkDown ∧ cause = 1 ∧ s.field.core.cam.linked = true) ∨
      (i = .camTriggerUnmatchedTimeout ∧ cause = 2 ∧ 4 ≤ s.field.core.camState ∧ s.field.core.camState ≤ 5 ∧ s.field.core.cam.fifo ≠ [])) :
    Answers i s fun t =>
      t.field.core.camState = 0 ∧ t.field.core.cam.linked = false ∧ t.field.core.newest 0x0A02 = some (0x0A02, cause) ∧
      t.field.core.cam.fifo = [] ∧
      (∀ k ks, s.field.core.cam.fifo = k :: ks → cause = 2 → t.field.core.etime = max s.field.core.etime (k.etime + 10000000)) ∧
      SameRegs (CAM_STATUS.STATE.key 0 :: LOG_EVT_OVWR_CNT.COUNT.key 0 :: holdKeys) s.field.core t.field.core ∧ CoreOnly s t := by
  obtain ⟨rfl, rfl, hlinked⟩ | ⟨rfl, rfl, hlo, hhi, hfifo⟩ := hi
  · refine answers_of_onRunning (g := doCamLinkDown) rfl hboot ?_
    obtain ⟨hstate, ⟨stopAt, hcam⟩, ⟨_, hevent, -⟩, hregs, -, -⟩ := Core.camEnd_ended (state := 0) (by decide) (by decide) 1 hstart hframes hcdc
    have hdo : doCamLinkDown s.field.core = s.field.core.camEnd 0 1 := if_neg (by rw [hlinked]; decide)
    simp only [State.onCore, Field.onCore, hdo]
    generalize s.field.core.camEnd 0 1 = x at *
    exact ⟨hstate, by rw [hcam], hevent, by rw [hcam], fun _ _ _ h => (nomatch h), hregs, rfl, rfl, rfl⟩
  · refine answers_of_onRunning (g := doCamTriggerUnmatched) rfl hboot ?_
    obtain ⟨k, ks, hks⟩ := List.exists_cons_of_ne_nil hfifo
    obtain ⟨hstate, ⟨stopAt, hcam⟩, ⟨_, hevent, -⟩, hregs, hparts, -⟩ := Core.camEnd_ended (s := s.field.core.reach (k.etime + 10000000)) (state := 0)
      (by decide) (by decide) 2 hstart hframes hcdc
    have hdo : doCamTriggerUnmatched s.field.core = (s.field.core.reach (k.etime + 10000000)).camEnd 0 2 := by
      unfold doCamTriggerUnmatched
      rw [hks]
      exact if_pos (by omega)
    simp only [State.onCore, Field.onCore, hdo]
    generalize (s.field.core.reach (k.etime + 10000000)).camEnd 0 2 = x at *
    refine ⟨hstate, by rw [hcam], hevent, by rw [hcam], fun k' ks' h _ => ?_, hregs, rfl, rfl, rfl⟩
    obtain ⟨rfl, -⟩ := List.cons.inj (hks.symm.trans h)
    exact hparts .etime (by decide)

/-! ### CAM_REINIT and its time-out (R485) -/

/-- The operation that waits for the link to come up again. -/
def Core.reinits (s : Core) (op : Nat) : Core :=
  s.tickFree.setCam { s.tickFree.cam with reinit := s.tickFree.cam.reinit ++ [(op, s.tickFree.etime + 2000000000)] }
theorem camReinit_accepted {c : Call} {s : Core} (h : s.printing = false) : camReinit c s =
    (.accepted (s.newOp 0x0603 c).1, ((s.newOp 0x0603 c).2.camEnd 6 ((Config.freeDetail (s.newOp 0x0603 c).2.free).toNat % 256)).reinits (s.newOp 0x0603 c).1) := by
  unfold camReinit
  rw [h, if_neg (by simp)]
  generalize s.newOp 0x0603 c = p
  obtain ⟨op, y⟩ := p
  dsimp -zeta only
  extract_lets z
  rfl
theorem camReinit_answers {c : Call} {s : State} (hc : CleanHeader c 0) (hr : Runs c 0x0603 2 s) (hprint : s.field.core.printing = false)
    (hstart : s.field.core.cam.start = []) (hframes : ∀ v : Fin 4, (s.field.core.frame v.val).open_ = false)
    (hcdc : NoCameraCrossing s.field.core) (hop : s.field.core.cmdq.opNext < 2 ^ 32) :
    Answers (.camReinit c) s fun t =>
      Completed c 0x0603 1 s.field.core.cmdq.opNext s t ∧ t.field.core.camState = 6 ∧
      t.field.core.cmdq.async = s.field.core.cmdq.async ++ [⟨s.field.core.cmdq.opNext, 0x0603, c.tag.toNat, c.q.val⟩] ∧
      t.field.core.cam.reinit = s.field.core.cam.reinit ++ [(s.field.core.cmdq.opNext, s.field.core.etime + 2000000000)] ∧
      t.field.core.cam.fifo = [] ∧ (t.field.core.newest 0x0A02).map (·.1) = some 0x0A02 ∧
      CommandFrame c 0x0603 (CAM_STATUS.STATE.key 0 :: holdKeys) s t := by
  obtain ⟨-, -, hnext, hasync⟩ := taken_records c 0x0603 s
  have hcam := taken_cam c 0x0603 s
  have hcdcs := taken_cdc c 0x0603 s
  have htime := taken_etime c 0x0603 s
  have hregs := SameRegs.taken c 0x0603 (CAM_STATUS.STATE.key 0 :: holdKeys) s
  have hk : (cmdCamReinit c).Plain 0 (camReinit c) := ⟨rfl, rfl, by decide, rfl, rfl, rfl⟩
  have hbody := camReinit_accepted (c := c) ((taken_printing c 0x0603 s).trans hprint)
  have hdone : ∀ r x, camReinit c (s.taken c 0x0603).field.core = (r, x) → r.AtOnce → x.etime = s.field.core.etime →
      (x.cmdq.done, x.cmdq.fspTx) = ((s.taken c 0x0603).field.core.cmdq.done, (s.taken c 0x0603).field.core.cmdq.fspTx) →
      Answers (.camReinit c) s ((cmdCamReinit c).Done r s x) := by
    intro r x hb
    have h := hk.done (i := .camReinit c) (r := r) (x := x) rfl hc hr
    exact h hb
  generalize (s.taken c 0x0603).field.core = τ at *
  obtain ⟨hid, hycmdq, hyrest⟩ := τ.newOp_spec 0x0603 c (by rwa [hnext])
  rw [hid, hnext] at hbody
  generalize (τ.newOp 0x0603 c).2 = y at *
  have hycam : y.cam = s.field.core.cam := by rw [hyrest, ← hcam]
  have hytime : y.etime = s.field.core.etime := by rw [hyrest, ← htime]
  have hyregs : y.regs = τ.regs := by rw [hyrest]
  obtain ⟨hstate, ⟨stopAt, hzcam⟩, hevent, hzregs, hzparts, hzasync⟩ := Core.camEnd_ended (s := y) (state := 6) (by decide) (by decide)
    ((Config.freeDetail y.free).toNat % 256) (by rw [hycam, hstart])
    (fun v => by rw [Core.frame_congr (congrArg CamSt.frames hycam)]; exact hframes v)
    (by unfold NoCameraCrossing; rw [show y.cdc = s.field.core.cdc by rw [hyrest]; exact hcdcs]; exact hcdc)
  generalize y.camEnd 6 _ = z at *
  obtain ⟨t, hexec, ht⟩ := hdone _ _ hbody (.inr (.inl ⟨_, rfl⟩)) ((hzparts .etime (by decide)).trans hytime)
    ((hzparts .answers (by decide)).trans (by rw [hycmdq]))
  have htcam : t.field.core.cam = (z.reinits s.field.core.cmdq.opNext).cam := by rw [ht.rest]
  obtain ⟨y', hraised⟩ := hevent
  have hlater : y'.Raised t.field.core 0x0A02 ((Config.freeDetail y.free).toNat % 256 % 2 ^ 128) :=
    ht.raised (hraised.congr rfl rfl rfl rfl rfl rfl rfl) (show (1 : Nat) ≠ 0xFE by decide)
  refine ⟨t, hexec, ht.accepted, (ht.rd _ _ (by decide)).trans hstate, ?_, ?_, ?_, ?_, ht.frame ?_⟩
  · refine ht.records.1.trans (hzasync.trans ?_)
    rw [hycmdq]
    exact congrArg₂ (fun l n => l ++ [(⟨n, 0x0603, c.tag.toNat, c.q.val⟩ : AsyncOp)]) hasync hnext
  · rw [htcam]
    have hzre : z.cam.reinit = y.cam.reinit := (congrArg CamSt.reinit hzcam :)
    have hre : z.cam.reinit = s.field.core.cam.reinit := by rw [hzre, hycam]
    have hat : z.etime = s.field.core.etime := (hzparts .etime (by decide)).trans hytime
    exact congrArg₂ (fun l n => l ++ [(s.field.core.cmdq.opNext, n + 2000000000)]) hre hat
  · rw [htcam]
    exact congrArg CamSt.fifo hzcam
  · rw [hlater.1]
    rfl
  · refine (hregs.trans (.of_regs hyregs)).trans (SameRegs.trans (hzregs.mono reinitKeys) (.of_regs rfl))
where
  reinitKeys : CAM_STATUS.STATE.key 0 :: LOG_EVT_OVWR_CNT.COUNT.key 0 :: holdKeys ⊆ commandKeys ++ (CAM_STATUS.STATE.key 0 :: holdKeys) := by decide

theorem camReinitTimeout_answers {s : State} {op due : Nat} {a : AsyncOp} (hboot : s.field.core.bootState ≠ 1)
    (hre : s.field.core.cam.reinit = [(op, due)]) (hst : s.field.core.camState = 6) (hlinked : s.field.core.cam.linked = false)
    (ha : s.field.core.cmdq.async.find? (fun x => x.opId == op) = some a) : Answers .camReinitTimeout s fun t =>
      t.field.core.camState = 0 ∧ t.field.core.etime = max s.field.core.etime due ∧ t.field.core.cam.reinit = [] ∧
      s.field.core.Raised t.field.core 0x0105
        ((op + at_ 4 a.opcode + at_ 6 0x40 + at_ 8 (detailResult 0 0xFFFF 0x0A02 % 2 ^ 64)) % 2 ^ 128) ∧
      SameRegs [CAM_STATUS.STATE.key 0, LOG_EVT_OVWR_CNT.COUNT.key 0] s.field.core t.field.core ∧ CoreOnly s t := by
  refine answers_of_onRunning (g := doCamReinitTimeout) rfl hboot ?_
  have hstate : (s.field.core.reach due).setCamState 0 = (s.field.core.reach due).wr CAM_STATUS.STATE 0 := by
    unfold Core.setCamState
    rw [show (s.field.core.reach due).camState = 6 from hst, if_neg (by decide), if_neg (by decide)]
  have hdo : doCamReinitTimeout s.field.core = (((s.field.core.reach due).wr CAM_STATUS.STATE 0).setCam
      { s.field.core.cam with reinit := [] }).asyncErr op 0x40 0 0x0A02 := by
    unfold doCamReinitTimeout Core.endReinit
    rw [hre]
    dsimp only
    rw [if_neg (by rw [hlinked]; decide), hstate, show ((s.field.core.reach due).wr CAM_STATUS.STATE 0).cam = s.field.core.cam from rfl, hre]
    rfl
  obtain ⟨hraised, -, hregs, hparts⟩ := Core.asyncErr_ended (s := ((s.field.core.reach due).wr CAM_STATUS.STATE 0).setCam
    { s.field.core.cam with reinit := [] }) ha 0x40 0 0x0A02
  have hzero : (((s.field.core.reach due).wr CAM_STATUS.STATE 0).setCam { s.field.core.cam with reinit := [] }).camState = 0 :=
    (Core.rd_congr rfl _ _).trans (Core.rd_wr (s.field.core.reach due) CAM_STATUS.STATE 0 0)
  have hto : SameRegs [CAM_STATUS.STATE.key 0, LOG_EVT_OVWR_CNT.COUNT.key 0] s.field.core
      (((s.field.core.reach due).wr CAM_STATUS.STATE 0).setCam { s.field.core.cam with reinit := [] }) :=
    ((SameRegs.of_regs rfl : SameRegs _ s.field.core (s.field.core.reach due)).wr (f := CAM_STATUS.STATE) (n := 0) 0).setCam _
  have hkept : (((s.field.core.reach due).wr CAM_STATUS.STATE 0).setCam { s.field.core.cam with reinit := [] }).cam.reinit = [] ∧
      (((s.field.core.reach due).wr CAM_STATUS.STATE 0).setCam { s.field.core.cam with reinit := [] }).etime = max s.field.core.etime due := ⟨rfl, rfl⟩
  have hfrom := hraised.congr (a' := s.field.core) rfl rfl rfl rfl rfl rfl rfl
  simp only [State.onCore, Field.onCore, hdo]
  generalize ((s.field.core.reach due).wr CAM_STATUS.STATE 0).setCam { s.field.core.cam with reinit := [] } = y at *
  generalize y.asyncErr op 0x40 0 0x0A02 = x at *
  exact ⟨(hregs _ _ (by decide)).trans hzero, (hparts .etime (by decide)).trans hkept.2, (congrArg CamSt.reinit (hparts .cam (by decide))).trans hkept.1,
    hfrom, hto.trans (hregs.mono (by decide)), rfl, rfl, rfl⟩

/-! ### Requests that get no answer (R458) -/

theorem doCamCtlTimeout_head {s : Core} {r : CamReq} {rs : List CamReq} (h : s.cam.reqs = r :: rs) :
    doCamCtlTimeout s = (s.reach (r.sentAt + 1000000)).reqFailed r 0xFF := by
  unfold doCamCtlTimeout
  rw [h]
theorem Core.reqFailed_retry {s : Core} {r : CamReq} (status : Nat) (h : r.fails < 2) : s.reqFailed r status =
    (s.ctlSend r.req).setCam { (s.ctlSend r.req).cam with reqs := { r with fails := r.fails + 1, sentAt := s.etime } :: s.cam.reqs.drop 1 } :=
  if_pos h
theorem camCtlTimeout_retries {s : State} {r : CamReq} {rs : List CamReq} (hboot : s.field.core.bootState ≠ 1)
    (hreqs : s.field.core.cam.reqs = r :: rs) (hfails : r.fails < 2) : Answers .camCtlTimeout s fun t =>
      t.field.core.etime = max s.field.core.etime (r.sentAt + 1000000) ∧
      t.field.core.cam.reqs = { r with fails := r.fails + 1, sentAt := t.field.core.etime } :: rs ∧
      t.field.core.regs = s.field.core.regs ∧ CoreOnly s t := by
  refine answers_of_onRunning (g := doCamCtlTimeout) rfl hboot ?_
  have hdo := (doCamCtlTimeout_head hreqs).trans (Core.reqFailed_retry (s := s.field.core.reach (r.sentAt + 1000000)) 0xFF hfails)
  have hdrop : (s.field.core.reach (r.sentAt + 1000000)).cam.reqs.drop 1 = rs := congrArg (List.drop 1) hreqs
  simp only [State.onCore, Field.onCore, hdo, hdrop]
  exact ⟨rfl, rfl, rfl, rfl, rfl, rfl⟩
theorem camCtlTimeout_fails {s : State} {r : CamReq} {rs : List CamReq} (hboot : s.field.core.bootState ≠ 1)
    (hreqs : s.field.core.cam.reqs = r :: rs) (hfails : r.fails = 2) (hkind : r.kind = .stop) (hrs : rs = []) : Answers .camCtlTimeout s fun t =>
      t.field.core.cam.reqs = [] ∧ t.field.core.rd CAM_CTL_CNT.FAIL = satU 16 (s.field.core.rd CAM_CTL_CNT.FAIL + 1) ∧
      s.field.core.Raised t.field.core 0x0A07 ((r.req.cmd + at_ 1 0xFF) % 2 ^ 128) ∧
      SameRegs [CAM_CTL_CNT.FAIL.key 0, LOG_EVT_OVWR_CNT.COUNT.key 0] s.field.core t.field.core ∧ CoreOnly s t := by
  refine answers_of_onRunning (g := doCamCtlTimeout) rfl hboot ?_
  have hdo : doCamCtlTimeout s.field.core = (((s.field.core.reach (r.sentAt + 1000000)).setCam { s.field.core.cam with reqs := [] }).inc
      CAM_CTL_CNT.FAIL).emit 0x0A07 (r.req.cmd + at_ 1 0xFF) := by
    rw [doCamCtlTimeout_head hreqs]
    unfold Core.reqFailed
    rw [if_neg (by omega)]
    unfold Core.popReq
    rw [show (s.field.core.reach (r.sentAt + 1000000)).cam.reqs = r :: rs from hreqs, hrs]
    dsimp -zeta only [List.drop]
    rw [hkind]
    rfl
  have hcount : (((s.field.core.reach (r.sentAt + 1000000)).setCam { s.field.core.cam with reqs := [] }).inc CAM_CTL_CNT.FAIL).rd CAM_CTL_CNT.FAIL =
      satU 16 (s.field.core.rd CAM_CTL_CNT.FAIL + 1) := Core.rd_inc_self _ _ _ _
  have hregs : SameRegs [CAM_CTL_CNT.FAIL.key 0, LOG_EVT_OVWR_CNT.COUNT.key 0] s.field.core
      (((s.field.core.reach (r.sentAt + 1000000)).setCam { s.field.core.cam with reqs := [] }).inc CAM_CTL_CNT.FAIL) := SameRegs.inc (.of_regs rfl) 1
  have hraised := Core.raised_emit_mod (a := s.field.core) (s := ((s.field.core.reach (r.sentAt + 1000000)).setCam
    { s.field.core.cam with reqs := [] }).inc CAM_CTL_CNT.FAIL) (code := 0x0A07) (r.req.cmd + at_ 1 0xFF) 0 rfl rfl
  have hcam := (Touches.emit (((s.field.core.reach (r.sentAt + 1000000)).setCam { s.field.core.cam with reqs := [] }).inc CAM_CTL_CNT.FAIL) 0x0A07
    (r.req.cmd + at_ 1 0xFF) 0) .cam (by decide)
  simp only [State.onCore, Field.onCore, hdo]
  exact ⟨congrArg CamSt.reqs hcam, ((SameRegs.refl [LOG_EVT_OVWR_CNT.COUNT.key 0] _).emit _ _ _ (by simp) _ _ (by decide)).trans hcount, hraised,
    hregs.emit _ _ _, rfl, rfl, rfl⟩

/-! ### CONFIG is answered (R483) -/

/-- A trigger of a camera that does not run. -/
theorem Core.camTrig_still {s : Core} (h : s.rd CAM_STATUS.STATE ≠ 5) (ns tag : Nat) :
    ∃ frames, s.camTrig ns tag = s.setCam { s.cam with trigEnd := max s.cam.trigEnd (s.etime + ns), frames := frames } := by
  unfold Core.camTrig
  extract_lets rising src x srcx y z
  have hy : y.rd CAM_STATUS.STATE ≠ 5 := fun h' => h ((Core.rd_congr rfl _ _).trans h')
  rw [if_neg hy]
  split
  · exact ⟨_, rfl⟩
  · exact ⟨s.cam.frames, rfl⟩
theorem Core.endReinit_none {s : Core} (h : s.cam.reinit = []) (g : Nat → Core → Core) : s.endReinit g = s.setCam { s.cam with reinit := [] } := by
  unfold Core.endReinit
  rw [h]
  rfl
/-- A start that waited for the answer to CONFIG. -/
structure CamStarted (ref : CmdRef) (a b : Core) : Prop where
  state : b.camState = 4
  started : b.rd CAM_STATUS.STARTED = 1
  start : b.cam.start = []
  reqs : b.cam.reqs = a.cam.reqs
  fifo : b.cam.fifo = []
  trigNext : b.cam.trigNext = 0
  trigEnd : b.cam.trigEnd = max a.cam.trigEnd (a.etime + 1000)
  done : b.cmdq.done = a.cmdq.done ++ [⟨1, 0, ref.tag, ref.q, ref.opcode, ref.index, a.etime, 0⟩]
  regs : SameOutside [0x01, 0x12, 0x13, 0x1B] a b
theorem Core.camStarted_starts {s : Core} {ref : CmdRef} (hst : s.camState = 3) (hstart : s.cam.start = [ref]) (hopen : ref ∈ s.cmdq.open_)
    (hsrc : ref.src = .host) (hre : s.cam.reinit = []) : CamStarted ref s s.camStarted := by
  unfold Core.camStarted
  extract_lets none kept src x y
  have hx : x.setCamState 4 = x.wr CAM_STATUS.STATE 4 := by
    unfold Core.setCamState
    rw [show x.camState = 3 from (Core.rd_congr rfl _ _).trans hst, if_neg (by decide), if_neg (by decide)]
  have hfour : ((x.wr CAM_STATUS.STATE 4).wr CAM_STATUS.STARTED 1).rd CAM_STATUS.STATE = 4 :=
    (Core.rd_wr_ne _ CAM_STATUS.STARTED CAM_STATUS.STATE _ _ _ (by decide)).trans (Core.rd_wr _ _ _ _)
  have hwithin : Within [0x01, 0x12, 0x13, 0x1B] [.cam, .cmdq, .open_, .answers, .free] s ((x.wr CAM_STATUS.STATE 4).wr CAM_STATUS.STARTED 1) :=
    (((Within.refl _ _ s).cam _).wr 4).wr 1
  obtain ⟨frames, htrig⟩ := Core.camTrig_still (by rw [hfour]; decide) 1000 0
  have hy : y = _ := (congrArg (fun z : Core => (z.wr CAM_STATUS.STARTED 1).camTrig 1000 0) hx).trans htrig
  have hone : ((x.wr CAM_STATUS.STATE 4).wr CAM_STATUS.STARTED 1).rd CAM_STATUS.STARTED = 1 := Core.rd_wr _ _ _ _
  have hkept : ((x.wr CAM_STATUS.STATE 4).wr CAM_STATUS.STARTED 1).cam = { s.cam with fifo := [], trigNext := 0, frames := kept, ring := [], ringNext := [] } ∧ ((x.wr CAM_STATUS.STATE 4).wr CAM_STATUS.STARTED 1).etime = s.etime ∧
      ((x.wr CAM_STATUS.STATE 4).wr CAM_STATUS.STARTED 1).cmdq = s.cmdq := ⟨rfl, rfl, rfl⟩
  clear_value y
  subst hy
  generalize (x.wr CAM_STATUS.STATE 4).wr CAM_STATUS.STARTED 1 = w at *
  obtain ⟨hwcam, hwtime, hwcmdq⟩ := hkept
  have hends : ∀ q : Core, q.cam.start = [ref] → q.endStarts (.ok 0) = (q.setCam { q.cam with start := [], auto := false }).closeCmd ref (.ok 0) :=
    fun q hq => by
      unfold Core.endStarts
      rw [hq]
      rfl
  have hqcam : (w.setCam { w.cam with trigEnd := max w.cam.trigEnd (w.etime + 1000), frames := frames }).cam =
      { w.cam with trigEnd := max w.cam.trigEnd (w.etime + 1000), frames := frames } := rfl
  have hq : Within [] [.cam] w (w.setCam { w.cam with trigEnd := max w.cam.trigEnd (w.etime + 1000), frames := frames }) := (Within.refl _ _ w).cam _
  generalize w.setCam { w.cam with trigEnd := max w.cam.trigEnd (w.etime + 1000), frames := frames } = q at *
  rw [hends q (by rw [hqcam, hwcam, ← hstart])]
  have hqcmdq : q.cmdq = s.cmdq := (hq.parts .cmdq (by decide)).trans hwcmdq
  have hqtime : q.etime = s.etime := (hq.parts .etime (by decide)).trans hwtime
  obtain ⟨hdone, hkeys, -⟩ := Core.closeCmd_closes (q.setCam { q.cam with start := [], auto := false }) (r := ref) (.ok 0)
    (show ref ∈ q.cmdq.open_ by rw [hqcmdq]; exact hopen) hsrc
  have hclose := Core.closeCmd_within (q.setCam { q.cam with start := [], auto := false }) ref (.ok 0)
  have hzcam : ((q.setCam { q.cam with start := [], auto := false }).closeCmd ref (.ok 0)).cam = { q.cam with start := [], auto := false } :=
    hclose.parts .cam (by decide)
  generalize (q.setCam { q.cam with start := [], auto := false }).closeCmd ref (.ok 0) = z at *
  rw [hqcam, hwcam] at hzcam
  rw [Core.endReinit_none (show z.cam.reinit = [] by rw [hzcam, hre])]
  have hregs : SameOutside [0x01, 0x12, 0x13, 0x1B] w z := (hq.regs.mono (by simp)).trans ((SameOutside.of_regs rfl).trans (hclose.regs.mono (by decide)))
  have hst : ∀ f, f.key 0 ∉ commandKeys → z.rd f 0 = w.rd f 0 := fun f hf => (hkeys f 0 hf).trans (hq.rd f 0 (by simp))
  refine ⟨(hst _ (by decide)).trans hfour, (hst _ (by decide)).trans hone, (congrArg CamSt.start hzcam :), (congrArg CamSt.reqs hzcam :),
    (congrArg CamSt.fifo hzcam :), (congrArg CamSt.trigNext hzcam :), (congrArg CamSt.trigEnd hzcam).trans ?_, hdone.trans ?_,
    hwithin.regs.trans (hregs.trans (.of_regs rfl))⟩
  · rw [hwtime]
  · rw [show (q.setCam { q.cam with start := [], auto := false }).cmdq = s.cmdq from hqcmdq,
      show (q.setCam { q.cam with start := [], auto := false }).etime = s.etime from hqtime]
    rfl
theorem camCtlResponse_answers {s : State} {r : CamReq} {rs : List CamReq} (hboot : s.field.core.bootState ≠ 1)
    (hreqs : s.field.core.cam.reqs = r :: rs) (frame : Bytes) (ref : CmdRef) (hstatus : ctlStatus frame = some 0)
    (hlen : byteAt frame 1 = r.req.answer + 1) (hkind : r.kind = .config) (hrs : rs = []) (hst : s.field.core.camState = 3)
    (hstart : s.field.core.cam.start = [ref]) (hopen : ref ∈ s.field.core.cmdq.open_) (hsrc : ref.src = .host)
    (hre : s.field.core.cam.reinit = []) : Answers (.camCtlResponse frame) s fun t =>
      t.field.core.camState = 4 ∧ t.field.core.rd CAM_STATUS.STARTED = 1 ∧ t.field.core.cam.start = [] ∧
      t.field.core.cam.reqs = [] ∧ t.field.core.cam.fifo = [] ∧ t.field.core.cam.trigNext = 0 ∧
      t.field.core.cam.trigEnd = max s.field.core.cam.trigEnd (s.field.core.etime + 1000) ∧
      t.field.core.cmdq.done =
        s.field.core.cmdq.done ++ [⟨1, 0, ref.tag, ref.q, ref.opcode, ref.index, s.field.core.etime, 0⟩] ∧
      SameOutside [0x01, 0x12, 0x13, 0x1B] s.field.core t.field.core ∧ CoreOnly s t := by
  refine answers_of_onRunning (g := doCamCtlResponse frame) rfl hboot ?_
  have hdone : Within [0x12] [.cam] s.field.core ((s.field.core.setCam { s.field.core.cam with reqs := [] }).inc CAM_CTL_CNT.DONE) :=
    ((Within.refl _ _ s.field.core).cam _).inc 1
  have hidle : ((s.field.core.setCam { s.field.core.cam with reqs := [] }).inc CAM_CTL_CNT.DONE).camState = 3 :=
    (Core.rd_inc_ne _ _ _ _ _ _ (by decide)).trans ((Core.rd_congr rfl _ _).trans hst)
  have hdo : doCamCtlResponse frame s.field.core = ((s.field.core.setCam { s.field.core.cam with reqs := [] }).inc CAM_CTL_CNT.DONE).camStarted := by
    unfold doCamCtlResponse
    rw [hreqs]
    dsimp only
    rw [if_pos ⟨hstatus, hlen⟩, hkind]
    unfold Core.popReq
    rw [hreqs, hrs]
    exact if_pos hidle
  have hcam : ((s.field.core.setCam { s.field.core.cam with reqs := [] }).inc CAM_CTL_CNT.DONE).cam = { s.field.core.cam with reqs := [] } := rfl
  have hcmdq := hdone.parts .cmdq (by decide)
  have htime := hdone.parts .etime (by decide)
  simp only [State.onCore, Field.onCore, hdo]
  generalize (s.field.core.setCam { s.field.core.cam with reqs := [] }).inc CAM_CTL_CNT.DONE = y at *
  change y.cmdq = s.field.core.cmdq at hcmdq
  change y.etime = s.field.core.etime at htime
  obtain ⟨hstate, hshown, hnone, hreq, hfifo, hnext, hend, hentry, hregs⟩ := Core.camStarted_starts (s := y) hidle (by rw [hcam, ← hstart])
    (by rw [hcmdq]; exact hopen) hsrc (by rw [hcam, ← hre])
  rw [hcmdq, htime] at hentry
  rw [hcam, htime] at hend
  rw [hcam] at hreq
  exact ⟨hstate, hshown, hnone, hreq, hfifo, hnext, hend, hentry, (hdone.regs.mono (by decide)).trans hregs, rfl, rfl, rfl⟩

/-! ### The servo's commits and modes (R475, R482, R486) -/

/-- A staged update of a head that stands at its bar's commit boundary. -/
def Core.dueStage (s : Core) (b : Nat) (g : ServoStage) : Bool := g.bar == b && s.atCommit b (g.head / 8)
/-- The updates that a boundary hands over. -/
def Core.dueStages (s : Core) (b : Nat) : List ServoStage :=
  (s.headsOfBar b).filterMap fun h => s.csv.stages.find? fun g => s.dueStage b g && g.head == h
theorem doServoCommit_hands {s : Core} {b : Nat} (hmode : 2 ≤ s.rd CSVB_MODE.MODE b) (hhold : s.rd CSVB_MODE.HOLD b = 0) :
    doServoCommit b s = (s.setCsv { s.csv with stages := s.csv.stages.filter (!s.dueStage b ·) }).setStages
      (s.press.stages ++ (s.dueStages b).map fun g => (⟨g.head / 8, g.head, true, g.entries, none, g.curve, g.dead⟩ : NozStage)) := by
  unfold doServoCommit
  rw [if_neg fun h => h.elim (fun hlt => absurd hmode (Nat.not_le.2 hlt)) fun h => by rw [Core.rdb_eq_false hhold] at h; cases h]
  rfl
theorem Core.dueStage_of_head {s : Core} {b h : Nat} (hat : s.atCommit b (h / 8) = true) :
    s.csv.stages.find? (fun g => s.dueStage b g && g.head == h) = s.csv.stages.find? (fun g => g.bar == b && g.head == h) := by
  refine List.find?_congr fun g _ => ?_
  by_cases hg : g.head = h
  · rw [Core.dueStage, hg, hat, Bool.and_true]
  · rw [beq_false_of_ne hg, Bool.and_false, Bool.and_false]
theorem servoCommit_answers {s : State} (hboot : s.field.core.bootState ≠ 1) (b : Fin 8) (hmode : 2 ≤ s.field.core.rd CSVB_MODE.MODE b.val)
    (hhold : s.field.core.rd CSVB_MODE.HOLD b.val = 0) : Answers (.servoCommit b) s fun t =>
      (∀ g ∈ t.field.core.csv.stages, g ∈ s.field.core.csv.stages ∧
        ¬ (g.bar = b.val ∧ s.field.core.atCommit b.val (g.head / 8) = true)) ∧
      (∀ h ∈ s.field.core.headsOfBar b.val, s.field.core.atCommit b.val (h / 8) = true → ∀ g,
        s.field.core.csv.stages.find? (fun g => g.bar == b.val && g.head == h) = some g →
        ⟨h / 8, h, true, g.entries, none, g.curve, g.dead⟩ ∈ t.field.core.press.stages) ∧
      (∀ g ∈ s.field.core.press.stages, g ∈ t.field.core.press.stages) ∧
      t.field.core.regs = s.field.core.regs ∧ CoreOnly s t := by
  refine answers_of_onRunning (g := doServoCommit b.val) rfl hboot ?_
  simp only [State.onCore, Field.onCore, doServoCommit_hands hmode hhold]
  refine ⟨fun g hg => ?_, fun h hh hat g hg => ?_, fun g hg => List.mem_append_left _ hg, rfl, rfl, rfl, rfl⟩
  · obtain ⟨hmem, hnot⟩ := List.mem_filter.1 hg
    refine ⟨hmem, fun hdue => ?_⟩
    rw [Core.dueStage, hdue.1, hdue.2] at hnot
    simp at hnot
  · have hhead : g.head = h := by
      have := List.find?_some hg
      simp only [Bool.and_eq_true, beq_iff_eq] at this
      exact this.2
    refine List.mem_append_right _ (List.mem_map.2 ⟨g, List.mem_filterMap.2 ⟨h, hh, (Core.dueStage_of_head hat).trans hg⟩, ?_⟩)
    rw [hhead]

/-- The registers that SERVO_SET may change. -/
def servoKeys : List Nat := LOG_EVT_OVWR_CNT.COUNT.key 0 :: ((List.range 8).map (CSVB_MODE.MODE.key ·) ++ holdKeys)
theorem servoKeys_free : ∀ b : Fin 8, ∀ n : Fin 8,
    (CSVB_MODE.MODE.key n.val ∉ [LOG_EVT_OVWR_CNT.COUNT.key 0, CSVB_MODE.HOLD.key b.val]) ∧
    (n ≠ b → CSVB_MODE.HOLD.key n.val ∉ [LOG_EVT_OVWR_CNT.COUNT.key 0, CSVB_MODE.HOLD.key b.val, CSVB_MODE.MODE.key b.val] ∧
      CSVB_MODE.MODE.key n.val ∉ [CSVB_MODE.MODE.key b.val]) ∧
    CSVB_MODE.HOLD.key n.val ∉ [CSVB_MODE.MODE.key b.val] := by decide
theorem Core.enterHold_regs (s : Core) (b : Nat) : SameRegs [LOG_EVT_OVWR_CNT.COUNT.key 0, CSVB_MODE.HOLD.key b] s (s.enterHold b) := by
  unfold Core.enterHold
  split
  · exact .refl _ s
  · have h : SameRegs [LOG_EVT_OVWR_CNT.COUNT.key 0, CSVB_MODE.HOLD.key b] s ((s.wr CSVB_MODE.HOLD 1 b).dropServo b) :=
      ((SameRegs.refl _ s).wr (f := CSVB_MODE.HOLD) (n := b) 1 (by simp)).trans (.of_regs rfl)
    exact h.emit _ _ _ (by simp)
theorem Core.enterHold_holds (s : Core) {b : Nat} (hb : b < 8) : (s.enterHold b).rd CSVB_MODE.HOLD b = 1 := by
  have hlt : (s.enterHold b).rd CSVB_MODE.HOLD b < 2 ^ 1 := Core.rd_lt _ CSVB_MODE.HOLD b
  have hne := (s.enterHold_held hb).2
  omega
theorem Core.toneCopy_keeps (s : Core) (h : Nat) : Within [] [.press] s (s.toneCopy h) := by
  unfold Core.toneCopy
  split
  · refine .ite (fun _ => .refl _ _ s) fun _ => (Within.refl _ _ s).press _
  · exact s.setCurve_within _ _ _

/-- A bar's servo takes a mode. -/
structure ServoStep (b mode : Nat) (a x : Core) : Prop where
  shown : ∀ n : Fin 8, x.rd CSVB_MODE.MODE n.val = if n.val = b then mode else a.rd CSVB_MODE.MODE n.val
  off : mode = 0 → x.rd CSVB_MODE.HOLD b = 0
  kept : mode ≠ 0 → a.rd CSVB_MODE.HOLD b = 1 → x.rd CSVB_MODE.HOLD b = 1
  others : ∀ n : Fin 8, n.val ≠ b → x.rd CSVB_MODE.HOLD n.val = a.rd CSVB_MODE.HOLD n.val
  regs : SameRegs servoKeys a x
  parts : Touches [.csv, .press, .cmdq] a x
theorem ServoStep.of_mode {s x y w : Core} {b : Fin 8} {mode : Nat} (hm : mode ≤ 3) (hx : x = s.wr CSVB_MODE.MODE mode b.val)
    (hy : y = if mode = 0 then x.wr CSVB_MODE.HOLD 0 b.val else x) (hr : ∀ f n, w.rd f n = y.rd f n) (hparts : Touches [.csv, .press] y w) : ServoStep b.val mode s w := by
  have hset : x.rd CSVB_MODE.MODE b.val = mode := by
    rw [hx]
    exact (Core.rd_wr _ _ _ _).trans (Nat.mod_eq_of_lt (show mode < 2 ^ 2 by omega))
  have hsx : SameRegs [CSVB_MODE.MODE.key b.val] s x := hx ▸ (SameRegs.refl _ s).wr mode (by simp)
  have hxy : SameRegs [CSVB_MODE.HOLD.key b.val] x y := by
    rw [hy]
    split
    · exact (SameRegs.refl _ x).wr 0 (by simp)
    · exact .refl _ x
  have hxyp : Touches [] x y := by
    rw [hy]
    split
    · exact Touches.wr _ _ _ _
    · exact .refl _ x
  have hsxp : Touches [] s x := hx ▸ Touches.wr _ _ _ _
  refine ⟨fun n => ?_, fun h0 => ?_, fun h0 h1 => ?_, fun n hn => ?_, ?_, ?_⟩
  · obtain ⟨hfree, hoff, -⟩ := servoKeys_free b n
    rw [hr, hxy _ _ fun h => hfree (List.mem_cons_of_mem _ h)]
    split
    · next h => rw [h, hset]
    · next h => exact hsx _ _ (hoff fun e => h (congrArg Fin.val e)).2
  · rw [hr, hy, if_pos h0]
    exact Core.rd_wr _ _ _ _
  · rw [hr, hy, if_neg h0]
    exact (hsx _ _ (servoKeys_free b b).2.2).trans h1
  · obtain ⟨-, hoff, hfree⟩ := servoKeys_free b n
    have hne := (hoff fun e => hn (congrArg Fin.val e)).1
    exact (hr _ _).trans ((hxy _ _ fun h => hne (by simp at h; simp [h])).trans (hsx _ _ hfree))
  · exact ((hsx.mono (servoKeys_mem b).1).trans (hxy.mono (servoKeys_mem b).2)).trans fun f n _ => hr f n
  · exact ((hsxp.mono (by simp)).trans (hxyp.mono (by simp))).trans (hparts.mono (by decide))
where
  servoKeys_mem : ∀ b : Fin 8, [CSVB_MODE.MODE.key b.val] ⊆ servoKeys ∧ [CSVB_MODE.HOLD.key b.val] ⊆ servoKeys := by decide
theorem ServoStep.held {s w : Core} {b : Fin 8} {mode : Nat} (h : ServoStep b.val mode s w) (h0 : mode ≠ 0) :
    ServoStep b.val mode s (w.enterHold b.val) := by
  have hregs := w.enterHold_regs b.val
  have hheld := (w.enterHold_held b.isLt).1
  refine ⟨fun n => ?_, fun e => absurd e h0, fun _ _ => w.enterHold_holds b.isLt, fun n hn => ?_, ?_, h.parts.trans (hheld.parts)⟩
  · rw [hregs _ _ (servoKeys_free b n).1]
    exact h.shown n
  · refine (hregs _ _ fun hin => ?_).trans (h.others n hn)
    exact ((servoKeys_free b n).2.1 fun e => hn (congrArg Fin.val e)).1 (by simp at hin ⊢; tauto)
  · exact h.regs.trans (hheld.regs.mono (by decide))
theorem Core.setServo_step (s : Core) (b : Fin 8) {mode : Nat} (hm : mode ≤ 3) : ServoStep b.val mode s (s.setServo b.val mode) ∧
    (mode ≠ 0 → s.camState ≠ 5 → mode ≠ s.rd CSVB_MODE.MODE b.val → (s.setServo b.val mode).rd CSVB_MODE.HOLD b.val = 1) := by
  unfold Core.setServo
  extract_lets old x y z w
  split
  · next hsame => exact ⟨.of_mode hm rfl rfl (fun _ _ => rfl) (.refl _ y), fun _ _ hne => absurd hsame hne⟩
  have hyz : Within [] [.csv, .press] y z := by
    unfold z
    split
    · exact ⟨.of_regs (y.dropServo_keeps b.val).1, (y.dropServo_keeps b.val).2⟩
    · exact .refl _ _ y
  have hzw : Within [] [.csv, .press] z w := by
    unfold w
    split
    · exact (Within.refl _ _ z).foldl _ fun h _ s => (s.toneCopy_keeps h).mono (by simp) (by decide)
    · exact .refl _ _ z
  have hyw := hyz.trans hzw
  have hstep : ServoStep b.val mode s w := .of_mode hm rfl rfl (fun f n => hyw.rd f n (by simp)) hyw.parts
  have hcam : w.camState = s.camState := (hstep.regs CAM_STATUS.STATE 0 (by decide))
  split
  · next h => exact ⟨hstep.held h.1, fun _ _ _ => w.enterHold_holds b.isLt⟩
  · next h => exact ⟨hstep, fun h0 h5 _ => absurd ⟨h0, hcam ▸ h5⟩ h⟩
/-- The bars that SERVO_SET names take the mode. -/
structure ServoSet (bs : List Nat) (mode : Nat) (a x : Core) : Prop where
  shown : ∀ b : Fin 8, x.rd CSVB_MODE.MODE b.val = if b.val ∈ bs then mode else a.rd CSVB_MODE.MODE b.val
  off : ∀ b : Fin 8, b.val ∈ bs → mode = 0 → x.rd CSVB_MODE.HOLD b.val = 0
  on : ∀ b : Fin 8, b.val ∈ bs → mode ≠ 0 → a.camState ≠ 5 → mode ≠ a.rd CSVB_MODE.MODE b.val → x.rd CSVB_MODE.HOLD b.val = 1
  kept : ∀ b : Fin 8, mode ≠ 0 → a.rd CSVB_MODE.HOLD b.val = 1 → x.rd CSVB_MODE.HOLD b.val = 1
  others : ∀ b : Fin 8, b.val ∉ bs → x.rd CSVB_MODE.HOLD b.val = a.rd CSVB_MODE.HOLD b.val
  regs : SameRegs servoKeys a x
  parts : Touches [.csv, .press, .cmdq] a x
theorem Core.setServos_set {mode : Nat} (hm : mode ≤ 3) : ∀ (bs : List Nat) (s : Core), (∀ b ∈ bs, b < 8) →
    ServoSet bs mode s (bs.foldl (fun s b => s.setServo b mode) s)
  | [], s, _ => ⟨fun _ => (if_neg List.not_mem_nil).symm, fun _ h => absurd h List.not_mem_nil, fun _ h => absurd h List.not_mem_nil, fun _ _ h => h,
    fun _ _ => rfl, .refl _ s, .refl _ s⟩
  | b :: bs, s, hlt => by
    have hb := hlt b List.mem_cons_self
    obtain ⟨hstep, hon⟩ := s.setServo_step ⟨b, hb⟩ hm
    have ih := Core.setServos_set hm bs (s.setServo b mode) fun c hc => hlt c (List.mem_cons_of_mem _ hc)
    have hcam : (s.setServo b mode).camState = s.camState := hstep.regs CAM_STATUS.STATE 0 (by decide)
    rw [List.foldl_cons]
    generalize s.setServo b mode = y at *
    generalize bs.foldl (fun s b => s.setServo b mode) y = z at *
    refine ⟨fun c => ?_, fun c hc h0 => ?_, fun c hc h0 h5 hne => ?_, fun c h0 h1 => ?_, fun c hc => ?_, hstep.regs.trans ih.regs, hstep.parts.trans ih.parts⟩
    · rw [ih.shown, hstep.shown]
      by_cases hcb : c.val = b <;> simp [hcb]
    · by_cases hin : c.val ∈ bs
      · exact ih.off c hin h0
      · have hcb : c.val = b := (List.mem_cons.1 hc).resolve_right hin
        rw [ih.others c hin, hcb]
        exact hstep.off h0
    · by_cases hcb : c.val = b
      · exact ih.kept c h0 (hcb ▸ hon h0 h5 (hcb ▸ hne))
      · refine ih.on c ((List.mem_cons.1 hc).resolve_left hcb) h0 (hcam ▸ h5) ?_
        rw [hstep.shown, if_neg hcb]
        exact hne
    · refine ih.kept c h0 ?_
      by_cases hcb : c.val = b
      · rw [hcb]
        exact hstep.kept h0 (hcb ▸ h1)
      · exact (hstep.others c hcb).trans h1
    · rw [List.mem_cons, not_or] at hc
      exact (ih.others c hc.2).trans (hstep.others c hc.1)
theorem servoSet_answers {c : Call} {s : State} (mask mode : Byte) (hc : CleanHeader c 4) (hr : Runs c 0x0602 1 s)
    (hbars : ∀ b : Fin 8, mask.toNat.testBit b.val = true → s.field.core.barPresent b.val = true) (hm : mode.toNat ≤ 3) :
    Answers (.servoSet c mask mode) s fun t =>
      Completed c 0x0602 0 0 s t ∧
      (∀ b : Fin 8, t.field.core.rd CSVB_MODE.MODE b.val =
        if named mask b.val s.field.core then mode.toNat else s.field.core.rd CSVB_MODE.MODE b.val) ∧
      (∀ b : Fin 8, named mask b.val s.field.core = true → mode = 0 → t.field.core.rd CSVB_MODE.HOLD b.val = 0) ∧
      (∀ b : Fin 8, named mask b.val s.field.core = true → mode ≠ 0 → s.field.core.camState ≠ 5 →
        mode.toNat ≠ s.field.core.rd CSVB_MODE.MODE b.val → t.field.core.rd CSVB_MODE.HOLD b.val = 1) ∧
      (mode.toNat < 2 → CommandFrame c 0x0602 ((List.range 8).map (CSVB_MODE.MODE.key ·) ++ holdKeys) s t) := by
  obtain ⟨⟨bs, hbs, hlt, hmem⟩, -⟩ := taken_bars c 0x0602 mask s hbars
  have htaken := SameRegs.taken c 0x0602 ((List.range 8).map (CSVB_MODE.MODE.key ·) ++ holdKeys) s
  have htime := taken_etime c 0x0602 s
  have hset := Core.setServos_set hm bs (s.taken c 0x0602).field.core hlt
  have hrd : ∀ b : Fin 8, (s.taken c 0x0602).field.core.rd CSVB_MODE.MODE b.val = s.field.core.rd CSVB_MODE.MODE b.val := fun b =>
    rd_taken c 0x0602 s _ _ (servoCommandKeys b).1
  have hcam : (s.taken c 0x0602).field.core.camState = s.field.core.camState := rd_taken c 0x0602 s _ _ (by decide)
  have hbody : servoSet mask.toNat mode.toNat (s.taken c 0x0602).field.core =
      (.ok 0, bs.foldl (fun s b => s.setServo b mode.toNat) (s.taken c 0x0602).field.core) := by
    unfold servoSet
    rw [hbs]
    exact if_neg (by omega)
  have hk : (cmdServoSet c mask.toNat mode.toNat).Plain 4 (servoSet mask.toNat mode.toNat) := ⟨rfl, rfl, by decide, rfl, rfl, rfl⟩
  have hdone := hk.done (i := .servoSet c mask mode) (r := .ok 0) rfl hc hr hbody (.inl ⟨0, rfl⟩) ((hset.parts .etime (by decide)).trans htime)
    (hset.parts .answers (by decide))
  generalize bs.foldl _ (s.taken c 0x0602).field.core = x at *
  obtain ⟨t, hexec, ht⟩ := hdone
  refine ⟨t, hexec, ht.completed, fun b => ?_, fun b hb h0 => ?_, fun b hb h0 h5 hne => ?_, fun _ => ht.frame (htaken.trans (hset.regs.mono servoKeys_frame))⟩
  · rw [ht.rd _ _ (servoCommandKeys b).2.1, hset.shown, hrd]
    exact if_congr (hmem _ b.isLt) rfl rfl
  · exact (ht.rd _ _ (servoCommandKeys b).2.2).trans (hset.off b ((hmem _ b.isLt).2 hb) (congrArg BitVec.toNat h0))
  · exact (ht.rd _ _ (servoCommandKeys b).2.2).trans (hset.on b ((hmem _ b.isLt).2 hb) (fun h => h0 (BitVec.eq_of_toNat_eq h)) (hcam ▸ h5) (hrd b ▸ hne))
where
  servoCommandKeys : ∀ b : Fin 8, CSVB_MODE.MODE.key b.val ∉ inFlightKeys ∧ CSVB_MODE.MODE.key b.val ∉ commandKeys ∧
    CSVB_MODE.HOLD.key b.val ∉ commandKeys := by decide
  servoKeys_frame : servoKeys ⊆ commandKeys ++ ((List.range 8).map (CSVB_MODE.MODE.key ·) ++ holdKeys) := by decide

/-! ### Exposures and pipeline tables (R459, R465) -/

theorem camAddr_facts : ∀ v : Fin 4, ∀ a ∈ [CAM_EXP.EXP.addr v.val, ISP_TBL_DATA.DATA.addr v.val], atRegister a = true ∧ writePriv a ≤ 2 ∧ readPriv a ≤ 2 ∧
    ((fieldsAt a).all fun p => !(p.1.acc == .rwl)) = true ∧ sharedAddr a = true ∧ isLatched a = false := by decide +kernel
theorem camAddr_at : ∀ v : Fin 4, fieldsAt (CAM_EXP.EXP.addr v.val) = [(CAM_EXP.EXP, v.val)] ∧
    HDC_TONE_DATA.VALUE.at? (ISP_TBL_DATA.DATA.addr v.val) = none ∧ ISP_TBL_DATA.DATA.at? (ISP_TBL_DATA.DATA.addr v.val) = some v.val := by
  decide +kernel
theorem regWriteSpecial_camExp (v : Fin 4) (x : Nat) (s : Core) : regWriteSpecial (CAM_EXP.EXP.addr v.val) x s =
    some (.ok 0, (s.plainWrite (CAM_EXP.EXP.addr v.val) x).wr CAM_EXP_GEN.PENDING 1 v.val) := by
  fin_cases v <;> rfl
theorem regWriteSpecial_tblData (v : Fin 4) (x : Nat) (s : Core) :
    regWriteSpecial (ISP_TBL_DATA.DATA.addr v.val) x s = some (.ok 0, tblWrite v.val (x % 65536) s) := by
  fin_cases v <;> rfl
/-- A write to a register of the camera's blocks. -/
theorem camWrite_done {c : Call} {i : Instr} {v : Fin 4} {a w : Nat} {s : State} {x : Core}
    (ha : a ∈ [CAM_EXP.EXP.addr v.val, ISP_TBL_DATA.DATA.addr v.val]) (hexec : exec i s = .next ((cmdRegWrite c a w).submit i s))
    (hc : CleanHeader c 8) (hr : Runs c 0x0101 2 s) (hcdc : s.field.core.cdc.out = [])
    (hact : regWriteSpecial a w (s.taken c 0x0101).field.core = some (.ok 0, x))
    (hx : Touches [.cam] (s.taken c 0x0101).field.core x) : Answers i s ((cmdRegWrite c a w).Done (.ok 0) s x) := by
  obtain ⟨hat, hpriv, -, hlock, hshared, -⟩ := camAddr_facts v a ha
  refine regWrite_done hexec hc hr hat (Nat.le_trans hpriv (hr.priv_ge (by decide)))
    ⟨Core.crosses_of_none (by rw [taken_cdc]; exact hcdc) _, Core.present_shared _ hshared, Core.locked_of_none _ hlock⟩ ?_ (.inl ⟨0, rfl⟩)
    ((hx .etime (by decide)).trans (taken_etime c 0x0101 s)) (hx .answers (by decide))
  unfold regAct
  rw [hact, Option.getD_some]
theorem camExpWrite_answers {c : Call} {v : Fin 4} {x : Word} {s : State} (hc : CleanHeader c 8) (hr : Runs c 0x0101 2 s)
    (hcdc : s.field.core.cdc.out = []) : Answers (.camExpWrite c v x) s fun t =>
      Completed c 0x0101 0 0 s t ∧ t.field.core.rd CAM_EXP.EXP v.val = x.toNat % 2 ^ 24 ∧
      t.field.core.rd CAM_EXP_GEN.PENDING v.val = 1 ∧
      CommandFrame c 0x0101 [CAM_EXP.EXP.key v.val, CAM_EXP_GEN.PENDING.key v.val] s t := by
  obtain ⟨hne, hexp, hgen⟩ := expKeys v
  have hpart : fieldPart CAM_EXP.EXP x.toNat = x.toNat % 2 ^ 24 := by
    rw [fieldPart, storedAs_plain (by decide) (by decide)]
    rfl
  have hplain : (s.taken c 0x0101).field.core.plainWrite (CAM_EXP.EXP.addr v.val) x.toNat =
      (s.taken c 0x0101).field.core.wr CAM_EXP.EXP (x.toNat % 2 ^ 24) v.val := by
    unfold Core.plainWrite
    rw [(camAddr_at v).1, ← hpart]
    rfl
  have hact := regWriteSpecial_camExp v x.toNat (s.taken c 0x0101).field.core
  rw [hplain] at hact
  obtain ⟨t, ht, hdone⟩ := camWrite_done (i := .camExpWrite c v x) List.mem_cons_self rfl hc hr hcdc hact
    (((Touches.wr _ _ _ _).trans (Touches.wr _ _ _ _)).mono (by simp))
  refine ⟨t, ht, hdone.completed, ?_, (hdone.rd _ _ hgen).trans (Core.rd_wr _ _ _ _), hdone.frame ?_⟩
  · refine (hdone.rd _ _ hexp).trans ((Core.rd_wr_ne _ _ _ _ _ _ hne).trans ((Core.rd_wr _ _ _ _).trans ?_))
    exact Nat.mod_mod _ _
  · exact ((SameRegs.taken c 0x0101 _ s).wr _ (by simp)).wr _ (by simp)
where
  expKeys : ∀ v : Fin 4, CAM_EXP.EXP.key v.val ≠ CAM_EXP_GEN.PENDING.key v.val ∧ CAM_EXP.EXP.key v.val ∉ commandKeys ∧
    CAM_EXP_GEN.PENDING.key v.val ∉ commandKeys := by decide

theorem tblSize_pos (table : Nat) : 0 < tblSize table ∧ tblSize table ≤ 256 := by
  unfold tblSize
  split
  · decide
  · split <;> decide
theorem taken_tblAt (c : Call) (op : Nat) (s : State) (v : Fin 4) :
    (s.taken c op).field.core.rd ISP_TBL_IDX.TABLE v.val = s.field.core.rd ISP_TBL_IDX.TABLE v.val ∧
    (s.taken c op).field.core.rd ISP_TBL_IDX.IDX v.val = s.field.core.rd ISP_TBL_IDX.IDX v.val :=
  ⟨rd_taken _ _ _ _ _ (tblKeys v).1, rd_taken _ _ _ _ _ (tblKeys v).2.1⟩
where
  tblKeys : ∀ v : Fin 4, ISP_TBL_IDX.TABLE.key v.val ∉ inFlightKeys ∧ ISP_TBL_IDX.IDX.key v.val ∉ inFlightKeys ∧
    ISP_TBL_IDX.IDX.key v.val ∉ commandKeys := by decide
theorem Core.rd_nextTbl (s : Core) (v : Nat) : (s.nextTbl v).rd ISP_TBL_IDX.IDX v = ((s.tblAt v).2 + 1) % tblSize (s.tblAt v).1 := by
  refine (Core.rd_wr _ _ _ _).trans (Nat.mod_eq_of_lt ?_)
  have hpos := tblSize_pos (s.tblAt v).1
  exact Nat.lt_of_lt_of_le (Nat.mod_lt _ hpos.1) hpos.2
theorem Core.hostWrites_tables (s : Core) (key : Nat) : (s.hostWrites key).cam.tables = s.cam.tables ∧ (s.hostWrites key).regs = s.regs ∧
    Touches [.cam] s (s.hostWrites key) := by
  unfold Core.hostWrites
  split
  · exact ⟨rfl, rfl, .refl _ s⟩
  · exact ⟨rfl, rfl, ((Within.refl [] [.cam] s).cam _).parts⟩
theorem tblRead_answers {c : Call} {v : Fin 4} {s : State} (hc : CleanHeader c 4) (hr : Runs c 0x0100 2 s) (hcdc : s.field.core.cdc.out = []) :
    Answers (.ispTblDataAccess c v none) s fun t =>
      let table := s.field.core.rd ISP_TBL_IDX.TABLE v.val; let i := s.field.core.rd ISP_TBL_IDX.IDX v.val % tblSize table
      Completed c 0x0100 0 (s.field.core.tbl v.val table i % 2 ^ 128) s t ∧
      t.field.core.rd ISP_TBL_IDX.IDX v.val = (i + 1) % tblSize table ∧
      t.field.core.cam.tables = s.field.core.cam.tables ∧ CommandFrame c 0x0100 [ISP_TBL_IDX.IDX.key v.val] s t := by
  obtain ⟨hat, -, hpriv, -, hshared, hlatched⟩ := camAddr_facts v (ISP_TBL_DATA.DATA.addr v.val) (by simp)
  obtain ⟨-, htone, htbl⟩ := camAddr_at v
  have hcam := taken_cam c 0x0100 s
  have htaken := SameRegs.taken c 0x0100 [ISP_TBL_IDX.IDX.key v.val] s
  obtain ⟨htable, hidx⟩ := taken_tblAt c 0x0100 s v
  have hread : regRead (ISP_TBL_DATA.DATA.addr v.val) (s.taken c 0x0100).field.core = tblRead v.val (s.taken c 0x0100).field.core := by
    unfold regRead
    rw [Core.crosses_of_none (by rw [taken_cdc]; exact hcdc), Core.present_shared _ hshared, hlatched, htone, htbl]
    rfl
  obtain ⟨t, ht, hdone⟩ := regRead_done (i := .ispTblDataAccess c v none) (a := ISP_TBL_DATA.DATA.addr v.val) rfl hc hr hat
    (Nat.le_trans hpriv (hr.priv_ge (by decide))) (Core.crosses_of_none hcdc _) hread (taken_etime c 0x0100 s) rfl
  have hcompleted := hdone.completed
  generalize (s.taken c 0x0100).field.core = τ at *
  refine ⟨t, ht, ?_, ?_, ?_, hdone.frame ?_⟩
  · rw [htable, hidx, Core.tbl, hcam] at hcompleted
    exact hcompleted
  · refine (hdone.rd _ _ (taken_tblAt.tblKeys v).2.2).trans ((τ.rd_nextTbl v.val).trans ?_)
    rw [Core.tblAt, htable, hidx]
  · rw [hdone.rest]
    exact congrArg CamSt.tables hcam
  · exact htaken.wr _ (by simp)
/-- What a write of an entry leaves. -/
theorem tblWrite_spec {s : Core} {v x table i : Nat} (htable : s.rd ISP_TBL_IDX.TABLE v = table) (hidx : s.rd ISP_TBL_IDX.IDX v % tblSize table = i) :
    (tblWrite v x s).tbl v table i = (if table = 0 then x &&& 0x9FFF else if table = 1 then x % 65536 else x % 256) ∧
    (tblWrite v x s).rd ISP_TBL_IDX.IDX v = (i + 1) % tblSize table ∧ SameRegs [ISP_TBL_IDX.IDX.key v] s (tblWrite v x s) ∧
    Touches [.cam] s (tblWrite v x s) := by
  have hat : s.tblAt v = (table, i) := by rw [Core.tblAt, htable, hidx]
  obtain ⟨htables, hregs, hparts⟩ := (s.setTbl v table i x).hostWrites_tables (tblKey v table i)
  have hdo : tblWrite v x s = ((s.setTbl v table i x).hostWrites (tblKey v table i)).nextTbl v := by
    unfold tblWrite
    rw [hat]
  have hkept : ((s.setTbl v table i x).hostWrites (tblKey v table i)).tblAt v = (table, i) := by
    rw [← hat, Core.tblAt, Core.tblAt, Core.rd_congr (hregs.trans rfl : _ = s.regs), Core.rd_congr (hregs.trans rfl : _ = s.regs)]
  rw [hdo]
  refine ⟨?_, ?_, SameRegs.wr (.of_regs hregs) _ (by simp), ?_⟩
  · change mget (tblDefault table i) ((s.setTbl v table i x).hostWrites (tblKey v table i)).cam.tables (tblKey v table i) = _
    rw [htables]
    exact mget_mset _ _ _ _
  · rw [Core.rd_nextTbl, hkept]
  · exact ((((Within.refl [] [.cam] s).cam _).parts).trans hparts).trans ((Touches.wr _ _ _ _).mono (by simp))
theorem tblWrite_answers {c : Call} {v : Fin 4} {x : Word} {s : State} (hc : CleanHeader c 8) (hr : Runs c 0x0101 2 s)
    (hcdc : s.field.core.cdc.out = []) : Answers (.ispTblDataAccess c v (some x)) s fun t =>
      let table := s.field.core.rd ISP_TBL_IDX.TABLE v.val; let i := s.field.core.rd ISP_TBL_IDX.IDX v.val % tblSize table
      Completed c 0x0101 0 0 s t ∧
      t.field.core.tbl v.val table i = (if table = 0 then x.toNat % 65536 &&& 0x9FFF else if table = 1 then x.toNat % 65536
        else x.toNat % 256) ∧
      t.field.core.rd ISP_TBL_IDX.IDX v.val = (i + 1) % tblSize table ∧
      CommandFrame c 0x0101 [ISP_TBL_IDX.IDX.key v.val] s t := by
  obtain ⟨htable, hidx⟩ := taken_tblAt c 0x0101 s v
  obtain ⟨htbl, hnext, hregs, hparts⟩ := tblWrite_spec (x := x.toNat % 65536) htable (congrArg₂ (· % tblSize ·) hidx rfl)
  obtain ⟨t, ht, hdone⟩ := camWrite_done (i := .ispTblDataAccess c v (some x)) (v := v) (by simp) rfl hc hr hcdc (regWriteSpecial_tblData v x.toNat _) hparts
  have htcam : t.field.core.cam = (tblWrite v.val (x.toNat % 65536) (s.taken c 0x0101).field.core).cam := by rw [hdone.rest]
  refine ⟨t, ht, hdone.completed, ?_, (hdone.rd _ _ (taken_tblAt.tblKeys v).2.2).trans hnext, hdone.frame ?_⟩
  · rw [Core.tbl, htcam, ← Core.tbl, htbl, Nat.mod_mod, Nat.mod_mod_of_dvd _ (by decide)]
  · exact (SameRegs.taken c 0x0101 _ s).trans (hregs.mono (by simp))

/-! ### The contexts of an aggregator (R467) -/

/-- A step that changes registers and tables of the pipeline's contexts alone. -/
structure ContextOnly (a b : Core) : Prop where
  within : Within [0x13] [.cam] a b
  cam : ∃ tables hostWrote, b.cam = { a.cam with tables := tables, hostWrote := hostWrote }

theorem ContextOnly.refl (a : Core) : ContextOnly a a := ⟨.refl _ _ a, _, _, rfl⟩
theorem ContextOnly.trans {a b c : Core} (hab : ContextOnly a b) (hbc : ContextOnly b c) : ContextOnly a c := by
  obtain ⟨hw, t, w, hcam⟩ := hab
  obtain ⟨hw', t', w', hcam'⟩ := hbc
  exact ⟨hw.trans hw', t', w', by rw [hcam', hcam]⟩
theorem ContextOnly.of_regs {a b : Core} (h : Within [0x13] [] a b) : ContextOnly a b :=
  ⟨h.mono (by simp) (by simp), a.cam.tables, a.cam.hostWrote, h.parts .cam (by simp)⟩
theorem ContextOnly.setTables (a : Core) (tables : SMap Nat) (hostWrote : List Nat) :
    ContextOnly a (a.setCam { a.cam with tables := tables, hostWrote := hostWrote }) := ⟨(Within.refl _ _ a).cam _, _, _, rfl⟩
theorem ContextOnly.setTbl (a : Core) (v table i x : Nat) : ContextOnly a (a.setTbl v table i x) := ContextOnly.setTables a _ a.cam.hostWrote
theorem ContextOnly.foldl {α : Type} {k : Core → α → Core} (l : List α) (hk : ∀ x ∈ l, ∀ s, ContextOnly s (k s x)) (s : Core) :
    ContextOnly s (l.foldl k s) := by
  refine List.foldlRecOn (motive := ContextOnly s) l _ (.refl s) fun y hy x hx => hy.trans (hk x hx y)
theorem Core.resetContext_only (s : Core) {v : Nat} (hv : v < 4) : ContextOnly s (s.resetContext v) := by
  have hlist : ∀ f ∈ [ISP_CTX.PRIO, ISP_BLACK_RG.RED, ISP_BLACK_RG.GREEN, ISP_BLACK_B.BLUE, ISP_WB_RG.RED, ISP_WB_RG.GREEN, ISP_WB_B.BLUE],
      f.block v ∈ [0x13] := fun f hf => (by decide : ∀ v : Fin 4, ∀ f ∈ [ISP_CTX.PRIO, ISP_BLACK_RG.RED, ISP_BLACK_RG.GREEN, ISP_BLACK_B.BLUE, ISP_WB_RG.RED,
        ISP_WB_RG.GREEN, ISP_WB_B.BLUE], f.block v.val ∈ [0x13]) ⟨v, hv⟩ f hf
  unfold Core.resetContext
  extract_lets x y z
  have hx : ContextOnly s x := .of_regs ((Within.refl _ _ s).clr hlist)
  have hy : ContextOnly x y := .foldl _ (fun i hi s => .of_regs ((Within.refl _ _ s).clr fun f hf => by
    rw [List.mem_singleton.1 hf]
    exact Fld.block_mem (N := 36) (by have := List.mem_range.1 hi; omega) (by decide))) x
  have hz : ContextOnly y z := .foldl _ (fun i hi s => .of_regs ((Within.refl _ _ s).clr fun f hf => by
    rw [List.mem_singleton.1 hf]
    exact Fld.block_mem (N := 12) (by have := List.mem_range.1 hi; omega) (by decide))) y
  exact ((hx.trans hy).trans hz).trans (.setTables z _ _)
theorem Core.loadContext_only (s : Core) {v : Nat} (hv : v < 4) (m : Bytes) (sensor : Option Nat) (keep : Bool) :
    ContextOnly s (s.loadContext v m sensor keep) := by
  have hblack : ISP_BLACK_RG.RED.block v ∈ [0x13] ∧ ISP_BLACK_RG.GREEN.block v ∈ [0x13] ∧ ISP_BLACK_B.BLUE.block v ∈ [0x13] :=
    (by decide : ∀ v : Fin 4, ISP_BLACK_RG.RED.block v.val ∈ [0x13] ∧ ISP_BLACK_RG.GREEN.block v.val ∈ [0x13] ∧ ISP_BLACK_B.BLUE.block v.val ∈ [0x13]) ⟨v, hv⟩
  obtain ⟨hred, hgreen, hblue⟩ := hblack
  unfold Core.loadContext
  extract_lets x host load
  have hx : ContextOnly s x := by
    unfold x
    split
    · exact .refl s
    · exact s.resetContext_only hv
  clear_value x
  cases sensor with
  | none => exact hx
  | some i =>
    dsimp -zeta only
    extract_lets c y z w
    have hy : ContextOnly x y := by
      unfold y
      split
      · exact .refl x
      · exact .of_regs ((Within.refl _ _ x).wrs (by simp only [List.forall_mem_cons]; exact ⟨hred, hgreen, fun _ h => (nomatch h)⟩))
    have hz : ContextOnly y z := by
      unfold z
      split
      · exact .refl y
      · exact .of_regs ((Within.refl _ _ y).wr _ hblue)
    have hload : ∀ t j x s, ContextOnly s (load t j x s) := fun t j x s => by
      unfold load
      split
      · exact .refl s
      · exact .setTbl s _ _ _ _
    have hw : ContextOnly z w := .foldl _ (fun j _ s => hload _ _ _ s) z
    exact (hx.trans (hy.trans (hz.trans hw))).trans (.foldl _ (fun j _ s => hload _ _ _ s) w)

/-! ### Identification of the aggregator (R151, R461) -/

/-- The registers that show an identification. -/
def identKeys : List Nat := [CAM_STATUS.STATE.key 0, CAM_STATUS.REASON.key 0, CAM_STATUS.VC_MASK.key 0, CAM_STATUS.LANES.key 0,
  LOG_EVT_OVWR_CNT.COUNT.key 0, ISP_CTX.ACTIVE.key 0, ISP_CTX.ACTIVE.key 1, ISP_CTX.ACTIVE.key 2, ISP_CTX.ACTIVE.key 3]
/-- A camera that does not run, and is not to, changes its state alone. -/
theorem Core.setCamState_plain {s : Core} (h : s.camState ≠ 5) {v : Nat} (hv : v ≠ 5) : s.setCamState v = s.wr CAM_STATUS.STATE v := by
  unfold Core.setCamState
  rw [if_neg fun h' => hv h'.2, if_neg fun h' => h h'.1]
/-- What is shown of an aggregator. -/
theorem Core.identShown (s : Core) {state reason : Nat} (mask lanes : Nat) (hs : state < 8) (hr : reason < 256) :
    let x := (s.wr CAM_STATUS.STATE state).wrs [(CAM_STATUS.REASON, reason), (CAM_STATUS.VC_MASK, mask), (CAM_STATUS.LANES, lanes)]
    x.camState = state ∧ x.rd CAM_STATUS.REASON = reason ∧ x.rd CAM_STATUS.VC_MASK = mask % 16 ∧ SameRegs identKeys s x ∧ Touches [] s x := by
  intro x
  have hmem := fun p hp => Core.rd_wrs_mem (n := 0) (s.wr CAM_STATUS.STATE state) (l := [(CAM_STATUS.REASON, reason), (CAM_STATUS.VC_MASK, mask),
    (CAM_STATUS.LANES, lanes)]) (by simp only [List.map_cons, List.map_nil]; decide) (p := p) hp
  simp only [List.forall_mem_cons] at hmem
  obtain ⟨hreason, hmask, -⟩ := hmem
  refine ⟨?_, hreason.trans (Nat.mod_eq_of_lt hr), hmask, ?_, (Touches.wr _ _ _ _).trans (Touches.wrs _ _ _)⟩
  · refine (Core.rd_wrs_ne _ 0 CAM_STATUS.STATE 0 _ ?_).trans ((Core.rd_wr _ _ _ _).trans (Nat.mod_eq_of_lt hs))
    simp only [List.forall_mem_cons]
    exact ⟨by decide, by decide, by decide, fun _ h => (nomatch h)⟩
  · refine SameRegs.wrs ((SameRegs.refl _ s).wr state) ?_
    simp only [List.forall_mem_cons]
    exact ⟨by decide, by decide, by decide, fun _ h => (nomatch h)⟩
/-- An aggregator is refused. -/
structure CamRefused (reason : Nat) (a b : Core) : Prop where
  state : b.camState = 2
  shown : b.rd CAM_STATUS.REASON = reason
  mask : b.rd CAM_STATUS.VC_MASK = 0
  mem : b.cam.mem = []
  event : b.newest 0x0A41 = some (0x0A41, reason)
  regs : SameRegs identKeys a b
  parts : Touches [.cam, .cmdq] a b
theorem Core.camRefuse_refused {s : Core} (hst : s.camState ≠ 5) (hre : s.cam.reinit = []) {reason : Nat} (hr : reason < 256) :
    CamRefused reason s (s.camRefuse reason) := by
  have hplain := Core.setCamState_plain (s := s.setCam { s.cam with mem := [] }) ((Core.rd_congr rfl _ _).trans_ne hst) (v := 2) (by decide)
  obtain ⟨hstate, hreason, hmask, hregs, hparts⟩ := (s.setCam { s.cam with mem := [] }).identShown (state := 2) 0 0 (by decide) hr
  unfold Core.camRefuse
  rw [hplain]
  generalize ((s.setCam { s.cam with mem := [] }).wr CAM_STATUS.STATE 2).wrs _ = y at *
  change CamRefused reason s ((((List.range 4).foldl (fun s v => s.wr ISP_CTX.ACTIVE 0 v) y).emit 0x0A41 reason).endReinit _)
  have hactive : SameRegs [ISP_CTX.ACTIVE.key 0, ISP_CTX.ACTIVE.key 1, ISP_CTX.ACTIVE.key 2, ISP_CTX.ACTIVE.key 3] y
      ((List.range 4).foldl (fun s v => s.wr ISP_CTX.ACTIVE 0 v) y) :=
    SameRegs.foldl _ (fun v hv s => (SameRegs.refl _ s).wr 0 (activeKey_mem ⟨v, List.mem_range.1 hv⟩)) y
  have hactivep : Touches [] y ((List.range 4).foldl (fun s v => s.wr ISP_CTX.ACTIVE 0 v) y) := Touches.foldl _ (fun _ _ _ => Touches.wr _ _ _ _) y
  have hall := (((Within.refl [] [.cam] s).cam { s.cam with mem := [] }).parts).trans ((hparts.trans hactivep).mono (by simp))
  have hkept : ((List.range 4).foldl (fun s v => s.wr ISP_CTX.ACTIVE 0 v) y).cam = { s.cam with mem := [] } :=
    ((hparts.trans hactivep) .cam (by simp))
  generalize (List.range 4).foldl (fun s v => s.wr ISP_CTX.ACTIVE 0 v) y = z at *
  have hraised : z.Raised (z.emit 0x0A41 reason) 0x0A41 reason := Core.raised_emit_of (by omega) rfl rfl
  have hemit : SameRegs [LOG_EVT_OVWR_CNT.COUNT.key 0] z (z.emit 0x0A41 reason) := (SameRegs.refl _ z).emit _ _ _
  have hto := Touches.emit z 0x0A41 reason 0
  generalize z.emit 0x0A41 reason = w at *
  have hwcam : w.cam = { s.cam with mem := [] } := (hto .cam (by decide)).trans hkept
  rw [Core.endReinit_none (show w.cam.reinit = [] by rw [hwcam, hre])]
  have hrd : ∀ f : Fld, f.key 0 ∉ [LOG_EVT_OVWR_CNT.COUNT.key 0] → f.key 0 ∉ [ISP_CTX.ACTIVE.key 0, ISP_CTX.ACTIVE.key 1, ISP_CTX.ACTIVE.key 2, ISP_CTX.ACTIVE.key 3] →
      w.rd f 0 = y.rd f 0 := fun f h1 h2 => (hemit f 0 h1).trans (hactive f 0 h2)
  refine ⟨(hrd _ (by decide) (by decide)).trans hstate, (hrd _ (by decide) (by decide)).trans hreason, (hrd _ (by decide) (by decide)).trans hmask,
    (congrArg CamSt.mem hwcam :), (hraised.congr (a' := z) rfl rfl rfl rfl rfl rfl rfl).1, ?_, ?_⟩
  · exact ((SameRegs.of_regs rfl : SameRegs identKeys s (s.setCam { s.cam with mem := [] })).trans hregs).trans
      ((hactive.mono (by decide)).trans ((hemit.mono (by decide)).trans (.of_regs rfl)))
  · exact (hall.mono (by decide)).trans ((hto.mono (by decide)).trans (((Within.refl [] [.cam] w).cam _).parts.mono (by decide)))
where
  activeKey_mem : ∀ v : Fin 4, ISP_CTX.ACTIVE.key v.val ∈ [ISP_CTX.ACTIVE.key 0, ISP_CTX.ACTIVE.key 1, ISP_CTX.ACTIVE.key 2, ISP_CTX.ACTIVE.key 3] := by decide
/-- An aggregator is accepted. -/
structure CamAccepted (m : Bytes) (serial : Nat) (a b : Core) : Prop where
  state : b.camState = 3
  shown : b.rd CAM_STATUS.REASON = 0
  mask : b.rd CAM_STATUS.VC_MASK = vcMask m % 16
  mem : b.cam.mem = m
  lastSerial : b.cam.lastSerial = some serial
  linked : b.cam.linked = a.cam.linked
  event : (b.newest 0x0A01).map (·.1) = some 0x0A01
  regs : SameOutside [0x12, 0x13, 0x1B] a b
  parts : Touches [.cam, .cmdq] a b
/-- A channel's context takes its sensor's block. -/
def Core.takeContext (mask : Nat) (m : Bytes) (keep : Bool) (s : Core) (v : Nat) : Core :=
  let s := s.wr ISP_CTX.ACTIVE (b2n (mask.testBit v)) v
  s.loadContext v m (s.sensorOf v) keep
theorem Core.takeContext_only (s : Core) (mask : Nat) (m : Bytes) (keep : Bool) {v : Nat} (hv : v < 4) :
    ContextOnly s (Core.takeContext mask m keep s v) := by
  have hwr : ContextOnly s (s.wr ISP_CTX.ACTIVE (b2n (mask.testBit v)) v) :=
    .of_regs ((Within.refl _ _ s).wr _ (Fld.block_mem (N := 4) hv (by decide)))
  exact hwr.trans (Core.loadContext_only _ hv _ _ _)
theorem Core.camAccept_takes (s : Core) (m : Bytes) (serial : Nat) : s.camAccept m serial =
    let x := ((List.range 4).foldl (Core.takeContext (vcMask m) m (s.cam.lastSerial == some serial))
      (((s.setCam { s.cam with mem := m, lastSerial := some serial }).setCamState 3).wrs
        [(CAM_STATUS.REASON, 0), (CAM_STATUS.VC_MASK, vcMask m), (CAM_STATUS.LANES, byteAt m 0x21)])).emit 0x0A01
        (byteAt m 0x21 + at_ 2 (leAt m 0x22 2) + at_ 4 (vcMask m))
    if x.rdb CAM_STATUS.STARTED then x.camAuto
    else if x.cam.reinit = [] then x
    else (x.camTrig 1000 0).endReinit fun op s => s.asyncDone op 0 0 := rfl
theorem Core.camAccept_accepted {s : Core} (hst : s.camState ≠ 5) (hre : s.cam.reinit = []) (hstarted : s.rd CAM_STATUS.STARTED = 0) (m : Bytes) (serial : Nat) :
    CamAccepted m serial s (s.camAccept m serial) := by
  have hplain := Core.setCamState_plain (s := s.setCam { s.cam with mem := m, lastSerial := some serial }) ((Core.rd_congr rfl _ _).trans_ne hst) (v := 3) (by decide)
  obtain ⟨hstate, hreason, hmask, hregs, hparts⟩ := (s.setCam { s.cam with mem := m, lastSerial := some serial }).identShown (state := 3) (reason := 0) (vcMask m)
    (byteAt m 0x21) (by decide) (by decide)
  have hdo := s.camAccept_takes m serial
  rw [hplain] at hdo
  generalize ((s.setCam { s.cam with mem := m, lastSerial := some serial }).wr CAM_STATUS.STATE 3).wrs _ = y at *
  obtain ⟨hwithin, tables, hostWrote, hzcam⟩ : ContextOnly y ((List.range 4).foldl (Core.takeContext (vcMask m) m (s.cam.lastSerial == some serial)) y) :=
    .foldl _ (fun v hv s => s.takeContext_only _ _ _ (List.mem_range.1 hv)) y
  generalize (List.range 4).foldl (Core.takeContext (vcMask m) m (s.cam.lastSerial == some serial)) y = z at *
  have hycam : y.cam = { s.cam with mem := m, lastSerial := some serial } := hparts .cam (by simp)
  have hraised := Core.raised_emit_mod (a := z) (s := z) (code := 0x0A01) (byteAt m 0x21 + at_ 2 (leAt m 0x22 2) + at_ 4 (vcMask m)) 0 rfl rfl
  have hemit := SameOutside.emit z 0x0A01 (byteAt m 0x21 + at_ 2 (leAt m 0x22 2) + at_ 4 (vcMask m)) 0
  have hto := Touches.emit z 0x0A01 (byteAt m 0x21 + at_ 2 (leAt m 0x22 2) + at_ 4 (vcMask m)) 0
  generalize z.emit 0x0A01 _ = w at *
  have hwcam : w.cam = { s.cam with mem := m, lastSerial := some serial, tables := tables, hostWrote := hostWrote } := by
    rw [(hto .cam (by decide) : w.cam = z.cam), hzcam, hycam]
  have hrd : ∀ f : Fld, f.block 0 ∉ [0x1B] → f.block 0 ∉ [0x13] → w.rd f 0 = y.rd f 0 := fun f h1 h2 => (hemit f 0 h1).trans (hwithin.rd f 0 h2)
  have hwstarted : w.rdb CAM_STATUS.STARTED = false := Core.rdb_eq_false ((hrd _ (by decide) (by decide)).trans ((hregs _ _ (by decide)).trans hstarted))
  rw [hdo.trans ((if_neg (by rw [hwstarted]; decide)).trans (if_pos (show w.cam.reinit = [] by rw [hwcam, hre])))]
  refine ⟨(hrd _ (by decide) (by decide)).trans hstate, (hrd _ (by decide) (by decide)).trans hreason, (hrd _ (by decide) (by decide)).trans hmask,
    by rw [hwcam], by rw [hwcam], by rw [hwcam], by rw [hraised.1]; rfl, ?_, ?_⟩
  · refine ((SameOutside.of_regs rfl : SameOutside _ s (s.setCam { s.cam with mem := m, lastSerial := some serial })).trans (hregs.outside identKeys_blocks)).trans
      ((hwithin.regs.mono (by decide)).trans (hemit.mono (by decide)))
  · exact (((Within.refl [] [.cam] s).cam { s.cam with mem := m, lastSerial := some serial }).parts.mono (by decide)).trans ((hparts.mono (by simp)).trans
      ((hwithin.parts.mono (by decide)).trans (hto.mono (by decide))))
where
  identKeys_blocks : ∀ k ∈ identKeys, k / 2 ^ 21 ∈ [0x12, 0x13, 0x1B] := by decide

/-- The aggregator's memory has been read, or the third attempt of one of its reads has failed. -/
structure AggregatorRead (x : IdRead) (fails : Nat) (a b : Core) : Prop where
  etime : b.etime = a.etime + idWaitsBy 1000000 x
  fails : b.rd CAM_CTL_CNT.FAIL = if fails = 0 then a.rd CAM_CTL_CNT.FAIL else satU 16 (a.rd CAM_CTL_CNT.FAIL + 1)
  cam : ∃ ctl, b.cam = { a.cam with ctl := ctl }
  regs : SameRegs [CAM_CTL_CNT.DONE.key 0, CAM_CTL_CNT.FAIL.key 0, LOG_EVT_OVWR_CNT.COUNT.key 0] a b
  parts : Touches [.etime, .cam, .cmdq] a b
theorem AggregatorRead.done (s : Core) (x : IdRead) (q : CtlReq) (n : Nat) :
    AggregatorRead x 0 s (((s.reach (s.etime + idWaitsBy 1000000 x)).ctlSend q).inc CAM_CTL_CNT.DONE 0 n) := by
  refine ⟨Nat.max_eq_right (Nat.le_add_right _ _), (Core.rd_inc_ne _ _ _ _ _ _ (by decide)).trans (Core.rd_congr rfl _ _), ⟨q.frame, rfl⟩, ?_, ?_⟩
  · exact SameRegs.inc (.of_regs rfl) n
  · exact ((((Within.refl [] [.etime, .cam, .cmdq] s).reach (s.etime + idWaitsBy 1000000 x)).cam _).parts).trans ((Touches.wr _ _ _ _).mono (by simp))
theorem AggregatorRead.failed {x : IdRead} {s y : Core} (h : AggregatorRead x 0 s y) (q : CtlReq) (status : Nat) :
    AggregatorRead x 1 s (y.ctlFailed q status) := by
  obtain ⟨hetime, hfails, ⟨ctl, hcam⟩, hregs, hparts⟩ := h
  have hinc : (y.inc CAM_CTL_CNT.FAIL).rd CAM_CTL_CNT.FAIL = satU 16 (s.rd CAM_CTL_CNT.FAIL + 1) := by
    rw [Core.rd_inc_self, hfails]
    rfl
  have hincp : Touches [.etime, .cam, .cmdq] y (y.inc CAM_CTL_CNT.FAIL) := (Touches.wr _ _ _ _).mono (by simp)
  have hincr : SameRegs [CAM_CTL_CNT.DONE.key 0, CAM_CTL_CNT.FAIL.key 0, LOG_EVT_OVWR_CNT.COUNT.key 0] y (y.inc CAM_CTL_CNT.FAIL) := (SameRegs.refl _ y).inc 1
  have htime : (y.inc CAM_CTL_CNT.FAIL).etime = y.etime := rfl
  have hkept : (y.inc CAM_CTL_CNT.FAIL).cam = y.cam := rfl
  have hto := Touches.emit (y.inc CAM_CTL_CNT.FAIL) 0x0A07 (q.cmd + at_ 1 status) 0
  unfold Core.ctlFailed
  refine ⟨?_, ?_, ⟨ctl, ?_⟩, (hregs.trans hincr).emit _ _ _, (hparts.trans hincp).trans (hto.mono (by decide))⟩
  · exact (hto .etime (by decide)).trans (htime.trans hetime)
  · exact ((SameRegs.refl [LOG_EVT_OVWR_CNT.COUNT.key 0] _).emit _ _ _ (by simp) _ _ (by decide)).trans hinc
  · exact (hto .cam (by decide)).trans (hkept.trans hcam)
theorem Core.readAggregator_fails {s : Core} {x : IdRead} (h : idGot x = none) :
    ∃ y, s.readAggregator x = (none, y) ∧ AggregatorRead x 1 s y := by
  have hany : x.fails.any (fun f => decide (3 ≤ f.2.length)) = true := by
    unfold idGot at h
    split at h
    · next hany => exact hany
    · cases h
  obtain ⟨f, hf⟩ : ∃ f, x.fails.find? (fun f => decide (3 ≤ f.2.length)) = some f := by
    obtain ⟨f, hmem, hp⟩ := List.any_eq_true.1 hany
    exact Option.isSome_iff_exists.1 (List.find?_isSome.2 ⟨f, hmem, hp⟩)
  unfold Core.readAggregator
  extract_lets t
  rw [hf]
  exact ⟨_, rfl, (AggregatorRead.done s x _ _).failed _ _⟩
theorem Core.readAggregator_reads {s : Core} {x : IdRead} {m : IdMem} (h : idGot x = some m) :
    ∃ y, s.readAggregator x = (some m, y) ∧ AggregatorRead x 0 s y := by
  have hany : x.fails.any (fun f => decide (3 ≤ f.2.length)) = false ∧ x.mem = m := by
    unfold idGot at h
    split at h
    · cases h
    · next hany => exact ⟨Bool.not_eq_true _ ▸ hany, Option.some.inj h⟩
  have hf : x.fails.find? (fun f => decide (3 ≤ f.2.length)) = none :=
    List.find?_eq_none.2 fun f hmem => List.any_eq_false.1 hany.1 f hmem
  unfold Core.readAggregator
  extract_lets t
  rw [hf]
  exact ⟨_, congrArg₂ Prod.mk (congrArg some hany.2) rfl, .done s x _ _⟩
/-- What becomes of an aggregator once its memory is read. -/
def Core.identify (x : IdRead) (s : Core) : Core :=
  match (s.readAggregator x).1 with
  | none => (s.readAggregator x).2.camRefuse 1
  | some m =>
    if identCheck m 3 32 4064 (camRanges m) ≠ 0 then (s.readAggregator x).2.camRefuse (identCheck m 3 32 4064 (camRanges m))
    else (s.readAggregator x).2.camAccept (memRead m 0 0x700) (memSerial m)
theorem Core.identify_none {x : IdRead} {s y : Core} (h : s.readAggregator x = (none, y)) : s.identify x = y.camRefuse 1 := by
  unfold Core.identify
  rw [h]
theorem Core.identify_good {x : IdRead} {s y : Core} {m : IdMem} (h : s.readAggregator x = (some m, y))
    (hcheck : identCheck m 3 32 4064 (camRanges m) = 0) : s.identify x = y.camAccept (memRead m 0 0x700) (memSerial m) := by
  unfold Core.identify
  rw [h]
  exact if_neg (by rw [hcheck]; decide)
/-- The link comes up: the aggregator's memory is read. -/
theorem doCamLinkUp_reads {x : IdRead} {s : Core} (hfw : s.fwRuns = true) (hst : s.camState = 0) (hlinked : s.cam.linked = false) :
    ∃ y : Core, doCamLinkUp x s = y.identify x ∧ y.camState = 1 ∧ y.cam = { s.cam with linked := true } ∧ SameRegs [CAM_STATUS.STATE.key 0] s y ∧ Touches [.cam] s y := by
  refine ⟨(s.setCam { s.cam with linked := true }).wr CAM_STATUS.STATE 1, ?_, (Core.rd_wr _ _ _ _), rfl, SameRegs.wr (.of_regs rfl) 1,
    (((Within.refl [] [.cam] s).cam { s.cam with linked := true }).parts).trans ((Touches.wr _ _ _ _).mono (by simp))⟩
  unfold doCamLinkUp
  rw [hfw, hlinked, if_neg (by decide), Core.setCamState_plain (s := s.setCam { s.cam with linked := true })
    ((Core.rd_congr rfl _ _).trans_ne (hst.trans_ne (by decide))) (by decide)]
  rfl
/-- Both events of a refused aggregator are hardware's, so they wait in one queue. -/
theorem Core.newest_camera (s : Core) : s.newest 0x0A07 = s.newest 0x0A41 := rfl
section
variable {s : State} {x : IdRead} (hboot : s.field.core.bootState ≠ 1) (hfw : s.field.core.fwRuns = true) (hst : s.field.core.camState = 0)
  (hlinked : s.field.core.cam.linked = false) (hre : s.field.core.cam.reinit = [])
include hboot hfw hst hlinked hre

theorem camLinkUp_refuses (hgot : idGot x = none) : Answers (.camLinkUp x.mem x.fails) s fun t =>
      t.field.core.camState = 2 ∧ t.field.core.rd CAM_STATUS.REASON = 1 ∧ t.field.core.rd CAM_STATUS.VC_MASK = 0 ∧
      t.field.core.cam.mem = [] ∧ t.field.core.etime = s.field.core.etime + idWaitsBy 1000000 x ∧
      t.field.core.rd CAM_CTL_CNT.FAIL = satU 16 (s.field.core.rd CAM_CTL_CNT.FAIL + 1) ∧
      (t.field.core.newest 0x0A07).isSome = true ∧ t.field.core.newest 0x0A41 = some (0x0A41, 1) ∧
      SameOutside [0x12, 0x13, 0x1B] s.field.core t.field.core ∧ CoreOnly s t := by
  refine answers_of_onRunning (g := doCamLinkUp x) rfl hboot ?_
  obtain ⟨y, hdo, hystate, hycam, hyregs, hyparts⟩ := doCamLinkUp_reads (x := x) hfw hst hlinked
  obtain ⟨z, hread, hetime, hfails, ⟨ctl, hcam⟩, hregs, hparts⟩ := Core.readAggregator_fails (s := y) hgot
  have hz : z.camState ≠ 5 := (hregs CAM_STATUS.STATE 0 (by decide)).trans_ne (hystate.trans_ne (by decide))
  obtain ⟨hstate, hshown, hmask, hmem, hevent, hident, hto⟩ := Core.camRefuse_refused hz (by rw [hcam, hycam, ← hre]) (reason := 1) (by decide)
  have hdo' : doCamLinkUp x s.field.core = z.camRefuse 1 := hdo.trans (Core.identify_none hread)
  simp only [State.onCore, Field.onCore, hdo']
  refine ⟨hstate, hshown, hmask, hmem, ?_, ?_, ?_, hevent, ?_, rfl, rfl, rfl⟩
  · rw [(hto .etime (by decide) : _ = z.etime), hetime, (hyparts .etime (by decide) : y.etime = _)]
  · rw [hident _ _ (by decide), hfails, hyregs _ _ (by decide)]
    rfl
  · rw [Core.newest_camera, hevent]
    rfl
  · exact (hyregs.outside camKeys_blocks.1).trans ((hregs.outside camKeys_blocks.2).trans (hident.outside Core.camAccept_accepted.identKeys_blocks))
where
  camKeys_blocks : (∀ k ∈ [CAM_STATUS.STATE.key 0], k / 2 ^ 21 ∈ [0x12, 0x13, 0x1B]) ∧
    ∀ k ∈ [CAM_CTL_CNT.DONE.key 0, CAM_CTL_CNT.FAIL.key 0, LOG_EVT_OVWR_CNT.COUNT.key 0], k / 2 ^ 21 ∈ [0x12, 0x13, 0x1B] := by decide
theorem camLinkUp_accepts {m : IdMem} (hgot : idGot x = some m) (hcheck : identCheck m 3 32 4064 (camRanges m) = 0)
    (hstarted : s.field.core.rd CAM_STATUS.STARTED = 0) : Answers (.camLinkUp x.mem x.fails) s fun t =>
      t.field.core.camState = 3 ∧ t.field.core.cam.linked = true ∧
      t.field.core.etime = s.field.core.etime + idWaitsBy 1000000 x ∧
      t.field.core.rd CAM_STATUS.REASON = 0 ∧ t.field.core.cam.mem = memRead m 0 0x700 ∧
      t.field.core.rd CAM_STATUS.VC_MASK = vcMask (memRead m 0 0x700) % 16 ∧
      t.field.core.cam.lastSerial = some (memSerial m) ∧ (t.field.core.newest 0x0A01).map (·.1) = some 0x0A01 ∧
      SameOutside [0x12, 0x13, 0x1B] s.field.core t.field.core ∧ CoreOnly s t := by
  refine answers_of_onRunning (g := doCamLinkUp x) rfl hboot ?_
  obtain ⟨y, hdo, hystate, hycam, hyregs, hyparts⟩ := doCamLinkUp_reads (x := x) hfw hst hlinked
  obtain ⟨z, hread, hetime, -, ⟨ctl, hcam⟩, hregs, hparts⟩ := Core.readAggregator_reads (s := y) hgot
  have hz : z.camState ≠ 5 := (hregs CAM_STATUS.STATE 0 (by decide)).trans_ne (hystate.trans_ne (by decide))
  have hzst : z.rd CAM_STATUS.STARTED = 0 := (hregs _ _ (by decide)).trans ((hyregs _ _ (by decide)).trans hstarted)
  obtain ⟨hstate, hshown, hmask, hmem, hserial, hup, hevent, hident, hto⟩ := Core.camAccept_accepted hz (by rw [hcam, hycam, ← hre]) hzst
    (memRead m 0 0x700) (memSerial m)
  have hdo' : doCamLinkUp x s.field.core = z.camAccept (memRead m 0 0x700) (memSerial m) := hdo.trans (Core.identify_good hread hcheck)
  simp only [State.onCore, Field.onCore, hdo']
  refine ⟨hstate, ?_, ?_, hshown, hmem, hmask, hserial, hevent, ?_, rfl, rfl, rfl⟩
  · rw [hup, hcam, hycam]
  · rw [(hto .etime (by decide) : _ = z.etime), hetime, (hyparts .etime (by decide) : y.etime = _)]
  · exact (hyregs.outside camLinkUp_refuses.camKeys_blocks.1).trans ((hregs.outside camLinkUp_refuses.camKeys_blocks.2).trans hident)
end

/-! ### The camera's statement -/

/-- Settles O55: each command, request and link event of the camera, and the servo's modes and commits. -/
theorem cameraCommandsAndControlAct : Obligations.CameraCommandsAndControlAct := by
  unfold Obligations.CameraCommandsAndControlAct
  refine ⟨fun c s => ⟨?_, ?_, ?_, ?_, ?_, ?_⟩, fun s hboot => ⟨?_, ?_, ?_, ?_, ?_⟩⟩
  · exact fun hc hr hst hstart hauto hroom => camStart_answers hc hr hst hstart hauto hroom
  · exact fun hc hr hst => camStop_answers hc hr hst
  · exact fun hc hr hprint hstart hframes hcdc hop => camReinit_answers hc hr hprint hstart hframes hcdc hop
  · exact fun mask mode hc hr hbars hm => servoSet_answers mask mode hc hr hbars hm
  · exact fun v x hc hr hcdc => ⟨camExpWrite_answers hc hr hcdc, tblWrite_answers hc hr hcdc⟩
  · exact fun v hc hr hcdc => tblRead_answers hc hr hcdc
  · exact fun op due a hre hst hlinked ha => camReinitTimeout_answers hboot hre hst hlinked ha
  · exact fun x hfw hst hlinked hre => ⟨fun hgot => camLinkUp_refuses hboot hfw hst hlinked hre hgot,
      fun m hgot hcheck hstarted => camLinkUp_accepts hboot hfw hst hlinked hre hgot hcheck hstarted⟩
  · exact fun i cause hstart hcdc hframes hi => camEnd_answers hboot hstart hcdc hframes hi
  · exact fun r rs hreqs => ⟨fun hfails => camCtlTimeout_retries hboot hreqs hfails,
      fun hfails hkind hrs => camCtlTimeout_fails hboot hreqs hfails hkind hrs,
      fun frame ref hstatus hlen hkind hrs hst hstart hopen hsrc hre =>
        camCtlResponse_answers hboot hreqs frame ref hstatus hlen hkind hrs hst hstart hopen hsrc hre⟩
  · exact fun b hmode hhold => servoCommit_answers hboot b hmode hhold

end Sys2Proof.Machine
end
